-- ==== Sys2Proof/Word.lean ====
section
/-!
DEFINITION. The word types of the model, and the index types of R21 (00_scope.md).
-/
namespace Sys2Proof

/-- A byte (R13). -/
abbrev Byte := BitVec 8
/-- A 16-bit field. -/
abbrev W16 := BitVec 16
/-- A 32-bit field. -/
abbrev W32 := BitVec 32
/-- A 64-bit field. -/
abbrev W64 := BitVec 64

/-- A context number, 0–63 (R21). -/
abbrev Ctx := Fin 64
/-- A partition PT0–PT7 (R21). -/
abbrev Pt := Fin 8
/-- A sheet SH00–SH23 (R21). -/
abbrev Sh := Fin 24
/-- A physical column PC0–PC17 of a sheet (R21). -/
abbrev Pc := Fin 18
/-- A tile row T00–T15 of a sheet (R21). -/
abbrev Row := Fin 16
/-- An LPDDR5X channel CH000–CH191 (R21). -/
abbrev Ch := Fin 192
/-- A fabric port FP00–FP17 (R21). -/
abbrev Port := Fin 18
/-- An engine index: 0 GE, 1 ME, 2 CE, 3 KE (R325). -/
abbrev Eng := Fin 4
/-- An engine queue Q0–Q3 (R21). -/
abbrev Qn := Fin 4
/-- A mailbox request or response as bytes at ascending offsets (R297). -/
abbrev Payload := List Byte

end Sys2Proof
end

