-- ==== Sys2Proof/Syntax.lean ====
section
/-!
DEFINITION. The commands of the block: one constructor of `Instr` per row of spec/opcode_table.json, in the
table's order. A mailbox command issued by the host carries its request bytes (its REQ_LEN is their number, R288);
an engine entry carries the queue and the sequence number of the entry it carries out; an event carries what the
world outside the module decides (data returned by the host, test results, measured values), log entries 5 and 7.
-/
namespace Sys2Proof

/-- What a read of memory outside the module returns (R281, R333). -/
inductive ReadResult where
  | data (bytes : List Byte)
  | poison
  | error
  deriving DecidableEq, Repr

/-- The outcome of an ECC check: R223 for on-die words, R233 for LPDDR5X words (tagError for LPDDR5X only). -/
inductive Ecc where
  | clean
  | corrected
  | uncorrectable
  | tagError
  deriving DecidableEq, Repr

/-- Bits of a channel's array that have ceased to hold what the controller wrote: group, burst of the group (0–14 data, 15 check) and bits of the
burst (R231–R233). -/
structure DramFlip where
  ch : Ch
  group : BitVec 24
  burst : Fin 16
  mask : BitVec 512
  deriving DecidableEq, Repr

/-- A physical tile: sheet, physical column, tile row (R22). -/
structure PTile where
  sh  : Sh
  pc  : Pc
  row : Row
  deriving DecidableEq, Repr

/-- A cell of a firmware message at the tile where it enters the message plane (R138, R162, R365; log entry 54). -/
structure FwCell where
  t       : PTile
  destRow : Row
  destCol : Fin 48
  last    : Bool
  data    : BitVec 512
  deriving DecidableEq, Repr

/-- What the physical world does to the wire and the on-die stores in one arithmetic cycle (log entry 15). -/
inductive WireEvent where
  /-- A word at an input of a router is changed by xor (port code of R172: 0 N, 1 S, 2 E1, 3 E2, 4 W1, 5 W2, 6 L). -/
  | flip (t : PTile) (port : Fin 7) (mask : BitVec 560)
  /-- The spare's word differs from its target's on a sheet under shadow compare (R469, R471). -/
  | shadow (sh : Sh) (row : Row) (port : Fin 7) (lane : Fin 17) (diff : W32)
      (temp : Int) (mv : Nat) (act : Byte)
  /-- An ECC event on a program read of an on-die word (R226). -/
  | sram (t : PTile) (addr : Nat) (lanes : Byte) (ecc : Ecc)
  deriving DecidableEq, Repr

/-- What the sheets report at a calender point beyond the state the model holds (R418, R475). -/
inductive CalEvent where
  /-- A sheet whose SPROG differs (R418). -/
  | progress (sh : Sh) (sprog : W64)
  /-- An S-tile watermark accumulator pair that differs (R475). -/
  | shadowWm (sh : Sh) (row : Row) (diff : W32) (temp : Int) (mv : Nat) (act : Byte)
  deriving DecidableEq, Repr

/-- One failing result of a BIST or March run on a column (R442, R443, R445, R466). -/
structure BistFail where
  row        : Row
  /-- The failure a spare row, spare bit column or spare MAC row covers (R442, R445). -/
  repairable : Bool
  /-- KIND 0 logic, 1 margin, 2 March (R466). -/
  kind       : Fin 3
  detail     : W32
  sigDiff    : W64
  /-- The repair entry kind (R459) and its DETAIL, used when the failure is repaired. -/
  repKind    : Byte
  repDetail  : W32
  deriving DecidableEq, Repr

/-- The conditions a result record carries (R441, R466). -/
structure BistCond where
  temp : Byte
  mv   : W16
  deriving DecidableEq, Repr

/-- What a restart window finds on one column (R453, R454). -/
structure ColFail where
  sh   : Sh
  pc   : Pc
  fail : BistFail
  deriving DecidableEq, Repr

/-- What a restart window finds on die-to-die links: a lane repaired, or no free spare lane (R455). -/
structure D2dFail where
  sh       : Sh
  repaired : Bool
  loc      : W32
  detail   : W32
  deriving DecidableEq, Repr

/-- What the delivery logic observes when it decides a copy: the host-side lines, whether IRQ_AT has been written since it was last read, and
whether the writes to the ring and the bounce ring succeed (R357, R359, R360, R370, R374). -/
structure RingObs where
  rd        : W32
  irqAt     : W32
  brd       : W32
  writeOk   : Bool
  bounceOk  : Bool
  rearmed   : Bool := false
  deriving DecidableEq, Repr

/-- A peer's report to the replica decision (R484): its local decision and its region watermarks. -/
structure ReplicaReport where
  pos      : Nat
  rollback : Bool
  wms      : List (Nat × BitVec 128)
  deriving DecidableEq, Repr

/-- FEC codewords of a received packet that RS(544,514) has corrected, and that it could not (R540, R571). -/
structure FecCount where
  corr   : Nat
  uncorr : Nat
  deriving DecidableEq, Repr

/-- The interface a periodic analogue check was made on (R455). -/
inductive PhyUnit where
  | channel (c : Ch)
  | fabric (p : Port) (lane : Fin 4)
  | cxl (lane : Fin 8)
  deriving DecidableEq, Repr

/-- One sample of the power limiter (R682): the 100 µs average in W, and whether the draw exceeded 1,900 W for more than 8 ms of the last 10 ms. -/
structure PowerSample where
  avg    : Nat
  overLimit : Bool
  deriving DecidableEq, Repr

/-- One reading of a temperature sensor (R685): a tile's, or one of a deckle or control die by its code. -/
inductive TempReading where
  | tile (t : PTile) (deg : Int)
  | die (code : Byte) (deg : Int)
  deriving DecidableEq, Repr

/-- What identifying a Reel cartridge finds (R648, R651–R654, R660): `pu` and `units` are Percentage Used and Data Units Written, `content` the bytes
of namespace 1 that are not zero. -/
structure ReelFound where
  present    : Bool
  linkOk     : Bool
  reduced    : Bool
  authentic  : Bool
  lba4k      : Bool
  nlba       : Nat
  pu         : Nat
  units      : Nat
  readOnly   : Bool
  serial     : BitVec 160
  fwrev      : BitVec 64
  chain      : BitVec 512
  content    : List (Nat × Byte)
  deriving DecidableEq, Repr

/-- The verdicts on an image that rest on cryptography (R220, R626; log entry 8). -/
structure Verdict where
  sigOk : Bool
  deriving DecidableEq, Repr

/-- A slot of a channel, with what the wire changes of the word that crosses in it (R138, R248). -/
structure ChanSlot where
  ch   : Ch
  flip : BitVec 560
  deriving DecidableEq, Repr

/-- A slot of the message plane: what the wires change in it, and the cells that firmware puts into L latches (R162–R164). -/
structure PlaneSlot where
  evs   : List WireEvent
  cells : List FwCell
  deriving DecidableEq, Repr

/-- A sheet, with what is observed at the calender point at which its spare moves (R431–R433). -/
structure SheetPoint where
  sh  : Sh
  evs : List CalEvent
  deriving DecidableEq, Repr

/-- The payload of an Ethernet frame as it arrives, with the counts of the port's FEC (R537, R548). -/
structure Arrived where
  bytes : List Byte
  fec   : FecCount
  deriving DecidableEq, Repr

/-- Width and flit mode in which the CXL link has trained (R279). -/
structure CxlMode where
  width  : Nat
  flit68 : Bool
  deriving DecidableEq, Repr

/-- A command of the block: a mailbox command, a register write, an engine entry, a bus or fabric event, or one of
the module's own steps, as spec/opcode_table.json lists them. -/
inductive Instr where
  -- mailbox commands from the host (R289, R298)
  | identify (p : Payload)
  | opStatus (p : Payload)
  | describe (p : Payload)
  | resolve (p : Payload)
  | children (p : Payload)
  | status (p : Payload)
  | counters (p : Payload)
  | groupCreate (p : Payload)
  | groupEdit (p : Payload)
  | groupDelete (p : Payload)
  | startStatus (p : Payload)
  | ctxCreate (p : Payload)
  | ctxDestroy (p : Payload)
  | ctxAlloc (p : Payload)
  | ctxFree (p : Payload)
  | ctxBind (p : Payload)
  | ctxSuspend (p : Payload)
  | suspensionSaved (c : Ctx)
  | ctxResume (p : Payload)
  | resumptionFinished (c : Ctx)
  | queueConfig (p : Payload)
  | progLoad (p : Payload)
  | progLoadFinished (c : Ctx) (image : ReadResult) (v : Verdict)
  | progUnload (p : Payload)
  | progInfo (p : Payload)
  | reset (p : Payload)
  | partitionResetEnd (op : W32) (cols : List ColFail) (d2d : List D2dFail) (chans : List Ch) (cond : BistCond)
  | fwRestart (p : Payload)
  | fwRestartEnd (coreFails : List (Fin 16)) (v : Verdict)
  | modeSet (p : Payload)
  | modeUnitApplied (mode : Fin 3) (lanes : BitVec 4)
  | modeGet (p : Payload)
  | powerSet (p : Payload)
  | powerStateReached (op : W32)
  | fence (p : Payload)
  | unfence (p : Payload)
  | test (p : Payload)
  | testFinished (op : W32) (fails : List ColFail) (cond : BistCond)
  | testResult (p : Payload)
  | ledgerRead (p : Payload)
  | errlogRead (p : Payload)
  | dumpTrigger (p : Payload)
  | dumpInfo (p : Payload)
  | dumpRead (p : Payload)
  | dumpClear (p : Payload)
  | settingsGet (p : Payload)
  | settingsSet (p : Payload)
  | fwInfo (p : Payload)
  | fwStageBegin (p : Payload)
  | fwStageData (p : Payload)
  | fwStageCommit (p : Payload)
  | fwCommitFinished (v : Verdict)
  | fwRecoveryLoad (p : Payload)
  | fwSvnAdvance (p : Payload)
  | keyEnrol (p : Payload)
  | keyClear (p : Payload)
  | keyList (p : Payload)
  | reelInfo (p : Payload)
  | reelEject (p : Payload)
  | reelSeal (p : Payload)
  | reelFormat (p : Payload)
  | reelOpFinished (op : W32) (ok : Bool)
  | portStatus (p : Payload)
  | vcBind (p : Payload)
  | routeSet (p : Payload)
  | routeGet (p : Payload)
  | collStatus (p : Payload)
  | jobCreate (p : Payload)
  | jobStatus (p : Payload)
  | jobLeave (p : Payload)
  | ecSetup (p : Payload)
  | jobRestart (p : Payload)
  -- host register writes
  | mbDoneClear
  | lockAcquireHost
  | lockReleaseHost
  | preemptedClear
  | intCauseClear (v : W32)
  | intMaskWrite (v : W32)
  | registerWrite (off : W32) (bytes : List Byte)
  -- engine queues
  | dbTailWrite (c : Ctx) (e : Eng) (q : Qn) (v : W32)
  | dbStop (c : Ctx) (e : Eng) (q : Qn)
  | dbRestart (c : Ctx) (e : Eng) (q : Qn)
  | entryFetched (c : Ctx) (e : Eng) (q : Qn) (r : ReadResult)
  | entryStart (e : Eng)
  | waitDeadlineExpired (c : Ctx) (e : Eng) (q : Qn)
  | entryComplete (c : Ctx) (e : Eng) (q : Qn) (n : W32) (writeOk : Bool)
  -- engine entries
  | run (c : Ctx) (q : Qn) (n : W32)
  | stop (c : Ctx) (q : Qn) (n : W32)
  | reconfig (c : Ctx) (q : Qn) (n : W32)
  | copy (c : Ctx) (q : Qn) (n : W32) (src : ReadResult) (flips : List DramFlip)
  | feed (c : Ctx) (q : Qn) (n : W32) (src : ReadResult)
  | fill (c : Ctx) (q : Qn) (n : W32)
  | rxBind (c : Ctx) (q : Qn) (n : W32)
  | rxUnbind (c : Ctx) (q : Qn) (n : W32)
  | send (c : Ctx) (q : Qn) (n : W32) (src : ReadResult)
  | requestOpen (c : Ctx) (q : Qn) (n : W32) (src : ReadResult)
  | requestSubmit (c : Ctx) (q : Qn) (n : W32) (src : ReadResult)
  | requestClose (c : Ctx) (q : Qn) (n : W32)
  | requestQuery (c : Ctx) (q : Qn) (n : W32)
  | syncBind (c : Ctx) (q : Qn) (n : W32)
  | syncUnbind (c : Ctx) (q : Qn) (n : W32)
  | syncOpRead (c : Ctx) (q : Qn) (n : W32)
  | syncOpAdd (c : Ctx) (q : Qn) (n : W32)
  | collective (c : Ctx) (q : Qn) (n : W32)
  | ecRefresh (c : Ctx) (q : Qn) (n : W32)
  | ecRebuild (c : Ctx) (q : Qn) (n : W32) (shard : ReadResult)
  | watermark (c : Ctx) (q : Qn) (n : W32) (flips : List DramFlip)
  | replicaCheck (c : Ctx) (q : Qn) (n : W32)
  -- host attachment
  | messageCopyDecided (o : RingObs)
  | busMasterEnableSet
  | cxlMemRead (addr : W64) (flips : List DramFlip)
  | cxlMemWrite (addr : W64) (data : BitVec 512)
  | functionLevelReset
  | lockIdleExpired
  | backgroundOpFinished (op : W32)
  -- the compute path
  | routeCycle (evs : List WireEvent)
  | issueEntryAdvance (t : PTile)
  | foldSlotSwitch (t : PTile)
  | externalWaitPoint (c : Ctx)
  | holdRelease (c : Ctx)
  | calenderPoint (c : Ctx) (evs : List CalEvent)
  | catchupDone (s : Sh)
  | prologueEnd (c : Ctx)
  | prologueOverrun (c : Ctx)
  | calenderOverdue (c : Ctx)
  | hung (p : Pt)
  | programWaitDeadline (c : Ctx)
  -- memory
  | channelSlotIssue (c : Ctx) (slot : ChanSlot)
  | dramReadArrival (c : Ctx) (ch : Ch) (flips : List DramFlip)
  | readBufferEmit (t : PTile)
  | sramScrub (t : PTile) (lanes : Byte) (ecc : Ecc)
  | dramScrub (ch : Ch) (flips : List DramFlip)
  | dramTempSample (temps : List (Fin 48 × Int))
  -- reserved traffic
  | telemetrySnapshot
  | messagePlaneSlot (slot : PlaneSlot)
  | maintenanceSlot (evs : List WireEvent)
  -- self-test
  | dwellStart (s : Sh) (key1 key2 : W64)
  | zeroiseDone (s : Sh) (refused : Bool) (cond : BistCond)
  | marchDone (s : Sh) (fails : List BistFail) (cond : BistCond)
  | logicBistDone (s : Sh) (fails : List BistFail) (cond : BistCond)
  | marginBistDone (s : Sh) (fails : List BistFail) (cond : BistCond)
  | softRepair (s : Sh) (rerunFails : List BistFail) (cond : BistCond)
  | couchInDone (s : Sh)
  | spareMove (point : SheetPoint)
  | replicaReportsGathered (c : Ctx) (reports : List ReplicaReport)
  | replicaRebuildDone (c : Ctx) (data : List Byte) (ok : Bool)
  | phyCheck (u : PhyUnit) (bad : Bool)
  | coreWatchdogExpired (core : Fin 16)
  | controlDieHeartbeat
  | controlDieLost (die : Fin 2)
  | dumpUnitTimeout (h : W32) (off : W32)
  | dumpTargetFailed
  | dumpWritten
  -- sideband
  | mbRequest (tag : Byte) (code : W16) (p : Payload)
  | lockAcquire (eid : Byte)
  | lockRelease
  | dumpStreamAck (id : W32) (next : W64)
  | dumpStreamResend
  | setEndpointId (eid : Byte)
  | smbusFallback
  | setEventReceiver (eid : Byte)
  | sensorRefresh (readings : List (W16 × Int))
  | requestUpdate (len : W32)
  | activateFirmware
  | cancelUpdate
  | getVersion
  | getCapabilities
  | negotiateAlgorithms
  | getDigests
  | getCertificate (off len : W16)
  | challenge (nonce : BitVec 256)
  | getMeasurements (index : Byte) (signed : Bool) (nonce : BitVec 256)
  -- fabric
  | fabricPacketRx (p : Port) (bytes : List Byte) (fec : FecCount)
  | creditReturn (p : Port) (vc : Fin 16) (n : Nat)
  | ethernetFrameRx (p : Port) (dst : BitVec 48) (etherType : W16) (frame : Arrived)
  | contrib
  | result
  | data
  | ack
  | reissueReq
  | pending
  | digest
  | collectiveOccurrenceStart (c : Ctx) (id : W32)
  | collectiveOccurrenceDone (c : Ctx) (id : W32)
  | nipWaitExpired (c : Ctx) (id : W32) (peer : W16) (pkt : W32)
  | portTrained (p : Port) (lanes : BitVec 4) (peer : W16) (peerPort : Byte)
  | portDown (p : Port)
  -- jobs
  | heartbeat (job : W64)
  | heartbeatLost (job : W64) (rank : W16)
  | hello
  | vote
  | decision
  | alert
  | leave
  | memberAck
  | resetNotice (p : Port)
  | memberResend (job : W64)
  | restartGatherExpired (job : W64)
  | jobFormTimeout (job : W64)
  | ecGenerationComplete (job : W64)
  -- power and temperature
  | powerLimiterSample (x : PowerSample)
  | thermalSample (xs : List TempReading)
  | thermtrip
  | avsUpdate (p : Pt) (mv : Nat) (readMv readMa : Nat)
  | idleEntry (p : Pt)
  | limitLevelApply (p : Pt)
  | pllLockTimeout (p : Pt)
  | vcorePgFall (p : Pt)
  | vsocPgFall
  -- start-up
  | auxArrival
  | auxRemoval
  | platRstN
  | wakeReqN
  | testModeEntry
  | warmReset
  | stageAuxDone (straps : BitVec 2)
  | stageBootRomDone (src : Fin 4) (v : Verdict)
  | stageRailsDone (coreFails : List (Fin 16))
  | railPgTimeout (rail : Fin 9)
  | stageBistDone (cols : List ColFail) (d2d : List D2dFail) (cond : BistCond)
  | stageRepairRecordDone (badLedger : List W32) (v : Verdict)
  | stageLpddr5xDone (broke : List Ch)
  | stageLinksDone (nipFail ecFail : List (Fin 6)) (timedOut : Bool)
  | stageSheetMapsDone
  | mailboxReady
  | startupHalt (cause : Fin 4)
  -- the Reel
  | reelLatchOpen
  | reelLatchClose
  | reelStartingDone (f : ReelFound)
  | reelHealthPoll (pu units : Nat) (readOnly critical : Bool)
  | reelCommandTimeout
  | reelAccessDone (ok : Bool) (nvme : W16)
  -- further rows of the table
  | busMasterEnableClear
  | feedDataReachedLpddr5x (c : Ctx) (q : Qn) (n : W32)
  | selfRefreshReentry (ch : Ch)
  | vcorePgReturn (p : Pt)
  | entdaa (addr : BitVec 7)
  | firmwareDataPart (off : W32) (bytes : List Byte)
  | externalTestScanAccess (s : Sh) (pc : Pc) (scan : Bool)
  | cxlLinkTraining (up : Bool) (rate : Nat) (mode : CxlMode)
  | replicaRebuildTimeout (c : Ctx)
  | snapshotCopyComplete (job : W64)
  | dumpPartitionReadDone (p : Pt)
  | recoveryHostWindowExpired
  | controlCoreRestartDone (core : Fin 16)
  | restartStateRestored (job : W64) (shard : ReadResult)
  deriving DecidableEq, Repr

end Sys2Proof
end

