-- ==== Sys2Proof/Decode.lean ====
section
/-!
DEFINITION. The command that a word of bits spells. No row of spec/opcode_table.json gives bits, so no word spells a command.
-/
namespace Sys2Proof

/-- The command spelled by the low `nbits` bits of `w`: none, for no row of the table gives bits. -/
def decodeTableWord (nbits w : Nat) : Option Instr :=
  match nbits, w with
  | _, _ => none

end Sys2Proof
end

