-- ==== Sys2Proof/Config.lean ====
section
/-!
DEFINITION. What the spec leaves free: constants without a body, so that no proof can see a value. The counter `fresh` of State
gives each taken value an index of its own.
-/
namespace Sys2Proof

/-- A byte the spec calls undefined or reserved on a read (R9, R18), by the index it was taken at (log entry 9). -/
opaque Config.freeByte : Nat → Byte

/-- Byte `i` of an ML-DSA-87 signature over `msg` by the key that KeyGen_internal makes of `seed`; `use` is 0 for the empty context string, else the
code of the SPDM response it signs (R617–R620; FIPS 204 is outside this spec; log entry 8). -/
opaque Config.signByte (seed : List Byte) (use : Nat) (msg : List Byte) (i : Nat) : Byte

/-- Byte `i` of certificate chain slot 0 as held in flash and issued at start-up: of the two seeds and the digest of the image (R618; log entry 8). -/
opaque Config.certByte (devSeed imageSeed : List Byte) (digest : List Byte) (i : Nat) : Byte

/-- Length in bytes of that chain (R618; log entry 8). -/
opaque Config.certLen : Nat

/-- Byte `i` of the boot ROM digest (R620 block 1; log entry 8). -/
opaque Config.romDigest (i : Nat) : Byte

/-- The bytes of the program-signing key slot table, whose layout the spec does not give (R620 block 5; log entry 8). -/
opaque Config.slotTable : List (Option (List Byte)) → List Byte

/-- The module's control-core state section of a dump, "not part of the Tylys contract" (R532; log entry 14). -/
opaque Config.coreState (index : Nat) : Byte

/-- Length of a dump section whose layout the spec does not give (R532 types 0x0009 and 0x0011; log entry 14). -/
opaque Config.sectionLen (index : Nat) : Nat

/-- The save block of a shard, "not part of the Tylys contract" (R591; log entry 16), byte `i` of the block taken at `index`. -/
opaque Config.saveBlock (index i : Nat) : Byte

/-- Length of that save block (R591; log entry 16). -/
opaque Config.saveLen : Nat

/-- The four Reed–Solomon check symbols of a data word, in byte order: neither the polynomial of GF(2^8) nor the roots of the code are given (R232; log
entry 52). -/
opaque Config.rsSymbols : BitVec 512 → BitVec 32

/-- The pre-FEC symbol error ratio of a port over the second before a moment of the module's life, as FP32: a measurement (R537; log entry 31). -/
opaque Config.symbolErrors (life port : Nat) : BitVec 32

/-- The channel of PT0, 0–5 in the order of its channels, that holds the session table entry of a tag: placement within the SYS areas is not part of the
contract (R236, R382; log entry 54). -/
opaque Config.sessionChan : Nat → Nat

/-- The message that a cell of the message plane belongs to: the formats of firmware messages are not part of the contract (R365; log entry 54). -/
opaque Config.cellMessage : BitVec 560 → Nat

/-- The PRPG seed of a tile type: the spec gives no value (R439; log entry 56). -/
opaque Config.prpgSeed (tileType : Nat) : BitVec 64

/-- Flops in the longest scan chain of a tile type: the spec gives only the bound (R439; log entry 56). -/
opaque Config.chainFlops (tileType : Nat) : Nat

/-- What the chains of a sound tile give the MISR in a shift cycle: tile type, test kind, pattern, shift (R439; log entry 56). -/
opaque Config.scanOut (tileType kind pattern shift : Nat) : BitVec 64

/-- The expected array signature of a MAC row, 32 the spare (R442; log entry 56). -/
opaque Config.arraySignature (macRow : Nat) : BitVec 16

/-- A byte of scratch at the start of a re-executed step, by the index of the rollback and the context address (R264; log entry 40). -/
opaque Config.scratchByte (index addr : Nat) : Byte

/-- What the unused bytes of a word depend on: the input words of the operation so far, with the operation's code to begin with. An F-tile
operation is a fixed function of its inputs (R123), so these bytes are the same on every tile and in every re-run (log entry 27). -/
opaque Config.inputs (key : Nat) (word : BitVec 512) : Nat

/-- Byte `i` of a word of which the operation fills fewer bytes (R122, R130, R194; log entry 27). -/
opaque Config.unusedByte (key i : Nat) : Byte

/-- QSEL of the words that an issue entry (kind 0) or a channel-list entry (kind 1) with code `key` puts on the wire: no field of the
entries gives it (R138, R190, R254; log entry 26). -/
opaque Config.qsel (kind key : Nat) : BitVec 3

end Sys2Proof
end

