-- ==== Sys2Proof/Machine/State.lean ====
section
/-!
DEFINITION. The state of the block: every register, buffer, counter, table, queue and record the spec gives the module, as plain
data. After each field: the rule that names it, the section file's number, its width, and its value after reset.
`dc1` is the reset value of log entry 1 (the spec gives none: zero, false or empty). Reset is the module right after
a warm reset has been accepted (log entry 10), so state that R521 keeps through one has the value of a module as delivered.
-/
namespace Sys2Proof.Machine

/-- Sparse bytes in one canonical form: addresses strictly rising, no listed byte 0x00; an unlisted byte reads 0x00. -/
abbrev Mem := List (Nat × Byte)
/-- A sparse table, keys strictly rising. -/
abbrev KMap (α : Type) := List (Nat × α)
/-- A link word, R138. -/
abbrev Link := BitVec 560

/-- Which of the two masters issues a mailbox command (R293). -/
inductive Master where
  | host
  | sideband
  deriving DecidableEq, Repr

/-- MB_OWNER.OWNER (R293). -/
inductive Owner where
  | free
  | host
  | sideband
  deriving DecidableEq, Repr

/-- Partition power states (R673). -/
inductive PtPwr where
  | run
  | idle
  | asleep
  | off
  deriving DecidableEq, Repr

/-- Module power states (R672). -/
inductive ModPwr where
  | m0
  | m2
  | m3
  deriving DecidableEq, Repr

/-- Context states (R314). -/
inductive CtxState where
  | free
  | created
  | allocated
  | bound
  | loading
  | placed
  | running
  | suspending
  | suspended
  | resuming
  | faulted
  deriving DecidableEq, Repr

/-- The kinds of a dwell (R433). -/
inductive DwellKind where
  | sweep
  | inspect
  | steered (col : Nat) (done : Nat)
  deriving DecidableEq, Repr

/-- The phases of a dwell: TSTAT.PHASE (R438). -/
inductive Phase where
  | idle
  | zeroise
  | march
  | logic
  | relock
  | margin
  | repair
  | couchIn
  | inStep
  | fullBist
  deriving DecidableEq, Repr

/-- The kind of the spare's next move (R76). -/
inductive MoveKind where
  | plain
  | labelSwap
  | mapReload
  deriving DecidableEq, Repr

/-- Membership states of a job (R574). -/
inductive JobState where
  | none
  | forming
  | active
  | voting
  | broken
  | restarting
  | excluded
  deriving DecidableEq, Repr

/-- States of a fabric port (R537). -/
inductive PortState where
  | down
  | training
  | up
  | failed
  deriving DecidableEq, Repr

/-- States of the Reel (R650). -/
inductive ReelState where
  | absent
  | starting
  | ready
  | unlabelled
  | ejecting
  | ejected
  | failed
  deriving DecidableEq, Repr

/-- Firmware states (R627). -/
inductive FwState where
  | idle
  | staging
  | verifying
  | writing
  | pending
  | recovery
  deriving DecidableEq, Repr

/-- What a held context waits for (R160, R419, R507, R680). -/
inductive Hold where
  /-- Not held. -/
  | none
  /-- Held with no run in progress, or for good. -/
  | stopped
  /-- At external wait `i` of the container, occurrence `k`, since CYCLE-clock time `since` (R160). -/
  | wait (i : Nat) (k : Nat) (since : Nat)
  /-- The 1,280-cycle hold of a calender point, begun at `since` (R419). -/
  | calender (since : Nat)
  /-- A calender point whose decision waits for the replica set (R484), the job (R583) or a snapshot copy (R594). -/
  | decide (since : Nat)
  /-- A rollback, or a start after one, whose FEEDs are being re-executed, since `since` (R348, R507). -/
  | refeed (since : Nat)
  /-- A committed calender point whose couch catch-up is under way (R449). -/
  | catchup (since : Nat)
  /-- A reload prologue, begun at `since` (R509). -/
  | prologue (since : Nat)
  /-- Held until the first frame boundary at or after `at` (R419, R449). -/
  | until (at' : Nat)
  deriving DecidableEq, Repr

/-- Things the module sends or drives (log entry 3). -/
inductive Output where
  | msix (vector : Nat)
  /-- Bytes for host memory: their whole 64 B lines go through CXL.cache, the rest as CXL.io memory writes (R281). -/
  | hostWrite (addr : Nat) (bytes : List Byte)
  /-- HDM-DB: the host is to give up a line of the pool that it may hold (R279). -/
  | backInvalidate (line : Nat)
  | cxlData (addr : Nat) (data : List Byte)
  | cxlPoison (addr : Nat)
  | packet (port : Nat) (bytes : List Byte)
  | resetNotice (port : Nat)
  | creditReturned (port : Nat) (vc : Nat) (n : Nat)
  | mbResponse (tag : Byte) (status : Nat) (payload : List Byte)
  | lockState (owner : Byte)
  | dumpStream (id : Nat) (off : Nat) (len : Nat) (eid : Option Byte)
  | platformEvent (sensor : Nat) (value : Int) (eid : Byte)
  | mctpResponse (bytes : List Byte)
  | spdm (code : Nat) (body : List Byte)
  | pldm (cmd : Nat) (completion : Nat) (body : List Byte)
  | avs (rail : Nat) (mv : Nat)
  | thermtrip
  | enable (rail : Nat) (on : Bool)
  /-- The report of a context to its replica set: step, the local decision, a watermark for each armed region (R484; log entry 41). -/
  | replicaReport (ctx step : Nat) (good : Bool) (wms : List (Nat × BitVec 128))
  deriving DecidableEq, Repr

/-- CYCLE and the always-on clock (R134, R490, R684). -/
structure Clock where
  /-- CYCLE, the arithmetic cycle counter (R134, 04; 48 bits; reset: 0, R134). -/
  cycle : BitVec 48 := 0
  /-- Arithmetic cycles the always-on domain has run over the module's life: LIFE_S and LIFE_H are this divided
  (R490, R458, 12; integer; reset: 0, dc1). -/
  life : Nat := 0
  /-- `life` at time zero of the present start (R704, 19; integer; reset: 0, dc1). -/
  zero : Nat := 0
  /-- `life` when the present stage began (R704, 19; integer; reset: 0, dc1). -/
  stageZero : Nat := 0
  /-- `life` + 1 at the last slot 31 whose reserved traffic has moved (R136, 04; integer; reset: 0, dc1). -/
  slotAt : Nat := 0
  /-- `life` + 1 at the last telemetry snapshot (R171, 04; integer; reset: 0, dc1). -/
  snapAt : Nat := 0
  /-- `life` + 1 of the latest engine add to a counter of a pair, and 16·context + queue of its entry (R407, 10; integers; reset: 0, dc1). -/
  addAt : Nat × Nat := (0, 0)
  deriving DecidableEq, Repr

/-- Fuses, straps and the identity block (R287, R617, R631). -/
structure Ident where
  /-- The part is EBX-M32-1440 (R3, R287, 07; 1 bit; reset: F, false, log entry 10). -/
  is1440 : Bool := false
  /-- SERIAL of the ID block (R287, 07; 16 bytes; reset: F, zero, log entry 10). -/
  serial : List Byte := List.replicate 16 0
  /-- STEPPING of ID_VER (R287, 07; 8 bits; reset: F, 0xB1, R287). -/
  stepping : Byte := 0xB1#8
  /-- The SVN fuse count, FW_SVN (R631, 16; 0–64; reset: F, 0, log entry 10). -/
  svn : Nat := 0
  /-- Vendor key revocation fuses (R626, 16; 8 bits; reset: F, 0, log entry 10). -/
  revoked : Byte := 0
  /-- Fused digests of vendor key slots 0–3 (R626, 16; 64 bytes each; reset: F, zero, log entry 10). -/
  vendor : List (List Byte) := List.replicate 4 (List.replicate 64 0)
  /-- UDS, the device secret (R617, 16; 256 bits; reset: F, 0, log entry 10). -/
  uds : BitVec 256 := 0
  /-- ADDR_SEL1·2 + ADDR_SEL0, sampled in stage 1 (R712, 20; 2 bits; reset: 0, dc1). -/
  straps : BitVec 2 := 0
  /-- FW_SVN of the ID block, taken at start-up (R287, 07; 0–64; reset: F, 0, log entry 10). -/
  idSvn : Nat := 0
  /-- FW_VERSION of the ID block, taken at start-up: build, patch, minor, major (R287, 07; 32 bits; reset: 0, dc1). -/
  fwVer : W32 := 0
  /-- HOST_POOL_GIB at start-up (R287, 07; 0–256; reset: 0, dc1). -/
  poolGib : Nat := 0
  /-- Fused repairs (R456, 11; list of repair entries; reset: F, empty, log entry 10). -/
  fusedRepairs : List (List Byte) := []
  deriving DecidableEq, Repr

/-- The MSI-X table after reset: every vector masked, as PCIe defines its vector control word (log entry 17). -/
def msixReset : Mem := (List.range 128).map fun v => (16 * v + 12, 1)

/-- The CXL component registers of BAR2 that can change: the HDM decoder and the RAS capability, laid out as in CXL 3.1 (R284; log entry 53). -/
structure Component where
  /-- HDM Decoder Global Control (R284, 07; 2 bits; reset: 0, PRESUMED from CXL 3.1, log entry 53). -/
  hdmGlobal : W32 := 0
  /-- HDM decoder 0 base, bits [63:28] (R282, R284, 07; 64 bits; reset: 0, PRESUMED, log entry 53). -/
  hdmBase : W64 := 0
  /-- HDM decoder 0 control: lock on commit, commit, committed (R284, 07; 32 bits; reset: 0, PRESUMED, log entry 53). -/
  hdmCtl : W32 := 0
  /-- RAS uncorrectable error status (R284, 07; 32 bits; reset: 0, PRESUMED, log entry 53). -/
  rasUe : W32 := 0
  /-- RAS uncorrectable error mask (R284, 07; 32 bits; reset: 0x0001CFFF, PRESUMED, log entry 53). -/
  rasUeMask : W32 := 0x0001CFFF#32
  /-- RAS uncorrectable error severity (R284, 07; 32 bits; reset: 0x0001CFFF, PRESUMED, log entry 53). -/
  rasUeSev : W32 := 0x0001CFFF#32
  /-- RAS correctable error status (R284, 07; 32 bits; reset: 0, PRESUMED, log entry 53). -/
  rasCe : W32 := 0
  /-- RAS correctable error mask (R284, 07; 32 bits; reset: 0x7F, PRESUMED, log entry 53). -/
  rasCeMask : W32 := 0x7F#32
  deriving DecidableEq, Repr

/-- The host attachment of CT0 and the mailbox (R279–R307). -/
structure HostIf where
  /-- The CXL link is up (R280, R519, 07; 1 bit; reset: false, R519). -/
  linkUp : Bool := false
  /-- Link rate in GT/s, 64 or 32 (R280, 07; integer; reset: 64, dc1). -/
  rate : Nat := 64
  /-- Link width, 8 or 4 (R280, 07; integer; reset: 8, dc1). -/
  width : Nat := 8
  /-- The link runs 68 B flits (R279, 07; 1 bit; reset: false, dc1). -/
  flit68 : Bool := false
  /-- Bus-master enable (R283, R367, 07; 1 bit; reset: false, R283). -/
  busMaster : Bool := false
  /-- MB_CMD.CODE (R288, 07; 16 bits; reset: 0, R288). -/
  code : W16 := 0
  /-- MB_CMD.REQ_LEN (R288, 07; 13 bits; reset: 0, R288). -/
  reqLen : BitVec 13 := 0
  /-- MB_STS.FW_READY (R288, 07; 1 bit; reset: 0, R288). -/
  fwReady : Bool := false
  /-- MB_STS.BUSY (R288, 07; 1 bit; reset: 0, R288). -/
  busy : Bool := false
  /-- The payload area or MB_CMD has been written to while BUSY is 1, so that the request and the response are undefined (R289, 07; 1 bit;
  reset: false, dc1). -/
  spoiled : Bool := false
  /-- MB_STS.DONE (R288, 07; 1 bit; reset: 0, R288). -/
  done : Bool := false
  /-- MB_STS.RESP_LEN (R288, 07; 13 bits; reset: 0, R288). -/
  respLen : Nat := 0
  /-- MB_STS.SEQ (R288, 07; 4 bits; reset: 0, R288). -/
  seq : BitVec 4 := 0
  /-- MB_STS.STATUS (R288, 07; 8 bits; reset: 0, R288). -/
  status : Nat := 0
  /-- The payload area, 4 KiB at 0x2000 (R285, 07; 4,096 bytes; reset: zero, dc1). -/
  payload : Mem := []
  /-- MB_OWNER.OWNER (R293, 07; 2 bits; reset: 0b00, R293). -/
  owner : Owner := .free
  /-- MB_OWNER.PREEMPTED (R293, 07; 1 bit; reset: 0, R293). -/
  preempted : Bool := false
  /-- INT_CAUSE[5:0] (R304, 07; 6 bits; reset: 0, R304). -/
  cause : BitVec 6 := 0
  /-- INT_MASK[5:0] (R304, 07; 6 bits; reset: 0, R304). -/
  mask : BitVec 6 := 0
  /-- The MSI-X table, 128 entries (R285, 07; 2,048 bytes; reset: every vector masked, PRESUMED from PCIe, log entry 17). -/
  msixTable : Mem := msixReset
  /-- The MSI-X pending-bit array (R285, 07; 128 bits; reset: 0, dc1). -/
  msixPending : BitVec 128 := 0
  /-- Lines held in the device cache, at most 4,096 (R281, 07; list of line addresses; reset: empty, dc1). -/
  devCache : List Nat := []
  /-- Lines of the host pool that the host may hold in its caches (R279, 07; list of line addresses; reset: empty, dc1). -/
  hostLines : List Nat := []
  /-- The component registers in BAR2 (R284, 07). -/
  component : Component := {}
  /-- FS_GEN, updates counted by 2 (R306, 07; 32 bits; reset: 0, dc1). -/
  fsGen : W32 := 0
  deriving DecidableEq, Repr

/-- A partition reset in progress (R517, R518). -/
structure ResetRec where
  /-- The operation. -/
  op : Nat
  /-- Waiting for a dump to finish reading the partition (R518). -/
  deferred : Bool
  deriving DecidableEq, Repr

/-- One partition (R60, R640, R673, R680). -/
structure Partition where
  /-- Power state (R673, 18; 2 bits; reset: Off, R519 lowers the rails). -/
  pwr : PtPwr := .off
  /-- Off by command or PT_POWER_DEFAULT, so left out of the module status (R727, 01; 1 bit; reset: false, dc1). -/
  offByCmd : Bool := false
  /-- PERF_STATE (R640, 16; 0–3; reset: 0, R640 and the default setting). -/
  perf : Nat := 0
  /-- REFRESH_CLASS is N (R266, 06; 1 bit; reset: false, R266). -/
  classN : Bool := false
  /-- Limiter level L in force (R680, 18; 0–7; reset: 0, dc1). -/
  lvlL : Nat := 0
  /-- Thermal level T in force (R680, 18; 0–7; reset: 0, dc1). -/
  lvlT : Nat := 0
  /-- Levels L and T decided but not yet in force, with the value of `life` at which their frame f0 begins (R681, 18; option; reset: none,
  dc1). -/
  lvlPend : Option (Nat × Nat × Nat) := none
  /-- `life` when the partition was last needed in Run (R674, 18; integer; reset: 0, dc1). -/
  busyAt : Nat := 0
  /-- `life` when the rail was last read (R668, 18; option; reset: none, dc1). -/
  railAt : Option Nat := none
  /-- `life` since when a tile of the partition has read 105 °C or above, or since T last rose for it (R686, 18; option; reset: none, dc1). -/
  hotAt : Option Nat := none
  /-- `life` since when every tile of the partition has read 100 °C or below, or since T last fell for it (R686, 18; option; reset: none, dc1). -/
  coolAt : Option Nat := none
  /-- Partition reset in progress (R517, 13; option; reset: none, dc1). -/
  reset : Option ResetRec := none
  /-- Stopped by a fault and awaiting reset: hang, PLL failure (R47, R514, R684, 01; 1 bit; reset: false, dc1). -/
  faulted : Bool := false
  /-- Removed from service by FENCE on the partition (R524, 13; 1 bit; reset: false, dc1). -/
  fenced : Bool := false
  /-- `life` at the last thermal trip not yet cleared by a reset (R687, 18; option; reset: none, dc1). -/
  tripAt : Option Nat := none
  /-- VCOREn_PG (R696, 19; 1 bit; reset: false, R519). -/
  pg : Bool := false
  /-- VCOREn_EN (R696, 19; 1 bit; reset: false, R519). -/
  en : Bool := false
  /-- VCORE setpoint in mV (R668, 18; integer; reset: 750, R696). -/
  mv : Nat := 750
  /-- `life` at the last voltage change (R668, 18; integer; reset: 0, dc1). -/
  mvAt : Nat := 0
  /-- Rail voltage and current last read, mV and mA (R668, 18; integers; reset: 0, dc1). -/
  railMv : Nat := 0
  /-- Rail current last read, mA (R668, 18; integer; reset: 0, dc1). -/
  railMa : Nat := 0
  /-- Physical sync counters in use, by index 0–16,383 (R393, 10; 32 bits each; reset: none in use, R393). -/
  counters : KMap W32 := []
  /-- Run cycles since the last release (R513, 13; integer; reset: 0, dc1). -/
  runCyc : Nat := 0
  /-- Cycles since the last release, holds included (R422, 10; integer; reset: 0, dc1). -/
  sinceRelease : Nat := 0
  /-- Last tile temperatures by physical tile of the partition (R685, 18; signed; reset: none read, dc1). -/
  temps : KMap Int := []
  /-- Energy in units of 10^-7 mJ; ENERGY_MJ is this divided by 10^7 (R692, 18; 64 bits of mJ; reset: 0, dc1). -/
  energy : Nat := 0
  /-- GATED_FRAMES (R692, 18; 48 bits; reset: 0, dc1). -/
  gated : Nat := 0
  /-- LIMIT_FRAMES (R692, 18; 48 bits; reset: 0, dc1). -/
  limitFrames : Nat := 0
  /-- THERMAL_FRAMES (R692, 18; 48 bits; reset: 0, dc1). -/
  thermalFrames : Nat := 0
  /-- PHY_CHECKS (R467, 11; 48 bits; reset: 0, dc1). -/
  phyChecks : Nat := 0
  /-- PHY_WARN (R467, 11; 48 bits; reset: 0, dc1). -/
  phyWarn : Nat := 0
  deriving DecidableEq, Repr

/-- One LPDDR5X channel (R228–R278). -/
structure Chan where
  /-- Bits of the array that no longer hold what the controller wrote: group, burst, bits (R231–R233, 06; list; reset: none, dc1). -/
  flaws : List (Nat × Nat × BitVec 512) := []
  /-- Broke (R274, 06; 1 bit; reset: false, log entry 10). -/
  broke : Bool := false
  /-- In self-refresh (R276, 06; 1 bit; reset: true, R276). -/
  selfRefresh : Bool := true
  /-- Trained in the present start (R700, 19; 1 bit; reset: false, dc1). -/
  trained : Bool := false
  /-- To be retrained at the next partition reset (R455, 11; 1 bit; reset: false, dc1). -/
  retrain : Bool := false
  /-- Groups that showed uncorrectable or tag errors, with `life` (R274, 06; list; reset: empty, dc1). -/
  errs : List (Nat × Nat) := []
  /-- Groups with a tag error, and whether a retrain has followed it (R274, 06; list; reset: empty, dc1). -/
  tags : List (Nat × Bool) := []
  /-- Groups read as uncorrectable and not yet rewritten whole, with the data words of each rewritten since (R233, 06; list; reset: empty, dc1). -/
  bad : List (Nat × Nat) := []
  /-- Next group to scrub (R273, 06; 24 bits; reset: 0, dc1). -/
  scrub : Nat := 0
  /-- `life` at the last access that found or kept the channel awake (R277, 06; integer; reset: 0, dc1). -/
  wokenAt : Nat := 0
  /-- DRAM_CE (R272, 06; 48 bits; reset: 0, dc1). -/
  ce : Nat := 0
  /-- DRAM_UE (R272, 06; 48 bits; reset: 0, dc1). -/
  ue : Nat := 0
  /-- DRAM_TAG (R272, 06; 48 bits; reset: 0, dc1). -/
  tag : Nat := 0
  /-- SCRUB_GROUPS (R272, 06; 48 bits; reset: 0, dc1). -/
  scrubbed : Nat := 0
  /-- `life` + 1 at the last channel slot issued (R246, 06; integer; reset: 0, dc1). -/
  slotAt : Nat := 0
  deriving DecidableEq, Repr

/-- A dwell of the roving spare (R429–R436). -/
structure Dwell where
  /-- Kind (R433). -/
  kind : DwellKind
  /-- `life` from which the timeline counts (R429, R436). -/
  start : Nat
  /-- Phase (R429). -/
  phase : Phase
  /-- Physical column of the spare in this dwell (R429). -/
  pos : Nat
  /-- Target logical column fixed at the start (R432). -/
  target : Option Nat
  /-- Physical column of the target (R432). -/
  tphys : Option Nat
  /-- Kind of the next move (R75). -/
  next : MoveKind
  /-- The couch-in has copied every word; `life` at its end (R448). -/
  couched : Option Nat
  /-- Stored words of each tile row that couch-in has copied (R448). -/
  words : Nat
  /-- A catch-up is under way: `life` at its end (R449). -/
  catching : Option Nat
  /-- The catch-up is done and the spare is in step (R451). -/
  inStep : Bool
  /-- Refusals under R436 in this dwell. -/
  refusals : Nat
  /-- Abandoned: a new dwell starts at the same position (R431, R436). -/
  abandoned : Bool
  /-- Failures of phase 1 awaiting the repair interval (R445). -/
  fails : List BistFail
  /-- The shadow keys k1, k2 (R476). -/
  key1 : W64
  /-- The second shadow key. -/
  key2 : W64
  /-- A mismatch has been recorded in the present step (R472). -/
  mismatched : Bool
  /-- A record against the target has been made in this dwell (R494). -/
  against : Bool := false
  /-- `life` at which the present phase began (R429). -/
  phaseAt : Nat := 0
  deriving DecidableEq, Repr

/-- TSTAT bits of one physical column that are not the phase (R438). -/
structure TStat where
  /-- ZEROISED (R435). -/
  zeroised : Bool := false
  /-- SCAN_EN (R436). -/
  scanEn : Bool := false
  /-- TRIP (R436). -/
  trip : Bool := false
  /-- ISOLATED (R429). -/
  isolated : Bool := false
  /-- COPIED (R438). -/
  copied : BitVec 16 := 0
  deriving DecidableEq, Repr

/-- The BIST that a column's tiles ran last, from which its PRPGs and MISRs follow (R439, R440, R442). -/
structure BistLast where
  /-- 0 logic, 1 margin. -/
  kind : Nat
  /-- Patterns. -/
  patterns : Nat
  /-- MISR XOR expected signature, by tile row, where they differ. -/
  diffs : KMap W64 := []
  /-- Array signature XOR expected, by 33·(tile row) + MAC row, where they differ. -/
  rows : KMap (BitVec 16) := []
  deriving DecidableEq, Repr

/-- What changes the spare roles of a sheet: a fence, by the unit it names (`none` the column, or a tile row), or a retirement (R85–R87). -/
inductive RoleEvent where
  | fence (pc : Nat) (row : Option Nat)
  | retire (pc : Nat)
  deriving DecidableEq, Repr

/-- One sheet (R61–R89, R429–R476). -/
structure Sheet where
  /-- MAP_C0–MAP_C15; `none` reads 0x1F (R68, 02; 5 bits each; reset: none, R70 leaves it undefined before stage 8: dc1). -/
  map : List (Option Nat) := List.replicate 16 none
  /-- SMAP_GEN (R67, 02; 32 bits; reset: 0, R67). -/
  gen : W32 := 0
  /-- ROVE_PC (R66, 02; 5 bits; reset: none, dc1). -/
  rove : Option Nat := none
  /-- STAND_PC (R66, 02; 5 bits; reset: none, dc1). -/
  stand : Option Nat := none
  /-- DIR: true is descending (R66, 02; 1 bit; reset: false, dc1). -/
  down : Bool := false
  /-- RELOAD_PEND (R66, 02; 1 bit; reset: false, dc1). -/
  reloadPend : Bool := false
  /-- BROKE (R66, 02; 18 bits; reset: 0, log entry 10). -/
  broke : List Nat := []
  /-- Columns fenced, each with the unit named: `none` the column, or a tile row (R85, 02; list; reset: empty, dc1). -/
  fenced : List (Nat × Option Nat) := []
  /-- FENCE on the sheet, or on its partition (R524, 13; 1 bit; reset: false, dc1). -/
  sheetFenced : Bool := false
  /-- WATCHED columns in the order they became so (R493, 12; list; reset: empty, dc1). -/
  watched : List Nat := []
  /-- Columns condemned, retired at the rolling-back point, with their repair cause (R464, 11; list; reset: empty, dc1). -/
  pend : List (Nat × Nat) := []
  /-- Fences and unfences awaiting a commit or a test: operation, column, row, whether it is a fence (R522, R525, 13; list; reset: empty, dc1). -/
  fencePend : List (Nat × Nat × Option Nat × Bool) := []
  /-- A die-to-die link of the sheet has a failing lane and no free spare lane (R82, R455, 02; 1 bit; reset: false, dc1). -/
  linkFail : Bool := false
  /-- The dwell in progress (R429, 11; option; reset: none, dc1). -/
  dwell : Option Dwell := none
  /-- Position and direction before an INSPECT dwell (R433, 11; option; reset: none, dc1). -/
  before : Option (Nat × Bool) := none
  /-- Before the first fence now in force: roving, standing, direction, broke columns (R86, 02; option; reset: none, dc1). -/
  unfence : Option (Option Nat × Option Nat × Bool × List Nat) := none
  /-- Fences and retirements since then, oldest first (R86, 02; list; reset: empty, dc1). -/
  since : List RoleEvent := []
  /-- The column made WATCHED in the present step, whose INSPECT dwell the rollback places (R433, 11; option; reset: none, dc1). -/
  inspect : Option Nat := none
  /-- A new dwell is due at the present position (R429, R436, 11; option kind; reset: none, dc1). -/
  dwellDue : Option DwellKind := none
  /-- TSTAT per physical column (R438, 11; 32 bits each; reset: 0, R438). -/
  tstat : List TStat := List.replicate 18 {}
  /-- PRPG and MISR of each physical column's tiles, as their last BIST left them (R439, 11; 64 bits each; reset: none has run, both 0, dc1). -/
  bist : List (Option BistLast) := List.replicate 18 none
  /-- SPROG (R418, 10; 64 bits; reset: 0, dc1). -/
  sprog : Nat := 0
  /-- Dirty words of the target: 65,536·row + word (R448, 11; list; reset: empty, dc1). -/
  dirty : List Nat := []
  /-- Counters DWELLS, BIST_RUNS, BIST_FAILS, COUCHES, COUCH_DEFERRED, INTERLOCK_TRIPS, SOFT_REPAIRS, CATCHUP_CYC and SHADOW_CYC,
  SHADOW_MISMATCH, WM_MISMATCH, WATCHED_SET, STEERED_DWELLS, by ID (R467, R497, 11; 48 bits each; reset: 0, dc1). -/
  counters : KMap Nat := []
  deriving DecidableEq, Repr

/-- The dynamic state of one configuration context of a tile (R188, R189, R250, R251). -/
structure CState where
  /-- Context cycles run (R189, 05; integer; reset: 0, dc1). -/
  time : Nat := 0
  /-- Issue position (R191, 05; 9 bits; 256 and above: past ISSUE_LAST; reset: 0, dc1). -/
  pos : Nat := 0
  /-- REPEAT count already run of the present entry (R188, 05; 13 bits; reset: 0, dc1). -/
  rep : Nat := 0
  /-- LOOP entries open with the returns left (R194, 05; list of at most 2; reset: empty, dc1). -/
  loops : List (Nat × Nat) := []
  /-- Current predicate (R207, 05; 1 bit; reset: false, dc1). -/
  pred : Bool := false
  /-- The 32 FP32 accumulators (R101, R188, 05; 32 bits each; reset: +0, R102). -/
  acc : List W32 := List.replicate 32 0
  /-- MAC row position: blocks, or elements for BF16 and FP32 (R188, R195, 05; integer; reset: 0, dc1). -/
  row : Nat := 0
  /-- Idle cycles left of ROW_GAP (R195, 05; 4 bits; reset: 0, dc1). -/
  gap : Nat := 0
  /-- Bytes of the streaming element word at the head of SRC_A already used (R195, 05; 0–63; reset: 0, dc1). -/
  ePos : Nat := 0
  /-- Bytes of the streaming scale word at the head of SRC_B already used (R195, 05; 0–63; reset: 0, dc1). -/
  sPos : Nat := 0
  /-- The next MAC row restarts the accumulators (R196, 05; 1 bit; reset: true, dc1). -/
  fresh : Bool := true
  /-- SCHED + 1 at the last predicate token taken (R207, 05; integer; reset: 0, dc1). -/
  predAt : Nat := 0
  /-- Words to be emitted at a context time: issue entry, LAST, every PAR bit inverted, and data (R188, R194, R226, 05; list; reset: empty,
  dc1). -/
  emits : List (Nat × Nat × Bool × Bool × BitVec 512) := []
  /-- Partial state of ROWMAX, ROWSUM and TOMX: lanes gathered (R130, R194, 05; list; reset: empty, dc1). -/
  lanes : List W32 := []
  /-- What the unused bytes of the word of the present row depend on, `Config.inputs` of its words (R123, 05; integer; reset: 0, dc1). -/
  rowKey : Nat := 0
  /-- TOMX element bytes and scale bytes not yet emitted (R194, 05; bytes; reset: empty, dc1). -/
  mxElems : List Byte := []
  /-- TOMX scales not yet emitted (R194, 05; bytes; reset: empty, dc1). -/
  mxScales : List Byte := []
  /-- Output elements of the conversion stage since the step's start (R120, 03; integer; reset: 0, R120). -/
  elem : Nat := 0
  /-- Read buffer: arrival context time and data word with its parity (R250, 06; at most 64 words; reset: empty, dc1). -/
  rdBuf : List (Nat × BitVec 528) := []
  /-- Write buffer; `none` is a word suppressed under R208 (R251, 06; at most 16 words; reset: empty, dc1). -/
  wrBuf : List (Option (BitVec 512)) := []
  deriving DecidableEq, Repr

/-- Router telemetry of one tile (R171, R172). -/
structure Tlm where
  /-- CYCLE of the snapshot (R172, 04; 48 bits; reset: 0, R172). -/
  at' : Nat := 0
  /-- PAR_ERR, saturating (R172, 04; 16 bits; reset: 0, R172). -/
  parErr : Nat := 0
  /-- CTL_ERR, saturating (R172, 04; 16 bits; reset: 0, R172). -/
  ctlErr : Nat := 0
  /-- FLITS per port (R172, 04; 48 bits each; reset: 0, R172). -/
  flits : List Nat := List.replicate 7 0
  /-- STALL per port (R172, 04; 48 bits each; reset: 0, R172). -/
  stall : List Nat := List.replicate 7 0
  /-- QMAX per port (R172, 04; 7 bits each; reset: 0, R172). -/
  qmax : List Nat := List.replicate 7 0
  deriving DecidableEq, Repr

/-- Where cells that have reached L become messages again (R158, R165). -/
structure CellRx where
  /-- Cells of messages that are not yet whole, in order of arrival (R165, 04; cells; reset: none, dc1). -/
  parts : List Link := []
  /-- Messages a cell of which has failed its checks, up to their last cell (R158, 04; keys of log entry 54; reset: none, dc1). -/
  dropping : List Nat := []
  /-- Whole messages, for the firmware or the tile unit that they are for (R165, R365; cells; reset: none, dc1). -/
  mail : List (List Link) := []
  deriving DecidableEq, Repr

/-- One physical tile: its router, its compute block and its stores (R53, R178, R222). -/
structure Tile where
  /-- Configuration space as written, bytes 0 to 0x841F (R178, 05; 33,824 bytes; reset: zero, R179). -/
  cfg : Mem := []
  /-- UNIT_CFG.UGEN (R179, 05; 4 bits; reset: 0, R179). -/
  ugen : BitVec 4 := 0
  /-- UNIT_CFG.STALE_STEP, saturating (R179, 05; 16 bits; reset: 0, R179). -/
  staleStep : Nat := 0
  /-- Input queues 0–7: LAST and DATA, with the cycle of entry (R198, R193, 05; 64 entries each; reset: empty, dc1). -/
  queues : List (List (Nat × Bool × BitVec 512)) := List.replicate 8 []
  /-- Dynamic state of configuration contexts 0–7 (R188, 05; reset: as CState). -/
  cst : List CState := List.replicate 8 {}
  /-- The prologue context's image (R509, 13; at most 3,072 bytes; reset: zero, dc1). -/
  proCfg : Mem := []
  /-- The prologue context's dynamic state (R510, 13; reset: as CState). -/
  pro : CState := {}
  /-- S-tile SRAM or operand store, bytes (R222, R224, 06; 4 MiB or 256 KiB; reset: zero, dc1: lost under R227). -/
  store : Mem := []
  /-- Store words read as uncorrectable by scrub and not yet written (R226, 06; list of word addresses; reset: empty, dc1). -/
  badWords : List Nat := []
  /-- Next word to scrub (R225, 06; 16 bits; reset: 0, dc1). -/
  scrub : Nat := 0
  /-- Corrected errors per storage row in the last 24 h: row and `life` (R446, 11; list; reset: empty, dc1). -/
  ceRows : List (Nat × Nat) := []
  /-- Rows marked for repair at the next phase 1 (R446, 11; list; reset: empty, dc1). -/
  marked : List Nat := []
  /-- Spare rows and spare bit columns in use per sub-array, and the spare MAC row: coded 0x1000·kind + sub-array
  (R444, 11; counts; reset: 0, dc1). -/
  spares : KMap Nat := []
  /-- The watermark accumulator pair H1, H2 of an S-tile (R473, 12; 64 bits each; reset: 0, dc1). -/
  wm1 : W64 := 0
  /-- H2 of the accumulator (R473, 12; 64 bits; reset: 0, dc1). -/
  wm2 : W64 := 0
  /-- Message latches N, S, E, W, L (R162, 04; five cells; reset: empty, dc1). -/
  latches : List (Option Link) := List.replicate 5 none
  /-- The receiving side of L (R158, R165). -/
  rx : CellRx := {}
  /-- Telemetry counting now (R171, 04). -/
  tlm : Tlm := {}
  /-- The latest snapshot held for COUNTERS (R171, 04). -/
  snap : Tlm := {}
  /-- A snapshot on its way up the column, with the cells still to arrive and `life` when it was taken (R169, R171, 04; option; reset:
  none, dc1). -/
  sending : Option (Tlm × Nat × Nat) := none
  /-- The input queues into which words from each port have been delivered, as bits (R172, 04; 7 × 8 bits; reset: 0, dc1). -/
  portQ : List Nat := List.replicate 7 0
  /-- Tile counters NAN_OUT, OVF_OUT, SAT_OUT, SUPPRESSED, STALE_TOKENS, SRAM_CE in this order (R108, R210, R211, R226, 03; 48 bits each; reset: 0, dc1). -/
  ctr : List Nat := List.replicate 6 0
  deriving DecidableEq, Repr

/-- What QMAX of one unit has reached since its last COUNTERS (R173). -/
structure QmaxRec where
  /-- Handle of the unit. -/
  handle : Nat
  /-- `life` at the COUNTERS. -/
  at' : Nat
  /-- The largest values in the snapshots taken since, per physical tile and port. -/
  top : KMap (List Nat) := []
  deriving DecidableEq, Repr

/-- A word on a link or crossing: it is in the router `tile` at input port `port` after `left` more cycles (R149, R162). -/
structure Flight where
  /-- Physical tile index 288·sheet + 16·column + row. -/
  tile : Nat
  /-- Input port code of R172. -/
  port : Nat
  /-- Cycles left. -/
  left : Nat
  /-- The word. -/
  word : Link
  deriving DecidableEq, Repr

/-- A memory allocation (R238, R318, R230). -/
structure Alloc where
  /-- Partition set (R318). -/
  pts : List Nat
  /-- Granule code (R240). -/
  granule : Nat
  /-- NCH (R238). -/
  nch : Nat
  /-- CH_BASE_G (R238). -/
  baseG : Nat
  /-- CH_LEN_G (R238). -/
  lenG : Nat
  /-- Channels of logical channels 0 to NCH − 1, partition by partition, fixed at creation (R230). -/
  chans : List Nat
  deriving DecidableEq, Repr

/-- A committed region (R257, R260). -/
structure Region where
  /-- BASE_A in bytes. -/
  baseA : Nat
  /-- BASE_B in bytes. -/
  baseB : Nat
  /-- LENGTH in bytes. -/
  len : Nat
  /-- DOUBLE. -/
  double : Bool
  deriving DecidableEq, Repr

/-- An external wait of the container (R219). -/
structure ExtWait where
  /-- Offset below CAL_PERIOD. -/
  off : Nat
  /-- KIND: 1 host data, 2 collective, 3 sync. -/
  kind : Nat
  /-- OBJECT. -/
  obj : Nat
  deriving DecidableEq, Repr

/-- A SYNC_MAP entry (R402). -/
structure SyncMapEnt where
  /-- ID. -/
  id : Nat
  /-- ROLE. -/
  role : Nat
  /-- CAL_BALANCE. -/
  balance : Bool
  /-- OFFSET. -/
  off : Nat
  /-- STEP_VAL. -/
  stepVal : Nat
  /-- INIT: SLACK or BUFFERS. -/
  init : Nat
  /-- DEADLINE_US. -/
  deadline : Nat
  deriving DecidableEq, Repr

/-- An entry of a channel list (R254). -/
structure SlotEnt where
  /-- SLOT. -/
  slot : Nat
  /-- OP. -/
  op : Nat
  /-- SIDE. -/
  side : Bool
  /-- ADV. -/
  adv : Bool
  /-- CTX. -/
  ctx : Nat
  /-- REGION. -/
  region : Nat
  /-- ADDR. -/
  addr : Nat
  deriving DecidableEq, Repr

/-- A channel list (R254). -/
structure ChanList where
  /-- STRIDE. -/
  stride : Nat
  /-- WIN. -/
  win : Nat
  /-- Entries. -/
  ents : List SlotEnt
  deriving DecidableEq, Repr

/-- A record of UNIT_CONFIG, RELOAD_PROLOGUE or RECONFIG_IMAGES, or of OPERAND_IMAGE (R218). -/
structure TileRec where
  /-- LROW. -/
  row : Nat
  /-- LCOL. -/
  col : Nat
  /-- The bytes. -/
  bytes : List Byte
  deriving DecidableEq, Repr

/-- A container as the module reads it (R217, R218). -/
structure Prog where
  /-- GRID_CLASS. -/
  cls : Nat
  /-- FOLD_F. -/
  foldF : Nat
  /-- PREDICATED. -/
  predicated : Bool
  /-- REFRESH_N. -/
  refreshN : Bool
  /-- MIN_CHANNELS. -/
  minCh : Nat
  /-- FOLD_PERIOD. -/
  foldPeriod : Nat
  /-- STEP_BOUND. -/
  stepBound : Nat
  /-- PROGRAM_ID. -/
  pid : List Byte
  /-- KEY_ID. -/
  keyId : Nat
  /-- CAL_PERIOD. -/
  calPeriod : Nat
  /-- CALENDER_LIST offsets. -/
  cal : List Nat
  /-- EXTERNAL_WAITS. -/
  waits : List ExtWait
  /-- COMMITTED_REGIONS. -/
  regions : List Region
  /-- SYNC_MAP. -/
  syncMap : List SyncMapEnt
  /-- UNIT_CONFIG. -/
  unitCfg : List TileRec
  /-- OPERAND_IMAGE. -/
  operands : List TileRec
  /-- RELOAD_PROLOGUE. -/
  prologue : List TileRec
  /-- RECONFIG_IMAGES: set number and records. -/
  reconfig : List (Nat × List TileRec)
  /-- SLOT_PERIOD. -/
  slotPeriod : Nat
  /-- NCH of the memory schedule. -/
  schedNch : Nat
  /-- NPART of the memory schedule. -/
  nPart : Nat
  /-- GRANULE of the memory schedule. -/
  schedGranule : Nat
  /-- ATTACH. -/
  attach : List Byte
  /-- Channel lists. -/
  lists : List ChanList
  deriving DecidableEq, Repr

/-- How an entry ended (R351). -/
structure Done where
  /-- STATUS. -/
  status : Nat
  /-- REASON. -/
  reason : Nat := 0
  /-- RESULT. -/
  result : Nat := 0
  /-- DETAIL. -/
  detail : List Byte := List.replicate 16 0
  deriving DecidableEq, Repr

/-- A queue entry that the module has fetched or started (R325, R336). -/
structure Entry where
  /-- Sequence number. -/
  n : W32
  /-- The 64 bytes. -/
  bytes : List Byte
  /-- Started. -/
  started : Bool := false
  /-- CYCLE at start. -/
  startAt : Nat := 0
  /-- The outcome, once the work is done (the record is written by ENTRY_COMPLETE). -/
  outcome : Option Done := none
  /-- Completed: the record is written (R332). -/
  complete : Bool := false
  /-- SEND: copies decided, as (target, delivered) (R377); FEED: 1 once the data has landed. -/
  marks : List (Nat × Bool) := []
  /-- SEND: targets (R376). -/
  targets : List Nat := []
  /-- Order of starting among the entries of the context (R372, R388). -/
  ord : Nat := 0
  /-- At the head of its queue it spins on its WAIT and holds an engine slot (R409). -/
  spinning : Bool := false
  /-- Its WAIT was met when its object became ORPHANED or SUSPENDED: the wait has succeeded (R411). -/
  met : Bool := false
  deriving DecidableEq, Repr

/-- An engine queue (R326, R330, R333). -/
structure Queue where
  /-- ENABLED (R330, 08; 1 bit; reset: 0, R330). -/
  enabled : Bool := false
  /-- STOPPED (R330, 08; 1 bit; reset: 0, R330). -/
  stopped : Bool := false
  /-- STOP_CAUSE (R330, 08; 8 bits; reset: 0, R330). -/
  cause : Nat := 0
  /-- DB_TAIL (R330, 08; 32 bits; reset: 0, R330). -/
  tail : W32 := 0
  /-- DB_FETCH (R330, 08; 32 bits; reset: 0, R330). -/
  fetch : W32 := 0
  /-- DB_HEAD (R330, 08; 32 bits; reset: 0, R330). -/
  head : W32 := 0
  /-- TAIL values written whose entries may not all be fetched yet, each with `life` from which they are fetched: 40 cyc after the write (R32, R331, 08;
  list; reset: empty, dc1). -/
  posted : List (W32 × Nat) := []
  /-- LOC 1: the ring lies in the host pool (R326, 08; 1 bit; reset: false, dc1). -/
  inPool : Bool := false
  /-- BASE (R326, 08; 64 bits; reset: 0, dc1). -/
  base : Nat := 0
  /-- ENTRIES (R326, 08; 64–65,536; reset: 0, dc1). -/
  entries : Nat := 0
  /-- VECTOR (R326, 08; 2–127; reset: 0, dc1). -/
  vector : Nat := 0
  /-- Entries fetched and not yet retired, in ring order (R328, R332, 08; list; reset: empty, dc1). -/
  ents : List Entry := []
  /-- FED (R346, 08; integer; reset: 0, dc1). -/
  fed : Nat := 0
  /-- TAKEN (R346, 08; integer; reset: 0, dc1). -/
  taken : Nat := 0
  /-- FED and TAKEN as recorded at the last commit (R348, 08; integers; reset: 0, dc1). -/
  fedRec : Nat := 0
  /-- TAKEN as recorded (R348, 08; integer; reset: 0, dc1). -/
  takenRec : Nat := 0
  /-- Sequence numbers of FEEDs in the order their data landed (R348, R349, 08; list; reset: empty, dc1). -/
  feeds : List W32 := []
  /-- FEEDs that a rollback has had re-executed, in order (R348, 08; list; reset: empty, dc1). -/
  redo : List W32 := []
  deriving DecidableEq, Repr

/-- A sync translation entry that is not untranslated (R394). -/
structure SyncEnt where
  /-- STATE 1 VALID, 2 ORPHANED, 3 SUSPENDED. -/
  st : Nat
  /-- OWNED. -/
  owned : Bool
  /-- OWNER_CTX. -/
  owner : Nat
  /-- PT. -/
  pt : Nat
  /-- INDEX. -/
  index : Nat
  /-- ALLOW of an owned counter (R397). -/
  allow : W64 := 0
  deriving DecidableEq, Repr

/-- One edge of a collective (R567, R568). -/
structure Edge where
  /-- PEER. -/
  peer : Nat
  /-- DIR: child. -/
  child : Bool
  /-- REISSUES of the last occurrence. -/
  reissues : Nat := 0
  /-- TIMEOUTS of the last occurrence. -/
  timeouts : Nat := 0
  /-- PKTS since installation. -/
  pkts : Nat := 0
  /-- TX_WM. -/
  tx : BitVec 128 := 0
  /-- RX_WM. -/
  rx : BitVec 128 := 0
  /-- Packet indices accepted in the occurrence. -/
  got : List Nat := []
  /-- Packet indices sent in the occurrence. -/
  sent : List Nat := []
  /-- Packet indices acknowledged in the occurrence. -/
  acked : List Nat := []
  /-- Timers: packet index, counted expiries, `life` at the start (R564, R566). -/
  timers : List (Nat × Nat × Nat) := []
  /-- Packet indices sent again in the occurrence (R566). -/
  resent : List Nat := []
  /-- A digest comparison is outstanding (R567). -/
  digestDue : Bool := false
  /-- This end has sent its DIGEST (R567). -/
  digestSent : Bool := false
  deriving DecidableEq, Repr

/-- A partial sum of a packet index at a nip (R560). -/
structure Partial where
  /-- PKT. -/
  pkt : Nat
  /-- SCL bytes. -/
  scl : List Byte
  /-- Largest PROP. -/
  prop : List Byte
  /-- Lane sums. -/
  lanes : List Int
  /-- Inputs added. -/
  inputs : Nat
  deriving DecidableEq, Repr

/-- An installed collective (R550, R551, R557). -/
structure Coll where
  /-- COLL_ID. -/
  id : Nat
  /-- The 128-byte descriptor. -/
  desc : List Byte
  /-- SCALE_FLIP (R557, 14; 1 bit; reset: 0 at installation, R557). -/
  flip : Bool := false
  /-- Last occurrence that completed (OCC). -/
  occ : Nat := 0
  /-- Occurrence in flight, with its step and attempt. -/
  running : Option (Nat × Nat × Nat) := none
  /-- A step fault ended the occurrence. -/
  faulted : Bool := false
  /-- Completed in the present step; FLIP inverts at its commit. -/
  doneInStep : Bool := false
  /-- Edges, parent first. -/
  edges : List Edge
  /-- Partial sums held. -/
  parts : List Partial := []
  /-- Packets of results written. -/
  written : List Nat := []
  /-- The next packet index to start (R551 WINDOW). -/
  next : Nat := 0
  /-- Home nip, a deckle die (R555, R569). -/
  home : Nat := 0
  /-- NIP_WAIT_US taken at installation (R564, R638). -/
  nipWait : Nat := 200
  /-- The ONCE entry that installed it: queue and sequence number. -/
  once : Option (Nat × W32) := none
  deriving DecidableEq, Repr

/-- A RUN in progress (R338). -/
structure RunRec where
  /-- Queue. -/
  q : Nat
  /-- Sequence number. -/
  n : W32
  /-- STEP_LIMIT. -/
  limit : Nat
  deriving DecidableEq, Repr

/-- The record of the last committed calender point (R197, R420, R406). -/
structure Commit where
  /-- SCHED of the point. -/
  sched : Nat := 0
  /-- SPROG of the sheets is equal to it. BASEV: ID and value (R404). -/
  baseV : KMap W32 := []
  /-- Tile records: physical tile at the time by local position, and the states of R188 (R197). -/
  tiles : KMap (List CState) := []
  /-- The committed regions' tile images are in LPDDR5X; CYCLE at the commit (R298 COMMIT_CYCLE). -/
  cycle : Nat := 0
  deriving DecidableEq, Repr, Inhabited

/-- An armed replica comparison (R350, R481). -/
structure Armed where
  /-- Region. -/
  region : Nat
  /-- COPIES. -/
  copies : Nat
  /-- Job group handle. -/
  group : Nat
  /-- The entries that armed it and are not yet complete: queue and sequence number. -/
  entries : List (Nat × W32)
  /-- A rollback or rebuild for disagreement came before the first commit (R489). -/
  disagreed : Bool
  /-- The watermark accumulated in the step (R483): H1 then H2. -/
  h1 : W64
  /-- H2. -/
  h2 : W64
  /-- The majority's watermark, H1 then H2, while this member rebuilds the region (R485). -/
  want : Option (W64 × W64) := none
  deriving DecidableEq, Repr

/-- A read burst on its way to its P-tile (R249). -/
structure ReadRec where
  /-- SCHED, or prologue cycle, at which it arrives. -/
  due : Nat
  /-- Channel. -/
  ch : Nat
  /-- Channel list: partition position times NCH plus logical channel. -/
  list : Nat
  /-- Configuration context at the P-tile. -/
  cfg : Nat
  /-- Byte offset in the channel. -/
  off : Nat
  /-- It reads a committed copy. -/
  committed : Bool
  /-- Channel slot. -/
  slot : Nat
  /-- The word. -/
  data : BitVec 512
  /-- What the array's data burst had wrong at the issue. -/
  dflaw : BitVec 512 := 0
  /-- What its check burst had wrong. -/
  cflaw : BitVec 512 := 0
  /-- Its group had been read as uncorrectable. -/
  lost : Bool := false
  /-- Issued in a prologue, whose cycle count `due` is. -/
  pro : Bool := false
  deriving DecidableEq, Repr

/-- A word on the crossing from a P-tile to its deckle die (R32, R149, R251). -/
structure WriteRec where
  /-- `life` at which it reaches its controller. -/
  due : Nat
  /-- Context. -/
  ctx : Nat
  /-- Channel. -/
  ch : Nat
  /-- Byte offset in the channel. -/
  off : Nat
  /-- Context address. -/
  addr : Nat
  /-- The word; none for one suppressed or lost at its check. -/
  data : Option (BitVec 512)
  /-- Region whose watermark takes the word, with its element index (R483). -/
  mark : Option (Nat × Nat)
  /-- The last data word of its group: the check burst follows. -/
  last : Bool
  deriving DecidableEq, Repr

/-- A range of a context's memory whose contents are undefined: scratch after a rollback, an allocation before it is written (R264, R318). -/
structure Undef where
  /-- Context. -/
  ctx : Nat
  /-- First context address. -/
  lo : Nat
  /-- The address after the last. -/
  hi : Nat
  /-- Index of the allocation or rollback. -/
  index : Nat
  deriving DecidableEq, Repr

/-- A schedule violation (R200, R201): local position, queue, cause, owner context, bound, occupancy, and tile. -/
structure Violation where
  /-- Local row. -/
  row : Nat
  /-- Local column. -/
  col : Nat
  /-- Queue, 8 the read buffer, 9 the write buffer. -/
  queue : Nat
  /-- CAUSE. -/
  cause : Nat
  /-- Owning configuration context. -/
  cfg : Nat
  /-- BOUND. -/
  bound : Nat
  /-- OCCUPANCY. -/
  occ : Nat
  /-- Physical tile. -/
  tile : Nat
  deriving DecidableEq, Repr

/-- One context (R314). -/
structure Context where
  /-- State (R314, 08; 4 bits; reset: FREE, R314). -/
  st : CtxState := .free
  /-- Serial of the handle issued by CTX_CREATE (R316, 08; integer; reset: 0, dc1). -/
  serial : Nat := 0
  /-- Allocation (R318, 08; option; reset: none, dc1). -/
  alloc : Option Alloc := none
  /-- Partitions held (R319, 08; bitmap; reset: none, dc1). -/
  held : List Nat := []
  /-- The state to return to after a suspension (R315, 08; option; reset: none, dc1). -/
  back : CtxState := .bound
  /-- Operation in progress on the context: PROG_LOAD, CTX_SUSPEND or CTX_RESUME (R315, 08; OP_ID; reset: none, dc1). -/
  op : Option Nat := none
  /-- PROG_LOAD request in progress: SRC, ADDR, LEN (R298, 07; reset: none, dc1). -/
  load : Option (Nat × Nat × Nat) := none
  /-- Program placed (R221, 05; option; reset: none, dc1). -/
  prog : Option Prog := none
  /-- FLIP of each committed region (R260, 06; 1 bit each; reset: 0, R260). -/
  flips : List Bool := []
  /-- Committed step count (R417, 10; 64 bits; reset: 0, R324). -/
  step : Nat := 0
  /-- SCHED (R159, 04; 64 bits; reset: 0, R184). -/
  sched : Nat := 0
  /-- The program has started its first RUN (R338, 08; 1 bit; reset: false, dc1). -/
  started : Bool := false
  /-- What the context is held for (R160, 04; reset: stopped, dc1). -/
  hold : Hold := .stopped
  /-- Wait points, by SCHED, whose condition a sample has found met, with `life` at the sample (R160, 04; list; reset: empty, dc1). -/
  sampled : List (Nat × Nat) := []
  /-- Record of the last committed calender point (R197, R420, 05; reset: as Commit). -/
  commit : Commit := {}
  /-- RUN in progress (R338, 08; option; reset: none, dc1). -/
  run : Option RunRec := none
  /-- STOPs waiting for a commit: queue and sequence number (R339, 08; list; reset: empty, dc1). -/
  stops : List (Nat × W32) := []
  /-- cgen, the configuration generation (R214, 05; 4 bits; reset: 0, dc1). -/
  cgen : BitVec 4 := 0
  /-- last_reconfig as `life` (R214, 05; option; reset: none, dc1). -/
  lastReconfig : Option Nat := none
  /-- Classes of the group 0x01 records of the step, first one first (R504, 13; list; reset: empty, dc1). -/
  faults : List Nat := []
  /-- A schedule violation outside R203 has occurred (R201, 05; 1 bit; reset: false, dc1). -/
  violated : Bool := false
  /-- Consecutive rollbacks of the step (R508, 13; integer; reset: 0, dc1). -/
  rollbacks : Nat := 0
  /-- Rollbacks of the step so far for ATTEMPT (R556, 14; modulo 256; reset: 0, dc1). -/
  attempt : Nat := 0
  /-- Consecutive rollbacks for REPLICA_TIMEOUT or REPLICA_DIVERGED (R488, 12; integer; reset: 0, dc1). -/
  replicaRb : Nat := 0
  /-- Consecutive rollbacks for a CAL_BALANCE pair: the pair (R408, 10; option; reset: none, dc1). -/
  balanceRb : Option (Nat × Nat) := none
  /-- Memory words with errors in committed copies met in the re-execution, with their occurrences (R271, 06; list; reset: empty, dc1). -/
  memErrs : List (Nat × Nat) := []
  /-- Violations met in the present cycle, which its single record will report (R202, 05; list; reset: none, dc1). -/
  viols : List Violation := []
  /-- Partitions that run on to the next frame boundary after a violation on another (R201, 05; list; reset: none, dc1). -/
  runOn : List Nat := []
  /-- CALENDER_OVERDUE raised in the present step (R422, 10; 1 bit; reset: false, dc1). -/
  overdue : Bool := false
  /-- The program ends at the next commit for REFRESH_CLASS, and whether at once (R268, 06; 1 bit; reset: false, dc1). -/
  refreshEnd : Bool := false
  /-- The context holds at the next frame boundary for REFRESH_CLASS (R268, 06; 1 bit; reset: false, dc1). -/
  hotHold : Bool := false
  /-- The suspension is due at the next commit (R320, 08; 1 bit; reset: false, dc1). -/
  suspendDue : Bool := false
  /-- A prologue step fault asks for the prologue to run again (R504, 13; 1 bit; reset: false, dc1). -/
  proAgain : Bool := false
  /-- A snapshot copy holds the next release (R594, 15; 1 bit; reset: false, dc1). -/
  snapWait : Bool := false
  /-- `life` at which the schedule reached the present calender point (R419, 10; integer; reset: 0, dc1). -/
  calAt : Nat := 0
  /-- The present calender hold follows a commit, so that catch-ups and plain moves due are made in it (R449, R452, 11; 1 bit; reset: false,
  dc1). -/
  commitHold : Bool := false
  /-- ROLLBACK_LIMIT and REPLICA_WAIT_US taken at PROG_LOAD (R638, 16; integer; reset: 8 and 200, R638). -/
  rbLimit : Nat := 8
  /-- REPLICA_WAIT_US taken at PROG_LOAD (R638, 16; integer; reset: 200, R638). -/
  replicaWait : Nat := 200
  /-- Engine queues, 4·e + q (R326, 08; 16 queues; reset: as Queue). -/
  queues : List Queue := List.replicate 16 {}
  /-- Sync translation table (R392, R394, 10; 65,536 entries of 32 bits; reset: untranslated, R394). -/
  sync : KMap SyncEnt := []
  /-- Adds of other contexts' programs to counters that this context owns, made while it is suspended: partition, index, amount, occurrences. They are
  applied when it resumes (R414, 10; list; reset: none, dc1; log entry 55). -/
  heldAdds : List (Nat × Nat × W32 × Nat) := []
  /-- Installed collectives (R550, 14; at most 256; reset: none, dc1). -/
  colls : List Coll := []
  /-- Armed replica comparisons (R489, 12; list; reset: none, dc1). -/
  armed : List Armed := []
  /-- The decisions so far at a calender point: replica decision taken, and whether it is commit (R505, 13; reset: none, dc1). -/
  replicaOk : Option Bool := none
  /-- The job's decision (R583, 15; option; reset: none, dc1). -/
  jobOk : Option Bool := none
  /-- EC_REFRESH entries waiting: queue, sequence number and generation (R596, 15; list; reset: empty, dc1). -/
  ecWaits : List (Nat × W32 × Nat) := []
  /-- Channel reads issued and not yet arrived (R249, 06; at most 32 per channel; reset: empty, dc1). -/
  reads : List ReadRec := []
  /-- Context counters by ID (R381, R425, R497, R571, R606, 09; 48 bits each; reset: 0, dc1). -/
  counters : KMap Nat := []
  deriving DecidableEq, Repr

/-- A message endpoint (R354–R360). -/
structure Endpoint where
  /-- Handle that names it. -/
  handle : Nat
  /-- ROLE. -/
  role : Nat
  /-- Binding context. -/
  ctx : Nat
  /-- LOC 1. -/
  inPool : Bool
  /-- ACCEPT 1. -/
  acceptAll : Bool
  /-- VECTOR. -/
  vector : Nat
  /-- BASE. -/
  base : Nat
  /-- CTL. -/
  ctl : Nat
  /-- CELLS. -/
  cells : Nat
  /-- OUT. -/
  out : Nat
  /-- BOUNCE. -/
  bounce : Nat
  /-- WR (R357; 32 bits; reset: 0 at bind, R358). -/
  wr : W32 := 0
  /-- BOUNCES (R357; 32 bits; reset: 0 at bind, R358). -/
  bounces : W32 := 0
  /-- RD last observed (R359; 32 bits; reset: 0 at bind, R358). -/
  rd : W32 := 0
  /-- IRQ_AT last observed (R370; 32 bits; reset: 1 at bind, R358). -/
  irqAt : W32 := 1
  /-- The vector has been sent for the present IRQ_AT (R370). -/
  irqSent : Bool := false
  /-- BWR (R357; 32 bits; reset: 0 at bind, R358). -/
  bwr : W32 := 0
  /-- BRD last observed (R357; 32 bits; reset: 0 at bind, R358). -/
  brd : W32 := 0
  /-- Credits taken by copies not yet decided (R364). -/
  inUse : Nat := 0
  /-- Bounced copies not yet consumed: the BWR value that passes each (R364). -/
  unconsumed : List W32 := []
  /-- Disabled by a ring error (R374). -/
  disabled : Bool := false
  deriving DecidableEq, Repr

/-- A message copy on its way to its decision (R366, R371). -/
structure Copy where
  /-- Target handle. -/
  target : Nat
  /-- Role. -/
  role : Nat
  /-- Sending context, 64 for firmware. -/
  src : Nat
  /-- Sender endpoint handle, for its bounce ring and credits; none for REQUEST and firmware. -/
  from' : Option Nat
  /-- The message as cells of bytes (header first). -/
  cells : List (List Byte)
  /-- PLEN. -/
  plen : Nat
  /-- The entry that waits: engine-queue index, sequence number, target index. -/
  entry : Option (Nat × W32 × Nat)
  /-- Session tag of a REQUEST. -/
  session : Option Nat
  /-- Unbound at the moment of sending counts nothing; firmware calender record (CAL_LOST). -/
  calender : Option Nat
  /-- `life` when it arrived at CT0 (R371). -/
  at' : Nat := 0
  deriving DecidableEq, Repr

/-- A session table entry (R383). -/
structure Session where
  /-- STATE is OPEN (R383; 8 bits; reset: FREE, R389). -/
  isOpen : Bool := false
  /-- OWNER_CTX. -/
  owner : Nat := 0
  /-- CTX. -/
  ctx : Nat := 0
  /-- ENGINE. -/
  engine : Nat := 0
  /-- GEN (R383; 32 bits; reset: 0, R389). -/
  gen : W32 := 0
  /-- REQ_SEQ. -/
  reqSeq : W64 := 0
  /-- DELIVERED. -/
  delivered : W64 := 0
  /-- BOUNCED. -/
  bounced : W64 := 0
  /-- OPEN_CYCLE. -/
  openCycle : Nat := 0
  /-- LAST_CYCLE. -/
  lastCycle : Nat := 0
  /-- USER. -/
  user : List Byte := List.replicate 16 0
  deriving DecidableEq, Repr

/-- One way of the session cache (R390). -/
structure CacheWay where
  /-- Session tag. -/
  tag : Nat
  /-- The entry: the only current copy. -/
  entry : Session
  /-- It has changed since it was read from the table. -/
  changed : Bool
  deriving DecidableEq, Repr

/-- A user-defined group (R36). -/
structure Group where
  /-- Handle. -/
  handle : Nat
  /-- Direct members in member order. -/
  members : List Nat
  deriving DecidableEq, Repr

/-- A background operation (R291). -/
structure OpRec where
  /-- OP_ID. -/
  id : Nat
  /-- CODE. -/
  code : Nat
  /-- HANDLE. -/
  handle : Nat
  /-- Handles of the units it began on, groups expanded (R45, R50). -/
  units : List Nat := []
  /-- Finished. -/
  finished : Bool := false
  /-- The work is done with this outcome; BACKGROUND_OP_FINISHED reports it. -/
  ready : Option (Nat × List Byte) := none
  /-- STATUS. -/
  status : Nat := 0
  /-- PROGRESS in thousandths. -/
  progress : Nat := 0
  /-- START, a CYCLE value. -/
  start : Nat := 0
  /-- END, a CYCLE value. -/
  stop : Nat := 0
  /-- DETAIL. -/
  detail : List Byte := List.replicate 16 0
  /-- TEST: the kind and the columns (sheet, PC) to test; then result records (R466). -/
  cols : List (Nat × Nat) := []
  /-- TEST kind. -/
  kind : Nat := 0
  /-- TEST result records of 32 bytes (R466). -/
  records : List (List Byte) := []
  /-- Argument of the operation: power state, group of partitions and the like. -/
  arg : Nat := 0
  /-- Partitions concerned. -/
  pts : List Nat := []
  /-- Master that asked. -/
  bySideband : Bool := false
  deriving DecidableEq, Repr

/-- An error record (R499). -/
structure ErrRec where
  /-- SEQ. -/
  seq : W32
  /-- CLASS. -/
  cls : Nat
  /-- FLAGS. -/
  flags : Nat
  /-- CYCLE. -/
  cycle : Nat
  /-- HANDLE. -/
  handle : Nat
  /-- LHANDLE. -/
  lhandle : Nat
  /-- LOC. -/
  loc : Nat
  /-- CTX. -/
  ctx : Nat
  /-- PT. -/
  pt : Nat
  /-- STEP. -/
  step : Nat
  /-- SCHED. -/
  sched : Nat
  /-- PROGRAM_ID. -/
  pid : List Byte
  /-- The body. -/
  body : List Byte
  deriving DecidableEq, Repr

/-- The error log, the suspect ledger and the repair record (R498, R490, R458). -/
structure Logs where
  /-- Error log, newest last, at most 4,096 (R498, 13; 256 bytes each; reset: empty, R498). -/
  errs : List ErrRec := []
  /-- SEQ of the newest record, FS_FAULTS (R498, 13; 32 bits; reset: 0, R498). -/
  seq : W32 := 0
  /-- Records raised before stage 3 has started the log (R707, 19; list; reset: empty, dc1). -/
  early : List ErrRec := []
  /-- Ledger records of 64 bytes, oldest first, at most 4,096 (R490, 12; reset: empty, log entry 10). -/
  ledger : List (List Byte) := []
  /-- SEQ that the next ledger record takes (R490, 12; 32 bits; reset: 0, dc1). -/
  ledgerSeq : W32 := 0
  /-- LEDGER_RECORDS and LEDGER_BAD (R497, 12; 48 bits; reset: 0, dc1). -/
  ledgerCtr : Nat := 0
  /-- LEDGER_BAD (R497, 12; 48 bits; reset: 0, dc1). -/
  ledgerBad : Nat := 0
  /-- Entries of the newest repair record copy, 16 bytes each (R458, 11; at most 2,048; reset: empty, log entry 10). -/
  repair : List (List Byte) := []
  /-- SEQ of the newest copy (R458, 11; 64 bits; reset: 0, dc1). -/
  repairSeq : Nat := 0
  /-- LIFE_H of the newest copy (R458, 11; 32 bits; reset: 0, dc1). -/
  repairLife : Nat := 0
  /-- The newest copy is A (R460, 11; reset: false, dc1). -/
  newestA : Bool := false
  /-- Entries of the copy that is not the newest, and its SEQ (R460, 11; reset: empty, dc1). -/
  repairOld : List (List Byte) := []
  /-- Pending area of module flash, at most 256 entries (R461, 11; reset: empty, dc1). -/
  repairPend : List (List Byte) := []
  /-- Repairs and markings in force, stored or not (R461, R462, 11; list; reset: empty, log entry 10). -/
  inForce : List (List Byte) := []
  /-- Parity failures attributed to routers: the step (number, context, CYCLE of the commit before it), `life`, routers on the path (R526, 13; list;
  reset: empty, dc1). -/
  paths : List ((Nat × Nat × Nat) × Nat × List Nat) := []
  /-- Fabric log classes logged in the present second, and the rest counted: port·0x10000 + class and `life` (R570, 14; reset: empty, dc1). -/
  fabricAt : KMap Nat := []
  deriving DecidableEq, Repr

/-- Control dies and cores (R27, R457, R515). -/
structure Dies where
  /-- CT0 lost (R27, 01; 1 bit; reset: false, log entry 10). -/
  ct0Lost : Bool := false
  /-- CT1 lost (R27, 01; 1 bit; reset: false, log entry 10). -/
  ct1Lost : Bool := false
  /-- `life` at the last heartbeat between the dies (R516, 13; integer; reset: 0, dc1). -/
  beat : Nat := 0
  /-- Control cores marked unusable, 8·die + core (R457, 11; 16 bits; reset: none, log entry 10). -/
  coreOff : List Nat := []
  /-- Control cores restarting after their watchdog (R515, 13; list; reset: none, dc1). -/
  coreDown : List Nat := []
  /-- Watchdog expiries: core and `life` (R457, R515, 11; list; reset: empty, dc1). -/
  expiries : List (Nat × Nat) := []
  /-- Nip engines marked unusable, by deckle die (R457, 11; list; reset: none, log entry 10). -/
  nipOff : List Nat := []
  /-- Reed–Solomon engines marked unusable, by deckle die (R457, 11; list; reset: none, log entry 10). -/
  ecOff : List Nat := []
  /-- Nip engines whose fallback has been logged (R569, 14; list; reset: none, dc1). -/
  nipLogged : List Nat := []
  /-- Package temperatures in °C as last read; the band follows (R265, 06; 48 values; reset: none read, dc1). -/
  pkgTemp : KMap Int := []
  /-- Partitions that stand off placement until every package reads 100 °C or below (R269, 06; list; reset: empty, dc1). -/
  hotPts : List Nat := []
  /-- Deckle and control die temperatures by die code (R685, 18; reset: none read, dc1). -/
  dieTemp : KMap Int := []
  /-- Limiter level decided (R682, 18; 0–7; reset: 0, dc1). -/
  limL : Nat := 0
  /-- Thermal levels decided, per partition (R686, 18; 0–7; reset: 0, dc1). -/
  thermT : List Nat := List.replicate 8 0
  /-- THERMTRIP_N asserted (R689, 18; 1 bit; reset: false, dc1). -/
  thermtrip : Bool := false
  /-- Module input power last sampled, W (R682, 18; integer; reset: 0, dc1). -/
  powerW : Nat := 0
  /-- `life` at the last sample of the limiter (R682, 18; option; reset: none, dc1). -/
  powerAt : Option Nat := none
  /-- `life` at the last sample that raised L, or when L last fell (R682, 18; integer; reset: 0, dc1). -/
  limAt : Nat := 0
  /-- Samples of the second in progress, and the sum of their averages in W (R682, 18; integers; reset: 0, dc1). -/
  second : Nat × Nat := (0, 0)
  /-- `life` at the last sample of the temperature sensors (R685, 18; option; reset: none, dc1). -/
  tempAt : Option Nat := none
  /-- Energy of the module in tenths of a mJ; ENERGY_MJ is this divided by 10 (R692, 18; 64 bits of mJ; reset: 0, dc1). -/
  energy : Nat := 0
  deriving DecidableEq, Repr

/-- A mode change in progress (R640, R644). -/
structure ModeChange where
  /-- MODE. -/
  mode : Nat
  /-- VALUE. -/
  value : Nat
  /-- OP_ID. -/
  op : Nat
  /-- Units of the scope, in the order of application. -/
  units : List Nat
  /-- Units applied. -/
  applied : List Nat
  /-- A port ended FAILED. -/
  degraded : Bool
  deriving DecidableEq, Repr

/-- Firmware, keys, settings and test mode (R617–R646). -/
structure Mgmt where
  /-- Firmware state (R627, 16; 8 bits; reset: IDLE, dc1). -/
  fw : FwState := .idle
  /-- The firmware image in module flash (R625, 16; bytes; reset: empty, log entry 10). -/
  flash : Mem := []
  /-- Length of the flash image (R625, 16; integer; reset: 0, log entry 10). -/
  flashLen : Nat := 0
  /-- The running image: FW_VERSION, SVN, FLAGS, Tylys (R625, 16; reset: 0, dc1). -/
  runSvn : Nat := 0
  /-- FORCE_SVN of the running image (R625, 16; 1 bit; reset: false, dc1). -/
  forceSvn : Bool := false
  /-- SHA3-512 of the running image (R617, 16; 64 bytes; reset: zero, dc1). -/
  runDigest : List Byte := List.replicate 64 0
  /-- SHA3-512 of the image that the alias certificate was issued for at start-up (R618, 16; 64 bytes; reset: zero, dc1). -/
  certDigest : List Byte := List.replicate 64 0
  /-- FW_VERSION of the running image, which a firmware restart changes (R627, R629, 16; 32 bits; reset: 0, dc1). -/
  runVer : W32 := 0
  /-- Tylys version of the running image, minor then major (R625, R628, 16; 16 bits; reset: 0, dc1). -/
  runTylys : W16 := 0
  /-- STAGED_VER (R298, 16; 32 bits; reset: 0, dc1). -/
  stagedVer : W32 := 0
  /-- Length of the staging buffer; 0 for none (R628, 16; integer; reset: 0, R629). -/
  stageLen : Nat := 0
  /-- The staging buffer (R628, 16; bytes; reset: empty, R629). -/
  stage : Mem := []
  /-- Operation of the commit in progress, and whether a firmware restart follows it (R628, R634, 16; reset: none, dc1). -/
  commitOp : Option (Nat × Bool) := none
  /-- The commit's source is the Reel recovery area (R634, 16; 1 bit; reset: false, dc1). -/
  commitReel : Bool := false
  /-- A PLDM update is in progress (R630, 16; 1 bit; reset: false, dc1). -/
  pldm : Bool := false
  /-- Bytes of the PLDM image received (R630, 16; integer; reset: 0, dc1). -/
  pldmGot : Nat := 0
  /-- Length of the PLDM image (R630, 16; integer; reset: 0, dc1). -/
  pldmLen : Nat := 0
  /-- A firmware restart is in progress, with its operation (R520, 13; option; reset: none, dc1). -/
  restart : Option (Option Nat) := none
  /-- Recovery order position while the boot ROM awaits an image (R632, 16; 0–4; reset: 0, dc1). -/
  recovery : Nat := 0
  /-- FW_RECOVERY (R306, 16; 1 bit; reset: 0, R306). -/
  fwRecovery : Bool := false
  /-- Program-signing key slots (R623, 16; 2,592 bytes each; reset: empty, log entry 10). -/
  keys : List (Option (List Byte)) := List.replicate 8 none
  /-- Settings records present in the image, by ID (R635, 16; bytes; reset: empty, every setting at its default, log entry 10). -/
  settings : KMap (List Byte) := []
  /-- GEN of the settings image (R635, 16; 32 bits; reset: 0, dc1). -/
  settingsGen : W32 := 0
  /-- The settings image in flash has a bad MAGIC or check word (R636, R637, 16; 1 bit; reset: false, log entry 10). -/
  settingsBad : Bool := false
  /-- SETTINGS_DEFAULTED (R306, 16; 1 bit; reset: 0, R306). -/
  defaulted : Bool := false
  /-- External test mode latched since power-on: ATTEST_BLOCKED (R621, 16; 1 bit; reset: 0, R306). -/
  testMode : Bool := false
  /-- `life` when the boot ROM began to wait for an image from the host (R632, 16; integer; reset: 0, dc1). -/
  waitHostAt : Nat := 0
  /-- devid_sk and alias_sk are held (R617, 16; 1 bit; reset: false, dc1). -/
  keysHeld : Bool := false
  /-- The alias certificate has been issued (R618, 16; 1 bit; reset: false, dc1). -/
  aliasCert : Bool := false
  /-- CH_ATTACH in force for placement is the setting; the settings taken at start-up: HOST_POOL_PTS, DUMP_PT, SIDEBAND_BUS
  (R638, 16; reset: defaults, R638). -/
  poolPts : Nat := 0xFF
  /-- DUMP_PT in force (R638, 16; 0–7; reset: 7, R638). -/
  dumpPt : Nat := 7
  /-- Mode changes in progress (R640, 16; list; reset: empty, R646). -/
  modes : List ModeChange := []
  deriving DecidableEq, Repr

/-- The sideband endpoint (R610–R616). -/
structure Side where
  /-- EID (R610, 16; 8 bits; reset: none, dc1). -/
  eid : Option Byte := none
  /-- I3C dynamic address (R610, 16; 7 bits; reset: none, dc1). -/
  i3c : Option (BitVec 7) := none
  /-- Answering on SMBus (R610, 16; 1 bit; reset: false, dc1). -/
  smbus : Bool := false
  /-- EID that last sent LOCK_ACQUIRE (R615, 16; option; reset: none, dc1). -/
  lockEid : Option Byte := none
  /-- Tag of the MB_REQUEST outstanding (R613, 16; option; reset: none, dc1). -/
  outstanding : Option Byte := none
  /-- A tunnelled command that waits: its tag, code and request (R277, R295, R613, 16; option; reset: none, dc1). -/
  held : Option (Byte × Nat × List Byte) := none
  /-- Event receiver (R616, 16; option; reset: none, dc1). -/
  receiver : Option Byte := none
  /-- Last readings by sensor ID (R616, 16; signed; reset: none, dc1). -/
  readings : KMap Int := []
  /-- SIDEBAND_BUS as taken at start-up: SMBus only (R610, R638, 16; 1 bit; reset: false, R638). -/
  smbusOnly : Bool := false
  /-- Dump stream: DUMP_ID, bytes sent, NEXT acknowledged, total (R615, 16; option; reset: none, dc1). -/
  stream : Option (Nat × Nat × Nat × Nat) := none
  /-- `life` when the stream began or its last DUMP_STREAM_ACK came (R615, 16; integer; reset: 0, dc1). -/
  ackAt : Nat := 0
  /-- `life` when the stream last began or went on from NEXT (R615, 16; integer; reset: 0, dc1). -/
  resentAt : Nat := 0
  /-- `life` at the last refresh of the sensor readings (R616, 16; option; reset: none, dc1). -/
  readAt : Option Nat := none
  deriving DecidableEq, Repr

/-- One fabric port (R533–R541). -/
structure FPort where
  /-- MODE Ethernet (R537, 14; 1 bit; reset: false, R638). -/
  eth : Bool := false
  /-- STATE (R537, 14; reset: DOWN, R519). -/
  st : PortState := .down
  /-- Broke lanes (R535, 14; 4 bits; reset: none, log entry 10). -/
  broke : BitVec 4 := 0
  /-- Lanes in use (R534, 14; 4 bits; reset: none, dc1). -/
  lanes : BitVec 4 := 0
  /-- PEER_ADDR (R537, 14; 16 bits; reset: 0xFFFF, R537). -/
  peer : W16 := 0xFFFF#16
  /-- PEER_PORT (R537, 14; 8 bits; reset: 0, dc1). -/
  peerPort : Byte := 0
  /-- VC_GROUP (R537, 14; 16 bytes; reset: 0, R541). -/
  groups : List Nat := List.replicate 16 0
  /-- Send credits per VC (R538, 14; 16 bits each; reset: 0, dc1). -/
  credits : List Nat := List.replicate 16 0
  /-- Packets waiting for credits (R538, 14; list of bytes; reset: empty, dc1). -/
  txq : List (List Byte) := []
  /-- Training failures in a row and in the last 24 h, per lane: `life` values (R535, 14; reset: empty, dc1). -/
  trainFails : KMap (List Nat) := []
  /-- Analogue excesses per lane: `life`, and whether a retraining followed (R535, 14; reset: empty, dc1). -/
  excess : KMap (Nat × Bool) := []
  /-- A retraining is due for a PHY_WARN (R535, 14; 1 bit; reset: false, dc1). -/
  retrain : Bool := false
  /-- FEC_UNCORR_CW at the last PKT_DISCARD record (R570, 14; 48 bits; reset: 0, dc1). -/
  uncorrAt : Nat := 0
  /-- Port counters k = 0–7 (R571, 14; 48 bits each; reset: 0, dc1). -/
  ctr : List Nat := List.replicate 8 0
  /-- ETH_VID taken at the last training in Ethernet mode (R638, 16; 12 bits; reset: 0, R638). -/
  vid : Nat := 0
  /-- ETH_TYPE taken at the last training in Ethernet mode (R638, 16; 16 bits; reset: 0x88B5, R638). -/
  etherType : Nat := 0x88B5
  deriving DecidableEq, Repr

/-- The state a save block holds (R320, R591). -/
structure Saved where
  /-- The record of the last commit: SCHED, BASEV and the tile records. -/
  commit : Commit
  /-- Committed step count. -/
  step : Nat
  /-- FLIP of each region. -/
  flips : List Bool
  /-- FED and TAKEN of each queue. -/
  feeds : List (Nat × Nat)
  /-- Sync table. -/
  sync : KMap SyncEnt
  /-- SCALE_FLIP by COLL_ID. -/
  scaleFlips : List (Nat × Bool)
  /-- Committed scale tables by COLL_ID. -/
  tables : List (Nat × List Byte) := []
  /-- Values of the physical counters owned: partition, index, value. -/
  counters : List (Nat × Nat × W32) := []
  /-- Step of generation 0. -/
  base : Nat := 0
  deriving DecidableEq, Repr, Inhabited

/-- What a save block takes of a context (R591). -/
def Context.save (x : Context) : Saved :=
  { commit := x.commit, step := x.step, flips := x.flips, feeds := x.queues.map fun q => (q.fedRec, q.takenRec), sync := x.sync
    scaleFlips := x.colls.map fun d => (d.id, d.flip) }

/-- A membership packet awaiting its ACK (R578). -/
structure Unacked where
  /-- SEQ. -/
  seq : Nat
  /-- Destination rank. -/
  rank : Nat
  /-- Bytes of the packet. -/
  bytes : List Byte
  /-- Resends made. -/
  tries : Nat
  /-- STEP of the packet's header. -/
  step : Nat
  /-- ATTEMPT of the packet's header. -/
  attempt : Nat
  /-- `life` when it was last sent (R578). -/
  sentAt : Nat := 0
  deriving DecidableEq, Repr

/-- A job (R572–R606). -/
structure Job where
  /-- JOB_ID. -/
  id : Nat
  /-- STATE (R574, 15). -/
  st : JobState
  /-- Context. -/
  ctx : Nat
  /-- NMOD. -/
  nmod : Nat
  /-- RANK. -/
  rank : Nat
  /-- Serial of the job group handle (R573). -/
  serial : Nat
  /-- EPOCH (R573; 32 bits; reset: 1 at formation, R573). -/
  epoch : Nat
  /-- Peer addresses in rank order. -/
  addrs : List Nat
  /-- CRC-32C of the peer list. -/
  peersCrc : Nat
  /-- SNAP_BASE, SNAP_LEN, PAR_BASE, PAR_LEN. -/
  areas : List Nat
  /-- Operation in progress. -/
  op : Option Nat
  /-- Ranks lost in this epoch. -/
  lost : List Nat
  /-- K of the erasure group; 0 for none. -/
  k : Nat := 0
  /-- REFRESH_N. -/
  refreshN : Nat := 0
  /-- CHUNK. -/
  chunk : Nat := 0
  /-- PROT_GEN; all ones for no generation (log entry 29). -/
  protGen : Nat := 2 ^ 64 - 1
  /-- PROT_STEP. -/
  protStep : Nat := 0
  /-- GEN_DONE; all ones for no generation (log entry 29). -/
  genDone : Nat := 2 ^ 64 - 1
  /-- The newest generation started. -/
  gen : Nat := 0
  /-- Steps at which generations were taken: generation and step. -/
  genSteps : List (Nat × Nat) := []
  /-- The save block of each generation kept, as the state it holds (R320, R591). -/
  saved : List (Nat × Saved) := []
  /-- A refresh is asked for at the next commit (R596). -/
  refreshDue : Bool := false
  /-- MEMBER SEQ of the next packet. -/
  seq : Nat := 0
  /-- Packets awaiting ACK. -/
  unacked : List Unacked := []
  /-- HELLOs received by rank 0: rank, whether it agrees, whether it is a joiner, GEN_DONE. -/
  hellos : List (Nat × Bool × Bool × Nat) := []
  /-- This member's HELLO has been acknowledged. -/
  helloAcked : Bool := false
  /-- The copy of the shard into its slot is under way (R594). -/
  copying : Bool := false
  /-- EC_SETUP awaits the confirmation of generation 0 (R593). -/
  setup : Bool := false
  /-- Erasure traffic taken: generation, sender's rank, whether for Q, packet index. -/
  ecGot : List (Nat × Nat × Bool × Nat) := []
  /-- Joiner. -/
  joiner : Bool := false
  /-- Votes received from children: rank, code, NVOTED, GEN_DONE, LOST. -/
  votes : List (Nat × Nat × Nat × Nat × List Nat) := []
  /-- This member's own vote, once formed. -/
  own : Option Nat := none
  /-- The VOTE has been sent up. -/
  voted : Bool := false
  /-- The gather window has ended at the root (R587). -/
  gathered : Bool := false
  /-- ALERTs forwarded: lost ranks. -/
  alerted : List Nat := []
  /-- STEP, ATTEMPT and body of the last per-step DECISION, resent before RESTART (R586). -/
  lastDecision : Option (Nat × Nat × List Byte) := none
  /-- `life` when the member entered FORMING, or VOTING, last (R573, R587). -/
  since : Nat := 0
  /-- JOB_FORM_S of the formation (R573). -/
  formS : Nat := 60
  /-- RESTART_GATHER_US of the job (R587). -/
  gatherUs : Nat := 1000
  /-- By rank: `life` of the last MEMBER packet from a tree neighbour, or when it became one (R579). -/
  heard : KMap Nat := []
  /-- `life` when HEARTBEATs, or a HELLO for want of an acknowledgement, were sent last (R579, log entry 33). -/
  beat : Option Nat := none
  deriving DecidableEq, Repr

/-- A fabric packet delivered to this module and not yet handled (R543). -/
structure Packet where
  /-- Port of arrival. -/
  port : Nat
  /-- Header fields TYPE, VC, FLAGS, HOPS (R539). -/
  typ : Nat
  /-- VC. -/
  vc : Nat
  /-- FLAGS. -/
  flags : Nat
  /-- DST_ADDR. -/
  dst : Nat
  /-- SRC_ADDR. -/
  src : Nat
  /-- JOB_TAG. -/
  jobTag : Nat
  /-- COLL_ID. -/
  coll : Nat
  /-- ATTEMPT. -/
  attempt : Nat
  /-- STEP. -/
  step : Nat
  /-- PKT. -/
  pkt : Nat
  /-- Payload. -/
  payload : List Byte
  deriving DecidableEq, Repr

/-- The Reel (R647–R666). -/
structure Reel where
  /-- STATE (R650, 17; 8 bits; reset: ABSENT, R663 powers it off). -/
  st : ReelState := .absent
  /-- LATCH_CLOSED (R664, 17; 1 bit; reset: false, dc1). -/
  latch : Bool := false
  /-- AUTHENTIC (R651, 17; 1 bit; reset: false, dc1). -/
  authentic : Bool := false
  /-- LIFE_WARN (R661, 17; 1 bit; reset: false, dc1). -/
  lifeWarn : Bool := false
  /-- WRITE_STOP (R661, 17; 1 bit; reset: false, dc1). -/
  writeStop : Bool := false
  /-- LINK_REDUCED (R648, 17; 1 bit; reset: false, dc1). -/
  linkReduced : Bool := false
  /-- CAUSE (R664, 17; 8 bits; reset: 0, R664). -/
  cause : Nat := 0
  /-- PU (R660, 17; 8 bits; reset: 0, dc1). -/
  pu : Nat := 0
  /-- WRITTEN (R660, 17; 64 bits; reset: 0, dc1). -/
  written : Nat := 0
  /-- NLBA (R664, 17; 64 bits; reset: 0, dc1). -/
  nlba : Nat := 0
  /-- WEIGHT_GIB of the label (R654, 17; 32 bits; reset: 0, dc1). -/
  weightGib : Nat := 0
  /-- SERIAL (R664, 17; 20 bytes; reset: zero, dc1). -/
  serial : BitVec 160 := 0
  /-- FWREV (R664, 17; 8 bytes; reset: zero, dc1). -/
  fwrev : BitVec 64 := 0
  /-- CHAIN_DIGEST (R664, 17; 64 bytes; reset: zero, R664). -/
  chain : BitVec 512 := 0
  /-- Contents of the cartridge by byte of namespace 1 (R653, 17; bytes; reset: zero, dc1). -/
  data : Mem := []
  /-- Started accesses, oldest first: the entry (context, queue, sequence number) (R656, 17; list; reset: empty, dc1). -/
  access : List (Nat × Nat × W32) := []
  /-- Command timeouts in a row (R657, 17; 0–3; reset: 0, dc1). -/
  timeouts : Nat := 0
  /-- Eject, seal and format operations in progress: OP_ID, code, and OFFSET and LEN, or WEIGHT_GIB (R658, R659, R662, 17; list; reset:
  empty, dc1). -/
  ops : List (Nat × Nat × Nat × Nat) := []
  /-- REEL_LIFE_LOW has been logged (R661, 17; 1 bit; reset: false, dc1). -/
  lowLogged : Bool := false
  /-- `life` when the SMART / Health log was read last (R660, 17; integer; reset: 0, dc1). -/
  polledAt : Nat := 0
  deriving DecidableEq, Repr

/-- A crash dump (R527–R532). -/
structure Dump where
  /-- DUMP_ID. -/
  id : Nat
  /-- WHERE: 1 Reel, 2 LPDDR5X, 3 sideband. -/
  place : Nat
  /-- The bytes written. -/
  bytes : List Byte
  /-- CYCLE. -/
  cycle : Nat
  deriving DecidableEq, Repr

/-- A dump in progress (R527–R530). -/
structure Dumping where
  /-- DUMP_ID. -/
  id : Nat
  /-- Operation, if a command started it. -/
  op : Option Nat
  /-- TRIGGER. -/
  trigger : Nat
  /-- SCOPE handle. -/
  scope : Nat
  /-- Partitions in scope. -/
  pts : List Nat
  /-- Partitions still to be read (R518). -/
  reading : List Nat
  /-- Target being written, 1–3. -/
  target : Nat
  /-- A target has failed. -/
  restarted : Bool
  /-- NO_RESPONSE units: handle and offset. -/
  silent : List (Nat × Nat)
  /-- CYCLE_START. -/
  start : Nat
  /-- The bytes of a dump that is being streamed on the sideband. -/
  bytes : List Byte := []
  deriving DecidableEq, Repr

/-- Start-up and module power (R672, R694–R708). -/
structure Startup where
  /-- STAGE: 1–9, 0xA ready, 0xF halted (R704, 19; reset: 2, R695). -/
  stage : Nat := 2
  /-- KIND (R695, 19; reset: 1, R695). -/
  kind : Nat := 1
  /-- HALT_CAUSE (R704, 19; reset: 0, R704). -/
  halt : Nat := 0
  /-- Stage 6 has ended (R694, 19; 1 bit; reset: false, dc1). -/
  six : Bool := false
  /-- Stage 7 has ended (R694, 19; 1 bit; reset: false, dc1). -/
  seven : Bool := false
  /-- REPAIR_LOST in this start (R704, 19; 1 bit; reset: false, dc1). -/
  repairLost : Bool := false
  /-- Repair entries found by the BIST of this start (R699, 19; list; reset: empty, dc1). -/
  found : List (List Byte) := []
  /-- DONE_MS of stages 1–9 (R704, 19; 32 bits each; reset: 0, R704). -/
  doneMs : List Nat := List.replicate 9 0
  /-- Aux is in its band (R715, 20; 1 bit; reset: true, R519 keeps aux). -/
  aux : Bool := true
  /-- VSOC_EN and VSOC_PG (R696, 19; 1 bit; reset: false, R519). -/
  vsoc : Bool := false
  /-- Module power state apart from M1, which follows from the partitions (R672, 18; reset: M0, dc1). -/
  pwr : ModPwr := .m0
  /-- Module power change in progress: target and operation (R676, 18; option; reset: none, dc1). -/
  pwrOp : Option (ModPwr × Option Nat) := none
  /-- A module warm reset has been accepted and has not yet begun (R519, R727, 13; 1 bit; reset: false, dc1). -/
  warmDue : Bool := false
  /-- Requester of the warm reset to be logged as SEQ 1 (R500 class 0x0503, 13; option; reset: 0, dc1). -/
  warmBy : Option Nat := some 0
  /-- Handle epoch: warm resets and cold starts so far, modulo 256 (R41, log entry 2; 8 bits; reset: 0, dc1). -/
  epoch : Nat := 0
  /-- Next serial of a group, job group or context handle (R39, log entry 2; 20 bits, from 1; reset: 1, dc1). -/
  serial : Nat := 1
  /-- Handles have been issued (R702, 19; 1 bit; reset: false, R41). -/
  handles : Bool := false
  deriving DecidableEq, Repr

/-- An image whose signature has been judged (R220, R626; log entry 8). -/
structure Judged where
  /-- The key it was verified under. -/
  key : List Byte
  /-- The image with its signature. -/
  image : List Byte
  /-- The signature verifies. -/
  good : Bool
  deriving DecidableEq, Repr

/-- The module. -/
structure State where
  /-- Clocks. -/
  clk : Clock := {}
  /-- Identity and fuses. -/
  ident : Ident := {}
  /-- Host attachment and mailbox. -/
  host : HostIf := {}
  /-- PT0–PT7 (R60). -/
  pts : List Partition := List.replicate 8 {}
  /-- CH000–CH191 (R229). -/
  chans : List Chan := List.replicate 192 {}
  /-- SH00–SH23 (R24). -/
  sheets : List Sheet := List.replicate 24 {}
  /-- Physical tiles that are not in the state of an unconfigured tile, by 288·sheet + 16·column + row (R53). -/
  tiles : KMap Tile := []
  /-- Words on links and crossings (R149, 04; reset: none, dc1). -/
  flights : List Flight := []
  /-- Units whose QMAX a COUNTERS has restarted (R173, 04; list; reset: none, dc1). -/
  qmaxes : List QmaxRec := []
  /-- LPDDR5X contents by module physical address (R234, 06; 2,880 or 1,440 GiB; reset: zero, log entry 10). -/
  dram : Mem := []
  /-- Host pool contents by pool byte (R237, 06; 0–256 GiB; reset: zero, log entry 10). -/
  pool : Mem := []
  /-- Channels the pool lies on, fixed at start-up (R237, 06; list; reset: none, dc1). -/
  poolChans : List Nat := []
  /-- Contexts 0–63 (R314). -/
  ctxs : List Context := List.replicate 64 {}
  /-- The context each engine of CT0 served last (R329, 08; 0–63 for each of GE, ME, CE, KE; reset: 63, dc1: rotation begins at context 0). -/
  rot : List Nat := List.replicate 4 63
  /-- Receive rings (R354). -/
  ends : List Endpoint := []
  /-- Message copies awaiting their decision, in order of arrival (R371). -/
  copies : List Copy := []
  /-- The session table: entries that are not FREE with GEN 0, by tag (R382, R383, 09; 1,048,576 entries of 64 B; reset: FREE, GEN 0, R389). -/
  sessions : KMap Session := []
  /-- Session cache, most recently used first within each set (R390, 09; 65,536 entries; reset: empty, dc1). -/
  cache : List CacheWay := []
  /-- Module counters by ID: SESS_HIT and the rest (R381, R497, 09; 48 bits each; reset: 0, dc1). -/
  modCtr : KMap Nat := []
  /-- User-defined groups (R36). -/
  groups : List Group := []
  /-- Background operations: running, and the 256 finished last (R291). -/
  ops : List OpRec := []
  /-- OP_ID of the latest operation (R291, 07; 32 bits; reset: 0, dc1). -/
  lastOp : Nat := 0
  /-- Error log, ledger and repair record. -/
  logs : Logs := {}
  /-- Control dies, cores, engines, temperatures, limiter. -/
  dies : Dies := {}
  /-- Firmware, keys, settings, modes. -/
  mgmt : Mgmt := {}
  /-- Sideband. -/
  side : Side := {}
  /-- FP00–FP17 (R533). -/
  ports : List FPort := List.replicate 18 {}
  /-- Fabric packets for this module, oldest first (R543). -/
  rxq : List Packet := []
  /-- Jobs (R574). -/
  jobs : List Job := []
  /-- The Reel. -/
  reel : Reel := {}
  /-- Dumps held (R529). -/
  dumps : List Dump := []
  /-- Dump in progress (R527, 13; option; reset: none, dc1). -/
  dumping : Option Dumping := none
  /-- The next DUMP_ID, in module flash (R527, 13; 32 bits; reset: 1, dc1). -/
  nextDump : Nat := 1
  /-- Start-up and module power. -/
  start : Startup := {}
  /-- Words on their way from P-tiles to their controllers (R32, R149, 02 04; list; reset: empty, dc1). -/
  crossing : List WriteRec := []
  /-- Memory whose contents are undefined since a rollback or an allocation (R264, R318, 06 08; list; reset: none, dc1). -/
  scratch : List Undef := []
  /-- The model's own: verdicts on signatures so far, so that one image under one key has one verdict (log entry 8). -/
  verdicts : List Judged := []
  /-- The model's own: how many free values have been taken (log entry 9). -/
  fresh : Nat := 0
  /-- The model's own: what the module has sent or driven, oldest first (log entry 3). -/
  outbox : List Output := []
  /-- The commands that wait, first in, first out. -/
  pending : List Instr := []
  deriving DecidableEq, Repr

/-- Why a command stops the machine. -/
inductive Fault where
  /-- A CXL.mem access or a register write outside the window the spec gives (R282, R285): raised by CXL_MEM_READ, CXL_MEM_WRITE
  and REGISTER_WRITE. Safe: the access does not exist on the hardware. -/
  | outsideWindow (addr : Nat)
  deriving DecidableEq, Repr

/-- Why a command has no meaning. -/
inductive Refusal where
  /-- The command has no meaning yet: raised by exec's own arm. Safe. -/
  | notModelled (mnemonic : String)
  deriving DecidableEq, Repr

/-- The machine right after a warm reset has been accepted and its rails lowered (R519, R695; log entry 10). -/
def State.reset : State := {}

end Sys2Proof.Machine
end

