-- ==== Sys2Proof/Machine/Hash.lean ====
section
/-!
DEFINITION. The digests and field arithmetic the spec names: CRC-32C (R232, R490, R539), SHA3-512 (R479, R617, FIPS 202), the watermark
field GF(2^64) (R477) and the Reed–Solomon field GF(2^8) (R592).
-/
namespace Sys2Proof.Machine

/-- `n` little-endian bytes of `v` (R17). -/
def le (n v : Nat) : List Byte := (List.range n).map fun i => BitVec.ofNat 8 (v >>> (8 * i))

/-- A little-endian number (R17). -/
def unle (b : List Byte) : Nat := b.foldr (fun x a => x.toNat + 256 * a) 0

/-- `n` zero bytes. -/
def zeros (n : Nat) : List Byte := List.replicate n 0

/-- One bit step of CRC-32C, reflected polynomial 0x82F63B78. -/
def crcBit (c : Nat) : Nat := if c % 2 = 1 then (c / 2) ^^^ 0x82F63B78 else c / 2

/-- One byte of CRC-32C. -/
def crcByte (c : Nat) (b : Byte) : Nat := Nat.rec (c ^^^ b.toNat) (fun _ x => crcBit x) 8

/-- CRC-32C of a byte string. -/
def crc32c (b : List Byte) : Nat := (b.foldl crcByte 0xFFFFFFFF) ^^^ 0xFFFFFFFF

/-- Rotation offsets of Keccak-f[1600], lane 5·y + x. -/
def keccakRot : List Nat :=
  [0, 1, 62, 28, 27, 36, 44, 6, 55, 20, 3, 10, 43, 25, 39, 41, 45, 15, 21, 8, 18, 2, 61, 56, 14]

/-- Round constants of Keccak-f[1600]. -/
def keccakRC : List W64 :=
  [0x0000000000000001#64, 0x0000000000008082#64, 0x800000000000808A#64, 0x8000000080008000#64,
   0x000000000000808B#64, 0x0000000080000001#64, 0x8000000080008081#64, 0x8000000000008009#64,
   0x000000000000008A#64, 0x0000000000000088#64, 0x0000000080008009#64, 0x000000008000000A#64,
   0x000000008000808B#64, 0x800000000000008B#64, 0x8000000000008089#64, 0x8000000000008003#64,
   0x8000000000008002#64, 0x8000000000000080#64, 0x000000000000800A#64, 0x800000008000000A#64,
   0x8000000080008081#64, 0x8000000000008080#64, 0x0000000080000001#64, 0x8000000080008008#64]

/-- One round of Keccak-f[1600] on 25 lanes. -/
def keccakRound (a : List W64) (rc : W64) : List W64 :=
  let g (l : List W64) (i : Nat) : W64 := l.getD i 0
  let c := (List.range 5).map fun x => g a x ^^^ g a (x + 5) ^^^ g a (x + 10) ^^^ g a (x + 15) ^^^ g a (x + 20)
  let d := (List.range 5).map fun x => g c ((x + 4) % 5) ^^^ (g c ((x + 1) % 5)).rotateLeft 1
  let t := (List.range 25).map fun i => g a i ^^^ g d (i % 5)
  -- lane (x, y) of the result of rho and pi comes from lane (x + 3y, x)
  let b := (List.range 25).map fun i =>
    let x := i % 5
    let y := i / 5
    let j := (x + 3 * y) % 5 + 5 * x
    (g t j).rotateLeft (keccakRot.getD j 0)
  let e := (List.range 25).map fun i =>
    let x := i % 5
    let y := i / 5
    g b i ^^^ (~~~(g b ((x + 1) % 5 + 5 * y)) &&& g b ((x + 2) % 5 + 5 * y))
  e.set 0 (g e 0 ^^^ rc)

/-- Keccak-f[1600]. -/
def keccakF (a : List W64) : List W64 := keccakRC.foldl keccakRound a

/-- Absorb one 72-byte block. -/
def sha3Absorb (a : List W64) (blk : List Byte) : List W64 :=
  keccakF ((List.range 25).map fun i =>
    if i < 9 then a.getD i 0 ^^^ BitVec.ofNat 64 (unle ((blk.drop (8 * i)).take 8)) else a.getD i 0)

/-- Absorb `n` blocks. -/
def sha3Blocks : Nat → List W64 → List Byte → List W64
  | 0, a, _ => a
  | n + 1, a, m => sha3Blocks n (sha3Absorb a (m.take 72)) (m.drop 72)

/-- SHA3-512 (FIPS 202): 64 bytes. -/
def sha3 (m : List Byte) : List Byte :=
  let padLen := 72 - m.length % 72
  let pad : List Byte := if padLen = 1 then [0x86#8] else 0x06#8 :: (zeros (padLen - 2) ++ [0x80#8])
  let p := m ++ pad
  let a := sha3Blocks (p.length / 72) (List.replicate 25 0) p
  (List.range 8).flatMap fun i => le 8 (a.getD i 0).toNat

/-- Multiplication by x in GF(2^64) of R477. -/
def gfX (a : W64) : W64 := if a.msb then (a <<< 1) ^^^ 0x1B#64 else a <<< 1

/-- Multiplication in GF(2^64) = GF(2)[x]/(x^64 + x^4 + x^3 + x + 1) (R477). -/
def gfMul (a b : W64) : W64 :=
  (List.range 64).foldr (fun i acc => (if b.getLsbD i then a else 0) ^^^ gfX' acc i) 0
where
  /-- `acc·x`, Horner from the top bit. -/
  gfX' (acc : W64) (_ : Nat) : W64 := gfX acc

/-- `k^n` by repeated squaring over the bits of `n`, low bit first. -/
def gfPowAux : Nat → W64 → Nat → W64 → W64
  | 0, _, _, r => r
  | f + 1, k, n, r => if n = 0 then r else gfPowAux f (gfMul k k) (n / 2) (if n % 2 = 1 then gfMul r k else r)

/-- `k^n` in GF(2^64). -/
def gfPow (k : W64) (n : Nat) : W64 := gfPowAux 64 k n 1

/-- One half of a watermark (R477): `els` are (index, element) pairs. -/
def wmHalf (k : W64) (els : List (Nat × W64)) : W64 :=
  els.foldl (fun h e => h ^^^ gfMul e.2 (gfPow k (e.1 + 1))) 0

/-- The watermark H2 || H1 (R477). -/
def watermark (k1 k2 : W64) (els : List (Nat × W64)) : BitVec 128 := wmHalf k2 els ++ wmHalf k1 els

/-- Elements of a byte string that starts at element index `j0`. -/
def wmElems (j0 : Nat) (b : List Byte) : List (Nat × W64) :=
  (List.range (b.length / 8)).map fun i => (j0 + i, BitVec.ofNat 64 (unle ((b.drop (8 * i)).take 8)))

/-- Job keys (R479): k1 and k2 of a job and an epoch. -/
def jobKeys (job epoch : Nat) : W64 × W64 :=
  let h := sha3 ([0x45#8, 0x42#8, 0x58#8, 0x57#8, 0x4D#8] ++ le 8 job ++ le 4 epoch)
  let fix (k : W64) : W64 := if k = 0 ∨ k = 1 then 2 else k
  (fix (BitVec.ofNat 64 (unle (h.take 8))), fix (BitVec.ofNat 64 (unle ((h.drop 8).take 8))))

/-- Multiplication by 2 in GF(2^8) with x^8 + x^4 + x^3 + x^2 + 1 (R592). -/
def rsX (a : Byte) : Byte := if a.msb then (a <<< 1) ^^^ 0x1D#8 else a <<< 1

/-- Multiplication in GF(2^8) (R592). -/
def rsMul (a b : Byte) : Byte :=
  (List.range 8).foldr (fun i acc => (if b.getLsbD i then a else 0) ^^^ rsX acc) 0

/-- `2^n` in GF(2^8). -/
def rsExp (n : Nat) : Byte := Nat.rec 1 (fun _ x => rsX x) (n % 255)

/-- The inverse of a non-zero element: `a^254`. -/
def rsInv (a : Byte) : Byte := Nat.rec 1 (fun _ x => rsMul x a) 254

/-- Bytewise xor of two byte strings. -/
def xorBytes (a b : List Byte) : List Byte := List.zipWith (· ^^^ ·) a b

end Sys2Proof.Machine
end

