-- ==== Sys2Proof/Machine/Ops.lean ====
section
/-!
DEFINITION. The named operations over the state: sparse memory, tables, units and handles, settings, interrupts, the error log and
background operations.
-/
namespace Sys2Proof.Machine

/-! ### Sparse memory -/

/-- The byte at an address; an unlisted byte reads 0x00. -/
def Mem.get : Mem → Nat → Byte
  | [], _ => 0
  | (k, v) :: r, a => if a < k then 0 else if a = k then v else Mem.get r a

/-- Write one byte, keeping the canonical form: a zero byte removes the entry. -/
def Mem.put : Mem → Nat → Byte → Mem
  | [], a, b => if b = 0 then [] else [(a, b)]
  | (k, v) :: r, a, b =>
    if a < k then (if b = 0 then (k, v) :: r else (a, b) :: (k, v) :: r)
    else if a = k then (if b = 0 then r else (a, b) :: r)
    else (k, v) :: Mem.put r a b

/-- `n` bytes from `a`. -/
def Mem.read (m : Mem) (a n : Nat) : List Byte := (List.range n).map fun i => m.get (a + i)

/-- Write bytes from `a` upward. -/
def Mem.write : Mem → Nat → List Byte → Mem
  | m, _, [] => m
  | m, a, b :: bs => Mem.write (m.put a b) (a + 1) bs

/-- Every key of the memory is at least `lo`, keys rise strictly, and no listed byte is zero. -/
def Mem.wfFrom : Nat → Mem → Bool
  | _, [] => true
  | lo, (k, v) :: r => decide (lo ≤ k) && decide (v ≠ 0) && Mem.wfFrom (k + 1) r

/-- The canonical form of a memory. -/
def Mem.wf (m : Mem) : Bool := m.wfFrom 0

/-! ### Sparse tables -/

/-- The entry at a key. -/
def KMap.get? {α : Type} : KMap α → Nat → Option α
  | [], _ => none
  | (k, v) :: r, a => if a = k then some v else KMap.get? r a

/-- The entry at a key, or a default. -/
def KMap.getD {α : Type} (m : KMap α) (a : Nat) (d : α) : α := (m.get? a).getD d

/-- Set the entry at a key. -/
def KMap.set {α : Type} : KMap α → Nat → α → KMap α
  | [], a, b => [(a, b)]
  | (k, v) :: r, a, b =>
    if a < k then (a, b) :: (k, v) :: r else if a = k then (a, b) :: r else (k, v) :: KMap.set r a b

/-- Remove the entry at a key. -/
def KMap.erase {α : Type} (m : KMap α) (a : Nat) : KMap α := m.filter fun e => e.1 ≠ a

/-- Add to a 48-bit counter of a table (R108, R381, R467: they wrap modulo 2^48). -/
def KMap.bump (m : KMap Nat) (id n : Nat) : KMap Nat := m.set id ((m.getD id 0 + n) % 2 ^ 48)

/-- `base, base + 1, …` -/
def rangeFrom (base n : Nat) : List Nat := (List.range n).map (base + ·)

/-- ASCII bytes of characters. -/
def chars (cs : List Char) : List Byte := cs.map fun c => BitVec.ofNat 8 c.toNat

/-- Pad with zero bytes, or cut, to `n` bytes. -/
def padTo (n : Nat) (b : List Byte) : List Byte := (b ++ zeros (n - b.length)).take n

/-! ### Bytes that are read, with their reserved bits (R18; log entry 9) -/

/-- A byte as it is read: `part b m` has the reserved bits `m`, whose values are free, and the others as in `b`. -/
inductive RByte where
  | is (b : Byte)
  | part (b m : Byte)
  deriving DecidableEq, Repr

/-- Bytes without reserved bits. -/
def known (b : List Byte) : List RByte := b.map .is
/-- A little-endian field. -/
def fld (n v : Nat) : List RByte := known (le n v)
/-- A little-endian field with the reserved bits `m`. -/
def fldR (n v m : Nat) : List RByte := (le n v).zipWith (fun b r => if r = 0 then .is b else .part b r) (le n m)
/-- Reserved bytes. -/
def rsvd (n : Nat) : List RByte := List.replicate n (.part 0 0xFF)
/-- The byte read, its reserved bits those of `w`. -/
def RByte.value (w : Byte) : RByte → Byte
  | .is b => b
  | .part b m => (b &&& ~~~m) ||| (w &&& m)
/-- The bytes read, each reserved bit taken from the free values. -/
def fill (n0 : Nat) (b : List RByte) : List Byte := b.mapIdx fun i x => x.value (Config.freeByte (n0 + i))

/-! ### Parts of the state -/

/-- Partition `p`. -/
def State.pt (s : State) (p : Nat) : Partition := s.pts.getD p {}
/-- Change partition `p`. -/
def State.modPt (s : State) (p : Nat) (f : Partition → Partition) : State := { s with pts := s.pts.modify p f }
/-- Channel `c`. -/
def State.chan (s : State) (c : Nat) : Chan := s.chans.getD c {}
/-- Change channel `c`. -/
def State.modChan (s : State) (c : Nat) (f : Chan → Chan) : State := { s with chans := s.chans.modify c f }
/-- Sheet `n`. -/
def State.sheet (s : State) (n : Nat) : Sheet := s.sheets.getD n {}
/-- Change sheet `n`. -/
def State.modSheet (s : State) (n : Nat) (f : Sheet → Sheet) : State := { s with sheets := s.sheets.modify n f }
/-- Physical tile `i` (288·sheet + 16·column + row). -/
def State.tile (s : State) (i : Nat) : Tile := s.tiles.getD i {}
/-- Change physical tile `i`. -/
def State.modTile (s : State) (i : Nat) (f : Tile → Tile) : State := { s with tiles := s.tiles.set i (f (s.tile i)) }
/-- Context `c`. -/
def State.ctx (s : State) (c : Nat) : Context := s.ctxs.getD c {}
/-- Change context `c`. -/
def State.modCtx (s : State) (c : Nat) (f : Context → Context) : State := { s with ctxs := s.ctxs.modify c f }
/-- Queue `k` = 4·e + q of context `c`. -/
def State.queue (s : State) (c k : Nat) : Queue := (s.ctx c).queues.getD k {}
/-- Change queue `k` of context `c`. -/
def State.modQueue (s : State) (c k : Nat) (f : Queue → Queue) : State :=
  s.modCtx c fun x => { x with queues := x.queues.modify k f }
/-- Fabric port `p`. -/
def State.port (s : State) (p : Nat) : FPort := s.ports.getD p {}
/-- Change fabric port `p`. -/
def State.modPort (s : State) (p : Nat) (f : FPort → FPort) : State := { s with ports := s.ports.modify p f }
/-- The job with a JOB_ID. -/
def State.job? (s : State) (id : Nat) : Option Job := s.jobs.find? (·.id = id)
/-- Change the job with a JOB_ID. -/
def State.modJob (s : State) (id : Nat) (f : Job → Job) : State :=
  { s with jobs := s.jobs.map fun j => if j.id = id then f j else j }
/-- The job that context `c` takes part in. -/
def State.jobOfCtx (s : State) (c : Nat) : Option Job :=
  s.jobs.find? fun j => decide (j.ctx = c) && decide (j.st ≠ .excluded) && decide (j.st ≠ .none)
/-- Send or drive something. -/
def State.emit (s : State) (o : Output) : State := { s with outbox := s.outbox ++ [o] }
/-- CYCLE as a number. -/
def State.cyc (s : State) : Nat := s.clk.cycle.toNat
/-- Add to a counter of a context. -/
def State.ctxCount (s : State) (c id n : Nat) : State := s.modCtx c fun x => { x with counters := x.counters.bump id n }
/-- Add to a counter of the module. -/
def State.modCount (s : State) (id n : Nat) : State := { s with modCtr := s.modCtr.bump id n }

/-! ### The session table and its cache (R382–R391) -/

/-- The current copy of a session's entry: the cached one, else the table's (R390). -/
def State.session (s : State) (tag : Nat) : Session :=
  match s.cache.find? fun w => decide (w.tag = tag) with
  | some w => w.entry
  | none => s.sessions.getD tag {}

/-- A cached entry changes (R390). -/
def State.putSession (s : State) (tag : Nat) (x : Session) : State :=
  { s with cache := s.cache.map fun w => if w.tag = tag then { w with entry := x, changed := true } else w }

/-- Changed entries are written to the table (R390, R391). -/
def writeBack (l : List CacheWay) (m : KMap Session) : KMap Session := l.foldl (fun a w => if w.changed then a.set w.tag w.entry else a) m

/-- Every changed entry is written back: PT0's reset has ended (R391). -/
def State.flushSessions (s : State) : State :=
  { s with sessions := writeBack s.cache s.sessions, cache := s.cache.map fun w => { w with changed := false } }

/-- Return sessions to FREE (R381, R389). -/
def State.closeSessions (s : State) (sel : Session → Bool) : State :=
  let hit (x : Session) : Bool := x.isOpen && sel x
  let held (tag : Nat) : Bool := s.cache.any fun w => decide (w.tag = tag)
  let n := (s.cache.filter fun w => hit w.entry).length + (s.sessions.filter fun (e : Nat × Session) => hit e.2 && !held e.1).length
  ({ s with
    sessions := s.sessions.map fun (e : Nat × Session) => if hit e.2 && !held e.1 then (e.1, { e.2 with isOpen := false }) else e
    cache := s.cache.map fun w => if hit w.entry then { w with entry := { w.entry with isOpen := false }, changed := true } else w }
   : State).modCount 0x0913 n

/-- A copy arrives at CT0: those of one cycle stand in ascending order of sending context, firmware (64) last (R371). -/
def State.copyArrives (s : State) (m : Copy) : State :=
  let now := { m with at' := s.clk.life }
  let after (x : Copy) : Bool := decide (x.at' = now.at' ∧ m.src < x.src)
  { s with copies := (s.copies.takeWhile fun x => !after x) ++ now :: s.copies.dropWhile fun x => !after x }
/-- Add to a counter of a sheet. -/
def State.sheetCount (s : State) (sh id n : Nat) : State := s.modSheet sh fun x => { x with counters := x.counters.bump id n }
/-- Add to a port counter (R571). -/
def State.portCount (s : State) (p k n : Nat) : State :=
  s.modPort p fun x => { x with ctr := x.ctr.modify k fun v => (v + n) % 2 ^ 48 }

/-- 1.8·10^9 cycles a second. -/
def cycPerSec : Nat := 1800000000

/-! ### Geometry (R59, R60, R229) -/

/-- The partition of a sheet: 2·sr + (sc div 3) (R59). -/
def ptOfSheet (sh : Nat) : Nat := 2 * (sh / 6) + sh % 6 / 3
/-- The three sheets of a partition, ascending (R60). -/
def sheetsOfPt (p : Nat) : List Nat := (List.range 24).filter fun sh => ptOfSheet sh = p
/-- Tile type by row: 0 P, 1 M, 2 F, 3 S (R55, R299). -/
def tileType (row : Nat) : Nat := [0, 1, 1, 3, 1, 1, 2, 1, 1, 3, 1, 1, 2, 1, 1, 3].getD row 0
/-- Index of a physical tile. -/
def tileIx (sh pc row : Nat) : Nat := 288 * sh + 16 * pc + row
/-- First channels of local indices 0–7, 8–15 and 16–23 of each partition (R229). -/
def chanBlocks : List (List Nat) :=
  [[0, 8, 16], [32, 40, 48], [24, 64, 72], [56, 96, 104], [80, 88, 128], [112, 120, 160], [136, 144, 152], [168, 176, 184]]
/-- The channels of a partition in local order (R229). -/
def chansOfPt (p : Nat) : List Nat := (chanBlocks.getD p []).flatMap fun b => rangeFrom b 8
/-- The partition of a channel (R229). -/
def ptOfChan (c : Nat) : Nat := ((List.range 8).find? fun p => (chansOfPt p).contains c).getD 0
/-- Mesh attach is possible on a channel (R229). -/
def meshAllowed (c : Nat) : Bool :=
  let p := ptOfChan c
  let i := (chansOfPt p).idxOf c
  if p = 2 ∨ p = 3 then decide (8 ≤ i) else if p = 4 ∨ p = 5 then decide (i < 16) else true
/-- ECC groups of a channel (R228). -/
def State.groupsPerChan (s : State) : Nat := if s.ident.is1440 then 2 ^ 23 else 2 ^ 24
/-- Groups of a channel below its SYS area (R235). -/
def State.allocGroups (s : State) : Nat := s.groupsPerChan - 262144
/-- Usable GiB (R3). -/
def State.usableGib (s : State) : Nat := if s.ident.is1440 then 1440 else 2880
/-- Deckle die of a port or channel: index n of DKn (R26). -/
def deckleOfPort (p : Nat) : Nat := p / 3
/-- Deckle die of a channel (R26). -/
def deckleOfChan (c : Nat) : Nat := c / 32
/-- The deckle ring (R25). -/
def ring : List Nat := [0, 1, 3, 5, 4, 2]
/-- The nearest die along the ring, starting at `d`, that is not in `off` (R569, R598). -/
def nearestOnRing (off : List Nat) (d : Nat) : Option Nat :=
  let i := ring.idxOf d
  ((List.range 6).map fun k => ring.getD ((i + k) % 6) 0).find? fun x => !off.contains x

/-- The partition sets of a grid class code (R175). -/
def gridSets (cls : Nat) : List (List Nat) :=
  if cls = 1 then (List.range 8).map fun p => [p]
  else if cls = 2 then [0, 2, 4, 6].map fun p => [p, p + 1]
  else if cls = 3 then (List.range 6).map fun p => [p, p + 2]
  else if cls = 4 then [0, 2, 4].map fun p => [p, p + 1, p + 2, p + 3]
  else if cls = 8 then [List.range 8] else []
/-- A set that some grid class accepts (R318). -/
def someGridSet (pts : List Nat) : Bool := [1, 2, 3, 4, 8].any fun c => (gridSets c).contains pts
/-- Members of a bitmap of `n` bits, ascending. -/
def bits (n v : Nat) : List Nat := (List.range n).filter fun i => v.testBit i
/-- A bitmap from its members. -/
def unbits (l : List Nat) : Nat := l.foldl (fun a i => a ||| 2 ^ i) 0
/-- Columns and rows of a grid class (R175). -/
def gridShape (cls : Nat) : Nat × Nat :=
  if cls = 1 then (48, 16) else if cls = 2 then (96, 16) else if cls = 3 then (48, 32) else if cls = 4 then (96, 32)
  else if cls = 8 then (96, 64) else (0, 0)
/-- Origin of a placement (R175): row and column from the lowest partition. -/
def gridOrigin (cls p : Nat) : Nat × Nat :=
  (16 * (p / 2), if cls = 1 ∨ cls = 3 then 48 * (p % 2) else 0)

/-- The context bound to partition `p` (R319). -/
def State.holder (s : State) (p : Nat) : Option Nat :=
  (List.range 64).find? fun c => (s.ctx c).held.contains p
/-- The context bound to the partition of a sheet. -/
def State.holderOfSheet (s : State) (sh : Nat) : Option Nat := s.holder (ptOfSheet sh)

/-- Physical tile of local tile (row, col) of a placement with origin `o` (R176, R59); none where the map has no column. -/
def State.physOf (s : State) (o : Nat × Nat) (row col : Nat) : Option Nat :=
  let r := row + o.1
  let c := col + o.2
  let sh := 6 * (r / 16) + c / 16
  ((s.sheet sh).map.getD (c % 16) none).map fun pc => tileIx sh pc (r % 16)

/-- Origin of the program placed in context `c`. -/
def State.originOf (s : State) (c : Nat) : Nat × Nat :=
  let x := s.ctx c
  match x.prog with
  | some p => gridOrigin p.cls (x.held.headD 0)
  | none => (0, 0)

/-- The channels a partition owns that are not broke, in local order (R230). -/
def State.goodChans (s : State) (p : Nat) : List Nat := (chansOfPt p).filter fun c => !(s.chan c).broke

/-! ### Settings (R638, R665, R691) -/

/-- Default bytes of a setting; none for an unknown ID. -/
def settingDefault (id : Nat) : Option (List Byte) :=
  match id with
  | 0x01 => some (le 1 0)
  | 0x02 => some (le 1 0xFF)
  | 0x03 => some (le 2 0)
  | 0x04 => some (le 1 7)
  | 0x05 => some (le 1 1)
  | 0x06 => some (le 2 30)
  | 0x07 => some (le 1 8)
  | 0x08 => some (le 2 200)
  | 0x09 => some (le 2 200)
  | 0x0A => some (le 2 0xFFFF)
  | 0x0B => some (le 1 48)
  | 0x0C => some (le 2 0)
  | 0x0D => some (le 2 0x88B5)
  | 0x0E => some (le 2 60)
  | 0x0F => some (le 2 1000)
  | 0x10 => some (zeros 192)
  | 0x11 => some []
  | 0x12 => some (le 1 0)
  | 0x13 => some (le 4 0)
  | 0x14 => some (le 1 0)
  | 0x15 => some (le 1 0)
  | 0x16 => some (le 1 0)
  | 0x20 => some (le 2 1900)
  | 0x21 => some (le 4 100)
  | 0x22 => some (le 1 1)
  | 0x23 => some (le 2 0)
  | 0x30 => some (le 1 1)
  | 0x31 => some (le 4 7168)
  | _ => none

/-- The value of a setting: its record, or its default (R635). -/
def State.setting (s : State) (id : Nat) : List Byte :=
  (s.mgmt.settings.get? id).getD ((settingDefault id).getD [])
/-- The value of a setting as a number. -/
def State.settingNat (s : State) (id : Nat) : Nat := unle (s.setting id)
/-- This module's fabric address (R536). -/
def State.fabAddr (s : State) : Nat := s.settingNat 0x0A
/-- The route entry of a fabric address: port and flags (R542, R639). -/
def routeAux : Nat → List Byte → Nat → Nat
  | 0, _, _ => 0xFF
  | n + 1, b, a =>
    let f := unle (b.take 2)
    let c := unle ((b.drop 2).take 2)
    if f ≤ a ∧ a < f + c then unle ((b.drop 4).take 2) else routeAux n (b.drop 6) a
/-- The 16-bit route entry of an address: [7:0] PORT, [15:8] FLAGS (R542). -/
def State.route (s : State) (a : Nat) : Nat :=
  let b := s.setting 0x11
  routeAux (b.length / 6) b a

/-! ### Interrupts (R304, R305) -/

/-- Send an MSI-X vector: the pending bit is set instead where the vector is masked in the table (log entry 17). With CT0 lost or its link
down nothing reaches the host (R27). -/
def State.msix (s : State) (v : Nat) : State :=
  if s.dies.ct0Lost || !s.host.linkUp then s
  else if (s.host.msixTable.get (16 * v + 12)).getLsbD 0 then
    { s with host := { s.host with msixPending := s.host.msixPending ||| BitVec.ofNat 128 (2 ^ v) } }
  else s.emit (.msix v)

/-- The vector that carries a cause bit (R305). -/
def causeVector (i : Nat) : Nat := if i = 3 then 1 else 0

/-- A cause bit's event occurs: the bit sets, and its message goes when it rises unmasked (R304). -/
def State.raise (s : State) (i : Nat) : State :=
  let s' := { s with host := { s.host with cause := s.host.cause ||| BitVec.ofNat 6 (2 ^ i) } }
  if s.host.cause.getLsbD i then s'
  else if s.host.mask.getLsbD i then s' else s'.msix (causeVector i)

/-- The fault summary changed: FS_GEN rises by 2 and FAULT_SUMMARY is raised (R304, R306). -/
def State.fsUpdate (s : State) : State :=
  State.raise { s with host := { s.host with fsGen := s.host.fsGen + 2 } } 3

/-! ### The error log (R498–R503) -/

/-- The repair-record location of a physical tile (R459). -/
def locTile (i : Nat) : Nat := i / 288 * 2 ^ 24 + i % 288 / 16 * 2 ^ 16 + i % 16 * 2 ^ 8

/-- What an error record says beside its class and body. -/
structure ErrAt where
  /-- HANDLE. -/
  handle : Nat := 0
  /-- LHANDLE. -/
  lhandle : Nat := 0
  /-- LOC. -/
  loc : Nat := 0
  /-- Context bound. -/
  ctx : Option Nat := none
  /-- Partition. -/
  pt : Option Nat := none
  /-- SECONDARY (R503). -/
  secondary : Bool := false

/-- The hold is a reload prologue. -/
def Hold.inPrologue : Hold → Bool
  | .prologue _ => true
  | _ => false

/-- Log one error record (R498). Its group decides what it does to the context's step (R500, R503, R504). -/
def State.logErr (s : State) (cls : Nat) (a : ErrAt) (body : List Byte) : State :=
  let x := s.ctx (a.ctx.getD 64)
  let isStep := decide (cls / 256 = 1) && a.ctx.isSome && x.run.isSome
  let first := isStep && x.faults.isEmpty
  let flags := (if a.secondary then 1 else 0) + (if first then 2 else 0) + (if a.ctx.isNone then 4 else 0)
    + (if 192 < body.length then 8 else 0)
  let r : ErrRec := {
    seq := s.logs.seq + 1, cls := cls, flags := flags, cycle := s.cyc, handle := a.handle, lhandle := a.lhandle, loc := a.loc
    ctx := a.ctx.getD 0xFF, pt := a.pt.getD 0xFF
    step := if a.ctx.isSome then x.step + 1 else 0, sched := if a.ctx.isSome then x.sched else 0
    pid := (x.prog.map (·.pid)).getD (zeros 16), body := body.take 192 }
  let s1 := if isStep then
      s.modCtx (a.ctx.getD 64) fun y => { y with faults := y.faults ++ [cls] }
    else if decide (cls / 256 = 1) && a.ctx.isSome && x.hold.inPrologue then s.modCtx (a.ctx.getD 64) fun y => { y with proAgain := true }
    else s
  if s.start.stage ≤ 3 then { s1 with logs := { s1.logs with early := s1.logs.early ++ [r] } }
  else
    let kept := if 4096 ≤ s1.logs.errs.length then s1.logs.errs.drop 1 else s1.logs.errs
    State.fsUpdate { s1 with logs := { s1.logs with errs := kept ++ [r], seq := s1.logs.seq + 1 } }

/-- The 64 B header of an error record (R499). -/
def errHeader (r : ErrRec) : List Byte :=
  le 4 r.seq.toNat ++ le 2 r.cls ++ le 1 r.flags ++ le 1 r.body.length ++ le 8 r.cycle ++ le 4 r.handle ++ le 4 r.lhandle
    ++ le 4 r.loc ++ le 1 r.ctx ++ le 1 r.pt ++ le 2 0 ++ le 8 r.step ++ le 8 r.sched ++ padTo 16 r.pid
/-- The 256 B of an error record (R499). -/
def errBytes (r : ErrRec) : List Byte := padTo 256 (errHeader r ++ r.body)

/-! ### Units and handles (R35–R43; log entry 2) -/

/-- The units of R35 and R36. -/
inductive UnitRef where
  | module
  | pt (p : Nat)
  | sheet (s : Nat)
  | lcol (s c : Nat)
  | ltile (s c t : Nat)
  | pcol (s pc : Nat)
  | ptile (s pc t : Nat)
  | group (h : Nat)
  | job (serial : Nat)
  | ctx (c : Nat)
  deriving DecidableEq, Repr

/-- Handle word of a kind and an index in the present epoch. -/
def State.hword (s : State) (kind ix : Nat) : Nat := kind * 2 ^ 28 + s.start.epoch % 256 * 2 ^ 20 + ix % 2 ^ 20

/-- The first serial from `n` on that is not in use; serials run from 1 to 2^20 − 1 and round again. -/
def pickSerial (used : List Nat) : Nat → Nat → Nat
  | 0, n => n
  | f + 1, n => if used.contains n then pickSerial used f (n % (2 ^ 20 - 1) + 1) else n

/-- The serial of the next group, job group or context handle: one that no valid handle has (R39, R316; log entry 2). -/
def State.newSerial (s : State) : Nat :=
  let used := s.groups.map (·.handle % 2 ^ 20) ++ s.jobs.map (·.serial) ++ (s.ctxs.filter fun x => decide (x.st ≠ .free)).map (·.serial)
  pickSerial used (used.length + 1) ((s.start.serial - 1) % (2 ^ 20 - 1) + 1)
/-- The serial has been given out. -/
def State.tookSerial (s : State) : State := { s with start := { s.start with serial := s.newSerial % (2 ^ 20 - 1) + 1 } }

/-- The handle of a unit (R39). -/
def State.handleOf (s : State) : UnitRef → Nat
  | .module => s.hword 1 0
  | .pt p => s.hword 2 p
  | .sheet n => s.hword 3 n
  | .lcol n c => s.hword 4 (n * 16 + c)
  | .ltile n c t => s.hword 5 ((n * 16 + c) * 16 + t)
  | .pcol n pc => s.hword 6 (n * 18 + pc)
  | .ptile n pc t => s.hword 7 ((n * 18 + pc) * 16 + t)
  | .group h => h
  | .job k => s.hword 9 k
  | .ctx c => s.hword 10 (s.ctx c).serial

/-- The unit a valid handle names (R40–R43). -/
def State.unitOf (s : State) (h : Nat) : Option UnitRef :=
  if !s.start.handles ∨ h / 2 ^ 20 % 256 ≠ s.start.epoch % 256 then none
  else
    let i := h % 2 ^ 20
    match h / 2 ^ 28 with
    | 1 => if i = 0 then some .module else none
    | 2 => if i < 8 then some (.pt i) else none
    | 3 => if i < 24 then some (.sheet i) else none
    | 4 => if i < 384 then some (.lcol (i / 16) (i % 16)) else none
    | 5 => if i < 6144 then some (.ltile (i / 256) (i / 16 % 16) (i % 16)) else none
    | 6 => if i < 432 then some (.pcol (i / 18) (i % 18)) else none
    | 7 => if i < 6912 then some (.ptile (i / 288) (i / 16 % 18) (i % 16)) else none
    | 8 => if s.groups.any (·.handle = h) then some (.group h) else none
    | 9 => if s.jobs.any (fun j => decide (i ≠ 0) && decide (j.serial = i) && decide (j.st ≠ .none)) then some (.job i) else none
    | 10 => ((List.range 64).find? fun c => decide ((s.ctx c).st ≠ .free) && decide ((s.ctx c).serial = i)).map .ctx
    | _ => none

/-- Members of a user group. -/
def State.membersOf (s : State) (h : Nat) : List Nat := ((s.groups.find? (·.handle = h)).map (·.members)).getD []

/-- The partitions on this module of the job group with a serial: those its context holds, ascending (R38, R724). -/
def State.jobPts (s : State) (k : Nat) : List Nat :=
  match s.jobs.find? (·.serial = k) with
  | some j => (List.range 8).filter fun p => (s.ctx j.ctx).held.contains p
  | none => []

/-- Distinct handles of units that are not groups, found by expanding groups depth first in member order (R50, R376); the members of a
job group here are its partitions (R38). -/
def State.expandAux (s : State) : Nat → List Nat → List Nat → List Nat
  | 0, _, acc => acc
  | _, [], acc => acc
  | f + 1, h :: r, acc =>
    match s.unitOf h with
    | some (.group g) => s.expandAux f (s.membersOf g ++ r) acc
    | some (.job k) => s.expandAux f ((s.jobPts k).map (fun p => s.handleOf (.pt p)) ++ r) acc
    | some _ => s.expandAux f r (if acc.contains h then acc else acc ++ [h])
    | none => s.expandAux f r acc
/-- The units of a group or of a unit itself (R50). Groups nest to a depth of 4 of 64 members, so the fuel covers every visit. -/
def State.expand (s : State) (h : Nat) : List Nat := s.expandAux 20000000 [h] []

/-- Depth of nesting counted from group `h` (R36), to at most `f`. -/
def State.depthOf (s : State) : Nat → Nat → Nat
  | 0, _ => 0
  | f + 1, h =>
    match s.unitOf h with
    | some (.group g) => 1 + ((s.membersOf g).map fun m => s.depthOf f m).foldl max 0
    | _ => 0
/-- Group `h` holds `x` directly or through groups (R37), to depth `f`. -/
def State.reaches (s : State) : Nat → Nat → Nat → Bool
  | 0, h, x => decide (h = x)
  | f + 1, h, x => decide (h = x) || (s.membersOf h).any fun m => s.reaches f m x

/-- A handle becomes invalid and leaves every group that holds it (R726). -/
def State.dropHandle (s : State) (h : Nat) : State :=
  { s with groups := s.groups.map fun g => { g with members := g.members.filter (· ≠ h) }, qmaxes := s.qmaxes.filter (·.handle ≠ h) }

/-! ### Background operations (R291) -/

/-- Operations running. -/
def State.running (s : State) : List OpRec := s.ops.filter fun o => !o.finished
/-- The schedule of a context is at work: it is RUNNING, or SUSPENDING from RUNNING until the commit at which the suspension takes effect (R320). -/
def Context.active (x : Context) : Bool := decide (x.st = .running) || (decide (x.st = .suspending) && x.suspendDue)

/-- The next OP_ID: up by 1 modulo 2^32, skipping 0 (R291). -/
def State.nextOp (s : State) : Nat := if (s.lastOp + 1) % 2 ^ 32 = 0 then 1 else (s.lastOp + 1) % 2 ^ 32

/-- The operation with an OP_ID. -/
def State.op? (s : State) (id : Nat) : Option OpRec := s.ops.find? (·.id = id)
/-- Change an operation. -/
def State.modOp (s : State) (id : Nat) (f : OpRec → OpRec) : State :=
  { s with ops := s.ops.map fun o => if o.id = id then f o else o }

/-- Drop the oldest finished records beyond the 256 kept (R291). -/
def pruneOps (l : List OpRec) : List OpRec :=
  let fin := (l.filter (·.finished)).length
  if fin ≤ 256 then l
  else (l.foldl (fun (a : Nat × List OpRec) o => if o.finished ∧ 0 < a.1 then (a.1 - 1, a.2) else (a.1, a.2 ++ [o]))
    (fin - 256, [])).2

/-- Finish a background operation with a status and detail: OP_DONE is raised (R291, R304). -/
def State.finishOp (s : State) (id st : Nat) (detail : List Byte) : State :=
  match s.op? id with
  | none => s
  | some o => if o.finished then s else
    let o' := { o with finished := true, ready := none, status := st, progress := 1000, stop := s.cyc, detail := padTo 16 detail }
    State.raise { s with ops := pruneOps ((s.ops.filter (·.id ≠ id)) ++ [o']) } 2

/-- The work of an operation is done with this outcome; BACKGROUND_OP_FINISHED reports it. -/
def State.readyOp (s : State) (id st : Nat) (detail : List Byte) : State :=
  s.modOp id fun o => { o with ready := some (st, padTo 16 detail) }

/-- Finish an operation if there is one. -/
def State.finishOp? (s : State) (id : Option Nat) (st : Nat) (detail : List Byte) : State :=
  match id with
  | some i => s.finishOp i st detail
  | none => s

/-! ### LPDDR5X and the pool -/

/-- The MPA of a byte of a channel (R234). -/
def mpa (ch off : Nat) : Nat := ch * 2 ^ 34 + off

/-- Bytes of the granule of a code (R240). -/
def granuleBytes (code : Nat) : Nat := 960 * 16 ^ code

/-- Channel and usable byte offset of a context address (R239). -/
def locate (a : Alloc) (x : Nat) : Nat × Nat :=
  let g := granuleBytes a.granule
  let n := a.nch * a.pts.length
  let u := x / g
  (a.chans.getD (u % n) 0, 960 * a.baseG + u / n * g + x % g)
/-- The MPA of a context address. -/
def ctxMpa (a : Alloc) (x : Nat) : Nat := let l := locate a x; mpa l.1 l.2
/-- Bytes of an allocation. -/
def allocLen (a : Alloc) : Nat := 960 * a.lenG * a.nch * a.pts.length

/-- Groups of each pool channel (R237): G = ceil(GIB·2^30 ÷ (960·n)). -/
def poolG (gib n : Nat) : Nat := if n = 0 then 0 else (gib * 2 ^ 30 + 960 * n - 1) / (960 * n)
/-- Bytes of the host pool. -/
def State.poolLen (s : State) : Nat := s.ident.poolGib * 2 ^ 30
/-- The channel a pool byte lies on: consecutive 256 B go to consecutive channels (placement is not in the contract, R282; log entry 11). -/
def State.poolChan (s : State) (a : Nat) : Nat := s.poolChans.getD (a / 256 % max 1 s.poolChans.length) 0

/-- The committed copy of a context address inside a DOUBLE region (R263); other addresses stand. -/
def resolveCommitted (x : Context) (a : Nat) : Nat :=
  match x.prog with
  | none => a
  | some p =>
    match (List.range p.regions.length).find? fun i =>
        let r := p.regions.getD i ⟨0, 0, 0, false⟩
        r.double && (decide (r.baseA ≤ a ∧ a < r.baseA + r.len) || decide (r.baseB ≤ a ∧ a < r.baseB + r.len)) with
    | none => a
    | some i =>
      let r := p.regions.getD i ⟨0, 0, 0, false⟩
      let o := if r.baseA ≤ a ∧ a < r.baseA + r.len then a - r.baseA else a - r.baseB
      (if x.flips.getD i false then r.baseB else r.baseA) + o

/-- An address range touches a committed region of the placed program (R263, R343). -/
def touchesRegion (x : Context) (a n : Nat) : Bool :=
  match x.prog with
  | none => false
  | some p => p.regions.any fun r =>
    decide (a < r.baseA + r.len ∧ r.baseA < a + n) || (r.double && decide (a < r.baseB + r.len ∧ r.baseB < a + n))

/-! ### Inline ECC (R231–R233) -/

/-- ADDR_TAG of a group (R232). -/
def addrTag (ch g : Nat) : BitVec 32 := BitVec.ofNat 32 (crc32c (le 1 ch ++ le 4 g))

/-- The check burst of a group of data words: four check symbols for each word, then ADDR_TAG (R232). -/
def checkBurst (ch g : Nat) (words : List (BitVec 512)) : BitVec 512 :=
  BitVec.ofNat 512 (unle (words.flatMap (fun w => le 4 (Config.rsSymbols w).toNat) ++ le 4 (addrTag ch g).toNat))

/-- Usable word `w` of a channel, as the controller wrote it (R231). -/
def State.usableWord (s : State) (ch w : Nat) : BitVec 512 := BitVec.ofNat 512 (unle (s.dram.read (mpa ch (64 * w)) 64))

/-- Bits of a burst of a group that do not hold what the controller wrote. -/
def Chan.flaw (x : Chan) (g b : Nat) : BitVec 512 := ((x.flaws.find? fun f => decide (f.1 = g ∧ f.2.1 = b)).map (·.2.2)).getD 0

/-- What the array holds in burst `b` of group `g`: bursts 0–14 data, burst 15 the check burst (R231, R232). -/
def State.burst (s : State) (ch g b : Nat) : BitVec 512 :=
  (if b = 15 then checkBurst ch g ((List.range 15).map fun i => s.usableWord ch (15 * g + i)) else s.usableWord ch (15 * g + b)) ^^^ (s.chan ch).flaw g b

/-- Bytes in error of data word `i` of a group and of its four check symbols, by the bits in error of the two bursts (R232). -/
def wrongBytes (d c : BitVec 512) (i : Nat) : Nat :=
  ((List.range 64).filter fun j => decide (d.extractLsb' (8 * j) 8 ≠ 0)).length
    + ((List.range 4).filter fun j => decide (c.extractLsb' (32 * i + 8 * j) 8 ≠ 0)).length

/-- The outcome of the check of data word `i` of a group, `d` and `c` in error in its burst and in the check burst (R232, R233): the tag read is compared
with that of the group addressed; the code corrects two bytes, and more are taken as uncorrectable (DEDUCED, log entry 52). -/
def eccOutcome (ch g i : Nat) (d c : BitVec 512) : Ecc :=
  if d = 0 ∧ c = 0 then .clean
  else if addrTag ch g ^^^ c.extractLsb' 480 32 ≠ addrTag ch g then .tagError
  else if wrongBytes d c i = 0 then .clean
  else if wrongBytes d c i ≤ 2 then .corrected
  else .uncorrectable

/-- A group has been read as uncorrectable and not been rewritten whole since (R233). -/
def Chan.lost (x : Chan) (g : Nat) : Bool := x.bad.any (·.1 = g)

/-- The outcome of a read of the word at a usable byte offset (R233). -/
def State.wordEcc (s : State) (ch off : Nat) : Ecc :=
  let g := off / 960
  let o := eccOutcome ch g (off % 960 / 64) ((s.chan ch).flaw g (off % 960 / 64)) ((s.chan ch).flaw g 15)
  if o = .tagError then o else if (s.chan ch).lost g then .uncorrectable else o

/-- Bits of arrays change. -/
def State.decay (s : State) (l : List DramFlip) : State :=
  l.foldl (fun a f => a.modChan f.ch fun x =>
    let m := x.flaw f.group.toNat f.burst ^^^ f.mask
    let rest := x.flaws.filter fun y => !decide (y.1 = f.group.toNat ∧ y.2.1 = f.burst.val)
    { x with flaws := if m = 0 then rest else rest ++ [(f.group.toNat, f.burst.val, m)] }) s

/-- Bits of the check burst that belong to the symbols of the data words of a mask. -/
def symbolBits (words : Nat) : BitVec 512 :=
  BitVec.ofNat 512 ((List.range 15).foldl (fun a i => if words.testBit i then a + 0xFFFFFFFF * 2 ^ (32 * i) else a) 0)

/-- The controller writes usable bytes `off` to `off + n - 1` of a channel: a word written whole holds what was written, with its check symbols; a group
written whole is good again, tag and all (R232, R233). -/
def Chan.rewrite (x : Chan) (off n : Nat) : Chan :=
  if x.flaws.isEmpty && x.bad.isEmpty then x
  else
    let words (g : Nat) : Nat := unbits ((List.range 15).filter fun i => decide (off ≤ 960 * g + 64 * i ∧ 960 * g + 64 * i + 64 ≤ off + n))
    { x with
      flaws := x.flaws.filterMap fun f =>
        let w := words f.1
        if f.2.1 = 15 then
          (let m := if w = 0x7FFF then 0 else f.2.2 &&& ~~~ symbolBits w
          if m = 0 then none else some (f.1, 15, m))
        else if w.testBit f.2.1 then none else some f
      bad := x.bad.filterMap fun b => let w := b.2 ||| words b.1; if w = 0x7FFF then none else some (b.1, w) }

/-- The check burst of a group is written whole, by s15 of a WRITE16 (R248). -/
def Chan.recheck (x : Chan) (g : Nat) : Chan := { x with flaws := x.flaws.filter fun f => !decide (f.1 = g ∧ f.2.1 = 15) }

/-- The pieces of a context range: channel, usable byte offset, length (R239). -/
def ctxPieces (al : Alloc) (a n : Nat) : List (Nat × Nat × Nat) :=
  let g := granuleBytes al.granule
  if n = 0 then []
  else (rangeFrom (a / g) ((a + n - 1) / g - a / g + 1)).map fun u =>
    let lo := max a (u * g)
    let l := locate al lo
    (l.1, l.2, min (a + n) ((u + 1) * g) - lo)

/-! ### Reads and writes at context addresses -/

/-- What a byte of a context's memory reads as, if its contents are undefined (R264, R318). -/
def State.undefByte (s : State) (c a : Nat) : Option Byte :=
  (s.scratch.find? fun u => decide (u.ctx = c ∧ u.lo ≤ a ∧ a < u.hi)).map fun u => Config.scratchByte u.index a

/-- The contents of a context's memory of `n` bytes are undefined from here (R264, R318). -/
def State.undefine (s : State) (c n : Nat) : State :=
  { s with scratch := s.scratch.filter (·.ctx ≠ c) ++ [⟨c, 0, n, s.fresh⟩], fresh := s.fresh + 1 }

/-- A context gives up its memory. -/
def State.forget (s : State) (c : Nat) : State := { s with scratch := s.scratch.filter (·.ctx ≠ c) }

/-- A range of a context's memory has been written: its contents are defined. -/
def State.defined (s : State) (c a n : Nat) : State :=
  if s.scratch.isEmpty then s
  else { s with scratch := s.scratch.flatMap fun u =>
    if u.ctx ≠ c ∨ u.hi ≤ a ∨ a + n ≤ u.lo then [u]
    else (if u.lo < a then [{ u with hi := a }] else []) ++ (if a + n < u.hi then [{ u with lo := a + n }] else []) }

/-- Read bytes at context addresses, each DOUBLE byte from its committed copy (R263, R343). -/
def State.ctxRead (s : State) (c a n : Nat) : List Byte :=
  let x := s.ctx c
  match x.alloc with
  | none => zeros n
  | some al =>
    if s.scratch.isEmpty then (List.range n).map fun i => s.dram.get (ctxMpa al (resolveCommitted x (a + i)))
    else (List.range n).map fun i =>
      let b := resolveCommitted x (a + i)
      (s.undefByte c b).getD (s.dram.get (ctxMpa al b))

/-- Write bytes at context addresses as they stand. -/
def writeCtx (al : Alloc) : Mem → Nat → List Byte → Mem
  | m, _, [] => m
  | m, a, b :: bs => writeCtx al (m.put (ctxMpa al a) b) (a + 1) bs
/-- Write bytes at context addresses as they stand. -/
def State.ctxWrite (s : State) (c a : Nat) (b : List Byte) : State :=
  match (s.ctx c).alloc with
  | none => s
  | some al =>
    let s1 := ({ s with dram := writeCtx al s.dram a b } : State).defined c a b.length
    if s.chans.all fun x => x.flaws.isEmpty && x.bad.isEmpty then s1
    else (ctxPieces al a b.length).foldl (fun t p => t.modChan p.1 fun x => x.rewrite p.2.1 p.2.2) s1

/-! ### Sync counters (R392–R396) -/

/-- A counter has reached a value (R396). -/
def reached (c v : W32) : Bool := decide ((c - v).toNat < 2 ^ 31)

/-- The translation entry of an ID of a context. -/
def State.syncEnt (s : State) (c id : Nat) : Option SyncEnt := (s.ctx c).sync.get? id
/-- The value of the counter of a translation entry. -/
def State.syncVal (s : State) (e : SyncEnt) : W32 := (s.pt e.pt).counters.getD e.index 0
/-- Add to a counter; the owner's SYNC_SIGNALS rises (R395, R425). -/
def State.syncAdd (s : State) (e : SyncEnt) (v : W32) : State :=
  (s.modPt e.pt fun p => { p with counters := p.counters.set e.index (p.counters.getD e.index 0 + v) }).ctxCount e.owner 0x0A01 1
/-- The translation entry's 32 bits (R394). -/
def syncWord (e : Option SyncEnt) : Nat :=
  match e with
  | none => 0
  | some e => e.st * 2 ^ 30 + (if e.owned then 2 ^ 29 else 0) + e.owner * 2 ^ 23 + e.pt * 2 ^ 20 + e.index

/-- Every translation of one physical counter for which `sel` holds becomes ORPHANED, in every context; program adds that wait for its owner are
lost with it (R400, R413). -/
def State.orphan (s : State) (pt index : Nat) (sel : SyncEnt → Bool) : State :=
  { s with ctxs := s.ctxs.map fun x =>
      { x with
        sync := x.sync.map fun e => if e.2.pt = pt ∧ e.2.index = index ∧ sel e.2 then (e.1, { e.2 with st := 2 }) else e
        heldAdds := x.heldAdds.filter fun a => !decide (a.1 = pt ∧ a.2.1 = index) } }

/-- Free a counter and orphan its imports, the owner's own under other IDs among them (R400). -/
def State.freeCounter (s : State) (pt index : Nat) : State :=
  (s.modPt pt fun p => { p with counters := p.counters.erase index }).orphan pt index fun e => !e.owned

end Sys2Proof.Machine
end

