-- ==== Sys2Proof/Machine/Flags.lean ====
section
/-!
DEFINITION. Status values and flags that follow from the state: sheet health (R82), unit status (R47–R49, R727, R728), the fault summary
(R306) and its update.
-/
namespace Sys2Proof.Machine

/-- Broke and fenced columns of a sheet, ascending (R77's `ns`). -/
def Sheet.ns (x : Sheet) : List Nat :=
  (List.range 18).filter fun c => x.broke.contains c || x.fenced.any (·.1 = c)

/-- Columns that hold no logical column and may not: broke or fenced. -/
def Sheet.free? (x : Sheet) (c : Nat) : Bool := !x.ns.contains c

/-- HEALTH of a sheet: 0 GUARDED, 1 UNGUARDED, 2 DEGRADED (R66, R82). -/
def Sheet.health (x : Sheet) : Nat :=
  if x.linkFail then 2
  else match x.ns with
    | [] => 0
    | [_] => 0
    | [a, b] => if b = a + 1 ∧ a ≠ 16 then 2 else 1
    | _ => 2

/-- Status codes of R47. -/
abbrev stReady : Nat := 0
/-- Rank of a status (R47); RETIRED has none. -/
def rank (st : Nat) : Nat := if st = 7 then 0 else st + 1

/-- A mode change of PERF_STATE or REFRESH_CLASS has not yet reached partition `p` (R644). -/
def State.ptInTransition (s : State) (p : Nat) : Bool :=
  s.mgmt.modes.any fun m => decide (m.mode ≠ 2) && m.units.contains p && !m.applied.contains p

/-- So many microseconds of the always-on clock. -/
abbrev usCyc (n : Nat) : Nat := 1800 * n

/-- Levels L and T of a partition: those sent take effect at the first cycle of their frame (R680, R681). -/
def Partition.levels (x : Partition) (life : Nat) : Nat × Nat :=
  match x.lvlPend with
  | some (l, t, at') => if at' ≤ life then (l, t) else (x.lvlL, x.lvlT)
  | none => (x.lvlL, x.lvlT)

/-- A partition reset is under way: its timeline has begun (R517, R518). -/
def Partition.inReset (p : Partition) : Bool :=
  match p.reset with
  | some r => !r.deferred
  | none => false

/-- Own status of a sheet (R47, R49, R82, R30; log entry 18). A sheet of a partition in FAULTED reports its own health: the spec names
no FAULTED state of a sheet (DESIGN CHOICE, log entry 49). -/
def State.sheetStatus (s : State) (n : Nat) : Nat :=
  let x := s.sheet n
  let p := s.pt (ptOfSheet n)
  if p.inReset then 3
  else if p.pwr = .off then 6
  else if x.sheetFenced then 4
  else if x.health = 2 then 2
  else if x.health = 1 ∨ s.dies.ct1Lost then 1 else 0

/-- Status of a partition (R47, R49, R517; log entry 18). With none of the conditions R47 names for a partition it takes the worst health of
its three sheets, and ATTENTION after CT1 is lost (DEDUCED, log entry 49). -/
def State.ptStatus (s : State) (n : Nat) : Nat :=
  let p := s.pt n
  let h := ((sheetsOfPt n).map fun k => (s.sheet k).health).foldl max 0
  if p.inReset then 3
  else if p.pwr = .off then 6
  else if p.faulted then 5
  else if p.fenced then 4
  else if s.ptInTransition n then 3
  else if h = 2 ∨ (chansOfPt n).any (fun c => (s.chan c).broke) then 2
  else if h = 1 ∨ s.dies.ct1Lost then 1 else 0

/-- Status of a physical column: the first that applies (R49). -/
def State.pcolStatus (s : State) (n pc : Nat) : Nat :=
  let x := s.sheet n
  let p := s.pt (ptOfSheet n)
  if x.broke.contains pc then 7
  else if x.fenced.any (·.1 = pc) then 4
  else if x.fencePend.any (·.2.1 = pc) ∨ p.inReset then 3
  else if p.pwr = .off then 6
  else if x.watched.contains pc then 1 else 0

/-- Status of a logical column: that of its physical column, DEGRADED with none (R49). -/
def State.lcolStatus (s : State) (n c : Nat) : Nat :=
  match (s.sheet n).map.getD c none with
  | some pc => s.pcolStatus n pc
  | none => 2

/-- Status a context handle reports (R728). -/
def ctxStatus : CtxState → Nat
  | .loading | .suspending | .resuming => 3
  | .faulted => 5
  | _ => 0

/-- Code of a context state (R314). -/
def ctxCode : CtxState → Nat
  | .free => 0
  | .created => 1
  | .allocated => 2
  | .bound => 3
  | .loading => 4
  | .placed => 5
  | .running => 6
  | .suspending => 7
  | .suspended => 8
  | .resuming => 9
  | .faulted => 10

/-- Module power state code (R672): M1 with no partition in Run. -/
def State.powerCode (s : State) : Nat :=
  match s.start.pwr with
  | .m0 => if s.pts.any (·.pwr = .run) then 0 else 1
  | .m2 => 2
  | .m3 => 3

/-- The highest-ranked status of a list, RETIRED left out (R48); RETIRED when all are, READY when there is none (R726). -/
def combine (l : List Nat) : Nat :=
  let live := l.filter (· ≠ 7)
  if l.isEmpty then 0 else if live.isEmpty then 7 else live.foldl max 0

/-- Status of the module unit (R727). -/
def State.moduleStatus (s : State) : Nat :=
  if s.start.stage = 0xF then 5
  else if s.start.stage ≠ 0xA ∨ s.start.warmDue then 3
  else
    let counted := (List.range 8).filter fun p => !((s.pt p).pwr = .off && (s.pt p).offByCmd)
    let worst := combine (counted.map s.ptStatus)
    if s.dies.ct0Lost ∨ s.dies.ct1Lost then max worst 2 else worst

/-- Status of a job group or context or unit (R47–R49, R727, R728), groups expanded to depth `f`. -/
def State.unitStatus (s : State) : Nat → UnitRef → Nat
  | _, .module => s.moduleStatus
  | _, .pt p => s.ptStatus p
  | _, .sheet n => s.sheetStatus n
  | _, .lcol n c => s.lcolStatus n c
  | _, .ltile n c _ => s.lcolStatus n c
  | _, .pcol n pc => s.pcolStatus n pc
  | _, .ptile n pc _ => s.pcolStatus n pc
  | _, .ctx c => ctxStatus (s.ctx c).st
  | _, .job k =>
    match s.jobs.find? (·.serial = k) with
    | some j => combine ((s.ctx j.ctx).held.map s.ptStatus)
    | none => 0
  | 0, .group _ => 0
  | f + 1, .group h => combine ((s.membersOf h).filterMap fun m => (s.unitOf m).map (s.unitStatus f))

/-! ### The fault summary (R306) -/

/-- The Reel is in service (R650). -/
def Reel.inService (r : Reel) : Bool := decide (r.st = .ready) || decide (r.st = .unlabelled)

/-- FS_FLAGS (R306). -/
def State.fsFlags (s : State) : Nat :=
  unbits (((List.range 10).zip [false, s.dies.ct1Lost, s.mgmt.defaulted, s.mgmt.fwRecovery, s.mgmt.testMode,
      !s.reel.inService, s.reel.inService && !s.reel.authentic,
      decide (s.host.rate = 32) || decide (s.host.width = 4), s.dies.thermT.any (· ≠ 0), !s.mgmt.modes.isEmpty]).filterMap
    fun x => if x.2 then some x.1 else none)

/-- Code of a partition power state (R673). -/
def ptPwrCode : PtPwr → Nat
  | .run => 0
  | .idle => 1
  | .asleep => 2
  | .off => 3

/-- Bytes 0x04–0x3B of the fault summary: everything but FS_GEN and the log's fields (R306). -/
def State.fsBody (s : State) : List Byte :=
  le 4 s.fsFlags ++ le 4 (s.powerCode * 16 + s.moduleStatus) ++ zeros 4
    ++ (List.range 8).map (fun p => BitVec.ofNat 8 (ptPwrCode (s.pt p).pwr * 16 + s.ptStatus p))
    ++ le 8 ((List.range 24).foldl (fun a n => a + (s.sheet n).health * 4 ^ n) 0)
    ++ le 24 (unbits ((List.range 192).filter fun c => (s.chan c).broke))
    ++ le 4 (unbits ((List.range 18).filter fun p => decide ((s.port p).st ≠ .up)))

/-- The reserved bits of bytes 0x04–0x3B of the fault summary: FS_FLAGS bit 0 and [31:10], FS_MODULE [31:8], bytes 0x0C–0x0F, FS_SHEET
[63:48] and FS_PORTS [31:18] (R306). -/
def fsMask : List Byte :=
  le 4 0xFFFFFC01 ++ le 4 0xFFFFFF00 ++ le 4 0xFFFFFFFF ++ zeros 8 ++ le 8 0xFFFF000000000000 ++ zeros 24 ++ le 4 0xFFFC0000

/-- The fault summary as read: its reserved bits are free (R18, R306). -/
def State.fsBytes (s : State) : List RByte :=
  fld 4 s.host.fsGen.toNat ++ s.fsBody.zipWith (fun b m => if m = 0 then RByte.is b else .part b m) fsMask ++ fld 4 s.logs.seq.toNat
    ++ (match s.logs.errs.getLast? with
        | some r => known (errHeader r)
        | none => known (zeros 64))
    ++ rsvd 128

/-- After a command: when the fault summary's body differs, FS_GEN rises and FAULT_SUMMARY is raised (R306). -/
def settle (s t : State) : State := if s.fsBody = t.fsBody then t else t.fsUpdate

/-- Answer the next state of a command. -/
def nextOf (s t : State) : Host.Outcome State Fault Refusal := .next (settle s t)

end Sys2Proof.Machine
end

