-- ==== Sys2Proof/Machine/Operands.lean ====
section
/-!
DEFINITION. Mailbox requests and responses: the fields of a request, the error detail (R302), the owner lock and the order of checks
(R293–R301), and the completion of a command on the host mailbox (R289) and over the sideband (R613).
-/
namespace Sys2Proof.Machine

/-- Status codes (R300). -/
abbrev ok : Nat := 0x00
/-- BUSY. -/
abbrev busy : Nat := 0x01
/-- STATE_CONFLICT. -/
abbrev conflict : Nat := 0x02
/-- INVALID_ARG. -/
abbrev invalid : Nat := 0x03
/-- NOT_FOUND. -/
abbrev notFound : Nat := 0x04
/-- DENIED. -/
abbrev denied : Nat := 0x05
/-- TIMEOUT. -/
abbrev timeout : Nat := 0x06
/-- NO_RESOURCE. -/
abbrev noResource : Nat := 0x07
/-- DONE_DEGRADED. -/
abbrev degraded : Nat := 0x08
/-- ORPHANED. -/
abbrev orphaned : Nat := 0x09
/-- INTEGRITY_FAIL. -/
abbrev integrity : Nat := 0x0A
/-- UNSUPPORTED. -/
abbrev unsupported : Nat := 0x0B

/-- A mailbox response: status and bytes. -/
structure Resp where
  /-- STATUS. -/
  status : Nat
  /-- The response bytes. -/
  bytes : List RByte

/-- The error detail of R302. -/
structure Detail where
  /-- REASON. -/
  reason : Nat := 0
  /-- STATE_KIND. -/
  kind : Nat := 0
  /-- STATE. -/
  state : Nat := 0
  /-- ARG_OFFSET. -/
  arg : Nat := 0xFFFF
  /-- HANDLE. -/
  handle : Nat := 0
  /-- EXTRA. -/
  extra : Nat := 0

/-- The 16 bytes of an error detail, its reserved bytes zero as records hold them. -/
def Detail.bytes (d : Detail) : List Byte :=
  le 1 d.reason ++ le 1 d.kind ++ le 1 d.state ++ le 1 0 ++ le 2 d.arg ++ le 2 0 ++ le 4 d.handle ++ le 4 d.extra

/-- An error response: only the error detail (R297, R302). -/
def err (st : Nat) (d : Detail := {}) : Resp :=
  ⟨st, fld 1 d.reason ++ fld 1 d.kind ++ fld 1 d.state ++ rsvd 1 ++ fld 2 d.arg ++ rsvd 2 ++ fld 4 d.handle ++ fld 4 d.extra⟩

/-- A successful response. -/
def okResp (b : List RByte) : Resp := ⟨ok, b⟩

/-- STATE_CONFLICT for a context state (R303, R315). -/
def ctxConflict (st : CtxState) (arg : Nat := 0xFFFF) : Resp := err conflict { kind := 2, state := ctxCode st, arg := arg }

/-- A little-endian field of a request. -/
def arg (p : Payload) (off n : Nat) : Nat := unle ((p.drop off).take n)
/-- Bytes of a request. -/
def argBytes (p : Payload) (off n : Nat) : List Byte := (p.drop off).take n

/-- The first non-zero byte of the reserved fields, given as (offset, length) (R313). -/
def rsvdBad (p : Payload) (l : List (Nat × Nat)) : Option Nat :=
  l.findSome? fun x => ((List.range x.2).map (x.1 + ·)).find? fun o => p.getD o 0 ≠ 0

/-- A mailbox command after its lock and code checks: the issuing master, the request and the state to a state and response. -/
abbrev MbFun := Master → Payload → State → State × Resp

/-- Length and reserved-field checks (R301 order 3, R313), then the rest of the command. -/
def checked (len : Nat) (rs : List (Nat × Nat)) (p : Payload) (s : State) (k : Unit → State × Resp) : State × Resp :=
  if p.length ≠ len then (s, err invalid)
  else match rsvdBad p rs with
    | some o => (s, err invalid { arg := o })
    | none => k ()

/-- Kinds of commands (R298). -/
inductive MbKind where
  | q
  | f
  | b
  | bp
  deriving DecidableEq, Repr

/-- The owner is a master (R293). -/
def ownerIs (o : Owner) (m : Master) : Bool :=
  match o, m with
  | .host, .host => true
  | .sideband, .sideband => true
  | _, _ => false

/-- The sideband takes a lock held by the host (R295): OWNER, PREEMPTED and LOCK_LOST. -/
def State.preempt (s : State) : State :=
  State.raise { s with host := { s.host with owner := .sideband, preempted := true } } 1

/-- The pre-empting command is over: the lock is free, whether the command was accepted or rejected (R295; log entry 19). -/
def freeAfter (r : State × Resp) : State × Resp := ({ r.1 with host := { r.1.host with owner := .free } }, r.2)

/-- Commands accepted in recovery mode (R633). -/
def recoveryCodes : List Nat := [0x0001, 0x0090, 0x0091, 0x0092, 0x0094]

/-- Run a command of a kind under the lock rules (R294, R295, R301 order 1). -/
def lockGate (kind : MbKind) (f : MbFun) (m : Master) (p : Payload) (s : State) : State × Resp :=
  if kind = .q ∨ ownerIs s.host.owner m then f m p s
  else if kind = .bp ∧ m = .sideband ∧ s.host.owner = .host then
    freeAfter (f m p s.preempt)
  else (s, err denied)

/-- Run a command of a kind and code: in recovery mode the lock is not used and few codes are accepted (R633). -/
def gate (kind : MbKind) (code : Nat) (f : MbFun) (m : Master) (p : Payload) (s : State) : State × Resp :=
  if s.mgmt.fw = .recovery then
    (if recoveryCodes.contains code then f m p s else (s, err unsupported))
  else lockGate kind f m p s

/-- Complete a command on the host mailbox (R289): the response goes into the payload area, STATUS, RESP_LEN and DONE are set, SEQ rises,
BUSY clears and MB_DONE is raised. After a write that R289 forbids the response is undefined. -/
def complete (r : State × Resp) : State :=
  let s := r.1
  let b := fill s.fresh (if s.host.spoiled then rsvd r.2.bytes.length else r.2.bytes)
  State.raise
    { s with
      fresh := s.fresh + b.length + (if s.host.spoiled then 1 else 0)
      host := { s.host with
        payload := s.host.payload.write 0 b
        status := if s.host.spoiled then (Config.freeByte (s.fresh + b.length)).toNat else r.2.status
        respLen := b.length, done := true, seq := s.host.seq + 1, busy := false, spoiled := false } } 0

/-- A command is submitted: the request stands in the payload area, CODE and REQ_LEN in MB_CMD; DONE clears (R288, R289). -/
def State.submit (s : State) (code : Nat) (p : Payload) : State :=
  { s with host := { s.host with
      code := BitVec.ofNat 16 code, reqLen := BitVec.ofNat 13 p.length
      payload := s.host.payload.write 0 p, done := false, spoiled := false } }

/-- The request of the command in progress: what stands in the payload area, undefined after a write that R289 forbids. -/
def State.request (s : State) : Payload :=
  if s.host.spoiled then fill s.fresh (rsvd s.host.reqLen.toNat) else s.host.payload.read 0 s.host.reqLen.toNat

/-- A command of the host. With BUSY 0 this is GO and the command's completion; without FW_READY it completes with BUSY at once (R289). With
BUSY 1 it is the completion of the command in progress where that has this code, and otherwise a GO that is ignored (log entry 12). CT0 lost:
no host access (R27). -/
def hostCmd (kind : MbKind) (code : Nat) (f : MbFun) (p : Payload) (s : State) : State :=
  if s.dies.ct0Lost then s
  else if s.host.busy then
    (if s.host.code.toNat = code ∧ s.host.fwReady then
      let s1 := if s.host.spoiled then { s with fresh := s.fresh + s.host.reqLen.toNat } else s
      complete (gate kind code f .host s.request s1)
    else s)
  else if !s.host.linkUp then s
  else
    let s1 := s.submit code p
    if !s1.host.fwReady then complete (s1, err busy)
    else complete (gate kind code f .host p s1)

/-- MB_RESPONSE (R612): reserved bytes are taken from the free values. -/
def State.respond (r : State × Resp) (tag : Byte) : State :=
  let b := fill r.1.fresh r.2.bytes
  { r.1.emit (.mbResponse tag r.2.status b) with fresh := r.1.fresh + b.length, side := { r.1.side with outstanding := none, held := none } }

/-- Foreground commands that a firmware restart has cut complete after it with TIMEOUT (R292); of their effects none has happened (log entry 12). -/
def State.cutCommands (s : State) : State :=
  let s1 := if s.host.busy then complete (s, err timeout) else s
  match s1.side.held with
  | some h => State.respond (s1, err timeout) h.1
  | none => s1

/-- Accept a background command: at most 16 run at once; the response is its OP_ID (R291). -/
def background (s : State) (m : Master) (code handle : Nat) (k : Nat → State → State) : State × Resp :=
  if 16 ≤ s.running.length then (s, err noResource)
  else
    let id := s.nextOp
    let o : OpRec := { id := id, code := code, handle := handle, units := s.expand handle, start := s.cyc
                       bySideband := decide (m = .sideband) }
    (k id { s with ops := s.ops ++ [o], lastOp := id }, okResp (fld 4 id))

/-- The units that verbs of R45 are in progress on: those FENCE, UNFENCE, TEST or RESET began on, and the unit each named. -/
def State.verbs (s : State) : List Nat :=
  (s.running.filter fun o => o.code = 0x30 ∨ o.code = 0x50 ∨ o.code = 0x51 ∨ o.code = 0x60).flatMap fun o => o.units ++ [o.handle]

/-- Physical columns a unit stands for, as (sheet, column), 18 for a whole sheet row of columns (R35). -/
def State.colsOf (s : State) (u : UnitRef) : List (Nat × Nat) :=
  match u with
  | .module => (List.range 24).flatMap fun n => (List.range 18).map fun c => (n, c)
  | .pt p => (sheetsOfPt p).flatMap fun n => (List.range 18).map fun c => (n, c)
  | .sheet n => (List.range 18).map fun c => (n, c)
  | .pcol n c => [(n, c)]
  | .ptile n c _ => [(n, c)]
  | .lcol n c => (((s.sheet n).map.getD c none).map fun pc => (n, pc)).toList
  | .ltile n c _ => (((s.sheet n).map.getD c none).map fun pc => (n, pc)).toList
  | _ => []

/-- Two units are the same, or one lies above the other (R45). Tiles of one column do not lie above each other. -/
def unitsMeet (a b : UnitRef) : Bool :=
  match a, b with
  | .module, _ => true
  | _, .module => true
  | .pt p, .pt q => decide (p = q)
  | .pt p, .sheet n => decide (p = ptOfSheet n)
  | .sheet n, .pt p => decide (p = ptOfSheet n)
  | .pt p, .pcol n _ => decide (p = ptOfSheet n)
  | .pcol n _, .pt p => decide (p = ptOfSheet n)
  | .pt p, .ptile n _ _ => decide (p = ptOfSheet n)
  | .ptile n _ _, .pt p => decide (p = ptOfSheet n)
  | .sheet n, .sheet k => decide (n = k)
  | .sheet n, .pcol k _ => decide (n = k)
  | .pcol k _, .sheet n => decide (n = k)
  | .sheet n, .ptile k _ _ => decide (n = k)
  | .ptile k _ _, .sheet n => decide (n = k)
  | .pcol n c, .pcol k d => decide (n = k ∧ c = d)
  | .pcol n c, .ptile k d _ => decide (n = k ∧ c = d)
  | .ptile k d _, .pcol n c => decide (n = k ∧ c = d)
  | .ptile n c t, .ptile k d u => decide (n = k ∧ c = d ∧ t = u)
  | _, _ => false

/-- A verb on handle `h` meets one in progress (R45). -/
def State.verbBusy (s : State) (h : Nat) : Bool :=
  (s.expand h).any fun a => s.verbs.any fun b =>
    match s.unitOf a, s.unitOf b with
    | some u, some v => unitsMeet u v
    | _, _ => false

/-! ### Accesses to memory in channels that may be asleep (R277, R282) -/

/-- An access wakes channels that are in self-refresh because their partition is Off (R277). -/
def State.wakeChans (s : State) (l : List Nat) : State :=
  l.foldl (fun a h => if (a.pt (ptOfChan h)).pwr = .off ∧ !(a.pt (ptOfChan h)).inReset then
    a.modChan h fun x => { x with selfRefresh := false, wokenAt := s.clk.life } else a) s

/-- Byte offset in the usable space of its channel of a pool byte (R237; log entry 11). -/
def State.poolOff (s : State) (a : Nat) : Nat :=
  let n := max 1 s.poolChans.length
  960 * (s.allocGroups - poolG s.ident.poolGib n) + a / 256 / n * 256 + a % 256

/-- The module is about to change lines of the pool that the host may hold: HDM-DB back-invalidates them first (R279; log entry 53). -/
def State.reclaim (s : State) (lines : List Nat) : State :=
  let mine := lines.filter s.host.hostLines.contains
  if mine.isEmpty then s
  else
    let s1 := { s with host := { s.host with hostLines := s.host.hostLines.filter fun l => !mine.contains l } }
    mine.foldl (fun a l => a.emit (.backInvalidate l)) s1

/-- The pool takes bytes: its channels are woken, and words written whole hold what was written (R233, R277, R282). -/
def State.poolWrite (s : State) (a : Nat) (b : List Byte) : State :=
  let lines := (rangeFrom (a / 64) ((a + b.length + 63) / 64 - a / 64)).map (64 * ·)
  let s1 := (({ s with pool := s.pool.write a b } : State).wakeChans (lines.map s.poolChan).eraseDups).reclaim lines
  if s.chans.all fun x => x.flaws.isEmpty && x.bad.isEmpty then s1
  else (lines.filter fun l => decide (a ≤ l ∧ l + 64 ≤ a + b.length)).foldl (fun t l => t.modChan (s.poolChan l) fun x => x.rewrite (s.poolOff l) 64) s1

/-! ### Host memory (R281) -/

/-- A line of host memory that the device cache comes to hold: at most 4,096, the line used longest ago leaves (R281; log entry 25). -/
def State.cacheLine (s : State) (a : Nat) : State :=
  let l := (s.host.devCache.filter fun x => decide (x ≠ a / 64)) ++ [a / 64]
  { s with host := { s.host with devCache := l.drop (l.length - 4096) } }

/-- Bytes go to host memory: whole 64 B lines through CXL.cache, anything smaller as CXL.io memory writes (R281). -/
def State.hostPut (s : State) (a : Nat) (b : List Byte) : State :=
  let whole := rangeFrom ((a + 63) / 64) ((a + b.length) / 64 - (a + 63) / 64)
  (whole.foldl (fun t l => t.cacheLine (64 * l)) s).emit (.hostWrite a b)

end Sys2Proof.Machine
end

