-- ==== Sys2Proof/Machine/Bist.lean ====
section
/-!
DEFINITION. The pattern generator and the signature register of a tile's BIST, and the expected signatures (R439, R440, R442, R453).
-/
namespace Sys2Proof.Machine

/-- The two registers of a tile (R439). -/
structure BistRegs where
  /-- The 64-bit PRPG. -/
  prpg : BitVec 64
  /-- The 64-bit MISR. -/
  misr : BitVec 64
  deriving DecidableEq, Repr

/-- One shift of a register built on x^64 + x^4 + x^3 + x + 1, the bit that leaves at the top fed back at the polynomial's lower terms (R439; log
entry 56). -/
def lfsr (x : BitVec 64) : BitVec 64 := (x <<< 1) ^^^ (if x.msb then 0x1B else 0)

/-- One shift cycle: the PRPG steps, and what the chains give up enters the MISR (R439). -/
def BistRegs.shift (b : BistRegs) (out : BitVec 64) : BistRegs := { prpg := lfsr b.prpg, misr := lfsr b.misr ^^^ out }

/-- Shift cycles of a pattern in a tile of a type: no chain is longer than 768 flops (R439). -/
def chainShifts (typ : Nat) : Nat := min 768 (Config.chainFlops typ)

/-- Pattern `k` of a test kind in a sound tile of a type: the chains unload into the MISR while the next pattern loads (R439). -/
def BistRegs.pattern (b : BistRegs) (typ kind k : Nat) : BistRegs :=
  (List.range (chainShifts typ)).foldl (fun a i => a.shift (Config.scanOut typ kind k i)) b

/-- The registers of a sound tile after `n` patterns: the seed depends only on the tile type (R439). -/
def soundRegs (typ kind n : Nat) : BistRegs :=
  (List.range n).foldl (fun b k => b.pattern typ kind k) { prpg := Config.prpgSeed typ, misr := 0 }

/-- The signature that the firmware image holds for a tile type, test kind and pattern count (R440). -/
def expectedSignature (typ kind n : Nat) : BitVec 64 := (soundRegs typ kind n).misr

/-- The registers of a physical tile: as the last BIST of its column left them, a failing tile's MISR differing from its expected signature (R439, R440,
R466); all zero before the first (log entry 1). -/
def State.bistRegs (s : State) (sh pc row : Nat) : BistRegs :=
  match (s.sheet sh).bist.getD pc none with
  | none => { prpg := 0, misr := 0 }
  | some l =>
    let g := soundRegs (tileType row) l.kind l.patterns
    { g with misr := expectedSignature (tileType row) l.kind l.patterns ^^^ (l.diffs.getD row 0) }

/-- The 16-bit array signature of MAC row `r` of an M-tile, the spare row being row 32, after its column's last logic BIST (R442). -/
def State.arraySignature (s : State) (sh pc row r : Nat) : BitVec 16 :=
  match (s.sheet sh).bist.getD pc none with
  | none => 0
  | some l => Config.arraySignature r ^^^ ((l.rows.getD (33 * row + r) 0))

/-- What a test found is a failure: a March failure, or a signature that differs from the expected one (R443, R445). -/
def isFailure (f : BistFail) : Bool := decide (f.kind.val = 2) || decide (f.sigDiff ≠ 0)

/-- The failure lies in one MAC row of an M-tile: its array signature alone differs (R442). -/
def inMacRow (f : BistFail) : Bool := f.repairable && decide (f.kind.val = 0 ∧ tileType f.row = 1 ∧ f.repKind = 5)

/-- A logic (0) or margin (1) BIST of `n` patterns has run on a physical column, with these failures (R439, R442). -/
def State.ranBist (s : State) (sh pc kind n : Nat) (fails : List BistFail) : State :=
  let mine := fails.filter fun f => decide (f.kind.val = kind)
  let l : BistLast := {
    kind := kind, patterns := n
    diffs := (mine.filter fun f => !inMacRow f).foldl (fun (m : KMap W64) f => m.set f.row f.sigDiff) []
    rows := (mine.filter inMacRow).foldl (fun (m : KMap (BitVec 16)) f => m.set (33 * f.row + f.repDetail.toNat % 256) (f.sigDiff.setWidth 16)) [] }
  s.modSheet sh fun x => { x with bist := x.bist.set pc (some l) }

end Sys2Proof.Machine
end

