-- ==== Sys2Proof/Machine/Tiles.lean ====
section
/-!
DEFINITION. The configuration space of a tile as fields (R178–R195, R128), and the sheet map record (R65–R69).
-/
namespace Sys2Proof.Machine

/-- A little-endian field of a memory. -/
def Mem.nat (m : Mem) (a n : Nat) : Nat := unle (m.read a n)
/-- Bits [hi:lo] of a number (R16). -/
def bitsOf (v hi lo : Nat) : Nat := v / 2 ^ lo % 2 ^ (hi + 1 - lo)

/-- FOLD_LAST (R179). -/
def foldLast (m : Mem) : Nat := bitsOf (m.nat 0 8) 56 51
/-- CTX_VALID (R179). -/
def ctxValid (m : Mem) : Nat := bitsOf (m.nat 0 8) 50 43
/-- FOLD_ENT[n]: configuration context and length in cycles (R185). -/
def foldEnt (m : Mem) (n : Nat) : Nat × Nat :=
  let v := m.nat (0x40 + 4 * n) 4
  (bitsOf v 10 8, (bitsOf v 7 0 + 1) * 16)
/-- Fold entries in use (R185). -/
def foldEnts (m : Mem) : List (Nat × Nat) := (List.range (foldLast m + 1)).map (foldEnt m)
/-- Fold period (R186). -/
def foldPeriod (m : Mem) : Nat := (foldEnts m).foldl (fun a e => a + e.2) 0
/-- The fold entry whose span contains `t`, laid end to end: its configuration context and whether `t` is the slot's first cycle (R186). -/
def foldAt : List (Nat × Nat) → Nat → Nat × Bool
  | [], _ => (0, false)
  | (c, l) :: r, t => if t < l then (c, decide (t = 0)) else foldAt r (t - l)
/-- The active configuration context of a tile at a SCHED, and whether its fold slot begins there (R186). -/
def activeAt (m : Mem) (sched : Nat) : Nat × Bool :=
  let p := foldPeriod m
  if p = 0 then (0, false) else foldAt (foldEnts m) (sched % p)
/-- Base of configuration context `k` (R178). -/
def ctxBase (k : Nat) : Nat := 0x400 + 0xC00 * k

/-- CTX_CTL fields at a context base (R180). -/
structure CtxCtl where
  /-- ROUTE_PERIOD code. -/
  period : Nat
  /-- BRANCH. -/
  branch : Nat
  /-- PRED_Q. -/
  predQ : Nat
  /-- ISSUE_LAST. -/
  issueLast : Nat
  /-- FMT. -/
  fmt : Nat
  /-- SCALE_MODE is NO_SAT. -/
  noSat : Bool
  /-- ROUND is SR. -/
  sr : Bool

/-- CTX_CTL of the context at byte `b` of a configuration image (R180). -/
def ctxCtl (m : Mem) (b : Nat) : CtxCtl :=
  let v := m.nat b 8
  { period := bitsOf v 63 62, branch := bitsOf v 61 60, predQ := bitsOf v 59 57, issueLast := bitsOf v 56 49
    fmt := bitsOf v 48 45, noSat := v.testBit 44, sr := v.testBit 43 }
/-- QBn (R182). -/
def qBound (m : Mem) (b n : Nat) : Nat := bitsOf (m.nat (b + 8) 8) (7 * n + 6) (7 * n)
/-- CTX_SR_SEED (R178). -/
def srSeed (m : Mem) (b : Nat) : W64 := BitVec.ofNat 64 (m.nat (b + 0x10) 8)
/-- CTX_OPST.BASE (R182). -/
def opstBase (m : Mem) (b : Nat) : Nat := bitsOf (m.nat (b + 0x18) 8) 15 0
/-- CTX_OPST window length in units (R182). -/
def opstLen (m : Mem) (b : Nat) : Nat := bitsOf (m.nat (b + 0x18) 8) 31 16 + 1

/-- An issue entry (R190). -/
structure Issue where
  /-- OP. -/
  op : Nat
  /-- SRC_A. -/
  srcA : Nat
  /-- SRC_B. -/
  srcB : Nat
  /-- DST is 0b01. -/
  dst : Bool
  /-- RT. -/
  rt : Bool
  /-- LASTW. -/
  lastw : Bool
  /-- Length in context cycles. -/
  len : Nat
  /-- ARG. -/
  arg : Nat

/-- ISSUE[n] of the context at byte `b` (R190). -/
def issueEnt (m : Mem) (b n : Nat) : Issue :=
  let v := m.nat (b + 0x40 + 8 * n) 8
  { op := bitsOf v 63 56, srcA := bitsOf v 55 53, srcB := bitsOf v 52 50, dst := decide (bitsOf v 49 48 = 1)
    rt := v.testBit 47, lastw := v.testBit 46, len := bitsOf v 45 33 + 1, arg := bitsOf v 32 0 }
/-- ROUTE[n] of the context at byte `b` (R146). -/
def routeEnt (m : Mem) (b n : Nat) : Nat := m.nat (b + 0x840 + 4 * n) 4

/-- The configuration context that owns queue `q` of a tile, with its bound (R199). -/
def queueOwner (m : Mem) (q : Nat) : Option (Nat × Nat) :=
  ((List.range 8).filter fun k => (ctxValid m).testBit k).findSome? fun k =>
    let b := qBound m (ctxBase k) q
    if b = 0 then none else some (k, b)

/-- UNIT_CFG as read (R179). -/
def unitCfg (t : Tile) (active : Nat) : Nat :=
  t.ugen.toNat * 2 ^ 60 + active * 2 ^ 57 + foldLast t.cfg * 2 ^ 51 + ctxValid t.cfg * 2 ^ 43 + t.staleStep

/-- The context whose program runs on a sheet, and its SCHED: 0 with none. -/
def State.schedOfSheet (s : State) (sh : Nat) : Nat :=
  match s.holderOfSheet sh with
  | some c => (s.ctx c).sched
  | none => 0

/-- UNIT_CFG and the CTX_CTL word of every valid context of a physical tile (R178, R299). -/
def State.tileBody (s : State) (i : Nat) : List Byte :=
  let t := s.tile i
  le 8 (unitCfg t (activeAt t.cfg (s.schedOfSheet (i / 288))).1)
    ++ ((List.range 8).filter fun k => (ctxValid t.cfg).testBit k).flatMap fun k => t.cfg.read (ctxBase k) 8

/-! ### The sheet map record -/

/-- A 5-bit column field: 0x1F for none (R66, R68). -/
def col5 (c : Option Nat) : Nat := c.getD 0x1F

/-- SMAP_STATE (R66). RELOAD_PEND also shows the map reload that a FENCE or UNFENCE has left to a calender point (R522, R86). -/
def smapState (x : Sheet) : Nat :=
  x.health * 2 ^ 30 + col5 x.rove * 2 ^ 25 + col5 x.stand * 2 ^ 20 + (if x.down then 2 ^ 19 else 0)
    + (if x.reloadPend || !x.fencePend.isEmpty then 2 ^ 18 else 0) + unbits x.broke

/-- SMAP_COLk (R68). -/
def smapCol (x : Sheet) (k : Nat) : Nat :=
  (List.range (if k = 2 then 4 else 6)).foldl (fun a i => a + col5 (x.map.getD (6 * k + i) none) * 2 ^ (5 * i)) 0

/-- ROLE of a physical column: 0 LIVE, 1 ROVING, 2 STANDING, 3 IDLE, 4 FENCED, 5 BROKE (R69). -/
def roleOf (x : Sheet) (pc : Nat) : Nat :=
  if x.broke.contains pc then 5
  else if x.map.contains (some pc) then 0
  else if x.fenced.any (·.1 = pc) then 4
  else if x.rove = some pc then 1
  else if x.stand = some pc then 2
  else 3

/-- PCOL_STATE of a column (R69). -/
def pcolState (x : Sheet) (pc : Nat) : Nat :=
  let r := roleOf x pc
  r * 32 + (if x.watched.contains pc then 16 else 0) + (if r = 0 then x.map.idxOf (some pc) else 0)

/-- The 40-byte map record (R65–R69). -/
def mapRecord (x : Sheet) : List RByte :=
  fld 4 (smapState x) ++ fld 4 x.gen.toNat ++ fldR 4 (smapCol x 0) 0xC0000000 ++ fldR 4 (smapCol x 1) 0xC0000000
    ++ fldR 4 (smapCol x 2) 0xFFF00000 ++ known ((List.range 18).map fun c => BitVec.ofNat 8 (pcolState x c)) ++ rsvd 2

/-- The record as DESCRIBE returns it: before the sheet-map stage every field but SMAP_GEN is undefined (R70, R18). -/
def mapResponse (ready : Bool) (x : Sheet) : List RByte :=
  if ready then mapRecord x else rsvd 4 ++ fld 4 x.gen.toNat ++ rsvd 32

end Sys2Proof.Machine
end

