-- ==== Sys2Proof/Machine/Sheets.lean ====
section
/-!
DEFINITION. The sheet column map, the spare roles and moves, retirement, and the repair record (R61–R89, R456–R464, R729).
-/
namespace Sys2Proof.Machine

/-- A legal position of the roving spare (R74). -/
def Sheet.legal (x : Sheet) (c : Nat) : Bool :=
  decide (c < 18) && !x.ns.contains c && !(0 < c && x.ns.contains (c - 1)) && !x.ns.contains (c + 1)
    && decide (x.stand ≠ some c)

/-- The nearest legal position beyond `r` in a direction (R77). -/
def Sheet.beyond (x : Sheet) (r : Nat) (down : Bool) : Option Nat :=
  if down then ((List.range r).reverse).find? x.legal
  else (rangeFrom (r + 1) (17 - r)).find? x.legal

/-- R77's `next`: position, direction (true descending) and kind of the next move. -/
def Sheet.nextMove (x : Sheet) (r : Nat) (down : Bool) : Nat × Bool × MoveKind :=
  if x.stand = some 17 ∧ r = 16 ∧ !down then (17, false, .labelSwap)
  else if r = 17 ∧ x.stand = some 16 then (16, true, .labelSwap)
  else
    let pick : Nat × Bool := match x.beyond r down with
      | some p => (p, down)
      | none => ((x.beyond r (!down)).getD r, !down)
    (pick.1, pick.2, if pick.1 + 1 = r ∨ r + 1 = pick.1 then .plain else .mapReload)

/-- The map of given spare roles: the serving columns ascending, or none where they are not 16 (R61, R62). -/
def mapOf (x : Sheet) (rove stand : Option Nat) : List (Option Nat) :=
  let live := (List.range 18).filter fun c => x.free? c && decide (rove ≠ some c) && decide (stand ≠ some c)
  if x.health = 2 ∨ live.length ≠ 16 then List.replicate 16 none else live.map some

/-- The legal position nearest PC17 (R87). -/
def Sheet.nearTop (x : Sheet) : Option Nat := (List.range 18).reverse.find? x.legal

/-- Spare roles that the present set of broke and fenced columns allows (R73, R74, R82, R87, R454, R729). -/
def placeSpares (x : Sheet) : Sheet :=
  match x.health, x.ns with
  | 0, [] =>
    if x.rove = some 17 ∧ x.stand = some 16 then x
    else
      let y := { x with stand := some 17 }
      match y.rove with
      | some r => if y.legal r then y else { y with rove := some 0, down := false }
      | none => { y with rove := some 0, down := false }
  | 0, _ =>
    let y := { x with stand := none }
    match y.rove with
    | none => { y with rove := y.nearTop, down := true }
    | some r =>
      if y.legal r then y
      else match y.beyond r y.down with
        | some p => { y with rove := some p }
        | none => { y with rove := y.beyond r (!y.down), down := !y.down }
  | _, _ => { x with rove := none, stand := none }

/-- Install the map of the roles: SMAP_GEN rises when an entry changes (R67). -/
def install (x : Sheet) : Sheet :=
  let y := placeSpares x
  let m := mapOf y y.rove y.stand
  { y with map := m, gen := if m = x.map then x.gen else x.gen + 1, reloadPend := false }

/-- The starting roles of a sheet after start-up: the lowest legal position, ascending (R454). -/
def Sheet.startRoles (x : Sheet) : Sheet :=
  let y := { x with rove := none, stand := if x.ns.isEmpty then some 17 else none, down := false }
  if y.health = 0 then { y with rove := (List.range 18).find? y.legal } else { y with stand := none }

/-- The target column of a dwell at position `r` (R75): the logical column. -/
def dwellTarget (x : Sheet) (r : Nat) (next : Nat × Bool × MoveKind) : Option Nat :=
  match next.2.2 with
  | .plain => x.map.findIdx? (· = some next.1)
  | .labelSwap => some 15
  | .mapReload =>
    let at' (c : Nat) : Option Nat := x.map.findIdx? (· = some c)
    let up := at' (r + 1)
    let dn := if r = 0 then none else at' (r - 1)
    if x.down then (dn.orElse fun _ => up) else (up.orElse fun _ => dn)

/-- A word of a tile's store is written: it is dirty when the tile is the target of a couch that has copied it (R447, R448). -/
def State.markDirty (s : State) (i w : Nat) : State :=
  let x := s.sheet (i / 288)
  match x.dwell with
  | none => s
  | some d =>
    let key := 65536 * (i % 16) + w
    if x.map.getD (d.target.getD 16) none ≠ some (i % 288 / 16) ∨ d.inStep ∨ !(d.couched.isSome || (decide (d.phase = .couchIn) && decide (w < d.words))) ∨ x.dirty.contains key then s
    else s.modSheet (i / 288) fun y => { y with dirty := y.dirty ++ [key] }

/-! ### The repair record -/

/-- Powered hours (R458). -/
def State.lifeH (s : State) : Nat := s.clk.life / cycPerSec / 3600 % 2 ^ 32
/-- LIFE_S (R490). -/
def State.lifeS (s : State) : Nat := s.clk.life / cycPerSec % 2 ^ 32

/-- Entries that start-up makes again on its own (R461). -/
def remade (e : List Byte) : Bool :=
  let k := (e.getD 0 0).toNat
  let c := (e.getD 1 0).toNat
  decide (k = 6) || ((decide (1 ≤ k ∧ k ≤ 5) || decide (k = 0x10)) && decide (1 ≤ c ∧ c ≤ 3))

/-- Write a repair record copy: SEQ rises and the copy that is not the newest takes it (R460). -/
def State.writeRepair (s : State) (l : List (List Byte)) : State :=
  { s with logs := { s.logs with
    repair := l, repairSeq := s.logs.repairSeq + 1, repairOld := s.logs.repair, newestA := !s.logs.newestA, repairLife := s.lifeH } }

/-- A repair record entry made now (R458). -/
def State.repairEntry (s : State) (kind cause loc detail : Nat) : List Byte :=
  le 1 kind ++ le 1 cause ++ le 2 0 ++ le 4 loc ++ le 4 detail ++ le 4 s.lifeH

/-- An entry goes where it can be stored (R460, R461). -/
def State.storeEntry (s : State) (e : List Byte) : State :=
  if s.dies.ct1Lost then s.logErr 0x030A {} e
  else if s.mgmt.testMode then
    if 256 ≤ s.logs.repairPend.length then s.logErr 0x030A {} e
    else { s with logs := { s.logs with repairPend := s.logs.repairPend ++ [e] } }
  else
    let l := if 2048 ≤ s.logs.repair.length then s.logs.repair.filter (fun x => !remade x) else s.logs.repair
    if 2048 ≤ l.length then s.logErr 0x030A {} e else s.writeRepair (l ++ [e])

/-- A repair or marking is made (R456, R460, R461): in force at once, and stored where it can be. -/
def State.addRepair (s : State) (kind cause loc detail : Nat) : State :=
  let e := s.repairEntry kind cause loc detail
  State.storeEntry { s with logs := { s.logs with inForce := s.logs.inForce ++ [e] } } e

/-! ### Retirement (R87, R463, R464) -/

/-- The roles after column `pc` is retired (R87): a fenced or idle column is neither live nor a spare, so its retirement costs no spare. -/
def retireRoles (x : Sheet) (pc : Nat) : Sheet :=
  let y := { x with
    broke := (List.range 18).filter fun c => c = pc || x.broke.contains c, watched := x.watched.filter (· ≠ pc)
    fenced := x.fenced.filter (·.1 ≠ pc), since := if x.unfence.isSome then x.since ++ [.retire pc] else [] }
  if roleOf x pc = 3 ∨ roleOf x pc = 4 then y
  else if x.stand = none then { y with rove := none }
  else if x.stand = some pc then { y with stand := none }
  else
    let z := { y with stand := none, down := true }
    { z with rove := if z.legal 17 then some 17 else none }

/-- The roles after a fence of column `pc` for a unit (R73, R85): no column stands beside a fenced one, and the roving spare keeps its
position, or takes the one that R729 gives when the map is installed. -/
def fenceRoles (x : Sheet) (pc : Nat) (row : Option Nat) : Sheet :=
  if x.fenced.contains (pc, row) then x
  else { x with
    unfence := if x.unfence.isNone then some (x.rove, x.stand, x.down, x.broke) else x.unfence
    since := x.since ++ [.fence pc row], fenced := x.fenced ++ [(pc, row)], watched := x.watched.filter (· ≠ pc), stand := none }

/-- The roles that a sheet holds after a fence or retirement, and the map they give. -/
def Sheet.after (x : Sheet) (e : RoleEvent) : Sheet :=
  let y := placeSpares (match e with
    | .fence pc row => fenceRoles x pc row
    | .retire pc => retireRoles x pc)
  { y with map := mapOf y y.rove y.stand }

/-- The roles that the sheet would hold if a fence had never been applied (R86): the fences and retirements since the first fence, without
it. The spare's own moves since then are not repeated (DESIGN CHOICE, log entry 49). -/
def unfenceRoles (x : Sheet) (pc : Nat) (row : Option Nat) : Sheet :=
  match x.unfence with
  | none => { x with fenced := x.fenced.filter (· ≠ (pc, row)) }
  | some (r, st, d, br) =>
    let evs := x.since.filter (· ≠ .fence pc row)
    let b : Sheet := { x with rove := r, stand := st, down := d, broke := br, fenced := [], unfence := none, since := [] }
    let y := evs.foldl Sheet.after { b with map := mapOf b r st }
    let left := evs.any fun e => match e with
      | .fence _ _ => true
      | .retire _ => false
    { x with
      rove := y.rove, stand := y.stand, down := y.down, fenced := y.fenced
      unfence := if left then x.unfence else none, since := if left then evs else [] }

/-- The body of a COLUMN_RETIRED record: the repair entry (R500). -/
def retireEntry (s : State) (sh pc cause : Nat) : List Byte :=
  le 1 0x10 ++ le 1 cause ++ le 2 0 ++ le 4 (sh * 2 ^ 24 + pc * 2 ^ 16 + 0xFF00) ++ le 4 0 ++ le 4 s.lifeH

/-- Couch-in starts afresh, if it has begun (R432). -/
def Dwell.recouch (d : Dwell) : Dwell :=
  if d.phase = .couchIn ∨ d.phase = .inStep then
    { d with phase := .couchIn, couched := none, words := 0, catching := none, inStep := false }
  else d

/-- Couch-in of the sheet's dwell starts afresh: every dirty mark and COPIED bit clears (R432). -/
def Sheet.recouch (x : Sheet) : Sheet :=
  match x.dwell with
  | some d => { x with
      dwell := some d.recouch, dirty := []
      tstat := x.tstat.modify d.pos fun (t : TStat) => if d.phase = .couchIn ∨ d.phase = .inStep then { t with copied := 0 } else t }
  | none => x

/-- The dwell after roles or map may have changed (R429, R432): a spare on another position starts a new one, a target in another column
restarts couch-in, and any other dwell goes on. -/
def newDwell (x : Sheet) : Sheet :=
  match x.dwell, x.rove with
  | some d, some r =>
    if x.health ≠ 0 then { x with dwell := none, dwellDue := none }
    else if d.pos ≠ r then { x with dwell := none, dwellDue := some .sweep, dirty := [] }
    else if d.kind = .inspect ∨ (d.target.bind fun t => x.map.getD t none) = d.tphys ∧ !(decide (d.next = .labelSwap) && x.stand.isNone) then x
    else
      let n := x.nextMove r x.down
      let t := dwellTarget x r n
      ({ x with dwell := some { d with target := t, tphys := t.bind fun k => x.map.getD k none, next := n.2.2 } } : Sheet).recouch
  | none, some _ => { x with dwellDue := if x.health = 0 then some (x.dwellDue.getD .sweep) else none }
  | _, none => { x with dwell := none, dwellDue := none, dirty := [] }

/-- A dwell abandoned under R436 gives way to a new one at the same position (R71, R436). -/
def Sheet.renew (x : Sheet) : Sheet :=
  match x.dwell with
  | some d => if d.abandoned then { x with dwell := none, dwellDue := some d.kind, dirty := [] } else x
  | none => x

/-- Retire one column of a sheet (R464). -/
def State.retireOne (s : State) (sh pc cause : Nat) : State :=
  if (s.sheet sh).broke.contains pc then s
  else
    let e := retireEntry s sh pc cause
    let s1 := s.modSheet sh fun x => retireRoles x pc
    let s2 := s1.addRepair 0x10 cause (sh * 2 ^ 24 + pc * 2 ^ 16 + 0xFF00) 0
    s2.logErr 0x0302 { handle := s.handleOf (.pcol sh pc), loc := sh * 2 ^ 24 + pc * 2 ^ 16 + 0xFF00, pt := some (ptOfSheet sh) } e

/-- Whether the roles ask for another map than the installed one (R464). -/
def Sheet.needsReload (x : Sheet) : Bool :=
  let y := placeSpares x
  decide (mapOf y y.rove y.stand ≠ x.map)

/-- The installation that is due on a sheet, `old` as it was before the change that calls for it. While a context is bound the dwell goes on as
R429 and R432 have it; with none, a change of map or of spare roles ends the dwell in progress at that moment (R71). -/
def State.installMap (s : State) (sh : Nat) (old : Sheet) : State :=
  let bound := (s.holderOfSheet sh).isSome
  s.modSheet sh fun x =>
    let y := install x
    if bound ∨ (y.map = old.map ∧ y.rove = old.rove ∧ y.stand = old.stand) then newDwell y
    else { y with dwell := none, dwellDue := if y.health = 0 ∧ y.rove.isSome then some .sweep else none, dirty := [] }

/-- After the broke or fenced set changed: install at once with no bound context or when only roles change, else the reload waits (R71, R464), and
a dwell on a position that is no longer legal ends. -/
def State.applyRoles (s : State) (sh : Nat) (old : Sheet) : State :=
  if (s.holderOfSheet sh).isSome && (s.sheet sh).needsReload then
    s.modSheet sh fun x => { x with
      reloadPend := true
      dwell := x.dwell.bind fun d => if x.rove = some d.pos ∧ ({ x with stand := none } : Sheet).legal d.pos then some d else none }
  else s.installMap sh old

/-- Columns and causes in ascending order of columns (R89). -/
def ascending (l : List (Nat × Nat)) : List (Nat × Nat) := (List.range 18).flatMap fun c => l.filter (·.1 = c)

/-- Retire columns in ascending order (R89, R464). -/
def State.retire (s : State) (sh : Nat) (l : List (Nat × Nat)) : State :=
  ((ascending l).foldl (fun a e => a.retireOne sh e.1 e.2) s).applyRoles sh (s.sheet sh)

/-- Condemn a column (R463, R464): pending while it is live under a bound context, else retired at once. -/
def State.condemn (s : State) (sh pc cause : Nat) : State :=
  if roleOf (s.sheet sh) pc = 0 ∧ (s.holderOfSheet sh).isSome then
    s.modSheet sh fun x => if x.pend.any (·.1 = pc) then x else { x with pend := x.pend ++ [(pc, cause)] }
  else s.retire sh [(pc, cause)]

/-- Retire what is pending on a sheet (R464): a reset takes no more than this, its map is installed at its end (R71). -/
def State.retirePending (s : State) (sh : Nat) : State :=
  (ascending (s.sheet sh).pend).foldl (fun a e => a.retireOne sh e.1 e.2) (s.modSheet sh fun x => { x with pend := [] })

/-- Fence a column for a unit: `row` none for the column itself (R85, R522). The column is zeroised and idles (R523). -/
def State.fenceCol (s : State) (sh pc : Nat) (row : Option Nat) : State :=
  let s1 := s.modSheet sh fun x => { fenceRoles x pc row with tstat := x.tstat.modify pc fun t => { t with zeroised := true, isolated := true } }
  { s1 with tiles := s1.tiles.filter fun e => !(decide (e.1 / 288 = sh) && decide (e.1 % 288 / 16 = pc)) }

/-- Return a column to service (R86). -/
def State.unfenceCol (s : State) (sh pc : Nat) (row : Option Nat) : State := s.modSheet sh fun x => unfenceRoles x pc row

end Sys2Proof.Machine
end

