-- ==== Sys2Proof/Machine/Units.lean ====
section
/-!
DEFINITION. Queries and group commands over units (R35–R52, R298, R299, R704, R724–R728): IDENTIFY to START_STATUS.
-/
namespace Sys2Proof.Machine

/-! ### Identity, levels, paths -/

/-- The 64 B ID block (R287), reserved bytes zero. -/
def State.idBlock (s : State) : List Byte :=
  le 4 0x4D584245 ++ le 4 (s.ident.stepping.toNat * 2 ^ 16 + 0x0104)
    ++ padTo 16 (chars (['E', 'B', 'X', '-', 'M', '3', '2', '-'] ++ (if s.ident.is1440 then ['1', '4', '4', '0'] else ['2', '8', '8', '0'])))
    ++ s.ident.serial ++ le 4 s.usableGib ++ le 4 s.ident.fwVer.toNat ++ le 4 s.ident.idSvn ++ le 4 s.ident.poolGib ++ zeros 8
/-- The ID block as read: ID_VER[31:24] and its last 8 bytes are reserved (R287, R18). -/
def State.idResp (s : State) : List RByte := known (s.idBlock.take 7) ++ rsvd 1 ++ known ((s.idBlock.drop 8).take 48) ++ rsvd 8

/-- LEVEL codes (R299). -/
def levelOf : UnitRef → Nat
  | .module => 0
  | .pt _ => 1
  | .sheet _ => 2
  | .lcol _ _ => 3
  | .ltile _ _ _ => 4
  | .pcol _ _ => 5
  | .ptile _ _ _ => 6
  | .group _ => 7
  | .job _ => 8
  | .ctx _ => 9

/-- A digit's byte. -/
def digit (n : Nat) : Byte := BitVec.ofNat 8 (0x30 + n)
/-- A decimal number below 100, without a leading zero. -/
def dec (n : Nat) : List Byte := if n < 10 then [digit n] else [digit (n / 10), digit (n % 10)]
/-- A decimal number below 100, as two digits. -/
def dec2 (n : Nat) : List Byte := [digit (n / 10), digit (n % 10)]

/-- The path of a unit (R22); groups, jobs and contexts have none. A sheet gives its logical path. -/
def pathOf : UnitRef → List Byte
  | .module => chars ['M']
  | .pt p => chars ['M', '.', 'P', 'T'] ++ dec p
  | .sheet n => chars ['M', '.', 'P', 'T'] ++ dec (ptOfSheet n) ++ chars ['.', 'S', 'H'] ++ dec2 n
  | .lcol n c => chars ['M', '.', 'P', 'T'] ++ dec (ptOfSheet n) ++ chars ['.', 'S', 'H'] ++ dec2 n ++ chars ['.', 'C'] ++ dec c
  | .ltile n c t => chars ['M', '.', 'P', 'T'] ++ dec (ptOfSheet n) ++ chars ['.', 'S', 'H'] ++ dec2 n ++ chars ['.', 'C'] ++ dec c
      ++ chars ['.', 'T'] ++ dec2 t
  | .pcol n pc => chars ['M', '.', 'S', 'H'] ++ dec2 n ++ chars ['.', 'P', 'C'] ++ dec pc
  | .ptile n pc t => chars ['M', '.', 'S', 'H'] ++ dec2 n ++ chars ['.', 'P', 'C'] ++ dec pc ++ chars ['.', 'T'] ++ dec2 t
  | _ => []

/-- Split bytes at full stops. -/
def splitDots (l : List Byte) : List (List Byte) :=
  l.foldr (fun b acc => if b = 0x2E then [] :: acc else match acc with
    | [] => [[b]]
    | h :: t => (b :: h) :: t) [[]]
/-- The decimal number of a component's bytes from a place on. -/
def numAt (l : List Byte) (k : Nat) : Nat := (l.drop k).foldl (fun a b => 10 * a + (b.toNat - 0x30)) 0

/-- The unit of a zero-padded path (R22): its form is checked against `pathOf`; a sheet's physical path is accepted too. -/
def unitOfPath (b : List Byte) : Option UnitRef :=
  let raw := b.takeWhile (· ≠ 0)
  let guess : Option UnitRef := match splitDots raw with
    | [_] => some .module
    | [_, x] => if x.take 2 = chars ['P', 'T'] then some (.pt (numAt x 2)) else some (.sheet (numAt x 2))
    | [_, x, y] => if x.take 2 = chars ['P', 'T'] then some (.sheet (numAt y 2)) else some (.pcol (numAt x 2) (numAt y 2))
    | [_, x, y, z] => if x.take 2 = chars ['P', 'T'] then some (.lcol (numAt y 2) (numAt z 1))
        else some (.ptile (numAt x 2) (numAt y 2) (numAt z 1))
    | [_, _, y, z, t] => some (.ltile (numAt y 2) (numAt z 1) (numAt t 1))
    | _ => none
  let inRange : UnitRef → Bool
    | .module => true
    | .pt p => decide (p < 8)
    | .sheet n => decide (n < 24)
    | .lcol n c => decide (n < 24 ∧ c < 16)
    | .ltile n c t => decide (n < 24 ∧ c < 16 ∧ t < 16)
    | .pcol n c => decide (n < 24 ∧ c < 18)
    | .ptile n c t => decide (n < 24 ∧ c < 18 ∧ t < 16)
    | _ => false
  match guess with
  | some u =>
    let alt := match u with
      | .sheet n => chars ['M', '.', 'S', 'H'] ++ dec2 n
      | _ => pathOf u
    if inRange u && (decide (padTo b.length (pathOf u) = b) || decide (padTo b.length alt = b)) then some u else none
  | none => none

/-- PARENT (R724). -/
def State.parentOf (s : State) : UnitRef → Nat
  | .pt _ => s.handleOf .module
  | .sheet n => s.handleOf (.pt (ptOfSheet n))
  | .lcol n _ => s.handleOf (.sheet n)
  | .pcol n _ => s.handleOf (.sheet n)
  | .ltile n c _ => s.handleOf (.lcol n c)
  | .ptile n c _ => s.handleOf (.pcol n c)
  | _ => 0

/-- Children in order (R724). -/
def State.childrenOf (s : State) : UnitRef → List Nat
  | .module => (List.range 8).map (fun p => s.handleOf (.pt p)) ++ (List.range 24).map fun n => s.handleOf (.sheet n)
  | .pt p => (sheetsOfPt p).map fun n => s.handleOf (.sheet n)
  | .sheet n => (List.range 16).map (fun c => s.handleOf (.lcol n c)) ++ (List.range 18).map fun c => s.handleOf (.pcol n c)
  | .lcol n c => (List.range 16).map fun t => s.handleOf (.ltile n c t)
  | .pcol n c => (List.range 16).map fun t => s.handleOf (.ptile n c t)
  | .group h => s.membersOf h
  | .job k => (s.jobPts k).map fun p => s.handleOf (.pt p)
  | _ => []

/-! ### Jobs as seen by queries (R574–R576) -/

/-- Code of a membership state (R574). -/
def jobCode : JobState → Nat
  | .none => 0
  | .forming => 1
  | .active => 2
  | .voting => 3
  | .broken => 4
  | .restarting => 5
  | .excluded => 6

/-- Ranks that the tree leaves out: those lost, but for a job that forms or restarts, whose every rank is claimed (R576, R599). -/
def Job.treeLost (j : Job) : List Nat := if j.st = .forming ∨ j.st = .restarting then [] else j.lost
/-- The nearest ancestor of rank `r` that is not lost (R576). -/
def Job.liveAncestor (j : Job) : Nat → Nat → Option Nat
  | 0, _ => none
  | f + 1, r => if r = 0 then none else
    let p := (r - 1) / 16
    if j.treeLost.contains p then Job.liveAncestor j f p else some p
/-- The effective root (R576): the lowest live rank with no live ancestor. -/
def Job.root (j : Job) : Nat :=
  ((List.range j.nmod).find? fun r => !j.treeLost.contains r && (Job.liveAncestor j 5 r).isNone).getD 0
/-- The effective parent of rank `r` (R576); none for the effective root. -/
def Job.parent (j : Job) (r : Nat) : Option Nat :=
  match Job.liveAncestor j 5 r with
  | some p => some p
  | none => if j.root = r then none else some j.root
/-- Effective children of this member (R576). -/
def Job.children (j : Job) : List Nat :=
  (List.range j.nmod).filter fun r => decide (r ≠ j.rank) && !j.treeLost.contains r && decide (j.parent r = some j.rank)
/-- Tree neighbours (R576). -/
def Job.neighbours (j : Job) : List Nat := (j.parent j.rank).toList ++ j.children

/-- The JOB_STATUS response (R575). -/
def State.jobStatus (s : State) (j : Job) : List RByte :=
  fld 8 j.id ++ fld 1 (jobCode j.st) ++ fld 1 j.k ++ rsvd 2 ++ fld 2 j.nmod ++ fld 2 j.rank ++ fld 2 j.root
    ++ fld 2 j.lost.length ++ fld 4 j.epoch ++ fld 1 j.ctx ++ rsvd 3 ++ fld 8 (s.ctx j.ctx).step ++ fld 8 j.protGen
    ++ fld 8 j.protStep ++ fld 8 j.chunk
    ++ known ((List.range 1024).map fun i => BitVec.ofNat 8 (unbits ((List.range 8).filter fun b => j.lost.contains (8 * i + b))))

/-! ### DESCRIBE bodies (R299, R324) -/

/-- Region flip table entry (R260): bits [31:4] and bit 0 are reserved. -/
def flipEntry (a : Alloc) (r : Region) (flip : Bool) : List RByte :=
  let n := a.nch * a.pts.length
  let w (x : Nat) : Nat := x / (64 * max 1 n)
  let delta := if r.double then (w r.baseB + 2 ^ 32 - w r.baseA) % 2 ^ 32 else 0
  fldR 4 ((if r.double then 8 else 4) + (if flip then 2 else 0)) 0xFFFFFFF1 ++ fld 4 (w r.baseA) ++ fld 4 (w r.len) ++ fld 4 delta

/-- The context's body (R324). -/
def State.ctxBody (s : State) (c : Nat) : List RByte :=
  let x := s.ctx c
  let al := x.alloc.getD ⟨[], 0, 0, 0, 0, []⟩
  let regs := (x.prog.map (·.regions)).getD []
  fld 1 c ++ fld 1 (ctxCode x.st) ++ fld 1 (unbits (if x.st = .suspended then al.pts else x.held)) ++ fld 1 al.granule ++ fld 1 al.nch
    ++ rsvd 3 ++ fld 4 al.baseG ++ fld 4 al.lenG ++ fld 8 x.step ++ known (padTo 16 ((x.prog.map (·.pid)).getD []))
    ++ fld 2 regs.length ++ rsvd 6 ++ (regs.mapIdx fun i r => flipEntry al r (x.flips.getD i false)).flatten

/-- The body of a logical column (R299). -/
def State.columnBody (s : State) (n c : Nat) : List RByte :=
  fld 1 (col5 ((s.sheet n).map.getD c none)) ++ rsvd 3 ++ fld 4 (s.sheet n).gen.toNat

/-- BODY by level (R299); a logical tile's has after it what R178 adds, in the order of a physical tile's (DEDUCED, log entry 9). -/
def State.bodyOf (s : State) : UnitRef → List RByte
  | .module => s.idResp
  | .pt p =>
    let att := s.setting 0x10
    known ((chansOfPt p).map fun c => if (s.chan c).broke then 0xFF#8 else BitVec.ofNat 8 c)
      ++ known ((chansOfPt p).map fun c => att.getD c 0) ++ fld 1 ((s.holder p).getD 0xFF) ++ rsvd 7
  | .sheet n => mapResponse (decide (9 ≤ s.start.stage) && decide (s.start.stage ≠ 0xF)) (s.sheet n)
  | .lcol n c => s.columnBody n c
  | .ltile n c t => s.columnBody n c ++ known ((((s.sheet n).map.getD c none).map fun pc => s.tileBody (tileIx n pc t)).getD [])
  | .pcol n pc => fld 1 (pcolState (s.sheet n) pc) ++ rsvd 3 ++ fld 4 (s.sheet n).gen.toNat
  | .ptile n pc t => fld 1 (tileType t) ++ rsvd 7 ++ known (s.tileBody (tileIx n pc t))
  | .group h => (s.membersOf h).flatMap fun m => fld 4 m
  | .job k => match s.jobs.find? (·.serial = k) with
    | some j => (s.jobStatus j).take 64
    | none => []
  | .ctx c => s.ctxBody c

/-! ### Counters (R50–R52, R108, R171, R210, R211, R226, R272, R381, R425, R467, R497, R571, R606, R692) -/

/-- A counter of a COUNTERS response: its ID, or 0x10000 and up where the spec gives none; its width; its value. -/
structure Ctr where
  /-- ID or key. -/
  key : Nat
  /-- WIDTH. -/
  width : Nat
  /-- VALUE. -/
  value : Nat

/-- A counter of a table. -/
def tableCtr (m : KMap Nat) (id : Nat) : Ctr := ⟨id, 48, m.getD id 0⟩

/-- The counters of a physical tile by its type (R108, R210, R211, R226): keys 0x10000–0x10005 stand for NAN_OUT, OVF_OUT, SAT_OUT,
SUPPRESSED, STALE_TOKENS and SRAM_CE. -/
def State.tileCtrs (s : State) (i : Nat) : List Ctr :=
  let t := s.tile i
  let ty := tileType (i % 16)
  let has : List Nat := (if ty = 1 ∨ ty = 2 then [0, 1, 2] else [3]) ++ [4] ++ (if ty = 1 ∨ ty = 3 then [5] else [])
  has.map fun k => ⟨0x10000 + k, 48, t.ctr.getD k 0⟩

/-- The counters of a unit that is not a group. -/
def State.unitCtrs (s : State) : UnitRef → List Ctr
  | .module => [0x0910, 0x0911, 0x0912, 0x0913].map (tableCtr s.modCtr)
      ++ [⟨0x0C20, 48, s.logs.ledgerCtr⟩, ⟨0x0C21, 48, s.logs.ledgerBad⟩]
      ++ (List.range 18).flatMap (fun p => (List.range 8).map fun k => ⟨0x0E00 + 16 * p + k, 48, (s.port p).ctr.getD k 0⟩)
      ++ [⟨0x1201, 64, s.dies.energy / 10 % 2 ^ 64⟩]
  | .pt p =>
    let x := s.pt p
    [⟨0x0B10, 48, x.phyChecks⟩, ⟨0x0B11, 48, x.phyWarn⟩, ⟨0x1201, 64, x.energy / 10 ^ 7 % 2 ^ 64⟩, ⟨0x1202, 48, x.gated⟩,
      ⟨0x1203, 48, x.limitFrames⟩, ⟨0x1204, 48, x.thermalFrames⟩]
      ++ ((chansOfPt p).mapIdx fun i c =>
        let h := s.chan c
        [⟨0x11000 + 4 * i, 48, h.ce⟩, ⟨0x11001 + 4 * i, 48, h.ue⟩, ⟨0x11002 + 4 * i, 48, h.tag⟩, ⟨0x11003 + 4 * i, 48, h.scrubbed⟩]).flatten
  | .sheet n => (rangeFrom 0x0B01 8 ++ rangeFrom 0x0C01 5).map (tableCtr (s.sheet n).counters)
  | .ctx c => (rangeFrom 0x0901 4 ++ rangeFrom 0x0A01 6 ++ rangeFrom 0x0C10 3 ++ rangeFrom 0x0D01 5 ++ rangeFrom 0x0D20 7).map
      (tableCtr (s.ctx c).counters)
  | .ltile n c t => match (s.sheet n).map.getD c none with
    | some pc => s.tileCtrs (tileIx n pc t)
    | none => []
  | .ptile n pc t => s.tileCtrs (tileIx n pc t)
  | _ => []

/-- Add counters key by key, modulo their width (R50). -/
def addCtrs (acc l : List Ctr) : List Ctr :=
  l.foldl (fun a x => if a.any (·.key = x.key) then a.map (fun y => if y.key = x.key then { y with value := (y.value + x.value) % 2 ^ y.width } else y)
    else a ++ [x]) acc

/-- The physical tiles whose telemetry a unit reports (R171). -/
def State.tileOfUnit (s : State) : UnitRef → List Nat
  | .ptile n pc t => [tileIx n pc t]
  | .ltile n c t => (((s.sheet n).map.getD c none).map fun pc => tileIx n pc t).toList
  | _ => []

/-- QMAX of a tile as the unit with handle `h` reports it: the largest value in the snapshots taken since the last COUNTERS on that unit, or since
reset where there was none (R173). -/
def State.qmaxOf (s : State) (h i : Nat) : List Nat :=
  match s.qmaxes.find? (·.handle = h) with
  | some e => e.top.getD i []
  | none => (s.tile i).snap.qmax

/-- The 184 B telemetry record of tiles for the unit with handle `h` (R171–R173): FLITS and STALL are sums, QMAX the largest; CYCLE is that of a
single tile. -/
def State.tlmRecord (s : State) (h : Nat) (l : List Nat) : List RByte :=
  let ts := l.map fun i => (s.tile i).snap
  let sum (f : Tlm → Nat) : Nat := ts.foldl (fun a t => a + f t) 0
  (match ts with
    | [t] => fld 6 t.at'
    | _ => rsvd 6) ++ rsvd 2
    ++ fld 2 (min 0xFFFF (sum (·.parErr))) ++ fld 2 (min 0xFFFF (sum (·.ctlErr))) ++ rsvd 4
    ++ (List.range 7).flatMap fun k =>
      fld 6 (sum (·.flits.getD k 0) % 2 ^ 48) ++ rsvd 2 ++ fld 6 (sum (·.stall.getD k 0) % 2 ^ 48) ++ rsvd 2
        ++ fld 1 (l.foldl (fun a i => max a ((s.qmaxOf h i).getD k 0)) 0) ++ rsvd 7

/-- The COUNTERS response of a list of units (R50, R51, R298): a tile's telemetry record follows the entries, and SMAP_GEN follows it for a
logical tile (log entry 9). Entries beyond the 4,096 B of a response are left out. -/
def State.countersResp (s : State) (h : Nat) (us : List UnitRef) : List RByte :=
  let all := us.foldl (fun a u => addCtrs a (s.unitCtrs u)) []
  let tiles := us.flatMap s.tileOfUnit
  let cs := all.take (if tiles.isEmpty then 254 else 242)
  fld 8 s.cyc ++ fld 8 s.cyc ++ fld 2 cs.length ++ rsvd 6
    ++ cs.flatMap (fun x => (if x.key < 0x10000 then fld 2 x.key else rsvd 2) ++ fld 1 x.width ++ rsvd 5 ++ fld 8 x.value)
    ++ (if tiles.isEmpty then [] else s.tlmRecord h tiles)
    ++ (match us with
        | [.ltile n _ _] => fld 4 (s.sheet n).gen.toNat
        | _ => [])

/-- Firmware restarts QMAX of the unit reported, if it has tiles (R173). -/
def State.restartQmax (s : State) (h : Nat) (tiles : List Nat) : State :=
  if tiles.isEmpty then s
  else { s with qmaxes := (s.qmaxes.filter (·.handle ≠ h)) ++ [{ handle := h, at' := s.clk.life }] }

/-! ### The commands -/

/-- NOT_FOUND for a handle. -/
def noHandle (off h : Nat) : Resp := err notFound { arg := off, handle := h }

/-- IDENTIFY (R298). -/
def mbIdentify : MbFun := fun _ p s => checked 0 [] p s fun _ => (s, okResp (s.idResp ++ fld 4 (s.handleOf .module)))

/-- OP_STATUS (R291, R298): of a running operation the spec states no STATUS, PROGRESS, END or DETAIL. -/
def mbOpStatus : MbFun := fun _ p s => checked 4 [] p s fun _ =>
  match s.op? (arg p 0 4) with
  | none => (s, err notFound { arg := 0 })
  | some o =>
    let f := o.finished
    (s, okResp (fld 4 o.id ++ fld 2 o.code ++ fld 1 (if f then 1 else 0) ++ (if f then fld 1 o.status else rsvd 1) ++ fld 4 o.handle
      ++ (if f then fld 2 1000 else rsvd 2) ++ rsvd 2 ++ fld 8 o.start ++ (if f then fld 8 o.stop else rsvd 8)
      ++ (if f then known (padTo 16 o.detail) else rsvd 16)))

/-- DESCRIBE (R299, R724). -/
def mbDescribe : MbFun := fun _ p s => checked 4 [] p s fun _ =>
  let h := arg p 0 4
  match s.unitOf h with
  | none => (s, noHandle 0 h)
  | some u => (s, okResp (fld 4 h ++ fld 1 (levelOf u) ++ fld 1 (s.unitStatus 4 u) ++ rsvd 2 ++ fld 4 (s.parentOf u)
      ++ fld 4 (s.childrenOf u).length ++ (if (pathOf u).isEmpty then rsvd 48 else known (padTo 48 (pathOf u))) ++ s.bodyOf u))

/-- RESOLVE (R22, R298). A path that names no unit, be its form or an identifier in it wrong (R21), is an identifier not found: NOT_FOUND
of R301 item 4, and not INVALID_ARG of item 3 (DEDUCED, log entry 49). -/
def mbResolve : MbFun := fun _ p s => checked 48 [] p s fun _ =>
  match unitOfPath p with
  | some u => if s.start.handles then (s, okResp (fld 4 (s.handleOf u))) else (s, err notFound { arg := 0 })
  | none => (s, err notFound { arg := 0 })

/-- CHILDREN (R724). -/
def mbChildren : MbFun := fun _ p s => checked 8 [] p s fun _ =>
  let h := arg p 0 4
  match s.unitOf h with
  | none => (s, noHandle 0 h)
  | some u =>
    let l := s.childrenOf u
    let r := (l.drop (arg p 4 4)).take 1022
    (s, okResp (fld 4 l.length ++ fld 4 r.length ++ r.flatMap fun x => fld 4 x))

/-- Temperature band of a package temperature (R265). -/
def bandOf (t : Int) : Nat := if t ≤ 80 then 0 else if t ≤ 85 then 1 else if t ≤ 105 then 2 else 3
/-- Packages of a partition: package n holds CH(4n) to CH(4n+3) (R228). -/
def packagesOf (p : Nat) : List Nat := (List.range 48).filter fun k => ptOfChan (4 * k) = p
/-- The highest band among the packages of a partition; a package not yet read counts as B0. -/
def State.bandOfPt (s : State) (p : Nat) : Nat :=
  ((packagesOf p).map fun k => match s.dies.pkgTemp.get? k with
    | some t => bandOf t
    | none => 0).foldl max 0

/-- STATUS (R47, R265, R298, R574). -/
def mbStatus : MbFun := fun _ p s => checked 4 [] p s fun _ =>
  let h := arg p 0 4
  match s.unitOf h with
  | none => (s, noHandle 0 h)
  | some u =>
    let band := match u with
      | .pt k => s.bandOfPt k
      | _ => 0
    let member := match u with
      | .job k => ((s.jobs.find? (·.serial = k)).map fun j => jobCode j.st).getD 0
      | _ => 0
    (s, okResp (fld 1 (s.unitStatus 4 u) ++ fld 1 (levelOf u) ++ fld 1 band ++ fld 1 member ++ fld 8 s.cyc))

/-- COUNTERS (R50, R171, R173). -/
def mbCounters : MbFun := fun _ p s => checked 4 [] p s fun _ =>
  let h := arg p 0 4
  match s.unitOf h with
  | none => (s, noHandle 0 h)
  | some _ =>
    let us := (s.expand h).filterMap s.unitOf
    (s.restartQmax h (us.flatMap s.tileOfUnit), okResp (s.countersResp h us))

/-- The first repeat in a list of handles: its position. -/
def firstRepeat (l : List Nat) : Option Nat :=
  (List.range l.length).find? fun i => (l.take i).contains (l.getD i 0)

/-- GROUP_CREATE (R36, R37, R725). -/
def mbGroupCreate : MbFun := fun _ p s =>
  let n := arg p 0 2
  if p.length < 4 ∨ n < 1 ∨ 64 < n then (s, err invalid { arg := 0 })
  else checked (4 + 4 * n) [(2, 2)] p s fun _ =>
    let ms := (List.range n).map fun i => arg p (4 + 4 * i) 4
    match firstRepeat ms with
    | some i => (s, err invalid { arg := 4 + 4 * i, handle := ms.getD i 0 })
    | none =>
      match (List.range n).find? fun i => (s.unitOf (ms.getD i 0)).isNone with
      | some i => (s, noHandle (4 + 4 * i) (ms.getD i 0))
      | none =>
        match (List.range n).find? fun i => decide (4 ≤ s.depthOf 5 (ms.getD i 0)) with
        | some i => (s, err invalid { arg := 4 + 4 * i, handle := ms.getD i 0 })
        | none =>
          if 1024 ≤ s.groups.length then (s, err noResource)
          else
            let h := s.hword 8 s.newSerial
            ({ s.tookSerial with groups := s.groups ++ [⟨h, ms⟩] }, okResp (fld 4 h))

/-- GROUP_EDIT (R36, R37, R725, R726). -/
def mbGroupEdit : MbFun := fun _ p s => checked 12 [(5, 3)] p s fun _ =>
  let h := arg p 0 4
  let op := arg p 4 1
  let m := arg p 8 4
  if 1 < op then (s, err invalid { arg := 4 })
  else if (s.unitOf h).isNone then (s, noHandle 0 h)
  else if (s.unitOf m).isNone then (s, noHandle 8 m)
  else if s.unitOf h ≠ some (.group h) then (s, err unsupported { handle := h })
  else
    let cur := s.membersOf h
    let set (l : List Nat) : State := { s with groups := s.groups.map fun g => if g.handle = h then { g with members := l } else g }
    if op = 0 then
      let t := set (cur ++ [m])
      if s.reaches 5 m h then (s, err invalid { arg := 8, handle := m })
      else if t.groups.any (fun g => decide (4 < t.depthOf 6 g.handle)) then (s, err invalid { arg := 8, handle := m })
      else if cur.contains m then (s, err conflict { arg := 8, handle := m })
      else if 64 ≤ cur.length then (s, err noResource { handle := h })
      else (t, okResp [])
    else if !cur.contains m then (s, err conflict { arg := 8, handle := m })
    else (set (cur.filter (· ≠ m)), okResp [])

/-- GROUP_DELETE (R43, R298). -/
def mbGroupDelete : MbFun := fun _ p s => checked 4 [] p s fun _ =>
  let h := arg p 0 4
  if (s.unitOf h).isNone then (s, noHandle 0 h)
  else if s.unitOf h ≠ some (.group h) then (s, err unsupported { handle := h })
  else (({ s with groups := s.groups.filter (·.handle ≠ h) }).dropHandle h, okResp [])

/-- Milliseconds of arithmetic cycles. -/
def msOf (cyc : Nat) : Nat := cyc / 1800000 % 2 ^ 32

/-- START_STATUS (R704). -/
def mbStartStatus : MbFun := fun _ p s => checked 0 [] p s fun _ =>
  let st := s.start
  (s, okResp (fld 1 st.stage ++ fld 1 st.kind
    ++ fld 1 ((if s.mgmt.fwRecovery then 1 else 0) + (if s.mgmt.defaulted then 2 else 0) + (if st.repairLost then 4 else 0)
        + (if s.mgmt.testMode then 8 else 0))
    ++ fld 1 st.halt ++ fld 4 (msOf (s.clk.life - s.clk.zero)) ++ fld 4 (msOf (s.clk.life - s.clk.stageZero))
    ++ fld 1 (unbits ((List.range 8).filter fun k => (s.pt k).pg)) ++ rsvd 1
    ++ fld 2 (s.chans.filter fun c => c.trained && !c.broke).length ++ fld 2 (s.chans.filter (·.broke)).length
    ++ fld 4 (unbits ((List.range 18).filter fun k => decide ((s.port k).st = .up)))
    ++ fld 2 (s.sheets.foldl (fun a x => a + x.broke.length) 0) ++ rsvd 2
    ++ st.doneMs.flatMap (fun d => fld 4 d) ++ rsvd 2))

/-- IDENTIFY of the host. -/
def execIdentify (p : Payload) (s : State) : Host.Outcome State Fault Refusal := nextOf s (hostCmd .q 0x0001 mbIdentify p s)
/-- OP_STATUS of the host. -/
def execOpStatus (p : Payload) (s : State) : Host.Outcome State Fault Refusal := nextOf s (hostCmd .q 0x0002 mbOpStatus p s)
/-- DESCRIBE of the host. -/
def execDescribe (p : Payload) (s : State) : Host.Outcome State Fault Refusal := nextOf s (hostCmd .q 0x0003 mbDescribe p s)
/-- RESOLVE of the host. -/
def execResolve (p : Payload) (s : State) : Host.Outcome State Fault Refusal := nextOf s (hostCmd .q 0x0004 mbResolve p s)
/-- CHILDREN of the host. -/
def execChildren (p : Payload) (s : State) : Host.Outcome State Fault Refusal := nextOf s (hostCmd .q 0x0005 mbChildren p s)
/-- STATUS of the host. -/
def execStatus (p : Payload) (s : State) : Host.Outcome State Fault Refusal := nextOf s (hostCmd .q 0x0006 mbStatus p s)
/-- COUNTERS of the host. -/
def execCounters (p : Payload) (s : State) : Host.Outcome State Fault Refusal := nextOf s (hostCmd .q 0x0007 mbCounters p s)
/-- GROUP_CREATE of the host. -/
def execGroupCreate (p : Payload) (s : State) : Host.Outcome State Fault Refusal := nextOf s (hostCmd .f 0x0008 mbGroupCreate p s)
/-- GROUP_EDIT of the host. -/
def execGroupEdit (p : Payload) (s : State) : Host.Outcome State Fault Refusal := nextOf s (hostCmd .f 0x0009 mbGroupEdit p s)
/-- GROUP_DELETE of the host. -/
def execGroupDelete (p : Payload) (s : State) : Host.Outcome State Fault Refusal := nextOf s (hostCmd .f 0x000A mbGroupDelete p s)
/-- START_STATUS of the host. -/
def execStartStatus (p : Payload) (s : State) : Host.Outcome State Fault Refusal := nextOf s (hostCmd .q 0x000B mbStartStatus p s)

end Sys2Proof.Machine
end

