-- ==== Sys2Proof/Machine/Fabric.lean ====
section
/-!
DEFINITION. Fabric packets (R538–R549) and the sending of membership packets (R577, R578).
-/
namespace Sys2Proof.Machine

/-- Header, payload and CRC-32C trailer of a packet (R539). -/
def packetBytes (p : Packet) (hops : Nat) : List Byte :=
  let b := le 1 p.typ ++ le 1 p.vc ++ le 1 p.flags ++ le 1 hops ++ le 2 p.dst ++ le 2 p.src ++ le 4 p.jobTag ++ le 2 p.coll
    ++ le 1 p.attempt ++ le 1 0 ++ le 8 p.step ++ le 4 p.pkt ++ le 2 p.payload.length ++ le 2 0 ++ p.payload
  b ++ le 4 (crc32c b)

/-- Flits of a packet of so many bytes (R538). -/
def flitsOf (n : Nat) : Nat := (n + 255) / 256

/-- The Ethernet II frame that carries a packet, without its frame check sequence (R548). -/
def FPort.frameBytes (x : FPort) (dst src vc : Nat) (b : List Byte) : List Byte :=
  let mac (a : Nat) : List Byte := [2, 0, 0, 0, BitVec.ofNat 8 (a / 256), BitVec.ofNat 8 a]
  let be2 (v : Nat) : List Byte := [BitVec.ofNat 8 (v / 256), BitVec.ofNat 8 v]
  mac dst ++ mac src ++ be2 0x8100 ++ be2 (vc / 2 * 2 ^ 13 + x.vid) ++ be2 x.etherType ++ b

/-- Put packet bytes on a port: at once where credits for every flit are held and nothing of the VC waits, else into its queue (R538). An
Ethernet-mode port has no credits (R547, R548). -/
def State.transmit (s : State) (port : Nat) (b : List Byte) : State :=
  let p := s.port port
  let vc := (b.getD 1 0).toNat % 16
  if p.eth then
    (s.emit (.packet port (p.frameBytes (unle ((b.drop 4).take 2)) (unle ((b.drop 6).take 2)) vc b))).portCount port 0 1
  else
    let need := flitsOf b.length
    if need ≤ p.credits.getD vc 0 ∧ !(p.txq.any fun x => (x.getD 1 0).toNat % 16 = vc) then
      ((s.modPort port fun q => { q with credits := q.credits.modify vc (· - need) }).emit (.packet port b)).portCount port 0 1
    else s.modPort port fun q => { q with txq := q.txq ++ [b] }

/-- Send what waits on a port as far as credits allow, each VC in order (R538). -/
def State.drainPort (s : State) (port : Nat) : State :=
  let waiting := (s.port port).txq
  waiting.foldl (fun a b => a.transmit port b) (s.modPort port fun q => { q with txq := [] })

/-- One of the fabric log classes 0x0601–0x067F: at most once per port, class and second (R570). -/
def State.logFabric (s : State) (cls port : Nat) (body : List Byte) : State :=
  let k := port * 0x10000 + cls
  match s.logs.fabricAt.get? k with
  | some t => if s.clk.life < t + cycPerSec then s
    else State.logErr { s with logs := { s.logs with fabricAt := s.logs.fabricAt.set k s.clk.life } } cls {} body
  | none => State.logErr { s with logs := { s.logs with fabricAt := s.logs.fabricAt.set k s.clk.life } } cls {} body

/-- Discard a packet on its way (R544): FWD_DROP on the port it came by, or on the port its route names when it starts here. -/
def State.fwdDrop (s : State) (port dst : Nat) : State :=
  if port < 18 then (s.portCount port 6 1).logFabric 0x0603 port (le 1 port ++ le 1 0 ++ le 2 dst) else s

/-- JOB_TAG of a job. -/
def Job.tag (j : Job) : Nat := j.id % 2 ^ 32

/-- A restart of the job is being formed or carried out (R599, R600). -/
def Job.restarts (j : Job) : Bool := decide (j.st = .restarting) || (decide (j.st = .forming) && (j.joiner || decide (j.k ≠ 0)))
/-- EPOCH of the packets a member sends and takes: one more than the job's while it restarts (R600). -/
def Job.wireEpoch (j : Job) : Nat := if j.restarts then j.epoch + 1 else j.epoch

/-- A packet that matches nothing on this module is counted in STALE_PKTS of the context it names, and logged (R556, R570, R578). -/
def State.stale (s : State) (k : Packet) : State :=
  let s1 := s.logFabric 0x0602 k.port (le 1 k.port ++ le 1 0 ++ le 2 k.coll ++ le 8 k.step)
  let c := match s.jobs.find? fun j => decide (j.tag = k.jobTag) with
    | some j => some j.ctx
    | none => (List.range 64).find? fun c => decide (k.typ ≠ 8) && (s.ctx c).colls.any fun d => decide (d.id = k.coll)
  match c with
  | some c => s1.ctxCount c 0x0D04 1
  | none => s1

/-- A MEMBER packet matches a job: JOB_TAG, JOB_HI and EPOCH (R578). -/
def Job.hears (j : Job) (k : Packet) : Bool :=
  decide (k.typ = 8 ∧ j.tag = k.jobTag ∧ unle ((k.payload.drop 12).take 4) = j.id / 2 ^ 32 ∧ unle ((k.payload.drop 8).take 4) = j.wireEpoch)

/-- A packet for this module waits for its own step; a HEARTBEAT has none (R543, R578). A MEMBER packet of a job from one of its members is heard
as it arrives (R579). -/
def State.deliverPacket (s0 : State) (k : Packet) : State :=
  let r := unle ((k.payload.drop 2).take 2)
  let heard (j : Job) : Job := if j.hears k ∧ j.addrs.getD r 0x10000 = k.src then { j with heard := j.heard.set r s0.clk.life } else j
  let s : State := { s0 with jobs := s0.jobs.map heard }
  if k.typ = 8 ∧ unle (k.payload.take 1) = 1 then (if s0.jobs.any (·.hears k) then s else s.stale k)
  else { s with rxq := s.rxq ++ [k] }

/-- Send a packet of this module's own on the port its route names (R536, R542–R544, R549). The DATELINE step of R543 is applied at the
sender too. One to its own address is delivered here, whatever the route (R542, R543); with no route there is no port to count on (log entry 31). -/
def State.sendPacket (s : State) (p : Packet) : State :=
  if s.fabAddr = 0xFFFF then s
  else if p.dst = s.fabAddr then s.deliverPacket { p with port := 0xFF, src := s.fabAddr }
  else
    let e := s.route p.dst
    let port := e % 256
    let vc := if (e / 256).testBit 0 ∧ p.vc % 2 = 0 then p.vc + 1 else p.vc
    if port = 0xFF ∨ 18 ≤ port then s
    else if (s.port port).st ≠ .up ∨ ((s.port port).eth ∧ p.typ < 3) then s.fwdDrop port p.dst
    else s.transmit port (packetBytes { p with vc := vc, src := s.fabAddr } (s.settingNat 0x0B))

/-! ### Training of a port (R534, R535) -/

/-- Mark a lane broke: recorded, and logged as LANE_BROKE (R535, R570). -/
def State.breakLane (s : State) (p lane cause : Nat) : State :=
  if (s.port p).broke.getLsbD lane then s
  else (((s.modPort p fun x => { x with broke := x.broke ||| BitVec.ofNat 4 (2 ^ lane) }).addRepair 0x15 cause (p * 256 + lane) 0).logFabric
    0x0605 p (le 1 p ++ le 1 lane ++ le 1 cause ++ le 1 0))

/-- The lanes a port runs on (R534): all four, or the half whose lanes are all good. -/
def widthOf (good : BitVec 4) : BitVec 4 :=
  if good = 0xF#4 then 0xF#4 else if good &&& 3#4 = 3#4 then 3#4 else if good &&& 12#4 = 12#4 then 12#4 else 0#4

/-- One lane's result of a training (R535): the lane's list holds `life` + 1 of each failure, newest first, and 0 for a success between. -/
def State.trainLane (s : State) (p lane : Nat) (good : Bool) : State :=
  let old := (s.port p).trainFails.getD lane []
  let day := old.filter fun t => decide (t ≠ 0) && decide (s.clk.life < t + 24 * 3600 * cycPerSec)
  let put (l : List Nat) : State := s.modPort p fun x => { x with trainFails := x.trainFails.set lane l }
  if good then put (0 :: day)
  else
    let s1 := put ((s.clk.life + 1) :: (if old.headD 0 = 0 then 0 :: day else day))
    if old.headD 0 ≠ 0 ∨ 2 ≤ day.length then s1.breakLane p lane 7 else s1

/-- A training of a port ends with the lanes that trained (R534–R537): UP at a width with full credits, or FAILED. -/
def State.trainPort (s : State) (p : Nat) (lanes : BitVec 4) (peer : W16) (peerPort : Byte) : State :=
  let was := (s.port p).broke
  let s1 := (List.range 4).foldl (fun a k => if was.getLsbD k then a else a.trainLane p k (lanes.getLsbD k)) s
  let x := s1.port p
  let w := widthOf (lanes &&& ~~~was)
  let dead := x.broke &&& 3#4 ≠ 0#4 ∧ x.broke &&& 12#4 ≠ 0#4
  let st : PortState := if w = 0#4 ∨ dead then .failed else .up
  let s2 := s1.modPort p fun y =>
    { y with st := st, lanes := if st = .up then w else 0, peer := if st = .up ∧ !y.eth then peer else 0xFFFF#16
             peerPort := if st = .up ∧ !y.eth then peerPort else 0, credits := List.replicate 16 (if st = .up ∧ !y.eth then 256 else 0)
             vid := if y.eth then s.settingNat 0x0C else y.vid, etherType := if y.eth then s.settingNat 0x0D else y.etherType
             retrain := false, excess := y.excess.map fun e => (e.1, e.2.1, true) }
  s2.drainPort p

/-- A port leaves UP for a retraining: what waits on it is discarded with its link (R535). -/
def State.startTraining (s : State) (p : Nat) : State :=
  s.modPort p fun x => { x with st := .training, lanes := 0, peer := 0xFFFF#16, peerPort := 0, credits := List.replicate 16 0, txq := [] }

/-! ### Membership packets (R577, R578) -/

/-- A MEMBER packet of a job to a rank (R539, R577). -/
def Job.packet (j : Job) (rank step attempt : Nat) (pay : List Byte) : Packet :=
  { port := 0, typ := 8, vc := 15, flags := 0, dst := j.addrs.getD rank 0xFFFF, src := 0, jobTag := j.tag, coll := 0
    attempt := attempt % 256, step := step, pkt := 0, payload := pay }

/-- Send a MEMBER packet of job `id` to a rank with STEP and ATTEMPT given: SEQ rises, and all but HEARTBEAT and ACK await an ACK. -/
def State.memberSendAt (s : State) (id sub rank step attempt : Nat) (body : List Byte) : State :=
  match s.job? id with
  | none => s
  | some j =>
    let pay := le 1 sub ++ le 1 0 ++ le 2 j.rank ++ le 4 j.seq ++ le 4 j.wireEpoch ++ le 4 (j.id / 2 ^ 32) ++ body
    let s1 := s.modJob id fun y => { y with
      seq := (y.seq + 1) % 2 ^ 32
      unacked := if sub = 1 ∨ sub = 7 then y.unacked else y.unacked ++ [⟨y.seq, rank, pay, 0, step, attempt, s.clk.life⟩] }
    s1.sendPacket (j.packet rank step attempt pay)

/-- Send a MEMBER packet of job `id` to a rank, with STEP and ATTEMPT as R556 sets them. -/
def State.memberSend (s : State) (id sub rank : Nat) (body : List Byte) : State :=
  match s.job? id with
  | none => s
  | some j => s.memberSendAt id sub rank ((s.ctx j.ctx).step + 1) (s.ctx j.ctx).attempt body

/-- Send to each of a list of ranks. -/
def State.memberSendAll (s : State) (id sub : Nat) (ranks : List Nat) (body : List Byte) : State :=
  ranks.foldl (fun a r => a.memberSend id sub r body) s

/-- LEAVE to the tree neighbours, and EXCLUDED (R581). -/
def State.leaveJob (s : State) (id cause : Nat) : State :=
  match s.job? id with
  | none => s
  | some j =>
    let s1 := if j.st = .active ∨ j.st = .voting ∨ j.st = .broken ∨ j.st = .restarting then
      s.memberSendAll id 6 j.neighbours (le 1 cause ++ zeros 7) else s
    s1.modJob id fun y => { y with st := .excluded }

/-- The job states in which a context takes part in per-step votes. -/
def State.activeJob (s : State) (c : Nat) : Option Job := s.jobs.find? fun j => decide (j.ctx = c) && decide (j.st = .active)

/-- The job keys and the rank under which a context's armed regions are compared, whatever the state of its job (R479, R483, R484): JOB_ID, EPOCH and
RANK, zero for a context in no job. -/
def State.replicaJob (s : State) (c : Nat) : Nat × Nat × Nat :=
  match s.jobs.find? (·.ctx = c) with
  | some j => (j.id, j.epoch, j.rank)
  | none => (0, 0, 0)

end Sys2Proof.Machine
end

