-- ==== Sys2Proof/Machine/CtxOps.lean ====
section
/-!
DEFINITION. Shared operations over contexts, queues and entries: outcomes, the end of a RUN, faults, waits on sync objects, the release of
partitions, and the fences that take effect there (R313–R353, R400, R413, R500, R522).
-/
namespace Sys2Proof.Machine

/-! ### Entries (R335) -/

/-- A little-endian field of an entry. -/
def Entry.fld (e : Entry) (off n : Nat) : Nat := unle ((e.bytes.drop off).take n)
/-- OPCODE. -/
def Entry.opcode (e : Entry) : Nat := e.fld 0 1
/-- FLAGS bit: 7 IRQ, 6 FENCE, 5 WAIT, 4 SIGNAL. -/
def Entry.flag (e : Entry) (i : Nat) : Bool := (e.fld 1 1).testBit i
/-- Bytes of an entry, as a 64 B slot holds them. -/
def slotBytes (b : List Byte) : List Byte := padTo 64 b

/-- The next entry of a queue to start: the first that has neither started nor ended (R328). -/
def Queue.headEntry (q : Queue) : Option Entry := q.ents.find? fun e => !e.started && e.outcome.isNone
/-- The entry with a sequence number. -/
def Queue.entry? (q : Queue) (n : W32) : Option Entry := q.ents.find? (·.n = n)
/-- The queue holds an entry that has not completed, fetched or only covered by DB_TAIL (R317, R327); a TAIL that was set back covers none (R332). -/
def Queue.unfinished (q : Queue) : Bool :=
  (decide (q.tail ≠ q.fetch) && !(q.tail - q.fetch).msb) || q.ents.any fun e => !e.complete
/-- FEEDs that a rollback has had re-executed and whose data has not landed again (R348). -/
def Queue.redoing (q : Queue) : List W32 :=
  q.redo.filter fun n => match q.entry? n with
    | some e => e.outcome.isNone && !e.marks.any (·.2)
    | none => false
/-- INFLIGHT (R330). -/
def Queue.inflight (q : Queue) : Nat := (q.ents.filter fun e => e.started && !e.complete).length
/-- A context has an unfinished entry. -/
def Context.unfinished (x : Context) : Bool := x.queues.any Queue.unfinished

/-- Change an entry of a queue. -/
def State.modEntry (s : State) (c k : Nat) (n : W32) (f : Entry → Entry) : State :=
  s.modQueue c k fun q => { q with ents := q.ents.map fun e => if e.n = n then f e else e }

/-- The work of an entry is done with an outcome; ENTRY_COMPLETE writes its record. -/
def State.setOutcome (s : State) (c k : Nat) (n : W32) (d : Done) : State :=
  s.modEntry c k n fun e => if e.outcome.isNone then { e with outcome := some d } else e

/-- An entry ends in error with a detail (R351). -/
def failed (st : Nat) (d : Detail := {}) (reason : Nat := 0) : Done := { status := st, reason := reason, detail := d.bytes }
/-- The conflict of a context state (R303). -/
def stateFailed (st : CtxState) : Done := failed conflict { kind := 2, state := ctxCode st }

/-- End every started entry of engine `eng` of a context for which `sel` holds, unless it has an outcome. -/
def State.endEntries (s : State) (c eng : Nat) (sel : Entry → Bool) (d : Done) : State :=
  (List.range 4).foldl (fun a q => a.modQueue c (4 * eng + q) fun x =>
    { x with ents := x.ents.map fun e => if e.started && e.outcome.isNone && sel e then { e with outcome := some d } else e }) s

/-! ### Queue stops (R333) -/

/-- Stop a queue with a cause: entries not started are discarded and FETCH goes back to the first of them. -/
def State.stopQueue (s : State) (c k cause : Nat) : State :=
  let q := s.queue c k
  let f : W32 := match q.ents.find? fun e => !e.started && e.outcome.isNone with
    | some e => e.n
    | none => q.fetch
  let s1 := s.modQueue c k fun x =>
    { x with stopped := true, cause := cause, fetch := f, ents := x.ents.filter fun e => e.started || e.outcome.isSome }
  if 3 ≤ cause ∧ cause ≤ 5 then
    s1.logErr 0x0403 {} (le 1 c ++ le 1 (k / 4) ++ le 1 (k % 4) ++ le 1 cause ++ le 4 f.toNat ++ le 4 q.tail.toNat)
  else s1

/-- Stop every queue of a context. -/
def State.stopQueues (s : State) (c cause : Nat) : State := (List.range 16).foldl (fun a k => a.stopQueue c k cause) s

/-! ### Waiters on sync objects (R400, R411, R413) -/

/-- An unstarted head entry that waits on ID `id` in context `c`, with its queue. -/
def State.waiters (s : State) (c : Nat) (sel : Nat → Bool) : List (Nat × Entry) :=
  (List.range 16).filterMap fun k =>
    match (s.queue c k).headEntry with
    | some e => if e.flag 5 ∧ sel (e.fld 8 2) then some (k, e) else none
    | none => none

/-- The condition of an entry's WAIT holds (R336, R396): its ID VALID and its counter there, or met before its object was lost (R411). -/
def State.waitMet (s : State) (c : Nat) (x : Entry) : Bool :=
  !x.flag 5 || x.met || (match s.syncEnt c (x.fld 8 2) with
    | some t => decide (t.st = 1) && reached (s.syncVal t) (BitVec.ofNat 32 (x.fld 0xC 4))
    | none => false)

/-- The waiters of context `c` on the IDs chosen whose condition is met keep it, whatever becomes of the object (R411). -/
def State.keepMet (s : State) (c : Nat) (sel : Nat → Bool) : State :=
  ((s.waiters c sel).filter fun ke => s.waitMet c ke.2).foldl (fun a ke => a.modEntry c ke.1 ke.2.n fun e => { e with met := true }) s

/-- End the waiters of context `c` on the IDs chosen with ORPHANED, but for those whose condition is met already (R400, R411, R413). -/
def State.orphanWaits (s : State) (c : Nat) (sel : Nat → Bool) : State :=
  ((s.waiters c sel).filter fun ke => !s.waitMet c ke.2).foldl
    (fun a ke => (a.setOutcome c ke.1 ke.2.n (failed orphaned)).ctxCount c 0x0A03 1) (s.keepMet c sel)

/-- End every waiter of every context on one physical counter with ORPHANED. -/
def State.orphanCounterWaits (s : State) (pt index : Nat) : State :=
  (List.range 64).foldl (fun a c => a.orphanWaits c fun id =>
    match s.syncEnt c id with
    | some t => decide (t.st ≠ 2 ∧ t.pt = pt ∧ t.index = index)
    | none => false) s

/-- Free an owned counter as R400 says: waiters and imports become ORPHANED. -/
def State.releaseCounter (s : State) (pt index : Nat) : State := (s.orphanCounterWaits pt index).freeCounter pt index

/-- Every counter of a partition is lost: waiters complete ORPHANED and every translation of them is ORPHANED (R413). Counters saved with a
suspended context lie in SYS areas and are kept (R320). -/
def State.loseCounters (s : State) (p : Nat) : State :=
  let saved (ix : Nat) : Bool := s.ctxs.any fun x => decide (x.st = .suspended) && x.sync.any fun e =>
    e.2.owned && decide (e.2.pt = p ∧ e.2.index = ix)
  let lost := (s.pt p).counters.filter fun e => !saved e.1
  let s1 := lost.foldl (fun a e => a.orphanCounterWaits p e.1) s
  let s2 := lost.foldl (fun a e => a.orphan p e.1 fun _ => true) s1
  s2.modPt p fun x => { x with counters := x.counters.filter fun e => saved e.1 }

/-- Imports of the counters context `c` owns take a state (R413): SUSPENDED, or VALID again. -/
def State.markImports (s : State) (c frm dest : Nat) : State :=
  { s with ctxs := s.ctxs.map fun x =>
      { x with sync := x.sync.map fun e => if !e.2.owned ∧ e.2.owner = c ∧ e.2.st = frm then (e.1, { e.2 with st := dest }) else e } }

/-- The objects of context `c` become SUSPENDED in every importer's table; waits met already have succeeded (R411, R413). -/
def State.suspendObjects (s : State) (c : Nat) : State :=
  ((List.range 64).foldl (fun a d => a.keepMet d fun id => match s.syncEnt d id with
    | some t => !t.owned && decide (t.owner = c)
    | none => false) s).markImports c 1 3

/-- They are VALID again, and the program adds that waited for it are made (R413, R414). -/
def State.resumeObjects (s : State) (c : Nat) : State :=
  let s1 := (s.ctx c).heldAdds.foldl (fun (a : State) x =>
    (a.modPt x.1 fun p => { p with counters := p.counters.set x.2.1 (p.counters.getD x.2.1 0 + x.2.2.1) }).ctxCount c 0x0A01 x.2.2.2) s
  (s1.modCtx c fun x => { x with heldAdds := [] }).markImports c 3 1

/-- The partitions of a context that no violation and no reset holds: all that it holds, or those that run on (R201, R517). -/
def Context.going (x : Context) : List Nat := if x.runOn.isEmpty then x.held else x.runOn

/-- A context is SUSPENDING, SUSPENDED or RESUMING (R323, R413). -/
def Context.parked (x : Context) : Bool := decide (x.st = .suspending ∨ x.st = .suspended ∨ x.st = .resuming)

/-! ### The end of a RUN (R338–R341, R345) -/

/-- STOPs that wait complete with OK. -/
def State.endStops (s : State) (c : Nat) : State :=
  ((s.ctx c).stops.foldl (fun a e => a.setOutcome c e.1 e.2 { status := ok }) s).modCtx c fun x => { x with stops := [] }

/-- End the RUN in progress with a reason and a status. -/
def State.endRun (s : State) (c reason status : Nat) : State :=
  match (s.ctx c).run with
  | none => s.endStops c
  | some r =>
    let d : Done := if status = ok ∨ status = degraded then { status := status, reason := reason } else failed status {} reason
    ((s.setOutcome c r.q r.n d).modCtx c fun x => { x with run := none }).endStops c

/-- COVER_STEP of a COPY. -/
def Entry.cover (e : Entry) : Nat := if e.opcode = 0x10 then e.fld 0x38 8 else 0

/-- COPYs that still wait on COVER_STEP complete with ORPHANED (R345). -/
def State.orphanCovers (s : State) (c : Nat) : State :=
  s.endEntries c 1 (fun e => decide (e.cover ≠ 0) && decide ((s.ctx c).step < e.cover)) (failed orphaned)

/-! ### Fences awaiting their point (R522, R525) -/

/-- What FENCE and UNFENCE have left to an installation point takes effect: a fence at one that commits, or with no context bound (R522);
an unfence, its tests passed, at any (R86, R71). -/
def State.applyFences (s : State) (sh : Nat) (commit : Bool) : State :=
  let l := (s.sheet sh).fencePend.filter fun e => commit || !e.2.2.2
  if l.isEmpty then s
  else
    let s1 := l.foldl (fun a e =>
      if e.2.2.2 then (if (a.sheet sh).broke.contains e.2.1 then a else a.fenceCol sh e.2.1 e.2.2.1)
      else a.unfenceCol sh e.2.1 e.2.2.1) s
    s1.modSheet sh fun x => { x with fencePend := x.fencePend.filter fun e => !(commit || !e.2.2.2), reloadPend := true }

/-- FENCE and UNFENCE operations with nothing left to apply anywhere finish with OK. -/
def State.finishFences (s : State) : State :=
  s.running.foldl (fun a o =>
    if (o.code = 0x50 ∨ (o.code = 0x51 ∧ o.kind = 1)) ∧ o.ready.isNone ∧ !(a.sheets.any fun x => x.fencePend.any (·.1 = o.id)) then
      a.readyOp o.id ok []
    else a) s

/-- Everything that waits for an installation point of a sheet takes effect: fences, retirements, reloads (R71, R78, R464, R522). `commit` says
that it is no rollback. -/
def State.installPoint (s : State) (commit : Bool) (sh : Nat) : State :=
  let s1 := (s.applyFences sh commit).retirePending sh
  let due := !(s.sheet sh).pend.isEmpty || (s1.sheet sh).reloadPend
  (((if due then s1.installMap sh (s.sheet sh) else s1)).modSheet sh Sheet.renew).finishFences

/-- The same on every sheet of partitions. -/
def State.installPoints (s : State) (commit : Bool) (pts : List Nat) : State :=
  pts.foldl (fun a p => (sheetsOfPt p).foldl (State.installPoint · commit) a) s

/-- A map reload, a retirement, a fence or an unfence waits on a sheet for an installation point (R66, R464, R522). -/
def Sheet.awaitsPoint (x : Sheet) : Bool := x.reloadPend || !x.pend.isEmpty || !x.fencePend.isEmpty

/-! ### Partitions of a context -/

/-- Couch-in restarts on the sheets of partitions whose bound context changes (R432). -/
def State.recouch (s : State) (pts : List Nat) : State :=
  pts.foldl (fun a p => (sheetsOfPt p).foldl (fun b n => b.modSheet n Sheet.recouch) a) s

/-- Release the partitions a context holds: what waited for its calender points takes effect at once (R71, R522). -/
def State.release (s : State) (c : Nat) : State :=
  let h := (s.ctx c).held
  ((s.modCtx c fun x => { x with held := [] }).installPoints true h).recouch h

/-- Physical tiles of partitions. -/
def onPts (pts : List Nat) (i : Nat) : Bool := pts.contains (ptOfSheet (i / 288))

/-- Return the tiles of partitions to the state of an unconfigured tile, stores kept (R53, R196). -/
def State.unconfigure (s : State) (pts : List Nat) : State :=
  { s with
    tiles := (s.tiles.map fun e => if onPts pts e.1 then
      (e.1, { ({} : Tile) with store := e.2.store, badWords := e.2.badWords, scrub := e.2.scrub, ceRows := e.2.ceRows, marked := e.2.marked
                               spares := e.2.spares, tlm := e.2.tlm, snap := e.2.snap, sending := e.2.sending, portQ := e.2.portQ, ctr := e.2.ctr, wm1 := e.2.wm1, wm2 := e.2.wm2
                               latches := e.2.latches, rx := e.2.rx }) else e).filter fun e => decide (e.2 ≠ {})
    flights := s.flights.filter fun f => !onPts pts f.tile }

/-- Forget the placed program of a context. -/
def Context.noProgram (x : Context) : Context :=
  { x with
    prog := none, flips := [], step := 0, sched := 0, started := false, hold := .stopped, sampled := [], commit := {}, run := none
    stops := [], faults := [], violated := false, rollbacks := 0, attempt := 0
    replicaRb := 0, balanceRb := none, memErrs := [], overdue := false, refreshEnd := false, proAgain := false
    snapWait := false, calAt := 0, commitHold := false, colls := [], armed := [], replicaOk := none, jobOk := none, reads := []
    viols := [], runOn := [] }

/-! ### Faults that end a program (R315, R341, R500, R581) -/

/-- Entries of a context that nothing can carry on once its program has faulted: FEEDs not yet recorded, ONCE collectives, refreshes and
armed comparisons complete ORPHANED (log entry 20). -/
def State.orphanWork (s : State) (c : Nat) : State :=
  let s1 := s.endEntries c 1 (fun e => decide (e.opcode = 0x11)) (failed orphaned)
  let s2 := s1.endEntries c 2 (fun e => decide (e.opcode = 0x20 ∨ e.opcode = 0x21)) (failed orphaned)
  let s3 := s2.endEntries c 3 (fun e => decide (e.opcode = 0x31)) (failed orphaned)
  s3.modCtx c fun x =>
    { x with
      ecWaits := [], armed := [], colls := x.colls.map fun d => { d with running := none }
      queues := x.queues.map fun q => { q with fed := q.taken, fedRec := q.taken, takenRec := q.taken, feeds := [] } }

/-- Enter FAULTED: the RUN ends with the reason, COVER_STEP copies are orphaned, the job is left (R315, R341, R345, R581). A load or a
suspension in progress completes ORPHANED. -/
def State.faultCtx (s : State) (c reason status : Nat) : State :=
  let x := s.ctx c
  if x.st = .free ∨ x.st = .created ∨ x.st = .faulted then s
  else
    let s1 := (s.endRun c reason status).modCtx c fun y =>
      { y with st := .faulted, hold := .stopped, op := none, load := none, suspendDue := false }
    let s2 := match x.op with
      | some o => s1.readyOp o orphaned {}
      | none => s1
    let s3 := (s2.orphanCovers c).orphanWork c
    let s4 := s3.resumeObjects c
    match s4.jobOfCtx c with
    | some j => s4.leaveJob j.id 5
    | none => s4

/-- REASON codes of R341. -/
abbrev rStepLimit : Nat := 1
/-- STOPPED. -/
abbrev rStopped : Nat := 2
/-- REFRESH_CLASS. -/
abbrev rRefresh : Nat := 3
/-- SCHEDULE_VIOLATION. -/
abbrev rViolation : Nat := 4
/-- MEM_LOST. -/
abbrev rMemLost : Nat := 5
/-- HUNG. -/
abbrev rHung : Nat := 6
/-- PARTITION_RESET. -/
abbrev rReset : Nat := 7
/-- JOB_FAULT. -/
abbrev rJob : Nat := 8
/-- REPLICA_DIVERGED. -/
abbrev rReplica : Nat := 9
/-- ROLLBACK_LIMIT. -/
abbrev rRollback : Nat := 10
/-- THERMAL_TRIP. -/
abbrev rThermal : Nat := 11
/-- PROLOGUE_OVERRUN. -/
abbrev rPrologue : Nat := 12

end Sys2Proof.Machine
end

