-- ==== Sys2Proof/Machine/Container.lean ====
section
/-!
DEFINITION. The Tylys container: reading its sections, the validation reasons of R221, and the placement of a program (R175–R221, R254–R260,
R402–R403, R509).
-/
namespace Sys2Proof.Machine

/-- A memory that holds bytes from address 0. -/
def memOf (b : List Byte) : Mem := (b.zipIdx.filter fun x => decide (x.1 ≠ 0)).map fun x => (x.2, x.1)

/-- Why a load fails: status, reason code, EXTRA. -/
structure LoadFail where
  /-- STATUS. -/
  status : Nat
  /-- The reason of R221. -/
  reason : Nat
  /-- EXTRA. -/
  extra : Nat := 0
  deriving DecidableEq, Repr

/-- A failure with a reason code of R221. -/
def because (r : Nat) : LoadFail := ⟨invalid, r, 0⟩

/-- A little-endian field of a byte list. -/
def fieldAt (b : List Byte) (off n : Nat) : Nat := unle ((b.drop off).take n)
/-- Every byte of a range is zero. -/
def zeroAt (b : List Byte) (off n : Nat) : Bool := ((b.drop off).take n).all (· = 0)

/-! ### Sections (R217–R219) -/

/-- The directory: TYPE, OFFSET, LENGTH (R218). -/
def directory (b : List Byte) : List (Nat × Nat × Nat) :=
  (List.range (fieldAt b 0x15 1)).map fun i =>
    let o := 0x100 + 24 * i
    (fieldAt b o 2, fieldAt b (o + 8) 8, fieldAt b (o + 16) 8)

/-- The bytes of a section. -/
def sectionOf (b : List Byte) (t : Nat) : Option (List Byte) :=
  ((directory b).find? (·.1 = t)).map fun e => (b.drop e.2.1).take e.2.2

/-- Records in UNIT_CONFIG format (R218): none where they do not fill the section. -/
def tileRecs : Nat → List Byte → Option (List TileRec)
  | _, [] => some []
  | 0, _ => none
  | f + 1, b =>
    let n := fieldAt b 4 4
    if b.length < 8 + n ∨ !zeroAt b 2 2 then none
    else (tileRecs f (b.drop (8 + n))).map fun r => ⟨fieldAt b 0 1, fieldAt b 1 1, (b.drop 8).take n⟩ :: r

/-- Records of reconfiguration sets, the first of each set with the set's number: a set is a 4 B number and then records in UNIT_CONFIG format
(R218). Nothing says how many records a set has: what follows a record is another of its set where the section can be read so to its end, else the
number of the next set (DESIGN CHOICE, log entry 13). `inSet` says that a set is open. -/
def setRecs : Nat → Bool → List Byte → Option (List (Option Nat × TileRec))
  | _, _, [] => some []
  | 0, _, _ => none
  | f + 1, inSet, b =>
    let next (k : Option Nat) (h : List Byte) : Option (List (Option Nat × TileRec)) :=
      let n := fieldAt h 4 4
      if h.length < 8 + n ∨ !zeroAt h 2 2 then none
      else (setRecs f true (h.drop (8 + n))).map fun r => (k, ⟨fieldAt h 0 1, fieldAt h 1 1, (h.drop 8).take n⟩) :: r
    (if inSet then next none b else none).orElse fun _ => next (some (fieldAt b 0 4)) (b.drop 4)

/-- The sets of a list of records. -/
def groupSets (l : List (Option Nat × TileRec)) : List (Nat × List TileRec) :=
  l.foldl (fun a x => match x.1 with
    | some n => a ++ [(n, [x.2])]
    | none => a.modify (a.length - 1) fun y => (y.1, y.2 ++ [x.2])) []

/-- Entries of a fixed size. -/
def chunks (n : Nat) (b : List Byte) : List (List Byte) := (List.range (b.length / n)).map fun i => (b.drop (n * i)).take n

/-- An entry of a channel list (R254). -/
def slotEnt (b : List Byte) : SlotEnt :=
  let v := unle b
  { slot := bitsOf v 63 42, op := bitsOf v 41 40, side := v.testBit 39, adv := v.testBit 38, ctx := bitsOf v 37 35
    region := bitsOf v 34 28, addr := bitsOf v 27 0 }

/-- Channel lists (R254): none where they do not fill the section or a reserved field is not zero. -/
def chanLists : Nat → List Byte → Option (List ChanList)
  | 0, b => if b.isEmpty then some [] else none
  | f + 1, b =>
    let n := fieldAt b 0 4
    if b.length < 16 + 8 * n ∨ !zeroAt b 12 4 then none
    else (chanLists f (b.drop (16 + 8 * n))).map fun r =>
      ⟨fieldAt b 4 4, fieldAt b 8 4, (chunks 8 ((b.drop 16).take (8 * n))).map slotEnt⟩ :: r

/-! ### Checks of one tile's configuration -/

/-- Operands of a route source code: 1 N, 2 S, 3 E, 4 W, 5 L (R147). -/
def routeOps (code : Nat) : List Nat :=
  [[], [1], [2], [3], [4], [5], [1, 2], [1, 3], [1, 4], [1, 5], [2, 3], [2, 4], [2, 5], [3, 4], [3, 5], [4, 5]].getD code []
/-- The source code of an output of a route entry, outputs numbered as directions: 1 N, 2 S, 3 E, 4 W, 5 L (R146). -/
def routeOut (e dir : Nat) : Nat := e / 2 ^ (4 * (5 - dir)) % 16

/-- Entries of the route table at `base` that are not zero. -/
def routesHeld (m : Mem) (base : Nat) : List Nat :=
  (m.filterMap fun x => if base + 0x840 ≤ x.1 ∧ x.1 < base + 0xA40 then some ((x.1 - base - 0x840) / 4) else none).eraseDups

/-- Route table of the context at `base` of an image, for local tile (r, c) of a grid: every entry the image holds, in force or not (R148). -/
def routesOk (m : Mem) (base : Nat) (r c : Nat) (shape : Nat × Nat) : Bool :=
  (routesHeld m base).all fun i =>
    let e := routeEnt m base i
    (if i % 32 = 31 then decide (e = 0) else true)
      && [1, 2, 3, 4, 5].all (fun d => !(routeOps (routeOut e d)).contains d)
      && decide (([1, 2, 3, 4, 5].filter fun d => decide (6 ≤ routeOut e d)).length ≤ 2)
      && !(r = 0 && routeOut e 1 ≠ 0) && !(r + 1 = shape.2 && routeOut e 2 ≠ 0)
      && !(c + 1 = shape.1 && routeOut e 3 ≠ 0) && !(c = 0 && routeOut e 4 ≠ 0)

/-- The opcode of an issue entry belongs to a tile type: 0 P, 1 M, 2 F, 3 S (R194, R251). -/
def opFits (ty op : Nat) : Bool :=
  decide (op ≤ 4) || (ty = 1 && (op = 0x10 || op = 0x11)) || (ty = 2 && decide (0x20 ≤ op ∧ op ≤ 0x23))
    || (ty = 3 && (op = 0x30 || op = 0x31)) || (ty = 0 && op = 0x40)

/-- Element bytes of a stationary block, or of 32 elements, by FMT (R95, R181). -/
def blockBytes (fmt : Nat) : Nat := if fmt ≤ 4 then 32 else if fmt ≤ 8 then 24 else if fmt = 9 then 16 else if fmt = 10 then 64 else 128
/-- Bytes of the stationary operand of a row of `rb` blocks (R195). -/
def statBytes (fmt rb : Nat) : Nat := 32 * rb * blockBytes fmt + (if fmt ≤ 9 then 32 * rb else 0)

/-- Store addresses of an issue entry lie in its window (R183, R194, R195). -/
def addrOk (m : Mem) (base ty : Nat) (i : Issue) : Bool :=
  let lo := opstBase m base
  let hi := lo + opstLen m base
  if ty = 1 then
    (if i.op = 0x11 then decide (lo ≤ i.arg % 4096 ∧ i.arg % 4096 + i.len ≤ hi)
      else if i.op = 0x10 then
        let sb := bitsOf i.arg 11 0
        let first := if i.arg.testBit 32 then sb - 2 else sb
        decide (lo ≤ first ∧ (i.arg.testBit 32 → 2 ≤ sb) ∧ 64 * sb + statBytes (ctxCtl m base).fmt (bitsOf i.arg 31 20) ≤ 64 * hi)
      else true)
  else if ty = 3 ∧ (i.op = 0x30 ∨ i.op = 0x31) then decide (i.arg % 65536 < opstLen m base)
  else true

/-- Issue sequence of a context (R183, R190, R194): `pro` forbids a LOOP without end (R511). A LOOP whose target lies after it is no loop, and fails
(DESIGN CHOICE, log entry 50). -/
def issueOk (m : Mem) (base ty : Nat) (pro : Bool) : Bool :=
  let last := (ctxCtl m base).issueLast
  let ents := (List.range (last + 1)).map fun n => (n, issueEnt m base n)
  let loops := ents.filterMap fun e => if e.2.op = 3 then some (e.2.arg % 256, e.1) else none
  (if ty = 1 then decide (opstBase m base + opstLen m base ≤ 4096) else if ty = 3 then decide (opstBase m base + opstLen m base ≤ 65536) else true)
    && ents.all (fun e => opFits ty e.2.op && addrOk m base ty e.2)
    && loops.all (fun l => decide (l.1 ≤ l.2))
    && ents.all (fun e => decide ((loops.filter fun l => decide (l.1 ≤ e.1 ∧ e.1 ≤ l.2)).length ≤ 2))
    && !(pro && ents.any fun e => decide (e.2.op = 3) && decide (bitsOf e.2.arg 31 8 = 0xFFFFFF))

/-- FMT codes and MX4 rows of an M-tile context (R181, R221 reason 0x05). -/
def pairingOk (m : Mem) (base ty : Nat) : Bool :=
  let c := ctxCtl m base
  if ty = 1 then decide (c.fmt < 0xC) && (List.range (c.issueLast + 1)).all fun n =>
      let i := issueEnt m base n
      !(c.fmt = 9 && i.op = 0x10 && decide (bitsOf i.arg 31 20 % 2 = 1))
  else true

/-- A programmable table header's BASE is finite (R129). -/
def tablesOk (m : Mem) (ty len : Nat) : Bool :=
  if ty = 2 then (List.range 4).all fun k =>
    let o := 0x6400 + 2056 * k
    if o + 8 ≤ len then decide (bitsOf (m.nat o 8) 62 55 ≠ 0xFF) else true
  else true

/-- Valid contexts of a configuration image. -/
def validCtxs (m : Mem) : List Nat := (List.range 8).filter fun k => (ctxValid m).testBit k

/-- A program with a predicated region has each stage of one: a true body, a false body and a select stage (R206; which contexts make one region, the
container does not say: DEDUCED, log entry 50). -/
def regionStages (branches : List Nat) : Bool := branches.all (· = 0) || [1, 2, 3].all branches.contains

/-- Checks of UNIT_CONFIG or of a reconfiguration image, in the order of the reason codes (R221): the first failing reason. With CTX_VALID 0 the image
has no context to check, but its route tables and its programmable tables are held to R148 and R129 all the same. -/
def tileReason (foldPer : Nat) (predicated : Bool) (f : Nat) (shape : Nat × Nat) (t : TileRec) : Option Nat :=
  let m := memOf t.bytes
  let ty := tileType (t.row % 16)
  let cs := validCtxs m
  let b := ctxBase
  if !cs.isEmpty && (decide (foldPeriod m ≠ foldPer) || !(foldEnts m).all (fun e => cs.contains e.1)
      || (decide (f = 1) && (decide (foldLast m ≠ 0) || decide (foldEnt m 0 ≠ (0, 32))))) then some 0x03
  else if cs.any (fun k => decide (3 ≤ (ctxCtl m (b k)).period)) || !(List.range 8).all (fun k => routesOk m (b k) t.row t.col shape) then some 0x04
  else if !cs.all (fun k => pairingOk m (b k) ty) then some 0x05
  else if (List.range 8).any (fun q => decide (1 < (cs.filter fun k => decide (qBound m (b k) q ≠ 0)).length)
      || cs.any fun k => decide (64 < qBound m (b k) q)) then some 0x06
  else if cs.any (fun k => decide ((ctxCtl m (b k)).branch ≠ 0) && (!predicated || decide (f = 1)))
      || cs.any (fun k =>
        let c := ctxCtl m (b k)
        (decide (c.branch = 1) || decide (c.branch = 2)) && (List.range (c.issueLast + 1)).any fun n => decide ((issueEnt m (b k) n).op = 0x11))
      then some 0x07
  else if !cs.all (fun k => issueOk m (b k) ty false) then some 0x0A
  else if !tablesOk m ty t.bytes.length then some 0x0D
  else none

/-- A record of a configuration image fits its tile (R178). -/
def recFits (shape : Nat × Nat) (t : TileRec) : Bool :=
  decide (t.row < shape.2 ∧ t.col < shape.1 ∧ t.bytes.length ≤ (if tileType (t.row % 16) = 2 then 0x8420 else 0x6400))
/-- No tile stands twice in a list of records. -/
def distinctTiles (l : List TileRec) : Bool := ((l.map fun t => (t.row, t.col)).eraseDups.length == l.length)

/-! ### The memory schedule (R246–R256) -/

/-- A slot index is reserved for refresh (R247). -/
def reservedSlot (classN : Bool) (j : Nat) : Bool := decide (j % 25 = 24) || (!classN && decide (j % 25 = 11))
/-- `n` slots from `j` that are not reserved. -/
def freeSlots (classN : Bool) : Nat → Nat → Nat → List Nat
  | 0, _, _ => []
  | _, 0, _ => []
  | f + 1, n + 1, j => if reservedSlot classN j then freeSlots classN f (n + 1) (j + 1) else j :: freeSlots classN f n (j + 1)
/-- Slots an entry occupies (R248). -/
def occupied (classN : Bool) (e : SlotEnt) : List Nat :=
  e.slot :: freeSlots classN 64 (if e.op = 0 then 1 else 15) (e.slot + 1)
/-- Data words of an entry with the slot of each (R248). -/
def dataSlots (classN : Bool) (e : SlotEnt) : List Nat :=
  let o := occupied classN e
  if e.op = 2 then o.take 15 else o.drop 1
/-- Words an entry moves. -/
def entWords (e : SlotEnt) : Nat := if e.op = 0 then 1 else 15
/-- Largest advance of a list (R256). -/
def maxAdvance (l : ChanList) : Nat := if l.win = 0 then 0 else l.win - Nat.gcd l.stride l.win
/-- An attach byte is in range: bit 6 zero, PIN odd and at most 47 with MESH 1, zero with MESH 0 (R243, R254, R256). -/
def attachByteOk (b : Byte) : Bool :=
  let pin := b.toNat % 64
  !b.getLsbD 6 && (if b.getLsbD 7 then decide (pin % 2 = 1 ∧ pin ≤ 47) else decide (pin = 0))

/-- First word of copy A of a region on every channel, its length, and DELTA, in words (R258, R260). -/
def regionWords (n : Nat) (r : Region) : Nat × Nat × Int :=
  let w (x : Nat) : Nat := x / (64 * max 1 n)
  (w r.baseA, w r.len, if r.double then (w r.baseB : Int) - w r.baseA else 0)

/-- FORMAT checks of the lists (R254, R256). -/
def listsFormat (classN : Bool) (sp : Nat) (l : ChanList) : Bool :=
  decide (l.stride % 15 = 0 ∧ l.win % 15 = 0)
    && !(l.ents.any (·.adv) && l.win = 0)
    && l.ents.all (fun e => decide (e.slot < sp ∧ e.op < 3) && !(e.region = 127 && e.side) && !reservedSlot classN e.slot
      && (e.op = 0 || decide (e.addr % 15 = 0)))
    && ((l.ents.zip (l.ents.drop 1)).all fun x => decide (x.1.slot < x.2.slot))
    && (let o := l.ents.flatMap fun e => (occupied classN e).map (· % sp)
        o.eraseDups.length == o.length)

/-- Region checks of the lists (R259). -/
def listsRegion (n : Nat) (regs : List Region) (l : ChanList) : Bool :=
  l.ents.all (fun e =>
      if e.region = 127 then true
      else match regs[e.region]? with
        | none => false
        | some r =>
          let w := regionWords n r
          (e.op ≠ 2 || (r.double && e.side && !e.adv)) && decide (w.1 ≤ e.addr ∧ e.addr < w.1 + w.2.1))
    && (List.range regs.length).all fun i =>
      match regs[i]? with
      | none => true
      | some r => !r.double || (let w := regionWords n r
          (List.range (w.2.1 / 15)).all fun g => l.ents.any fun e =>
            decide (e.op = 2 ∧ e.region = i ∧ e.addr = w.1 + 15 * g) && e.side && !e.adv)

/-- Allocation checks of the lists (R256). -/
def listsAlloc (lenG n : Nat) (regs : List Region) (l : ChanList) : Bool :=
  l.ents.all fun e =>
    let w := e.addr + (if e.adv then maxAdvance l else 0)
    let delta : Int := if e.region = 127 then 0 else match regs[e.region]? with
      | some r => (regionWords n r).2.2
      | none => 0
    decide (w + entWords e ≤ 15 * lenG) && decide (0 ≤ (w : Int) + delta ∧ (w : Int) + delta + entWords e ≤ 15 * lenG)

/-! ### Reading a container -/

/-- A committed region entry (R257). -/
def regionOf (b : List Byte) : Region := ⟨fieldAt b 0 8, fieldAt b 8 8, fieldAt b 16 8, decide (fieldAt b 24 1 = 2)⟩
/-- A sync map entry (R402). -/
def syncEntOf (b : List Byte) : SyncMapEnt :=
  ⟨fieldAt b 0 2, fieldAt b 2 1, (fieldAt b 3 1).testBit 0, fieldAt b 4 8, fieldAt b 0x0C 4, fieldAt b 0x10 4, fieldAt b 0x14 4⟩

/-- FORMAT ranges of a sync map entry (R402, R403). -/
def syncEntOk (cal : Nat) (b : List Byte) : Bool :=
  let e := syncEntOf b
  zeroAt b 0x18 8 && decide (fieldAt b 3 1 ≤ 1) &&
    (if e.role = 1 then !e.balance && decide (e.off < cal ∧ e.off % 32 = 0 ∧ 1 ≤ e.stepVal ∧ e.stepVal < 2 ^ 31 ∧ e.init = 0 ∧ e.deadline = 0)
    else if e.role = 2 then !e.balance && decide (e.off = 0 ∧ 1 ≤ e.stepVal ∧ e.stepVal < 2 ^ 31 ∧ e.init ≤ 2 ^ 30 ∧ 1 ≤ e.deadline)
    else if e.role = 3 then decide (e.off = 0 ∧ e.stepVal < 65536 ∧ 1 ≤ e.init ∧ e.init ≤ 2 ^ 30 ∧ e.deadline = 0)
    else false)

/-- Ranges of two copies do not overlap. -/
def apart (a n b m : Nat) : Bool := decide (a + n ≤ b ∨ b + m ≤ a)
/-- The copies of regions with their lengths. -/
def copiesOf (l : List Region) : List (Nat × Nat) := l.flatMap fun r => (r.baseA, r.len) :: (if r.double then [(r.baseB, r.len)] else [])
/-- COMMITTED_REGIONS is consistent (R258). -/
def regionsOk (al : Alloc) (raw : List (List Byte)) : Bool :=
  let l := raw.map regionOf
  let stripe := granuleBytes al.granule * al.nch * al.pts.length
  let cs := copiesOf l
  raw.all (fun b => decide (fieldAt b 24 1 = 1 ∨ fieldAt b 24 1 = 2) && zeroAt b 25 7 && (decide (fieldAt b 24 1 = 2) || zeroAt b 8 8))
    && l.all (fun r => decide (r.baseA % stripe = 0 ∧ r.baseB % stripe = 0 ∧ r.len % stripe = 0))
    && cs.all (fun c => decide (c.1 + c.2 ≤ allocLen al))
    && (List.range cs.length).all (fun i => (List.range i).all fun k => apart (cs.getD i (0, 0)).1 (cs.getD i (0, 0)).2 (cs.getD k (0, 0)).1 (cs.getD k (0, 0)).2)

/-- Calender points of one period, ascending and distinct, as offsets (R219). -/
def calOffsets (l : List Nat) : List Nat := (l.eraseDups).insertionSort (· ≤ ·)
/-- CALENDER reason (R221 0x08). -/
def calenderOk (cal foldPer bound : Nat) (raw : List Nat) : Bool :=
  let o := calOffsets raw
  let next := o.drop 1 ++ (o.take 1).map (· + cal)
  let firstPoint := match o with
    | [] => 0
    | 0 :: b :: _ => b
    | [0] => cal
    | a :: _ => a
  decide (32 ≤ bound ∧ bound ≤ 2 ^ 28 ∧ 0 < foldPer ∧ cal % foldPer = 0 ∧ 0 < cal) && !o.isEmpty
    && o.all (fun x => decide (x < cal ∧ x % foldPer = 0))
    && (o.zip next).all (fun x => decide (x.2 - x.1 ≤ bound ∧ x.2 - x.1 ≤ 2 ^ 28)) && decide (firstPoint ≤ bound ∧ firstPoint ≤ 2 ^ 28)

/-- The verdict on the signature of an image under a key: the one that has been given before, else the one that comes now (R220, R626; log entry 8). -/
def State.sigGood (s : State) (key image : List Byte) (v : Verdict) : Bool :=
  ((s.verdicts.find? fun j => decide (j.key = key ∧ j.image = image)).map (·.good)).getD v.sigOk

/-- A verdict is remembered. -/
def State.judge (s : State) (key image : List Byte) (v : Verdict) : State :=
  if s.verdicts.any fun j => decide (j.key = key ∧ j.image = image) then s
  else { s with verdicts := s.verdicts ++ [⟨key, image, v.sigOk⟩] }

/-- The container key that a container names (R217, R220). -/
def State.contKey (s : State) (b : List Byte) : Option (List Byte) := s.mgmt.keys.getD (fieldAt b 0x34 1) none

/-- Checks 1 and 2 of a load: length and SIGNATURE position, then the signature (R220, R221). -/
def loadFront (s : State) (b : List Byte) (v : Verdict) : Option LoadFail :=
  let dir := directory b
  let sig := dir.find? (·.1 = 0x00FF)
  if b.length < 256 ∨ fieldAt b 8 8 ≠ b.length then some (because 1)
  else match sig with
    | none => some (because 1)
    | some g =>
      if g.2.2 ≠ 4627 ∨ g.2.1 + g.2.2 ≠ b.length ∨ dir.any (fun e => decide (e.1 ≠ 0x00FF) && decide (g.2.1 < e.2.1 + e.2.2)) then some (because 1)
      else match s.contKey b with
        | none => some ⟨integrity, 0, 0⟩
        | some k => if fieldAt b 0x34 1 < 8 ∧ s.sigGood k b v then none else some ⟨integrity, 0, 0⟩

/-- Check 3: the header (R217, R221). -/
def loadHeader (b : List Byte) : Option LoadFail :=
  let cls := fieldAt b 0x10 1
  let f := fieldAt b 0x11 1
  let fp := fieldAt b 0x18 4
  let nsec := fieldAt b 0x15 1
  if fieldAt b 0 4 ≠ 0x534C5954 ∨ fieldAt b 5 1 ≠ 1 ∨ 4 < fieldAt b 4 1 ∨ fieldAt b 6 2 ≠ 256 ∨ 4 ≤ fieldAt b 0x12 2
      ∨ nsec < 6 ∨ 32 < nsec ∨ !zeroAt b 0x16 2 ∨ !zeroAt b 0x35 3 ∨ !zeroAt b 0x40 192 then some (because 1)
  else if (gridSets cls).isEmpty then some (because 2)
  else if f < 1 ∨ 8 < f ∨ fp % 32 ≠ 0 ∨ fp = 0 ∨ 262144 < fp then some (because 3)
  else if fieldAt b 0x1C 4 < 32 ∨ 2 ^ 28 < fieldAt b 0x1C 4 ∨ fieldAt b 0x38 8 % fp ≠ 0 then some (because 8)
  else if fieldAt b 0x14 1 < 1 ∨ 24 < fieldAt b 0x14 1 then some (because 0x0C)
  else none

/-- The sections lie in order, apart, aligned and inside, each type at most once and known (R217, R218). -/
def dirOk (b : List Byte) : Bool :=
  let dir := directory b
  let types := dir.map (·.1)
  decide (0x100 + 24 * dir.length ≤ b.length)
    && types.eraseDups.length == types.length
    && types.all (fun t => [1, 2, 3, 4, 5, 6, 7, 8, 9, 0xFF].contains t) && [1, 3, 5, 6, 7, 0xFF].all (types.contains ·)
    && (List.range dir.length).all (fun i => zeroAt b (0x100 + 24 * i + 2) 6)
    && dir.all (fun e => decide (e.2.1 % 64 = 0 ∧ 0x100 + 24 * dir.length ≤ e.2.1 ∧ e.2.1 + e.2.2 ≤ b.length))
    && (List.range dir.length).all fun i => (List.range i).all fun k =>
      apart (dir.getD i (0, 0, 0)).2.1 (dir.getD i (0, 0, 0)).2.2 (dir.getD k (0, 0, 0)).2.1 (dir.getD k (0, 0, 0)).2.2

/-- What a container's sections hold, or none where one does not have its form. -/
def readProg (b : List Byte) : Option Prog := do
  let n := b.length
  let unit ← tileRecs n ((sectionOf b 1).getD [])
  let oper ← tileRecs n ((sectionOf b 2).getD [])
  let pro ← tileRecs n ((sectionOf b 6).getD [])
  let sets ← setRecs n false ((sectionOf b 9).getD [])
  let cal := (sectionOf b 3).getD []
  let waits := (sectionOf b 4).getD []
  let regs := (sectionOf b 5).getD []
  let mem := (sectionOf b 7).getD []
  let sync := (sectionOf b 8).getD []
  let nreg := fieldAt regs 0 2
  let nsync := fieldAt sync 0 2
  if cal.length % 8 ≠ 0 ∨ (chunks 8 cal).any (fun e => decide (fieldAt e 6 2 ≠ 0)) ∨ waits.length % 16 ≠ 0
      ∨ (chunks 16 waits).any (fun e => !zeroAt e 9 3)
      ∨ 127 < nreg ∨ regs.length ≠ 8 + 32 * nreg ∨ !zeroAt regs 2 6
      ∨ ((sectionOf b 8).isSome ∧ (4096 < nsync ∨ sync.length ≠ 8 + 32 * nsync ∨ !zeroAt sync 2 6))
      ∨ mem.length < 64 ∨ !zeroAt mem 7 1 ∨ !zeroAt mem 0x20 32 then none
  let lists ← chanLists (fieldAt mem 4 1 * fieldAt mem 5 1) (mem.drop 64)
  let flags := fieldAt b 0x12 2
  return {
    cls := fieldAt b 0x10 1, foldF := fieldAt b 0x11 1, predicated := flags.testBit 0, refreshN := flags.testBit 1
    minCh := fieldAt b 0x14 1, foldPeriod := fieldAt b 0x18 4, stepBound := fieldAt b 0x1C 4, pid := (b.drop 0x20).take 16
    keyId := fieldAt b 0x34 1, calPeriod := fieldAt b 0x38 8, cal := calOffsets ((chunks 8 cal).map fun e => fieldAt e 0 8)
    waits := (chunks 16 waits).map fun e => ⟨fieldAt e 0 8, fieldAt e 8 1, fieldAt e 12 4⟩
    regions := (chunks 32 (regs.drop 8)).map regionOf
    syncMap := (chunks 32 (sync.drop 8)).map syncEntOf
    unitCfg := unit, operands := oper, prologue := pro, reconfig := groupSets sets
    slotPeriod := fieldAt mem 0 4, schedNch := fieldAt mem 4 1, nPart := fieldAt mem 5 1, schedGranule := fieldAt mem 6 1
    attach := (mem.drop 8).take 24, lists := lists }

/-- Check 4: the sections, reason by reason (R221, R256–R259, R403). -/
def sectionReason (b : List Byte) (p : Prog) (al : Alloc) : Option Nat :=
  let shape := gridShape p.cls
  let n := al.nch * al.pts.length
  let recs := p.unitCfg ++ p.reconfig.flatMap (·.2)
  let regRaw := chunks 32 (((sectionOf b 5).getD []).drop 8)
  let syncRaw := chunks 32 (((sectionOf b 8).getD []).drop 8)
  let tileR := recs.filterMap (tileReason p.foldPeriod p.predicated p.foldF shape)
  let pro := p.prologue.map fun t => (t, memOf t.bytes)
  let foldMax := (recs.map fun t => if (validCtxs (memOf t.bytes)).isEmpty then 0 else ((foldEnts (memOf t.bytes)).map (·.1)).eraseDups.length).foldl max 0
  let branches := recs.flatMap fun t => (validCtxs (memOf t.bytes)).map fun k => (ctxCtl (memOf t.bytes) (ctxBase k)).branch
  let npart := if p.cls = 1 then 1 else if p.cls = 2 ∨ p.cls = 3 then 2 else if p.cls = 4 then 4 else 8
  if !(p.unitCfg ++ p.operands ++ p.prologue).all (fun t => decide (t.row < shape.2 ∧ t.col < shape.1)) ∨ !p.unitCfg.all (recFits shape)
      ∨ !distinctTiles p.unitCfg ∨ !distinctTiles p.operands ∨ !distinctTiles p.prologue
      ∨ !syncRaw.all (syncEntOk p.calPeriod) ∨ p.slotPeriod % 400 ≠ 0 ∨ p.slotPeriod < 400 ∨ 4194000 < p.slotPeriod
      ∨ p.calPeriod % (6 * p.slotPeriod) ≠ 0 ∨ p.schedNch ≠ p.minCh ∨ p.nPart ≠ npart ∨ 3 < p.schedGranule
      ∨ !p.attach.all attachByteOk ∨ !p.lists.all (listsFormat p.refreshN p.slotPeriod) then some 1
  else if tileR.contains 3 ∨ (p.foldF ≠ foldMax ∧ !p.unitCfg.isEmpty) ∨ (p.foldF = 1 ∧ p.foldPeriod ≠ 32) then some 3
  else if tileR.contains 4 ∨ pro.any (fun t => decide (3 ≤ (ctxCtl t.2 0).period) || !routesOk t.2 0 t.1.row t.1.col shape) then some 4
  else if tileR.contains 5 ∨ pro.any (fun t => !pairingOk t.2 0 (tileType (t.1.row % 16))) then some 5
  else if tileR.contains 6 then some 6
  else if tileR.contains 7 ∨ (p.foldF = 1 ∧ p.predicated) ∨ !regionStages branches then some 7
  else if !calenderOk p.calPeriod p.foldPeriod p.stepBound p.cal then some 8
  else if p.waits.any (fun w => !decide (w.off < p.calPeriod ∧ w.off % 32 = 0 ∧ 1 ≤ w.kind ∧ w.kind ≤ 3)
        || (decide (w.kind = 1) && !decide (4 ≤ w.obj ∧ w.obj ≤ 7))
        || (decide (w.kind = 3) && !p.syncMap.any fun e => decide (e.role = 2 ∧ e.id = w.obj)))
      ∨ p.syncMap.any (fun e => decide (e.role = 2) && !p.waits.any fun w => decide (w.kind = 3 ∧ w.obj = e.id)) then some 9
  else if tileR.contains 0x0A ∨ pro.any (fun t => !issueOk t.2 0 (tileType (t.1.row % 16)) true) then some 0x0A
  else if !regionsOk al regRaw ∨ !p.lists.all (listsRegion n p.regions) ∨ p.prologue.any (fun t => decide (3072 < t.bytes.length))
      ∨ p.reconfig.any (fun r => !distinctTiles r.2 || !r.2.all (recFits shape)) ∨ !(p.reconfig.map (·.1)).Nodup then some 0x0B
  else if tileR.contains 0x0D then some 0x0D
  else if p.schedNch ≠ al.nch ∨ p.schedGranule ≠ al.granule ∨ !p.lists.all (listsAlloc al.lenG n p.regions) then some 0x0E
  else none

/-- Usable channels of a partition for a container's attach declaration (R245). -/
def State.usableChans (s : State) (al : Alloc) (p : Prog) (ptIx : Nat) : Nat :=
  let att := s.setting 0x10
  let declared (k : Nat) : Nat := (p.attach.getD k 0).toNat
  let meets (k : Nat) : Bool :=
    match al.chans[ptIx * al.nch + k]? with
    | none => false
    | some c => if (declared k).testBit 7 then decide ((att.getD c 0).toNat = declared k) else true
  (List.range (al.nch + 1)).foldl (fun a k => if k ≤ al.nch ∧ (List.range k).all meets then max a k else a) 0

/-- Check 5: placement (R177, R267, R269). -/
def State.placeFail (s : State) (c : Nat) (p : Prog) (al : Alloc) : Option LoadFail :=
  if !(gridSets p.cls).contains al.pts then some (because 2)
  else if al.pts.any (fun k => s.dies.hotPts.contains k) then some ⟨conflict, 0, 0⟩
  else if p.refreshN ∧ al.pts.any (fun k => !(s.pt k).classN) then some ⟨conflict, 0, 3⟩
  else if al.pts.any (fun k => (sheetsOfPt k).any fun n => decide ((s.sheet n).health = 2) || (s.sheet n).sheetFenced)
      ∨ al.pts.any (fun k => decide (s.ptStatus k = 4 ∨ s.ptStatus k = 5 ∨ s.ptStatus k = 6) || decide (s.holder k ≠ some c))
      ∨ (List.range al.pts.length).any (fun i => decide (s.usableChans al p i < p.minCh)) then some ⟨noResource, 0, 0⟩
  else none

/-- The IDs of SYNC_MAP are VALID and lie on the bound set (R403): the first that is not. -/
def State.syncMissing (s : State) (c : Nat) (p : Prog) (al : Alloc) : Option Nat :=
  (p.syncMap.flatMap fun e => e.id :: (if e.role = 3 then [e.stepVal % 65536] else [])).find? fun id =>
    match s.syncEnt c id with
    | some e => !(decide (e.st = 1) && al.pts.contains e.pt)
    | none => true

/-- The whole load check of a container for context `c` (R221). -/
def State.loadCheck (s : State) (c : Nat) (b : List Byte) (v : Verdict) : Except LoadFail Prog :=
  match (s.ctx c).alloc with
  | none => .error ⟨conflict, 0, 0⟩
  | some al =>
    match loadFront s b v with
    | some e => .error e
    | none =>
      match loadHeader b with
      | some e => .error e
      | none =>
        if !dirOk b then .error (because 1)
        else match readProg b with
          | none => .error (because 1)
          | some p =>
            match sectionReason b p al with
            | some r => .error (because r)
            | none =>
              match s.syncMissing c p al with
              | some id => .error ⟨notFound, 0, id⟩
              | none =>
                match s.placeFail c p al with
                | some e => .error e
                | none => .ok p

/-! ### Placing tile images -/

/-- Physical tile of a local tile of the program of context `c`. -/
def State.physTile (s : State) (c row col : Nat) : Option Nat := s.physOf (s.originOf c) row col

/-- Local row and column, in the program of context `c`, of a physical tile that holds a logical tile (R176). -/
def State.localOf (s : State) (c i : Nat) : Option (Nat × Nat) :=
  let sh := i / 288
  ((s.sheet sh).map.findIdx? (· = some (i % 288 / 16))).bind fun lc =>
    let o := s.originOf c
    let r := 16 * (sh / 6) + i % 16
    let k := 16 * (sh % 6) + lc
    if o.1 ≤ r ∧ o.2 ≤ k then some (r - o.1, k - o.2) else none

/-- The configured tiles of a context's partitions, those of the container and those that a RECONFIG has added, as (local row, local column,
physical tile). With CTX_VALID 0 a tile is unconfigured (R179, R213). -/
def State.cfgTiles (s : State) (c : Nat) : List (Nat × Nat × Nat) :=
  s.tiles.filterMap fun e =>
    if onPts (s.ctx c).held e.1 && decide (ctxValid e.2.cfg ≠ 0) then (s.localOf c e.1).map fun p => (p.1, p.2, e.1) else none

/-- A column's tile is written by other than the zeroise and BIST engines: ZEROISED clears (R435). -/
def State.wrote (s : State) (i : Nat) : State :=
  if ((s.sheet (i / 288)).tstat.getD (i % 288 / 16) {}).zeroised then
    s.modSheet (i / 288) fun x => { x with tstat := x.tstat.modify (i % 288 / 16) fun (t : TStat) => { t with zeroised := false } }
  else s

/-- Write configuration images with a new generation (R178, R214): the context state of every image starts afresh. -/
def State.writeImages (s : State) (c : Nat) (gen : BitVec 4) (l : List TileRec) : State :=
  l.foldl (fun a t => match a.physTile c t.row t.col with
    | none => a
    | some i => (a.wrote i).modTile i fun x =>
      { x with cfg := x.cfg.write 0 t.bytes, ugen := gen, cst := List.replicate 8 {} }) s

/-- Load prologue images (R509). -/
def State.writePrologue (s : State) (c : Nat) (l : List TileRec) : State :=
  l.foldl (fun a t => match a.physTile c t.row t.col with
    | none => a
    | some i => (a.wrote i).modTile i fun x => { x with proCfg := memOf t.bytes, pro := {} }) s

/-- Write words of a tile's store: words read as uncorrectable are good again once written (R226). -/
def Tile.putStore (t : Tile) (a : Nat) (b : List Byte) : Tile :=
  { t with store := t.store.write a b, badWords := t.badWords.filter fun w => !decide (a ≤ 64 * w ∧ 64 * w + 64 ≤ a + b.length) }

/-- Load operand-store and S-tile contents (R218; log entry 13). -/
def State.writeOperands (s : State) (c : Nat) (l : List TileRec) : State :=
  l.foldl (fun a t => match a.physTile c t.row t.col with
    | none => a
    | some i => (a.wrote i).modTile i fun x => x.putStore 0 t.bytes) s

/-- The earliest cycle at which a reconfiguration of a context may start: 1,024 cyc after the last (R214). -/
def Context.reconfigAt (x : Context) : Nat := (x.lastReconfig.map (· + 1024)).getD 0

/-- The tiles of a context's partitions take the container's images, when a reconfiguration may start; queues are empty (R213, R214, R221, R322). -/
def State.loadTiles (s : State) (c : Nat) (p : Prog) : State :=
  let s1 := s.unconfigure (s.ctx c).held
  let g := (s.ctx c).cgen + 1
  ((s1.writeImages c g p.unitCfg).writePrologue c p.prologue).modCtx c fun x => { x with cgen := g, lastReconfig := some (max s.clk.life x.reconfigAt) }

/-- The sheets of a context count SPROG on from its SCHED (R418). -/
def State.alignSprog (s : State) (c : Nat) : State :=
  ((s.ctx c).held.flatMap sheetsOfPt).foldl (fun a n => a.modSheet n fun y => { y with sprog := (s.ctx c).sched }) s

end Sys2Proof.Machine
end

