-- ==== Sys2Proof/Machine/Contexts.lean ====
section
/-!
DEFINITION. Context, queue-configuration and program commands (R313–R324, R327, R415–R416, R423–R424, R670–R671, R678): CTX_CREATE to
PROG_INFO.
-/
namespace Sys2Proof.Machine

/-! ### Firmware messages (R361, R362, R423) -/

/-- Cells of a message of `plen` payload bytes (R362). -/
def ncell (plen : Nat) : Nat := if plen ≤ 48 then 1 else 1 + (plen - 48 + 63) / 64

/-- The cells of a message (R361): the undefined bytes beyond PLEN come from the free values from index `n0` on. -/
def msgCells (n0 kind src flags dest tag : Nat) (payload : List Byte) : List (List Byte) :=
  let n := ncell payload.length
  let hdr := le 1 kind ++ le 1 n ++ le 2 payload.length ++ le 1 src ++ le 1 flags ++ le 1 0 ++ le 1 0 ++ le 4 dest ++ le 4 tag
  let b := hdr ++ payload
  let full := b ++ (List.range (64 * n - b.length)).map fun i => Config.freeByte (n0 + i)
  (List.range n).map fun i => (full.drop (64 * i)).take 64
/-- Bytes a message takes from the free values. -/
def padOf (plen : Nat) : Nat := 64 * ncell plen - 16 - plen

/-- Stale tiles of a context: local row, local column, count (R215, R423). -/
def State.staleTiles (s : State) (c : Nat) : List (Nat × Nat × Nat) :=
  let shape := gridShape (((s.ctx c).prog.map (·.cls)).getD 0)
  ((List.range shape.2).flatMap fun r => (List.range shape.1).map fun k => (r, k)).filterMap fun x =>
    match s.physTile c x.1 x.2 with
    | some i => if (s.tile i).staleStep ≠ 0 then some (x.1, x.2, (s.tile i).staleStep) else none
    | none => none

/-- The translation of an ID, unless it is ORPHANED: a dead one names no counter. -/
def State.liveSync (s : State) (c id : Nat) : Option SyncEnt := (s.syncEnt c id).filter fun e => decide (e.st ≠ 2)

/-- Objects left over (R415, R416): ID and KIND, 1 unbalanced pair, 2 waiters, 3 imported. An ORPHANED object is no object any more. -/
def State.leftovers (s : State) (c : Nat) (ids : List Nat) (pairs : List (Nat × Nat)) : List (Nat × Nat) :=
  let uneven (p : Nat × Nat) : Bool := match s.liveSync c p.1, s.liveSync c p.2 with
    | some a, some b => decide (s.syncVal a ≠ s.syncVal b)
    | _, _ => false
  let same (id : Nat) (x : Nat) (k : Nat) : Bool := match s.liveSync c id, s.liveSync x k with
    | some a, some b => decide (a.pt = b.pt ∧ a.index = b.index)
    | _, _ => false
  (pairs.filter uneven).map (fun p => (p.1, 1))
    ++ (ids.filter fun id => (List.range 64).any fun x => !(s.waiters x (same id x)).isEmpty).map (fun id => (id, 2))
    ++ (ids.filter fun id => match s.liveSync c id with
        | some e => e.owned && (List.range 64).any fun x => decide (x ≠ c) && (s.ctx x).sync.any fun k =>
            decide (k.2.pt = e.pt ∧ k.2.index = e.index ∧ k.2.st ≠ 2)
        | none => false).map fun id => (id, 3)

/-- Send a calender record (R423, R424): OUTCOME 0 commit, 1 rollback, 2 end. -/
def State.calRecord (s : State) (c step outcome cause : Nat) (overdue : Bool) (left : List (Nat × Nat)) : State :=
  let stale := s.staleTiles c
  let list := (stale.map fun x => le 1 x.1 ++ le 1 x.2.1 ++ le 2 x.2.2) ++ left.map fun x => le 2 x.1 ++ le 1 x.2 ++ le 1 0
  let flags := (if overdue then 1 else 0) + (if 116 < list.length then 2 else 0) + (if left.isEmpty then 0 else 4)
  let pay := le 8 step ++ le 1 outcome ++ le 1 flags ++ le 2 cause ++ le 2 (min 0xFFFF (s.ctx c).rollbacks) ++ le 2 stale.length
    ++ le 2 left.length ++ zeros 6 ++ le 8 s.cyc ++ (list.take 116).flatten
  let h := s.handleOf (.ctx c)
  let m : Copy := {
    target := h, role := 0, src := 64, from' := none, cells := msgCells s.fresh 1 0xFE 0 h 0xCA1 pay, plen := pay.length
    entry := none, session := none, calender := some c }
  { s.copyArrives m with fresh := s.fresh + padOf pay.length }

/-! ### Admission (R670, R671, R678, R645) -/

/-- Budget of a partition in W (R670). -/
def ptBudget (pwr : PtPwr) (bound : Bool) (perf : Nat) : Nat :=
  match pwr with
  | .off => 0
  | .asleep => 6
  | _ => if bound then [195, 155, 115, 75].getD perf 195 else 30
/-- The module budget with some partitions counted as bound, others as awake, and PERF_STATE as given (R671). -/
def State.budgetWith (s : State) (bound awake : List Nat) (perf : Nat → Nat) : Nat :=
  340 + ((List.range 8).foldl (fun a p =>
    let x := s.pt p
    let pwr := if awake.contains p then PtPwr.run else x.pwr
    a + ptBudget pwr (bound.contains p || (s.holder p).isSome) (perf p)) 0)
/-- A budget exceeds POWER_CAP_W (R671). -/
def State.overCap (s : State) (w : Nat) : Bool := decide (s.settingNat 0x20 < w)

/-- STATE_CONFLICT for the module power state (R678). -/
def pwrConflict (s : State) : Resp := err conflict { kind := 7, state := s.powerCode }
/-- STATE_CONFLICT for a mode that is not uniform (R645). -/
def modeConflict (mode applied st : Nat) : Resp := err conflict { kind := 3, state := st, extra := applied * 2 ^ 16 + mode }

/-- The mode that keeps partitions from hosting (R645). -/
def State.modeBar (s : State) (pts : List Nat) : Option Resp :=
  match s.mgmt.modes.find? fun m => decide (m.mode ≠ 2) && pts.any fun p => m.units.contains p && !m.applied.contains p with
  | some m => some (modeConflict m.mode m.applied.length 1)
  | none => if (pts.map fun p => (s.pt p).perf).eraseDups.length ≤ 1 then none else some (modeConflict 1 0 0)

/-- What bars partitions from being bound or bound again (R319, R645, R671, R678). -/
def State.bindBar (s : State) (c : Nat) (pts : List Nat) : Option Resp :=
  if s.start.pwr ≠ .m0 then some (pwrConflict s)
  else match pts.find? fun p => decide (s.ptStatus p = 4 ∨ s.ptStatus p = 5 ∨ s.ptStatus p = 6) with
    | some p => some (err conflict { kind := 1, state := s.ptStatus p, handle := s.handleOf (.pt p) })
    | none =>
      match s.modeBar pts with
      | some r => some r
      | none =>
        if pts.any (fun p => match s.holder p with
          | some h => decide (h ≠ c)
          | none => false) then some (err noResource)
        else if s.overCap (s.budgetWith pts [] fun p => (s.pt p).perf) then some (err noResource)
        else none

/-! ### Commands -/

/-- The CTX field at offset 0 is 0–63 (R21); then the rest. -/
def withCtx (p : Payload) (s : State) (k : Nat → State × Resp) : State × Resp :=
  if 63 < arg p 0 1 then (s, err invalid { arg := 0 }) else k (arg p 0 1)

/-- CTX_CREATE (R315, R316). -/
def mbCtxCreate : MbFun := fun _ p s => checked 1 [] p s fun _ =>
  let n := arg p 0 1
  if 63 < n ∧ n ≠ 0xFF then (s, err invalid { arg := 0 })
  else if n ≠ 0xFF ∧ (s.ctx n).st ≠ .free then (s, ctxConflict (s.ctx n).st 0)
  else match (if n = 0xFF then (List.range 64).find? fun c => decide ((s.ctx c).st = .free) else some n) with
    | none => (s, err noResource)
    | some c =>
      let t := s.tookSerial.modCtx c fun x => { x with st := .created, serial := s.newSerial }
      (t, okResp (fld 1 c ++ rsvd 3 ++ fld 4 (t.handleOf (.ctx c))))

/-- Return a context to FREE (R317, R380, R389, R413, R726). -/
def State.destroyCtx (s : State) (c : Nat) : State :=
  let x := s.ctx c
  let h := s.handleOf (.ctx c)
  let s1 := s.stopQueues c 6
  let s2 := { s1 with ends := s1.ends.filter (·.ctx ≠ c) }.closeSessions fun e => decide (e.owner = c ∨ e.ctx = c)
  let s3 := x.sync.foldl (fun a e => if e.2.owned ∧ e.2.st ≠ 2 then a.releaseCounter e.2.pt e.2.index else a) s2
  ((s3.modCtx c fun y => { ({} : Context) with queues := y.queues, cgen := y.cgen, lastReconfig := y.lastReconfig }).dropHandle h).forget c

/-- CTX_DESTROY (R315, R317). -/
def mbCtxDestroy : MbFun := fun _ p s => checked 1 [] p s fun _ => withCtx p s fun c =>
  let x := s.ctx c
  if x.st ≠ .created ∨ x.unfinished then (s, ctxConflict x.st) else (s.destroyCtx c, okResp [])

/-- Groups of a channel that an allocation may use (R235, R237). -/
def State.chanLimit (s : State) (ch : Nat) : Nat :=
  s.allocGroups - (if s.poolChans.contains ch then poolG s.ident.poolGib s.poolChans.length else 0)

/-- The lowest common free range of `len` groups on channels (R318; log entry 11). -/
def State.lowestFit (s : State) (chs : List Nat) (len : Nat) : Option Nat :=
  let used := s.ctxs.filterMap fun x => x.alloc.bind fun a => if a.chans.any chs.contains then some (a.baseG, a.lenG) else none
  let lim := (chs.map s.chanLimit).foldl min s.allocGroups
  ((0 :: used.map fun u => u.1 + u.2).insertionSort (· ≤ ·)).find? fun b =>
    decide (b + len ≤ lim) && used.all fun u => apart b len u.1 u.2

/-- CTX_ALLOC (R318, R230). -/
def mbCtxAlloc : MbFun := fun _ p s => checked 8 [] p s fun _ => withCtx p s fun c =>
  let gran := arg p 1 1
  let nch := arg p 2 1
  let pts := bits 8 (arg p 3 1)
  let len := arg p 4 4
  if 3 < gran then (s, err invalid { arg := 1 })
  else if nch < 1 ∨ 24 < nch then (s, err invalid { arg := 2 })
  else if !someGridSet pts then (s, err invalid { arg := 3 })
  else if len < 1 then (s, err invalid { arg := 4 })
  else if (s.ctx c).st ≠ .created then (s, ctxConflict (s.ctx c).st)
  else if pts.any fun k => decide ((s.goodChans k).length < nch) then (s, err noResource)
  else
    let chs := pts.flatMap fun k => (s.goodChans k).take nch
    match s.lowestFit chs len with
    | none => (s, err noResource)
    | some b =>
      let t := s.modCtx c fun x => { x with st := .allocated, alloc := some ⟨pts, gran, nch, b, len, chs⟩ }
      (t.undefine c (960 * len * nch * pts.length), okResp (fld 4 b))

/-- Objects of a context left over at CTX_FREE are freed (R415, R416). -/
def State.freeLeftovers (s : State) (c : Nat) : State :=
  let x := s.ctx c
  let owned := (x.sync.filter fun e => e.2.owned && decide (e.2.st ≠ 2)).map (·.1)
  let pairs := ((x.prog.map (·.syncMap)).getD []).filterMap fun e => if e.role = 3 then some (e.id, e.stepVal % 65536) else none
  let left := ((s.leftovers c owned pairs).map (·.1)).eraseDups
  left.foldl (fun a id => match a.syncEnt c id with
    | some e => if e.owned then (a.releaseCounter e.pt e.index).modCtx c fun y => { y with sync := y.sync.erase id } else a
    | none => a) s

/-- CTX_FREE (R315, R317, R416). -/
def mbCtxFree : MbFun := fun _ p s => checked 1 [] p s fun _ => withCtx p s fun c =>
  let x := s.ctx c
  if (x.st ≠ .allocated ∧ x.st ≠ .faulted) ∨ x.unfinished then (s, ctxConflict x.st)
  else
    let s1 := (s.freeLeftovers c).unconfigure x.held
    (((s1.modCtx c fun y => { y.noProgram with st := .created, alloc := none, op := none, suspendDue := false }).release c).forget c, okResp [])

/-- CTX_BIND (R315, R319). -/
def mbCtxBind : MbFun := fun _ p s => checked 2 [] p s fun _ => withCtx p s fun c =>
  let x := s.ctx c
  let pts := bits 8 (arg p 1 1)
  if pts.isEmpty then
    if x.st ≠ .bound then (s, ctxConflict x.st)
    else ((s.modCtx c fun y => { y with st := .allocated }).release c, okResp [])
  else if x.st ≠ .allocated then (s, ctxConflict x.st)
  else if (x.alloc.map (·.pts)) ≠ some pts then (s, ctxConflict x.st 1)
  else match s.bindBar c pts with
    | some r => (s, r)
    | none => ((s.modCtx c fun y => { y with st := .bound, held := pts }).recouch pts, okResp [])

/-- CTX_SUSPEND (R315, R320, R345, R413). -/
def mbCtxSuspend : MbFun := fun m p s => checked 1 [] p s fun _ => withCtx p s fun c =>
  let x := s.ctx c
  if x.st ≠ .bound ∧ x.st ≠ .placed ∧ x.st ≠ .running then (s, ctxConflict x.st)
  else background s m 0x0015 (s.handleOf (.ctx c)) fun id t =>
    let t1 := t.modCtx c fun y => { y with st := .suspending, back := x.st, op := some id, suspendDue := decide (x.st = .running) }
    (t1.orphanCovers c).suspendObjects c

/-- SUSPENSION_SAVED: the state is saved, the partitions are released, the context is SUSPENDED (R315, R320). Before the commit at which the
suspension takes effect nothing is saved. -/
def suspensionSaved (c : Nat) (s : State) : State :=
  let x := s.ctx c
  if x.st ≠ .suspending ∨ x.suspendDue then s
  else
    let s1 := (s.unconfigure x.held).modCtx c fun y => { y with st := .suspended, op := none, hold := .stopped, reads := [] }
    (s1.release c).finishOp? x.op ok []

/-- What bars the placement of a suspended program on its partitions (R83, R267, R269). -/
def State.resumeBar (s : State) (c : Nat) (pts : List Nat) : Option Resp :=
  let x := s.ctx c
  match x.prog, x.alloc with
  | some g, some al =>
    (({ s with ctxs := s.ctxs.modify c fun y => { y with held := pts } } : State).placeFail c g al).map fun f =>
      if f.status = conflict ∧ f.extra = 3 then err conflict { kind := 3, extra := 3 }
      else if f.status = conflict then (let p := (pts.find? s.dies.hotPts.contains).getD 0
        err conflict { kind := 1, state := s.ptStatus p, handle := s.handleOf (.pt p) })
      else err f.status {}
  | _, _ => none

/-- CTX_RESUME (R315, R322): the partitions are bound again, the tile images loaded, the saved records restored and the prologue begun. -/
def mbCtxResume : MbFun := fun m p s => checked 1 [] p s fun _ => withCtx p s fun c =>
  let x := s.ctx c
  let pts := (x.alloc.map (·.pts)).getD []
  if x.st ≠ .suspended then (s, ctxConflict x.st)
  else match (s.bindBar c pts).orElse fun _ => s.resumeBar c pts with
    | some r => (s, r)
    | none => background s m 0x0016 (s.handleOf (.ctx c)) fun id t =>
      let t1 := (t.modCtx c fun y => { y with st := .resuming, held := pts, op := some id }).recouch pts
      match x.prog with
      | none => t1
      | some g =>
        let t2 := t1.loadTiles c g
        let t3 := x.commit.tiles.foldl (fun a e => match a.physTile c (e.1 / 128) (e.1 % 128) with
          | some i => a.modTile i fun y => { y with cst := e.2 }
          | none => a) t2
        (t3.alignSprog c).modCtx c fun y => { y with hold := .prologue (max t.clk.life x.reconfigAt) }

/-- RESUMPTION_FINISHED: once the prologue has ended the context returns to the state it held; its sync objects are VALID again (R315, R322,
R413). -/
def resumptionFinished (c : Nat) (s : State) : State :=
  let x := s.ctx c
  let inPrologue := match x.hold with
    | .prologue _ => true
    | _ => false
  if decide (x.st ≠ .resuming) || inPrologue then s
  else
    let s1 := s.modCtx c fun y => { y with st := x.back, op := none, hold := if x.back = .running then .until s.clk.life else .stopped }
    (s1.resumeObjects c).finishOp? x.op ok []

/-- An ENTRIES value of a queue (R298). -/
def entriesOk (n : Nat) : Bool := (rangeFrom 6 11).any fun k => decide (n = 2 ^ k)

/-- QUEUE_CONFIG (R326, R327). -/
def mbQueueConfig : MbFun := fun _ p s => checked 20 [(17, 3)] p s fun _ => withCtx p s fun c =>
  let e := arg p 1 1
  let q := arg p 2 1
  let loc := arg p 3 1
  let base := arg p 4 8
  let n := arg p 12 4
  let v := arg p 16 1
  if 3 < e then (s, err invalid { arg := 1 })
  else if 3 < q then (s, err invalid { arg := 2 })
  else if 1 < loc ∨ (loc = 1 ∧ s.poolLen = 0) then (s, err invalid { arg := 3 })
  else if base % 64 ≠ 0 then (s, err invalid { arg := 4 })
  else if !entriesOk n then (s, err invalid { arg := 12 })
  else if loc = 1 ∧ s.poolLen < base + 64 * n then (s, err invalid { arg := 4 })
  else if v < 2 ∨ 127 < v then (s, err invalid { arg := 16 })
  else if (s.ctx c).st = .free ∨ (s.queue c (4 * e + q)).unfinished then (s, ctxConflict (s.ctx c).st)
  else (s.modQueue c (4 * e + q) fun x =>
    { ({} : Queue) with cause := x.cause, enabled := true, inPool := decide (loc = 1), base := base, entries := n, vector := v }, okResp [])

/-- First byte of the weight area of the Reel (R653). -/
def weightBase : Nat := 67141888 * 4096
/-- The Reel serves its weight area (R650, R655). -/
def State.reelWeights (s : State) : Bool :=
  decide (s.reel.st = .ready) && (s.reel.authentic || decide (s.settingNat 0x30 = 1)) && !s.dies.ct1Lost
/-- Codes of the Reel's states (R650). -/
def reelCode : ReelState → Nat
  | .absent => 0
  | .starting => 1
  | .ready => 2
  | .unlabelled => 3
  | .ejecting => 4
  | .ejected => 5
  | .failed => 6
/-- STATE_CONFLICT for the Reel. -/
def reelConflict (s : State) (extra : Nat := 0) : Resp := err conflict { kind := 4, state := reelCode s.reel.st, extra := extra }

/-- PROG_LOAD (R221, R298, R315, R319, R645, R655, R678). -/
def mbProgLoad : MbFun := fun m p s => checked 20 [(3, 1)] p s fun _ => withCtx p s fun c =>
  let x := s.ctx c
  let src := arg p 2 1
  let a := arg p 4 8
  let n := arg p 12 8
  let al := x.alloc.getD ⟨[], 0, 0, 0, 0, []⟩
  if 2 < src then (s, err invalid { arg := 2 })
  else if (src = 1 ∧ x.alloc.isSome ∧ allocLen al < a + n) ∨ (src = 2 ∧ s.reel.weightGib * 2 ^ 30 < a + n) then (s, err invalid { arg := 4 })
  else if x.st ≠ .bound then (s, ctxConflict x.st)
  else if bits 8 (arg p 1 1) ≠ x.held then (s, ctxConflict x.st 1)
  else if s.start.pwr ≠ .m0 then (s, pwrConflict s)
  else if src = 2 ∧ !s.reelWeights then (s, reelConflict s)
  else match s.modeBar x.held with
    | some r => (s, r)
    | none => background s m 0x0020 (s.handleOf (.ctx c)) fun id t =>
      t.modCtx c fun y => { y with st := .loading, op := some id, load := some (src, a, n) }

/-- A REEL_IO_ERROR record (R657, R666). -/
def State.reelIoError (s : State) (write : Bool) (nvme lba : Nat) : State := s.logErr 0x040C {} (le 1 (if write then 1 else 2) ++ le 1 0 ++ le 2 nvme ++ le 8 lba)

/-- A REEL_IO_ERROR record of a command that gave no NVMe status: that field is free (log entry 9). -/
def State.reelIoOpen (s : State) (write : Bool) (lba : Nat) : State :=
  let t := { s with fresh := s.fresh + 2 }
  t.reelIoError write (unle [Config.freeByte s.fresh, Config.freeByte (s.fresh + 1)]) lba

/-- The container that a PROG_LOAD reads: host bytes come with the event. -/
def State.loadBytes (s : State) (c src a n : Nat) (host : List Byte) : List Byte :=
  if src = 0 then host.take n else if src = 1 then s.ctxRead c a n else s.reel.data.read (weightBase + a) n

/-- PROG_LOAD_FINISHED (R214, R220, R221, R315, R322): the container is read, checked and placed, or the context returns to BOUND with the
reason. The placement writes images, and so is not finished within 1,024 cyc of the context's last reconfiguration. -/
def progLoadFinished (c : Nat) (image : ReadResult) (v : Verdict) (s0 : State) : State :=
  let x := s0.ctx c
  match x.st, x.load with
  | .loading, some (src, a, n) =>
    let s := match image with
      | .data b => (let y := s0.loadBytes c src a n b
          (s0.contKey y).elim s0 fun k => s0.judge k y v)
      | _ => s0
    let fail (f : LoadFail) : State :=
      (s.modCtx c fun y => { y with st := .bound, op := none, load := none }).finishOp? x.op f.status
        (Detail.bytes { reason := f.reason, kind := if f.status = conflict then (if f.extra = 3 then 3 else 1) else 0, extra := f.extra })
    match image with
    | .data b =>
      match s.loadCheck c (s.loadBytes c src a n b) v with
      | .error f => fail f
      | .ok g =>
        if s.clk.life < x.reconfigAt then s0
        else
        let s1 := s.modCtx c fun y =>
          { y.noProgram with
            prog := some g, flips := List.replicate g.regions.length false, st := .placed, op := none, load := none, colls := y.colls
            rbLimit := s.settingNat 0x07, replicaWait := s.settingNat 0x08 }
        (((s1.recouch x.held).loadTiles c g).writeOperands c g.operands).finishOp? x.op ok []
    | _ => let t := fail ⟨integrity, 0, 0⟩; if src = 2 then t.reelIoOpen false ((weightBase + a) / 4096) else t
  | _, _ => s0

/-- PROG_UNLOAD (R315, R345, R415, R416, R423, R550). -/
def mbProgUnload : MbFun := fun m p s => checked 1 [] p s fun _ => withCtx p s fun c =>
  let x := s.ctx c
  if (x.st ≠ .placed ∧ x.st ≠ .faulted) ∨ x.held.isEmpty then (s, ctxConflict x.st)
  else background s m 0x0021 (s.handleOf (.ctx c)) fun id t =>
    let sm := (x.prog.map (·.syncMap)).getD []
    let pairs := sm.filterMap fun e => if e.role = 3 then some (e.id, e.stepVal % 65536) else none
    let ids := (sm.flatMap fun e => e.id :: (if e.role = 3 then [e.stepVal % 65536] else [])).eraseDups
    let left := t.leftovers c ids pairs
    let t1 := (t.orphanCovers c).endEntries c 2 (fun e => decide (e.opcode = 0x20)) (failed orphaned)
    let t2 := t1.endEntries c 3 (fun e => decide (e.opcode = 0x31)) (failed orphaned)
    let t3 := if x.prog.isSome then t2.calRecord c x.step 2 0 x.overdue left else t2
    let t4 := (t3.unconfigure x.held).modCtx c fun y => { y.noProgram with st := .bound }
    t4.readyOp id (if left.isEmpty then ok else degraded) (Detail.bytes { extra := left.length })

/-- PROG_INFO (R298). -/
def mbProgInfo : MbFun := fun _ p s => checked 1 [] p s fun _ => withCtx p s fun c =>
  let x := s.ctx c
  match x.prog with
  | none => (s, ctxConflict x.st)
  | some g =>
    let set := if x.held.isEmpty then (x.alloc.map (·.pts)).getD [] else x.held
    (s, okResp (known (padTo 16 g.pid) ++ fld 1 g.cls ++ fld 1 g.foldF ++ fld 1 (unbits set) ++ rsvd 1 ++ fld 8 x.step
      ++ fld 8 x.commit.cycle))

/-- CTX_CREATE of the host. -/
def execCtxCreate (p : Payload) (s : State) : Host.Outcome State Fault Refusal := nextOf s (hostCmd .f 0x0010 mbCtxCreate p s)
/-- CTX_DESTROY of the host. -/
def execCtxDestroy (p : Payload) (s : State) : Host.Outcome State Fault Refusal := nextOf s (hostCmd .f 0x0011 mbCtxDestroy p s)
/-- CTX_ALLOC of the host. -/
def execCtxAlloc (p : Payload) (s : State) : Host.Outcome State Fault Refusal := nextOf s (hostCmd .f 0x0012 mbCtxAlloc p s)
/-- CTX_FREE of the host. -/
def execCtxFree (p : Payload) (s : State) : Host.Outcome State Fault Refusal := nextOf s (hostCmd .f 0x0013 mbCtxFree p s)
/-- CTX_BIND of the host. -/
def execCtxBind (p : Payload) (s : State) : Host.Outcome State Fault Refusal := nextOf s (hostCmd .f 0x0014 mbCtxBind p s)
/-- CTX_SUSPEND of the host. -/
def execCtxSuspend (p : Payload) (s : State) : Host.Outcome State Fault Refusal := nextOf s (hostCmd .b 0x0015 mbCtxSuspend p s)
/-- SUSPENSION_SAVED. -/
def execSuspensionSaved (c : Ctx) (s : State) : Host.Outcome State Fault Refusal := nextOf s (suspensionSaved c s)
/-- CTX_RESUME of the host. -/
def execCtxResume (p : Payload) (s : State) : Host.Outcome State Fault Refusal := nextOf s (hostCmd .b 0x0016 mbCtxResume p s)
/-- RESUMPTION_FINISHED. -/
def execResumptionFinished (c : Ctx) (s : State) : Host.Outcome State Fault Refusal := nextOf s (resumptionFinished c s)
/-- QUEUE_CONFIG of the host. -/
def execQueueConfig (p : Payload) (s : State) : Host.Outcome State Fault Refusal := nextOf s (hostCmd .f 0x0017 mbQueueConfig p s)
/-- PROG_LOAD of the host. -/
def execProgLoad (p : Payload) (s : State) : Host.Outcome State Fault Refusal := nextOf s (hostCmd .b 0x0020 mbProgLoad p s)
/-- PROG_LOAD_FINISHED. -/
def execProgLoadFinished (c : Ctx) (image : ReadResult) (v : Verdict) (s : State) : Host.Outcome State Fault Refusal :=
  nextOf s (progLoadFinished c image v s)
/-- PROG_UNLOAD of the host. -/
def execProgUnload (p : Payload) (s : State) : Host.Outcome State Fault Refusal := nextOf s (hostCmd .b 0x0021 mbProgUnload p s)
/-- PROG_INFO of the host. -/
def execProgInfo (p : Payload) (s : State) : Host.Outcome State Fault Refusal := nextOf s (hostCmd .q 0x0022 mbProgInfo p s)

end Sys2Proof.Machine
end

