-- ==== Sys2Proof/Machine/Resets.lean ====
section
/-!
DEFINITION. Resets, modes, power commands, fencing and the TEST verb (R44, R45, R453, R454, R465, R466, R517–R525, R640–R646, R672–R679):
RESET to TEST_RESULT.
-/
namespace Sys2Proof.Machine

/-! ### Channels and partitions going dark -/

/-- A Memory body (R501). -/
def memBody (ch group occ slot : Nat) : List Byte :=
  le 8 (mpa ch (960 * group)) ++ le 4 group ++ le 1 ch ++ le 1 occ ++ le 2 0 ++ le 8 slot

/-- A channel becomes broke (R274, R275): recorded, logged, and every context whose allocation includes it is FAULTED. -/
def State.breakChan (s : State) (ch cause group : Nat) : State :=
  if (s.chan ch).broke then s
  else
    let s1 := (s.modChan ch fun x => { x with broke := true, trained := false }).addRepair 0x11 cause ch 0
    let s2 := s1.logErr 0x0305 { loc := ch, handle := s.handleOf (.pt (ptOfChan ch)), pt := some (ptOfChan ch) } (memBody ch group 0 0)
    (List.range 64).foldl (fun a c => match (a.ctx c).alloc with
      | some al => if al.chans.contains ch then a.faultCtx c rMemLost integrity else a
      | none => a) s2

/-- Abandon the dwell of a sheet (R431). -/
def State.abandonDwell (s : State) (sh : Nat) : State := s.modSheet sh fun x => { x with dwell := none, dwellDue := none }

/-- A partition's dies lose their contents (R227, R413, R521, R673). -/
def State.darken (s : State) (p : Nat) : State :=
  let s1 := ({ s with
    tiles := s.tiles.filter fun e => !onPts [p] e.1
    flights := s.flights.filter fun f => !onPts [p] f.tile
    crossing := s.crossing.filter fun w => decide (ptOfChan w.ch ≠ p) }).loseCounters p
  (sheetsOfPt p).foldl State.abandonDwell s1

/-- The channels of a partition enter or leave self-refresh (R276). -/
def State.selfRefresh (s : State) (p : Nat) (b : Bool) : State :=
  (chansOfPt p).foldl (fun a c => a.modChan c fun x => { x with selfRefresh := b }) s

/-- Rolling test starts again on the sheets of a partition that has come back to Run (R429, R431). -/
def State.dwellsDue (s : State) (p : Nat) : State :=
  (sheetsOfPt p).foldl (fun a n => a.modSheet n fun x =>
    { x with dwell := none, dwellDue := if x.health = 0 ∧ x.rove.isSome then some .sweep else none }) s

/-- VCOREp_EN is driven, and the platform's VCOREp_PG follows it (R696). -/
def State.setRail (s : State) (p : Nat) (on : Bool) : State :=
  if (s.pt p).en = on then s.modPt p fun x => { x with pg := on }
  else (s.modPt p fun x => { x with en := on, pg := on }).emit (.enable p on)

/-- A partition comes to Run (R673, R684); its rail starts at 0.75 V (R696). -/
def State.wakePt (s : State) (p : Nat) : State :=
  let x := s.pt p
  let s1 := s.setRail p true
  let s2 := s1.modPt p fun y => { y with
    pwr := .run, offByCmd := false, busyAt := s.clk.life
    mv := if (x.pwr = .off ∨ x.pwr = .asleep) ∧ !s.dies.ct1Lost then 750 else y.mv, mvAt := if x.pwr = .asleep then s.clk.life else y.mvAt }
  ((s2.selfRefresh p false).dwellsDue p)

/-- A partition is needed in Run (R674): from Idle it returns there. -/
def State.unidle (s : State) (p : Nat) : State :=
  s.modPt p fun y => { y with pwr := if y.pwr = .idle then .run else y.pwr, busyAt := s.clk.life }

/-- A partition goes to Off (R673): its rail is disabled and nothing on its dies is kept. -/
def State.offPt (s : State) (p : Nat) (byCmd : Bool) : State :=
  (((s.darken p).selfRefresh p true).setRail p false).modPt p fun x => { x with pwr := .off, offByCmd := if x.pwr = .off then x.offByCmd else byCmd, temps := [] }

/-- A partition goes to Asleep (R673): its rail goes to 0.55 V, dies keep their contents, rolling test stops. -/
def State.sleepPt (s : State) (p : Nat) : State :=
  let s1 := (sheetsOfPt p).foldl State.abandonDwell s
  let s2 := s1.setRail p true
  s2.modPt p fun x => { x with
    pwr := .asleep, offByCmd := false, mv := if s.dies.ct1Lost then x.mv else 550, mvAt := s.clk.life }

/-! ### Restart windows (R453, R454, R464) -/

/-- The result record of R466. -/
def bistRecord (s : State) (sh pc row kind result : Nat) (cond : BistCond) (origin : Nat) (detail : W32) (sig : W64) : List Byte :=
  le 8 s.cyc ++ le 1 sh ++ le 1 pc ++ le 1 row ++ le 1 kind ++ le 1 result ++ [cond.temp] ++ le 2 cond.mv.toNat
    ++ le 2 (if kind = 1 then 1908 else 1800) ++ le 1 origin ++ le 1 0 ++ le 4 detail.toNat ++ le 8 sig.toNat

/-- CAUSE of a repair entry for a test kind (R458): LOGIC_BIST, MARGIN_BIST, MARCH. -/
def testCause (kind : Nat) : Nat := if kind = 0 then 2 else if kind = 1 then 3 else 1

/-- LOC of a physical tile, or of a column with row 0xFF (R459). -/
def locOf (sh pc row : Nat) : Nat := sh * 2 ^ 24 + pc * 2 ^ 16 + row * 2 ^ 8

/-- Spare rows, bit columns and MAC rows of a repair entry kind, per sub-array (R444). -/
def spareLimit (kind : Nat) : Nat := [0, 4, 2, 2, 1, 1].getD kind 0

/-- Key of the spares in use of a tile: repair kind and sub-array. -/
def spareKey (kind sub : Nat) : Nat := 0x1000 * kind + sub

/-- A spare of the tile is free for a failure that one can cover: a row or bit column that failed March, or one MAC row of an M-tile (R442, R443,
R445). -/
def State.canRepair (s : State) (sh pc : Nat) (f : BistFail) : Bool :=
  let k := f.repKind.toNat
  f.repairable && (decide (f.kind.val = 2) || inMacRow f)
    && decide ((s.tile (tileIx sh pc f.row)).spares.getD (spareKey k (f.repDetail.toNat / 2 ^ 24)) 0 < spareLimit k)

/-- A spare row, column or MAC row is switched in (R442, R445, R456). -/
def State.softRepair (s : State) (sh pc : Nat) (f : BistFail) : State :=
  ((s.modTile (tileIx sh pc f.row) fun t =>
      let k := 0x1000 * f.repKind.toNat + f.repDetail.toNat / 2 ^ 24
      { t with spares := t.spares.set k (t.spares.getD k 0 + 1) }).addRepair f.repKind.toNat (testCause f.kind) (locOf sh pc f.row)
      f.repDetail.toNat).sheetCount sh 0x0B07 1

/-- A failing result: counted and logged (R443, R445, R467, R500). -/
def State.bistFail (s : State) (sh pc : Nat) (f : BistFail) (cond : BistCond) (origin : Nat) : State :=
  (s.sheetCount sh 0x0B03 1).logErr 0x0301
    { handle := s.handleOf (.ptile sh pc f.row), loc := locOf sh pc f.row, pt := some (ptOfSheet sh) }
    (bistRecord s sh pc f.row f.kind 1 cond origin f.detail f.sigDiff)

/-- What tests of `n` patterns found on physical columns stands in their registers: margin BIST ran last, but for a column that failed logic BIST
(R439, R453). -/
def State.foundBist (s : State) (cols : List (Nat × Nat)) (n : Nat) (fails : List ColFail) : State :=
  cols.foldl (fun a e =>
    let mine := (fails.filter fun x => decide (x.sh.val = e.1 ∧ x.pc.val = e.2) && isFailure x.fail).map (·.fail)
    a.ranBist e.1 e.2 (if mine.any fun f => decide (f.kind.val = 0) && !inMacRow f then 0 else 1) n mine) s

/-- Columns of a sheet that full BIST tests: every one that is not broke (R453). -/
def State.testable (s : State) (sh : Nat) : List (Nat × Nat) := ((List.range 18).filter fun c => !(s.sheet sh).broke.contains c).map fun c => (sh, c)

/-- What a restart window finds on columns: repaired, or broke at once (R454). -/
def State.windowCols (s : State) (shs : List Nat) (cols : List ColFail) (cond : BistCond) : State :=
  (cols.filter fun x => isFailure x.fail).foldl (fun a x =>
    if (a.sheet x.sh).broke.contains x.pc then a
    else if a.canRepair x.sh x.pc x.fail then a.softRepair x.sh x.pc x.fail
    else (a.bistFail x.sh x.pc x.fail cond 1).retireOne x.sh x.pc (testCause x.fail.kind)) (s.foundBist (shs.flatMap s.testable) 262144 cols)

/-- What a restart window finds on die-to-die links of sheets (R82, R455): a lane is repaired, or the sheet is DEGRADED. -/
def State.windowLinks (s : State) (shs : List Nat) (d2d : List D2dFail) : State :=
  let s1 := shs.foldl (fun a n => a.modSheet n fun x => { x with linkFail := false }) s
  d2d.foldl (fun a d => if d.repaired then a.addRepair 6 1 d.loc.toNat d.detail.toNat
    else a.modSheet d.sh fun x => { x with linkFail := true }) s1

/-- Roles after a restart window of a partition reset (R454): kept where legal, else the lowest legal position, ascending. -/
def keepRoles (before x : Sheet) : Sheet :=
  let y := x.startRoles
  match before.rove with
  | some r => if y.health = 0 ∧ ({ y with rove := none } : Sheet).legal r then { y with rove := some r, down := before.down } else y
  | none => y

/-- The end of a restart window on a sheet: every column has been zeroised, the roles and the map are installed, a dwell is due; a
column that passed and cannot be steered to is WATCHED no longer (R494). -/
def windowEnd (roles : Sheet → Sheet) (x : Sheet) : Sheet :=
  let y := install (roles x)
  let free := roles { x with fenced := [] }
  let seen (c : Nat) : Bool := y.legal (c + 1) || (decide (0 < c) && y.legal (c - 1))
  { y with
    unfence := if x.fenced.isEmpty then none else some (free.rove, free.stand, free.down, x.broke)
    since := x.fenced.map fun e => .fence e.1 e.2
    watched := if y.health = 0 then y.watched.filter seen else [], dwell := none, dwellDue := if y.health = 0 ∧ y.rove.isSome then some .sweep else none, before := none
    tstat := (List.range 18).map fun c => { zeroised := !x.broke.contains c } }

/-! ### Partition reset (R517, R518) -/

/-- A reset of partition `p` meets the context that holds it: FAULTED; a schedule that runs holds there from the next cycle, and on the context's other
partitions, those apart that an earlier reset holds, from the next frame boundary (R517). -/
def State.resetCtx (s : State) (c p : Nat) : State :=
  let x := s.ctx c
  let on := x.going.filter (· ≠ p)
  let s1 := s.faultCtx c rReset orphaned
  if x.hold = .none then s1.modCtx c fun y => { y with runOn := on, hold := if on.isEmpty then .stopped else .none } else s1

/-- The timeline of a partition reset begins: the holding context is FAULTED, pending columns retire, dies and counters are lost, the channels
enter self-refresh. -/
def State.beginReset (s : State) (p op requester : Nat) : State :=
  let s1 := s.modPt p fun x => { x with reset := some ⟨op, false⟩, tripAt := none }
  let s2 := s1.logErr 0x0502 { handle := s.handleOf (.pt p), ctx := s.holder p, pt := some p } (le 4 op ++ le 1 requester ++ le 3 0)
  let s3 := match s2.holder p with
    | some c => s2.resetCtx c p
    | none => s2
  let s4 := (sheetsOfPt p).foldl State.retirePending s3
  (s4.darken p).selfRefresh p true

/-- A mode change reaches a unit: its value is taken (R640). -/
def State.applyMode (s : State) (mode u value : Nat) (lanes : BitVec 4) : State :=
  if mode = 1 then s.modPt u fun x => { x with perf := value }
  else if mode = 3 then s.modPt u fun x => { x with classN := decide (value = 1) }
  else (s.modPort u fun x => { x with eth := decide (value = 1) }).trainPort u lanes 0xFFFF#16 0

/-- Count units as applied; after the last the change finishes with OP_DONE and MODE_DONE (R644). -/
def State.modeApplied (s : State) (mode : Nat) (us : List Nat) (bad : Bool) : State :=
  let upd (m : ModeChange) : ModeChange :=
    if m.mode = mode then { m with applied := m.applied ++ us.filter (fun u => m.units.contains u && !m.applied.contains u)
                                   degraded := m.degraded || bad } else m
  let s1 : State := { s with mgmt := { s.mgmt with modes := s.mgmt.modes.map upd } }
  match s1.mgmt.modes.find? fun (m : ModeChange) => decide (m.mode = mode) && m.units.all m.applied.contains with
  | none => s1
  | some m =>
    let s2 := ({ s1 with mgmt := { s1.mgmt with modes := s1.mgmt.modes.filter (·.mode ≠ mode) } }).finishOp m.op
      (if m.degraded then degraded else ok) []
    s2.raise 5

/-- Mode changes of a partition under reset are applied when the reset ends (R646). -/
def State.modesAfterReset (s : State) (p : Nat) : State :=
  s.mgmt.modes.foldl (fun a m =>
    if m.mode ≠ 2 ∧ m.units.contains p ∧ !m.applied.contains p then (a.applyMode m.mode p m.value 0).modeApplied m.mode [p] false else a) s

/-- The first unit of a change that it has not reached (R640). -/
def ModeChange.next (m : ModeChange) : Option Nat := m.units.find? fun u => !m.applied.contains u

/-- A PERF_STATE change that has reached a partition of context `c` takes effect on all of them at the commit (R642). -/
def State.perfAtCommit (s : State) (c : Nat) : State :=
  match s.mgmt.modes.find? (·.mode = 1) with
  | none => s
  | some m =>
    match m.next with
    | none => s
    | some u => if s.holder u ≠ some c then s
      else
        let us := (s.ctx c).held.filter m.units.contains
        (us.foldl (fun a p => a.applyMode 1 p m.value 0) s).modeApplied 1 us false

/-- One partition's reset ends (R517): repairs and maps, channels, status and power. A rail whose PG is still low, or a trip
in the meantime, keeps the partition Off (R687, R718). -/
def State.endReset (s : State) (p : Nat) (before : List Sheet) (broke : List Nat) : State :=
  let s1 := (broke.filter fun c => ptOfChan c = p).foldl (fun a c => a.breakChan c 7 0) s
  let s2 := (chansOfPt p).foldl (fun a c => a.modChan c fun x =>
    { x with retrain := false, trained := !x.broke, tags := x.tags.map fun t => (t.1, true) }) s1
  let s3 := (sheetsOfPt p).foldl (fun a n => a.modSheet n (windowEnd (keepRoles (before.getD n {})))) s2
  let s4 := s3.modPt p fun x => { x with reset := none, faulted := false }
  let x := s4.pt p
  let s5 := if (x.en && !x.pg) ∨ x.tripAt.isSome ∨ s.start.pwr ≠ .m0 then s4 else s4.wakePt p
  let s6 := s5.modesAfterReset p
  if p = 0 then s6.flushSessions else s6

/-- PARTITION_RESET_END (R517, R453, R454, R700). -/
def partitionResetEnd (op : Nat) (cols : List ColFail) (d2d : List D2dFail) (chans : List Ch) (cond : BistCond) (s : State) : State :=
  let ps := (List.range 8).filter fun p => (s.pt p).reset = some ⟨op, false⟩
  if ps.isEmpty then s
  else
    let before := s.sheets
    let s1 := s.windowCols (ps.flatMap sheetsOfPt) (cols.filter fun x => ps.contains (ptOfSheet x.sh)) cond
    let s2 := s1.windowLinks (ps.flatMap sheetsOfPt) (d2d.filter fun x => ps.contains (ptOfSheet x.sh))
    let s3 := ps.foldl (fun a p => a.endReset p before (chans.map (·.val))) s2
    if s3.pts.any fun x => match x.reset with
      | some r => decide (r.op = op)
      | none => false then s3 else s3.finishOp op ok []

/-! ### Verb legality (R44) -/

/-- The units a verb on `h` acts on: the unit itself, or the units of a group (R50, R726). -/
def State.verbUnits (s : State) (h : Nat) : List UnitRef := (s.expand h).filterMap s.unitOf

/-- Checks common to FENCE, UNFENCE, TEST and RESET: handle, level, conflicting verb (R301, R44, R45). -/
def verbChecks (s : State) (h : Nat) (legal : UnitRef → Bool) (k : List UnitRef → State × Resp) : State × Resp :=
  if (s.unitOf h).isNone then (s, noHandle 0 h)
  else
    let us := s.verbUnits h
    if !us.all legal then (s, err unsupported { handle := h })
    else if s.verbBusy h then (s, err busy { handle := h })
    else k us

/-- A unit's status as the state of a conflict (R303). -/
def State.unitConflict (s : State) (u : UnitRef) : Resp :=
  err conflict { kind := 1, state := s.unitStatus 4 u, handle := s.handleOf u }

/-- The partition a hardware unit lies in. -/
def ptOfUnit : UnitRef → Nat
  | .pt p => p
  | .sheet n | .lcol n _ | .ltile n _ _ | .pcol n _ | .ptile n _ _ => ptOfSheet n
  | _ => 0

/-! ### RESET and module warm reset -/

/-- A module warm reset is accepted: every context holds, and it begins at WARM_RESET (R519). -/
def State.acceptWarm (s : State) (by' : Nat) : State :=
  { s with
    ctxs := s.ctxs.map fun x => { x with hold := .stopped }
    clk := { s.clk with zero := s.clk.life }
    start := { s.start with warmDue := true, warmBy := some by' } }

/-- RESET (R44, R45, R517–R519, R687). -/
def mbReset : MbFun := fun m p s => checked 4 [] p s fun _ =>
  let h := arg p 0 4
  let who := if m = .sideband then 1 else 0
  if s.unitOf h = some .module then
    if s.verbBusy h then (s, err busy { handle := h })
    else background s m 0x0030 h fun _ t => t.acceptWarm who
  else verbChecks s h (fun u => match u with
    | .pt _ => true
    | _ => false) fun us =>
    let early (u : UnitRef) : Bool := match (s.pt (ptOfUnit u)).tripAt with
      | some t => decide (s.clk.life < t + 10 * cycPerSec)
      | none => false
    match us.find? early with
    | some u =>
      let left := ((s.pt (ptOfUnit u)).tripAt.getD 0) + 10 * cycPerSec - s.clk.life
      (s, err conflict { kind := 1, state := 6, handle := s.handleOf u, extra := (left + 1799999) / 1800000 })
    | none =>
      background s m 0x0030 h fun id t =>
        let t1 := us.foldl (fun a u =>
          let q := ptOfUnit u
          let reading := match a.dumping with
            | some d => d.reading.contains q
            | none => false
          if reading then a.modPt q fun x => { x with reset := some ⟨id, true⟩ } else a.beginReset q id who) t
        if us.isEmpty then t1.finishOp id ok [] else t1

/-! ### Firmware restart (R520, R626, R629, R632) -/

/-- Checks 1, 2, 3 and 5 of R626 on an image, with the verdict on check 4. -/
def State.imageOk (s : State) (b : List Byte) (v : Verdict) : Bool :=
  let key := fieldAt b 0x0F 1
  decide (0xA40 + 4627 ≤ b.length ∧ fieldAt b 0 4 = 0x46584245 ∧ fieldAt b 4 2 = 1 ∧ b.length = 0xA40 + fieldAt b 0x10 8 + 4627)
    && decide (fieldAt b 0x0E 1 = s.ident.stepping.toNat) && decide (key < 4) && !s.ident.revoked.getLsbD key
    && (sha3 ((b.drop 0x20).take 2592) == s.ident.vendor.getD key []) && s.sigGood ((b.drop 0x20).take 2592) b v && decide (s.ident.svn ≤ fieldAt b 6 1)

/-- The verdict on the signature of a firmware image is remembered. -/
def State.judgeImage (s : State) (b : List Byte) (v : Verdict) : State := s.judge ((b.drop 0x20).take 2592) b v

/-- An image becomes the running one (R625, R629). -/
def State.runImage (s : State) (b : List Byte) : State :=
  { s with mgmt := { s.mgmt with
    runVer := BitVec.ofNat 32 (fieldAt b 8 4), runTylys := BitVec.ofNat 16 (fieldAt b 0xC 2), runSvn := fieldAt b 6 1
    forceSvn := (fieldAt b 7 1).testBit 0, runDigest := sha3 b } }

/-- The image in module flash. -/
def State.flashImage (s : State) : List Byte := s.mgmt.flash.read 0 s.mgmt.flashLen

/-- FW_READY goes from 0 to 1, and commands that a restart has cut complete (R292, R304). -/
def State.readyUp (s : State) : State := (State.raise { s with host := { s.host with fwReady := true } } 4).cutCommands

/-- Firmware accepts commands: FW_READY rises and its cause is raised; an image with FORCE_SVN advances the fuses (R292, R304, R631, R703). -/
def State.fwUp (s : State) : State :=
  let s1 := if s.mgmt.forceSvn then { s with ident := { s.ident with svn := max s.ident.svn s.mgmt.runSvn } } else s
  s1.readyUp

/-- A control core is marked unusable (R457). -/
def State.coreOff (s : State) (core cause : Nat) : State :=
  if s.dies.coreOff.contains core then s
  else
    let loc := (0x30 + core / 8) * 2 ^ 24 + core % 8
    let e := le 1 0x12 ++ le 1 cause ++ le 2 0 ++ le 4 loc ++ le 4 0 ++ le 4 s.lifeH
    (({ s with dies := { s.dies with coreOff := s.dies.coreOff ++ [core] } }).addRepair 0x12 cause loc 0).logErr 0x0307 { loc := loc } e

/-- A firmware restart begins (R520, R292). -/
def State.beginRestart (s : State) (op : Option Nat) (cause : Nat) : State :=
  let s1 := { s with host := { s.host with fwReady := false }, mgmt := { s.mgmt with restart := some op } }
  s1.logErr 0x0504 {} (le 1 cause ++ le 3 0)

/-- A firmware restart ends with a running image. -/
def State.endRestart (s : State) (b : List Byte) : State :=
  match s.mgmt.restart with
  | none => s
  | some op =>
    let fw := if s.mgmt.fw = .pending ∨ s.mgmt.fw = .recovery then FwState.idle else s.mgmt.fw
    let s1 := s.runImage b
    let s2 := { s1 with mgmt := { s1.mgmt with restart := none, fw := fw, recovery := 0 } }
    s2.fwUp.finishOp? op ok []

/-- FW_RESTART (R520, R628). -/
def mbFwRestart : MbFun := fun m p s => checked 0 [] p s fun _ =>
  if s.mgmt.fw = .verifying ∨ s.mgmt.fw = .writing then
    (s, err conflict { kind := 6, state := if s.mgmt.fw = .verifying then 2 else 3 })
  else background s m 0x0031 (s.handleOf .module) fun id t => t.beginRestart (some id) 0

/-- FW_RESTART_END (R457, R520, R629, R632): the flash image is checked and loaded, or the recovery order is followed. -/
def fwRestartEnd (fails : List (Fin 16)) (v : Verdict) (s : State) : State :=
  if s.mgmt.restart.isNone ∨ s.mgmt.fw = .recovery then s
  else
    let s1 := fails.foldl (fun a c => a.coreOff c 0x0B) (s.judgeImage s.flashImage v)
    if s1.imageOk s1.flashImage v then s1.endRestart s1.flashImage
    else
      let s2 := { s1 with mgmt := { s1.mgmt with fw := .recovery, recovery := 3, fwRecovery := true, waitHostAt := s.clk.life } }
      s2.readyUp

/-! ### Modes (R640–R646) -/

/-- The units of a scope (R640): ports of a bitmap, or the partitions of the module or of a partition. -/
def modeUnits (s : State) (mode scope : Nat) : List Nat :=
  if mode = 2 then bits 18 scope
  else match s.unitOf scope with
    | some .module => List.range 8
    | some (.pt q) => [q]
    | _ => []

/-- The value a unit holds. -/
def State.modeValue (s : State) (mode u : Nat) : Nat :=
  if mode = 1 then (s.pt u).perf else if mode = 3 then (if (s.pt u).classN then 1 else 0) else if (s.port u).eth then 1 else 0

/-- Scope checks: INVALID_ARG for a bitmap beyond FP17, NOT_FOUND, UNSUPPORTED for another level. -/
def scopeBad (s : State) (mode scope : Nat) : Option Resp :=
  if mode = 2 then (if 2 ^ 18 ≤ scope then some (err invalid { arg := 4 }) else none)
  else match s.unitOf scope with
    | none => some (noHandle 4 scope)
    | some .module => none
    | some (.pt _) => none
    | some _ => some (err unsupported { handle := scope })

/-- What bars a mode change (R642, R643, R671). -/
def modeSetBar (s : State) (mode value : Nat) (us : List Nat) : Option Resp :=
  match s.mgmt.modes.find? (·.mode = mode) with
  | some x => some (modeConflict mode x.applied.length 1)
  | none =>
    let split := us.find? fun u => match s.holder u with
      | some c => (s.ctx c).held.any fun q => !us.contains q
      | none => false
    if mode = 1 ∧ split.isSome then some (ctxConflict (s.ctx ((s.holder (split.getD 0)).getD 0)).st)
    else if mode = 3 ∧ value = 1 ∧ us.any (fun u => s.bandOfPt u ≠ 0) then some (modeConflict 3 0 0)
    else if mode = 3 ∧ value = 0 ∧ us.any (fun u => match s.holder u with
        | some c => ((s.ctx c).prog.map (·.refreshN)).getD false
        | none => false) then some (modeConflict 3 0 0)
    else if mode = 2 ∧ value = 1 ∧ us.any (fun u => (s.port u).groups.any (· ≠ 0)) then some (modeConflict 2 0 0)
    else if mode = 1 ∧ s.overCap (s.budgetWith [] [] fun q => if us.contains q then value else (s.pt q).perf) then some (err noResource)
    else none

/-- MODE_SET (R640–R644, R671). -/
def mbModeSet : MbFun := fun m p s => checked 12 [(1, 3)] p s fun _ =>
  let mode := arg p 0 1
  let scope := arg p 4 4
  let value := arg p 8 4
  if mode < 1 ∨ 3 < mode then (s, err invalid { arg := 0 })
  else if (if mode = 1 then 3 else 1) < value then (s, err invalid { arg := 8 })
  else match scopeBad s mode scope with
    | some r => (s, r)
    | none =>
      let us := modeUnits s mode scope
      match modeSetBar s mode value us with
      | some r => (s, r)
      | none => background s m 0x0040 (if mode = 2 then 0 else scope) fun id t =>
        let same := us.filter fun u => decide (s.modeValue mode u = value)
        let c : ModeChange := ⟨mode, value, id, us, [], false⟩
        let t1 := ({ t with mgmt := { t.mgmt with modes := t.mgmt.modes ++ [c] } }).modeApplied mode same false
        match us.find? fun u => !same.contains u with
        | some u => if mode = 2 then t1.startTraining u else t1
        | none => t1

/-- MODE_UNIT_APPLIED: the change reaches its next unit (R640, R642, R644). A partition bound to a RUNNING context is left to its next commit,
one under reset to the reset's end (R642, R646). -/
def modeUnitApplied (mode : Nat) (lanes : BitVec 4) (s : State) : State :=
  match s.mgmt.modes.find? (·.mode = mode) with
  | none => s
  | some m =>
    match m.next with
    | none => s
    | some u =>
      let waits := decide (mode ≠ 2) && ((s.pt u).reset.isSome || (decide (mode = 1) && match s.holder u with
        | some c => (s.ctx c).active
        | none => false))
      if waits then s
      else
        let s1 := s.applyMode mode u m.value lanes
        let s2 := s1.modeApplied mode [u] (decide (mode = 2) && decide ((s1.port u).st = .failed))
        match s2.mgmt.modes.find? (·.mode = mode) with
        | some n => if mode = 2 then (match n.next with
            | some x => s2.startTraining x
            | none => s2) else s2
        | none => s2

/-- MODE_GET (R644). With no change in progress TARGET, APPLIED and TOTAL have no stated value. -/
def mbModeGet : MbFun := fun _ p s => checked 8 [(1, 3)] p s fun _ =>
  let mode := arg p 0 1
  let scope := arg p 4 4
  if mode < 1 ∨ 3 < mode then (s, err invalid { arg := 0 })
  else match scopeBad s mode scope with
    | some r => (s, r)
    | none =>
      let us := modeUnits s mode scope
      match s.mgmt.modes.find? fun m => decide (m.mode = mode) && us.any m.units.contains with
      | some m => (s, okResp (fld 1 1 ++ rsvd 3 ++ fld 4 (s.modeValue mode (m.next.getD 0)) ++ fld 4 m.value ++ fld 2 m.applied.length
          ++ fld 2 m.units.length))
      | none =>
        let vs := (us.map (s.modeValue mode)).eraseDups
        (s, okResp (fld 1 0 ++ rsvd 3 ++ (match vs with
          | [v] => fld 4 v
          | [] => rsvd 4
          | _ => fld 4 0xFFFFFFFF) ++ rsvd 8))

/-! ### Power (R672–R679) -/

/-- Power-state code of PT_POWER_DEFAULT for a partition (R691). -/
def State.defaultPower (s : State) (p : Nat) : Nat := s.settingNat 0x23 / 4 ^ p % 4

/-- Put a partition, whose dies are dark, in the state PT_POWER_DEFAULT gives (R676, R691, R702). -/
def State.powerDefault (s : State) (p : Nat) : State :=
  if s.defaultPower p = 3 then s.offPt p true else if s.defaultPower p = 2 then (s.sleepPt p).selfRefresh p false else s.wakePt p

/-- What bars a partition's power change (R676, R679). -/
def ptPowerBar (s : State) (st p : Nat) : Option Resp :=
  let x := s.pt p
  let c := s.holder p
  let cst := (s.ctx (c.getD 64)).st
  match s.mgmt.modes.find? fun m => decide (m.mode ≠ 2) && m.units.contains p && !m.applied.contains p with
  | some m => some (modeConflict m.mode m.applied.length 1)
  | none =>
  if x.pwr = .off ∧ !x.offByCmd ∧ st ≠ 3 then some (s.unitConflict (.pt p))
  else if st = 2 ∧ c.isSome ∧ (cst = .loading ∨ cst = .running ∨ cst = .suspending ∨ cst = .resuming) then some (ctxConflict cst)
  else if st = 3 ∧ c.isSome then some (ctxConflict cst)
  else if st ≠ 3 ∧ s.start.pwr ≠ .m0 then some (pwrConflict s)
  else none

/-- The code of a partition's target that its state meets: 0 awake, 2 Asleep, 3 Off. -/
def targetHeld (x : PtPwr) (st : Nat) : Bool :=
  match x with
  | .run | .idle => decide (st = 0)
  | .asleep => decide (st = 2)
  | .off => decide (st = 3)

/-- What bars a module power change (R676, R679). -/
def modPowerBar (s : State) (m : Master) (st : Nat) : Option Resp :=
  let holding := (List.range 64).find? fun c => !(s.ctx c).held.isEmpty
  if st = 2 then
    if s.start.pwr ≠ .m0 then some (pwrConflict s)
    else match holding with
      | some c => some (ctxConflict (s.ctx c).st)
      | none =>
        match (List.range 8).find? fun q => (s.pt q).reset.isSome with
        | some q => some (s.unitConflict (.pt q))
        | none =>
          if s.mgmt.fw ≠ .idle ∧ s.mgmt.fw ≠ .pending then
            some (err conflict { kind := 6, state := if s.mgmt.fw = .staging then 1 else if s.mgmt.fw = .verifying then 2 else 3 })
          else match s.mgmt.modes with
            | c :: _ => some (modeConflict c.mode c.applied.length 1)
            | [] => if s.dumping.isSome ∨ s.running.any (·.code = 0x60) then some (pwrConflict s) else none
  else if st = 3 then
    if s.start.pwr ≠ .m2 then some (pwrConflict s)
    else match (List.range 64).find? fun c =>
        let x := (s.ctx c).st
        decide (x ≠ .free ∧ x ≠ .created ∧ x ≠ .allocated ∧ x ≠ .suspended) || (s.ctx c).queues.any fun q => decide (q.inflight ≠ 0) with
      | some c => some (ctxConflict (s.ctx c).st)
      | none => none
  else if s.start.pwr = .m3 ∧ m = .host then some (pwrConflict s)
  else none

/-- Leaving M3 starts (R676, R677, R695): stage 3 of a start of kind 2. -/
def State.leaveM3 (s : State) (op : Option Nat) : State :=
  { s with sheets := s.sheets.map fun x => { ({} : Sheet) with counters := x.counters }
           chans := s.chans.map fun x => { x with broke := false, trained := false }
           ports := s.ports.map fun x => { x with broke := 0 }
           dies := { s.dies with coreOff := [], coreDown := [], nipOff := [], ecOff := [] }
           logs := { s.logs with inForce := [] }
           start := { s.start with
             found := [], warmBy := none,
             stage := 3, kind := 2, halt := 0, six := false, seven := false, doneMs := List.replicate 9 0, repairLost := false
             pwr := .m0, pwrOp := some (.m0, op) }
           clk := { s.clk with stageZero := s.clk.life, zero := s.clk.life } }

/-- POWER_SET (R671, R675–R679). -/
def mbPowerSet : MbFun := fun m p s => checked 8 [(5, 3)] p s fun _ =>
  let h := arg p 0 4
  let st := arg p 4 1
  if st ≠ 0 ∧ st ≠ 2 ∧ st ≠ 3 then (s, err invalid { arg := 4 })
  else if s.unitOf h = some .module then
    let held := decide ((st = 0 ∧ s.start.pwr = .m0) ∨ (st = 2 ∧ s.start.pwr = .m2) ∨ (st = 3 ∧ s.start.pwr = .m3))
    if held then background s m 0x0042 h fun id t => t.finishOp id ok []
    else match modPowerBar s m st with
      | some r => (s, r)
      | none => background s m 0x0042 h fun id t =>
        if st = 0 ∧ s.start.pwr = .m3 then t.leaveM3 (some id)
        else { t with start := { t.start with pwrOp := some (if st = 0 then .m0 else if st = 2 then .m2 else .m3, some id) } }
  else if (s.unitOf h).isNone then (s, noHandle 0 h)
  else
    let us := s.verbUnits h
    if !us.all (fun u => match u with
      | .pt _ => true
      | _ => false) then (s, err unsupported { handle := h })
    else
      let ps := us.map ptOfUnit
      let todo := ps.filter fun q => !targetHeld (s.pt q).pwr st
      match todo.findSome? (ptPowerBar s st) with
      | some r => (s, r)
      | none =>
        if st = 0 ∧ s.overCap (s.budgetWith [] todo fun q => (s.pt q).perf) then (s, err noResource)
        else background s m 0x0042 h fun id t =>
          if todo.isEmpty then t.finishOp id ok [] else t.modOp id fun o => { o with arg := st, pts := todo }

/-- The ports of a parked or dark module go down (R672). -/
def State.portsDown (s : State) : State :=
  (List.range 18).foldl (fun a k => a.modPort k fun x =>
    { x with st := .down, lanes := 0, peer := 0xFFFF#16, peerPort := 0, credits := List.replicate 16 0, txq := [] }) s

/-- The module takes a power state (R672, R676, R677). -/
def State.takeModPwr (s : State) (t : ModPwr) : State :=
  match t with
  | .m2 =>
    let s1 := (List.range 8).foldl (fun a k => a.offPt k true) s
    let s2 := { s1 with start := { s1.start with pwr := .m2 } }
    if s.settingNat 0x22 = 0 then s2.portsDown else s2
  | .m3 =>
    let s1 := ((List.range 8).foldl (fun a k => a.selfRefresh k true) s).portsDown.emit (.enable 8 false)
    { s1 with
      start := { s1.start with pwr := .m3, vsoc := false }
      host := { s1.host with linkUp := false, fwReady := false, busy := false, spoiled := false, hostLines := [] } }
  | .m0 =>
    let s1 := { s with start := { s.start with pwr := .m0 } }
    let s2 := (List.range 8).foldl State.powerDefault s1
    (List.range 18).foldl (fun a k => if (a.port k).st = .down then a.startTraining k else a) s2

/-- One partition takes a state (R676): a trip in between decides (R679), and a partition that a context has come to hold is not switched off. -/
def State.takePtPwr (s : State) (st p : Nat) : State :=
  let x := s.pt p
  if x.tripAt.isSome ∨ x.reset.isSome ∨ (x.en ∧ !x.pg) then s
  else if st = 0 then s.wakePt p
  else if st = 2 then (if x.pwr = .off then (s.sleepPt p).selfRefresh p false else s.sleepPt p)
  else if (s.holder p).isSome then s else s.offPt p true

/-- POWER_STATE_REACHED (R676, R679). A context that has come to hold a partition since bars M2: the operation ends with STATE_CONFLICT (DESIGN
CHOICE, log entry 37). -/
def powerStateReached (op : Nat) (s : State) : State :=
  match s.start.pwrOp with
  | some (t, some o) =>
    if o = op ∧ s.start.stage = 0xA then
      if t = .m2 ∧ s.ctxs.any fun x => !x.held.isEmpty then ({ s with start := { s.start with pwrOp := none } }).finishOp op conflict []
      else
      ({ s with start := { s.start with pwrOp := none } }.takeModPwr t).finishOp op ok []
    else s
  | _ =>
    match s.op? op with
    | none => s
    | some o =>
      if o.code ≠ 0x42 ∨ o.finished then s
      else
        let tripped := o.pts.any fun q => (s.pt q).tripAt.isSome || ((s.pt q).en && !(s.pt q).pg)
        (o.pts.foldl (fun a q => a.takePtPwr o.arg q) s).finishOp op (if tripped then timeout else ok) []

/-! ### Fencing (R85, R86, R522–R525) -/

/-- Levels at which FENCE, UNFENCE and TEST are legal (R44). -/
def fenceLevel : UnitRef → Bool
  | .pt _ | .sheet _ | .pcol _ _ | .ptile _ _ _ => true
  | _ => false

/-- Sheet, column and row of a physical unit. -/
def colOfUnit : UnitRef → Option (Nat × Nat × Option Nat)
  | .pcol n c => some (n, c, none)
  | .ptile n c t => some (n, c, some t)
  | _ => none

/-- What bars a FENCE (R42, R85, R524): every unit is looked at with the columns before it fenced too. -/
def fenceBar (s : State) (us : List UnitRef) : Option Resp :=
  us.findSome? fun u =>
    match colOfUnit u with
    | none => match s.holder (ptOfUnit u) with
      | some c => some (ctxConflict (s.ctx c).st)
      | none => none
    | some (n, pc, _) =>
      let x := s.sheet n
      if x.broke.contains pc then some (err conflict { kind := 1, state := 7, handle := s.handleOf u })
      else
        let all := (us.filterMap colOfUnit).filterMap fun e => if e.1 = n then some (e.2.1, e.2.2) else none
        let y : Sheet := { x with fenced := x.fenced ++ all }
        if y.health = 2 then some (err conflict { kind := 1, state := s.sheetStatus n, handle := s.handleOf (.sheet n) }) else none

/-- FENCE one unit (R522–R524). -/
def State.fenceUnit (s : State) (op : Nat) (u : UnitRef) : State :=
  match u with
  | .pt p => (sheetsOfPt p).foldl (fun a n => (a.modSheet n fun x => { x with sheetFenced := true }).abandonDwell n)
      (s.modPt p fun x => { x with fenced := true })
  | .sheet n => (s.modSheet n fun x => { x with sheetFenced := true }).abandonDwell n
  | .pcol n pc =>
    if roleOf (s.sheet n) pc = 0 ∧ (s.holderOfSheet n).isSome then s.modSheet n fun x => { x with fencePend := x.fencePend ++ [(op, pc, none, true)] }
    else (s.fenceCol n pc none).applyRoles n (s.sheet n)
  | .ptile n pc t =>
    if roleOf (s.sheet n) pc = 0 ∧ (s.holderOfSheet n).isSome then s.modSheet n fun x => { x with fencePend := x.fencePend ++ [(op, pc, some t, true)] }
    else (s.fenceCol n pc (some t)).applyRoles n (s.sheet n)
  | _ => s

/-- FENCE (R44, R45, R85, R522, R524, R726). -/
def mbFence : MbFun := fun m p s => checked 4 [] p s fun _ =>
  let h := arg p 0 4
  verbChecks s h fenceLevel fun us =>
    match fenceBar s us with
    | some r => (s, r)
    | none => background s m 0x0050 h fun id t =>
      if us.isEmpty then t.finishOp id ok [] else (us.foldl (fun a u => a.fenceUnit id u) t).finishFences

/-- A unit is fenced. -/
def State.isFenced (s : State) (u : UnitRef) : Bool :=
  match u with
  | .pt p => (s.pt p).fenced
  | .sheet n => (s.sheet n).sheetFenced
  | .pcol n pc => (s.sheet n).fenced.contains (pc, none)
  | .ptile n pc t => (s.sheet n).fenced.contains (pc, some t)
  | _ => false

/-- Columns an UNFENCE returns to service, which are tested first (R525). -/
def State.unfenceCols (s : State) (us : List UnitRef) : List (Nat × Nat) :=
  (us.flatMap fun u => match u with
    | .pt p => (sheetsOfPt p).flatMap fun n => ((List.range 18).filter (s.sheet n).free?).map fun c => (n, c)
    | .sheet n => ((List.range 18).filter (s.sheet n).free?).map fun c => (n, c)
    | .pcol n c => [(n, c)]
    | .ptile n c _ => [(n, c)]
    | _ => []).eraseDups

/-- A broke unit accepts no verb (R42). -/
def State.isBroke (s : State) (u : UnitRef) : Bool :=
  match colOfUnit u with
  | some (n, pc, _) => (s.sheet n).broke.contains pc
  | none => false

/-- UNFENCE (R42, R44, R45, R86, R525, R726). -/
def mbUnfence : MbFun := fun m p s => checked 4 [] p s fun _ =>
  let h := arg p 0 4
  verbChecks s h fenceLevel fun us =>
    match us.find? fun u => !s.isFenced u || s.isBroke u with
    | some u => (s, s.unitConflict u)
    | none => background s m 0x0051 h fun id t =>
      if us.isEmpty then t.finishOp id ok [] else t.modOp id fun o => { o with cols := s.unfenceCols us }

/-- A fence of `u` is lifted once its tests have passed: a column that has failed stays out (R525). -/
def State.unfenceUnit (s : State) (op : Nat) (u : UnitRef) : State :=
  match u with
  | .pt p => (sheetsOfPt p).foldl (fun a n => a.modSheet n fun x => { x with sheetFenced := false }) (s.modPt p fun x => { x with fenced := false })
  | .sheet n => s.modSheet n fun x => { x with sheetFenced := false }
  | .pcol n pc => s.modSheet n fun x => { x with fencePend := x.fencePend ++ [(op, pc, none, false)] }
  | .ptile n pc t => s.modSheet n fun x => { x with fencePend := x.fencePend ++ [(op, pc, some t, false)] }
  | _ => s

/-! ### TEST (R465, R466) -/

/-- Columns a TEST of a unit runs on (R465). -/
def State.testCols (s : State) (u : UnitRef) : List (Nat × Nat) :=
  match u with
  | .pt p => (sheetsOfPt p).flatMap fun n => ((List.range 18).filter fun c => !(s.sheet n).broke.contains c).map fun c => (n, c)
  | .sheet n => ((List.range 18).filter fun c => !(s.sheet n).broke.contains c).map fun c => (n, c)
  | .pcol n c => [(n, c)]
  | .ptile n c _ => [(n, c)]
  | _ => []

/-- What bars a TEST of a unit (R465, R678). -/
def testBar (s : State) (u : UnitRef) : Option Resp :=
  let bound := match s.holder (ptOfUnit u) with
    | some c => some (ctxConflict (s.ctx c).st)
    | none => none
  match colOfUnit u with
  | none => bound
  | some (n, pc, _) =>
    let r := roleOf (s.sheet n) pc
    if r = 5 then some (err conflict { kind := 1, state := 7, handle := s.handleOf u })
    else if r = 2 ∨ r = 3 ∨ r = 4 then none else bound

/-- TEST begins on columns: they are zeroised, and a sheet tested whole leaves its dwell (R434, R453). -/
def State.beginTest (s : State) (us : List UnitRef) (cols : List (Nat × Nat)) : State :=
  let whole := us.flatMap fun u => match u with
    | .pt p => sheetsOfPt p
    | .sheet n => [n]
    | _ => []
  let s1 := whole.foldl State.abandonDwell { s with
    tiles := s.tiles.filter fun e => !cols.contains (e.1 / 288, e.1 % 288 / 16) }
  cols.foldl (fun a e => a.modSheet e.1 fun x => { x with tstat := x.tstat.modify e.2 fun t => { t with zeroised := true, trip := false } }) s1

/-- TEST (R44, R45, R465, R678, R726). -/
def mbTest : MbFun := fun m p s => checked 8 [(5, 3)] p s fun _ =>
  let h := arg p 0 4
  let kind := arg p 4 1
  if 3 < kind then (s, err invalid { arg := 4 })
  else verbChecks s h fenceLevel fun us =>
    if s.start.pwr ≠ .m0 then (s, pwrConflict s)
    else match us.findSome? (testBar s) with
    | some r => (s, r)
    | none =>
      let cols := (us.flatMap s.testCols).eraseDups
      background s m 0x0060 h fun id t =>
        if us.isEmpty then t.finishOp id ok []
        else (t.modOp id fun o => { o with cols := cols, kind := kind }).beginTest us cols

/-- Test kinds a TEST runs (R465): 3 asks for all. -/
def kindsOf (kind : Nat) : List Nat := if kind = 3 then [0, 1, 2] else [kind]

/-- Ascending order of result records: sheet, PC, KIND, ROW (R466). -/
def recordKey (r : List Byte) : Nat :=
  (((r.getD 8 0).toNat * 256 + (r.getD 9 0).toNat) * 256 + (r.getD 11 0).toNat) * 256 + (r.getD 10 0).toNat

/-- The first failure of each tile (R466: one record for each failing tile). -/
def perTile (l : List ColFail) : List ColFail :=
  l.foldl (fun a x => if a.any fun y => decide (y.fail.row = x.fail.row) then a else a ++ [x]) []

/-- Result records of tested columns (R466): a pass per column and kind, a failing tile otherwise. -/
def testRecords (s : State) (cols : List (Nat × Nat)) (kinds : List Nat) (fails : List ColFail) (cond : BistCond) : List (List Byte) :=
  (cols.flatMap fun e => kinds.flatMap fun k =>
    let f := fails.filter fun x => decide (x.sh.val = e.1 ∧ x.pc.val = e.2 ∧ x.fail.kind.val = k) && isFailure x.fail
    if f.isEmpty then [bistRecord s e.1 e.2 0xFF k 0 cond 2 0 0]
    else (perTile f).map fun x => bistRecord s e.1 e.2 x.fail.row k
      (if f.all fun y => decide (y.fail.row ≠ x.fail.row) || s.canRepair y.sh y.pc y.fail then 2 else 1) cond 2 x.fail.detail x.fail.sigDiff).insertionSort
      fun a b => recordKey a ≤ recordKey b

/-- Failures of a test outside a restart window: repaired, or the column is condemned (R463, R465). -/
def State.testFails (s : State) (fails : List ColFail) (cond : BistCond) : State :=
  (fails.filter fun x => isFailure x.fail).foldl (fun a x =>
    if a.canRepair x.sh x.pc x.fail then a.softRepair x.sh x.pc x.fail
    else (a.bistFail x.sh x.pc x.fail cond 2).condemn x.sh x.pc (testCause x.fail.kind)) s

/-- TEST_FINISHED: a TEST, or the tests of an UNFENCE, complete (R465, R466, R525, R86). -/
def testFinished (op : Nat) (fails : List ColFail) (cond : BistCond) (s : State) : State :=
  match s.op? op with
  | none => s
  | some o =>
    let mine := fails.filter fun x => o.cols.contains (x.sh.val, x.pc.val) && isFailure x.fail
    if o.finished ∨ o.cols.isEmpty then s
    else if o.code = 0x60 then
      let ran := mine.filter fun x => (kindsOf o.kind).contains x.fail.kind.val
      let recs := testRecords s o.cols (kindsOf o.kind) ran cond
      let s0 := if (kindsOf o.kind).any (· < 2) then s.foundBist o.cols 262144 ran else s
      let s1 := (s0.testFails ran cond).modOp op fun y => { y with records := recs, cols := [] }
      let whole := ((o.units.filterMap s.unitOf).flatMap fun u => match u with
        | .pt p => sheetsOfPt p
        | .sheet n => [n]
        | _ => []).eraseDups
      let s2 := whole.foldl (fun a n => if (a.sheet n).dwell.isNone then a.modSheet n newDwell else a) s1
      s2.finishOp op ok []
    else if o.code = 0x51 then
      let us := o.units.filterMap s.unitOf
      let s1 := (us.foldl (fun a u => a.unfenceUnit op u) (s.foundBist o.cols 262144 mine)).testFails mine cond
      let s2 := s1.modOp op fun y => { y with cols := [], kind := 1 }
      let shs := (us.filterMap fun u => (colOfUnit u).map (·.1)).eraseDups
      let s3 := shs.foldl (fun a n => if (a.holderOfSheet n).isNone then a.installPoint true n else a) s2
      let s4 := (us.flatMap fun u => match u with
        | .pt p => sheetsOfPt p
        | .sheet n => [n]
        | _ => []).foldl (fun a n => a.modSheet n newDwell) s3
      s4.finishFences
    else s

/-- TEST_RESULT (R466). -/
def mbTestResult : MbFun := fun _ p s => checked 4 [] p s fun _ =>
  match s.op? (arg p 0 4) with
  | some o => if o.code = 0x60 then (s, okResp (fld 4 o.records.length ++ known ((o.records.take 127).flatten)))
      else (s, err notFound { arg := 0 })
  | none => (s, err notFound { arg := 0 })

/-! ### Arms -/

/-- RESET of the host. -/
def execReset (p : Payload) (s : State) : Host.Outcome State Fault Refusal := nextOf s (hostCmd .bp 0x0030 mbReset p s)
/-- PARTITION_RESET_END. -/
def execPartitionResetEnd (op : W32) (cols : List ColFail) (d2d : List D2dFail) (chans : List Ch) (cond : BistCond) (s : State) :
    Host.Outcome State Fault Refusal := nextOf s (partitionResetEnd op.toNat cols d2d chans cond s)
/-- FW_RESTART of the host. -/
def execFwRestart (p : Payload) (s : State) : Host.Outcome State Fault Refusal := nextOf s (hostCmd .bp 0x0031 mbFwRestart p s)
/-- FW_RESTART_END. -/
def execFwRestartEnd (coreFails : List (Fin 16)) (v : Verdict) (s : State) : Host.Outcome State Fault Refusal :=
  nextOf s (fwRestartEnd coreFails v s)
/-- MODE_SET of the host. -/
def execModeSet (p : Payload) (s : State) : Host.Outcome State Fault Refusal := nextOf s (hostCmd .b 0x0040 mbModeSet p s)
/-- MODE_UNIT_APPLIED. -/
def execModeUnitApplied (mode : Fin 3) (lanes : BitVec 4) (s : State) : Host.Outcome State Fault Refusal :=
  nextOf s (modeUnitApplied (mode.val + 1) lanes s)
/-- MODE_GET of the host. -/
def execModeGet (p : Payload) (s : State) : Host.Outcome State Fault Refusal := nextOf s (hostCmd .q 0x0041 mbModeGet p s)
/-- POWER_SET of the host. -/
def execPowerSet (p : Payload) (s : State) : Host.Outcome State Fault Refusal := nextOf s (hostCmd .b 0x0042 mbPowerSet p s)
/-- POWER_STATE_REACHED. -/
def execPowerStateReached (op : W32) (s : State) : Host.Outcome State Fault Refusal := nextOf s (powerStateReached op.toNat s)
/-- FENCE of the host. -/
def execFence (p : Payload) (s : State) : Host.Outcome State Fault Refusal := nextOf s (hostCmd .b 0x0050 mbFence p s)
/-- UNFENCE of the host. -/
def execUnfence (p : Payload) (s : State) : Host.Outcome State Fault Refusal := nextOf s (hostCmd .b 0x0051 mbUnfence p s)
/-- TEST of the host. -/
def execTest (p : Payload) (s : State) : Host.Outcome State Fault Refusal := nextOf s (hostCmd .b 0x0060 mbTest p s)
/-- TEST_FINISHED. -/
def execTestFinished (op : W32) (fails : List ColFail) (cond : BistCond) (s : State) : Host.Outcome State Fault Refusal :=
  nextOf s (testFinished op.toNat fails cond s)
/-- TEST_RESULT of the host. -/
def execTestResult (p : Payload) (s : State) : Host.Outcome State Fault Refusal := nextOf s (hostCmd .q 0x0061 mbTestResult p s)

end Sys2Proof.Machine
end

