-- ==== Sys2Proof/Machine/Logs.lean ====
section
/-!
DEFINITION. The suspect ledger and the error log as read, crash dumps, and settings (R490–R492, R502, R527–R532, R635–R639): LEDGER_READ to
SETTINGS_SET, and the dump engine's events.
-/
namespace Sys2Proof.Machine

/-! ### Logs as read (R492, R502) -/

/-- A log read: records in SEQ order with their SEQ, the SEQ the next record takes, and the request. -/
def logRead (l : List (W32 × List Byte)) (next frm : W32) (count : Nat) : List RByte :=
  let oldest := match l with
    | [] => next
    | r :: _ => r.1
  let newest := match l.getLast? with
    | some r => r.1
    | none => next - 1
  let d := (frm - oldest).toNat
  let from' := if 2 ^ 31 ≤ d then l else l.filter fun r => decide (d ≤ (r.1 - oldest).toNat)
  let out := from'.take count
  fld 4 l.length ++ fld 4 oldest.toNat ++ fld 4 newest.toNat ++ fld 4 out.length ++ known (out.flatMap (·.2))

/-- LEDGER_READ (R492). -/
def mbLedgerRead : MbFun := fun _ p s => checked 8 [(6, 2)] p s fun _ =>
  let n := arg p 4 2
  if n < 1 ∨ 63 < n then (s, err invalid { arg := 4 })
  else (s, okResp (logRead (s.logs.ledger.map fun r => (BitVec.ofNat 32 (fieldAt r 0 4), r)) s.logs.ledgerSeq (BitVec.ofNat 32 (arg p 0 4)) n))

/-- ERRLOG_READ (R502). -/
def mbErrlogRead : MbFun := fun _ p s => checked 8 [(6, 2)] p s fun _ =>
  let n := arg p 4 2
  if n < 1 ∨ 15 < n then (s, err invalid { arg := 4 })
  else (s, okResp (logRead (s.logs.errs.map fun r => (r.seq, errBytes r)) (s.logs.seq + 1) (BitVec.ofNat 32 (arg p 0 4)) n))

/-! ### The bytes of a dump (R530–R532; log entry 14) -/

/-- Code of a dwell phase (R438). -/
def phaseCode : Phase → Nat
  | .idle => 0
  | .zeroise => 1
  | .march => 2
  | .logic => 3
  | .relock => 4
  | .margin => 5
  | .repair => 6
  | .couchIn => 7
  | .inStep => 8
  | .fullBist => 9

/-- Arithmetic cycles in which the column clock is relocked at the start of the margin BIST and of the repair interval, 0.2 ms (R429). -/
def relockCyc : Nat := 360000

/-- PHASE of a physical column (R438): in a partition reset and in a TEST, full BIST; that of the dwell for the roving spare, the first 0.2 ms of
the margin BIST and of the repair interval being the relock of the column clock (R429). -/
def State.phaseOf (s : State) (n pc : Nat) : Nat :=
  let x := s.sheet n
  if (s.pt (ptOfSheet n)).reset.isSome ∨ s.ops.any fun o => !o.finished && o.cols.contains (n, pc) then phaseCode .fullBist
  else match x.dwell with
    | some d =>
      if x.rove ≠ some pc then 0
      else if (d.phase = .margin ∨ d.phase = .repair) ∧ s.clk.life < d.phaseAt + relockCyc then phaseCode .relock
      else phaseCode d.phase
    | none => 0

/-- TSTAT of a physical column (R438). -/
def State.tstatWord (s : State) (n pc : Nat) : Nat :=
  let t := (s.sheet n).tstat.getD pc {}
  s.phaseOf n pc * 2 ^ 28 + (if t.zeroised then 2 ^ 27 else 0) + (if t.scanEn then 2 ^ 26 else 0) + (if t.trip then 2 ^ 25 else 0)
    + (if t.isolated then 2 ^ 24 else 0) + t.copied.toNat

/-- The doorbell block of a queue (R330), reserved bytes zero. -/
def doorbell (q : Queue) : List Byte :=
  le 4 q.tail.toNat ++ le 4 q.fetch.toNat ++ le 4 q.head.toNat ++ le 4 0
    ++ le 4 ((if q.enabled then 2 ^ 31 else 0) + (if q.stopped then 2 ^ 30 else 0) + q.inflight % 256 * 2 ^ 8 + q.cause) ++ zeros 44

/-- A section of a dump: TYPE, UNIT, STATUS and bytes. -/
structure Section where
  /-- TYPE. -/
  typ : Nat
  /-- UNIT. -/
  unit : Nat := 0
  /-- STATUS: 0 complete, 1 NO_RESPONSE, 2 omitted. -/
  status : Nat := 0
  /-- The bytes. -/
  bytes : List Byte

/-- A section whose layout the spec leaves open. -/
def openSection (ix : Nat) : List Byte := (List.range (Config.sectionLen ix)).map fun i => Config.coreState (ix + i)

/-- Core sections (R532). -/
def coreSections (s : State) (d : Dumping) : List Section :=
  let live := (List.range 64).filter fun c => decide ((s.ctx c).st ≠ .free)
  [ { typ := 1, bytes := fill s.fresh s.fsBytes },
    { typ := 2, bytes := s.logs.errs.flatMap errBytes },
    { typ := 3, bytes := fill (s.fresh + 256) (s.sheets.flatMap mapRecord) },
    { typ := 4, bytes := (List.range 24).flatMap fun n => (List.range 18).flatMap fun c => le 4 (s.tstatWord n c) },
    { typ := 5, bytes := live.flatMap fun c => fill s.fresh (s.ctxBody c) },
    { typ := 6, bytes := s.ctxs.flatMap fun x => (x.queues.filter (·.enabled)).flatMap doorbell },
    { typ := 7, bytes := live.flatMap fun c => (s.ctx c).sync.flatMap fun e => le 4 (syncWord (some e.2)) },
    { typ := 8, bytes := d.silent.flatMap fun e => le 4 e.1 ++ le 4 e.2 },
    { typ := 9, bytes := openSection s.fresh } ]

/-- Contents sections of one physical tile (R532). -/
def tileSections (s : State) (d : Dumping) (n pc t : Nat) : List Section :=
  let h := s.handleOf (.ptile n pc t)
  let x := s.tile (tileIx n pc t)
  let ty := tileType t
  let st := if d.silent.any (·.1 = h) then 1 else 0
  [ { typ := 0x10, unit := h, status := st, bytes := x.cfg.read 0 (if ty = 2 then 0x8420 else 0x6400) },
    { typ := 0x11, unit := h, status := st, bytes := openSection (s.fresh + tileIx n pc t) } ]
  ++ (if ty = 3 then [{ typ := 0x12, unit := h, status := st, bytes := x.store.read 0 (4 * 2 ^ 20) }] else [])
  ++ (if ty = 1 then [{ typ := 0x13, unit := h, status := st, bytes := x.store.read 0 (256 * 2 ^ 10) }] else [])
  ++ [{ typ := 0x14, unit := h, status := st, bytes := fill s.fresh (s.tlmRecord h [tileIx n pc t]) }]

/-- Contents sections of a partition. -/
def ptSections (s : State) (d : Dumping) (p : Nat) : List Section :=
  (sheetsOfPt p).flatMap fun n => (List.range 18).flatMap fun c => (List.range 16).flatMap fun t => tileSections s d n c t

/-- Bytes rounded up to 4 KiB. -/
def up4k (n : Nat) : Nat := (n + 4095) / 4096 * 4096
/-- Bytes of a dump of a list of sections: header and directory, then the sections, each aligned to 4 KiB (R531). -/
def dumpLen (l : List Section) : Nat := l.foldl (fun a x => a + up4k x.bytes.length) (up4k (128 + 32 * l.length))

/-- The sections a dump holds on its target (R530), and whether contents are left out. -/
def dumpSections (s : State) (d : Dumping) : List Section × Bool :=
  let core := coreSections s d
  if d.target = 1 then (core ++ d.pts.flatMap (ptSections s d), false)
  else if d.target = 3 then (core, true)
  else d.pts.foldl (fun a p =>
    if p = s.mgmt.dumpPt then (a.1, true)
    else
      let l := ptSections s d p
      if dumpLen (a.1 ++ l) ≤ 4 * 2 ^ 30 then (a.1 ++ l, a.2)
      else (a.1 ++ l.map fun x => { x with status := 2, bytes := [] }, true)) (core, false)

/-- A dump: header, directory, sections (R531). -/
def dumpBytes (s : State) (d : Dumping) : List Byte :=
  let r := dumpSections s d
  let n := r.1.length
  let first := up4k (128 + 32 * n)
  let body := r.1.flatMap fun x => padTo (up4k x.bytes.length) x.bytes
  let dir := (r.1.foldl (fun (a : Nat × List Byte) x => (a.1 + up4k x.bytes.length,
    a.2 ++ le 2 x.typ ++ le 1 x.status ++ le 1 0 ++ le 4 x.unit ++ le 8 a.1 ++ le 8 x.bytes.length ++ le 4 (crc32c x.bytes) ++ le 4 0)) (first, [])).2
  let flags := (if r.2 then 1 else 0) + (if d.silent.isEmpty then 0 else 2) + (if d.restarted then 4 else 0)
  let head := le 4 0x44584245 ++ le 2 1 ++ le 2 n ++ le 4 d.id ++ le 2 d.trigger ++ le 2 flags ++ le 4 d.scope ++ le 4 s.ident.fwVer.toNat
    ++ le 8 d.start ++ le 8 s.cyc ++ s.ident.serial ++ le 8 (first + body.length) ++ zeros 60
  padTo first (head ++ le 4 (crc32c head) ++ dir) ++ body

/-! ### The dump engine (R527–R530) -/

/-- A dump target is available (R529). -/
def targetOk (s : State) (scope t : Nat) : Bool :=
  if t = 1 then s.reel.inService && !s.dies.ct1Lost
  else if t = 2 then
    !(s.pt s.mgmt.dumpPt).inReset && !(match s.unitOf scope with
      | some .module => false
      | _ => (s.verbUnits scope).contains (.pt s.mgmt.dumpPt))
  else s.start.aux
/-- The first available target after `t`. -/
def nextTarget (s : State) (scope t : Nat) : Option Nat := (rangeFrom (t + 1) (3 - t)).find? (targetOk s scope)

/-- The next DUMP_ID, in module flash, skipping 0 (R527). -/
def nextDumpId (n : Nat) : Nat := if (n + 1) % 2 ^ 32 = 0 then 1 else (n + 1) % 2 ^ 32

/-- DUMP_STREAM messages up to 8 unacknowledged (R615). -/
def State.pumpStream (s : State) : State :=
  match s.side.stream, s.dumping with
  | some (id, sent, next, total), some _ =>
    let room := 8 - (sent - next + 1023) / 1024
    let offs := ((List.range room).map fun i => sent + 1024 * i).filter (· < total)
    let s1 := offs.foldl (fun a o => a.emit (.dumpStream id o (min 1024 (total - o)) s.side.lockEid)) s
    { s1 with side := { s1.side with stream := some (id, min total (sent + 1024 * offs.length), next, total) } }
  | _, _ => s

/-- The dump goes to its target: a sideband dump begins to stream (R529, R615). -/
def State.aimDump (s : State) (d : Dumping) : State :=
  if d.target = 3 then
    let b := dumpBytes s d
    State.pumpStream { s with dumping := some { d with bytes := b }, side := { s.side with stream := some (d.id, 0, 0, b.length), ackAt := s.clk.life, resentAt := s.clk.life } }
  else { s with dumping := some d, side := { s.side with stream := none } }

/-- Start a dump (R527). A dump that finds CT1 lost, another dump in progress or no target is not taken; one without a target uses up its ID. -/
def State.startDump (s : State) (op : Option Nat) (trigger scope : Nat) (pts : List Nat) : State :=
  if s.dies.ct1Lost ∨ s.dumping.isSome then s.finishOp? op noResource {}
  else
    let id := s.nextDump
    let s1 := { s with nextDump := nextDumpId id }
    match nextTarget s1 scope 0 with
    | none => (s1.logErr 0x0506 {} (le 4 id ++ le 1 3 ++ le 3 0)).finishOp? op timeout {}
    | some t => s1.aimDump { id := id, op := op, trigger := trigger, scope := scope, pts := pts, reading := pts, target := t
                             restarted := false, silent := [], start := s1.cyc }

/-- A partition's units have been read, or 10 s have passed: a RESET that waited begins (R518). -/
def dumpPartitionReadDone (p : Nat) (s : State) : State :=
  match s.dumping with
  | none => s
  | some d =>
    if !d.reading.contains p then s
    else
      let s1 := { s with dumping := some { d with reading := d.reading.filter (· ≠ p) } }
      match (s1.pt p).reset with
      | some r => if r.deferred then s1.beginReset p r.op (match s1.op? r.op with
          | some o => if o.bySideband then 1 else 0
          | none => 0) else s1
      | none => s1

/-- Every partition still marked as being read is let go. -/
def State.endReading (s : State) : State :=
  match s.dumping with
  | none => s
  | some d => d.reading.foldl (fun a p => dumpPartitionReadDone p a) s

/-- DUMP_WRITTEN (R529, R530): the dump is held on its target. On the Reel the oldest go as the 256 GiB fill; the LPDDR5X region holds one; a
streamed dump is over once it has all been acknowledged (R615), and is not held. -/
def dumpWritten (s : State) : State :=
  match s.dumping with
  | none => s
  | some d =>
    let taken : Bool := match s.side.stream with
      | some (_, _, next, total) => decide (next = total)
      | none => false
    if !d.reading.isEmpty ∨ (d.target = 3 ∧ !taken) then s
    else
      let b := if d.target = 3 then d.bytes else dumpBytes s d
      let new : Dump := { id := d.id, place := d.target, bytes := b, cycle := d.start }
      let trim (l : List Dump) : List Dump := (l.foldr (fun x (a : Nat × List Dump) =>
        if x.place = 1 then (a.1 + x.bytes.length, if a.1 + x.bytes.length ≤ 256 * 2 ^ 30 then x :: a.2 else a.2) else (a.1, x :: a.2)) (0, [])).2
      let kept := if d.target = 1 then trim (s.dumps ++ [new])
        else if d.target = 2 then s.dumps.filter (·.place ≠ 2) ++ [new] else s.dumps
      let s0 := if d.target = 2 then s.wakeChans (chansOfPt s.mgmt.dumpPt) else s
      let s1 := { s0 with dumps := kept, dumping := none, side := { s.side with stream := none } }
      (s1.logErr 0x0505 {} (le 4 d.id ++ le 1 d.target ++ le 3 0 ++ le 8 b.length)).finishOp? d.op ok {}

/-- The dump's target may be found to have failed: a sideband stream has had no acknowledgement for 60 s (R529, R615). -/
def State.targetDue (s : State) (d : Dumping) : Bool := decide (d.target ≠ 3) || decide (s.side.ackAt + 60 * cycPerSec ≤ s.clk.life)

/-- DUMP_TARGET_FAILED (R529): the next target, from the beginning, or DUMP_FAILED. -/
def dumpTargetFailed (s : State) : State :=
  match s.dumping with
  | none => s
  | some d =>
    if !s.targetDue d then s
    else match nextTarget s d.scope d.target with
    | some t => s.aimDump { d with target := t, restarted := true, reading := d.pts.filter fun p => !(s.pt p).inReset, silent := [], start := s.cyc }
    | none =>
      let s1 := { s.endReading with dumping := none }
      (({ s1 with side := { s1.side with stream := none } }).logErr 0x0506 {} (le 4 d.id ++ le 1 d.target ++ le 3 0)).finishOp? d.op timeout {}

/-- DUMP_UNIT_TIMEOUT (R528): the unit is recorded as NO_RESPONSE once. -/
def dumpUnitTimeout (h off : Nat) (s : State) : State :=
  match s.dumping with
  | none => s
  | some d => if d.silent.any (·.1 = h) then s else { s with dumping := some { d with silent := d.silent ++ [(h, off)] } }

/-- DUMP_TRIGGER (R44, R298, R527, R528). -/
def mbDumpTrigger : MbFun := fun m p s => checked 4 [] p s fun _ =>
  let h := arg p 0 4
  match s.unitOf h with
  | none => (s, noHandle 0 h)
  | some u =>
    let us := s.verbUnits h
    let isPt (x : UnitRef) : Bool := match x with
      | .pt _ => true
      | _ => false
    if u ≠ .module ∧ 4 < us.length then (s, err invalid { arg := 0, handle := h })
    else if u ≠ .module ∧ !us.all isPt then (s, err unsupported { handle := h })
    else if s.dies.ct1Lost then (s, err conflict { kind := 1, state := s.moduleStatus, handle := s.handleOf .module })
    else if s.dumping.isSome then (s, err noResource)
    else background s m 0x0070 h fun id t => t.startDump (some id) 0 h (if u = .module then List.range 8 else us.map ptOfUnit)

/-- Dumps that DUMP_INFO lists: those held and reachable, and one being streamed. -/
def State.dumpList (s : State) : List Dump :=
  s.dumps.filter (fun (d : Dump) => d.place ≠ 1 || s.reel.inService) ++ (match s.dumping with
    | some d => if d.target = 3 then [⟨d.id, 3, d.bytes, d.start⟩] else []
    | none => [])

/-- DUMP_INFO (R298). -/
def mbDumpInfo : MbFun := fun _ p s => checked 0 [] p s fun _ =>
  let l := s.dumpList.take 170
  (s, okResp (fld 4 l.length ++ l.flatMap fun d => fld 4 d.id ++ fld 1 d.place ++ rsvd 3 ++ fld 8 d.bytes.length ++ fld 8 d.cycle))

/-- A DUMP_READ of a master has to wait: it passes its checks, and the dump region is on a partition under reset (R237, R277). -/
def State.dumpWaits (s : State) (m : Master) (p : Payload) : Bool :=
  let mayRun := ownerIs s.host.owner m || (decide (m = .sideband) && decide (s.host.owner = .host))
  mayRun && s.host.fwReady && decide (s.mgmt.fw ≠ .recovery) && decide (p.length = 20) && (rsvdBad p [(4, 4)]).isNone
    && (s.pt s.mgmt.dumpPt).inReset
    && s.dumpList.any fun (d : Dump) => decide (d.id = arg p 0 4 ∧ d.place = 2 ∧ 1 ≤ arg p 16 4 ∧ arg p 16 4 ≤ 4080 ∧ arg p 8 8 + arg p 16 4 ≤ d.bytes.length)

/-- DUMP_READ (R298); the access to the dump region wakes its channels (R277). -/
def mbDumpRead : MbFun := fun _ p s => checked 20 [(4, 4)] p s fun _ =>
  let off := arg p 8 8
  let n := arg p 16 4
  if n < 1 ∨ 4080 < n then (s, err invalid { arg := 16 })
  else match s.dumpList.find? fun (d : Dump) => decide (d.id = arg p 0 4) with
    | none => (s, err notFound { arg := 0 })
    | some d =>
      if d.bytes.length < off + n then (s, err invalid { arg := 8 })
      else (if d.place = 2 then s.wakeChans (chansOfPt s.mgmt.dumpPt) else s, okResp (known ((d.bytes.drop off).take n)))

/-- DUMP_READ of the host: BUSY stays 1 while it waits for a reset to end (R277, R289). -/
def hostDumpRead (p : Payload) (s : State) : State :=
  let now : Bool := !s.dies.ct0Lost && (if s.host.busy then decide (s.host.code = 0x0072#16) else s.host.linkUp)
  if now && s.dumpWaits .host (if s.host.busy then s.request else p) then
    (if s.host.busy then s else let t := s.submit 0x0072 p; { t with host := { t.host with busy := true } })
  else hostCmd .bp 0x0072 mbDumpRead p s

/-- DUMP_CLEAR (R298). -/
def mbDumpClear : MbFun := fun _ p s => checked 4 [] p s fun _ =>
  if s.dumps.any fun (d : Dump) => decide (d.id = arg p 0 4) && (decide (d.place ≠ 1) || s.reel.inService) then
    ({ s with dumps := s.dumps.filter fun (d : Dump) => decide (d.id ≠ arg p 0 4) }, okResp [])
  else (s, err notFound { arg := 0 })

/-! ### Settings (R635–R639, R665, R691) -/

/-- CH_ATTACH is legal (R243). -/
def attachOk (v : List Byte) : Bool :=
  (List.range 192).all (fun c =>
    let b := (v.getD c 0).toNat
    !b.testBit 6 && (if b.testBit 7 then meshAllowed c && decide (b % 64 % 2 = 1 ∧ b % 64 ≤ 47) else decide (b = 0)))
  && (List.range 8).all fun p =>
    let pins := ((chansOfPt p).map fun c => (v.getD c 0).toNat).filter (·.testBit 7)
    pins.eraseDups.length == pins.length

/-- A value of a known setting is in range (R638, R665, R691). -/
def settingOk (id : Nat) (v : List Byte) : Bool :=
  let n := unle v
  let size := (settingDefault id).getD []
  if v.length ≠ size.length then false
  else match id with
    | 0x01 | 0x15 | 0x16 | 0x22 | 0x30 => decide (n ≤ 1)
    | 0x02 => decide (n ≠ 0)
    | 0x03 => decide (n ≤ 256)
    | 0x04 => decide (n ≤ 7)
    | 0x05 | 0x12 => decide (n ≤ 3)
    | 0x06 => decide (n ≤ 3600)
    | 0x07 => decide (1 ≤ n)
    | 0x08 | 0x09 => decide (10 ≤ n ∧ n ≤ 10000)
    | 0x0B => decide (1 ≤ n ∧ n ≤ 63)
    | 0x0C => decide (n ≤ 4094)
    | 0x0D => decide (0x600 ≤ n)
    | 0x0E => decide (1 ≤ n ∧ n ≤ 600)
    | 0x0F => decide (100 ≤ n ∧ n ≤ 1500)
    | 0x10 => attachOk v
    | 0x13 => decide (n < 2 ^ 18)
    | 0x20 => decide (800 ≤ n ∧ n ≤ 1900)
    | 0x21 => decide (n ≤ 1000000)
    | 0x23 => (List.range 8).all fun p => decide (n / 4 ^ p % 4 ≠ 1)
    | 0x31 => decide (1 ≤ n ∧ n ≤ 14047)
    | _ => true

/-- Write one record of the settings image: GEN rises (R635, R636). -/
def State.putSetting (s : State) (id : Nat) (v : List Byte) : State :=
  { s with mgmt := { s.mgmt with settings := s.mgmt.settings.set id v, settingsGen := s.mgmt.settingsGen + 1, settingsBad := false } }

/-- SETTINGS_GET (R298, R635). -/
def mbSettingsGet : MbFun := fun _ p s => checked 4 [(2, 2)] p s fun _ =>
  let id := arg p 0 2
  if (settingDefault id).isNone then (s, err notFound { arg := 0 })
  else
    let v := s.setting id
    (s, okResp (fld 2 id ++ fld 2 v.length ++ known (v.take 4092)))

/-- Whether the module takes part in a job. -/
def State.inJob (s : State) : Option Job := s.jobs.find? fun j => decide (j.st ≠ .none) && decide (j.st ≠ .excluded)

/-- SETTINGS_SET (R636, R638, R671). -/
def mbSettingsSet : MbFun := fun m p s =>
  let id := arg p 0 2
  let n := arg p 2 2
  let v := p.drop 4
  if id = 0x11 ∨ (id = 0x15 ∧ m = .host) then (s, err denied)
  else if p.length < 4 ∨ p.length ≠ 4 + n then (s, err invalid { arg := 2 })
  else if (settingDefault id).isNone then (s, err notFound { arg := 0 })
  else if !settingOk id v then (s, err invalid { arg := 4 })
  else if id = 0x0A then
    match s.inJob with
    | some j => (s, err conflict { kind := 5, state := jobCode j.st })
    | none => ((List.range 18).foldl (fun a k => if (a.port k).eth then a else a.startTraining k) (s.putSetting id v), okResp [])
  else if id = 0x20 ∧ unle v < s.budgetWith [] [] (fun q => (s.pt q).perf) then (s, pwrConflict s)
  else (s.putSetting id v, okResp [])

/-! ### Arms -/

/-- LEDGER_READ of the host. -/
def execLedgerRead (p : Payload) (s : State) : Host.Outcome State Fault Refusal := nextOf s (hostCmd .q 0x0062 mbLedgerRead p s)
/-- ERRLOG_READ of the host. -/
def execErrlogRead (p : Payload) (s : State) : Host.Outcome State Fault Refusal := nextOf s (hostCmd .q 0x0074 mbErrlogRead p s)
/-- DUMP_TRIGGER of the host. -/
def execDumpTrigger (p : Payload) (s : State) : Host.Outcome State Fault Refusal := nextOf s (hostCmd .bp 0x0070 mbDumpTrigger p s)
/-- DUMP_INFO of the host. -/
def execDumpInfo (p : Payload) (s : State) : Host.Outcome State Fault Refusal := nextOf s (hostCmd .q 0x0071 mbDumpInfo p s)
/-- DUMP_READ of the host. -/
def execDumpRead (p : Payload) (s : State) : Host.Outcome State Fault Refusal := nextOf s (hostDumpRead p s)
/-- DUMP_CLEAR of the host. -/
def execDumpClear (p : Payload) (s : State) : Host.Outcome State Fault Refusal := nextOf s (hostCmd .f 0x0073 mbDumpClear p s)
/-- SETTINGS_GET of the host. -/
def execSettingsGet (p : Payload) (s : State) : Host.Outcome State Fault Refusal := nextOf s (hostCmd .q 0x0080 mbSettingsGet p s)
/-- SETTINGS_SET of the host. -/
def execSettingsSet (p : Payload) (s : State) : Host.Outcome State Fault Refusal := nextOf s (hostCmd .f 0x0081 mbSettingsSet p s)
/-- DUMP_UNIT_TIMEOUT. -/
def execDumpUnitTimeout (h off : W32) (s : State) : Host.Outcome State Fault Refusal := nextOf s (dumpUnitTimeout h.toNat off.toNat s)
/-- DUMP_TARGET_FAILED. -/
def execDumpTargetFailed (s : State) : Host.Outcome State Fault Refusal := nextOf s (dumpTargetFailed s)
/-- DUMP_WRITTEN. -/
def execDumpWritten (s : State) : Host.Outcome State Fault Refusal := nextOf s (dumpWritten s)
/-- DUMP_PARTITION_READ_DONE. -/
def execDumpPartitionReadDone (p : Pt) (s : State) : Host.Outcome State Fault Refusal := nextOf s (dumpPartitionReadDone p s)

end Sys2Proof.Machine
end

