-- ==== Sys2Proof/Machine/Firmware.lean ====
section
/-!
DEFINITION. Firmware staging, recovery, the SVN fuses and the program-signing keys (R617–R634): FW_INFO to KEY_LIST, and the end of start-up
stage 2.
-/
namespace Sys2Proof.Machine

/-! ### Keys (R617, R618) -/

/-- UDS as it enters a hash: least significant byte first (DESIGN CHOICE, log entry 8). -/
def udsBytes (uds : BitVec 256) : List Byte := le 32 uds.toNat
/-- devid_seed (R617). -/
def devidSeed (uds : BitVec 256) : List Byte := (sha3 (chars ['E', 'B', 'X', 'D', 'E', 'V', 'I', 'D'] ++ udsBytes uds)).take 32
/-- alias_seed of an image by its digest (R617). -/
def aliasSeed (uds : BitVec 256) (digest : List Byte) : List Byte :=
  (sha3 (chars ['E', 'B', 'X', 'A', 'L', 'I', 'A', 'S'] ++ udsBytes uds ++ digest)).take 32
/-- A signature of 4,627 bytes by the key of a seed (R617, R625). -/
def signature (seed : List Byte) (use : Nat) (msg : List Byte) : List Byte := (List.range 4627).map (Config.signByte seed use msg)
/-- A signature by devid_sk (R618). -/
def State.devidSign (s : State) (msg : List Byte) : List Byte := signature (devidSeed s.ident.uds) 0 msg
/-- A signature by alias_sk, which rests on the image of the present start, over an SPDM response (R618, R619). -/
def State.aliasSign (s : State) (use : Nat) (msg : List Byte) : List Byte := signature (aliasSeed s.ident.uds s.mgmt.certDigest) use msg

/-- Code of a firmware state (R627). -/
def fwCode : FwState → Nat
  | .idle => 0
  | .staging => 1
  | .verifying => 2
  | .writing => 3
  | .pending => 4
  | .recovery => 5

/-- STATE_CONFLICT for the firmware state (R302, R303). -/
def fwConflict (s : State) : Resp := err conflict { kind := 6, state := fwCode s.mgmt.fw }
/-- STATE_CONFLICT for external test mode (R622). -/
def testConflict : Resp := err conflict { kind := 6, state := 6 }

/-- VERIFYING or WRITING (R628). -/
def State.fwBusy (s : State) : Bool := decide (s.mgmt.fw = .verifying) || decide (s.mgmt.fw = .writing)

/-- A start-up stage ends (R694, R704). -/
def State.endStage (s : State) (n next : Nat) : State :=
  { s with start := { s.start with stage := next, doneMs := s.start.doneMs.set (n - 1) (msOf (s.clk.life - s.clk.zero)) }
           clk := { s.clk with stageZero := s.clk.life } }

/-- Stage 2 ends with an image (R617, R618, R629, R632, R637): keys derived unless external test mode has been entered (R621), the settings
loaded or replaced, the values taken at start-up latched (R610, R638). The ID block is written unless the link has trained in recovery mode (R287). -/
def State.bootDone (s : State) (b : List Byte) (fromFlash : Bool) : State :=
  let s1 := s.runImage b
  let bad := s1.mgmt.settingsBad
  let s2 := { s1 with mgmt := { s1.mgmt with
    settings := if bad then [] else s1.mgmt.settings, settingsBad := false, defaulted := bad, fwRecovery := !fromFlash, recovery := 0
    fw := if s1.mgmt.fw = FwState.recovery ∨ s1.mgmt.fw = FwState.pending then FwState.idle else s1.mgmt.fw
    keysHeld := !s1.mgmt.testMode, aliasCert := !s1.mgmt.testMode, certDigest := sha3 b } }
  let s3 := { s2 with
    mgmt := { s2.mgmt with poolPts := s2.settingNat 0x02, dumpPt := s2.settingNat 0x04 }
    ident := if 3 ≤ s.mgmt.recovery then s2.ident
      else { s2.ident with fwVer := s2.mgmt.runVer, idSvn := s2.ident.svn, poolGib := s2.settingNat 0x03 }
    host := { s2.host with fwReady := false } }
  ({ s3 with side := { s3.side with smbusOnly := decide (s3.settingNat 0x16 = 1), smbus := decide (s3.settingNat 0x16 = 1) || s3.side.smbus } }).endStage 2 3

/-- The staged image. -/
def State.stagedImage (s : State) : List Byte := s.mgmt.stage.read 0 s.mgmt.stageLen

/-- The image in the Reel recovery area (R634, R653): its length follows from its header. -/
def State.reelImage (s : State) : List Byte :=
  let base := 256 * 4096
  let n := 0xA40 + unle (s.reel.data.read (base + 0x10) 8) + 4627
  if 128 * 2 ^ 20 < n then [] else s.reel.data.read base n

/-- Write an image to module flash. -/
def State.writeFlash (s : State) (b : List Byte) : State :=
  { s with mgmt := { s.mgmt with flash := memOf b, flashLen := b.length } }

/-- Tylys major differs from the running one's while a context is not FREE (R628). -/
def State.tylysBar (s : State) (b : List Byte) : Bool :=
  decide (fieldAt b 0xD 1 ≠ s.mgmt.runTylys.toNat / 256) && s.ctxs.any fun x => decide (x.st ≠ .free)

/-- FW_INFO (R298, R627). -/
def mbFwInfo : MbFun := fun _ p s => checked 0 [] p s fun _ =>
  (s, okResp (fld 4 s.mgmt.runVer.toNat ++ fld 4 s.mgmt.stagedVer.toNat ++ fld 4 s.ident.svn ++ fld 1 (fwCode s.mgmt.fw) ++ rsvd 3))

/-- FW_STAGE_BEGIN (R628, R633). -/
def mbFwStageBegin : MbFun := fun _ p s => checked 8 [] p s fun _ =>
  let n := arg p 0 8
  if n < 4096 ∨ 64 * 2 ^ 20 < n then (s, err invalid { arg := 0 })
  else if s.fwBusy ∨ s.mgmt.commitOp.isSome then (s, fwConflict s)
  else ({ s with mgmt := { s.mgmt with
      fw := if s.mgmt.fw = .recovery then .recovery else .staging, stage := [], stageLen := n, pldm := false, pldmGot := 0, pldmLen := 0 } },
    okResp [])

/-- FW_STAGE_DATA (R628). -/
def mbFwStageData : MbFun := fun _ p s =>
  let off := arg p 0 8
  let b := p.drop 8
  if p.length < 9 ∨ 4088 < p.length then (s, err invalid)
  else if s.mgmt.stageLen ≠ 0 ∧ s.mgmt.stageLen < off + b.length then (s, err invalid { arg := 0 })
  else if (s.mgmt.fw ≠ .staging ∧ s.mgmt.fw ≠ .recovery) ∨ s.mgmt.stageLen = 0 ∨ s.mgmt.commitOp.isSome then (s, fwConflict s)
  else ({ s with mgmt := { s.mgmt with stage := s.mgmt.stage.write off b } }, okResp [])

/-- The commit of R628 begins. -/
def State.beginCommit (s : State) (op : Nat) (restart reel : Bool) : State :=
  { s with mgmt := { s.mgmt with
    fw := if s.mgmt.fw = .recovery then .recovery else .verifying, commitOp := some (op, restart), commitReel := reel } }

/-- FW_STAGE_COMMIT (R628). -/
def mbFwStageCommit : MbFun := fun m p s => checked 0 [] p s fun _ =>
  if s.mgmt.fw ≠ .staging ∨ s.mgmt.stageLen = 0 then (s, fwConflict s)
  else if s.tylysBar s.stagedImage then (s, fwConflict s)
  else background s m 0x0093 (s.handleOf .module) fun id t => t.beginCommit id false false

/-- The bytes a commit works on: what the staging buffer holds up to the image's own length. -/
def State.commitImage (s : State) : List Byte :=
  if s.mgmt.commitReel then s.reelImage
  else
    let b := s.stagedImage
    let n := 0xA40 + fieldAt b 0x10 8 + 4627
    if n ≤ b.length ∧ b.length < n + 4096 then b.take n else b

/-- A PLDM update reports a step: VerifyComplete (0x17) after the checks, ApplyComplete (0x18) after WRITING (R630; codes of DSP0267, log
entry 34). -/
def State.pldmReport (s : State) (code result : Nat) : State := if s.mgmt.pldm then s.emit (.pldm code result []) else s

/-- FW_COMMIT_FINISHED (R626, R628, R630, R633, R634): VERIFYING ends in WRITING or in IDLE with INTEGRITY_FAIL; WRITING ends in PENDING, with
the firmware restart that FW_RECOVERY_LOAD asks for. In recovery mode an image that passes is run and then written to flash. -/
def fwCommitFinished (v : Verdict) (t : State) : State :=
  match t.mgmt.commitOp with
  | none => t
  | some (op, restart) =>
    let b := t.commitImage
    let s := t.judgeImage b v
    let idle (f : FwState) : State := { s with mgmt := { s.mgmt with fw := f, commitOp := none, commitReel := false } }
    match s.mgmt.fw with
    | .verifying =>
      if s.imageOk b v then ({ s with mgmt := { s.mgmt with fw := .writing } }).pldmReport 0x17 0
      else ((idle .idle).pldmReport 0x17 1).finishOp op integrity {}
    | .writing =>
      let s1 := (idle .pending).writeFlash b
      let s2 := { s1 with mgmt := { s1.mgmt with stagedVer := BitVec.ofNat 32 (fieldAt b 8 4) } }
      if restart then s2.beginRestart (some op) 3 else (s2.pldmReport 0x18 0).finishOp op ok {}
    | .recovery =>
      if !s.imageOk b v then (({ s with mgmt := { s.mgmt with commitOp := none } }).pldmReport 0x17 1).finishOp op integrity {}
      else
        let s0 := (s.pldmReport 0x17 0).pldmReport 0x18 0
        let s1 := { s0 with mgmt := { s0.mgmt with commitOp := none, pldm := false } }.writeFlash b
        if s.mgmt.restart.isSome then (s1.finishOp op ok {}).endRestart b else (s1.finishOp op ok {}).bootDone b false
    | _ => s

/-- FW_RECOVERY_LOAD (R633, R634). -/
def mbFwRecoveryLoad : MbFun := fun m p s => checked 8 [(1, 7)] p s fun _ =>
  let src := arg p 0 1
  if 1 < src then (s, err invalid { arg := 0 })
  else if s.mgmt.fw = .recovery then
    if src = 1 then (s, err unsupported)
    else if s.mgmt.stageLen = 0 ∨ s.mgmt.commitOp.isSome then (s, fwConflict s)
    else background s m 0x0094 0 fun id t => t.beginCommit id true false
  else if s.fwBusy then (s, fwConflict s)
  else if src = 0 ∧ (s.mgmt.fw ≠ .staging ∨ s.mgmt.stageLen = 0) then (s, fwConflict s)
  else if src = 1 ∧ (!s.reel.inService ∨ !s.reel.authentic ∨ s.dies.ct1Lost) then (s, reelConflict s)
  else if s.tylysBar (if src = 1 then s.reelImage else s.stagedImage) then (s, fwConflict s)
  else background s m 0x0094 (s.handleOf .module) fun id t => t.beginCommit id true (decide (src = 1))

/-- FW_SVN_ADVANCE (R622, R631). -/
def mbFwSvnAdvance : MbFun := fun m p s => checked 0 [] p s fun _ =>
  if s.mgmt.testMode then (s, testConflict)
  else background s m 0x0095 (s.handleOf .module) fun id t =>
    State.readyOp { t with ident := { t.ident with svn := max t.ident.svn t.mgmt.runSvn } } id ok {}

/-- The host may change key slots only while KEY_ENROL_HOST is 1 (R623). -/
def keyDenied (m : Master) (s : State) : Bool := decide (m = .host) && decide (s.settingNat 0x15 ≠ 1)

/-- KEY_ENROL (R622–R624). Of a slot that is enrolled the detail gives the firmware state: no STATE_KIND names a slot (DESIGN CHOICE, log entry 49). -/
def mbKeyEnrol : MbFun := fun m p s =>
  if keyDenied m s then (s, err denied)
  else checked 2596 [(1, 3)] p s fun _ =>
    let k := arg p 0 1
    if 7 < k then (s, err invalid { arg := 0 })
    else if s.mgmt.testMode then (s, testConflict)
    else if (s.mgmt.keys.getD k none).isSome then (s, fwConflict s)
    else ({ s with mgmt := { s.mgmt with keys := s.mgmt.keys.set k (some (p.drop 4)) } }, okResp [])

/-- KEY_CLEAR (R622–R624). -/
def mbKeyClear : MbFun := fun m p s =>
  if keyDenied m s then (s, err denied)
  else checked 4 [(1, 3)] p s fun _ =>
    let k := arg p 0 1
    if 7 < k then (s, err invalid { arg := 0 })
    else if s.mgmt.testMode then (s, testConflict)
    else match s.ctxs.find? fun x => (x.prog.map (·.keyId)) = some k with
      | some x => (s, ctxConflict x.st)
      | none => ({ s with mgmt := { s.mgmt with keys := s.mgmt.keys.set k none } }, okResp [])

/-- KEY_LIST (R623): an empty slot has no stated DIGEST. -/
def mbKeyList : MbFun := fun _ p s => checked 0 [] p s fun _ =>
  (s, okResp ((List.range 8).flatMap fun k => match s.mgmt.keys.getD k none with
    | some b => fld 1 1 ++ rsvd 3 ++ known (sha3 b)
    | none => fld 1 0 ++ rsvd 3 ++ rsvd 64))

/-- FW_INFO of the host. -/
def execFwInfo (p : Payload) (s : State) : Host.Outcome State Fault Refusal := nextOf s (hostCmd .q 0x0090 mbFwInfo p s)
/-- FW_STAGE_BEGIN of the host. -/
def execFwStageBegin (p : Payload) (s : State) : Host.Outcome State Fault Refusal := nextOf s (hostCmd .f 0x0091 mbFwStageBegin p s)
/-- FW_STAGE_DATA of the host. -/
def execFwStageData (p : Payload) (s : State) : Host.Outcome State Fault Refusal := nextOf s (hostCmd .f 0x0092 mbFwStageData p s)
/-- FW_STAGE_COMMIT of the host. -/
def execFwStageCommit (p : Payload) (s : State) : Host.Outcome State Fault Refusal := nextOf s (hostCmd .b 0x0093 mbFwStageCommit p s)
/-- FW_COMMIT_FINISHED. -/
def execFwCommitFinished (v : Verdict) (s : State) : Host.Outcome State Fault Refusal := nextOf s (fwCommitFinished v s)
/-- FW_RECOVERY_LOAD of the host. -/
def execFwRecoveryLoad (p : Payload) (s : State) : Host.Outcome State Fault Refusal := nextOf s (hostCmd .bp 0x0094 mbFwRecoveryLoad p s)
/-- FW_SVN_ADVANCE of the host. -/
def execFwSvnAdvance (p : Payload) (s : State) : Host.Outcome State Fault Refusal := nextOf s (hostCmd .b 0x0095 mbFwSvnAdvance p s)
/-- KEY_ENROL of the host. -/
def execKeyEnrol (p : Payload) (s : State) : Host.Outcome State Fault Refusal := nextOf s (hostCmd .f 0x0096 mbKeyEnrol p s)
/-- KEY_CLEAR of the host. -/
def execKeyClear (p : Payload) (s : State) : Host.Outcome State Fault Refusal := nextOf s (hostCmd .f 0x0097 mbKeyClear p s)
/-- KEY_LIST of the host. -/
def execKeyList (p : Payload) (s : State) : Host.Outcome State Fault Refusal := nextOf s (hostCmd .q 0x0098 mbKeyList p s)

end Sys2Proof.Machine
end

