-- ==== Sys2Proof/Machine/Queues.lean ====
section
/-!
DEFINITION. The host's lock and interrupt registers and the engine queues (R288, R293, R304, R325–R337, R351, R395–R408): MB_DONE_CLEAR to
INT_MASK_WRITE, DB_TAIL_WRITE to ENTRY_COMPLETE.
-/
namespace Sys2Proof.Machine

/-! ### Register writes -/

/-- The host reaches the module's registers (R27, R519). -/
def State.hostOn (s : State) : Bool := s.host.linkUp && !s.dies.ct0Lost

/-- 1 written to DONE (R288). -/
def mbDoneClear (s : State) : State := if s.hostOn then { s with host := { s.host with done := false } } else s
/-- 1 written to ACQUIRE (R293). The lock is not used in recovery mode (R633). -/
def lockAcquireHost (s : State) : State :=
  if s.hostOn ∧ s.host.owner = .free then { s with host := { s.host with owner := .host } } else s
/-- 1 written to RELEASE (R293). -/
def lockReleaseHost (s : State) : State :=
  if s.hostOn ∧ s.host.owner = .host then { s with host := { s.host with owner := .free } } else s
/-- 1 written to PREEMPTED (R293). -/
def preemptedClear (s : State) : State := if s.hostOn then { s with host := { s.host with preempted := false } } else s
/-- A W1C write to INT_CAUSE (R304). -/
def intCauseClear (v : W32) (s : State) : State :=
  if s.hostOn then { s with host := { s.host with cause := s.host.cause &&& ~~~(v.setWidth 6) } } else s
/-- A write to INT_MASK: a set bit that it unmasks sends its message (R304). -/
def intMaskWrite (v : W32) (s : State) : State :=
  if s.hostOn then
    let new : BitVec 6 := v.setWidth 6
    let s1 := { s with host := { s.host with mask := new } }
    (List.range 6).foldl (fun a i =>
      if s.host.cause.getLsbD i ∧ s.host.mask.getLsbD i ∧ !new.getLsbD i then a.msix (causeVector i) else a) s1
  else s

/-- MSI-X vectors that a change of the table unmasks while they are pending are sent (log entry 17). -/
def State.msixUnmasked (s t : State) : State :=
  (List.range 128).foldl (fun a v =>
    if s.host.msixPending.getLsbD v ∧ !(t.host.msixTable.get (16 * v + 12)).getLsbD 0 then
      ({ a with host := { a.host with msixPending := a.host.msixPending &&& ~~~BitVec.ofNat 128 (2 ^ v) } }).emit (.msix v) else a) t

/-! ### Queues -/

/-- Queue index 4·e + q. -/
def qix (e q : Nat) : Nat := 4 * e + q

/-- Doorbells act only from mailbox ready on (R703). -/
def State.bellsOn (s : State) : Bool := s.hostOn && decide (s.start.stage = 0xA)

/-- What stops a queue by its counts: a negative TAIL − FETCH with REWIND, a TAIL − HEAD above ENTRIES with OVERRUN (R333). -/
def Queue.tailFault (q : Queue) : Option Nat :=
  if (q.tail - q.fetch).msb then some 4 else if q.entries < (q.tail - q.head).toNat then some 3 else none

/-- Entries that TAIL covers are to be fetched: 40 cyc from here (R32, R331). -/
def Queue.post (q : Queue) (life : Nat) : Queue :=
  { q with posted := (q.posted.filter fun p => decide (p.1 ≠ q.fetch) && !(p.1 - q.fetch).msb) ++ [(q.tail, life + 40)] }

/-- An enabled queue that is not stopped goes on from its present TAIL, unless its counts stop it. -/
def State.queueGo (s : State) (c k : Nat) : State :=
  match (s.queue c k).tailFault with
  | some cause => s.stopQueue c k cause
  | none => s.modQueue c k fun x => x.post s.clk.life

/-- DB_TAIL written (R330, R331, R333). -/
def dbTailWrite (c k : Nat) (v : W32) (s : State) : State :=
  if !s.bellsOn then s
  else
    let s1 := s.modQueue c k fun x => { x with tail := v }
    if (s.queue c k).enabled ∧ !(s.queue c k).stopped then s1.queueGo c k else s1

/-- STOP written to DB_CTL (R333). -/
def dbStop (c k : Nat) (s : State) : State := if s.bellsOn then s.stopQueue c k 2 else s

/-- RESTART written to DB_CTL (R334): a TAIL that has not been corrected stops the queue again (R333). -/
def dbRestart (c k : Nat) (s : State) : State :=
  let q := s.queue c k
  if !s.bellsOn ∨ !q.enabled ∨ !q.stopped then s else (s.modQueue c k fun x => { x with stopped := false }).queueGo c k

/-- The next entry of a ring may have been fetched by now (R32, R331). -/
def Queue.fetchDue (q : Queue) (life : Nat) : Bool :=
  q.posted.any fun p => decide (p.1 ≠ q.fetch) && !(p.1 - q.fetch).msb && decide (p.2 ≤ life)

/-- Fetched data arrives from a ring (R326, R331, R333), at the earliest when the fetch is issued; a ring in the pool is read there, whatever the host returns. -/
def entryFetched (c k : Nat) (r : ReadResult) (s : State) : State :=
  let q := s.queue c k
  if !q.enabled ∨ q.stopped ∨ q.fetch = q.tail ∨ !q.fetchDue s.clk.life ∨ (s.ctx c).st = .free ∨ s.mgmt.restart.isSome ∨ s.dies.ct0Lost ∨ (!q.inPool ∧ !s.host.busMaster) then s
  else match r with
    | .data b =>
      let slot := q.base + 64 * (q.fetch.toNat % max 1 q.entries)
      let bytes := if q.inPool then s.pool.read slot 64 else slotBytes b
      (if q.inPool then s else s.cacheLine slot).modQueue c k fun x => { x with ents := x.ents ++ [{ n := x.fetch, bytes := bytes }], fetch := x.fetch + 1 }
    | _ => s.stopQueue c k 5

/-! ### What keeps an entry from starting (R328–R337, R346, R347, R363, R364) -/

/-- Operations defined for an engine (R335). -/
def opcodesOf (e : Nat) : List Nat :=
  if e = 0 then [1, 2, 3] else if e = 1 then [0x10, 0x11, 0x12, 0x13, 0x14, 0x15, 0x16, 0x17, 0x18, 0x19]
  else if e = 2 then [0x20, 0x21, 0x22] else [0x30, 0x31]

/-- Reserved fields of an entry's body by opcode: (offset, length) (R313, R337–R355, R384, R392). -/
def bodyRsvd (op : Nat) : List (Nat × Nat) :=
  match op with
  | 0x01 => [(0x20, 32)]
  | 0x02 => [(0x18, 40)]
  | 0x03 => [(0x1D, 35)]
  | 0x10 => [(0x1A, 6)]
  | 0x11 => [(0x18, 8), (0x38, 8)]
  | 0x12 => [(0x21, 7), (0x38, 8)]
  | 0x13 => [(0x35, 3)]
  | 0x14 => [(0x1D, 35)]
  | 0x15 => [(0x26, 2), (0x30, 16)]
  | 0x16 => [(0x1B, 1), (0x2C, 20)]
  | 0x17 => [(0x1D, 1), (0x24, 4), (0x30, 16)]
  | 0x18 => [(0x1A, 38)]
  | 0x19 => [(0x1B, 1), (0x20, 32)]
  | 0x20 => [(0x1C, 4), (0x28, 24)]
  | 0x21 => [(0x20, 32)]
  | 0x22 => [(0x22, 6), (0x30, 16)]
  | 0x30 => [(0x2C, 4), (0x31, 7)]
  | 0x31 => [(0x1A, 6), (0x24, 4), (0x28, 24)]
  | _ => []

/-- An entry that ends before it starts: an undefined opcode, a reserved field or field out of range, an ID that is untranslated or ORPHANED
(R313, R335, R336, R401). -/
def State.entryBad (s : State) (c e : Nat) (x : Entry) : Option Done :=
  let sync (id : Nat) : Option Done := match s.syncEnt c id with
    | none => some (failed notFound)
    | some t => if t.st = 2 then some (failed orphaned) else none
  if !(opcodesOf e).contains x.opcode then some (failed unsupported)
  else match rsvdBad x.bytes ([(2, 2), (0x14, 4)] ++ bodyRsvd x.opcode) with
    | some o => some (failed invalid { arg := o })
    | none =>
      if x.fld 1 1 % 16 ≠ 0 then some (failed invalid { arg := 1 })
      else if x.opcode = 0x16 ∧ (4 ≤ x.fld 0x1A 1 ∨ 2 ^ 20 ≤ x.fld 0x1C 4) then some (failed invalid { arg := if 4 ≤ x.fld 0x1A 1 then 0x1A else 0x1C })
      else if (x.flag 5 ∧ x.fld 0x10 4 = 0) ∨ (!x.flag 5 ∧ x.fld 0x10 4 ≠ 0) then some (failed invalid { arg := 0x10 })
      else (if x.flag 5 ∧ !x.met then sync (x.fld 8 2) else none).orElse fun _ => if x.flag 4 then sync (x.fld 0xA 2) else none

/-- Concurrency limit of an engine (R325). -/
def engineLimit (e : Nat) : Nat := [1, 16, 64, 4].getD e 1
/-- Slots of an engine that a context's entries hold: entries started and not completed, and those that spin on a WAIT (R325, R409). -/
def State.engineBusy (s : State) (c e : Nat) : Nat :=
  ((List.range 4).map fun q => (s.queue c (qix e q)).inflight + ((s.queue c (qix e q)).ents.filter fun z => z.spinning && !z.started && z.outcome.isNone).length
    ).foldl (· + ·) 0

/-- An add to the counter would reach it while its owner is suspended (R413, R414): from an importer, or from the owner once its counters are saved. -/
def State.ownerAway (s : State) (t : SyncEnt) : Bool :=
  decide (t.st = 3) || decide ((s.ctx t.owner).st = .suspended ∨ (s.ctx t.owner).st = .resuming)

/-- Entries that signal a suspended owner's counter do not start (R413, R414). -/
def State.signalOk (s : State) (c : Nat) (x : Entry) : Bool :=
  let ok (id : Nat) : Bool := match s.syncEnt c id with
    | some t => decide (t.st = 2) || !s.ownerAway t
    | none => true
  (!x.flag 4 || ok (x.fld 0xA 2)) && (decide (x.opcode ≠ 0x19 ∨ x.fld 0x1A 1 ≠ 1) || ok (x.fld 0x18 2))

/-- Targets of a SEND (R376). -/
def State.sendTargets (s : State) (x : Entry) : List Nat :=
  match s.unitOf (x.fld 0x1C 4) with
  | some (.group g) => s.expand g
  | some _ => [x.fld 0x1C 4]
  | none => []
/-- The endpoint a SEND names: a ring of any role bound by the posting context to that handle, with OUT of 1 or more. -/
def State.senderOf (s : State) (c h : Nat) : Option Endpoint := s.ends.find? fun e => decide (e.handle = h ∧ e.ctx = c ∧ 1 ≤ e.out)

/-- The entry needs a partition of its context: the graph engine, and S-tile addresses (R323, R678). -/
def needsPartition (x : Entry) : Bool :=
  decide (x.opcode ≤ 3) || (decide (x.opcode = 0x10) && (decide (x.fld 0x18 1 = 2) || decide (x.fld 0x19 1 = 2)))
    || (decide (x.opcode = 0x12) && decide (x.fld 0x20 1 = 2)) || decide (x.opcode = 0x31)

/-- A REQUEST among these entries waits for PT0's reset to read its session (R391). -/
def State.missAhead (s : State) (l : List Entry) : Bool :=
  (s.pt 0).inReset && l.any fun z => decide (z.opcode = 0x16) && z.started && z.outcome.isNone && z.marks.isEmpty
    && !(s.cache.any fun w => decide (w.tag = z.fld 0x1C 4))

/-- An engine slot for the entry: one that it spins in, or a free one; GE STOP needs none (R325, R337, R409). -/
def State.hasSlot (s : State) (c e : Nat) (x : Entry) : Bool :=
  x.spinning || decide (s.engineBusy c e < engineLimit e) || (decide (e = 0) && decide (x.opcode = 2))

/-- The head entry of a queue, its own checks passed, waits for nothing but a slot and its WAIT (R323, R328, R336, R337, R347, R364, R391, R678). -/
def State.entryReady (s : State) (c e q : Nat) (x : Entry) : Bool :=
  let qu := s.queue c (qix e q)
  let earlier := qu.ents.takeWhile fun z => decide (z.n ≠ x.n)
  let parked := (s.ctx c).parked
  (!x.flag 6 || earlier.all (·.complete))
    && s.signalOk c x && !(decide (x.opcode = 0x16) && s.missAhead earlier)
    && !((parked || decide (s.start.pwr ≠ .m0)) && needsPartition x) && !(parked && decide (e = 0))
    && (decide (x.opcode ≠ 0x11) || decide (qu.fed + (qu.ents.filter fun z => decide (z.opcode = 0x11) && z.started && z.outcome.isNone
        && !(z.marks.any (·.2))).length < qu.taken + 2))
    && (decide (x.opcode ≠ 0x15) || (match s.senderOf c (x.fld 0x18 4) with
      | some p => let t := (s.sendTargets x).length
        decide (p.out < t) || decide (p.inUse + p.unconsumed.length + t ≤ p.out)
      | none => true))

/-- The head entry of a queue can start now (R325, R329, R336). -/
def State.canStart (s : State) (c e q : Nat) (x : Entry) : Bool := s.hasSlot c e x && s.entryReady c e q x && s.waitMet c x

/-- The head entry of a queue can take a slot and spin on its WAIT there (R409). -/
def State.canSpin (s : State) (c e q : Nat) (x : Entry) : Bool := !x.spinning && s.hasSlot c e x && s.entryReady c e q x && !s.waitMet c x

/-- The queue of a context that an engine would serve: the lowest-numbered whose head ends at once, can start or can begin to spin (R329, R409). -/
def State.startQueue (s : State) (c e : Nat) : Option (Nat × Entry) :=
  (List.range 4).findSome? fun q =>
    match (s.queue c (qix e q)).headEntry with
    | some x => if (s.entryBad c e x).isSome || s.canStart c e q x || s.canSpin c e q x then some (q, x) else none
    | none => none

/-- One more than the order of every entry of a context that has started. -/
def State.nextOrd (s : State) (c : Nat) : Nat :=
  ((s.ctx c).queues.foldl (fun a q => q.ents.foldl (fun b (e : Entry) => max b e.ord) a) 0) + 1

/-- ENTRY_START (R329): contexts in rotation from the one after that served last; an entry that fails its own checks ends unstarted, and one whose
WAIT is not met takes a slot to spin in (R409). -/
def entryStart (e : Nat) (s : State) : State :=
  if s.dies.ct0Lost ∨ s.start.stage ≠ 0xA then s
  else
    let last := s.rot.getD e 63
    match ((List.range 64).map fun i => (last + 1 + i) % 64).findSome? fun c => (s.startQueue c e).map fun r => (c, r.1, r.2) with
    | none => s
    | some (c, q, x) =>
      let s1 := { s with rot := s.rot.set e c }
      match s1.entryBad c e x with
      | some d =>
        let s2 := s1.setOutcome c (qix e q) x.n d
        if d.status = orphaned then s2.ctxCount c 0x0A03 1 else s2
      | none =>
        if s.canSpin c e q x then ((s1.ctx c).held.foldl State.unidle s1).modEntry c (qix e q) x.n fun y => { y with spinning := true }
        else
        let s2 := s1.modEntry c (qix e q) x.n fun y =>
          { y with started := true, startAt := s.cyc, ord := s1.nextOrd c, targets := if x.opcode = 0x15 then s1.sendTargets x else [] }
        if x.opcode = 0x15 then
          match s2.senderOf c (x.fld 0x18 4) with
          | some p =>
            let t := (s2.sendTargets x).length
            if p.out < t ∨ 64 < t then s2
            else { s2 with ends := s2.ends.map fun y => if y.handle = p.handle ∧ y.role = p.role then { y with inUse := y.inUse + t } else y }
          | none => s2
        else s2

/-- WAIT_DEADLINE_EXPIRED (R336, R411): the head entry that still waits completes with TIMEOUT. -/
def waitDeadlineExpired (c k : Nat) (s : State) : State :=
  match (s.queue c k).headEntry with
  | some x =>
    if x.flag 5 ∧ !s.waitMet c x ∧ (s.entryBad c (k / 4) x).isNone then
      (s.setOutcome c k x.n (failed timeout)).ctxCount c 0x0A02 1
    else s
  | none => s

/-! ### Signals of engine entries (R395, R407, R408) -/

/-- Pairs of placed programs whose bound an add to a physical counter could break: context, producer and consumer ID, BUFFERS. -/
def State.pairsOn (s : State) (pt index : Nat) : List (Nat × SyncMapEnt) :=
  (List.range 64).flatMap fun c =>
    (((s.ctx c).prog.map (·.syncMap)).getD []).filterMap fun m =>
      let at' (id : Nat) : Bool := match s.syncEnt c id with
        | some t => decide (t.st ≠ 2 ∧ t.pt = pt ∧ t.index = index)
        | none => false
      if m.role = 3 ∧ (at' m.id || at' (m.stepVal % 65536)) then some (c, m) else none

/-- Values of a pair's counters: none where one is ORPHANED or untranslated. -/
def State.pairVals (s : State) (c : Nat) (m : SyncMapEnt) : Option (W32 × W32) :=
  match s.syncEnt c m.id, s.syncEnt c (m.stepVal % 65536) with
  | some a, some b => if a.st = 2 ∨ b.st = 2 then none else some (s.syncVal a, s.syncVal b)
  | _, _ => none

/-- The bound of R407. -/
def pairBound (m : SyncMapEnt) (v : W32 × W32) : Bool := reached v.1 v.2 && decide ((v.1 - v.2).toNat ≤ m.init)
/-- The pair holds in a state. -/
def State.pairOk (s : State) (c : Nat) (m : SyncMapEnt) : Bool :=
  match s.pairVals c m with
  | some v => pairBound m v
  | none => true

/-- A Violation body of a pair (R501). -/
def pairBody (cause : Nat) (m : SyncMapEnt) (v : W32 × W32) : List Byte :=
  let d := (v.1 - v.2).toNat
  le 1 cause ++ le 1 0 ++ le 1 0 ++ le 1 (min 0xFF m.init) ++ le 1 (min 0xFF d) ++ le 3 0 ++ le 4 d ++ le 2 m.id ++ le 2 (m.stepVal % 65536)

/-- The commit cycle of a context is now, and its program's adds reach a counter of the pairs (R407, R419). -/
def State.commitsNow (s : State) (pairs : List (Nat × SyncMapEnt)) : Bool :=
  let nodes := pairs.flatMap fun p => [s.syncEnt p.1 p.2.id, s.syncEnt p.1 (p.2.stepVal % 65536)].filterMap id
  (List.range 64).any fun d => (match (s.ctx d).hold with
    | .calender since => decide (since + 768 = s.clk.life)
    | _ => false) && (((s.ctx d).prog.map (·.syncMap)).getD []).any fun m => decide (m.role = 1) && (match s.syncEnt d m.id with
      | some u => nodes.any fun v => decide (v.pt = u.pt ∧ v.index = u.index)
      | none => false)

/-- The add of the entry in queue `k` of context `c` must wait: its counter's owner is suspended (R414), or the counter belongs to a pair and the
order of R407 puts other adds of this cycle before it, those of a commit, or one that has come after it in the order of contexts and queues. -/
def State.addWaits (s : State) (c k : Nat) (t : SyncEnt) : Bool :=
  let pairs := s.pairsOn t.pt t.index
  s.ownerAway t || (!pairs.isEmpty && (s.commitsNow pairs || decide (s.clk.addAt.1 = s.clk.life + 1 ∧ 16 * c + k < s.clk.addAt.2)))

/-- An add of the entry in queue `k` of context `c` to a counter (R395, R401, R407, R408): whether it was applied, and the state. A breach is logged
and not applied. -/
def State.engineAdd (s0 : State) (c k : Nat) (t : SyncEnt) (v : W32) : Bool × State :=
  let pairs := s0.pairsOn t.pt t.index
  let s := if pairs.isEmpty then s0 else { s0 with clk := { s0.clk with addAt := (s0.clk.life + 1, 16 * c + k) } }
  let s1 := s.syncAdd t v
  match pairs.find? fun p => !s1.pairOk p.1 p.2 with
  | none => (true, s1)
  | some p =>
    let body := pairBody 5 p.2 ((s1.pairVals p.1 p.2).getD (0, 0))
    (false, s.logErr 0x0405 { ctx := some p.1, pt := some t.pt } body)

/-! ### Completion (R332, R351, R352) -/

/-- A completion record (R351). -/
def recordOf (s : State) (c : Nat) (q : Queue) (x : Entry) (d : Done) : List Byte :=
  le 1 (0x80 + x.n.toNat / max 1 q.entries % 2) ++ le 1 x.opcode ++ le 1 d.status ++ le 1 0 ++ le 4 (x.fld 4 4) ++ le 2 d.reason ++ zeros 6
    ++ le 8 (s.ctx c).step ++ le 8 (if x.started then x.startAt else 0) ++ le 8 s.cyc ++ le 8 d.result ++ padTo 16 d.detail

/-- Retire entries from the front of the queue that have completed (R332). -/
def Queue.retire (q : Queue) : Queue :=
  let n := (q.ents.takeWhile (·.complete)).length
  { q with ents := q.ents.drop n, head := q.head + BitVec.ofNat 32 n }

/-- The SIGNAL of an entry whose work has ended OK must wait (R407, R414). -/
def State.signalWaits (s : State) (c k : Nat) (x : Entry) (d : Done) : Bool :=
  x.flag 4 && decide (d.status = ok) && (match s.syncEnt c (x.fld 0xA 2) with
    | some t => decide (t.st ≠ 2) && s.addWaits c k t
    | none => false)

/-- ENTRY_COMPLETE (R332, R333, R335, R351): SIGNAL adds when the status is OK; the record is written over the slot; IRQ follows it. With bus-master
enable clear nothing is sent to host memory, so the entry of a ring there waits (R283). -/
def entryComplete (c k : Nat) (n : W32) (writeOk : Bool) (s : State) : State :=
  let q := s.queue c k
  match q.entry? n with
  | none => s
  | some x =>
    match x.outcome with
    | none => s
    | some d =>
      if x.complete ∨ s.dies.ct0Lost ∨ (!q.inPool ∧ !s.host.busMaster) ∨ s.signalWaits c k x d then s
      else
        let r : Done × State :=
          if x.flag 4 ∧ d.status = ok then
            match s.syncEnt c (x.fld 0xA 2) with
            | some t =>
              if t.st = 2 then ({ d with status := orphaned, detail := ({} : Detail).bytes }, s.ctxCount c 0x0A03 1)
              else
                let a := s.engineAdd c k t 1
                (if a.1 then d else { d with status := degraded, reason := 0x10 }, a.2)
            | none => (d, s)
          else (d, s)
        let s1 := r.2
        let rec' := recordOf s1 c q x r.1
        let slot := q.base + 64 * (n.toNat % max 1 q.entries)
        let done := (s1.modEntry c k n fun y => { y with complete := true }).modQueue c k Queue.retire
        if !writeOk then done.stopQueue c k 5
        else
          let s2 := if q.inPool then done.poolWrite slot rec' else done.hostPut slot rec'
          if x.flag 7 then s2.msix q.vector else s2

/-! ### Arms -/

/-- MB_DONE_CLEAR. -/
def execMbDoneClear (s : State) : Host.Outcome State Fault Refusal := nextOf s (mbDoneClear s)
/-- LOCK_ACQUIRE_HOST. -/
def execLockAcquireHost (s : State) : Host.Outcome State Fault Refusal := nextOf s (lockAcquireHost s)
/-- LOCK_RELEASE_HOST. -/
def execLockReleaseHost (s : State) : Host.Outcome State Fault Refusal := nextOf s (lockReleaseHost s)
/-- PREEMPTED_CLEAR. -/
def execPreemptedClear (s : State) : Host.Outcome State Fault Refusal := nextOf s (preemptedClear s)
/-- INT_CAUSE_CLEAR. -/
def execIntCauseClear (v : W32) (s : State) : Host.Outcome State Fault Refusal := nextOf s (intCauseClear v s)
/-- INT_MASK_WRITE. -/
def execIntMaskWrite (v : W32) (s : State) : Host.Outcome State Fault Refusal := nextOf s (intMaskWrite v s)
/-- DB_TAIL_WRITE. -/
def execDbTailWrite (c : Ctx) (e : Eng) (q : Qn) (v : W32) (s : State) : Host.Outcome State Fault Refusal := nextOf s (dbTailWrite c (qix e q) v s)
/-- DB_STOP. -/
def execDbStop (c : Ctx) (e : Eng) (q : Qn) (s : State) : Host.Outcome State Fault Refusal := nextOf s (dbStop c (qix e q) s)
/-- DB_RESTART. -/
def execDbRestart (c : Ctx) (e : Eng) (q : Qn) (s : State) : Host.Outcome State Fault Refusal := nextOf s (dbRestart c (qix e q) s)
/-- ENTRY_FETCHED. -/
def execEntryFetched (c : Ctx) (e : Eng) (q : Qn) (r : ReadResult) (s : State) : Host.Outcome State Fault Refusal :=
  nextOf s (entryFetched c (qix e q) r s)
/-- ENTRY_START. -/
def execEntryStart (e : Eng) (s : State) : Host.Outcome State Fault Refusal := nextOf s (entryStart e s)
/-- WAIT_DEADLINE_EXPIRED. -/
def execWaitDeadlineExpired (c : Ctx) (e : Eng) (q : Qn) (s : State) : Host.Outcome State Fault Refusal :=
  nextOf s (waitDeadlineExpired c (qix e q) s)
/-- ENTRY_COMPLETE. -/
def execEntryComplete (c : Ctx) (e : Eng) (q : Qn) (n : W32) (writeOk : Bool) (s : State) : Host.Outcome State Fault Refusal :=
  nextOf s (entryComplete c (qix e q) n writeOk s)

end Sys2Proof.Machine
end

