-- ==== Sys2Proof/Machine/Bar.lean ====
section
/-!
DEFINITION. The host's view of the module: what a read of BAR0 and BAR2 returns, what a write does (R283–R290, R293, R304, R306, R330), and the
configuration-space structures R279 and R284 name: REGISTER_WRITE.
-/
namespace Sys2Proof.Machine

/-! ### BAR0 as read (R285–R288, R293, R304, R306, R330) -/

/-- A bit as a number. -/
def bit (b : Bool) (i : Nat) : Nat := if b then 2 ^ i else 0

/-- The mailbox control block (R288, R293, R304). Write-only bits read as undefined (R19). -/
def State.mailboxRegs (s : State) : List RByte :=
  let h := s.host
  rsvd 4 ++ fldR 4 (h.code.toNat + h.reqLen.toNat * 2 ^ 16) 0xE0000000
    ++ fldR 4 (bit h.fwReady 31 + bit h.busy 30 + bit h.done 29 + h.respLen * 2 ^ 16 + h.seq.toNat * 2 ^ 12 + h.status) 0xF00
    ++ fldR 4 ((match h.owner with
        | .free => 0
        | .host => 64
        | .sideband => 128) + bit h.preempted 5) 0xFFFFFF1F
    ++ fldR 4 h.cause.toNat 0xFFFFFFC0 ++ fldR 4 h.mask.toNat 0xFFFFFFC0 ++ rsvd 8

/-- The doorbell block of a queue (R330). -/
def Queue.doorbellRegs (q : Queue) : List RByte :=
  fld 4 q.tail.toNat ++ fld 4 q.fetch.toNat ++ fld 4 q.head.toNat ++ rsvd 4
    ++ fldR 4 (bit q.enabled 31 + bit q.stopped 30 + q.inflight % 256 * 2 ^ 8 + q.cause) 0x3FFF0000 ++ rsvd 44

/-- The byte that a read of BAR0 returns at an offset (R285, R286); unlisted offsets return undefined values. -/
def State.bar0 (s : State) (off : Nat) : RByte :=
  let free : RByte := .part 0 0xFF
  if off < 0x40 then s.idResp.getD off free
  else if 0x1000 ≤ off ∧ off < 0x1020 then s.mailboxRegs.getD (off - 0x1000) free
  else if 0x2000 ≤ off ∧ off < 0x3000 then .is (s.host.payload.get (off - 0x2000))
  else if 0x10000 ≤ off ∧ off < 0x20000 then
    let i := (off - 0x10000) / 64
    (s.queue (i / 16) (i % 16)).doorbellRegs.getD (off % 64) free
  else if 0x100000 ≤ off ∧ off < 0x100800 then .is (s.host.msixTable.get (off - 0x100000))
  else if 0x100800 ≤ off ∧ off < 0x100810 then .is ((le 16 s.host.msixPending.toNat).getD (off - 0x100800) 0)
  else if 0x110000 ≤ off ∧ off < 0x110100 then s.fsBytes.getD (off - 0x110000) free
  else free

/-! ### BAR2 and configuration space (R279, R282, R284; the layout is that of CXL 3.1, PRESUMED, log entry 53) -/

/-- The component registers that CXL.cache and CXL.mem use, as read: capability array at 0x1000, RAS at 0x1080, HDM decoder at 0x1100. The decoder
reports the pool's size, one way at 256 B granularity (R282). -/
def State.bar2Words (s : State) : KMap Nat :=
  let r := s.host.component
  [(0x1000, 0x02110001), (0x1004, 0x08030002), (0x1008, 0x10030005),
    (0x1080, r.rasUe.toNat), (0x1084, r.rasUeMask.toNat), (0x1088, r.rasUeSev.toNat), (0x108C, r.rasCe.toNat), (0x1090, r.rasCeMask.toNat),
    (0x1100, 0x100), (0x1104, r.hdmGlobal.toNat),
    (0x1110, r.hdmBase.toNat % 2 ^ 32), (0x1114, r.hdmBase.toNat / 2 ^ 32), (0x1118, s.poolLen % 2 ^ 32), (0x111C, s.poolLen / 2 ^ 32),
    (0x1120, r.hdmCtl.toNat), (0x1124, 0), (0x1128, 0)]

/-- The byte that a read of BAR2 returns at an offset. -/
def State.bar2 (s : State) (off : Nat) : RByte :=
  match s.bar2Words.get? (off / 4 * 4) with
  | some v => .is ((le 4 v).getD (off % 4) 0)
  | none => .part 0 0xFF

/-- The Register Locator DVSEC: one block, the component registers at offset 0 of BAR2 (R284). -/
def registerLocator : List Byte :=
  le 4 0x00010023 ++ le 2 0x1E98 ++ le 2 0x0140 ++ le 2 8 ++ le 2 0 ++ le 4 0x0102 ++ le 4 0

/-- The CDAT: one range of device memory, the host pool (R279, R282). -/
def State.cdat (s : State) : List Byte :=
  let body := le 1 0 ++ le 1 0 ++ le 2 24 ++ le 1 0 ++ le 1 0 ++ le 2 0 ++ le 8 0 ++ le 8 s.poolLen
  let table (sum : Nat) : List Byte := le 4 (16 + body.length) ++ le 1 1 ++ le 1 sum ++ le 6 0 ++ le 4 0 ++ body
  table ((256 - ((table 0).foldl (fun a b => a + b.toNat) 0) % 256) % 256)

/-- The answer of the data object exchange to an object (R279): Discovery, by index, and CDAT. -/
def State.doe (s : State) (vendor typ index : Nat) : Option (List Byte) :=
  if vendor = 1 ∧ typ = 0 then
    (if index = 0 then some (le 2 1 ++ le 1 0 ++ le 1 1) else if index = 1 then some (le 2 0x1E98 ++ le 1 2 ++ le 1 0) else none)
  else if vendor = 0x1E98 ∧ typ = 2 then some s.cdat
  else none

/-! ### Writes -/

/-- A 4-byte register written in part keeps its other bytes: `m` marks the bytes written. -/
def merge (old v m : Nat) : W32 := (BitVec.ofNat 32 old &&& ~~~BitVec.ofNat 32 m) ||| BitVec.ofNat 32 v

/-- The codes of R298's tables. -/
def mbCodes : List Nat :=
  rangeFrom 0x01 11 ++ rangeFrom 0x10 8 ++ rangeFrom 0x20 3 ++ [0x30, 0x31] ++ rangeFrom 0x40 3 ++ [0x50, 0x51] ++ rangeFrom 0x60 3
    ++ rangeFrom 0x70 5 ++ [0x80, 0x81] ++ rangeFrom 0x90 9 ++ rangeFrom 0xA0 4 ++ rangeFrom 0xB0 10

/-- 1 written to GO (R289, R298): ignored while BUSY is 1; a code of no table and a GO without FW_READY complete at once; otherwise BUSY is 1 until
the command of that code completes (log entry 12). -/
def pressGo (s : State) : State :=
  let h := s.host
  if h.busy then s
  else
    let code := h.code.toNat
    if !h.fwReady ∨ !mbCodes.contains code then
      hostCmd .q code (fun _ _ t => (t, err unsupported)) (h.payload.read 0 h.reqLen.toNat) s
    else { s with host := { h with busy := true, done := false, spoiled := false } }

/-- A write to one register of the mailbox control block: the value, and the mask of the bytes written (R288, R293, R304). While BUSY is 1 a write to
MB_CMD leaves the request undefined (R289). -/
def mailboxWrite (r v m : Nat) (s : State) : State :=
  let w := BitVec.ofNat 32 v
  if r = 0x00 then (if v.testBit 0 then pressGo s else s)
  else if r = 0x04 then
    if s.host.busy then { s with host := { s.host with spoiled := true } }
    else
      let x := (merge (s.host.code.toNat + s.host.reqLen.toNat * 2 ^ 16) v m).toNat
      { s with host := { s.host with code := BitVec.ofNat 16 x, reqLen := BitVec.ofNat 13 (x / 2 ^ 16) } }
  else if r = 0x08 then (if v.testBit 29 then mbDoneClear s else s)
  else if r = 0x0C then
    let s1 := if v.testBit 0 ∧ s.host.owner = .free then lockAcquireHost s else if v.testBit 1 then lockReleaseHost s else s
    if v.testBit 5 then preemptedClear s1 else s1
  else if r = 0x10 then intCauseClear w s
  else if r = 0x14 then intMaskWrite (merge s.host.mask.toNat v m) s
  else s

/-- A write to one register of a doorbell block (R330, R334). -/
def doorbellWrite (c k r v m : Nat) (s : State) : State :=
  if r = 0x00 then dbTailWrite c k (merge (s.queue c k).tail.toNat v m) s
  else if r = 0x0C then (if v.testBit 0 then dbStop c k s else if v.testBit 1 then dbRestart c k s else s)
  else s

/-- A write to one component register (R284, log entry 53): status bits clear on 1; a decoder that is committed and locked keeps its base and control;
Commit commits at once. -/
def componentWrite (r v m : Nat) (x : Component) : Component :=
  let locked := x.hdmCtl.getLsbD 10
  let low := merge (x.hdmBase.toNat % 2 ^ 32) v m &&& 0xF0000000#32
  let high := merge (x.hdmBase.toNat / 2 ^ 32) v m
  if r = 0x1080 then { x with rasUe := x.rasUe &&& ~~~BitVec.ofNat 32 v }
  else if r = 0x1084 then { x with rasUeMask := merge x.rasUeMask.toNat v m }
  else if r = 0x1088 then { x with rasUeSev := merge x.rasUeSev.toNat v m }
  else if r = 0x108C then { x with rasCe := x.rasCe &&& ~~~BitVec.ofNat 32 v }
  else if r = 0x1090 then { x with rasCeMask := merge x.rasCeMask.toNat v m }
  else if r = 0x1104 then { x with hdmGlobal := merge x.hdmGlobal.toNat v m &&& 3 }
  else if r = 0x1110 then (if locked then x else { x with hdmBase := BitVec.ofNat 64 (x.hdmBase.toNat / 2 ^ 32 * 2 ^ 32 + low.toNat) })
  else if r = 0x1114 then (if locked then x else { x with hdmBase := BitVec.ofNat 64 (high.toNat * 2 ^ 32 + x.hdmBase.toNat % 2 ^ 32) })
  else if r = 0x1120 then
    if locked ∧ x.hdmCtl.getLsbD 8 then x
    else
      let n := merge x.hdmCtl.toNat v m &&& 0x300#32
      { x with hdmCtl := if n.getLsbD 9 then n ||| 0x400#32 else n }
  else x

/-- The 4-byte registers that a write of bytes from `off` covers: offset, value, and mask of the bytes written. -/
def wordsOf (off : Nat) (b : List Byte) : List (Nat × Nat × Nat) :=
  (rangeFrom (off / 4) ((off + b.length + 3) / 4 - off / 4)).map fun w =>
    let at' (i : Nat) : Nat := 4 * w + i - off
    let here (i : Nat) : Bool := decide (off ≤ 4 * w + i ∧ 4 * w + i < off + b.length)
    (4 * w, unle ((List.range 4).map fun i => if here i then b.getD (at' i) 0 else 0), unle ((List.range 4).map fun i => if here i then 0xFF#8 else 0))

/-- The areas of the two BARs that a write can act on, as offset and length (R285, R288); BAR2 stands at 0x200000 (log entry 53). -/
def barAreas : List (Nat × Nat) := [(0x1000, 0x20), (0x2000, 0x1000), (0x10000, 0x10000), (0x100000, 0x800), (0x200000, 0x10000)]

/-- A write that lies in one area. -/
def areaWrite (off : Nat) (b : List Byte) (s : State) : State :=
  if off < 0x1020 then (wordsOf off b).foldl (fun a w => mailboxWrite (w.1 - 0x1000) w.2.1 w.2.2 a) s
  else if off < 0x3000 then
    { s with host := { s.host with payload := s.host.payload.write (off - 0x2000) b, spoiled := s.host.spoiled || s.host.busy } }
  else if off < 0x20000 then
    (wordsOf off b).foldl (fun a w => let i := (w.1 - 0x10000) / 64
      doorbellWrite (i / 16) (i % 16) (w.1 % 64) w.2.1 w.2.2 a) s
  else if off < 0x100800 then s.msixUnmasked { s with host := { s.host with msixTable := s.host.msixTable.write (off - 0x100000) b } }
  else
    let x := (wordsOf off b).foldl (fun y w => componentWrite (w.1 - 0x200000) w.2.1 w.2.2 y) s.host.component
    { s with host := { s.host with component := x } }

/-- A write of the host to BAR0, or to BAR2 from 0x200000 on, takes effect area by area in ascending order; other offsets ignore it (R285). -/
def registerWrite (off : Nat) (b : List Byte) (s : State) : State :=
  if !s.hostOn then s
  else barAreas.foldl (fun a r =>
    let lo := max off r.1
    let hi := min (off + b.length) (r.1 + r.2)
    if lo < hi then areaWrite lo ((b.drop (lo - off)).take (hi - lo)) a else a) s

/-- REGISTER_WRITE: BAR0 is 2 MiB and BAR2 64 KiB (R284, R285); there is nothing beyond them. -/
def execRegisterWrite (off : W32) (bytes : List Byte) (s : State) : Host.Outcome State Fault Refusal :=
  if 0x210000 < off.toNat + bytes.length then .fault (.outsideWindow off.toNat) else nextOf s (registerWrite off.toNat bytes s)

end Sys2Proof.Machine
end

