-- ==== Sys2Proof/Machine/Ledger.lean ====
section
/-!
DEFINITION. Shadow mismatches and the suspect ledger (R469–R476, R490–R495).
-/
namespace Sys2Proof.Machine

/-- An integer clamped to a range. -/
def clamp (lo hi v : Int) : Nat := (max lo (min hi v)).toNat

/-- BIN (R491) at the arithmetic clock of 1,800 MHz. -/
def ledgerBin (temp : Int) (mv act : Nat) : Nat :=
  clamp 0 159 temp / 10 * 2 ^ 12 + clamp 0 250 ((mv : Int) - 550) / 25 * 2 ^ 8 + min 15 (1800 / 200) * 2 ^ 4 + act % 256 / 32

/-- A little-endian field of a ledger record. -/
def recFld (r : List Byte) (off n : Nat) : Nat := unle ((r.drop off).take n)

/-- A record of the same sheet and bin, at most 72 h of LIFE_S before `now` (R495). -/
def inBin (r : List Byte) (sh bin now : Nat) : Bool :=
  decide (recFld r 5 1 = sh ∧ recFld r 0x10 2 = bin) && decide ((now + 2 ^ 32 - recFld r 0x14 4) % 2 ^ 32 ≤ 259200)

/-- What one mismatch shows (R472, R475). -/
structure Mismatch where
  /-- 1 SHADOW_OUT, 2 SHADOW_WM. -/
  kind : Nat
  /-- Tile row. -/
  row : Nat
  /-- PORT. -/
  port : Nat
  /-- LANE. -/
  lane : Nat
  /-- DIFF. -/
  diff : W32
  /-- TEMP. -/
  temp : Int
  /-- VCORE_MV. -/
  mv : Nat
  /-- ACT. -/
  act : Nat

/-- Record a mismatch of the spare of a sheet against its target: ledger record, error record, WATCHED and condemnation (R471, R472, R490,
R493–R495). -/
def State.recordMismatch (s : State) (sh : Nat) (d : Dwell) (m : Mismatch) : State :=
  let x := s.sheet sh
  let lcol := d.target.getD 0
  let tpc := (x.map.getD lcol none).getD 0x1F
  let spc := x.rove.getD 0x1F
  let c := s.holderOfSheet sh
  let y := s.ctx (c.getD 64)
  let bin := ledgerBin m.temp m.mv m.act
  let now := s.lifeS
  let old := s.logs.ledger.filter fun r => inBin r sh bin now
  let tc := old.any fun r => decide (recFld r 6 1 = tpc)
  let sc := old.any fun r => decide (recFld r 7 1 = spc ∧ recFld r 6 1 ≠ tpc)
  let watch := !tc && !x.watched.contains tpc
  let flags := (if watch then 1 else 0) + (if tc then 2 else 0) + (if sc then 4 else 0) + (if c.isNone then 8 else 0)
  let r := le 4 s.logs.ledgerSeq.toNat ++ le 1 m.kind ++ le 1 sh ++ le 1 tpc ++ le 1 spc ++ le 1 m.row ++ le 1 lcol ++ le 1 m.port
    ++ le 1 (m.temp % 256).toNat ++ le 2 m.mv ++ le 2 1800 ++ le 2 bin ++ le 1 m.act ++ le 1 flags ++ le 4 now ++ le 6 s.cyc
    ++ le 1 (c.getD 0xFF) ++ le 1 m.lane ++ le 8 (if c.isSome then y.sched else 0) ++ padTo 16 ((y.prog.map (·.pid)).getD [])
    ++ le 4 m.diff.toNat
  let rec' := r ++ le 4 (crc32c r)
  let kept := if 4096 ≤ s.logs.ledger.length then s.logs.ledger.drop 1 else s.logs.ledger
  let s1 : State := { s with logs := { s.logs with
    ledger := kept ++ [rec'], ledgerSeq := s.logs.ledgerSeq + 1, ledgerCtr := (s.logs.ledgerCtr + 1) % 2 ^ 48 } }
  let s2 := s1.logErr (if m.kind = 2 then 0x0109 else 0x0108)
    { handle := s.handleOf (.ptile sh tpc m.row), lhandle := s.handleOf (.ltile sh lcol m.row), loc := sh * 2 ^ 24 + tpc * 2 ^ 16 + m.row * 2 ^ 8
      ctx := c, pt := some (ptOfSheet sh) } rec'
  let s3 := s2.modSheet sh fun z =>
    { z with
      dwell := z.dwell.map fun (e : Dwell) => { e with
        mismatched := true, against := true }
      watched := if watch then z.watched ++ [tpc] else z.watched
      inspect := if watch ∧ c.isSome then some tpc else z.inspect }
  let s4 := if watch then s3.sheetCount sh 0x0C04 1 else s3
  let s5 := if tc then s4.condemn sh tpc 4 else s4
  if sc then s5.condemn sh spc 4 else s5

/-- The spare of a sheet is in step and compared (R451, R469). -/
def Sheet.shadowed (x : Sheet) : Option Dwell :=
  match x.dwell with
  | some d => if d.inStep && d.target.isSome then some d else none
  | none => none

/-- The tile holds the target of a spare that is in step; its shadow keys (R473, R476). -/
def State.shadowKeys (s : State) (i : Nat) : Option (W64 × W64) :=
  let x := s.sheet (i / 288)
  match x.shadowed with
  | none => none
  | some d => if x.map.getD (d.target.getD 0) none = some (i % 288 / 16) then some (d.key1, d.key2) else none

end Sys2Proof.Machine
end

