-- ==== Sys2Proof/Machine/Moves.lean ====
section
/-!
DEFINITION. Graph-engine and move-engine entries that run programs and move data (R213–R214, R270, R277, R337–R349): RUN to FILL and
FEED_DATA_REACHED_LPDDR5X.
-/
namespace Sys2Proof.Machine

/-- The entry an event carries out: started, without an outcome, of the event's opcode (R328, R335). -/
def State.entryAt (s : State) (c k : Nat) (n : W32) (op : Nat) : Option Entry :=
  if s.dies.ct0Lost then none
  else match (s.queue c k).entry? n with
    | some e => if e.started && e.outcome.isNone && decide (e.opcode = op) then some e else none
    | none => none

/-! ### The graph engine (R338–R340) -/

/-- IDs that SYNC_MAP names (R403, R404). -/
def Prog.syncIds (g : Prog) : List Nat :=
  (g.syncMap.flatMap fun e => e.id :: (if e.role = 3 then [e.stepVal % 65536] else [])).eraseDups

/-- BASEV: the value of every counter SYNC_MAP names (R404). -/
def State.baseVals (s : State) (c : Nat) (g : Prog) : KMap W32 :=
  g.syncIds.foldl (fun (m : KMap W32) id => match s.syncEnt c id with
    | some t => m.set id (s.syncVal t)
    | none => m) []

/-- The tile records of R197: the states of R188 by local tile, row·128 + column. -/
def State.tileRecords (s : State) (c : Nat) : KMap (List CState) :=
  (s.cfgTiles c).foldl (fun (m : KMap (List CState)) t => m.set (t.1 * 128 + t.2.1) (s.tile t.2.2).cst) []

/-- FEEDs of a context are to be re-executed still (R348). -/
def State.refeeds (s : State) (c : Nat) : Bool := (s.ctx c).queues.any fun q => !q.redoing.isEmpty

/-- A reload prologue begins (R509, R510, R512), after the FEEDs that are re-executed (R348, R507). -/
def State.beginPrologue (s : State) (c : Nat) (g : Prog) : State :=
  if s.refeeds c then s.modCtx c fun x => { x with hold := .refeed s.clk.life, reads := x.reads.filter fun r => !r.pro }
  else (s.writePrologue c g.prologue).modCtx c fun x => { x with hold := .prologue s.clk.life, reads := x.reads.filter fun r => !r.pro }

/-- A RUN starts (R315, R338, R404, R512, R674). -/
def State.startRun (s : State) (c : Nat) (g : Prog) (r : RunRec) : State :=
  let x := s.ctx c
  let s1 := x.held.foldl (fun a p => if (a.pt p).pwr = .run then a else a.wakePt p) s
  let s2 := x.held.foldl (fun a p => a.modPt p fun y => { y with runCyc := 0, sinceRelease := 0 }) s1
  let s3 := s2.modCtx c fun y => { y with st := .running, run := some r, hold := if x.snapWait then .decide s.clk.life else .until s.clk.life, sampled := [], overdue := false }
  if x.started then
    let s4 := s3.alignSprog c
    if x.proAgain then (s4.beginPrologue c g).modCtx c fun y => { y with proAgain := false } else s4
  else
    let s4 := s3.modCtx c fun y => { y with started := true, sched := 0, commit := ⟨0, s.baseVals c g, s.tileRecords c, s.cyc⟩ }
    (s4.alignSprog c).beginPrologue c g

/-- RUN (R338). -/
def run (c q : Nat) (n : W32) (s : State) : State :=
  match s.entryAt c q n 0x01 with
  | none => s
  | some e =>
    let x := s.ctx c
    let lim := e.fld 0x18 8
    if x.run = some ⟨q, n, lim⟩ then s
    else match x.st, x.prog with
      | .placed, some g =>
        if g.refreshN ∧ x.held.any (fun p => !(s.pt p).classN) then s.setOutcome c q n (failed conflict { kind := 3, extra := 3 })
        else match x.held.find? fun p => decide (s.bandOfPt p = 3) with
        | some p => s.setOutcome c q n (failed conflict { kind := 1, state := s.ptStatus p, handle := s.handleOf (.pt p) })
        | none => if lim ≠ 0 ∧ lim ≤ x.step then s.setOutcome c q n { status := ok, reason := rStepLimit }
        else s.startRun c g ⟨q, n, lim⟩
      | st, _ => s.setOutcome c q n (stateFailed st)

/-- STOP (R339). -/
def stop (c q : Nat) (n : W32) (s : State) : State :=
  match s.entryAt c q n 0x02 with
  | none => s
  | some _ =>
    let x := s.ctx c
    if x.run.isNone then s.setOutcome c q n { status := ok }
    else if x.stops.contains (q, n) then s
    else s.modCtx c fun y => { y with stops := y.stops ++ [(q, n)] }

/-- The tiles of a reconfiguration set take their images and a new generation (R213, R214, R509). -/
def State.reconfigure (s : State) (c : Nat) (g : Prog) (l : List TileRec) : State :=
  let gen := (s.ctx c).cgen + 1
  let s1 := l.foldl (fun a t => match a.physTile c t.row t.col with
    | some i => a.modTile i fun x =>
      { x with queues := List.replicate 8 [], ctr := x.ctr.modify 4 fun v => (v + (x.queues.map List.length).foldl (· + ·) 0) % 2 ^ 48 }
    | none => a) s
  let named (t : TileRec) : Bool := l.any fun u => decide (u.row = t.row ∧ u.col = t.col)
  let s2 := (s1.writeImages c gen l).writePrologue c (g.prologue.filter named)
  s2.modCtx c fun x =>
    { x with
      cgen := gen, lastReconfig := some s.clk.life
      commit := { x.commit with tiles := l.foldl (fun (m : KMap (List CState)) t => m.set (t.row * 128 + t.col) (List.replicate 8 {})) x.commit.tiles } }

/-- RECONFIG (R213, R214, R340): with a RUN in progress it waits for the hold of a commit, and there for the end of a firmware restart (R520). -/
def reconfig (c q : Nat) (n : W32) (s : State) : State :=
  match s.entryAt c q n 0x03 with
  | none => s
  | some e =>
    let x := s.ctx c
    if 1 < e.fld 0x1C 1 then s.setOutcome c q n (failed invalid { arg := 0x1C })
    else match x.prog with
      | none => s.setOutcome c q n (stateFailed x.st)
      | some g =>
        match g.reconfig.find? (·.1 = e.fld 0x18 4) with
        | none => s.setOutcome c q n (failed notFound { arg := 0x18 })
        | some l =>
          if (x.run.isSome ∧ (!x.commitHold ∨ s.mgmt.restart.isSome)) ∨ s.clk.life < x.reconfigAt then s
          else if e.fld 0x1C 1 = 0 ∧ l.2.any (fun t => match s.physTile c t.row t.col with
              | some i => (s.tile i).queues.any fun z => !z.isEmpty
              | none => false) then s.setOutcome c q n (stateFailed x.st)
          else (s.reconfigure c g l.2).setOutcome c q n { status := ok }

/-! ### Locations of the move engine (R342, R343, R655, R661) -/

/-- First byte and length of a Reel area (R653). -/
def reelArea (r : Reel) (code : Nat) : Nat × Nat :=
  let w := r.weightGib * 2 ^ 30
  if code = 1 then (weightBase, w)
  else if code = 2 then (weightBase + w, r.nlba * 4096 - weightBase - w)
  else if code = 3 then (33024 * 4096, 67108864 * 4096)
  else (256 * 4096, 32768 * 4096)

/-- Local row and column of an S-tile address (R342). -/
def stileRow (a : Nat) : Nat := a / 2 ^ 40 % 256
/-- Local column of an S-tile address. -/
def stileCol (a : Nat) : Nat := a / 2 ^ 32 % 256

/-- A transfer leaves its location or breaks its alignment (R342). -/
def State.locInvalid (s : State) (c kind a n : Nat) : Bool :=
  let x := s.ctx c
  if kind = 0 then decide (2 ^ 64 < a + n)
  else if kind = 1 then (match x.alloc with
    | none => true
    | some al => decide (allocLen al < a + n))
  else if kind = 2 then
    decide (2 ^ 48 ≤ a ∨ a / 65536 % 65536 ≠ 0 ∨ n % 64 ≠ 0 ∨ 65536 < a % 65536 + n / 64)
      || (match x.prog with
          | none => false
          | some g => decide ((gridShape g.cls).2 ≤ stileRow a ∨ (gridShape g.cls).1 ≤ stileCol a))
  else if kind = 3 then
    let code := a / 2 ^ 60
    let off := a % 2 ^ 60
    decide (code < 1 ∨ 4 < code ∨ off % 4096 ≠ 0 ∨ n % 4096 ≠ 0) || (decide (s.reel.st = .ready) && decide ((reelArea s.reel code).2 < off + n))
  else true

/-- What bars an access in the present state (R342, R343, R655, R661). -/
def State.locConflict (s : State) (c kind a n : Nat) (write : Bool) : Option Detail :=
  let x := s.ctx c
  let ctx : Detail := { kind := 2, state := ctxCode x.st }
  if kind = 1 then (if write ∧ touchesRegion x a n then some ctx else none)
  else if kind = 2 then (if x.prog.isNone ∨ x.st = .running ∨ tileType (stileRow a % 16) ≠ 3 ∨ (s.physTile c (stileRow a) (stileCol a)).isNone then some ctx else none)
  else if kind = 3 then
    let code := a / 2 ^ 60
    let use := s.reel.authentic || decide (s.settingNat 0x30 = 1)
    if s.reel.st ≠ .ready ∨ s.dies.ct1Lost ∨ code = 3 ∨ (code = 4 ∧ (!write ∨ !s.reel.authentic)) ∨ !use then
      some { kind := 4, state := reelCode s.reel.st }
    else if write ∧ s.reel.writeStop then some { kind := 4, state := reelCode s.reel.st, extra := 1 } else none
  else none

/-- Channels of an allocation that a range of context addresses lies on (R239). -/
def touched (al : Alloc) (a n : Nat) : List Nat :=
  let g := granuleBytes al.granule
  let m := al.nch * al.pts.length
  let u := a / g
  let cnt := (a + n - 1) / g - u + 1
  ((List.range m).filter fun i => decide (m ≤ cnt) || decide ((i + m - u % m) % m < cnt)).map fun i => al.chans.getD i 0

/-- An access must wait: host transfers need bus-master enable (R283), channels of a partition in reset are not reached (R277). -/
def State.locWaits (s : State) (c kind a n : Nat) : Bool :=
  if kind = 0 then !s.host.busMaster
  else if kind = 1 then (match (s.ctx c).alloc with
    | some al => (touched al a n).any fun h => (s.pt (ptOfChan h)).inReset
    | none => false)
  else false

/-- Wake the channels of a location, or the partition of a store (R277, R674). -/
def State.wakeLoc (s : State) (c kind a n : Nat) : State :=
  match kind, (s.ctx c).alloc with
  | 1, some al => s.wakeChans (touched al a n)
  | 2, _ => (match s.physTile c (stileRow a) (stileCol a) with
    | some i => s.unidle (ptOfSheet (i / 288))
    | none => s)
  | _, _ => s

/-- Bytes read at a location; host bytes come with the event. -/
def State.locRead (s : State) (c kind a n : Nat) (host : List Byte) : List Byte :=
  if kind = 0 then host
  else if kind = 1 then s.ctxRead c a n
  else if kind = 2 then (match s.physTile c (stileRow a) (stileCol a) with
    | some i => (s.tile i).store.read (64 * (a % 65536)) n
    | none => zeros n)
  else s.reel.data.read ((reelArea s.reel (a / 2 ^ 60)).1 + a % 2 ^ 60) n

/-- Whole words of a tile's store are written; the watermark accumulator of a column in shadow adds old xor new (R473). -/
def Tile.writeStore (t : Tile) (keys : Option (W64 × W64)) (a : Nat) (b : List Byte) : Tile :=
  let t1 := t.putStore a b
  match keys with
  | none => t1
  | some k =>
    let x := wmElems (a / 8) (xorBytes (t.store.read a b.length) b)
    { t1 with wm1 := t.wm1 ^^^ wmHalf k.1 x, wm2 := t.wm2 ^^^ wmHalf k.2 x }

/-- Bytes written at a location. -/
def State.locWrite (s : State) (c kind a : Nat) (b : List Byte) : State :=
  if kind = 0 then s.hostPut a b
  else if kind = 1 then s.ctxWrite c a b
  else if kind = 2 then (match s.physTile c (stileRow a) (stileCol a) with
    | some i => (rangeFrom (a % 65536) (b.length / 64)).foldl (fun st w => st.markDirty i w) ((s.wrote i).modTile i fun t => t.writeStore (s.shadowKeys i) (64 * (a % 65536)) b)
    | none => s)
  else { s with reel := { s.reel with data := s.reel.data.write ((reelArea s.reel (a / 2 ^ 60)).1 + a % 2 ^ 60) b } }

/-! ### Memory errors (R270, R272, R274) -/

/-- One uncorrectable or tag error on a group is counted, and the channel is broke when R274 says so. -/
def State.memError (s : State) (ch group : Nat) (tag : Bool) : State :=
  let x := s.chan ch
  let again := tag && x.tags.any fun t => decide (t.1 = group) && t.2
  let day := (x.errs.filter fun e => decide (e.1 ≠ group) && decide (s.clk.life < e.2 + 24 * 3600 * cycPerSec)) ++ [(group, s.clk.life)]
  let s1 := s.modChan ch fun y => { y with
    errs := day
    bad := if tag ∨ y.lost group then y.bad else y.bad ++ [(group, 0)]
    tags := if tag ∧ !(y.tags.any (·.1 = group)) then y.tags ++ [(group, false)] else y.tags
    ue := if tag then y.ue else (y.ue + 1) % 2 ^ 48, tag := if tag then (y.tag + 1) % 2 ^ 48 else y.tag }
  if again ∨ 16 ≤ day.length then s1.breakChan ch 0x0A group else s1

/-- An ECC outcome on an access of an engine, the pool or a scrub (R270): corrected words are counted; errors are logged without a step. -/
def State.engineEcc (s : State) (ch off : Nat) (ecc : Ecc) : State :=
  match ecc with
  | .clean => s
  | .corrected => s.modChan ch fun x => { x with ce := (x.ce + 1) % 2 ^ 48 }
  | .uncorrectable => (s.logErr 0x0106 { loc := ch, pt := some (ptOfChan ch) } (memBody ch (off / 960) 0 0)).memError ch (off / 960) false
  | .tagError => (s.logErr 0x0107 { loc := ch, pt := some (ptOfChan ch) } (memBody ch (off / 960) 0 0)).memError ch (off / 960) true

/-- The reads of a context range that are not clean, in ascending order: channel, usable byte offset and outcome (R233). A word on a channel that is
broke is not read (R274). -/
def State.rangeErrs (s : State) (c a n : Nat) : List (Nat × Nat × Ecc) :=
  let x := s.ctx c
  match x.alloc with
  | none => []
  | some al => if (touched al a n).all fun h => (s.chan h).flaws.isEmpty && (s.chan h).bad.isEmpty && !(s.chan h).broke then []
    else (rangeFrom (a / 64) ((a + n + 63) / 64 - a / 64)).filterMap fun w =>
      let l := locate al (resolveCommitted x (64 * w))
      let o := if (s.chan l.1).broke then Ecc.uncorrectable else s.wordEcc l.1 l.2
      if o = .clean then none else some (l.1, l.2, o)

/-- An engine has read a context range (R270): corrected words are counted, and the first that cannot be corrected is logged and ends the access. -/
def State.readRange (s : State) (c a n : Nat) : State × Bool :=
  let l := s.rangeErrs c a n
  let s1 := (l.takeWhile fun e => decide (e.2.2 = .corrected)).foldl (fun t e => t.engineEcc e.1 e.2.1 e.2.2) s
  match l.find? fun e => decide (e.2.2 ≠ .corrected) with
  | some e => (s1.engineEcc e.1 e.2.1 e.2.2, false)
  | none => (s1, true)

/-! ### COPY, FEED and FILL -/

/-- LEN of a transfer is out of range (R342). -/
def lenBad (n : Nat) : Bool := decide (n < 1 ∨ 2 ^ 40 < n)

/-- A COPY must carry COVER_STEP (R344). -/
def State.needsCover (s : State) (c : Nat) (e : Entry) : Bool :=
  let x := s.ctx c
  decide (e.fld 0x38 8 = 0) && decide (e.fld 0x18 1 = 1) && decide (x.st = .running)
    && (decide (e.fld 0x19 1 = 0) || decide (e.fld 0x19 1 = 3)) && touchesRegion x (e.fld 0x20 8) (e.fld 0x30 8)

/-- The data of a transfer moves: an uncorrectable source ends it (R270), else the bytes are written and RESULT counts them (R351). -/
def State.moveData (s : State) (c : Nat) (e : Entry) (host : List Byte) : Done × State :=
  let sk := e.fld 0x18 1
  let dk := e.fld 0x19 1
  let src := e.fld 0x20 8
  let dst := e.fld 0x28 8
  let len := e.fld 0x30 8
  let s1 := (s.wakeLoc c sk src len).wakeLoc c dk dst len
  let r := if sk = 1 then s1.readRange c src len else (s1, true)
  if r.2 then ({ status := ok, result := len }, r.1.locWrite c dk dst (r.1.locRead c sk src len host)) else (failed integrity, r.1)

/-- COPY (R270, R342–R345, R655–R657): a copy with the Reel starts an access that REEL_ACCESS_DONE ends; bytes to the Reel leave at once, bytes
from it are moved when the access ends (log entry 23). -/
def copy (c q : Nat) (n : W32) (src : ReadResult) (flips : List DramFlip) (s0 : State) : State :=
  let s := s0.decay flips
  let k := qix 1 q
  match s.entryAt c k n 0x10 with
  | none => s
  | some e =>
    let sk := e.fld 0x18 1
    let dk := e.fld 0x19 1
    let a := e.fld 0x20 8
    let b := e.fld 0x28 8
    let len := e.fld 0x30 8
    let fail (d : Done) : State := s.setOutcome c k n d
    if lenBad len then fail (failed invalid { arg := 0x30 })
    else if s.locInvalid c sk a len then fail (failed invalid { arg := if 3 < sk then 0x18 else 0x20 })
    else if s.locInvalid c dk b len then fail (failed invalid { arg := if 3 < dk then 0x19 else 0x28 })
    else if s.needsCover c e then fail (failed invalid { arg := 0x38 })
    else match (s.locConflict c sk a len false).orElse fun _ => s.locConflict c dk b len true with
      | some d => fail (failed conflict d)
      | none =>
        if s.reel.access.contains (c, k, n) ∨ (s.ctx c).step < e.cover ∨ s.locWaits c sk a len ∨ s.locWaits c dk b len then s
        else
          let host : Option (List Byte) := if sk ≠ 0 then some [] else match src with
            | .data d => some d
            | _ => none
          match host with
          | none => fail (failed integrity)
          | some d =>
            if sk = 0 ∧ d.length ≠ len then s
            else if sk = 3 ∧ dk ≠ 3 then { s with reel := { s.reel with access := s.reel.access ++ [(c, k, n)] } }
            else
              let r := s.moveData c e d
              if dk = 3 ∧ r.1.status = ok then { r.2 with reel := { r.2.reel with access := r.2.reel.access ++ [(c, k, n)] } }
              else r.2.setOutcome c k n r.1

/-- Earlier FEEDs of a queue that are not at stage `ok'` (R347). -/
def Queue.feedsBefore (q : Queue) (n : W32) (ok' : Entry → Bool) : Bool :=
  (q.ents.takeWhile fun z => decide (z.n ≠ n)).all fun z => decide (z.opcode ≠ 0x11) || !z.started || z.outcome.isSome || ok' z

/-- FEED (R343, R346–R349): the data is read from host memory and written; FEED_DATA_REACHED_LPDDR5X counts it. -/
def feed (c q : Nat) (n : W32) (src : ReadResult) (s : State) : State :=
  let k := qix 1 q
  match s.entryAt c k n 0x11 with
  | none => s
  | some e =>
    let b := e.fld 0x28 8
    let len := e.fld 0x30 8
    if lenBad len then s.setOutcome c k n (failed invalid { arg := 0x30 })
    else if s.locInvalid c 0 (e.fld 0x20 8) len then s.setOutcome c k n (failed invalid { arg := 0x20 })
    else if s.locInvalid c 1 b len then s.setOutcome c k n (failed invalid { arg := 0x28 })
    else match s.locConflict c 1 b len true with
      | some d => s.setOutcome c k n (failed conflict d)
      | none =>
        if !e.marks.isEmpty ∨ s.locWaits c 0 0 0 ∨ s.locWaits c 1 b len ∨ !((s.queue c k).feedsBefore n fun z => !z.marks.isEmpty) then s
        else match src with
          | .data d =>
            if d.length ≠ len then s
            else ((s.wakeLoc c 1 b len).locWrite c 1 b d).modEntry c k n fun z => { z with marks := [(0, false)] }
          | _ => s.setOutcome c k n (failed integrity)

/-- FEED_DATA_REACHED_LPDDR5X (R346, R347): FED counts the entry, in queue order. -/
def feedDataReached (c q : Nat) (n : W32) (s : State) : State :=
  let k := qix 1 q
  match s.entryAt c k n 0x11 with
  | none => s
  | some e =>
    if e.marks ≠ [(0, false)] ∨ !((s.queue c k).feedsBefore n fun z => z.marks.any (·.2)) then s
    else (s.modEntry c k n fun z => { z with marks := [(0, true)] }).modQueue c k fun z => { z with fed := z.fed + 1, feeds := z.feeds ++ [n] }

/-- FILL (R342, R343): the pattern repeated. -/
def fillMem (c q : Nat) (n : W32) (s : State) : State :=
  let k := qix 1 q
  match s.entryAt c k n 0x12 with
  | none => s
  | some e =>
    let dk := e.fld 0x20 1
    let b := e.fld 0x28 8
    let len := e.fld 0x30 8
    if lenBad len ∨ len % 8 ≠ 0 then s.setOutcome c k n (failed invalid { arg := 0x30 })
    else if s.locInvalid c dk b len then s.setOutcome c k n (failed invalid { arg := if 3 < dk then 0x20 else 0x28 })
    else match s.locConflict c dk b len true with
      | some d => s.setOutcome c k n (failed conflict d)
      | none =>
        if s.reel.access.contains (c, k, n) ∨ s.locWaits c dk b len then s
        else
          let data := (List.replicate (len / 8) ((e.bytes.drop 0x18).take 8)).flatten
          let t := (s.wakeLoc c dk b len).locWrite c dk b data
          if dk = 3 then { t with reel := { t.reel with access := t.reel.access ++ [(c, k, n)] } }
          else t.setOutcome c k n { status := ok, result := len }

/-! ### Arms -/

/-- RUN. -/
def execRun (c : Ctx) (q : Qn) (n : W32) (s : State) : Host.Outcome State Fault Refusal := nextOf s (run c q n s)
/-- STOP. -/
def execStop (c : Ctx) (q : Qn) (n : W32) (s : State) : Host.Outcome State Fault Refusal := nextOf s (stop c q n s)
/-- RECONFIG. -/
def execReconfig (c : Ctx) (q : Qn) (n : W32) (s : State) : Host.Outcome State Fault Refusal := nextOf s (reconfig c q n s)
/-- COPY. -/
def execCopy (c : Ctx) (q : Qn) (n : W32) (src : ReadResult) (flips : List DramFlip) (s : State) : Host.Outcome State Fault Refusal :=
  nextOf s (copy c q n src flips s)
/-- FEED. -/
def execFeed (c : Ctx) (q : Qn) (n : W32) (src : ReadResult) (s : State) : Host.Outcome State Fault Refusal := nextOf s (feed c q n src s)
/-- FILL. -/
def execFill (c : Ctx) (q : Qn) (n : W32) (s : State) : Host.Outcome State Fault Refusal := nextOf s (fillMem c q n s)
/-- FEED_DATA_REACHED_LPDDR5X. -/
def execFeedDataReachedLpddr5x (c : Ctx) (q : Qn) (n : W32) (s : State) : Host.Outcome State Fault Refusal := nextOf s (feedDataReached c q n s)

end Sys2Proof.Machine
end

