-- ==== Sys2Proof/Machine/Arith.lean ====
section
/-!
DEFINITION. Number formats and arithmetic, exactly as R90–R131 give them: element formats, block products, accumulators, router adds,
conversions with both roundings, and the F-tile functions with their tables.
-/
namespace Sys2Proof.Machine

/-! ### Exact values -/

/-- The value of an encoded number: NaN, an infinity, or (−1)^neg · m · 2^e with the sign of a zero kept. -/
inductive FVal where
  | nan
  | inf (neg : Bool)
  | fin (neg : Bool) (m : Nat) (e : Int)
  deriving DecidableEq, Repr

/-- Is it NaN. -/
def FVal.isNan : FVal → Bool
  | .nan => true
  | _ => false

/-- A binary32 (p = 24) or BF16 (p = 8) code (R93). -/
def ieeeVal (p code : Nat) : FVal :=
  let neg := code.testBit (p + 7)
  let e := code / 2 ^ (p - 1) % 256
  let f := code % 2 ^ (p - 1)
  if e = 255 then (if f = 0 then .inf neg else .nan)
  else if e = 0 then .fin neg f (-126 - (p - 1 : Nat))
  else .fin neg (2 ^ (p - 1) + f) ((e : Int) - 127 - (p - 1 : Nat))

/-- m ÷ 2^s rounded to nearest, ties to even. -/
def rneNat (m s : Nat) : Nat :=
  let q := m / 2 ^ s
  let r := m % 2 ^ s
  if 2 ^ s < 2 * r ∨ (2 * r = 2 ^ s ∧ q % 2 = 1) then q + 1 else q

/-- m · 2^d rounded to nearest, ties to even. -/
def scaleRne (m : Nat) (d : Int) : Nat := if 0 ≤ d then m * 2 ^ d.toNat else rneNat m (-d).toNat

/-- The code of (−1)^neg · m · 2^e rounded once to nearest even, subnormals and overflow included (R93, R101, R119): p = 24 or 8. -/
def ieeeRound (p : Nat) (neg : Bool) (m : Nat) (e : Int) : Nat :=
  let mag :=
    if m = 0 then 0
    else
      let q : Int := max (Nat.log2 m + e - (p - 1 : Nat)) (-126 - (p - 1 : Nat))
      min ((q + 126 + (p - 1 : Nat)).toNat * 2 ^ (p - 1) + scaleRne m (e - q)) (255 * 2 ^ (p - 1))
  mag + if neg then 2 ^ (p + 7) else 0

/-- The code of a value (R94). -/
def ieeeCode (p : Nat) : FVal → Nat
  | .nan => 255 * 2 ^ (p - 1) + 2 ^ (p - 2)
  | .inf neg => 255 * 2 ^ (p - 1) + if neg then 2 ^ (p + 7) else 0
  | .fin neg m e => ieeeRound p neg m e

/-- The value of an FP32 word. -/
def fp32 (x : W32) : FVal := ieeeVal 24 x.toNat
/-- A value rounded to FP32. -/
def toFp32 (v : FVal) : W32 := BitVec.ofNat 32 (ieeeCode 24 v)

/-- Exact product. -/
def FVal.mul : FVal → FVal → FVal
  | .nan, _ => .nan
  | _, .nan => .nan
  | .inf a, .inf b => .inf (a ^^ b)
  | .inf a, .fin b m _ => if m = 0 then .nan else .inf (a ^^ b)
  | .fin a m _, .inf b => if m = 0 then .nan else .inf (a ^^ b)
  | .fin a m e, .fin b n f => .fin (a ^^ b) (m * n) (e + f)

/-- The exact sum of finite values, S · 2^e. -/
def sumFin (l : List (Bool × Nat × Int)) : Int × Int :=
  let lo := l.foldl (fun a x => min a x.2.2) ((l.headD (false, 0, 0)).2.2)
  (l.foldl (fun a x => let v : Int := (x.2.1 * 2 ^ (x.2.2 - lo).toNat : Nat)
                       if x.1 then a - v else a + v) 0, lo)

/-- IEEE 754 sum of two exact values, rounded once (R104, R109). -/
def faddV : FVal → FVal → W32
  | .nan, _ => toFp32 .nan
  | _, .nan => toFp32 .nan
  | .inf a, .inf b => if a = b then toFp32 (.inf a) else toFp32 .nan
  | .inf a, _ => toFp32 (.inf a)
  | _, .inf b => toFp32 (.inf b)
  | .fin a m e, .fin b n f =>
    if m = 0 ∧ n = 0 then toFp32 (.fin (a && b) 0 0)
    else
      let s := sumFin [(a, m, e), (b, n, f)]
      toFp32 (.fin (decide (s.1 < 0)) s.1.natAbs s.2)

/-- A router add of one lane (R109). -/
def fadd (x y : W32) : W32 := faddV (fp32 x) (fp32 y)

/-! ### Element formats (R90–R96) -/

/-- MX element formats, in the order of the TOMX codes (R194). -/
inductive Fmt where
  | e4m3
  | e5m2
  | e2m3
  | e3m2
  | e2m1
  | int8
  deriving DecidableEq, Repr

/-- The format of a TOMX code; 6 and 7, which R194 does not list, convert as MXINT8 (DESIGN CHOICE, log entry 50). -/
def fmtOf (code : Nat) : Fmt := ([.e4m3, .e5m2, .e2m3, .e3m2, .e2m1, .int8] : List Fmt).getD code .int8
/-- Element width. -/
def Fmt.width : Fmt → Nat
  | .e2m3 | .e3m2 => 6
  | .e2m1 => 4
  | _ => 8
/-- Mantissa bits. -/
def Fmt.man : Fmt → Nat
  | .e4m3 | .e2m3 => 3
  | .e5m2 | .e3m2 => 2
  | .e2m1 => 1
  | .int8 => 6
/-- Bias. -/
def Fmt.bias : Fmt → Int
  | .e4m3 => 7
  | .e5m2 => 15
  | .e3m2 => 3
  | _ => 1
/-- Code of the largest magnitude. -/
def Fmt.maxCode : Fmt → Nat
  | .e4m3 => 0x7E
  | .e5m2 => 0x7B
  | .e2m3 | .e3m2 => 0x1F
  | .e2m1 => 7
  | .int8 => 127
/-- emax of R112. -/
def Fmt.emax : Fmt → Int
  | .e4m3 => 8
  | .e5m2 => 15
  | .e2m3 => 2
  | .e3m2 => 4
  | .e2m1 => 2
  | .int8 => 0
/-- Bytes of a block of 32 (R95). -/
def Fmt.blockBytes (f : Fmt) : Nat := 4 * f.width

/-- Magnitude of a floating-point element code without its sign. -/
def Fmt.mag (f : Fmt) (code : Nat) : Nat × Int :=
  let e := code / 2 ^ f.man
  let m := code % 2 ^ f.man
  if e = 0 then (m, 1 - f.bias - f.man) else (2 ^ f.man + m, e - f.bias - f.man)

/-- The value of an element code (R90, R91). -/
def Fmt.val (f : Fmt) (code : Nat) : FVal :=
  if f = .int8 then
    let k : Int := (BitVec.ofNat 8 code).toInt
    .fin (decide (k < 0)) k.natAbs (-6)
  else
    let neg := code.testBit (f.width - 1)
    let c := code % 2 ^ (f.width - 1)
    if f = .e4m3 ∧ c = 0x7F then .nan
    else if f = .e5m2 ∧ c = 0x7C then .inf neg
    else if f = .e5m2 ∧ 0x7C < c then .nan
    else .fin neg (f.mag c).1 (f.mag c).2

/-- The elements of a plane of `w`-bit elements (R96). -/
def unpack (w : Nat) (b : List Byte) : List Nat :=
  let v := unle b
  (List.range (8 * b.length / w)).map fun i => v / 2 ^ (w * i) % 2 ^ w
/-- A plane of `w`-bit elements (R96). -/
def pack (w : Nat) (l : List Nat) : List Byte :=
  le ((w * l.length + 7) / 8) ((l.foldr (fun x a => x + 2 ^ w * a) 0))

/-! ### Multiply-accumulate (R97–R108) -/

/-- Streaming and stationary formats of an MX pairing code (R181). -/
def pairOf (fmt : Nat) : Fmt × Fmt :=
  ([(.e4m3, .e4m3), (.e5m2, .e5m2), (.e4m3, .e5m2), (.e5m2, .e4m3), (.int8, .int8), (.e2m3, .e2m3), (.e3m2, .e3m2)
    , (.e2m3, .e3m2), (.e3m2, .e2m3), (.e2m1, .e2m1)] : List (Fmt × Fmt)).getD fmt (.e4m3, .e4m3)

/-- The result of a block pair (R99, R100, R106). -/
def blockDot (fa fb : Fmt) (a b : List Nat) (xa xb : Nat) : FVal :=
  let p := List.zipWith (fun x y => (fa.val x).mul (fb.val y)) a b
  if xa = 255 ∨ xb = 255 ∨ p.any FVal.isNan then .nan
  else
    let pos := p.any (· = .inf false)
    let neg := p.any (· = .inf true)
    if pos ∧ neg then .nan else if pos then .inf false else if neg then .inf true
    else
      let s := sumFin (p.filterMap fun v => match v with
        | .fin n m e => some (n, m, e)
        | _ => none)
      .fin (decide (s.1 < 0)) s.1.natAbs (s.2 + ((xa : Int) + xb - 254))

/-- The accumulator after a block result (R101, R102, R106). -/
def accMx (acc : W32) (v : FVal) : W32 :=
  match v with
  | .fin _ 0 _ => if (fp32 acc).isNan then toFp32 .nan else acc
  | v => faddV (fp32 acc) v

/-- NAN_OUT and OVF_OUT steps of a result `r` (R108): a NaN counts where it is produced, so not again in an accumulator that was NaN before
(`nanBefore`), as the example "A NaN scale" has it; an infinity counts where the exact result is finite (`finIn`) and rounds to it. -/
def outCount (nanBefore finIn : Bool) (r : W32) : Nat × Nat :=
  match fp32 r with
  | .nan => (if nanBefore then 0 else 1, 0)
  | .inf _ => (0, if finIn then 1 else 0)
  | .fin _ _ _ => (0, 0)
/-- A finite value. -/
def FVal.isFin : FVal → Bool
  | .fin _ _ _ => true
  | _ => false

/-! ### Conversion (R112–R121) -/

/-- The random value of R120. -/
def srRand (seed : W64) (step e : Nat) : Nat :=
  let z : W64 := seed + BitVec.ofNat 64 (step * 2 ^ 32) + BitVec.ofNat 64 e + 0x9E3779B97F4A7C15#64
  let z := (z ^^^ (z >>> 30)) * 0xBF58476D1CE4E5B9#64
  let z := (z ^^^ (z >>> 27)) * 0x94D049BB133111EB#64
  ((z ^^^ (z >>> 31)) >>> 48).toNat

/-- m · 2^d rounded, with the random value for stochastic rounding (R117, R121). -/
def roundAt (m : Nat) (d : Int) (r : Option Nat) : Nat :=
  match r with
  | none => scaleRne m d
  | some r =>
    if 0 ≤ d then m * 2 ^ d.toNat
    else
      let s := (-d).toNat
      let f := m % 2 ^ s * 2 ^ 16 / 2 ^ s
      m / 2 ^ s + if 2 ^ 16 ≤ f + r then 1 else 0

/-- Magnitude code of m · 2^e in a format, before saturation (R117). -/
def Fmt.quant (f : Fmt) (m : Nat) (e : Int) (r : Option Nat) : Nat :=
  if m = 0 then 0
  else if f = .int8 then roundAt m (e + 6) r
  else
    let ul : Int := max (Nat.log2 m + e) (1 - f.bias) - f.man
    (ul + f.man - (1 - f.bias)).toNat * 2 ^ f.man + roundAt m (e - ul) r

/-- An element code from a sign and a magnitude code, saturated (R118). -/
def Fmt.encode (f : Fmt) (neg : Bool) (k : Nat) : Nat :=
  let c := min k f.maxCode
  if f = .int8 then (if neg then (256 - c) % 256 else c) else c + if neg then 2 ^ (f.width - 1) else 0

/-- The scale code of a block with largest finite magnitude A · 2^lo, A > 0 (R112). -/
def Fmt.scaleCode (f : Fmt) (noSat : Bool) (A : Nat) (lo : Int) : Nat :=
  let x : Int := Nat.log2 A + lo - f.emax
  let mx : Nat × Int := if f = .int8 then (127, -6) else f.mag f.maxCode
  let d : Int := lo - (mx.2 + x)
  let above := if 0 ≤ d then decide (mx.1 < A * 2 ^ d.toNat) else decide (mx.1 * 2 ^ (-d).toNat < A)
  let y := if noSat && above then x + 1 else x
  (min (max y (-127)) 127 + 127).toNat

/-- Largest finite magnitude of values, as A · 2^lo. -/
def amax (l : List FVal) : Nat × Int :=
  let fs := l.filterMap fun v => match v with
    | .fin _ m e => some (m, e)
    | _ => none
  let lo := fs.foldl (fun a x => min a x.2) ((fs.headD (0, 0)).2)
  (fs.foldl (fun a x => max a (x.1 * 2 ^ (x.2 - lo).toNat)) 0, lo)

/-- The scale code R112 gives a block, or 0xFF for one that cannot be scaled (R112–R116). -/
def Fmt.blockScale (f : Fmt) (noSat : Bool) (l : List FVal) : Nat :=
  if l.any FVal.isNan ∨ (f ≠ .e5m2 ∧ l.any fun v => !v.isFin) then 255
  else
    let a := amax l
    if a.1 = 0 then 0 else f.scaleCode noSat a.1 a.2

/-- Convert a block: scale code, element codes and the number that saturated (R112–R118). -/
def Fmt.convert (f : Fmt) (noSat : Bool) (r : Nat → Option Nat) (l : List FVal) : Nat × List Nat × Nat :=
  let sc := f.blockScale noSat l
  if sc = 255 then (255, l.map fun _ => 0, 0)
  else
    let q := l.mapIdx fun i v => match v with
      | .fin neg m e => (neg, f.quant m (e - ((sc : Int) - 127)) (r i))
      | .inf neg => (neg, 0x7C)
      | .nan => (false, 0)
    let enc (v : FVal) (x : Bool × Nat) : Nat := match v with
      | .inf neg => 0x7C + if neg then 0x80 else 0
      | _ => f.encode x.1 x.2
    (sc, List.zipWith enc l q, ((List.zipWith (fun (v : FVal) (x : Bool × Nat) => v.isFin && decide (f.maxCode < x.2)) l q).filter id).length)

/-- FP32 to BF16 (R119). -/
def toBf16 (v : FVal) : Nat := ieeeCode 8 v

/-! ### F-tile functions (R122–R131) -/

/-- Fraction bits of the fixed-point numbers the built-in tables are made with. The distance of every coefficient of R125 from a tie is far
above their error, so each rounds as its exact real value does. -/
abbrev fxBits : Nat := 256
/-- 1 in fixed point. -/
def fxOne : Int := (2 ^ fxBits : Nat)
/-- n ÷ d in fixed point. -/
def fxDiv (n d : Int) : Int := n * fxOne / d
/-- A product in fixed point. -/
def fxMul (a b : Int) : Int := a * b / fxOne

/-- Integer square root, bit by bit from bit `k`. -/
def isqrtAux : Nat → Nat → Nat → Nat
  | 0, r, n => if (r + 1) * (r + 1) ≤ n then r + 1 else r
  | k + 1, r, n => isqrtAux k (if (r + 2 ^ (k + 1)) * (r + 2 ^ (k + 1)) ≤ n then r + 2 ^ (k + 1) else r) n
/-- The square root of a fixed-point number. -/
def fxSqrt (v : Int) : Int := (isqrtAux 300 0 (v * fxOne).toNat : Nat)

/-- 2^(2^b ÷ 2048) for b = 11 down to 0, each the root of the one before. -/
def roots : Nat → Int → List Int
  | 0, f => [f]
  | n + 1, f => f :: roots n (fxSqrt f)
/-- 2^(N ÷ 2048), N up to 2,048. -/
def fxExp2 (n : Nat) : Int :=
  ((roots 11 (2 * fxOne)).zip [11, 10, 9, 8, 7, 6, 5, 4, 3, 2, 1, 0]).foldl (fun a x => if n.testBit x.2 then fxMul a x.1 else a) fxOne

/-- Terms of the series of atanh. -/
def atanhAux : Nat → Nat → Int → Int → Int
  | 0, _, _, _ => 0
  | n + 1, k, p, zz => p / (2 * k + 1 : Nat) + atanhAux n (k + 1) (fxMul p zz) zz
/-- atanh z for |z| ≤ 1/3. -/
def fxAtanh (z : Int) : Int := atanhAux 120 0 z (fxMul z z)
/-- log2(1 + u) ÷ u with u = N ÷ 2048 (R126). -/
def fxLog (n : Int) : Int :=
  let t := fxAtanh (fxDiv 1 3)
  if n = 0 then fxOne * fxOne / (2 * t) else fxDiv (fxAtanh (fxDiv n (4096 + n))) t * 2048 / n

/-- Terms of the series of exp. -/
def expAux : Nat → Nat → Int → Int → Int
  | 0, _, _, _ => 0
  | n + 1, k, t, x => t + expAux n (k + 1) (fxMul t x / (k : Nat)) x
/-- exp(N ÷ 1024) for N up to 2^15. -/
def fxExp (n : Nat) : Int :=
  let r := expAux 80 1 fxOne (fxDiv n 32768)
  let r2 := fxMul r r
  let r4 := fxMul r2 r2
  let r8 := fxMul r4 r4
  let r16 := fxMul r8 r8
  fxMul r16 r16
/-- tanh(N ÷ 2048). -/
def fxTanh (n : Nat) : Int := let e := fxExp n; fxDiv (e - fxOne) (e + fxOne)

/-- A built-in table (R125, R126): g at N ÷ 2048, the start and interval width in that unit, and E0, E1, E2, each the smallest for which every
coefficient fits its field of R131. -/
structure Table where
  /-- g of the table variable. -/
  g : Int → Int
  /-- Start of the table. -/
  start : Int
  /-- Interval width. -/
  w : Int
  /-- E0. -/
  e0 : Int
  /-- E1. -/
  e1 : Int
  /-- E2. -/
  e2 : Int

/-- reciprocal: 1/m. -/
def tblRecip : Table := ⟨fun n => fxDiv 2048 n, 2048, 8, -28, -28, -28⟩
/-- 1/√m at N ÷ 2048. -/
def fxRsqrt (n : Int) : Int := fxOne * fxOne / fxSqrt (fxDiv n 2048)
/-- rsqrt on [1, 2). -/
def tblRsqrt1 : Table := ⟨fxRsqrt, 2048, 8, -28, -29, -29⟩
/-- rsqrt on [2, 4). -/
def tblRsqrt2 : Table := ⟨fxRsqrt, 4096, 16, -29, -29, -29⟩
/-- exp2: 2^t. -/
def tblExp2 : Table := ⟨fun n => fxExp2 n.toNat, 0, 8, -28, -27, -29⟩
/-- log2 on [−0.25, 0). -/
def tblLogN : Table := ⟨fxLog, -512, 2, -28, -29, -32⟩
/-- log2 on [0, 0.5). -/
def tblLogP : Table := ⟨fxLog, 0, 4, -28, -29, -31⟩
/-- tanh(x)/x on [0, 1). -/
def tblTanhQ : Table := ⟨fun n => if n = 0 then fxOne else fxTanh n.toNat * 2048 / n, 0, 8, -28, -29, -29⟩
/-- tanh on [1, 9). -/
def tblTanh : Table := ⟨fun n => fxTanh n.toNat, 2048, 64, -29, -26, -23⟩

/-- A fixed-point number rounded to the nearest multiple of 2^E, ties to even, in units of 2^E; E < 0. -/
def fxCoef (z : Int) (e : Int) : Int :=
  let s := (fxBits + e).toNat
  if 0 ≤ z then (rneNat z.toNat s : Nat) else -((rneNat (-z).toNat s : Nat) : Int)

/-- c0, c1 and c2 of interval `i` (R125). -/
def Table.coefs (t : Table) (i : Nat) : Int × Int × Int :=
  let a := t.start + i * t.w
  let g0 := t.g a
  let g1 := t.g (a + t.w / 2)
  let g2 := t.g (a + t.w)
  (fxCoef g0 t.e0, fxCoef (-3 * g0 + 4 * g1 - g2) t.e1, fxCoef (2 * g0 - 4 * g1 + 2 * g2) t.e2)

/-- A dyadic number S · 2^e. -/
abbrev Dy := Int × Int
/-- Sum of dyadic numbers. -/
def Dy.add (a b : Dy) : Dy :=
  let lo := min a.2 b.2
  (a.1 * 2 ^ (a.2 - lo).toNat + b.1 * 2 ^ (b.2 - lo).toNat, lo)
/-- Product of dyadic numbers. -/
def Dy.mul (a b : Dy) : Dy := (a.1 * b.1, a.2 + b.2)
/-- A dyadic number rounded to FP32. -/
def Dy.round (a : Dy) : W32 := toFp32 (.fin (decide (a.1 < 0)) a.1.natAbs a.2)
/-- floor(a · 2^s). -/
def Dy.floorAt (a : Dy) (s : Int) : Int :=
  if 0 ≤ a.2 + s then a.1 * 2 ^ (a.2 + s).toNat else a.1 / 2 ^ (-(a.2 + s)).toNat

/-- The evaluator (R124): P exactly. -/
def evalP (c0 c1 c2 e0 e1 e2 : Int) (d : Nat) : Dy := Dy.add (c0, e0) (Dy.add (c1 * d, e1 - 15) (c2 * d * d, e2 - 30))

/-- P of a built-in table at a variable whose offset from the table's start, in interval widths, is `u` (R124, R126). -/
def Table.at (t : Table) (u : Dy) : Dy :=
  let k := u.floorAt 15
  let i := (k / 32768).toNat
  let c := t.coefs i
  evalP c.1 c.2.1 c.2.2 t.e0 t.e1 t.e2 (k % 32768).toNat

/-- 1.0 · 2^0. -/
abbrev fpOne : W32 := 0x3F800000#32
/-- m and n of a positive finite value, x = m · 2^n with m in [1, 2): m as a dyadic number. -/
def normOf (m : Nat) (e : Int) : Dy × Int := let l : Int := Nat.log2 m; (((m : Int), -l), l + e)

/-- reciprocal (R126, R127). -/
def fRecip : FVal → W32
  | .nan => toFp32 .nan
  | .inf neg => toFp32 (.fin neg 0 0)
  | .fin neg m e =>
    if m = 0 then toFp32 (.inf neg)
    else
      let x := normOf m e
      let p := tblRecip.at ((x.1.add (-1, 0)).mul (1, 8))
      Dy.round (p.mul (if neg then -1 else 1, -x.2))

/-- rsqrt (R126, R127). -/
def fRsqrt : FVal → W32
  | .nan => toFp32 .nan
  | .inf neg => if neg then toFp32 .nan else 0
  | .fin neg m e =>
    if m = 0 then toFp32 (.inf neg)
    else if neg then toFp32 .nan
    else
      let x := normOf m e
      if x.2 % 2 = 0 then Dy.round ((tblRsqrt1.at ((x.1.add (-1, 0)).mul (1, 8))).mul (1, -(x.2 / 2)))
      else Dy.round ((tblRsqrt2.at (((x.1.mul (2, 0)).add (-2, 0)).mul (1, 7))).mul (1, -((x.2 - 1) / 2)))

/-- exp2 (R126, R127). -/
def fExp2 : FVal → W32
  | .nan => toFp32 .nan
  | .inf neg => if neg then 0 else toFp32 (.inf false)
  | .fin neg m e =>
    if m = 0 then fpOne
    else
      let x : Dy := (if neg then -(m : Int) else m, e)
      let k := x.floorAt 0
      if 128 ≤ k then toFp32 (.inf false)
      else if (x.add (150, 0)).1 < 0 then 0
      else
        let t := x.floorAt 23 - k * 2 ^ 23
        Dy.round ((tblExp2.at (t, -15)).mul (1, k))

/-- log2 (R126, R127). -/
def fLog2 : FVal → W32
  | .nan => toFp32 .nan
  | .inf neg => if neg then toFp32 .nan else toFp32 (.inf false)
  | .fin neg m e =>
    if m = 0 then toFp32 (.inf true)
    else if neg then toFp32 .nan
    else
      let x := normOf m e
      let big := decide (0 ≤ (x.1.add (-3, -1)).1)
      let y : Dy := if big then x.1.mul (1, -1) else x.1
      let n := if big then x.2 + 1 else x.2
      let u := y.add (-1, 0)
      let p := if u.1 < 0 then tblLogN.at ((u.add (1, -2)).mul (1, 10)) else tblLogP.at (u.mul (1, 9))
      Dy.round (Dy.add (n, 0) (Dy.mul u p))

/-- tanh (R126, R127). -/
def fTanh : FVal → W32
  | .nan => toFp32 .nan
  | .inf neg => if neg then 0xBF800000#32 else fpOne
  | .fin neg m e =>
    let x : Dy := (m, e)
    let sg : Int := if neg then -1 else 1
    if m = 0 then toFp32 (.fin neg 0 0)
    else if (x.add (-1, 0)).1 < 0 then Dy.round ((x.mul (sg, 0)).mul (tblTanhQ.at (x.mul (1, 8))))
    else if (x.add (-9, 0)).1 < 0 then Dy.round ((tblTanh.at ((x.add (-1, 0)).mul (1, 5))).mul (sg, 0))
    else if neg then 0xBF800000#32 else fpOne

/-- A signed field. -/
def signed (w v : Nat) : Int := if v < 2 ^ (w - 1) then v else (v : Int) - 2 ^ w

/-- A programmable table of a tile's configuration (R128, R129). -/
def fTable (m : Mem) (tbl : Nat) (x : FVal) : W32 :=
  let b := 0x6400 + 2056 * tbl
  let h := m.nat b 8
  let stepE := signed 8 (bitsOf h 31 24)
  let at' (k : Int) : W32 :=
    let i := (k / 32768).toNat
    let v := m.nat (b + 8 + 8 * i) 8
    Dy.round (evalP (signed 30 (bitsOf v 63 34)) (signed 21 (bitsOf v 33 13)) (signed 13 (bitsOf v 12 0))
      (signed 8 (bitsOf h 23 16)) (signed 8 (bitsOf h 15 8)) (signed 8 (bitsOf h 7 0)) (k % 32768).toNat)
  let top : Int := 256 * 32768 - 1
  match x, ieeeVal 24 (bitsOf h 63 32) with
  | .nan, _ => toFp32 .nan
  | .inf neg, _ => if neg then at' 0 else at' top
  | .fin n k e, .fin n2 k2 e2 =>
    let u := (Dy.add (if n then -(k : Int) else k, e) (if n2 then (k2 : Int) else -(k2 : Int), e2)).floorAt (15 - stepE)
    at' (min (max u 0) top)
  | .fin _ _ _, _ => toFp32 .nan

/-- FUNC on one lane (R194). Codes 0x0–0x8 are those of its table; a code above 0x9, which the table does not list, reads the bytes at the place
that its programmable table would have (DESIGN CHOICE, log entry 50). -/
def tileFunc (m : Mem) (code : Nat) (x : W32) : W32 :=
  let v := fp32 x
  if code = 0 then fRecip v else if code = 1 then fRsqrt v else if code = 2 then fExp2 v else if code = 3 then fLog2 v
  else if code = 4 then fTanh v else fTable m (code - 5) v

/-- The exact result of a FUNC code is finite: its input is, and is no zero of reciprocal, rsqrt or log2 (R108, R127). -/
def funcFin (code : Nat) (x : W32) : Bool :=
  match fp32 x with
  | .fin _ m _ => !(decide (m = 0) && (decide (code = 0) || decide (code = 1) || decide (code = 3)))
  | _ => false

/-- Latency of a FUNC code in context cycles (R122). -/
def funcLatency (code : Nat) : Nat := [4, 5, 6, 6, 8, 5, 5, 5, 5, 4].getD code 4

/-! ### Row reductions (R130) -/

/-- Row sum in ascending order. -/
def rowSum : List W32 → W32
  | [] => 0
  | x :: r => r.foldl fadd x

/-- The order of row max: −0 below +0. -/
def orderKey (x : W32) : Int := if x.msb then -((x.toNat % 2 ^ 31 : Nat) : Int) - 1 else x.toNat
/-- Row max. -/
def rowMax (l : List W32) : W32 :=
  if l.any fun x => (fp32 x).isNan then toFp32 .nan
  else l.foldl (fun a x => if orderKey a < orderKey x then x else a) (l.headD 0)

end Sys2Proof.Machine
end

