-- ==== Sys2Proof/Machine/Links.lean ====
section
/-!
DEFINITION. Link words (R138–R142), the geometry of hops (R149, R163, R172), the configuration context at work on a tile (R186, R510), and the
records of step faults and schedule violations (R200–R203, R500, R501, R526).
-/
namespace Sys2Proof.Machine

/-! ### Link words -/

/-- The bit that makes `v` and itself hold an odd number of ones (R139). -/
def oddBit (n v : Nat) : Bool := (List.range n).foldl (fun b i => b ^^ v.testBit i) true

/-- Data parity, bit j over DATA[32j+31:32j] (R139). -/
def dataPar (d : BitVec 512) : BitVec 16 :=
  BitVec.ofNat 16 (unbits ((List.range 16).filter fun j => oddBit 32 (d.extractLsb' (32 * j) 32).toNat))

/-- A word from its control bits [559:529] and data, with parity (R138, R139). -/
def mkWord (ctl : BitVec 31) (d : BitVec 512) : Link :=
  ctl ++ BitVec.ofBool (oddBit 31 ctl.toNat) ++ dataPar d ++ d

/-- The idle word (R140). -/
def idleWord : Link := mkWord 0 0

/-- A DATA word (R138). -/
def dataWord (gen : BitVec 4) (q : BitVec 3) (last : Bool) (d : BitVec 512) : Link :=
  mkWord (1#1 ++ 0#3 ++ gen ++ q ++ BitVec.ofBool last ++ 0#19) d

/-- Every PAR bit inverted (R226, R270). -/
def poisonWord (w : Link) : Link := w ^^^ ((0xFFFF#560) <<< 512)

/-- VALID. -/
def Link.valid (w : Link) : Bool := w.getLsbD 559
/-- KIND. -/
def Link.kind (w : Link) : Nat := (w.extractLsb' 556 3).toNat
/-- GEN. -/
def Link.gen (w : Link) : BitVec 4 := w.extractLsb' 552 4
/-- QSEL. -/
def Link.qsel (w : Link) : Nat := (w.extractLsb' 549 3).toNat
/-- LAST. -/
def Link.last (w : Link) : Bool := w.getLsbD 548
/-- DEST_ROW. -/
def Link.destRow (w : Link) : Nat := (w.extractLsb' 544 4).toNat
/-- DEST_COL. -/
def Link.destCol (w : Link) : Nat := (w.extractLsb' 538 6).toNat
/-- Bits [559:529], compared at a router add (R155). -/
def Link.ctl (w : Link) : BitVec 31 := w.extractLsb' 529 31
/-- DATA. -/
def Link.data (w : Link) : BitVec 512 := w.extractLsb' 0 512
/-- PAR bits that fail (R139). -/
def Link.badLanes (w : Link) : Nat := (w.extractLsb' 512 16 ^^^ dataPar w.data).toNat
/-- CPAR and every PAR bit are correct. -/
def Link.parOk (w : Link) : Bool := decide (w.badLanes = 0) && (w.getLsbD 528 == oddBit 31 w.ctl.toNat)

/-- The 16 FP32 lanes of a word (R141). -/
def lanesOf (d : BitVec 512) : List W32 := (List.range 16).map fun i => d.extractLsb' (32 * i) 32
/-- A word of 16 lanes. -/
def ofLanes (l : List W32) : BitVec 512 := BitVec.ofNat 512 (l.foldr (fun x a => x.toNat + 2 ^ 32 * a) 0)
/-- The 64 bytes of a word (R141). -/
def dataBytes (d : BitVec 512) : List Byte := le 64 d.toNat
/-- A word of bytes. -/
def ofBytes (b : List Byte) : BitVec 512 := BitVec.ofNat 512 (unle b)

/-- A router add of two words (R153, R155): none where a check fails. -/
def routerAdd (a b : Link) : Option Link :=
  if a.parOk ∧ b.parOk ∧ a.valid ∧ b.valid ∧ a.kind = 0 ∧ b.kind = 0 ∧ a.ctl = b.ctl then
    some (mkWord a.ctl (ofLanes (List.zipWith fadd (lanesOf a.data) (lanesOf b.data))))
  else none

/-! ### Geometry -/

/-- The local tile next to one in a direction: 1 N, 2 S, 3 E, 4 W. -/
def neighbour (r k dir : Nat) : Option (Nat × Nat) :=
  if dir = 1 then (if r = 0 then none else some (r - 1, k))
  else if dir = 2 then some (r + 1, k)
  else if dir = 3 then some (r, k + 1)
  else if k = 0 then none else some (r, k - 1)

/-- The opposite direction. -/
def opposite (dir : Nat) : Nat := [0, 2, 1, 4, 3, 5].getD dir 5

/-- Latency of a hop between local tiles: 4 across a sheet edge (R32, R149). -/
def hopLatency (r k r2 k2 : Nat) : Nat := if r / 16 ≠ r2 / 16 ∨ k / 16 ≠ k2 / 16 then 4 else 1

/-- Port code of R172 of the input of physical tile `i` from physical tile `j` in direction `dir`: a span-2 input is E2 or W2; die-edge words
use the span-1 codes. -/
def portCode (i j dir : Nat) : Nat :=
  let far := decide (i / 288 = j / 288) && decide (i % 288 / 16 + 2 = j % 288 / 16 ∨ j % 288 / 16 + 2 = i % 288 / 16)
  if dir = 1 then 0 else if dir = 2 then 1 else if dir = 3 then (if far then 3 else 2) else if dir = 4 then (if far then 5 else 4) else 6

/-- Port codes of a direction. -/
def portsOf (dir : Nat) : List Nat := [[], [0], [1], [2, 3], [4, 5], [6]].getD dir []

/-- Add a word to the flights. -/
def State.fly (s : State) (tile port left : Nat) (w : Link) : State := { s with flights := s.flights ++ [⟨tile, port, left, w⟩] }

/-! ### Columns change places (R76, R447) -/

/-- What stays with a physical tile when its column changes its role (R447). -/
def Tile.physical (t u : Tile) : Tile :=
  { u with scrub := t.scrub, ceRows := t.ceRows, marked := t.marked, spares := t.spares, tlm := t.tlm, snap := t.snap, sending := t.sending, ctr := t.ctr
           portQ := t.portQ }

/-- The state a tile takes from the tile that held its logical place: all of it with a couch, else what firmware writes anew (R76, R447). -/
def Tile.moved (whole : Bool) (t u : Tile) : Tile :=
  t.physical (if whole then u else { u with store := [], badWords := [], queues := List.replicate 8 [], latches := t.latches, rx := t.rx, wm1 := 0, wm2 := 0 })

/-! ### The context at work on a tile -/

/-- What a tile runs in a cycle: configuration memory, base of the context's registers, which context (8 for the prologue context), and the
time that indexes the route table. -/
structure View where
  /-- Configuration bytes. -/
  mem : Mem
  /-- Base of the context. -/
  base : Nat
  /-- Configuration context, 8 for the prologue's. -/
  k : Nat
  /-- SCHED, or the prologue's cycle. -/
  time : Nat
  /-- The fold slot begins in this cycle. -/
  first : Bool

/-- First cycle of a prologue: the first frame boundary at or after `since` (R184, R510). -/
def State.proStart (s : State) (since : Nat) : Nat :=
  let c := (s.cyc + 2 ^ 48 - (s.clk.life - since) % 2 ^ 48) % 2 ^ 48
  since + (32 - c % 32) % 32

/-- The prologue's cycle count of a context, once it has begun. -/
def State.proCycle (s : State) (c : Nat) : Option Nat :=
  match (s.ctx c).hold with
  | .prologue since => if s.proStart since ≤ s.clk.life then some (s.clk.life - s.proStart since) else none
  | _ => none

/-- The context state of a view. -/
def Tile.stateAt (t : Tile) (k : Nat) : CState := if k = 8 then t.pro else t.cst.getD k {}
/-- Change the context state of a view. -/
def Tile.setState (t : Tile) (k : Nat) (st : CState) : Tile :=
  if k = 8 then { t with pro := st } else { t with cst := t.cst.set k st }

/-- What tile `i` of context `c` runs at SCHED `sched`, or in its prologue. -/
def State.view (s : State) (c i sched : Nat) : View :=
  let t := s.tile i
  match s.proCycle c with
  | some n => ⟨t.proCfg, 0, 8, n, false⟩
  | none =>
    let a := activeAt t.cfg sched
    ⟨t.cfg, ctxBase a.1, a.1, sched, a.2⟩

/-- The tiles that run in a context now, as (local row, local column, physical tile): those of its prologue, or every configured tile. Any other
drives the idle word (R179). -/
def State.runTiles (s : State) (c : Nat) : List (Nat × Nat × Nat) :=
  match (s.ctx c).prog with
  | none => []
  | some g =>
    if (s.proCycle c).isSome then g.prologue.filterMap fun t => (s.physTile c t.row t.col).map fun i => (t.row, t.col, i)
    else s.cfgTiles c

/-- The issue entry a context state stands at, unless its sequence has ended, its entry is over or a LOOP is still to be taken (R191). -/
def View.entry (v : View) (st : CState) : Option Issue :=
  if (ctxCtl v.mem v.base).issueLast < st.pos then none
  else
    let e := issueEnt v.mem v.base st.pos
    if e.op = 3 ∨ e.len ≤ st.rep then none else some e

/-- The 64 bits of the issue entry at a position. -/
def View.entryWord (v : View) (pos : Nat) : Nat := v.mem.nat (v.base + 0x40 + 8 * pos) 8

/-- The owner of a queue with its bound, in a view (R199). -/
def View.owner (v : View) (q : Nat) : Option (Nat × Nat) :=
  if v.k = 8 then (let b := qBound v.mem 0 q; if b = 0 then none else some (8, b)) else queueOwner v.mem q

/-- The context at work owns a queue (R199). -/
def View.owns (v : View) (q : Nat) : Bool := (v.owner q).any fun o => decide (o.1 = v.k)

/-! ### Step faults -/

/-- Where a record about tile `i` of context `c` points. -/
def State.tileAt (s : State) (c : Option Nat) (i : Nat) (secondary : Bool := false) : ErrAt :=
  let sh := i / 288
  let pc := i % 288 / 16
  { handle := s.handleOf (.ptile sh pc (i % 16)), loc := locTile i
    lhandle := match (s.sheet sh).map.findIdx? (· = some pc) with
      | some lc => s.handleOf (.ltile sh lc (i % 16))
      | none => 0
    ctx := c, pt := some (ptOfSheet sh), secondary := secondary }

/-- A Word body (R501). -/
def wordBody (checkpoint port queue : Nat) (w : Link) : List Byte :=
  le 1 checkpoint ++ le 1 port ++ le 1 queue ++ le 1 0 ++ le 2 w.badLanes ++ le 2 0 ++ le 70 w.toNat

/-- A word poisoned by a memory error of the same step (R270, R503). -/
def Context.poisoned (x : Context) (w : Link) : Bool :=
  decide (w.badLanes = 0xFFFF) && x.faults.any fun f => decide (f = 0x0105 ∨ f = 0x0106 ∨ f = 0x0107)

/-- Routers on the compiled path of a word that is in router (r, k) at SCHED `t` from direction `dir` (R526), traced back to the compute block or
adder that made it. -/
def State.pathBack (s : State) (c : Nat) : Nat → Nat → Nat → Nat → Nat → List Nat
  | 0, _, _, _, _ => []
  | f + 1, r, k, dir, t =>
    match neighbour r k dir with
    | none => []
    | some p =>
      let l := hopLatency r k p.1 p.2
      match s.physTile c p.1 p.2 with
      | none => []
      | some i =>
        if t < l then [i]
        else
          let v := s.view c i (t - l)
          let n := 32 * 2 ^ (ctxCtl v.mem v.base).period
          match routeOps (routeOut (routeEnt v.mem v.base (v.time % n)) (opposite dir)) with
          | [o] => if o = 5 then [i] else i :: s.pathBack c f p.1 p.2 o (t - l)
          | _ => [i]

/-- A parity failure attributed to the routers of a path: a router on the paths of two records of distinct steps within 72 h that share no
other router suffers a router fault (R526). -/
def State.attribute (s : State) (c : Nat) (path : List Nat) : State :=
  let step : Nat × Nat × Nat := ((s.ctx c).step + 1, c, (s.ctx c).commit.cycle)
  let live := s.logs.paths.filter fun p => decide (s.clk.life ≤ p.2.1 + 72 * 3600 * cycPerSec)
  let hit := live.findSome? fun p =>
    match path.filter p.2.2.contains with
    | [i] => if p.1 ≠ step then some (p.1.1, i) else none
    | _ => none
  let s1 : State := { s with logs := { s.logs with paths := live ++ [(step, s.clk.life, path)] } }
  match hit with
  | none => s1
  | some (old, i) =>
    let at' : ErrAt := { s1.tileAt (some c) i with lhandle := 0 }
    (s1.logErr 0x0304 at' (le 4 (locTile i) ++ le 8 old ++ le 8 step.1 ++ le 2 2)).condemn (i / 288) (i % 288 / 16) 5

/-- A failed check 1, 2 or 3 at a checking point of a program word (R157, R172, R526): class 0x0101 PARITY, 0x0102 MISSING, 0x0103 KIND. -/
def State.wordFault (s : State) (c i cls checkpoint port : Nat) (w : Link) (path : List Nat) : State :=
  let sec := (s.ctx c).poisoned w
  let s1 := s.modTile i fun t => { t with tlm := { t.tlm with parErr := min 0xFFFF (t.tlm.parErr + 1) } }
  let s2 := s1.logErr cls (s1.tileAt (some c) i sec) (wordBody checkpoint port w.qsel w)
  if sec then s2 else s2.attribute c (i :: path)

/-- The class of the first of checks 1 to 3 that fails (R157). -/
def checkWord (w : Link) : Option Nat :=
  if !w.parOk then some 0x0101 else if !w.valid then some 0x0102 else if w.kind ≠ 0 then some 0x0103 else none

/-! ### Schedule violations -/

/-- The order of R202: partition-local row and column, then queue. -/
def Violation.key (v : Violation) : Nat := (v.row % 16 * 64 + v.col % 48) * 16 + v.queue

/-- A violation met in the present cycle joins those that the cycle's record will report (R202). -/
def State.breach (s : State) (c : Nat) (v : Violation) : State := s.modCtx c fun x => { x with viols := x.viols ++ [v] }

/-- The violations of one cycle in a context (R201–R203), `l` and those met before in the cycle: one record; with a step fault in the step it is
secondary and the step goes on to roll back, else the context enters FAULTED. The detecting partition holds from the next cycle, the others run on
to the next frame boundary. -/
def State.violate (s0 : State) (c : Nat) (l : List Violation) : State :=
  let s := s0.modCtx c fun x => { x with viols := [] }
  match (s0.ctx c).viols ++ l with
  | [] => s0
  | v :: r =>
    let w := r.foldl (fun a x => if x.key < a.key then x else a) v
    let body := le 1 w.cause ++ le 1 w.queue ++ le 1 w.cfg ++ le 1 w.bound ++ le 1 w.occ ++ le 3 0 ++ le 4 r.length ++ le 2 0 ++ le 2 0
    let sec := !(s.ctx c).faults.isEmpty
    let s1 := s.logErr 0x0201 (s.tileAt (some c) w.tile sec) body
    let on := (s.ctx c).going.filter (· ≠ ptOfSheet (w.tile / 288))
    if sec then s1
    else ((s1.modCtx c fun x => { x with violated := true }).faultCtx c rViolation invalid).modCtx c fun x =>
      { x with runOn := on, hold := if on.isEmpty then .stopped else (s.ctx c).hold }

end Sys2Proof.Machine
end

