-- ==== Sys2Proof/Machine/Issue.lean ====
section
/-!
DEFINITION. The compute block of a tile: what its active context's issue entry does in one context cycle (R97–R108, R112–R131, R188–R196,
R207–R210, R226, R251, R473).
-/
namespace Sys2Proof.Machine

/-- An entry of an input queue: `life` at entry, LAST and DATA. -/
abbrev QWord := Nat × Bool × BitVec 512

/-- A step fault of an on-die read: word address, PORT and LANES of its Storage body (R226, R501). -/
abbrev SramUe := Nat × Nat × Nat

/-- The effect of one context cycle on a tile. -/
structure IssueOut where
  /-- The tile's queues, stores and counters. -/
  tile : Tile
  /-- The context state. -/
  st : CState
  /-- Queue whose dequeue found it empty (R200). -/
  under : Option Nat := none
  /-- The write buffer was full (R251). -/
  full : Bool := false
  /-- Uncorrectable reads. -/
  ue : List SramUe := []
  /-- Words read with a corrected error. -/
  ce : List Nat := []
  /-- Word of the store that the entry wrote. -/
  wrote : Option Nat := none

/-- Add to a tile counter (R108, R210, R211, R226). -/
def Tile.count (t : Tile) (k n : Nat) : Tile := { t with ctr := t.ctr.modify k fun v => (v + n) % 2 ^ 48 }

/-- A storage row gave a corrected error: 4 within 24 h mark it for repair (R446). A row holds one word (R444). -/
def Tile.gaveCe (t : Tile) (row life : Nat) : Tile :=
  let l := (t.ceRows.filter fun e => decide (life < e.2 + 24 * 3600 * 1800000000)) ++ [(row, life)]
  { t with ceRows := l, marked := if 4 ≤ (l.filter (·.1 = row)).length ∧ !t.marked.contains row then t.marked ++ [row] else t.marked }
/-- A storage row gave an uncorrectable error: it is marked for repair (R446). -/
def Tile.gaveUe (t : Tile) (row : Nat) : Tile := if t.marked.contains row then t else { t with marked := t.marked ++ [row] }

/-- Take the word at the head of a queue. -/
def Tile.deq (t : Tile) (q : Nat) : Option (QWord × Tile) :=
  match t.queues.getD q [] with
  | [] => none
  | w :: r => some (w, { t with queues := t.queues.set q r })

/-- A context takes the first word of a queue that it owns; of another's it finds none (R199; DEDUCED, log entry 50). -/
def View.take (v : View) (t : Tile) (q : Nat) : Option (QWord × Tile) := if v.owns q then t.deq q else none
/-- The words of a queue that a context can take. -/
def View.words (v : View) (t : Tile) (q : Nat) : List QWord := if v.owns q then t.queues.getD q [] else []

/-- Count a produced NaN or an overflow of a result (R108). -/
def Tile.outcome (t : Tile) (nanBefore finIn : Bool) (r : W32) : Tile :=
  let n := outCount nanBefore finIn r
  (t.count 0 n.1).count 1 n.2

/-- `n` bytes of a stream whose head word has been used up to `pos`: a word leaves its queue when its last byte has been used (R195). -/
def takeBytes : Nat → List QWord → Nat → Nat → Option (List Byte × List QWord × Nat)
  | 0, _, _, _ => none
  | _ + 1, [], pos, n => if n = 0 then some ([], [], pos) else none
  | f + 1, w :: r, pos, n =>
    if n = 0 then some ([], w :: r, pos)
    else if n < 64 - pos then some (((dataBytes w.2.2).drop pos).take n, w :: r, pos + n)
    else match takeBytes f r 0 (n - (64 - pos)) with
      | some x => some ((dataBytes w.2.2).drop pos ++ x.1, x.2)
      | none => none

/-! ### MAC (R97–R106, R195, R196) -/

/-- Blocks, or elements, that one cycle consumes (R97). -/
def macStep (fmt : Nat) : Nat := if fmt = 9 then 2 else if fmt = 0xA then 8 else if fmt = 0xB then 2 else 1
/-- Length of a row in blocks, or in elements for BF16 and FP32 (R195). -/
def macRow (fmt rb : Nat) : Nat := if fmt < 0xA then rb else 32 * rb
/-- Element bytes that one cycle takes. -/
def macBytes (fmt : Nat) : Nat := if fmt < 9 then blockBytes fmt else if fmt = 9 then 32 else if fmt = 0xA then 16 else 8

/-- The accumulators a row starts with when they restart: +0, or the 32 values below STAT_BASE (R196). -/
def macStart (t : Tile) (a : Nat) : List W32 :=
  if a.testBit 32 then (List.range 32).map fun j => BitVec.ofNat 32 (t.store.nat (64 * (bitsOf a 11 0 - 2) + 4 * j) 4)
  else List.replicate 32 0

/-- One update of an accumulator by an MX block result (R101, R106), with the steps of NAN_OUT and OVF_OUT (R108). -/
def updMx (x : W32 × Nat × Nat) (v : FVal) : W32 × Nat × Nat :=
  let r := accMx x.1 v
  let n := outCount (fp32 x.1).isNan ((fp32 x.1).isFin && v.isFin) r
  (r, x.2.1 + n.1, x.2.2 + n.2)
/-- One update of an accumulator by a BF16 or FP32 product (R104). -/
def updIeee (p : Nat) (x : W32 × Nat × Nat) (a b : Nat) : W32 × Nat × Nat :=
  let va := ieeeVal p a
  let vb := ieeeVal p b
  let r := faddV (fp32 x.1) (va.mul vb)
  let n := outCount (fp32 x.1).isNan ((fp32 x.1).isFin && va.isFin && vb.isFin) r
  (r, x.2.1 + n.1, x.2.2 + n.2)

/-- Accumulator `j` after the work of one cycle: streaming element bytes `eb`, scale bytes `sb`, row position `pos` (R97, R103, R104, R195). -/
def macColumn (t : Tile) (fmt a pos : Nat) (eb sb : List Byte) (acc : W32) (j : Nat) : W32 × Nat × Nat :=
  let base := 64 * bitsOf a 11 0
  let rb := bitsOf a 31 20
  let bb := blockBytes fmt
  if fmt < 0xA then
    let f := pairOf fmt
    (List.range (macStep fmt)).foldl (fun x i =>
      let b := pos + i
      let sa := unpack f.1.width ((eb.drop (bb * i)).take bb)
      let st := unpack f.2.width (t.store.read (base + (32 * b + j) * bb) bb)
      updMx x (blockDot f.1 f.2 sa st (sb.getD i 0).toNat (t.store.get (base + 32 * rb * bb + 32 * b + j)).toNat)) (acc, 0, 0)
  else
    let n := if fmt = 0xA then 2 else 4
    (List.range (macStep fmt)).foldl (fun x i =>
      updIeee (if fmt = 0xA then 8 else 24) x (unle ((eb.drop (n * i)).take n)) (t.store.nat (base + (32 * (pos + i) + j) * n) n)) (acc, 0, 0)

/-- Operand-store words that the cycle reads. -/
def macReads (fmt a pos : Nat) : List Nat :=
  let base := bitsOf a 11 0
  let rb := bitsOf a 31 20
  let n := if fmt < 0xA then 32 * blockBytes fmt else if fmt = 0xA then 64 else 128
  let lo := 64 * base + n * pos
  let hi := lo + n * macStep fmt - 1
  rangeFrom (lo / 64) (hi / 64 - lo / 64 + 1)
    ++ (if fmt < 0xA then [(64 * base + 32 * rb * blockBytes fmt + 32 * pos) / 64] else [])

/-- Uncorrectable reads among words: those that scrub has found bad, and those that the events of the cycle name (R226). -/
def ueOf (t : Tile) (evs : List (Nat × Nat × Ecc)) (port : Nat) (reads : List Nat) : List SramUe :=
  reads.eraseDups.filterMap fun w =>
    match evs.find? fun e => decide (e.1 = w) && decide (e.2.2 = .uncorrectable ∨ e.2.2 = .tagError) with
    | some e => some (w, port, e.2.1)
    | none => if t.badWords.contains w then some (w, port, 0) else none

/-- Corrected reads among words (R226). -/
def ceWords (evs : List (Nat × Nat × Ecc)) (reads : List Nat) : List Nat :=
  reads.eraseDups.filter fun w => evs.any fun e => decide (e.1 = w ∧ e.2.2 = .corrected)
/-- How many reads were corrected. -/
def ceOf (evs : List (Nat × Nat × Ecc)) (reads : List Nat) : Nat := (ceWords evs reads).length

/-- One cycle of a MAC entry. -/
def stepMac (v : View) (e : Issue) (evs : List (Nat × Nat × Ecc)) (t : Tile) (st : CState) : IssueOut :=
  let fmt := (ctxCtl v.mem v.base).fmt
  let rows := macRow fmt (bitsOf e.arg 31 20)
  if 0 < st.gap then ⟨t, { st with gap := st.gap - 1 }, none, false, [], [], none⟩
  else if rows = 0 then ⟨t, st, none, false, [], [], none⟩
  else
    match takeBytes 3 (v.words t e.srcA) st.ePos (macBytes fmt) with
    | none => { tile := t, st := st, under := some e.srcA }
    | some eb =>
      match (if fmt < 0xA then takeBytes 2 (v.words t e.srcB) st.sPos (macStep fmt) else some ([], [], st.sPos)) with
      | none => { tile := t, st := st, under := some e.srcB }
      | some sb =>
        let bias := if st.fresh ∧ e.arg.testBit 32 then [bitsOf e.arg 11 0 - 2, bitsOf e.arg 11 0 - 1] else []
        let reads := macReads fmt e.arg st.row ++ bias
        let acc := if st.fresh then macStart t e.arg else st.acc
        let cols := acc.mapIdx fun j x => macColumn t fmt e.arg st.row eb.1 sb.1 x j
        let pos := st.row + macStep fmt
        let spent := decide (rows ≤ pos)
        let drop (p : Nat) (q : List QWord) : List QWord := if spent ∧ 0 < p then q.drop 1 else q
        let t1 := { t with queues := t.queues.set e.srcA (drop eb.2.2 eb.2.1) }
        let t2 := if fmt < 0xA then { t1 with queues := t1.queues.set e.srcB (drop sb.2.2 sb.2.1) } else t1
        let t3 := ((t2.count 0 ((cols.map (·.2.1)).foldl (· + ·) 0)).count 1 ((cols.map (·.2.2)).foldl (· + ·) 0)).count 5 (ceOf evs reads)
        let gap := bitsOf e.arg 19 16
        let lastRow := decide (e.len ≤ st.rep + gap + (rows + macStep fmt - 1) / macStep fmt)
        let vals := cols.map (·.1)
        let st1 := { st with acc := vals, fresh := false, row := pos, ePos := eb.2.2, sPos := sb.2.2 }
        let st2 : CState := if !spent then st1 else
          { st1 with
            row := 0, ePos := 0, sPos := 0, gap := gap, fresh := e.dst
            acc := if e.dst then List.replicate 32 0 else vals
            emits := if e.dst then st.emits ++ [(st.time + 5, st.pos, false, false, ofLanes (vals.take 16))
              , (st.time + 6, st.pos, e.lastw && lastRow, false, ofLanes (vals.drop 16))] else st.emits }
        { tile := t3, st := st2, ue := ueOf t evs 3 reads, ce := ceWords evs reads }

/-! ### F-tile operations (R122, R130, R194) -/

/-- FUNC on one word: lanes and counters; conversion to BF16 fills the low half, and the spec does not say what the other bytes hold
(DESIGN CHOICE, log entry 27). -/
def funcWord (t : Tile) (code : Nat) (d : BitVec 512) : BitVec 512 × Tile :=
  let xs := lanesOf d
  if code = 9 then
    let r := xs.map fun x => toBf16 (fp32 x)
    let t1 := (List.zip xs r).foldl (fun (a : Tile) p => a.outcome false (fp32 p.1).isFin (toFp32 (ieeeVal 8 p.2))) t
    (ofBytes (r.flatMap (le 2) ++ (List.range 32).map (Config.unusedByte (Config.inputs 9 d))), t1)
  else
    let r := xs.map (tileFunc t.cfg code)
    (ofLanes r, (List.zip xs r).foldl (fun (a : Tile) p => a.outcome false (funcFin code p.1) p.2) t)

/-- Emit a word of the running entry after a latency; LAST on the entry's last word (R190). -/
def CState.emit (st : CState) (e : Issue) (lat : Nat) (last : Bool) (d : BitVec 512) : CState :=
  if e.dst then { st with emits := st.emits ++ [(st.time + lat, st.pos, last, false, d)] } else st

/-- The cycle is the entry's last. -/
def Issue.atEnd (e : Issue) (st : CState) : Bool := decide (e.len ≤ st.rep + 1)

/-- The running value of ROWMAX or ROWSUM after a word, with the tile's counts: `prev` is what the row's words so far have given, if any (R130). -/
def rowStep (isMax : Bool) (prev : Option W32) (xs : List W32) (t : Tile) : W32 × Tile :=
  let wasNan := (prev.map fun x => (fp32 x).isNan).getD false
  if isMax then
    let m := rowMax (prev.toList ++ xs)
    (m, t.outcome wasNan true m)
  else
    let add (a : W32 × Bool × Tile) (x : W32) : W32 × Bool × Tile :=
      let y := fadd a.1 x
      (y, (fp32 y).isNan, a.2.2.outcome a.2.1 ((fp32 a.1).isFin && (fp32 x).isFin) y)
    let r := match prev, xs with
      | some p, _ => xs.foldl add (p, wasNan, t)
      | none, x :: l => l.foldl add (x, false, t)
      | none, [] => (0, false, t)
    (r.1, r.2.2)

/-- One cycle of ROWMAX or ROWSUM on a dequeued word: the result leaves four cycles after the row's last word (R122, R130). The spec does not say
where in the emitted word the one FP32 result stands, nor what the other 60 bytes hold: it stands in lane 0, and the others are unused bytes
(DESIGN CHOICE, log entry 27). A row that is not complete when its entry ends goes on in the context's next such entry (DESIGN CHOICE, log
entry 27). -/
def stepRow (isMax : Bool) (e : Issue) (d : BitVec 512) (t : Tile) (st : CState) : Tile × CState :=
  let rowWords := e.arg % 4096 + 1
  let r := rowStep isMax st.lanes.head? (lanesOf d) t
  let key := Config.inputs (if st.row = 0 then (if isMax then 0x21 else 0x22) else st.rowKey) d
  if st.row + 1 < rowWords then (r.2, { st with lanes := [r.1], row := st.row + 1, rowKey := key })
  else
    let word := ofBytes (le 4 r.1.toNat ++ (List.range 60).map (Config.unusedByte key))
    (r.2, ({ st with lanes := [], row := 0, rowKey := 0 } : CState).emit e 4 (e.lastw && decide (e.len < st.rep + 1 + rowWords)) word)

/-- A scale word of TOMX: the scale bytes, unused ones 0x00 (R194). -/
def scaleWord (l : List Byte) : BitVec 512 := ofBytes (padTo 64 l)

/-- One cycle of TOMX on a dequeued word (R112–R121, R194): two words make a block, whose element word leaves 8 cycles after the block's last
word, and a scale word follows every 64 blocks and the end of the entry. Half a block, or an element word that is part filled, when the entry ends
is kept for the context's next TOMX entry: the spec is silent (DESIGN CHOICE, log entry 27). -/
def stepTomx (v : View) (e : Issue) (step : Nat) (d : BitVec 512) (t : Tile) (st : CState) : Tile × CState :=
  let c := ctxCtl v.mem v.base
  let f := fmtOf (e.arg % 8)
  let xs := st.lanes ++ lanesOf d
  let done : Tile × CState :=
    if xs.length < 32 then (t, { st with lanes := xs })
    else
      let rnd (i : Nat) : Option Nat := if c.sr then some (srRand (srSeed v.mem v.base) step (st.elem + i)) else none
      let r := f.convert c.noSat rnd (xs.map fp32)
      let bytes := st.mxElems ++ pack f.width r.2.1
      let st1 := { st with lanes := [], elem := st.elem + 32, mxScales := st.mxScales ++ [BitVec.ofNat 8 r.1] }
      let st2 := if bytes.length < 64 then { st1 with mxElems := bytes }
        else ({ st1 with mxElems := bytes.drop 64 } : CState).emit e 8 false (ofBytes (bytes.take 64))
      (t.count 2 r.2.2, st2)
  let s2 := done.2
  if 64 ≤ s2.mxScales.length ∨ (e.atEnd st ∧ !s2.mxScales.isEmpty) then
    (done.1, ({ s2 with mxScales := [] } : CState).emit e 8 (e.lastw && e.atEnd st) (scaleWord s2.mxScales))
  else done

/-! ### The step -/

/-- The branch of a context is selected by its predicate (R206–R208). -/
def selected (v : View) (st : CState) : Bool :=
  let b := (ctxCtl v.mem v.base).branch
  if b = 1 then st.pred else if b = 2 then !st.pred else true

/-- Address of an S-tile word: relative to BASE, wrapping within the window (R194). -/
def stileWord (v : View) (a : Nat) : Nat := opstBase v.mem v.base + a % opstLen v.mem v.base

/-- A store word written by the program (R473). -/
def Tile.writeWord (t : Tile) (keys : Option (W64 × W64)) (w : Nat) (d : BitVec 512) : Tile := t.writeStore keys (64 * w) (dataBytes d)

/-- What the running entry does in a context cycle (R194–R196, R208–R210, R251). -/
def stepEntry (v : View) (e : Issue) (step : Nat) (keys : Option (W64 × W64)) (evs : List (Nat × Nat × Ecc)) (t : Tile) (st : CState) : IssueOut :=
  let plain (x : Tile × CState) : IssueOut := { tile := x.1, st := x.2 }
  let lastw := e.lastw && e.atEnd st
  let withA (f : QWord → Tile → IssueOut) : IssueOut :=
    match v.take t e.srcA with
    | none => { tile := t, st := st, under := some e.srcA }
    | some x => f x.1 x.2
  if e.op = 0x01 then withA fun w t1 => plain (t1, st.emit e 1 (w.2.1 || lastw) w.2.2)
  else if e.op = 0x02 then plain (t, st.emit e 0 lastw 0)
  else if e.op = 0x04 then withA fun a t1 =>
    match v.take t1 e.srcB with
    | none => { tile := t, st := st, under := some e.srcB }
    | some x => let w := if st.pred then a else x.1; plain (x.2, st.emit e 0 (w.2.1 || lastw) w.2.2)
  else if e.op = 0x10 then stepMac v e evs t st
  else if e.op = 0x11 then withA fun w t1 => { plain (t1.writeWord none ((e.arg + st.rep) % 4096) w.2.2, st) with wrote := some ((e.arg + st.rep) % 4096) }
  else if e.op = 0x20 then withA fun w t1 =>
    let r := funcWord t1 (e.arg % 16) w.2.2
    plain (r.2, st.emit e (funcLatency (e.arg % 16)) lastw r.1)
  else if e.op = 0x21 then withA fun w t1 => plain (stepRow true e w.2.2 t1 st)
  else if e.op = 0x22 then withA fun w t1 => plain (stepRow false e w.2.2 t1 st)
  else if e.op = 0x23 then withA fun w t1 => plain (stepTomx v e step w.2.2 t1 st)
  else if e.op = 0x30 then withA fun w t1 =>
    if selected v st then { plain (t1.writeWord keys (stileWord v (e.arg + st.rep)) w.2.2, st) with wrote := some (stileWord v (e.arg + st.rep)) } else plain (t1.count 3 1, st)
  else if e.op = 0x31 then
    let w := stileWord v (e.arg + st.rep)
    let ue := ueOf t evs 0 [w]
    let d := ofBytes (t.store.read (64 * w) 64)
    { tile := t.count 5 (ceOf evs [w])
      st := if e.dst then { st with emits := st.emits ++ [(st.time + 3, st.pos, lastw, !ue.isEmpty, d)] } else st
      ue := ue, ce := ceWords evs [w] }
  else if e.op = 0x40 then withA fun w t1 =>
    if 16 ≤ st.wrBuf.length then { tile := t1, st := st, full := true }
    else if selected v st then plain (t1, { st with wrBuf := st.wrBuf ++ [some w.2.2] })
    else plain (t1.count 3 1, { st with wrBuf := st.wrBuf ++ [none] })
  else plain (t, st)

/-- Take the first word that is due out of the emissions: at most one leaves in a cycle (R150). -/
def dueEmit (time : Nat) : List (Nat × Nat × Bool × Bool × BitVec 512) →
    Option (Nat × Bool × Bool × BitVec 512) × List (Nat × Nat × Bool × Bool × BitVec 512)
  | [] => (none, [])
  | x :: r => if x.1 ≤ time then (some x.2, r) else (fun y => (y.1, x :: y.2)) (dueEmit time r)

/-- LOOP entries take no cycle (R194): from position `pos`, follow them to an entry that runs. -/
def followLoops (v : View) : Nat → Nat → List (Nat × Nat) → Nat × List (Nat × Nat)
  | 0, pos, l => (pos, l)
  | f + 1, pos, l =>
    if (ctxCtl v.mem v.base).issueLast < pos then (pos, l)
    else
      let e := issueEnt v.mem v.base pos
      if e.op ≠ 3 then (pos, l)
      else
        let count := bitsOf e.arg 31 8
        let left := match l with
          | (p, n) :: _ => if p = pos then n else count
          | [] => count
        let rest := match l with
          | (p, n) :: r => if p = pos then r else (p, n) :: r
          | [] => []
        if count = 0xFFFFFF then followLoops v f (e.arg % 256) ((pos, left) :: rest)
        else if left = 0 then followLoops v f (pos + 1) rest
        else followLoops v f (e.arg % 256) ((pos, left - 1) :: rest)

end Sys2Proof.Machine
end

