-- ==== Sys2Proof/Machine/Reads.lean ====
section
/-!
DEFINITION. Words between P-tiles and channels: reads that arrive and are emitted, writes that reach their controller (R149, R241–R242, R249–R251,
R270–R271, R483).
-/
namespace Sys2Proof.Machine

/-- The P-tile that serves list `l` of a program (R241, R242): physical tile, and whether it is mesh attached. -/
def State.portTile (s : State) (g : Prog) (al : Alloc) (l : Nat) : Option Nat × Bool :=
  let k := l % max 1 al.nch
  let att := g.attach.getD k 0
  let mesh := att.getLsbD 7
  let col := if mesh then att.toNat % 64 else 2 * k
  let sh := (sheetsOfPt (al.pts.getD (l / max 1 al.nch) 0)).getD (col / 16) 0
  (((s.sheet sh).map.getD (col % 16) none).map fun pc => tileIx sh pc 0, mesh)

/-- The context address of copy A's word `w` of channel list `l`, as an element index of the watermark (R239, R483). -/
def elemOfWord (al : Alloc) (l w : Nat) : Nat :=
  let gr := granuleBytes al.granule
  let off := 64 * w
  ((off / gr * (al.nch * al.pts.length) + l) * gr + off % gr) / 8

/-- A word written by a region's WRITE16 entry enters the watermark of an armed comparison (R483). -/
def State.accumulate (s : State) (c r el : Nat) (d : BitVec 512) : State :=
  if !((s.ctx c).armed.any fun m => decide (m.region = r)) then s
  else
    let j := s.replicaJob c
    let k := jobKeys j.1 j.2.1
    let els := wmElems el (dataBytes d)
    s.modCtx c fun x => { x with armed := x.armed.map fun m =>
      if m.region = r then { m with h1 := m.h1 ^^^ wmHalf k.1 els, h2 := m.h2 ^^^ wmHalf k.2 els } else m }

/-- A word on the crossing reaches its controller: it is written, and enters the watermark of its region (R251, R483). -/
def State.landWrite (s : State) (w : WriteRec) : State :=
  let s1 : State := match w.data with
    | none => s
    | some d =>
      let a := (({ s with dram := s.dram.write (mpa w.ch w.off) (dataBytes d) } : State).defined w.ctx w.addr 64).modChan w.ch fun x => x.rewrite w.off 64
      match w.mark with
      | some m => a.accumulate w.ctx m.1 m.2 d
      | none => a
  if w.last then s1.modChan w.ch fun x => x.recheck (w.off / 960) else s1

/-- The words that reach their controllers by now. -/
def State.landWrites (s : State) : State :=
  if s.crossing.isEmpty then s
  else (s.crossing.filter fun w => decide (w.due ≤ s.clk.life)).foldl State.landWrite { s with crossing := s.crossing.filter fun w => decide (s.clk.life < w.due) }

/-- An uncorrectable word of a program read: a step fault, and MEM_LOST at its second occurrence in one re-execution of a committed copy (R270,
R271). -/
def State.programUe (s : State) (c : Nat) (r : ReadRec) (tag : Bool) : State :=
  let x := s.ctx c
  let a := mpa r.ch r.off
  let occ := (((x.memErrs.find? (·.1 = a)).map (·.2)).getD 0) + 1
  let body := memBody r.ch (r.off / 960) (min 2 occ) r.slot
  let at' : ErrAt := { loc := r.ch, ctx := some c, pt := some (ptOfChan r.ch) }
  let s1 := (s.logErr (if tag then 0x0107 else 0x0106) at' body).memError r.ch (r.off / 960) tag
  let s2 := s1.modCtx c fun y => { y with memErrs := (y.memErrs.filter (·.1 ≠ a)) ++ [(a, occ)] }
  if r.committed ∧ 0 < x.rollbacks ∧ 2 ≤ occ then (s2.logErr 0x0203 at' body).faultCtx c rMemLost integrity else s2

/-- A read word arrives at its P-tile (R249, R250, R270): corrected, as it is, or with every PAR bit inverted. -/
def State.deliverRead (s : State) (c : Nat) (r : ReadRec) : State :=
  match (s.ctx c).prog, (s.ctx c).alloc with
  | some g, some al =>
    let o := eccOutcome r.ch (r.off / 960) (r.off % 960 / 64) r.dflaw r.cflaw
    let bad := decide (o = .uncorrectable ∨ o = .tagError) || r.lost
    let data := if bad then r.data ^^^ r.dflaw else r.data
    let s2 := if o = .corrected ∧ !r.lost then s.modChan r.ch fun y => { y with ce := (y.ce + 1) % 2 ^ 48 } else s
    let s3 := match (s.portTile g al r.list).1 with
      | none => s2
      | some i =>
        let k := if r.pro then 8 else r.cfg
        let st := (s2.tile i).stateAt k
        if 64 ≤ st.rdBuf.length then
          let lp := (s2.localOf c i).getD (0, 0)
          s2.breach c ⟨lp.1, lp.2, 8, 1, k, 64, 65, i⟩
        else
          let par := if bad then ~~~(dataPar data) else dataPar data
          s2.modTile i fun t => t.setState k { t.stateAt k with rdBuf := (t.stateAt k).rdBuf ++ [((t.stateAt k).time, par ++ data)] }
    if bad then s3.programUe c r (decide (o = .tagError)) else s3
  | _, _ => s

/-- The read words of a context that are due in this cycle of its schedule or of its prologue arrive (R249). -/
def State.dueReads (s : State) (c : Nat) : State :=
  let x := s.ctx c
  let pro := s.proCycle c
  let now := pro.getD x.sched
  let here (r : ReadRec) : Bool := decide (r.due ≤ now) && (r.pro == pro.isSome)
  if x.reads.any here then
    (x.reads.filter here).foldl (fun a r => a.deliverRead c r) (s.modCtx c fun y => { y with reads := y.reads.filter fun r => !here r })
  else s

/-- A read word that has spent 24 cycles of its context's time at tile `i` is emitted to the router's L input (R250). -/
def State.emitRead (s : State) (c i : Nat) : State :=
  let v := s.view c i (s.ctx c).sched
  let t := s.tile i
  let st := t.stateAt v.k
  match st.rdBuf with
  | [] => s
  | (at', w) :: r =>
    if st.time < at' + 24 ∨ s.flights.any (fun f => decide (f.tile = i ∧ f.port = 6 ∧ f.left = 0)) then s
    else
      let d := w.extractLsb' 0 512
      let word := dataWord t.ugen (Config.qsel 1 v.k) false d
      let bad := decide (w.extractLsb' 512 16 ≠ dataPar d)
      (s.modTile i fun t => t.setState v.k { t.stateAt v.k with rdBuf := r }).fly i 6 0 (if bad then poisonWord word else word)

end Sys2Proof.Machine
end

