-- ==== Sys2Proof/Machine/Restore.lean ====
section
/-!
DEFINITION. The return to the last committed calender point: columns that change places, the tiles, queues and collectives of an abandoned step, scratch
(R76, R264, R268, R348, R420, R433, R447, R507, R512, R556, R557, R589).
-/
namespace Sys2Proof.Machine

/-! ### Columns change places (R76, R447) -/

/-- After a map installation on a sheet the state of each logical column stands in its new physical column; `old` is the state before. -/
def State.moveCols (s old : State) (whole : Bool) (sh : Nat) : State :=
  let m0 := (old.sheet sh).map
  let m1 := (s.sheet sh).map
  if m0 = m1 then s
  else
    let cells := (List.range 16).flatMap fun lc => (List.range 16).map fun r => (lc, r)
    let s1 := cells.foldl (fun a x => match m0.getD x.1 none with
      | some p => if m1.contains (some p) then a else a.modTile (tileIx sh p x.2) fun t => t.physical {}
      | none => a) s
    cells.foldl (fun a x => match m0.getD x.1 none, m1.getD x.1 none with
      | some p, some q => if p = q then a else (a.wrote (tileIx sh q x.2)).modTile (tileIx sh q x.2) fun t => t.moved whole (old.tile (tileIx sh p x.2))
      | _, _ => a) s1

/-! ### Collectives (R505, R552) -/

/-- Occurrences of an offset in SCHED below `t` (R219, R405). -/
def occBefore (cal off t : Nat) : Nat := if t ≤ off then 0 else (t - off - 1) / max 1 cal + 1

/-- A little-endian field of the descriptor of an installed collective (R551). -/
def Coll.fld (d : Coll) (off n : Nat) : Nat := unle ((d.desc.drop off).take n)
/-- START_OFFSET. -/
def Coll.start (d : Coll) : Nat := d.fld 8 8
/-- ONCE. -/
def Coll.isOnce (d : Coll) : Bool := (d.fld 3 1).testBit 2
/-- OP is ALLREDUCE or REDUCE. -/
def Coll.reduces (d : Coll) : Bool := decide (d.fld 0 1 ≤ 2)
/-- Address of a copy of the scale table: the committed one, or the working one (R557). -/
def Coll.table (d : Coll) (working : Bool) : Nat :=
  d.fld 0x20 8 + (if d.flip != working then (d.fld 0x28 8 + 63) / 64 * 64 else 0)
/-- Abandon the occurrences of a rolled-back step: the count goes back to those of committed steps (R556, R557). -/
def Coll.back (d : Coll) (cal sched : Nat) : Coll :=
  if d.isOnce then d
  else { d with
    occ := min d.occ (occBefore cal d.start sched), running := none, faulted := false, doneInStep := false, parts := [], written := [], next := 0
    edges := d.edges.map fun e => { e with got := [], sent := [], acked := [], timers := [], resent := [], digestDue := false, digestSent := false } }

/-! ### Tiles, queues and scratch -/

/-- The tiles of a context's partitions that are not in the state of an unconfigured tile. -/
def State.ownTiles (s : State) (c : Nat) : List Nat := (s.tiles.map (·.1)).filter (onPts (s.ctx c).held)

/-- An INSPECT dwell is placed by the map reload of the rollback, where the position is legal (R433). -/
def placeInspect (x : Sheet) : Sheet :=
  match x.inspect with
  | none => x
  | some pc =>
    let y := { x with inspect := none }
    if x.health = 0 ∧ ({ x with rove := none } : Sheet).legal pc ∧ x.rove.isSome then
      { install { y with rove := some pc, before := x.rove.map fun r => (r, x.down) } with dwell := none, dwellDue := some .inspect }
    else y

/-- Counts of a queue go back to the record; later FEEDs are fetched again (R348, R420). -/
def Queue.rewind (q : Queue) : Queue :=
  let keep := q.feeds.take (q.fedRec - q.takenRec)
  { q with
    redo := q.feeds.drop (q.fedRec - q.takenRec) ++ q.redoing
    fed := q.fedRec, taken := q.takenRec, feeds := keep
    ents := q.ents.map fun e => if e.opcode = 0x11 ∧ e.outcome.isNone ∧ !keep.contains e.n then { e with marks := [] } else e }

/-- Context ranges that are no scratch, as (address, length): the copies of regions, what FEEDs yet to be taken have brought (R349), and what the module
itself keeps there: scale tables and the erasure areas of the job (R557, R594; DEDUCED, log entry 40). -/
def State.keptRanges (s : State) (c : Nat) (g : Prog) : List (Nat × Nat) :=
  let x := s.ctx c
  copiesOf g.regions
    ++ (x.queues.flatMap fun q => q.feeds.filterMap fun m => (q.entry? m).map fun e => (e.fld 0x28 8, e.fld 0x30 8))
    ++ ((x.colls.filter Coll.reduces).map fun d => (d.fld 0x20 8, 2 * ((d.fld 0x28 8 + 63) / 64 * 64)))
    ++ (match s.jobOfCtx c with
        | some j => [(j.areas.getD 0 0, j.areas.getD 1 0), (j.areas.getD 2 0, j.areas.getD 3 0)]
        | none => [])

/-- The contents of scratch are undefined from here (R264). -/
def State.undefScratch (s : State) (c : Nat) (g : Prog) : State :=
  match (s.ctx c).alloc with
  | none => s
  | some al =>
    let kept := (s.scratch.filter (·.ctx = c)).flatMap fun u => (s.keptRanges c g).filterMap fun r =>
      if max u.lo r.1 < min u.hi (r.1 + r.2) then some { u with lo := max u.lo r.1, hi := min u.hi (r.1 + r.2) } else none
    let mine := (s.keptRanges c g).foldl (fun a r => a.defined c r.1 r.2) (s.undefine c (allocLen al))
    { mine with scratch := mine.scratch ++ kept }

/-- The restoration of the last commit (R420, R507): SCHED, SPROG, FED and TAKEN; queues, buffers and words on their way are dropped; pending
columns retire and maps are installed; the tile records are restored. -/
def State.restoreCommit (s : State) (c : Nat) (g : Prog) : State :=
  let x := s.ctx c
  let shs := x.held.flatMap sheetsOfPt
  let s1 := s.modCtx c fun y => { y with
    sched := y.commit.sched, sampled := [], reads := [], queues := y.queues.map Queue.rewind
    colls := y.colls.map fun d => d.back g.calPeriod y.commit.sched }
  let s2 := shs.foldl (fun a n => a.modSheet n fun y => { y with sprog := x.commit.sched }) s1
  let s3 := { s2 with flights := s2.flights.filter fun f => !onPts x.held f.tile }
  let s4 := s3.installPoints false x.held
  let s5 := shs.foldl (fun a n => (a.modSheet n placeInspect).moveCols s3 false n) s4
  let empty (k : CState) : CState := { k with rdBuf := [], wrBuf := [], emits := [] }
  let s6 := (s5.ownTiles c).foldl (fun a i => a.modTile i fun t => { t with
    queues := List.replicate 8 [], staleStep := 0, cst := t.cst.map empty, pro := {} }) s5
  (x.commit.tiles.foldl (fun a e => match a.physTile c (e.1 / 128) (e.1 % 128) with
    | some i => a.modTile i fun t => { t with cst := e.2.map empty }
    | none => a) s6).undefScratch c g

/-- The program ends at its last committed calender point, the step in progress abandoned: as a rollback, but the reload prologue waits for the
next start of the schedule (R268, R512, R589). -/
def State.abandonStep (s : State) (c : Nat) (g : Prog) (reason status : Nat) : State :=
  ((s.endRun c reason status).restoreCommit c g).modCtx c fun y => { y with
    st := if y.st = .running then .placed else y.st, back := .placed, hold := .stopped, faults := [], memErrs := [], violated := false
    rollbacks := 0, attempt := 0, replicaRb := 0, balanceRb := none, overdue := false, refreshEnd := false, suspendDue := false, proAgain := true
    commitHold := false, armed := y.armed.map fun m => { m with h1 := 0, h2 := 0 } }

/-- At the frame boundary the context that is to hold there for REFRESH_CLASS has its step abandoned and its program ended; the partitions go to mode
H, and in band B3 the channels of a class H program enter self-refresh (R268). -/
def State.hotAbandon (s : State) (c : Nat) : State :=
  let x := s.ctx c
  match x.hotHold, x.prog with
  | true, some g =>
    let s1 := (s.abandonStep c g rRefresh degraded).modCtx c fun y => { y with hotHold := false }
    let s2 := x.held.foldl (fun (a : State) p => a.modPt p fun y => { y with classN := false }) s1
    if g.refreshN then s2 else x.held.foldl (fun a p => a.selfRefresh p true) s2
  | _, _ => s

end Sys2Proof.Machine
end

