-- ==== Sys2Proof/Machine/Wire.lean ====
section
/-!
DEFINITION. The compute path: one arithmetic cycle of every router and compute block (ROUTE_CYCLE), the steps of issue sequences and fold slots,
the emission of read words, and the telemetry snapshot (R134–R161, R170–R173, R184–R204, R250, R469–R472).
-/
namespace Sys2Proof.Machine

/-! ### When a context runs (R159–R161, R641, R680) -/

/-- A frame gated by PERF_STATE (R641): 1 P75, 2 P50, 3 P25. -/
def perfGates (perf f : Nat) : Bool :=
  if perf = 1 then decide (f % 4 = 3) else if perf = 2 then decide (f % 2 = 1) else if perf = 3 then decide (f % 4 ≠ 0) else false
/-- Largest limiter and thermal level over the partitions of a context. -/
def State.levelOf (s : State) (c : Nat) (f : Nat × Nat → Nat) : Nat := ((s.ctx c).held.map fun p => f ((s.pt p).levels s.clk.life)).foldl max 0
/-- A context is in a calender hold or a prologue, in which no frame is gated. -/
def Context.ungated (x : Context) : Bool :=
  match x.hold with
  | .calender _ | .decide _ | .catchup _ | .prologue _ | .until _ => true
  | _ => false
/-- Frame `f` is gated for context `c` (R641, R680). -/
def State.gated (s : State) (c f : Nat) : Bool :=
  !(s.ctx c).ungated && ((s.ctx c).held.any (fun p => perfGates (s.pt p).perf f)
    || decide (f % 8 < max (s.levelOf c (·.1)) (s.levelOf c (·.2))))

/-- The schedule of a context advances in this cycle (R159, R161, R184). -/
def State.schedRuns (s : State) (c : Nat) : Bool :=
  let x := s.ctx c
  (x.run.isSome || !x.runOn.isEmpty) && decide (x.hold = .none) && decide (x.sched % 32 = s.cyc % 32) && !s.gated c (s.cyc / 32)
    && x.going.all fun p => decide ((s.pt p).pwr = .run) && !(s.pt p).faulted

/-! ### Declared waits (R160, R219, R346, R404, R552) -/

/-- A list of offsets has a point at SCHED `t` (R219). -/
def pointAt (cal t off : Nat) : Bool := decide (off ≤ t) && decide ((t - off) % cal = 0)
/-- SCHED `t` is a calender point (R219). -/
def Prog.calAt (g : Prog) (t : Nat) : Bool := decide (0 < t) && g.cal.any (pointAt g.calPeriod t)
/-- The external waits at SCHED `t`, with the occurrence of each. -/
def Prog.waitsAt (g : Prog) (t : Nat) : List (ExtWait × Nat) :=
  g.waits.filterMap fun w => if pointAt g.calPeriod t w.off then some (w, (t - w.off) / g.calPeriod + 1) else none

/-- The condition of occurrence `k` of a wait holds (R346, R404, R552). -/
def State.extMet (s : State) (c : Nat) (g : Prog) (w : ExtWait) (k : Nat) : Bool :=
  let x := s.ctx c
  if w.kind = 1 then decide ((s.queue c w.obj).taken < (s.queue c w.obj).fed)
  else if w.kind = 2 then x.colls.any fun d => decide (d.id = w.obj ∧ k ≤ d.occ)
  else match g.syncMap.find? (fun e => decide (e.id = w.obj ∧ e.role = 2)), s.syncEnt c w.obj with
    | some e, some t => decide (t.st = 1)
        && reached (s.syncVal t) (x.commit.baseV.getD w.obj 0 + BitVec.ofNat 32 (k * e.stepVal) - BitVec.ofNat 32 e.init)
    | _, _ => false
/-- Every wait at SCHED `t` is met. -/
def State.waitsMet (s : State) (c : Nat) (g : Prog) (t : Nat) : Bool := (g.waitsAt t).all fun w => s.extMet c g w.1 w.2

/-- Sample, on a frame boundary, the wait points that R160 samples now: those at most 256 cycles ahead of the schedule, the point where a held
context stands among them. The sample at B − 256 decides whether the schedule holds at B, those after it when the hold ends: at the first
boundary 256 cycles after a sample that found the condition met. -/
def State.sampleWaits (s : State) (c : Nat) : State :=
  let x := s.ctx c
  match x.prog with
  | none => s
  | some g =>
    let ahead := (List.range 9).map fun j => x.sched + 32 * j
    let new := ahead.filter fun t => !(g.waitsAt t).isEmpty && !(x.sampled.any (·.1 = t)) && s.waitsMet c g t
    if new.isEmpty then s else s.modCtx c fun y => { y with sampled := y.sampled ++ new.map fun t => (t, s.clk.life) }

/-- The wait point at SCHED has been passed: each host-data wait adds 1 to TAKEN (R346). -/
def State.passWaits (s : State) (c : Nat) (g : Prog) : State :=
  let t := (s.ctx c).sched
  ((g.waitsAt t).foldl (fun a w => if w.1.kind = 1 then a.modQueue c w.1.obj fun q => { q with taken := q.taken + 1 } else a) s).modCtx c fun x =>
    { x with sampled := x.sampled.filter (·.1 ≠ t) }

/-- The schedule stands at a wait point: the context holds there until EXTERNAL_WAIT_POINT or HOLD_RELEASE (R160). -/
def State.arriveWait (s : State) (c : Nat) : State :=
  let x := s.ctx c
  match x.prog with
  | none => s
  | some g =>
    match (List.range g.waits.length).find? fun i => pointAt g.calPeriod x.sched (g.waits.getD i ⟨0, 0, 0⟩).off with
    | none => s
    | some i => s.modCtx c fun y => { y with hold := .wait i ((x.sched - (g.waits.getD i ⟨0, 0, 0⟩).off) / g.calPeriod + 1) s.clk.life }

/-- The schedule has reached a new SCHED: it holds at a calender point (R419) or at a wait point (R160). -/
def State.arrive (s : State) (c : Nat) : State :=
  match (s.ctx c).prog with
  | none => s
  | some g => if g.calAt (s.ctx c).sched then s.modCtx c fun y => { y with hold := .calender s.clk.life, calAt := s.clk.life } else s.arriveWait c

/-! ### One cycle of a context's tiles -/

/-- What a tile does in the cycle before its router routes. -/
structure TileCycle where
  /-- Local row. -/
  row : Nat
  /-- Local column. -/
  col : Nat
  /-- Physical tile. -/
  ix : Nat
  /-- View. -/
  v : View
  /-- The route table is in force (R192). -/
  rt : Bool
  /-- Word emitted to the L input. -/
  lword : Option Link
  /-- Effects on the tile. -/
  out : IssueOut

/-- ECC events of the cycle on a tile: word address, LANES, outcome. -/
def sramEvents (evs : List WireEvent) (i : Nat) : List (Nat × Nat × Ecc) :=
  evs.filterMap fun e => match e with
    | .sram t a l k => if tileIx t.sh t.pc t.row = i then some (a, l.toNat, k) else none
    | _ => none

/-- The compute block of one tile in one cycle. -/
def State.tileCycle (s : State) (c : Nat) (evs : List WireEvent) (p : Nat × Nat × Nat) : TileCycle :=
  let i := p.2.2
  let x := s.ctx c
  let v := s.view c i x.sched
  let t := s.tile i
  let st := t.stateAt v.k
  let e := v.entry st
  let o : IssueOut := match e with
    | none => { tile := t, st := st }
    | some e =>
      let y := stepEntry v e (x.step + 1) (s.shadowKeys i) (sramEvents evs i) t st
      { y with st := { y.st with rep := st.rep + 1 } }
  let d := dueEmit st.time o.st.emits
  let w := d.1.map fun y =>
    let w := dataWord t.ugen (Config.qsel 0 (v.entryWord y.1)) y.2.1 y.2.2.2
    if y.2.2.1 then poisonWord w else w
  let st2 := { o.st with emits := d.2, time := st.time + 1 }
  { row := p.1, col := p.2.1, ix := i, v := v, rt := match e with
      | some e => e.rt
      | none => false
    lword := w, out := { o with st := st2, tile := o.tile.setState v.k st2 } }

/-- Faults of the wire on an input in the cycle. -/
def flipOf (evs : List WireEvent) (i port : Nat) : Link :=
  evs.foldl (fun a e => match e with
    | .flip t p m => if tileIx t.sh t.pc t.row = i ∧ p.val = port then a ^^^ m else a
    | _ => a) 0

/-- The word at an input of a router, by direction (5 the compute block), with its port code. -/
def State.inputWord (s : State) (evs : List WireEvent) (o : TileCycle) (dir : Nat) : Option (Link × Nat) :=
  (portsOf dir).findSome? fun p =>
    let base := (s.flights.find? fun f => decide (f.tile = o.ix ∧ f.port = p ∧ f.left = 0)).map (·.word)
    let w := if p = 6 then o.lword.orElse fun _ => base else base
    let m := flipOf evs o.ix p
    if w.isNone ∧ m = 0 then none else some (w.getD idleWord ^^^ m, p)

/-- What the routers of a cycle yield. -/
structure Routed where
  /-- Words on links: receiving tile, port, latency, word. -/
  sent : List Flight := []
  /-- Deliveries to compute blocks: tile, word, ports, direction of a single source. -/
  given : List (TileCycle × Link × List Nat × Nat) := []
  /-- Router-add failures: tile and the operands with their ports (R155). -/
  bad : List (TileCycle × List (Link × Nat)) := []

/-- One output of one router (R137, R144–R155). -/
def State.routeOutput (s : State) (c : Nat) (evs : List WireEvent) (o : TileCycle) (entry : Nat) (r : Routed) (dir : Nat) : Routed :=
  let send (w : Link) (ports : List Nat) (src : Nat) : Routed :=
    if dir = 5 then { r with given := r.given ++ [(o, w, ports, src)] }
    else match neighbour o.row o.col dir with
      | none => r
      | some q =>
        match s.physTile c q.1 q.2 with
        | none => r
        | some j => { r with sent := r.sent ++ [⟨j, portCode j o.ix (opposite dir), hopLatency o.row o.col q.1 q.2 - 1, w⟩] }
  match routeOps (routeOut entry dir) with
  | [a] => match s.inputWord evs o a with
    | some w => send w.1 [w.2] a
    | none => if dir = 5 then send idleWord [] a else r
  | [a, b] =>
    let x := (s.inputWord evs o a).getD (idleWord, (portsOf a).headD 0)
    let y := (s.inputWord evs o b).getD (idleWord, (portsOf b).headD 0)
    match routerAdd x.1 y.1 with
    | some w => send w [x.2, y.2] 0
    | none => { r with bad := r.bad ++ [(o, [x, y])] }
  | _ => r

/-- The router of one tile in the cycle. -/
def State.routeTile (s : State) (c : Nat) (evs : List WireEvent) (r : Routed) (o : TileCycle) : Routed :=
  if !o.rt then r
  else
    let n := 32 * 2 ^ (ctxCtl o.v.mem o.v.base).period
    let e := routeEnt o.v.mem o.v.base (o.v.time % n)
    if e = 0 then r else [1, 2, 3, 4, 5].foldl (s.routeOutput c evs o e) r

/-- A word is received on a port of a tile: FLITS counts it if VALID is 1 (R172). -/
def State.flit (s : State) (i port : Nat) (w : Link) : State :=
  if w.valid then s.modTile i fun t => { t with tlm := { t.tlm with flits := t.tlm.flits.modify port fun v => (v + 1) % 2 ^ 48 } } else s

/-- A check of a tile has failed: PAR_ERR (R172). -/
def State.parErr (s : State) (i : Nat) : State :=
  s.modTile i fun t => { t with tlm := { t.tlm with parErr := min 0xFFFF (t.tlm.parErr + 1) } }

/-- Words that routers of context `c` receive in the cycle, at running tiles and at any other tile of its partitions: from links, from their own
compute blocks, and from faults of the wire (R172). -/
def State.countFlits (s : State) (c : Nat) (evs : List WireEvent) (outs : List TileCycle) : State :=
  let held := (s.ctx c).going
  let own := outs.filterMap fun o => o.lword.map fun w => (o.ix, 6, w)
  let linked := (s.flights.filter fun f => decide (f.left = 0) && onPts held f.tile && !own.any fun x => decide (x.1 = f.tile ∧ f.port = 6)).map
    fun f => (f.tile, f.port, f.word)
  let came := own ++ linked
  let faulty := (evs.filterMap fun e => match e with
    | .flip t p _ => if onPts held (tileIx t.sh t.pc t.row) then some (tileIx t.sh t.pc t.row, p.val) else none
    | _ => none).eraseDups
  let stray := faulty.filter fun x => !came.any fun y => decide (y.1 = x.1 ∧ y.2.1 = x.2)
  (came ++ stray.map fun x => (x.1, x.2, idleWord)).foldl (fun a x => a.flit x.1 x.2.1 (x.2.2 ^^^ flipOf evs x.1 x.2.1)) s

/-- QMAX of a tile whose queue `q` holds `n` words: the ports that have fed the queue, and L for every queue (R172). -/
def Tile.queueHas (t : Tile) (q n : Nat) : Tile :=
  { t with tlm := { t.tlm with qmax := t.tlm.qmax.mapIdx fun p m => if p = 6 ∨ (t.portQ.getD p 0).testBit q then max m (min 64 n) else m } }

/-- A word is delivered to an input queue (R149, R157, R198–R200, R211). -/
def State.deliver (s : State) (c : Nat) (d : TileCycle × Link × List Nat × Nat) : State × Option Violation :=
  let o := d.1
  let w := d.2.1
  let i := o.ix
  match checkWord w with
  | some cls =>
    let path := if 1 ≤ d.2.2.2 ∧ d.2.2.2 ≤ 4 ∧ o.v.k ≠ 8 then s.pathBack c 400 o.row o.col d.2.2.2 (s.ctx c).sched else []
    (s.wordFault c i cls 0 (d.2.2.1.headD ((portsOf d.2.2.2).headD 6)) w path, none)
  | none =>
    let t := s.tile i
    let q := w.qsel
    if w.gen ≠ t.ugen then
      (s.modTile i fun t => { t.count 4 1 with staleStep := min 0xFFFF (t.staleStep + 1) }, none)
    else match o.v.owner q with
      | none => (s, some ⟨o.row, o.col, q, 3, o.v.k, 0, 0, i⟩)
      | some (k, b) =>
        let n := (t.queues.getD q []).length + 1
        (s.modTile i fun t =>
          ({ t with
             queues := t.queues.modify q fun l => l ++ [(s.clk.life, w.last, w.data)]
             portQ := d.2.2.1.foldl (fun (l : List Nat) p => l.modify p (· ||| 2 ^ q)) t.portQ } : Tile).queueHas q n,
         if b < n then some ⟨o.row, o.col, q, 1, k, b, n, i⟩ else none)

/-- The violations of a tile's compute block in the cycle (R200, R251). -/
def issueViolations (o : TileCycle) : List Violation :=
  (match o.out.under with
    | some q => let w := (o.v.owner q).getD (o.v.k, 0); [⟨o.row, o.col, q, 2, w.1, w.2, 0, o.ix⟩]
    | none => []) ++ (if o.out.full then [⟨o.row, o.col, 9, 1, o.v.k, 16, 17, o.ix⟩] else [])

/-- Record the uncorrectable on-die reads of a tile, and the rows that gave errors (R226, R446). -/
def State.logSram (s : State) (c : Nat) (o : TileCycle) : State :=
  let s1 := if o.out.ce.isEmpty && o.out.ue.isEmpty then s else s.modTile o.ix fun t =>
    o.out.ue.foldl (fun u x => u.gaveUe x.1) (o.out.ce.foldl (fun u x => u.gaveCe x s.clk.life) t)
  o.out.ue.foldl (fun a u => a.logErr 0x0105 (a.tileAt (some c) o.ix)
    (le 4 u.1 ++ le 1 (if tileType (o.ix % 16) = 3 then 0 else 1) ++ le 1 u.2.1 ++ le 1 u.2.2 ++ le 1 0)) s1

/-- One cycle of every compute block and router of context `c` (R137, R149–R157, R191). CTL_ERR counts a router add that fails once, whether one
operand or both are bad (DESIGN CHOICE, log entry 50). A word on its way moves on in the cycles in which its context's schedule runs: at a hold it
keeps its distance, and is routed at the SCHED it would have met without the hold (DESIGN CHOICE, log entry 51). What the cycle breaks of the
schedule is gathered for the one record at the cycle's end (R202). -/
def State.cycleCtx (s : State) (c : Nat) (evs : List WireEvent) : State :=
  let held := (s.ctx c).going
  let outs := ((s.runTiles c).filter fun p => onPts held p.2.2).map (s.tileCycle c evs)
  let r := outs.foldl (s.routeTile c evs) {}
  let s1 := outs.foldl (fun a o => (a.modTile o.ix fun _ => o.out.tile)) s
  let s2 := s1.countFlits c evs outs
  let s3 := { s2 with
    flights := (s.flights.filterMap fun f =>
      if onPts held f.tile then (if f.left = 0 then none else some { f with left := f.left - 1 }) else some f) ++ r.sent }
  let s4 := outs.foldl (fun a o => (o.out.wrote.toList.foldl (fun b w => b.markDirty o.ix w) a).logSram c o) s3
  let s5 := r.bad.foldl (fun a b =>
    (a.modTile b.1.ix fun t => { t with tlm := { t.tlm with ctlErr := min 0xFFFF (t.tlm.ctlErr + 1) } }).logErr 0x0104 (a.tileAt (some c) b.1.ix)
      (b.2.flatMap fun w => wordBody 1 w.2 w.1.qsel w.1)) s4
  let d := r.given.foldl (fun (a : State × List Violation) g =>
    let x := a.1.deliver c g
    (x.1, a.2 ++ x.2.toList)) (s5, [])
  (outs.flatMap issueViolations ++ d.2).foldl (fun a v => a.breach c v) d.1

/-! ### Shadow compare (R469–R472) -/

/-- Differences that the comparators of a sheet report in a cycle: lowest tile row, then lowest port code (R472). -/
def shadowEvents (evs : List WireEvent) (sh : Nat) : List Mismatch :=
  evs.filterMap fun e => match e with
    | .shadow x row port lane diff temp mv act =>
      if x.val = sh then some ⟨1, row.val, port.val, lane.val, diff, temp, mv, act.toNat⟩ else none
    | _ => none

/-- The mirror taps give the spare every input word of the shadowed column, and on them the spare executes its target's contexts cycle for cycle
(R54, R170, R451): it holds what the target holds. What a fault of the hardware makes different is an event (log entry 15). -/
def State.mirror (s : State) (sh : Nat) (d : Dwell) : State :=
  match (s.sheet sh).rove, (s.sheet sh).map.getD (d.target.getD 0) none with
  | some pc, some src => (List.range 16).foldl (fun a r => a.modTile (tileIx sh pc r) fun t => t.moved true (s.tile (tileIx sh src r))) s
  | _, _ => s

/-- Shadow compare of one sheet in a cycle. -/
def State.shadowCycle (s : State) (evs : List WireEvent) (sh : Nat) : State :=
  match (s.sheet sh).shadowed with
  | none => s
  | some d =>
    if s.cyc % 32 = 31 then s.mirror sh d
    else
      let s0 := s.mirror sh d
      let s1 := s0.sheetCount sh 0x0C01 1
      match shadowEvents evs sh with
      | [] => s1
      | m :: r =>
        let first := r.foldl (fun (a b : Mismatch) => if b.row * 8 + b.port < a.row * 8 + a.port then b else a) m
        let s2 := s1.sheetCount sh 0x0C02 1
        if d.mismatched then s2 else s2.recordMismatch sh d first

/-! ### Couch words of the catch-up pause (R158, R168, R449) -/

/-- Port of the spare by which couch words of row `r` come in (R168). -/
def State.couchPort (s : State) (sh : Nat) (d : Dwell) (pc r : Nat) : Nat :=
  let src := ((s.sheet sh).map.getD (d.target.getD 0) none).getD pc
  portCode (tileIx sh pc r) (tileIx sh src r) (if src < pc then 4 else 3)

/-- A couch word has failed its checks: counted, and logged against the link (R158). -/
def State.couchFault (s : State) (i port : Nat) (w : Link) : State :=
  let s1 := s.parErr i
  s1.logErr 0x0407 (s1.tileAt none i) (wordBody 4 port 0 w)

/-- During a catch-up the couch uses every slot of its links. A word that the wire changes fails its checks: the couch is abandoned, and the
catch-up ends now with nothing copied. -/
def State.catchupCycle (s : State) (evs : List WireEvent) (sh : Nat) : State :=
  match (s.sheet sh).dwell, (s.sheet sh).rove with
  | some d, some pc =>
    if d.catching.isNone ∨ d.abandoned then s
    else match (List.range 16).find? fun r => decide (flipOf evs (tileIx sh pc r) (s.couchPort sh d pc r) ≠ 0) with
      | none => s
      | some r =>
        let i := tileIx sh pc r
        let port := s.couchPort sh d pc r
        (s.couchFault i port (mkWord (1#1 ++ 2#3 ++ 0#27) 0 ^^^ flipOf evs i port)).modSheet sh fun y =>
          { y with dwell := some { d with catching := some s.clk.life, abandoned := true } }
  | _, _ => s

/-! ### ROUTE_CYCLE -/

/-- STALL of a held frame: the ports that the route table at the held position selects (R172). -/
def State.stallTile (s : State) (c : Nat) (p : Nat × Nat × Nat) : State :=
  let v := s.view c p.2.2 (s.ctx c).sched
  let n := 32 * 2 ^ (ctxCtl v.mem v.base).period
  let used := ((List.range n).flatMap fun i => let e := routeEnt v.mem v.base i
    if e = 0 then [] else [1, 2, 3, 4, 5].flatMap fun d => routeOps (routeOut e d)).eraseDups
  let ports := used.map fun d => if d = 5 then 6 else match (neighbour p.1 p.2.1 d).bind fun q => s.physTile c q.1 q.2 with
    | some j => portCode p.2.2 j d
    | none => (portsOf d).headD 0
  s.modTile p.2.2 fun t => { t with tlm := { t.tlm with stall := ports.eraseDups.foldl (fun (l : List Nat) k => l.modify k fun x => (x + 32) % 2 ^ 48) t.tlm.stall } }

/-- The start of a frame for context `c`: samples, gated-frame counters (R692) and STALL. -/
def State.frameStart (s : State) (c : Nat) : State :=
  let x := s.ctx c
  let f := s.cyc / 32
  let s1 := if x.active then s.sampleWaits c else s
  let l := s.levelOf c (·.1)
  let t := s.levelOf c (·.2)
  let byL := !x.ungated && decide (f % 8 < l)
  let byT := !x.ungated && decide (f % 8 < t)
  let s2 := if !(s.gated c f) then s1 else x.held.foldl (fun a p => a.modPt p fun y =>
    { y with gated := (y.gated + 1) % 2 ^ 48, limitFrames := if byL then (y.limitFrames + 1) % 2 ^ 48 else y.limitFrames
             thermalFrames := if byT then (y.thermalFrames + 1) % 2 ^ 48 else y.thermalFrames }) s1
  let proc : Bool := match x.hold with
    | .prologue _ => true
    | _ => false
  if x.active ∧ !proc ∧ (decide (x.hold ≠ .none) || s.gated c f) then (s2.runTiles c).foldl (State.stallTile · c) s2 else s2

/-- The FEEDs of a rolled-back step have been re-executed: the reload prologue begins (R348, R507). -/
def State.refed (s : State) (c : Nat) : State :=
  match (s.ctx c).hold, (s.ctx c).prog with
  | .refeed _, some g => if s.refeeds c then s else s.beginPrologue c g
  | _, _ => s

/-- A hold that ends at a frame boundary ends (R419, R507). -/
def State.releaseDue (s : State) (c : Nat) : State :=
  match (s.ctx c).hold with
  | .until t => if t ≤ s.clk.life ∧ s.cyc % 32 = 0 then
      let s1 := (s.ctx c).held.foldl (fun a p => a.modPt p fun y => { y with runCyc := 0, sinceRelease := 0 }) s
      ((s1.modCtx c fun x => { x with hold := .none, commitHold := false }).arriveWait c)
    else s
  | _ => s

/-- Contexts that hold partitions. -/
def State.boundCtxs (s : State) : List Nat := (List.range 64).filter fun c => !(s.ctx c).held.isEmpty

/-- At a frame boundary the partitions of a context that ran on after a violation hold as well (R201). -/
def State.endRunOn (s : State) (c : Nat) : State :=
  if (s.ctx c).runOn.isEmpty then s else s.modCtx c fun x => { x with runOn := [], hold := if x.st = .faulted then .stopped else x.hold }

/-- At a frame boundary the schedule of a context whose job is in VOTING holds (R582). -/
def State.voteHold (s : State) (c : Nat) : State :=
  if (s.jobOfCtx c).any fun j => decide (j.st = .voting) then s.modCtx c fun x => { x with hold := if x.hold = .none then .stopped else x.hold } else s

/-- One cycle of the tiles of a bound context, with the partitions whose schedule advances in it. -/
def State.ctxCycle (s : State) (evs : List WireEvent) (c : Nat) : State × List Nat :=
  let s1 := (s.refed c).releaseDue c
  let s2 := if s1.cyc % 32 = 0 then (((s1.endRunOn c).hotAbandon c).voteHold c).frameStart c else s1
  let runs := s2.schedRuns c
  if runs ∨ (s2.proCycle c).isSome then
    let s3 := s2.dueReads c
    ((((s3.runTiles c).foldl (fun a p => a.emitRead c p.2.2) s3)).cycleCtx c evs, if runs then (s2.ctx c).going else [])
  else (s2, [])

/-- The end of a cycle in which the schedule advanced on `ran`: SCHED, SPROG of the sheets, the cycles that R422 and R513 count (R184, R418). -/
def State.advance (s : State) (c : Nat) (ran : List Nat) : State :=
  let runs := decide ((s.ctx c).hold = .none) && !s.gated c (s.cyc / 32)
  let s1 := if (s.ctx c).active then (s.ctx c).held.foldl (fun a p => a.modPt p fun y =>
      { y with sinceRelease := y.sinceRelease + 1, runCyc := if runs && decide (y.pwr = .run) then y.runCyc + 1 else y.runCyc }) s else s
  if ran.isEmpty then s1
  else (ran.flatMap sheetsOfPt).foldl (fun a n => a.modSheet n fun y => { y with sprog := y.sprog + 1 })
    (s1.modCtx c fun x => { x with sched := x.sched + 1 })

/-- The context whose schedule has advanced on `ran` reaches a point there. -/
def State.arriveAfter (s : State) (c : Nat) (ran : List Nat) : State :=
  if !ran.isEmpty ∧ (s.ctx c).active ∧ (s.ctx c).hold = .none then s.arrive c else s

/-- A partition is needed in Run (R409, R674): a RUNNING context, a prologue, an entry of its context that spins on a WAIT, or a dwell. -/
def State.needed (s : State) (p : Nat) : Bool :=
  (match s.holder p with
    | some c => (s.ctx c).active || (s.ctx c).hold.inPrologue || (s.ctx c).queues.any fun q =>
        q.ents.any fun z => z.spinning && !z.started && z.outcome.isNone
    | none => false) || (sheetsOfPt p).any fun n => (s.sheet n).dwell.isSome || (s.sheet n).dwellDue.isSome

/-- The partitions that are needed in Run are so still (R674). -/
def State.keepBusy (s : State) : State :=
  (List.range 8).foldl (fun a p => if (a.pt p).pwr = .run ∧ a.needed p then a.modPt p fun y => { y with busyAt := a.clk.life } else a) s

/-- ROUTE_CYCLE (R134, R137): one arithmetic cycle of every context, then of the comparators; the violations of the cycle are recorded, with every
step fault of the cycle before them (R203); SCHED, CYCLE and the always-on clock advance, and a context that reaches a calender or wait point holds
there. -/
def routeCycle (evs : List WireEvent) (s : State) : State :=
  let cs := s.boundCtxs
  let r := cs.foldl (fun (a : State × List (Nat × List Nat)) c =>
    let x := a.1.ctxCycle evs c
    (x.1, a.2 ++ [(c, x.2)])) (s, [])
  let s2 := (List.range 24).foldl (fun a n => (a.shadowCycle evs n).catchupCycle evs n) r.1
  let s3 := cs.foldl (fun a c => a.violate c []) s2
  let s4 := r.2.foldl (fun a x => a.advance x.1 x.2) s3
  let s5 := { s4 with
    clk := { s4.clk with cycle := s4.clk.cycle + 1, life := s4.clk.life + 1 }
    ports := s4.ports.map fun (x : FPort) => if x.txq.isEmpty then x else { x with ctr := x.ctr.modify 7 fun v => (v + 1) % 2 ^ 48 } }
  (r.2.foldl (fun a x => a.arriveAfter x.1 x.2) s5.landWrites).keepBusy

/-! ### Issue sequences and fold slots -/

/-- The context that a physical tile belongs to. -/
def State.ctxOfTile (s : State) (i : Nat) : Option Nat := s.holderOfSheet (i / 288)

/-- ISSUE_ENTRY_ADVANCE (R191, R194): the running entry is over, or a LOOP is next: the sequence moves on. -/
def issueEntryAdvance (i : Nat) (s : State) : State :=
  match s.ctxOfTile i with
  | none => s
  | some c =>
    let v := s.view c i (s.ctx c).sched
    let st := (s.tile i).stateAt v.k
    if ctxValid (s.tile i).cfg = 0 ∨ (ctxCtl v.mem v.base).issueLast < st.pos then s
    else
      let e := issueEnt v.mem v.base st.pos
      if e.op ≠ 3 ∧ st.rep < e.len then s
      else
        let p := followLoops v 1024 (if e.op = 3 then st.pos else st.pos + 1) st.loops
        s.modTile i fun t => t.setState v.k { t.stateAt v.k with pos := p.1, loops := p.2, rep := 0 }

/-- FOLD_SLOT_SWITCH (R186, R188, R207): at the first cycle of a fold slot the slot's context is active; a predicated context takes its predicate
token. -/
def foldSlotSwitch (i : Nat) (s : State) : State :=
  match s.ctxOfTile i with
  | none => s
  | some c =>
    let x := s.ctx c
    let v := s.view c i x.sched
    let t := s.tile i
    let st := t.stateAt v.k
    if !v.first ∨ !s.schedRuns c ∨ ctxValid t.cfg = 0 ∨ st.predAt = x.sched + 1 then s
    else
      let ctl := ctxCtl v.mem v.base
      if ctl.branch = 0 then s
      else
        let mark (t : Tile) (b : Bool) : Tile := t.setState v.k { t.stateAt v.k with predAt := x.sched + 1, pred := b }
        match v.take t ctl.predQ with
        | some w => s.modTile i fun _ => mark w.2 (w.1.2.2.getLsbD 0)
        | none =>
          let l := (s.localOf c i).getD (0, 0)
          let o := (v.owner ctl.predQ).getD (v.k, 0)
          (s.modTile i fun t => mark t st.pred).breach c ⟨l.1, l.2, ctl.predQ, 2, o.1, o.2, 0, i⟩

/-- READ_BUFFER_EMIT (R250): the event of a word's emission; without it the word leaves in the cycle in which it is due. -/
def readBufferEmit (i : Nat) (s : State) : State :=
  match s.ctxOfTile i with
  | none => s
  | some c => s.emitRead c i

/-- The QMAX from which a tile counts afresh: what its queues hold now (R172). -/
def Tile.restartQmax (t : Tile) : Tile :=
  (List.range 8).foldl (fun u q => u.queueHas q (t.queues.getD q []).length) { t with tlm := { t.tlm with qmax := List.replicate 7 0 } }

/-- TELEMETRY_SNAPSHOT (R171, R173): once every 2^21 cyc, in the cycles whose number is a multiple of it (DESIGN CHOICE, log entry 51), every router
takes its counts and sends them over its column's telemetry slots; QMAX counts afresh. At any other time there is no snapshot. -/
def telemetrySnapshot (s : State) : State :=
  if s.cyc % 2 ^ 21 ≠ 0 ∨ s.clk.snapAt = s.clk.life + 1 then s
  else
    ((List.range 6912).filter fun i => decide ((s.pt (ptOfSheet (i / 288))).pwr = .run ∨ (s.pt (ptOfSheet (i / 288))).pwr = .idle)).foldl
      (fun a i => a.modTile i fun t => ({ t with sending := some ({ t.tlm with at' := s.cyc }, 3, s.clk.life) } : Tile).restartQmax)
      { s with clk := { s.clk with snapAt := s.clk.life + 1 } }

/-- Index of a physical tile operand. -/
def ptileIx (t : PTile) : Nat := tileIx t.sh t.pc t.row

/-- ROUTE_CYCLE. -/
def execRouteCycle (evs : List WireEvent) (s : State) : Host.Outcome State Fault Refusal := nextOf s (routeCycle evs s)
/-- ISSUE_ENTRY_ADVANCE. -/
def execIssueEntryAdvance (t : PTile) (s : State) : Host.Outcome State Fault Refusal := nextOf s (issueEntryAdvance (ptileIx t) s)
/-- FOLD_SLOT_SWITCH. -/
def execFoldSlotSwitch (t : PTile) (s : State) : Host.Outcome State Fault Refusal := nextOf s (foldSlotSwitch (ptileIx t) s)
/-- READ_BUFFER_EMIT. -/
def execReadBufferEmit (t : PTile) (s : State) : Host.Outcome State Fault Refusal := nextOf s (readBufferEmit (ptileIx t) s)
/-- TELEMETRY_SNAPSHOT. -/
def execTelemetrySnapshot (s : State) : Host.Outcome State Fault Refusal := nextOf s (telemetrySnapshot s)

end Sys2Proof.Machine
end

