-- ==== Sys2Proof/Machine/Commit.lean ====
section
/-!
DEFINITION. What a calender point does to a context: the conditions of a commit, the commit itself, the rollback and the hold that follows
(R71, R197, R204, R261, R339, R348, R404–R408, R417–R424, R449, R452, R481–R489, R504–R512, R594).
-/
namespace Sys2Proof.Machine

/-! ### Progress bodies and hangs (R501, R514) -/

/-- A Progress body (R501): KIND, and SPROG of each sheet of the context, at most 22. -/
def State.progressBody (s : State) (c kind : Nat) : List Byte :=
  let l := ((List.range 24).filter fun n => (s.ctx c).held.contains (ptOfSheet n)).map fun n => (s.sheet n).sprog
  le 1 kind ++ le 1 l.length ++ zeros 6 ++ (l.take 22).flatMap (le 8)

/-- Where a record about a whole context points. -/
def State.ctxAt (s : State) (c : Nat) : ErrAt :=
  { handle := s.handleOf (.ctx c), ctx := some c, pt := (s.ctx c).held.head? }

/-- A HUNG record starts a crash dump of the hung partitions where DUMP_AUTO bit 0 is set (R514). -/
def State.hangDump (s : State) (pts : List Nat) : State :=
  if (s.settingNat 0x05).testBit 0 then s.startDump none 0x0202 (s.handleOf (.pt (pts.headD 0))) pts else s

/-- A context hangs (R412, R513): KIND 0 run time, 1 wait deadline. -/
def State.hang (s : State) (c kind : Nat) (pts : List Nat) : State :=
  let s1 := s.logErr 0x0202 (s.ctxAt c) (s.progressBody c kind)
  let s2 := pts.foldl (fun a p => a.modPt p fun y => { y with faulted := true }) s1
  (s2.faultCtx c rHung timeout).hangDump pts

/-! ### What the sheets report -/

/-- S-tile accumulators of the spare and its target differ on a sheet in shadow: the first of a step is recorded (R475). -/
def State.wmDiffers (s : State) (sh : Nat) (m : Mismatch) : State :=
  match (s.sheet sh).shadowed with
  | none => s
  | some d =>
    let b := s.sheetCount sh 0x0C03 1
    if d.mismatched then b else b.recordMismatch sh d m

/-! ### Program signals and pairs (R405–R408) -/

/-- The program's adds of the step that ends at SCHED (R405). Those to a counter of a suspended owner are held for its resumption (R414; log entry 55). -/
def State.programAdds (s : State) (c : Nat) (g : Prog) : State :=
  let x := s.ctx c
  (g.syncMap.filter (·.role = 1)).foldl (fun a m =>
    let n := occBefore g.calPeriod m.off x.sched - occBefore g.calPeriod m.off x.commit.sched
    if n = 0 then a
    else match a.syncEnt c m.id with
      | some t =>
        if t.st = 2 then a.ctxCount c 0x0A03 n
        else if t.st = 3 then a.modCtx t.owner fun y => { y with heldAdds := y.heldAdds ++ [(t.pt, t.index, BitVec.ofNat 32 (n * m.stepVal), n)] }
        else (a.syncAdd t (BitVec.ofNat 32 (n * m.stepVal))).ctxCount t.owner 0x0A01 (n - 1)
      | none => a) s

/-- The pairs a commit checks: the program's own, and those of other programs on counters the program signals (R407). -/
def State.commitPairs (s : State) (c : Nat) (g : Prog) : List (Nat × SyncMapEnt) :=
  ((g.syncMap.filter (·.role = 3)).map fun m => (c, m)) ++ (g.syncMap.filter (·.role = 1)).flatMap fun m =>
    match s.syncEnt c m.id with
    | some t => if t.st = 2 then [] else (s.pairsOn t.pt t.index).filter fun p => decide (p.1 ≠ c)
    | none => []

/-- What the pairs say of a commit. -/
inductive PairCheck where
  | good
  | breach (c : Nat) (m : SyncMapEnt)
  | unbalanced (m : SyncMapEnt)

/-- The pair checks in a state in which the program's adds have been made (R407, R408). -/
def State.pairCheck (s : State) (c : Nat) (g : Prog) : PairCheck :=
  match (s.commitPairs c g).find? fun p => !s.pairOk p.1 p.2 with
  | some p => .breach p.1 p.2
  | none =>
    match g.syncMap.find? fun m => decide (m.role = 3) && m.balance && (match s.pairVals c m with
        | some v => decide (v.1 ≠ v.2)
        | none => false) with
    | some m => .unbalanced m
    | none => .good

/-- A pair breach of the program's own adds, or a second consecutive imbalance: a schedule violation, cause 5 or 6 (R408). `adds` is the state with
the adds made. -/
def State.pairViolation (s adds : State) (c cause : Nat) (d : Nat) (m : SyncMapEnt) : State :=
  let s1 := s.logErr 0x0201 (s.ctxAt c) (pairBody cause m ((adds.pairVals d m).getD (0, 0)))
  (s1.modCtx c fun x => { x with violated := true }).faultCtx c rViolation invalid

/-! ### Collectives at a calender point (R505, R552, R570) -/

/-- Body of a COLLECTIVE step fault (R570). -/
def collBody (id occ sub port peer pkt detail : Nat) : List Byte :=
  le 4 id ++ le 8 occ ++ le 1 sub ++ le 1 port ++ le 2 peer ++ le 4 pkt ++ zeros 4 ++ le 8 detail

/-- Occurrences of a collective that the step was to start, and that have not completed (R505, R552). -/
def State.collIncomplete (s : State) (c : Nat) (g : Prog) (d : Coll) : Bool :=
  !d.isOnce && decide (d.occ < occBefore g.calPeriod d.start (s.ctx c).sched)

/-! ### The local decision (R204, R505) -/

/-- Queues that hold an entry, open MAC rows and words still to be emitted at a calender point (R204). -/
def State.calenderViolations (s : State) (c : Nat) : List Violation :=
  (s.cfgTiles c).flatMap fun r =>
    let t := s.tile r.2.2
    let own (q : Nat) : Nat × Nat := (queueOwner t.cfg q).getD (0, 0)
    ((List.range 8).filterMap fun q =>
      let n := (t.queues.getD q []).length
      if n = 0 then none else some ⟨r.1, r.2.1, q, 4, (own q).1, (own q).2, n, r.2.2⟩)
    ++ (List.range 8).filterMap fun k =>
      let st := t.cst.getD k {}
      if (st.row ≠ 0 ∧ st.lanes = []) ∨ st.emits ≠ [] then some ⟨r.1, r.2.1, 0, 4, k, 0, 0, r.2.2⟩ else none

/-- The local decision of a step (R505, conditions 1 to 6): the state with its records, and whether to commit; none when the context has
faulted. -/
def State.localDecision (s : State) (c : Nat) (g : Prog) : State × Option Bool :=
  let x := s.ctx c
  let sheets := x.held.flatMap sheetsOfPt
  let s1 := match sheets.find? fun n => decide ((s.sheet n).sprog ≠ x.sched) with
    | some n => s.logErr 0x010A { s.ctxAt c with handle := s.handleOf (.sheet n), pt := some (ptOfSheet n) } (s.progressBody c 0)
    | none => s
  let s2 := s1.violate c (s1.calenderViolations c)
  if (s2.ctx c).st = .faulted then (s2, none)
  else if !(s2.ctx c).faults.isEmpty then (s2, some false)
  else
    let adds := s2.programAdds c g
    match adds.pairCheck c g with
    | .breach d m => (s2.pairViolation adds c 5 d m, none)
    | .unbalanced m =>
      if (s2.ctx c).balanceRb = some (m.id, m.stepVal % 65536) then (s2.pairViolation adds c 6 c m, none)
      else ((s2.logErr 0x010F (s2.ctxAt c) (pairBody 6 m ((adds.pairVals c m).getD (0, 0)))).modCtx c fun y =>
        { y with balanceRb := some (m.id, m.stepVal % 65536) }, some false)
    | .good =>
      match (s2.ctx c).colls.find? (s2.collIncomplete c g) with
      | some d => (s2.logErr 0x010C (s2.ctxAt c) (collBody d.id (d.occ + 1) 1 0 0 0 0), some false)
      | none => (s2, some true)

/-! ### The hold that follows (R419, R449, R452, R507, R594) -/

/-- The hold after the decision: a snapshot copy not complete (R594), a catch-up (R449), a reload prologue (R512), else to cycle 1,280. -/
def State.leavePoint (s : State) (c : Nat) : State :=
  let x := s.ctx c
  if !x.active then s.modCtx c fun y => { y with hold := .stopped }
  else if (s.jobOfCtx c).any (fun j => decide (j.st = .voting)) then s.modCtx c fun y => { y with hold := .stopped }
  else if x.snapWait then s.modCtx c fun y => { y with hold := .decide s.clk.life }
  else if (x.held.flatMap sheetsOfPt).any (fun n => match (s.sheet n).dwell with
      | some d => d.catching.isSome
      | none => false) then s.modCtx c fun y => { y with hold := .catchup s.clk.life }
  else match x.proAgain, x.prog with
    | true, some g => (s.beginPrologue c g).modCtx c fun y => { y with proAgain := false }
    | _, _ => s.modCtx c fun y => { y with hold := .until (max s.clk.life (x.calAt + 1280)) }

/-- Most dirty words in one tile row (R449). -/
def Sheet.mostDirty (x : Sheet) : Nat :=
  ((List.range 16).map fun r => (x.dirty.filter fun w => w / 65536 = r).length).foldl max 0

/-- A catch-up that is due starts, unless it would last more than 36,000 cyc (R449, R450). -/
def State.beginCatchup (s : State) (sh : Nat) : State :=
  let x := s.sheet sh
  match x.dwell with
  | some d =>
    if d.couched.isNone ∨ d.inStep ∨ d.catching.isSome then s
    else
      let n := 2048 + x.mostDirty
      if 36000 < n then s.sheetCount sh 0x0B05 1
      else s.modSheet sh fun y => { y with dwell := y.dwell.map fun (e : Dwell) => { e with catching := some (s.clk.life + 1 + n) } }
  | none => s

/-! ### Snapshots of a job's state (R591, R594) -/

/-- Bytes of the committed copies of the DOUBLE regions of a context, in region order (R591). -/
def State.shardRegions (s : State) (c : Nat) : List Byte :=
  (((s.ctx c).prog.map (·.regions)).getD []).flatMap fun r => if r.double then s.ctxRead c r.baseA r.len else []
/-- The shard of a context: save block, regions, padding (R591). -/
def State.shard (s : State) (c len : Nat) : List Byte :=
  padTo len ((List.range Config.saveLen).map (Config.saveBlock s.fresh) ++ s.shardRegions c)

/-- What the save block of a context holds at a commit (R320, R591): its record, the committed scale tables and the physical counters it owns. -/
def State.saveOf (s : State) (c : Nat) : Saved :=
  { (s.ctx c).save with
    tables := ((s.ctx c).colls.filter Coll.reduces).map fun d => (d.id, s.ctxRead c (d.table false) (d.fld 0x28 8))
    counters := ((s.ctx c).sync.filter fun e => e.2.owned).map fun e => (e.2.pt, e.2.index, s.syncVal e.2) }

/-- A refresh that is due at a commit is taken, or skipped while the last generation is not protected (R594, R596, R598). -/
def State.refreshAtCommit (s : State) (c : Nat) : State :=
  match s.activeJob c with
  | none => s
  | some j =>
    let step := (s.ctx c).step
    let base := ((j.genSteps.find? (·.1 = 0)).map (·.2)).getD 0
    let due := decide (j.refreshN ≠ 0 ∧ (step - base) % max 1 j.refreshN = 0) || j.refreshDue
    if j.copying then (if due then s.ctxCount c 0x0D24 1 else s).modCtx c fun y => { y with snapWait := true }
    else if j.k = 0 ∨ !due then s
    else if j.protGen ≠ j.gen ∨ s.dies.ecOff.length = 6 then s.ctxCount c 0x0D24 1
    else
      let n := j.gen + 1
      let b := s.shard c (j.k * j.chunk)
      let s1 := s.ctxWrite c (j.areas.getD 0 0 + n % 2 * (j.k * j.chunk)) b
      { s1 with fresh := s1.fresh + 1 }.modJob j.id fun y => { y with
          gen := n, genSteps := y.genSteps ++ [(n, step)], refreshDue := false, copying := true
          saved := (y.saved.filter fun (e : Nat × Saved) => decide (e.1 + 2 > n)) ++ [(n, { s.saveOf c with base := base })] }

/-! ### Commit -/

/-- FEEDs whose waits the committed step passed complete; FED and TAKEN are recorded (R348, R349). -/
def State.recordFeeds (s : State) (c k : Nat) : State :=
  let q := s.queue c k
  let n := q.taken - q.takenRec
  let s1 := (q.feeds.take n).foldl (fun a m =>
    a.setOutcome c k m { status := ok, result := ((q.entry? m).map fun e => e.fld 0x30 8).getD 0 }) s
  s1.modQueue c k fun y => { y with fedRec := y.fed, takenRec := y.taken, feeds := y.feeds.drop n }

/-- Replica checks complete at the first commit after arming (R350, R489). -/
def State.endArmed (s : State) (c : Nat) : State :=
  ((s.ctx c).armed.foldl (fun a m => m.entries.foldl (fun b e =>
    b.setOutcome c e.1 e.2 (if m.disagreed then failed integrity else { status := ok })) a) s).modCtx c fun x =>
      { x with armed := x.armed.map fun m => { m with entries := [], h1 := 0, h2 := 0 } }

/-- Firmware clears STALE_STEP of every tile of a context (R215). -/
def State.clearStale (s : State) (c : Nat) : State := (s.ownTiles c).foldl (fun a i => a.modTile i fun t => { t with staleStep := 0 }) s

/-- How the RUN ends at this commit: reason and status (R268, R338, R339). -/
def Context.runEnd (x : Context) : Option (Nat × Nat) :=
  match x.run with
  | none => none
  | some r =>
    if r.limit ≠ 0 ∧ r.limit ≤ x.step then some (rStepLimit, ok)
    else if !x.stops.isEmpty then some (rStopped, ok)
    else if x.refreshEnd then some (rRefresh, degraded)
    else none

/-- Everything of a step's end that takes the schedule's records forward (R197, R261, R348, R404, R417). -/
def State.commitRecords (s : State) (c : Nat) (g : Prog) : State :=
  let s1 := (s.ownTiles c).foldl (fun a i => a.modTile i fun t => { t with cst := t.cst.map fun (k : CState) => { k with elem := 0 } }) s
  let s2 := (List.range 16).foldl (fun a k => a.recordFeeds c k) s1
  let tiles := s2.tileRecords c
  s2.modCtx c fun x => { x with
    flips := x.flips.mapIdx fun i f => if (g.regions.getD i ⟨0, 0, 0, false⟩).double then !f else f
    step := x.step + 1, commit := { x.commit with sched := x.sched, tiles := tiles, cycle := s.cyc }
    rollbacks := 0, attempt := 0, replicaRb := 0, balanceRb := none, memErrs := [], faults := [], commitHold := true
    colls := x.colls.map fun d => if d.doneInStep then { d with flip := !d.flip, doneInStep := false } else d }

/-- The step commits (R419, R505): the decision stands and only a pair breach made by the adds of the commit cycle can still stop it. -/
def State.commitStep (s : State) (c : Nat) (g : Prog) : State :=
  let adds := s.programAdds c g
  match adds.pairCheck c g with
  | .breach d m => s.pairViolation adds c 5 d m
  | _ =>
    let s1 := (adds.commitRecords c g).endArmed c
    let x := s1.ctx c
    let s2 := if x.overdue ∨ !(s1.staleTiles c).isEmpty then s1.calRecord c x.step 0 0 x.overdue [] else s1
    let s3 := s2.clearStale c
    let s4 := (s3.modCtx c fun y => { y with overdue := false, violated := false }).perfAtCommit c
    let reload := (x.held.flatMap sheetsOfPt).any fun n => (s4.sheet n).awaitsPoint
    let s5 := s4.installPoints true x.held
    let s6 := (x.held.flatMap sheetsOfPt).foldl (fun a n => (a.moveCols s4 false n).modSheet n fun y =>
      { y with inspect := none, dwell := y.dwell.map fun (e : Dwell) => { e with mismatched := false } }) s5
    let s7 := s6.modCtx c fun y => { y with proAgain := y.proAgain || reload }
    let s8 := if reload then s7 else (x.held.flatMap sheetsOfPt).foldl State.beginCatchup s7
    let s9 := s8.refreshAtCommit c
    let s10 := match x.runEnd with
      | some e =>
        let y := s9.endRun c e.1 e.2
        let z : State := if e.1 = rRefresh ∨ x.refreshEnd then x.held.foldl (fun (a : State) p => a.modPt p fun w => { w with classN := false }) y else y
        z.modCtx c fun (w : Context) => { w with st := if w.st = CtxState.running then CtxState.placed else w.st, back := CtxState.placed, refreshEnd := false }
      | none => s9
    (s10.modCtx c fun y => { y with suspendDue := false }).leavePoint c

/-! ### Rollback -/

/-- The step rolls back (R420, R507, R508, R488): `replica` says that a replica outcome is the cause. -/
def State.rollbackStep (s : State) (c : Nat) (g : Prog) (replica : Bool) : State :=
  let x := s.ctx c
  if x.rbLimit ≤ x.rollbacks then (s.logErr 0x0204 (s.ctxAt c) (s.progressBody c 2)).faultCtx c rRollback integrity
  else if replica ∧ 2 ≤ x.replicaRb then s.faultCtx c rReplica integrity
  else
    let s1 := (s.ctxCount c 0x0A06 1).modCtx c fun y => { y with
      rollbacks := y.rollbacks + 1, attempt := (y.attempt + 1) % 256, replicaRb := if replica then y.replicaRb + 1 else 0
      balanceRb := if y.faults.headD 0 = 0x010F then y.balanceRb else none }
    let s2 := s1.calRecord c (x.step + 1) 1 (x.faults.headD 0) x.overdue []
    let s3 := s2.restoreCommit c g
    let s4 := (x.held.flatMap sheetsOfPt).foldl (fun a n => a.modSheet n fun y =>
      { y with dwell := y.dwell.map fun (e : Dwell) => { e with mismatched := false } }) s3
    (s4.modCtx c fun y => { y with
      faults := [], memErrs := [], violated := false, overdue := false, commitHold := false, proAgain := false
      armed := y.armed.map fun m => { m with h1 := 0, h2 := 0, disagreed := m.disagreed || x.faults.contains 0x010E } }).beginPrologue c g

end Sys2Proof.Machine
end

