-- ==== Sys2Proof/Machine/Votes.lean ====
section
/-!
DEFINITION. The vote of a job at a calender point (R583–R586, R594–R596): VOTE up the tree, DECISION down it.
-/
namespace Sys2Proof.Machine

/-- Bits of ranks in a LOST bitmap of 1,024 bytes (R575, R577). -/
def lostMap (l : List Nat) : List Byte := le 1024 (unbits l)

/-- Body of a DECISION (R577). -/
def decisionBody (code gen step : Nat) (lost : List Nat) : List Byte := le 1 code ++ zeros 7 ++ le 8 gen ++ le 8 step ++ lostMap lost

/-- The live children of a member have all voted. -/
def Job.childrenIn (j : Job) : Bool := j.children.all fun r => j.votes.any fun v => decide (v.1 = r)

/-- The smaller of two generations, all ones counting as none (log entry 29). -/
def minGen (a b : Nat) : Nat := if (a + 1) % 2 ^ 64 ≤ (b + 1) % 2 ^ 64 then a else b

/-- The combined vote of a member and its children (R583): code, NVOTED, GEN_DONE, LOST. -/
def Job.combined (j : Job) (own : Nat) : Nat × Nat × Nat × List Nat :=
  let l := j.votes.filter fun v => j.children.contains v.1
  (l.foldl (fun a v => max a v.2.1) own, l.foldl (fun a v => a + v.2.2.1) 1, l.foldl (fun a v => minGen a v.2.2.2.1) j.genDone,
    (l.foldl (fun a v => a ++ v.2.2.2.2) j.lost).eraseDups)

/-- The step at which a generation was taken. -/
def Job.stepOfGen (j : Job) (g : Nat) : Nat := ((j.genSteps.find? (·.1 = g)).map (·.2)).getD j.protStep

/-- PROT_GEN and PROT_STEP rise; refreshes that wait for the generation complete (R595, R596). -/
def State.protect (s : State) (id gen step : Nat) : State :=
  match s.job? id with
  | none => s
  | some j =>
    let s1 := s.modJob id fun y => { y with protGen := gen, protStep := step }
    let x := s1.ctx j.ctx
    let up (w : Nat × W32 × Nat) : Bool := decide (gen ≠ 2 ^ 64 - 1) && decide (w.2.2 ≤ gen)
    let met := x.ecWaits.filter up
    (met.foldl (fun a w => a.setOutcome j.ctx w.1 w.2.1 { status := ok }) s1).modCtx j.ctx fun y => { y with ecWaits := y.ecWaits.filter fun w => !up w }

/-- Log what a vote's rollback means for a member without a step fault of its own (R583). -/
def State.voteRollback (s : State) (j : Job) (g : Prog) : State :=
  let c := j.ctx
  let s1 := if (s.ctx c).faults.isEmpty then s.logErr 0x0110 (s.ctxAt c) (le 8 j.id ++ le 4 j.epoch ++ le 2 j.rank ++ zeros 2) else s
  s1.rollbackStep c g ((s1.ctx c).faults.any fun f => decide (f = 0x010D ∨ f = 0x010E))

/-- Generation 0 is confirmed as protected on every member: EC_SETUP completes (R593). -/
def State.endSetup (s : State) (id : Nat) : State :=
  match s.job? id with
  | none => s
  | some j => if !j.setup ∨ j.protGen = 2 ^ 64 - 1 then s
    else (s.finishOp? j.op ok []).modJob id fun y => { y with setup := false, op := none }

/-- A wait of the calender point of `c` that began at `since` is over: the commit cycle falls now, and the later rows of the timeline move by the
wait (R419). -/
def State.waited (s : State) (c since : Nat) : State := s.modCtx c fun x => { x with calAt := x.calAt + (s.clk.life - since) }

/-- A per-step DECISION on this member: forwarded to the children, then the step commits or rolls back (R583, R586, R606). The decision that
confirms generation 0 of an EC_SETUP finds a context that is not at a calender point (R593; log entry 30). -/
def State.perStep (s : State) (id code gen step : Nat) : State :=
  match s.job? id with
  | none => s
  | some j =>
    match j.own, (s.ctx j.ctx).prog, (s.ctx j.ctx).hold with
    | some _, some g, .decide since =>
      let body := decisionBody code gen step j.lost
      let s1 := s.memberSendAll id 4 j.children body
      let s2 := (s1.modJob id fun y => { y with own := none, voted := false, votes := y.votes.filter (·.2.1 = 2), lastDecision := some ((s.ctx j.ctx).step + 1, (s.ctx j.ctx).attempt, body) }).protect id gen step
      let s3 := ((s2.ctxCount j.ctx 0x0D20 1).ctxCount j.ctx 0x0D26 (s.clk.life - since)).waited j.ctx since |>.modCtx j.ctx fun x => { x with replicaOk := none, jobOk := some (decide (code = 0)) }
      (if code = 0 then s3.commitStep j.ctx g else (s3.ctxCount j.ctx 0x0D21 1).voteRollback j g).endSetup id
    | some _, _, _ =>
      if !j.setup then s
      else (((s.memberSendAll id 4 j.children (decisionBody code gen step j.lost)).modJob id fun y =>
        { y with own := none, voted := false, votes := y.votes.filter (·.2.1 = 2) }).protect id gen step).endSetup id
    | none, _, _ => s

/-- Send the VOTE once every live child has voted; the effective root decides (R583). -/
def State.tryVote (s : State) (id : Nat) : State :=
  match s.job? id with
  | none => s
  | some j =>
    match j.own with
    | none => s
    | some own =>
      if j.st ≠ .active ∨ j.voted ∨ !j.childrenIn then s
      else
        let v := j.combined own
        match j.parent j.rank with
        | some p => (s.memberSend id 3 p (le 1 v.1 ++ zeros 3 ++ le 2 v.2.1 ++ zeros 2 ++ le 8 v.2.2.1 ++ lostMap v.2.2.2)).modJob id fun y => { y with voted := true }
        | none => s.perStep id v.1 v.2.2.1 (j.stepOfGen v.2.2.1)

/-- Without a job the decision is carried out, a rollback for a replica outcome counted as such (R488). -/
def State.rollOrCommit (s : State) (c : Nat) (g : Prog) (good : Bool) : State :=
  if good then s.commitStep c g else s.rollbackStep c g ((s.ctx c).faults.any fun f => decide (f = 0x010D ∨ f = 0x010E))

/-- The decision stands after the replica decision: a job votes on it, any other context carries it out (R505, R583). -/
def State.afterReplica (s : State) (c : Nat) (g : Prog) (good : Bool) : State :=
  match s.activeJob c with
  | some j =>
    ((s.modCtx c fun x => { x with hold := .decide s.clk.life, jobOk := none }).modJob j.id fun y => { y with own := some (if good then 0 else 1) }).tryVote j.id
  | none => s.rollOrCommit c g good

/-- The local decision stands: a context with an armed region reports it to its replica set and waits for the reports of the others first (R484),
whatever the state of its job. -/
def State.afterLocal (s : State) (c : Nat) (g : Prog) (good : Bool) : State :=
  let x := s.ctx c
  if x.armed.isEmpty then s.afterReplica c g good
  else (s.emit (.replicaReport c (x.step + 1) good (x.armed.map fun m => (m.region, m.h2 ++ m.h1)))).modCtx c fun y =>
    { y with hold := .decide s.clk.life, replicaOk := none }

end Sys2Proof.Machine
end

