-- ==== Sys2Proof/Machine/Calender.lean ====
section
/-!
DEFINITION. Declared waits, calender points, reload prologues and hang detection (R160, R404, R410–R412, R417–R422, R449, R474, R475, R484–R489,
R505, R507–R514): EXTERNAL_WAIT_POINT to PROGRAM_WAIT_DEADLINE, and the replica decision.
-/
namespace Sys2Proof.Machine

/-! ### Waits (R160) -/

/-- A held program waits on an object that is ORPHANED, and the wait was not met before (R411, R413). -/
def State.waitsOrphaned (s : State) (c : Nat) (g : Prog) : Bool :=
  let x := s.ctx c
  x.active && !(x.sampled.any fun e => decide (e.1 = x.sched)) && (g.waitsAt x.sched).any fun w => decide (w.1.kind = 3) && (match s.syncEnt c w.1.obj with
    | some t => decide (t.st = 2)
    | none => false)

/-- The wait point at which a held context stands was found met at least 256 cycles ago: the schedule runs on from here. One that waits on an ORPHANED
object completes with ORPHANED, as R413 says of every waiter: its RUN ends so, with a REASON that the spec does not give (log entry 55). -/
def State.endWait (s : State) (c : Nat) : State :=
  let x := s.ctx c
  match x.hold, x.prog with
  | .wait _ _ _, some g =>
    if x.sampled.any fun e => decide (e.1 = x.sched ∧ e.2 + 256 ≤ s.clk.life) then (s.passWaits c g).modCtx c fun y => { y with hold := .none }
    else if s.waitsOrphaned c g then
      { (s.ctxCount c 0x0A03 1).faultCtx c (Config.freeByte s.fresh).toNat orphaned with fresh := s.fresh + 1 }
    else s
  | _, _ => s

/-- EXTERNAL_WAIT_POINT (R160): a context whose condition was met in time runs on; else it holds. -/
def externalWaitPoint (c : Nat) (s : State) : State := s.endWait c

/-- HOLD_RELEASE (R160): at a frame boundary. -/
def holdRelease (c : Nat) (s : State) : State := if s.cyc % 32 = 0 then s.endWait c else s

/-- PROGRAM_WAIT_DEADLINE (R410–R412): a KIND 3 wait at the held point is not met; a condition true now wins. -/
def programWaitDeadline (c : Nat) (s : State) : State :=
  let x := s.ctx c
  match x.hold, x.prog with
  | .wait _ _ _, some g =>
    if x.active && (g.waitsAt x.sched).any fun w => decide (w.1.kind = 3) && !s.extMet c g w.1 w.2 then
      (s.ctxCount c 0x0A02 1).hang c 1 x.held
    else s
  | _, _ => s

/-! ### Hangs and lateness (R422, R513) -/

/-- HUNG (R513): the run cycles of a partition exceed 1.5·STEP_BOUND. -/
def hung (p : Nat) (s : State) : State :=
  match s.holder p with
  | none => s
  | some c =>
    match (s.ctx c).prog with
    | none => s
    | some g => if (s.ctx c).active && decide (3 * g.stepBound < 2 * (s.pt p).runCyc) then s.hang c 0 [p] else s

/-- CALENDER_OVERDUE (R422): once a step. -/
def calenderOverdue (c : Nat) (s : State) : State :=
  let x := s.ctx c
  let waiting : Bool := match x.hold with
    | .none | .wait _ _ _ => true
    | _ => false
  if x.active && waiting && !x.overdue && x.held.any fun p => decide (2 ^ 28 ≤ (s.pt p).sinceRelease) then
    ((s.logErr 0x0401 (s.ctxAt c) []).ctxCount c 0x0A04 1).modCtx c fun y => { y with overdue := true }
  else s

/-! ### The calender point (R419) -/

/-- What the sheets of a context report: an SPROG that differs, and S-tile accumulators that differ on sheets in shadow (R418, R475). -/
def State.calEvents (s : State) (c : Nat) (evs : List CalEvent) : State :=
  let held := (s.ctx c).held
  evs.foldl (fun a e => match e with
    | .progress sh v => if held.contains (ptOfSheet sh) then a.modSheet sh fun y => { y with sprog := v.toNat } else a
    | .shadowWm sh row diff temp mv act =>
      if held.contains (ptOfSheet sh) then a.wmDiffers sh ⟨2, row.val, 7, 0xFF, diff, temp, mv, act.toNat⟩ else a) s

/-- A RECONFIG entry of the context has started and waits for its point (R213). -/
def Context.reconfigDue (x : Context) : Bool :=
  x.queues.any fun q => q.ents.any fun e => decide (e.opcode = 0x03) && e.started && e.outcome.isNone

/-- A map reload, a retirement or a reconfiguration is due at the point while firmware restarts: the context holds there until the restart ends
(R520). -/
def State.awaitsFirmware (s : State) (c : Nat) : Bool :=
  s.mgmt.restart.isSome && ((s.ctx c).reconfigDue || ((s.ctx c).held.flatMap sheetsOfPt).any fun n => (s.sheet n).awaitsPoint)

/-- CALENDER_POINT (R419, R505): from cycle 768 of the hold, the reports and the decision. -/
def calenderPoint (c : Nat) (evs : List CalEvent) (s : State) : State :=
  let x := s.ctx c
  match x.hold, x.prog with
  | .calender since, some g =>
    if s.clk.life < since + 768 ∨ s.awaitsFirmware c ∨ !x.active then s
    else
      let r := (s.calEvents c evs).localDecision c g
      match r.2 with
      | none => r.1
      | some good => r.1.afterLocal c g good
  | _, _ => s

/-- The couch words that a catch-up sent, one for each dirty word of a row, as FLITS count them (R172, R449). -/
def State.countCouch (s : State) (sh : Nat) (d : Dwell) (pc : Nat) (x : Sheet) : State :=
  (List.range 16).foldl (fun a r =>
    a.modTile (tileIx sh pc r) fun t => { t with tlm := { t.tlm with
      flits := t.tlm.flits.modify (s.couchPort sh d pc r) fun v => (v + (x.dirty.filter fun w => w / 65536 = r).length) % 2 ^ 48 } }) s

/-- A catch-up that was to end at `at'` is over: the hold of its context goes on to its end (R449). -/
def State.afterCatchup (s : State) (sh at' : Nat) : State :=
  match s.holderOfSheet sh with
  | none => s
  | some c => match (s.ctx c).hold with
    | .catchup _ => (s.sheetCount sh 0x0B08 ((at' - (s.ctx c).calAt + 31) / 32 * 32 - 1280)).leavePoint c
    | _ => s

/-- CATCHUP_DONE (R449, R451, R474): the spare is in step; the hold goes on to its end when no other sheet of the context is catching up. -/
def catchupDone (sh : Nat) (s : State) : State :=
  match (s.sheet sh).dwell with
  | none => s
  | some d =>
    match d.catching with
    | none => s
    | some at' =>
      if s.clk.life < at' then s
      else if d.abandoned then
        (s.modSheet sh fun y => { y with dwell := none, dwellDue := some d.kind, dirty := [] }).afterCatchup sh at'
      else
        let pcs := (s.sheet sh).rove.toList ++ ((s.sheet sh).map.getD (d.target.getD 0) none).toList
        let s1 := pcs.foldl (fun a p => (List.range 16).foldl (fun b r =>
          if tileType r = 3 then b.modTile (tileIx sh p r) fun t => { t with wm1 := 0, wm2 := 0 } else b) a) s
        let s2 := (s1.modSheet sh fun y => { y with
          dirty := [], dwell := some { d with catching := none, inStep := true, phase := .inStep } }).sheetCount sh 0x0B04 1
        (((s2.sheet sh).rove.toList.foldl (fun a pc => a.countCouch sh d pc (s.sheet sh)) s2).mirror sh d).afterCatchup sh at'

/-! ### The reload prologue (R509–R512) -/

/-- Tiles of a prologue. -/
def State.proTiles (s : State) (c : Nat) (g : Prog) : List Nat := g.prologue.filterMap fun t => s.physTile c t.row t.col

/-- A prologue has ended (R511): every tile running it is past ISSUE_LAST and every queue of the context is empty. -/
def State.proEnded (s : State) (c : Nat) (g : Prog) : Bool :=
  (s.proCycle c).isSome && (s.proTiles c g).all (fun i => decide ((ctxCtl (s.tile i).proCfg 0).issueLast < (s.tile i).pro.pos) && (s.tile i).pro.emits.isEmpty)
    && (s.ownTiles c).all fun i => (s.tile i).queues.all (·.isEmpty)

/-- PROLOGUE_END (R507, R511, R512, R474, R452): the schedule starts at a frame boundary, a resumption waits for RESUMPTION_FINISHED. Spares whose
couch-in had ended are in step from the release when the prologue was a map reload's. -/
def prologueEnd (c : Nat) (s : State) : State :=
  let x := s.ctx c
  match x.prog with
  | none => s
  | some g =>
    if !s.proEnded c g then s
    else
      let shs := x.held.flatMap sheetsOfPt
      let s1 := if x.commitHold then shs.foldl (fun a n => a.modSheet n fun y => { y with
          dwell := y.dwell.map fun (d : Dwell) => if d.couched.isSome ∧ !d.inStep then { d with inStep := true, phase := .inStep } else d }) s else s
      let s2 := shs.foldl (fun a n => match (a.sheet n).shadowed with
        | none => a
        | some d => ((a.sheet n).rove.toList ++ ((a.sheet n).map.getD (d.target.getD 0) none).toList).foldl (fun b p =>
            (List.range 16).foldl (fun e r => if tileType r = 3 then e.modTile (tileIx n p r) fun t => { t with wm1 := 0, wm2 := 0 } else e) b) a) s1
      let s2' := if x.rollbacks ≠ 0 ∧ !x.commitHold then s2.clearStale c else s2
      let s3 := (s.proTiles c g).foldl (fun a i => a.modTile i fun t => { t with pro := {} }) s2'
      s3.modCtx c fun y => { y with
        reads := y.reads.filter fun r => !r.pro
        hold := if !x.active then .stopped else if x.snapWait then .decide s.clk.life else .until (max s.clk.life (x.calAt + 1280)) }

/-- PROLOGUE_OVERRUN (R511): more than 2^23 cyc from the prologue's first cycle. -/
def prologueOverrun (c : Nat) (s : State) : State :=
  match s.proCycle c with
  | some n => if 2 ^ 23 < n then (s.logErr 0x0205 (s.ctxAt c) (s.progressBody c 3)).faultCtx c rPrologue timeout else s
  | none => s

/-! ### Arms -/

/-- EXTERNAL_WAIT_POINT. -/
def execExternalWaitPoint (c : Ctx) (s : State) : Host.Outcome State Fault Refusal := nextOf s (externalWaitPoint c s)
/-- HOLD_RELEASE. -/
def execHoldRelease (c : Ctx) (s : State) : Host.Outcome State Fault Refusal := nextOf s (holdRelease c s)
/-- CALENDER_POINT. -/
def execCalenderPoint (c : Ctx) (evs : List CalEvent) (s : State) : Host.Outcome State Fault Refusal := nextOf s (calenderPoint c evs s)
/-- CATCHUP_DONE. -/
def execCatchupDone (sh : Sh) (s : State) : Host.Outcome State Fault Refusal := nextOf s (catchupDone sh s)
/-- PROLOGUE_END. -/
def execPrologueEnd (c : Ctx) (s : State) : Host.Outcome State Fault Refusal := nextOf s (prologueEnd c s)
/-- PROLOGUE_OVERRUN. -/
def execPrologueOverrun (c : Ctx) (s : State) : Host.Outcome State Fault Refusal := nextOf s (prologueOverrun c s)
/-- CALENDER_OVERDUE. -/
def execCalenderOverdue (c : Ctx) (s : State) : Host.Outcome State Fault Refusal := nextOf s (calenderOverdue c s)
/-- HUNG. -/
def execHung (p : Pt) (s : State) : Host.Outcome State Fault Refusal := nextOf s (hung p s)
/-- PROGRAM_WAIT_DEADLINE. -/
def execProgramWaitDeadline (c : Ctx) (s : State) : Host.Outcome State Fault Refusal := nextOf s (programWaitDeadline c s)

end Sys2Proof.Machine
end

