-- ==== Sys2Proof/Machine/Plane.lean ====
section
/-!
DEFINITION. Slot 31 of the frame: the message plane in even frames (R156, R158, R162–R166), couch words, telemetry and self-test control in odd
frames (R158, R167–R171, R447, R448).
-/
namespace Sys2Proof.Machine

/-- Physical tile of a partition-local logical position. -/
def State.localTile (s : State) (p row col : Nat) : Option Nat :=
  let sh := (sheetsOfPt p).getD (col / 16) 0
  ((s.sheet sh).map.getD (col % 16) none).map fun pc => tileIx sh pc row

/-- A partition whose dies run. -/
def State.awake (s : State) (p : Nat) : Bool := decide ((s.pt p).pwr = .run ∨ (s.pt p).pwr = .idle)

/-- Slot 31 of a frame of the given parity is now, and its traffic has not yet moved. -/
def State.slot31 (s : State) (odd : Nat) : Bool := decide (s.cyc % 32 = 31 ∧ s.cyc / 32 % 2 = odd ∧ s.clk.slotAt ≠ s.clk.life + 1)
/-- The traffic of this slot 31 has moved. -/
def State.slotDone (s : State) : State := { s with clk := { s.clk with slotAt := s.clk.life + 1 } }

/-! ### The message plane (R162–R165) -/

/-- The next hop of a cell at (row, col): an output 0 N, 1 S, 2 E, 3 W, 4 L (R162). -/
def nextHop (row col : Nat) (w : Link) : Nat :=
  if col < w.destCol then 2 else if w.destCol < col then 3 else if row < w.destRow then 1 else if w.destRow < row then 0 else 4

/-- The input latch that an output serves in even frame `m` (R163). -/
def served (out m : Nat) : Nat :=
  if out = 2 then [3, 4].getD (m % 2) 4 else if out = 3 then [2, 4].getD (m % 2) 4
  else if out = 0 then [1, 2, 3, 4].getD (m % 4) 4 else if out = 1 then [0, 2, 3, 4].getD (m % 4) 4 else [0, 1, 2, 3].getD (m % 4) 0

/-- The neighbour inside a partition that an output reaches, with the latch that receives: an output N enters the S latch, and so on. -/
def planeNext (row col out : Nat) : Option (Nat × Nat × Nat) :=
  if out = 0 then (if row = 0 then none else some (row - 1, col, 1))
  else if out = 1 then (if row = 15 then none else some (row + 1, col, 0))
  else if out = 2 then (if col = 47 then none else some (row, col + 1, 3))
  else if out = 3 then (if col = 0 then none else some (row, col - 1, 2))
  else none

/-- A move of the message plane: from tile and latch to tile, latch and port; no destination latch is delivery to L. -/
structure CellMove where
  /-- Source tile. -/
  src : Nat
  /-- Source latch. -/
  latch : Nat
  /-- The cell. -/
  word : Link
  /-- Receiving tile, latch and port code; none for L. -/
  dst : Option (Nat × Nat × Nat)

/-- The move that one output makes in the slot (R163). -/
def State.cellMove (s : State) (p m row col i out : Nat) : Option CellMove :=
  let t := s.tile i
  let k := served out m
  match t.latches.getD k none with
  | none => none
  | some w =>
    if nextHop row col w ≠ out then none
    else if out = 4 then some ⟨i, k, w, none⟩
    else match planeNext row col out with
      | none => none
      | some (r2, c2, k2) =>
        match s.localTile p r2 c2 with
        | none => none
        | some j => if ((s.tile j).latches.getD k2 none).isSome then none else some ⟨i, k, w, some (j, k2, portCode j i (k2 + 1))⟩

/-- Tiles of a partition that hold a cell, with their local position. -/
def State.cellTiles (s : State) (p : Nat) : List (Nat × Nat × Nat) :=
  (List.range 16).flatMap fun r => (List.range 48).filterMap fun c => match s.localTile p r c with
    | some i => if (s.tile i).latches.any (·.isSome) then some (r, c, i) else none
    | none => none

/-- A cell passes its checks at L: its message is whole with its last cell, unless it is being discarded (R158, R165). -/
def CellRx.take (x : CellRx) (w : Link) : CellRx :=
  let k := Config.cellMessage w
  if x.dropping.contains k then (if w.last then { x with dropping := x.dropping.filter (· ≠ k) } else x)
  else if w.last then
    { x with
      parts := x.parts.filter fun v => decide (Config.cellMessage v ≠ k)
      mail := x.mail ++ [(x.parts.filter fun v => decide (Config.cellMessage v = k)) ++ [w]] }
  else { x with parts := x.parts ++ [w] }

/-- A cell fails its checks at L: the cells of its message that have come are discarded, and those still to come (R158). -/
def CellRx.drop (x : CellRx) (w : Link) : CellRx :=
  let k := Config.cellMessage w
  { x with
    parts := x.parts.filter fun v => decide (Config.cellMessage v ≠ k)
    dropping := if w.last ∨ x.dropping.contains k then x.dropping else x.dropping ++ [k] }

/-- A message word that fails check 1, 2 or 3 when it is delivered (R158): its whole message is discarded; a step fault of the bound context, else
only logged. -/
def State.cellFault (s : State) (i : Nat) (w : Link) : State :=
  let c := s.holderOfSheet (i / 288)
  let s1 := (s.modTile i fun t => { t with rx := t.rx.drop w }).parErr i
  s1.logErr (if c.isSome then 0x010B else 0x0406) (s1.tileAt c i) (wordBody 3 6 w.qsel w)

/-- A cell moves. The wire may change it at the receiving input (log entry 15). -/
def State.moveCell (s : State) (evs : List WireEvent) (m : CellMove) : State :=
  let s1 := s.modTile m.src fun t => { t with latches := t.latches.set m.latch none }
  match m.dst with
  | some (j, k, port) =>
    let w := m.word ^^^ flipOf evs j port
    (s1.modTile j fun t => { t with latches := t.latches.set k (some w) }).flit j port w
  | none =>
    let w := m.word ^^^ flipOf evs m.src 6
    if w.parOk ∧ w.valid ∧ w.kind = 1 then s1.modTile m.src fun t => { t with rx := t.rx.take w } else s1.cellFault m.src w

/-- The link word of a firmware cell: KIND MSG (R138, R162). -/
def cellWord (x : FwCell) : Link :=
  mkWord (1#1 ++ 1#3 ++ 0#7 ++ BitVec.ofBool x.last ++ BitVec.ofNat 4 x.destRow.val ++ BitVec.ofNat 6 x.destCol.val ++ 0#9) x.data

/-- Firmware puts a cell into the L latch of a tile, which was empty at the start of the slot in the state `before` (R162, R164, R365; log entry 54).
No firmware runs during a firmware restart (R520). -/
def State.sendCell (before s : State) (x : FwCell) : State :=
  let i := tileIx x.t.sh x.t.pc x.t.row
  if !s.awake (ptOfSheet x.t.sh) ∨ s.mgmt.restart.isSome ∨ ((before.tile i).latches.getD 4 none).isSome ∨ ((s.tile i).latches.getD 4 none).isSome then s
  else s.modTile i fun t => { t with latches := t.latches.set 4 (some (cellWord x)) }

/-- MESSAGE_PLANE_SLOT (R163): in slot 31 of an even frame every output moves at most one cell, and firmware may put new cells into L latches. -/
def messagePlaneSlot (evs : List WireEvent) (cells : List FwCell) (s : State) : State :=
  if !s.slot31 0 then s
  else
    let m := s.cyc / 64
    let moves := ((List.range 8).filter s.awake).flatMap fun p =>
      (s.cellTiles p).flatMap fun x => (List.range 5).filterMap fun out => s.cellMove p m x.1 x.2.1 x.2.2 out
    (cells.foldl s.sendCell (moves.foldl (fun a v => a.moveCell evs v) s)).slotDone

/-! ### Maintenance traffic (R167–R169) -/

/-- A maintenance word of a KIND as it arrives, changed by the wire: its payload is left out, since parity is linear. -/
def maintWord (kind : BitVec 3) (mask : Link) : Link := mkWord (1#1 ++ kind ++ 0#27) 0 ^^^ mask

/-- Such a word passes the checks of its consumer (R158). -/
def maintOk (kind : BitVec 3) (w : Link) : Bool := w.parOk && w.valid && decide (w.kind = kind.toNat)

/-- Words that one row of a column has to couch (R447). -/
def rowWords (row : Nat) : Nat := if tileType row = 3 then 65536 else if tileType row = 1 then 4096 else 1

/-- The couch of a sheet in one slot: each row copies its next word, or recopies its first dirty word (R167, R168, R448). -/
def State.couchSlot (s : State) (evs : List WireEvent) (sh : Nat) : State :=
  let x := s.sheet sh
  match x.dwell, x.rove with
  | some d, some pc =>
    if d.phase ≠ .couchIn ∨ d.target.isNone then s
    else
      let rows := (List.range 16).filter fun r =>
        if d.couched.isNone then decide (d.words < rowWords r) else x.dirty.any fun w => decide (w / 65536 = r)
      let came := rows.map fun r =>
        let i := tileIx sh pc r
        let port := s.couchPort sh d pc r
        (i, port, maintWord 2#3 (flipOf evs i port))
      let s0 := came.foldl (fun a y => a.flit y.1 y.2.1 y.2.2) s
      match came.find? fun y => !maintOk 2#3 y.2.2 with
      | some (i, port, w) => (s0.couchFault i port w).modSheet sh fun y => { y with dwell := none, dwellDue := some d.kind, dirty := [] }
      | none =>
        if d.couched.isNone then
          s0.modSheet sh fun y => { y with
            dwell := some { d with words := d.words + 1 }
            tstat := y.tstat.modify pc fun t => { t with zeroised := false, copied := BitVec.ofNat 16 (unbits ((List.range 16).filter fun r => rowWords r ≤ d.words + 1)) } }
        else s0.modSheet sh fun y => { y with
          dirty := (List.range 16).flatMap fun r => (y.dirty.filter fun w => w / 65536 = r).drop 1 }
  | _, _ => s

/-- The last cell of a snapshot is in: the tile's latest snapshot, and QMAX of every unit whose last COUNTERS is no later than the snapshot (R171,
R173). -/
def State.snapArrived (s : State) (i : Nat) (x : Tlm) (at' : Nat) : State :=
  let s1 := s.modTile i fun t => { t with sending := none, snap := { x with qmax := List.zipWith max x.qmax t.snap.qmax } }
  { s1 with qmaxes := s1.qmaxes.map fun e =>
      if at' < e.at' then e else { e with top := e.top.set i (List.zipWith max x.qmax (e.top.getD i (List.replicate 7 0))) } }

/-- The telemetry cell of a column in one slot (R158, R169, R171): the snapshot nearest T00 moves on; one whose word fails its checks is
discarded. -/
def State.tlmSlot (s : State) (evs : List WireEvent) (sh pc : Nat) : State :=
  match (List.range 16).find? fun r => (s.tile (tileIx sh pc r)).sending.isSome with
  | none => s
  | some r =>
    let i := tileIx sh pc r
    let mask (k : Nat) : Link := ((List.range r).filter (k ≤ ·)).foldl (fun m y => m ^^^ flipOf evs (tileIx sh pc y) 1) 0
    let s1 := (List.range r).foldl (fun a k => a.flit (tileIx sh pc k) 1 (maintWord 3#3 (mask k))) s
    if !maintOk 3#3 (maintWord 3#3 (mask 0)) then (s1.modTile i fun t => { t with sending := none }).parErr (tileIx sh pc 0)
    else match (s.tile i).sending with
      | none => s1
      | some (x, n, at') =>
        if 1 < n then s1.modTile i fun t => { t with sending := some (x, n - 1, at') }
        else s1.snapArrived i x at'

/-- Self-test control words flow south in the spare's column, one in every slot of their class while phase 1 runs (DESIGN CHOICE, log entry 51).
One that fails its checks ends the dwell without a result, and it is repeated (R158). -/
def State.testSlot (s : State) (evs : List WireEvent) (sh : Nat) : State :=
  let x := s.sheet sh
  match x.dwell, x.rove with
  | some d, some pc =>
    let phase1 := decide (d.phase ≠ .couchIn ∧ d.phase ≠ .inStep)
    if !phase1 then s
    else
      let came := (rangeFrom 1 15).map fun r => (tileIx sh pc r, maintWord 4#3 (flipOf evs (tileIx sh pc r) 0))
      let s1 := came.foldl (fun a y => a.flit y.1 0 y.2) s
      match came.find? fun y => !maintOk 4#3 y.2 with
      | some y => (s1.parErr y.1).modSheet sh fun z => { z with dwell := none, dwellDue := some d.kind }
      | none => s1
  | _, _ => s

/-- MAINTENANCE_SLOT (R167): in slot 31 of an odd frame couch words move on horizontal links, telemetry or self-test control on vertical ones. -/
def maintenanceSlot (evs : List WireEvent) (s : State) : State :=
  if !s.slot31 1 then s
  else
    let shs := ((List.range 8).filter s.awake).flatMap sheetsOfPt
    let s1 := shs.foldl (fun a n => a.couchSlot evs n) s
    let s2 := if s.cyc / 64 % 2 = 0 then shs.foldl (fun a n => (List.range 18).foldl (fun b pc => b.tlmSlot evs n pc) a) s1
      else shs.foldl (fun a n => a.testSlot evs n) s1
    s2.slotDone

/-! ### Arms -/

/-- MESSAGE_PLANE_SLOT. -/
def execMessagePlaneSlot (x : PlaneSlot) (s : State) : Host.Outcome State Fault Refusal :=
  nextOf s (messagePlaneSlot x.evs x.cells s)
/-- MAINTENANCE_SLOT. -/
def execMaintenanceSlot (evs : List WireEvent) (s : State) : Host.Outcome State Fault Refusal := nextOf s (maintenanceSlot evs s)

end Sys2Proof.Machine
end

