-- ==== Sys2Proof/Machine/Dwell.lean ====
section
/-!
DEFINITION. Rolling self-test: the dwell of the roving spare, its tests, repairs and moves (R73–R79, R429–R452, R465–R467, R493–R494), and
scan access through the ZEROISED interlock (R437).
-/
namespace Sys2Proof.Machine

/-! ### Plans -/

/-- The spare's next move (R77), or a stay at its position when SPARE_CROSSING is IDLE, a context is bound and no rollback is at hand (R79). -/
def State.plan (s : State) (sh : Nat) (rollback : Bool) : Nat × Bool × MoveKind :=
  let x := s.sheet sh
  let r := x.rove.getD 0
  let n := x.nextMove r x.down
  if n.2.2 ≠ .mapReload ∨ s.settingNat 0x01 ≠ 1 ∨ (s.holderOfSheet sh).isNone ∨ rollback then n
  else
    let o := x.nextMove r (!x.down)
    if o.2.2 = .plain then o else (r, x.down, .mapReload)

/-- The position from which a WATCHED column is steered to: the nearest legal one within span 2, the lower on a tie (R433, R493). -/
def Sheet.steerPos (x : Sheet) (col : Nat) : Option Nat :=
  let y : Sheet := { x with rove := none }
  let ok (p : Nat) : Option Nat := if y.legal p then some p else none
  let low (d : Nat) : Option Nat := if d ≤ col then ok (col - d) else none
  (((low 1).orElse fun _ => ok (col + 1)).orElse fun _ => low 2).orElse fun _ => ok (col + 2)

/-- The first WATCHED column that can be steered to, with its position (R493). -/
def Sheet.firstSteer (x : Sheet) : Option (Nat × Nat) :=
  if x.health ≠ 0 then none else x.watched.findSome? fun c => (x.steerPos c).map fun p => (c, p)

/-! ### Phase 1 -/

/-- Where a record about a physical column points. -/
def State.colAt (s : State) (sh pc : Nat) : ErrAt := { handle := s.handleOf (.pcol sh pc), loc := locOf sh pc 0xFF, pt := some (ptOfSheet sh) }

/-- DWELL_START (R429, R431–R433, R476): the dwell that is due begins with zeroise, the spare isolated; a partition in
Idle returns to Run for it (R674). -/
def dwellStart (sh : Nat) (key1 key2 : W64) (s : State) : State :=
  let x := s.sheet sh
  match x.dwellDue, x.rove with
  | some kind, some pc =>
    let pt := s.pt (ptOfSheet sh)
    if x.health ≠ 0 ∨ (pt.pwr ≠ .run ∧ pt.pwr ≠ .idle) ∨ pt.faulted ∨ s.dies.ct1Lost ∨ x.dwell.isSome ∨ key1.toNat < 2 ∨ key2.toNat < 2 then s
    else
      let n := s.plan sh false
      let t := match kind with
        | .sweep => dwellTarget x pc n
        | .inspect => none
        | .steered col _ => x.map.findIdx? (· = some col)
      let d : Dwell := {
        kind := kind, start := s.clk.life, phase := .zeroise, pos := pc, target := t, tphys := t.bind fun k => x.map.getD k none, next := n.2.2
        couched := none, words := 0, catching := none, inStep := false, refusals := 0, abandoned := false, fails := []
        key1 := key1, key2 := key2, mismatched := false }
      ((s.unidle (ptOfSheet sh)).modSheet sh fun y => { y with
        dwell := some d, dwellDue := none, dirty := []
        tstat := y.tstat.modify pc fun (t : TStat) => { t with isolated := true, scanEn := false, copied := 0 } }).sheetCount sh 0x0B01 1
  | _, _ => s

/-- A phase of the dwell on `sh` follows, with what else TSTAT shows. -/
def State.nextPhase (s : State) (sh : Nat) (d : Dwell) (p : Phase) (scan : Bool) : State :=
  s.modSheet sh fun y => { y with
    dwell := some { d with phase := p, phaseAt := s.clk.life }
    tstat := y.tstat.modify d.pos fun (t : TStat) => { t with scanEn := scan, isolated := decide (p ≠ .couchIn) } }

/-- ZEROISE_DONE (R434–R436). `refused` says that the BIST engine's request for SCAN_EN was refused: a first refusal restarts the timeline, a
second abandons the dwell to the next installation point, which with no context bound is now. -/
def zeroiseDone (sh : Nat) (refused : Bool) (cond : BistCond) (s : State) : State :=
  match (s.sheet sh).dwell with
  | none => s
  | some d =>
    if d.phase ≠ .zeroise ∨ d.abandoned then s
    else if refused then
      let s1 := s.modSheet sh fun y => { y with
        dwell := some { d with refusals := d.refusals + 1, start := s.clk.life, abandoned := decide (1 ≤ d.refusals) }
        tstat := y.tstat.modify d.pos fun (t : TStat) => { t with trip := true, scanEn := false } }
      let s2 := (s1.sheetCount sh 0x0B06 1).logErr 0x0303 (s.colAt sh d.pos)
        (bistRecord s sh d.pos 0xFF 3 4 cond (if d.kind = .inspect then 3 else 0) 0 0)
      if 1 ≤ d.refusals ∧ (s.holderOfSheet sh).isNone then s2.installPoint true sh else s2
    else
      let s1 := (List.range 16).foldl (fun a r => a.modTile (tileIx sh d.pos r) fun t => { t.physical {} with wm1 := 0, wm2 := 0 }) s
      (s1.nextPhase sh d .march false).modSheet sh fun y => { y with
        tstat := y.tstat.modify d.pos fun (t : TStat) => { t with zeroised := true, trip := false } }

/-- MARCH_DONE (R444): what failed waits for the repair interval, and scan is enabled for BIST. -/
def marchDone (sh : Nat) (fails : List BistFail) (_cond : BistCond) (s : State) : State :=
  match (s.sheet sh).dwell with
  | some d =>
    if d.phase ≠ .march ∨ d.abandoned then s
    else s.nextPhase sh { d with fails := d.fails ++ fails.filter fun f => decide (f.kind.val = 2) } .logic true
  | none => s

/-- Failures of the spare that nothing repairs are recorded and condemn it: a spare retires at once (R443, R445, R464). -/
def State.condemnSpare (s : State) (sh : Nat) (d : Dwell) (bad : List BistFail) (cond : BistCond) : State :=
  let s1 := bad.foldl (fun a f => a.bistFail sh d.pos f cond (if d.kind = .inspect then 3 else 0)) s
  s1.retire sh [(d.pos, testCause ((bad.head?.map fun f => f.kind.val).getD 0))]

/-- The 4,096 patterns have run and signatures have been compared (R439, R440, R442, R443): a difference in one MAC row of an M-tile waits for repair,
any other condemns the column. -/
def State.bistDone (s : State) (sh kind : Nat) (at' next : Phase) (scan : Bool) (fails : List BistFail) (cond : BistCond) : State :=
  match (s.sheet sh).dwell with
  | some d =>
    if d.phase ≠ at' ∨ d.abandoned then s
    else
      let l := fails.filter fun f => decide (f.kind.val = kind) && isFailure f
      let bad := l.filter fun f => !inMacRow f
      let t := s.ranBist sh d.pos kind 4096 l
      if bad.isEmpty then t.nextPhase sh { d with fails := d.fails ++ l } next scan else t.condemnSpare sh d bad cond
  | none => s

/-- LOGIC_BIST_DONE (R439, R440, R442, R443). -/
def logicBistDone (sh : Nat) (fails : List BistFail) (cond : BistCond) (s : State) : State := s.bistDone sh 0 .logic .margin true fails cond

/-- MARGIN_BIST_DONE (R441, R443). -/
def marginBistDone (sh : Nat) (fails : List BistFail) (cond : BistCond) (s : State) : State := s.bistDone sh 1 .margin .repair false fails cond

/-! ### Soft repair (R445, R446) -/

/-- Repair a failure where a spare is free (R442, R445): the state, and the failures that no spare covers. -/
def State.repairOne (s : State) (sh pc : Nat) (f : BistFail) : State × List BistFail :=
  if s.canRepair sh pc f then (s.softRepair sh pc f, []) else (s, [f])

/-- The rows of a tile marked under R446: each takes a spare row, and is logged as not recorded where none is free. -/
def State.repairMarked (s : State) (sh pc row : Nat) : State :=
  let i := tileIx sh pc row
  let kind := if tileType row = 3 then 1 else 3
  let size := if tileType row = 3 then 2048 else 512
  ((s.tile i).marked.foldl (fun a w =>
    let key := spareKey kind (w / size)
    let used := (a.tile i).spares.getD key 0
    let detail := w / size * 2 ^ 24 + used % 256 * 2 ^ 16 + w % size
    if used < spareLimit kind then
      ((a.modTile i fun t => { t with spares := t.spares.set key (used + 1) }).addRepair kind 6 (locOf sh pc row) detail).sheetCount sh 0x0B07 1
    else a.logErr 0x030A (a.colAt sh pc) (le 1 kind ++ le 1 6 ++ le 2 0 ++ le 4 (locOf sh pc row) ++ le 4 detail ++ le 4 a.lifeH)) s).modTile i fun t =>
      { t with marked := [], ceRows := t.ceRows.filter fun e => !t.marked.contains e.1 }

/-- SOFT_REPAIR (R445, R446, R433): spares are switched in, tests rerun, and phase 1 ends; an INSPECT dwell then waits for its installation
point. -/
def softRepair (sh : Nat) (rerunFails : List BistFail) (cond : BistCond) (s : State) : State :=
  match (s.sheet sh).dwell with
  | none => s
  | some d =>
    if d.phase ≠ .repair ∨ d.abandoned then s
    else
      let r := d.fails.foldl (fun (a : State × List BistFail) f =>
        let b := a.1.repairOne sh d.pos f
        (b.1, a.2 ++ b.2)) (s, [])
      let s1 := (List.range 16).foldl (fun a row => a.repairMarked sh d.pos row) r.1
      let s2 := s1.sheetCount sh 0x0B02 1
      let bad := r.2 ++ rerunFails
      if !bad.isEmpty then s2.condemnSpare sh d bad cond
      else s2.nextPhase sh { d with fails := [] } (if d.kind = .inspect then .idle else .couchIn) false

/-! ### Couch-in and the move -/

/-- COUCH_IN_DONE (R448–R450): every word is copied. With no context bound the catch-up is made now. -/
def couchInDone (sh : Nat) (s : State) : State :=
  match (s.sheet sh).dwell with
  | none => s
  | some d =>
    if d.phase ≠ .couchIn ∨ d.couched.isSome ∨ d.target.isNone then s
    else
      let s1 := s.modSheet sh fun y => { y with
        dwell := some { d with couched := some s.clk.life, words := 65536 }
        tstat := y.tstat.modify d.pos fun (t : TStat) => { t with zeroised := false, copied := 0xFFFF } }
      if (s.holderOfSheet sh).isNone then s1.beginCatchup sh else s1

/-- The sheet stands at an installation point for a move of a kind (R71, R430, R452): with no context bound, always; else at a calender point,
after the decision. A plain move is not made at a rollback, and after the hold of the point none is. A map reload waits for firmware (R520). -/
def State.canInstall (s : State) (sh : Nat) (kind : MoveKind) : Bool :=
  match s.holderOfSheet sh with
  | none => true
  | some c =>
    let x := s.ctx c
    let firmware := !(decide (kind = .mapReload) && s.mgmt.restart.isSome)
    firmware && match x.hold with
      | .until _ | .catchup _ => x.commitHold
      | .prologue _ => (s.proCycle c).isNone && (x.commitHold || (decide (kind ≠ .plain) && x.active))
      | .stopped => x.commitHold && decide (s.clk.life < x.calAt + 1280)
      | _ => false

/-- The spare takes a position (R76): the map is installed, live columns take their places, the dwell ends and another is due. -/
def State.takePosition (s : State) (sh pos : Nat) (down : Bool) (whole : Bool) (kind : DwellKind) : State :=
  let t := s.modSheet sh fun x => { install { x with rove := some pos, down := down } with
    dwell := none, dwellDue := some kind, dirty := []
    tstat := x.tstat.modify (x.rove.getD 18) fun (t : TStat) => { trip := t.trip } }
  t.moveCols s whole sh

/-- A map reload of a bound sheet (R76, R78, R452): catch-ups of the context are not needed, and its reload prologue runs, or is due before its
next RUN. -/
def State.reloadPrologue (s : State) (sh : Nat) : State :=
  match s.holderOfSheet sh with
  | none => s
  | some c =>
    let x := s.ctx c
    let s1 := (x.held.flatMap sheetsOfPt).foldl (fun a n => a.modSheet n fun y => { y with
      dwell := y.dwell.map fun (d : Dwell) => { d with catching := none } }) s
    match x.hold, x.prog with
    | .stopped, _ => s1.modCtx c fun y => { y with proAgain := true }
    | _, some g => s1.beginPrologue c g
    | _, none => s1

/-- The spare goes to a position by a map reload, or stays where it already is. -/
def State.reloadTo (s : State) (sh pos : Nat) (down : Bool) (kind : DwellKind) : State :=
  if (s.sheet sh).rove = some pos then
    s.modSheet sh fun x => { x with dwell := none, dwellDue := some kind, down := down, dirty := [] }
  else (s.takePosition sh pos down false kind).reloadPrologue sh

/-- The end of a SWEEP dwell (R77, R79, R433, R493): steering to a WATCHED column comes first, else the next position. -/
def State.sweepMove (s : State) (sh : Nat) (d : Dwell) : State :=
  let x := s.sheet sh
  let r := d.pos
  match x.firstSteer with
  | some (col, p) =>
    if s.canInstall sh .mapReload then
      (s.modSheet sh fun y => { y with before := some (r, x.down) }).reloadTo sh p x.down (.steered col 0)
    else s
  | none =>
    let rollback := match s.holderOfSheet sh with
      | some c => !(s.ctx c).commitHold
      | none => false
    let n := s.plan sh rollback
    if !s.canInstall sh n.2.2 then s
    else match n.2.2 with
      | .plain =>
        if d.mismatched ∧ (s.holderOfSheet sh).isSome then s
        else if d.tphys = some n.1 then s.takePosition sh n.1 n.2.1 true .sweep
        else s.modSheet sh fun y => { y with dwell := none, dwellDue := some .sweep, down := n.2.1, dirty := [] }
      | .labelSwap =>
        s.modSheet sh fun y => { install { y with rove := some n.1, stand := some (33 - n.1), down := n.2.1 } with
          dwell := none, dwellDue := some .sweep, dirty := [] }
      | .mapReload => s.reloadTo sh n.1 n.2.1 .sweep

/-- The end of an INSPECT dwell (R433): a map reload returns the column to service and steering begins; without a position near it the spare goes
back to where it was, or to where R729 puts it. -/
def State.inspectMove (s : State) (sh : Nat) : State :=
  let x := s.sheet sh
  if !s.canInstall sh .mapReload then s
  else match x.firstSteer with
    | some (col, p) => s.reloadTo sh p x.down (.steered col 0)
    | none =>
      let b := x.before.getD (x.rove.getD 0, x.down)
      let y : Sheet := placeSpares { x with rove := some b.1, down := b.2 }
      (s.modSheet sh fun z => { z with before := none }).reloadTo sh (y.rove.getD b.1) y.down .sweep

/-- The end of a STEERED dwell (R433, R494): counted, a dwell with a record against its target starts the count again, and after ten in a row
WATCHED clears. -/
def State.steeredMove (s : State) (sh col done : Nat) (against : Bool) : State :=
  if !s.canInstall sh .mapReload then s
  else
    let s1 := s.sheetCount sh 0x0C05 1
    let n := if against then 0 else done + 1
    if n < 10 then s1.modSheet sh fun y => { y with dwell := none, dwellDue := some (.steered col n), dirty := [] }
    else
      let s2 := s1.modSheet sh fun y => { y with watched := y.watched.filter (· ≠ col) }
      let x := s2.sheet sh
      match x.firstSteer with
      | some (c2, p) => s2.reloadTo sh p x.down (.steered c2 0)
      | none => s2.modSheet sh fun y => { y with
          dwell := none, dwellDue := some .sweep, down := (x.before.map (·.2)).getD x.down, before := none, dirty := [] }

/-- Cycles of a dwell, 96 ms (R10, R430). -/
def dwellCyc : Nat := 172800000

/-- The dwell may end: the spare is in step and 96 ms have passed (R430). -/
def State.moveDue (s : State) (d : Dwell) : Bool := d.inStep && decide (d.start + dwellCyc ≤ s.clk.life)

/-- The S-tile accumulators are compared at the move when no context is bound (R475): what differs is the event's. -/
def State.moveEvents (s : State) (sh : Nat) (evs : List CalEvent) : State :=
  match (s.sheet sh).dwell with
  | none => s
  | some d =>
    if (s.holderOfSheet sh).isSome ∨ !s.moveDue d then s
    else evs.foldl (fun a e => match e with
      | .progress _ _ => a
      | .shadowWm x row diff temp mv act => if x.val = sh then a.wmDiffers sh ⟨2, row.val, 7, 0xFF, diff, temp, mv, act.toNat⟩ else a) s

/-- SPARE_MOVE (R430, R433, R76): at an installation point, 96 ms after the start of the dwell and after the catch-up, or after phase 1 of an
INSPECT dwell; with no context bound the accumulators are compared first (R475). -/
def spareMove (sh : Nat) (evs : List CalEvent) (s0 : State) : State :=
  let s := s0.moveEvents sh evs
  match (s.sheet sh).dwell with
  | none => s
  | some d =>
    let due := s.moveDue d
    match d.kind with
    | .inspect => if d.phase = .idle then s.inspectMove sh else s
    | .sweep => if due then s.sweepMove sh d else s
    | .steered col n => if due then s.steeredMove sh col n d.against else s

/-! ### Scan access from outside (R437, R621) -/

/-- EXTERNAL_TEST_SCAN_ACCESS (R437): in external test mode, a column's scan is enabled only while it is zeroised and isolated; else the request
is refused and TRIP sets. -/
def externalTestScanAccess (sh pc : Nat) (scan : Bool) (s : State) : State :=
  if !s.mgmt.testMode then s
  else
    let t := (s.sheet sh).tstat.getD pc {}
    let good := t.zeroised && t.isolated
    let s1 := s.modSheet sh fun y => { y with
      tstat := y.tstat.modify pc fun (u : TStat) => { u with scanEn := scan && good, trip := u.trip || (scan && !good) } }
    if scan && !good then
      (s1.sheetCount sh 0x0B06 1).logErr 0x0303 (s.colAt sh pc) (bistRecord s sh pc 0xFF 3 4 ⟨0, 0⟩ 0 0 0)
    else s1

/-! ### Arms -/

/-- DWELL_START. -/
def execDwellStart (sh : Sh) (key1 key2 : W64) (s : State) : Host.Outcome State Fault Refusal := nextOf s (dwellStart sh key1 key2 s)
/-- ZEROISE_DONE. -/
def execZeroiseDone (sh : Sh) (refused : Bool) (cond : BistCond) (s : State) : Host.Outcome State Fault Refusal := nextOf s (zeroiseDone sh refused cond s)
/-- MARCH_DONE. -/
def execMarchDone (sh : Sh) (fails : List BistFail) (cond : BistCond) (s : State) : Host.Outcome State Fault Refusal :=
  nextOf s (marchDone sh fails cond s)
/-- LOGIC_BIST_DONE. -/
def execLogicBistDone (sh : Sh) (fails : List BistFail) (cond : BistCond) (s : State) : Host.Outcome State Fault Refusal :=
  nextOf s (logicBistDone sh fails cond s)
/-- MARGIN_BIST_DONE. -/
def execMarginBistDone (sh : Sh) (fails : List BistFail) (cond : BistCond) (s : State) : Host.Outcome State Fault Refusal :=
  nextOf s (marginBistDone sh fails cond s)
/-- SOFT_REPAIR. -/
def execSoftRepair (sh : Sh) (rerunFails : List BistFail) (cond : BistCond) (s : State) : Host.Outcome State Fault Refusal :=
  nextOf s (softRepair sh rerunFails cond s)
/-- COUCH_IN_DONE. -/
def execCouchInDone (sh : Sh) (s : State) : Host.Outcome State Fault Refusal := nextOf s (couchInDone sh s)
/-- SPARE_MOVE. -/
def execSpareMove (x : SheetPoint) (s : State) : Host.Outcome State Fault Refusal := nextOf s (spareMove x.sh x.evs s)
/-- EXTERNAL_TEST_SCAN_ACCESS. -/
def execExternalTestScanAccess (sh : Sh) (pc : Pc) (scan : Bool) (s : State) : Host.Outcome State Fault Refusal :=
  nextOf s (externalTestScanAccess sh pc scan s)

end Sys2Proof.Machine
end

