-- ==== Sys2Proof/Machine/Messages.lean ====
section
/-!
DEFINITION. Messages, sessions and sync objects (R354–R401), and the host attachment (R280–R283, R291, R296, R366–R374, R387): RX_BIND to
SYNC_OP_ADD, MESSAGE_COPY_DECIDED to BACKGROUND_OP_FINISHED, BUS_MASTER_ENABLE_CLEAR and CXL_LINK_TRAINING.
-/
namespace Sys2Proof.Machine

/-! ### Binding rings (R354–R358, R379) -/

/-- Bytes of an endpoint's bounce ring in cells (R356). -/
def Endpoint.bounceCells (e : Endpoint) : Nat := 8 * e.out + 16

/-- Write bytes of a ring or control line: into the pool, or to the host. -/
def State.ringWrite (s : State) (inPool : Bool) (a : Nat) (b : List Byte) : State :=
  if inPool then s.poolWrite a b else s.hostPut a b

/-- A ring in the host pool cannot be reached (R367). -/
def State.poolDown (s : State) : Bool := s.poolChans.any fun h => (s.pt (ptOfChan h)).inReset

/-- A ring's memory cannot be reached: in the pool during a reset, in host memory while bus-master enable is 0 (R367). -/
def State.unreachable (s : State) (e : Endpoint) : Bool := if e.inPool then s.poolDown else !s.host.busMaster

/-- A handle that context `c` may bind rings to (R354). -/
def State.mayBind (s : State) (c : Nat) (u : UnitRef) : Bool :=
  let set := ((s.ctx c).alloc.map (·.pts)).getD []
  match u with
  | .ctx d => decide (c = d)
  | .pt p => set.contains p
  | .sheet n | .lcol n _ | .ltile n _ _ => set.contains (ptOfSheet n)
  | _ => false

/-- The first field of an RX_BIND outside its limits (R356). -/
def State.bindBad (s : State) (e : Entry) : Option Nat :=
  let role := e.fld 0x1C 1
  let loc := e.fld 0x1D 1
  let acc := e.fld 0x1E 1
  let vec := e.fld 0x1F 1
  let base := e.fld 0x20 8
  let ctl := e.fld 0x28 8
  let cells := e.fld 0x30 4
  let out := e.fld 0x34 1
  let bou := e.fld 0x38 8
  let pool (a n : Nat) : Bool := decide (loc = 0) || decide (a + n ≤ s.poolLen)
  if 4 < role then some 0x1C
  else if 1 < loc then some 0x1D
  else if 1 < acc ∨ (role ≠ 0 ∧ acc ≠ 0) then some 0x1E
  else if vec = 1 ∨ 127 < vec then some 0x1F
  else if !(rangeFrom 4 13).any (fun k => decide (cells = 2 ^ k)) then some 0x30
  else if base % 64 ≠ 0 ∨ !pool base (64 * cells) then some 0x20
  else if ctl % 256 ≠ 0 ∨ !pool ctl 256 then some 0x28
  else if 64 < out ∨ (role ≠ 0 ∧ out ≠ 0) then some 0x34
  else if bou % 64 ≠ 0 ∨ (out = 0 ∧ bou ≠ 0) ∨ (out ≠ 0 ∧ !pool bou (64 * (8 * out + 16))) then some 0x38
  else none

/-- RX_BIND (R354–R358). -/
def rxBind (c q : Nat) (n : W32) (s : State) : State :=
  let k := qix 1 q
  match s.entryAt c k n 0x13 with
  | none => s
  | some e =>
    let h := e.fld 0x18 4
    let role := e.fld 0x1C 1
    match s.bindBad e with
    | some o => s.setOutcome c k n (failed invalid { arg := o })
    | none =>
      match s.unitOf h with
      | none => s.setOutcome c k n (failed notFound { arg := 0x18, handle := h })
      | some u =>
        let isCtx : Bool := match u with
          | .ctx _ => true
          | _ => false
        if !s.mayBind c u ∨ (role ≠ 0 ∧ !isCtx) then s.setOutcome c k n (failed invalid { arg := 0x18, handle := h })
        else if s.ends.any fun x => decide (x.handle = h ∧ x.role = role) then s.setOutcome c k n (failed conflict { handle := h })
        else
          let x : Endpoint := {
            handle := h, role := role, ctx := c, inPool := decide (e.fld 0x1D 1 = 1), acceptAll := decide (e.fld 0x1E 1 = 1)
            vector := e.fld 0x1F 1, base := e.fld 0x20 8, ctl := e.fld 0x28 8, cells := e.fld 0x30 4, out := e.fld 0x34 1
            bounce := e.fld 0x38 8 }
          if s.unreachable x then s
          else
            let s1 := { s with ends := s.ends ++ [x] }
            let s2 := (s1.ringWrite x.inPool x.ctl (zeros 64)).ringWrite x.inPool (x.ctl + 0x40) (le 4 0 ++ le 4 1)
            ((s2.ringWrite x.inPool (x.ctl + 0x80) (zeros 64)).ringWrite x.inPool (x.ctl + 0xC0) (le 4 0)).setOutcome c k n { status := ok }

/-- RX_UNBIND (R379): it waits for the SENDs that use the endpoint. -/
def rxUnbind (c q : Nat) (n : W32) (s : State) : State :=
  let k := qix 1 q
  match s.entryAt c k n 0x14 with
  | none => s
  | some e =>
    let h := e.fld 0x18 4
    let role := e.fld 0x1C 1
    if 4 < role then s.setOutcome c k n (failed invalid { arg := 0x1C })
    else if !(s.ends.any fun x => decide (x.handle = h ∧ x.role = role ∧ x.ctx = c)) then s.setOutcome c k n (failed notFound { arg := 0x18, handle := h })
    else if role = 0 ∧ (rangeFrom 4 4).any (fun j => (s.queue c j).ents.any fun z =>
        decide (z.opcode = 0x15) && z.started && z.outcome.isNone && decide (z.fld 0x18 4 = h)) then s
    else ({ s with ends := s.ends.filter fun x => !decide (x.handle = h ∧ x.role = role) }).setOutcome c k n { status := ok }

/-! ### SEND (R363, R364, R376) -/

/-- Change the endpoint of a handle and role. -/
def State.modEnd (s : State) (h role : Nat) (f : Endpoint → Endpoint) : State :=
  { s with ends := s.ends.map fun x => if x.handle = h ∧ x.role = role then f x else x }

/-- Earlier-started entries of a context of one opcode for which `sel` holds and `ready` does not (R372, R388). -/
def State.earlier (s : State) (c : Nat) (e : Entry) (op : Nat) (sel : Entry → Bool) : Bool :=
  (rangeFrom 4 4).any fun j => (s.queue c j).ents.any fun z =>
    decide (z.opcode = op) && z.started && z.outcome.isNone && decide (z.ord < e.ord) && z.marks.isEmpty && sel z

/-- The started SEND ends in error: the credits it took return (R364). -/
def State.sendFails (s : State) (c k : Nat) (n : W32) (e : Entry) (d : Done) : State :=
  match s.senderOf c (e.fld 0x18 4) with
  | some p =>
    let t := e.targets.length
    (if p.out < t ∨ 64 < t then s else s.modEnd p.handle p.role fun y => { y with inUse := y.inUse - t }).setOutcome c k n d
  | none => s.setOutcome c k n d

/-- SEND: the payload has been read; the copies go to the delivery logic in target order (R363, R364, R372, R376). The mark (128, false) says
that they have gone. -/
def send (c q : Nat) (n : W32) (src : ReadResult) (s : State) : State :=
  let k := qix 1 q
  match s.entryAt c k n 0x15 with
  | none => s
  | some e =>
    let plen := e.fld 0x24 2
    let dest := e.fld 0x1C 4
    let from' := e.fld 0x18 4
    let t := e.targets.length
    let fail (d : Done) : State := s.sendFails c k n e d
    if 496 < plen then fail (failed invalid { arg := 0x24 })
    else match s.senderOf c from' with
      | none => fail (failed invalid { arg := 0x18, handle := from' })
      | some p =>
        match s.unitOf dest with
        | none => fail (failed notFound { arg := 0x1C, handle := dest })
        | some u =>
          let isJob : Bool := match u with
            | .job _ => true
            | _ => false
          let isGroup : Bool := match u with
            | .group _ => true
            | _ => false
          if isJob ∨ 64 < t ∨ p.out < t then fail (failed invalid { arg := 0x1C, handle := dest })
          else if !e.marks.isEmpty ∨ (0 < plen ∧ !s.host.busMaster) ∨ s.earlier c e 0x15 (fun z => decide (z.fld 0x18 4 = from')) then s
          else
            let body : Option (List Byte) := if plen = 0 then some [] else match src with
              | .data d => some d
              | _ => none
            match body with
            | none => fail (failed integrity)
            | some d =>
              if d.length ≠ plen then s
              else
                let mk (i : Nat) : Copy :=
                  let h := e.targets.getD i 0
                  { target := h, role := 0, src := c, from' := some from'
                    cells := msgCells (s.fresh + i * padOf plen) 1 c (if isGroup then 1 else 0) h (e.fld 0x20 4) d
                    plen := plen, entry := some (k, n, i), session := none, calender := none }
                let s1 := ({ (List.range t).foldl (fun (a : State) i => a.copyArrives (mk i)) s with fresh := s.fresh + t * padOf plen }).ctxCount c 0x0901 t
                if t = 0 then s1.setOutcome c k n { status := ok }
                else s1.modEntry c k n fun z => { z with marks := [(128, false)] }

/-! ### Sessions (R382–R391) -/

/-- The way that a miss on `tag` replaces: the least recently used of its set, once all 16 are taken (R390). -/
def State.victim (s : State) (tag : Nat) : Option CacheWay :=
  let mine := s.cache.filter fun w => decide (w.tag % 4096 = tag % 4096)
  if 16 ≤ mine.length then mine.getLast? else none

/-- A lookup of a session tag: none while it must wait for PT0, else the state with the cache and its counters brought up to date. A miss writes the
way it replaces to the table if it has changed, and wakes the channel it reads (R277, R381, R390, R391). -/
def State.lookup (s : State) (tag : Nat) : Option State :=
  match s.cache.find? fun w => decide (w.tag = tag) with
  | some w => some ({ s with cache := w :: s.cache.filter fun x => decide (x.tag ≠ tag) }.modCount 0x0910 1)
  | none =>
    if (s.pt 0).inReset then none
    else
      let s1 := match s.victim tag with
        | some v => { s with cache := s.cache.filter (fun x => decide (x.tag ≠ v.tag)), sessions := writeBack [v] s.sessions }
        | none => s
      let s2 := { s1 with cache := { tag := tag, entry := s1.sessions.getD tag {}, changed := false } :: s1.cache }
      let s3 := if (s.pt 0).pwr = .off then s2.wakeChans [(chansOfPt 0).getD (Config.sessionChan tag % 6) 0] else s2
      some (s3.modCount 0x0911 1)

/-- The 64 B of a session table entry (R383). -/
def sessionBytes (x : Session) : List Byte :=
  le 1 (if x.isOpen then 1 else 0) ++ le 1 x.owner ++ le 1 x.ctx ++ le 1 x.engine ++ le 4 x.gen.toNat ++ le 8 x.reqSeq.toNat
    ++ le 8 x.delivered.toNat ++ le 8 x.bounced.toNat ++ le 8 x.openCycle ++ le 8 x.lastCycle ++ padTo 16 x.user

/-- A REQUEST entry of an operation that can go on: RFLAGS[1:0] (R384); none while one before it in its queue waits for PT0 (R391). -/
def State.requestAt (s : State) (c k : Nat) (n : W32) (op : Nat) : Option Entry :=
  match s.entryAt c k n 0x16 with
  | some e =>
    if e.fld 0x1A 1 % 4 = op ∧ !s.missAhead ((s.queue c k).ents.takeWhile fun z => decide (z.n ≠ n)) then some e else none
  | none => none

/-- The destination fields of a REQUEST are in range (R21, R384): the first that is not. -/
def destBad (e : Entry) : Option Nat := if 63 < e.fld 0x18 1 then some 0x18 else if 3 < e.fld 0x19 1 then some 0x19 else none

/-- REQUEST OPEN (R385). -/
def requestOpen (c q : Nat) (n : W32) (src : ReadResult) (s : State) : State :=
  let k := qix 1 q
  match s.requestAt c k n 1 with
  | none => s
  | some e =>
    let tag := e.fld 0x1C 4
    let d := e.fld 0x18 1
    let g := e.fld 0x19 1
    if e.fld 0x28 4 ≠ 16 then s.setOutcome c k n (failed invalid { arg := 0x28 })
    else if let some o := destBad e then s.setOutcome c k n (failed invalid { arg := o })
    else if !s.host.busMaster then s
    else match s.lookup tag with
      | none => s
      | some t =>
        if (t.session tag).isOpen then t.setOutcome c k n (failed conflict)
        else if (t.ctx d).st = .free then t.setOutcome c k n (failed notFound { arg := 0x18 })
        else match src with
          | .data b =>
            if b.length ≠ 16 then s
            else
              let x : Session := {
                isOpen := true, owner := c, ctx := d, engine := g, gen := (t.session tag).gen + 1, openCycle := t.cyc
                lastCycle := (t.session tag).lastCycle, user := b }
              ((t.putSession tag x).modCount 0x0912 1).setOutcome c k n { status := ok, result := 16 }
          | _ => t.setOutcome c k n (failed integrity)

/-- REQUEST SUBMIT (R385, R386, R388): the mark says that its message has gone to the delivery logic. -/
def requestSubmit (c q : Nat) (n : W32) (src : ReadResult) (s : State) : State :=
  let k := qix 1 q
  match s.requestAt c k n 0 with
  | none => s
  | some e =>
    let tag := e.fld 0x1C 4
    let len := e.fld 0x28 4
    let same (z : Entry) : Bool := decide (z.fld 0x1A 1 % 4 = 0) && decide (z.fld 0x1C 4 = tag)
    if 464 < len then s.setOutcome c k n (failed invalid { arg := 0x28 })
    else if !e.marks.isEmpty ∨ (0 < len ∧ !s.host.busMaster) ∨ s.earlier c e 0x16 same then s
    else match s.lookup tag with
      | none => s
      | some t =>
        let x := t.session tag
        if !x.isOpen then t.setOutcome c k n (failed conflict)
        else if x.owner ≠ c then t.setOutcome c k n (failed denied)
        else if e.fld 0x18 1 ≠ x.ctx then t.setOutcome c k n (failed invalid { arg := 0x18 })
        else if e.fld 0x19 1 ≠ x.engine then t.setOutcome c k n (failed invalid { arg := 0x19 })
        else
          let body : Option (List Byte) := if len = 0 then some [] else match src with
            | .data b => some b
            | _ => none
          match body with
          | none => t.setOutcome c k n (failed integrity)
          | some b =>
            if b.length ≠ len then s
            else
              let y := { x with reqSeq := x.reqSeq + 1, lastCycle := t.cyc }
              let pay := le 4 tag ++ le 4 y.gen.toNat ++ le 8 y.reqSeq.toNat ++ padTo 16 y.user ++ b
              let h := t.handleOf (.ctx y.ctx)
              let m : Copy := {
                target := h, role := y.engine + 1, src := c, from' := none, cells := msgCells t.fresh 3 c 0 h (e.fld 4 4) pay
                plen := pay.length, entry := some (k, n, 0), session := some tag, calender := none }
              let t1 := t.putSession tag y
              ({ t1.copyArrives m with fresh := t1.fresh + padOf pay.length }).modEntry c k n fun z => { z with marks := [(128, false)] }

/-- REQUEST CLOSE (R385): it waits for the earlier SUBMITs of the session. -/
def requestClose (c q : Nat) (n : W32) (s : State) : State :=
  let k := qix 1 q
  match s.requestAt c k n 2 with
  | none => s
  | some e =>
    let tag := e.fld 0x1C 4
    if let some o := destBad e then s.setOutcome c k n (failed invalid { arg := o })
    else match s.lookup tag with
    | none => s
    | some t =>
      let x := t.session tag
      let same (z : Entry) : Bool := decide (z.fld 0x1A 1 % 4 = 0) && decide (z.fld 0x1C 4 = tag)
      if !x.isOpen then t.setOutcome c k n (failed conflict)
      else if x.owner ≠ c then t.setOutcome c k n (failed denied)
      else if s.copies.any (·.session = some tag) ∨ s.earlier c e 0x16 same then s
      else ((t.putSession tag { x with isOpen := false }).modCount 0x0913 1).setOutcome c k n { status := ok }

/-- REQUEST QUERY (R385). -/
def requestQuery (c q : Nat) (n : W32) (s : State) : State :=
  let k := qix 1 q
  match s.requestAt c k n 3 with
  | none => s
  | some e =>
    let tag := e.fld 0x1C 4
    if e.fld 0x28 4 ≠ 64 then s.setOutcome c k n (failed invalid { arg := 0x28 })
    else if let some o := destBad e then s.setOutcome c k n (failed invalid { arg := o })
    else if !s.host.busMaster then s
    else match s.lookup tag with
      | none => s
      | some t =>
        let x := t.session tag
        if x.isOpen ∧ x.owner ≠ c then t.setOutcome c k n (failed denied)
        else (t.hostPut (e.fld 0x20 8) (sessionBytes x)).setOutcome c k n { status := ok, result := 64 }

/-! ### Sync objects (R397–R401) -/

/-- SYNC_BIND (R397–R399): a counter imported while its owner is suspended is SUSPENDED from the start (R413). -/
def syncBind (c q : Nat) (n : W32) (s : State) : State :=
  let k := qix 1 q
  match s.entryAt c k n 0x17 with
  | none => s
  | some e =>
    let id := e.fld 0x18 2
    let mode := e.fld 0x1A 1
    let p := e.fld 0x1B 1
    let own := e.fld 0x1C 1
    let set := ((s.ctx c).alloc.map (·.pts)).getD []
    let put (t : State) (x : SyncEnt) : State := (t.modCtx c fun y => { y with sync := y.sync.set id x }).setOutcome c k n { status := ok }
    if 1 < mode then s.setOutcome c k n (failed invalid { arg := 0x1A })
    else if mode = 0 then
      if !set.contains p then s.setOutcome c k n (failed invalid { arg := 0x1B })
      else if (s.syncEnt c id).isSome then s.setOutcome c k n (failed conflict)
      else match (List.range 16384).find? fun i => ((s.pt p).counters.get? i).isNone with
        | none => s.setOutcome c k n (failed noResource)
        | some i =>
          put (s.modPt p fun y => { y with counters := y.counters.set i (BitVec.ofNat 32 (e.fld 0x20 4)) })
            { st := 1, owned := true, owner := c, pt := p, index := i, allow := BitVec.ofNat 64 (e.fld 0x28 8) }
    else if 63 < own then s.setOutcome c k n (failed invalid { arg := 0x1C })
    else match s.syncEnt own (e.fld 0x1E 2) with
      | some t =>
        if t.st ≠ 1 ∨ !t.owned then s.setOutcome c k n (failed notFound { arg := 0x1E })
        else if !t.allow.getLsbD c then s.setOutcome c k n (failed denied)
        else if (s.syncEnt c id).isSome then s.setOutcome c k n (failed conflict)
        else put s { st := if (s.ctx own).parked then 3 else 1, owned := false, owner := own, pt := t.pt, index := t.index }
      | none => s.setOutcome c k n (failed notFound { arg := 0x1E })

/-- SYNC_UNBIND (R399, R400). -/
def syncUnbind (c q : Nat) (n : W32) (s : State) : State :=
  let k := qix 1 q
  match s.entryAt c k n 0x18 with
  | none => s
  | some e =>
    let id := e.fld 0x18 2
    match s.syncEnt c id with
    | none => s.setOutcome c k n (failed notFound { arg := 0x18 })
    | some t =>
      let named : Bool := match (s.ctx c).prog with
        | some g => g.syncIds.contains id
        | none => false
      if named then s.setOutcome c k n (failed conflict { kind := 2, state := ctxCode (s.ctx c).st })
      else
        let s1 := if t.owned then (if t.st = 2 then s else s.releaseCounter t.pt t.index) else s.orphanWaits c fun i => decide (i = id)
        (s1.modCtx c fun y => { y with sync := y.sync.erase id }).setOutcome c k n { status := ok }

/-- SYNC_OP READ, and an OP of neither kind (R401). -/
def syncOpRead (c q : Nat) (n : W32) (s : State) : State :=
  let k := qix 1 q
  match s.entryAt c k n 0x19 with
  | none => s
  | some e =>
    let op := e.fld 0x1A 1
    if op = 1 then s
    else if 1 < op then s.setOutcome c k n (failed invalid { arg := 0x1A })
    else match s.syncEnt c (e.fld 0x18 2) with
      | none => s.setOutcome c k n (failed notFound { arg := 0x18 })
      | some t =>
        if t.st = 2 then s.setOutcome c k n (failed orphaned)
        else s.setOutcome c k n { status := ok, result := (s.syncVal t).toNat, detail := padTo 16 (le 4 (syncWord (some t))) }

/-- SYNC_OP ADD (R395, R401, R407, R408). -/
def syncOpAdd (c q : Nat) (n : W32) (s : State) : State :=
  let k := qix 1 q
  match s.entryAt c k n 0x19 with
  | none => s
  | some e =>
    let v := e.fld 0x1C 4
    if e.fld 0x1A 1 ≠ 1 then s
    else if v < 1 ∨ 2 ^ 31 ≤ v then s.setOutcome c k n (failed invalid { arg := 0x1C })
    else match s.syncEnt c (e.fld 0x18 2) with
      | none => s.setOutcome c k n (failed notFound { arg := 0x18 })
      | some t =>
        if t.st = 2 then (s.setOutcome c k n (failed orphaned)).ctxCount c 0x0A03 1
        else if s.addWaits c k t then s
        else
          let a := s.engineAdd c k t (BitVec.ofNat 32 v)
          a.2.setOutcome c k n (if a.1 then { status := ok } else { status := degraded, reason := 0x10 })

/-! ### Delivery (R366–R374, R387) -/

/-- A word of a control line: read from the pool, or as observed by the event. -/
def State.ctlWord (s : State) (e : Endpoint) (off : Nat) (o : W32) : W32 := if e.inPool then BitVec.ofNat 32 (unle (s.pool.read (e.ctl + off) 4)) else o

/-- The module reads a host-side control line: through CXL.cache for LOC 0 (R281, R357). -/
def State.readCtl (s : State) (e : Endpoint) (off : Nat) : State := if e.inPool then s else s.cacheLine (e.ctl + off)

/-- BRD passes bounced copies: their credits return (R364). -/
def Endpoint.consume (e : Endpoint) (brd : W32) : Endpoint := { e with brd := brd, unconsumed := e.unconsumed.filter fun v => !reached brd v }

/-- The error record of an endpoint's ring (R374). -/
def State.ringRecord (s : State) (e : Endpoint) : State :=
  s.logErr 0x0404 { handle := e.handle, ctx := some e.ctx } (le 4 e.handle ++ le 1 e.role ++ le 3 0)

/-- An endpoint is disabled, with its error record (R374). -/
def State.ringError (s : State) (e : Endpoint) : State := (s.modEnd e.handle e.role fun y => { y with disabled := true }).ringRecord e

/-- Write a message into a ring of `cells` cells from count `w`: the first cell after any PAD. Its PAD cells take free values beyond the header
(R359, R366, R368). -/
def State.putCells (s : State) (inPool : Bool) (base cells : Nat) (w : W32) (pad : Nat) (m : List (List Byte)) : State :=
  let at' (i : Nat) : Nat := base + 64 * ((w.toNat + i) % max 1 cells)
  let s1 := if pad = 0 then s
    else
      let body := [2, BitVec.ofNat 8 pad] ++ zeros 14 ++ (List.range (64 * pad - 16)).map fun i => Config.freeByte (s.fresh + i)
      { (s.ringWrite inPool (at' 0) body) with fresh := s.fresh + (64 * pad - 16) }
  (List.range m.length).foldl (fun a i => a.ringWrite inPool (at' (pad + i)) (m.getD i [])) s1

/-- How a copy of `l` cells fits a ring of `cells` cells (R359, R366): the PAD cells before it, or none. -/
def fitRing (cells : Nat) (w rd : W32) (l : Nat) : Option Nat :=
  let tail := cells - w.toNat % max 1 cells
  let free := cells - (w - rd).toNat
  if l ≤ tail ∧ l ≤ free then some 0 else if tail < l ∧ tail + l ≤ free then some tail else none

/-- What the delivery logic decides for a copy (R366, R374): the bounce cause and whether the ring is to be disabled, or the PAD cells. -/
inductive Decision where
  | bounce (cause : Nat) (broken : Bool)
  | place (pad : Nat)
  deriving DecidableEq, Repr

/-- The ring that a copy is decided against. -/
def State.copyRing (s : State) (m : Copy) : Option Endpoint := s.ends.find? fun e => decide (e.handle = m.target ∧ e.role = m.role)

/-- The decision on a copy (R360, R366, R367, R374). -/
def State.decideCopy (s : State) (m : Copy) (o : RingObs) : Decision :=
  match s.copyRing m with
  | none => .bounce 2 false
  | some e =>
    let rd := s.ctlWord e 0x40 o.rd
    if e.disabled then .bounce 4 false
    else if m.src ≠ e.ctx ∧ !e.acceptAll ∧ m.role = 0 then .bounce 3 false
    else if e.inPool ∧ s.poolDown then .bounce 5 false
    else if e.cells < (e.wr - rd).toNat then .bounce 4 true
    else match fitRing e.cells e.wr rd m.cells.length with
      | some pad => if o.writeOk then .place pad else .bounce 4 true
      | none => .bounce 1 false

/-- The sender's endpoint of a copy. -/
def State.copySender (s : State) (m : Copy) : Option Endpoint :=
  m.from'.bind fun h => s.ends.find? fun e => decide (e.handle = h ∧ e.role = 0 ∧ e.ctx = m.src)

/-- A copy's decision must wait: every one for a ring in host memory while bus-master enable is 0, and none for a ring in the pool; with no ring bound,
the bounce ring of its sender stands for it (DEDUCED, log entry 54). Firmware messages wait during a firmware restart (R367, R520). -/
def State.deferred (s : State) (m : Copy) : Bool :=
  (!s.host.busMaster && (match (s.copyRing m).orElse fun _ => s.copySender m with
    | some x => !x.inPool
    | none => false))
  || (decide (m.src = 64) && s.mgmt.restart.isSome)

/-- The first copy that can be decided: none before it for its ring waits, nor one of its sender (R371, R372). -/
def State.nextCopy (s : State) : Option Nat :=
  (List.range s.copies.length).find? fun i =>
    match s.copies[i]? with
    | none => false
    | some m => !s.deferred m && (s.copies.take i).all fun x =>
        !(decide (x.target = m.target) && decide (x.role = m.role))

/-- The entry that waits on a copy hears its outcome: `some true` delivered, `some false` bounced, none discarded (R377, R387). -/
def State.copyOutcome (s : State) (m : Copy) (r : Option Bool) (cause : Nat) : State :=
  match m.entry with
  | none => match m.calender with
    | some c => if r = some true then s else s.ctxCount c 0x0A05 1
    | none => s
  | some (k, n, i) =>
    match m.session with
    | some tag =>
      let x := s.session tag
      if r = some true then
        (s.putSession tag { x with delivered := x.delivered + 1 }).setOutcome m.src k n { status := ok, result := m.plen - 32 }
      else (s.putSession tag { x with bounced := x.bounced + 1 }).setOutcome m.src k n (failed noResource { extra := cause })
    | none =>
      let s1 := s.modEntry m.src k n fun z => { z with marks := z.marks ++ [(if r.isNone then 64 + i else i, decide (r = some true))] }
      match (s1.queue m.src k).entry? n with
      | none => s1
      | some z =>
        let got := z.marks.filter (·.1 ≠ 128)
        let t := z.targets.length
        if got.length < t then s1
        else
          let del := (got.filter (·.2)).map (·.1)
          let bou := (got.filter fun (g : Nat × Bool) => !g.2 && decide (g.1 < 64)).map (·.1)
          let det := le 8 (unbits del) ++ le 8 (unbits bou)
          let d : Done :=
            if del.length = t then { status := ok, result := m.plen * t, detail := det }
            else if del.isEmpty then failed noResource { extra := t }
            else { status := degraded, result := m.plen * del.length, detail := det }
          s1.setOutcome m.src k n d

/-- BRD of an endpoint is read: credits return for the copies it passes; a BRD too far behind BWR is a ring error (R360, R364). -/
def State.readBrd (s : State) (e : Endpoint) (o : RingObs) : State :=
  let brd := s.ctlWord e 0xC0 o.brd
  let s1 := s.readCtl e 0xC0
  if e.bounceCells < (e.bwr - brd).toNat then (if e.disabled then s1 else s1.ringError e) else s1.modEnd e.handle e.role fun y => y.consume brd

/-- A bounced copy goes into its sender's bounce ring, be the sender's endpoint disabled or not (R364, R373, R374): whether it was kept, and the
state. One that cannot be written is discarded and logged, its credit returned. -/
def State.bounceCopy (s : State) (m : Copy) (p : Endpoint) (cause : Nat) (o : RingObs) : Bool × State :=
  let s0 := s.modEnd p.handle p.role fun y => { y with inUse := y.inUse - 1 }
  if s.unreachable p then (false, s0.ringRecord p)
  else
    let brd := s.ctlWord p 0xC0 o.brd
    let s1 := s0.readBrd p o
    if p.bounceCells < (p.bwr - brd).toNat then (false, if p.disabled then s1.ringRecord p else s1)
    else if !o.bounceOk then (false, s1.ringRecord p)
    else match fitRing p.bounceCells p.bwr brd m.cells.length with
      | none => (false, s1.ringRecord p)
      | some pad =>
        let head := (m.cells.headD []).mapIdx fun i b => if i = 5 then b ||| 2 else if i = 6 then BitVec.ofNat 8 cause else b
        let bwr : W32 := p.bwr + BitVec.ofNat 32 (pad + m.cells.length)
        let s2 := s1.putCells p.inPool p.bounce p.bounceCells p.bwr pad (head :: m.cells.drop 1)
        let s3 := s2.ringWrite p.inPool (p.ctl + 0x80) (le 4 bwr.toNat ++ zeros 60)
        (true, s3.modEnd p.handle p.role fun y => { y with bwr := bwr, unconsumed := y.unconsumed ++ [bwr] })

/-- With nothing to decide, BRD of one endpoint that has copies in its bounce ring is looked at again, each endpoint that can be reached in turn
(R364, R367; log entry 24). -/
def State.lookBrd (s : State) (o : RingObs) : State :=
  match s.ends.find? fun e => !e.unconsumed.isEmpty && !s.unreachable e with
  | none => s
  | some e =>
    let t := s.readBrd e o
    let mine (x : Endpoint) : Bool := decide (x.handle = e.handle ∧ x.role = e.role)
    { t with ends := (t.ends.filter fun x => !mine x) ++ t.ends.filter mine }

/-- The decision was taken from RD (R366): the line that holds it has been read. -/
def Decision.reads : Decision → Bool
  | .bounce cause broken => decide (cause = 1) || broken
  | .place _ => true

/-- MESSAGE_COPY_DECIDED (R366–R374, R377, R381, R387, R424). -/
def messageCopyDecided (o : RingObs) (s : State) : State :=
  if s.dies.ct0Lost then s
  else match s.nextCopy with
  | none => s.lookBrd o
  | some i =>
    match s.copies[i]? with
    | none => s
    | some m =>
      let d := s.decideCopy m o
      let ring := s.copyRing m
      let s' := { s with copies := s.copies.eraseIdx i }
      let s0 := match ring with
        | some e => if d.reads then s'.readCtl e 0x40 else s'
        | none => s'
      match d, ring with
      | .place pad, some e =>
        let irq := s.ctlWord e 0x44 o.irqAt
        let l := pad + m.cells.length
        let wr : W32 := e.wr + BitVec.ofNat 32 l
        let sent := e.irqSent && decide (irq = e.irqAt) && !o.rearmed
        let fire := !sent && reached wr irq
        let s1 := s0.putCells e.inPool e.base e.cells e.wr pad m.cells
        let s2 := s1.ringWrite e.inPool e.ctl (le 4 wr.toNat ++ le 4 e.bounces.toNat ++ zeros 56)
        let s3 := s2.modEnd e.handle e.role fun y => { y with wr := wr, rd := s.ctlWord e 0x40 o.rd, irqAt := irq, irqSent := sent || fire }
        let s4 := if fire ∧ e.vector ≠ 0 then s3.msix e.vector else s3
        let s5 := (s4.ctxCount e.ctx 0x0902 1).ctxCount e.ctx 0x0904 pad
        let s6 := match s.copySender m with
          | some p => s5.modEnd p.handle p.role fun y => { y with inUse := y.inUse - 1 }
          | none => s5
        s6.copyOutcome m (some true) 0
      | .bounce cause broken, r =>
        let s1 := match r with
          | some e => if broken then s0.ringError e else s0
          | none => s0
        let s2 := match r with
          | some e =>
            let t := s1.modEnd e.handle e.role fun y => { y with bounces := y.bounces + 1 }
            if cause = 5 then t else t.ringWrite e.inPool e.ctl (le 4 e.wr.toNat ++ le 4 (e.bounces + 1).toNat ++ zeros 56)
          | none => s1
        match s2.copySender m with
        | some p =>
          let b := s2.bounceCopy m p cause o
          let s3 := if b.1 then b.2.ctxCount m.src 0x0903 1 else b.2
          s3.copyOutcome m (if b.1 then some false else none) cause
        | none => s2.copyOutcome m (some false) cause
      | _, none => s

/-! ### The host attachment (R279–R283, R291, R296) -/

/-- BUS_MASTER_ENABLE_SET (R283, R367). -/
def busMasterSet (s : State) : State := if s.hostOn then { s with host := { s.host with busMaster := true } } else s
/-- BUS_MASTER_ENABLE_CLEAR (R283, R367). -/
def busMasterClear (s : State) : State := if s.hostOn then { s with host := { s.host with busMaster := false } } else s

/-- The host may hold a line of the pool from here (R279; log entry 53). -/
def State.hostHolds (s : State) (line : Nat) : State :=
  { s with host := { s.host with hostLines := s.host.hostLines.filter (· ≠ line) ++ [line] } }

/-- CXL_MEM_READ of one line of the pool (R237, R270, R277, R282). -/
def cxlMemRead (a : Nat) (flips : List DramFlip) (s0 : State) : State :=
  let s := s0.decay flips
  let line := a / 64 * 64
  let ch := s.poolChan line
  let off := s.poolOff line
  if !s.hostOn ∨ s.start.stage ≠ 0xA then s
  else
    let s1 := s.wakeChans [ch]
    if (s.pt (ptOfChan ch)).inReset ∨ (s.chan ch).broke then s1.emit (.cxlPoison line)
    else
      let s2 := s1.engineEcc ch off (s.wordEcc ch off)
      match s.wordEcc ch off with
      | .uncorrectable | .tagError => s2.emit (.cxlPoison line)
      | _ => (s2.emit (.cxlData line (s.pool.read line 64))).hostHolds line

/-- CXL_MEM_WRITE of one line of the pool (R282). A write to a channel under reset is held until the reset ends (R277); no read sees the line
before then. -/
def cxlMemWrite (a : Nat) (data : BitVec 512) (s : State) : State :=
  let line := a / 64 * 64
  if !s.hostOn ∨ s.start.stage ≠ 0xA then s
  else ({ s with host := { s.host with hostLines := s.host.hostLines.filter (· ≠ line) } } : State).poolWrite line (le 64 data.toNat)

/-- FUNCTION_LEVEL_RESET, or a conventional reset (R283, R333), which is ignored until start-up reaches stage 7 (R718). -/
def functionLevelReset (s : State) : State :=
  let h := s.host
  if s.start.stage < 6 then s
  else
  let s1 := { s with host := { h with
    msixTable := msixReset, mask := 0, busMaster := false, owner := if h.owner = .host then .free else h.owner, devCache := [] } }
  (List.range 64).foldl (fun a c => (List.range 16).foldl (fun b k =>
    if (b.queue c k).enabled ∧ !(b.queue c k).stopped then b.stopQueue c k 1 else b) a) s1

/-- LOCK_IDLE_EXPIRED (R296, R614): the lock of either master; a PLDM update keeps the one it took (R630). -/
def lockIdleExpired (s : State) : State :=
  if s.host.owner ≠ .free ∧ s.settingNat 0x06 ≠ 0 ∧ !(s.mgmt.pldm && decide (s.host.owner = .sideband)) then { s with host := { s.host with owner := .free } } else s

/-- BACKGROUND_OP_FINISHED (R291): an operation whose work is done reports its outcome. -/
def backgroundOpFinished (op : Nat) (s : State) : State :=
  match s.op? op with
  | some o => match o.ready with
    | some r => if s.mgmt.restart.isSome then s else s.finishOp op r.1 r.2
    | none => s
  | none => s

/-- CXL_LINK_TRAINING (R279, R280): a width, rate or flit mode outside R279 fails training. -/
def cxlLinkTraining (up : Bool) (rate width : Nat) (flit68 : Bool) (s : State) : State :=
  if s.start.pwr = .m3 ∨ s.dies.ct0Lost ∨ (s.start.stage < 6 ∧ s.mgmt.fw ≠ .recovery) then s
  else
    let good := up && (decide (rate = 64) && !flit68 || decide (rate = 32)) && (decide (width = 8) || decide (width = 4))
    { s with host := { s.host with
        linkUp := good, rate := if good then rate else s.host.rate, width := if good then width else s.host.width
        flit68 := if good then flit68 else s.host.flit68 } }

/-! ### Arms -/

/-- RX_BIND. -/
def execRxBind (c : Ctx) (q : Qn) (n : W32) (s : State) : Host.Outcome State Fault Refusal := nextOf s (rxBind c q n s)
/-- RX_UNBIND. -/
def execRxUnbind (c : Ctx) (q : Qn) (n : W32) (s : State) : Host.Outcome State Fault Refusal := nextOf s (rxUnbind c q n s)
/-- SEND. -/
def execSend (c : Ctx) (q : Qn) (n : W32) (src : ReadResult) (s : State) : Host.Outcome State Fault Refusal := nextOf s (send c q n src s)
/-- REQUEST_OPEN. -/
def execRequestOpen (c : Ctx) (q : Qn) (n : W32) (src : ReadResult) (s : State) : Host.Outcome State Fault Refusal := nextOf s (requestOpen c q n src s)
/-- REQUEST_SUBMIT. -/
def execRequestSubmit (c : Ctx) (q : Qn) (n : W32) (src : ReadResult) (s : State) : Host.Outcome State Fault Refusal :=
  nextOf s (requestSubmit c q n src s)
/-- REQUEST_CLOSE. -/
def execRequestClose (c : Ctx) (q : Qn) (n : W32) (s : State) : Host.Outcome State Fault Refusal := nextOf s (requestClose c q n s)
/-- REQUEST_QUERY. -/
def execRequestQuery (c : Ctx) (q : Qn) (n : W32) (s : State) : Host.Outcome State Fault Refusal := nextOf s (requestQuery c q n s)
/-- SYNC_BIND. -/
def execSyncBind (c : Ctx) (q : Qn) (n : W32) (s : State) : Host.Outcome State Fault Refusal := nextOf s (syncBind c q n s)
/-- SYNC_UNBIND. -/
def execSyncUnbind (c : Ctx) (q : Qn) (n : W32) (s : State) : Host.Outcome State Fault Refusal := nextOf s (syncUnbind c q n s)
/-- SYNC_OP_READ. -/
def execSyncOpRead (c : Ctx) (q : Qn) (n : W32) (s : State) : Host.Outcome State Fault Refusal := nextOf s (syncOpRead c q n s)
/-- SYNC_OP_ADD. -/
def execSyncOpAdd (c : Ctx) (q : Qn) (n : W32) (s : State) : Host.Outcome State Fault Refusal := nextOf s (syncOpAdd c q n s)
/-- MESSAGE_COPY_DECIDED. -/
def execMessageCopyDecided (o : RingObs) (s : State) : Host.Outcome State Fault Refusal := nextOf s (messageCopyDecided o s)
/-- BUS_MASTER_ENABLE_SET. -/
def execBusMasterEnableSet (s : State) : Host.Outcome State Fault Refusal := nextOf s (busMasterSet s)
/-- CXL_MEM_READ: the HDM decoder spans the pool (R282). -/
def execCxlMemRead (addr : W64) (flips : List DramFlip) (s : State) : Host.Outcome State Fault Refusal :=
  if s.poolLen ≤ addr.toNat then .fault (.outsideWindow addr.toNat) else nextOf s (cxlMemRead addr.toNat flips s)
/-- CXL_MEM_WRITE: the HDM decoder spans the pool (R282). -/
def execCxlMemWrite (addr : W64) (data : BitVec 512) (s : State) : Host.Outcome State Fault Refusal :=
  if s.poolLen ≤ addr.toNat then .fault (.outsideWindow addr.toNat) else nextOf s (cxlMemWrite addr.toNat data s)
/-- FUNCTION_LEVEL_RESET. -/
def execFunctionLevelReset (s : State) : Host.Outcome State Fault Refusal := nextOf s (functionLevelReset s)
/-- LOCK_IDLE_EXPIRED. -/
def execLockIdleExpired (s : State) : Host.Outcome State Fault Refusal := nextOf s (lockIdleExpired s)
/-- BACKGROUND_OP_FINISHED. -/
def execBackgroundOpFinished (op : W32) (s : State) : Host.Outcome State Fault Refusal := nextOf s (backgroundOpFinished op.toNat s)
/-- BUS_MASTER_ENABLE_CLEAR. -/
def execBusMasterEnableClear (s : State) : Host.Outcome State Fault Refusal := nextOf s (busMasterClear s)
/-- CXL_LINK_TRAINING. -/
def execCxlLinkTraining (up : Bool) (rate : Nat) (x : CxlMode) (s : State) : Host.Outcome State Fault Refusal :=
  nextOf s (cxlLinkTraining up rate x.width x.flit68 s)

end Sys2Proof.Machine
end

