-- ==== Sys2Proof/Machine/Reel.lean ====
section
/-!
DEFINITION. The Reel cartridge (R647–R666): REEL_INFO to REEL_OP_FINISHED, and the Reel's events.
-/
namespace Sys2Proof.Machine

/-! ### Reporting -/

/-- FLAGS of REEL_INFO (R664). -/
def Reel.flags (r : Reel) : Nat :=
  (if r.latch then 1 else 0) + (if r.authentic then 2 else 0) + (if r.lifeWarn then 4 else 0) + (if r.writeStop then 8 else 0)
    + (if r.linkReduced then 16 else 0)

/-- REMAIN (R660). -/
def remain (pu written : Nat) : Nat := 100 - max (min pu 100) (min 100 (100 * written / 28000000000000000))

/-- First block and blocks of an area, zero with no cartridge (R653, R664). -/
def areaLba (r : Reel) (code : Nat) : List RByte :=
  let a := reelArea r code
  if r.nlba = 0 then fld 8 0 ++ fld 8 0 else fld 8 (a.1 / 4096) ++ fld 8 (a.2 / 4096)

/-- REEL_INFO (R664). -/
def mbReelInfo : MbFun := fun _ p s => checked 0 [] p s fun _ =>
  let r := s.reel
  (s, okResp (fld 1 (reelCode r.st) ++ fld 1 r.flags ++ fld 1 r.cause ++ fld 1 (remain r.pu r.written) ++ fld 1 r.pu ++ rsvd 3
    ++ fld 8 r.written ++ fld 8 r.nlba ++ areaLba r 1 ++ areaLba r 2 ++ areaLba r 3 ++ areaLba r 4
    ++ fld 20 r.serial.toNat ++ fld 8 r.fwrev.toNat ++ rsvd 4 ++ fld 64 r.chain.toNat))

/-- The Reel takes a state, which is logged (R650, R666). -/
def State.setReel (s : State) (st : ReelState) (cause : Nat) : State :=
  let t := { s with reel := { s.reel with st := st, cause := cause } }
  if s.reel.st = st then t else t.logErr 0x040B {} (le 1 (reelCode s.reel.st) ++ le 1 (reelCode st) ++ le 1 cause ++ le 1 t.reel.flags)

/-- Write to the Reel and first block of an access (R342). -/
def State.accessOf (s : State) (x : Nat × Nat × W32) : Bool × Nat :=
  match (s.queue x.1 x.2.1).entry? x.2.2 with
  | none => (false, 0)
  | some e =>
    let w := decide (e.opcode = 0x12) || decide (e.fld 0x19 1 = 3)
    let a := if w then e.fld 0x28 8 else e.fld 0x20 8
    (w, ((reelArea s.reel (a / 2 ^ 60)).1 + a % 2 ^ 60) / 4096)

/-- A dump is being written to the Reel (R529, R656). -/
def State.dumpOnReel (s : State) : Bool := match s.dumping with
  | some d => decide (d.target = 1)
  | none => false

/-! ### Commands -/

/-- FW_RECOVERY_LOAD from the Reel runs (R662). -/
def State.reelLoading (s : State) : Bool := s.mgmt.commitReel && s.mgmt.commitOp.isSome

/-- A PROG_LOAD reads its container from the Reel (R656, R663). -/
def State.loadsReel (s : State) : Bool := s.ctxs.any fun x => decide (x.st = .loading) && x.load.any fun l => decide (l.1 = 2)

/-- An operation of the Reel begins (R658, R659, R662). -/
def State.beginReelOp (s : State) (id code a b : Nat) : State := { s with reel := { s.reel with ops := s.reel.ops ++ [(id, code, a, b)] } }

/-- A FORMAT or SEAL is in progress. -/
def Reel.opOf (r : Reel) (code : Nat) : Bool := r.ops.any (·.2.1 = code)

/-- REEL_EJECT (R662). -/
def mbReelEject : MbFun := fun m p s => checked 0 [] p s fun _ =>
  let r := s.reel
  if (r.st ≠ .ready ∧ r.st ≠ .unlabelled ∧ r.st ≠ .failed) ∨ s.dumpOnReel ∨ r.opOf 0xA2 ∨ r.opOf 0xA3 ∨ s.reelLoading then (s, reelConflict s)
  else background s m 0x00A1 (s.handleOf .module) fun id t => (t.beginReelOp id 0xA1 0 0).setReel .ejecting 0

/-- REEL_SEAL (R658, R661). -/
def mbReelSeal : MbFun := fun m p s => checked 16 [] p s fun _ =>
  let off := arg p 0 8
  let len := arg p 8 8
  let r := s.reel
  if off % 4096 ≠ 0 then (s, err invalid { arg := 0 })
  else if len % 4096 ≠ 0 ∨ len < 4096 ∨ 2 ^ 40 < len then (s, err invalid { arg := 8 })
  else if r.st = .ready ∧ (reelArea r 2).2 < off + len + 8192 then (s, err invalid { arg := 0 })
  else if s.mgmt.testMode then (s, testConflict)
  else if r.st ≠ .ready ∨ !r.authentic ∨ s.dies.ct1Lost then (s, reelConflict s)
  else if r.writeStop then (s, reelConflict s 1)
  else background s m 0x00A2 (s.handleOf .module) fun id t => t.beginReelOp id 0xA2 off len

/-- A WEIGHT_GIB that a cartridge of `nlba` blocks holds (R653). -/
def weightOk (nlba w : Nat) : Bool := decide (1 ≤ w ∧ 67141888 + 262144 * w + 262144 ≤ nlba)

/-- REEL_FORMAT (R659, R661). -/
def mbReelFormat : MbFun := fun m p s => checked 8 [(4, 4)] p s fun _ =>
  let r := s.reel
  let w := if arg p 0 4 = 0xFFFFFFFF then s.settingNat 0x31 else arg p 0 4
  if r.inService ∧ !weightOk r.nlba w then (s, err invalid { arg := 0 })
  else if !r.inService ∨ s.dies.ct1Lost ∨ !r.access.isEmpty ∨ s.loadsReel ∨ s.reelLoading ∨ s.dumpOnReel ∨ r.opOf 0xA2 ∨ r.opOf 0xA3 then
    (s, reelConflict s)
  else if r.writeStop then (s, reelConflict s 1)
  else background s m 0x00A3 (s.handleOf .module) fun id t => t.beginReelOp id 0xA3 w 0

/-! ### The end of an operation -/

/-- The seal block of a span (R658). -/
def State.sealBlock (s : State) (off len : Nat) : List Byte :=
  let span := s.reel.data.read ((reelArea s.reel 2).1 + off) len
  let b := le 4 0x43584245 ++ le 2 1 ++ le 2 0 ++ le 8 off ++ le 8 len ++ le 8 s.cyc ++ padTo 16 s.ident.serial ++ le 20 s.reel.serial.toNat
    ++ le 4 s.ident.idSvn ++ zeros 24 ++ sha3 span
  padTo 8192 (b ++ s.devidSign b)

/-- The label block (R654): bytes between FORMAT_CYCLE and the check word are reserved and zero. -/
def labelBlock (w nlba cyc : Nat) : List Byte :=
  let b := padTo 4092 (le 4 0x4C584245 ++ le 2 1 ++ le 2 0 ++ le 4 w ++ le 8 nlba ++ le 8 cyc)
  b ++ le 4 (crc32c b)

/-- End every access of the Reel with a status (R657, R662, R663). -/
def State.endAccesses (s : State) (st : Nat) : State :=
  s.reel.access.foldl (fun a x => a.setOutcome x.1 x.2.1 x.2.2 (failed st)) { s with reel := { s.reel with access := [] } }

/-- PROG_LOADs that read the Reel end with a status; no tile changes (R663). -/
def State.endReelLoads (s : State) (st : Nat) : State :=
  (List.range 64).foldl (fun a c => match (a.ctx c).st, (a.ctx c).load with
    | .loading, some (2, _, _) => (a.modCtx c fun y => { y with st := .bound, op := none, load := none }).finishOp? (a.ctx c).op st []
    | _, _ => a) s

/-- REEL_OP_FINISHED (R657–R659, R662). An eject ends whatever `ok` says: it waits for accesses 10 s at most. -/
def reelOpFinished (op : Nat) (good : Bool) (s : State) : State :=
  match s.reel.ops.find? (·.1 = op) with
  | none => s
  | some (_, code, a, b) =>
    let s1 := { s with reel := { s.reel with ops := s.reel.ops.filter fun x => decide (x.1 ≠ op) } }
    if code = 0xA1 then (((s1.endAccesses timeout).endReelLoads timeout).setReel .ejected 0).finishOp op ok []
    else if !good then (s1.reelIoOpen true (if code = 0xA2 then ((reelArea s.reel 2).1 + a) / 4096 else 0)).finishOp op integrity []
    else if code = 0xA2 then
      ({ s1 with reel := { s1.reel with data := s1.reel.data.write ((reelArea s.reel 2).1 + a + b) (s.sealBlock a b) } }).finishOp op ok []
    else
      let s2 := { s1 with
        reel := { s1.reel with data := Mem.write [] 0 (labelBlock a s.reel.nlba s.cyc), weightGib := a }
        dumps := s1.dumps.filter fun (d : Dump) => decide (d.place ≠ 1) }
      (s2.setReel .ready 0).finishOp op ok []

/-! ### The latch and identification (R650–R654, R663) -/

/-- Bytes that accesses from the Reel were reading into memory are undefined (R663): they take free values. -/
def State.scrambleReads (s : State) : State :=
  s.reel.access.foldl (fun a x => match (a.queue x.1 x.2.1).entry? x.2.2 with
    | some e => if e.opcode = 0x10 ∧ e.fld 0x18 1 = 3 ∧ e.fld 0x19 1 ≠ 3 then
        let len := e.fld 0x30 8
        let b := (List.range len).map fun i => Config.freeByte (a.fresh + i)
        { (a.locWrite x.1 (e.fld 0x19 1) (e.fld 0x28 8) b) with fresh := a.fresh + len }
      else a
    | none => a) s

/-- The Reel's slot loses power: what was in progress ends with TIMEOUT, a dump goes to the next target (R663). -/
def State.reelLost (s : State) : State :=
  let ops := s.reel.ops
  let s1 := ((s.scrambleReads).endAccesses timeout).endReelLoads timeout
  let s2 := ops.foldl (fun a o => a.finishOp o.1 timeout []) { s1 with reel := { s1.reel with ops := [] } }
  if s.dumpOnReel then dumpTargetFailed s2 else s2

/-- The cartridge may have left the bay, its dumps with it (R663). -/
def State.reelOff (s : State) : State :=
  let t := s.reelLost
  { t with dumps := t.dumps.filter fun (d : Dump) => decide (d.place ≠ 1) }

/-- REEL_LATCH_OPEN (R663). -/
def reelLatchOpen (s : State) : State :=
  let r := s.reel
  let s1 := if r.st = .absent ∨ r.st = .ejected then s else s.reelOff
  State.setReel { s1 with
    reel := { ({} : Reel) with st := s1.reel.st }
    dumps := s1.dumps.filter fun (d : Dump) => decide (d.place ≠ 1) } .absent 0

/-- REEL_LATCH_CLOSE (R663). -/
def reelLatchClose (s : State) : State :=
  let s1 := { s with reel := { s.reel with latch := true } }
  if s.reel.st = .absent ∧ !s.reel.latch ∧ !s.dies.ct1Lost ∧ s.start.aux then s1.setReel .starting 0 else s1

/-- The life of a cartridge as read from its log: Percentage Used and Data Units Written (R660, R661). -/
def State.reelHealth (s : State) (pu units : Nat) (readOnly : Bool) : State :=
  let written := 512000 * units
  let rem := remain pu written
  let body := le 1 rem ++ le 1 pu ++ le 2 0 ++ le 8 written
  let warn := decide (rem ≤ 10)
  let stop := decide (rem ≤ 2) || readOnly
  let r := s.reel
  let s1 := { s with reel := { r with pu := pu, written := written, lifeWarn := warn, writeStop := stop, lowLogged := r.lowLogged || warn, polledAt := s.clk.life } }
  let s2 := if warn ∧ !r.lowLogged then s1.logErr 0x0409 {} body else s1
  if stop ∧ !r.writeStop then s2.logErr 0x040A {} body else s2

/-- WEIGHT_GIB of the label on a cartridge, if its MAGIC and check word are good (R654). -/
def labelOf (m : Mem) : Option Nat :=
  if decide (m.read 0 4 = le 4 0x4C584245) && decide (m.read 4092 4 = le 4 (crc32c (m.read 0 4092))) then some (unle (m.read 8 4)) else none

/-- REEL_STARTING_DONE (R648, R651, R652, R654). -/
def reelStartingDone (f : ReelFound) (s : State) : State :=
  if s.reel.st ≠ .starting then s
  else if !f.present then s.setReel .absent 0
  else if !f.linkOk then s.setReel .failed 1
  else
    let s1 := { s with reel := { s.reel with
      linkReduced := f.reduced, authentic := f.authentic, nlba := f.nlba, serial := f.serial, fwrev := f.fwrev
      chain := if f.authentic then f.chain else 0, data := f.content.foldl (fun (m : Mem) (e : Nat × Byte) => m.put e.1 e.2) [] } }
    if !f.lba4k ∨ f.nlba < 67666176 then s1.setReel .failed 2
    else
      let s2 := s1.reelHealth f.pu f.units f.readOnly
      match labelOf s1.reel.data with
      | some w => if weightOk f.nlba w then State.setReel { s2 with reel := { s2.reel with weightGib := w } } .ready 0 else s2.setReel .unlabelled 0
      | none => s2.setReel .unlabelled 0

/-! ### Health and accesses (R647, R656, R657, R660) -/

/-- The Reel goes out of service (R657): what is in progress ends with a status. -/
def State.reelFailed (s : State) (cause st : Nat) : State :=
  let ops := s.reel.ops
  let s1 := (s.endAccesses st).endReelLoads st
  let s2 := ops.foldl (fun a o => a.finishOp o.1 st []) { s1 with reel := { s1.reel with ops := [] } }
  let s3 := s2.setReel .failed cause
  if s.dumpOnReel then dumpTargetFailed s3 else s3

/-- REEL_HEALTH_POLL (R657, R660, R661): 60 s after the log was read last. -/
def reelHealthPoll (pu units : Nat) (readOnly critical : Bool) (s : State) : State :=
  if !s.reel.inService ∨ s.clk.life < s.reel.polledAt + 60 * cycPerSec then s
  else
    let s1 := s.reelHealth pu units readOnly
    if critical then s1.reelFailed 4 integrity else s1

/-- The first seal or format in progress ends with TIMEOUT (R657). -/
def State.endReelOp (s : State) : State :=
  match s.reel.ops.find? fun o => decide (o.2.1 ≠ 0xA1) with
  | some o => State.finishOp { s with reel := { s.reel with ops := s.reel.ops.filter fun x => decide (x.1 ≠ o.1) } } o.1 timeout []
  | none => s

/-- REEL_COMMAND_TIMEOUT (R657): the dump being written, or the access served, ends; with none, what a load, a seal or a format had begun. -/
def reelCommandTimeout (s : State) : State :=
  let r := s.reel
  if !r.inService ∧ r.st ≠ .ejecting then s
  else
    let s0 := { s with reel := { r with timeouts := r.timeouts + 1 } }
    let s1 := if s.dumpOnReel then dumpTargetFailed (s0.reelIoOpen true 33024)
      else match r.access with
        | [] => ((s0.endReelLoads timeout).endReelOp).reelIoOpen false 0
        | x :: rest =>
          let a := s.accessOf x
          (State.setOutcome { s0 with reel := { s0.reel with access := rest } } x.1 x.2.1 x.2.2 (failed timeout)).reelIoOpen a.1 a.2
    if 3 ≤ r.timeouts + 1 then s1.reelFailed 3 timeout else s1

/-- REEL_ACCESS_DONE (R647, R656, R657): the oldest access ends; data read from the Reel moves now (log entry 23). -/
def reelAccessDone (good : Bool) (nvme : Nat) (s : State) : State :=
  match s.reel.access with
  | [] => s
  | x :: rest =>
    let s1 := { s with reel := { s.reel with access := rest, timeouts := 0 } }
    let a := s.accessOf x
    if !good then (s1.setOutcome x.1 x.2.1 x.2.2 (failed integrity)).reelIoError a.1 nvme a.2
    else match (s.queue x.1 x.2.1).entry? x.2.2 with
      | none => s1
      | some e =>
        if a.1 then s1.setOutcome x.1 x.2.1 x.2.2 { status := ok, result := e.fld 0x30 8 }
        else
          let r := s1.moveData x.1 e []
          r.2.setOutcome x.1 x.2.1 x.2.2 r.1

/-! ### Arms -/

/-- REEL_INFO of the host. -/
def execReelInfo (p : Payload) (s : State) : Host.Outcome State Fault Refusal := nextOf s (hostCmd .q 0x00A0 mbReelInfo p s)
/-- REEL_EJECT of the host. -/
def execReelEject (p : Payload) (s : State) : Host.Outcome State Fault Refusal := nextOf s (hostCmd .b 0x00A1 mbReelEject p s)
/-- REEL_SEAL of the host. -/
def execReelSeal (p : Payload) (s : State) : Host.Outcome State Fault Refusal := nextOf s (hostCmd .b 0x00A2 mbReelSeal p s)
/-- REEL_FORMAT of the host. -/
def execReelFormat (p : Payload) (s : State) : Host.Outcome State Fault Refusal := nextOf s (hostCmd .b 0x00A3 mbReelFormat p s)
/-- REEL_OP_FINISHED. -/
def execReelOpFinished (op : W32) (ok : Bool) (s : State) : Host.Outcome State Fault Refusal := nextOf s (reelOpFinished op.toNat ok s)
/-- REEL_LATCH_OPEN. -/
def execReelLatchOpen (s : State) : Host.Outcome State Fault Refusal := nextOf s (reelLatchOpen s)
/-- REEL_LATCH_CLOSE. -/
def execReelLatchClose (s : State) : Host.Outcome State Fault Refusal := nextOf s (reelLatchClose s)
/-- REEL_STARTING_DONE. -/
def execReelStartingDone (f : ReelFound) (s : State) : Host.Outcome State Fault Refusal := nextOf s (reelStartingDone f s)
/-- REEL_HEALTH_POLL. -/
def execReelHealthPoll (pu units : Nat) (readOnly critical : Bool) (s : State) : Host.Outcome State Fault Refusal :=
  nextOf s (reelHealthPoll pu units readOnly critical s)
/-- REEL_COMMAND_TIMEOUT. -/
def execReelCommandTimeout (s : State) : Host.Outcome State Fault Refusal := nextOf s (reelCommandTimeout s)
/-- REEL_ACCESS_DONE. -/
def execReelAccessDone (ok : Bool) (nvme : W16) (s : State) : Host.Outcome State Fault Refusal := nextOf s (reelAccessDone ok nvme.toNat s)

end Sys2Proof.Machine
end

