-- ==== Sys2Proof/Machine/Checks.lean ====
section
/-!
DEFINITION. The replica decision and rebuild (R481–R489), the analogue checks (R455, R535), core watchdogs (R457, R515) and the heartbeat of the
control dies (R27–R30, R516).
-/
namespace Sys2Proof.Machine

/-! ### Replica decision (R484–R488) -/

/-- An armed region whose own report stands at position `pos`: the watermark of each copy in position order; none where a report is missing. -/
def Armed.wms (m : Armed) (pos : Nat) (reports : List ReplicaReport) : List (Option (BitVec 128)) :=
  (List.range m.copies).map fun p =>
    if p = pos then some (m.h2 ++ m.h1)
    else match reports.find? (·.pos = p) with
      | some r => (r.wms.find? (·.1 = m.region)).map (·.2)
      | none => none

/-- How many copies agree with `w`. -/
def votesFor (l : List (Option (BitVec 128))) (w : BitVec 128) : Nat := (l.filter (· = some w)).length

/-- The watermark that more than half of the copies agree on, where COPIES is at least 3 (R484). -/
def majority (m : Armed) (l : List (Option (BitVec 128))) : Option (BitVec 128) :=
  if m.copies < 3 then none else (l.filterMap id).find? fun w => decide (m.copies < 2 * votesFor l w)

/-- The Replica body (R501): a copy without a report has subset index 0xFF and watermark zero (log entry 28). -/
def replicaBody (job step : Nat) (m : Armed) (l : List (Option (BitVec 128))) : List Byte :=
  let known := (l.filterMap id).eraseDups
  le 8 job ++ le 1 m.region ++ le 1 m.copies ++ zeros 6 ++ le 8 step
    ++ padTo 8 (l.map fun w => match w with
      | some v => BitVec.ofNat 8 (known.idxOf v)
      | none => 0xFF#8)
    ++ l.flatMap fun w => le 16 ((w.map (·.toNat)).getD 0)

/-- A replica fault of a context: the step rolls back on every member (R484). -/
def State.replicaFault (s : State) (c : Nat) (g : Prog) (cls : Nat) (body : List Byte) (silent : Bool) : State :=
  let s1 := if silent then s.logErr 0x0501 (s.ctxAt c) body else s
  let s2 := (s1.logErr cls (s1.ctxAt c) body).ctxCount c 0x0C12 1
  (s2.modCtx c fun x => { x with replicaOk := none, armed := x.armed.map fun m => { m with want := none } }).afterReplica c g false

/-- Firmware waits at a calender point of context `c` for the reports of its replica set, before the vote of its job: JOB_ID, EPOCH, RANK, the
program and `life` when the wait began. -/
def State.replicaWaits (s : State) (c : Nat) : Option ((Nat × Nat × Nat) × Prog × Nat) :=
  match (s.ctx c).hold, (s.ctx c).prog with
  | .decide since, some g =>
    if (s.activeJob c).all (·.own.isNone) && !(s.ctx c).armed.isEmpty && !(s.ctx c).snapWait then some (s.replicaJob c, g, since) else none
  | _, _ => none

/-- Every peer of the replica set of an armed region has reported. -/
def Armed.heard (m : Armed) (pos : Nat) (reports : List ReplicaReport) : Bool :=
  (List.range m.copies).all fun p => decide (p = pos) || reports.any fun r => decide (r.pos = p)

/-- Arithmetic cycles of the wait for reports, of REPLICA_WAIT_US (R484). -/
def Context.replicaLimit (x : Context) : Nat := x.replicaWait * 1800

/-- REPLICA_REPORTS_GATHERED (R484, R485): once every peer has reported, or at the end of the wait, the decision, the first row of the table that
matches. -/
def replicaReportsGathered (c : Nat) (reports : List ReplicaReport) (s0 : State) : State :=
  match s0.replicaWaits c with
  | none => s0
  | some (j, g, since) =>
    let x := s0.ctx c
    let pos (m : Armed) : Nat := j.2.2 % max 1 m.copies
    if x.replicaOk.isSome ∨ (s0.clk.life < since + x.replicaLimit ∧ !x.armed.all fun m => m.heard (pos m) reports) then s0
    else
      let s := s0.waited c since
      let step := x.step + 1
      let l := x.armed.map fun m => (m, m.wms (pos m) reports)
      if !x.faults.isEmpty ∨ reports.any (·.rollback) then s.afterReplica c g false
      else match l.find? fun e => e.2.contains none with
        | some e => s.replicaFault c g 0x010D (replicaBody j.1 step e.1 e.2) false
        | none =>
          let apart := l.filter fun e => decide (1 < e.2.eraseDups.length)
          match apart with
          | [] => ((s.ctxCount c 0x0C10 1).modCtx c fun y => { y with replicaOk := some true }).afterReplica c g true
          | e :: _ =>
            if apart.all fun d => (majority d.1 d.2).isSome then
              s.modCtx c fun y => { y with
                replicaOk := some true, hold := .decide s.clk.life
                armed := y.armed.map fun m => match apart.find? (·.1.region = m.region) with
                  | some d =>
                    let w := (majority d.1 d.2).getD 0
                    { m with disagreed := true, want := if m.h2 ++ m.h1 = w then none else some (w.extractLsb' 0 64, w.extractLsb' 64 64) }
                  | none => m }
            else s.replicaFault c g 0x010E (replicaBody j.1 step e.1 e.2) true

/-- The working copies that this member rebuilds, in order: region, address of the working copy, index base, length, watermark wanted. -/
def State.rebuilds (s : State) (c : Nat) (g : Prog) : List (Nat × Nat × Nat × BitVec 128) :=
  let x := s.ctx c
  x.armed.filterMap fun m => m.want.map fun w =>
    let r := g.regions.getD m.region ⟨0, 0, 0, false⟩
    (if x.flips.getD m.region false then r.baseA else r.baseB, r.baseA / 8, r.len, w.2 ++ w.1)

/-- Cycles within which rebuilds finish, 100 ms (R485). -/
def rebuildCyc : Nat := 180000000

/-- A rebuild has failed or is late: the outcome is a rollback (R485). -/
def State.rebuildFault (s : State) (c : Nat) (j : Nat × Nat × Nat) (g : Prog) : State :=
  let x := s.ctx c
  let m := x.armed.headD ⟨0, 0, 0, [], false, 0, 0, none⟩
  s.replicaFault c g 0x010E (replicaBody j.1 (x.step + 1) m (m.wms (j.2.2 % max 1 m.copies) [])) false

/-- REPLICA_REBUILD_DONE (R485): the working copies come from the majority, are checked against its watermark, and all commit; later than 100 ms
from the decision they are not taken. -/
def replicaRebuildDone (c : Nat) (data : List Byte) (good : Bool) (s0 : State) : State :=
  match s0.replicaWaits c with
  | none => s0
  | some (j, g, since) =>
    let s := s0.waited c since
    let x := s.ctx c
    if x.replicaOk.isNone then s0
    else if since + rebuildCyc < s.clk.life then s.rebuildFault c j g
    else
      let keys := jobKeys j.1 j.2.1
      let l := s.rebuilds c g
      let r := l.foldl (fun (a : State × List Byte × Bool) e =>
        let b := padTo e.2.2.1 (a.2.1.take e.2.2.1)
        (a.1.ctxWrite c e.1 b, a.2.1.drop e.2.2.1, a.2.2 && decide (watermark keys.1 keys.2 (wmElems e.2.1 b) = e.2.2.2))) (s, data, true)
      if good && r.2.2 then
        let s1 := r.1.modCtx c fun y => { y with
          proAgain := y.proAgain || !l.isEmpty, armed := y.armed.map fun m => { m with want := none } }
        (if l.isEmpty then s1 else s1.ctxCount c 0x0C11 1).afterReplica c g true
      else r.1.rebuildFault c j g

/-- REPLICA_REBUILD_TIMEOUT (R485): a rebuild that has not finished within 100 ms of the decision turns the outcome into a rollback. -/
def replicaRebuildTimeout (c : Nat) (s : State) : State :=
  match s.replicaWaits c with
  | none => s
  | some (j, g, since) =>
    if (s.ctx c).replicaOk.isNone ∨ s.clk.life ≤ since + rebuildCyc then s else (s.waited c since).rebuildFault c j g

/-! ### Analogue checks (R455, R535) -/

/-- A PHY_WARN record (R500). -/
def State.phyWarn (s : State) (a : ErrAt) (kind ix lane : Nat) : State := s.logErr 0x0309 a (le 1 kind ++ le 1 ix ++ le 1 lane ++ le 1 0)

/-- A check of an LPDDR5X PHY (R455, R467): beyond its limit the channel is retrained at once with no context bound, else at the next partition
reset. A host-pool access is over when its command is. -/
def State.phyChannel (s : State) (ch : Nat) (bad : Bool) : State :=
  let p := ptOfChan ch
  if (s.chan ch).broke then s
  else
    let s1 := s.modPt p fun x => { x with phyChecks := (x.phyChecks + 1) % 2 ^ 48, phyWarn := if bad then (x.phyWarn + 1) % 2 ^ 48 else x.phyWarn }
    if !bad then s1
    else
      (s1.phyWarn { handle := s.handleOf (.pt p), ctx := s.holder p, pt := some p } 0 ch 0).modChan ch fun x =>
        if (s.holder p).isNone then { x with retrain := false, tags := x.tags.map fun t => (t.1, true) } else { x with retrain := true }

/-- A check of a fabric lane (R455, R535): an excess within 24 h after a retraining that followed an earlier one breaks the lane; the port
retrains at once where no job binds a VC on it. -/
def State.phyFabric (s : State) (p lane : Nat) (bad : Bool) : State :=
  if !bad ∨ (s.port p).broke.getLsbD lane then s
  else
    let s1 := s.phyWarn {} 1 p lane
    let s2 := match (s.port p).excess.get? lane with
      | some (t, true) => if s.clk.life < t + 24 * 3600 * cycPerSec then s1.breakLane p lane 8 else s1
      | _ => s1
    let s3 := s2.modPort p fun x => { x with excess := x.excess.set lane (s.clk.life, false), retrain := true }
    if (s3.port p).groups.all (· = 0) ∧ (s3.port p).st = .up then s3.startTraining p else s3

/-- PHY_CHECK (R455). A CXL lane's width falls only at the next link training. -/
def phyCheck (u : PhyUnit) (bad : Bool) (s : State) : State :=
  match u with
  | .channel c => s.phyChannel c bad
  | .fabric p lane => s.phyFabric p lane bad
  | .cxl lane => if bad then s.phyWarn {} 2 lane 0 else s

/-! ### Control cores and dies (R27–R30, R457, R515, R516) -/

/-- A control die is lost. -/
def Dies.lost (d : Dies) (die : Nat) : Bool := if die = 0 then d.ct0Lost else d.ct1Lost

/-- CORE_WATCHDOG_EXPIRED (R457, R515): the core is reset, its expiry counted; two cores within 1 s restart firmware. -/
def coreWatchdogExpired (core : Nat) (s : State) : State :=
  if s.dies.lost (core / 8) ∨ s.dies.coreOff.contains core ∨ s.dies.coreDown.contains core then s
  else
    let loc := (0x30 + core / 8) * 2 ^ 24 + core % 8
    let e := le 1 0x12 ++ le 1 9 ++ le 2 0 ++ le 4 loc ++ le 4 0 ++ le 4 s.lifeH
    let l := (s.dies.expiries.filter fun x => decide (s.clk.life < x.2 + 24 * 3600 * cycPerSec)) ++ [(core, s.clk.life)]
    let s1 := s.logErr 0x0306 { loc := loc } e
    let s2 := if (s.settingNat 0x05).testBit 1 then s1.startDump none 0x0306 (s1.handleOf .module) [] else s1
    let s3 := { s2 with dies := { s2.dies with expiries := l, coreDown := s2.dies.coreDown ++ [core] } }
    let s4 := if 3 ≤ (l.filter (·.1 = core)).length then s3.coreOff core 9 else s3
    if (l.any fun x => decide (x.1 ≠ core) && decide (s.clk.life ≤ x.2 + cycPerSec)) && s4.mgmt.restart.isNone then s4.beginRestart none 1 else s4

/-- CONTROL_CORE_RESTART_DONE (R515): the core serves again. -/
def controlCoreRestartDone (core : Nat) (s : State) : State :=
  { s with dies := { s.dies with coreDown := s.dies.coreDown.filter (· ≠ core) } }

/-- CONTROL_DIE_HEARTBEAT (R516). -/
def controlDieHeartbeat (s : State) : State :=
  if s.dies.ct0Lost ∨ s.dies.ct1Lost then s else { s with dies := { s.dies with beat := s.clk.life } }

/-- CT0 is lost (R27, R609): host access goes with it, and a lock held by the host becomes free. -/
def State.loseCt0 (s : State) : State :=
  { s with
    dies := { s.dies with ct0Lost := true }
    host := { s.host with linkUp := false, busy := false, spoiled := false, hostLines := [], owner := if s.host.owner = .host then .free else s.host.owner } }

/-- CT1 is lost (R27, R30): the Reel, the sideband and the dump engine go; rolling test stops, each spare staying isolated where it is. -/
def State.loseCt1 (s : State) : State :=
  let s1 := { s with dies := { s.dies with ct1Lost := true }, side := {} }
  let s2 := match s1.dumping with
    | some d =>
      let t := { s1.endReading with dumping := none }
      (t.logErr 0x0506 {} (le 4 d.id ++ le 1 d.target ++ le 3 0)).finishOp? d.op timeout {}
    | none => s1
  (List.range 24).foldl (fun a n => a.modSheet n fun x => { x with
    dwell := none, dwellDue := none, dirty := []
    tstat := match x.rove with
      | some r => x.tstat.modify r fun (t : TStat) => { t with isolated := true }
      | none => x.tstat }) (if s2.reel.st = .absent then s2 else s2.reelLost.setReel .absent 0)

/-- CONTROL_DIE_LOST (R27, R516): after 10 ms without a heartbeat the surviving die logs it and takes over. -/
def controlDieLost (die : Nat) (s : State) : State :=
  if s.dies.ct0Lost ∨ s.dies.ct1Lost ∨ s.clk.life < s.dies.beat + cycPerSec / 100 then s
  else (if die = 0 then s.loseCt0 else s.loseCt1).logErr 0x0308 {} []

/-! ### Arms -/

/-- REPLICA_REPORTS_GATHERED. -/
def execReplicaReportsGathered (c : Ctx) (reports : List ReplicaReport) (s : State) : Host.Outcome State Fault Refusal :=
  nextOf s (replicaReportsGathered c reports s)
/-- REPLICA_REBUILD_DONE. -/
def execReplicaRebuildDone (c : Ctx) (data : List Byte) (ok : Bool) (s : State) : Host.Outcome State Fault Refusal :=
  nextOf s (replicaRebuildDone c data ok s)
/-- REPLICA_REBUILD_TIMEOUT. -/
def execReplicaRebuildTimeout (c : Ctx) (s : State) : Host.Outcome State Fault Refusal := nextOf s (replicaRebuildTimeout c s)
/-- PHY_CHECK. -/
def execPhyCheck (u : PhyUnit) (bad : Bool) (s : State) : Host.Outcome State Fault Refusal := nextOf s (phyCheck u bad s)
/-- CORE_WATCHDOG_EXPIRED. -/
def execCoreWatchdogExpired (core : Fin 16) (s : State) : Host.Outcome State Fault Refusal := nextOf s (coreWatchdogExpired core s)
/-- CONTROL_CORE_RESTART_DONE. -/
def execControlCoreRestartDone (core : Fin 16) (s : State) : Host.Outcome State Fault Refusal := nextOf s (controlCoreRestartDone core s)
/-- CONTROL_DIE_HEARTBEAT. -/
def execControlDieHeartbeat (s : State) : Host.Outcome State Fault Refusal := nextOf s (controlDieHeartbeat s)
/-- CONTROL_DIE_LOST. -/
def execControlDieLost (die : Fin 2) (s : State) : Host.Outcome State Fault Refusal := nextOf s (controlDieLost die s)

end Sys2Proof.Machine
end

