-- ==== Sys2Proof/Machine/CheckEngine.lean ====
section
/-!
DEFINITION. Check-engine entries (R350, R477–R489): WATERMARK and REPLICA_CHECK.
-/
namespace Sys2Proof.Machine

/-- JOB_ID of a context's job; 0 for a context in no job (R479). -/
def State.jobIdOf (s : State) (c : Nat) : Nat := ((s.jobOfCtx c).map (·.id)).getD 0

/-- WATERMARK (R350, R480): the digest of a context range, each DOUBLE byte from its committed copy, goes to DST and to DETAIL. -/
def watermarkEntry (c q : Nat) (n : W32) (flips : List DramFlip) (s0 : State) : State :=
  let s := s0.decay flips
  let k := 12 + q
  match s.entryAt c k n 0x30 with
  | none => s
  | some e =>
    let a := e.fld 0x18 8
    let len := e.fld 0x20 8
    let dk := e.fld 0x30 1
    let b := e.fld 0x38 8
    let fail (st : Nat) (d : Detail := {}) : State := s.setOutcome c k n (failed st d)
    if a % 8 ≠ 0 then fail invalid { arg := 0x18 }
    else if len % 8 ≠ 0 then fail invalid { arg := 0x20 }
    else if 1 < dk then fail invalid { arg := 0x30 }
    else if s.locInvalid c 1 a len then fail invalid { arg := 0x18 }
    else if s.locInvalid c dk b 16 then fail invalid { arg := 0x38 }
    else match s.locConflict c dk b 16 true with
      | some d => fail conflict d
      | none =>
        if s.locWaits c 1 a len ∨ s.locWaits c dk b 16 then s
        else
          let r := ((s.wakeLoc c 1 a len).wakeLoc c dk b 16).readRange c a len
          if !r.2 then r.1.setOutcome c k n (failed integrity)
          else
            let keys := jobKeys (s.jobIdOf c) (e.fld 0x28 4)
            let d := le 16 (watermark keys.1 keys.2 (wmElems (a / 8) (s.ctxRead c a len))).toNat
            (r.1.locWrite c dk b d).setOutcome c k n { status := ok, detail := d }

/-- The memory schedule writes every group of a region exactly once per calender period (R481). -/
def regionWrittenOnce (g : Prog) (al : Alloc) (r : Nat) : Bool :=
  let n := al.nch * al.pts.length
  let groups := (g.regions.getD r ⟨0, 0, 0, false⟩).len / 960 / max 1 n
  let per := g.calPeriod / max 1 (6 * g.slotPeriod)
  (List.range n).all fun i =>
    let es := (g.lists.getD i ⟨0, 0, []⟩).ents
    decide (((es.filter fun e => decide (e.op = 2) && decide (e.region = r) && e.side).length) * per = groups)

/-- REPLICA_CHECK (R350, R481, R489): comparison of a region is armed; one that is armed already takes the new COPIES, and both entries complete at the
commit. -/
def replicaCheck (c q : Nat) (n : W32) (s : State) : State :=
  let k := 12 + q
  match s.entryAt c k n 0x31 with
  | none => s
  | some e =>
    let x := s.ctx c
    let r := e.fld 0x18 1
    let m := e.fld 0x19 1
    let fail : State := s.setOutcome c k n (failed invalid { extra := r })
    if x.armed.any fun a => a.entries.contains (k, n) then s
    else if m < 2 ∨ 8 < m then fail
    else match x.prog, s.jobOfCtx c with
      | some g, some j =>
        let fits := decide ((x.st = .placed ∨ x.st = .running) ∧ s.unitOf (e.fld 0x20 4) = some (.job j.serial) ∧ j.nmod % m = 0 ∧ r < g.regions.length)
          && (g.regions.getD r ⟨0, 0, 0, false⟩).double && regionWrittenOnce g (x.alloc.getD ⟨[], 0, 0, 0, 0, []⟩) r
        if !fits then fail
        else if x.armed.any (·.region = r) then s.modCtx c fun y => { y with
          armed := y.armed.map fun (a : Armed) => if a.region = r then { a with copies := m, group := e.fld 0x20 4, entries := a.entries ++ [(k, n)] } else a }
        else s.modCtx c fun y => { y with armed := y.armed ++ [⟨r, m, e.fld 0x20 4, [(k, n)], false, 0, 0, none⟩] }
      | _, _ => fail

/-! ### Arms -/

/-- WATERMARK. -/
def execWatermark (c : Ctx) (q : Qn) (n : W32) (flips : List DramFlip) (s : State) : Host.Outcome State Fault Refusal :=
  nextOf s (watermarkEntry c q n flips s)
/-- REPLICA_CHECK. -/
def execReplicaCheck (c : Ctx) (q : Qn) (n : W32) (s : State) : Host.Outcome State Fault Refusal := nextOf s (replicaCheck c q n s)

end Sys2Proof.Machine
end

