-- ==== Sys2Proof/Machine/Ports.lean ====
section
/-!
DEFINITION. Fabric ports and routes as commands and the link see them (R534–R549, R639): PORT_STATUS to ROUTE_GET, FABRIC_PACKET_RX to
ETHERNET_FRAME_RX, and PORT_TRAINED.
-/
namespace Sys2Proof.Machine

/-! ### Port commands (R537, R541) -/

/-- RATE of a port (R537). -/
def FPort.rate (x : FPort) : Nat :=
  if x.st ≠ .up then 0 else if x.lanes = 0xF#4 then 800 else 400
/-- Code of a port's state (R537). -/
def portStateCode : PortState → Nat
  | .down => 0
  | .training => 1
  | .up => 2
  | .failed => 3

/-- PORT_STATUS (R537). -/
def mbPortStatus : MbFun := fun _ p s => checked 1 [] p s fun _ =>
  let n := arg p 0 1
  if 17 < n then (s, err invalid { arg := 0 })
  else
    let x := s.port n
    (s, okResp (fld 1 n ++ fld 1 (if x.eth then 1 else 0) ++ fld 1 (portStateCode x.st) ++ fld 1 (x.lanes.toNat + 16 * x.broke.toNat)
      ++ fld 2 x.rate ++ fld 2 x.peer.toNat ++ fld 1 x.peerPort.toNat ++ rsvd 3 ++ fld 4 (Config.symbolErrors s.clk.life n).toNat
      ++ (x.groups.map (fld 1)).flatten ++ (x.credits.map (fld 2)).flatten))

/-- The port that the route to an address names (R542). -/
def State.edgePort (s : State) (peer : Nat) : Nat := s.route peer % 256

/-- An occurrence in flight uses a VC pair of a port (R541). -/
def State.pairInUse (s : State) (port vc : Nat) : Bool :=
  let g := (s.port port).groups.getD vc 0
  decide (g ≠ 0) && s.ctxs.any fun x => x.colls.any fun d =>
    d.running.isSome && decide (unle ((d.desc.drop 1).take 1) = g) && d.edges.any fun e => decide (s.edgePort e.peer = port)

/-- PORT_MODE is in TRANSITION: the conflict of R645. -/
def State.portModeBar (s : State) : Option Resp :=
  (s.mgmt.modes.find? (·.mode = 2)).map fun m => modeConflict 2 m.applied.length 1

/-- VC_BIND (R541, R645). -/
def mbVcBind : MbFun := fun _ p s => checked 4 [(3, 1)] p s fun _ =>
  let n := arg p 0 1
  let vc := arg p 1 1
  let g := arg p 2 1
  if 17 < n ∧ n ≠ 0xFF then (s, err invalid { arg := 0 })
  else if vc % 2 = 1 ∨ 12 < vc then (s, err invalid { arg := 1 })
  else if 0x3F < g then (s, err invalid { arg := 2 })
  else
    let ps := if n = 0xFF then List.range 18 else [n]
    let clash (q : Nat) : Bool :=
      s.pairInUse q vc || (decide (g ≠ 0) && (List.range 16).any fun v => decide (v / 2 ≠ vc / 2) && decide ((s.port q).groups.getD v 0 = g))
    match if n = 0xFF then s.portModeBar else none with
    | some r => (s, r)
    | none =>
      if ps.any clash then (s, err conflict { kind := 1, state := s.moduleStatus, handle := s.handleOf .module })
      else (ps.foldl (fun a q => a.modPort q fun x => { x with groups := (x.groups.set vc g).set (vc + 1) g }) s, okResp [])

/-! ### Routes (R542, R639) -/

/-- The runs of the ROUTES setting: first address, count, entry. -/
def routeRuns : Nat → List Byte → List (Nat × Nat × Nat)
  | 0, _ => []
  | n + 1, b => (unle (b.take 2), unle ((b.drop 2).take 2), unle ((b.drop 4).take 2)) :: routeRuns n (b.drop 6)
/-- What of the runs lies outside `n` addresses from `f`. -/
def cutRuns (f n : Nat) (l : List (Nat × Nat × Nat)) : List (Nat × Nat × Nat) × List (Nat × Nat × Nat) :=
  (l.filterMap fun r => if r.1 < f then some (r.1, min r.2.1 (f - r.1), r.2.2) else none,
   l.filterMap fun r => if f + n < r.1 + r.2.1 then some (max r.1 (f + n), r.1 + r.2.1 - max r.1 (f + n), r.2.2) else none)
/-- Join runs that meet with one entry. -/
def joinRuns (l : List (Nat × Nat × Nat)) : List (Nat × Nat × Nat) :=
  l.foldr (fun r acc => match acc with
    | x :: t => if r.1 + r.2.1 = x.1 ∧ r.2.2 = x.2.2 then (r.1, r.2.1 + x.2.1, x.2.2) :: t else r :: acc
    | [] => [r]) []

/-- ROUTE_SET (R542, R639, R645). -/
def mbRouteSet : MbFun := fun _ p s =>
  let f := arg p 0 2
  let n := arg p 2 2
  let es := (List.range n).map fun i => arg p (4 + 2 * i) 2
  let bad (e : Nat) : Bool := decide ((17 < e % 256 ∧ e % 256 ≠ 0xFF) ∨ 1 < e / 256)
  if p.length < 4 then (s, err invalid)
  else if n < 1 ∨ 2046 < n ∨ p.length ≠ 4 + 2 * n then (s, err invalid { arg := 2 })
  else if 0xFFFF < f + n then (s, err invalid { arg := 0 })
  else match (List.range n).find? fun i => bad (es.getD i 0) with
    | some i => (s, err invalid { arg := 4 + 2 * i })
    | none => match s.portModeBar with
      | some r => (s, r)
      | none =>
        let old := s.setting 0x11
        let cut := cutRuns f n (routeRuns (old.length / 6) old)
        let new := (es.mapIdx fun i e => (f + i, 1, e)).filter fun r => decide (r.2.2 % 256 ≠ 0xFF)
        let runs := joinRuns (cut.1 ++ new ++ cut.2)
        if 1024 < runs.length then (s, err noResource)
        else
          let v := runs.flatMap fun r => le 2 r.1 ++ le 2 r.2.1 ++ le 2 r.2.2
          ({ s with mgmt := { s.mgmt with settings := s.mgmt.settings.set 0x11 v, settingsGen := s.mgmt.settingsGen + 1, settingsBad := false } }, okResp [])

/-- ROUTE_GET (R542): as many entries as the payload area holds. -/
def mbRouteGet : MbFun := fun _ p s => checked 4 [] p s fun _ =>
  let f := arg p 0 2
  let n := arg p 2 2
  if 0xFFFF < f + n then (s, err invalid { arg := 0 })
  else if 2048 < n then (s, err invalid { arg := 2 })
  else (s, okResp ((List.range n).flatMap fun i => fld 2 (s.route (f + i))))

/-! ### Packets that arrive (R538–R544, R548, R549) -/

/-- The packet that arrived bytes hold (R539). -/
def packetOf (port : Nat) (b : List Byte) : Packet :=
  let f (o n : Nat) : Nat := unle ((b.drop o).take n)
  { port := port, typ := f 0 1, vc := f 1 1, flags := f 2 1, dst := f 4 2, src := f 6 2, jobTag := f 8 4, coll := f 0xC 2, attempt := f 0xE 1
    step := f 0x10 8, pkt := f 0x18 4, payload := (b.drop 32).take (f 0x1C 2) }

/-- Offsets in a MEMBER payload that are reserved, by its SUB (R577). -/
def memberRsvd : Nat → List Nat
  | 2 => 19 :: rangeFrom 28 4
  | 3 => [17, 18, 19, 22, 23]
  | 4 => rangeFrom 17 7
  | 5 => rangeFrom 19 5
  | 6 => rangeFrom 17 7
  | 7 => rangeFrom 20 4
  | _ => []

/-- The reserved fields of a MEMBER packet are zero (R540, R577). -/
def memberGood (b : List Byte) : Bool :=
  decide (unle (b.take 1) ≠ 8) || (1 :: memberRsvd (b.getD 32 0).toNat).all fun o => decide (b.getD (32 + o) 0 = 0)

/-- The packet is whole and its reserved fields are zero (R539, R540). -/
def packetGood (b : List Byte) : Bool :=
  let f (o n : Nat) : Nat := unle ((b.drop o).take n)
  let n := f 0x1C 2
  decide (36 + n ≤ b.length) && decide (n ≤ 4160) && decide (flitsOf b.length = flitsOf (36 + n))
    && decide (f (32 + n) 4 = crc32c (b.take (32 + n))) && decide (f 0xF 1 = 0) && decide (f 0x1E 2 = 0)
    && decide (1 ≤ f 0 1 ∧ f 0 1 ≤ 8) && decide (f 1 1 < 16) && decide (f 2 1 / 32 = 0) && decide (f 2 1 / 4 % 2 = 0) && memberGood (b.take (32 + n))

/-- A record of a fabric class may be logged now (R570). -/
def State.fabricDue (s : State) (cls port : Nat) : Bool :=
  match s.logs.fabricAt.get? (port * 0x10000 + cls) with
  | some t => decide (t + cycPerSec ≤ s.clk.life)
  | none => true

/-- A packet discarded under R540: RX_CRC_DISCARD and PKT_DISCARD. -/
def State.discardRx (s : State) (p : Nat) (b : List Byte) : State :=
  let x := s.port p
  let u := x.ctr.getD 4 0
  let s1 := s.portCount p 2 1
  if s1.fabricDue 0x0601 p then
    (s1.modPort p fun y => { y with uncorrAt := u }).logFabric 0x0601 p (le 1 p ++ le 1 ((b.getD 1 0).toNat % 16) ++ zeros 2 ++ le 4 ((u + 2 ^ 48 - x.uncorrAt) % 2 ^ 48))
  else s1

/-- A packet for another module leaves on the port its route names, or is discarded (R543, R544). -/
def State.forwardPacket (s : State) (p : Nat) (b : List Byte) : State :=
  let k := packetOf p b
  let e := s.route k.dst
  let q := e % 256
  let hops := (b.getD 3 0).toNat
  if hops = 0 ∨ 17 < q ∨ (s.port q).st ≠ .up ∨ (s.port q).eth then s.fwdDrop p k.dst
  else
    let vc := if (e / 256).testBit 0 ∧ k.vc % 2 = 0 then k.vc + 1 else k.vc
    let h := (((b.take (32 + k.payload.length)).set 1 (BitVec.ofNat 8 vc)).set 3 (BitVec.ofNat 8 (hops - 1)))
    (s.transmit q (h ++ le 4 (crc32c h))).portCount q 5 1

/-- The codewords of a packet are counted (R571). -/
def State.countFec (s : State) (p : Nat) (f : FecCount) : State := (s.portCount p 3 f.corr).portCount p 4 f.uncorr

/-- FABRIC_PACKET_RX (R536, R538, R540, R543, R544). The packet's credits return at once (log entry 31). -/
def fabricPacketRx (p : Nat) (b : List Byte) (fec : FecCount) (s : State) : State :=
  let x := s.port p
  if x.st ≠ .up ∨ x.eth ∨ s.fabAddr = 0xFFFF then s
  else
    let s1 := (s.emit (.creditReturned p ((b.getD 1 0).toNat % 16) (flitsOf b.length))).countFec p fec
    if fec.uncorr ≠ 0 then s1.discardRx p b
    else if !packetGood b then s1.discardRx p b
    else
      let s2 := s1.portCount p 1 1
      let k := packetOf p b
      if k.dst = s.fabAddr then s2.deliverPacket k else s2.forwardPacket p b

/-- CREDIT_RETURN (R538): a sender never holds more than the 256 flits of the receiver's VC. -/
def creditReturn (p vc n : Nat) (s : State) : State :=
  if (s.port p).st ≠ .up ∨ (s.port p).eth then s
  else (s.modPort p fun x => { x with credits := x.credits.modify vc fun c => min 256 (c + n) }).drainPort p

/-- ETHERNET_FRAME_RX (R540, R548, R549). -/
def ethernetFrameRx (p : Nat) (dst : BitVec 48) (etherType : W16) (b : List Byte) (fec : FecCount) (s0 : State) : State :=
  let s := s0.countFec p fec
  let x := s.port p
  if x.st ≠ .up ∨ !x.eth ∨ s.fabAddr = 0xFFFF then s0
  else if fec.uncorr ≠ 0 then s.discardRx p b
  else if etherType.toNat ≠ x.etherType ∨ dst.toNat ≠ 0x020000000000 + s.fabAddr then s.fwdDrop p (dst.toNat % 65536)
  else if !packetGood b then s.discardRx p b
  else
    let k := packetOf p b
    if k.typ < 3 then s
    else if k.dst ≠ s.fabAddr then s.fwdDrop p k.dst
    else (s.portCount p 1 1).deliverPacket k

/-- PORT_TRAINED (R534–R537): the end of a training that is under way, or of the one that brings a link that had gone down back. The training of a mode change is MODE_UNIT_APPLIED's. -/
def portTrained (p : Nat) (lanes : BitVec 4) (peer : W16) (peerPort : Byte) (s : State) : State :=
  let changing := s.mgmt.modes.any fun m => decide (m.mode = 2) && decide (m.next = some p)
  let back := decide ((s.port p).st = .down ∧ s.start.stage = 0xA ∧ s.start.pwr = .m0)
  if !(decide ((s.port p).st = .training) || back) ∨ changing then s else s.trainPort p lanes peer peerPort

/-! ### Arms -/

/-- PORT_STATUS of the host. -/
def execPortStatus (p : Payload) (s : State) : Host.Outcome State Fault Refusal := nextOf s (hostCmd .q 0x00B0 mbPortStatus p s)
/-- VC_BIND of the host. -/
def execVcBind (p : Payload) (s : State) : Host.Outcome State Fault Refusal := nextOf s (hostCmd .f 0x00B1 mbVcBind p s)
/-- ROUTE_SET of the host. -/
def execRouteSet (p : Payload) (s : State) : Host.Outcome State Fault Refusal := nextOf s (hostCmd .f 0x00B6 mbRouteSet p s)
/-- ROUTE_GET of the host. -/
def execRouteGet (p : Payload) (s : State) : Host.Outcome State Fault Refusal := nextOf s (hostCmd .q 0x00B7 mbRouteGet p s)
/-- FABRIC_PACKET_RX. -/
def execFabricPacketRx (p : Port) (bytes : List Byte) (fec : FecCount) (s : State) : Host.Outcome State Fault Refusal :=
  nextOf s (fabricPacketRx p bytes fec s)
/-- CREDIT_RETURN. -/
def execCreditReturn (p : Port) (vc : Fin 16) (n : Nat) (s : State) : Host.Outcome State Fault Refusal := nextOf s (creditReturn p vc n s)
/-- ETHERNET_FRAME_RX. -/
def execEthernetFrameRx (p : Port) (dst : BitVec 48) (etherType : W16) (x : Arrived) (s : State) :
    Host.Outcome State Fault Refusal := nextOf s (ethernetFrameRx p dst etherType x.bytes x.fec s)
/-- PORT_TRAINED. -/
def execPortTrained (p : Port) (lanes : BitVec 4) (peer : W16) (peerPort : Byte) (s : State) : Host.Outcome State Fault Refusal :=
  nextOf s (portTrained p lanes peer peerPort s)

end Sys2Proof.Machine
end

