-- ==== Sys2Proof/Machine/Erasure.lean ====
section
/-!
DEFINITION. Erasure-coded state (R591–R598): the place of chunks and parity, the traffic that builds a generation, EC_REFRESH, EC_REBUILD,
SNAPSHOT_COPY_COMPLETE and EC_GENERATION_COMPLETE. The format of the traffic is log entry 30.
-/
namespace Sys2Proof

/-- The state that a joiner decodes from the save block of its shard, "not part of the Tylys contract" (R591, R600; log entry 16). -/
opaque Config.joinedBlock : Nat → Machine.Saved

end Sys2Proof

namespace Sys2Proof.Machine

/-! ### The layout of a group (R592, R594) -/

/-- Members of an erasure group. -/
def Job.m (j : Job) : Nat := j.k + 2
/-- Ranks of the group of rank `r`. -/
def Job.groupOf (j : Job) (r : Nat) : List Nat := (rangeFrom (r / j.m * j.m) j.m)
/-- Rank of member `i` of this member's group. -/
def Job.member (j : Job) (i : Nat) : Nat := j.rank / j.m * j.m + i % j.m
/-- The stripe of chunk `c` of member `i`: its P lies on the member of that number, its Q on the next (R592). -/
def Job.stripe (j : Job) (i c : Nat) : Nat := (c + i + 1) % j.m
/-- Bytes of a shard, padding included. -/
def Job.shardLen (j : Job) : Nat := j.k * j.chunk
/-- Context address of snapshot slot of generation `n` (R594). -/
def Job.slotBase (j : Job) (n : Nat) : Nat := j.areas.getD 0 0 + n % 2 * j.shardLen
/-- Context address of the P chunk of generation `n`, or of its Q chunk (R594). -/
def Job.parityBase (j : Job) (n : Nat) (q : Bool) : Nat := j.areas.getD 2 0 + n % 2 * (2 * j.chunk) + if q then j.chunk else 0
/-- Packets that carry one chunk. -/
def Job.pieces (j : Job) : Nat := j.chunk / 4096

/-! ### Traffic (R593, R594; log entry 30) -/

/-- The even VC of the pair a group is bound to on a port (R541). -/
def State.groupVc (s : State) (port g : Nat) : Option Nat :=
  ((List.range 8).find? fun v => decide ((s.port port).groups.getD (2 * v) 0 = g)).map (2 * ·)

/-- COLL_ID of erasure traffic. -/
abbrev ecColl : Nat := 0xFFFF

/-- Send one chunk of a snapshot to the holder of a parity chunk. -/
def State.sendChunk (s : State) (j : Job) (n c : Nat) (q : Bool) : State :=
  let i := j.rank % j.m
  let dst := j.addrs.getD (j.member (j.stripe i c + if q then 1 else 0)) 0xFFFF
  match s.groupVc (s.edgePort dst) 0x3F with
  | none => s
  | some vc => (List.range j.pieces).foldl (fun (a : State) x => a.sendPacket {
      port := 0, typ := 3, vc := vc, flags := if x + 1 = j.pieces then 2 else 0, dst := dst, src := 0, jobTag := j.tag, coll := ecColl
      attempt := 0, step := n, pkt := x + if q then 2 ^ 31 else 0
      payload := a.ctxRead j.ctx (j.slotBase n + c * j.chunk + 4096 * x) 4096 }) s

/-- Send every chunk of the snapshot of generation `n` to the P and Q holders of its stripe (R594). -/
def State.sendChunks (s : State) (j : Job) (n : Nat) : State :=
  (List.range j.k).foldl (fun a c => (a.sendChunk j n c false).sendChunk j n c true) s

/-- The job and the sender's rank of an erasure packet. -/
def State.ecJob (s : State) (k : Packet) : Option (Job × Nat) :=
  (s.jobs.find? fun j => decide (j.tag = k.jobTag ∧ j.st ≠ .none ∧ j.st ≠ .excluded)).map fun j => (j, j.addrs.idxOf k.src)

/-- An erasure packet comes before this member has set its group up: it waits. -/
def State.ecWaitsFor (s : State) (k : Packet) : Bool :=
  decide (k.coll = ecColl) && match s.ecJob k with
    | some (j, _) => decide (j.k = 0)
    | none => false

/-- An acknowledgement of a packet, on VC14. -/
def State.ackPacket (s : State) (k : Packet) : State :=
  s.sendPacket { k with port := 0, typ := 4, vc := 14, flags := 0, dst := k.src, payload := [] }

/-- A piece of a chunk enters the parity of this member: the first contribution is written, later ones are added (R592, R594). -/
def State.ecReceive (s : State) (k : Packet) : State :=
  match s.ecJob k with
  | none => s.stale k
  | some (j, r) =>
    let q := decide (2 ^ 31 ≤ k.pkt)
    let x := k.pkt % 2 ^ 31
    let i := r % j.m
    let me := j.rank % j.m
    let stripe := if q then (me + j.m - 1) % j.m else me
    let c := (stripe + 2 * j.m - i - 1) % j.m
    let known := decide (j.protGen = 2 ^ 64 - 1 ∨ j.protGen < k.step) && decide (k.step ≤ j.gen + 1)
    if j.k = 0 ∨ j.nmod ≤ r ∨ r / j.m ≠ j.rank / j.m ∨ r = j.rank ∨ j.k ≤ c ∨ j.pieces ≤ x ∨ k.payload.length ≠ 4096 ∨ !known then s.stale k
    else if j.ecGot.contains (k.step, r, q, x) then s.ackPacket k
    else
      let first := !(j.ecGot.any fun e => decide (e.1 = k.step ∧ e.2.2.1 = q ∧ e.2.2.2 = x))
      let d := if q then k.payload.map (rsMul (rsExp (j.k - 1 - c))) else k.payload
      let a := j.parityBase k.step q + 4096 * x
      let b := if first then d else xorBytes d (s.ctxRead j.ctx a 4096)
      ((s.ctxWrite j.ctx a b).modJob j.id fun y => { y with
        ecGot := (y.ecGot.filter fun (e : Nat × Nat × Bool × Nat) => decide (k.step ≤ e.1 + 1)) ++ [(k.step, r, q, x)] }).ackPacket k

/-- Both parity chunks of generation `n` have every contribution (R594). -/
def Job.parityDone (j : Job) (n : Nat) : Bool :=
  decide ((j.ecGot.filter fun e => decide (e.1 = n)).length = 2 * j.k * j.pieces)

/-! ### Steps -/

/-- SNAPSHOT_COPY_COMPLETE (R594): the copy lies in its slot, the release of the next commit is no longer held, and the chunks leave. -/
def snapshotCopyComplete (job : Nat) (s : State) : State :=
  match s.job? job with
  | none => s
  | some j =>
    if !j.copying then s
    else
      let s1 := ((s.modJob job fun y => { y with copying := false }).modCtx j.ctx fun x => { x with snapWait := false }).sendChunks j j.gen
      let decided : Bool := match (s.ctx j.ctx).hold with
        | .decide _ => j.own.isNone && (s.ctx j.ctx).commitHold && (s.ctx j.ctx).snapWait
        | _ => false
      if decided then s1.leavePoint j.ctx else s1

/-- EC_GENERATION_COMPLETE (R594): the newest generation enters GEN_DONE. -/
def ecGenerationComplete (job : Nat) (s : State) : State :=
  match s.job? job with
  | none => s
  | some j =>
    if j.k = 0 ∨ j.copying ∨ j.genDone = j.gen ∨ !j.parityDone j.gen then s
    else
      let s1 := (s.modJob job fun y => { y with genDone := y.gen }).ctxCount j.ctx 0x0D23 1
      if j.setup ∧ j.own.isNone ∧ !(s.ctx j.ctx).active then (s1.modJob job fun y => { y with own := some 0 }).tryVote job else s1

/-- STATE_CONFLICT for a job's state (R303). -/
def jobConflict (st : JobState) : Detail := { kind := 5, state := jobCode st }

/-- EC_REFRESH (R596): a refresh is asked for at the next commit. -/
def ecRefresh (c q : Nat) (n : W32) (s : State) : State :=
  let k := 8 + q
  match s.entryAt c k n 0x21 with
  | none => s
  | some e =>
    match s.jobs.find? fun j => decide (j.id = e.fld 0x18 8 ∧ j.ctx = c) with
    | none => s.setOutcome c k n (failed notFound { arg := 0x18 })
    | some j =>
      if (s.ctx c).ecWaits.any fun w => decide (w.1 = k ∧ w.2.1 = n) then s
      else if j.st ≠ .active ∨ j.k = 0 then s.setOutcome c k n (failed conflict (jobConflict j.st))
      else (s.modJob j.id fun y => { y with refreshDue := true }).modCtx c fun x => { x with ecWaits := x.ecWaits ++ [(k, n, j.gen + 1)] }

/-- EC_REBUILD (R597, R598): the decoded shard comes from the survivors of its group. -/
def ecRebuild (c q : Nat) (n : W32) (shard : ReadResult) (s : State) : State :=
  let k := 8 + q
  match s.entryAt c k n 0x22 with
  | none => s
  | some e =>
    let fail (st : Nat) (d : Detail := {}) : State := s.setOutcome c k n (failed st d)
    match s.jobs.find? fun j => decide (j.id = e.fld 0x18 8 ∧ j.ctx = c) with
    | none => fail notFound { arg := 0x18 }
    | some j =>
      let r := e.fld 0x20 2
      let a := e.fld 0x28 8
      let len := j.shardLen
      if j.nmod ≤ r then fail invalid { arg := 0x20 }
      else if s.locInvalid c 1 a len then fail invalid { arg := 0x28 }
      else if (j.st ≠ .active ∧ j.st ≠ .broken) ∨ j.k = 0 ∨ j.protGen = 2 ^ 64 - 1 then fail conflict (jobConflict j.st)
      else match s.locConflict c 1 a len true with
        | some d => fail conflict d
        | none =>
          if s.dies.ecOff.length = 6 then fail noResource
          else if 2 < ((j.groupOf r).filter fun x => j.lost.contains x).length then fail integrity
          else match shard with
            | .data d =>
              if d.length ≠ len then s
              else (((s.wakeLoc c 1 a len).locWrite c 1 a d).ctxCount c 0x0D25 len).setOutcome c k n { status := ok }
            | _ => fail integrity

/-! ### Arms -/

/-- EC_REFRESH. -/
def execEcRefresh (c : Ctx) (q : Qn) (n : W32) (s : State) : Host.Outcome State Fault Refusal := nextOf s (ecRefresh c q n s)
/-- EC_REBUILD. -/
def execEcRebuild (c : Ctx) (q : Qn) (n : W32) (shard : ReadResult) (s : State) : Host.Outcome State Fault Refusal :=
  nextOf s (ecRebuild c q n shard s)
/-- SNAPSHOT_COPY_COMPLETE. -/
def execSnapshotCopyComplete (job : W64) (s : State) : Host.Outcome State Fault Refusal := nextOf s (snapshotCopyComplete job.toNat s)
/-- EC_GENERATION_COMPLETE. -/
def execEcGenerationComplete (job : W64) (s : State) : Host.Outcome State Fault Refusal := nextOf s (ecGenerationComplete job.toNat s)

end Sys2Proof.Machine
end

