-- ==== Sys2Proof/Machine/Colls.lean ====
section
/-!
DEFINITION. Collectives (R550–R571): COLLECTIVE and COLL_STATUS, the start and end of occurrences, and the packets of CONTRIB to DIGEST. A packet
step takes the oldest packet of its TYPE that this module has received. Readings of this file: log entry 32.
-/
namespace Sys2Proof.Machine

/-! ### The descriptor (R551) -/

/-- OP. -/
def Coll.op (d : Coll) : Nat := d.fld 0 1
/-- OUT_FMT. -/
def Coll.fmt (d : Coll) : Nat := d.fld 2 1
/-- COUNT. -/
def Coll.count (d : Coll) : Nat := d.fld 0x28 8
/-- PARENT. -/
def Coll.parent (d : Coll) : Nat := d.fld 0x3A 2
/-- WINDOW. -/
def Coll.window (d : Coll) : Nat := d.fld 0x3C 2
/-- The children. -/
def Coll.childAddrs (d : Coll) : List Nat := (List.range (d.fld 6 1)).map fun i => d.fld (0x40 + 2 * i) 2
/-- This member is the root of its tree. -/
def Coll.isRoot (d : Coll) : Bool := decide (d.parent = 0xFFFF)
/-- SEND or RECV: one edge, to the peer that PARENT names. -/
def Coll.pairOp (d : Coll) : Bool := decide (4 ≤ d.op)
/-- The edges, parent first (R568). -/
def Coll.newEdges (d : Coll) : List Edge :=
  (if d.isRoot then [] else [{ peer := d.parent, child := false }]) ++ if d.pairOp then [] else d.childAddrs.map fun a => { peer := a, child := true }
/-- Bits of an output element (R551). -/
def Coll.outWidth (d : Coll) : Nat := if d.fmt = 7 then 32 else if d.fmt = 6 then 16 else (fmtOf d.fmt).width
/-- Bytes of results of one packet's 1,024 elements. -/
def Coll.outBytes (d : Coll) : Nat := 128 * d.outWidth
/-- Packets of an occurrence (R559; DATA packets carry 4,096 B, log entry 32). -/
def Coll.npkts (d : Coll) : Nat := if d.reduces then d.count / 32 else (d.count + 4095) / 4096
/-- Bytes of DATA packet `i`. -/
def Coll.dataLen (d : Coll) (i : Nat) : Nat := min 4096 (d.count - 4096 * i)
/-- Lane width this member sends at (R559). -/
def Coll.width (d : Coll) : Nat := if d.fld 0x38 2 = 1 then 8 else if d.fld 0x38 2 ≤ 258 then 16 else 32

/-- Address and length of SRC, of DST and of both copies of the scale table. -/
def Coll.areas (d : Coll) : List (Nat × Nat × Nat) :=
  let src := if d.reduces then d.count * 128 else d.count
  let dst := if d.reduces then d.count * 4 * d.outWidth + (if d.fmt < 6 then d.count else 0) else d.count
  let useSrc := d.reduces || decide (d.op = 4) || (decide (d.op = 3) && d.isRoot)
  let useDst := decide (d.op = 1 ∨ d.op = 5) || (decide (d.op = 2) && d.isRoot) || (decide (d.op = 3) && !d.isRoot)
  (if useSrc then [(0x10, d.fld 0x10 8, src)] else []) ++ (if useDst then [(0x18, d.fld 0x18 8, dst)] else [])
    ++ if d.reduces then [(0x20, d.fld 0x20 8, 2 * ((d.count + 63) / 64 * 64))] else []

/-- The first field of a descriptor that is out of range (R550, R551); `cal` is CAL_PERIOD where a program is placed. -/
def Coll.badField (d : Coll) (cal : Option Nat) : Option Nat :=
  let z (o n : Nat) : Bool := (argBytes d.desc o n).all (· = 0)
  ([(0, decide (1 ≤ d.op ∧ d.op ≤ 5)), (1, decide (1 ≤ d.fld 1 1 ∧ d.fld 1 1 ≤ 0x3F)), (2, decide (d.fmt ≤ 7)), (3, decide (d.fld 3 1 < 8))
    , (4, decide (d.fld 4 1 ≤ 31)), (5, decide (d.fld 5 1 ≤ 7)), (6, decide (d.fld 6 1 ≤ 16)), (7, z 7 1)
    , (8, decide (d.start % 32 = 0) && (if d.isOnce then decide (d.start = 0) else match cal with
        | some n => decide (d.start < n)
        | none => true))
    , (0x10, !(decide (d.op = 5) || (decide (d.op = 3) && !d.isRoot)) || z 0x10 8)
    , (0x18, !(decide (d.op = 4) || (decide (d.op = 2) && !d.isRoot)) || z 0x18 8)
    , (0x20, if d.reduces then decide (d.fld 0x20 8 % 64 = 0) else z 0x20 8)
    , (0x28, if d.reduces then decide (d.count % 32 = 0 ∧ 32 ≤ d.count ∧ d.count ≤ 2 ^ 26) else decide (1 ≤ d.count ∧ d.count ≤ 2 ^ 40))
    , (0x38, decide (1 ≤ d.fld 0x38 2 ∧ d.fld 0x38 2 ≤ 8192)), (0x3A, !(d.pairOp && d.isRoot)), (0x3C, decide (1 ≤ d.window ∧ d.window ≤ 1024))
    , (0x3E, z 0x3E 2), (0x40, (List.range 16).all fun i => decide (i < d.fld 6 1) == decide (d.fld (0x40 + 2 * i) 2 ≠ 0xFFFF)), (0x60, z 0x60 32)] :
    List (Nat × Bool)).findSome? fun x => if x.2 then none else some x.1

/-! ### Parts of the state -/

/-- Change collective `id` of context `c`. -/
def State.modColl (s : State) (c id : Nat) (f : Coll → Coll) : State :=
  s.modCtx c fun x => { x with colls := x.colls.map fun d => if d.id = id then f d else d }
/-- Collective `id` of context `c`. -/
def State.coll? (s : State) (c id : Nat) : Option Coll := (s.ctx c).colls.find? (·.id = id)
/-- Change the edge of a collective to a peer. -/
def Coll.modEdge (d : Coll) (peer : Nat) (f : Edge → Edge) : Coll := { d with edges := d.edges.map fun e => if e.peer = peer then f e else e }
/-- The edge to a peer. -/
def Coll.edge? (d : Coll) (peer : Nat) : Option Edge := d.edges.find? (·.peer = peer)
/-- The edge to the parent. -/
def Coll.up (d : Coll) : Option Edge := d.edges.find? fun e => !e.child
/-- Watermark keys of a context's packets (R479, R567). -/
def State.wmKeys (s : State) (c : Nat) : W64 × W64 :=
  match s.jobOfCtx c with
  | some j => jobKeys j.id j.epoch
  | none => jobKeys 0 0
/-- JOB_TAG of a context's packets (R539). -/
def State.jobTag (s : State) (c : Nat) : Nat := ((s.jobOfCtx c).map Job.tag).getD 0

/-- The watermark of a packet's payload: word w of packet PKT is element 1,024·PKT + w (R567). -/
def State.payloadWm (s : State) (c pkt : Nat) (b : List Byte) : BitVec 128 :=
  let k := s.wmKeys c
  watermark k.1 k.2 (wmElems (1024 * pkt) b)

/-- A collective step fault (R560, R566, R567, R570): it ends the occurrence, and the entry of a ONCE collective. -/
def State.collFault (s : State) (c id sub port peer pkt detail : Nat) : State :=
  match s.coll? c id with
  | none => s
  | some d =>
    if d.faulted ∨ d.running.isNone then s
    else
      let occ := (d.running.map (·.1)).getD 0
      let s1 := s.logErr 0x010C (s.ctxAt c) (collBody id occ sub port peer pkt detail)
      match d.once with
      | some e => (s1.setOutcome c e.1 e.2 (failed (if sub = 2 then timeout else integrity))).modColl c id fun y => { y with running := none, once := none }
      | none => s1.modColl c id fun y => { y with faulted := true, edges := y.edges.map fun e => { e with timers := [] } }

/-! ### Sending -/

/-- Send a packet of a collective to a peer: data on the VC pair of its group, control on VC14 (R541, R556). -/
def State.collSend (s : State) (c : Nat) (d : Coll) (typ flags peer pkt : Nat) (pay : List Byte) : State :=
  match d.running with
  | none => s
  | some (_, step, att) =>
    let vc := if typ < 4 then s.groupVc (s.edgePort peer) (d.fld 1 1) else some 14
    match vc with
    | none => s
    | some v => s.sendPacket { port := 0, typ := typ, vc := v, flags := flags, dst := peer, src := 0, jobTag := s.jobTag c, coll := d.id
                               attempt := att, step := step, pkt := pkt, payload := pay }

/-- A packet with a payload goes to a peer: TX_WM takes it at its first transmission, a resend carries REISSUED (R565, R567). -/
def State.collData (s : State) (c id typ peer pkt : Nat) (pay : List Byte) (again : Bool) : State :=
  match s.coll? c id with
  | none => s
  | some d =>
    let w := if typ = 1 then (if d.width = 8 then 0 else if d.width = 16 then 8 else 16) else 0
    let flags := w + (if pkt + 1 = d.npkts then 2 else 0) + if again then 1 else 0
    let s1 := s.collSend c d typ flags peer pkt pay
    if again then s1
    else s1.modColl c id fun y => y.modEdge peer fun e => { e with sent := pkt :: e.sent, tx := e.tx ^^^ s.payloadWm c pkt pay }

/-- Start a timer for a packet index awaited on an edge (R564). -/
def State.startTimer (s : State) (c id peer pkt : Nat) : State :=
  s.modColl c id fun y => y.modEdge peer fun e => if e.timers.any (·.1 = pkt) then e else { e with timers := (pkt, 0, s.clk.life) :: e.timers }

/-- What an edge awaited has come: its timer stops, and an expiry that was not answered by PENDING counts (R565, R566). -/
def State.stopTimer (s : State) (c id peer pkt : Nat) : State :=
  match (s.coll? c id).bind (·.edge? peer) with
  | none => s
  | some e =>
    let s1 := s.modColl c id fun y => y.modEdge peer fun e => { e with timers := e.timers.filter fun t => decide (t.1 ≠ pkt) }
    if e.timers.any fun t => decide (t.1 = pkt ∧ t.2.1 = 1) then (s1.ctxCount c 0x0D02 1).modColl c id fun y => y.modEdge peer fun e => { e with timeouts := e.timeouts + 1 } else s1

/-- A packet with a payload is accepted: counted, and added to RX_WM (R567, R568). -/
def State.accepted (s : State) (c id peer pkt : Nat) (pay : List Byte) : State :=
  (s.modColl c id fun y => y.modEdge peer fun e =>
    { e with got := pkt :: e.got, pkts := e.pkts + 1, rx := e.rx ^^^ s.payloadWm c pkt pay }).stopTimer c id peer pkt

/-! ### Exact reduction (R557–R562) -/

/-- k := RNE(v·2^(133 − X)), limited (R558). -/
def quantise (x : Nat) (v : FVal) : Int × Bool :=
  match v with
  | .fin neg m e =>
    let k := scaleRne m (e + 133 - x)
    let l := min k 127
    (if neg then -(l : Int) else l, decide (127 < k))
  | _ => (0, false)

/-- Own contribution to packet `i` (R558): SCL, PROP, lanes, and the elements limited. -/
def State.contribution (s : State) (c : Nat) (d : Coll) (i : Nat) : Partial × Nat :=
  let xs := s.ctxRead c (d.table false + 32 * i) 32
  let src := s.ctxRead c (d.fld 0x10 8 + 4096 * i) 4096
  let blocks := (List.range 32).map fun b =>
    let vs := (List.range 32).map fun e => ieeeVal 24 (unle ((src.drop (128 * b + 4 * e)).take 4))
    let bad := vs.any fun v => !v.isFin
    let x := (xs.getD b 0).toNat
    let ks := vs.map (quantise x)
    ((if bad then 0xFF#8 else xs.getD b 0), BitVec.ofNat 8 (if bad then 0xFF else Fmt.int8.blockScale true vs), ks)
  ({ pkt := i, scl := blocks.map (·.1), prop := blocks.map (·.2.1), lanes := blocks.flatMap fun b => b.2.2.map (·.1), inputs := 1 }
   , ((blocks.flatMap (·.2.2)).filter (·.2)).length)

/-- Lanes as two's-complement numbers of a width. -/
def laneBytes (w : Nat) (l : List Int) : List Byte := l.flatMap fun k => le (w / 8) (BitVec.ofInt w k).toNat
/-- The payload of a CONTRIB packet (R559). -/
def Partial.bytes (p : Partial) (w : Nat) : List Byte := p.scl ++ p.prop ++ laneBytes w p.lanes
/-- A CONTRIB payload at a lane width, as a partial sum. -/
def partialOf (pkt w : Nat) (b : List Byte) : Partial :=
  { pkt := pkt, scl := b.take 32, prop := (b.drop 32).take 32, inputs := 1
    lanes := (List.range 1024).map fun i => (BitVec.ofNat w (unle ((b.drop (64 + w / 8 * i)).take (w / 8)))).toInt }

/-- The sum of two partial sums, lane by lane in 32 bits, with the larger PROP of each block (R560). -/
def Partial.add (p q : Partial) : Partial :=
  { p with
    prop := List.zipWith (fun a b => if a.toNat < b.toNat then b else a) p.prop q.prop
    lanes := List.zipWith (fun a b => (BitVec.ofInt 32 (a + b)).toInt) p.lanes q.lanes
    inputs := p.inputs + q.inputs }

/-- What an input does to the checks of R560: none, or the subcause and the block. -/
def sclBad (held : Option Partial) (p : Partial) : Option (Nat × Nat) :=
  match (List.range 32).find? fun i => decide (p.scl.getD i 0 = 0xFF) with
  | some i => some (3, i)
  | none => match held with
    | none => none
    | some h => ((List.range 32).find? fun i => decide (p.scl.getD i 0 ≠ h.scl.getD i 0)).map fun i => (4, i)

/-- The root's result of one packet (R561, R562): NEXT, the scales, the elements. -/
def Coll.resultOf (d : Coll) (step : Nat) (p : Partial) : List Byte × List Byte × List Byte :=
  let ps := d.fld 4 1
  let seed : W64 := BitVec.ofNat 64 (d.fld 0x30 8)
  let sr := (d.fld 3 1).testBit 0
  let noSat := (d.fld 3 1).testBit 1
  let blocks := (List.range 32).map fun b =>
    let x := (p.scl.getD b 0).toNat
    let vs : List FVal := ((p.lanes.drop (32 * b)).take 32).map fun k => .fin (decide (k < 0)) k.natAbs ((x : Int) - 133 - ps)
    if d.fmt < 6 then
      let r := (fmtOf d.fmt).convert noSat (fun i => if sr then some (srRand seed step (1024 * p.pkt + 32 * b + i)) else none) vs
      (r.1, r.2.1)
    else (0, vs.map fun v => ieeeCode (if d.fmt = 6 then 8 else 24) v)
  (p.prop.map fun q => BitVec.ofNat 8 (min (q.toNat + d.fld 5 1) 0xFE), blocks.map fun b => BitVec.ofNat 8 b.1, pack d.outWidth (blocks.flatMap (·.2)))

/-- Results of one packet are written to DST, their scales to the scale plane, NEXT to the working scale table (R557, R562). -/
def State.writeResult (s : State) (c : Nat) (d : Coll) (pkt : Nat) (r : List Byte × List Byte × List Byte) : State :=
  let dst := d.fld 0x18 8
  let s1 := s.ctxWrite c (dst + d.outBytes * pkt) r.2.2
  let s2 := if d.fmt < 6 then s1.ctxWrite c (dst + 4 * d.outWidth * d.count + 32 * pkt) r.2.1 else s1
  (s2.ctxWrite c (d.table true + 32 * pkt) r.1).modColl c d.id fun y => { y with written := pkt :: y.written, parts := y.parts.filter (·.pkt ≠ pkt) }

/-- The RESULT payload that DST holds (R562, R565). -/
def State.resultBytes (s : State) (c : Nat) (d : Coll) (pkt : Nat) : List Byte :=
  let dst := d.fld 0x18 8
  s.ctxRead c (d.table true + 32 * pkt) 32
    ++ (if d.fmt < 6 then s.ctxRead c (dst + 4 * d.outWidth * d.count + 32 * pkt) 32 else zeros 32) ++ s.ctxRead c (dst + d.outBytes * pkt) d.outBytes

/-- A partial sum with all its inputs leaves: to the parent, or at the root as a result (R560, R561). -/
def State.sumDone (s : State) (c id : Nat) (p : Partial) : State :=
  match s.coll? c id with
  | none => s
  | some d =>
    if p.inputs ≠ 1 + d.childAddrs.length then s
    else match d.up, d.running with
      | some e, _ => (s.collData c id 1 e.peer p.pkt (p.bytes d.width) false).startTimer c id e.peer p.pkt
      | none, some (_, step, _) =>
        let r := d.resultOf step p
        let s1 := s.writeResult c d p.pkt r
        if d.op = 1 then d.childAddrs.foldl (fun (a : State) ch => a.collData c id 2 ch p.pkt (r.1 ++ r.2.1 ++ r.2.2) false) s1 else s1
      | none, none => s

/-- An input of a packet index enters the partial sum; `from'` is the child it came from (R560, R564). -/
def State.addInput (s : State) (c id : Nat) (p : Partial) (port peer : Nat) : State :=
  match s.coll? c id with
  | none => s
  | some d =>
    let held := d.parts.find? (·.pkt = p.pkt)
    match sclBad held p with
    | some (sub, b) => s.collFault c id sub port peer p.pkt (32 * p.pkt + b)
    | none =>
      let q := match held with
        | some h => h.add p
        | none => p
      let s1 := s.modColl c id fun y => { y with parts := q :: y.parts.filter (·.pkt ≠ p.pkt) }
      let s2 := if held.isSome then s1
        else d.edges.foldl (fun a e => if e.child ∧ !e.got.contains p.pkt then a.startTimer c id e.peer p.pkt else a) s1
      s2.sumDone c id q

/-- Packet indices that need nothing more of this member's window. -/
def Coll.finished (d : Coll) : Nat := if d.op = 2 ∧ !d.isRoot then ((d.up.map (·.acked.length)).getD 0) else d.written.length

/-- Start packet indices while the window allows, own contributions in order (R551, R558). -/
def State.pump (s : State) (c id : Nat) : Nat → State
  | 0 => s
  | f + 1 =>
    match s.coll? c id with
    | none => s
    | some d =>
      if d.faulted ∨ d.running.isNone ∨ d.npkts ≤ d.next ∨ d.finished + d.window ≤ d.next then s
      else
        let r := s.contribution c d d.next
        let s1 := (s.modColl c id fun y => { y with next := y.next + 1 }).ctxCount c 0x0D05 r.2
        State.pump (s1.addInput c id r.1 0xFF s.fabAddr) c id f

/-- The payload of DATA packet `i`: from SRC at its source, from DST on the way (R553, R565). -/
def State.collPayload (s : State) (c : Nat) (d : Coll) (i : Nat) : List Byte :=
  let src := decide (d.op = 4) || d.isRoot
  s.ctxRead c ((if src then d.fld 0x10 8 else d.fld 0x18 8) + 4096 * i) (d.dataLen i)

/-- Send DATA packets on an edge while its window allows (R551, R553). -/
def State.pumpEdge (s : State) (c id peer : Nat) : Nat → State
  | 0 => s
  | f + 1 =>
    match s.coll? c id with
    | none => s
    | some d => match d.edge? peer with
      | none => s
      | some e =>
        let src := decide (d.op = 4) || d.isRoot
        match (List.range d.npkts).find? fun i => !e.sent.contains i && (src || d.written.contains i) with
        | none => s
        | some i =>
          if d.faulted ∨ d.running.isNone ∨ d.window ≤ e.sent.length - e.acked.length then s
          else State.pumpEdge ((s.collData c id 3 peer i (s.collPayload c d i) false).startTimer c id peer i) c id peer f

/-- Send DATA packets to everyone they are for. -/
def State.pumpData (s : State) (c id : Nat) : State :=
  match s.coll? c id with
  | none => s
  | some d => (if d.op = 4 then [d.parent] else d.childAddrs).foldl (fun a p => a.pumpEdge c id p d.window) s

/-- Whatever the window allows now. -/
def State.pumpAll (s : State) (c id : Nat) : State :=
  match s.coll? c id with
  | none => s
  | some d => if d.reduces then s.pump c id (d.npkts + 1) else if d.op = 5 then s else s.pumpData c id

/-! ### Occurrences (R552–R557, R569) -/

/-- The nip that serves an occurrence, and the one that R555 names (R555, R569). -/
def State.homeNip (s : State) (d : Coll) : Option Nat × Nat :=
  let peer := match d.up with
    | some e => e.peer
    | none => d.childAddrs.headD 0
  let own := deckleOfPort (s.edgePort peer % 18)
  (nearestOnRing s.dies.nipOff own, own)

/-- Bytes of a home nip's buffer in use (R555). -/
def State.bufferUse (s : State) (die : Nat) : Nat :=
  s.ctxs.foldl (fun a x => x.colls.foldl (fun b d => if d.running.isSome ∧ d.home = die then b + d.window * 4160 else b) a) 0

/-- Clear what an edge keeps of one occurrence. -/
def Edge.fresh (e : Edge) : Edge := { peer := e.peer, child := e.child, pkts := e.pkts }

/-- Occurrence `occ` begins, if the context and its home nip have room (R552, R555, R569). -/
def State.startOcc (s : State) (c id occ : Nat) : State :=
  match s.coll? c id with
  | none => s
  | some d =>
    let x := s.ctx c
    match s.homeNip d with
    | (none, _) => s
    | (some die, own) =>
      if d.running.isSome ∨ d.faulted ∨ 64 ≤ (x.colls.filter (·.running.isSome)).length ∨ 2 ^ 25 < s.bufferUse die + d.window * 4160 then s
      else
        let s1 := if die ≠ own ∧ !s.dies.nipLogged.contains own then
          ({ s with dies := { s.dies with nipLogged := s.dies.nipLogged ++ [own] } }).logErr 0x0607 {} (le 1 (0x20 + own) ++ le 1 (0x20 + die) ++ zeros 2) else s
        let s2 := s1.modColl c id fun y => { y with
          running := some (occ, x.step + 1, x.attempt), home := die, edges := y.edges.map Edge.fresh, parts := [], written := [], next := 0 }
        let s3 := if d.op = 5 ∨ (d.op = 3 ∧ !d.isRoot) then
          (List.range (min d.window d.npkts)).foldl (fun (a : State) i => a.startTimer c id d.parent i) s2 else s2
        s3.pumpAll c id

/-- COLLECTIVE_OCCURRENCE_START (R552): SCHED has reached the start of the next occurrence. -/
def collectiveOccurrenceStart (c id : Nat) (s : State) : State :=
  let x := s.ctx c
  match s.coll? c id, x.prog with
  | some d, some g =>
    let inJob := match s.jobOfCtx c with
      | some j => decide (j.st = .active)
      | none => true
    if d.isOnce ∨ !x.active ∨ !inJob ∨ occBefore g.calPeriod d.start (x.sched + 1) ≤ d.occ then s else s.startOcc c id (d.occ + 1)
  | _, _ => s

/-- An occurrence has done all of R553 on this member. -/
def Coll.allDone (d : Coll) : Bool :=
  let n := d.npkts
  if d.op = 1 then decide (d.written.length = n) && d.edges.all fun e => !e.child || decide (e.sent.length = n)
  else if d.op = 2 then (if d.isRoot then decide (d.written.length = n) else decide ((d.up.map (·.acked.length)).getD 0 = n))
  else if d.op = 3 then (d.isRoot || decide (d.written.length = n)) && d.edges.all fun e => !e.child || decide (e.sent.length = n)
  else if d.op = 4 then decide ((d.up.map (·.acked.length)).getD 0 = n)
  else decide (d.written.length = n)

/-- COLLECTIVE_OCCURRENCE_DONE (R553, R554, R557, R567): DIGESTs go out for edges with a reissue; with no comparison outstanding it completes. -/
def collectiveOccurrenceDone (c id : Nat) (s : State) : State :=
  match s.coll? c id with
  | none => s
  | some d =>
    match d.running with
    | none => s
    | some (occ, _, _) =>
      if d.faulted ∨ !d.allDone then s
      else
        let s1 := d.edges.foldl (fun (a : State) e => if 0 < e.reissues ∧ !e.digestSent then
          (a.collSend c d 7 0 e.peer 0 (le 16 e.rx.toNat)).modColl c id fun y => y.modEdge e.peer fun z => { z with digestSent := true } else a) s
        if d.edges.any (·.digestDue) then s1
        else
          let s2 := (s1.modColl c id fun y => { y with
            running := none, occ := occ, once := none, parts := []
            doneInStep := y.reduces && !y.isOnce, flip := if y.reduces ∧ y.isOnce then !y.flip else y.flip
            edges := y.edges.map fun e => { e with timers := [] } }).ctxCount c 0x0D01 1
          match d.once with
          | some e => s2.setOutcome c e.1 e.2 { status := ok }
          | none => s2

/-! ### Packets (R556–R567) -/

/-- The oldest packet that `sel` takes, and the state without it. -/
def State.takePacket (s : State) (sel : Packet → Bool) : Option (Packet × State) :=
  (s.rxq.find? sel).map fun k => (k, { s with rxq := s.rxq.eraseP sel })

/-- The context and collective of an occurrence in flight that a packet matches (R556), with the edge it came by. -/
def State.matchPacket (s : State) (k : Packet) : Option (Nat × Coll × Edge) :=
  (List.range 64).findSome? fun c =>
    if s.jobTag c ≠ k.jobTag then none
    else match s.coll? c k.coll with
      | none => none
      | some d => match d.running, d.edge? k.src with
        | some (_, step, att), some e => if step = k.step ∧ att % 256 = k.attempt then some (c, d, e) else none
        | _, _ => none

/-- Take the oldest packet of a TYPE and act on it where it matches an occurrence; one that matches none is stale (R556). -/
def State.onPacket (s : State) (typ : Nat) (f : Packet → Nat → Coll → Edge → State → State) : State :=
  match s.takePacket fun k => decide (k.typ = typ) && !(s.ecWaitsFor k) with
  | none => s
  | some (k, s1) => match s1.matchPacket k with
    | none => s1.stale k
    | some (c, d, e) => if d.faulted then s1 else f k c d e s1

/-- CONTRIB (R560–R562, R564). -/
def contrib (s : State) : State := s.onPacket 1 fun k c d e t =>
  let w := if k.flags / 8 % 4 = 0 then 8 else if k.flags / 8 % 4 = 1 then 16 else 32
  if !e.child ∨ !d.reduces ∨ d.npkts ≤ k.pkt ∨ k.flags / 8 % 4 = 3 ∨ k.payload.length ≠ 64 + 128 * w then t.stale k
  else if e.got.contains k.pkt then t
  else
    let t1 := t.accepted c d.id e.peer k.pkt k.payload
    let t2 := if d.op = 2 then t1.collSend c d 4 0 e.peer k.pkt [] else t1
    (t2.addInput c d.id (partialOf k.pkt w k.payload) k.port e.peer).pumpAll c d.id

/-- RESULT (R553, R562). -/
def result (s : State) : State := s.onPacket 2 fun k c d e t =>
  if e.child ∨ d.op ≠ 1 ∨ d.npkts ≤ k.pkt ∨ k.payload.length ≠ 64 + d.outBytes then t.stale k
  else if e.got.contains k.pkt then t
  else
    let t1 := (t.accepted c d.id e.peer k.pkt k.payload).writeResult c d k.pkt (k.payload.take 32, (k.payload.drop 32).take 32, k.payload.drop 64)
    let t2 := d.childAddrs.foldl (fun (a : State) ch => a.collData c d.id 2 ch k.pkt k.payload false) t1
    t2.pumpAll c d.id

/-- DATA (R553, R562, R594): bytes of BROADCAST and RECV are written, sent on and acknowledged; erasure traffic enters the parity. -/
def data (s : State) : State :=
  match s.takePacket fun k => decide (k.typ = 3) && !(s.ecWaitsFor k) with
  | none => s
  | some (k, s1) =>
    if k.coll = ecColl then s1.ecReceive k
    else s.onPacket 3 fun k c d e t =>
      if e.child ∨ !(decide (d.op = 3) || decide (d.op = 5)) ∨ d.npkts ≤ k.pkt ∨ k.payload.length ≠ d.dataLen k.pkt then t.stale k
      else if e.got.contains k.pkt then t.collSend c d 4 0 e.peer k.pkt []
      else
        let t1 := ((t.accepted c d.id e.peer k.pkt k.payload).ctxWrite c (d.fld 0x18 8 + 4096 * k.pkt) k.payload).modColl c d.id fun y =>
          { y with written := k.pkt :: y.written }
        let t2 := t1.collSend c d 4 0 e.peer k.pkt []
        let t3 := if k.pkt + d.window < d.npkts then t2.startTimer c d.id e.peer (k.pkt + d.window) else t2
        t3.pumpAll c d.id

/-- ACK (R553): an acknowledgement of a packet this member has sent. Erasure traffic has no completion of its own. -/
def ack (s : State) : State :=
  match s.takePacket fun k => decide (k.typ = 4) with
  | none => s
  | some (k, s1) =>
    if k.coll = ecColl then (if (s.ecJob k).isSome then s1 else s1.stale k)
    else s.onPacket 4 fun k c d e t =>
      let mine := if d.op = 2 then !e.child else if d.op = 4 then true else decide (d.op = 3) && e.child
      if !mine ∨ !e.sent.contains k.pkt then t.stale k
      else if e.acked.contains k.pkt then t
      else
        let t1 := (t.modColl c d.id fun y => ({ y with parts := y.parts.filter (·.pkt ≠ k.pkt) }).modEdge e.peer fun z => { z with acked := k.pkt :: z.acked }).stopTimer c d.id e.peer k.pkt
        t1.pumpAll c d.id

/-- What this member owes a peer for a packet index: TYPE and payload of what it has sent, none while it waits itself (R565). -/
def State.owed (s : State) (c : Nat) (d : Coll) (e : Edge) (pkt : Nat) : Option (Nat × List Byte) :=
  let sent := e.sent.contains pkt
  if d.reduces then
    if e.child then (if d.op = 1 then (if sent then some (2, s.resultBytes c d pkt) else none) else if e.got.contains pkt then some (4, []) else none)
    else if !sent then none
    else (d.parts.find? (·.pkt = pkt)).map fun p => (1, p.bytes d.width)
  else if e.child ∨ d.op = 4 then (if sent then some (3, s.collPayload c d pkt) else none)
  else if e.got.contains pkt then some (4, []) else none

/-- REISSUE_REQ (R565–R567): answered by the packet again, once, or by PENDING. -/
def reissueReq (s : State) : State := s.onPacket 5 fun k c d e t =>
  let t1 := t.modColl c d.id fun y => y.modEdge e.peer fun z => { z with digestDue := true }
  match s.owed c d e k.pkt with
  | none => t1.collSend c d 6 0 e.peer k.pkt []
  | some (typ, b) => if e.resent.contains k.pkt then t else
    let t2 := (((t1.modColl c d.id fun y => y.modEdge e.peer fun z => { z with resent := k.pkt :: z.resent }).ctxCount c 0x0D03 1).logFabric 0x0604 k.port
      (le 4 d.id ++ le 8 ((d.running.map (·.1)).getD 0) ++ le 4 k.pkt ++ le 2 e.peer ++ zeros 2))
    if typ = 4 then t2.collSend c d 4 1 e.peer k.pkt [] else t2.collData c d.id typ e.peer k.pkt b true

/-- PENDING (R565): the timer starts again and its expiry does not count. -/
def pending (s : State) : State := s.onPacket 6 fun k c d e t =>
  t.modColl c d.id fun y => y.modEdge e.peer fun z => { z with timers := z.timers.map fun x => if x.1 = k.pkt then (x.1, 0, t.clk.life) else x }

/-- DIGEST (R567): the peer's RX_WM against TX_WM. -/
def digest (s : State) : State := s.onPacket 7 fun k c d e t =>
  let t1 := t.modColl c d.id fun y => y.modEdge e.peer fun z => { z with digestDue := false }
  if unle (k.payload.take 16) = e.tx.toNat then t1 else t1.collFault c d.id 5 k.port e.peer 0 0

/-- The timer of a packet index with `n` counted expiries has run for NIP_WAIT_US (R564). -/
def State.timerDue (s : State) (d : Coll) (e : Edge) (pkt n : Nat) : Bool :=
  e.timers.any fun t => decide (t.1 = pkt ∧ t.2.1 = n ∧ t.2.2 + 1800 * d.nipWait ≤ s.clk.life)

/-- NIP_WAIT_EXPIRED (R564–R566): a first expiry asks for the packet again, a second that counts is a step fault. -/
def nipWaitExpired (c id peer pkt : Nat) (s : State) : State :=
  match s.coll? c id with
  | none => s
  | some d => match d.edge? peer with
    | none => s
    | some e =>
      if d.faulted ∨ d.running.isNone then s
      else if s.timerDue d e pkt 0 then
        ((s.modColl c id fun y => y.modEdge peer fun z => { z with
            reissues := z.reissues + 1, timers := z.timers.map fun x => if x.1 = pkt then (x.1, 1, s.clk.life) else x })).collSend c d 5 0 peer pkt []
      else if s.timerDue d e pkt 1 then
        (((s.ctxCount c 0x0D02 2).modColl c id fun y => y.modEdge peer fun z => { z with timeouts := z.timeouts + 2 })).collFault c id 2 (s.edgePort peer) peer pkt 0
      else s

/-! ### Installation (R550, R554, R569) -/

/-- COLLECTIVE (R550, R554, R645): the descriptor is read, checked and installed; with ONCE its one occurrence begins. -/
def collective (c q : Nat) (n : W32) (s : State) : State :=
  let k := 8 + q
  match s.entryAt c k n 0x20 with
  | none => s
  | some e =>
    let x := s.ctx c
    let fail (st : Nat) (d : Detail := {}) : State := s.setOutcome c k n (failed st d)
    let id := e.fld 0x18 4
    let a := e.fld 0x20 8
    match x.colls.find? fun d => decide (d.once = some (k, n)) with
    | some d => s.startOcc c d.id (d.occ + 1)
    | none =>
      if 1023 < id then fail invalid { arg := 0x18 }
      else if s.locInvalid c 1 a 128 then fail invalid { arg := 0x20 }
      else if x.st = .running then s.setOutcome c k n (stateFailed x.st)
      else
        let d0 : Coll := { id := id, desc := s.ctxRead c a 128, edges := [] }
        let d : Coll := { d0 with edges := d0.newEdges, nipWait := s.settingNat 0x09, occ := (x.prog.map fun g => if d0.isOnce then 0 else occBefore g.calPeriod d0.start x.sched).getD 0 }
        let ports := d.edges.map fun y => s.edgePort y.peer
        match d.badField (x.prog.map (·.calPeriod)) with
        | some o => fail invalid { arg := 0x20, extra := o }
        | none =>
          match d.areas.find? fun y => s.locInvalid c 1 y.2.1 y.2.2 || touchesRegion x y.2.1 y.2.2 with
          | some y => fail invalid { arg := 0x20, extra := y.1 }
          | none =>
            if ports.any fun p => decide (17 < p) || !((s.port p).groups.contains (d.fld 1 1)) then fail invalid { arg := 0x20, extra := 1 }
            else if d.reduces ∧ ports.any fun p => (s.port p).eth then fail invalid { arg := 0x20, extra := 0x3A }
            else if (d.isOnce ∧ x.st ≠ .bound ∧ x.st ≠ .placed) ∨ (x.colls.any fun y => decide (y.id = id) && y.running.isSome) then s.setOutcome c k n (stateFailed x.st)
            else match s.mgmt.modes.find? (·.mode = 2) with
              | some m => fail conflict { kind := 3, state := 1, extra := m.applied.length * 2 ^ 16 + 2 }
              | none =>
                let others := x.colls.filter fun y => decide (y.id ≠ id)
                if 256 ≤ others.length ∨ s.dies.nipOff.length = 6 then fail noResource
                else
                  let s1 := s.modCtx c fun y => { y with colls := others ++ [{ d with once := if d.isOnce then some (k, n) else none }] }
                  if d.isOnce then s1.startOcc c id 1 else s1.setOutcome c k n { status := ok }

/-- The record of an edge (R568). -/
def Edge.record (e : Edge) : List RByte :=
  fld 2 e.peer ++ fld 1 (if e.child then 1 else 0) ++ rsvd 1 ++ fld 2 e.reissues ++ fld 2 e.timeouts ++ fld 8 e.pkts ++ fld 16 e.tx.toNat ++ fld 16 e.rx.toNat

/-- COLL_STATUS (R568). -/
def mbCollStatus : MbFun := fun _ p s => checked 4 [(1, 1)] p s fun _ => withCtx p s fun c =>
  match s.coll? c (arg p 2 2) with
  | none => (s, err notFound { arg := 2 })
  | some d =>
    let st := if d.faulted then 2 else if d.running.isSome then 1 else 0
    (s, okResp (fld 4 d.id ++ fld 1 st ++ fld 1 d.edges.length ++ fld 1 (if d.flip then 1 else 0) ++ rsvd 1 ++ fld 8 d.occ
      ++ (d.edges.map Edge.record).flatten))

/-! ### Arms -/

/-- COLL_STATUS of the host. -/
def execCollStatus (p : Payload) (s : State) : Host.Outcome State Fault Refusal := nextOf s (hostCmd .q 0x00B8 mbCollStatus p s)
/-- COLLECTIVE. -/
def execCollective (c : Ctx) (q : Qn) (n : W32) (s : State) : Host.Outcome State Fault Refusal := nextOf s (collective c q n s)
/-- CONTRIB. -/
def execContrib (s : State) : Host.Outcome State Fault Refusal := nextOf s (contrib s)
/-- RESULT. -/
def execResult (s : State) : Host.Outcome State Fault Refusal := nextOf s (result s)
/-- DATA. -/
def execData (s : State) : Host.Outcome State Fault Refusal := nextOf s (data s)
/-- ACK. -/
def execAck (s : State) : Host.Outcome State Fault Refusal := nextOf s (ack s)
/-- REISSUE_REQ. -/
def execReissueReq (s : State) : Host.Outcome State Fault Refusal := nextOf s (reissueReq s)
/-- PENDING. -/
def execPending (s : State) : Host.Outcome State Fault Refusal := nextOf s (pending s)
/-- DIGEST. -/
def execDigest (s : State) : Host.Outcome State Fault Refusal := nextOf s (digest s)
/-- COLLECTIVE_OCCURRENCE_START. -/
def execCollectiveOccurrenceStart (c : Ctx) (id : W32) (s : State) : Host.Outcome State Fault Refusal :=
  nextOf s (collectiveOccurrenceStart c id.toNat s)
/-- COLLECTIVE_OCCURRENCE_DONE. -/
def execCollectiveOccurrenceDone (c : Ctx) (id : W32) (s : State) : Host.Outcome State Fault Refusal :=
  nextOf s (collectiveOccurrenceDone c id.toNat s)
/-- NIP_WAIT_EXPIRED. -/
def execNipWaitExpired (c : Ctx) (id : W32) (peer : W16) (pkt : W32) (s : State) : Host.Outcome State Fault Refusal :=
  nextOf s (nipWaitExpired c id.toNat peer.toNat pkt.toNat s)

end Sys2Proof.Machine
end

