-- ==== Sys2Proof/Machine/Jobs.lean ====
section
/-!
DEFINITION. Jobs (R572–R606): JOB_CREATE to JOB_RESTART, formation, losses, the restart vote, restarts, and the steps of membership packets.
A packet step takes the oldest MEMBER packet of its SUB. Readings of this file: log entry 33.
-/
namespace Sys2Proof.Machine

/-! ### The peer list (R572) -/

/-- The ADDR array of a peer list. -/
def peerAddrs (n : Nat) (b : List Byte) : List Nat := (List.range n).map fun i => unle ((b.drop (0x40 + 2 * i)).take 2)

/-- The list is well formed for a request (R572). -/
def peersOk (n rank addr : Nat) (b : List Byte) : Bool :=
  let l := peerAddrs n b
  decide (unle (b.take 2) = 1) && decide (unle ((b.drop 2).take 2) = n) && (argBytes b 4 4).all (· = 0) && (argBytes b 0x28 24).all (· = 0)
    && decide (l.getD rank 0xFFFF = addr) && decide (l.eraseDups.length = n)

/-- What a request to form or restart a job needs of the module (R572, R645, R678). -/
def State.jobBar (s : State) (c : Nat) : Option Resp :=
  if s.start.pwr ≠ .m0 then some (pwrConflict s)
  else if s.fabAddr = 0xFFFF then some (err conflict { kind := 5 })
  else match s.jobOfCtx c with
    | some j => some (err conflict (jobConflict j.st))
    | none => s.portModeBar

/-- A job as its request and peer list give it. -/
def newJob (id c n rank : Nat) (b : List Byte) (op : Nat) : Job :=
  { id := id, st := .forming, ctx := c, nmod := n, rank := rank, serial := 0, epoch := 1, addrs := peerAddrs n b, peersCrc := crc32c b
    areas := [unle (argBytes b 8 8), unle (argBytes b 0x10 8), unle (argBytes b 0x18 8), unle (argBytes b 0x20 8)], op := some op, lost := [] }

/-- The tree neighbours that a job has beside `old` are heard from now on (R579). -/
def Job.greet (j : Job) (old : List Nat) (life : Nat) : Job :=
  { j with heard := (j.neighbours.filter fun r => !old.contains r).foldl (fun m r => m.set r life) j.heard }

/-- Every job hears its new neighbours after a change of what is lost; `was` holds the same jobs, in their order, before it (R576, R579). -/
def State.greetAll (s : State) (was : List Job) : State :=
  let upd (i : Nat) (j : Job) : Job := match was[i]? with
    | some o => if o.treeLost = j.treeLost then j else j.greet o.neighbours s.clk.life
    | none => j
  { s with jobs := s.jobs.mapIdx upd }

/-- A formation begins: its time runs from now, under the settings in force (R573, R587, R650). -/
def State.forms (s : State) (id : Nat) : State :=
  s.modJob id fun y => { y with since := s.clk.life, formS := s.settingNat 0x0E, gatherUs := s.settingNat 0x0F, beat := none }

/-! ### Formation (R573, R600) -/

/-- Body of this member's HELLO (R577, R600). -/
def State.helloBody (s : State) (j : Job) : List Byte :=
  le 2 j.nmod ++ le 1 (if j.joiner then 1 else 0) ++ le 1 0 ++ le 4 s.mgmt.runVer.toNat ++ le 4 j.peersCrc ++ zeros 4 ++ le 8 j.genDone

/-- A HELLO agrees with this member's own values (R573). -/
def State.helloAgrees (s : State) (j : Job) (b : List Byte) : Bool :=
  decide (unle (b.take 2) = j.nmod) && decide (unle (argBytes b 4 4) = s.mgmt.runVer.toNat) && decide (unle (argBytes b 8 4) = j.peersCrc)

/-- A formation ends without success (R573, R601): a new job is forgotten, a member is BROKEN again, a joiner EXCLUDED. -/
def State.formFailed (s : State) (id st : Nat) : State :=
  match s.job? id with
  | none => s
  | some j =>
    let s1 := s.finishOp? j.op st []
    if j.restarts then s1.modJob id fun y => { y with st := if y.joiner then .excluded else .broken, op := none, unacked := [], hellos := [], own := none }
    else { s1 with jobs := s1.jobs.filter (·.id ≠ id) }

/-- Groups with more than two ranks to rebuild (R601). -/
def Job.hopeless (j : Job) (joiners : List Nat) : Option (Nat × Nat) :=
  ((List.range (j.nmod / max 1 j.m)).map fun g => (g, (joiners.filter fun r => decide (r / j.m = g)).length)).find? fun x => decide (2 < x.2)

/-- DECISION FORMED on this member (R573, R600): a new job is ACTIVE; a restart goes on with the generation chosen, unless it cannot. -/
def State.applyFormed (s : State) (id gen step : Nat) (joiners : List Nat) : State :=
  match s.job? id with
  | none => s
  | some j =>
    if j.st ≠ .forming then s
    else
      let s1 := s.memberSendAll id 4 j.children (decisionBody 3 gen step joiners)
      let s2 := if j.serial = 0 then s1.tookSerial.modJob id fun y => { y with serial := s1.newSerial } else s1
      if !j.restarts then (s2.modJob id fun y => ({ y with st := .active, op := none, hellos := [] } : Job).greet [] s.clk.life).finishOp? j.op ok []
      else match j.hopeless joiners with
        | some (g, k) => (s2.logErr 0x0683 (s.ctxAt j.ctx) (le 8 id ++ le 2 g ++ le 2 k ++ zeros 4)).formFailed id integrity
        | none => s2.modJob id fun y => ({ y with
            st := .restarting, hellos := [], votes := [], own := none, voted := false, alerted := [], lost := (y.lost ++ joiners).eraseDups
            gen := gen, genDone := gen, protGen := gen, protStep := if y.joiner then step else y.stepOfGen gen
            genSteps := y.genSteps.filter fun (e : Nat × Nat) => decide (e.1 ≤ gen)
            saved := y.saved.filter fun (e : Nat × Saved) => decide (e.1 ≤ gen) } : Job).greet [] s.clk.life

/-- Rank 0 forms the job once every rank's HELLO agrees; a restart takes the newest generation complete on every survivor (R573, R600). -/
def State.tryForm (s : State) (id : Nat) : State :=
  match s.job? id with
  | none => s
  | some j =>
    let all := (List.range j.nmod).all fun r => j.hellos.any fun h => decide (h.1 = r) && h.2.1
    if j.rank ≠ 0 ∨ j.st ≠ .forming ∨ !all then s
    else
      let gen := ((j.hellos.filter fun h => !h.2.2.1).map fun h => h.2.2.2).foldl minGen (2 ^ 64 - 1)
      let joiners := ((List.range j.nmod).filter fun r => j.hellos.any fun h => decide (h.1 = r) && h.2.2.1)
      s.applyFormed id gen (if j.joiner then 2 ^ 64 - 1 else j.stepOfGen gen) joiners

/-- A member that forms says HELLO to rank 0; rank 0 counts its own. -/
def State.sayHello (s : State) (id : Nat) : State :=
  match s.job? id with
  | none => s
  | some j =>
    if j.rank = 0 then (s.modJob id fun y => { y with hellos := y.hellos ++ [(0, true, y.joiner, y.genDone)] }).tryForm id
    else s.memberSend id 2 0 (s.helloBody j)

/-! ### Losses (R580–R582, R590) -/

/-- Every collective occurrence of a context's job is abandoned, its timers stopped (R582). -/
def State.abandonColls (s : State) (c : Nat) : State :=
  ((s.ctx c).colls.foldl (fun (a : State) d => match d.once with
    | some e => a.setOutcome c e.1 e.2 (failed orphaned)
    | none => a) s).modCtx c fun x => { x with colls := x.colls.map fun (d : Coll) => { d with
        running := none, faulted := false, once := none, edges := d.edges.map fun (e : Edge) => { e with timers := [], digestDue := false } } }

/-- A refresh that is not complete on this member is abandoned; the generations before it stand (R590). An EC_SETUP ends with it. -/
def State.abandonRefresh (s : State) (id : Nat) : State :=
  match s.job? id with
  | none => s
  | some j =>
    let n := if j.genDone = j.gen then j.gen else if j.genDone = 2 ^ 64 - 1 then 0 else j.genDone
    let s1 := if j.setup then s.finishOp? j.op orphaned [] else s
    (s1.modJob id fun y => { y with
      gen := n, copying := false, refreshDue := false, setup := false, op := if j.setup then none else y.op, k := if j.setup then 0 else y.k
      genSteps := y.genSteps.filter fun (e : Nat × Nat) => decide (e.1 ≤ n)
      saved := y.saved.filter fun (e : Nat × Saved) => decide (e.1 ≤ n)
      ecGot := y.ecGot.filter fun (e : Nat × Nat × Bool × Nat) => decide (e.1 ≤ n) }).modCtx j.ctx fun x => { x with snapWait := false }

/-- Nominal parent and children of a rank (R576). -/
def Job.nominal (j : Job) (r : Nat) : List Nat :=
  (if r = 0 then [] else [(r - 1) / 16]) ++ (rangeFrom (16 * r + 1) 16).filter (· < j.nmod)

/-- Body of a VOTE (R577). -/
def voteBody (code nvoted gen : Nat) (lost : List Nat) : List Byte := le 1 code ++ zeros 3 ++ le 2 nvoted ++ zeros 2 ++ le 8 gen ++ lostMap lost

/-- DECISION RESTART on this member (R589, R590, R596): the step in progress is abandoned and the job is BROKEN. -/
def State.applyRestart (s : State) (id : Nat) (lost : List Nat) : State :=
  match s.job? id with
  | none => s
  | some j =>
    if j.st ≠ .active ∧ j.st ≠ .voting then s
    else
      let c := j.ctx
      let all := (j.lost ++ lost).eraseDups
      let s1 := ((s.modJob id fun y => { y with lost := all }).greetAll s.jobs).memberSendAll id 4 ({ j with lost := all } : Job).children (decisionBody 2 j.protGen j.protStep lost)
      let s2 := (s1.logErr 0x0682 (s.ctxAt c) (le 8 id ++ le 4 j.epoch ++ le 2 all.length ++ zeros 2 ++ le 8 j.protStep)).ctxCount c 0x0D22 1
      let s3 := ((s.ctx c).ecWaits.foldl (fun a w => a.setOutcome c w.1 w.2.1 (failed orphaned)) s2).modCtx c fun x => { x with ecWaits := [], jobOk := none }
      let s4 := ((s3.orphanCovers c).abandonColls c).abandonRefresh id
      let s5 := match (s.ctx c).prog with
        | some g => if (s.ctx c).run.isSome then s4.abandonStep c g rJob orphaned else s4
        | none => s4
      s5.modJob id fun y => { y with
        st := if all.contains j.rank then .excluded else .broken, lost := all, own := none, voted := false, votes := [], gathered := false, lastDecision := none }

/-- The restart vote (R583, R586, R587): sent again whenever the children are in; the effective root decides once the window has ended and every
live member is counted. -/
def State.voteRestart (s : State) (id : Nat) : State :=
  match s.job? id with
  | none => s
  | some j =>
    let l := j.votes.filter fun v => decide (v.2.1 = 2) && j.children.contains v.1
    if j.st ≠ .voting ∨ !(j.children.all fun r => l.any fun v => decide (v.1 = r)) then s
    else
      let n := l.foldl (fun a v => a + v.2.2.1) 1
      let lost := (l.foldl (fun a v => a ++ v.2.2.2.2) j.lost).eraseDups
      match j.parent j.rank with
      | some p => s.memberSend id 3 p (voteBody 2 n (l.foldl (fun a v => minGen a v.2.2.2.1) j.genDone) lost)
      | none =>
        if !j.gathered ∨ n + lost.length < j.nmod then s
        else
          let s1 := match j.lastDecision with
            | some (step, att, b) => (j.children.filter fun r => decide (r = 0 ∨ (r - 1) / 16 ≠ j.rank)).foldl (fun (a : State) r => a.memberSendAt id 4 r step att b) s
            | none => s
          s1.applyRestart id lost

/-- The context of a job in VOTING holds: a schedule that runs, from the next frame boundary; a hold of another kind from now on; one that waits for
a DECISION still waits for it (R582, R586). -/
def State.holdJob (s : State) (c : Nat) : State :=
  s.modCtx c fun x => { x with hold := match x.hold with
    | .none => .none
    | .decide t => if (s.ctx c).snapWait then .stopped else .decide t
    | _ => .stopped }

/-- A member declares or learns of a loss, in the tree as it stands (R580, R582, R590). -/
def State.takeLost (s : State) (id rank cause : Nat) : State :=
  match s.job? id with
  | none => s
  | some j =>
    let live := decide (j.st = .active ∨ j.st = .voting ∨ j.st = .broken ∨ j.st = .restarting) || j.restarts
    if !live ∨ j.nmod ≤ rank ∨ rank = j.rank ∨ (j.alerted ++ if j.restarts then [] else j.lost).contains rank then s
    else
      let known := rank :: j.lost
      let dests := (j.neighbours ++ j.nominal rank).eraseDups.filter fun r => decide (r ≠ j.rank) && !known.contains r
      let s1 := s.logErr 0x0681 (s.ctxAt j.ctx) (le 8 id ++ le 2 rank ++ le 2 (j.addrs.getD rank 0xFFFF) ++ le 1 cause ++ zeros 3)
      let s2 := s1.memberSendAll id 5 dests (le 2 rank ++ le 1 cause ++ zeros 5)
      let s3 := s2.modJob id fun y => { y with
        lost := (y.lost ++ [rank]).eraseDups, alerted := y.alerted ++ [rank], unacked := y.unacked.filter fun (u : Unacked) => decide (u.rank ≠ rank) }
      if j.st = .active ∨ j.st = .voting then
        let s4 := ((s3.abandonColls j.ctx).holdJob j.ctx).abandonRefresh id
        (s4.modJob id fun y => { y with st := .voting, since := if j.st = .voting then y.since else s.clk.life, voted := false, votes := y.votes.filter fun v => decide (v.2.1 = 2) }).voteRestart id
      else if j.st = .restarting then
        (s3.finishOp? j.op orphaned []).modJob id fun y => { y with
          st := if y.joiner then .excluded else .broken, op := none, own := none, voted := false, votes := [] }
      else s3

/-- A member declares or learns of a loss; its tree is another then (R576, R579, R582). -/
def State.declareLost (s : State) (id rank cause : Nat) : State := (s.takeLost id rank cause).greetAll s.jobs

/-! ### Restarts (R599–R601) -/

/-- The committed copies take the bytes of a shard's regions, in region order (R591, R600). -/
def State.writeRegions (s : State) (c : Nat) (b : List Byte) : State :=
  let x := s.ctx c
  let rs := (x.prog.map (·.regions)).getD []
  ((List.range rs.length).foldl (fun (a : State × List Byte) i =>
    let r := rs.getD i ⟨0, 0, 0, false⟩
    if !r.double then a
    else (a.1.ctxWrite c (if x.flips.getD i false then r.baseB else r.baseA) (a.2.take r.len), a.2.drop r.len)) (s, b)).1

/-- A context takes the state of a save block, as a resumption does; its reload prologue waits for the next RUN (R322, R512, R600). -/
def State.restoreSaved (s : State) (c : Nat) (v : Saved) : State :=
  match (s.ctx c).prog with
  | none => s
  | some g =>
    let s1 := s.modCtx c fun x => { x with
      commit := v.commit, step := v.step, flips := v.flips, sync := v.sync, sched := v.commit.sched, started := !v.commit.tiles.isEmpty, proAgain := true
      sampled := [], faults := [], violated := false, rollbacks := 0, attempt := 0, replicaRb := 0, balanceRb := none, memErrs := []
      queues := x.queues.mapIdx fun k (q : Queue) => { q with
        fed := (v.feeds.getD k (0, 0)).1, taken := (v.feeds.getD k (0, 0)).2, fedRec := (v.feeds.getD k (0, 0)).1, takenRec := (v.feeds.getD k (0, 0)).2, feeds := [] }
      colls := x.colls.map fun (d : Coll) => { d with
        flip := ((v.scaleFlips.find? (·.1 = d.id)).map (·.2)).getD d.flip, doneInStep := false
        occ := if d.isOnce then d.occ else occBefore g.calPeriod d.start v.commit.sched } }
    let s2 := v.counters.foldl (fun a e => a.modPt e.1 fun p => { p with counters := p.counters.set e.2.1 e.2.2 }) s1
    let s3 := (s2.ctx c).colls.foldl (fun (a : State) d => match v.tables.find? (·.1 = d.id) with
      | some t => a.ctxWrite c (d.table false) t.2
      | none => a) s2
    let s4 := s3.loadTiles c g
    let s5 := (s3.ctx c).held.foldl (fun (a : State) p => (sheetsOfPt p).foldl (fun b n => b.modSheet n fun y => { y with sprog := v.commit.sched }) a) s4
    v.commit.tiles.foldl (fun a e => match a.physTile c (e.1 / 128) (e.1 % 128) with
      | some i => a.modTile i fun t => { t with cst := e.2 }
      | none => a) s5

/-- DECISION RESTARTED on this member (R600, R605). -/
def State.applyRestarted (s : State) (id : Nat) : State :=
  match s.job? id with
  | none => s
  | some j =>
    if j.st ≠ .restarting then s
    else
      let s1 := s.memberSendAll id 4 j.children (decisionBody 4 j.protGen j.protStep [])
      let s2 := s1.logErr 0x0684 (s.ctxAt j.ctx) (le 8 id ++ le 4 (j.epoch + 1) ++ le 2 j.lost.length ++ zeros 2 ++ le 8 (s.ctx j.ctx).step)
      (s2.finishOp? j.op ok []).modJob id fun y => { y with
        st := .active, epoch := y.epoch + 1, lost := [], alerted := [], joiner := false, op := none, own := none, voted := false, votes := [], lastDecision := none }

/-- A joiner's decoded shard failed: JOB_RESTART completes with INTEGRITY_FAIL on every member (R601). -/
def State.restartFailed (s : State) (id : Nat) : State :=
  match s.job? id with
  | none => s
  | some j =>
    if j.st ≠ .restarting then s
    else
      let s1 := s.memberSendAll id 4 j.children (decisionBody 1 j.protGen j.protStep [])
      (s1.finishOp? j.op integrity []).modJob id fun y => { y with
        st := if y.joiner then .excluded else .broken, op := none, own := none, voted := false, votes := [] }

/-- Reports that a member's subtree is restored go up the tree; the root ends the restart (R600, log entry 33). -/
def State.tryRestored (s : State) (id : Nat) : State :=
  match s.job? id with
  | none => s
  | some j => match j.own with
    | none => s
    | some own =>
      if j.st ≠ .restarting ∨ j.voted ∨ !j.childrenIn then s
      else
        let v := j.combined own
        match j.parent j.rank with
        | some p => (s.memberSend id 3 p (voteBody v.1 v.2.1 v.2.2.1 [])).modJob id fun y => { y with voted := true }
        | none => if v.1 = 0 then s.applyRestarted id else s.restartFailed id

/-- RESTART_STATE_RESTORED (R600, R601): a survivor's state is that of the generation chosen; a joiner's comes decoded, its data chunks, its P and
its Q. -/
def restartStateRestored (job : Nat) (shard : ReadResult) (s : State) : State :=
  match s.job? job with
  | none => s
  | some j =>
    if j.st ≠ .restarting ∨ j.own.isSome then s
    else
      let c := j.ctx
      let report (t : State) (code : Nat) : State := (t.modJob job fun y => { y with own := some code }).tryRestored job
      if !j.joiner then
        match j.saved.find? (·.1 = j.gen) with
        | some v =>
          let b := s.ctxRead c (j.slotBase j.gen) j.shardLen
          report ((s.restoreSaved c v.2).writeRegions c (b.drop Config.saveLen)) 0
        | none => report s 1
      else match shard with
        | .data b =>
          if b.length ≠ j.shardLen + 2 * j.chunk then s
          else
            let v0 := Config.joinedBlock s.fresh
            let v : Saved := if j.protStep = 2 ^ 64 - 1 then v0 else { v0 with step := j.protStep }
            let s1 := (({ s with fresh := s.fresh + 1 }).restoreSaved c v).writeRegions c ((b.take j.shardLen).drop Config.saveLen)
            let s2 := (s1.ctxWrite c (j.slotBase j.gen) (b.take j.shardLen)).ctxWrite c (j.parityBase j.gen false) (b.drop j.shardLen)
            report ((s2.ctxCount c 0x0D25 j.shardLen).modJob job fun y => { y with
              protStep := v.step, genSteps := [(0, v.base)] ++ (if y.gen = 0 then [] else [(y.gen, v.step)]), saved := [(y.gen, v)] }) 0
        | _ => report s 1

/-! ### Packets (R577, R578) -/

/-- Take the oldest MEMBER packet of a SUB; one that matches no job is stale. `any` says where another EPOCH is taken. -/
def State.onMember (s : State) (sub : Nat) (any : Job → List Byte → Bool) (f : Packet → Nat → Job → State → State) : State :=
  match s.takePacket fun k => decide (k.typ = 8 ∧ unle (k.payload.take 1) = sub) with
  | none => s
  | some (k, s1) =>
    let r := unle (argBytes k.payload 2 2)
    let ep := unle (argBytes k.payload 8 4)
    let body := k.payload.drop 16
    match s1.jobs.find? fun j => decide (j.tag = k.jobTag ∧ j.id / 2 ^ 32 = unle (argBytes k.payload 12 4) ∧ j.st ≠ .none ∧ j.st ≠ .excluded) with
    | none => s1.stale k
    | some j =>
      let guest := j.joiner && decide (j.st = .forming)
      if !(decide (ep = j.wireEpoch) || guest || any j body) ∨ j.addrs.getD r 0x10000 ≠ k.src then s1.stale k
      else if j.lost.contains r ∧ !j.restarts then s1
      else
        let s2 := if guest ∧ ep ≠ 0 then s1.modJob j.id fun y => { y with epoch := ep - 1 } else s1
        let s3 := if sub = 1 ∨ sub = 7 then s2 else s2.memberSendAt j.id 7 r k.step k.attempt (le 4 (unle (argBytes k.payload 4 4)) ++ zeros 4)
        match s3.job? j.id with
        | some y => f k r y s3
        | none => s3

/-- HELLO (R573, R600, R602). -/
def hello (s : State) : State :=
  match s.takePacket fun k => decide (k.typ = 8 ∧ unle (k.payload.take 1) = 2) with
  | none => s
  | some (k, s1) =>
    let forming := s1.jobs.any fun j => decide (j.tag = k.jobTag ∧ j.id / 2 ^ 32 = unle (argBytes k.payload 12 4) ∧ j.st = .forming)
    if !forming then s1.stale k
    else s.onMember 2 (fun j b => decide (j.rank = 0) && j.restarts && decide (unle (argBytes b 2 1) = 1)) fun k r j t =>
      let b := k.payload.drop 16
      let good := t.helloAgrees j b
      if j.rank = 0 then
        let t1 := t.modJob j.id fun y => { y with
          hellos := (y.hellos.filter fun h => decide (h.1 ≠ r)) ++ [(r, good, decide (unle (argBytes b 2 1) = 1), unle (argBytes b 16 8))] }
        if good then t1.tryForm j.id else t1.memberSend j.id 2 r (t1.helloBody j)
      else if r = 0 ∧ !good then t.formFailed j.id invalid
      else t

/-- VOTE (R583, R587, R590, R600): a per-step vote, a restart vote, or a report that a subtree is restored. -/
def vote (s : State) : State := s.onMember 3 (fun _ _ => false) fun k r j t =>
  let b := k.payload.drop 16
  let code := unle (b.take 1)
  let lost := bits j.nmod (unle (argBytes b 16 1024))
  let put (u : State) : State := u.modJob j.id fun y => { y with
    votes := (y.votes.filter fun v => decide (v.1 ≠ r)) ++ [(r, code, unle (argBytes b 4 2), unle (argBytes b 8 8), lost)] }
  if code = 2 then
    if j.st ≠ .active ∧ j.st ≠ .voting then t
    else (put (lost.foldl (fun (a : State) x => if j.lost.contains x then a else a.declareLost j.id x 6) t)).voteRestart j.id
  else if j.st = .restarting then (put t).tryRestored j.id
  else if j.st ≠ .active ∨ k.step ≠ (t.ctx j.ctx).step + 1 ∨ k.attempt ≠ (t.ctx j.ctx).attempt % 256 then t
  else (put t).tryVote j.id

/-- DECISION (R573, R583, R586, R589, R600). -/
def decision (s : State) : State := s.onMember 4 (fun _ _ => false) fun k _ j t =>
  let b := k.payload.drop 16
  let code := unle (b.take 1)
  let gen := unle (argBytes b 8 8)
  let step := unle (argBytes b 16 8)
  let lost := bits j.nmod (unle (argBytes b 24 1024))
  if code = 3 then t.applyFormed j.id gen step lost
  else if code = 4 then t.applyRestarted j.id
  else if code = 2 then t.applyRestart j.id lost
  else if j.st = .restarting then (if code = 1 then t.restartFailed j.id else t)
  else if (j.st ≠ .active ∧ j.st ≠ .voting) ∨ 4 < code ∨ k.step ≠ (t.ctx j.ctx).step + 1 ∨ k.attempt ≠ (t.ctx j.ctx).attempt % 256 then t
  else t.perStep j.id code gen step

/-- ALERT (R582, R590): the loss is learned from another member. -/
def alert (s : State) : State := s.onMember 5 (fun _ _ => false) fun k _ j t => t.declareLost j.id (unle (argBytes k.payload 16 2)) 6

/-- LEAVE (R580, R581): its sender is lost, with the cause it states. -/
def leave (s : State) : State := s.onMember 6 (fun _ _ => false) fun k r j t => t.declareLost j.id r (unle (argBytes k.payload 16 1))

/-- MEMBER_ACK (R578): the packet is sent no more. -/
def memberAck (s : State) : State := s.onMember 7 (fun _ _ => false) fun k r j t =>
  let q := unle (argBytes k.payload 16 4)
  t.modJob j.id fun y => { y with
    unacked := y.unacked.filter fun (u : Unacked) => !decide (u.rank = r ∧ u.seq = q)
    helloAcked := y.helloAcked || y.unacked.any fun (u : Unacked) => decide (u.rank = r ∧ u.seq = q) && decide (unle (u.bytes.take 1) = 2) }

/-! ### Timed steps and the link -/

/-- HEARTBEAT (R579): to every tree neighbour, 100 µs after the last; a member that forms says HELLO again while rank 0 has not acknowledged one
(log entry 33). -/
def heartbeat (job : Nat) (s : State) : State :=
  match s.job? job with
  | none => s
  | some j =>
    if j.beat.any fun t => decide (s.clk.life < t + usCyc 100) then s
    else
      let s1 := s.modJob job fun y => { y with beat := some s.clk.life }
      if j.st = .active ∨ j.st = .voting ∨ j.st = .broken ∨ j.st = .restarting then s1.memberSendAll job 1 j.neighbours []
      else if j.st = .forming ∧ j.rank ≠ 0 ∧ !j.helloAcked ∧ !(j.unacked.any fun u => decide (unle (u.bytes.take 1) = 2)) then s1.sayHello job
      else s

/-- HEARTBEAT_LOST (R579, R580): a tree neighbour has not been heard for 1 ms. -/
def heartbeatLost (job rank : Nat) (s : State) : State :=
  match s.job? job with
  | none => s
  | some j => if j.st ≠ .forming ∧ j.neighbours.contains rank ∧ j.heard.getD rank 0 + usCyc 1000 ≤ s.clk.life then s.declareLost job rank 3 else s

/-- An unacknowledged packet is to be sent again: 10 µs after it was sent last, at most four times (R578). -/
def State.resends (s : State) (u : Unacked) : Bool := decide (u.tries < 4) && decide (u.sentAt + usCyc 10 ≤ s.clk.life)

/-- MEMBER_RESEND (R578): each unacknowledged packet that is due again; one that has had its four goes unanswered. -/
def memberResend (job : Nat) (s : State) : State :=
  match s.job? job with
  | none => s
  | some j =>
    let s1 := s.modJob job fun y => { y with
      unacked := (y.unacked.filter fun (u : Unacked) => decide (u.tries < 4) || decide (s.clk.life < u.sentAt + usCyc 10)).map fun (u : Unacked) =>
        if s.resends u then { u with tries := u.tries + 1, sentAt := s.clk.life } else u }
    (j.unacked.filter s.resends).foldl (fun (a : State) u => a.sendPacket (j.packet u.rank u.step u.attempt u.bytes)) s1

/-- RESTART_GATHER_EXPIRED (R587): the gather window of the effective root has ended, RESTART_GATHER_US after it entered VOTING. -/
def restartGatherExpired (job : Nat) (s : State) : State :=
  match s.job? job with
  | none => s
  | some j => if j.st = .voting ∧ j.root = j.rank ∧ j.since + usCyc j.gatherUs ≤ s.clk.life then (s.modJob job fun y => { y with gathered := true }).voteRestart job else s

/-- JOB_FORM_TIMEOUT (R573, R601): JOB_FORM_S after the formation began. -/
def jobFormTimeout (job : Nat) (s : State) : State :=
  match s.job? job with
  | none => s
  | some j => if j.st = .forming ∧ j.since + j.formS * cycPerSec ≤ s.clk.life then s.formFailed job timeout else s

/-- The member of every job whose address a port reached is lost (R580). -/
def State.losePeer (s : State) (addr cause : Nat) : State :=
  s.jobs.foldl (fun a j => if j.addrs.contains addr then a.declareLost j.id (j.addrs.idxOf addr) cause else a) s

/-- RESET_NOTICE (R580): from the member attached to a port. -/
def resetNotice (p : Nat) (s : State) : State :=
  let x := s.port p
  if x.st ≠ .up ∨ x.eth ∨ x.peer = 0xFFFF#16 then s else s.losePeer x.peer.toNat 1

/-- PORT_DOWN (R570, R580): the link is gone, and with it its peer. -/
def portDown (p : Nat) (s : State) : State :=
  let x := s.port p
  if x.st ≠ .up then s
  else
    let s1 := s.modPort p fun y => { y with st := .down, lanes := 0, peer := 0xFFFF#16, peerPort := 0, credits := List.replicate 16 0, txq := [] }
    let s2 := s1.logFabric 0x0606 p (le 1 p ++ le 1 0 ++ zeros 2)
    if x.peer = 0xFFFF#16 then s2 else s2.losePeer x.peer.toNat 2

/-! ### Commands -/

/-- JOB_CREATE (R572, R573). -/
def mbJobCreate : MbFun := fun m p s => checked 24 [(9, 1), (14, 2)] p s fun _ =>
  let id := arg p 0 8
  let c := arg p 8 1
  let n := arg p 10 2
  let rank := arg p 12 2
  let a := arg p 16 8
  if 63 < c then (s, err invalid { arg := 8 })
  else if n < 2 ∨ 8192 < n then (s, err invalid { arg := 10 })
  else if n ≤ rank then (s, err invalid { arg := 12 })
  else
    let x := s.ctx c
    if x.alloc.isSome ∧ s.locInvalid c 1 a (0x40 + 2 * n) then (s, err invalid { arg := 16 })
    else if x.st ≠ .bound ∧ x.st ≠ .placed then (s, ctxConflict x.st)
    else match s.job? id with
      | some j => (s, err conflict (jobConflict j.st))
      | none => match s.jobBar c with
        | some r => (s, r)
        | none =>
          let b := s.ctxRead c a (0x40 + 2 * n)
          if !peersOk n rank s.fabAddr b then (s, err invalid { arg := 16 })
          else background s m 0x00B2 (s.handleOf (.ctx c)) fun op t => (({ t with jobs := t.jobs ++ [newJob id c n rank b op] }).forms id).sayHello id

/-- JOB_STATUS (R575). -/
def mbJobStatus : MbFun := fun _ p s => checked 8 [] p s fun _ =>
  match s.job? (arg p 0 8) with
  | none => (s, err notFound { arg := 0 })
  | some j => (s, okResp (s.jobStatus j))

/-- JOB_LEAVE (R581). A decision that was awaited is then the context's own; an EXCLUDED job is forgotten (log entry 33). -/
def mbJobLeave : MbFun := fun m p s => checked 8 [] p s fun _ =>
  let id := arg p 0 8
  match s.job? id with
  | none => (s, err notFound { arg := 0 })
  | some j => background s m 0x00B4 (s.hword 9 j.serial) fun op t =>
    if j.st = .excluded then ({ t with jobs := t.jobs.filter (·.id ≠ id) }.dropHandle (t.hword 9 j.serial)).readyOp op ok []
    else
      let c := j.ctx
      let t1 := (t.leaveJob id 4).modJob id fun y => { y with own := none, op := none, setup := false, unacked := [], votes := [] }
      let t2 : State := match j.op with
        | some o => t1.finishOp o orphaned []
        | none => t1
      let t3 : State := ((t.ctx c).ecWaits.foldl (fun (a : State) w => a.setOutcome c w.1 w.2.1 (failed orphaned)) t2).modCtx c fun x => { x with ecWaits := [], snapWait := false }
      let t4 : State := match (t.ctx c).prog, j.own, (t.ctx c).hold with
        | some g, some own, .decide _ => if j.st = .active then t3.rollOrCommit c g (decide (own = 0)) else if (t.ctx c).run.isSome then t3.abandonStep c g rJob orphaned else t3
        | some g, _, _ => if j.st = .voting ∧ (t.ctx c).run.isSome then t3.abandonStep c g rJob orphaned else t3
        | _, _, _ => t3
      t4.readyOp op ok []

/-- Bytes of a context's shard before padding (R591). -/
def State.shardSize (s : State) (c : Nat) : Nat :=
  Config.saveLen + ((((s.ctx c).prog.map (·.regions)).getD []).filter (·.double)).foldl (fun a r => a + r.len) 0
/-- The chunk size C (R591). -/
def chunkOf (len k : Nat) : Nat := ((len + k - 1) / k + 4095) / 4096 * 4096

/-- A WRITE16 entry outside the committed regions resolves into a context range (R593): every advance of R255 is looked at. -/
def writesInto (g : Prog) (al : Alloc) (a n : Nat) : Bool :=
  let gr := granuleBytes al.granule
  let m := al.nch * al.pts.length
  (List.range m).any fun i =>
    let l := g.lists.getD i ⟨0, 0, []⟩
    let step := Nat.gcd l.stride l.win
    l.ents.any fun e => decide (e.op = 2) && decide (e.region = 127) && (List.range (if e.adv ∧ step ≠ 0 then l.win / step else 1)).any fun v =>
      let off := 64 * (e.addr + v * step)
      let x := (off / gr * m + i) * gr + off % gr
      decide (x < a + n ∧ a < x + 960)

/-- EC_SETUP (R593, R594, R598, R645). -/
def mbEcSetup : MbFun := fun m p s => checked 16 [(9, 3)] p s fun _ =>
  let id := arg p 0 8
  let k := arg p 8 1
  let rn := arg p 12 4
  if k < 4 ∨ 14 < k then (s, err invalid { arg := 8 })
  else if 1048576 < rn then (s, err invalid { arg := 12 })
  else match s.job? id with
    | none => (s, err notFound { arg := 0 })
    | some j =>
      let c := j.ctx
      let x := s.ctx c
      let ch := chunkOf (s.shardSize c) k
      let ar (i : Nat) : Nat := j.areas.getD i 0
      let y : Job := { j with k := k, chunk := ch }
      let ports := ((y.groupOf j.rank).filter (· ≠ j.rank)).map fun r => s.edgePort (j.addrs.getD r 0xFFFF)
      let meets : Bool := match x.prog, x.alloc with
        | some g, some al => touchesRegion x (ar 0) (ar 1) || touchesRegion x (ar 2) (ar 3) || writesInto g al (ar 0) (ar 1) || writesInto g al (ar 2) (ar 3)
        | _, _ => false
      if j.nmod % (k + 2) ≠ 0 ∨ ar 1 < 2 * k * ch ∨ ar 3 < 4 * ch ∨ meets then (s, err invalid { arg := 8 })
      else if s.locInvalid c 1 (ar 0) (ar 1) ∨ s.locInvalid c 1 (ar 2) (ar 3) then (s, err invalid { arg := 8 })
      else if ports.any fun q => decide (17 < q) || !((s.port q).groups.contains 0x3F) then (s, err invalid { arg := 8 })
      else if j.st ≠ .active ∨ j.op.isSome then (s, err conflict (jobConflict j.st))
      else if x.st ≠ .placed then (s, ctxConflict x.st)
      else match s.portModeBar with
        | some r => (s, r)
        | none =>
          if s.dies.ecOff.length = 6 then (s, err noResource)
          else background s m 0x00B5 (s.handleOf (.job j.serial)) fun op t =>
            let b := t.shard c (k * ch)
            let t1 := t.ctxWrite c (ar 0) b
            ({ t1 with fresh := t1.fresh + 1 }).modJob id fun z => { z with
              k := k, refreshN := rn, chunk := ch, gen := 0, protGen := 2 ^ 64 - 1, genDone := 2 ^ 64 - 1, protStep := 0, genSteps := [(0, x.step)]
              saved := [(0, { t.saveOf c with base := x.step })], copying := true, setup := true, op := some op
              ecGot := z.ecGot.filter fun (e : Nat × Nat × Bool × Nat) => decide (e.1 = 0 ∧ z.k = 0) }

/-- JOB_RESTART (R599–R601, R645). -/
def mbJobRestart : MbFun := fun m p s => checked 32 [(9, 1), (14, 2), (25, 3)] p s fun _ =>
  let id := arg p 0 8
  let c := arg p 8 1
  let n := arg p 10 2
  let rank := arg p 12 2
  let a := arg p 16 8
  let k := arg p 24 1
  let rn := arg p 28 4
  if 63 < c then (s, err invalid { arg := 8 })
  else if n < 2 ∨ 8192 < n then (s, err invalid { arg := 10 })
  else if n ≤ rank then (s, err invalid { arg := 12 })
  else if k < 4 ∨ 14 < k ∨ n % (k + 2) ≠ 0 then (s, err invalid { arg := 24 })
  else if 1048576 < rn then (s, err invalid { arg := 28 })
  else
    let x := s.ctx c
    let old := s.job? id
    let member : Bool := match old with
      | some j => decide (j.st ≠ .excluded)
      | none => false
    let b := s.ctxRead c a (0x40 + 2 * n)
    if x.alloc.isSome ∧ s.locInvalid c 1 a (0x40 + 2 * n) then (s, err invalid { arg := 16 })
    else
      let bar : Option Resp := match old with
        | some j =>
          if j.st = .excluded then (if x.st ≠ .placed then some (ctxConflict x.st) else s.jobBar c)
          else if j.st ≠ .broken ∨ j.k = 0 then some (err conflict (jobConflict j.st))
          else if j.ctx = c ∧ x.st ≠ .placed then some (ctxConflict x.st)
          else if s.start.pwr ≠ .m0 then some (pwrConflict s) else s.portModeBar
        | none => if x.st ≠ .placed then some (ctxConflict x.st) else s.jobBar c
      match bar with
      | some r => (s, r)
      | none =>
        let fits : Bool := match member, old with
          | true, some j => decide (j.ctx = c ∧ j.nmod = n ∧ j.rank = rank ∧ j.peersCrc = crc32c b ∧ j.addrs = peerAddrs n b ∧ j.k = k ∧ j.refreshN = rn)
          | _, _ => peersOk n rank s.fabAddr b
        if !fits then (s, err invalid { arg := if member then 0 else 16 })
        else if !member ∧ s.dies.ecOff.length = 6 then (s, err noResource)
        else background s m 0x00B9 (s.handleOf (.ctx c)) fun op t =>
          let t1 := (List.range 18).foldl (fun (u : State) q =>
            if (u.port q).retrain ∧ (u.port q).groups.any (· ≠ 0) ∧ !(u.jobs.any fun j => decide (j.st = .active ∨ j.st = .voting)) then u.startTraining q else u) t
          let t2 : State := if member then
              t1.modJob id fun z => { z with
                st := .forming, op := some op, unacked := [], votes := [], hellos := [], own := none, voted := false, helloAcked := false, alerted := [] }
            else
              { t1 with jobs := (t1.jobs.filter (·.id ≠ id)) ++ [{ newJob id c n rank b op with
                  joiner := true, k := k, refreshN := rn, chunk := chunkOf (s.shardSize c) k, epoch := 0, serial := (old.map (·.serial)).getD 0 }] }
          (t2.forms id).sayHello id

/-! ### Arms -/

/-- JOB_CREATE of the host. -/
def execJobCreate (p : Payload) (s : State) : Host.Outcome State Fault Refusal := nextOf s (hostCmd .b 0x00B2 mbJobCreate p s)
/-- JOB_STATUS of the host. -/
def execJobStatus (p : Payload) (s : State) : Host.Outcome State Fault Refusal := nextOf s (hostCmd .q 0x00B3 mbJobStatus p s)
/-- JOB_LEAVE of the host. -/
def execJobLeave (p : Payload) (s : State) : Host.Outcome State Fault Refusal := nextOf s (hostCmd .b 0x00B4 mbJobLeave p s)
/-- EC_SETUP of the host. -/
def execEcSetup (p : Payload) (s : State) : Host.Outcome State Fault Refusal := nextOf s (hostCmd .b 0x00B5 mbEcSetup p s)
/-- JOB_RESTART of the host. -/
def execJobRestart (p : Payload) (s : State) : Host.Outcome State Fault Refusal := nextOf s (hostCmd .b 0x00B9 mbJobRestart p s)
/-- PORT_DOWN. -/
def execPortDown (p : Port) (s : State) : Host.Outcome State Fault Refusal := nextOf s (portDown p s)
/-- HEARTBEAT. -/
def execHeartbeat (job : W64) (s : State) : Host.Outcome State Fault Refusal := nextOf s (heartbeat job.toNat s)
/-- HEARTBEAT_LOST. -/
def execHeartbeatLost (job : W64) (rank : W16) (s : State) : Host.Outcome State Fault Refusal := nextOf s (heartbeatLost job.toNat rank.toNat s)
/-- HELLO. -/
def execHello (s : State) : Host.Outcome State Fault Refusal := nextOf s (hello s)
/-- VOTE. -/
def execVote (s : State) : Host.Outcome State Fault Refusal := nextOf s (vote s)
/-- DECISION. -/
def execDecision (s : State) : Host.Outcome State Fault Refusal := nextOf s (decision s)
/-- ALERT. -/
def execAlert (s : State) : Host.Outcome State Fault Refusal := nextOf s (alert s)
/-- LEAVE. -/
def execLeave (s : State) : Host.Outcome State Fault Refusal := nextOf s (leave s)
/-- MEMBER_ACK. -/
def execMemberAck (s : State) : Host.Outcome State Fault Refusal := nextOf s (memberAck s)
/-- RESET_NOTICE. -/
def execResetNotice (p : Port) (s : State) : Host.Outcome State Fault Refusal := nextOf s (resetNotice p s)
/-- MEMBER_RESEND. -/
def execMemberResend (job : W64) (s : State) : Host.Outcome State Fault Refusal := nextOf s (memberResend job.toNat s)
/-- RESTART_GATHER_EXPIRED. -/
def execRestartGatherExpired (job : W64) (s : State) : Host.Outcome State Fault Refusal := nextOf s (restartGatherExpired job.toNat s)
/-- JOB_FORM_TIMEOUT. -/
def execJobFormTimeout (job : W64) (s : State) : Host.Outcome State Fault Refusal := nextOf s (jobFormTimeout job.toNat s)
/-- RESTART_STATE_RESTORED. -/
def execRestartStateRestored (job : W64) (shard : ReadResult) (s : State) : Host.Outcome State Fault Refusal :=
  nextOf s (restartStateRestored job.toNat shard s)

end Sys2Proof.Machine
end

