-- ==== Sys2Proof/Machine/Memory.lean ====
section
/-!
DEFINITION. The compiled channel slots, the arrival of read words, scrubbing, package temperatures and self-refresh (R225, R226, R241–R277, R446, R483).
-/
namespace Sys2Proof.Machine

/-! ### Channel slots (R246–R255) -/

/-- FLIP of a region. -/
def Context.flip (x : Context) (r : Nat) : Bool := x.flips.getD r false

/-- Word address of data word `i` of an entry, relative to the allocation's first word (R255): `n` is the period counter, `side` the side that is
read or written. -/
def slotWord (g : Prog) (al : Alloc) (x : Context) (l : ChanList) (e : SlotEnt) (side : Bool) (n i : Nat) : Nat :=
  let w := e.addr + (if e.adv then n * l.stride % max 1 l.win else 0)
  let delta : Int := if e.region = 127 then 0 else
    if side ^^ x.flip e.region then (regionWords (al.nch * al.pts.length) (g.regions.getD e.region ⟨0, 0, 0, false⟩)).2.2 else 0
  ((w : Int) + delta).toNat + i

/-- The data burst that slot `j` of a list carries: entry, word index and the period counter at its s0 (R247, R248). -/
def slotBurst (g : Prog) (l : ChanList) (j : Nat) : Option (SlotEnt × Nat × Nat) :=
  let sp := max 1 g.slotPeriod
  l.ents.findSome? fun e =>
    let d := dataSlots g.refreshN e
    ((List.range d.length).find? fun i => decide (d.getD i 0 ≤ j ∧ (j - d.getD i 0) % sp = 0)).map fun i => (e, i, (j - d.getD i 0) / sp)

/-- A write slot (R156, R248, R251): the next word of the write buffer leaves the P-tile, where it is checked, for the channel; a word suppressed by
its predicate is dropped there (R210), and so is one that fails (DEDUCED, log entry 51). `flip` is what the wire changes. -/
def State.slotWrite (s : State) (c ch l tile : Nat) (flip : Link) (g : Prog) (al : Alloc) (cl : ChanList) (e : SlotEnt) (i n : Nat) : State :=
  let st := (s.tile tile).stateAt e.ctx
  match st.wrBuf with
  | [] =>
    let lp := (s.localOf c tile).getD (0, 0)
    s.breach c ⟨lp.1, lp.2, 9, 2, e.ctx, 16, 0, tile⟩
  | w :: r =>
    let s1 := s.modTile tile fun t => t.setState e.ctx { t.stateAt e.ctx with wrBuf := r }
    let word := slotWord g al (s.ctx c) cl e e.side n i
    let go (d : Option (BitVec 512)) : WriteRec := {
      due := s.clk.life + 6, ctx := c, ch := ch, off := 960 * al.baseG + 64 * word, addr := 8 * elemOfWord al l word, data := d
      mark := if e.side ∧ e.region ≠ 127 then some (e.region, elemOfWord al l (e.addr + i)) else none, last := decide (i = 14) }
    let send (a : State) (d : Option (BitVec 512)) : State := { a with crossing := a.crossing ++ [go d] }
    match w with
    | none => send s1 none
    | some d =>
      let x := dataWord (s.tile tile).ugen 0 false d ^^^ flip
      match checkWord x with
      | some cls => send (s1.wordFault c tile cls 2 6 x []) none
      | none => send s1 (some x.data)

/-- A read slot (R248, R249, R255, R510): the word is on its way to the P-tile, with what the array has wrong. -/
def State.slotRead (s : State) (c ch l j : Nat) (mesh pro : Bool) (g : Prog) (al : Alloc) (cl : ChanList) (e : SlotEnt) (side : Bool) (i n : Nat) : State :=
  let word := slotWord g al (s.ctx c) cl e side n i
  let off := 960 * al.baseG + 64 * word
  let a := 8 * elemOfWord al l word
  let d : BitVec 512 := if s.scratch.isEmpty then s.usableWord ch (off / 64)
    else ofBytes ((List.range 64).map fun k => (s.undefByte c (a + k)).getD (s.dram.get (mpa ch (off + k))))
  let r : ReadRec := {
    due := 6 * j + (if mesh then 161 else 173), ch := ch, list := l, cfg := e.ctx, off := off, committed := decide (e.region ≠ 127) && !side
    slot := j, data := d, dflaw := (s.chan ch).flaw (off / 960) (off % 960 / 64), cflaw := (s.chan ch).flaw (off / 960) 15
    lost := (s.chan ch).lost (off / 960), pro := pro }
  s.modCtx c fun x => { x with reads := x.reads ++ [r] }

/-- CHANNEL_SLOT_ISSUE (R246, R248, R510). -/
def channelSlotIssue (c ch : Nat) (flip : Link) (s : State) : State :=
  let x := s.ctx c
  match x.prog, x.alloc with
  | some g, some al =>
    let l := al.chans.idxOf ch
    let cl := g.lists.getD l ⟨0, 0, []⟩
    let t := s.portTile g al l
    if al.chans.length ≤ l ∨ (s.chan ch).slotAt = s.clk.life + 1 then s
    else
      let s1 := s.modChan ch fun y => { y with slotAt := s.clk.life + 1 }
      match s.proCycle c with
      | some n =>
        if n % 6 ≠ 0 then s
        else match slotBurst g cl (n / 6) with
          | some (e, i, _) => if e.op ≤ 1 ∧ e.region ≠ 127 then s1.slotRead c ch l (n / 6) t.2 true g al cl e false i 0 else s1
          | none => s1
      | none =>
        if x.sched % 6 ≠ 0 ∨ !s.schedRuns c then s
        else match slotBurst g cl (x.sched / 6) with
          | some (e, i, n) =>
            if e.op ≤ 1 then s1.slotRead c ch l (x.sched / 6) t.2 false g al cl e e.side i n
            else match t.1 with
              | some tile => s1.slotWrite c ch l tile flip g al cl e i n
              | none => s1
          | none => s1
  | _, _ => s

/-! ### Read words arrive (R249, R250, R270, R271) -/

/-- Remove the first element that a test accepts. -/
def takeFirst {α : Type} (f : α → Bool) : List α → Option (α × List α)
  | [] => none
  | a :: r => if f a then some (a, r) else (takeFirst f r).map fun x => (x.1, a :: x.2)

/-- DRAM_READ_ARRIVAL (R249, R250, R270): the word that is due from a channel at this SCHED enters the read buffer of its context at the P-tile, with
the bits that have changed in the array as it was read. Without the event the word arrives in the cycle that it is due as the array held it. -/
def dramReadArrival (c ch : Nat) (flips : List DramFlip) (s0 : State) : State :=
  let s := s0.decay flips
  let pro := s.proCycle c
  let now := pro.getD (s.ctx c).sched
  if !pro.isSome && !s.schedRuns c then s
  else match takeFirst (fun (r : ReadRec) => decide (r.ch = ch ∧ r.due = now ∧ r.pro = pro.isSome)) (s.ctx c).reads with
  | some (r, rest) =>
    let here (b : Nat) : BitVec 512 := flips.foldl (fun m f =>
      if f.ch.val = ch ∧ f.group.toNat = r.off / 960 ∧ f.burst.val = b then m ^^^ f.mask else m) 0
    (s.modCtx c fun y => { y with reads := rest }).deliverRead c
      { r with dflaw := r.dflaw ^^^ here (r.off % 960 / 64), cflaw := r.cflaw ^^^ here 15 }
  | none => s

/-! ### Scrubbing (R225, R226, R273) -/

/-- Words of the on-die store of a tile type: S-tile 65,536, operand store 4,096 (R222, R224). -/
def storeWords (row : Nat) : Nat := if tileType row = 3 then 65536 else if tileType row = 1 then 4096 else 0

/-- SRAM_SCRUB (R225, R226, R446). -/
def sramScrub (i : Nat) (lanes : Byte) (ecc : Ecc) (s : State) : State :=
  let n := storeWords (i % 16)
  let p := s.pt (ptOfSheet (i / 288))
  if n = 0 ∨ (p.pwr ≠ .run ∧ p.pwr ≠ .idle) then s
  else
    let t := s.tile i
    let w := t.scrub % n
    let s1 := s.modTile i fun y => { y with scrub := (w + 1) % n }
    let bad := decide (ecc = .uncorrectable ∨ ecc = .tagError) || t.badWords.contains w
    if bad then
      (s1.modTile i fun y => { y.gaveUe w with badWords := if y.badWords.contains w then y.badWords else y.badWords ++ [w] }).logErr 0x0402
        (s1.tileAt none i) (le 4 w ++ le 1 (if tileType (i % 16) = 3 then 0 else 1) ++ le 1 2 ++ [lanes] ++ le 1 0)
    else if ecc = .corrected then s1.modTile i fun y => (y.count 5 1).gaveCe w s.clk.life
    else s1

/-- DRAM_SCRUB (R272, R273): the next group; a corrected group is written back. A channel in self-refresh or broke is not scrubbed. -/
def dramScrub (ch : Nat) (flips : List DramFlip) (s0 : State) : State :=
  let s := s0.decay flips
  let x := s.chan ch
  if x.broke ∨ x.selfRefresh then s
  else
    let g := x.scrub % s.groupsPerChan
    let s1 := s.modChan ch fun y => { y with scrub := (g + 1) % s.groupsPerChan, scrubbed := (y.scrubbed + 1) % 2 ^ 48 }
    let l := (List.range 15).map fun i => s.wordEcc ch (960 * g + 64 * i)
    if l.contains .tagError then s1.engineEcc ch (960 * g) .tagError
    else if l.contains .uncorrectable then s1.engineEcc ch (960 * g) .uncorrectable
    else s1.modChan ch fun y => { y with flaws := y.flaws.filter fun f => decide (f.1 ≠ g) }

/-! ### Package temperatures (R265–R269) -/

/-- Bands of the packages of partitions: (package, band). -/
def State.bands (s : State) (pts : List Nat) : List (Nat × Nat) :=
  (pts.flatMap packagesOf).filterMap fun k => (s.dies.pkgTemp.get? k).map fun t => (k, bandOf t)

/-- A REFRESH_CLASS record: the packages concerned (R500). -/
def State.logRefresh (s : State) (c : Nat) (l : List (Nat × Nat)) : State :=
  s.logErr 0x0408 (s.ctxAt c) (le 1 l.length ++ zeros 3 ++ l.flatMap fun e => le 1 e.1 ++ le 1 e.2)

/-- The response of one context to its packages' bands (R268): a class N program ends at the next commit, or, as a class H program in band B3, the
context holds at the next frame boundary. -/
def State.refreshClass (s : State) (c : Nat) : State :=
  let x := s.ctx c
  match x.prog with
  | none => s
  | some g =>
    if x.run.isNone ∨ x.hotHold then s
    else
      let l := s.bands x.held
      let hot := l.filter fun e => if g.refreshN then decide (2 ≤ e.2) else decide (e.2 = 3)
      let warm := l.filter fun e => decide (e.2 = 1)
      if !hot.isEmpty then (s.logRefresh c hot).modCtx c fun y => { y with hotHold := true }
      else if g.refreshN ∧ !warm.isEmpty ∧ !x.refreshEnd then (s.logRefresh c warm).modCtx c fun y => { y with refreshEnd := true }
      else s

/-- DRAM_TEMP_SAMPLE (R265, R268, R269). -/
def dramTempSample (temps : List (Fin 48 × Int)) (s : State) : State :=
  let s1 : State := { s with dies := { s.dies with pkgTemp := temps.foldl (fun (m : KMap Int) e => m.set e.1.val e.2) s.dies.pkgTemp } }
  let hot (p : Nat) : Bool := (packagesOf p).any fun k => decide (105 < s1.dies.pkgTemp.getD k 0)
  let warm (p : Nat) : Bool := (packagesOf p).any fun k => decide (100 < s1.dies.pkgTemp.getD k 0)
  let s2 : State := { s1 with dies := { s1.dies with hotPts := (List.range 8).filter fun p => hot p || (s.dies.hotPts.contains p && warm p) } }
  (List.range 64).foldl State.refreshClass s2

/-! ### Self-refresh (R277) -/

/-- SELF_REFRESH_REENTRY (R277): 2^20 cyc without access on a channel of a partition that is Off. -/
def selfRefreshReentry (ch : Nat) (s : State) : State :=
  let x := s.chan ch
  if (s.pt (ptOfChan ch)).pwr = .off ∧ !x.selfRefresh ∧ x.wokenAt + 2 ^ 20 ≤ s.clk.life then s.modChan ch fun y => { y with selfRefresh := true } else s

/-! ### Arms -/

/-- CHANNEL_SLOT_ISSUE. -/
def execChannelSlotIssue (c : Ctx) (x : ChanSlot) (s : State) : Host.Outcome State Fault Refusal := nextOf s (channelSlotIssue c x.ch x.flip s)
/-- DRAM_READ_ARRIVAL. -/
def execDramReadArrival (c : Ctx) (ch : Ch) (flips : List DramFlip) (s : State) : Host.Outcome State Fault Refusal :=
  nextOf s (dramReadArrival c ch flips s)
/-- SRAM_SCRUB. -/
def execSramScrub (t : PTile) (lanes : Byte) (ecc : Ecc) (s : State) : Host.Outcome State Fault Refusal := nextOf s (sramScrub (ptileIx t) lanes ecc s)
/-- DRAM_SCRUB. -/
def execDramScrub (ch : Ch) (flips : List DramFlip) (s : State) : Host.Outcome State Fault Refusal := nextOf s (dramScrub ch flips s)
/-- DRAM_TEMP_SAMPLE. -/
def execDramTempSample (temps : List (Fin 48 × Int)) (s : State) : Host.Outcome State Fault Refusal := nextOf s (dramTempSample temps s)
/-- SELF_REFRESH_REENTRY. -/
def execSelfRefreshReentry (ch : Ch) (s : State) : Host.Outcome State Fault Refusal := nextOf s (selfRefreshReentry ch s)

end Sys2Proof.Machine
end

