-- ==== Sys2Proof/Machine/Sideband.lean ====
section
/-!
DEFINITION. The sideband endpoint (R607–R616, R630), attestation (R617–R622) and the mailbox over the sideband: MB_REQUEST to GET_MEASUREMENTS,
ENTDAA and FIRMWARE_DATA_PART.
-/
namespace Sys2Proof.Machine

/-! ### When the sideband answers (R607, R610, R705, R717) -/

/-- The sideband port is in service: aux is present and CT1 is not lost (R607). -/
def State.portUp (s : State) : Bool := s.start.aux && !s.dies.ct1Lost
/-- Messages other than MCTP control are answered: the endpoint has an EID and stage 1 has ended (R610, R705). -/
def State.sideUp (s : State) : Bool := s.portUp && s.side.eid.isSome && decide (2 ≤ s.start.stage)

/-! ### MB_REQUEST (R608, R613, R705) -/

/-- The command of a code: its kind and meaning (R298). -/
def mbOf (code : Nat) : Option (MbKind × MbFun) :=
  match code with
  | 0x0001 => some (.q, mbIdentify)
  | 0x0002 => some (.q, mbOpStatus)
  | 0x0003 => some (.q, mbDescribe)
  | 0x0004 => some (.q, mbResolve)
  | 0x0005 => some (.q, mbChildren)
  | 0x0006 => some (.q, mbStatus)
  | 0x0007 => some (.q, mbCounters)
  | 0x0008 => some (.f, mbGroupCreate)
  | 0x0009 => some (.f, mbGroupEdit)
  | 0x000A => some (.f, mbGroupDelete)
  | 0x000B => some (.q, mbStartStatus)
  | 0x0010 => some (.f, mbCtxCreate)
  | 0x0011 => some (.f, mbCtxDestroy)
  | 0x0012 => some (.f, mbCtxAlloc)
  | 0x0013 => some (.f, mbCtxFree)
  | 0x0014 => some (.f, mbCtxBind)
  | 0x0015 => some (.b, mbCtxSuspend)
  | 0x0016 => some (.b, mbCtxResume)
  | 0x0017 => some (.f, mbQueueConfig)
  | 0x0020 => some (.b, mbProgLoad)
  | 0x0021 => some (.b, mbProgUnload)
  | 0x0022 => some (.q, mbProgInfo)
  | 0x0030 => some (.bp, mbReset)
  | 0x0031 => some (.bp, mbFwRestart)
  | 0x0040 => some (.b, mbModeSet)
  | 0x0041 => some (.q, mbModeGet)
  | 0x0042 => some (.b, mbPowerSet)
  | 0x0050 => some (.b, mbFence)
  | 0x0051 => some (.b, mbUnfence)
  | 0x0060 => some (.b, mbTest)
  | 0x0061 => some (.q, mbTestResult)
  | 0x0062 => some (.q, mbLedgerRead)
  | 0x0070 => some (.bp, mbDumpTrigger)
  | 0x0071 => some (.q, mbDumpInfo)
  | 0x0072 => some (.bp, mbDumpRead)
  | 0x0073 => some (.f, mbDumpClear)
  | 0x0074 => some (.q, mbErrlogRead)
  | 0x0080 => some (.q, mbSettingsGet)
  | 0x0081 => some (.f, mbSettingsSet)
  | 0x0090 => some (.q, mbFwInfo)
  | 0x0091 => some (.f, mbFwStageBegin)
  | 0x0092 => some (.f, mbFwStageData)
  | 0x0093 => some (.b, mbFwStageCommit)
  | 0x0094 => some (.bp, mbFwRecoveryLoad)
  | 0x0095 => some (.b, mbFwSvnAdvance)
  | 0x0096 => some (.f, mbKeyEnrol)
  | 0x0097 => some (.f, mbKeyClear)
  | 0x0098 => some (.q, mbKeyList)
  | 0x00A0 => some (.q, mbReelInfo)
  | 0x00A1 => some (.b, mbReelEject)
  | 0x00A2 => some (.b, mbReelSeal)
  | 0x00A3 => some (.b, mbReelFormat)
  | 0x00B0 => some (.q, mbPortStatus)
  | 0x00B1 => some (.f, mbVcBind)
  | 0x00B2 => some (.b, mbJobCreate)
  | 0x00B3 => some (.q, mbJobStatus)
  | 0x00B4 => some (.b, mbJobLeave)
  | 0x00B5 => some (.b, mbEcSetup)
  | 0x00B6 => some (.f, mbRouteSet)
  | 0x00B7 => some (.q, mbRouteGet)
  | 0x00B8 => some (.q, mbCollStatus)
  | 0x00B9 => some (.b, mbJobRestart)
  | _ => none

/-- Contexts and programs, QUEUE_CONFIG and VC_BIND: they need CT0 (R608). -/
def needsCt0 (code : Nat) : Bool := (rangeFrom 0x10 8 ++ rangeFrom 0x20 3 ++ [0xB1]).contains code

/-- Statuses that R301 decides before the state. -/
def beforeState (st : Nat) : Bool := [busy, invalid, notFound, denied, unsupported].contains st

/-- With CT0 lost a command that needs it fails at the state check (R301, R608). -/
def ct0Gate (code : Nat) (f : MbFun) : MbFun := fun m p s =>
  if s.dies.ct0Lost ∧ needsCt0 code then
    let r := (f m p s).2
    if beforeState r.status then (s, r) else (s, err conflict { kind := 6, state := 7 })
  else f m p s

/-- Commands that the always-on domain serves in M3 (R608). -/
def m3Serves (code : Nat) (p : Payload) (s : State) : Bool :=
  if code = 0x06 then decide (arg p 0 4 = s.handleOf .module)
  else if code = 0x72 then s.dumps.any fun (d : Dump) => decide (d.id = arg p 0 4) && decide (d.place = 1)
  else if code = 0x42 then decide (arg p 0 4 = s.handleOf .module) && decide (arg p 4 1 = 0)
  else [0x01, 0x90, 0x80, 0x71].contains code

/-- Commands that the always-on domain serves before mailbox ready (R704, R705, R708). -/
def earlyServes (code : Nat) (p : Payload) (s : State) : Bool :=
  decide (code = 0x0B)
    || (decide (3 ≤ s.start.stage) && (decide (code = 0x06 ∧ arg p 0 4 = s.handleOf .module) || [0x01, 0x90, 0x80].contains code))
    || decide (code = 0x30 ∧ arg p 0 4 = s.handleOf .module)

/-- A command served before handles have been issued sees the module's own handle (R705, R708). -/
def withHandles (f : MbFun) : MbFun := fun m p s =>
  let r := f m p { s with start := { s.start with handles := true } }
  ({ r.1 with start := { r.1.start with handles := s.start.handles } }, r.2)

/-- A tunnelled command: before mailbox ready, in M3, in a firmware restart, and otherwise as from the host mailbox with the sideband as its
master (R608, R613, R705). -/
def tunnelled (code : Nat) (p : Payload) (s : State) : State × Resp :=
  let unknown : MbFun := fun _ _ t => (t, err unsupported)
  let k := (mbOf code).getD (.q, unknown)
  if 4096 < p.length then gate k.1 code (fun _ _ t => (t, if (mbOf code).isNone then err unsupported else err invalid)) .sideband p s
  else if s.start.stage ≠ 0xA then
    if earlyServes code p s then lockGate k.1 (withHandles k.2) .sideband p s else (s, err busy)
  else if s.start.pwr = .m3 then
    gate k.1 code (fun m q t => if (mbOf code).isNone ∨ m3Serves code p s then k.2 m q t else (t, pwrConflict t)) .sideband p s
  else if !s.host.fwReady then (s, err busy)
  else gate k.1 code (ct0Gate code k.2) .sideband p s

/-- The host's foreground command in progress completes: a pre-emption waits for it (R295). -/
def State.hostFinish (s : State) : State :=
  match mbOf s.host.code.toNat with
  | some k => if s.host.code = 0x0072#16 then hostDumpRead [] s else hostCmd k.1 s.host.code.toNat k.2 [] s
  | none => s

/-- The tunnelled command is to pre-empt the host while a command of the host is in progress (R295). -/
def State.preemptsBusy (s : State) (code : Nat) : Bool :=
  s.host.busy && decide (s.host.owner = .host) && (match mbOf code with
    | some k => decide (k.1 = .bp)
    | none => false)

/-- A tunnelled command is carried out, or waits: for the host's command in progress, or for a partition reset (R277, R295, R613). -/
def State.runTunnelled (s : State) (tag : Byte) (code : Nat) (p : Payload) : State :=
  let s1 := if s.preemptsBusy code ∧ s.host.fwReady then s.hostFinish else s
  if (s1.preemptsBusy code ∧ s1.host.fwReady) ∨ (code = 0x0072 ∧ s1.start.stage = 0xA ∧ s1.start.pwr ≠ .m3 ∧ s1.dumpWaits .sideband p) then
    { s1 with side := { s1.side with held := some (tag, code, p) } }
  else State.respond (tunnelled code p s1) tag

/-- MB_REQUEST (R613): one at a time; a second one is answered BUSY at once. A request that waits is looked at again when it is repeated (log entry
12). -/
def mbRequest (tag : Byte) (code : Nat) (p : Payload) (s : State) : State :=
  if !s.sideUp then s
  else if s.side.held = some (tag, code, p) then s.runTunnelled tag code p
  else if s.side.outstanding.isSome then
    let b := fill s.fresh (err busy).bytes
    { s.emit (.mbResponse tag busy b) with fresh := s.fresh + b.length }
  else State.runTunnelled { s with side := { s.side with outstanding := some tag } } tag code p

/-! ### The lock (R293, R608, R614) -/

/-- The MB_OWNER byte (R293). -/
def State.ownerByte (s : State) : Byte :=
  BitVec.ofNat 8 ((match s.host.owner with
    | .free => 0
    | .host => 64
    | .sideband => 128) + (if s.host.preempted then 32 else 0))

/-- LOCK_ACQUIRE (R614, R615): the sender becomes the destination of dump streams. -/
def lockAcquire (eid : Byte) (s : State) : State :=
  if !s.sideUp then s
  else
    let s1 := { s with
      side := { s.side with lockEid := some eid }
      host := { s.host with owner := if s.host.owner = Owner.free then Owner.sideband else s.host.owner } }
    s1.emit (.lockState s1.ownerByte)

/-- LOCK_RELEASE (R614). -/
def lockRelease (s : State) : State :=
  if !s.sideUp then s
  else
    let s1 := { s with host := { s.host with owner := if s.host.owner = Owner.sideband then Owner.free else s.host.owner } }
    s1.emit (.lockState s1.ownerByte)

/-! ### Dump streams (R615) -/

/-- DUMP_STREAM_ACK: NEXT moves up, and further messages follow. -/
def dumpStreamAck (id next : Nat) (s : State) : State :=
  match s.side.stream with
  | none => s
  | some (d, sent, n, total) =>
    if !s.sideUp ∨ d ≠ id ∨ next < n ∨ sent < next then s
    else State.pumpStream { s with side := { s.side with stream := some (d, sent, next, total), ackAt := s.clk.life } }

/-- DUMP_STREAM_RESEND: after 1 s without an acknowledgement the stream goes on from the last NEXT. -/
def dumpStreamResend (s : State) : State :=
  match s.side.stream with
  | none => s
  | some (d, sent, n, total) =>
    if !s.portUp ∨ sent = n ∨ s.clk.life < max s.side.ackAt s.side.resentAt + cycPerSec then s
    else State.pumpStream { s with side := { s.side with stream := some (d, n, n, total), resentAt := s.clk.life } }

/-! ### The endpoint's addresses (R610) -/

/-- SET_ENDPOINT_ID: 0x00 and 0xFF name no endpoint (DSP0236, log entry 34). -/
def setEndpointId (eid : Byte) (s : State) : State :=
  if !s.portUp then s
  else if eid = 0 ∨ eid = 0xFF then s.emit (.mctpResponse [0x02])
  else { s with side := { s.side with eid := some eid } }.emit (.mctpResponse [0x00, 0x00, eid, 0x00])

/-- SMBUS_FALLBACK: no dynamic address by 5 s after aux. -/
def smbusFallback (s : State) : State :=
  if !s.portUp ∨ s.side.i3c.isSome then s else { s with side := { s.side with smbus := true } }

/-- ENTDAA: the dynamic address; with SIDEBAND_BUS 1 the module is on SMBus only. -/
def entdaa (a : BitVec 7) (s : State) : State :=
  if !s.portUp ∨ s.side.smbusOnly then s else { s with side := { s.side with i3c := some a } }

/-! ### PLDM monitoring (R616) -/

/-- SetEventReceiver. -/
def setEventReceiver (eid : Byte) (s : State) : State :=
  if !s.sideUp then s else { s with side := { s.side with receiver := some eid } }.emit (.pldm 0x04 0 [])

/-- The module's dies are up, so that every sensor can be read (R607, R705). -/
def State.allSensors (s : State) : Bool := decide (3 ≤ s.start.stage) && decide (s.start.pwr ≠ .m3)

/-- State sensors as they read now. -/
def State.stateSensors (s : State) : List (Nat × Int) :=
  (0x0100, (s.moduleStatus : Int)) :: ((List.range 8).map fun p => (0x0101 + p, (s.ptStatus p : Int))) ++ [(0x0109, ((s.fsFlags / 2 % 512 : Nat) : Int))]

/-- A temperature sensor. -/
def isTemp (id : Nat) : Bool := decide (1 ≤ id ∧ id ≤ 0x0A)

/-- How many of the thresholds 105 °C and 115 °C a reading has reached. -/
def zone (v : Int) : Nat := if v < 105 then 0 else if v < 115 then 1 else 2

/-- One sensor is refreshed: a state sensor that changes and a temperature that crosses a threshold send an event. -/
def State.refreshSensor (s : State) (id : Nat) (v : Int) : State :=
  let old := s.side.readings.get? id
  let event := if isTemp id then decide (zone (old.getD 0) ≠ zone v) else decide (0x0100 ≤ id) && old.isSome && decide (old ≠ some v)
  let s1 := { s with side := { s.side with readings := s.side.readings.set id v } }
  match s.side.receiver with
  | some e => if event then s1.emit (.platformEvent id v e) else s1
  | none => s1

/-- SENSOR_REFRESH, every 100 ms: readings of numeric sensors come from the sensors, those of state sensors from the state; what cannot be read in the present
state is unavailable. -/
def sensorRefresh (l : List (Nat × Int)) (s0 : State) : State :=
  if !s0.sideUp ∨ (s0.side.readAt.any fun t => decide (s0.clk.life < t + cycPerSec / 10)) then s0
  else
    let s : State := { s0 with side := { s0.side with readAt := some s0.clk.life } }
    let all := l.filter (fun x => decide (1 ≤ x.1 ∧ x.1 ≤ 0x13)) ++ s.stateSensors
    let can := if s.allSensors then all else all.filter fun x => decide (x.1 = 0x0A)
    let s1 := if s.allSensors then s else { s with side := { s.side with readings := s.side.readings.filter fun x => decide (x.1 = 0x0A) } }
    can.foldl (fun a x => a.refreshSensor x.1 x.2) s1

/-! ### PLDM firmware update (R630, R632) -/

/-- PLDM Type 5 is in service: at mailbox ready, or once the boot ROM offers it (R607, R632, R705). -/
def State.pldmOn (s : State) : Bool :=
  s.sideUp && decide (s.start.pwr ≠ .m3)
    && (if s.mgmt.fw = .recovery then decide (s.mgmt.recovery = 4) else decide (s.start.stage = 0xA) && s.host.fwReady)

/-- Ask for the next part of the image (RequestFirmwareData). -/
def State.askPart (s : State) : State :=
  s.emit (.pldm 0x15 0 (le 4 s.mgmt.pldmGot ++ le 4 (min 1024 (s.mgmt.pldmLen - s.mgmt.pldmGot))))

/-- REQUEST_UPDATE: accepted in IDLE with the lock free or held by the sideband, which it gives the lock; otherwise ERROR. -/
def requestUpdate (len : Nat) (s : State) : State :=
  let rec? := decide (s.mgmt.fw = .recovery)
  if !s.sideUp then s
  else if !s.pldmOn ∨ len < 4096 ∨ 64 * 2 ^ 20 < len ∨ s.mgmt.commitOp.isSome ∨ (!rec? && (decide (s.mgmt.fw ≠ .idle) || decide (s.host.owner = .host))) then
    s.emit (.pldm 0x10 1 [])
  else
    let s1 := { s with
      mgmt := { s.mgmt with
        fw := if rec? then FwState.recovery else FwState.staging, stage := [], stageLen := len, pldm := true, pldmGot := 0, pldmLen := len }
      host := { s.host with owner := if rec? then s.host.owner else Owner.sideband } }
    (s1.emit (.pldm 0x10 0 [])).askPart

/-- FIRMWARE_DATA_PART: the part asked for goes into the staging buffer; after the last one the checks of R626 begin. -/
def firmwareDataPart (off : Nat) (b : List Byte) (s : State) : State :=
  let m := s.mgmt
  if !s.sideUp ∨ !m.pldm ∨ m.commitOp.isSome ∨ (m.fw ≠ .staging ∧ m.fw ≠ .recovery) ∨ off ≠ m.pldmGot
      ∨ b.length ≠ min 1024 (m.pldmLen - m.pldmGot) ∨ b.isEmpty then s
  else
    let s1 := { s with mgmt := { m with stage := m.stage.write off b, pldmGot := off + b.length } }
    if off + b.length < m.pldmLen then s1.askPart else s1.beginCommit 0 false false

/-- The lock that RequestUpdate took becomes free. -/
def State.endUpdate (s : State) : State :=
  { s with
    mgmt := { s.mgmt with pldm := false, pldmGot := 0, pldmLen := 0 }
    host := { s.host with owner := if s.host.owner = Owner.sideband ∧ s.mgmt.fw ≠ .recovery then Owner.free else s.host.owner } }

/-- ACTIVATE_FIRMWARE: a firmware restart; the maximum activation time reported is 1 s. -/
def activateFirmware (s : State) : State :=
  if !s.sideUp then s
  else if !s.pldmOn ∨ !s.mgmt.pldm ∨ s.mgmt.fw ≠ .pending then s.emit (.pldm 0x1A 1 [])
  else (s.endUpdate.emit (.pldm 0x1A 0 (le 2 1))).beginRestart none 2

/-- CANCEL_UPDATE: refused once WRITING has begun. -/
def cancelUpdate (s : State) : State :=
  if !s.sideUp then s
  else if !s.mgmt.pldm ∨ s.mgmt.fw = .writing ∨ s.mgmt.fw = .pending then s.emit (.pldm 0x1D 1 [])
  else
    let s1 := { s with mgmt := { s.mgmt with
      fw := if s.mgmt.fw = FwState.recovery then FwState.recovery else FwState.idle, stage := [], stageLen := 0, commitOp := none } }
    s1.endUpdate.emit (.pldm 0x1D 0 [])

/-! ### Attestation (R617–R622) -/

/-- SPDM is answered: from the end of stage 2 (R607, R705). -/
def State.spdmOn (s : State) : Bool := s.sideUp && decide (3 ≤ s.start.stage)

/-- An SPDM response (codes of DSP0274, log entry 34). -/
def State.spdm (s : State) (code : Nat) (b : List Byte) : State := s.emit (.spdm code b)
/-- An SPDM ERROR: 0x01 InvalidRequest, 0x05 Unspecified. -/
def State.spdmError (s : State) (e : Nat) : State := s.spdm 0x7F [BitVec.ofNat 8 e]

/-- The certificate chain of slot 0 (R618): without an alias certificate the chain is that of no image. -/
def State.certChain (s : State) : List Byte :=
  let d := if s.mgmt.aliasCert then s.mgmt.certDigest else []
  (List.range Config.certLen).map (Config.certByte (devidSeed s.ident.uds) (if s.mgmt.aliasCert then aliasSeed s.ident.uds d else []) d)

/-- The settings image (R635). -/
def State.settingsImage (s : State) : List Byte :=
  let recs := s.mgmt.settings.flatMap fun e => padTo ((4 + e.2.length + 3) / 4 * 4) (le 2 e.1 ++ le 2 e.2.length ++ e.2)
  let head := le 4 0x53584245 ++ le 2 1 ++ le 2 s.mgmt.settings.length ++ le 4 s.mgmt.settingsGen.toNat ++ zeros 4
  let b := padTo 0x1FFC (head ++ recs)
  b ++ le 4 (crc32c b)

/-- The repair record of the highest valid SEQ (R458). -/
def State.repairImage (s : State) : List Byte :=
  let h := padTo 0x40 (le 4 0x50524245 ++ le 2 1 ++ le 2 s.logs.repair.length ++ le 8 s.logs.repairSeq ++ s.ident.serial ++ le 4 s.logs.repairLife)
  let b := h ++ s.logs.repair.flatten
  b ++ s.devidSign b

/-- One measurement block (R620): reserved bytes are free. -/
def State.measurement (s : State) (i : Nat) : List RByte :=
  match i with
  | 1 => known ((List.range 64).map Config.romDigest)
  | 2 => known s.mgmt.runDigest
  | 3 => fld 1 s.ident.svn ++ known [s.ident.revoked] ++ fld 1 (if s.mgmt.testMode then 1 else 0) ++ rsvd 1
  | 4 => known (sha3 s.settingsImage)
  | 5 => known (sha3 (Config.slotTable s.mgmt.keys))
  | 6 => fld 8 s.logs.repairSeq ++ known (sha3 s.repairImage)
  | 7 => fld 4 s.fsFlags
  | _ => []

/-- A block with its index and length. -/
def State.measured (s : State) (i : Nat) : List RByte := let b := s.measurement i; fld 1 i ++ fld 2 b.length ++ b

/-- GET_VERSION: SPDM 1.3 (R619). -/
def getVersion (s : State) : State := if s.spdmOn then s.spdm 0x04 (le 1 0 ++ le 1 1 ++ le 2 0x1300) else s
/-- GET_CAPABILITIES: CERT, CHAL and MEAS with signature (R619). -/
def getCapabilities (s : State) : State := if s.spdmOn then s.spdm 0x61 (le 4 0x16) else s
/-- NEGOTIATE_ALGORITHMS: TPM_ALG_SHA3_512, and ML-DSA-87 as an extended algorithm of registry IANA, enterprise 0x0000_E365, ID 1 (R619). -/
def negotiateAlgorithms (s : State) : State := if s.spdmOn then s.spdm 0x63 (le 4 0x20 ++ le 1 4 ++ le 4 0xE365 ++ le 2 1) else s
/-- GET_DIGESTS: slot 0. -/
def getDigests (s : State) : State := if s.spdmOn then s.spdm 0x01 (sha3 s.certChain) else s
/-- GET_CERTIFICATE: a portion of slot 0's chain and the length that remains. -/
def getCertificate (off len : Nat) (s : State) : State :=
  if !s.spdmOn then s
  else
    let c := s.certChain
    if c.length ≤ off then s.spdmError 0x01
    else
      let b := (c.drop off).take len
      s.spdm 0x02 (le 2 b.length ++ le 2 (c.length - off - b.length) ++ b)

/-- Signing with the alias key is blocked: external test mode, or no keys (R621, R622). -/
def State.noSign (s : State) : Bool := s.mgmt.testMode || !s.mgmt.keysHeld

/-- Answer with a body and the module's own nonce, both signed over the request's nonce. -/
def State.signed (s : State) (code : Nat) (nonce : BitVec 256) (b : List RByte) : State :=
  let f := fill s.fresh (b ++ rsvd 32)
  let msg := le 32 nonce.toNat ++ f
  { s.spdm code (f ++ s.aliasSign code msg) with fresh := s.fresh + f.length }

/-- CHALLENGE: refused in external test mode (R622). -/
def challenge (nonce : BitVec 256) (s : State) : State :=
  if !s.spdmOn then s
  else if s.noSign then s.spdmError 0x05
  else s.signed 0x03 nonce (known (sha3 s.certChain))

/-- GET_MEASUREMENTS: index 0 asks for the count, 0xFF for every block (DSP0274). -/
def getMeasurements (index : Nat) (sign : Bool) (nonce : BitVec 256) (s : State) : State :=
  let b : List RByte := if index = 0 then fld 1 7 else if index = 0xFF then fld 1 7 ++ (rangeFrom 1 7).flatMap s.measured
    else fld 1 1 ++ s.measured index
  if !s.spdmOn then s
  else if sign ∧ s.noSign then s.spdmError 0x05
  else if 7 < index ∧ index ≠ 0xFF then s.spdmError 0x01
  else if sign then s.signed 0x60 nonce b
  else
    let f := fill s.fresh b
    { s.spdm 0x60 f with fresh := s.fresh + f.length }

/-! ### Arms -/

/-- MB_REQUEST. -/
def execMbRequest (tag : Byte) (code : W16) (p : Payload) (s : State) : Host.Outcome State Fault Refusal := nextOf s (mbRequest tag code.toNat p s)
/-- LOCK_ACQUIRE. -/
def execLockAcquire (eid : Byte) (s : State) : Host.Outcome State Fault Refusal := nextOf s (lockAcquire eid s)
/-- LOCK_RELEASE. -/
def execLockRelease (s : State) : Host.Outcome State Fault Refusal := nextOf s (lockRelease s)
/-- DUMP_STREAM_ACK. -/
def execDumpStreamAck (id : W32) (next : W64) (s : State) : Host.Outcome State Fault Refusal := nextOf s (dumpStreamAck id.toNat next.toNat s)
/-- DUMP_STREAM_RESEND. -/
def execDumpStreamResend (s : State) : Host.Outcome State Fault Refusal := nextOf s (dumpStreamResend s)
/-- SET_ENDPOINT_ID. -/
def execSetEndpointId (eid : Byte) (s : State) : Host.Outcome State Fault Refusal := nextOf s (setEndpointId eid s)
/-- SMBUS_FALLBACK. -/
def execSmbusFallback (s : State) : Host.Outcome State Fault Refusal := nextOf s (smbusFallback s)
/-- SET_EVENT_RECEIVER. -/
def execSetEventReceiver (eid : Byte) (s : State) : Host.Outcome State Fault Refusal := nextOf s (setEventReceiver eid s)
/-- SENSOR_REFRESH. -/
def execSensorRefresh (readings : List (W16 × Int)) (s : State) : Host.Outcome State Fault Refusal :=
  nextOf s (sensorRefresh (readings.map fun x => (x.1.toNat, x.2)) s)
/-- REQUEST_UPDATE. -/
def execRequestUpdate (len : W32) (s : State) : Host.Outcome State Fault Refusal := nextOf s (requestUpdate len.toNat s)
/-- ACTIVATE_FIRMWARE. -/
def execActivateFirmware (s : State) : Host.Outcome State Fault Refusal := nextOf s (activateFirmware s)
/-- CANCEL_UPDATE. -/
def execCancelUpdate (s : State) : Host.Outcome State Fault Refusal := nextOf s (cancelUpdate s)
/-- GET_VERSION. -/
def execGetVersion (s : State) : Host.Outcome State Fault Refusal := nextOf s (getVersion s)
/-- GET_CAPABILITIES. -/
def execGetCapabilities (s : State) : Host.Outcome State Fault Refusal := nextOf s (getCapabilities s)
/-- NEGOTIATE_ALGORITHMS. -/
def execNegotiateAlgorithms (s : State) : Host.Outcome State Fault Refusal := nextOf s (negotiateAlgorithms s)
/-- GET_DIGESTS. -/
def execGetDigests (s : State) : Host.Outcome State Fault Refusal := nextOf s (getDigests s)
/-- GET_CERTIFICATE. -/
def execGetCertificate (off len : W16) (s : State) : Host.Outcome State Fault Refusal := nextOf s (getCertificate off.toNat len.toNat s)
/-- CHALLENGE. -/
def execChallenge (nonce : BitVec 256) (s : State) : Host.Outcome State Fault Refusal := nextOf s (challenge nonce s)
/-- GET_MEASUREMENTS. -/
def execGetMeasurements (index : Byte) (sign : Bool) (nonce : BitVec 256) (s : State) : Host.Outcome State Fault Refusal :=
  nextOf s (getMeasurements index.toNat sign nonce s)
/-- ENTDAA. -/
def execEntdaa (addr : BitVec 7) (s : State) : Host.Outcome State Fault Refusal := nextOf s (entdaa addr s)
/-- FIRMWARE_DATA_PART. -/
def execFirmwareDataPart (off : W32) (bytes : List Byte) (s : State) : Host.Outcome State Fault Refusal :=
  nextOf s (firmwareDataPart off.toNat bytes s)

end Sys2Proof.Machine
end

