-- ==== Sys2Proof/Machine/Power.lean ====
section
/-!
DEFINITION. The power limiter, temperatures, rails and the shutdown into M3 (R667–R693, R717, R718): POWER_LIMITER_SAMPLE to VSOC_PG_FALL, and
VCORE_PG_RETURN.
-/
namespace Sys2Proof.Machine

/-! ### Levels L and T (R680–R682, R686) -/

/-- `life` at the first frame f0 that is a multiple of 8 and at least 64 frames after now (R681; log entry 36). -/
def State.levelFrame (s : State) : Nat :=
  let f := s.cyc / 32
  let f0 := (f + 64 + 7) / 8 * 8
  s.clk.life + (32 * f0 - s.cyc)

/-- Send the levels decided to every partition that has other ones in force or on their way (R681, R682). -/
def State.sendLevels (s : State) : State :=
  (List.range 8).foldl (fun a p =>
    let x := a.pt p
    let want := (s.dies.limL, s.dies.thermT.getD p 0)
    let have' := match x.lvlPend with
      | some (l, t, _) => (l, t)
      | none => (x.lvlL, x.lvlT)
    if have' = want then a else a.modPt p fun y => { y with
      lvlL := (y.levels s.clk.life).1, lvlT := (y.levels s.clk.life).2, lvlPend := some (want.1, want.2, s.levelFrame) }) s

/-- LIMIT_LEVEL_APPLY (R681): the levels whose frame has come are those in force on every partition of the context that holds `p`. -/
def limitLevelApply (p : Nat) (s : State) : State :=
  let ps := match s.holder p with
    | some c => (s.ctx c).held
    | none => [p]
  ps.foldl (fun a q => a.modPt q fun x =>
    match x.lvlPend with
    | some (l, t, at') => if at' ≤ s.clk.life then { x with lvlL := l, lvlT := t, lvlPend := none } else x
    | none => x) s

/-- POWER_LIMITER_SAMPLE (R682), every 100 µs: L rises for a sample above its limits and for a second of samples whose average is above
POWER_CAP_W, and falls after 10 ms without either. The energy of the 100 µs counts (R692). -/
def powerLimiterSample (x : PowerSample) (s : State) : State :=
  let d := s.dies
  if !s.start.aux ∨ (d.powerAt.any fun t => decide (s.clk.life < t + cycPerSec / 10000)) then s
  else
    let full := decide (d.second.1 + 1 = 10000)
    let sum := d.second.2 + x.avg
    let up := (if 2300 < x.avg ∨ x.overLimit then 1 else 0) + (if full ∧ 10000 * s.settingNat 0x20 < sum then 1 else 0)
    let l := d.limL
    let falls := decide (up = 0 ∧ d.limAt + cycPerSec / 100 ≤ s.clk.life)
    let l' := if falls then l - 1 else min 7 (l + up)
    let s1 := { s with dies := { d with
      limL := l', powerW := x.avg, energy := d.energy + x.avg, powerAt := some s.clk.life
      limAt := if falls ∨ 0 < up then s.clk.life else d.limAt, second := if full then (0, 0) else (d.second.1 + 1, sum) } }
    let s2 := if l = 0 ∧ 0 < l' then s1.logErr 0x040E {} (le 1 l' ++ le 3 0 ++ le 4 x.avg) else s1
    s2.sendLevels

/-! ### Power lost by a partition or the module (R687, R688, R718) -/

/-- A signed temperature as a byte. -/
def degByte (t : Int) : Byte := BitVec.ofInt 8 t

/-- A partition stops at once: its context ends with REASON THERMAL_TRIP, its dies are dark, its channels in self-refresh (R687, R718). -/
def State.dropPt (s : State) (p : Nat) : State :=
  let s1 := match s.holder p with
    | some c => s.faultCtx c rThermal orphaned
    | none => s
  let s2 := (sheetsOfPt p).foldl State.retirePending s1
  ((s2.darken p).selfRefresh p true).modPt p fun x => { x with pwr := .off, offByCmd := false, temps := [] }

/-- A thermal trip (R687). -/
def State.tripPt (s : State) (p i : Nat) (deg : Int) : State :=
  let s1 := s.logErr 0x0507 { handle := s.handleOf (.pt p), loc := locTile i, ctx := s.holder p, pt := some p }
    (le 1 p ++ [degByte deg] ++ le 2 0 ++ le 4 (locTile i))
  ((s1.dropPt p).setRail p false).modPt p fun x => { x with tripAt := some s.clk.life }

/-- RESET_NOTICE on every port in fabric mode that is up (R519). -/
def State.resetNotices (s : State) : State :=
  (List.range 18).foldl (fun a k => if !(a.port k).eth ∧ (a.port k).st = .up then a.emit (.resetNotice k) else a) s

/-- The shutdown steps of R519 up to lowering the rails, VSOC removed too: bound contexts are lost, with them the module's jobs; everything else
is saved, and the module is in M3 (R677, R688; log entry 37). -/
def State.shutDown (s : State) : State :=
  let s1 := { s.resetNotices with jobs := [] }
  let s2 := s.jobs.foldl (fun a j => a.dropHandle (a.hword 9 j.serial)) s1
  let s3 := (List.range 64).foldl (fun a c => if (a.ctx c).held.isEmpty then a else ((a.faultCtx c rReset orphaned).destroyCtx c)) s2
  let s4 := s3.running.foldl (fun a o => a.finishOp o.id timeout []) s3
  let s5 := { s4 with mgmt := { s4.mgmt with modes := [], restart := none }, dumping := none, side := { s4.side with stream := none } }
  let s6 := (List.range 8).foldl (fun a p => (a.offPt p false).modPt p fun x => { x with reset := none, faulted := false, tripAt := none }) s5
  let s7 := { s6 with start := { s6.start with stage := 0xA, pwrOp := none, warmDue := false } }
  s7.takeModPwr .m3

/-- One tile or die reading (R686–R688). -/
def State.oneTemp (s : State) (x : TempReading) : State :=
  match x with
  | .tile t deg =>
    let i := tileIx t.sh t.pc t.row
    let p := ptOfSheet t.sh
    if (s.pt p).pwr = .off then s
    else
      let s1 := s.modPt p fun y => { y with temps := y.temps.set i deg }
      if deg < 115 then s1 else s1.tripPt p i deg
  | .die code deg =>
    let c := code.toNat
    if !((0x20 ≤ c ∧ c ≤ 0x25) ∨ c = 0x30 ∨ c = 0x31) ∨ s.start.pwr = .m3 ∨ !s.start.vsoc then s
    else
      let s1 := { s with dies := { s.dies with dieTemp := s.dies.dieTemp.set c deg } }
      if deg < 115 then s1 else (s1.logErr 0x0508 { loc := c * 2 ^ 24 } (le 1 c ++ [degByte deg] ++ le 2 0)).shutDown

/-- The time since which a condition of a partition's temperatures has held, after a sample (R686). -/
def sinceOf (holds : Bool) (was : Option Nat) (life : Nat) : Option Nat := if holds then some (was.getD life) else none

/-- A level time of `n` cyc has gone by. -/
def ranFor (since : Option Nat) (n life : Nat) : Bool := since.any fun t => decide (t + n ≤ life)

/-- The thermal level of a partition after a sample (R686): up after each 1 ms in which a tile has read 105 °C or above throughout, down after each
10 ms in which all have read 100 °C or below (DEDUCED, log entry 36). -/
def State.thermLevel (s : State) (p : Nat) : State :=
  let x := s.pt p
  let life := s.clk.life
  let t := s.dies.thermT.getD p 0
  let hottest := x.temps.find? fun e => decide (105 ≤ e.2)
  let hot := sinceOf hottest.isSome x.hotAt life
  let cool := sinceOf (!x.temps.isEmpty && x.temps.all fun e => decide (e.2 ≤ 100)) x.coolAt life
  let up := ranFor hot (cycPerSec / 1000) life
  let down := ranFor cool (cycPerSec / 100) life
  let s1 := s.modPt p fun y => { y with hotAt := if up then some life else hot, coolAt := if down then some life else cool }
  let s2 := { s1 with dies := { s1.dies with thermT := s1.dies.thermT.set p (if up then min 7 (t + 1) else if down then t - 1 else t) } }
  match up && decide (t = 0), hottest with
  | true, some e => s2.logErr 0x040D { handle := s.handleOf (.pt p), loc := locTile e.1, ctx := s.holder p, pt := some p }
      (le 1 p ++ [degByte e.2] ++ le 2 0 ++ le 4 (locTile e.1))
  | _, _ => s2

/-- THERMAL_SAMPLE (R685–R688), every 2^16 cyc. -/
def thermalSample (xs : List TempReading) (s : State) : State :=
  if !s.start.aux ∨ (s.dies.tempAt.any fun t => decide (s.clk.life < t + 2 ^ 16)) then s
  else
    let s1 := xs.foldl State.oneTemp { s with dies := { s.dies with tempAt := some s.clk.life } }
    ((List.range 8).foldl State.thermLevel s1).sendLevels

/-- THERMTRIP (R689, R717): the pin stays asserted, and every other input is ignored, until aux is removed. -/
def thermtrip (s : State) : State :=
  if !s.start.aux ∨ s.dies.thermtrip then s else { s with dies := { s.dies with thermtrip := true } }.emit .thermtrip

/-! ### Rails and clocks (R668, R669, R684, R718) -/

/-- AVS_UPDATE (R668): the rail is read every 100 µs, and set where the value is new, in 5 mV steps within 550–800 mV, no sooner than 10 ms after the last
change. Its energy counts (R692). Without CT1 it holds what was last commanded (R669). -/
def avsUpdate (p mv readMv readMa : Nat) (s : State) : State :=
  let x := s.pt p
  if s.dies.ct1Lost ∨ !x.en ∨ !x.pg ∨ s.start.stage < 4 then s
  else
    let s1 := if x.railAt.any fun t => decide (s.clk.life < t + cycPerSec / 10000) then s
      else s.modPt p fun y => { y with railMv := readMv, railMa := readMa, energy := y.energy + readMv * readMa, railAt := some s.clk.life }
    let ok := (decide (x.pwr = .run) || decide (x.pwr = .idle)) && decide (550 ≤ mv ∧ mv ≤ 800 ∧ mv % 5 = 0 ∧ mv ≠ x.mv)
      && (decide (x.mvAt = 0) || decide (x.mvAt + cycPerSec / 100 ≤ s.clk.life))
    if ok then (s1.modPt p fun y => { y with mv := mv, mvAt := s.clk.life }).emit (.avs p mv) else s1

/-- IDLE_ENTRY (R674): a partition that for IDLE_ENTRY_US nothing has needed in Run. -/
def idleEntry (p : Nat) (s : State) : State :=
  let n := s.settingNat 0x21
  if (s.pt p).pwr ≠ .run ∨ n = 0 ∨ s.needed p ∨ (s.pt p).reset.isSome ∨ s.clk.life < (s.pt p).busyAt + usCyc n then s
  else s.modPt p fun x => { x with pwr := .idle }

/-- PLL_LOCK_TIMEOUT (R684): the partition is FAULTED. -/
def pllLockTimeout (p : Nat) (s : State) : State :=
  if (s.pt p).pwr ≠ .run then s
  else (sheetsOfPt p).foldl State.abandonDwell (s.modPt p fun x => { x with faulted := true })

/-- A RAIL_FAULT record (R707). -/
def State.railFault (s : State) (rail : Nat) (c p : Option Nat) : State :=
  s.logErr 0x0509 { handle := (p.map fun q => s.handleOf (.pt q)).getD 0, ctx := c, pt := p } (le 1 rail ++ le 1 s.start.stage ++ le 2 0)

/-- VCORE_PG_FALL (R718): the partition stays Off until a reset after the PG has returned. -/
def vcorePgFall (p : Nat) (s : State) : State :=
  if s.dies.thermtrip ∨ !(s.pt p).en ∨ !(s.pt p).pg then s
  else ((s.railFault p (s.holder p) (some p)).dropPt p).modPt p fun x => { x with pg := false }

/-- VCORE_PG_RETURN (R718). -/
def vcorePgReturn (p : Nat) (s : State) : State :=
  if s.dies.thermtrip ∨ !(s.pt p).en then s else s.modPt p fun x => { x with pg := true }

/-- VSOC_PG_FALL (R718): as a die at 115 °C (R688). -/
def vsocPgFall (s : State) : State :=
  if s.dies.thermtrip ∨ !s.start.vsoc ∨ s.start.pwr = .m3 then s else (s.railFault 8 none none).shutDown

/-! ### Arms -/

/-- POWER_LIMITER_SAMPLE. -/
def execPowerLimiterSample (x : PowerSample) (s : State) : Host.Outcome State Fault Refusal := nextOf s (powerLimiterSample x s)
/-- THERMAL_SAMPLE. -/
def execThermalSample (xs : List TempReading) (s : State) : Host.Outcome State Fault Refusal := nextOf s (thermalSample xs s)
/-- THERMTRIP. -/
def execThermtrip (s : State) : Host.Outcome State Fault Refusal := nextOf s (thermtrip s)
/-- AVS_UPDATE. -/
def execAvsUpdate (p : Pt) (mv readMv readMa : Nat) (s : State) : Host.Outcome State Fault Refusal := nextOf s (avsUpdate p mv readMv readMa s)
/-- IDLE_ENTRY. -/
def execIdleEntry (p : Pt) (s : State) : Host.Outcome State Fault Refusal := nextOf s (idleEntry p s)
/-- LIMIT_LEVEL_APPLY. -/
def execLimitLevelApply (p : Pt) (s : State) : Host.Outcome State Fault Refusal := nextOf s (limitLevelApply p s)
/-- PLL_LOCK_TIMEOUT. -/
def execPllLockTimeout (p : Pt) (s : State) : Host.Outcome State Fault Refusal := nextOf s (pllLockTimeout p s)
/-- VCORE_PG_FALL. -/
def execVcorePgFall (p : Pt) (s : State) : Host.Outcome State Fault Refusal := nextOf s (vcorePgFall p s)
/-- VSOC_PG_FALL. -/
def execVsocPgFall (s : State) : Host.Outcome State Fault Refusal := nextOf s (vsocPgFall s)
/-- VCORE_PG_RETURN. -/
def execVcorePgReturn (p : Pt) (s : State) : Host.Outcome State Fault Refusal := nextOf s (vcorePgReturn p s)

end Sys2Proof.Machine
end

