-- ==== Sys2Proof/Machine/Startup.lean ====
section
/-!
DEFINITION. Start-up, module warm reset, the platform's signals and external test mode (R519–R521, R621, R632, R694–R708, R715–R718): AUX_ARRIVAL
to STARTUP_HALT, and RECOVERY_HOST_WINDOW_EXPIRED.
-/
namespace Sys2Proof.Machine

/-! ### What survives (R521) -/

/-- What a power cycle keeps: fuses, module flash, what lies on the cartridge, and the count of powered seconds (R521, R527, R490). The model's own
fields go on. -/
def State.powerKept (s : State) : State :=
  { ({} : State) with
    clk := { life := s.clk.life }
    ident := { s.ident with straps := 0, fwVer := 0, idSvn := 0, poolGib := 0 }
    mgmt := {
      flash := s.mgmt.flash, flashLen := s.mgmt.flashLen, keys := s.mgmt.keys, settings := s.mgmt.settings
      settingsGen := s.mgmt.settingsGen, settingsBad := s.mgmt.settingsBad }
    logs := {
      ledger := s.logs.ledger, ledgerSeq := s.logs.ledgerSeq, repair := s.logs.repair, repairSeq := s.logs.repairSeq
      repairLife := s.logs.repairLife, newestA := s.logs.newestA, repairOld := s.logs.repairOld, repairPend := s.logs.repairPend }
    reel := { latch := s.reel.latch, data := s.reel.data }
    dumps := s.dumps.filter fun (d : Dump) => decide (d.place = 1)
    nextDump := s.nextDump
    start := { stage := 1, kind := 0, aux := false, warmBy := none, epoch := s.start.epoch + 1 }
    fresh := s.fresh
    outbox := s.outbox
    pending := s.pending }

/-- What a module warm reset keeps beside that: LPDDR5X, the pool and its dump region, the sideband endpoint, external test mode and the staged
version (R519, R521, R607, R621, R629). -/
def State.warmKept (s : State) : State :=
  let k := s.powerKept
  { k with
    clk := { life := s.clk.life, zero := s.clk.zero, stageZero := s.clk.life }
    ident := { k.ident with straps := s.ident.straps }
    mgmt := { k.mgmt with
      testMode := s.mgmt.testMode, stagedVer := s.mgmt.stagedVer
      fw := if s.mgmt.fw = .pending then FwState.pending else FwState.idle }
    dram := s.dram
    pool := s.pool
    chans := s.chans.map fun x => { ({} : Chan) with flaws := x.flaws, bad := x.bad, errs := x.errs, tags := x.tags }
    side := { s.side with outstanding := none, held := none, stream := none }
    dies := { powerW := s.dies.powerW }
    dumps := s.dumps
    start := { warmBy := s.start.warmBy, epoch := s.start.epoch + 1 } }

/-- The bay is powered and identification begins when the latch is closed (R649, R650, R663). -/
def State.startReel (s : State) : State := if s.reel.latch then s.setReel .starting 0 else s

/-! ### Platform signals (R621, R689, R715–R718) -/

/-- Signals of the platform are looked at: aux is present and THERMTRIP_N is not asserted (R717, R718). -/
def State.pinsOn (s : State) : Bool := s.start.aux && !s.dies.thermtrip

/-- AUX_REMOVAL (R521, R715): a power cycle. -/
def auxRemoval (s : State) : State := if s.start.aux then s.powerKept else s

/-- AUX_ARRIVAL (R695, R715): time zero of a cold start. -/
def auxArrival (s : State) : State :=
  if s.start.aux then s
  else { s with
    start := { s.start with aux := true, stage := 1, kind := 0 }
    clk := { s.clk with zero := s.clk.life, stageZero := s.clk.life } }

/-- PLAT_RST_N (R708, R716): a module warm reset begins when the signal rises. -/
def platRstN (s : State) : State := if s.pinsOn then s.acceptWarm 2 else s

/-- WAKE_REQ_N (R676, R716, R718): it acts in M3 only, and a warm reset wins. -/
def wakeReqN (s : State) : State :=
  if s.pinsOn ∧ s.start.pwr = .m3 ∧ s.start.stage = 0xA ∧ !s.start.warmDue then s.leaveM3 none else s

/-- TEST_MODE_ENTRY (R621): keys and seeds are zeroised; the mode is latched until aux is removed. -/
def testModeEntry (s : State) : State :=
  if s.pinsOn then { s with mgmt := { s.mgmt with testMode := true, keysHeld := false } } else s

/-- WARM_RESET (R519, R521, R708): notices go out, links drop, rails are lowered, and the boot ROM stage begins. -/
def warmReset (s : State) : State :=
  if !s.pinsOn ∨ !s.start.warmDue then s
  else
    let s1 := s.resetNotices
    let s2 := (List.range 8).foldl (fun a p => if (a.pt p).en then a.emit (.enable p false) else a) s1
    let s3 := if s2.start.vsoc then s2.emit (.enable 8 false) else s2
    s3.warmKept.startReel

/-! ### Stages 1 and 2 (R617, R632, R633) -/

/-- STAGE_AUX_DONE (R694, R712): the straps are sampled, the Reel bay is powered. -/
def stageAuxDone (straps : BitVec 2) (s : State) : State :=
  if !s.start.aux ∨ s.start.stage ≠ 1 then s
  else ({ s with ident := { s.ident with straps := straps } }.endStage 1 2).startReel

/-- The boot ROM waits for an image from the host: recovery mode (R632, R633). The link trains here, so the ID block is taken (R287); no firmware
runs yet, and what FW_VERSION holds is free (log entry 12). -/
def State.awaitHost (s : State) : State :=
  State.raise { s with
    mgmt := { s.mgmt with recovery := 3, waitHostAt := s.clk.life }
    host := { s.host with fwReady := true }
    ident := { s.ident with
      idSvn := s.ident.svn, poolGib := if s.mgmt.settingsBad then 0 else s.settingNat 0x03
      fwVer := BitVec.ofNat 32 (unle (fill s.fresh (rsvd 4))) }
    fresh := s.fresh + 4 } 4

/-- A Reel that recovery may load from: present, not FOREIGN, with an image (R632). -/
def State.reelRecovers (s : State) : Bool := s.reel.inService && s.reel.authentic && !s.reelImage.isEmpty

/-- STAGE_BOOT_ROM_DONE: source `src` (0 flash, 1 Reel, 2 host, 3 sideband) has been read and checked (R626, R632). -/
def stageBootRomDone (src : Nat) (v : Verdict) (s : State) : State :=
  if !s.start.aux ∨ s.start.stage ≠ 2 ∨ s.start.warmDue then s
  else if src = 0 then
    let t := s.judgeImage s.flashImage v
    if s.mgmt.fw = .recovery then s
    else if t.imageOk t.flashImage v then t.bootDone t.flashImage true
    else
      let s1 := { t with mgmt := { t.mgmt with fw := .recovery, fwRecovery := true, recovery := 2 } }
      if s1.reelRecovers then s1 else s1.awaitHost
  else if s.mgmt.fw ≠ .recovery then s
  else if src = 1 then
    if s.mgmt.recovery ≠ 2 then s
    else
      let t := s.judgeImage s.reelImage v
      if t.reelRecovers ∧ t.imageOk t.reelImage v then (t.writeFlash t.reelImage).bootDone t.reelImage false
      else t.awaitHost
  else if s.mgmt.recovery < src + 1 then s
  else fwCommitFinished v s

/-- RECOVERY_HOST_WINDOW_EXPIRED (R632): after the host's 120 s PLDM Type 5 is offered as well. -/
def recoveryHostWindowExpired (s : State) : State :=
  if s.mgmt.fw = .recovery ∧ s.mgmt.recovery = 3 ∧ s.mgmt.waitHostAt + 120 * cycPerSec ≤ s.clk.life then
    { s with mgmt := { s.mgmt with recovery := 4 } } else s

/-! ### Stages 3 to 5 (R454–R462, R495, R696–R699) -/

/-- A repair record entry without its LIFE_H: kind, LOC and DETAIL. -/
def sameRepair (a b : List Byte) : Bool :=
  decide (a.getD 0 0 = b.getD 0 0 ∧ (a.drop 4).take 8 = (b.drop 4).take 8)

/-- The unit of an entry is repaired or marked (R456, R459). -/
def State.markEntry (s : State) (e : List Byte) : State :=
  let k := fieldAt e 0 1
  let loc := fieldAt e 4 4
  let det := fieldAt e 8 4
  let die := loc / 2 ^ 24
  if 1 ≤ k ∧ k ≤ 5 then
    s.modTile (tileIx (die % 24) (loc / 2 ^ 16 % 256 % 18) (loc / 2 ^ 8 % 16)) fun t =>
      let key := 0x1000 * k + det / 2 ^ 24
      { t with spares := t.spares.set key (t.spares.getD key 0 + 1) }
  else if k = 0x10 then
    s.modSheet die fun x => { x with broke := (List.range 18).filter fun c => c = loc / 2 ^ 16 % 256 || x.broke.contains c }
  else if k = 0x11 then s.modChan (loc % 256) fun x => { x with broke := true, trained := false }
  else if k = 0x12 then { s with dies := { s.dies with coreOff := (s.dies.coreOff ++ [8 * (die - 0x30) + loc % 8]).eraseDups } }
  else if k = 0x13 then { s with dies := { s.dies with nipOff := (s.dies.nipOff ++ [die - 0x20]).eraseDups } }
  else if k = 0x14 then { s with dies := { s.dies with ecOff := (s.dies.ecOff ++ [die - 0x20]).eraseDups } }
  else if k = 0x15 then s.modPort (loc / 256 % 256) fun x => { x with broke := x.broke ||| BitVec.ofNat 4 (2 ^ (loc % 4)) }
  else s

/-- An entry comes into force; one that repeats a repair already made changes nothing (R699). -/
def State.applyEntry (s : State) (e : List Byte) : State :=
  if s.logs.inForce.any (sameRepair e) then s
  else State.markEntry { s with logs := { s.logs with inForce := s.logs.inForce ++ [e] } } e

/-- An entry that full BIST or a self-check of this start makes: in force at once, stored in stage 5. -/
def State.foundEntry (s : State) (e : List Byte) : State :=
  State.applyEntry { s with start := { s.start with found := s.start.found ++ [e] } } e

/-- The error log starts (R498, R500, R707): after a warm reset its SEQ 1 is WARM_RESET, then what was raised before. -/
def State.startLog (s : State) : State :=
  let early := s.logs.early
  let s1 := match s.start.kind, s.start.warmBy with
    | 1, some r => s.logErr 0x0503 {} (le 1 r ++ le 3 0)
    | _, _ => s
  let s2 := early.foldl (fun a (r : ErrRec) => State.fsUpdate { a with logs := { a.logs with
      errs := (if 4096 ≤ a.logs.errs.length then a.logs.errs.drop 1 else a.logs.errs) ++ [{ r with seq := a.logs.seq + 1 }]
      seq := a.logs.seq + 1 } }) s1
  { s2 with logs := { s2.logs with early := [] } }

/-- A stage after which start-up stands halted (R706). -/
def State.haltStart (s : State) (cause : Nat) : State := { s with start := { s.start with stage := 0xF, halt := cause } }

/-- STAGE_RAILS_DONE (R457, R694, R696): VSOC and the VCOREs are up, but for those whose PG has timed out; cores have tested themselves; the error
log starts. -/
def stageRailsDone (fails : List (Fin 16)) (s : State) : State :=
  if !s.start.aux ∨ s.start.stage ≠ 3 ∨ s.start.warmDue then s
  else
    let s1 := { s with start := { s.start with vsoc := true } }.emit (.enable 8 true)
    let s2 := (List.range 8).foldl (fun a p =>
      if (a.pt p).en ∧ !(a.pt p).pg then a
      else (a.setRail p true).modPt p fun x => { x with pwr := .run, offByCmd := false, mv := 750 }) s1
    let s3 := s2.ident.fusedRepairs.foldl State.markEntry s2
    let s4 := fails.foldl (fun a c =>
      let e := a.repairEntry 0x12 0x0B ((0x30 + c.val / 8) * 2 ^ 24 + c.val % 8) 0
      (a.foundEntry e).logErr 0x0307 { loc := fieldAt e 4 4 } e) s3
    if (List.range 16).all s4.dies.coreOff.contains then s4.haltStart 2
    else (s4.endStage 3 4).startLog

/-- RAIL_PG_TIMEOUT (R696, R698, R706, R707): 10 ms after its enable the partition stays Off, or start-up halts for VSOC. -/
def railPgTimeout (rail : Nat) (s : State) : State :=
  if !s.pinsOn ∨ s.start.stage ≠ 3 ∨ s.start.warmDue ∨ s.clk.life < s.clk.stageZero + usCyc 10000 then s
  else if rail = 8 then s.haltStart 1
  else
    let p := rail % 8
    ((s.emit (.enable p true)).modPt p fun x => { x with en := true, pg := false, pwr := .off, offByCmd := false }).railFault p none (some p)

/-- A failure of stage 4 on a column (R442, R445, R454, R699): repaired, or the column is broke. -/
def State.startFail (s : State) (x : ColFail) (cond : BistCond) : State :=
  let f := x.fail
  if (s.sheet x.sh).broke.contains x.pc ∨ (s.pt (ptOfSheet x.sh)).pwr = .off ∨ !isFailure f then s
  else if s.canRepair x.sh x.pc f then
    (s.foundEntry (s.repairEntry f.repKind.toNat (testCause f.kind) (locOf x.sh x.pc f.row) f.repDetail.toNat)).sheetCount x.sh 0x0B07 1
  else
    let e := s.repairEntry 0x10 (testCause f.kind) (locOf x.sh x.pc 0xFF) 0
    ((s.bistFail x.sh x.pc f cond 1).foundEntry e).logErr 0x0302
      { handle := s.handleOf (.pcol x.sh x.pc), loc := locOf x.sh x.pc 0xFF, pt := some (ptOfSheet x.sh) } e

/-- STAGE_BIST_DONE (R455, R699): full BIST and the lane test of the die-to-die links. -/
def stageBistDone (cols : List ColFail) (d2d : List D2dFail) (cond : BistCond) (s : State) : State :=
  if !s.start.aux ∨ s.start.stage ≠ 4 ∨ s.start.warmDue then s
  else
    let s0 : State := { s with sheets := s.sheets.map fun (x : Sheet) => { x with linkFail := false } }
    let on := ((List.range 24).filter fun n => decide ((s.pt (ptOfSheet n)).pwr ≠ .off)).flatMap s.testable
    let s1 := cols.foldl (fun (a : State) x => a.startFail x cond) (s0.foundBist on 262144 cols)
    let s2 := d2d.foldl (fun a (d : D2dFail) =>
      if d.repaired then a.foundEntry (a.repairEntry 6 1 d.loc.toNat d.detail.toNat)
      else a.modSheet d.sh fun x => { x with linkFail := true }) s1
    s2.endStage 4 5

/-- Columns that the ledger's records condemn (R462, R495), as (sheet, column). -/
def ledgerCondemns (l : List (List Byte)) : List (Nat × Nat) :=
  (List.range l.length).flatMap fun i =>
    let r := l.getD i []
    let sh := recFld r 5 1
    let old := (l.take i).filter fun o => inBin o sh (recFld r 0x10 2) (recFld r 0x14 4)
    (if old.any fun o => decide (recFld o 6 1 = recFld r 6 1) then [(sh, recFld r 6 1)] else [])
      ++ (if old.any fun o => decide (recFld o 7 1 = recFld r 7 1 ∧ recFld o 6 1 ≠ recFld r 6 1) then [(sh, recFld r 7 1)] else [])

/-- Fabric ports begin to train, in the mode that PORT_DEFAULT gives (R694, R701). -/
def State.trainAll (s : State) : State :=
  (List.range 18).foldl (fun a k => (a.modPort k fun x => { x with eth := (s.settingNat 0x13).testBit k }).startTraining k) s

/-- STAGE_REPAIR_RECORD_DONE (R460–R462, R490, R495, R699): the newest valid copy and the pending entries come into force, what this start has found
is stored; without a valid copy the record is made anew. Ledger records of a bad check are skipped. Stages 6 and 7 begin. -/
def stageRepairRecordDone (badLedger : List W32) (v : Verdict) (s : State) : State :=
  if !s.start.aux ∨ s.start.stage ≠ 5 ∨ s.start.warmDue then s
  else
    let bad (r : List Byte) : Bool := badLedger.contains (BitVec.ofNat 32 (fieldAt r 0 4))
    let nbad := (s.logs.ledger.filter bad).length
    let s1 := { s with logs := { s.logs with
      ledger := s.logs.ledger.filter fun r => !bad r, ledgerBad := (s.logs.ledgerBad + nbad) % 2 ^ 48 } }
    let s2 : State :=
      if v.sigOk then
        let a := s1.logs.repairPend.foldl State.applyEntry (s1.logs.repair.foldl State.applyEntry s1)
        let new := (if s.mgmt.testMode then [] else a.logs.repairPend) ++ a.start.found.filter fun e => !s1.logs.repair.any (sameRepair e)
        let b := if s.mgmt.testMode then a else { a with logs := { a.logs with repairPend := [] } }
        new.foldl State.storeEntry b
      else
        let a := s1.logs.repairPend.foldl State.applyEntry (({ s1 with start := { s1.start with repairLost := true } }).logErr 0x030B {} [])
        let b := (ledgerCondemns a.logs.ledger).foldl (fun (t : State) x => t.applyEntry (t.repairEntry 0x10 4 (locOf x.1 x.2 0xFF) 0)) a
        if s.mgmt.testMode then b else State.writeRepair { b with logs := { b.logs with repairPend := [] } } b.logs.inForce
    (s2.trainAll).endStage 5 6

/-! ### Stages 6 to 9 (R454, R700–R703) -/

/-- Stage 8 begins when stages 6 and 7 have both ended; both began when stage 5 ended (R694). -/
def State.joinStages (s : State) (n : Nat) : State :=
  let both := s.start.six && s.start.seven
  let t := s.endStage n (if both then 8 else if s.start.six then 7 else 6)
  { t with clk := { t.clk with stageZero := if both then t.clk.stageZero else s.clk.stageZero } }

/-- STAGE_LPDDR5X_DONE (R276, R278, R694, R700): every channel is trained or broke. -/
def stageLpddr5xDone (broke : List Ch) (s : State) : State :=
  if !s.start.aux ∨ (s.start.stage ≠ 6 ∧ s.start.stage ≠ 7) ∨ s.start.six ∨ s.start.warmDue then s
  else
    let s1 := broke.foldl (fun a c => a.breakChan c 7 0) s
    let s2 := { s1 with
      chans := s1.chans.mapIdx fun i (x : Chan) =>
        { x with trained := !x.broke, retrain := false, selfRefresh := decide ((s1.pt (ptOfChan i)).pwr = PtPwr.off), tags := x.tags.map fun (t : Nat × Bool) => (t.1, true)
                 flaws := if s.start.kind = 0 then [] else x.flaws, bad := if s.start.kind = 0 then [] else x.bad }
      dram := if s.start.kind = 0 then [] else s1.dram
      pool := if s.start.kind = 0 then [] else s1.pool
      start := { s1.start with six := true } }
    s2.joinStages 6

/-- An engine of a deckle die fails its self-check: marked unusable (R457). -/
def State.engineOff (s : State) (kind d : Nat) : State :=
  let loc := (0x20 + d) * 2 ^ 24
  let e := s.repairEntry kind 0x0B loc 0
  if s.logs.inForce.any (sameRepair e) then s
  else ((s.applyEntry e).storeEntry e).logErr 0x0307 { loc := loc } e

/-- STAGE_LINKS_DONE (R457, R701): every port is UP or FAILED, or the stage has reached its maximum of 52 s. -/
def stageLinksDone (nipFail ecFail : List (Fin 6)) (timedOut : Bool) (s : State) : State :=
  let settled := s.ports.all fun (x : FPort) => decide (x.st = .up) || decide (x.st = .failed)
  if !s.start.aux ∨ (s.start.stage ≠ 6 ∧ s.start.stage ≠ 7) ∨ s.start.seven ∨ s.start.warmDue
      ∨ (!settled ∧ (!timedOut ∨ s.clk.life < s.clk.stageZero + 52 * cycPerSec)) then s
  else
    let s1 := nipFail.foldl (fun a d => a.engineOff 0x13 d) s
    let s2 := ecFail.foldl (fun a d => a.engineOff 0x14 d) s1
    State.joinStages { s2 with start := { s2.start with seven := true } } 7

/-- STAGE_SHEET_MAPS_DONE (R67, R82, R454): maps and roles are installed and SMAP_GEN is 1; rolling test waits for mailbox ready. -/
def stageSheetMapsDone (s : State) : State :=
  if !s.start.aux ∨ s.start.stage ≠ 8 ∨ s.start.warmDue then s
  else
    State.endStage { s with sheets := s.sheets.map fun x => { windowEnd Sheet.startRoles x with gen := 1, dwellDue := none } } 8 9

/-- The channels the host pool lies on (R237). -/
def State.takePool (s : State) : List Nat :=
  if s.ident.poolGib = 0 then []
  else (List.range 192).filter fun c => s.mgmt.poolPts.testBit (ptOfChan c) && !(s.chan c).broke

/-- MAILBOX_READY (R41, R389, R631, R640, R677, R691, R702, R703). -/
def mailboxReady (s : State) : State :=
  if !s.start.aux ∨ s.start.stage ≠ 9 ∨ s.start.warmDue then s
  else
    let s1 := if s.start.kind = 2 then functionLevelReset s else { s with sessions := [], cache := [] }
    let s2 := { s1 with poolChans := s1.takePool }
    let s3 := (List.range 8).foldl (fun a p => a.modPt p fun x => { x with
      perf := a.settingNat 0x12, classN := (a.settingNat 0x14).testBit p }) s2
    let s4 := (List.range 8).foldl (fun a p => if ((a.pt p).en ∧ !(a.pt p).pg) ∨ (a.pt p).tripAt.isSome then a else a.powerDefault p) s3
    let op := match s4.start.pwrOp with
      | some (_, o) => o
      | none => none
    let s5 := State.endStage { s4 with start := { s4.start with handles := true, pwrOp := none } } 9 0xA
    (s5.finishOp? op ok []).fwUp

/-- Maximum of a start-up stage in ms, for the stages whose excess halts start-up (R694, R706). -/
def stageMax : Nat → Option Nat
  | 3 => some 3000
  | 4 => some 2500
  | 5 => some 1000
  | 8 => some 500
  | 9 => some 1000
  | _ => none

/-- STARTUP_HALT (R706): VSOC_PG, NO_CONTROL_CORES, or a stage beyond its maximum. -/
def startupHalt (cause : Nat) (s : State) : State :=
  let st := s.start.stage
  let due := decide ((cause = 1 ∨ cause = 2) ∧ st = 3)
    || (decide (cause = 3) && (stageMax st).any fun n => decide (s.clk.stageZero + usCyc (1000 * n) < s.clk.life))
  if !s.start.aux ∨ s.start.warmDue ∨ !due then s else s.haltStart cause

/-! ### Arms -/

/-- AUX_ARRIVAL. -/
def execAuxArrival (s : State) : Host.Outcome State Fault Refusal := nextOf s (auxArrival s)
/-- AUX_REMOVAL: the fault summary is lost with its hardware. -/
def execAuxRemoval (s : State) : Host.Outcome State Fault Refusal := .next (auxRemoval s)
/-- PLAT_RST_N. -/
def execPlatRstN (s : State) : Host.Outcome State Fault Refusal := nextOf s (platRstN s)
/-- WAKE_REQ_N. -/
def execWakeReqN (s : State) : Host.Outcome State Fault Refusal := nextOf s (wakeReqN s)
/-- TEST_MODE_ENTRY. -/
def execTestModeEntry (s : State) : Host.Outcome State Fault Refusal := nextOf s (testModeEntry s)
/-- WARM_RESET: the fault summary starts afresh with its hardware. -/
def execWarmReset (s : State) : Host.Outcome State Fault Refusal := .next (warmReset s)
/-- STAGE_AUX_DONE. -/
def execStageAuxDone (straps : BitVec 2) (s : State) : Host.Outcome State Fault Refusal := nextOf s (stageAuxDone straps s)
/-- STAGE_BOOT_ROM_DONE. -/
def execStageBootRomDone (src : Fin 4) (v : Verdict) (s : State) : Host.Outcome State Fault Refusal := nextOf s (stageBootRomDone src v s)
/-- STAGE_RAILS_DONE. -/
def execStageRailsDone (coreFails : List (Fin 16)) (s : State) : Host.Outcome State Fault Refusal := nextOf s (stageRailsDone coreFails s)
/-- RAIL_PG_TIMEOUT. -/
def execRailPgTimeout (rail : Fin 9) (s : State) : Host.Outcome State Fault Refusal := nextOf s (railPgTimeout rail s)
/-- STAGE_BIST_DONE. -/
def execStageBistDone (cols : List ColFail) (d2d : List D2dFail) (cond : BistCond) (s : State) : Host.Outcome State Fault Refusal :=
  nextOf s (stageBistDone cols d2d cond s)
/-- STAGE_REPAIR_RECORD_DONE. -/
def execStageRepairRecordDone (badLedger : List W32) (v : Verdict) (s : State) : Host.Outcome State Fault Refusal :=
  nextOf s (stageRepairRecordDone badLedger v s)
/-- STAGE_LPDDR5X_DONE. -/
def execStageLpddr5xDone (broke : List Ch) (s : State) : Host.Outcome State Fault Refusal := nextOf s (stageLpddr5xDone broke s)
/-- STAGE_LINKS_DONE. -/
def execStageLinksDone (nipFail ecFail : List (Fin 6)) (timedOut : Bool) (s : State) : Host.Outcome State Fault Refusal :=
  nextOf s (stageLinksDone nipFail ecFail timedOut s)
/-- STAGE_SHEET_MAPS_DONE. -/
def execStageSheetMapsDone (s : State) : Host.Outcome State Fault Refusal := nextOf s (stageSheetMapsDone s)
/-- MAILBOX_READY. -/
def execMailboxReady (s : State) : Host.Outcome State Fault Refusal := nextOf s (mailboxReady s)
/-- STARTUP_HALT. -/
def execStartupHalt (cause : Fin 4) (s : State) : Host.Outcome State Fault Refusal := nextOf s (startupHalt cause s)
/-- RECOVERY_HOST_WINDOW_EXPIRED. -/
def execRecoveryHostWindowExpired (s : State) : Host.Outcome State Fault Refusal := nextOf s (recoveryHostWindowExpired s)

end Sys2Proof.Machine
end

