-- ==== Sys2Proof/Machine/Dispatch.lean ====
section
/-!
DEFINITION. One arm per command: its meaning.
-/
namespace Sys2Proof.Machine

def exec (i : Instr) (s : State) : Host.Outcome State Fault Refusal :=
  match i with
  | .identify p => Sys2Proof.Machine.execIdentify p s
  | .opStatus p => Sys2Proof.Machine.execOpStatus p s
  | .describe p => Sys2Proof.Machine.execDescribe p s
  | .resolve p => Sys2Proof.Machine.execResolve p s
  | .children p => Sys2Proof.Machine.execChildren p s
  | .status p => Sys2Proof.Machine.execStatus p s
  | .counters p => Sys2Proof.Machine.execCounters p s
  | .groupCreate p => Sys2Proof.Machine.execGroupCreate p s
  | .groupEdit p => Sys2Proof.Machine.execGroupEdit p s
  | .groupDelete p => Sys2Proof.Machine.execGroupDelete p s
  | .startStatus p => Sys2Proof.Machine.execStartStatus p s
  | .ctxCreate p => Sys2Proof.Machine.execCtxCreate p s
  | .ctxDestroy p => Sys2Proof.Machine.execCtxDestroy p s
  | .ctxAlloc p => Sys2Proof.Machine.execCtxAlloc p s
  | .ctxFree p => Sys2Proof.Machine.execCtxFree p s
  | .ctxBind p => Sys2Proof.Machine.execCtxBind p s
  | .ctxSuspend p => Sys2Proof.Machine.execCtxSuspend p s
  | .suspensionSaved c => Sys2Proof.Machine.execSuspensionSaved c s
  | .ctxResume p => Sys2Proof.Machine.execCtxResume p s
  | .resumptionFinished c => Sys2Proof.Machine.execResumptionFinished c s
  | .queueConfig p => Sys2Proof.Machine.execQueueConfig p s
  | .progLoad p => Sys2Proof.Machine.execProgLoad p s
  | .progLoadFinished c image v => Sys2Proof.Machine.execProgLoadFinished c image v s
  | .progUnload p => Sys2Proof.Machine.execProgUnload p s
  | .progInfo p => Sys2Proof.Machine.execProgInfo p s
  | .reset p => Sys2Proof.Machine.execReset p s
  | .partitionResetEnd op cols d2d chans cond => Sys2Proof.Machine.execPartitionResetEnd op cols d2d chans cond s
  | .fwRestart p => Sys2Proof.Machine.execFwRestart p s
  | .fwRestartEnd coreFails v => Sys2Proof.Machine.execFwRestartEnd coreFails v s
  | .modeSet p => Sys2Proof.Machine.execModeSet p s
  | .modeUnitApplied mode lanes => Sys2Proof.Machine.execModeUnitApplied mode lanes s
  | .modeGet p => Sys2Proof.Machine.execModeGet p s
  | .powerSet p => Sys2Proof.Machine.execPowerSet p s
  | .powerStateReached op => Sys2Proof.Machine.execPowerStateReached op s
  | .fence p => Sys2Proof.Machine.execFence p s
  | .unfence p => Sys2Proof.Machine.execUnfence p s
  | .test p => Sys2Proof.Machine.execTest p s
  | .testFinished op fails cond => Sys2Proof.Machine.execTestFinished op fails cond s
  | .testResult p => Sys2Proof.Machine.execTestResult p s
  | .ledgerRead p => Sys2Proof.Machine.execLedgerRead p s
  | .errlogRead p => Sys2Proof.Machine.execErrlogRead p s
  | .dumpTrigger p => Sys2Proof.Machine.execDumpTrigger p s
  | .dumpInfo p => Sys2Proof.Machine.execDumpInfo p s
  | .dumpRead p => Sys2Proof.Machine.execDumpRead p s
  | .dumpClear p => Sys2Proof.Machine.execDumpClear p s
  | .settingsGet p => Sys2Proof.Machine.execSettingsGet p s
  | .settingsSet p => Sys2Proof.Machine.execSettingsSet p s
  | .fwInfo p => Sys2Proof.Machine.execFwInfo p s
  | .fwStageBegin p => Sys2Proof.Machine.execFwStageBegin p s
  | .fwStageData p => Sys2Proof.Machine.execFwStageData p s
  | .fwStageCommit p => Sys2Proof.Machine.execFwStageCommit p s
  | .fwCommitFinished v => Sys2Proof.Machine.execFwCommitFinished v s
  | .fwRecoveryLoad p => Sys2Proof.Machine.execFwRecoveryLoad p s
  | .fwSvnAdvance p => Sys2Proof.Machine.execFwSvnAdvance p s
  | .keyEnrol p => Sys2Proof.Machine.execKeyEnrol p s
  | .keyClear p => Sys2Proof.Machine.execKeyClear p s
  | .keyList p => Sys2Proof.Machine.execKeyList p s
  | .reelInfo p => Sys2Proof.Machine.execReelInfo p s
  | .reelEject p => Sys2Proof.Machine.execReelEject p s
  | .reelSeal p => Sys2Proof.Machine.execReelSeal p s
  | .reelFormat p => Sys2Proof.Machine.execReelFormat p s
  | .reelOpFinished op ok => Sys2Proof.Machine.execReelOpFinished op ok s
  | .portStatus p => Sys2Proof.Machine.execPortStatus p s
  | .vcBind p => Sys2Proof.Machine.execVcBind p s
  | .routeSet p => Sys2Proof.Machine.execRouteSet p s
  | .routeGet p => Sys2Proof.Machine.execRouteGet p s
  | .collStatus p => Sys2Proof.Machine.execCollStatus p s
  | .jobCreate p => Sys2Proof.Machine.execJobCreate p s
  | .jobStatus p => Sys2Proof.Machine.execJobStatus p s
  | .jobLeave p => Sys2Proof.Machine.execJobLeave p s
  | .ecSetup p => Sys2Proof.Machine.execEcSetup p s
  | .jobRestart p => Sys2Proof.Machine.execJobRestart p s
  | .mbDoneClear => Sys2Proof.Machine.execMbDoneClear s
  | .lockAcquireHost => Sys2Proof.Machine.execLockAcquireHost s
  | .lockReleaseHost => Sys2Proof.Machine.execLockReleaseHost s
  | .preemptedClear => Sys2Proof.Machine.execPreemptedClear s
  | .intCauseClear v => Sys2Proof.Machine.execIntCauseClear v s
  | .intMaskWrite v => Sys2Proof.Machine.execIntMaskWrite v s
  | .registerWrite off bytes => Sys2Proof.Machine.execRegisterWrite off bytes s
  | .dbTailWrite c e q v => Sys2Proof.Machine.execDbTailWrite c e q v s
  | .dbStop c e q => Sys2Proof.Machine.execDbStop c e q s
  | .dbRestart c e q => Sys2Proof.Machine.execDbRestart c e q s
  | .entryFetched c e q r => Sys2Proof.Machine.execEntryFetched c e q r s
  | .entryStart e => Sys2Proof.Machine.execEntryStart e s
  | .waitDeadlineExpired c e q => Sys2Proof.Machine.execWaitDeadlineExpired c e q s
  | .entryComplete c e q n writeOk => Sys2Proof.Machine.execEntryComplete c e q n writeOk s
  | .run c q n => Sys2Proof.Machine.execRun c q n s
  | .stop c q n => Sys2Proof.Machine.execStop c q n s
  | .reconfig c q n => Sys2Proof.Machine.execReconfig c q n s
  | .copy c q n src flips => Sys2Proof.Machine.execCopy c q n src flips s
  | .feed c q n src => Sys2Proof.Machine.execFeed c q n src s
  | .fill c q n => Sys2Proof.Machine.execFill c q n s
  | .rxBind c q n => Sys2Proof.Machine.execRxBind c q n s
  | .rxUnbind c q n => Sys2Proof.Machine.execRxUnbind c q n s
  | .send c q n src => Sys2Proof.Machine.execSend c q n src s
  | .requestOpen c q n src => Sys2Proof.Machine.execRequestOpen c q n src s
  | .requestSubmit c q n src => Sys2Proof.Machine.execRequestSubmit c q n src s
  | .requestClose c q n => Sys2Proof.Machine.execRequestClose c q n s
  | .requestQuery c q n => Sys2Proof.Machine.execRequestQuery c q n s
  | .syncBind c q n => Sys2Proof.Machine.execSyncBind c q n s
  | .syncUnbind c q n => Sys2Proof.Machine.execSyncUnbind c q n s
  | .syncOpRead c q n => Sys2Proof.Machine.execSyncOpRead c q n s
  | .syncOpAdd c q n => Sys2Proof.Machine.execSyncOpAdd c q n s
  | .collective c q n => Sys2Proof.Machine.execCollective c q n s
  | .ecRefresh c q n => Sys2Proof.Machine.execEcRefresh c q n s
  | .ecRebuild c q n shard => Sys2Proof.Machine.execEcRebuild c q n shard s
  | .watermark c q n flips => Sys2Proof.Machine.execWatermark c q n flips s
  | .replicaCheck c q n => Sys2Proof.Machine.execReplicaCheck c q n s
  | .messageCopyDecided o => Sys2Proof.Machine.execMessageCopyDecided o s
  | .busMasterEnableSet => Sys2Proof.Machine.execBusMasterEnableSet s
  | .cxlMemRead addr flips => Sys2Proof.Machine.execCxlMemRead addr flips s
  | .cxlMemWrite addr data => Sys2Proof.Machine.execCxlMemWrite addr data s
  | .functionLevelReset => Sys2Proof.Machine.execFunctionLevelReset s
  | .lockIdleExpired => Sys2Proof.Machine.execLockIdleExpired s
  | .backgroundOpFinished op => Sys2Proof.Machine.execBackgroundOpFinished op s
  | .routeCycle evs => Sys2Proof.Machine.execRouteCycle evs s
  | .issueEntryAdvance t => Sys2Proof.Machine.execIssueEntryAdvance t s
  | .foldSlotSwitch t => Sys2Proof.Machine.execFoldSlotSwitch t s
  | .externalWaitPoint c => Sys2Proof.Machine.execExternalWaitPoint c s
  | .holdRelease c => Sys2Proof.Machine.execHoldRelease c s
  | .calenderPoint c evs => Sys2Proof.Machine.execCalenderPoint c evs s
  | .catchupDone sh => Sys2Proof.Machine.execCatchupDone sh s
  | .prologueEnd c => Sys2Proof.Machine.execPrologueEnd c s
  | .prologueOverrun c => Sys2Proof.Machine.execPrologueOverrun c s
  | .calenderOverdue c => Sys2Proof.Machine.execCalenderOverdue c s
  | .hung p => Sys2Proof.Machine.execHung p s
  | .programWaitDeadline c => Sys2Proof.Machine.execProgramWaitDeadline c s
  | .channelSlotIssue c slot => Sys2Proof.Machine.execChannelSlotIssue c slot s
  | .dramReadArrival c ch flips => Sys2Proof.Machine.execDramReadArrival c ch flips s
  | .readBufferEmit t => Sys2Proof.Machine.execReadBufferEmit t s
  | .sramScrub t lanes ecc => Sys2Proof.Machine.execSramScrub t lanes ecc s
  | .dramScrub ch flips => Sys2Proof.Machine.execDramScrub ch flips s
  | .dramTempSample temps => Sys2Proof.Machine.execDramTempSample temps s
  | .telemetrySnapshot => Sys2Proof.Machine.execTelemetrySnapshot s
  | .messagePlaneSlot slot => Sys2Proof.Machine.execMessagePlaneSlot slot s
  | .maintenanceSlot evs => Sys2Proof.Machine.execMaintenanceSlot evs s
  | .dwellStart sh key1 key2 => Sys2Proof.Machine.execDwellStart sh key1 key2 s
  | .zeroiseDone sh refused cond => Sys2Proof.Machine.execZeroiseDone sh refused cond s
  | .marchDone sh fails cond => Sys2Proof.Machine.execMarchDone sh fails cond s
  | .logicBistDone sh fails cond => Sys2Proof.Machine.execLogicBistDone sh fails cond s
  | .marginBistDone sh fails cond => Sys2Proof.Machine.execMarginBistDone sh fails cond s
  | .softRepair sh rerunFails cond => Sys2Proof.Machine.execSoftRepair sh rerunFails cond s
  | .couchInDone sh => Sys2Proof.Machine.execCouchInDone sh s
  | .spareMove point => Sys2Proof.Machine.execSpareMove point s
  | .replicaReportsGathered c reports => Sys2Proof.Machine.execReplicaReportsGathered c reports s
  | .replicaRebuildDone c data ok => Sys2Proof.Machine.execReplicaRebuildDone c data ok s
  | .phyCheck u bad => Sys2Proof.Machine.execPhyCheck u bad s
  | .coreWatchdogExpired core => Sys2Proof.Machine.execCoreWatchdogExpired core s
  | .controlDieHeartbeat => Sys2Proof.Machine.execControlDieHeartbeat s
  | .controlDieLost die => Sys2Proof.Machine.execControlDieLost die s
  | .dumpUnitTimeout h off => Sys2Proof.Machine.execDumpUnitTimeout h off s
  | .dumpTargetFailed => Sys2Proof.Machine.execDumpTargetFailed s
  | .dumpWritten => Sys2Proof.Machine.execDumpWritten s
  | .mbRequest tag code p => Sys2Proof.Machine.execMbRequest tag code p s
  | .lockAcquire eid => Sys2Proof.Machine.execLockAcquire eid s
  | .lockRelease => Sys2Proof.Machine.execLockRelease s
  | .dumpStreamAck id next => Sys2Proof.Machine.execDumpStreamAck id next s
  | .dumpStreamResend => Sys2Proof.Machine.execDumpStreamResend s
  | .setEndpointId eid => Sys2Proof.Machine.execSetEndpointId eid s
  | .smbusFallback => Sys2Proof.Machine.execSmbusFallback s
  | .setEventReceiver eid => Sys2Proof.Machine.execSetEventReceiver eid s
  | .sensorRefresh readings => Sys2Proof.Machine.execSensorRefresh readings s
  | .requestUpdate len => Sys2Proof.Machine.execRequestUpdate len s
  | .activateFirmware => Sys2Proof.Machine.execActivateFirmware s
  | .cancelUpdate => Sys2Proof.Machine.execCancelUpdate s
  | .getVersion => Sys2Proof.Machine.execGetVersion s
  | .getCapabilities => Sys2Proof.Machine.execGetCapabilities s
  | .negotiateAlgorithms => Sys2Proof.Machine.execNegotiateAlgorithms s
  | .getDigests => Sys2Proof.Machine.execGetDigests s
  | .getCertificate off len => Sys2Proof.Machine.execGetCertificate off len s
  | .challenge nonce => Sys2Proof.Machine.execChallenge nonce s
  | .getMeasurements index signed nonce => Sys2Proof.Machine.execGetMeasurements index signed nonce s
  | .fabricPacketRx p bytes fec => Sys2Proof.Machine.execFabricPacketRx p bytes fec s
  | .creditReturn p vc n => Sys2Proof.Machine.execCreditReturn p vc n s
  | .ethernetFrameRx p dst etherType frame => Sys2Proof.Machine.execEthernetFrameRx p dst etherType frame s
  | .contrib => Sys2Proof.Machine.execContrib s
  | .result => Sys2Proof.Machine.execResult s
  | .data => Sys2Proof.Machine.execData s
  | .ack => Sys2Proof.Machine.execAck s
  | .reissueReq => Sys2Proof.Machine.execReissueReq s
  | .pending => Sys2Proof.Machine.execPending s
  | .digest => Sys2Proof.Machine.execDigest s
  | .collectiveOccurrenceStart c id => Sys2Proof.Machine.execCollectiveOccurrenceStart c id s
  | .collectiveOccurrenceDone c id => Sys2Proof.Machine.execCollectiveOccurrenceDone c id s
  | .nipWaitExpired c id peer pkt => Sys2Proof.Machine.execNipWaitExpired c id peer pkt s
  | .portTrained p lanes peer peerPort => Sys2Proof.Machine.execPortTrained p lanes peer peerPort s
  | .portDown p => Sys2Proof.Machine.execPortDown p s
  | .heartbeat job => Sys2Proof.Machine.execHeartbeat job s
  | .heartbeatLost job rank => Sys2Proof.Machine.execHeartbeatLost job rank s
  | .hello => Sys2Proof.Machine.execHello s
  | .vote => Sys2Proof.Machine.execVote s
  | .decision => Sys2Proof.Machine.execDecision s
  | .alert => Sys2Proof.Machine.execAlert s
  | .leave => Sys2Proof.Machine.execLeave s
  | .memberAck => Sys2Proof.Machine.execMemberAck s
  | .resetNotice p => Sys2Proof.Machine.execResetNotice p s
  | .memberResend job => Sys2Proof.Machine.execMemberResend job s
  | .restartGatherExpired job => Sys2Proof.Machine.execRestartGatherExpired job s
  | .jobFormTimeout job => Sys2Proof.Machine.execJobFormTimeout job s
  | .ecGenerationComplete job => Sys2Proof.Machine.execEcGenerationComplete job s
  | .powerLimiterSample x => Sys2Proof.Machine.execPowerLimiterSample x s
  | .thermalSample xs => Sys2Proof.Machine.execThermalSample xs s
  | .thermtrip => Sys2Proof.Machine.execThermtrip s
  | .avsUpdate p mv readMv readMa => Sys2Proof.Machine.execAvsUpdate p mv readMv readMa s
  | .idleEntry p => Sys2Proof.Machine.execIdleEntry p s
  | .limitLevelApply p => Sys2Proof.Machine.execLimitLevelApply p s
  | .pllLockTimeout p => Sys2Proof.Machine.execPllLockTimeout p s
  | .vcorePgFall p => Sys2Proof.Machine.execVcorePgFall p s
  | .vsocPgFall => Sys2Proof.Machine.execVsocPgFall s
  | .auxArrival => Sys2Proof.Machine.execAuxArrival s
  | .auxRemoval => Sys2Proof.Machine.execAuxRemoval s
  | .platRstN => Sys2Proof.Machine.execPlatRstN s
  | .wakeReqN => Sys2Proof.Machine.execWakeReqN s
  | .testModeEntry => Sys2Proof.Machine.execTestModeEntry s
  | .warmReset => Sys2Proof.Machine.execWarmReset s
  | .stageAuxDone straps => Sys2Proof.Machine.execStageAuxDone straps s
  | .stageBootRomDone src v => Sys2Proof.Machine.execStageBootRomDone src v s
  | .stageRailsDone coreFails => Sys2Proof.Machine.execStageRailsDone coreFails s
  | .railPgTimeout rail => Sys2Proof.Machine.execRailPgTimeout rail s
  | .stageBistDone cols d2d cond => Sys2Proof.Machine.execStageBistDone cols d2d cond s
  | .stageRepairRecordDone badLedger v => Sys2Proof.Machine.execStageRepairRecordDone badLedger v s
  | .stageLpddr5xDone broke => Sys2Proof.Machine.execStageLpddr5xDone broke s
  | .stageLinksDone nipFail ecFail timedOut => Sys2Proof.Machine.execStageLinksDone nipFail ecFail timedOut s
  | .stageSheetMapsDone => Sys2Proof.Machine.execStageSheetMapsDone s
  | .mailboxReady => Sys2Proof.Machine.execMailboxReady s
  | .startupHalt cause => Sys2Proof.Machine.execStartupHalt cause s
  | .reelLatchOpen => Sys2Proof.Machine.execReelLatchOpen s
  | .reelLatchClose => Sys2Proof.Machine.execReelLatchClose s
  | .reelStartingDone f => Sys2Proof.Machine.execReelStartingDone f s
  | .reelHealthPoll pu units readOnly critical => Sys2Proof.Machine.execReelHealthPoll pu units readOnly critical s
  | .reelCommandTimeout => Sys2Proof.Machine.execReelCommandTimeout s
  | .reelAccessDone ok nvme => Sys2Proof.Machine.execReelAccessDone ok nvme s
  | .busMasterEnableClear => Sys2Proof.Machine.execBusMasterEnableClear s
  | .feedDataReachedLpddr5x c q n => Sys2Proof.Machine.execFeedDataReachedLpddr5x c q n s
  | .selfRefreshReentry ch => Sys2Proof.Machine.execSelfRefreshReentry ch s
  | .vcorePgReturn p => Sys2Proof.Machine.execVcorePgReturn p s
  | .entdaa addr => Sys2Proof.Machine.execEntdaa addr s
  | .firmwareDataPart off bytes => Sys2Proof.Machine.execFirmwareDataPart off bytes s
  | .externalTestScanAccess sh pc scan => Sys2Proof.Machine.execExternalTestScanAccess sh pc scan s
  | .cxlLinkTraining up rate mode => Sys2Proof.Machine.execCxlLinkTraining up rate mode s
  | .replicaRebuildTimeout c => Sys2Proof.Machine.execReplicaRebuildTimeout c s
  | .snapshotCopyComplete job => Sys2Proof.Machine.execSnapshotCopyComplete job s
  | .dumpPartitionReadDone p => Sys2Proof.Machine.execDumpPartitionReadDone p s
  | .recoveryHostWindowExpired => Sys2Proof.Machine.execRecoveryHostWindowExpired s
  | .controlCoreRestartDone core => Sys2Proof.Machine.execControlCoreRestartDone core s
  | .restartStateRestored job shard => Sys2Proof.Machine.execRestartStateRestored job shard s

end Sys2Proof.Machine
end

