-- ==== Sys2Proof/WellFormed.lean ====
section
/-!
DEFINITION. Which commands are well formed: the lengths that the spec's transport of a command allows. A mailbox request is at
most 4,096 bytes (R288); a register write is 1 to 64 bytes inside BAR0 or BAR2 (R284, R285); a fabric packet is a 32 B header, a payload of
0–4,160 B and a 4 B trailer (R539); a PLDM part is at most 1,024 B (R630); a certificate part fits 16 bits.
-/
namespace Sys2Proof

/-- A mailbox request is at most 4,096 bytes (R288). -/
def payloadOk (p : Payload) : Bool := decide (p.length ≤ 4096)

/-- A fabric packet's length (R539). -/
def packetOk (b : List Byte) : Bool := decide (36 ≤ b.length ∧ b.length ≤ 4196)

/-- The command is one its transport can carry. -/
def Instr.wellFormed : Instr → Bool
  | .identify p | .opStatus p | .describe p | .resolve p | .children p | .status p | .counters p | .groupCreate p
  | .groupEdit p | .groupDelete p | .startStatus p | .ctxCreate p | .ctxDestroy p | .ctxAlloc p | .ctxFree p | .ctxBind p
  | .ctxSuspend p | .ctxResume p | .queueConfig p | .progLoad p | .progUnload p | .progInfo p | .reset p | .fwRestart p
  | .modeSet p | .modeGet p | .powerSet p | .fence p | .unfence p | .test p | .testResult p | .ledgerRead p
  | .errlogRead p | .dumpTrigger p | .dumpInfo p | .dumpRead p | .dumpClear p | .settingsGet p | .settingsSet p
  | .fwInfo p | .fwStageBegin p | .fwStageData p | .fwStageCommit p | .fwRecoveryLoad p | .fwSvnAdvance p | .keyEnrol p
  | .keyClear p | .keyList p | .reelInfo p | .reelEject p | .reelSeal p | .reelFormat p | .portStatus p | .vcBind p
  | .routeSet p | .routeGet p | .collStatus p | .jobCreate p | .jobStatus p | .jobLeave p | .ecSetup p | .jobRestart p =>
    payloadOk p
  | .mbRequest _ _ p => payloadOk p
  | .registerWrite off b => decide (1 ≤ b.length ∧ b.length ≤ 64 ∧ off.toNat + b.length ≤ 0x210000)
  | .fabricPacketRx _ b _ => packetOk b
  | .firmwareDataPart _ b => decide (b.length ≤ 1024)
  | .partitionResetEnd _ cols _ _ _ => decide (cols.length ≤ 54)
  | .testFinished _ fails _ => decide (fails.length ≤ 6912)
  | .creditReturn _ _ n => decide (n ≤ 256)
  | .cxlLinkTraining _ rate x => decide ((rate = 64 ∧ x.flit68 = false ∨ rate = 32) ∧ (x.width = 8 ∨ x.width = 4))
  | _ => true

end Sys2Proof
end

