-- ==== Sys2Proof/Safety.lean ====
section
/-!
DEFINITION. What counts as a safe step, and the terms that the statements use: the shape of the state, the canonical form of its
memories, a mailbox that takes a command, and how a command answers.
-/
namespace Sys2Proof

/-- The step from `s` neither faults nor is refused. -/
def Safe (s : Machine.State) : Prop := ∃ t, Machine.step s = .next t

namespace Machine

/-! ### The state -/

/-- The numbers of things the module has: partitions, channels, sheets, contexts, engine queues of a context, ports, maps and columns of
a sheet, and the stages whose ends START_STATUS reports (R21, R24, R60, R229, R314, R326, R533, R704). -/
def Shaped (s : State) : Prop :=
  s.pts.length = 8 ∧ s.chans.length = 192 ∧ s.sheets.length = 24 ∧ s.ctxs.length = 64 ∧ s.ports.length = 18 ∧ s.start.doneMs.length = 9 ∧
    (∀ x ∈ s.ctxs, x.queues.length = 16) ∧ ∀ x ∈ s.sheets, x.map.length = 16 ∧ x.tstat.length = 18

/-- Every memory of the module is in canonical form: LPDDR5X, the host pool, the mailbox payload area, the MSI-X table and the
cartridge. -/
def Canonical (s : State) : Prop :=
  s.dram.wf = true ∧ s.pool.wf = true ∧ s.host.payload.wf = true ∧ s.host.msixTable.wf = true ∧ s.reel.data.wf = true

/-! ### How a command answers -/

/-- The command answers a next state, and `P` holds of it. -/
def Answers (c : Instr) (s : State) (P : State → Prop) : Prop := ∃ t, exec c s = .next t ∧ P t

/-- `t` is `u` but for what an update of the fault summary does: FS_GEN may rise by 2, and its cause bit and its interrupt follow
(R304, R306). -/
def Settled (u t : State) : Prop :=
  t = { u with
    host := { u.host with fsGen := t.host.fsGen, cause := t.host.cause, msixPending := t.host.msixPending }
    outbox := t.outbox } ∧
  (t.host.fsGen = u.host.fsGen ∨ t.host.fsGen = u.host.fsGen + 2) ∧
  (t.host.cause = u.host.cause ∨ t.host.cause = u.host.cause ||| 8#6) ∧ u.outbox <+: t.outbox

/-- The command makes of `s` the state `u`, up to an update of the fault summary. -/
def Makes (c : Instr) (s u : State) : Prop := Answers c s (Settled u)

/-! ### The host mailbox -/

/-- GO is carried out: CT0 is in service, its link is up, the mailbox is ready and not BUSY, and the module is not in recovery mode
(R27, R289, R633). -/
def HostReady (s : State) : Prop :=
  s.dies.ct0Lost = false ∧ s.host.busy = false ∧ s.host.linkUp = true ∧ s.host.fwReady = true ∧ s.mgmt.fw ≠ .recovery ∧
    s.host.payload.wf = true

/-- The host also holds the lock that commands of kinds F, B and B+P need (R293, R294). -/
def HostOwns (s : State) : Prop := HostReady s ∧ s.host.owner = .host

/-- The mailbox reports a completion: DONE without BUSY, STATUS, SEQ one higher than in `s`, MB_DONE raised, and the response in
the payload area, each byte with the bits that the spec states (R289, R297). -/
def Reported (s t : State) (st : Nat) (bs : List RByte) : Prop :=
  t.host.done = true ∧ t.host.busy = false ∧ t.host.status = st ∧ t.host.seq = s.host.seq + 1 ∧
    t.host.cause.getLsbD 0 = true ∧ t.host.respLen = bs.length ∧
    ∀ i x, bs[i]? = some x → ∃ w, t.host.payload.get i = x.value w

/-- Beside the mailbox registers, the interrupt state, what is sent, and the count of free values taken, `t` is `u`. -/
def Beside (u t : State) : Prop :=
  t = { u with
    host := { u.host with
      code := t.host.code, reqLen := t.host.reqLen, done := t.host.done, status := t.host.status, respLen := t.host.respLen
      seq := t.host.seq, busy := t.host.busy, spoiled := t.host.spoiled, payload := t.host.payload, cause := t.host.cause
      msixPending := t.host.msixPending, fsGen := t.host.fsGen }
    fresh := t.fresh, outbox := t.outbox } ∧ u.outbox <+: t.outbox

/-- The mailbox command completes with this status and response; beside the mailbox the state becomes `u`. -/
def Replies (c : Instr) (s : State) (st : Nat) (bs : List RByte) (u : State) : Prop :=
  Answers c s fun t => Reported s t st bs ∧ Beside u t

/-- A background operation of the host is accepted: its record, with the units it begins on, and its OP_ID (R291). -/
def accepted (s : State) (code handle : Nat) : State :=
  { s with ops := s.ops ++ [{ id := s.nextOp, code := code, handle := handle, units := s.expand handle, start := s.cyc }], lastOp := s.nextOp }

/-- An operation is running. -/
def OpRuns (s : State) (op : Nat) : Prop := ∃ o, s.op? op = some o ∧ o.finished = false

/-- An operation is finished with a status. -/
def OpEnded (s : State) (op st : Nat) : Prop := ∃ o, s.op? op = some o ∧ o.finished = true ∧ o.status = st

/-- Entry `n` of queue `k` of context `c` has an outcome, which ENTRY_COMPLETE will report (R351). -/
def Ended (s : State) (c k : Nat) (n : W32) (d : Done) : Prop := ∃ x, (s.queue c k).entry? n = some x ∧ x.outcome = some d

/-- The oldest MEMBER packet of SUB `sub` is `k`, from rank `r` of job `j`: its EPOCH is the job's, its sender the rank's address, and
the rank is not lost, or the job is being restarted. `s1` is `s` without it (R577, R578, R599). -/
def FromMember (s : State) (sub : Nat) (k : Packet) (j : Job) (r : Nat) (s1 : State) : Prop :=
  s.takePacket (fun k => decide (k.typ = 8 ∧ unle (k.payload.take 1) = sub)) = some (k, s1) ∧
    s.jobs.find? (fun j => decide (j.tag = k.jobTag ∧ j.id / 2 ^ 32 = unle (argBytes k.payload 12 4) ∧ j.st ≠ .none ∧ j.st ≠ .excluded)) = some j ∧
    s.job? j.id = some j ∧ unle (argBytes k.payload 2 2) = r ∧ unle (argBytes k.payload 8 4) = j.wireEpoch ∧
    j.addrs.getD r 0x10000 = k.src ∧ (j.restarts = true ∨ j.lost.contains r = false) ∧ j.ctx < 64

/-- Job `j` of `s` has lost a rank in `t`: the job is VOTING, the rank is lost, no collective occurrence of its context runs, and the
context holds: from now on where it was held already, after a commit that waits for its snapshot copy too; one that waits for its decision goes
on waiting for it; a schedule that runs, from the next frame boundary. Other contexts, the memories and the management state are as before
(R580–R582, R586). -/
def Loses (s t : State) (j : Job) (rank : Nat) : Prop :=
  (∃ y, t.job? j.id = some y ∧ y.st = .voting ∧ rank ∈ y.lost ∧ rank ∈ y.alerted ∧ y.voted = false ∧ y.epoch = j.epoch) ∧
    (∀ d ∈ (t.ctx j.ctx).colls, d.running = none) ∧
    (t.ctx j.ctx).hold = (match (s.ctx j.ctx).hold with
      | .none => .none
      | .decide a => if (s.ctx j.ctx).snapWait then .stopped else .decide a
      | _ => .stopped) ∧
    (∀ x, x ≠ j.ctx → t.ctx x = s.ctx x) ∧ t.tiles = s.tiles ∧ t.dram = s.dram ∧ t.pool = s.pool ∧ t.reel = s.reel ∧
    t.ident = s.ident ∧ t.mgmt = s.mgmt ∧ t.start = s.start

/-- A job in which a loss of `rank` is news: it is ACTIVE or VOTING, the rank is another member's, and neither lost nor alerted. -/
def CanLose (s : State) (j : Job) (rank : Nat) : Prop :=
  s.job? j.id = some j ∧ (j.st = .active ∨ j.st = .voting) ∧ rank < j.nmod ∧ rank ≠ j.rank ∧ rank ∉ j.alerted ∧ rank ∉ j.lost ∧
    j.gathered = false ∧ j.ctx < 64

/-- The two states hold the same memories: tiles and their stores, LPDDR5X, the host pool, the cartridge. -/
def SameMemory (s t : State) : Prop :=
  t.tiles = s.tiles ∧ t.dram = s.dram ∧ t.pool = s.pool ∧ t.reel.data = s.reel.data

/-- The two states hold the same fuses, firmware, keys, settings and start-up record. -/
def SameManagement (s t : State) : Prop := t.ident = s.ident ∧ t.mgmt = s.mgmt ∧ t.start = s.start

end Machine

end Sys2Proof
end

