-- ==== Sys2Proof/Certificates/Slice0/Obligations.lean ====
section
/-!
DEFINITION. What is claimed of the model: the statements for the provers.
-/

open Sys2Proof Sys2Proof.Machine

/-- One step carries out the command at the front of the queue on the state with the queue's rest; with nothing waiting the block
idles (the idle step by log entry 6). -/
def Obligations.StepRunsFront : Prop := ∀ (s : State),
  (∀ c rest, s.pending = c :: rest → step s = exec c { s with pending := rest }) ∧ (s.pending = [] → step s = .next s)

/-- What reset leaves, in the values the spec gives: the boot ROM stage of a warm reset, CYCLE 0, the mailbox, lock and interrupt
registers at their reset values, the CXL link down and bus mastering off, every rail down, channels in self-refresh, no map
installed, contexts FREE with their queues disabled, ports DOWN and bound to no group, no job, no operation and no error record, no
mode in change, no handle issued (R41, R134, R276, R288, R293, R304, R330, R498, R519, R541, R646, R695). -/
def Obligations.ResetState : Prop := ∀ s : State, s = State.reset →
  s.start.stage = 2 ∧ s.start.kind = 1 ∧ s.start.halt = 0 ∧ s.start.aux = true ∧ s.start.vsoc = false ∧ s.start.handles = false ∧
  s.start.doneMs = List.replicate 9 0 ∧ s.clk.cycle = 0 ∧
  s.host.code = 0 ∧ s.host.reqLen = 0 ∧ s.host.fwReady = false ∧ s.host.busy = false ∧ s.host.done = false ∧ s.host.respLen = 0 ∧ s.host.seq = 0 ∧
  s.host.status = 0 ∧ s.host.owner = .free ∧ s.host.preempted = false ∧ s.host.cause = 0 ∧ s.host.mask = 0 ∧ s.host.linkUp = false ∧
  s.host.busMaster = false ∧
  (∀ p, p < 8 → (s.pt p).pwr = .off ∧ (s.pt p).en = false ∧ (s.pt p).pg = false ∧ (s.pt p).counters = []) ∧
  (∀ c, c < 192 → (s.chan c).selfRefresh = true) ∧ (∀ n, n < 24 → (s.sheet n).gen = 0) ∧
  (∀ c, c < 64 → (s.ctx c).st = .free ∧ ∀ k, k < 16 → (s.queue c k).enabled = false ∧ (s.queue c k).stopped = false ∧ (s.queue c k).tail = 0 ∧
    (s.queue c k).fetch = 0 ∧ (s.queue c k).head = 0) ∧
  (∀ p, p < 18 → (s.port p).st = .down ∧ (s.port p).peer = 0xFFFF ∧ (s.port p).groups = List.replicate 16 0) ∧
  s.jobs = [] ∧ s.ops = [] ∧ s.logs.errs = [] ∧ s.logs.seq = 0 ∧ s.mgmt.modes = [] ∧ s.pending = []

/-- At reset the machine has its numbers of things and its memories their canonical form (the form is the model's own). -/
def Obligations.ResetInvariant : Prop := Shaped State.reset ∧ Canonical State.reset

/-- Every step of every command keeps the numbers of partitions, channels, sheets, contexts, queues, ports, columns and stages (R21,
R24, R60, R229, R314, R326, R533, R704). -/
def Obligations.StepKeepsShape : Prop := ∀ (s t : State), Shaped s → step s = .next t → Shaped t

/-- Every step of every command keeps the canonical form of LPDDR5X, the host pool, the payload area, the MSI-X table and the
cartridge (the form is the model's own). -/
def Obligations.StepKeepsMemoryForm : Prop := ∀ (s t : State), Canonical s → step s = .next t → Canonical t

/-- A step takes the front command off the queue and touches nothing behind it, whatever the command (the queue is the model's own).
-/
def Obligations.StepKeepsQueueOrder : Prop := ∀ (s t : State) (c : Instr) (rest : List Instr), s.pending = c :: rest → step s = .next t →
  t.pending = rest

/-- Fuses are never cleared: no command lowers the SVN count or changes the other fuses; and external test mode stays latched until
aux is removed (R621, R631). -/
def Obligations.FusesAndTestModeLatched : Prop := ∀ (s t : State) (c : Instr), exec c s = .next t →
  s.ident.svn ≤ t.ident.svn ∧ t.ident.revoked = s.ident.revoked ∧ t.ident.vendor = s.ident.vendor ∧ t.ident.uds = s.ident.uds ∧
    t.ident.serial = s.ident.serial ∧ t.ident.stepping = s.ident.stepping ∧ t.ident.is1440 = s.ident.is1440 ∧
    t.ident.fusedRepairs = s.ident.fusedRepairs ∧
  (s.mgmt.testMode = true → c ≠ .auxRemoval → t.mgmt.testMode = true)

/-- A command of kind F, B or B+P from a master that does not hold the lock completes with DENIED and has no side effects, be the
master the host or the sideband; a pre-emption by kind B+P of a lock the host holds is the exception that R295 makes (R294). -/
def Obligations.LockNotHeldDenied : Prop := ∀ (s : State) (p : Payload),
  (HostReady s → s.host.owner ≠ .host →
    ∀ c ∈ ([.groupCreate p, .groupEdit p, .groupDelete p, .ctxCreate p, .ctxDestroy p, .ctxAlloc p, .ctxFree p, .ctxBind p, .queueConfig p,
        .dumpClear p, .settingsSet p, .fwStageBegin p, .fwStageData p, .keyEnrol p, .keyClear p, .vcBind p, .routeSet p,
        .ctxSuspend p, .ctxResume p, .progLoad p, .progUnload p, .modeSet p, .powerSet p, .fence p, .unfence p, .test p, .fwStageCommit p,
        .fwSvnAdvance p, .reelEject p, .reelSeal p, .reelFormat p, .jobCreate p, .jobLeave p, .ecSetup p, .jobRestart p,
        .reset p, .fwRestart p, .dumpTrigger p, .dumpRead p, .fwRecoveryLoad p] : List Instr),
      Replies c s denied (err denied).bytes s) ∧
  (∀ tag (code : W16) kind f, s.sideUp = true → s.side.outstanding = none → s.side.held = none → s.start.stage = 0xA → s.start.pwr ≠ .m3 → s.host.fwReady = true →
    s.mgmt.fw ≠ .recovery → p.length ≤ 4096 → mbOf code.toNat = some (kind, f) → kind ≠ .q → s.host.owner ≠ .sideband →
    (kind = .bp → s.host.owner = .free) →
    ∃ b, b.length = (err denied).bytes.length ∧
      Makes (.mbRequest tag code p) s { s with outbox := s.outbox ++ [.mbResponse tag denied b], fresh := s.fresh + b.length })

/-- When CT0 is lost, a lock held by the host becomes free at once; one the sideband holds stays (R609). -/
def Obligations.HostLockFreedWithCt0 : Prop := ∀ (s : State), s.dies.ct0Lost = false → s.dies.ct1Lost = false →
  s.dies.beat + cycPerSec / 100 ≤ s.clk.life →
  (s.host.owner = .host → Answers (.controlDieLost 0) s fun t => t.dies.ct0Lost = true ∧ t.host.owner = .free) ∧
  (s.host.owner ≠ .host → Answers (.controlDieLost 0) s fun t => t.dies.ct0Lost = true ∧ t.host.owner = s.host.owner)

/-- GROUP_CREATE and GROUP_EDIT that meet a case of R725 return its status and change nothing: a handle that is not valid NOT_FOUND,
a repeated member, a depth above 4 and a cycle INVALID_ARG, a member added twice or removed without being one STATE_CONFLICT, a full
group or a full module NO_RESOURCE, an edit of what is no user group UNSUPPORTED; the detail names the handle and the field (R37,
R725). -/
def Obligations.GroupOutcomes : Prop := ∀ (s : State) (p : Payload), HostOwns s →
  (∀ ms, p.length = 4 + 4 * arg p 0 2 → 1 ≤ arg p 0 2 → arg p 0 2 ≤ 64 → rsvdBad p [(2, 2)] = none →
    ms = (List.range (arg p 0 2)).map (fun i => arg p (4 + 4 * i) 4) →
    (∀ i, i < ms.length → ms.getD i 0 ∈ ms.take i → (ms.take i).Nodup →
      Replies (.groupCreate p) s invalid (err invalid { arg := 4 + 4 * i, handle := ms.getD i 0 }).bytes s) ∧
    (ms.Nodup → ∀ i, i < ms.length →
      (s.unitOf (ms.getD i 0) = none → (∀ m ∈ ms.take i, s.unitOf m ≠ none) →
        Replies (.groupCreate p) s notFound (err notFound { arg := 4 + 4 * i, handle := ms.getD i 0 }).bytes s) ∧
      ((∀ m ∈ ms, s.unitOf m ≠ none) → 4 ≤ s.depthOf 5 (ms.getD i 0) → (∀ m ∈ ms.take i, s.depthOf 5 m < 4) →
        Replies (.groupCreate p) s invalid (err invalid { arg := 4 + 4 * i, handle := ms.getD i 0 }).bytes s)) ∧
    (ms.Nodup → (∀ m ∈ ms, s.unitOf m ≠ none ∧ s.depthOf 5 m < 4) → 1024 ≤ s.groups.length →
      Replies (.groupCreate p) s noResource (err noResource).bytes s)) ∧
  (∀ (h m : Nat) (u : State), p.length = 12 → rsvdBad p [(5, 3)] = none → arg p 4 1 ≤ 1 → h = arg p 0 4 → m = arg p 8 4 →
    u = { s with groups := s.groups.map fun g => if g.handle = h then { g with members := s.membersOf h ++ [m] } else g } →
    (s.unitOf h = none → Replies (.groupEdit p) s notFound (err notFound { arg := 0, handle := h }).bytes s) ∧
    (s.unitOf h ≠ none → s.unitOf m = none → Replies (.groupEdit p) s notFound (err notFound { arg := 8, handle := m }).bytes s) ∧
    (s.unitOf h ≠ none → s.unitOf m ≠ none → s.unitOf h ≠ some (.group h) →
      Replies (.groupEdit p) s unsupported (err unsupported { handle := h }).bytes s) ∧
    (s.unitOf h = some (.group h) → s.unitOf m ≠ none →
      (arg p 4 1 = 0 → s.reaches 5 m h = true ∨ (∃ g ∈ u.groups, 4 < u.depthOf 6 g.handle) →
        Replies (.groupEdit p) s invalid (err invalid { arg := 8, handle := m }).bytes s) ∧
      (arg p 4 1 = 0 → s.reaches 5 m h = false → (∀ g ∈ u.groups, u.depthOf 6 g.handle ≤ 4) →
        (m ∈ s.membersOf h → Replies (.groupEdit p) s conflict (err conflict { arg := 8, handle := m }).bytes s) ∧
        (m ∉ s.membersOf h → 64 ≤ (s.membersOf h).length → Replies (.groupEdit p) s noResource (err noResource { handle := h }).bytes s)) ∧
      (arg p 4 1 = 1 → m ∉ s.membersOf h → Replies (.groupEdit p) s conflict (err conflict { arg := 8, handle := m }).bytes s)))

/-- Every mailbox command of fixed length: a REQ_LEN other than its own completes INVALID_ARG and has no side effect; with the link
down, CT0 lost, or while another command is BUSY, a command is not taken; without FW_READY it completes BUSY; one that GO has set
BUSY runs on the request in the payload area and completes (R27, R288, R289, R292, R301; which row completes it by log entry 12). -/
def Obligations.MailboxChecks : Prop := ∀ (s : State) (p : Payload),
  (HostOwns s → ∀ e ∈ ([(0, .identify p), (4, .opStatus p), (4, .describe p), (48, .resolve p), (8, .children p), (4, .status p), (4, .counters p),
      (12, .groupEdit p), (4, .groupDelete p), (0, .startStatus p), (1, .ctxCreate p), (1, .ctxDestroy p), (8, .ctxAlloc p), (1, .ctxFree p),
      (2, .ctxBind p), (1, .ctxSuspend p), (1, .ctxResume p), (20, .queueConfig p), (20, .progLoad p), (1, .progUnload p), (1, .progInfo p),
      (4, .reset p), (0, .fwRestart p), (12, .modeSet p), (8, .modeGet p), (8, .powerSet p), (4, .fence p), (4, .unfence p), (8, .test p),
      (4, .testResult p), (8, .ledgerRead p), (8, .errlogRead p), (4, .dumpTrigger p), (0, .dumpInfo p), (20, .dumpRead p), (4, .dumpClear p),
      (4, .settingsGet p), (0, .fwInfo p), (8, .fwStageBegin p), (0, .fwStageCommit p), (8, .fwRecoveryLoad p), (0, .fwSvnAdvance p),
      (0, .keyList p), (0, .reelInfo p), (0, .reelEject p), (16, .reelSeal p), (8, .reelFormat p), (1, .portStatus p), (4, .vcBind p),
      (4, .routeGet p), (4, .collStatus p), (24, .jobCreate p), (8, .jobStatus p), (8, .jobLeave p), (16, .ecSetup p), (32, .jobRestart p)] :
        List (Nat × Instr)),
    p.length ≠ e.1 → Replies e.2 s invalid (err invalid).bytes s) ∧
  (∀ e ∈ ([(0x01, .identify p), (0x02, .opStatus p), (0x03, .describe p), (0x04, .resolve p), (0x05, .children p), (0x06, .status p), (0x07, .counters p),
      (0x08, .groupCreate p), (0x09, .groupEdit p), (0x0a, .groupDelete p), (0x0b, .startStatus p), (0x10, .ctxCreate p), (0x11, .ctxDestroy p),
      (0x12, .ctxAlloc p), (0x13, .ctxFree p), (0x14, .ctxBind p), (0x15, .ctxSuspend p), (0x16, .ctxResume p), (0x17, .queueConfig p),
      (0x20, .progLoad p), (0x21, .progUnload p), (0x22, .progInfo p), (0x30, .reset p), (0x31, .fwRestart p), (0x40, .modeSet p),
      (0x41, .modeGet p), (0x42, .powerSet p), (0x50, .fence p), (0x51, .unfence p), (0x60, .test p), (0x61, .testResult p), (0x62, .ledgerRead p),
      (0x70, .dumpTrigger p), (0x71, .dumpInfo p), (0x72, .dumpRead p), (0x73, .dumpClear p), (0x74, .errlogRead p), (0x80, .settingsGet p),
      (0x81, .settingsSet p), (0x90, .fwInfo p), (0x91, .fwStageBegin p), (0x92, .fwStageData p), (0x93, .fwStageCommit p),
      (0x94, .fwRecoveryLoad p), (0x95, .fwSvnAdvance p), (0x96, .keyEnrol p), (0x97, .keyClear p), (0x98, .keyList p), (0xa0, .reelInfo p),
      (0xa1, .reelEject p), (0xa2, .reelSeal p), (0xa3, .reelFormat p), (0xb0, .portStatus p), (0xb1, .vcBind p), (0xb2, .jobCreate p),
      (0xb3, .jobStatus p), (0xb4, .jobLeave p), (0xb5, .ecSetup p), (0xb6, .routeSet p), (0xb7, .routeGet p), (0xb8, .collStatus p),
      (0xb9, .jobRestart p)] :
        List (Nat × Instr)),
    (s.dies.ct0Lost = true ∨ (s.host.busy = false ∧ s.host.linkUp = false) ∨
      (s.host.busy = true ∧ (s.host.code.toNat ≠ e.1 ∨ s.host.fwReady = false)) → Makes e.2 s s) ∧
    (s.dies.ct0Lost = false → s.host.busy = false → s.host.linkUp = true → s.host.fwReady = false → s.host.payload.wf = true →
      Replies e.2 s busy (err busy).bytes s) ∧
    (∀ kind f (r : State × Resp), s.dies.ct0Lost = false → s.host.busy = true → s.host.code.toNat = e.1 → s.host.fwReady = true → s.host.spoiled = false →
      s.mgmt.fw ≠ .recovery → mbOf e.1 = some (kind, f) → kind = .q ∨ s.host.owner = .host → e.1 ≠ 0x72 ∨ s.dumpWaits .host s.request = false →
      r = f .host (s.host.payload.read 0 s.host.reqLen.toNat) s → r.1.host.spoiled = false → r.1.host.payload.wf = true →
      Answers e.2 s fun t => Reported r.1 t r.2.status r.2.bytes ∧ Beside r.1 t))

/-- Queries over units complete with the response the spec lays out and change nothing beside the mailbox (COUNTERS alone restarts
QMAX of the tiles reported, R173): IDENTIFY, OP_STATUS, DESCRIBE, RESOLVE, CHILDREN, STATUS, COUNTERS, START_STATUS. A handle that
names nothing, and an OP_ID that names no operation kept, complete NOT_FOUND with the error detail and change nothing (R40–R43,
R291, R302). GROUP_CREATE issues a new group handle for its members, GROUP_EDIT adds or removes one member, GROUP_DELETE removes the
group and every mention of it; nothing else of the state changes (R36, R37, R43, R725, R726). -/
def Obligations.UnitsAndGroups : Prop :=
  (∀ (s : State) (p : Payload), HostReady s →
  (p = [] → Replies (.identify p) s ok (s.idResp ++ fld 4 (s.handleOf .module)) s) ∧
  (∀ o, p.length = 4 → s.op? (arg p 0 4) = some o → o.finished = true →
    Replies (.opStatus p) s ok (fld 4 o.id ++ fld 2 o.code ++ fld 1 1 ++ fld 1 o.status ++ fld 4 o.handle ++ fld 2 1000 ++ rsvd 2
      ++ fld 8 o.start ++ fld 8 o.stop ++ known (padTo 16 o.detail)) s) ∧
  (∀ o, p.length = 4 → s.op? (arg p 0 4) = some o → o.finished = false →
    Replies (.opStatus p) s ok (fld 4 o.id ++ fld 2 o.code ++ fld 1 0 ++ rsvd 1 ++ fld 4 o.handle ++ rsvd 4 ++ fld 8 o.start ++ rsvd 24) s) ∧
  (∀ u, p.length = 4 → s.unitOf (arg p 0 4) = some u →
    Replies (.describe p) s ok (fld 4 (arg p 0 4) ++ fld 1 (levelOf u) ++ fld 1 (s.unitStatus 4 u) ++ rsvd 2 ++ fld 4 (s.parentOf u)
      ++ fld 4 (s.childrenOf u).length ++ (if (pathOf u).isEmpty then rsvd 48 else known (padTo 48 (pathOf u))) ++ s.bodyOf u) s) ∧
  (∀ u, p.length = 48 → unitOfPath p = some u → s.start.handles = true →
    Replies (.resolve p) s ok (fld 4 (s.handleOf u)) s) ∧
  (∀ u, p.length = 8 → s.unitOf (arg p 0 4) = some u →
    Replies (.children p) s ok (fld 4 (s.childrenOf u).length
      ++ fld 4 (((s.childrenOf u).drop (arg p 4 4)).take 1022).length
      ++ (((s.childrenOf u).drop (arg p 4 4)).take 1022).flatMap fun x => fld 4 x) s) ∧
  (∀ u, p.length = 4 → s.unitOf (arg p 0 4) = some u →
    Replies (.status p) s ok (fld 1 (s.unitStatus 4 u) ++ fld 1 (levelOf u)
      ++ fld 1 (match u with | .pt k => s.bandOfPt k | _ => 0)
      ++ fld 1 (match u with | .job k => ((s.jobs.find? (·.serial = k)).map fun j => jobCode j.st).getD 0 | _ => 0) ++ fld 8 s.cyc) s) ∧
  (∀ u, p.length = 4 → s.unitOf (arg p 0 4) = some u →
    Replies (.counters p) s ok (s.countersResp (arg p 0 4) ((s.expand (arg p 0 4)).filterMap s.unitOf))
      (s.restartQmax (arg p 0 4) (((s.expand (arg p 0 4)).filterMap s.unitOf).flatMap s.tileOfUnit))) ∧
  (p = [] → Replies (.startStatus p) s ok (fld 1 s.start.stage ++ fld 1 s.start.kind
    ++ fld 1 ((if s.mgmt.fwRecovery then 1 else 0) + (if s.mgmt.defaulted then 2 else 0) + (if s.start.repairLost then 4 else 0)
        + (if s.mgmt.testMode then 8 else 0))
    ++ fld 1 s.start.halt ++ fld 4 (msOf (s.clk.life - s.clk.zero)) ++ fld 4 (msOf (s.clk.life - s.clk.stageZero))
    ++ fld 1 (unbits ((List.range 8).filter fun k => (s.pt k).pg)) ++ rsvd 1
    ++ fld 2 (s.chans.filter fun c => c.trained && !c.broke).length ++ fld 2 (s.chans.filter (·.broke)).length
    ++ fld 4 (unbits ((List.range 18).filter fun k => decide ((s.port k).st = .up)))
    ++ fld 2 (s.sheets.foldl (fun a x => a + x.broke.length) 0) ++ rsvd 2
    ++ s.start.doneMs.flatMap (fun d => fld 4 d) ++ rsvd 2) s)) ∧
  (∀ (s : State) (p : Payload), HostReady s →
  (p.length = 4 → s.op? (arg p 0 4) = none → Replies (.opStatus p) s notFound (err notFound { arg := 0 }).bytes s) ∧
  (p.length = 4 → s.unitOf (arg p 0 4) = none →
    Replies (.describe p) s notFound (noHandle 0 (arg p 0 4)).bytes s ∧ Replies (.status p) s notFound (noHandle 0 (arg p 0 4)).bytes s ∧
    Replies (.counters p) s notFound (noHandle 0 (arg p 0 4)).bytes s) ∧
  (p.length = 8 → s.unitOf (arg p 0 4) = none → Replies (.children p) s notFound (noHandle 0 (arg p 0 4)).bytes s)) ∧
  (∀ (s : State) (p : Payload), HostOwns s →
  (∀ ms, p.length = 4 + 4 * arg p 0 2 → 1 ≤ arg p 0 2 → arg p 0 2 ≤ 64 → rsvdBad p [(2, 2)] = none →
    ms = (List.range (arg p 0 2)).map (fun i => arg p (4 + 4 * i) 4) → ms.Nodup → (∀ m ∈ ms, s.unitOf m ≠ none) →
    (∀ m ∈ ms, s.depthOf 5 m < 4) → s.groups.length < 1024 →
    Replies (.groupCreate p) s ok (fld 4 (s.hword 8 s.newSerial))
      { s.tookSerial with groups := s.groups ++ [⟨s.hword 8 s.newSerial, ms⟩] }) ∧
  (p.length = 12 → rsvdBad p [(5, 3)] = none → s.unitOf (arg p 0 4) = some (.group (arg p 0 4)) → s.unitOf (arg p 8 4) ≠ none →
    (arg p 4 1 = 1 → (s.membersOf (arg p 0 4)).contains (arg p 8 4) = true →
      Replies (.groupEdit p) s ok []
        { s with groups := s.groups.map fun g => if g.handle = arg p 0 4 then
            { g with members := (s.membersOf (arg p 0 4)).filter (· ≠ arg p 8 4) } else g }) ∧
    (∀ u, arg p 4 1 = 0 →
      u = { s with groups := s.groups.map fun g => if g.handle = arg p 0 4 then
            { g with members := s.membersOf (arg p 0 4) ++ [arg p 8 4] } else g } →
      s.reaches 5 (arg p 8 4) (arg p 0 4) = false → (∀ g ∈ u.groups, u.depthOf 6 g.handle ≤ 4) →
      (s.membersOf (arg p 0 4)).contains (arg p 8 4) = false → (s.membersOf (arg p 0 4)).length < 64 →
      Replies (.groupEdit p) s ok [] u)) ∧
  (p.length = 4 → s.unitOf (arg p 0 4) = some (.group (arg p 0 4)) →
    Replies (.groupDelete p) s ok []
      { s with
        groups := (s.groups.filter (·.handle ≠ arg p 0 4)).map fun g => { g with members := g.members.filter (· ≠ arg p 0 4) }
        qmaxes := s.qmaxes.filter (·.handle ≠ arg p 0 4) }))

/-- Foreground context commands of the owner complete with the effect the spec gives: CTX_CREATE makes a FREE context CREATED under
a new handle, CTX_ALLOC gives a CREATED context the lowest range that fits, its contents undefined, CTX_BIND binds an ALLOCATED
context's partition set or, with an empty set, unbinds it, QUEUE_CONFIG resets a queue with nothing unfinished but for STOP_CAUSE,
PROG_INFO reports a placed program (R315–R319, R326, R327). CTX_DESTROY returns a CREATED context to FREE, unbinds its receive rings
and closes its sessions; CTX_FREE returns an ALLOCATED or FAULTED context to CREATED without allocation, partitions or program; no
byte of LPDDR5X, the pool or the cartridge changes (R315, R317). -/
def Obligations.ContextForeground : Prop :=
  (∀ (s : State) (p : Payload) (n : Nat), HostOwns s → Shaped s → n < 64 →
  (p.length = 1 → (arg p 0 1 = n ∨ (arg p 0 1 = 0xFF ∧ ∀ c, c < n → (s.ctx c).st ≠ .free)) → (s.ctx n).st = .free →
    Replies (.ctxCreate p) s ok (fld 1 n ++ rsvd 3 ++ fld 4 (s.hword 10 s.newSerial))
      (s.tookSerial.modCtx n fun x => { x with st := .created, serial := s.newSerial })) ∧
  (∀ pts chs b, p.length = 8 → arg p 0 1 = n → (s.ctx n).st = .created → arg p 1 1 ≤ 3 → 1 ≤ arg p 2 1 → arg p 2 1 ≤ 24 →
    pts = bits 8 (arg p 3 1) → someGridSet pts = true → 1 ≤ arg p 4 4 → (∀ k ∈ pts, arg p 2 1 ≤ (s.goodChans k).length) →
    chs = pts.flatMap (fun k => (s.goodChans k).take (arg p 2 1)) → s.lowestFit chs (arg p 4 4) = some b →
    Replies (.ctxAlloc p) s ok (fld 4 b)
      ((s.modCtx n fun x => { x with st := .allocated, alloc := some ⟨pts, arg p 1 1, arg p 2 1, b, arg p 4 4, chs⟩ }).undefine n
        (960 * arg p 4 4 * arg p 2 1 * pts.length))) ∧
  (∀ pts, p.length = 2 → arg p 0 1 = n → (s.ctx n).st = .allocated → pts = bits 8 (arg p 1 1) → pts ≠ [] →
    (s.ctx n).alloc.map (·.pts) = some pts → s.bindBar n pts = none →
    Replies (.ctxBind p) s ok [] ((s.modCtx n fun y => { y with st := .bound, held := pts }).recouch pts)) ∧
  (p.length = 2 → arg p 0 1 = n → arg p 1 1 = 0 → (s.ctx n).st = .bound →
    Answers (.ctxBind p) s fun t => Reported s t ok [] ∧ (t.ctx n).st = .allocated ∧ (t.ctx n).held = [] ∧ t.dram = s.dram ∧
      t.pool = s.pool ∧ t.reel = s.reel ∧ SameManagement s t ∧
      ((∀ k ∈ (s.ctx n).held.flatMap sheetsOfPt, (s.sheet k).awaitsPoint = false) → t.tiles = s.tiles)) ∧
  (p.length = 20 → rsvdBad p [(17, 3)] = none → arg p 0 1 = n → arg p 1 1 ≤ 3 → arg p 2 1 ≤ 3 → arg p 3 1 ≤ 1 →
    (arg p 3 1 = 1 → 0 < s.poolLen ∧ arg p 4 8 + 64 * arg p 12 4 ≤ s.poolLen) → arg p 4 8 % 64 = 0 → entriesOk (arg p 12 4) = true →
    2 ≤ arg p 16 1 → arg p 16 1 ≤ 127 → (s.ctx n).st ≠ .free → (s.queue n (4 * arg p 1 1 + arg p 2 1)).unfinished = false →
    Replies (.queueConfig p) s ok [] (s.modQueue n (4 * arg p 1 1 + arg p 2 1) fun x =>
      { cause := x.cause, enabled := true, inPool := decide (arg p 3 1 = 1), base := arg p 4 8, entries := arg p 12 4
        vector := arg p 16 1 })) ∧
  (∀ g, p.length = 1 → arg p 0 1 = n → (s.ctx n).prog = some g → (s.ctx n).held ≠ [] →
    Replies (.progInfo p) s ok (known (padTo 16 g.pid) ++ fld 1 g.cls ++ fld 1 g.foldF ++ fld 1 (unbits (s.ctx n).held) ++ rsvd 1
      ++ fld 8 (s.ctx n).step ++ fld 8 (s.ctx n).commit.cycle) s)) ∧
  (∀ (s : State) (p : Payload) (n : Nat), HostOwns s → Shaped s → n < 64 → p.length = 1 →
  arg p 0 1 = n → (s.ctx n).unfinished = false →
  ((s.ctx n).st = .created →
    Answers (.ctxDestroy p) s fun t => Reported s t ok [] ∧ (t.ctx n).st = .free ∧ (t.ctx n).alloc = none ∧
      t.ends = s.ends.filter (·.ctx ≠ n) ∧ (∀ tag, (t.session tag).isOpen = true → (t.session tag).owner ≠ n ∧ (t.session tag).ctx ≠ n) ∧ SameMemory s t ∧
      SameManagement s t) ∧
  ((s.ctx n).st = .allocated ∨ (s.ctx n).st = .faulted →
    Answers (.ctxFree p) s fun t => Reported s t ok [] ∧ (t.ctx n).st = .created ∧ (t.ctx n).alloc = none ∧ (t.ctx n).held = [] ∧
      (t.ctx n).prog = none ∧ t.dram = s.dram ∧ t.pool = s.pool ∧ t.reel = s.reel ∧ SameManagement s t))

/-- Background context commands are accepted with an OP_ID and put the context into the state of the operation: CTX_SUSPEND,
CTX_RESUME, PROG_LOAD; the sync objects of a suspending context become SUSPENDED in every importer's table; PROG_UNLOAD returns the
context to BOUND with no program (R291, R315, R319–R322, R413, R221). The ends of background context operations: a saved suspension
releases the partitions, a resumption whose prologue has ended returns the context to the state it held, a container that passes its
checks is placed at committed step 0, and one that fails, or cannot be read, leaves the context BOUND (R315, R320, R322, R220,
R221). -/
def Obligations.ContextBackground : Prop :=
  (∀ (s : State) (p : Payload) (n : Nat), HostOwns s → Shaped s → n < 64 →
  arg p 0 1 = n → s.running.length < 16 →
  (p.length = 1 → (s.ctx n).st = .bound ∨ (s.ctx n).st = .placed ∨ (s.ctx n).st = .running →
    Answers (.ctxSuspend p) s fun t => Reported s t ok (fld 4 s.nextOp) ∧ (t.ctx n).st = .suspending ∧ (t.ctx n).back = (s.ctx n).st ∧
      (t.ctx n).op = some s.nextOp ∧ ((t.ctx n).suspendDue = true ↔ (s.ctx n).st = .running) ∧ t.lastOp = s.nextOp ∧
      t.ops = (accepted s 0x15 (s.handleOf (.ctx n))).ops ∧
      (∀ x, (t.ctx x).sync = (s.ctx x).sync.map fun e =>
        if !e.2.owned ∧ e.2.owner = n ∧ e.2.st = 1 then (e.1, { e.2 with st := 3 }) else e) ∧ SameMemory s t ∧ SameManagement s t) ∧
  (∀ a, p.length = 1 → (s.ctx n).st = .suspended → (s.ctx n).alloc = some a → s.bindBar n a.pts = none → s.resumeBar n a.pts = none →
    Answers (.ctxResume p) s fun t => Reported s t ok (fld 4 s.nextOp) ∧ (t.ctx n).st = .resuming ∧ (t.ctx n).held = a.pts ∧
      (t.ctx n).op = some s.nextOp ∧ t.lastOp = s.nextOp ∧ (∀ g, (s.ctx n).prog = some g →
        (t.ctx n).hold = .prologue (max s.clk.life (s.ctx n).reconfigAt)) ∧ t.ops = (accepted s 0x16 (s.handleOf (.ctx n))).ops ∧ t.dram = s.dram ∧ t.pool = s.pool ∧
      SameManagement s t) ∧
  (p.length = 20 → rsvdBad p [(3, 1)] = none → (s.ctx n).st = .bound → bits 8 (arg p 1 1) = (s.ctx n).held → arg p 2 1 ≤ 2 →
    (∀ a, arg p 2 1 = 1 → (s.ctx n).alloc = some a → arg p 4 8 + arg p 12 8 ≤ allocLen a) →
    (arg p 2 1 = 2 → arg p 4 8 + arg p 12 8 ≤ s.reel.weightGib * 2 ^ 30 ∧ s.reelWeights = true) → s.start.pwr = .m0 →
    s.modeBar (s.ctx n).held = none → Replies (.progLoad p) s ok (fld 4 s.nextOp) ((accepted s 0x20 (s.handleOf (.ctx n))).modCtx n fun y =>
      { y with st := .loading, op := some s.nextOp, load := some (arg p 2 1, arg p 4 8, arg p 12 8) })) ∧
  (p.length = 1 → (s.ctx n).st = .placed ∨ (s.ctx n).st = .faulted → (s.ctx n).held ≠ [] →
    Answers (.progUnload p) s fun t => Reported s t ok (fld 4 s.nextOp) ∧ (t.ctx n).st = .bound ∧ (t.ctx n).prog = none ∧
      (t.ctx n).held = (s.ctx n).held ∧ t.lastOp = s.nextOp ∧ t.dram = s.dram ∧ t.pool = s.pool ∧ t.reel = s.reel ∧ SameManagement s t)) ∧
  (∀ (s : State) (c : Ctx), Shaped s →
  ((s.ctx c).st = .suspending → (s.ctx c).suspendDue = false →
    Answers (.suspensionSaved c) s fun t => (t.ctx c).st = .suspended ∧ (t.ctx c).held = [] ∧ (t.ctx c).op = none ∧ t.dram = s.dram ∧
      t.pool = s.pool ∧ SameManagement s t) ∧
  ((s.ctx c).st = .resuming → (s.ctx c).hold.inPrologue = false →
    Answers (.resumptionFinished c) s fun t => (t.ctx c).st = (s.ctx c).back ∧ (t.ctx c).op = none ∧ SameMemory s t ∧
      SameManagement s t) ∧
  (∀ r v, (s.ctx c).st = .loading → (s.ctx c).load ≠ none → (r = .poison ∨ r = .error) →
    Answers (.progLoadFinished c r v) s fun t => (t.ctx c).st = .bound ∧ (t.ctx c).prog = (s.ctx c).prog ∧ (t.ctx c).load = none ∧
      (t.ctx c).op = none ∧ SameMemory s t ∧ SameManagement s t) ∧
  (∀ b v src a n y s1 f, (s.ctx c).st = .loading → (s.ctx c).load = some (src, a, n) → y = s.loadBytes c src a n b →
    s1 = (s.contKey y).elim s (fun k => s.judge k y v) → s1.loadCheck c y v = .error f →
    Answers (.progLoadFinished c (.data b) v) s fun t => (t.ctx c).st = .bound ∧ (t.ctx c).prog = (s.ctx c).prog ∧
      (t.ctx c).load = none ∧ (t.ctx c).op = none ∧ SameMemory s t ∧ SameManagement s t) ∧
  (∀ b v src a n y s1 g, (s.ctx c).st = .loading → (s.ctx c).load = some (src, a, n) → y = s.loadBytes c src a n b →
    s1 = (s.contKey y).elim s (fun k => s.judge k y v) → s1.loadCheck c y v = .ok g → (s.ctx c).reconfigAt ≤ s.clk.life →
    Answers (.progLoadFinished c (.data b) v) s fun t => (t.ctx c).st = .placed ∧ (t.ctx c).prog = some g ∧ (t.ctx c).step = 0 ∧
      (t.ctx c).sched = 0 ∧ (t.ctx c).flips = List.replicate g.regions.length false ∧ (t.ctx c).load = none ∧ t.dram = s.dram ∧
      t.pool = s.pool ∧ SameManagement s t))

/-- RESET of the module is accepted and every context holds until WARM_RESET; RESET of a partition begins its timeline: the
partition is under reset, its dies are dark, its channels in self-refresh and the context bound to it FAULTED, but a partition that
a dump still reads waits; PARTITION_RESET_END ends it with the partition in Run (R517–R519, R687). -/
def Obligations.Resets : Prop := ∀ (s : State), Shaped s →
  (∀ p, HostOwns s → p.length = 4 → s.unitOf (arg p 0 4) = some .module → s.verbBusy (arg p 0 4) = false → s.running.length < 16 →
    Replies (.reset p) s ok (fld 4 s.nextOp) ((accepted s 0x30 (arg p 0 4)).acceptWarm 0)) ∧
  (∀ p q, HostOwns s → p.length = 4 → q < 8 → s.unitOf (arg p 0 4) = some (.pt q) → s.verbBusy (arg p 0 4) = false →
    s.running.length < 16 → (s.pt q).tripAt = none → s.dumping = none →
    Answers (.reset p) s fun t => Reported s t ok (fld 4 s.nextOp) ∧ (t.pt q).reset = some ⟨s.nextOp, false⟩ ∧
      (∀ e ∈ t.tiles, ptOfSheet (e.1 / 288) ≠ q) ∧ (∀ c ∈ chansOfPt q, (t.chan c).selfRefresh = true) ∧
      (∀ c, s.holder q = some c → (s.ctx c).st ≠ .free → (s.ctx c).st ≠ .created → (t.ctx c).st = .faulted) ∧
      (∀ r, r ≠ q → (t.pt r).reset = (s.pt r).reset ∧ (t.pt r).pwr = (s.pt r).pwr) ∧
      t.dram = s.dram ∧ t.pool = s.pool ∧ t.reel = s.reel ∧ SameManagement s t) ∧
  (∀ p q d, HostOwns s → p.length = 4 → q < 8 → s.unitOf (arg p 0 4) = some (.pt q) → s.verbBusy (arg p 0 4) = false →
    s.running.length < 16 → (s.pt q).tripAt = none → s.dumping = some d → d.reading.contains q = true →
    Replies (.reset p) s ok (fld 4 s.nextOp)
      ((accepted s 0x30 (arg p 0 4)).modPt q fun x => { x with reset := some ⟨s.nextOp, true⟩ })) ∧
  (∀ (op : W32) cols d2d chans cond q, q < 8 → (s.pt q).reset = some ⟨op.toNat, false⟩ → (s.pt q).tripAt = none →
    ((s.pt q).en = true → (s.pt q).pg = true) → s.start.pwr = .m0 →
    Answers (.partitionResetEnd op cols d2d chans cond) s fun t => (t.pt q).reset = none ∧ (t.pt q).faulted = false ∧
      (t.pt q).pwr = .run ∧ (t.pt q).en = true ∧ t.dram = s.dram ∧ t.pool = s.pool ∧ t.reel = s.reel ∧ t.ident = s.ident ∧
      t.start = s.start)

/-- FW_RESTART lowers FW_READY until FW_RESTART_END loads the image of module flash, or, where it does not pass its checks, waits in
recovery (R292, R520, R629, R632, R633). FW_SVN_ADVANCE raises the fused SVN to the running image's and never lowers it; KEY_ENROL
fills an empty key slot, KEY_CLEAR empties one that no placed program was signed with, KEY_LIST reports the slots; in external test
mode the fuses and keys are out of reach (R622–R624, R631). -/
def Obligations.FirmwareRestartAndKeys : Prop :=
  (∀ (s : State),
  (∀ p, HostOwns s → p = [] → s.mgmt.fw ≠ .verifying → s.mgmt.fw ≠ .writing → s.running.length < 16 →
    Answers (.fwRestart p) s fun t => Reported s t ok (fld 4 s.nextOp) ∧ t.host.fwReady = false ∧
      t.mgmt = { s.mgmt with restart := some (some s.nextOp) } ∧
      t = { s with host := t.host, mgmt := t.mgmt, logs := t.logs, ops := (accepted s 0x31 (s.handleOf .module)).ops, lastOp := s.nextOp
                   fresh := t.fresh, outbox := t.outbox }) ∧
  (∀ fails v op, s.mgmt.restart = some op → s.mgmt.fw ≠ .recovery → (s.judgeImage s.flashImage v).imageOk s.flashImage v = true →
    Answers (.fwRestartEnd fails v) s fun t => t.host.fwReady = true ∧ t.mgmt.restart = none ∧
      t.mgmt.fw = (if s.mgmt.fw = .pending then .idle else s.mgmt.fw) ∧ t.mgmt.runDigest = sha3 s.flashImage ∧
      t.mgmt.runSvn = fieldAt s.flashImage 6 1 ∧
      t.ident.svn = (if (fieldAt s.flashImage 7 1).testBit 0 then max s.ident.svn (fieldAt s.flashImage 6 1) else s.ident.svn) ∧
      SameMemory s t ∧ t.ctxs = s.ctxs ∧ t.start = s.start) ∧
  (∀ fails v op, s.mgmt.restart = some op → s.mgmt.fw ≠ .recovery → (s.judgeImage s.flashImage v).imageOk s.flashImage v = false →
    Answers (.fwRestartEnd fails v) s fun t => t.host.fwReady = true ∧ t.mgmt.fw = .recovery ∧ t.mgmt.recovery = 3 ∧
      t.mgmt.fwRecovery = true ∧ t.mgmt.restart = s.mgmt.restart ∧ t.ident = s.ident ∧ SameMemory s t ∧ t.ctxs = s.ctxs ∧
      t.start = s.start)) ∧
  (∀ (s : State),
  (∀ p, HostOwns s → p = [] → s.mgmt.testMode = false → s.running.length < 16 →
    Answers (.fwSvnAdvance p) s fun t => Reported s t ok (fld 4 s.nextOp) ∧ t.ident = { s.ident with svn := max s.ident.svn s.mgmt.runSvn } ∧
      t.mgmt = s.mgmt ∧ t.start = s.start ∧ t.ctxs = s.ctxs ∧ SameMemory s t) ∧
  (∀ p, HostOwns s → p = [] → s.mgmt.testMode = true →
    Replies (.fwSvnAdvance p) s conflict testConflict.bytes s) ∧
  (∀ p, HostOwns s → p.length = 2596 → rsvdBad p [(1, 3)] = none → s.settingNat 0x15 = 1 → arg p 0 1 ≤ 7 → s.mgmt.testMode = false →
    s.mgmt.keys.getD (arg p 0 1) none = none →
    Replies (.keyEnrol p) s ok [] { s with mgmt := { s.mgmt with keys := s.mgmt.keys.set (arg p 0 1) (some (p.drop 4)) } }) ∧
  (∀ p, HostOwns s → p.length = 4 → rsvdBad p [(1, 3)] = none → s.settingNat 0x15 = 1 → arg p 0 1 ≤ 7 → s.mgmt.testMode = false →
    (∀ x ∈ s.ctxs, ∀ g, x.prog = some g → g.keyId ≠ arg p 0 1) →
    Replies (.keyClear p) s ok [] { s with mgmt := { s.mgmt with keys := s.mgmt.keys.set (arg p 0 1) none } }) ∧
  (∀ p, HostOwns s → s.settingNat 0x15 ≠ 1 →
    Replies (.keyEnrol p) s denied (err denied).bytes s ∧ Replies (.keyClear p) s denied (err denied).bytes s) ∧
  (∀ p, HostReady s → p = [] → Replies (.keyList p) s ok ((List.range 8).flatMap fun k => match s.mgmt.keys.getD k none with
    | some b => fld 1 1 ++ rsvd 3 ++ known (sha3 b)
    | none => fld 1 0 ++ rsvd 3 ++ rsvd 64) s))

/-- MODE_SET starts one change per mode, whose units at the value already count as applied; MODE_UNIT_APPLIED takes it to its next
unit; MODE_GET reports it, or the value every unit of the scope holds, or FFFFFFFFh where they differ (R640–R644). POWER_SET starts
a change of the module's or a partition's power state, POWER_STATE_REACHED makes it: the module takes its state, a partition comes
to Run, goes to Asleep or, unbound, to Off (R673, R676, R679). -/
def Obligations.ModeAndPowerCommands : Prop :=
  (∀ (s : State), Shaped s →
  (∀ p mode us same, HostOwns s → p.length = 12 → rsvdBad p [(1, 3)] = none → mode = arg p 0 1 → 1 ≤ mode → mode ≤ 3 →
    arg p 8 4 ≤ (if mode = 1 then 3 else 1) → scopeBad s mode (arg p 4 4) = none → us = modeUnits s mode (arg p 4 4) →
    modeSetBar s mode (arg p 8 4) us = none → s.running.length < 16 → same = us.filter (fun u => decide (s.modeValue mode u = arg p 8 4)) →
    (∃ u ∈ us, u ∉ same) →
    Answers (.modeSet p) s fun t => Reported s t ok (fld 4 s.nextOp) ∧ t.lastOp = s.nextOp ∧
      t.mgmt.modes = s.mgmt.modes ++ [⟨mode, arg p 8 4, s.nextOp, us, same, false⟩] ∧ t.pts = s.pts ∧ t.ctxs = s.ctxs ∧
      SameMemory s t ∧ t.ident = s.ident ∧ t.start = s.start) ∧
  (∀ (k : Fin 3) lanes m u, s.mgmt.modes.find? (·.mode = k.val + 1) = some m → m.next = some u → u < (if k = 1 then 18 else 8) →
    m.value ≤ (if k = 0 then 3 else 1) → (k ≠ 1 → (s.pt u).reset = none) → (k = 0 → ∀ c, s.holder u = some c → (s.ctx c).active = false) →
    Answers (.modeUnitApplied k lanes) s fun t => t.modeValue (k.val + 1) u = m.value ∧ t.ctxs = s.ctxs ∧ SameMemory s t ∧
      t.ident = s.ident ∧ t.start = s.start) ∧
  (∀ p mode us m, HostReady s → p.length = 8 → rsvdBad p [(1, 3)] = none → mode = arg p 0 1 → 1 ≤ mode → mode ≤ 3 →
    scopeBad s mode (arg p 4 4) = none → us = modeUnits s mode (arg p 4 4) →
    s.mgmt.modes.find? (fun m => decide (m.mode = mode) && us.any m.units.contains) = some m →
    Replies (.modeGet p) s ok (fld 1 1 ++ rsvd 3 ++ fld 4 (s.modeValue mode (m.next.getD 0)) ++ fld 4 m.value ++ fld 2 m.applied.length
      ++ fld 2 m.units.length) s) ∧
  (∀ p mode us v, HostReady s → p.length = 8 → rsvdBad p [(1, 3)] = none → mode = arg p 0 1 → 1 ≤ mode → mode ≤ 3 →
    scopeBad s mode (arg p 4 4) = none → us = modeUnits s mode (arg p 4 4) →
    s.mgmt.modes.find? (fun m => decide (m.mode = mode) && us.any m.units.contains) = none →
    us ≠ [] → (∀ u ∈ us, s.modeValue mode u = v) →
    Replies (.modeGet p) s ok (fld 1 0 ++ rsvd 3 ++ fld 4 v ++ rsvd 8) s) ∧
  (∀ p mode us u w, HostReady s → p.length = 8 → rsvdBad p [(1, 3)] = none → mode = arg p 0 1 → 1 ≤ mode → mode ≤ 3 →
    scopeBad s mode (arg p 4 4) = none → us = modeUnits s mode (arg p 4 4) →
    s.mgmt.modes.find? (fun m => decide (m.mode = mode) && us.any m.units.contains) = none →
    u ∈ us → w ∈ us → s.modeValue mode u ≠ s.modeValue mode w →
    Replies (.modeGet p) s ok (fld 1 0 ++ rsvd 3 ++ fld 4 0xFFFFFFFF ++ rsvd 8) s)) ∧
  (∀ (s : State), Shaped s →
  (∀ p st, HostOwns s → p.length = 8 → rsvdBad p [(5, 3)] = none → st = arg p 4 1 → s.unitOf (arg p 0 4) = some .module →
    s.running.length < 16 → modPowerBar s .host st = none → (st = 0 ∧ s.start.pwr = .m2) ∨ (st = 2 ∧ s.start.pwr = .m0) ∨ (st = 3 ∧ s.start.pwr = .m2) →
    Replies (.powerSet p) s ok (fld 4 s.nextOp) { accepted s 0x42 (arg p 0 4) with
      start := { s.start with pwrOp := some (if st = 0 then .m0 else if st = 2 then .m2 else .m3, some s.nextOp) } }) ∧
  (∀ p st q, HostOwns s → p.length = 8 → rsvdBad p [(5, 3)] = none → st = arg p 4 1 → st = 0 ∨ st = 2 ∨ st = 3 →
    s.unitOf (arg p 0 4) = some (.pt q) → targetHeld (s.pt q).pwr st = false → ptPowerBar s st q = none →
    (st = 0 → s.overCap (s.budgetWith [] [q] fun r => (s.pt r).perf) = false) → s.running.length < 16 →
    Replies (.powerSet p) s ok (fld 4 s.nextOp)
      ((accepted s 0x42 (arg p 0 4)).modOp s.nextOp fun o => { o with arg := st, pts := [q] })) ∧
  (∀ (op : W32) m, s.start.pwrOp = some (m, some op.toNat) → s.start.stage = 0xA → (m = .m2 → ∀ x ∈ s.ctxs, x.held = []) →
    Answers (.powerStateReached op) s fun t => t.start.pwr = m ∧ t.start.pwrOp = none ∧ t.dram = s.dram ∧ t.pool = s.pool ∧
      t.reel = s.reel ∧ t.ident = s.ident ∧ t.mgmt = s.mgmt) ∧
  (∀ (op : W32) o q, s.start.pwrOp = none → s.op? (op.toNat) = some o → o.code = 0x42 → o.finished = false → o.pts = [q] → q < 8 →
    (s.pt q).tripAt = none → (s.pt q).reset = none → ((s.pt q).en = true → (s.pt q).pg = true) →
    (o.arg = 0 → Answers (.powerStateReached op) s fun t => (t.pt q).pwr = .run ∧ (t.pt q).en = true ∧
      (∀ c ∈ chansOfPt q, (t.chan c).selfRefresh = false) ∧ SameMemory s t ∧ SameManagement s t ∧ t.ctxs = s.ctxs) ∧
    (o.arg = 2 → Answers (.powerStateReached op) s fun t => (t.pt q).pwr = .asleep ∧ (∀ n ∈ sheetsOfPt q, (t.sheet n).dwell = none) ∧
      SameMemory s t ∧ SameManagement s t ∧ t.ctxs = s.ctxs) ∧
    (o.arg = 3 → s.holder q = none → Answers (.powerStateReached op) s fun t => (t.pt q).pwr = .off ∧
      (t.pt q).offByCmd = (if (s.pt q).pwr = .off then (s.pt q).offByCmd else true) ∧ (t.pt q).en = false ∧ (∀ e ∈ t.tiles, ptOfSheet (e.1 / 288) ≠ q) ∧ t.dram = s.dram ∧ t.pool = s.pool ∧ t.reel = s.reel ∧
      SameManagement s t)))

/-- FENCE takes a partition or a column out of service, a live column under a bound context at its next commit; UNFENCE has the
columns tested first, and a partition that passes returns to service; TEST runs on the columns of its units, and its records are
kept for TEST_RESULT (R85, R86, R465, R466, R522–R525). -/
def Obligations.FencingAndTest : Prop := ∀ (s : State), Shaped s →
  (∀ p q, HostOwns s → p.length = 4 → q < 8 → s.unitOf (arg p 0 4) = some (.pt q) → s.verbBusy (arg p 0 4) = false →
    s.running.length < 16 → s.holder q = none →
    Answers (.fence p) s fun t => Reported s t ok (fld 4 s.nextOp) ∧ (t.pt q).fenced = true ∧
      (∀ n ∈ sheetsOfPt q, (t.sheet n).sheetFenced = true ∧ (t.sheet n).dwell = none) ∧ t.ctxs = s.ctxs ∧ SameMemory s t ∧
      SameManagement s t) ∧
  (∀ p n pc, HostOwns s → p.length = 4 → n < 24 → s.unitOf (arg p 0 4) = some (.pcol n pc) → s.verbBusy (arg p 0 4) = false →
    s.running.length < 16 → fenceBar s [.pcol n pc] = none →
    Answers (.fence p) s fun t => Reported s t ok (fld 4 s.nextOp) ∧
      (if roleOf (s.sheet n) pc = 0 ∧ s.holderOfSheet n ≠ none then
        (t.sheet n).fencePend = (s.sheet n).fencePend ++ [(s.nextOp, pc, none, true)] ∧ (t.sheet n).fenced = (s.sheet n).fenced
      else (t.sheet n).fenced = (s.sheet n).fenced ++ (if (pc, none) ∈ (s.sheet n).fenced then [] else [(pc, none)])) ∧
      t.ctxs = s.ctxs ∧ t.dram = s.dram ∧ t.pool = s.pool ∧ t.reel = s.reel ∧ SameManagement s t) ∧
  (∀ p, HostOwns s → p.length = 4 → s.unitOf (arg p 0 4) ≠ none → (∀ u ∈ s.verbUnits (arg p 0 4), fenceLevel u = true) →
    s.verbBusy (arg p 0 4) = false → (∀ u ∈ s.verbUnits (arg p 0 4), s.isFenced u = true ∧ s.isBroke u = false) →
    s.verbUnits (arg p 0 4) ≠ [] → s.running.length < 16 →
    Replies (.unfence p) s ok (fld 4 s.nextOp)
      ((accepted s 0x51 (arg p 0 4)).modOp s.nextOp fun o => { o with cols := s.unfenceCols (s.verbUnits (arg p 0 4)) })) ∧
  (∀ p cols, HostOwns s → p.length = 8 → rsvdBad p [(5, 3)] = none → arg p 4 1 ≤ 3 → s.unitOf (arg p 0 4) ≠ none →
    (∀ u ∈ s.verbUnits (arg p 0 4), fenceLevel u = true ∧ testBar s u = none) → s.verbBusy (arg p 0 4) = false → s.start.pwr = .m0 →
    s.verbUnits (arg p 0 4) ≠ [] → s.running.length < 16 →
    cols = ((s.verbUnits (arg p 0 4)).flatMap s.testCols).eraseDups →
    Answers (.test p) s fun t => Reported s t ok (fld 4 s.nextOp) ∧
      t.ops = ((accepted s 0x60 (arg p 0 4)).modOp s.nextOp fun o => { o with cols := cols, kind := arg p 4 1 }).ops ∧
      (∀ e ∈ t.tiles, (e.1 / 288, e.1 % 288 / 16) ∉ cols) ∧ t.ctxs = s.ctxs ∧ t.dram = s.dram ∧ t.pool = s.pool ∧ SameManagement s t) ∧
  (∀ (op : W32) o fails cond, s.op? (op.toNat) = some o → o.code = 0x60 → o.finished = false → o.cols ≠ [] →
    Answers (.testFinished op fails cond) s fun t => ∃ o', t.op? op.toNat = some o' ∧ o'.finished = true ∧ o'.status = ok ∧
      o'.records = testRecords s o.cols (kindsOf o.kind) ((fails.filter fun x => o.cols.contains (x.sh.val, x.pc.val) &&
        isFailure x.fail).filter fun x => (kindsOf o.kind).contains x.fail.kind.val) cond ∧ t.ctxs = s.ctxs ∧ t.dram = s.dram ∧ t.pool = s.pool ∧ SameManagement s t) ∧
  (∀ (op : W32) o q cond, s.op? (op.toNat) = some o → o.code = 0x51 → o.finished = false → o.cols ≠ [] → q < 8 →
    o.units.filterMap s.unitOf = [.pt q] →
    Answers (.testFinished op [] cond) s fun t => (t.pt q).fenced = false ∧ (∀ n ∈ sheetsOfPt q, (t.sheet n).sheetFenced = false) ∧
      t.ctxs = s.ctxs ∧ SameMemory s t ∧ SameManagement s t) ∧
  (∀ p o, HostReady s → p.length = 4 → s.op? (arg p 0 4) = some o → o.code = 0x60 →
    Replies (.testResult p) s ok (fld 4 o.records.length ++ known (o.records.take 127).flatten) s)

/-- Reads of the logs and of dumps report what is held and change nothing, but that a read of the dump region wakes its channels;
DUMP_CLEAR drops one dump; SETTINGS_GET reports a setting, and SETTINGS_SET writes exactly one, which every later read of the
settings shows (R492, R502, R298, R635, R636). -/
def Obligations.LogsAndSettings : Prop := ∀ (s : State) (p : Payload),
  (HostReady s → p.length = 8 → rsvdBad p [(6, 2)] = none → 1 ≤ arg p 4 2 → arg p 4 2 ≤ 63 →
    Replies (.ledgerRead p) s ok (logRead (s.logs.ledger.map fun r => (BitVec.ofNat 32 (fieldAt r 0 4), r)) s.logs.ledgerSeq
      (BitVec.ofNat 32 (arg p 0 4)) (arg p 4 2)) s) ∧
  (HostReady s → p.length = 8 → rsvdBad p [(6, 2)] = none → 1 ≤ arg p 4 2 → arg p 4 2 ≤ 15 →
    Replies (.errlogRead p) s ok (logRead (s.logs.errs.map fun r => (r.seq, errBytes r)) (s.logs.seq + 1)
      (BitVec.ofNat 32 (arg p 0 4)) (arg p 4 2)) s) ∧
  (HostReady s → p = [] → Replies (.dumpInfo p) s ok (fld 4 (s.dumpList.take 170).length ++ (s.dumpList.take 170).flatMap fun d =>
      fld 4 d.id ++ fld 1 d.place ++ rsvd 3 ++ fld 8 d.bytes.length ++ fld 8 d.cycle) s) ∧
  (∀ d, HostOwns s → p.length = 20 → rsvdBad p [(4, 4)] = none → 1 ≤ arg p 16 4 → arg p 16 4 ≤ 4080 →
    s.dumpList.find? (fun d => decide (d.id = arg p 0 4)) = some d → arg p 8 8 + arg p 16 4 ≤ d.bytes.length →
    ((s.pt s.mgmt.dumpPt).inReset = false ∨ ∀ e ∈ s.dumpList, e.id = arg p 0 4 → e.place ≠ 2) →
    Replies (.dumpRead p) s ok (known ((d.bytes.drop (arg p 8 8)).take (arg p 16 4)))
      (if d.place = 2 then s.wakeChans (chansOfPt s.mgmt.dumpPt) else s)) ∧
  (∀ d ∈ s.dumps, HostOwns s → p.length = 4 → d.id = arg p 0 4 → (d.place = 1 → s.reel.inService = true) →
    Replies (.dumpClear p) s ok [] { s with dumps := s.dumps.filter fun d => decide (d.id ≠ arg p 0 4) }) ∧
  (∀ b, HostReady s → p.length = 4 → rsvdBad p [(2, 2)] = none → settingDefault (arg p 0 2) = some b →
    Replies (.settingsGet p) s ok (fld 2 (arg p 0 2) ++ fld 2 (s.setting (arg p 0 2)).length
      ++ known ((s.setting (arg p 0 2)).take 4092)) s) ∧
  (HostOwns s → p.length = 4 + arg p 2 2 → settingDefault (arg p 0 2) ≠ none → settingOk (arg p 0 2) (p.drop 4) = true →
    arg p 0 2 ≠ 0x11 → arg p 0 2 ≠ 0x15 →
    (arg p 0 2 ≠ 0x0A → (arg p 0 2 = 0x20 → s.budgetWith [] [] (fun q => (s.pt q).perf) ≤ unle (p.drop 4)) →
      Answers (.settingsSet p) s fun t => Reported s t ok [] ∧ Beside (s.putSetting (arg p 0 2) (p.drop 4)) t ∧
        t.setting (arg p 0 2) = p.drop 4 ∧ ∀ id, id ≠ arg p 0 2 → t.setting id = s.setting id) ∧
    (arg p 0 2 = 0x0A → s.inJob = none → Shaped s →
      Answers (.settingsSet p) s fun t => Reported s t ok [] ∧ t.mgmt = (s.putSetting 0x0A (p.drop 4)).mgmt ∧
        (∀ k, k < 18 → (t.port k).st = if (s.port k).eth then (s.port k).st else .training) ∧ t.ctxs = s.ctxs ∧ SameMemory s t ∧
        t.ident = s.ident))

/-- The dump engine: DUMP_TRIGGER starts a dump under the next DUMP_ID, a unit that does not answer is recorded once, a partition
that has been read is let go and a reset that waited for it begins, a failed target gives way to the next, or ends the dump, and a
written dump is held on its target (R518, R527–R530). -/
def Obligations.DumpEngine : Prop := ∀ (s : State), Shaped s →
  (∀ p u k, HostOwns s → p.length = 4 → s.unitOf (arg p 0 4) = some u → u = .module ∨ (∃ q, u = .pt q) → s.dies.ct1Lost = false →
    s.dumping = none → s.running.length < 16 → nextTarget s (arg p 0 4) 0 = some k →
    Answers (.dumpTrigger p) s fun t => Reported s t ok (fld 4 s.nextOp) ∧ t.nextDump = nextDumpId s.nextDump ∧
      (∃ d, t.dumping = some d ∧ d.id = s.nextDump ∧ d.op = some s.nextOp ∧ d.scope = arg p 0 4 ∧ d.target = k ∧
        d.pts = (if u = .module then List.range 8 else [ptOfUnit u]) ∧ d.reading = d.pts) ∧
      t.dumps = s.dumps ∧ t.ctxs = s.ctxs ∧ t.pts = s.pts ∧ SameMemory s t ∧ SameManagement s t) ∧
  (∀ (h off : W32) d, s.dumping = some d → d.silent.any (·.1 = h.toNat) = false →
    Makes (.dumpUnitTimeout h off) s { s with dumping := some { d with silent := d.silent ++ [(h.toNat, off.toNat)] } }) ∧
  (∀ (q : Pt) d, s.dumping = some d → d.reading.contains q.val = true →
    Answers (.dumpPartitionReadDone q) s fun t => t.dumping = some { d with reading := d.reading.filter (· ≠ q.val) } ∧
      (∀ op, (s.pt q).reset = some ⟨op, true⟩ → (t.pt q).reset = some ⟨op, false⟩) ∧
      ((s.pt q).reset = none → Settled { s with dumping := some { d with reading := d.reading.filter (· ≠ q.val) } } t) ∧
      t.dram = s.dram ∧ t.pool = s.pool ∧ t.reel = s.reel ∧ SameManagement s t) ∧
  (∀ d k, s.dumping = some d → nextTarget s d.scope d.target = some k →
    Answers .dumpTargetFailed s fun t => (∃ d', t.dumping = some d' ∧ d'.id = d.id ∧ d'.target = k ∧ d'.restarted = true) ∧
      t.dumps = s.dumps ∧ t.ctxs = s.ctxs ∧ t.pts = s.pts ∧ SameMemory s t ∧ SameManagement s t) ∧
  (∀ d, s.dumping = some d → nextTarget s d.scope d.target = none → (d.target = 3 → s.side.ackAt + 60 * cycPerSec ≤ s.clk.life) →
    Answers .dumpTargetFailed s fun t => t.dumping = none ∧ t.dumps = s.dumps ∧
      (∀ op, d.op = some op → OpRuns s op → OpEnded t op timeout) ∧ t.dram = s.dram ∧ t.pool = s.pool ∧ t.reel = s.reel ∧
      SameManagement s t) ∧
  (∀ d, s.dumping = some d → d.reading = [] →
    d.target = 1 ∨ d.target = 2 ∨ (d.target = 3 ∧ ∃ i x n, s.side.stream = some (i, x, n, n)) →
    Answers .dumpWritten s fun t => t.dumping = none ∧ (d.target = 3 → t.dumps = s.dumps) ∧
      (d.target = 2 → t.dumps = s.dumps.filter (·.place ≠ 2) ++ [⟨d.id, 2, dumpBytes s d, d.start⟩]) ∧
      (d.target = 1 → (dumpBytes s d).length ≤ 256 * 2 ^ 30 → ⟨d.id, 1, dumpBytes s d, d.start⟩ ∈ t.dumps) ∧
      (∀ op, d.op = some op → OpRuns s op → OpEnded t op ok) ∧ t.ctxs = s.ctxs ∧ t.pts = s.pts ∧ SameMemory s t ∧ SameManagement s t)

/-- Firmware staging: FW_INFO reports, FW_STAGE_BEGIN empties the buffer and enters STAGING, FW_STAGE_DATA writes its bytes and no
others, FW_STAGE_COMMIT and FW_RECOVERY_LOAD begin VERIFYING; FW_COMMIT_FINISHED goes to WRITING when the image passes its checks,
back to IDLE with INTEGRITY_FAIL when it does not, and from WRITING to PENDING with the image in module flash (R626–R628, R634). -/
def Obligations.FirmwareStaging : Prop := ∀ (s : State),
  (∀ p, HostReady s → p = [] → Replies (.fwInfo p) s ok (fld 4 s.mgmt.runVer.toNat ++ fld 4 s.mgmt.stagedVer.toNat ++ fld 4 s.ident.svn
    ++ fld 1 (fwCode s.mgmt.fw) ++ rsvd 3) s) ∧
  (∀ p, HostOwns s → p.length = 8 → 4096 ≤ arg p 0 8 → arg p 0 8 ≤ 64 * 2 ^ 20 → s.fwBusy = false → s.mgmt.commitOp = none →
    Replies (.fwStageBegin p) s ok [] { s with mgmt := { s.mgmt with
      fw := .staging, stage := [], stageLen := arg p 0 8, pldm := false, pldmGot := 0, pldmLen := 0 } }) ∧
  (∀ p, HostOwns s → 9 ≤ p.length → p.length ≤ 4088 → s.mgmt.fw = .staging → s.mgmt.stageLen ≠ 0 → s.mgmt.commitOp = none →
    arg p 0 8 + (p.drop 8).length ≤ s.mgmt.stageLen → s.mgmt.stage.wf = true →
    Answers (.fwStageData p) s fun t => Reported s t ok [] ∧
      Beside { s with mgmt := { s.mgmt with stage := s.mgmt.stage.write (arg p 0 8) (p.drop 8) } } t ∧
      t.mgmt.stage.read (arg p 0 8) (p.drop 8).length = p.drop 8 ∧
      ∀ a, a < arg p 0 8 ∨ arg p 0 8 + (p.drop 8).length ≤ a → t.mgmt.stage.get a = s.mgmt.stage.get a) ∧
  (∀ p, HostOwns s → p = [] → s.mgmt.fw = .staging → s.mgmt.stageLen ≠ 0 → s.tylysBar s.stagedImage = false → s.running.length < 16 →
    Replies (.fwStageCommit p) s ok (fld 4 s.nextOp) { accepted s 0x93 (s.handleOf .module) with
      mgmt := { s.mgmt with fw := .verifying, commitOp := some (s.nextOp, false), commitReel := false } }) ∧
  (∀ p, HostOwns s → p.length = 8 → rsvdBad p [(1, 7)] = none → arg p 0 1 ≤ 1 → s.fwBusy = false → s.running.length < 16 →
    (arg p 0 1 = 0 → s.mgmt.fw = .staging ∧ s.mgmt.stageLen ≠ 0 ∧ s.tylysBar s.stagedImage = false) →
    (arg p 0 1 = 1 → s.reel.inService = true ∧ s.reel.authentic = true ∧ s.dies.ct1Lost = false ∧ s.tylysBar s.reelImage = false) →
    Replies (.fwRecoveryLoad p) s ok (fld 4 s.nextOp) { accepted s 0x94 (s.handleOf .module) with
      mgmt := { s.mgmt with fw := .verifying, commitOp := some (s.nextOp, true), commitReel := decide (arg p 0 1 = 1) } }) ∧
  (∀ v op r, s.mgmt.commitOp = some (op, r) → s.mgmt.fw = .verifying →
    Answers (.fwCommitFinished v) s fun t =>
      ((s.judgeImage s.commitImage v).imageOk s.commitImage v = true → t.mgmt = { s.mgmt with fw := .writing }) ∧
      ((s.judgeImage s.commitImage v).imageOk s.commitImage v = false → t.mgmt = { s.mgmt with fw := .idle, commitOp := none, commitReel := false } ∧
        (OpRuns s op → OpEnded t op integrity)) ∧
      t.ident = s.ident ∧ t.start = s.start ∧ t.ctxs = s.ctxs ∧ SameMemory s t) ∧
  (∀ v op, s.mgmt.commitOp = some (op, false) → s.mgmt.fw = .writing → OpRuns s op →
    Answers (.fwCommitFinished v) s fun t => t.mgmt.fw = .pending ∧ t.mgmt.commitOp = none ∧ t.mgmt.flash = memOf s.commitImage ∧
      t.mgmt.flashLen = s.commitImage.length ∧ t.mgmt.stagedVer = BitVec.ofNat 32 (fieldAt s.commitImage 8 4) ∧ OpEnded t op ok ∧
      t.ident = s.ident ∧ t.start = s.start ∧ t.ctxs = s.ctxs ∧ SameMemory s t)

/-- Register writes of a host that reaches the module: DONE, PREEMPTED and cause bits clear, the lock is taken when free and given
back by its holder, a mask write lets the causes it unmasks through, plain registers take the bytes written, 1 written to GO sets
BUSY, and a write at 10000h + 64·(16c + k) is a write to DB_TAIL of queue k of context c; nothing else changes, and a write beyond
the BARs faults (R285, R286, R288, R289, R293, R304, R305). Doorbell writes to an enabled queue: DB_TAIL takes a legal tail, a tail
behind FETCH stops the queue with REWIND (4), one more than ENTRIES beyond HEAD with OVERRUN (3); a stopped queue takes any tail;
STOP discards what has not started and puts FETCH back; RESTART clears STOPPED, and a tail that has not been corrected stops the
queue again (R330–R334). -/
def Obligations.HostRegisters : Prop :=
  (∀ (s : State), s.hostOn = true →
  Makes .mbDoneClear s { s with host := { s.host with done := false } } ∧
  Makes .preemptedClear s { s with host := { s.host with preempted := false } } ∧
  (s.host.owner = .free → Makes .lockAcquireHost s { s with host := { s.host with owner := .host } }) ∧
  (s.host.owner ≠ .free → Makes .lockAcquireHost s s) ∧
  (s.host.owner = .host → Makes .lockReleaseHost s { s with host := { s.host with owner := .free } }) ∧
  (s.host.owner ≠ .host → Makes .lockReleaseHost s s) ∧
  (∀ v, Makes (.intCauseClear v) s { s with host := { s.host with cause := s.host.cause &&& ~~~(v.setWidth 6) } }) ∧
  (∀ v, Answers (.intMaskWrite v) s fun t => t.host.mask = v.setWidth 6 ∧ s.outbox <+: t.outbox ∧
    (∀ i, i < 6 → s.host.cause.getLsbD i = true → s.host.mask.getLsbD i = true → v.getLsbD i = false →
      (s.host.msixTable.get (16 * causeVector i + 12)).getLsbD 0 = false → .msix (causeVector i) ∈ t.outbox) ∧
    t = { s with host := { s.host with mask := t.host.mask, msixPending := t.host.msixPending }, outbox := t.outbox }) ∧
  (∀ (off : W32) b, 0x2000 ≤ off.toNat → off.toNat + b.length ≤ 0x3000 → b ≠ [] →
    Makes (.registerWrite off b) s { s with host := { s.host with
      payload := s.host.payload.write (off.toNat - 0x2000) b, spoiled := s.host.spoiled || s.host.busy } }) ∧
  (∀ (off : W32) b, 0x100000 ≤ off.toNat → off.toNat + b.length ≤ 0x100800 →
    Answers (.registerWrite off b) s fun t => t.host.msixTable = s.host.msixTable.write (off.toNat - 0x100000) b ∧
      s.outbox <+: t.outbox ∧
      t = { s with host := { s.host with msixTable := t.host.msixTable, msixPending := t.host.msixPending }, outbox := t.outbox }) ∧
  (∀ c, Makes (.registerWrite 0x1004#32 (le 4 c)) s (if s.host.busy then { s with host := { s.host with spoiled := true } } else
    { s with host := { s.host with code := BitVec.ofNat 16 c, reqLen := BitVec.ofNat 13 (c / 2 ^ 16) } })) ∧
  (s.host.busy = true → Makes (.registerWrite 0x1000#32 (le 4 1)) s s) ∧
  (s.host.busy = false → s.host.fwReady = true → mbCodes.contains s.host.code.toNat = true →
    Makes (.registerWrite 0x1000#32 (le 4 1)) s { s with host := { s.host with busy := true, done := false, spoiled := false } }) ∧
  (∀ (c : Ctx) (k : Fin 16) (v : W32), exec (.registerWrite (BitVec.ofNat 32 (0x10000 + 64 * (16 * c.val + k.val))) (le 4 v.toNat)) s =
    nextOf s (dbTailWrite c k v s)) ∧
  (∀ (off : W32) b, 0x210000 < off.toNat + b.length → exec (.registerWrite off b) s = .fault (.outsideWindow off.toNat))) ∧
  (∀ (s : State) (c : Ctx) (e : Eng) (q : Qn) (x : Queue), Shaped s → s.bellsOn = true →
  x = s.queue c (qix e q) → x.enabled = true →
  (∀ v, x.stopped = false → (v - x.fetch).msb = false → (v - x.head).toNat ≤ x.entries →
    Makes (.dbTailWrite c e q v) s (s.modQueue c (qix e q) fun y => ({ y with tail := v } : Queue).post s.clk.life)) ∧
  (∀ v, x.stopped = true → Makes (.dbTailWrite c e q v) s (s.modQueue c (qix e q) fun y => { y with tail := v })) ∧
  (∀ v, x.stopped = false → (v - x.fetch).msb = true →
    Answers (.dbTailWrite c e q v) s fun t => (t.queue c (qix e q)).stopped = true ∧ (t.queue c (qix e q)).cause = 4 ∧
      (t.queue c (qix e q)).tail = v ∧ SameMemory s t ∧ SameManagement s t) ∧
  (∀ v, x.stopped = false → (v - x.fetch).msb = false → x.entries < (v - x.head).toNat →
    Answers (.dbTailWrite c e q v) s fun t => (t.queue c (qix e q)).stopped = true ∧ (t.queue c (qix e q)).cause = 3 ∧
      (t.queue c (qix e q)).tail = v ∧ SameMemory s t ∧ SameManagement s t) ∧
  Makes (.dbStop c e q) s (s.modQueue c (qix e q) fun y => { y with
    stopped := true, cause := 2
    fetch := match x.ents.find? fun z => !z.started && z.outcome.isNone with | some z => z.n | none => x.fetch
    ents := x.ents.filter fun z => z.started || z.outcome.isSome }) ∧
  (x.stopped = true → x.tailFault = none →
    Makes (.dbRestart c e q) s (s.modQueue c (qix e q) fun y => ({ y with stopped := false } : Queue).post s.clk.life)) ∧
  (∀ k, x.stopped = true → x.tailFault = some k →
    Answers (.dbRestart c e q) s fun t => (t.queue c (qix e q)).stopped = true ∧ (t.queue c (qix e q)).cause = k ∧
      (t.queue c (qix e q)).tail = x.tail ∧ SameMemory s t ∧ SameManagement s t))

/-- Engine entries: a fetched slot joins its queue and FETCH rises; engines serve contexts in rotation and start the first head
entry that can start, while an entry that fails its own checks ends unstarted and one whose WAIT is not met takes a slot to spin in;
a WAIT that expires ends the entry with TIMEOUT (R326, R328, R329, R331, R333, R336, R409, R411). ENTRY_COMPLETE writes the 64-byte
completion record over the entry's slot, retires the entries at the front of the queue that have completed, and sends the queue's
vector when the entry asks for it; a record that cannot be written stops the queue with RING_ERROR (5); a SIGNAL on an entry that
ended OK adds 1 to its counter (R332, R333, R335, R351, R395). -/
def Obligations.QueueEntries : Prop :=
  (∀ (s : State), Shaped s → s.dies.ct0Lost = false →
  (∀ (c : Ctx) (e : Eng) (q : Qn) (x : Queue) b, x = s.queue c (qix e q) → x.enabled = true → x.stopped = false → x.fetch ≠ x.tail →
    x.fetchDue s.clk.life = true → (s.ctx c).st ≠ .free → s.mgmt.restart = none → x.inPool = true ∨ s.host.busMaster = true →
    b.length = 64 →
    Makes (.entryFetched c e q (.data b)) s
      ((if x.inPool then s else s.cacheLine (x.base + 64 * (x.fetch.toNat % max 1 x.entries))).modQueue c (qix e q) fun y => { y with
        ents := y.ents ++ [{ n := y.fetch
                             bytes := if x.inPool then s.pool.read (x.base + 64 * (x.fetch.toNat % max 1 x.entries)) 64 else b }]
        fetch := y.fetch + 1 })) ∧
  (∀ (c : Ctx) (e : Eng) (q : Qn) (x : Queue) r, x = s.queue c (qix e q) → x.enabled = true → x.stopped = false → x.fetch ≠ x.tail →
    x.fetchDue s.clk.life = true → (s.ctx c).st ≠ .free → s.mgmt.restart = none → x.inPool = true ∨ s.host.busMaster = true → r = .poison ∨ r = .error →
    Answers (.entryFetched c e q r) s fun t => (t.queue c (qix e q)).stopped = true ∧ (t.queue c (qix e q)).cause = 5 ∧
      (t.queue c (qix e q)).tail = x.tail ∧ SameMemory s t ∧ SameManagement s t) ∧
  (∀ (e : Eng) i c q x, s.start.stage = 0xA → i < 64 → c = (s.rot.getD e 63 + 1 + i) % 64 →
    (∀ j, j < i → s.startQueue ((s.rot.getD e 63 + 1 + j) % 64) e = none) → s.startQueue c e = some (q, x) →
    (∀ d u, s.entryBad c e x = some d → u = { s with rot := s.rot.set e c }.setOutcome c (qix e q) x.n d →
      Makes (.entryStart e) s (if d.status = orphaned then u.ctxCount c 0x0A03 1 else u)) ∧
    (s.entryBad c e x = none → s.canSpin c e q x = true →
      Makes (.entryStart e) s (((s.ctx c).held.foldl State.unidle { s with rot := s.rot.set e c }).modEntry c (qix e q) x.n fun y =>
        { y with spinning := true })) ∧
    (s.entryBad c e x = none → s.canSpin c e q x = false → x.opcode ≠ 0x15 →
      Makes (.entryStart e) s ({ s with rot := s.rot.set e c }.modEntry c (qix e q) x.n fun y =>
        { y with started := true, startAt := s.cyc, ord := s.nextOrd c, targets := [] })) ∧
    (s.entryBad c e x = none → s.canSpin c e q x = false → x.opcode = 0x15 →
      Answers (.entryStart e) s fun t => Settled { { s with rot := s.rot.set e c }.modEntry c (qix e q) x.n fun y =>
        { y with started := true, startAt := s.cyc, ord := s.nextOrd c, targets := s.sendTargets x } with ends := t.ends } t)) ∧
  (∀ (e : Eng), (∀ c, c < 64 → s.startQueue c e = none) → Makes (.entryStart e) s s) ∧
  (∀ (c : Ctx) (e : Eng) (q : Qn) x, (s.queue c (qix e q)).headEntry = some x → x.flag 5 = true → s.waitMet c x = false →
    s.entryBad c e x = none →
    Makes (.waitDeadlineExpired c e q) s ((s.setOutcome c (qix e q) x.n (failed timeout)).ctxCount c 0x0A02 1))) ∧
  (∀ (s : State) (c : Ctx) (e : Eng) (q : Qn) (n : W32) (x : Entry) (d : Done) (u : Queue),
  Shaped s → s.dies.ct0Lost = false → u = s.queue c (qix e q) → u.entry? n = some x → x.outcome = some d → x.complete = false →
  u.inPool = true ∨ s.host.busMaster = true → s.signalWaits c (qix e q) x d = false →
  (x.flag 4 = false → u.inPool = false →
    Answers (.entryComplete c e q n true) s fun t =>
      .hostWrite (u.base + 64 * (n.toNat % max 1 u.entries)) (recordOf s c u x d) ∈ t.outbox ∧
      (x.flag 7 = true → s.host.linkUp = true → (s.host.msixTable.get (16 * u.vector + 12)).getLsbD 0 = false → .msix u.vector ∈ t.outbox) ∧
      t.queue c (qix e q) = Queue.retire { u with ents := u.ents.map fun y => if y.n = n then { y with complete := true } else y } ∧
      SameMemory s t ∧ SameManagement s t ∧ t.pts = s.pts) ∧
  (x.flag 4 = false → u.inPool = true → s.pool.wf = true →
    Answers (.entryComplete c e q n true) s fun t =>
      t.pool.read (u.base + 64 * (n.toNat % max 1 u.entries)) 64 = recordOf s c u x d ∧
      (∀ a, a < u.base + 64 * (n.toNat % max 1 u.entries) ∨ u.base + 64 * (n.toNat % max 1 u.entries) + 64 ≤ a →
        t.pool.get a = s.pool.get a) ∧
      t.dram = s.dram ∧ t.tiles = s.tiles ∧ t.reel = s.reel ∧ SameManagement s t ∧ t.pts = s.pts) ∧
  (x.flag 4 = false → Answers (.entryComplete c e q n false) s fun t => (t.queue c (qix e q)).stopped = true ∧
    (t.queue c (qix e q)).cause = 5 ∧ SameMemory s t ∧ SameManagement s t ∧ t.pts = s.pts) ∧
  (∀ k, x.flag 4 = true → d.status = ok → s.syncEnt c (x.fld 0xA 2) = some k → k.st ≠ 2 → k.pt < 8 → s.pairsOn k.pt k.index = [] →
    Answers (.entryComplete c e q n true) s fun t => (t.pt k.pt).counters.getD k.index 0 = s.syncVal k + 1 ∧
      (∀ p i, p ≠ k.pt ∨ i ≠ k.index → (t.pt p).counters.getD i 0 = (s.pt p).counters.getD i 0) ∧
      t.dram = s.dram ∧ t.tiles = s.tiles ∧ t.reel = s.reel ∧ SameManagement s t))

/-- Graph-engine entries: RUN of a placed program starts it on partitions in Run and, the first time, at SCHED 0 with its prologue,
FEEDs that are re-executed before it, or ends at once when STEP_LIMIT is reached; STOP ends at once with no RUN, else waits for the
next commit; RECONFIG gives its tiles their images under the next configuration generation (R213, R214, R315, R338–R340). -/
def Obligations.GraphEngine : Prop := ∀ (s : State) (c : Ctx) (q : Qn) (n : W32) (e : Entry), Shaped s →
  (∀ g, s.entryAt c q n 0x01 = some e → (s.ctx c).st = .placed → (s.ctx c).prog = some g → (s.ctx c).run = none →
    (g.refreshN = true → ∀ p ∈ (s.ctx c).held, (s.pt p).classN = true) → (∀ p ∈ (s.ctx c).held, s.bandOfPt p ≠ 3 ∧ p < 8) →
    (e.fld 0x18 8 = 0 ∨ (s.ctx c).step < e.fld 0x18 8 →
      Answers (.run c q n) s fun t => (t.ctx c).st = .running ∧ (t.ctx c).run = some ⟨q, n, e.fld 0x18 8⟩ ∧ (t.ctx c).started = true ∧
        (∀ p ∈ (s.ctx c).held, (t.pt p).pwr = .run) ∧
        ((s.ctx c).started = false → (t.ctx c).sched = 0 ∧
          (t.ctx c).hold = if s.refeeds c then .refeed s.clk.life else .prologue s.clk.life) ∧
        (t.ctx c).step = (s.ctx c).step ∧ t.dram = s.dram ∧ t.pool = s.pool ∧ t.reel = s.reel ∧ SameManagement s t) ∧
    (e.fld 0x18 8 ≠ 0 → e.fld 0x18 8 ≤ (s.ctx c).step →
      Makes (.run c q n) s (s.setOutcome c q n { status := ok, reason := rStepLimit }))) ∧
  (s.entryAt c q n 0x02 = some e → (s.ctx c).run = none → Makes (.stop c q n) s (s.setOutcome c q n { status := ok })) ∧
  (s.entryAt c q n 0x02 = some e → (s.ctx c).run ≠ none → (q.val, n) ∉ (s.ctx c).stops →
    Makes (.stop c q n) s (s.modCtx c fun y => { y with stops := y.stops ++ [(q.val, n)] })) ∧
  (∀ g l, s.entryAt c q n 0x03 = some e → e.fld 0x1C 1 ≤ 1 → (s.ctx c).prog = some g → (s.ctx c).run = none →
    (∀ t, (s.ctx c).lastReconfig = some t → t + 1024 ≤ s.clk.life) → g.reconfig.find? (·.1 = e.fld 0x18 4) = some l →
    (e.fld 0x1C 1 = 0 → ∀ r ∈ l.2, ∀ i, s.physTile c r.row r.col = some i → ∀ z ∈ (s.tile i).queues, z = []) →
    Answers (.reconfig c q n) s fun t => Ended t c q n { status := ok } ∧ (t.ctx c).cgen = (s.ctx c).cgen + 1 ∧
      (t.ctx c).lastReconfig = some s.clk.life ∧ t.dram = s.dram ∧ t.pool = s.pool ∧ t.reel = s.reel ∧ t.pts = s.pts ∧
      SameManagement s t)

/-- COPY between any locations but the Reel moves its data and ends with it; from host memory to LPDDR5X it writes exactly the bytes
of its range, from LPDDR5X to host memory it changes no memory of the module and ends with INTEGRITY_FAIL when a word of the range
cannot be corrected; a COPY from or to the Reel starts an access. The bits that have changed in the arrays by then come with the
command (R232, R233, R270, R342–R345, R351, R656). FEED writes its data into LPDDR5X and FEED_DATA_REACHED_LPDDR5X counts it in FED,
in queue order; FILL writes its 8-byte pattern over its range and no other byte (R342, R343, R346, R347). -/
def Obligations.Moves : Prop :=
  (∀ (s : State) (c : Ctx) (q : Qn) (n : W32) (e : Entry) (src : ReadResult)
  (flips : List DramFlip) (d : List Byte) (u : State), Shaped s → u = s.decay flips → s.entryAt c (qix 1 q) n 0x10 = some e → lenBad (e.fld 0x30 8) = false →
  s.locInvalid c (e.fld 0x18 1) (e.fld 0x20 8) (e.fld 0x30 8) = false → s.locInvalid c (e.fld 0x19 1) (e.fld 0x28 8) (e.fld 0x30 8) = false →
  s.needsCover c e = false → s.locConflict c (e.fld 0x18 1) (e.fld 0x20 8) (e.fld 0x30 8) false = none →
  s.locConflict c (e.fld 0x19 1) (e.fld 0x28 8) (e.fld 0x30 8) true = none → (c.val, qix 1 q, n) ∉ s.reel.access → e.cover ≤ (s.ctx c).step →
  s.locWaits c (e.fld 0x18 1) (e.fld 0x20 8) (e.fld 0x30 8) = false → s.locWaits c (e.fld 0x19 1) (e.fld 0x28 8) (e.fld 0x30 8) = false →
  (e.fld 0x18 1 = 0 → src = .data d ∧ d.length = e.fld 0x30 8) → (e.fld 0x18 1 ≠ 0 → d = []) →
  (e.fld 0x18 1 ≠ 3 → e.fld 0x19 1 ≠ 3 →
    Makes (.copy c q n src flips) s ((u.moveData c e d).2.setOutcome c (qix 1 q) n (u.moveData c e d).1)) ∧
  (e.fld 0x19 1 = 3 → (u.moveData c e d).1.status = ok → Makes (.copy c q n src flips) s { (u.moveData c e d).2 with
    reel := { (u.moveData c e d).2.reel with access := (u.moveData c e d).2.reel.access ++ [(c.val, qix 1 q, n)] } }) ∧
  (∀ al, e.fld 0x18 1 = 0 → e.fld 0x19 1 = 1 → (s.ctx c).alloc = some al → s.dram.wf = true →
    Answers (.copy c q n src flips) s fun t => Ended t c (qix 1 q) n { status := ok, result := e.fld 0x30 8 } ∧
      t.dram = writeCtx al s.dram (e.fld 0x28 8) d ∧
      (∀ a, (∀ i, i < d.length → a ≠ ctxMpa al (e.fld 0x28 8 + i)) → t.dram.get a = s.dram.get a) ∧
      t.tiles = s.tiles ∧ t.pool = s.pool ∧ t.reel = s.reel ∧ t.pts = s.pts ∧ SameManagement s t) ∧
  (e.fld 0x18 1 = 1 → e.fld 0x19 1 = 0 → (∃ x ∈ u.rangeErrs c (e.fld 0x20 8) (e.fld 0x30 8), x.2.2 ≠ .corrected) →
    (∀ z ∈ (s.ctx c).stops, z.1 < 4) → (∀ r, (s.ctx c).run = some r → r.q < 4) →
    Answers (.copy c q n src flips) s fun t => Ended t c (qix 1 q) n (failed integrity) ∧ SameMemory s t ∧ SameManagement s t) ∧
  (e.fld 0x18 1 = 1 → e.fld 0x19 1 = 0 → (∀ x ∈ u.rangeErrs c (e.fld 0x20 8) (e.fld 0x30 8), x.2.2 = .corrected) →
    Answers (.copy c q n src flips) s fun t => Ended t c (qix 1 q) n { status := ok, result := e.fld 0x30 8 } ∧
      .hostWrite (e.fld 0x28 8) (s.ctxRead c (e.fld 0x20 8) (e.fld 0x30 8)) ∈ t.outbox ∧ SameMemory s t ∧ t.pts = s.pts ∧
      SameManagement s t) ∧
  (e.fld 0x18 1 = 3 → e.fld 0x19 1 ≠ 3 →
    Makes (.copy c q n src flips) s { u with reel := { s.reel with access := s.reel.access ++ [(c.val, qix 1 q, n)] } })) ∧
  (∀ (s : State) (c : Ctx) (q : Qn) (n : W32) (e : Entry) (al : Alloc), Shaped s →
  (s.ctx c).alloc = some al → s.dram.wf = true →
  (∀ d, s.entryAt c (qix 1 q) n 0x11 = some e → lenBad (e.fld 0x30 8) = false → s.locInvalid c 0 (e.fld 0x20 8) (e.fld 0x30 8) = false →
    s.locInvalid c 1 (e.fld 0x28 8) (e.fld 0x30 8) = false → s.locConflict c 1 (e.fld 0x28 8) (e.fld 0x30 8) true = none → e.marks = [] →
    s.host.busMaster = true → s.locWaits c 1 (e.fld 0x28 8) (e.fld 0x30 8) = false →
    (s.queue c (qix 1 q)).feedsBefore n (fun z => !z.marks.isEmpty) = true → d.length = e.fld 0x30 8 →
    Answers (.feed c q n (.data d)) s fun t => t.dram = writeCtx al s.dram (e.fld 0x28 8) d ∧
      (∀ a, (∀ i, i < d.length → a ≠ ctxMpa al (e.fld 0x28 8 + i)) → t.dram.get a = s.dram.get a) ∧
      (∃ y, (t.queue c (qix 1 q)).entry? n = some y ∧ y.marks = [(0, false)]) ∧ (t.queue c (qix 1 q)).fed = (s.queue c (qix 1 q)).fed ∧
      t.tiles = s.tiles ∧ t.pool = s.pool ∧ t.reel = s.reel ∧ t.pts = s.pts ∧ SameManagement s t) ∧
  (s.entryAt c (qix 1 q) n 0x11 = some e → e.marks = [(0, false)] →
    (s.queue c (qix 1 q)).feedsBefore n (fun z => z.marks.any (·.2)) = true →
    Makes (.feedDataReachedLpddr5x c q n) s
      ((s.modEntry c (qix 1 q) n fun z => { z with marks := [(0, true)] }).modQueue c (qix 1 q) fun z =>
        { z with fed := z.fed + 1, feeds := z.feeds ++ [n] })) ∧
  (s.entryAt c (qix 1 q) n 0x12 = some e → lenBad (e.fld 0x30 8) = false → e.fld 0x30 8 % 8 = 0 → e.fld 0x20 1 = 1 →
    s.locInvalid c 1 (e.fld 0x28 8) (e.fld 0x30 8) = false → s.locConflict c 1 (e.fld 0x28 8) (e.fld 0x30 8) true = none →
    (c.val, qix 1 q, n) ∉ s.reel.access → s.locWaits c 1 (e.fld 0x28 8) (e.fld 0x30 8) = false →
    Answers (.fill c q n) s fun t => Ended t c (qix 1 q) n { status := ok, result := e.fld 0x30 8 } ∧
      t.dram = writeCtx al s.dram (e.fld 0x28 8) (List.replicate (e.fld 0x30 8 / 8) ((e.bytes.drop 0x18).take 8)).flatten ∧
      t.tiles = s.tiles ∧ t.pool = s.pool ∧ t.reel = s.reel ∧ t.pts = s.pts ∧ SameManagement s t) ∧
  (s.entryAt c (qix 1 q) n 0x12 = some e → lenBad (e.fld 0x30 8) = false → e.fld 0x30 8 % 8 = 0 → e.fld 0x20 1 ≠ 3 →
    s.locInvalid c (e.fld 0x20 1) (e.fld 0x28 8) (e.fld 0x30 8) = false →
    s.locConflict c (e.fld 0x20 1) (e.fld 0x28 8) (e.fld 0x30 8) true = none → (c.val, qix 1 q, n) ∉ s.reel.access →
    s.locWaits c (e.fld 0x20 1) (e.fld 0x28 8) (e.fld 0x30 8) = false →
    Makes (.fill c q n) s (((s.wakeLoc c (e.fld 0x20 1) (e.fld 0x28 8) (e.fld 0x30 8)).locWrite c (e.fld 0x20 1) (e.fld 0x28 8)
      (List.replicate (e.fld 0x30 8 / 8) ((e.bytes.drop 0x18).take 8)).flatten).setOutcome c (qix 1 q) n
        { status := ok, result := e.fld 0x30 8 })))

/-- RX_BIND adds an endpoint and writes its four control lines, in the host pool or to the host; RX_UNBIND removes it; SEND hands
one copy for each target to the delivery logic, in target order and before the copies of this cycle that a later context has sent
(R354–R358, R363, R364, R371, R372, R376, R379). -/
def Obligations.RingsAndSend : Prop := ∀ (s : State) (c : Ctx) (q : Qn) (n : W32) (e : Entry), Shaped s →
  (∀ u x, s.entryAt c (qix 1 q) n 0x13 = some e → s.bindBad e = none → s.unitOf (e.fld 0x18 4) = some u → s.mayBind c u = true →
    (e.fld 0x1C 1 ≠ 0 → ∃ d, u = .ctx d) → (∀ y ∈ s.ends, y.handle = e.fld 0x18 4 → y.role ≠ e.fld 0x1C 1) →
    x = ({ handle := e.fld 0x18 4, role := e.fld 0x1C 1, ctx := c, inPool := decide (e.fld 0x1D 1 = 1)
           acceptAll := decide (e.fld 0x1E 1 = 1), vector := e.fld 0x1F 1, base := e.fld 0x20 8, ctl := e.fld 0x28 8, cells := e.fld 0x30 4
           out := e.fld 0x34 1, bounce := e.fld 0x38 8 } : Endpoint) →
    (x.inPool = true → s.poolDown = false → s.pool.wf = true → Answers (.rxBind c q n) s fun t => t.ends = s.ends ++ [x] ∧
      Ended t c (qix 1 q) n { status := ok } ∧ t.pool.read x.ctl 0x48 = zeros 0x44 ++ le 4 1 ∧ t.pool.read (x.ctl + 0x80) 0x44 = zeros 0x44 ∧
      (∀ a, a < x.ctl ∨ x.ctl + 0x100 ≤ a → t.pool.get a = s.pool.get a) ∧ t.dram = s.dram ∧ t.tiles = s.tiles ∧ t.reel = s.reel ∧
      SameManagement s t) ∧
    (x.inPool = false → s.host.busMaster = true → Answers (.rxBind c q n) s fun t => t.ends = s.ends ++ [x] ∧
      Ended t c (qix 1 q) n { status := ok } ∧
      [Output.hostWrite x.ctl (zeros 64), .hostWrite (x.ctl + 0x40) (le 4 0 ++ le 4 1), .hostWrite (x.ctl + 0x80) (zeros 64),
        .hostWrite (x.ctl + 0xC0) (le 4 0)] ⊆ t.outbox ∧ SameMemory s t ∧ SameManagement s t)) ∧
  (s.entryAt c (qix 1 q) n 0x14 = some e → e.fld 0x1C 1 ≠ 0 → e.fld 0x1C 1 ≤ 4 →
    (∃ x ∈ s.ends, x.handle = e.fld 0x18 4 ∧ x.role = e.fld 0x1C 1 ∧ x.ctx = c) →
    Makes (.rxUnbind c q n) s ({ s with ends := s.ends.filter fun x => !decide (x.handle = e.fld 0x18 4 ∧ x.role = e.fld 0x1C 1) }.setOutcome
      c (qix 1 q) n { status := ok })) ∧
  (s.entryAt c (qix 1 q) n 0x14 = some e → e.fld 0x1C 1 = 0 →
    (∃ x ∈ s.ends, x.handle = e.fld 0x18 4 ∧ x.role = 0 ∧ x.ctx = c) →
    (∀ j ∈ rangeFrom 4 4, ∀ z ∈ (s.queue c j).ents, z.opcode = 0x15 → z.started = true → z.outcome = none → z.fld 0x18 4 ≠ e.fld 0x18 4) →
    Makes (.rxUnbind c q n) s ({ s with ends := s.ends.filter fun x => !decide (x.handle = e.fld 0x18 4 ∧ x.role = 0) }.setOutcome
      c (qix 1 q) n { status := ok })) ∧
  (∀ d p u, s.entryAt c (qix 1 q) n 0x15 = some e → e.fld 0x24 2 ≤ 496 → s.senderOf c (e.fld 0x18 4) = some p →
    s.unitOf (e.fld 0x1C 4) = some u → (∀ k, u ≠ .job k) → 1 ≤ e.targets.length → e.targets.length ≤ 64 → e.targets.length ≤ p.out →
    e.marks = [] → (0 < e.fld 0x24 2 → s.host.busMaster = true) →
    s.earlier c e 0x15 (fun z => decide (z.fld 0x18 4 = e.fld 0x18 4)) = false → d.length = e.fld 0x24 2 →
    Answers (.send c q n (.data d)) s fun t => (∃ l, t.copies = s.copies.takeWhile (fun x => !decide (x.at' = s.clk.life ∧ c.val < x.src)) ++ l
          ++ s.copies.dropWhile (fun x => !decide (x.at' = s.clk.life ∧ c.val < x.src)) ∧ l.map (·.target) = e.targets ∧
        ∀ m ∈ l, m.role = 0 ∧ m.src = c ∧ m.from' = some (e.fld 0x18 4) ∧ m.plen = d.length ∧ m.cells.length = ncell d.length ∧
          m.at' = s.clk.life) ∧
      (∃ y, (t.queue c (qix 1 q)).entry? n = some y ∧ y.marks = [(128, false)]) ∧
      (t.ctx c).counters.getD 0x0901 0 = ((s.ctx c).counters.getD 0x0901 0 + e.targets.length) % 2 ^ 48 ∧ SameMemory s t ∧
      SameManagement s t)

/-- REQUEST entries: OPEN opens a FREE session with the next generation, SUBMIT counts a request and hands its message to the
delivery logic, CLOSE frees the session, QUERY writes its 64 bytes to the host; every other session is as the lookup in the cache
leaves it (R381–R391). -/
def Obligations.Requests : Prop := ∀ (s t0 : State) (c : Ctx) (q : Qn) (n : W32) (e : Entry) (tag : Nat) (x : Session), Shaped s →
  tag = e.fld 0x1C 4 → s.lookup tag = some t0 → x = s.session tag →
  (∀ b, s.requestAt c (qix 1 q) n 1 = some e → e.fld 0x28 4 = 16 → e.fld 0x18 1 ≤ 63 → e.fld 0x19 1 ≤ 3 → s.host.busMaster = true →
    x.isOpen = false → (s.ctx (e.fld 0x18 1)).st ≠ .free → b.length = 16 →
    Answers (.requestOpen c q n (.data b)) s fun t => t.session tag = { isOpen := true, owner := c, ctx := e.fld 0x18 1, engine := e.fld 0x19 1
                                                                        gen := x.gen + 1, openCycle := s.cyc, lastCycle := x.lastCycle, user := b } ∧
      (∀ k, k ≠ tag → t.session k = t0.session k) ∧ Ended t c (qix 1 q) n { status := ok, result := 16 } ∧ t.copies = s.copies ∧
      SameMemory s t ∧ SameManagement s t) ∧
  (∀ b, s.requestAt c (qix 1 q) n 0 = some e → e.fld 0x28 4 ≤ 464 → e.marks = [] → (0 < e.fld 0x28 4 → s.host.busMaster = true) →
    s.earlier c e 0x16 (fun z => decide (z.fld 0x1A 1 % 4 = 0) && decide (z.fld 0x1C 4 = tag)) = false → x.isOpen = true → x.owner = c →
    e.fld 0x18 1 = x.ctx → e.fld 0x19 1 = x.engine → b.length = e.fld 0x28 4 →
    Answers (.requestSubmit c q n (.data b)) s fun t => t.session tag = { x with reqSeq := x.reqSeq + 1, lastCycle := s.cyc } ∧
      (∀ k, k ≠ tag → t.session k = t0.session k) ∧
      (∃ m, t.copies = s.copies.takeWhile (fun x => !decide (x.at' = s.clk.life ∧ c.val < x.src)) ++ m
          :: s.copies.dropWhile (fun x => !decide (x.at' = s.clk.life ∧ c.val < x.src)) ∧ m.role = x.engine + 1 ∧ m.target = s.handleOf (.ctx x.ctx) ∧ m.session = some tag ∧ m.plen = 32 + b.length) ∧
      (∃ y, (t.queue c (qix 1 q)).entry? n = some y ∧ y.marks = [(128, false)]) ∧ SameMemory s t ∧ SameManagement s t) ∧
  (s.requestAt c (qix 1 q) n 2 = some e → destBad e = none → x.isOpen = true → x.owner = c → (∀ m ∈ s.copies, m.session ≠ some tag) →
    s.earlier c e 0x16 (fun z => decide (z.fld 0x1A 1 % 4 = 0) && decide (z.fld 0x1C 4 = tag)) = false →
    Answers (.requestClose c q n) s fun t => t.session tag = { x with isOpen := false } ∧ (∀ k, k ≠ tag → t.session k = t0.session k) ∧
      Ended t c (qix 1 q) n { status := ok } ∧ t.copies = s.copies ∧ SameMemory s t ∧ SameManagement s t) ∧
  (s.requestAt c (qix 1 q) n 3 = some e → e.fld 0x28 4 = 64 → destBad e = none → s.host.busMaster = true → (x.isOpen = true → x.owner = c) →
    Answers (.requestQuery c q n) s fun t => .hostWrite (e.fld 0x20 8) (sessionBytes x) ∈ t.outbox ∧ (∀ k, t.session k = t0.session k) ∧
      Ended t c (qix 1 q) n { status := ok, result := 64 } ∧ t.copies = s.copies ∧ SameMemory s t ∧ SameManagement s t)

/-- Sync objects: SYNC_BIND owns a counter at the lowest free index with its initial value, or imports one its owner allows;
SYNC_UNBIND forgets the translation and frees an owned counter; SYNC_OP reads a counter or adds to it, but for an add that would
break the bound of a pair (R395–R401, R407, R408, R413). -/
def Obligations.SyncObjects : Prop := ∀ (s : State) (c : Ctx) (q : Qn) (n : W32) (e : Entry), Shaped s →
  (∀ al i p, s.entryAt c (qix 1 q) n 0x17 = some e → e.fld 0x1A 1 = 0 → p = e.fld 0x1B 1 → p < 8 → (s.ctx c).alloc = some al →
    al.pts.contains p = true → s.syncEnt c (e.fld 0x18 2) = none → i < 16384 → (s.pt p).counters.get? i = none →
    (∀ j, j < i → (s.pt p).counters.get? j ≠ none) →
    Makes (.syncBind c q n) s (((s.modPt p fun y => { y with counters := y.counters.set i (BitVec.ofNat 32 (e.fld 0x20 4)) }).modCtx c fun y =>
      { y with sync := y.sync.set (e.fld 0x18 2) { st := 1, owned := true, owner := c, pt := p, index := i
                                                   allow := BitVec.ofNat 64 (e.fld 0x28 8) } }).setOutcome c (qix 1 q) n { status := ok })) ∧
  (∀ k d, s.entryAt c (qix 1 q) n 0x17 = some e → e.fld 0x1A 1 = 1 → e.fld 0x1C 1 ≤ 63 → s.syncEnt (e.fld 0x1C 1) (e.fld 0x1E 2) = some k →
    k.st = 1 → k.owned = true → k.allow.getLsbD c = true → s.syncEnt c (e.fld 0x18 2) = none →
    d = { st := if (s.ctx (e.fld 0x1C 1)).parked then 3 else 1, owned := false, owner := e.fld 0x1C 1, pt := k.pt, index := k.index } →
    Makes (.syncBind c q n) s ((s.modCtx c fun y =>
      { y with sync := y.sync.set (e.fld 0x18 2) d }).setOutcome
        c (qix 1 q) n { status := ok })) ∧
  (∀ k, s.entryAt c (qix 1 q) n 0x18 = some e → s.syncEnt c (e.fld 0x18 2) = some k → k.pt < 8 →
    (∀ g, (s.ctx c).prog = some g → g.syncIds.contains (e.fld 0x18 2) = false) →
    Answers (.syncUnbind c q n) s fun t => t.syncEnt c (e.fld 0x18 2) = none ∧
      (k.owned = true → k.st ≠ 2 → (t.pt k.pt).counters.get? k.index = none) ∧
      (k.owned = false → t.pts = s.pts) ∧ SameMemory s t ∧ SameManagement s t) ∧
  (∀ k, s.entryAt c (qix 1 q) n 0x19 = some e → e.fld 0x1A 1 = 0 → s.syncEnt c (e.fld 0x18 2) = some k → k.st ≠ 2 →
    Makes (.syncOpRead c q n) s (s.setOutcome c (qix 1 q) n
      { status := ok, result := (s.syncVal k).toNat, detail := padTo 16 (le 4 (syncWord (some k))) })) ∧
  (∀ k, s.entryAt c (qix 1 q) n 0x19 = some e → e.fld 0x1A 1 = 1 → 1 ≤ e.fld 0x1C 4 → e.fld 0x1C 4 < 2 ^ 31 →
    s.syncEnt c (e.fld 0x18 2) = some k → k.st = 1 → s.addWaits c (qix 1 q) k = false →
    (∃ r ∈ s.pairsOn k.pt k.index, (s.syncAdd k (BitVec.ofNat 32 (e.fld 0x1C 4))).pairOk r.1 r.2 = false) →
    Answers (.syncOpAdd c q n) s fun t => t.pts = s.pts ∧ Ended t c (qix 1 q) n { status := degraded, reason := 0x10 } ∧ SameMemory s t ∧
      SameManagement s t) ∧
  (∀ k, s.entryAt c (qix 1 q) n 0x19 = some e → e.fld 0x1A 1 = 1 → 1 ≤ e.fld 0x1C 4 → e.fld 0x1C 4 < 2 ^ 31 →
    s.syncEnt c (e.fld 0x18 2) = some k → k.st = 1 → k.pt < 8 → s.addWaits c (qix 1 q) k = false →
    (∀ r ∈ s.pairsOn k.pt k.index, (s.syncAdd k (BitVec.ofNat 32 (e.fld 0x1C 4))).pairOk r.1 r.2 = true) →
    Answers (.syncOpAdd c q n) s fun t => (t.pt k.pt).counters.getD k.index 0 = s.syncVal k + BitVec.ofNat 32 (e.fld 0x1C 4) ∧
      (∀ p i, p ≠ k.pt ∨ i ≠ k.index → (t.pt p).counters.getD i 0 = (s.pt p).counters.getD i 0) ∧
      Ended t c (qix 1 q) n { status := ok } ∧ SameMemory s t ∧ SameManagement s t)

/-- MESSAGE_COPY_DECIDED decides the first copy that may be decided: a placed copy advances WR of its ring by its cells and the PAD
before them, a bounced one counts in BOUNCES, and so does none whose ring is not bound; no copy is decided twice, and with none to
decide and nothing in a bounce ring nothing changes (R364, R366, R371, R372). The host attachment: bus-master enable is set and
cleared; a CXL.mem read returns the line of the host pool, or poison for one that cannot be corrected, a write stores exactly that
line, and an access beyond the pool faults (R237, R270, R282, R283). FUNCTION_LEVEL_RESET clears the MSI-X table, the mask and
bus-master enable, frees a lock of the host, and stops every enabled queue with cause 1, leaving contexts and memory alone, and is
ignored before start-up reaches stage 6; an idle lock is freed; a finished operation is reported; a trained link comes up, and one
that fails training is down (R279, R280, R283, R291, R296, R333). -/
def Obligations.HostAttachment : Prop :=
  (∀ (s : State) (o : RingObs) (i : Nat) (m : Copy), s.dies.ct0Lost = false →
  (s.nextCopy = none → (∀ e ∈ s.ends, e.unconsumed = []) → Makes (.messageCopyDecided o) s s) ∧
  (s.nextCopy = some i → s.copies[i]? = some m → s.copyRing m = none → m.from' = none →
    Answers (.messageCopyDecided o) s fun t => t.copies = s.copies.eraseIdx i ∧ t.ends = s.ends ∧ SameMemory s t ∧ SameManagement s t) ∧
  (∀ e, s.nextCopy = some i → s.copies[i]? = some m → s.copyRing m = some e →
  (∀ pad, s.decideCopy m o = .place pad →
    Answers (.messageCopyDecided o) s fun t => t.copies = s.copies.eraseIdx i ∧
      (∃ x ∈ t.ends, x.handle = e.handle ∧ x.role = e.role ∧ x.wr = e.wr + BitVec.ofNat 32 (pad + m.cells.length) ∧ x.bounces = e.bounces) ∧
      (e.inPool = false → t.pool = s.pool) ∧ t.dram = s.dram ∧ t.tiles = s.tiles ∧ t.reel = s.reel ∧ SameManagement s t) ∧
  (∀ cause broken, s.decideCopy m o = .bounce cause broken →
    Answers (.messageCopyDecided o) s fun t => t.copies = s.copies.eraseIdx i ∧
      (∃ x ∈ t.ends, x.handle = e.handle ∧ x.role = e.role ∧ x.wr = e.wr ∧ x.bounces = e.bounces + 1) ∧
      (e.inPool = false → m.from' = none → t.pool = s.pool) ∧ t.dram = s.dram ∧ t.tiles = s.tiles ∧ t.reel = s.reel ∧
      SameManagement s t))) ∧
  (∀ (s : State),
  (s.hostOn = true → Makes .busMasterEnableSet s { s with host := { s.host with busMaster := true } }) ∧
  (s.hostOn = true → Makes .busMasterEnableClear s { s with host := { s.host with busMaster := false } }) ∧
  (∀ (a : W64) flips line ch u, u = s.decay flips → a.toNat < s.poolLen → line = a.toNat / 64 * 64 → ch = s.poolChan line → s.hostOn = true → s.start.stage = 0xA →
    (s.pt (ptOfChan ch)).inReset = false → (s.chan ch).broke = false →
    Answers (.cxlMemRead a flips) s fun t =>
      (u.wordEcc ch (s.poolOff line) = .clean ∨ u.wordEcc ch (s.poolOff line) = .corrected → .cxlData line (s.pool.read line 64) ∈ t.outbox) ∧
      (u.wordEcc ch (s.poolOff line) = .uncorrectable ∨ u.wordEcc ch (s.poolOff line) = .tagError → .cxlPoison line ∈ t.outbox) ∧ SameMemory s t ∧ SameManagement s t) ∧
  (∀ (a : W64) data line, a.toNat < s.poolLen → line = a.toNat / 64 * 64 → s.hostOn = true → s.start.stage = 0xA → s.pool.wf = true →
    Answers (.cxlMemWrite a data) s fun t => t.pool.read line 64 = le 64 data.toNat ∧
      (∀ b, b < line ∨ line + 64 ≤ b → t.pool.get b = s.pool.get b) ∧ t.dram = s.dram ∧ t.tiles = s.tiles ∧ t.reel = s.reel ∧
      t.ctxs = s.ctxs ∧ SameManagement s t) ∧
  (∀ (a : W64) flips data, s.poolLen ≤ a.toNat →
    exec (.cxlMemRead a flips) s = .fault (.outsideWindow a.toNat) ∧ exec (.cxlMemWrite a data) s = .fault (.outsideWindow a.toNat))) ∧
  (∀ (s : State), Shaped s →
  (s.start.stage < 6 → Makes .functionLevelReset s s) ∧
  (6 ≤ s.start.stage → Answers .functionLevelReset s fun t => t.host.msixTable = msixReset ∧ t.host.mask = 0 ∧ t.host.busMaster = false ∧ t.host.devCache = [] ∧
    t.host.owner = (if s.host.owner = .host then .free else s.host.owner) ∧ t.host.linkUp = s.host.linkUp ∧
    (∀ c k, c < 64 → k < 16 → (s.queue c k).enabled = true → (s.queue c k).stopped = false →
      (t.queue c k).stopped = true ∧ (t.queue c k).cause = 1) ∧
    (∀ c, c < 64 → (t.ctx c).st = (s.ctx c).st ∧ (t.ctx c).step = (s.ctx c).step ∧ (t.ctx c).sync = (s.ctx c).sync) ∧ SameMemory s t ∧
    SameManagement s t ∧ t.pts = s.pts) ∧
  (s.host.owner ≠ .free → s.settingNat 0x06 ≠ 0 → (s.mgmt.pldm = true → s.host.owner ≠ .sideband) →
    Makes .lockIdleExpired s { s with host := { s.host with owner := .free } }) ∧
  (∀ (op : W32) o r, s.op? op.toNat = some o → o.finished = false → o.ready = some r → s.mgmt.restart = none →
    Answers (.backgroundOpFinished op) s fun t => OpEnded t op.toNat r.1 ∧ t.ctxs = s.ctxs ∧ t.pts = s.pts ∧ SameMemory s t ∧
      SameManagement s t) ∧
  (∀ rate width flit68, s.start.pwr ≠ .m3 → s.dies.ct0Lost = false → 6 ≤ s.start.stage ∨ s.mgmt.fw = .recovery →
    (rate = 64 ∧ flit68 = false) ∨ rate = 32 → width = 8 ∨ width = 4 →
    Makes (.cxlLinkTraining true rate ⟨width, flit68⟩) s { s with host := { s.host with
      linkUp := true, rate := rate, width := width, flit68 := flit68 } }) ∧
  (∀ rate width flit68, s.start.pwr ≠ .m3 → s.dies.ct0Lost = false → 6 ≤ s.start.stage ∨ s.mgmt.fw = .recovery →
    Makes (.cxlLinkTraining false rate ⟨width, flit68⟩) s { s with host := { s.host with linkUp := false } }))

/-- Reel commands: REEL_INFO reports, REEL_EJECT, REEL_SEAL and REEL_FORMAT begin their operations, and REEL_OP_FINISHED ends them:
an eject ends every access and the cartridge is EJECTED, a seal writes its seal block, a format leaves one label and READY, and one
that meets an error of the cartridge leaves its data (R658, R659, R662, R664). -/
def Obligations.ReelCommands : Prop := ∀ (s : State),
  (∀ p, HostReady s → p = [] → Replies (.reelInfo p) s ok (fld 1 (reelCode s.reel.st) ++ fld 1 s.reel.flags ++ fld 1 s.reel.cause
    ++ fld 1 (remain s.reel.pu s.reel.written) ++ fld 1 s.reel.pu ++ rsvd 3 ++ fld 8 s.reel.written ++ fld 8 s.reel.nlba
    ++ areaLba s.reel 1 ++ areaLba s.reel 2 ++ areaLba s.reel 3 ++ areaLba s.reel 4 ++ fld 20 s.reel.serial.toNat
    ++ fld 8 s.reel.fwrev.toNat ++ rsvd 4 ++ fld 64 s.reel.chain.toNat) s) ∧
  (∀ p, HostOwns s → p = [] → s.reel.st = .ready ∨ s.reel.st = .unlabelled ∨ s.reel.st = .failed → s.dumpOnReel = false →
    s.reel.opOf 0xA2 = false → s.reel.opOf 0xA3 = false → s.reelLoading = false → s.running.length < 16 →
    Answers (.reelEject p) s fun t => Reported s t ok (fld 4 s.nextOp) ∧ t.reel.st = .ejecting ∧
      t.reel.ops = s.reel.ops ++ [(s.nextOp, 0xA1, 0, 0)] ∧ t.ctxs = s.ctxs ∧ t.pts = s.pts ∧ SameMemory s t ∧ SameManagement s t) ∧
  (∀ p, HostOwns s → p.length = 16 → arg p 0 8 % 4096 = 0 → arg p 8 8 % 4096 = 0 → 4096 ≤ arg p 8 8 → arg p 8 8 ≤ 2 ^ 40 →
    arg p 0 8 + arg p 8 8 + 8192 ≤ (reelArea s.reel 2).2 → s.mgmt.testMode = false → s.reel.st = .ready → s.reel.authentic = true →
    s.dies.ct1Lost = false → s.reel.writeStop = false → s.running.length < 16 →
    Replies (.reelSeal p) s ok (fld 4 s.nextOp) { accepted s 0xA2 (s.handleOf .module) with
      reel := { s.reel with ops := s.reel.ops ++ [(s.nextOp, 0xA2, arg p 0 8, arg p 8 8)] } }) ∧
  (∀ p w, HostOwns s → p.length = 8 → rsvdBad p [(4, 4)] = none → w = (if arg p 0 4 = 0xFFFFFFFF then s.settingNat 0x31 else arg p 0 4) →
    s.reel.inService = true → weightOk s.reel.nlba w = true → s.dies.ct1Lost = false → s.reel.access = [] → s.loadsReel = false →
    s.reelLoading = false → s.dumpOnReel = false →
    s.reel.opOf 0xA2 = false → s.reel.opOf 0xA3 = false → s.reel.writeStop = false → s.running.length < 16 →
    Replies (.reelFormat p) s ok (fld 4 s.nextOp) { accepted s 0xA3 (s.handleOf .module) with
      reel := { s.reel with ops := s.reel.ops ++ [(s.nextOp, 0xA3, w, 0)] } }) ∧
  (∀ (op : W32) good code a b, s.reel.ops.find? (·.1 = op.toNat) = some (op.toNat, code, a, b) → OpRuns s op.toNat →
    (code = 0xA1 → (∀ x ∈ s.ctxs, x.op ≠ some op.toNat) → Answers (.reelOpFinished op good) s fun t => t.reel.st = .ejected ∧ t.reel.access = [] ∧ OpEnded t op.toNat ok ∧
      SameMemory s t ∧ SameManagement s t) ∧
    (code = 0xA2 → good = true → s.reel.data.wf = true → Answers (.reelOpFinished op good) s fun t =>
      t.reel.data = s.reel.data.write ((reelArea s.reel 2).1 + a + b) (s.sealBlock a b) ∧ OpEnded t op.toNat ok ∧ t.tiles = s.tiles ∧
      t.dram = s.dram ∧ t.pool = s.pool ∧ SameManagement s t) ∧
    (code = 0xA3 → good = true → Answers (.reelOpFinished op good) s fun t => t.reel.st = .ready ∧ t.reel.weightGib = a ∧
      t.reel.data = Mem.write [] 0 (labelBlock a s.reel.nlba s.cyc) ∧ (∀ d ∈ t.dumps, d.place ≠ 1) ∧ OpEnded t op.toNat ok ∧
      t.tiles = s.tiles ∧ t.dram = s.dram ∧ t.pool = s.pool ∧ SameManagement s t) ∧
    (code ≠ 0xA1 → good = false → Answers (.reelOpFinished op good) s fun t => t.reel.st = s.reel.st ∧ t.dumps = s.dumps ∧
      OpEnded t op.toNat integrity ∧ SameMemory s t ∧ SameManagement s t))

/-- The Reel's events: an opened latch leaves the bay ABSENT with nothing of the cartridge, a closed one starts identification,
which ends in READY for a label that its check word proves and a data area it leaves room for, in UNLABELLED without one, in ABSENT
with nothing in the bay and in FAILED for a link or a format that does not serve; a health poll, 60 s after the last, keeps the life
read; an access ends with its data; a command that times out ends its access, and the third in a row fails the Reel (R650–R654,
R656, R657, R660, R661, R663). -/
def Obligations.ReelEvents : Prop := ∀ (s : State),
  Answers .reelLatchOpen s (fun t => t.reel.st = .absent ∧ t.reel.latch = false ∧ t.reel.data = [] ∧ t.reel.access = [] ∧ t.reel.ops = [] ∧
    (∀ d ∈ t.dumps, d.place ≠ 1) ∧ (s.reel.access = [] → t.dram = s.dram) ∧ SameManagement s t) ∧
  (s.reel.st = .absent → s.reel.latch = false → s.dies.ct1Lost = false → s.start.aux = true →
    Answers .reelLatchClose s fun t => t.reel = { s.reel with latch := true, st := .starting, cause := 0 } ∧ t.ctxs = s.ctxs ∧
      t.dumps = s.dumps ∧ SameMemory s t ∧ SameManagement s t) ∧
  (∀ f m, s.reel.st = .starting → f.present = true → f.linkOk = true → f.lba4k = true → 67666176 ≤ f.nlba →
    m = f.content.foldl (fun (x : Mem) (y : Nat × Byte) => x.put y.1 y.2) [] →
    Answers (.reelStartingDone f) s fun t => t.reel.st = (if (labelOf m).any (weightOk f.nlba) then .ready else .unlabelled) ∧
      (∀ w, labelOf m = some w → weightOk f.nlba w = true → t.reel.weightGib = w) ∧ t.reel.authentic = f.authentic ∧
      t.reel.linkReduced = f.reduced ∧ t.reel.nlba = f.nlba ∧ t.reel.pu = f.pu ∧ t.reel.written = 512000 * f.units ∧
      t.reel.serial = f.serial ∧ t.reel.data = m ∧ t.reel.chain = (if f.authentic then f.chain else 0) ∧ t.ctxs = s.ctxs ∧ t.tiles = s.tiles ∧
      t.dram = s.dram ∧ t.pool = s.pool ∧ SameManagement s t) ∧
  (∀ f, s.reel.st = .starting → f.present = false ∨ f.linkOk = false ∨ f.lba4k = false ∨ f.nlba < 67666176 →
    Answers (.reelStartingDone f) s fun t => t.reel.st = (if f.present then .failed else .absent) ∧
      t.reel.cause = (if f.present then if f.linkOk then 2 else 1 else 0) ∧ t.ctxs = s.ctxs ∧ t.tiles = s.tiles ∧ t.dram = s.dram ∧
      t.pool = s.pool ∧ SameManagement s t) ∧
  (∀ pu units written ro, s.reel.inService = true → s.reel.polledAt + 60 * cycPerSec ≤ s.clk.life → written = 512000 * units →
    Answers (.reelHealthPoll pu units ro false) s fun t => t.reel = { s.reel with
      pu := pu, written := written, lifeWarn := decide (remain pu written ≤ 10), writeStop := decide (remain pu written ≤ 2) || ro
      lowLogged := s.reel.lowLogged || decide (remain pu written ≤ 10), polledAt := s.clk.life } ∧ t.ctxs = s.ctxs ∧ SameMemory s t ∧
      SameManagement s t) ∧
  (∀ pu units ro, s.reel.inService = true → s.reel.polledAt + 60 * cycPerSec ≤ s.clk.life →
    Answers (.reelHealthPoll pu units ro true) s fun t => t.reel.st = .failed ∧ t.reel.cause = 4 ∧ t.reel.access = [] ∧ t.reel.ops = [] ∧
      t.reel.data = s.reel.data ∧ t.dram = s.dram ∧ t.pool = s.pool ∧ SameManagement s t) ∧
  (∀ x rest e, Shaped s → s.reel.inService = true ∨ s.reel.st = .ejecting → s.dumpOnReel = false → s.reel.access = x :: rest → x.1 < 64 →
    x.2.1 < 16 → (s.queue x.1 x.2.1).entry? x.2.2 = some e → e.outcome = none →
    Answers .reelCommandTimeout s fun t => Ended t x.1 x.2.1 x.2.2 (failed timeout) ∧ t.reel.timeouts = s.reel.timeouts + 1 ∧
      (s.reel.timeouts + 1 < 3 → t.reel.access = rest ∧ t.reel.st = s.reel.st) ∧
      (3 ≤ s.reel.timeouts + 1 → t.reel.access = [] ∧ t.reel.st = .failed ∧ t.reel.cause = 3) ∧ SameMemory s t ∧ SameManagement s t) ∧
  (∀ x rest e nvme, s.reel.access = x :: rest → (s.queue x.1 x.2.1).entry? x.2.2 = some e →
    ((s.accessOf x).1 = true → Makes (.reelAccessDone true nvme) s ({ s with reel := { s.reel with access := rest, timeouts := 0 } }.setOutcome
      x.1 x.2.1 x.2.2 { status := ok, result := e.fld 0x30 8 })) ∧
    ((s.accessOf x).1 = false → ∀ r, r = State.moveData { s with reel := { s.reel with access := rest, timeouts := 0 } } x.1 e [] →
      Makes (.reelAccessDone true nvme) s (r.2.setOutcome x.1 x.2.1 x.2.2 r.1)) ∧
    (Shaped s → x.1 < 64 → x.2.1 < 16 → e.outcome = none → Answers (.reelAccessDone false nvme) s fun t =>
      Ended t x.1 x.2.1 x.2.2 (failed integrity) ∧ t.reel = { s.reel with access := rest, timeouts := 0 } ∧ SameMemory s t ∧
      SameManagement s t))

/-- ROUTE_CYCLE: CYCLE and the always-on clock rise by 1, and of the memory outside the tiles only words on their way to a channel
land. With no context bound, no dwell and no such word nothing else changes but the wait counters of ports with packets waiting. A
context alone on the module whose schedule runs in this cycle, and which no violation and no end of its program stops, goes on by
one SCHED, its sheets' SPROG with it, and holds at a calender point or a wait point it reaches (R15, R134, R159, R160, R219, R418,
R419, R571). The steps of a tile beside its cycle: an issue entry that is over gives way to the one that follows, through every
LOOP; the fold slot of a predicated context takes its predicate token, bit 0 of a word, and without a token QUEUE_UNDER is among the
schedule violations of the cycle; a word that has spent 24 cycles in the read buffer goes to the router's L input; a snapshot of
telemetry takes every counter of the routers in Run or Idle and counts QMAX afresh, in cycles that are multiples of 2^21 (log entry
51) and no others (R171, R173, R186, R188, R191, R194, R200, R207, R250). -/
def Obligations.WireAndTiles : Prop :=
  (∀ (s : State) (evs : List WireEvent), Shaped s →
  Answers (.routeCycle evs) s (fun t => t.clk.cycle = s.clk.cycle + 1 ∧ t.clk.life = s.clk.life + 1 ∧
    ((∀ w ∈ s.crossing, s.clk.life + 1 < w.due) → t.dram = s.dram) ∧ t.pool = s.pool ∧ t.reel = s.reel ∧ t.groups = s.groups ∧ SameManagement s t) ∧
  (s.boundCtxs = [] → (∀ n, (s.sheet n).dwell = none ∧ (s.sheet n).dwellDue = none) → s.crossing = [] →
    Makes (.routeCycle evs) s { s with
      clk := { s.clk with cycle := s.clk.cycle + 1, life := s.clk.life + 1 }
      ports := s.ports.map fun x => if x.txq.isEmpty then x else { x with ctr := x.ctr.modify 7 fun v => (v + 1) % 2 ^ 48 } }) ∧
  (∀ c g u, s.boundCtxs = [c] → (s.ctx c).prog = some g → (s.ctx c).st = .running → (s.ctx c).runOn = [] → s.schedRuns c = true →
    u = ((List.range 24).foldl (fun a n => (a.shadowCycle evs n).catchupCycle evs n) (s.ctxCycle evs c).1).violate c [] →
    (u.ctx c).st = .running → (u.ctx c).hold = .none →
    Answers (.routeCycle evs) s fun t => (t.ctx c).st = .running ∧ (t.ctx c).sched = (s.ctx c).sched + 1 ∧
      (∀ n p, p ∈ (s.ctx c).held → p < 8 → n ∈ sheetsOfPt p → (s.ctx c).held.Nodup → (t.sheet n).sprog = (s.sheet n).sprog + 1) ∧
      (∀ p ∈ (s.ctx c).held, (s.ctx c).held.Nodup → p < 8 → (t.pt p).runCyc = (s.pt p).runCyc + 1 ∧
        (t.pt p).sinceRelease = (s.pt p).sinceRelease + 1) ∧
      (g.calAt ((s.ctx c).sched + 1) = true → (t.ctx c).hold = .calender (s.clk.life + 1)) ∧
      (g.calAt ((s.ctx c).sched + 1) = false → (∀ w ∈ g.waits, pointAt g.calPeriod ((s.ctx c).sched + 1) w.off = false) →
        (t.ctx c).hold = .none) ∧
      (g.calAt ((s.ctx c).sched + 1) = false → (∃ w ∈ g.waits, pointAt g.calPeriod ((s.ctx c).sched + 1) w.off = true) →
        ∃ i k, (t.ctx c).hold = .wait i k (s.clk.life + 1)))) ∧
  (∀ (s : State) (p : PTile) (i : Nat), i = ptileIx p → Shaped s →
  (s.ctxOfTile i = none → Makes (.issueEntryAdvance p) s s ∧ Makes (.foldSlotSwitch p) s s ∧ Makes (.readBufferEmit p) s s) ∧
  (∀ c v st e, s.ctxOfTile i = some c → v = s.view c i (s.ctx c).sched → st = (s.tile i).stateAt v.k → ctxValid (s.tile i).cfg ≠ 0 →
    st.pos ≤ (ctxCtl v.mem v.base).issueLast → e = issueEnt v.mem v.base st.pos →
    (e.op = 3 ∨ e.len ≤ st.rep →
      Answers (.issueEntryAdvance p) s fun t =>
        (∃ pos loops, followLoops v 1024 (if e.op = 3 then st.pos else st.pos + 1) st.loops = (pos, loops) ∧
          t.tile i = (s.tile i).setState v.k { st with pos := pos, loops := loops, rep := 0 }) ∧
        (∀ j, j ≠ i → t.tile j = s.tile j) ∧ t.ctxs = s.ctxs ∧ t.dram = s.dram ∧ t.pool = s.pool ∧ SameManagement s t) ∧
    (e.op ≠ 3 → st.rep < e.len → Makes (.issueEntryAdvance p) s s)) ∧
  (∀ c v st q, s.ctxOfTile i = some c → v = s.view c i (s.ctx c).sched → st = (s.tile i).stateAt v.k → v.first = true →
    s.schedRuns c = true → ctxValid (s.tile i).cfg ≠ 0 → st.predAt ≠ (s.ctx c).sched + 1 → q = (ctxCtl v.mem v.base).predQ →
    ((ctxCtl v.mem v.base).branch = 0 → Makes (.foldSlotSwitch p) s s) ∧
    (∀ w u, (ctxCtl v.mem v.base).branch ≠ 0 → v.take (s.tile i) q = some (w, u) →
      Makes (.foldSlotSwitch p) s (s.modTile i fun _ =>
        u.setState v.k { u.stateAt v.k with predAt := (s.ctx c).sched + 1, pred := w.2.2.getLsbD 0 })) ∧
    ((ctxCtl v.mem v.base).branch ≠ 0 → v.take (s.tile i) q = none → c < 64 →
      Answers (.foldSlotSwitch p) s fun t => (∃ x, (t.ctx c).viols = (s.ctx c).viols ++ [x] ∧ x.cause = 2 ∧ x.queue = q ∧ x.tile = i) ∧
        (∀ j, j ≠ i → t.tile j = s.tile j) ∧ t.dram = s.dram ∧ t.pool = s.pool ∧ t.reel = s.reel ∧ SameManagement s t)) ∧
  (∀ c v st a w r, s.ctxOfTile i = some c → v = s.view c i (s.ctx c).sched → st = (s.tile i).stateAt v.k → st.rdBuf = (a, w) :: r →
    (∀ f ∈ s.flights, ¬ (f.tile = i ∧ f.port = 6 ∧ f.left = 0)) →
    (st.time < a + 24 → Makes (.readBufferEmit p) s s) ∧
    (a + 24 ≤ st.time → Answers (.readBufferEmit p) s fun t =>
      (∃ x : Link, t.flights = s.flights ++ [⟨i, 6, 0, x⟩] ∧ x.data = w.extractLsb' 0 512 ∧ x.valid = true ∧ x.kind = 0 ∧
        x.gen = (s.tile i).ugen ∧ x.last = false ∧
        (w.extractLsb' 512 16 = dataPar (w.extractLsb' 0 512) → x.badLanes = 0) ∧
        (w.extractLsb' 512 16 ≠ dataPar (w.extractLsb' 0 512) → x.badLanes = 0xFFFF)) ∧
      t.tile i = (s.tile i).setState v.k { st with rdBuf := r } ∧ (∀ j, j ≠ i → t.tile j = s.tile j) ∧ t.ctxs = s.ctxs ∧ t.dram = s.dram ∧
      t.pool = s.pool ∧ SameManagement s t)) ∧
  (s.cyc % 2 ^ 21 ≠ 0 → Makes .telemetrySnapshot s s) ∧
  (s.cyc % 2 ^ 21 = 0 → s.clk.snapAt ≠ s.clk.life + 1 → Answers .telemetrySnapshot s fun t => (∀ j, j < 6912 →
      ((s.pt (ptOfSheet (j / 288))).pwr = .run ∨ (s.pt (ptOfSheet (j / 288))).pwr = .idle →
        t.tile j = ({ s.tile j with sending := some ({ (s.tile j).tlm with at' := s.cyc }, 3, s.clk.life) } : Tile).restartQmax) ∧
      ((s.pt (ptOfSheet (j / 288))).pwr ≠ .run → (s.pt (ptOfSheet (j / 288))).pwr ≠ .idle → t.tile j = s.tile j)) ∧
    t.ctxs = s.ctxs ∧ t.flights = s.flights ∧ t.dram = s.dram ∧ t.pool = s.pool ∧ SameManagement s t))

/-- A schedule held at a wait point goes on when a sample at least 256 cycles old found its waits met, at once by
EXTERNAL_WAIT_POINT and at a frame boundary by HOLD_RELEASE; each host-data wait passed adds 1 to TAKEN of its queue; before that it
stays, but for one whose object has been ORPHANED before its wait was met: that program ends FAULTED (log entry 55) (R160, R346,
R411, R413). A catch-up whose time has come puts the spare in step and clears its dirty words, but for one that a bad couch word has
abandoned, whose dwell begins anew; a prologue whose tiles have run past their last issue entry, with every queue empty, gives way
to the schedule, held to the end of the 1,280 cycles of the hold; both wait until then (R158, R419, R449, R451, R511). -/
def Obligations.WaitsCatchupAndPrologue : Prop :=
  (∀ (s : State) (c : Ctx) (g : Prog) (i k a : Nat), Shaped s → (s.ctx c).prog = some g →
  (s.ctx c).hold = .wait i k a →
  ((∃ e ∈ (s.ctx c).sampled, e.1 = (s.ctx c).sched ∧ e.2 + 256 ≤ s.clk.life) → ∀ cmd, cmd = .externalWaitPoint c ∨
      cmd = .holdRelease c ∧ s.cyc % 32 = 0 →
    Answers cmd s fun t => (t.ctx c).hold = .none ∧ (t.ctx c).sched = (s.ctx c).sched ∧
      (∀ q, q < 16 → (t.queue c q).taken = (s.queue c q).taken +
        ((g.waitsAt (s.ctx c).sched).filter fun w => decide (w.1.kind = 1) && decide (w.1.obj = q)).length) ∧
      (∀ d, d ≠ c.val → t.ctx d = s.ctx d) ∧ t.pts = s.pts ∧ SameMemory s t ∧ SameManagement s t) ∧
  ((∀ e ∈ (s.ctx c).sampled, e.1 = (s.ctx c).sched → s.clk.life < e.2 + 256) → s.waitsOrphaned c g = false →
    Makes (.externalWaitPoint c) s s ∧ Makes (.holdRelease c) s s) ∧
  (s.cyc % 32 ≠ 0 → Makes (.holdRelease c) s s) ∧
  (s.waitsOrphaned c g = true → Answers (.externalWaitPoint c) s fun t => (t.ctx c).st = .faulted ∧ (t.ctx c).run = none ∧
    (t.ctx c).counters.getD 0x0A03 0 = ((s.ctx c).counters.getD 0x0A03 0 + 1) % 2 ^ 48 ∧ SameMemory s t ∧ SameManagement s t)) ∧
  (∀ (s : State), Shaped s →
  (∀ (n : Sh) d a, (s.sheet n).dwell = some d → d.catching = some a →
    (s.clk.life < a → Makes (.catchupDone n) s s) ∧
    (a ≤ s.clk.life → d.abandoned = true → Answers (.catchupDone n) s fun t => (t.sheet n).dwell = none ∧
      (t.sheet n).dwellDue = some d.kind ∧ (t.sheet n).dirty = [] ∧ t.dram = s.dram ∧ t.pool = s.pool ∧ t.pts = s.pts ∧ SameManagement s t) ∧
    (a ≤ s.clk.life → d.abandoned = false → Answers (.catchupDone n) s fun t =>
      (t.sheet n).dwell = some { d with catching := none, inStep := true, phase := .inStep } ∧ (t.sheet n).dirty = [] ∧
      (t.sheet n).counters.getD 0x0B04 0 = ((s.sheet n).counters.getD 0x0B04 0 + 1) % 2 ^ 48 ∧
      t.dram = s.dram ∧ t.pool = s.pool ∧ t.pts = s.pts ∧ SameManagement s t)) ∧
  (∀ (n : Sh), (∀ d, (s.sheet n).dwell = some d → d.catching = none) → Makes (.catchupDone n) s s) ∧
  (∀ (c : Ctx) g, (s.ctx c).prog = some g →
    (s.proEnded c g = false → Makes (.prologueEnd c) s s) ∧
    (s.proEnded c g = true → Answers (.prologueEnd c) s fun t =>
      (t.ctx c).hold = (if !(s.ctx c).active then .stopped else if (s.ctx c).snapWait then .decide s.clk.life
        else .until (max s.clk.life ((s.ctx c).calAt + 1280))) ∧
      (t.ctx c).sched = (s.ctx c).sched ∧ (t.ctx c).reads = (s.ctx c).reads.filter (fun r => !r.pro) ∧ (∀ i ∈ s.proTiles c g, (t.tile i).pro = {}) ∧
      (∀ d, d ≠ c.val → t.ctx d = s.ctx d) ∧ t.dram = s.dram ∧ t.pool = s.pool ∧ t.pts = s.pts ∧ SameManagement s t)))

/-- A calender point of a context outside a job is decided from cycle 768 of its hold. When the local conditions hold the step
commits: the step count rises, every DOUBLE region flips and SCHED is recorded; a RUN whose STEP_LIMIT is reached ends and the
program stands placed. When they do not, the step rolls back: SCHED and SPROG go back to the last commit and the prologue begins,
after the FEEDs to be re-executed, or at ROLLBACK_LIMIT the program ends FAULTED. With a replica check armed the decision waits for
the reports of the replica set. No LPDDR5X byte changes (R260, R261, R338, R348, R417, R419, R420, R484, R505, R507, R508). -/
def Obligations.CalenderPoint : Prop := ∀ (s : State) (c : Ctx) (evs : List CalEvent) (g : Prog) (a : Nat) (r : State × Option Bool),
  Shaped s → (s.ctx c).prog = some g → (s.ctx c).hold = .calender a → (s.ctx c).active = true →
  r = (s.calEvents c evs).localDecision c g →
  (s.clk.life < a + 768 ∨ s.awaitsFirmware c = true → Makes (.calenderPoint c evs) s s) ∧
  (∀ good, a + 768 ≤ s.clk.life → s.awaitsFirmware c = false → (s.ctx c).armed ≠ [] → r.2 = some good →
    Answers (.calenderPoint c evs) s fun t => (t.ctx c).hold = .decide s.clk.life ∧ (t.ctx c).step = (s.ctx c).step ∧
      .replicaReport c ((s.ctx c).step + 1) good ((s.ctx c).armed.map fun m => (m.region, m.h2 ++ m.h1)) ∈ t.outbox ∧ SameMemory s t ∧
      SameManagement s t) ∧
  (a + 768 ≤ s.clk.life → s.awaitsFirmware c = false → s.activeJob c = none → (s.ctx c).armed = [] →
    (r.2 = some true → Answers (.calenderPoint c evs) s fun t => (t.ctx c).step = (s.ctx c).step + 1 ∧ (t.ctx c).commit.sched = (s.ctx c).sched ∧
      (t.ctx c).sched = (s.ctx c).sched ∧ (t.ctx c).rollbacks = 0 ∧ (t.ctx c).faults = [] ∧
      (t.ctx c).flips = ((s.ctx c).flips.mapIdx fun i f => if (g.regions.getD i ⟨0, 0, 0, false⟩).double then !f else f) ∧
      (∀ x, (s.ctx c).st = .running → (s.ctx c).run = some x → x.limit ≠ 0 → x.limit ≤ (s.ctx c).step + 1 →
        (t.ctx c).st = .placed ∧ (t.ctx c).run = none) ∧
      t.dram = s.dram ∧ t.pool = s.pool ∧ t.reel = s.reel ∧ t.ident = s.ident) ∧
    (r.2 = some false → (s.ctx c).rollbacks < (s.ctx c).rbLimit → (s.ctx c).replicaRb < 2 →
      Answers (.calenderPoint c evs) s fun t => (t.ctx c).step = (s.ctx c).step ∧ (t.ctx c).sched = (s.ctx c).commit.sched ∧
        (t.ctx c).rollbacks = (s.ctx c).rollbacks + 1 ∧ (t.ctx c).faults = [] ∧
        (t.ctx c).hold = (if t.refeeds c then .refeed s.clk.life else .prologue s.clk.life) ∧
        (∀ n, n < 24 → ptOfSheet n ∈ (s.ctx c).held → (t.sheet n).sprog = (s.ctx c).commit.sched) ∧
        (t.ctx c).flips = (s.ctx c).flips ∧ t.dram = s.dram ∧ t.pool = s.pool ∧ t.reel = s.reel ∧ t.ident = s.ident) ∧
    (r.2 = some false → (s.ctx c).rbLimit ≤ (s.ctx c).rollbacks →
      Answers (.calenderPoint c evs) s fun t => (t.ctx c).st = .faulted ∧ (t.ctx c).run = none ∧ (t.ctx c).step = (s.ctx c).step ∧
        t.dram = s.dram ∧ t.pool = s.pool ∧ t.reel = s.reel ∧ t.ident = s.ident))

/-- What bounds a step in time: a prologue over 2^23 cycles, a partition whose run cycles exceed 1.5 STEP_BOUND and a program wait
that is not met at its deadline end the program FAULTED, the last two with the partition's fault and a HUNG record; 2^28 cycles
without a release raise CALENDER_OVERDUE once a step and leave the program running (R410–R412, R422, R511, R513). -/
def Obligations.HangDetection : Prop := ∀ (s : State), Shaped s → 3 < s.start.stage →
  (∀ (c : Ctx), (∀ n, s.proCycle c = some n → n ≤ 2 ^ 23) → Makes (.prologueOverrun c) s s) ∧
  (∀ (c : Ctx) n, s.proCycle c = some n → 2 ^ 23 < n → (s.ctx c).st = .placed ∨ (s.ctx c).st = .running →
    Answers (.prologueOverrun c) s fun t => (t.ctx c).st = .faulted ∧ (t.ctx c).hold = .stopped ∧ (∃ r ∈ t.logs.errs, r.cls = 0x0205) ∧
      t.dram = s.dram ∧ t.pool = s.pool ∧ SameManagement s t) ∧
  (∀ (p : Pt) c g, s.holder p = some c → (s.ctx c).prog = some g → (s.ctx c).st = .running →
    (2 * (s.pt p).runCyc ≤ 3 * g.stepBound → Makes (.hung p) s s) ∧
    (3 * g.stepBound < 2 * (s.pt p).runCyc → Answers (.hung p) s fun t => (t.ctx c).st = .faulted ∧ (t.ctx c).run = none ∧
      (t.pt p).faulted = true ∧ (∃ r ∈ t.logs.errs, r.cls = 0x0202) ∧ t.dram = s.dram ∧ t.pool = s.pool ∧ t.mgmt = s.mgmt)) ∧
  (∀ (c : Ctx) g i k a, (s.ctx c).hold = .wait i k a → (s.ctx c).prog = some g → (s.ctx c).st = .running →
    ((∀ w ∈ g.waitsAt (s.ctx c).sched, w.1.kind = 3 → s.extMet c g w.1 w.2 = true) → Makes (.programWaitDeadline c) s s) ∧
    ((∃ w ∈ g.waitsAt (s.ctx c).sched, w.1.kind = 3 ∧ s.extMet c g w.1 w.2 = false) →
      Answers (.programWaitDeadline c) s fun t => (t.ctx c).st = .faulted ∧ (t.ctx c).run = none ∧
        (∀ p ∈ (s.ctx c).held, p < 8 → (t.pt p).faulted = true) ∧ (∃ r ∈ t.logs.errs, r.cls = 0x0202) ∧
        (t.ctx c).counters.getD 0x0A02 0 = ((s.ctx c).counters.getD 0x0A02 0 + 1) % 2 ^ 48 ∧ t.dram = s.dram ∧ t.pool = s.pool ∧
        t.mgmt = s.mgmt)) ∧
  (∀ (c : Ctx), (s.ctx c).st = .running → (s.ctx c).hold = .none ∨ (∃ i k a, (s.ctx c).hold = .wait i k a) → (s.ctx c).overdue = false →
    ((∀ p ∈ (s.ctx c).held, (s.pt p).sinceRelease < 2 ^ 28) → Makes (.calenderOverdue c) s s) ∧
    ((∃ p ∈ (s.ctx c).held, 2 ^ 28 ≤ (s.pt p).sinceRelease) →
      Answers (.calenderOverdue c) s fun t => (t.ctx c).overdue = true ∧ (t.ctx c).st = .running ∧ (t.ctx c).sched = (s.ctx c).sched ∧
        (t.ctx c).counters.getD 0x0A04 0 = ((s.ctx c).counters.getD 0x0A04 0 + 1) % 2 ^ 48 ∧ (∃ r ∈ t.logs.errs, r.cls = 0x0401) ∧
        t.dram = s.dram ∧ t.pool = s.pool ∧ t.pts = s.pts ∧ SameManagement s t)) ∧
  (∀ (c : Ctx), (s.ctx c).overdue = true → Makes (.calenderOverdue c) s s)

/-- A compiled channel slot of a running schedule or of a prologue: a read puts its word, as LPDDR5X holds it now, on its way to the
P-tile, 173 cycles or 161 with a mesh attach; a write sends the next word of the write buffer on its way of 6 cycles, a suppressed
word with nothing to write, and an empty write buffer is a schedule violation. The word then reaches its 64 bytes and no other. A
slot issues once, and only where a slot of the channel begins (R149, R200, R246, R248, R249, R251, R255, R510). A read word that is
due enters the read buffer of its context with good parity, or with every parity bit inverted when the word or its group is bad,
which is a step fault; a corrected word counts in DRAM_CE; a full read buffer is a schedule violation. The bits that have changed in
the array since the word was read come with the command (R200, R232, R249, R250, R270). -/
def Obligations.ChannelReads : Prop :=
  (∀ (s : State) (c : Ctx) (ch : Ch) (flip : BitVec 560) (g : Prog) (al : Alloc) (cl : ChanList) (e : SlotEnt) (i n l off : Nat),
  Shaped s → s.dram.wf = true → (∀ w d evs, s.crossing = [w] → w.due ≤ s.clk.life + 1 → w.data = some d →
    Answers (.routeCycle evs) s fun t => t.crossing = [] ∧ t.dram.read (mpa w.ch w.off) 64 = dataBytes d ∧
      ∀ a, a < mpa w.ch w.off ∨ mpa w.ch w.off + 64 ≤ a → t.dram.get a = s.dram.get a) ∧
  ((s.ctx c).prog = some g → (s.ctx c).alloc = some al → l = al.chans.idxOf ch.val → l < al.chans.length →
  cl = g.lists.getD l ⟨0, 0, []⟩ →
  (∀ j r, s.proCycle c = some j → j % 6 = 0 → (s.chan ch).slotAt ≠ s.clk.life + 1 → slotBurst g cl (j / 6) = some (e, i, n) → e.op ≤ 1 →
    e.region ≠ 127 → r = 960 * al.baseG + 64 * slotWord g al (s.ctx c) cl e false 0 i →
    Answers (.channelSlotIssue c ⟨ch, flip⟩) s fun t => (∃ x, (t.ctx c).reads = (s.ctx c).reads ++ [x] ∧ x.pro = true ∧ x.ch = ch.val ∧ x.off = r ∧
      x.due = j + (if (s.portTile g al l).2 then 161 else 173)) ∧ SameMemory s t ∧ t.pts = s.pts ∧ SameManagement s t) ∧
  (s.proCycle c = none → off = 960 * al.baseG + 64 * slotWord g al (s.ctx c) cl e e.side n i →
  ((s.chan ch).slotAt = s.clk.life + 1 ∨ (s.ctx c).sched % 6 ≠ 0 ∨ s.schedRuns c = false → Makes (.channelSlotIssue c ⟨ch, flip⟩) s s) ∧
  ((s.chan ch).slotAt ≠ s.clk.life + 1 → (s.ctx c).sched % 6 = 0 → s.schedRuns c = true →
    (slotBurst g cl ((s.ctx c).sched / 6) = none →
      Makes (.channelSlotIssue c ⟨ch, flip⟩) s (s.modChan ch fun y => { y with slotAt := s.clk.life + 1 })) ∧
    (slotBurst g cl ((s.ctx c).sched / 6) = some (e, i, n) →
      (e.op ≤ 1 → Answers (.channelSlotIssue c ⟨ch, flip⟩) s fun t =>
        (∃ r, (t.ctx c).reads = (s.ctx c).reads ++ [r] ∧ r.due = (s.ctx c).sched + (if (s.portTile g al l).2 then 161 else 173) ∧
          r.ch = ch.val ∧ r.cfg = e.ctx ∧ r.off = off ∧ r.pro = false ∧ (s.scratch = [] → r.data = s.usableWord ch (off / 64))) ∧
        t.dram = s.dram ∧ t.tiles = s.tiles ∧ (t.chan ch).slotAt = s.clk.life + 1 ∧ t.pool = s.pool ∧ t.pts = s.pts ∧ SameManagement s t) ∧
      (∀ k d r, 1 < e.op → (s.portTile g al l).1 = some k → ((s.tile k).stateAt e.ctx).wrBuf = some d :: r →
        Answers (.channelSlotIssue c ⟨ch, 0⟩) s fun t => (∃ w, t.crossing = s.crossing ++ [w] ∧ w.due = s.clk.life + 6 ∧ w.ch = ch.val ∧
            w.off = off ∧ w.data = some d) ∧
          t.tile k = (s.tile k).setState e.ctx { (s.tile k).stateAt e.ctx with wrBuf := r } ∧ (∀ j, j ≠ k → t.tile j = s.tile j) ∧
          t.dram = s.dram ∧ t.pool = s.pool ∧ t.pts = s.pts ∧ SameManagement s t) ∧
      (∀ k r, 1 < e.op → (s.portTile g al l).1 = some k → ((s.tile k).stateAt e.ctx).wrBuf = none :: r →
        Answers (.channelSlotIssue c ⟨ch, flip⟩) s fun t => (∃ w, t.crossing = s.crossing ++ [w] ∧ w.data = none) ∧
          t.tile k = (s.tile k).setState e.ctx { (s.tile k).stateAt e.ctx with wrBuf := r } ∧ (∀ j, j ≠ k → t.tile j = s.tile j) ∧
          t.dram = s.dram ∧ t.pool = s.pool ∧ t.pts = s.pts ∧ SameManagement s t) ∧
      (∀ k, 1 < e.op → (s.portTile g al l).1 = some k → ((s.tile k).stateAt e.ctx).wrBuf = [] →
        Answers (.channelSlotIssue c ⟨ch, flip⟩) s fun t => (∃ x, (t.ctx c).viols = (s.ctx c).viols ++ [x] ∧ x.cause = 2 ∧ x.queue = 9 ∧ x.tile = k) ∧
          t.crossing = s.crossing ∧ SameMemory s t ∧ t.pts = s.pts ∧ SameManagement s t)))))) ∧
  (∀ (s : State) (c : Ctx) (ch : Ch) (flips : List DramFlip) (g : Prog) (al : Alloc) (now k i : Nat), Shaped s →
  (s.ctx c).prog = some g → (s.ctx c).alloc = some al → now = (s.proCycle c).getD (s.ctx c).sched →
  ((∀ r ∈ (s.ctx c).reads, r.ch = ch.val → r.pro = (s.proCycle c).isSome → r.due ≠ now) ∨ (s.proCycle c = none ∧ s.schedRuns c = false) →
    Makes (.dramReadArrival c ch flips) s (s.decay flips)) ∧
  (∀ r rest here d o, s.proCycle c ≠ none ∨ s.schedRuns c = true →
    takeFirst (fun r => decide (r.ch = ch.val ∧ r.due = now ∧ r.pro = (s.proCycle c).isSome)) (s.ctx c).reads = some (r, rest) →
    (s.portTile g al r.list).1 = some i → k = (if r.pro then 8 else r.cfg) →
    here = (fun b => flips.foldl (fun (m : BitVec 512) f => if f.ch = ch ∧ f.group.toNat = r.off / 960 ∧ f.burst.val = b then m ^^^ f.mask else m) 0) →
    d = r.dflaw ^^^ here (r.off % 960 / 64) → o = eccOutcome ch (r.off / 960) (r.off % 960 / 64) d (r.cflaw ^^^ here 15) →
    (((s.tile i).stateAt k).rdBuf.length < 64 → o = .clean ∨ o = .corrected → r.lost = false →
      Answers (.dramReadArrival c ch flips) s fun t => (t.ctx c).reads = rest ∧
        t.tile i = (s.tile i).setState k { (s.tile i).stateAt k with
          rdBuf := ((s.tile i).stateAt k).rdBuf ++ [(((s.tile i).stateAt k).time, dataPar r.data ++ r.data)] } ∧
        (∀ j, j ≠ i → t.tile j = s.tile j) ∧
        (t.chan ch).ce = (if o = .corrected then ((s.chan ch).ce + 1) % 2 ^ 48 else (s.chan ch).ce) ∧
        t.dram = s.dram ∧ t.pool = s.pool ∧ t.pts = s.pts ∧ SameManagement s t) ∧
    (((s.tile i).stateAt k).rdBuf.length < 64 → o = .uncorrectable ∨ (o ≠ .tagError ∧ r.lost = true) → (s.ctx c).rollbacks = 0 →
      (s.ctx c).run ≠ none → 3 < s.start.stage → (s.chan ch).broke = true ∨ (s.chan ch).errs = [] →
      Answers (.dramReadArrival c ch flips) s fun t => (t.ctx c).reads = rest ∧
        t.tile i = (s.tile i).setState k { (s.tile i).stateAt k with
          rdBuf := ((s.tile i).stateAt k).rdBuf ++ [(((s.tile i).stateAt k).time, ~~~(dataPar (r.data ^^^ d)) ++ (r.data ^^^ d))] } ∧
        (t.ctx c).faults = (s.ctx c).faults ++ [0x0106] ∧ (t.ctx c).st = (s.ctx c).st ∧ (t.chan ch).lost (r.off / 960) = true ∧
        (t.chan ch).ue = ((s.chan ch).ue + 1) % 2 ^ 48 ∧ (∃ x ∈ t.logs.errs, x.cls = 0x0106) ∧ t.dram = s.dram ∧ t.pool = s.pool ∧
        SameManagement s t) ∧
    (64 ≤ ((s.tile i).stateAt k).rdBuf.length → o = .clean → r.lost = false →
      Answers (.dramReadArrival c ch flips) s fun t => (∃ x, (t.ctx c).viols = (s.ctx c).viols ++ [x] ∧ x.cause = 1 ∧ x.queue = 8 ∧ x.tile = i) ∧
        SameMemory s t ∧ t.pts = s.pts ∧ SameManagement s t)))

/-- Scrubbing reads the next word of an S-tile or operand store, and the next group of a channel, in turn; a corrected on-die word
is counted, an uncorrectable one is logged and the word stays bad; nothing is scrubbed in a partition whose dies do not run, on a
broke channel or on one in self-refresh (R225, R226, R272, R273). Package temperatures: the readings stand; a running program
compiled for class N ends at the next commit when a package of its partitions is in band B1; in B2 or B3, and for one compiled for
class H in B3, it holds at the next frame boundary, where its step is abandoned: it stands placed at its last commit, its partitions
in mode H, and with class H its channels go to self-refresh (R265, R268, R269). -/
def Obligations.ScrubbingAndTemperature : Prop :=
  (∀ (s : State), Shaped s → 3 < s.start.stage →
  (∀ (p : PTile) lanes ecc i n, i = ptileIx p → n = storeWords (i % 16) →
    (n = 0 ∨ ((s.pt (ptOfSheet (i / 288))).pwr ≠ .run ∧ (s.pt (ptOfSheet (i / 288))).pwr ≠ .idle) → Makes (.sramScrub p lanes ecc) s s) ∧
    (n ≠ 0 → (s.pt (ptOfSheet (i / 288))).pwr = .run ∨ (s.pt (ptOfSheet (i / 288))).pwr = .idle →
      Answers (.sramScrub p lanes ecc) s fun t => (t.tile i).scrub = ((s.tile i).scrub % n + 1) % n ∧ (t.tile i).store = (s.tile i).store ∧
        (∀ j, j ≠ i → t.tile j = s.tile j) ∧
        (ecc = .clean → (s.tile i).scrub % n ∉ (s.tile i).badWords → t.logs = s.logs ∧ (t.tile i).badWords = (s.tile i).badWords) ∧
        (ecc = .corrected → (s.tile i).scrub % n ∉ (s.tile i).badWords → (s.tile i).ctr.length = 6 →
          (t.tile i).ctr.getD 5 0 = ((s.tile i).ctr.getD 5 0 + 1) % 2 ^ 48) ∧
        (ecc = .uncorrectable → (s.tile i).scrub % n ∈ (t.tile i).badWords ∧ ∃ r ∈ t.logs.errs, r.cls = 0x0402) ∧
        t.ctxs = s.ctxs ∧ t.dram = s.dram ∧ t.pool = s.pool ∧ t.pts = s.pts ∧ SameManagement s t)) ∧
  (∀ (ch : Ch) flips, (s.chan ch).broke = true ∨ (s.chan ch).selfRefresh = true → Makes (.dramScrub ch flips) s (s.decay flips)) ∧
  (∀ (ch : Ch) flips u g, (s.chan ch).broke = false → (s.chan ch).selfRefresh = false → u = s.decay flips →
    g = (s.chan ch).scrub % s.groupsPerChan →
    ((∀ i, i < 15 → u.wordEcc ch (960 * g + 64 * i) = .clean ∨ u.wordEcc ch (960 * g + 64 * i) = .corrected) →
      Makes (.dramScrub ch flips) s (u.modChan ch fun y =>
        { y with scrub := (g + 1) % s.groupsPerChan, scrubbed := (y.scrubbed + 1) % 2 ^ 48, flaws := y.flaws.filter fun f => decide (f.1 ≠ g) })) ∧
    ((∃ i, i < 15 ∧ u.wordEcc ch (960 * g + 64 * i) = .uncorrectable) → (∀ i, i < 15 → u.wordEcc ch (960 * g + 64 * i) ≠ .tagError) →
      Answers (.dramScrub ch flips) s fun t =>
      (t.chan ch).scrub = (g + 1) % s.groupsPerChan ∧
      (t.chan ch).scrubbed = ((s.chan ch).scrubbed + 1) % 2 ^ 48 ∧ (t.chan ch).ue = ((s.chan ch).ue + 1) % 2 ^ 48 ∧
      (t.chan ch).lost g = true ∧ ((s.chan ch).errs = [] → ∃ r ∈ t.logs.errs, r.cls = 0x0106) ∧ t.dram = s.dram ∧ t.pool = s.pool ∧
      SameManagement s t)) ∧
  (∀ (ch : Ch), (s.pt (ptOfChan ch)).pwr = .off → (s.chan ch).selfRefresh = false →
    (s.chan ch).wokenAt + 2 ^ 20 ≤ s.clk.life →
    Makes (.selfRefreshReentry ch) s (s.modChan ch fun y => { y with selfRefresh := true })) ∧
  (∀ (ch : Ch), (s.pt (ptOfChan ch)).pwr ≠ .off ∨ (s.chan ch).selfRefresh = true ∨ s.clk.life < (s.chan ch).wokenAt + 2 ^ 20 →
    Makes (.selfRefreshReentry ch) s s)) ∧
  (∀ (s : State) (temps : List (Fin 48 × Int)) (m : KMap Int) (h : List Nat) (u : State), Shaped s →
  m = temps.foldl (fun (m : KMap Int) e => m.set e.1.val e.2) s.dies.pkgTemp →
  h = (List.range 8).filter (fun p => (packagesOf p).any (fun k => decide (105 < m.getD k 0)) ||
    (s.dies.hotPts.contains p && (packagesOf p).any fun k => decide (100 < m.getD k 0))) →
  u = { s with dies := { s.dies with pkgTemp := m, hotPts := h } } →
  ((∀ c, c < 64 → (s.ctx c).run = none) → Makes (.dramTempSample temps) s u) ∧
  (∀ c g, c < 64 → (∀ d, d < 64 → d ≠ c → (s.ctx d).run = none) → (s.ctx c).prog = some g → (s.ctx c).st = .running → (s.ctx c).run ≠ none →
    (s.ctx c).hotHold = false →
    ((∀ e ∈ u.bands (s.ctx c).held, e.2 = 0 ∨ (g.refreshN = false ∧ e.2 ≠ 3)) → Makes (.dramTempSample temps) s u) ∧
    (g.refreshN = true → (∀ e ∈ u.bands (s.ctx c).held, e.2 ≤ 1) → (∃ e ∈ u.bands (s.ctx c).held, e.2 = 1) → (s.ctx c).refreshEnd = false →
      Answers (.dramTempSample temps) s fun t => (t.ctx c).refreshEnd = true ∧ (t.ctx c).st = .running ∧ t.dies = u.dies ∧ SameMemory s t ∧
        SameManagement s t) ∧
    (∀ b, b = (if g.refreshN then 2 else 3) → (∃ e ∈ u.bands (s.ctx c).held, b ≤ e.2) → (∀ e ∈ u.bands (s.ctx c).held, e.2 ≤ 3) →
      Answers (.dramTempSample temps) s fun t => (t.ctx c).hotHold = true ∧ (t.ctx c).st = .running ∧ t.dies = u.dies ∧ SameMemory s t ∧
        SameManagement s t)) ∧
  (∀ c g evs, s.boundCtxs = [c] → (s.ctx c).prog = some g → (s.ctx c).st = .running → (s.ctx c).hotHold = true → (s.ctx c).viols = [] →
    (s.ctx c).held ⊆ List.range 8 → s.cyc % 32 = 0 →
    Answers (.routeCycle evs) s fun t => (t.ctx c).st = .placed ∧ (t.ctx c).run = none ∧ (t.ctx c).hold = .stopped ∧
      (t.ctx c).sched = (s.ctx c).commit.sched ∧ (t.ctx c).step = (s.ctx c).step ∧ (∀ p ∈ (s.ctx c).held, (t.pt p).classN = false) ∧
      (g.refreshN = false → ∀ p ∈ (s.ctx c).held, ∀ k ∈ chansOfPt p, (t.chan k).selfRefresh = true) ∧ t.pool = s.pool ∧ SameManagement s t))

/-- Slot 31 of an even frame moves each cell of the message plane by at most one hop, in the order that its output serves: a lone
cell whose turn it is not stays; one for this tile is delivered when it passes its checks, and its message with its last cell, and
logged when it does not, its message discarded; any other goes to the latch of its next tile. A cell that firmware sends stands in
the empty L latch of its tile. The slot's traffic moves once, and in no other cycle (R158, R162–R165, R365). Slot 31 of an odd frame
moves maintenance traffic once: with no fault on the wire each couch copies its next words, or recopies the first dirty word of each
row, and a telemetry snapshot moves up its column and stands there for COUNTERS after its last cell (R167–R169, R171, R448, R449).
-/
def Obligations.ReservedTraffic : Prop :=
  (∀ (s : State) (evs : List WireEvent), Shaped s →
  (∀ cells, s.slot31 0 = false → Makes (.messagePlaneSlot ⟨evs, cells⟩) s s) ∧
  (∀ (x : FwCell) i, s.slot31 0 = true → (∀ p, p < 8 → s.awake p = true → s.cellTiles p = []) → i = tileIx x.t.sh x.t.pc x.t.row →
    s.awake (ptOfSheet x.t.sh) = true → s.mgmt.restart = none → (s.tile i).latches = List.replicate 5 none →
    Makes (.messagePlaneSlot ⟨evs, [x]⟩) s (s.modTile i fun t => { t with latches := (List.replicate 5 none).set 4 (some (cellWord x)) }).slotDone) ∧
  (s.slot31 0 = true → (∀ p, p < 8 → s.awake p = true → s.cellTiles p = []) → Makes (.messagePlaneSlot ⟨evs, []⟩) s s.slotDone) ∧
  (∀ p row col i k w out, s.slot31 0 = true → p < 8 → s.awake p = true → s.cellTiles p = [(row, col, i)] →
    (∀ q, q < 8 → q ≠ p → s.awake q = true → s.cellTiles q = []) → k < 5 →
    (s.tile i).latches = (List.replicate 5 none).set k (some w) → out = nextHop row col w →
    (served out (s.cyc / 64) ≠ k → Makes (.messagePlaneSlot ⟨evs, []⟩) s s.slotDone) ∧
    (served out (s.cyc / 64) = k → out = 4 → (w ^^^ flipOf evs i 6).parOk = true → (w ^^^ flipOf evs i 6).valid = true →
      (w ^^^ flipOf evs i 6).kind = 1 →
      Makes (.messagePlaneSlot ⟨evs, []⟩) s
        (s.modTile i fun t => { t with latches := List.replicate 5 none, rx := t.rx.take (w ^^^ flipOf evs i 6) }).slotDone) ∧
    (served out (s.cyc / 64) = k → out = 4 → (w ^^^ flipOf evs i 6).parOk = false → 3 < s.start.stage →
      Answers (.messagePlaneSlot ⟨evs, []⟩) s fun t => (t.tile i).latches = List.replicate 5 none ∧
        (t.tile i).rx = (s.tile i).rx.drop (w ^^^ flipOf evs i 6) ∧ (t.tile i).tlm.parErr = min 0xFFFF ((s.tile i).tlm.parErr + 1) ∧
        (∃ r ∈ t.logs.errs, r.cls = if (s.holderOfSheet (i / 288)).isSome then 0x010B else 0x0406) ∧ t.dram = s.dram ∧ t.pool = s.pool ∧
        t.pts = s.pts ∧ SameManagement s t) ∧
    (∀ r2 c2 k2 j, served out (s.cyc / 64) = k → planeNext row col out = some (r2, c2, k2) → s.localTile p r2 c2 = some j → j ≠ i →
      (s.tile j).latches = List.replicate 5 none →
      Answers (.messagePlaneSlot ⟨evs, []⟩) s fun t => (t.tile i).latches = List.replicate 5 none ∧
        (t.tile j).latches = (List.replicate 5 none).set k2 (some (w ^^^ flipOf evs j (portCode j i (k2 + 1)))) ∧
        (∀ x, x ≠ i → x ≠ j → t.tile x = s.tile x) ∧ t.ctxs = s.ctxs ∧ t.dram = s.dram ∧ t.pool = s.pool ∧ t.pts = s.pts ∧
        SameManagement s t))) ∧
  (∀ (s : State) (evs : List WireEvent), Shaped s →
  (s.slot31 1 = false → Makes (.maintenanceSlot evs) s s) ∧
  (s.slot31 1 = true → (∀ n, (s.sheet n).dwell = none) → (∀ i, (s.tile i).sending = none) → Makes (.maintenanceSlot evs) s s.slotDone) ∧
  (s.slot31 1 = true →
    Answers (.maintenanceSlot []) s fun t => t.clk = { s.clk with slotAt := s.clk.life + 1 } ∧
      (∀ n d pc, n < 24 → s.awake (ptOfSheet n) = true → (s.sheet n).dwell = some d → (s.sheet n).rove = some pc → d.phase = .couchIn →
        d.target ≠ none →
        (d.couched = none → (t.sheet n).dwell = some { d with words := d.words + 1 } ∧ (t.sheet n).dirty = (s.sheet n).dirty) ∧
        (d.couched ≠ none → (t.sheet n).dwell = some d ∧
          (t.sheet n).dirty = (List.range 16).flatMap fun r => ((s.sheet n).dirty.filter fun w => w / 65536 = r).drop 1)) ∧
      (∀ n pc r x k a, n < 24 → pc < 18 → r < 16 → s.awake (ptOfSheet n) = true → s.cyc / 64 % 2 = 0 →
        (∀ j, j < r → (s.tile (tileIx n pc j)).sending = none) → (s.tile (tileIx n pc r)).sending = some (x, k, a) →
        (1 < k → (t.tile (tileIx n pc r)).sending = some (x, k - 1, a) ∧ (t.tile (tileIx n pc r)).snap = (s.tile (tileIx n pc r)).snap) ∧
        (k ≤ 1 → (t.tile (tileIx n pc r)).sending = none ∧
          (t.tile (tileIx n pc r)).snap = { x with qmax := List.zipWith max x.qmax (s.tile (tileIx n pc r)).snap.qmax })) ∧
      t.ctxs = s.ctxs ∧ t.dram = s.dram ∧ t.pool = s.pool ∧ t.pts = s.pts ∧ SameManagement s t))

/-- Phase 1 of a dwell: it starts with zeroise on the spare's column, isolated, under two keys of at least 2; zeroise clears the
column's 16 tiles and sets ZEROISED; March, logic BIST and margin BIST follow, and what a spare can repair waits for the repair
interval; a signature that differs from the expected one, but for one MAC row of an M-tile, retires the column and is logged (R429,
R432–R436, R438–R445, R464, R476). -/
def Obligations.DwellTests : Prop := ∀ (s : State) (n : Sh), Shaped s → 3 < s.start.stage →
  (∀ kind pc k1 k2, (s.sheet n).dwellDue = some kind → (s.sheet n).rove = some pc → pc < 18 → (s.sheet n).health = 0 → (s.sheet n).dwell = none →
    (s.pt (ptOfSheet n)).pwr = .run ∨ (s.pt (ptOfSheet n)).pwr = .idle → (s.pt (ptOfSheet n)).faulted = false → s.dies.ct1Lost = false →
    2 ≤ k1.toNat → 2 ≤ k2.toNat →
    Answers (.dwellStart n k1 k2) s fun t => (∃ d, (t.sheet n).dwell = some d ∧ d.kind = kind ∧ d.start = s.clk.life ∧ d.phase = .zeroise ∧
        d.pos = pc ∧ d.key1 = k1 ∧ d.key2 = k2 ∧ d.couched = none ∧ d.inStep = false ∧ d.fails = []) ∧
      (t.sheet n).dwellDue = none ∧ ((t.sheet n).tstat.getD pc {}).isolated = true ∧ ((t.sheet n).tstat.getD pc {}).scanEn = false ∧
      (t.sheet n).counters.getD 0x0B01 0 = ((s.sheet n).counters.getD 0x0B01 0 + 1) % 2 ^ 48 ∧ (t.pt (ptOfSheet n)).pwr = .run ∧
      (∀ m, m ≠ n.val → t.sheet m = s.sheet m) ∧ t.ctxs = s.ctxs ∧ SameMemory s t ∧ SameManagement s t) ∧
  (∀ k1 k2, (s.sheet n).dwell ≠ none ∨ (s.sheet n).dwellDue = none ∨ (s.sheet n).rove = none ∨ k1.toNat < 2 ∨ k2.toNat < 2 →
    Makes (.dwellStart n k1 k2) s s) ∧
  (∀ d cond, (s.sheet n).dwell = some d → d.abandoned = false → d.pos < 18 →
    (d.phase = .zeroise → Answers (.zeroiseDone n false cond) s fun t => (t.sheet n).dwell = some { d with phase := .march, phaseAt := s.clk.life } ∧
      ((t.sheet n).tstat.getD d.pos {}).zeroised = true ∧ ((t.sheet n).tstat.getD d.pos {}).scanEn = false ∧
      (∀ r, r < 16 → (t.tile (tileIx n d.pos r)).store = [] ∧ (t.tile (tileIx n d.pos r)).cfg = [] ∧
        (t.tile (tileIx n d.pos r)).queues = List.replicate 8 []) ∧
      (∀ i, (∀ r, r < 16 → i ≠ tileIx n d.pos r) → t.tile i = s.tile i) ∧ t.ctxs = s.ctxs ∧ t.dram = s.dram ∧ t.pool = s.pool ∧
      t.pts = s.pts ∧ SameManagement s t) ∧
    (d.phase = .zeroise → d.refusals = 0 → Answers (.zeroiseDone n true cond) s fun t =>
      (t.sheet n).dwell = some { d with refusals := 1, start := s.clk.life, abandoned := false } ∧
      ((t.sheet n).tstat.getD d.pos {}).trip = true ∧ (∃ r ∈ t.logs.errs, r.cls = 0x0303) ∧
      (t.sheet n).counters.getD 0x0B06 0 = ((s.sheet n).counters.getD 0x0B06 0 + 1) % 2 ^ 48 ∧ SameMemory s t ∧ SameManagement s t) ∧
    (d.phase = .zeroise → 1 ≤ d.refusals → (s.holderOfSheet n).isSome = true → Answers (.zeroiseDone n true cond) s fun t =>
      (t.sheet n).dwell = some { d with refusals := d.refusals + 1, start := s.clk.life, abandoned := true } ∧
      (∃ r ∈ t.logs.errs, r.cls = 0x0303) ∧ SameMemory s t ∧ SameManagement s t) ∧
    (∀ fails, d.phase = .march → Answers (.marchDone n fails cond) s fun t =>
      (t.sheet n).dwell = some { d with
        phase := .logic, phaseAt := s.clk.life, fails := d.fails ++ fails.filter fun f => decide (f.kind = 2) } ∧
      ((t.sheet n).tstat.getD d.pos {}).scanEn = true ∧ (∀ m, m ≠ n.val → t.sheet m = s.sheet m) ∧ t.ctxs = s.ctxs ∧ SameMemory s t ∧
      SameManagement s t) ∧
    (∀ fails, d.phase = .logic → (∀ f ∈ fails, f.kind = 0 → f.sigDiff = 0 ∨ inMacRow f = true) → Answers (.logicBistDone n fails cond) s fun t =>
      (t.sheet n).dwell = some { d with
        phase := .margin, phaseAt := s.clk.life, fails := d.fails ++ fails.filter fun f => decide (f.kind.val = 0) && decide (f.sigDiff ≠ 0) } ∧
      ((t.sheet n).tstat.getD d.pos {}).scanEn = true ∧ (∀ m, m ≠ n.val → t.sheet m = s.sheet m) ∧ t.ctxs = s.ctxs ∧ SameMemory s t ∧
      SameManagement s t) ∧
    (∀ fails, d.phase = .margin → (∀ f ∈ fails, f.kind = 1 → f.sigDiff = 0) → Answers (.marginBistDone n fails cond) s fun t =>
      (t.sheet n).dwell = some { d with phase := .repair, phaseAt := s.clk.life } ∧ ((t.sheet n).tstat.getD d.pos {}).scanEn = false ∧
      (∀ m, m ≠ n.val → t.sheet m = s.sheet m) ∧ t.ctxs = s.ctxs ∧ SameMemory s t ∧ SameManagement s t) ∧
    (∀ fails, d.pos ∉ (s.sheet n).broke → (∃ f ∈ fails, f.kind = 0 ∧ f.sigDiff ≠ 0 ∧ inMacRow f = false) → d.phase = .logic →
      Answers (.logicBistDone n fails cond) s fun t => d.pos ∈ (t.sheet n).broke ∧ (∃ r ∈ t.logs.errs, r.cls = 0x0302) ∧ t.ctxs = s.ctxs ∧
        SameMemory s t ∧ SameManagement s t) ∧
    (∀ fails, d.pos ∉ (s.sheet n).broke → (∃ f ∈ fails, f.kind = 1 ∧ f.sigDiff ≠ 0) → d.phase = .margin →
      Answers (.marginBistDone n fails cond) s fun t => d.pos ∈ (t.sheet n).broke ∧ (∃ r ∈ t.logs.errs, r.cls = 0x0302) ∧ t.ctxs = s.ctxs ∧
        SameMemory s t ∧ SameManagement s t))

/-- The rest of a dwell: the repair interval switches in a spare for a failure that has one free and goes on to couch-in, or to its
installation point in an INSPECT dwell; a rerun that fails retires the column; couch-in has copied every word; 96 ms after its start
a SWEEP dwell in step moves the spare to its next position, where it stands, or to a WATCHED column; a STEERED dwell is counted, and
ten in a row without a record against their target clear WATCHED; an INSPECT dwell gives way to steering; with no context bound,
differences of the accumulators are counted at the move (R10, R76, R77, R430, R433, R442, R445, R448, R449, R464, R475, R493, R494).
-/
def Obligations.DwellMoves : Prop := ∀ (s : State) (n : Sh) (d : Dwell), Shaped s → 3 < s.start.stage → (s.sheet n).dwell = some d → d.pos < 18 →
  (∀ cond, d.phase = .repair → d.abandoned = false →
    (d.fails = [] ∨ ∃ f, d.fails = [f] ∧ s.canRepair n d.pos f = true) →
    Answers (.softRepair n [] cond) s fun t =>
      (t.sheet n).dwell = some { d with
        fails := [], phase := if d.kind = .inspect then .idle else .couchIn, phaseAt := s.clk.life } ∧
      (t.sheet n).counters.getD 0x0B02 0 = ((s.sheet n).counters.getD 0x0B02 0 + 1) % 2 ^ 48 ∧ t.ctxs = s.ctxs ∧ t.dram = s.dram ∧
      t.pool = s.pool ∧ t.pts = s.pts ∧ SameManagement s t) ∧
  (∀ fails cond, d.phase = .repair → d.abandoned = false → fails ≠ [] → d.pos ∉ (s.sheet n).broke →
    Answers (.softRepair n fails cond) s fun t => d.pos ∈ (t.sheet n).broke ∧ (∃ r ∈ t.logs.errs, r.cls = 0x0302) ∧ t.ctxs = s.ctxs ∧
      t.dram = s.dram ∧ t.pool = s.pool ∧ SameManagement s t) ∧
  (d.phase = .couchIn → d.couched = none → d.target ≠ none → (s.holderOfSheet n).isSome = true →
    Answers (.couchInDone n) s fun t => (t.sheet n).dwell = some { d with couched := some s.clk.life, words := 65536 } ∧
      ((t.sheet n).tstat.getD d.pos {}).copied = 0xFFFF ∧ ((t.sheet n).tstat.getD d.pos {}).zeroised = false ∧
      (∀ m, m ≠ n.val → t.sheet m = s.sheet m) ∧ t.ctxs = s.ctxs ∧ SameMemory s t ∧ SameManagement s t) ∧
  (d.phase = .couchIn → d.couched = none → d.target ≠ none → (s.holderOfSheet n).isSome = false → d.inStep = false → d.catching = none →
    (s.sheet n).mostDirty ≤ 33952 →
    Answers (.couchInDone n) s fun t => (t.sheet n).dwell = some { d with
        couched := some s.clk.life, words := 65536, catching := some (s.clk.life + 1 + (2048 + (s.sheet n).mostDirty)) } ∧
      t.ctxs = s.ctxs ∧ SameMemory s t ∧ SameManagement s t) ∧
  (d.phase ≠ .couchIn ∨ d.couched ≠ none ∨ d.target = none → Makes (.couchInDone n) s s) ∧
  (∀ evs, d.kind ≠ .inspect → d.inStep = false ∨ s.clk.life < d.start + 172800000 → Makes (.spareMove ⟨n, evs⟩) s s) ∧
  (∀ row diff temp mv act, s.holderOfSheet n = none → (s.sheet n).shadowed = some d → d.start + 172800000 ≤ s.clk.life →
    d.kind = .sweep → (s.sheet n).firstSteer = none →
    Answers (.spareMove ⟨n, [.shadowWm n row diff temp mv act]⟩) s fun t =>
      (t.sheet n).counters.getD 0x0C03 0 = ((s.sheet n).counters.getD 0x0C03 0 + 1) % 2 ^ 48 ∧ t.dram = s.dram ∧ t.pool = s.pool ∧
      SameManagement s t) ∧
  (∀ evs col p, evs = [] ∨ s.holderOfSheet n ≠ none → d.kind = .sweep → d.inStep = true → d.start + 172800000 ≤ s.clk.life →
    (s.sheet n).firstSteer = some (col, p) → s.canInstall n .mapReload = true →
    Answers (.spareMove ⟨n, evs⟩) s fun t => (t.sheet n).dwell = none ∧ (t.sheet n).dwellDue = some (.steered col 0) ∧ t.dram = s.dram ∧
      t.pool = s.pool ∧ t.pts = s.pts ∧ SameManagement s t) ∧
  (∀ evs b p down, evs = [] ∨ s.holderOfSheet n ≠ none → d.kind = .sweep → d.inStep = true → d.start + 172800000 ≤ s.clk.life →
    (s.sheet n).firstSteer = none →
    b = (match s.holderOfSheet n with
      | some c => !(s.ctx c).commitHold
      | none => false) →
    (∀ k, s.plan n b = (p, down, k) → s.canInstall n k = false → Makes (.spareMove ⟨n, evs⟩) s s) ∧
    (s.plan n b = (p, down, .plain) → s.canInstall n .plain = true → d.mismatched = false ∨ s.holderOfSheet n = none → d.tphys = some p →
      (s.sheet n).health = 0 → (s.sheet n).legal p = true → (s.sheet n).stand = some 17 ∨ (s.sheet n).ns ≠ [] →
      Answers (.spareMove ⟨n, evs⟩) s fun t => (t.sheet n).rove = some p ∧ (t.sheet n).down = down ∧ (t.sheet n).dwell = none ∧
        (t.sheet n).dwellDue = some .sweep ∧ (∀ m, m ≠ n.val → t.sheet m = s.sheet m) ∧ t.ctxs = s.ctxs ∧ t.dram = s.dram ∧ t.pool = s.pool ∧
        t.pts = s.pts ∧ SameManagement s t) ∧
    (s.plan n b = (p, down, .labelSwap) → s.canInstall n .labelSwap = true → p = 16 ∨ p = 17 → (s.sheet n).ns = [] →
      (s.sheet n).linkFail = false →
      Answers (.spareMove ⟨n, evs⟩) s fun t => (t.sheet n).rove = some p ∧ (t.sheet n).stand = some (33 - p) ∧ (t.sheet n).down = down ∧
        (t.sheet n).dwell = none ∧ (t.sheet n).dwellDue = some .sweep ∧ t.tiles = s.tiles ∧ t.ctxs = s.ctxs ∧ SameMemory s t ∧
        SameManagement s t)) ∧
  (∀ evs col k m, evs = [] ∨ s.holderOfSheet n ≠ none → d.kind = .steered col k → d.inStep = true → d.start + 172800000 ≤ s.clk.life →
    s.canInstall n .mapReload = true → m = (if d.against then 0 else k + 1) →
    Answers (.spareMove ⟨n, evs⟩) s fun t => (t.sheet n).counters.getD 0x0C05 0 = ((s.sheet n).counters.getD 0x0C05 0 + 1) % 2 ^ 48 ∧
      (m < 10 → (t.sheet n).dwell = none ∧ (t.sheet n).dwellDue = some (.steered col m) ∧ (t.sheet n).watched = (s.sheet n).watched) ∧
      (10 ≤ m → col ∉ (t.sheet n).watched) ∧ t.dram = s.dram ∧ t.pool = s.pool ∧ t.pts = s.pts ∧ SameManagement s t) ∧
  (∀ evs, evs = [] ∨ s.holderOfSheet n ≠ none → d.kind = .inspect →
    (d.phase ≠ .idle ∨ s.canInstall n .mapReload = false → Makes (.spareMove ⟨n, evs⟩) s s) ∧
    (∀ col p, d.phase = .idle → s.canInstall n .mapReload = true → (s.sheet n).firstSteer = some (col, p) →
      Answers (.spareMove ⟨n, evs⟩) s fun t => (t.sheet n).dwell = none ∧ (t.sheet n).dwellDue = some (.steered col 0) ∧ t.dram = s.dram ∧
        t.pool = s.pool ∧ t.pts = s.pts ∧ SameManagement s t))

/-- The replica decision at a calender point, once every peer has reported or REPLICA_WAIT_US have passed: rollback when the step
has a fault or a report says rollback, when a region's watermark is missing or when a disagreeing region has no majority, the last
two with their records; commit when every region agrees; a member outside the majority first rebuilds its working copy from it,
within 100 ms, and commits only when the data match the majority's watermark. A member of an active job votes so; any other context
carries the outcome out. A context that does not wait for reports is left alone (R484–R488, R501). -/
def Obligations.ReplicaDecision : Prop := ∀ (s : State) (c : Ctx), Shaped s → 3 < s.start.stage →
  (s.replicaWaits c = none → (∀ l, Makes (.replicaReportsGathered c l) s s) ∧ (∀ d b, Makes (.replicaRebuildDone c d b) s s) ∧
    Makes (.replicaRebuildTimeout c) s s) ∧
  (∀ k g a, s.replicaWaits c = some (k, g, a) →
    ((s.ctx c).replicaOk = none → Makes (.replicaRebuildTimeout c) s s ∧ ∀ d b, Makes (.replicaRebuildDone c d b) s s) ∧
    (∀ reports, s.clk.life < a + (s.ctx c).replicaLimit → (∃ m ∈ (s.ctx c).armed, m.heard (k.2.2 % max 1 m.copies) reports = false) →
      Makes (.replicaReportsGathered c reports) s s) ∧
    (∀ reports, s.activeJob c = none → (s.ctx c).replicaOk = none →
      a + (s.ctx c).replicaLimit ≤ s.clk.life ∨ (∀ m ∈ (s.ctx c).armed, m.heard (k.2.2 % max 1 m.copies) reports = true) →
      (s.ctx c).faults ≠ [] ∨ reports.any (·.rollback) = true →
      Makes (.replicaReportsGathered c reports) s ((s.waited c a).rollOrCommit c g false)) ∧
    (∀ j, s.activeJob c = some j → s.job? j.id = some j → j.childrenIn = false ∨ j.parent j.rank ≠ none →
    (∀ reports l, (s.ctx c).replicaOk = none →
      a + (s.ctx c).replicaLimit ≤ s.clk.life ∨ (∀ m ∈ (s.ctx c).armed, m.heard (k.2.2 % max 1 m.copies) reports = true) →
      l = (s.ctx c).armed.map (fun m => (m, m.wms (k.2.2 % max 1 m.copies) reports)) →
      ((s.ctx c).faults ≠ [] ∨ reports.any (·.rollback) = true → Answers (.replicaReportsGathered c reports) s fun t =>
        (∃ y, t.job? j.id = some y ∧ y.own = some 1) ∧ (t.ctx c).hold = .decide s.clk.life ∧ t.dram = s.dram ∧ t.pool = s.pool ∧
        SameManagement s t) ∧
      ((s.ctx c).faults = [] → reports.any (·.rollback) = false → (∃ e ∈ l, none ∈ e.2) →
        Answers (.replicaReportsGathered c reports) s fun t =>
        (∃ y, t.job? j.id = some y ∧ y.own = some 1) ∧ (∃ r ∈ t.logs.errs, r.cls = 0x010D) ∧
        (t.ctx c).counters.getD 0x0C12 0 = ((s.ctx c).counters.getD 0x0C12 0 + 1) % 2 ^ 48 ∧ t.dram = s.dram ∧ t.pool = s.pool ∧
        SameManagement s t) ∧
      ((s.ctx c).faults = [] → reports.any (·.rollback) = false → (∀ e ∈ l, none ∉ e.2 ∧ e.2.eraseDups.length ≤ 1) →
        Answers (.replicaReportsGathered c reports) s fun t => (∃ y, t.job? j.id = some y ∧ y.own = some 0) ∧ (t.ctx c).replicaOk = some true ∧
          (t.ctx c).counters.getD 0x0C10 0 = ((s.ctx c).counters.getD 0x0C10 0 + 1) % 2 ^ 48 ∧ t.dram = s.dram ∧ t.pool = s.pool ∧
          SameManagement s t) ∧
      ((s.ctx c).faults = [] → reports.any (·.rollback) = false → (∀ e ∈ l, none ∉ e.2) → (∃ e ∈ l, 1 < e.2.eraseDups.length) →
        (∀ e ∈ l, 1 < e.2.eraseDups.length → (majority e.1 e.2).isSome = true) →
        Answers (.replicaReportsGathered c reports) s fun t => (t.ctx c).replicaOk = some true ∧ (t.ctx c).hold = .decide s.clk.life ∧
          t.jobs = s.jobs ∧ t.dram = s.dram ∧ t.pool = s.pool ∧ t.logs = s.logs ∧ SameManagement s t) ∧
      ((s.ctx c).faults = [] → reports.any (·.rollback) = false → (∀ e ∈ l, none ∉ e.2) →
        (∃ e ∈ l, 1 < e.2.eraseDups.length ∧ (majority e.1 e.2).isSome = false) →
        Answers (.replicaReportsGathered c reports) s fun t => (∃ y, t.job? j.id = some y ∧ y.own = some 1) ∧
          (∃ r ∈ t.logs.errs, r.cls = 0x0501) ∧ (∃ r ∈ t.logs.errs, r.cls = 0x010E) ∧ t.dram = s.dram ∧ t.pool = s.pool ∧
          SameManagement s t)) ∧
    ((s.ctx c).replicaOk ≠ none →
      (∀ d, s.clk.life ≤ a + 180000000 → s.rebuilds c g = [] → Answers (.replicaRebuildDone c d true) s fun t =>
        (∃ y, t.job? j.id = some y ∧ y.own = some 0) ∧ t.dram = s.dram ∧ t.pool = s.pool ∧ SameManagement s t) ∧
      (∀ d al w b n x, s.clk.life ≤ a + 180000000 → s.rebuilds c g = [(w, b, n, x)] → (s.ctx c).alloc = some al →
        watermark (jobKeys k.1 k.2.1).1 (jobKeys k.1 k.2.1).2 (wmElems b (padTo n (d.take n))) = x →
        Answers (.replicaRebuildDone c d true) s fun t => (∃ y, t.job? j.id = some y ∧ y.own = some 0) ∧ (t.ctx c).proAgain = true ∧
          t.dram = writeCtx al s.dram w (padTo n (d.take n)) ∧
          (t.ctx c).counters.getD 0x0C11 0 = ((s.ctx c).counters.getD 0x0C11 0 + 1) % 2 ^ 48 ∧ t.pool = s.pool ∧ SameManagement s t) ∧
      (∀ d b, (s.clk.life ≤ a + 180000000 ∧ b = false ∧ s.rebuilds c g = []) ∨ a + 180000000 < s.clk.life →
        Answers (.replicaRebuildDone c d b) s fun t => (∃ y, t.job? j.id = some y ∧ y.own = some 1) ∧
        (∃ r ∈ t.logs.errs, r.cls = 0x010E) ∧ t.dram = s.dram ∧ t.pool = s.pool ∧ SameManagement s t) ∧
      (s.clk.life ≤ a + 180000000 → Makes (.replicaRebuildTimeout c) s s) ∧
      (a + 180000000 < s.clk.life → Answers (.replicaRebuildTimeout c) s fun t => (∃ y, t.job? j.id = some y ∧ y.own = some 1) ∧
        (∃ r ∈ t.logs.errs, r.cls = 0x010E) ∧ t.dram = s.dram ∧ t.pool = s.pool ∧ SameManagement s t))))

/-- Scan access from outside, in external test mode alone: a column's scan is enabled only while it is zeroised and isolated; a
refused request sets TRIP, is counted and logged; with no test mode nothing happens (R437, R621). An analogue check within its limit
only counts; beyond it, it is logged: an LPDDR5X channel is retrained at once with no context bound and else at the next partition
reset, and a fabric port retrains at once where no VC of it is bound (R455, R467, R535). Control cores and dies: a core whose
watchdog expires is logged and restarts; three expiries of it within 24 h mark it unusable, and two cores within 1 s restart
firmware. Without a heartbeat for 10 ms a control die is lost: CT0 takes host access with it, CT1 the sideband, the Reel and rolling
self-test (R27, R30, R457, R515, R516). -/
def Obligations.ScanPhyAndControl : Prop :=
  (∀ (s : State) (n : Sh) (pc : Pc) (x : TStat), Shaped s → 3 < s.start.stage → x = (s.sheet n).tstat.getD pc {} →
  (s.mgmt.testMode = false → ∀ b, Makes (.externalTestScanAccess n pc b) s s) ∧
  (s.mgmt.testMode = true → ∀ b, b = false ∨ (x.zeroised = true ∧ x.isolated = true) →
    Answers (.externalTestScanAccess n pc b) s fun t => (t.sheet n).tstat.getD pc {} = { x with scanEn := b } ∧ t.logs = s.logs ∧
      (∀ m, m ≠ n.val → t.sheet m = s.sheet m) ∧ t.ctxs = s.ctxs ∧ t.pts = s.pts ∧ SameMemory s t ∧ SameManagement s t) ∧
  (s.mgmt.testMode = true → x.zeroised = false ∨ x.isolated = false →
    Answers (.externalTestScanAccess n pc true) s fun t => (t.sheet n).tstat.getD pc {} = { x with scanEn := false, trip := true } ∧
      (t.sheet n).counters.getD 0x0B06 0 = ((s.sheet n).counters.getD 0x0B06 0 + 1) % 2 ^ 48 ∧ (∃ r ∈ t.logs.errs, r.cls = 0x0303) ∧
      (∀ m, m ≠ n.val → t.sheet m = s.sheet m) ∧ t.ctxs = s.ctxs ∧ t.pts = s.pts ∧ SameMemory s t ∧ SameManagement s t)) ∧
  (∀ (s : State) (b : Bool), Shaped s → 3 < s.start.stage →
  (∀ (ch : Ch) p, p = ptOfChan ch →
    ((s.chan ch).broke = true → Makes (.phyCheck (.channel ch) b) s s) ∧
    ((s.chan ch).broke = false → Makes (.phyCheck (.channel ch) false) s (s.modPt p fun x => { x with phyChecks := (x.phyChecks + 1) % 2 ^ 48 })) ∧
    ((s.chan ch).broke = false → Answers (.phyCheck (.channel ch) true) s fun t =>
      (t.pt p).phyChecks = ((s.pt p).phyChecks + 1) % 2 ^ 48 ∧ (t.pt p).phyWarn = ((s.pt p).phyWarn + 1) % 2 ^ 48 ∧
      (t.chan ch).retrain = (s.holder p).isSome ∧ (∃ r ∈ t.logs.errs, r.cls = 0x0309) ∧ SameMemory s t ∧ SameManagement s t)) ∧
  (∀ (p : Port) (lane : Fin 4), Makes (.phyCheck (.fabric p lane) false) s s) ∧
  (∀ (p : Port) (lane : Fin 4), (s.port p).broke.getLsbD lane = false → (s.port p).excess.get? lane = none →
    Answers (.phyCheck (.fabric p lane) true) s fun t => (t.port p).excess.get? lane = some (s.clk.life, false) ∧ (t.port p).retrain = true ∧
      (t.port p).st = (if (s.port p).groups.all (· = 0) = true ∧ (s.port p).st = .up then .training else (s.port p).st) ∧
      (∃ r ∈ t.logs.errs, r.cls = 0x0309) ∧ (∀ q, q ≠ p.val → t.port q = s.port q) ∧ t.ctxs = s.ctxs ∧ SameMemory s t ∧ SameManagement s t) ∧
  (∀ lane, Makes (.phyCheck (.cxl lane) false) s s) ∧
  (∀ lane, Answers (.phyCheck (.cxl lane) true) s fun t => (∃ r ∈ t.logs.errs, r.cls = 0x0309) ∧ t.ctxs = s.ctxs ∧ t.ports = s.ports ∧
    SameMemory s t ∧ SameManagement s t)) ∧
  (∀ (s : State), Shaped s → 3 < s.start.stage →
  (∀ (k : Fin 16), s.dies.lost (k.val / 8) = true ∨ k.val ∈ s.dies.coreOff ∨ k.val ∈ s.dies.coreDown → Makes (.coreWatchdogExpired k) s s) ∧
  (∀ (k : Fin 16), s.dies.lost (k.val / 8) = false → k.val ∉ s.dies.coreOff → k.val ∉ s.dies.coreDown →
    (s.dies.expiries = [] → Answers (.coreWatchdogExpired k) s fun t => t.dies.coreDown = s.dies.coreDown ++ [k.val] ∧
      t.dies.expiries = [(k.val, s.clk.life)] ∧ t.dies.coreOff = s.dies.coreOff ∧ (∃ r ∈ t.logs.errs, r.cls = 0x0306) ∧ t.mgmt = s.mgmt ∧
      t.host.fwReady = s.host.fwReady ∧ t.dram = s.dram ∧ t.pool = s.pool) ∧
    (∀ a b, s.dies.expiries = [(k.val, a), (k.val, b)] → s.clk.life < a + 24 * 3600 * cycPerSec → s.clk.life < b + 24 * 3600 * cycPerSec →
      Answers (.coreWatchdogExpired k) s fun t => t.dies.coreOff = s.dies.coreOff ++ [k.val] ∧ (∃ r ∈ t.logs.errs, r.cls = 0x0307) ∧
        t.mgmt = s.mgmt ∧ t.dram = s.dram ∧ t.pool = s.pool) ∧
    (∀ j a, s.dies.expiries = [(j, a)] → j ≠ k.val → s.clk.life ≤ a + cycPerSec → s.mgmt.restart = none →
      Answers (.coreWatchdogExpired k) s fun t => t.mgmt.restart = some none ∧ t.host.fwReady = false ∧ (∃ r ∈ t.logs.errs, r.cls = 0x0504) ∧
        t.dies.coreDown = s.dies.coreDown ++ [k.val] ∧ t.dram = s.dram ∧ t.pool = s.pool)) ∧
  (∀ (k : Fin 16), Makes (.controlCoreRestartDone k) s { s with dies := { s.dies with coreDown := s.dies.coreDown.filter (· ≠ k.val) } }) ∧
  (s.dies.ct0Lost = false → s.dies.ct1Lost = false → Makes .controlDieHeartbeat s { s with dies := { s.dies with beat := s.clk.life } }) ∧
  (s.dies.ct0Lost = true ∨ s.dies.ct1Lost = true → Makes .controlDieHeartbeat s s ∧ ∀ d, Makes (.controlDieLost d) s s) ∧
  (s.clk.life < s.dies.beat + cycPerSec / 100 → ∀ d, Makes (.controlDieLost d) s s) ∧
  (s.dies.ct0Lost = false → s.dies.ct1Lost = false → s.dies.beat + cycPerSec / 100 ≤ s.clk.life →
    Answers (.controlDieLost 0) s (fun t => t.dies.ct0Lost = true ∧ t.host.linkUp = false ∧ t.host.owner ≠ .host ∧
      (∃ r ∈ t.logs.errs, r.cls = 0x0308) ∧ t.ctxs = s.ctxs ∧ t.side = s.side ∧ SameMemory s t ∧ SameManagement s t) ∧
    Answers (.controlDieLost 1) s (fun t => t.dies.ct1Lost = true ∧ t.side = {} ∧ t.reel.st = .absent ∧ t.dumping = none ∧
      (∀ n, n < 24 → (t.sheet n).dwell = none ∧ (t.sheet n).dwellDue = none) ∧ (∃ r ∈ t.logs.errs, r.cls = 0x0308) ∧
      t.host.linkUp = s.host.linkUp ∧ (s.dumping = none → s.reel.access = [] → t.tiles = s.tiles))))

/-- A limiter sample, one each 100 µs, above 2,300 W or above its 1,900 W limit for too long raises L by 1, as does a second of
samples whose average is above POWER_CAP_W, to at most 7; 10 ms without either lower it; a rise from 0 is logged. New levels reach
every partition at a frame number that is a multiple of 8, at least 64 frames ahead (R680–R682, R691, R692). Temperatures, sampled
each 2^16 cycles: a tile at 115 °C trips its partition, which stops at once, Off, its context FAULTED; a partition with a tile at
105 °C or above throughout 1 ms raises its thermal level, one with every tile at 100 °C or below for 10 ms lowers it; a deckle or
control die at 115 °C shuts the module down into M3. THERMTRIP_N stays asserted (R685–R689; log entry 36). -/
def Obligations.LimiterAndTemperatures : Prop :=
  (∀ (s : State), Shaped s →
  (∀ x, s.start.aux = false ∨ (∃ t, s.dies.powerAt = some t ∧ s.clk.life < t + cycPerSec / 10000) → Makes (.powerLimiterSample x) s s) ∧
  (∀ (x : PowerSample) up l full, s.start.aux = true → (∀ t, s.dies.powerAt = some t → t + cycPerSec / 10000 ≤ s.clk.life) →
    full = decide (s.dies.second.1 + 1 = 10000) →
    up = (if 2300 < x.avg ∨ x.overLimit = true then 1 else 0) +
      (if full = true ∧ 10000 * s.settingNat 0x20 < s.dies.second.2 + x.avg then 1 else 0) →
    l = (if up = 0 ∧ s.dies.limAt + cycPerSec / 100 ≤ s.clk.life then s.dies.limL - 1 else min 7 (s.dies.limL + up)) →
    Answers (.powerLimiterSample x) s fun t => t.dies.limL = l ∧ t.dies.powerW = x.avg ∧ t.dies.energy = s.dies.energy + x.avg ∧
      t.dies.powerAt = some s.clk.life ∧
      t.dies.second = (if full then (0, 0) else (s.dies.second.1 + 1, s.dies.second.2 + x.avg)) ∧
      (∀ p w, p < 8 → w = ((s.pt p).lvlPend.map fun y => (y.1, y.2.1)).getD ((s.pt p).lvlL, (s.pt p).lvlT) →
        (w = (l, s.dies.thermT.getD p 0) → t.pt p = s.pt p) ∧
        (w ≠ (l, s.dies.thermT.getD p 0) → t.pt p = { s.pt p with
          lvlL := ((s.pt p).levels s.clk.life).1, lvlT := ((s.pt p).levels s.clk.life).2
          lvlPend := some (l, s.dies.thermT.getD p 0, s.levelFrame) })) ∧
      (s.dies.limL = 0 → 0 < l → 3 < s.start.stage → ∃ r ∈ t.logs.errs, r.cls = 0x040E) ∧
      (s.dies.limL ≠ 0 ∨ l = 0 → t.logs = s.logs) ∧ t.ctxs = s.ctxs ∧ SameMemory s t ∧ SameManagement s t) ∧
  (∃ f, s.levelFrame + s.cyc = s.clk.life + 32 * f ∧ f % 8 = 0 ∧ s.cyc / 32 + 64 ≤ f) ∧
  (∀ (p : Pt) l k a, s.holder p = none → (s.pt p).lvlPend = some (l, k, a) →
    (a ≤ s.clk.life → Makes (.limitLevelApply p) s (s.modPt p fun x => { x with lvlL := l, lvlT := k, lvlPend := none })) ∧
    (s.clk.life < a → Makes (.limitLevelApply p) s s)) ∧
  (∀ (p : Pt) c, s.holder p = some c → (s.ctx c).held.Nodup →
    Answers (.limitLevelApply p) s fun t => (∀ q, q < 8 → t.pt q = match (s.pt q).lvlPend with
        | some (l, k, a) => if q ∈ (s.ctx c).held ∧ a ≤ s.clk.life then { s.pt q with lvlL := l, lvlT := k, lvlPend := none } else s.pt q
        | none => s.pt q) ∧ t.ctxs = s.ctxs ∧ SameMemory s t ∧ SameManagement s t)) ∧
  (∀ (s : State), Shaped s → 3 < s.start.stage →
  (∀ xs, s.start.aux = false ∨ (∃ t, s.dies.tempAt = some t ∧ s.clk.life < t + 2 ^ 16) → Makes (.thermalSample xs) s s) ∧
  ((∀ t, s.dies.tempAt = some t → t + 2 ^ 16 ≤ s.clk.life) → s.start.aux = true →
  (∀ (x : PTile) deg p m, p = ptOfSheet x.sh → (s.pt p).pwr ≠ .off → s.dies.thermT.length = 8 →
    m = (s.pt p).temps.set (tileIx x.sh x.pc x.row) deg →
    (115 ≤ deg → Answers (.thermalSample [.tile x deg]) s fun t => (t.pt p).pwr = .off ∧ (t.pt p).tripAt = some s.clk.life ∧
      (t.pt p).en = false ∧ (∃ r ∈ t.logs.errs, r.cls = 0x0507) ∧
      (∀ c, s.holder p = some c → (s.ctx c).st = .running → (t.ctx c).st = .faulted ∧ (t.ctx c).run = none) ∧
      (∀ i, ptOfSheet (i / 288) = p → t.tile i = {}) ∧ t.dram = s.dram ∧ t.pool = s.pool ∧ t.ident = s.ident) ∧
    (deg < 115 → Answers (.thermalSample [.tile x deg]) s fun t => (t.pt p).temps = m ∧ (t.pt p).pwr = (s.pt p).pwr ∧
      t.ctxs = s.ctxs ∧ SameMemory s t ∧ SameManagement s t ∧
      ((∃ e ∈ m, 105 ≤ e.2) → (∃ h, (s.pt p).hotAt = some h ∧ h + cycPerSec / 1000 ≤ s.clk.life) →
        t.dies.thermT.getD p 0 = min 7 (s.dies.thermT.getD p 0 + 1) ∧ (s.dies.thermT.getD p 0 = 0 → ∃ r ∈ t.logs.errs, r.cls = 0x040D)) ∧
      ((∃ e ∈ m, 105 ≤ e.2) → (∀ h, (s.pt p).hotAt = some h → s.clk.life < h + cycPerSec / 1000) →
        t.dies.thermT.getD p 0 = s.dies.thermT.getD p 0 ∧ (t.pt p).hotAt = some ((s.pt p).hotAt.getD s.clk.life)) ∧
      ((∀ e ∈ m, e.2 ≤ 100) → (∃ h, (s.pt p).coolAt = some h ∧ h + cycPerSec / 100 ≤ s.clk.life) →
        t.dies.thermT.getD p 0 = s.dies.thermT.getD p 0 - 1))) ∧
  (∀ (code : Byte) deg, (0x20 ≤ code.toNat ∧ code.toNat ≤ 0x25) ∨ code.toNat = 0x30 ∨ code.toNat = 0x31 → s.start.pwr ≠ .m3 →
    s.start.vsoc = true →
    (deg < 115 → Answers (.thermalSample [.die code deg]) s fun t => t.dies.dieTemp.get? code.toNat = some deg ∧ t.start.pwr = s.start.pwr ∧
      t.ctxs = s.ctxs ∧ SameMemory s t ∧ SameManagement s t) ∧
    (115 ≤ deg → Answers (.thermalSample [.die code deg]) s fun t => t.start.pwr = .m3 ∧ t.start.vsoc = false ∧ t.host.linkUp = false ∧
      t.jobs = [] ∧ (∀ p, p < 8 → (t.pt p).pwr = .off) ∧ t.ident = s.ident))) ∧
  (s.start.aux = true → s.dies.thermtrip = false → Answers .thermtrip s fun t => t.dies.thermtrip = true ∧ .thermtrip ∈ t.outbox ∧
    t.ctxs = s.ctxs ∧ t.pts = s.pts ∧ SameMemory s t ∧ SameManagement s t) ∧
  (s.start.aux = false ∨ s.dies.thermtrip = true → Makes .thermtrip s s))

/-- Rails and partition power: AVS sets a new voltage of 550–800 mV in steps of 5 mV no sooner than 10 ms after the last and counts
the energy each 100 µs; a partition that for IDLE_ENTRY_US nothing has needed in Run goes to Idle; a PLL that does not lock marks it
FAULTED; a fall of its PG stops it, Off, with a record; a fall of VSOC's PG shuts the module down into M3 (R668, R669, R674, R684,
R692, R718). -/
def Obligations.RailsAndIdle : Prop := ∀ (s : State) (p : Pt), Shaped s → 3 < s.start.stage →
  (∀ mv a b, s.dies.ct1Lost = true ∨ (s.pt p).en = false ∨ (s.pt p).pg = false ∨ s.start.stage < 4 → Makes (.avsUpdate p mv a b) s s) ∧
  (∀ mv a b y ok, s.dies.ct1Lost = false → (s.pt p).en = true → (s.pt p).pg = true →
    y = (if (s.pt p).railAt.any (fun t => decide (s.clk.life < t + cycPerSec / 10000)) then s.pt p
      else { s.pt p with railMv := a, railMa := b, energy := (s.pt p).energy + a * b, railAt := some s.clk.life }) →
    ok = (decide ((s.pt p).pwr = .run ∨ (s.pt p).pwr = .idle) && decide (550 ≤ mv ∧ mv ≤ 800 ∧ mv % 5 = 0 ∧ mv ≠ (s.pt p).mv) &&
      decide ((s.pt p).mvAt = 0 ∨ (s.pt p).mvAt + cycPerSec / 100 ≤ s.clk.life)) →
    (ok = true → Answers (.avsUpdate p mv a b) s fun t => t.pt p = { y with mv := mv, mvAt := s.clk.life } ∧ .avs p mv ∈ t.outbox ∧
        (∀ q, q ≠ p.val → t.pt q = s.pt q) ∧ t.ctxs = s.ctxs ∧ SameMemory s t ∧ SameManagement s t) ∧
    (ok = false → Makes (.avsUpdate p mv a b) s (s.modPt p fun _ => y))) ∧
  (∀ n, n = s.settingNat 0x21 →
    ((s.pt p).pwr = .run → n ≠ 0 → (s.pt p).reset = none → s.needed p = false → (s.pt p).busyAt + usCyc n ≤ s.clk.life →
      Makes (.idleEntry p) s (s.modPt p fun x => { x with pwr := .idle })) ∧
    ((s.pt p).pwr ≠ .run ∨ n = 0 ∨ s.needed p = true ∨ s.clk.life < (s.pt p).busyAt + usCyc n → Makes (.idleEntry p) s s)) ∧
  ((s.pt p).pwr = .run → Answers (.pllLockTimeout p) s fun t => (t.pt p).faulted = true ∧ (t.pt p).pwr = .run ∧
    (∀ n ∈ sheetsOfPt p, (t.sheet n).dwell = none) ∧ (∀ q, q ≠ p.val → t.pt q = s.pt q) ∧ t.ctxs = s.ctxs ∧ SameMemory s t ∧
    SameManagement s t) ∧
  ((s.pt p).pwr ≠ .run → Makes (.pllLockTimeout p) s s) ∧
  (s.dies.thermtrip = false → (s.pt p).en = true → (s.pt p).pg = true →
    Answers (.vcorePgFall p) s fun t => (t.pt p).pwr = .off ∧ (t.pt p).pg = false ∧ (∃ r ∈ t.logs.errs, r.cls = 0x0509) ∧
      (∀ c, s.holder p = some c → (s.ctx c).st = .running → (t.ctx c).st = .faulted ∧ (t.ctx c).run = none) ∧
      (∀ k ∈ chansOfPt p, (t.chan k).selfRefresh = true) ∧ t.dram = s.dram ∧ t.pool = s.pool ∧ SameManagement s t) ∧
  (s.dies.thermtrip = false → (s.pt p).en = true → Makes (.vcorePgReturn p) s (s.modPt p fun x => { x with pg := true })) ∧
  (s.dies.thermtrip = true ∨ (s.pt p).en = false → Makes (.vcorePgReturn p) s s ∧ Makes (.vcorePgFall p) s s) ∧
  (s.dies.thermtrip = false → s.start.vsoc = true → s.start.pwr ≠ .m3 →
    Answers .vsocPgFall s fun t => t.start.pwr = .m3 ∧ t.start.vsoc = false ∧ t.host.linkUp = false ∧ t.host.fwReady = false ∧ t.jobs = [] ∧
      (∀ q, q < 8 → (t.pt q).pwr = .off) ∧ t.ident = s.ident) ∧
  (s.dies.thermtrip = true ∨ s.start.vsoc = false ∨ s.start.pwr = .m3 → Makes .vsocPgFall s s)

/-- Port and route commands of the host: PORT_STATUS reports a port, VC_BIND binds a VC pair of a port or of all to a group,
ROUTE_SET gives each address of its range its entry, PORT 0xFF leaving none, and no other address another, where the runs fit, and
ROUTE_GET reports entries; a wrong port, VC or group is an INVALID_ARG at its field (R537, R541, R542, R639). -/
def Obligations.PortCommands : Prop := ∀ (s : State) (p : Payload),
  (HostReady s → p.length = 1 →
    (arg p 0 1 ≤ 17 → ∀ x, x = s.port (arg p 0 1) →
      Replies (.portStatus p) s ok (fld 1 (arg p 0 1) ++ fld 1 (if x.eth then 1 else 0) ++ fld 1 (portStateCode x.st) ++
        fld 1 (x.lanes.toNat + 16 * x.broke.toNat) ++ fld 2 x.rate ++ fld 2 x.peer.toNat ++ fld 1 x.peerPort.toNat ++ rsvd 3 ++
        fld 4 (Config.symbolErrors s.clk.life (arg p 0 1)).toNat ++ (x.groups.map (fld 1)).flatten ++ (x.credits.map (fld 2)).flatten) s) ∧
    (17 < arg p 0 1 → ∃ bs, Replies (.portStatus p) s invalid bs s)) ∧
  (HostOwns s → p.length = 4 → arg p 3 1 = 0 → ∀ n vc g, n = arg p 0 1 → vc = arg p 1 1 → g = arg p 2 1 →
    (17 < n ∧ n ≠ 0xFF ∨ vc % 2 = 1 ∨ 12 < vc ∨ 0x3F < g → ∃ bs, Replies (.vcBind p) s invalid bs s) ∧
    (n ≤ 17 → vc % 2 = 0 → vc ≤ 12 → g ≤ 0x3F → s.pairInUse n vc = false →
      (g = 0 ∨ ∀ v, v < 16 → v / 2 ≠ vc / 2 → (s.port n).groups.getD v 0 ≠ g) →
      Replies (.vcBind p) s ok [] (s.modPort n fun x => { x with groups := (x.groups.set vc g).set (vc + 1) g })) ∧
    (n = 0xFF → vc % 2 = 0 → vc ≤ 12 → g = 0 → s.portModeBar = none → (∀ x, x < 18 → s.pairInUse x vc = false) →
      Replies (.vcBind p) s ok [] ((List.range 18).foldl (fun a q => a.modPort q fun x =>
        { x with groups := (x.groups.set vc 0).set (vc + 1) 0 }) s)) ∧
    (n ≤ 17 → vc % 2 = 0 → vc ≤ 12 → g ≤ 0x3F → s.pairInUse n vc = true → ∃ bs, Replies (.vcBind p) s conflict bs s)) ∧
  (HostOwns s → s.portModeBar = none → ∀ f n old cut, f = arg p 0 2 → n = arg p 2 2 → 1 ≤ n → n ≤ 2046 → p.length = 4 + 2 * n →
    f + n ≤ 0xFFFF →
    (∀ i, i < n → (arg p (4 + 2 * i) 2 % 256 ≤ 17 ∨ arg p (4 + 2 * i) 2 % 256 = 0xFF) ∧ arg p (4 + 2 * i) 2 / 256 ≤ 1) →
    old = routeRuns ((s.setting 0x11).length / 6) (s.setting 0x11) → (∀ r ∈ old, r.1 + r.2.1 ≤ 0xFFFF) → cut = cutRuns f n old →
    (joinRuns (cut.1 ++ ((List.range n).filterMap fun i =>
      if arg p (4 + 2 * i) 2 % 256 = 0xFF then none else some (f + i, 1, arg p (4 + 2 * i) 2)) ++ cut.2)).length ≤ 1024 →
    Answers (.routeSet p) s fun t => Reported s t ok [] ∧ SameMemory s t ∧ t.ident = s.ident ∧ t.start = s.start ∧ t.ports = s.ports ∧
      (∀ i, i < n → t.route (f + i) = if arg p (4 + 2 * i) 2 % 256 = 0xFF then 0xFF else arg p (4 + 2 * i) 2) ∧
      (∀ a, a < f ∨ f + n ≤ a → t.route a = s.route a)) ∧
  (HostReady s → p.length = 4 → arg p 0 2 + arg p 2 2 ≤ 0xFFFF → arg p 2 2 ≤ 2048 →
    Replies (.routeGet p) s ok ((List.range (arg p 2 2)).flatMap fun i => fld 2 (s.route (arg p 0 2 + i))) s)

/-- The fabric: a good packet for this module waits to be handled, one for another leaves on the port of its route with one hop
less, a bad one is discarded and counted, and one that has no hop left or no route is dropped and counted; codewords are counted;
credits returned release what waits; an Ethernet frame of this module's address and type carries a packet, but none of a type that
Ethernet mode has not; a training brings a port up at the width of its good lanes, with full credits (R534–R540, R543, R544, R548,
R549, R571). -/
def Obligations.PortTraffic : Prop := ∀ (s : State) (p : Port) (b : List Byte) (k : Packet), Shaped s → k = packetOf p b →
  ((s.port p).st ≠ .up ∨ s.fabAddr = 0xFFFF → ∀ f, Makes (.fabricPacketRx p b f) s s ∧ ∀ d e, Makes (.ethernetFrameRx p d e ⟨b, f⟩) s s) ∧
  ((s.port p).st = .up → (s.port p).eth = false → s.fabAddr ≠ 0xFFFF → (s.port p).ctr.length = 8 →
    (∀ f, f.uncorr = 0 → packetGood b = true → k.dst = s.fabAddr → k.typ ≠ 8 ∨ unle (k.payload.take 1) ≠ 1 →
      Answers (.fabricPacketRx p b f) s fun t => t.rxq = s.rxq ++ [k] ∧
      (t.port p).ctr.getD 1 0 = ((s.port p).ctr.getD 1 0 + 1) % 2 ^ 48 ∧
      (t.port p).ctr.getD 3 0 = ((s.port p).ctr.getD 3 0 + f.corr) % 2 ^ 48 ∧
      .creditReturned p ((b.getD 1 0).toNat % 16) (flitsOf b.length) ∈ t.outbox ∧ t.ctxs = s.ctxs ∧ (k.typ ≠ 8 → t.jobs = s.jobs) ∧ SameMemory s t ∧
      SameManagement s t) ∧
    (∀ f, f.uncorr ≠ 0 ∨ packetGood b = false → Answers (.fabricPacketRx p b f) s fun t => t.rxq = s.rxq ∧
      (t.port p).ctr.getD 2 0 = ((s.port p).ctr.getD 2 0 + 1) % 2 ^ 48 ∧
      (t.port p).ctr.getD 4 0 = ((s.port p).ctr.getD 4 0 + f.uncorr) % 2 ^ 48 ∧ t.ctxs = s.ctxs ∧
      t.jobs = s.jobs ∧ SameMemory s t ∧ SameManagement s t) ∧
    (∀ f q h, f.uncorr = 0 → packetGood b = true → k.dst ≠ s.fabAddr → q = s.route k.dst % 256 → (b.getD 3 0).toNat ≠ 0 → q ≤ 17 → (s.port q).st = .up →
      (s.port q).eth = false → s.route k.dst / 256 = 0 → (s.port q).txq = [] → flitsOf (36 + k.payload.length) ≤ (s.port q).credits.getD (k.vc % 16) 0 →
      h = ((b.take (32 + k.payload.length)).set 1 (BitVec.ofNat 8 k.vc)).set 3 (BitVec.ofNat 8 ((b.getD 3 0).toNat - 1)) →
      Answers (.fabricPacketRx p b f) s fun t => .packet q (h ++ le 4 (crc32c h)) ∈ t.outbox ∧ t.rxq = s.rxq ∧ t.ctxs = s.ctxs ∧
        t.jobs = s.jobs ∧ SameMemory s t ∧ SameManagement s t) ∧
    (∀ f q, f.uncorr = 0 → packetGood b = true → k.dst ≠ s.fabAddr → q = s.route k.dst % 256 →
      (b.getD 3 0).toNat = 0 ∨ 17 < q ∨ (s.port q).st ≠ .up ∨ (s.port q).eth = true →
      Answers (.fabricPacketRx p b f) s fun t => (t.port p).ctr.getD 6 0 = ((s.port p).ctr.getD 6 0 + 1) % 2 ^ 48 ∧ t.rxq = s.rxq ∧
        t.ctxs = s.ctxs ∧ t.jobs = s.jobs ∧ SameMemory s t ∧ SameManagement s t) ∧
    (∀ vc n, (s.port p).txq = [] →
      Makes (.creditReturn p vc n) s (s.modPort p fun x => { x with credits := x.credits.modify vc fun c => min 256 (c + n) })) ∧
    (∀ (vc : Fin 16) n w, (s.port p).txq = [w] → (w.getD 1 0).toNat % 16 = vc.val → (s.port p).credits.length = 16 →
      flitsOf w.length ≤ min 256 ((s.port p).credits.getD vc 0 + n) →
      Answers (.creditReturn p vc n) s fun t => .packet p w ∈ t.outbox ∧ (t.port p).txq = [] ∧
        (t.port p).credits.getD vc 0 = min 256 ((s.port p).credits.getD vc 0 + n) - flitsOf w.length ∧ t.ctxs = s.ctxs ∧ SameMemory s t ∧
        SameManagement s t)) ∧
  ((s.port p).st ≠ .up → ∀ vc n, Makes (.creditReturn p vc n) s s) ∧
  (∀ (d : BitVec 48) (e : W16) f, (s.port p).st = .up → (s.port p).eth = true → s.fabAddr ≠ 0xFFFF → (s.port p).ctr.length = 8 →
    (f.uncorr ≠ 0 → Answers (.ethernetFrameRx p d e ⟨b, f⟩) s fun t => t.rxq = s.rxq ∧
      (t.port p).ctr.getD 2 0 = ((s.port p).ctr.getD 2 0 + 1) % 2 ^ 48 ∧ t.ctxs = s.ctxs ∧ SameMemory s t ∧ SameManagement s t) ∧
    (f.uncorr = 0 → e.toNat = (s.port p).etherType → d.toNat = 0x020000000000 + s.fabAddr → packetGood b = true → k.typ < 3 →
      Makes (.ethernetFrameRx p d e ⟨b, f⟩) s (s.countFec p f)) ∧
    (f.uncorr = 0 → e.toNat = (s.port p).etherType → d.toNat = 0x020000000000 + s.fabAddr → packetGood b = true → 3 ≤ k.typ →
      k.typ ≠ 8 ∨ unle (k.payload.take 1) ≠ 1 → k.dst = s.fabAddr →
      Answers (.ethernetFrameRx p d e ⟨b, f⟩) s fun t => t.rxq = s.rxq ++ [k] ∧ (t.port p).ctr.getD 1 0 = ((s.port p).ctr.getD 1 0 + 1) % 2 ^ 48 ∧
        t.ctxs = s.ctxs ∧ SameMemory s t ∧ SameManagement s t) ∧
    (f.uncorr = 0 → e.toNat ≠ (s.port p).etherType ∨ d.toNat ≠ 0x020000000000 + s.fabAddr → Answers (.ethernetFrameRx p d e ⟨b, f⟩) s fun t => t.rxq = s.rxq ∧
      (t.port p).ctr.getD 6 0 = ((s.port p).ctr.getD 6 0 + 1) % 2 ^ 48 ∧ t.ctxs = s.ctxs ∧ SameMemory s t ∧ SameManagement s t)) ∧
  (∀ lanes peer k, (s.port p).st = .training ∨ ((s.port p).st = .down ∧ s.start.stage = 0xA ∧ s.start.pwr = .m0) → (∀ m ∈ s.mgmt.modes, m.mode = 2 → m.next ≠ some p) → (s.port p).broke = 0 →
    (s.port p).eth = false → (s.port p).txq = [] →
    (widthOf lanes ≠ 0 → Answers (.portTrained p lanes peer k) s fun t => (t.port p).st = .up ∧ (t.port p).lanes = widthOf lanes ∧
      (t.port p).peer = peer ∧ (t.port p).peerPort = k ∧ (t.port p).credits = List.replicate 16 256 ∧ t.ctxs = s.ctxs ∧ SameMemory s t ∧
      SameManagement s t) ∧
    (widthOf lanes = 0 → Answers (.portTrained p lanes peer k) s fun t => (t.port p).st = .failed ∧ (t.port p).lanes = 0 ∧
      (t.port p).credits = List.replicate 16 0 ∧ t.ctxs = s.ctxs ∧ SameMemory s t ∧ SameManagement s t)) ∧
  ((s.port p).st = .up ∨ (s.port p).st = .failed → ∀ lanes peer k, Makes (.portTrained p lanes peer k) s s)

/-- Erasure-coded state: EC_REFRESH of an active job with a group asks for a refresh at the next commit and waits for its
generation; EC_REBUILD writes the decoded shard to its range and no other byte, and ends in error when more than two of its group
are lost; a snapshot copy that is complete no longer holds the release; a generation whose parity is complete enters GEN_DONE (R593,
R594, R596–R598). -/
def Obligations.ErasureCodedState : Prop := ∀ (s : State) (c : Ctx) (q : Qn) (n : W32) (e : Entry) (k : Nat), Shaped s → k = qix 2 q →
  (s.entryAt c k n 0x21 = some e →
    ((∀ j ∈ s.jobs, j.id ≠ e.fld 0x18 8 ∨ j.ctx ≠ c.val) →
      Makes (.ecRefresh c q n) s (s.setOutcome c k n (failed notFound { arg := 0x18 }))) ∧
    (∀ j, s.jobs.find? (fun j => decide (j.id = e.fld 0x18 8 ∧ j.ctx = c.val)) = some j → (∀ w ∈ (s.ctx c).ecWaits, w.1 ≠ k ∨ w.2.1 ≠ n) →
      (j.st ≠ .active ∨ j.k = 0 → Makes (.ecRefresh c q n) s (s.setOutcome c k n (failed conflict (jobConflict j.st)))) ∧
      (j.st = .active → j.k ≠ 0 → Makes (.ecRefresh c q n) s
        ((s.modJob j.id fun y => { y with refreshDue := true }).modCtx c fun x => { x with ecWaits := x.ecWaits ++ [(k, n, j.gen + 1)] })))) ∧
  (∀ j al a len r, s.entryAt c k n 0x22 = some e → s.jobs.find? (fun j => decide (j.id = e.fld 0x18 8 ∧ j.ctx = c.val)) = some j →
    a = e.fld 0x28 8 → len = j.shardLen → r = e.fld 0x20 2 → r < j.nmod → s.locInvalid c 1 a len = false → j.st = .active ∨ j.st = .broken →
    j.k ≠ 0 → j.protGen ≠ 2 ^ 64 - 1 → s.locConflict c 1 a len true = none → s.dies.ecOff.length ≠ 6 → (s.ctx c).alloc = some al → s.dram.wf = true →
    (2 < ((j.groupOf r).filter fun x => j.lost.contains x).length →
      ∀ d, Makes (.ecRebuild c q n d) s (s.setOutcome c k n (failed integrity))) ∧
    (((j.groupOf r).filter fun x => j.lost.contains x).length ≤ 2 →
      (∀ d, d.length = len → Answers (.ecRebuild c q n (.data d)) s fun t => Ended t c k n { status := ok } ∧ t.dram = writeCtx al s.dram a d ∧
        (∀ x, (∀ i, i < d.length → x ≠ ctxMpa al (a + i)) → t.dram.get x = s.dram.get x) ∧
        (t.ctx c).counters.getD 0x0D25 0 = ((s.ctx c).counters.getD 0x0D25 0 + len) % 2 ^ 48 ∧ t.tiles = s.tiles ∧ t.pool = s.pool ∧
        t.jobs = s.jobs ∧ SameManagement s t) ∧
      Makes (.ecRebuild c q n .error) s (s.setOutcome c k n (failed integrity)))) ∧
  (∀ (id : W64) j, s.job? id.toNat = some j → j.ctx < 64 →
    (j.copying = false → Makes (.snapshotCopyComplete id) s s) ∧
    (j.copying = true → Answers (.snapshotCopyComplete id) s fun t => (∃ y, t.job? id.toNat = some y ∧ y.copying = false ∧ y.gen = j.gen) ∧
      (t.ctx j.ctx).snapWait = false ∧ t.dram = s.dram ∧ t.pool = s.pool ∧ t.pts = s.pts ∧ SameManagement s t) ∧
    (j.k = 0 ∨ j.copying = true ∨ j.genDone = j.gen ∨ j.parityDone j.gen = false → Makes (.ecGenerationComplete id) s s) ∧
    (j.k ≠ 0 → j.copying = false → j.genDone ≠ j.gen → j.parityDone j.gen = true →
      j.setup = false ∨ j.own ≠ none ∨ (s.ctx j.ctx).active = true →
      Makes (.ecGenerationComplete id) s ((s.modJob id.toNat fun y => { y with genDone := y.gen }).ctxCount j.ctx 0x0D23 1)))

/-- Check-engine entries: WATERMARK ends with the digest of its range under the job's keys, written to its 16 bytes of LPDDR5X or
host memory too, or in error when a word of the range is bad; REPLICA_CHECK arms the comparison of a DOUBLE region that the program
writes once a period, one that is armed already taking the new COPIES, else ends INVALID_ARG. The bits that have changed in the
arrays come with the command (R232, R270, R350, R477–R481, R489). -/
def Obligations.CheckEngine : Prop := ∀ (s : State) (c : Ctx) (q : Qn) (n : W32) (e : Entry) (k : Nat), Shaped s → k = qix 3 q →
  (∀ flips u al a len b d dk, u = s.decay flips → s.entryAt c k n 0x30 = some e → a = e.fld 0x18 8 → len = e.fld 0x20 8 → b = e.fld 0x38 8 →
    dk = e.fld 0x30 1 → dk ≤ 1 → a % 8 = 0 → len % 8 = 0 → s.locInvalid c 1 a len = false → s.locInvalid c dk b 16 = false →
    s.locConflict c dk b 16 true = none → s.locWaits c 1 a len = false → s.locWaits c dk b 16 = false → (s.ctx c).alloc = some al →
    d = le 16 (watermark (jobKeys (s.jobIdOf c) (e.fld 0x28 4)).1 (jobKeys (s.jobIdOf c) (e.fld 0x28 4)).2
      (wmElems (a / 8) (s.ctxRead c a len))).toNat →
    ((∀ x ∈ u.rangeErrs c a len, x.2.2 = .corrected) → dk = 1 → s.dram.wf = true → Answers (.watermark c q n flips) s fun t =>
      Ended t c k n { status := ok, detail := d } ∧
      t.dram = writeCtx al s.dram b d ∧ (∀ x, (∀ i, i < 16 → x ≠ ctxMpa al (b + i)) → t.dram.get x = s.dram.get x) ∧ t.tiles = s.tiles ∧
      t.pool = s.pool ∧ t.pts = s.pts ∧ SameManagement s t) ∧
    ((∀ x ∈ u.rangeErrs c a len, x.2.2 = .corrected) → dk = 0 → Answers (.watermark c q n flips) s fun t =>
      Ended t c k n { status := ok, detail := d } ∧ .hostWrite b d ∈ t.outbox ∧ SameMemory s t ∧ t.pts = s.pts ∧ SameManagement s t) ∧
    ((∃ x ∈ u.rangeErrs c a len, x.2.2 ≠ .corrected) → (∀ z ∈ (s.ctx c).stops, z.1 < 4) → (∀ r, (s.ctx c).run = some r → r.q < 4) →
      Answers (.watermark c q n flips) s fun t => Ended t c k n (failed integrity) ∧ SameMemory s t ∧ SameManagement s t)) ∧
  (s.entryAt c k n 0x31 = some e → (∀ a ∈ (s.ctx c).armed, (k, n) ∉ a.entries) →
    (∀ g j al r m, (s.ctx c).prog = some g → s.jobOfCtx c = some j → (s.ctx c).alloc = some al → r = e.fld 0x18 1 → m = e.fld 0x19 1 → 2 ≤ m → m ≤ 8 →
      (s.ctx c).st = .placed ∨ (s.ctx c).st = .running → s.unitOf (e.fld 0x20 4) = some (.job j.serial) → j.nmod % m = 0 → r < g.regions.length →
      (g.regions.getD r ⟨0, 0, 0, false⟩).double = true → regionWrittenOnce g al r = true →
      ((∀ a ∈ (s.ctx c).armed, a.region ≠ r) → Makes (.replicaCheck c q n) s (s.modCtx c fun y => { y with
        armed := y.armed ++ [⟨r, m, e.fld 0x20 4, [(k, n)], false, 0, 0, none⟩] })) ∧
      ((∃ a ∈ (s.ctx c).armed, a.region = r) → Makes (.replicaCheck c q n) s (s.modCtx c fun y => { y with
        armed := y.armed.map fun a =>
          if a.region = r then { a with copies := m, group := e.fld 0x20 4, entries := a.entries ++ [(k, n)] } else a }))) ∧
    (e.fld 0x19 1 < 2 ∨ 8 < e.fld 0x19 1 ∨ (s.ctx c).prog = none ∨ s.jobOfCtx c = none →
      Makes (.replicaCheck c q n) s (s.setOutcome c k n (failed invalid { extra := e.fld 0x18 1 }))))

/-- Collectives as commands: COLL_STATUS reports an installed collective; COLLECTIVE installs a descriptor that passes every check,
in place of one with its ID, and ends, or with ONCE begins its one occurrence when there is room, which ends it, or in error where
its own input is bad; a field out of range ends it INVALID_ARG with the field's offset (R550, R551, R554, R568). -/
def Obligations.CollectiveCommands : Prop := ∀ (s : State), Shaped s →
  (∀ (p : Payload) c, HostReady s → p.length = 4 → arg p 1 1 = 0 → c = arg p 0 1 → c < 64 → (s.ctx c).st ≠ .free →
    (∀ d, s.coll? c (arg p 2 2) = some d →
      Replies (.collStatus p) s ok (fld 4 d.id ++ fld 1 (if d.faulted then 2 else if d.running.isSome then 1 else 0) ++ fld 1 d.edges.length ++
        fld 1 (if d.flip then 1 else 0) ++ rsvd 1 ++ fld 8 d.occ ++ (d.edges.map Edge.record).flatten) s) ∧
    (s.coll? c (arg p 2 2) = none → ∃ bs, Replies (.collStatus p) s notFound bs s)) ∧
  (∀ (c : Ctx) (q : Qn) (n : W32) e k d0 d al, k = qix 2 q → s.entryAt c k n 0x20 = some e → (∀ y ∈ (s.ctx c).colls, y.once ≠ some (k, n)) →
    e.fld 0x18 4 ≤ 1023 → s.locInvalid c 1 (e.fld 0x20 8) 128 = false → (s.ctx c).alloc = some al →
    d0 = ({ id := e.fld 0x18 4, desc := s.ctxRead c (e.fld 0x20 8) 128, edges := [] } : Coll) →
    d = ({ d0 with edges := d0.newEdges, nipWait := s.settingNat 0x09, occ := ((s.ctx c).prog.map fun g =>
      if d0.isOnce then 0 else occBefore g.calPeriod d0.start (s.ctx c).sched).getD 0 } : Coll) →
    ((s.ctx c).st = .running → Makes (.collective c q n) s (s.setOutcome c k n (stateFailed .running))) ∧
    (∀ o, (s.ctx c).st ≠ .running → d.badField ((s.ctx c).prog.map (·.calPeriod)) = some o →
      Makes (.collective c q n) s (s.setOutcome c k n (failed invalid { arg := 0x20, extra := o }))) ∧
    ((s.ctx c).st ≠ .running → d.badField ((s.ctx c).prog.map (·.calPeriod)) = none →
      (∀ y ∈ d.areas, s.locInvalid c 1 y.2.1 y.2.2 = false ∧ touchesRegion (s.ctx c) y.2.1 y.2.2 = false) →
      (∀ y ∈ d.edges, s.edgePort y.peer ≤ 17 ∧ d.fld 1 1 ∈ (s.port (s.edgePort y.peer)).groups ∧
        (d.reduces = true → (s.port (s.edgePort y.peer)).eth = false)) →
      (∀ y ∈ (s.ctx c).colls, y.id = d.id → y.running = none) → (∀ m ∈ s.mgmt.modes, m.mode ≠ 2) →
      ((s.ctx c).colls.filter fun y => decide (y.id ≠ d.id)).length < 256 → s.dies.nipOff.length ≠ 6 →
      (d.isOnce = false → Makes (.collective c q n) s ((s.modCtx c fun y => { y with
        colls := ((s.ctx c).colls.filter fun y => decide (y.id ≠ d.id)) ++ [d] }).setOutcome c k n { status := ok })) ∧
      (d.isOnce = true → (s.ctx c).st = .bound ∨ (s.ctx c).st = .placed →
        Answers (.collective c q n) s fun t => (∃ y, t.coll? c d.id = some y ∧ y.desc = d.desc ∧ (d.reduces = false → y.once = some (k, n))) ∧
          (∀ x, x ≠ c.val → t.ctx x = s.ctx x) ∧ (d.reduces = false → SameMemory s t) ∧ t.tiles = s.tiles ∧ t.pool = s.pool ∧
          SameManagement s t))) ∧
  (∀ (c : Ctx) (q : Qn) (n : W32) e d, s.entryAt c (qix 2 q) n 0x20 = some e →
    (s.ctx c).colls.find? (fun d => decide (d.once = some (qix 2 q, n))) = some d →
    (d.running ≠ none → s.coll? c d.id = some d → Makes (.collective c q n) s s) ∧ Makes (.collective c q n) s (s.startOcc c d.id (d.occ + 1)))

/-- Occurrences: the next begins at its start with the step and attempt it belongs to, if a home nip has room; it completes when all
its packets have been handled and no digest is outstanding; a first expiry of a nip's timer asks for the packet again, a second is a
step fault (R552–R556, R564–R567, R570). -/
def Obligations.CollectiveOccurrences : Prop := ∀ (s : State) (c : Ctx) (id : W32) (d : Coll), Shaped s → 3 < s.start.stage →
  s.coll? c id.toNat = some d →
  ((s.ctx c).prog = none → Makes (.collectiveOccurrenceStart c id) s s) ∧
  (∀ g, (s.ctx c).prog = some g →
    (d.isOnce = true ∨ (s.ctx c).active = false ∨ (∃ j, s.jobOfCtx c = some j ∧ j.st ≠ .active) ∨
      occBefore g.calPeriod d.start ((s.ctx c).sched + 1) ≤ d.occ ∨ (s.homeNip d).1 = none ∨ d.running ≠ none ∨ d.faulted = true ∨
      64 ≤ ((s.ctx c).colls.filter (·.running.isSome)).length ∨ (∃ die, (s.homeNip d).1 = some die ∧ 2 ^ 25 < s.bufferUse die + d.window * 4160) →
      Makes (.collectiveOccurrenceStart c id) s s) ∧
    (∀ die own, d.isOnce = false → (s.ctx c).active = true → (∀ j, s.jobOfCtx c = some j → j.st = .active) →
      d.occ < occBefore g.calPeriod d.start ((s.ctx c).sched + 1) → s.homeNip d = (some die, own) → d.running = none → d.faulted = false → d.once = none →
      ((s.ctx c).colls.filter (·.running.isSome)).length < 64 → s.bufferUse die + d.window * 4160 ≤ 2 ^ 25 →
      Answers (.collectiveOccurrenceStart c id) s fun t => (∃ y, t.coll? c id.toNat = some y ∧
          y.running = some (d.occ + 1, (s.ctx c).step + 1, (s.ctx c).attempt) ∧ y.home = die ∧ y.occ = d.occ ∧ y.desc = d.desc) ∧
        (∀ x, x ≠ c.val → t.ctx x = s.ctx x) ∧ t.tiles = s.tiles ∧ t.pool = s.pool ∧ SameManagement s t)) ∧
  (d.running = none ∨ d.faulted = true ∨ d.allDone = false → Makes (.collectiveOccurrenceDone c id) s s) ∧
  (d.running ≠ none → d.faulted = false → d.allDone = true → (∃ e ∈ d.edges, e.digestDue = true) → Answers (.collectiveOccurrenceDone c id) s fun t =>
    (∃ y, t.coll? c id.toNat = some y ∧ y.running = d.running ∧ y.occ = d.occ ∧ ∀ z ∈ y.edges, z.reissues = 0 ∨ z.digestSent = true) ∧
      (∀ x, x ≠ c.val → t.ctx x = s.ctx x) ∧ SameMemory s t ∧ SameManagement s t) ∧
  (∀ occ r, d.running = some (occ, r) → d.faulted = false → d.allDone = true → (∀ e ∈ d.edges, e.digestDue = false) →
    Answers (.collectiveOccurrenceDone c id) s fun t => (∃ y, t.coll? c id.toNat = some y ∧ y.running = none ∧ y.occ = occ ∧
        y.flip = (if d.reduces = true ∧ d.isOnce = true then !d.flip else d.flip) ∧ y.doneInStep = (d.reduces && !d.isOnce)) ∧
      (t.ctx c).counters.getD 0x0D01 0 = ((s.ctx c).counters.getD 0x0D01 0 + 1) % 2 ^ 48 ∧
      (∀ k n x, d.once = some (k, n) → (s.queue c k).entry? n = some x → x.outcome = none → k < 16 → Ended t c k n { status := ok }) ∧
      (∀ x, x ≠ c.val → t.ctx x = s.ctx x) ∧ SameMemory s t ∧ SameManagement s t) ∧
  (∀ (peer : W16) (pkt : W32) e, d.edge? peer.toNat = some e → d.faulted = false → d.running ≠ none →
    (s.timerDue d e pkt.toNat 0 = false → s.timerDue d e pkt.toNat 1 = false → Makes (.nipWaitExpired c id peer pkt) s s) ∧
    (s.timerDue d e pkt.toNat 0 = true → Answers (.nipWaitExpired c id peer pkt) s fun t => (∃ y z, t.coll? c id.toNat = some y ∧
        y.edge? peer.toNat = some z ∧ z.reissues = e.reissues + 1 ∧ (pkt.toNat, 1, s.clk.life) ∈ z.timers ∧ y.running = d.running) ∧
      (∀ occ step att p x, d.running = some (occ, step, att) → s.fabAddr ≠ 0xFFFF → peer.toNat ≠ s.fabAddr → p = s.route peer.toNat → p ≤ 17 →
        (s.port p).st = .up → (s.port p).eth = false → (s.port p).txq = [] → (s.port p).credits.length = 16 →
        x = packetBytes ({ port := 0, typ := 5, vc := 14, flags := 0, dst := peer.toNat, src := s.fabAddr, jobTag := s.jobTag c, coll := d.id
                           attempt := att, step := step, pkt := pkt.toNat, payload := [] } : Packet) (s.settingNat 0x0B) →
        flitsOf x.length ≤ (s.port p).credits.getD 14 0 → .packet p x ∈ t.outbox) ∧
      (∀ x, x ≠ c.val → t.ctx x = s.ctx x) ∧ SameMemory s t ∧ SameManagement s t) ∧
    (s.timerDue d e pkt.toNat 0 = false → s.timerDue d e pkt.toNat 1 = true → Answers (.nipWaitExpired c id peer pkt) s fun t =>
      (∃ y, t.coll? c id.toNat = some y ∧ (d.once = none → y.faulted = true) ∧ (d.once ≠ none → y.running = none)) ∧
      (∀ k n x, d.once = some (k, n) → (s.queue c k).entry? n = some x → x.outcome = none → k < 16 → Ended t c k n (failed timeout)) ∧ (∃ r ∈ t.logs.errs, r.cls = 0x010C) ∧
      (t.ctx c).counters.getD 0x0D02 0 = ((s.ctx c).counters.getD 0x0D02 0 + 2) % 2 ^ 48 ∧ (∀ x, x ≠ c.val → t.ctx x = s.ctx x) ∧
      SameMemory s t ∧ SameManagement s t))

/-- Packets of collectives: the oldest of its TYPE is taken; one that matches no occurrence in flight changes no memory; CONTRIB,
RESULT and DATA are accepted once per edge and packet, RESULT and DATA writing their bytes to DST; a piece of a parity chunk is
written or added; ACK is recorded; REISSUE_REQ is answered by the packet, once, or by PENDING; PENDING restarts its timer; a DIGEST
that differs from TX_WM is a step fault (R553, R556, R560, R562, R565–R567). -/
def Obligations.CollectivePackets : Prop := ∀ (s s1 : State) (k : Packet), Shaped s → 3 < s.start.stage →
  (∀ m, m ∈ [(1, Instr.contrib), (2, .result), (3, .data), (5, .reissueReq), (6, .pending), (7, .digest)] →
    ((∀ k ∈ s.rxq, k.typ ≠ m.1 ∨ s.ecWaitsFor k = true) → Makes m.2 s s) ∧
    (s.takePacket (fun k => decide (k.typ = m.1) && !(s.ecWaitsFor k)) = some (k, s1) → k.coll ≠ ecColl →
      (s.matchPacket k = none → Answers m.2 s fun t => t.rxq = s1.rxq ∧ SameMemory s t ∧ SameManagement s t) ∧
      (∀ c d e, s.matchPacket k = some (c, d, e) → d.faulted = true → Makes m.2 s s1))) ∧
  ((∀ k ∈ s.rxq, k.typ ≠ 4) → Makes .ack s s) ∧
  (s.takePacket (fun k => decide (k.typ = 4)) = some (k, s1) → k.coll = ecColl →
    ((s.ecJob k).isSome = true → Makes .ack s s1) ∧
    (s.ecJob k = none → Answers .ack s fun t => t.rxq = s1.rxq ∧ SameMemory s t ∧ SameManagement s t)) ∧
  (∀ c d e, s.matchPacket k = some (c, d, e) → d.faulted = false → k.coll ≠ ecColl → c < 64 →
    (∀ w, s.takePacket (fun k => decide (k.typ = 1) && !(s.ecWaitsFor k)) = some (k, s1) → e.child = true → d.reduces = true → k.pkt < d.npkts →
      k.flags / 8 % 4 ≠ 3 → w = (if k.flags / 8 % 4 = 0 then 8 else if k.flags / 8 % 4 = 1 then 16 else 32) → k.payload.length = 64 + 128 * w →
      (k.pkt ∈ e.got → Makes .contrib s s1) ∧
      (k.pkt ∉ e.got → Answers .contrib s fun t => s1.rxq <+: t.rxq ∧ (∃ y z, t.coll? c d.id = some y ∧ y.edge? e.peer = some z ∧
        k.pkt ∈ z.got ∧ z.pkts = e.pkts + 1) ∧ (∀ x, x ≠ c → t.ctx x = s.ctx x) ∧ t.tiles = s.tiles ∧ t.pool = s.pool ∧ SameManagement s t)) ∧
    (s.takePacket (fun k => decide (k.typ = 2) && !(s.ecWaitsFor k)) = some (k, s1) → e.child = false → d.op = 1 → k.pkt < d.npkts →
      k.payload.length = 64 + d.outBytes → d.up = some e →
      (k.pkt ∈ e.got → Makes .result s s1) ∧
      (k.pkt ∉ e.got → Answers .result s fun t => s1.rxq <+: t.rxq ∧ (∃ y z, t.coll? c d.id = some y ∧ y.edge? e.peer = some z ∧ k.pkt ∈ z.got ∧
          k.pkt ∈ y.written) ∧
        t.dram = (s.writeResult c d k.pkt (k.payload.take 32, (k.payload.drop 32).take 32, k.payload.drop 64)).dram ∧
        (∀ x, x ≠ c → t.ctx x = s.ctx x) ∧ t.tiles = s.tiles ∧ t.pool = s.pool ∧ SameManagement s t)) ∧
    (s.takePacket (fun k => decide (k.typ = 3) && !(s.ecWaitsFor k)) = some (k, s1) → e.child = false → d.op = 3 ∨ d.op = 5 → k.pkt < d.npkts →
      k.payload.length = d.dataLen k.pkt →
      (k.pkt ∈ e.got → Answers .data s fun t => s1.rxq <+: t.rxq ∧ t.ctxs = s.ctxs ∧ SameMemory s t ∧ SameManagement s t) ∧
      (k.pkt ∉ e.got → Answers .data s fun t => s1.rxq <+: t.rxq ∧ (∃ y z, t.coll? c d.id = some y ∧ y.edge? e.peer = some z ∧ k.pkt ∈ z.got ∧ k.pkt ∈ y.written) ∧
        t.dram = (s.ctxWrite c (d.fld 0x18 8 + 4096 * k.pkt) k.payload).dram ∧ (∀ x, x ≠ c → t.ctx x = s.ctx x) ∧ t.tiles = s.tiles ∧
        t.pool = s.pool ∧ SameManagement s t)) ∧
    (s.takePacket (fun k => decide (k.typ = 4)) = some (k, s1) →
      d.op = 4 ∨ (d.op = 3 ∧ e.child = true) ∨ (d.op = 2 ∧ e.child = false) → k.pkt ∈ e.sent →
      (k.pkt ∈ e.acked → Makes .ack s s1) ∧
      (k.pkt ∉ e.acked → Answers .ack s fun t => s1.rxq <+: t.rxq ∧
        (∃ y z, t.coll? c d.id = some y ∧ y.edge? e.peer = some z ∧ k.pkt ∈ z.acked) ∧
        (∀ x, x ≠ c → t.ctx x = s.ctx x) ∧ SameMemory s t ∧ SameManagement s t)) ∧
    (s.takePacket (fun k => decide (k.typ = 5) && !(s.ecWaitsFor k)) = some (k, s1) →
      (s.owed c d e k.pkt = none → Answers .reissueReq s fun t => s1.rxq <+: t.rxq ∧ (∃ y z, t.coll? c d.id = some y ∧ y.edge? e.peer = some z ∧
        z.digestDue = true) ∧ (t.ctx c).counters = (s.ctx c).counters ∧ SameMemory s t ∧ SameManagement s t) ∧
      (∀ o, s.owed c d e k.pkt = some o → k.pkt ∈ e.resent → Makes .reissueReq s s1) ∧
      (∀ o, s.owed c d e k.pkt = some o → k.pkt ∉ e.resent → Answers .reissueReq s fun t => s1.rxq <+: t.rxq ∧ (∃ y z, t.coll? c d.id = some y ∧
        y.edge? e.peer = some z ∧ z.digestDue = true ∧ k.pkt ∈ z.resent) ∧ (t.ctx c).counters.getD 0x0D03 0 = ((s.ctx c).counters.getD 0x0D03 0 + 1) % 2 ^ 48 ∧
        SameMemory s t ∧ SameManagement s t)) ∧
    (s.takePacket (fun k => decide (k.typ = 6) && !(s.ecWaitsFor k)) = some (k, s1) →
      Makes .pending s (s1.modColl c d.id fun y => y.modEdge e.peer fun z => { z with
        timers := z.timers.map fun x => if x.1 = k.pkt then (x.1, 0, s.clk.life) else x })) ∧
    (s.takePacket (fun k => decide (k.typ = 7) && !(s.ecWaitsFor k)) = some (k, s1) →
      (unle (k.payload.take 16) = e.tx.toNat →
        Makes .digest s (s1.modColl c d.id fun y => y.modEdge e.peer fun z => { z with digestDue := false })) ∧
      (unle (k.payload.take 16) ≠ e.tx.toNat → Answers .digest s fun t => t.rxq = s1.rxq ∧ (∃ y, t.coll? c d.id = some y ∧
          (d.once = none → y.faulted = true) ∧ (d.once ≠ none → y.running = none)) ∧
        (∃ r ∈ t.logs.errs, r.cls = 0x010C) ∧ (∀ x, x ≠ c → t.ctx x = s.ctx x) ∧ SameMemory s t ∧ SameManagement s t))) ∧
  (∀ j r, s.takePacket (fun k => decide (k.typ = 3) && !(s.ecWaitsFor k)) = some (k, s1) → k.coll = ecColl → s.ecJob k = some (j, r) → j.k ≠ 0 →
    r < j.nmod → r / j.m = j.rank / j.m → r ≠ j.rank → k.step ≤ j.gen + 1 → j.protGen = 2 ^ 64 - 1 ∨ j.protGen < k.step →
    ∀ (q : Bool) p i a b, q = decide (2 ^ 31 ≤ k.pkt) → p = k.pkt % 2 ^ 31 → p < j.pieces →
    i = ((if q then (j.rank % j.m + j.m - 1) % j.m else j.rank % j.m) + 2 * j.m - r % j.m - 1) % j.m → i < j.k → k.payload.length = 4096 →
    a = j.parityBase k.step q + 4096 * p → b = (if q then k.payload.map (rsMul (rsExp (j.k - 1 - i))) else k.payload) →
    ((k.step, r, q, p) ∈ j.ecGot → Answers .data s fun t => s1.rxq <+: t.rxq ∧ t.ctxs = s.ctxs ∧ SameMemory s t ∧ SameManagement s t) ∧
    ((∀ x ∈ j.ecGot, x.1 ≠ k.step ∨ x.2.2.1 ≠ q ∨ x.2.2.2 ≠ p) → Answers .data s fun t => s1.rxq <+: t.rxq ∧
      t.dram = (s.ctxWrite j.ctx a b).dram ∧ t.tiles = s.tiles ∧ t.pool = s.pool ∧ SameManagement s t) ∧
    ((k.step, r, q, p) ∉ j.ecGot → (∃ x ∈ j.ecGot, x.1 = k.step ∧ x.2.2.1 = q ∧ x.2.2.2 = p) → Answers .data s fun t => s1.rxq <+: t.rxq ∧
      t.dram = (s.ctxWrite j.ctx a (xorBytes b (s.ctxRead j.ctx a 4096))).dram ∧ t.tiles = s.tiles ∧ t.pool = s.pool ∧ SameManagement s t))

/-- Jobs as commands: JOB_STATUS reports the job; JOB_CREATE and JOB_RESTART form one from the peer list; EC_SETUP copies the shard
of generation 0 and waits for its confirmation; JOB_LEAVE leaves the job EXCLUDED, and forgets one that was (R572, R573, R575, R581,
R593, R599; the last by log entry 33). -/
def Obligations.JobCommands : Prop := ∀ (s : State) (p : Payload) (id : Nat), Shaped s → id = arg p 0 8 →
  (∀ j, HostReady s → p.length = 8 → s.job? id = some j → Replies (.jobStatus p) s ok (s.jobStatus j) s) ∧
  (HostReady s → p.length = 8 → s.job? id = none → ∃ bs, Replies (.jobStatus p) s notFound bs s) ∧
  (∀ c n rank a b, HostOwns s → p.length = 24 → rsvdBad p [(9, 1), (14, 2)] = none → c = arg p 8 1 → n = arg p 10 2 → rank = arg p 12 2 →
    a = arg p 16 8 → c < 64 → 2 ≤ n → n ≤ 8192 → rank < n → s.locInvalid c 1 a (0x40 + 2 * n) = false →
    (s.ctx c).st = .bound ∨ (s.ctx c).st = .placed → s.job? id = none → s.jobBar c = none → b = s.ctxRead c a (0x40 + 2 * n) →
    peersOk n rank s.fabAddr b = true → s.running.length < 16 →
    Answers (.jobCreate p) s fun t => Reported s t ok (fld 4 s.nextOp) ∧
      (∃ y, t.job? id = some y ∧ y.st = .forming ∧ y.ctx = c ∧ y.nmod = n ∧ y.rank = rank ∧ y.epoch = 1 ∧ y.op = some s.nextOp ∧
        y.addrs = peerAddrs n b ∧ y.joiner = false) ∧ t.ctxs = s.ctxs ∧ SameMemory s t ∧ SameManagement s t) ∧
  (∀ j, HostOwns s → p.length = 8 → s.job? id = some j → s.running.length < 16 → s.op? s.nextOp = none →
    (j.st = .excluded → Answers (.jobLeave p) s fun t => Reported s t ok (fld 4 s.nextOp) ∧ t.job? id = none ∧
      (∃ o, t.op? s.nextOp = some o ∧ o.ready = some (ok, zeros 16)) ∧ t.ctxs = s.ctxs ∧ SameMemory s t ∧ SameManagement s t) ∧
    (j.st ≠ .excluded → Answers (.jobLeave p) s fun t => Reported s t ok (fld 4 s.nextOp) ∧ (∃ y, t.job? id = some y ∧ y.st = .excluded ∧
      y.op = none ∧ y.own = none) ∧ t.pool = s.pool ∧ t.reel = s.reel ∧ t.ident = s.ident ∧ t.start = s.start) ∧
    (j.st ≠ .excluded → j.own = none → j.op ≠ some s.nextOp → (j.st = .voting → (s.ctx j.ctx).run = none) →
      Answers (.jobLeave p) s fun t => Reported s t ok (fld 4 s.nextOp) ∧ (∃ y, t.job? id = some y ∧ y.st = .excluded) ∧
        (∀ op, j.op = some op → OpRuns s op → OpEnded t op orphaned) ∧
        (∃ o, t.op? s.nextOp = some o ∧ o.ready = some (ok, zeros 16)) ∧ (∀ x, x ≠ j.ctx → t.ctx x = s.ctx x) ∧ SameMemory s t ∧
        SameManagement s t)) ∧
  (∀ j k ch, HostOwns s → p.length = 16 → rsvdBad p [(9, 3)] = none → k = arg p 8 1 → 4 ≤ k → k ≤ 14 → arg p 12 4 ≤ 1048576 →
    s.job? id = some j → j.nmod % (k + 2) = 0 → ch = chunkOf (s.shardSize j.ctx) k → 2 * k * ch ≤ j.areas.getD 1 0 → 4 * ch ≤ j.areas.getD 3 0 →
    (∀ g al, (s.ctx j.ctx).prog = some g → (s.ctx j.ctx).alloc = some al → ∀ i, i = 0 ∨ i = 2 →
      touchesRegion (s.ctx j.ctx) (j.areas.getD i 0) (j.areas.getD (i + 1) 0) = false ∧
        writesInto g al (j.areas.getD i 0) (j.areas.getD (i + 1) 0) = false) →
    (∀ i, i = 0 ∨ i = 2 → s.locInvalid j.ctx 1 (j.areas.getD i 0) (j.areas.getD (i + 1) 0) = false) →
    (∀ r, r / (k + 2) = j.rank / (k + 2) → r ≠ j.rank → s.edgePort (j.addrs.getD r 0xFFFF) ≤ 17 ∧
      0x3F ∈ (s.port (s.edgePort (j.addrs.getD r 0xFFFF))).groups) →
    j.st = .active → j.op = none → j.ctx < 64 → (s.ctx j.ctx).st = .placed → s.portModeBar = none → s.dies.ecOff.length ≠ 6 → s.running.length < 16 →
    Answers (.ecSetup p) s fun t => Reported s t ok (fld 4 s.nextOp) ∧
      (∃ y, t.job? id = some y ∧ y.st = .active ∧ y.k = k ∧ y.refreshN = arg p 12 4 ∧ y.chunk = ch ∧ y.gen = 0 ∧ y.setup = true ∧
        y.copying = true ∧ y.op = some s.nextOp) ∧
      t.dram = (s.ctxWrite j.ctx (j.areas.getD 0 0) (s.shard j.ctx (k * ch))).dram ∧ t.ctxs = s.ctxs ∧ t.tiles = s.tiles ∧ t.pool = s.pool ∧
      t.reel = s.reel ∧ SameManagement s t) ∧
  (∀ c n rank a b k, HostOwns s → p.length = 32 → rsvdBad p [(9, 1), (14, 2), (25, 3)] = none → c = arg p 8 1 → n = arg p 10 2 →
    rank = arg p 12 2 → a = arg p 16 8 → k = arg p 24 1 → c < 64 → 2 ≤ n → n ≤ 8192 → rank < n → 4 ≤ k → k ≤ 14 → n % (k + 2) = 0 →
    arg p 28 4 ≤ 1048576 → s.locInvalid c 1 a (0x40 + 2 * n) = false → (s.ctx c).st = .placed → b = s.ctxRead c a (0x40 + 2 * n) →
    s.running.length < 16 →
    (∀ j, s.job? id = some j → j.st = .broken → j.k = k → s.start.pwr = .m0 → s.portModeBar = none → j.ctx = c → j.nmod = n → j.rank = rank →
      j.peersCrc = crc32c b → j.addrs = peerAddrs n b → j.refreshN = arg p 28 4 →
      Answers (.jobRestart p) s fun t => Reported s t ok (fld 4 s.nextOp) ∧
        (∃ y, t.job? id = some y ∧ y.st = .forming ∧ y.op = some s.nextOp ∧ y.epoch = j.epoch ∧ y.joiner = j.joiner ∧ y.lost = j.lost) ∧
        t.ctxs = s.ctxs ∧ SameMemory s t ∧ SameManagement s t) ∧
    ((∀ j, s.job? id = some j → j.st = .excluded) → s.jobBar c = none → peersOk n rank s.fabAddr b = true → s.dies.ecOff.length ≠ 6 →
      Answers (.jobRestart p) s fun t => Reported s t ok (fld 4 s.nextOp) ∧
        (∃ y, t.job? id = some y ∧ y.st = .forming ∧ y.op = some s.nextOp ∧ y.joiner = true ∧ y.k = k ∧ y.ctx = c) ∧
        t.ctxs = s.ctxs ∧ SameMemory s t ∧ SameManagement s t))

/-- Formation and the packets of votes: rank 0 counts an agreeing HELLO and forms the job once every rank agrees; a member learns it
by DECISION FORMED; a disagreeing HELLO of rank 0 or the end of the formation time forgets a new job; one that restarts goes on with
the newest generation that every survivor holds; a VOTE of a child is recorded, and goes up once every live child has voted;
DECISION COMMIT protects its generation and commits the step, ROLLBACK leaves the step as it was; DECISION RESTARTED makes the job
ACTIVE in the next EPOCH, RESTART BROKEN (R573, R583, R589, R596, R600, R605). -/
def Obligations.JobAgreement : Prop := ∀ (s s1 : State) (k : Packet) (j : Job) (r : Nat), Shaped s →
  (∀ hs good, FromMember s 2 k j r s1 → j.st = .forming → good = s.helloAgrees j (k.payload.drop 16) → j.rank = 0 →
    hs = (j.hellos.filter fun h => decide (h.1 ≠ r)) ++
      [(r, good, decide (unle (argBytes (k.payload.drop 16) 2 1) = 1), unle (argBytes (k.payload.drop 16) 16 8))] →
    ((good = false ∨ ∃ x, x < j.nmod ∧ ∀ h ∈ hs, h.1 = x → h.2.1 = false) →
      Answers .hello s fun t => s1.rxq <+: t.rxq ∧ (∃ y, t.job? j.id = some y ∧ y.st = .forming ∧ y.hellos = hs ∧ y.op = j.op) ∧
        t.ctxs = s.ctxs ∧ SameMemory s t ∧ SameManagement s t) ∧
    (∀ gen joiners, j.restarts = true → good = true → (∀ x, x < j.nmod → ∃ h ∈ hs, h.1 = x ∧ h.2.1 = true) →
      gen = ((hs.filter fun h => !h.2.2.1).map fun h => h.2.2.2).foldl minGen (2 ^ 64 - 1) →
      joiners = ((List.range j.nmod).filter fun x => hs.any fun h => decide (h.1 = x) && h.2.2.1) → j.hopeless joiners = none →
      Answers .hello s fun t => s1.rxq <+: t.rxq ∧ (∃ y, t.job? j.id = some y ∧ y.st = .restarting ∧ y.gen = gen ∧ y.protGen = gen ∧ y.op = j.op ∧
        ∀ x ∈ joiners, x ∈ y.lost) ∧ t.ctxs = s.ctxs ∧ SameMemory s t ∧ t.mgmt = s.mgmt ∧ t.ident = s.ident) ∧
    (j.restarts = false → good = true → (∀ x, x < j.nmod → ∃ h ∈ hs, h.1 = x ∧ h.2.1 = true) →
      Answers .hello s fun t => s1.rxq <+: t.rxq ∧ (∃ y, t.job? j.id = some y ∧ y.st = .active ∧ y.op = none ∧ y.epoch = j.epoch) ∧
        (∀ op, j.op = some op → OpRuns s op → OpEnded t op ok) ∧ t.ctxs = s.ctxs ∧ SameMemory s t ∧ t.mgmt = s.mgmt ∧ t.ident = s.ident)) ∧
  (FromMember s 2 k j 0 s1 → j.st = .forming → j.restarts = false → s.helloAgrees j (k.payload.drop 16) = false → j.rank ≠ 0 →
    Answers .hello s fun t => s1.rxq <+: t.rxq ∧ t.job? j.id = none ∧ (∀ op, j.op = some op → OpRuns s op → OpEnded t op invalid) ∧
      t.ctxs = s.ctxs ∧ SameMemory s t ∧ SameManagement s t) ∧
  (∀ (w : W64), s.job? w.toNat = some j →
    (j.st = .forming → j.since + j.formS * cycPerSec ≤ s.clk.life → j.restarts = false → Answers (.jobFormTimeout w) s fun t => t.job? w.toNat = none ∧
      (∀ op, j.op = some op → OpRuns s op → OpEnded t op timeout) ∧ t.ctxs = s.ctxs ∧ SameMemory s t ∧ SameManagement s t) ∧
    (j.st = .forming → j.since + j.formS * cycPerSec ≤ s.clk.life → j.restarts = true → Answers (.jobFormTimeout w) s fun t =>
      (∃ y, t.job? w.toNat = some y ∧ y.st = (if j.joiner then .excluded else .broken) ∧ y.op = none) ∧
      (∀ op, j.op = some op → OpRuns s op → OpEnded t op timeout) ∧ t.ctxs = s.ctxs ∧ SameMemory s t ∧ SameManagement s t) ∧
    (j.st ≠ .forming ∨ s.clk.life < j.since + j.formS * cycPerSec → Makes (.jobFormTimeout w) s s)) ∧
  (∀ vs lost, FromMember s 3 k j r s1 → lost = bits j.nmod (unle (argBytes (k.payload.drop 16) 16 1024)) →
    vs = (j.votes.filter fun v => decide (v.1 ≠ r)) ++ [(r, unle ((k.payload.drop 16).take 1), unle (argBytes (k.payload.drop 16) 4 2),
      unle (argBytes (k.payload.drop 16) 8 8), lost)] →
    (j.st = .active → unle ((k.payload.drop 16).take 1) ≠ 2 → k.step = (s.ctx j.ctx).step + 1 → k.attempt = (s.ctx j.ctx).attempt % 256 → j.voted = false →
      (∃ q, j.parent j.rank = some q) ∨ j.own = none ∨ (∃ c ∈ j.children, ∀ v ∈ vs, v.1 ≠ c) →
      Answers .vote s fun t => s1.rxq <+: t.rxq ∧
        (∃ y, t.job? j.id = some y ∧ y.votes = vs ∧ y.own = j.own ∧ y.st = .active ∧
          y.voted = (j.own.isSome && j.children.all fun c => vs.any fun v => decide (v.1 = c))) ∧
        t.ctxs = s.ctxs ∧ SameMemory s t ∧ SameManagement s t) ∧
    (j.st = .active ∨ j.st = .voting → unle ((k.payload.drop 16).take 1) = 2 → (∀ x ∈ lost, x ∈ j.lost) → (j.st = .voting → ∃ c ∈ j.children, ∀ v ∈ vs, v.1 = c → v.2.1 ≠ 2) →
      Answers .vote s fun t => s1.rxq <+: t.rxq ∧ (∃ y, t.job? j.id = some y ∧ y.votes = vs ∧ y.own = j.own ∧ y.st = j.st) ∧
        t.ctxs = s.ctxs ∧ SameMemory s t ∧ SameManagement s t) ∧
    (j.st = .restarting → unle ((k.payload.drop 16).take 1) ≠ 2 → j.own = none →
      Answers .vote s fun t => s1.rxq <+: t.rxq ∧ (∃ y, t.job? j.id = some y ∧ y.votes = vs ∧ y.own = none ∧ y.st = j.st) ∧
        t.ctxs = s.ctxs ∧ SameMemory s t ∧ SameManagement s t)) ∧
  (∀ b lost, FromMember s 4 k j r s1 → b = k.payload.drop 16 → lost = bits j.nmod (unle (argBytes b 24 1024)) →
    (unle (b.take 1) = 3 → j.st = .forming → j.restarts = true → j.hopeless lost = none → Answers .decision s fun t => s1.rxq <+: t.rxq ∧
      (∃ y, t.job? j.id = some y ∧ y.st = .restarting ∧ y.gen = unle (argBytes b 8 8) ∧ y.op = j.op ∧ y.epoch = j.epoch ∧ ∀ x ∈ lost, x ∈ y.lost) ∧
      t.ctxs = s.ctxs ∧ SameMemory s t ∧ t.mgmt = s.mgmt ∧ t.ident = s.ident) ∧
    (unle (b.take 1) = 3 → j.st = .forming → j.restarts = false → Answers .decision s fun t => s1.rxq <+: t.rxq ∧
      (∃ y, t.job? j.id = some y ∧ y.st = .active ∧ y.op = none ∧ y.epoch = j.epoch) ∧ (∀ op, j.op = some op → OpRuns s op → OpEnded t op ok) ∧
      t.ctxs = s.ctxs ∧ SameMemory s t ∧ t.mgmt = s.mgmt ∧ t.ident = s.ident) ∧
    (unle (b.take 1) = 4 → j.st = .restarting → Answers .decision s fun t => s1.rxq <+: t.rxq ∧
      (∃ y, t.job? j.id = some y ∧ y.st = .active ∧ y.op = none ∧ y.epoch = j.epoch + 1 ∧ y.lost = [] ∧ y.joiner = false) ∧
      (∀ op, j.op = some op → OpRuns s op → OpEnded t op ok) ∧ t.ctxs = s.ctxs ∧ SameMemory s t ∧ SameManagement s t) ∧
    (∀ own g a, unle (b.take 1) = 0 → j.st = .active ∨ j.st = .voting → k.step = (s.ctx j.ctx).step + 1 → k.attempt = (s.ctx j.ctx).attempt % 256 →
      j.own = some own → (s.ctx j.ctx).prog = some g → (s.ctx j.ctx).hold = .decide a → (∀ m ∈ g.syncMap, m.role ≠ 1 ∧ m.role ≠ 3) →
      Answers .decision s fun t => s1.rxq <+: t.rxq ∧ (t.ctx j.ctx).step = (s.ctx j.ctx).step + 1 ∧
        (∃ y, t.job? j.id = some y ∧ y.own = none ∧ y.protGen = unle (argBytes b 8 8) ∧ y.protStep = unle (argBytes b 16 8)) ∧
        t.pool = s.pool ∧ t.reel = s.reel ∧ t.ident = s.ident ∧ t.start = s.start) ∧
    (∀ own g a, unle (b.take 1) = 1 → j.st = .active ∨ j.st = .voting → k.step = (s.ctx j.ctx).step + 1 → k.attempt = (s.ctx j.ctx).attempt % 256 →
      j.own = some own → (s.ctx j.ctx).prog = some g → (s.ctx j.ctx).hold = .decide a →
      Answers .decision s fun t => s1.rxq <+: t.rxq ∧ (t.ctx j.ctx).step = (s.ctx j.ctx).step ∧
        (∃ y, t.job? j.id = some y ∧ y.own = none ∧ y.protGen = unle (argBytes b 8 8) ∧ y.protStep = unle (argBytes b 16 8)) ∧
        t.dram = s.dram ∧ t.pool = s.pool ∧ t.reel = s.reel ∧ SameManagement s t) ∧
    (unle (b.take 1) = 2 → j.st = .active ∨ j.st = .voting → Answers .decision s fun t => s1.rxq <+: t.rxq ∧
      (∃ y, t.job? j.id = some y ∧ y.st = (if j.rank ∈ j.lost ∨ j.rank ∈ lost then .excluded else .broken)) ∧
      ((s.ctx j.ctx).prog ≠ none → (t.ctx j.ctx).run = none) ∧ t.dram = s.dram ∧ t.pool = s.pool ∧ t.reel = s.reel ∧ SameManagement s t ∧
      ((s.ctx j.ctx).run = none → t.tiles = s.tiles ∧ ∀ x, x ≠ j.ctx → t.ctx x = s.ctx x)))

/-- Losses: a missed heartbeat, an ALERT, a LEAVE, a lost port and a notice of reset each make the job VOTING with the rank lost; a
second report of one changes nothing. HEARTBEAT says so to every tree neighbour; MEMBER_RESEND repeats what is not acknowledged,
four times at most, and an ACK ends it; the effective root whose window has ended and whose live members are all counted makes the
job BROKEN. RESTART_STATE_RESTORED gives a survivor the state of its save block and a joiner its decoded shard, and reports; with
the reports of every subtree in, the root makes the job ACTIVE in the next EPOCH (R578–R582, R586, R587, R589, R600, R601, R605). -/
def Obligations.JobLosses : Prop := ∀ (s : State) (j : Job), Shaped s → j.ctx < 64 →
  (∀ (w : W64) (rank : W16), w.toNat = j.id → CanLose s j rank.toNat → j.neighbours.contains rank.toNat = true →
    j.heard.getD rank.toNat 0 + usCyc 1000 ≤ s.clk.life → Answers (.heartbeatLost w rank) s fun t => Loses s t j rank.toNat ∧
      (3 < s.start.stage → (∀ q, q < 18 → (s.port q).st = .up ∧ (s.port q).eth = false) → ∃ r ∈ t.logs.errs, r.cls = 0x0681 ∧
        r.body = le 8 j.id ++ le 2 rank.toNat ++ le 2 (j.addrs.getD rank.toNat 0xFFFF) ++ le 1 3 ++ zeros 3)) ∧
  (∀ (w : W64) (rank : W16), s.job? w.toNat = some j → (rank.toNat ∈ j.lost ∧ j.restarts = false) ∨ j.neighbours.contains rank.toNat = false ∨ s.clk.life < j.heard.getD rank.toNat 0 + usCyc 1000 →
    Makes (.heartbeatLost w rank) s s) ∧
  (∀ k r s1, FromMember s 5 k j r s1 → CanLose s j (unle (argBytes k.payload 16 2)) →
    Answers .alert s fun t => s1.rxq <+: t.rxq ∧ Loses s t j (unle (argBytes k.payload 16 2))) ∧
  (∀ k r s1, FromMember s 6 k j r s1 → CanLose s j r → Answers .leave s fun t => s1.rxq <+: t.rxq ∧ Loses s t j r) ∧
  (∀ (p : Port), (s.port p).st = .up → (s.port p).peer ≠ 0xFFFF#16 → (∀ x ∈ s.jobs, x.addrs.contains (s.port p).peer.toNat = true → x = j) → j.addrs.contains (s.port p).peer.toNat = true →
    CanLose s j (j.addrs.idxOf (s.port p).peer.toNat) →
    (Answers (.portDown p) s fun t => (t.port p).st = .down ∧ Loses s t j (j.addrs.idxOf (s.port p).peer.toNat)) ∧
    ((s.port p).eth = false → Answers (.resetNotice p) s fun t => (t.port p).st = .up ∧ Loses s t j (j.addrs.idxOf (s.port p).peer.toNat))) ∧
  (∀ (p : Port), (s.port p).st = .up → (∀ x ∈ s.jobs, x.addrs.contains (s.port p).peer.toNat = false) →
    (Answers (.portDown p) s fun t => (t.port p).st = .down ∧ (t.port p).lanes = 0 ∧ (t.port p).txq = [] ∧ t.jobs = s.jobs ∧ t.ctxs = s.ctxs ∧
      SameMemory s t ∧ SameManagement s t) ∧ Makes (.resetNotice p) s s) ∧
  (∀ (p : Port), (s.port p).st ≠ .up → Makes (.portDown p) s s ∧ Makes (.resetNotice p) s s) ∧
  (∀ (w : W64), s.job? w.toNat = some j →
    (j.beat.any (fun a => decide (s.clk.life < a + usCyc 100)) = true → Makes (.heartbeat w) s s) ∧
    (j.beat.any (fun a => decide (s.clk.life < a + usCyc 100)) = false → j.st = .active ∨ j.st = .voting ∨ j.st = .broken ∨ j.st = .restarting → j.seq < 2 ^ 32 →
      (∀ r ∈ j.neighbours, j.addrs.getD r 0xFFFF ≠ s.fabAddr) →
      Answers (.heartbeat w) s fun t => t.job? w.toNat = some { j with beat := some s.clk.life, seq := (j.seq + j.neighbours.length) % 2 ^ 32 } ∧ t.ctxs = s.ctxs ∧
        t.rxq = s.rxq ∧ SameMemory s t ∧ SameManagement s t) ∧
    (j.beat.any (fun a => decide (s.clk.life < a + usCyc 100)) = false → j.st = .forming → j.rank ≠ 0 → j.helloAcked = false →
      (∀ u ∈ j.unacked, unle (u.bytes.take 1) ≠ 2) →
      Answers (.heartbeat w) s fun t => (∃ y, t.job? w.toNat = some y ∧ y.beat = some s.clk.life ∧ y.st = .forming ∧
          ∃ u ∈ y.unacked, u.rank = 0 ∧ unle (u.bytes.take 1) = 2 ∧ u.bytes.drop 16 = s.helloBody j) ∧
        t.ctxs = s.ctxs ∧ s.rxq <+: t.rxq ∧ SameMemory s t ∧ SameManagement s t) ∧
    (∀ r q, j.beat.any (fun a => decide (s.clk.life < a + usCyc 100)) = false → j.st = .active → j.neighbours = [r] → s.fabAddr ≠ 0xFFFF →
      j.addrs.getD r 0xFFFF ≠ s.fabAddr → s.route (j.addrs.getD r 0xFFFF) = q → q < 18 → (s.port q).st = .up →
      (s.port q).eth = false → (s.port q).txq = [] → 1 ≤ (s.port q).credits.getD 15 0 →
      Answers (.heartbeat w) s fun t => Output.packet q (packetBytes { j.packet r ((s.ctx j.ctx).step + 1) (s.ctx j.ctx).attempt
        (le 1 1 ++ le 1 0 ++ le 2 j.rank ++ le 4 j.seq ++ le 4 j.epoch ++ le 4 (j.id / 2 ^ 32)) with src := s.fabAddr } (s.settingNat 0x0B)) ∈ t.outbox) ∧
    ((∀ u ∈ j.unacked, j.addrs.getD u.rank 0xFFFF ≠ s.fabAddr) → Answers (.memberResend w) s fun t => t.job? w.toNat = some { j with
        unacked := (j.unacked.filter fun u => decide (u.tries < 4) || decide (s.clk.life < u.sentAt + usCyc 10)).map fun u =>
          if u.tries < 4 ∧ u.sentAt + usCyc 10 ≤ s.clk.life then { u with tries := u.tries + 1, sentAt := s.clk.life } else u } ∧
      t.ctxs = s.ctxs ∧ t.rxq = s.rxq ∧ SameMemory s t ∧ SameManagement s t) ∧
    (∀ u q, j.unacked = [u] → u.tries < 4 → u.sentAt + usCyc 10 ≤ s.clk.life → s.fabAddr ≠ 0xFFFF → j.addrs.getD u.rank 0xFFFF ≠ s.fabAddr →
      s.route (j.addrs.getD u.rank 0xFFFF) = q → q < 18 → (s.port q).st = .up → (s.port q).eth = false → (s.port q).txq = [] →
      flitsOf (36 + u.bytes.length) ≤ (s.port q).credits.getD 15 0 →
      Answers (.memberResend w) s fun t => Output.packet q
        (packetBytes { j.packet u.rank u.step u.attempt u.bytes with src := s.fabAddr } (s.settingNat 0x0B)) ∈ t.outbox) ∧
    (j.st ≠ .voting ∨ j.root ≠ j.rank ∨ s.clk.life < j.since + usCyc j.gatherUs → Makes (.restartGatherExpired w) s s) ∧
    (j.st = .voting → j.root = j.rank → j.since + usCyc j.gatherUs ≤ s.clk.life → (∃ c ∈ j.children, ∀ v ∈ j.votes, v.1 = c → v.2.1 ≠ 2) →
      Makes (.restartGatherExpired w) s (s.modJob w.toNat fun y => { y with gathered := true })) ∧
    (∀ l, j.st = .voting → j.root = j.rank → j.since + usCyc j.gatherUs ≤ s.clk.life → j.parent j.rank = none → l = (j.votes.filter fun v => decide (v.2.1 = 2) && j.children.contains v.1) →
      (∀ c ∈ j.children, ∃ v ∈ l, v.1 = c) →
      j.nmod ≤ l.foldl (fun a v => a + v.2.2.1) 1 + ((l.foldl (fun a v => a ++ v.2.2.2.2) j.lost).eraseDups).length →
      j.rank ∉ l.foldl (fun a v => a ++ v.2.2.2.2) j.lost →
      Answers (.restartGatherExpired w) s fun t => (∃ y, t.job? w.toNat = some y ∧ y.st = .broken ∧ y.epoch = j.epoch) ∧
        t.dram = s.dram ∧ t.pool = s.pool ∧ t.reel = s.reel ∧ SameManagement s t ∧
        ((s.ctx j.ctx).run = none → t.tiles = s.tiles ∧ ∀ x, x ≠ j.ctx → t.ctx x = s.ctx x))) ∧
  (∀ k r s1, FromMember s 7 k j r s1 → Answers .memberAck s fun t => t.rxq = s1.rxq ∧ t.job? j.id = some { j with
      unacked := j.unacked.filter fun u => !decide (u.rank = r ∧ u.seq = unle (argBytes k.payload 16 4))
      helloAcked := j.helloAcked || j.unacked.any fun u => decide (u.rank = r ∧ u.seq = unle (argBytes k.payload 16 4)) && decide (unle (u.bytes.take 1) = 2) } ∧
    t.ctxs = s.ctxs ∧ SameMemory s t ∧ SameManagement s t) ∧
  (∀ (w : W64) shard, s.job? w.toNat = some j → j.st = .restarting → j.own = none → j.joiner = true → (∃ q, j.parent j.rank = some q) ∨ j.childrenIn = false →
    (shard = .error → Answers (.restartStateRestored w shard) s fun t =>
      (∃ y, t.job? w.toNat = some y ∧ y.own = some 1 ∧ y.st = .restarting) ∧ t.ctxs = s.ctxs ∧ SameMemory s t ∧ SameManagement s t) ∧
    (∀ b g, shard = .data b → b.length = j.shardLen + 2 * j.chunk → (s.ctx j.ctx).prog = some g → Answers (.restartStateRestored w shard) s fun t =>
      (∃ y, t.job? w.toNat = some y ∧ y.own = some 0 ∧ y.st = .restarting ∧ (t.ctx j.ctx).step = y.protStep ∧
        (j.protStep ≠ 2 ^ 64 - 1 → y.protStep = j.protStep)) ∧
      (t.ctx j.ctx).counters.getD 0x0D25 0 = ((s.ctx j.ctx).counters.getD 0x0D25 0 + j.shardLen) % 2 ^ 48 ∧
      (∀ x, x ≠ j.ctx → t.ctx x = s.ctx x) ∧ t.pool = s.pool ∧ t.reel = s.reel ∧ SameManagement s t)) ∧
  (∀ (w : W64) shard, s.job? w.toNat = some j → j.st ≠ .restarting ∨ j.own ≠ none → Makes (.restartStateRestored w shard) s s) ∧
  (∀ (w : W64) shard v g, s.job? w.toNat = some j → j.st = .restarting → j.own = none → j.voted = false → j.joiner = false → j.parent j.rank = none →
    j.childrenIn = true → (∀ y ∈ j.votes, y.2.1 = 0) → j.saved.find? (·.1 = j.gen) = some v → (s.ctx j.ctx).prog = some g →
    Answers (.restartStateRestored w shard) s fun t => (∃ y, t.job? w.toNat = some y ∧ y.st = .active ∧ y.epoch = j.epoch + 1 ∧ y.lost = []) ∧
      (∀ op, j.op = some op → OpRuns s op → OpEnded t op ok) ∧ (t.ctx j.ctx).step = v.2.step ∧ (∀ x, x ≠ j.ctx → t.ctx x = s.ctx x) ∧
      t.pool = s.pool ∧ t.reel = s.reel ∧ SameManagement s t) ∧
  (∀ (w : W64) shard, s.job? w.toNat = some j → j.st = .restarting → j.own = none → j.joiner = false → (∃ q, j.parent j.rank = some q) ∨ j.childrenIn = false →
    (j.saved.find? (·.1 = j.gen) = none → Answers (.restartStateRestored w shard) s fun t =>
      (∃ y, t.job? w.toNat = some y ∧ y.own = some 1 ∧ y.st = .restarting) ∧ t.ctxs = s.ctxs ∧ SameMemory s t ∧ SameManagement s t) ∧
    (∀ v g, j.saved.find? (·.1 = j.gen) = some v → (s.ctx j.ctx).prog = some g → Answers (.restartStateRestored w shard) s fun t =>
      (∃ y, t.job? w.toNat = some y ∧ y.own = some 0 ∧ y.st = .restarting) ∧ (t.ctx j.ctx).step = v.2.step ∧ (t.ctx j.ctx).commit = v.2.commit ∧
      (t.ctx j.ctx).flips = v.2.flips ∧ (t.ctx j.ctx).sched = v.2.commit.sched ∧ (∀ x, x ≠ j.ctx → t.ctx x = s.ctx x) ∧
      t.pool = s.pool ∧ t.reel = s.reel ∧ SameManagement s t))

/-- The mailbox over the sideband: one MB_REQUEST at a time, answered by one MB_RESPONSE; a command runs as one of the host does,
with the sideband as its master; without the lock a command of kind F or B is DENIED without side effects, and one of kind B+P
pre-empts the host; a DUMP_READ of a region under reset waits; before mailbox ready a command not served then answers BUSY.
LOCK_ACQUIRE takes a free lock, LOCK_RELEASE gives its own back; both report the owner byte (R277, R293–R295, R608, R613, R614,
R705). -/
def Obligations.SidebandMailbox : Prop := ∀ (s : State),
  (∀ tag code p, s.sideUp = false → Makes (.mbRequest tag code p) s s) ∧
  (∀ tag (code : W16) p, s.sideUp = true → s.side.outstanding ≠ none → s.side.held ≠ some (tag, code.toNat, p) →
    ∃ b, b.length = (err busy).bytes.length ∧
    Makes (.mbRequest tag code p) s { s with outbox := s.outbox ++ [.mbResponse tag busy b], fresh := s.fresh + b.length }) ∧
  (∀ tag (code : W16) p kind (f : MbFun) (u : State) (r : State × Resp), s.sideUp = true → s.side.outstanding = none → s.side.held = none →
    s.start.stage = 0xA → s.start.pwr ≠ .m3 → s.host.fwReady = true → s.mgmt.fw ≠ .recovery → s.dies.ct0Lost = false →
    mbOf code.toNat = some (kind, f) → p.length ≤ 4096 → u = { s with side := { s.side with outstanding := some tag } } →
    ((code.toNat ≠ 0x72 ∨ s.dumpWaits .sideband p = false) →
      ((kind = .q ∨ s.host.owner = .sideband) ∧ r = f .sideband p u) ∨
        (kind = .bp ∧ s.host.owner = .host ∧ s.host.busy = false ∧ r = freeAfter (f .sideband p u.preempt)) →
      ∃ b : List Byte, b.length = r.2.bytes.length ∧ (∀ (i : Nat) x, r.2.bytes[i]? = some x → ∃ w, b[i]? = some (x.value w)) ∧
        Makes (.mbRequest tag code p) s { r.1 with
          outbox := r.1.outbox ++ [.mbResponse tag r.2.status b], fresh := r.1.fresh + b.length
          side := { r.1.side with outstanding := none, held := none } }) ∧
    (kind ≠ .q → s.host.owner = .free ∨ (s.host.owner = .host ∧ kind ≠ .bp) → ∃ b, b.length = (err denied).bytes.length ∧
      Makes (.mbRequest tag code p) s { s with outbox := s.outbox ++ [.mbResponse tag denied b], fresh := s.fresh + b.length }) ∧
    (code.toNat = 0x72 → s.host.busy = false → s.dumpWaits .sideband p = true →
      Makes (.mbRequest tag code p) s { s with side := { s.side with outstanding := some tag, held := some (tag, 0x72, p) } })) ∧
  (∀ tag (code : W16) p, s.sideUp = true → s.side.outstanding = none → s.side.held = none → s.start.stage ≠ 0xA → s.host.busy = false →
    p.length ≤ 4096 → earlyServes code.toNat p s = false → ∃ b, b.length = (err busy).bytes.length ∧
      Makes (.mbRequest tag code p) s { s with outbox := s.outbox ++ [.mbResponse tag busy b], fresh := s.fresh + b.length }) ∧
  (∀ eid, s.sideUp = true →
    (s.host.owner = .free ∨ s.host.owner = .sideband → Makes (.lockAcquire eid) s { s with
      host := { s.host with owner := .sideband }, side := { s.side with lockEid := some eid }
      outbox := s.outbox ++ [.lockState (if s.host.preempted then 160 else 128)] }) ∧
    (s.host.owner = .host → Makes (.lockAcquire eid) s { s with
      side := { s.side with lockEid := some eid }, outbox := s.outbox ++ [.lockState (if s.host.preempted then 96 else 64)] }) ∧
    (s.host.owner = .free ∨ s.host.owner = .sideband → Makes .lockRelease s { s with
      host := { s.host with owner := .free }, outbox := s.outbox ++ [.lockState (if s.host.preempted then 32 else 0)] }) ∧
    (s.host.owner = .host → Makes .lockRelease s { s with outbox := s.outbox ++ [.lockState (if s.host.preempted then 96 else 64)] })) ∧
  (s.sideUp = false → Makes .lockRelease s s ∧ ∀ eid, Makes (.lockAcquire eid) s s)

/-- The endpoint: SET_ENDPOINT_ID, ENTDAA and SMBUS_FALLBACK set its addresses; an acknowledged dump stream moves on, an
unacknowledged one starts again from the last NEXT after 1 s, at most 8 messages ahead; SET_EVENT_RECEIVER names where events go;
SENSOR_REFRESH takes every reading once in 100 ms and reports a temperature that crosses a threshold; what cannot be read in the
present state is unavailable (R610, R615, R616). The PLDM firmware update: REQUEST_UPDATE takes the lock and asks for the image;
each part asked for is staged, and after the last the checks begin; ACTIVATE_FIRMWARE of a PENDING image restarts the firmware and
frees the lock; CANCEL_UPDATE gives up an update not yet being written (R630, R628). -/
def Obligations.SidebandEndpointAndUpdate : Prop :=
  (∀ (s : State),
  (∀ eid, s.portUp = true → eid ≠ 0#8 → eid ≠ 0xFF#8 → Makes (.setEndpointId eid) s { s with
    side := { s.side with eid := some eid }, outbox := s.outbox ++ [.mctpResponse [0x00, 0x00, eid, 0x00]] }) ∧
  (∀ eid, s.portUp = true → eid = 0#8 ∨ eid = 0xFF#8 → Makes (.setEndpointId eid) s { s with outbox := s.outbox ++ [.mctpResponse [0x02]] }) ∧
  (s.portUp = false → Makes .smbusFallback s s ∧ (∀ eid, Makes (.setEndpointId eid) s s) ∧ ∀ a, Makes (.entdaa a) s s) ∧
  (∀ a, s.portUp = true → s.side.smbusOnly = false → Makes (.entdaa a) s { s with side := { s.side with i3c := some a } }) ∧
  (∀ a, s.side.smbusOnly = true → Makes (.entdaa a) s s) ∧
  (s.portUp = true → s.side.i3c = none → Makes .smbusFallback s { s with side := { s.side with smbus := true } }) ∧
  (s.side.i3c ≠ none → Makes .smbusFallback s s) ∧
  (∀ (id : W32) (next : W64) sent n total d, s.side.stream = some (id.toNat, sent, n, total) → s.dumping = some d → s.sideUp = true → sent ≤ total →
    (n ≤ next.toNat → next.toNat ≤ sent →
      Answers (.dumpStreamAck id next) s fun t => (∃ v, t.side = { s.side with stream := some (id.toNat, v, next.toNat, total), ackAt := s.clk.life } ∧
          sent ≤ v ∧ v ≤ total ∧ (next.toNat % 1024 = 0 → sent % 1024 = 0 → v = min total (max sent (next.toNat + 8192)))) ∧
        Settled { s with side := t.side, outbox := t.outbox } t ∧ s.outbox <+: t.outbox) ∧
    (next.toNat < n ∨ sent < next.toNat → Makes (.dumpStreamAck id next) s s)) ∧
  (∀ id sent n total d, s.side.stream = some (id, sent, n, total) → s.dumping = some d → s.portUp = true → n ≤ sent → sent ≤ total →
    (n < sent → max s.side.ackAt s.side.resentAt + cycPerSec ≤ s.clk.life → Answers .dumpStreamResend s fun t =>
      t.side = { s.side with stream := some (id, min total (n + 8192), n, total), resentAt := s.clk.life } ∧
      (n < total → Output.dumpStream id n (min 1024 (total - n)) s.side.lockEid ∈ t.outbox) ∧
      Settled { s with side := t.side, outbox := t.outbox } t) ∧
    (n = sent ∨ s.clk.life < max s.side.ackAt s.side.resentAt + cycPerSec → Makes .dumpStreamResend s s)) ∧
  (s.side.stream = none → Makes .dumpStreamResend s s ∧ ∀ id next, Makes (.dumpStreamAck id next) s s) ∧
  (∀ eid, s.sideUp = true → Makes (.setEventReceiver eid) s { s with
    side := { s.side with receiver := some eid }, outbox := s.outbox ++ [.pldm 0x04 0 []] }) ∧
  (∀ eid, s.sideUp = false → Makes (.setEventReceiver eid) s s) ∧
  (∀ l : List (W16 × Int), s.sideUp = false ∨ (∃ a, s.side.readAt = some a ∧ s.clk.life < a + cycPerSec / 10) → Makes (.sensorRefresh l) s s) ∧
  (∀ l : List (W16 × Int), s.sideUp = true → (∀ a, s.side.readAt = some a → a + cycPerSec / 10 ≤ s.clk.life) → (l.map (·.1)).Nodup →
    Answers (.sensorRefresh l) s fun t =>
      (s.allSensors = true → (∀ x ∈ s.stateSensors, t.side.readings.get? x.1 = some x.2) ∧
        ∀ x ∈ l, 1 ≤ x.1.toNat → x.1.toNat ≤ 0x13 → t.side.readings.get? x.1.toNat = some x.2 ∧
          (∀ e, s.side.receiver = some e → isTemp x.1.toNat = true → zone ((s.side.readings.get? x.1.toNat).getD 0) ≠ zone x.2 →
            Output.platformEvent x.1.toNat x.2 e ∈ t.outbox)) ∧
      (s.allSensors = false → (∀ k, k ≠ 0x0A → t.side.readings.get? k = none) ∧
        ∀ x ∈ l, x.1 = 0x0A → t.side.readings.get? 0x0A = some x.2) ∧
      Settled { s with side := { s.side with readings := t.side.readings, readAt := some s.clk.life }, outbox := t.outbox } t)) ∧
  (∀ (s : State),
  (∀ (len : W32), s.pldmOn = true → s.mgmt.fw = .recovery ∨ (s.mgmt.fw = .idle ∧ s.host.owner ≠ .host) → 4096 ≤ len.toNat → len.toNat ≤ 64 * 2 ^ 20 →
    s.mgmt.commitOp = none →
    Makes (.requestUpdate len) s { s with
      mgmt := { s.mgmt with
        fw := if s.mgmt.fw = .recovery then .recovery else .staging, stage := [], stageLen := len.toNat, pldm := true, pldmGot := 0, pldmLen := len.toNat }
      host := { s.host with owner := if s.mgmt.fw = .recovery then s.host.owner else .sideband }
      outbox := s.outbox ++ [.pldm 0x10 0 [], .pldm 0x15 0 (le 4 0 ++ le 4 1024)] }) ∧
  (∀ (len : W32), s.sideUp = true → s.pldmOn = false ∨ len.toNat < 4096 ∨ 64 * 2 ^ 20 < len.toNat ∨ s.mgmt.commitOp ≠ none ∨
      (s.mgmt.fw ≠ .recovery ∧ (s.mgmt.fw ≠ .idle ∨ s.host.owner = .host)) →
    Makes (.requestUpdate len) s { s with outbox := s.outbox ++ [.pldm 0x10 1 []] }) ∧
  (∀ (off : W32) b, s.sideUp = true → s.mgmt.pldm = true → s.mgmt.commitOp = none → s.mgmt.fw = .staging ∨ s.mgmt.fw = .recovery →
    off.toNat = s.mgmt.pldmGot → b.length = min 1024 (s.mgmt.pldmLen - s.mgmt.pldmGot) → b ≠ [] →
    (off.toNat + b.length < s.mgmt.pldmLen → Makes (.firmwareDataPart off b) s { s with
      mgmt := { s.mgmt with stage := s.mgmt.stage.write off.toNat b, pldmGot := off.toNat + b.length }
      outbox := s.outbox ++ [.pldm 0x15 0 (le 4 (off.toNat + b.length) ++ le 4 (min 1024 (s.mgmt.pldmLen - (off.toNat + b.length))))] }) ∧
    (s.mgmt.pldmLen ≤ off.toNat + b.length → Makes (.firmwareDataPart off b) s { s with mgmt := { s.mgmt with
      stage := s.mgmt.stage.write off.toNat b, pldmGot := off.toNat + b.length, fw := if s.mgmt.fw = .recovery then .recovery else .verifying
      commitOp := some (0, false), commitReel := false } })) ∧
  (∀ (off : W32) b, s.sideUp = false ∨ s.mgmt.pldm = false ∨ off.toNat ≠ s.mgmt.pldmGot → Makes (.firmwareDataPart off b) s s) ∧
  (s.pldmOn = true → s.mgmt.pldm = true → s.mgmt.fw = .pending → s.host.owner = .sideband →
    Answers .activateFirmware s fun t => t.host.fwReady = false ∧ t.host.owner = .free ∧ .pldm 0x1A 0 (le 2 1) ∈ t.outbox ∧
      t.mgmt = { s.mgmt with pldm := false, pldmGot := 0, pldmLen := 0, restart := some none } ∧
      t.ctxs = s.ctxs ∧ SameMemory s t ∧ t.ident = s.ident ∧ t.start = s.start) ∧
  (s.sideUp = true → s.pldmOn = false ∨ s.mgmt.pldm = false ∨ s.mgmt.fw ≠ .pending →
    Makes .activateFirmware s { s with outbox := s.outbox ++ [.pldm 0x1A 1 []] }) ∧
  (s.sideUp = true → s.mgmt.pldm = true → s.mgmt.fw ≠ .writing → s.mgmt.fw ≠ .pending →
    Makes .cancelUpdate s { s with
      mgmt := { s.mgmt with
        fw := if s.mgmt.fw = .recovery then .recovery else .idle, stage := [], stageLen := 0, commitOp := none, pldm := false, pldmGot := 0, pldmLen := 0 }
      host := { s.host with owner := if s.host.owner = .sideband ∧ s.mgmt.fw ≠ .recovery then .free else s.host.owner }
      outbox := s.outbox ++ [.pldm 0x1D 0 []] }) ∧
  (s.sideUp = true → s.mgmt.pldm = false ∨ s.mgmt.fw = .writing ∨ s.mgmt.fw = .pending →
    Makes .cancelUpdate s { s with outbox := s.outbox ++ [.pldm 0x1D 1 []] }) ∧
  (s.sideUp = false → Makes .activateFirmware s s ∧ Makes .cancelUpdate s s ∧ ∀ len, Makes (.requestUpdate len) s s))

/-- Attestation from the end of stage 2: version 1.3, capabilities and algorithms are reported, slot 0's digest is of its chain and
GET_CERTIFICATE gives the bytes asked for; a challenge and signed measurements are signed with the alias key over the request's
nonce, and refused in external test mode and without keys; an unsigned measurement, of one block, of all or their count, is still
answered. Nothing but the free values taken changes (R617–R622; the message bodies by log entry 34). -/
def Obligations.Attestation : Prop := ∀ (s : State),
  (s.spdmOn = false → ∀ c, c ∈ [Instr.getVersion, .getCapabilities, .negotiateAlgorithms, .getDigests] ∨ (∃ o l, c = .getCertificate o l) ∨
    (∃ n, c = .challenge n) ∨ (∃ i g n, c = .getMeasurements i g n) → Makes c s s) ∧
  (s.spdmOn = true →
    Makes .getVersion s { s with outbox := s.outbox ++ [.spdm 0x04 (le 1 0 ++ le 1 1 ++ le 2 0x1300)] } ∧
    Makes .getCapabilities s { s with outbox := s.outbox ++ [.spdm 0x61 (le 4 0x16)] } ∧
    Makes .negotiateAlgorithms s { s with outbox := s.outbox ++ [.spdm 0x63 (le 4 0x20 ++ le 1 4 ++ le 4 0xE365 ++ le 2 1)] } ∧
    Makes .getDigests s { s with outbox := s.outbox ++ [.spdm 0x01 (sha3 s.certChain)] } ∧
    (∀ (off len : W16) b, b = (s.certChain.drop off.toNat).take len.toNat →
      Makes (.getCertificate off len) s { s with outbox := s.outbox ++ [if off.toNat < s.certChain.length then .spdm 0x02 (le 2 b.length ++
        le 2 (s.certChain.length - off.toNat - b.length) ++ b) else .spdm 0x7F [0x01]] }) ∧
    (∀ n, s.mgmt.testMode = true ∨ s.mgmt.keysHeld = false → Makes (.challenge n) s { s with outbox := s.outbox ++ [.spdm 0x7F [0x05]] } ∧
      ∀ i, Makes (.getMeasurements i true n) s { s with outbox := s.outbox ++ [.spdm 0x7F [0x05]] }) ∧
    (∀ n, s.mgmt.testMode = false → s.mgmt.keysHeld = true → ∃ nonce : List Byte, nonce.length = 32 ∧
      Makes (.challenge n) s { s with fresh := s.fresh + (sha3 s.certChain).length + 32, outbox := s.outbox ++ [.spdm 0x03 (sha3 s.certChain ++ nonce ++
        s.aliasSign 0x03 (le 32 n.toNat ++ (sha3 s.certChain ++ nonce)))] }) ∧
    (∀ n (i : Byte), 7 < i.toNat → i.toNat ≠ 0xFF → Makes (.getMeasurements i false n) s { s with outbox := s.outbox ++ [.spdm 0x7F [0x01]] } ∧
      (s.mgmt.testMode = false → s.mgmt.keysHeld = true → Makes (.getMeasurements i true n) s { s with outbox := s.outbox ++ [.spdm 0x7F [0x01]] })) ∧
    (∀ n (i : Byte) (body : List RByte), i.toNat ≤ 7 ∨ i.toNat = 0xFF →
      body = (if i.toNat = 0 then fld 1 7 else if i.toNat = 0xFF then fld 1 7 ++ (rangeFrom 1 7).flatMap s.measured
        else fld 1 1 ++ fld 1 i.toNat ++ fld 2 (s.measurement i.toNat).length ++ s.measurement i.toNat) →
      (∃ b : List Byte, b.length = body.length ∧ (∀ (k : Nat) x, body[k]? = some x → ∃ w, b[k]? = some (x.value w)) ∧
        Makes (.getMeasurements i false n) s { s with fresh := s.fresh + b.length, outbox := s.outbox ++ [.spdm 0x60 b] }) ∧
      (s.mgmt.testMode = false → s.mgmt.keysHeld = true → ∃ (b nonce : List Byte), nonce.length = 32 ∧ b.length = body.length ∧
        (∀ (k : Nat) x, body[k]? = some x → ∃ w, b[k]? = some (x.value w)) ∧
        Makes (.getMeasurements i true n) s { s with fresh := s.fresh + (b ++ nonce).length, outbox := s.outbox ++ [.spdm 0x60 (b ++ nonce ++
          s.aliasSign 0x60 (le 32 n.toNat ++ (b ++ nonce)))] })))

/-- The platform's signals: removal of aux is a power cycle, in which fuses, module flash and what lies on the cartridge outlast
everything else; its arrival is the zero of a cold start; PLAT_RST_N asks for a warm reset; WAKE_REQ_N leaves M3 and acts nowhere
else; external test mode zeroises the keys and is latched; WARM_RESET keeps LPDDR5X, the pool and the sideband besides, and begins
at the boot ROM stage. With aux away, or after THERMTRIP_N, no signal is looked at (R519, R521, R607, R621, R676, R695, R715–R718).
-/
def Obligations.PlatformSignals : Prop := ∀ (s : State), Shaped s →
  (s.start.aux = false → exec .auxRemoval s = .next s) ∧
  (s.start.aux = true → Answers .auxRemoval s fun t => t.start.aux = false ∧ t.start.stage = 1 ∧
    t.ident = { s.ident with straps := 0, fwVer := 0, idSvn := 0, poolGib := 0 } ∧
    t.mgmt.flash = s.mgmt.flash ∧ t.mgmt.flashLen = s.mgmt.flashLen ∧ t.mgmt.keys = s.mgmt.keys ∧ t.mgmt.settings = s.mgmt.settings ∧
    t.mgmt.testMode = false ∧ t.mgmt.keysHeld = false ∧ t.logs.ledger = s.logs.ledger ∧ t.logs.repair = s.logs.repair ∧
    t.logs.repairPend = s.logs.repairPend ∧ t.logs.errs = [] ∧ t.dram = [] ∧ t.pool = [] ∧ t.tiles = [] ∧ t.reel.data = s.reel.data ∧
    t.ctxs = List.replicate 64 {} ∧ t.jobs = [] ∧ t.ops = [] ∧ t.side = {} ∧ t.dumps = s.dumps.filter fun d => decide (d.place = 1)) ∧
  (s.start.aux = false → Makes .auxArrival s { s with
    start := { s.start with aux := true, stage := 1, kind := 0 }, clk := { s.clk with zero := s.clk.life, stageZero := s.clk.life } }) ∧
  (s.start.aux = true → Makes .auxArrival s s) ∧
  (s.pinsOn = false → Makes .platRstN s s ∧ Makes .wakeReqN s s ∧ Makes .testModeEntry s s ∧ exec .warmReset s = .next s) ∧
  (s.pinsOn = true →
    Makes .platRstN s { s with
      ctxs := s.ctxs.map fun x => { x with hold := .stopped }, clk := { s.clk with zero := s.clk.life }
      start := { s.start with warmDue := true, warmBy := some 2 } } ∧
    (s.start.pwr = .m3 → s.start.stage = 0xA → s.start.warmDue = false → Answers .wakeReqN s fun t => t.start.stage = 3 ∧ t.start.kind = 2 ∧
      t.start.pwr = .m0 ∧ t.start.pwrOp = some (.m0, none) ∧ t.ctxs = s.ctxs ∧ SameMemory s t ∧ t.ident = s.ident ∧ t.mgmt = s.mgmt) ∧
    (s.start.pwr ≠ .m3 ∨ s.start.stage ≠ 0xA ∨ s.start.warmDue = true → Makes .wakeReqN s s) ∧
    Makes .testModeEntry s { s with mgmt := { s.mgmt with testMode := true, keysHeld := false } } ∧
    (s.start.warmDue = false → exec .warmReset s = .next s) ∧
    (s.start.warmDue = true → Answers .warmReset s fun t => t.start.stage = 2 ∧ t.start.kind = 1 ∧ t.start.warmDue = false ∧ t.start.aux = true ∧
      t.ident = { s.ident with fwVer := 0, idSvn := 0, poolGib := 0 } ∧
      t.mgmt.flash = s.mgmt.flash ∧ t.mgmt.keys = s.mgmt.keys ∧ t.mgmt.settings = s.mgmt.settings ∧ t.mgmt.testMode = s.mgmt.testMode ∧
      t.logs.ledger = s.logs.ledger ∧ t.logs.repair = s.logs.repair ∧ t.logs.errs = [] ∧ t.dram = s.dram ∧ t.pool = s.pool ∧ t.tiles = [] ∧
      t.reel.data = s.reel.data ∧ t.reel.st = (if s.reel.latch then .starting else .absent) ∧ t.ctxs = List.replicate 64 {} ∧ t.jobs = [] ∧
      t.ops = [] ∧ t.dumps = s.dumps ∧ t.side = { s.side with outstanding := none, held := none, stream := none } ∧
      (∀ p, p < 8 → (s.pt p).en = true → .enable p false ∈ t.outbox)))

/-- Start-up to the end of the BIST stage: the aux stage samples the straps; the boot ROM runs the image of module flash, or goes to
recovery, where a Reel with an image is tried before the host and the sideband; the rails come up and the error log starts, after a
warm reset with WARM_RESET; a rail without PG 10 ms after its enable leaves its partition Off, VSOC's halts start-up, and so do
sixteen failed cores; full BIST marks what it cannot repair. A stage that is not the present one, or after a warm reset has been
accepted, changes nothing (R454, R457, R500, R617, R626, R632, R633, R694, R696, R698, R699, R706, R707). -/
def Obligations.StartupStages : Prop := ∀ (s : State) (v : Verdict) (cond : BistCond), Shaped s →
  (∀ straps fails cols d2d, (s.start.stage ≠ 1 ∨ s.start.aux = false → Makes (.stageAuxDone straps) s s) ∧
    (s.start.stage ≠ 2 ∨ s.start.aux = false ∨ s.start.warmDue = true → ∀ src, Makes (.stageBootRomDone src v) s s) ∧
    (s.start.stage ≠ 3 ∨ s.start.aux = false ∨ s.start.warmDue = true → Makes (.stageRailsDone fails) s s ∧ ∀ p, Makes (.railPgTimeout p) s s) ∧
    (s.start.stage ≠ 4 ∨ s.start.aux = false ∨ s.start.warmDue = true → Makes (.stageBistDone cols d2d cond) s s)) ∧
  (∀ straps, s.start.aux = true → s.start.stage = 1 → Answers (.stageAuxDone straps) s fun t => t.start.stage = 2 ∧
    t.ident = { s.ident with straps := straps } ∧ t.reel.st = (if s.reel.latch then .starting else s.reel.st) ∧ t.mgmt = s.mgmt ∧
    t.ctxs = s.ctxs ∧ SameMemory s t) ∧
  (s.start.aux = true → s.start.stage = 2 → s.start.warmDue = false →
    (s.mgmt.fw ≠ .recovery → s.imageOk s.flashImage v = true → Answers (.stageBootRomDone 0 v) s fun t => t.start.stage = 3 ∧
      t.mgmt.runDigest = sha3 s.flashImage ∧ t.mgmt.runSvn = fieldAt s.flashImage 6 1 ∧ t.mgmt.keysHeld = !s.mgmt.testMode ∧
      t.mgmt.aliasCert = !s.mgmt.testMode ∧ t.mgmt.fwRecovery = false ∧ t.mgmt.flash = s.mgmt.flash ∧ t.ident.svn = s.ident.svn ∧
      t.host.fwReady = false ∧ t.ctxs = s.ctxs ∧ SameMemory s t) ∧
    (s.mgmt.fw ≠ .recovery → s.imageOk s.flashImage v = false → Answers (.stageBootRomDone 0 v) s fun t => t.start.stage = 2 ∧
      t.mgmt.fw = .recovery ∧ t.mgmt.fwRecovery = true ∧ t.mgmt.recovery = (if s.reelRecovers then 2 else 3) ∧
      (s.reelRecovers = true → t.ident = s.ident) ∧
      (s.reelRecovers = false → t.host.fwReady = true ∧ t.ident = { s.ident with idSvn := s.ident.svn, fwVer := t.ident.fwVer, poolGib := t.ident.poolGib }) ∧
      t.mgmt.flash = s.mgmt.flash ∧ t.ctxs = s.ctxs ∧ SameMemory s t) ∧
    (s.mgmt.fw = .recovery → s.mgmt.recovery = 2 → s.reelRecovers = true → s.imageOk s.reelImage v = true →
      Answers (.stageBootRomDone 1 v) s fun t => t.start.stage = 3 ∧ t.mgmt.runDigest = sha3 s.reelImage ∧ t.mgmt.fw = .idle ∧
        t.mgmt.flash = memOf s.reelImage ∧ t.mgmt.flashLen = s.reelImage.length ∧ t.ctxs = s.ctxs ∧ SameMemory s t) ∧
    (s.mgmt.fw = .recovery → s.mgmt.recovery = 2 → s.reelRecovers = false ∨ s.imageOk s.reelImage v = false →
      Answers (.stageBootRomDone 1 v) s fun t => t.start.stage = 2 ∧ t.mgmt.fw = .recovery ∧ t.mgmt.recovery = 3 ∧ t.host.fwReady = true ∧
        t.mgmt.flash = s.mgmt.flash ∧ t.ident = { s.ident with idSvn := s.ident.svn, fwVer := t.ident.fwVer, poolGib := t.ident.poolGib } ∧
        t.ctxs = s.ctxs ∧ SameMemory s t) ∧
    (∀ src : Fin 4, 2 ≤ src.val → (s.mgmt.fw ≠ .recovery ∨ s.mgmt.recovery < src.val + 1 → Makes (.stageBootRomDone src v) s s) ∧
      (s.mgmt.fw = .recovery → src.val + 1 ≤ s.mgmt.recovery → exec (.stageBootRomDone src v) s = exec (.fwCommitFinished v) s))) ∧
  (s.start.aux = true → s.start.stage = 3 → s.start.warmDue = false → s.ident.fusedRepairs = [] →
    (∀ fails : List (Fin 16), s.logs.inForce = [] → (∃ c : Fin 16, c.val ∉ s.dies.coreOff ∧ c ∉ fails) →
      Answers (.stageRailsDone fails) s fun t => t.start.stage = 4 ∧ (∀ c ∈ fails, c.val ∈ t.dies.coreOff) ∧ t.start.vsoc = true ∧ .enable 8 true ∈ t.outbox ∧
      (∀ p, p < 8 → (s.pt p).en = true → (s.pt p).pg = true → (t.pt p).pwr = .run ∧ (t.pt p).mv = 750) ∧
      (∀ p, p < 8 → (s.pt p).en = false → (t.pt p).pwr = .run ∧ (t.pt p).en = true ∧ (t.pt p).pg = true ∧ .enable p true ∈ t.outbox) ∧
      (∀ p, p < 8 → (s.pt p).en = true → (s.pt p).pg = false → t.pt p = s.pt p) ∧
      (∀ r, fails = [] → s.start.kind = 1 → s.start.warmBy = some r → s.logs.errs = [] → s.logs.early = [] → ∃ x, t.logs.errs = [x] ∧ x.cls = 0x0503 ∧
        x.seq = s.logs.seq + 1 ∧ x.body = le 1 r ++ le 3 0) ∧
      t.logs.early = [] ∧ t.ctxs = s.ctxs ∧ SameMemory s t ∧ t.mgmt = s.mgmt ∧ t.ident = s.ident) ∧
    (s.logs.inForce = [] → ∀ fails, (∀ c, c ∈ fails) → Answers (.stageRailsDone fails) s fun t => t.start.stage = 0xF ∧ t.start.halt = 2 ∧
      t.ctxs = s.ctxs ∧ SameMemory s t ∧ t.mgmt = s.mgmt ∧ t.ident = s.ident)) ∧
  (s.clk.life < s.clk.stageZero + usCyc 10000 ∨ s.pinsOn = false → ∀ p, Makes (.railPgTimeout p) s s) ∧
  (s.pinsOn = true → s.start.stage = 3 → s.start.warmDue = false → s.clk.stageZero + usCyc 10000 ≤ s.clk.life →
    (Answers (.railPgTimeout 8) s fun t => t.start.stage = 0xF ∧ t.start.halt = 1 ∧ t.ctxs = s.ctxs ∧ SameMemory s t ∧ t.ident = s.ident) ∧
    (∀ (p : Fin 9), p ≠ 8 → Answers (.railPgTimeout p) s fun t => (t.pt p).pwr = .off ∧ (t.pt p).en = true ∧ (t.pt p).pg = false ∧
      (∃ r ∈ t.logs.early, r.cls = 0x0509) ∧ (∀ q, q ≠ p.val → t.pt q = s.pt q) ∧ t.ctxs = s.ctxs ∧ SameMemory s t ∧ SameManagement s t)) ∧
  (s.start.aux = true → s.start.stage = 4 → s.start.warmDue = false →
    (Answers (.stageBistDone [] [] cond) s fun t => t.start.stage = 5 ∧
      (∀ n, n < 24 → t.sheet n = { s.sheet n with linkFail := false, bist := (t.sheet n).bist }) ∧ t.ctxs = s.ctxs ∧ SameMemory s t ∧ t.mgmt = s.mgmt ∧ t.ident = s.ident) ∧
    (∀ (x : ColFail), s.logs.inForce = [] → Answers (.stageBistDone [x] [] cond) s fun t => t.start.stage = 5 ∧
        ((s.sheet x.sh).broke.contains x.pc.val = true ∨ (s.pt (ptOfSheet x.sh)).pwr = .off ∨ isFailure x.fail = false →
          (t.sheet x.sh).broke = (s.sheet x.sh).broke) ∧
        ((s.sheet x.sh).broke.contains x.pc.val = false → (s.pt (ptOfSheet x.sh)).pwr ≠ .off → isFailure x.fail = true →
          (s.canRepair x.sh x.pc x.fail = true → (t.sheet x.sh).broke = (s.sheet x.sh).broke) ∧
          (s.canRepair x.sh x.pc x.fail = false → x.pc.val ∈ (t.sheet x.sh).broke ∧ (∃ r ∈ t.logs.errs, r.cls = 0x0302))) ∧
        t.ctxs = s.ctxs ∧ t.dram = s.dram ∧ t.pool = s.pool ∧ t.mgmt = s.mgmt ∧ t.ident = s.ident) ∧
    (∀ (d : D2dFail), Answers (.stageBistDone [] [d] cond) s fun t => t.start.stage = 5 ∧ (t.sheet d.sh).linkFail = !d.repaired ∧
      t.ctxs = s.ctxs ∧ SameMemory s t ∧ t.mgmt = s.mgmt ∧ t.ident = s.ident))

/-- Start-up from the repair record to mailbox ready: a valid record comes into force, without one it is made anew; the channels are
trained or broke, memory is zero after a cold start and kept otherwise; stage 8 follows the later of stages 6 and 7; the maps are
installed with SMAP_GEN 1, at mailbox ready handles are issued and commands accepted; a halted start-up says why; the recovery
window's end offers PLDM (R67, R276, R278, R454, R460–R462, R632, R694, R699–R704, R706). -/
def Obligations.StartupEnds : Prop := ∀ (s : State), Shaped s → s.start.aux = true →
  (∀ bad v broke nf ef b, (s.start.warmDue = true ∨ s.start.stage ≠ 5 → Makes (.stageRepairRecordDone bad v) s s) ∧
    (s.start.warmDue = true ∨ (s.start.stage ≠ 6 ∧ s.start.stage ≠ 7) ∨ s.start.six = true → Makes (.stageLpddr5xDone broke) s s) ∧
    (s.start.warmDue = true ∨ (s.start.stage ≠ 6 ∧ s.start.stage ≠ 7) ∨ s.start.seven = true → Makes (.stageLinksDone nf ef b) s s) ∧
    (s.start.warmDue = true ∨ s.start.stage ≠ 8 → Makes .stageSheetMapsDone s s) ∧ (s.start.warmDue = true ∨ s.start.stage ≠ 9 → Makes .mailboxReady s s) ∧
    (∀ c : Fin 4, s.start.warmDue = true ∨ c = 0 ∨ ((c = 1 ∨ c = 2) ∧ s.start.stage ≠ 3) ∨
      (c = 3 ∧ ∀ n, stageMax s.start.stage = some n → s.clk.life ≤ s.clk.stageZero + usCyc (1000 * n)) → Makes (.startupHalt c) s s)) ∧
  (s.start.warmDue = false →
    (∀ (bad : List W32) v, s.start.stage = 5 → Answers (.stageRepairRecordDone bad v) s fun t => t.start.stage = 6 ∧
      (v.sigOk = true → (∀ e ∈ s.logs.repair, ∃ f ∈ t.logs.inForce, sameRepair e f = true) ∧ t.start.repairLost = s.start.repairLost) ∧
      (v.sigOk = false → t.start.repairLost = true ∧ ∃ r ∈ t.logs.errs, r.cls = 0x030B) ∧ t.logs.ledger = s.logs.ledger.filter (fun r => !bad.contains (BitVec.ofNat 32 (fieldAt r 0 4))) ∧
      (∀ k, k < 18 → (t.port k).st = .training ∧ (t.port k).eth = (s.settingNat 0x13).testBit k) ∧ t.ctxs = s.ctxs ∧ t.dram = s.dram ∧
      t.pool = s.pool ∧ t.mgmt = s.mgmt ∧ t.ident = s.ident) ∧
    (∀ broke, s.start.stage = 6 ∨ s.start.stage = 7 → s.start.six = false → Answers (.stageLpddr5xDone broke) s fun t =>
      t.start.six = true ∧ t.start.stage = (if s.start.seven then 8 else 7) ∧
      (∀ c, c < 192 → (t.chan c).broke = (decide (∃ x ∈ broke, x.val = c) || (s.chan c).broke) ∧ (t.chan c).trained = !(t.chan c).broke) ∧
      t.dram = (if s.start.kind = 0 then [] else s.dram) ∧ t.pool = (if s.start.kind = 0 then [] else s.pool) ∧ t.tiles = s.tiles ∧
      t.mgmt = s.mgmt ∧ t.ident = s.ident) ∧
    (s.start.stage = 6 ∨ s.start.stage = 7 → s.start.seven = false →
      (∀ nf ef out, (∀ x ∈ s.ports, x.st = .up ∨ x.st = .failed) ∨ (out = true ∧ s.clk.stageZero + 52 * cycPerSec ≤ s.clk.life) →
        Answers (.stageLinksDone nf ef out) s fun t => t.start.seven = true ∧ t.start.stage = (if s.start.six then 8 else 6) ∧
          (s.logs.inForce = [] → (∀ d ∈ nf, d.val ∈ t.dies.nipOff) ∧ ∀ d ∈ ef, d.val ∈ t.dies.ecOff) ∧ t.ports = s.ports ∧ t.ctxs = s.ctxs ∧
          SameMemory s t ∧ t.mgmt = s.mgmt) ∧
      (∀ nf ef out, (∃ x ∈ s.ports, x.st ≠ .up ∧ x.st ≠ .failed) → out = false ∨ s.clk.life < s.clk.stageZero + 52 * cycPerSec →
        Makes (.stageLinksDone nf ef out) s s)) ∧
    (s.start.stage = 8 → Answers .stageSheetMapsDone s fun t => t.start.stage = 9 ∧ (∀ n, n < 24 → (t.sheet n).gen = 1 ∧ (t.sheet n).dwell = none ∧
        ((s.sheet n).ns = [] → (s.sheet n).health = 0 → (t.sheet n).rove = some 0 ∧ (t.sheet n).stand = some 17 ∧
          (t.sheet n).map = (List.range 16).map fun c => some (c + 1)) ∧
        ((s.sheet n).health = 2 → (t.sheet n).rove = none ∧ (t.sheet n).map = List.replicate 16 none)) ∧
      t.ctxs = s.ctxs ∧ SameMemory s t ∧ t.mgmt = s.mgmt ∧ t.ident = s.ident) ∧
    (s.start.stage = 9 → Answers .mailboxReady s fun t => t.start.stage = 0xA ∧ t.start.handles = true ∧ t.host.fwReady = true ∧ t.host.cause.getLsbD 4 = true ∧
      t.start.pwrOp = none ∧ (∀ p, p < 8 → (t.pt p).perf = s.settingNat 0x12) ∧ (s.start.kind ≠ 2 → t.sessions = [] ∧ ((∀ p, p < 8 → (s.pt p).counters = []) → t.ctxs = s.ctxs)) ∧
      (s.mgmt.forceSvn = false → t.ident = s.ident) ∧ s.ident.svn ≤ t.ident.svn ∧ t.dram = s.dram ∧ t.pool = s.pool ∧ t.mgmt = s.mgmt) ∧
    (∀ (c : Fin 4), s.start.stage = 3 ∧ (c = 1 ∨ c = 2) ∨
        c = 3 ∧ (∃ n, stageMax s.start.stage = some n ∧ s.clk.stageZero + usCyc (1000 * n) < s.clk.life) →
      Makes (.startupHalt c) s { s with start := { s.start with stage := 0xF, halt := c.val } })) ∧
  (s.mgmt.fw = .recovery → s.mgmt.recovery = 3 → s.mgmt.waitHostAt + 120 * cycPerSec ≤ s.clk.life → Makes .recoveryHostWindowExpired s { s with mgmt := { s.mgmt with recovery := 4 } }) ∧
  (s.mgmt.fw ≠ .recovery ∨ s.mgmt.recovery ≠ 3 ∨ s.clk.life < s.mgmt.waitHostAt + 120 * cycPerSec → Makes .recoveryHostWindowExpired s s)
end

