-- ==== Sys2Proof/Laws/Mem.lean ====
section
/-!
SUPPORT. The laws of sparse memories and tables: a read after a write, what a write leaves alone, and that every write keeps
the canonical form.
-/
namespace Sys2Proof.Machine

/-! ### Memories -/

theorem Mem.wfFrom_mono {lo hi : Nat} {m : Mem} (h : lo ≤ hi) (w : m.wfFrom hi = true) : m.wfFrom lo = true := by
  cases m with
  | nil => rfl
  | cons e r => obtain ⟨k, v⟩ := e; simp only [Mem.wfFrom, Bool.and_eq_true, decide_eq_true_eq] at w ⊢; exact ⟨⟨by omega, w.1.2⟩, w.2⟩

/-- Below the lowest key everything reads zero. -/
theorem Mem.get_below {lo a : Nat} {m : Mem} (w : m.wfFrom lo = true) (h : a < lo) : m.get a = 0 := by
  cases m with
  | nil => rfl
  | cons e r =>
    obtain ⟨k, v⟩ := e
    simp only [Mem.wfFrom, Bool.and_eq_true, decide_eq_true_eq] at w
    rw [Mem.get, if_pos (by omega)]

theorem Mem.wfFrom_put {lo : Nat} {m : Mem} (a : Nat) (b : Byte) (w : m.wfFrom lo = true) (h : lo ≤ a) :
    (m.put a b).wfFrom lo = true := by
  induction m generalizing lo with
  | nil =>
    rw [Mem.put]; split
    · rfl
    · rename_i hb
      simp only [Mem.wfFrom, Bool.and_eq_true, decide_eq_true_eq]; exact ⟨⟨h, hb⟩, trivial⟩
  | cons e r ih =>
    obtain ⟨k, v⟩ := e
    simp only [Mem.wfFrom, Bool.and_eq_true, decide_eq_true_eq] at w
    obtain ⟨⟨h1, h2⟩, h3⟩ := w
    rw [Mem.put]
    split
    · split
      · simp only [Mem.wfFrom, Bool.and_eq_true, decide_eq_true_eq]; exact ⟨⟨h1, h2⟩, h3⟩
      · rename_i hb
        simp only [Mem.wfFrom, Bool.and_eq_true, decide_eq_true_eq]; exact ⟨⟨h, hb⟩, ⟨by omega, h2⟩, h3⟩
    · split
      · split
        · exact Mem.wfFrom_mono (by omega) h3
        · rename_i hk hb
          subst hk
          simp only [Mem.wfFrom, Bool.and_eq_true, decide_eq_true_eq]; exact ⟨⟨h, hb⟩, h3⟩
      · simp only [Mem.wfFrom, Bool.and_eq_true, decide_eq_true_eq]
        exact ⟨⟨h1, h2⟩, ih h3 (by omega)⟩

/-- A write keeps the canonical form. -/
theorem Mem.wf_put {m : Mem} (a : Nat) (b : Byte) (w : m.wf = true) : (m.put a b).wf = true :=
  Mem.wfFrom_put a b w (Nat.zero_le a)

theorem Mem.wf_write {m : Mem} (a : Nat) (bs : List Byte) (w : m.wf = true) : (m.write a bs).wf = true := by
  induction bs generalizing m a with
  | nil => exact w
  | cons b bs ih => exact ih (a + 1) (Mem.wf_put a b w)

theorem Mem.get_put_same_from {lo : Nat} {m : Mem} (a : Nat) (b : Byte) (w : m.wfFrom lo = true) :
    (m.put a b).get a = b := by
  induction m generalizing lo with
  | nil =>
    rw [Mem.put]; split
    · rename_i hb; rw [hb]; rfl
    · rw [Mem.get, if_neg (Nat.lt_irrefl a), if_pos rfl]
  | cons e r ih =>
    obtain ⟨k, v⟩ := e
    simp only [Mem.wfFrom, Bool.and_eq_true, decide_eq_true_eq] at w
    rw [Mem.put]
    split
    · rename_i hk
      split
      · rename_i hb; rw [Mem.get, if_pos hk, hb]
      · rw [Mem.get, if_neg (Nat.lt_irrefl a), if_pos rfl]
    · split
      · rename_i hk
        subst hk
        split
        · rename_i hb; rw [hb]; exact Mem.get_below w.2 (Nat.lt_succ_self a)
        · rw [Mem.get, if_neg (Nat.lt_irrefl a), if_pos rfl]
      · rw [Mem.get, if_neg (by assumption), if_neg (by assumption)]; exact ih w.2

theorem Mem.get_put_other_from {lo : Nat} {m : Mem} (a x : Nat) (b : Byte) (w : m.wfFrom lo = true) (h : x ≠ a) :
    (m.put a b).get x = m.get x := by
  induction m generalizing lo with
  | nil =>
    rw [Mem.put]; split
    · rfl
    · simp only [Mem.get, if_neg h, ite_self]
  | cons e r ih =>
    obtain ⟨k, v⟩ := e
    simp only [Mem.wfFrom, Bool.and_eq_true, decide_eq_true_eq] at w
    rw [Mem.put]
    split
    · split
      · rfl
      · rw [Mem.get, if_neg h]
        split
        · rw [Mem.get, if_pos (by omega)]
        · rfl
    · split
      · rename_i hk
        subst hk
        split
        · rw [Mem.get, if_neg h]
          split
          · exact Mem.get_below w.2 (by omega)
          · rfl
        · rw [Mem.get, Mem.get, if_neg h, if_neg h]
      · rw [Mem.get, Mem.get, ih w.2]

/-- A read after a write to the same address. -/
theorem Mem.get_put_same {m : Mem} (a : Nat) (b : Byte) (w : m.wf = true) : (m.put a b).get a = b :=
  Mem.get_put_same_from a b w

/-- A write leaves every other address alone. -/
theorem Mem.get_put_other {m : Mem} (a x : Nat) (b : Byte) (w : m.wf = true) (h : x ≠ a) :
    (m.put a b).get x = m.get x :=
  Mem.get_put_other_from a x b w h

theorem Mem.get_write_other {m : Mem} (a x : Nat) (bs : List Byte) (w : m.wf = true)
    (h : x < a ∨ a + bs.length ≤ x) : (m.write a bs).get x = m.get x := by
  induction bs generalizing m a with
  | nil => rfl
  | cons b bs ih =>
    simp only [List.length_cons] at h
    rw [Mem.write, ih (a + 1) (Mem.wf_put a b w) (by omega), Mem.get_put_other a x b w (by omega)]

theorem Mem.get_write {m : Mem} (a i : Nat) (bs : List Byte) (w : m.wf = true) (h : i < bs.length) :
    (m.write a bs).get (a + i) = bs[i] := by
  induction bs generalizing m a i with
  | nil => simp at h
  | cons b bs ih =>
    rw [Mem.write]
    cases i with
    | zero =>
      have := Mem.get_write_other (m := m.put a b) (a + 1) a bs (Mem.wf_put a b w) (by omega)
      simpa [Mem.get_put_same a b w] using this
    | succ i =>
      have := ih (m := m.put a b) (a + 1) i (Mem.wf_put a b w) (by simpa using h)
      rw [show a + (i + 1) = a + 1 + i by omega, this]
      rfl

@[simp] theorem Mem.length_read (m : Mem) (a n : Nat) : (m.read a n).length = n := by simp [Mem.read]

/-- Bytes just written are read back. -/
theorem Mem.read_write {m : Mem} (a : Nat) (bs : List Byte) (w : m.wf = true) :
    (m.write a bs).read a bs.length = bs := by
  apply List.ext_getElem (by simp)
  intro i h1 h2
  simp only [Mem.read, List.getElem_map, List.getElem_range]
  exact Mem.get_write a i bs w h2

/-- Bytes away from a write read as before. -/
theorem Mem.read_write_other {m : Mem} (a x n : Nat) (bs : List Byte) (w : m.wf = true)
    (h : x + n ≤ a ∨ a + bs.length ≤ x) : (m.write a bs).read x n = m.read x n := by
  simp only [Mem.read]
  apply List.map_congr_left
  intro i hi
  rw [List.mem_range] at hi
  exact Mem.get_write_other a (x + i) bs w (by omega)

theorem Mem.wf_writeCtx (al : Alloc) {m : Mem} (a : Nat) (bs : List Byte) (w : m.wf = true) :
    (writeCtx al m a bs).wf = true := by
  induction bs generalizing m a with
  | nil => exact w
  | cons b bs ih => exact ih (a + 1) (Mem.wf_put _ b w)

/-- A write at context addresses leaves every other byte of LPDDR5X alone. -/
theorem Mem.get_writeCtx_other (al : Alloc) {m : Mem} (a x : Nat) (bs : List Byte) (w : m.wf = true)
    (h : ∀ i, i < bs.length → x ≠ ctxMpa al (a + i)) : (writeCtx al m a bs).get x = m.get x := by
  induction bs generalizing m a with
  | nil => rfl
  | cons b bs ih =>
    rw [writeCtx, ih (a + 1) (Mem.wf_put _ b w), Mem.get_put_other _ x b w]
    · exact h 0 (by simp)
    · intro i hi
      rw [show a + 1 + i = a + (i + 1) by omega]
      exact h (i + 1) (by simpa using hi)

/-! ### Tables -/

@[simp] theorem KMap.get?_set_same {α : Type} (m : KMap α) (a : Nat) (b : α) : (KMap.set m a b).get? a = some b := by
  induction m with
  | nil => simp [KMap.set, KMap.get?]
  | cons e r ih =>
    obtain ⟨k, v⟩ := e
    rw [KMap.set]
    split
    · simp [KMap.get?]
    · split
      · simp [KMap.get?]
      · rw [KMap.get?, if_neg (by assumption), ih]

theorem KMap.get?_set_other {α : Type} (m : KMap α) (a x : Nat) (b : α) (h : x ≠ a) :
    (KMap.set m a b).get? x = m.get? x := by
  induction m with
  | nil => simp [KMap.set, KMap.get?, h]
  | cons e r ih =>
    obtain ⟨k, v⟩ := e
    rw [KMap.set]
    split
    · rw [KMap.get?, if_neg h]
    · split
      · subst_vars; simp [KMap.get?, h]
      · rw [KMap.get?, KMap.get?, ih]

@[simp] theorem KMap.getD_set_same {α : Type} (m : KMap α) (a : Nat) (b d : α) : (KMap.set m a b).getD a d = b := by
  simp [KMap.getD]

theorem KMap.getD_set_other {α : Type} (m : KMap α) (a x : Nat) (b d : α) (h : x ≠ a) :
    (KMap.set m a b).getD x d = m.getD x d := by
  simp [KMap.getD, KMap.get?_set_other m a x b h]

end Sys2Proof.Machine
end

