-- ==== Sys2Proof/Laws/State.lean ====
section
/-!
SUPPORT. What each named update of the state leaves alone, one lemma for each field, and what it makes of the part it changes.
-/
namespace Sys2Proof.Machine

variable (s t : State)

@[simp] theorem State.modPt_clk (p : Nat) (f : Partition → Partition) : (s.modPt p f).clk = s.clk := rfl
@[simp] theorem State.modPt_ident (p : Nat) (f : Partition → Partition) : (s.modPt p f).ident = s.ident := rfl
@[simp] theorem State.modPt_host (p : Nat) (f : Partition → Partition) : (s.modPt p f).host = s.host := rfl
@[simp] theorem State.modPt_chans (p : Nat) (f : Partition → Partition) : (s.modPt p f).chans = s.chans := rfl
@[simp] theorem State.modPt_sheets (p : Nat) (f : Partition → Partition) : (s.modPt p f).sheets = s.sheets := rfl
@[simp] theorem State.modPt_tiles (p : Nat) (f : Partition → Partition) : (s.modPt p f).tiles = s.tiles := rfl
@[simp] theorem State.modPt_flights (p : Nat) (f : Partition → Partition) : (s.modPt p f).flights = s.flights := rfl
@[simp] theorem State.modPt_qmaxes (p : Nat) (f : Partition → Partition) : (s.modPt p f).qmaxes = s.qmaxes := rfl
@[simp] theorem State.modPt_dram (p : Nat) (f : Partition → Partition) : (s.modPt p f).dram = s.dram := rfl
@[simp] theorem State.modPt_pool (p : Nat) (f : Partition → Partition) : (s.modPt p f).pool = s.pool := rfl
@[simp] theorem State.modPt_poolChans (p : Nat) (f : Partition → Partition) : (s.modPt p f).poolChans = s.poolChans := rfl
@[simp] theorem State.modPt_ctxs (p : Nat) (f : Partition → Partition) : (s.modPt p f).ctxs = s.ctxs := rfl
@[simp] theorem State.modPt_rot (p : Nat) (f : Partition → Partition) : (s.modPt p f).rot = s.rot := rfl
@[simp] theorem State.modPt_ends (p : Nat) (f : Partition → Partition) : (s.modPt p f).ends = s.ends := rfl
@[simp] theorem State.modPt_copies (p : Nat) (f : Partition → Partition) : (s.modPt p f).copies = s.copies := rfl
@[simp] theorem State.modPt_sessions (p : Nat) (f : Partition → Partition) : (s.modPt p f).sessions = s.sessions := rfl
@[simp] theorem State.modPt_cache (p : Nat) (f : Partition → Partition) : (s.modPt p f).cache = s.cache := rfl
@[simp] theorem State.modPt_modCtr (p : Nat) (f : Partition → Partition) : (s.modPt p f).modCtr = s.modCtr := rfl
@[simp] theorem State.modPt_groups (p : Nat) (f : Partition → Partition) : (s.modPt p f).groups = s.groups := rfl
@[simp] theorem State.modPt_ops (p : Nat) (f : Partition → Partition) : (s.modPt p f).ops = s.ops := rfl
@[simp] theorem State.modPt_lastOp (p : Nat) (f : Partition → Partition) : (s.modPt p f).lastOp = s.lastOp := rfl
@[simp] theorem State.modPt_logs (p : Nat) (f : Partition → Partition) : (s.modPt p f).logs = s.logs := rfl
@[simp] theorem State.modPt_dies (p : Nat) (f : Partition → Partition) : (s.modPt p f).dies = s.dies := rfl
@[simp] theorem State.modPt_mgmt (p : Nat) (f : Partition → Partition) : (s.modPt p f).mgmt = s.mgmt := rfl
@[simp] theorem State.modPt_side (p : Nat) (f : Partition → Partition) : (s.modPt p f).side = s.side := rfl
@[simp] theorem State.modPt_ports (p : Nat) (f : Partition → Partition) : (s.modPt p f).ports = s.ports := rfl
@[simp] theorem State.modPt_rxq (p : Nat) (f : Partition → Partition) : (s.modPt p f).rxq = s.rxq := rfl
@[simp] theorem State.modPt_jobs (p : Nat) (f : Partition → Partition) : (s.modPt p f).jobs = s.jobs := rfl
@[simp] theorem State.modPt_reel (p : Nat) (f : Partition → Partition) : (s.modPt p f).reel = s.reel := rfl
@[simp] theorem State.modPt_dumps (p : Nat) (f : Partition → Partition) : (s.modPt p f).dumps = s.dumps := rfl
@[simp] theorem State.modPt_dumping (p : Nat) (f : Partition → Partition) : (s.modPt p f).dumping = s.dumping := rfl
@[simp] theorem State.modPt_nextDump (p : Nat) (f : Partition → Partition) : (s.modPt p f).nextDump = s.nextDump := rfl
@[simp] theorem State.modPt_start (p : Nat) (f : Partition → Partition) : (s.modPt p f).start = s.start := rfl
@[simp] theorem State.modPt_crossing (p : Nat) (f : Partition → Partition) : (s.modPt p f).crossing = s.crossing := rfl
@[simp] theorem State.modPt_scratch (p : Nat) (f : Partition → Partition) : (s.modPt p f).scratch = s.scratch := rfl
@[simp] theorem State.modPt_verdicts (p : Nat) (f : Partition → Partition) : (s.modPt p f).verdicts = s.verdicts := rfl
@[simp] theorem State.modPt_fresh (p : Nat) (f : Partition → Partition) : (s.modPt p f).fresh = s.fresh := rfl
@[simp] theorem State.modPt_outbox (p : Nat) (f : Partition → Partition) : (s.modPt p f).outbox = s.outbox := rfl
@[simp] theorem State.modPt_pending (p : Nat) (f : Partition → Partition) : (s.modPt p f).pending = s.pending := rfl

@[simp] theorem State.modChan_clk (p : Nat) (f : Chan → Chan) : (s.modChan p f).clk = s.clk := rfl
@[simp] theorem State.modChan_ident (p : Nat) (f : Chan → Chan) : (s.modChan p f).ident = s.ident := rfl
@[simp] theorem State.modChan_host (p : Nat) (f : Chan → Chan) : (s.modChan p f).host = s.host := rfl
@[simp] theorem State.modChan_pts (p : Nat) (f : Chan → Chan) : (s.modChan p f).pts = s.pts := rfl
@[simp] theorem State.modChan_sheets (p : Nat) (f : Chan → Chan) : (s.modChan p f).sheets = s.sheets := rfl
@[simp] theorem State.modChan_tiles (p : Nat) (f : Chan → Chan) : (s.modChan p f).tiles = s.tiles := rfl
@[simp] theorem State.modChan_flights (p : Nat) (f : Chan → Chan) : (s.modChan p f).flights = s.flights := rfl
@[simp] theorem State.modChan_qmaxes (p : Nat) (f : Chan → Chan) : (s.modChan p f).qmaxes = s.qmaxes := rfl
@[simp] theorem State.modChan_dram (p : Nat) (f : Chan → Chan) : (s.modChan p f).dram = s.dram := rfl
@[simp] theorem State.modChan_pool (p : Nat) (f : Chan → Chan) : (s.modChan p f).pool = s.pool := rfl
@[simp] theorem State.modChan_poolChans (p : Nat) (f : Chan → Chan) : (s.modChan p f).poolChans = s.poolChans := rfl
@[simp] theorem State.modChan_ctxs (p : Nat) (f : Chan → Chan) : (s.modChan p f).ctxs = s.ctxs := rfl
@[simp] theorem State.modChan_rot (p : Nat) (f : Chan → Chan) : (s.modChan p f).rot = s.rot := rfl
@[simp] theorem State.modChan_ends (p : Nat) (f : Chan → Chan) : (s.modChan p f).ends = s.ends := rfl
@[simp] theorem State.modChan_copies (p : Nat) (f : Chan → Chan) : (s.modChan p f).copies = s.copies := rfl
@[simp] theorem State.modChan_sessions (p : Nat) (f : Chan → Chan) : (s.modChan p f).sessions = s.sessions := rfl
@[simp] theorem State.modChan_cache (p : Nat) (f : Chan → Chan) : (s.modChan p f).cache = s.cache := rfl
@[simp] theorem State.modChan_modCtr (p : Nat) (f : Chan → Chan) : (s.modChan p f).modCtr = s.modCtr := rfl
@[simp] theorem State.modChan_groups (p : Nat) (f : Chan → Chan) : (s.modChan p f).groups = s.groups := rfl
@[simp] theorem State.modChan_ops (p : Nat) (f : Chan → Chan) : (s.modChan p f).ops = s.ops := rfl
@[simp] theorem State.modChan_lastOp (p : Nat) (f : Chan → Chan) : (s.modChan p f).lastOp = s.lastOp := rfl
@[simp] theorem State.modChan_logs (p : Nat) (f : Chan → Chan) : (s.modChan p f).logs = s.logs := rfl
@[simp] theorem State.modChan_dies (p : Nat) (f : Chan → Chan) : (s.modChan p f).dies = s.dies := rfl
@[simp] theorem State.modChan_mgmt (p : Nat) (f : Chan → Chan) : (s.modChan p f).mgmt = s.mgmt := rfl
@[simp] theorem State.modChan_side (p : Nat) (f : Chan → Chan) : (s.modChan p f).side = s.side := rfl
@[simp] theorem State.modChan_ports (p : Nat) (f : Chan → Chan) : (s.modChan p f).ports = s.ports := rfl
@[simp] theorem State.modChan_rxq (p : Nat) (f : Chan → Chan) : (s.modChan p f).rxq = s.rxq := rfl
@[simp] theorem State.modChan_jobs (p : Nat) (f : Chan → Chan) : (s.modChan p f).jobs = s.jobs := rfl
@[simp] theorem State.modChan_reel (p : Nat) (f : Chan → Chan) : (s.modChan p f).reel = s.reel := rfl
@[simp] theorem State.modChan_dumps (p : Nat) (f : Chan → Chan) : (s.modChan p f).dumps = s.dumps := rfl
@[simp] theorem State.modChan_dumping (p : Nat) (f : Chan → Chan) : (s.modChan p f).dumping = s.dumping := rfl
@[simp] theorem State.modChan_nextDump (p : Nat) (f : Chan → Chan) : (s.modChan p f).nextDump = s.nextDump := rfl
@[simp] theorem State.modChan_start (p : Nat) (f : Chan → Chan) : (s.modChan p f).start = s.start := rfl
@[simp] theorem State.modChan_crossing (p : Nat) (f : Chan → Chan) : (s.modChan p f).crossing = s.crossing := rfl
@[simp] theorem State.modChan_scratch (p : Nat) (f : Chan → Chan) : (s.modChan p f).scratch = s.scratch := rfl
@[simp] theorem State.modChan_verdicts (p : Nat) (f : Chan → Chan) : (s.modChan p f).verdicts = s.verdicts := rfl
@[simp] theorem State.modChan_fresh (p : Nat) (f : Chan → Chan) : (s.modChan p f).fresh = s.fresh := rfl
@[simp] theorem State.modChan_outbox (p : Nat) (f : Chan → Chan) : (s.modChan p f).outbox = s.outbox := rfl
@[simp] theorem State.modChan_pending (p : Nat) (f : Chan → Chan) : (s.modChan p f).pending = s.pending := rfl

@[simp] theorem State.modSheet_clk (p : Nat) (f : Sheet → Sheet) : (s.modSheet p f).clk = s.clk := rfl
@[simp] theorem State.modSheet_ident (p : Nat) (f : Sheet → Sheet) : (s.modSheet p f).ident = s.ident := rfl
@[simp] theorem State.modSheet_host (p : Nat) (f : Sheet → Sheet) : (s.modSheet p f).host = s.host := rfl
@[simp] theorem State.modSheet_pts (p : Nat) (f : Sheet → Sheet) : (s.modSheet p f).pts = s.pts := rfl
@[simp] theorem State.modSheet_chans (p : Nat) (f : Sheet → Sheet) : (s.modSheet p f).chans = s.chans := rfl
@[simp] theorem State.modSheet_tiles (p : Nat) (f : Sheet → Sheet) : (s.modSheet p f).tiles = s.tiles := rfl
@[simp] theorem State.modSheet_flights (p : Nat) (f : Sheet → Sheet) : (s.modSheet p f).flights = s.flights := rfl
@[simp] theorem State.modSheet_qmaxes (p : Nat) (f : Sheet → Sheet) : (s.modSheet p f).qmaxes = s.qmaxes := rfl
@[simp] theorem State.modSheet_dram (p : Nat) (f : Sheet → Sheet) : (s.modSheet p f).dram = s.dram := rfl
@[simp] theorem State.modSheet_pool (p : Nat) (f : Sheet → Sheet) : (s.modSheet p f).pool = s.pool := rfl
@[simp] theorem State.modSheet_poolChans (p : Nat) (f : Sheet → Sheet) : (s.modSheet p f).poolChans = s.poolChans := rfl
@[simp] theorem State.modSheet_ctxs (p : Nat) (f : Sheet → Sheet) : (s.modSheet p f).ctxs = s.ctxs := rfl
@[simp] theorem State.modSheet_rot (p : Nat) (f : Sheet → Sheet) : (s.modSheet p f).rot = s.rot := rfl
@[simp] theorem State.modSheet_ends (p : Nat) (f : Sheet → Sheet) : (s.modSheet p f).ends = s.ends := rfl
@[simp] theorem State.modSheet_copies (p : Nat) (f : Sheet → Sheet) : (s.modSheet p f).copies = s.copies := rfl
@[simp] theorem State.modSheet_sessions (p : Nat) (f : Sheet → Sheet) : (s.modSheet p f).sessions = s.sessions := rfl
@[simp] theorem State.modSheet_cache (p : Nat) (f : Sheet → Sheet) : (s.modSheet p f).cache = s.cache := rfl
@[simp] theorem State.modSheet_modCtr (p : Nat) (f : Sheet → Sheet) : (s.modSheet p f).modCtr = s.modCtr := rfl
@[simp] theorem State.modSheet_groups (p : Nat) (f : Sheet → Sheet) : (s.modSheet p f).groups = s.groups := rfl
@[simp] theorem State.modSheet_ops (p : Nat) (f : Sheet → Sheet) : (s.modSheet p f).ops = s.ops := rfl
@[simp] theorem State.modSheet_lastOp (p : Nat) (f : Sheet → Sheet) : (s.modSheet p f).lastOp = s.lastOp := rfl
@[simp] theorem State.modSheet_logs (p : Nat) (f : Sheet → Sheet) : (s.modSheet p f).logs = s.logs := rfl
@[simp] theorem State.modSheet_dies (p : Nat) (f : Sheet → Sheet) : (s.modSheet p f).dies = s.dies := rfl
@[simp] theorem State.modSheet_mgmt (p : Nat) (f : Sheet → Sheet) : (s.modSheet p f).mgmt = s.mgmt := rfl
@[simp] theorem State.modSheet_side (p : Nat) (f : Sheet → Sheet) : (s.modSheet p f).side = s.side := rfl
@[simp] theorem State.modSheet_ports (p : Nat) (f : Sheet → Sheet) : (s.modSheet p f).ports = s.ports := rfl
@[simp] theorem State.modSheet_rxq (p : Nat) (f : Sheet → Sheet) : (s.modSheet p f).rxq = s.rxq := rfl
@[simp] theorem State.modSheet_jobs (p : Nat) (f : Sheet → Sheet) : (s.modSheet p f).jobs = s.jobs := rfl
@[simp] theorem State.modSheet_reel (p : Nat) (f : Sheet → Sheet) : (s.modSheet p f).reel = s.reel := rfl
@[simp] theorem State.modSheet_dumps (p : Nat) (f : Sheet → Sheet) : (s.modSheet p f).dumps = s.dumps := rfl
@[simp] theorem State.modSheet_dumping (p : Nat) (f : Sheet → Sheet) : (s.modSheet p f).dumping = s.dumping := rfl
@[simp] theorem State.modSheet_nextDump (p : Nat) (f : Sheet → Sheet) : (s.modSheet p f).nextDump = s.nextDump := rfl
@[simp] theorem State.modSheet_start (p : Nat) (f : Sheet → Sheet) : (s.modSheet p f).start = s.start := rfl
@[simp] theorem State.modSheet_crossing (p : Nat) (f : Sheet → Sheet) : (s.modSheet p f).crossing = s.crossing := rfl
@[simp] theorem State.modSheet_scratch (p : Nat) (f : Sheet → Sheet) : (s.modSheet p f).scratch = s.scratch := rfl
@[simp] theorem State.modSheet_verdicts (p : Nat) (f : Sheet → Sheet) : (s.modSheet p f).verdicts = s.verdicts := rfl
@[simp] theorem State.modSheet_fresh (p : Nat) (f : Sheet → Sheet) : (s.modSheet p f).fresh = s.fresh := rfl
@[simp] theorem State.modSheet_outbox (p : Nat) (f : Sheet → Sheet) : (s.modSheet p f).outbox = s.outbox := rfl
@[simp] theorem State.modSheet_pending (p : Nat) (f : Sheet → Sheet) : (s.modSheet p f).pending = s.pending := rfl

@[simp] theorem State.modTile_clk (p : Nat) (f : Tile → Tile) : (s.modTile p f).clk = s.clk := rfl
@[simp] theorem State.modTile_ident (p : Nat) (f : Tile → Tile) : (s.modTile p f).ident = s.ident := rfl
@[simp] theorem State.modTile_host (p : Nat) (f : Tile → Tile) : (s.modTile p f).host = s.host := rfl
@[simp] theorem State.modTile_pts (p : Nat) (f : Tile → Tile) : (s.modTile p f).pts = s.pts := rfl
@[simp] theorem State.modTile_chans (p : Nat) (f : Tile → Tile) : (s.modTile p f).chans = s.chans := rfl
@[simp] theorem State.modTile_sheets (p : Nat) (f : Tile → Tile) : (s.modTile p f).sheets = s.sheets := rfl
@[simp] theorem State.modTile_flights (p : Nat) (f : Tile → Tile) : (s.modTile p f).flights = s.flights := rfl
@[simp] theorem State.modTile_qmaxes (p : Nat) (f : Tile → Tile) : (s.modTile p f).qmaxes = s.qmaxes := rfl
@[simp] theorem State.modTile_dram (p : Nat) (f : Tile → Tile) : (s.modTile p f).dram = s.dram := rfl
@[simp] theorem State.modTile_pool (p : Nat) (f : Tile → Tile) : (s.modTile p f).pool = s.pool := rfl
@[simp] theorem State.modTile_poolChans (p : Nat) (f : Tile → Tile) : (s.modTile p f).poolChans = s.poolChans := rfl
@[simp] theorem State.modTile_ctxs (p : Nat) (f : Tile → Tile) : (s.modTile p f).ctxs = s.ctxs := rfl
@[simp] theorem State.modTile_rot (p : Nat) (f : Tile → Tile) : (s.modTile p f).rot = s.rot := rfl
@[simp] theorem State.modTile_ends (p : Nat) (f : Tile → Tile) : (s.modTile p f).ends = s.ends := rfl
@[simp] theorem State.modTile_copies (p : Nat) (f : Tile → Tile) : (s.modTile p f).copies = s.copies := rfl
@[simp] theorem State.modTile_sessions (p : Nat) (f : Tile → Tile) : (s.modTile p f).sessions = s.sessions := rfl
@[simp] theorem State.modTile_cache (p : Nat) (f : Tile → Tile) : (s.modTile p f).cache = s.cache := rfl
@[simp] theorem State.modTile_modCtr (p : Nat) (f : Tile → Tile) : (s.modTile p f).modCtr = s.modCtr := rfl
@[simp] theorem State.modTile_groups (p : Nat) (f : Tile → Tile) : (s.modTile p f).groups = s.groups := rfl
@[simp] theorem State.modTile_ops (p : Nat) (f : Tile → Tile) : (s.modTile p f).ops = s.ops := rfl
@[simp] theorem State.modTile_lastOp (p : Nat) (f : Tile → Tile) : (s.modTile p f).lastOp = s.lastOp := rfl
@[simp] theorem State.modTile_logs (p : Nat) (f : Tile → Tile) : (s.modTile p f).logs = s.logs := rfl
@[simp] theorem State.modTile_dies (p : Nat) (f : Tile → Tile) : (s.modTile p f).dies = s.dies := rfl
@[simp] theorem State.modTile_mgmt (p : Nat) (f : Tile → Tile) : (s.modTile p f).mgmt = s.mgmt := rfl
@[simp] theorem State.modTile_side (p : Nat) (f : Tile → Tile) : (s.modTile p f).side = s.side := rfl
@[simp] theorem State.modTile_ports (p : Nat) (f : Tile → Tile) : (s.modTile p f).ports = s.ports := rfl
@[simp] theorem State.modTile_rxq (p : Nat) (f : Tile → Tile) : (s.modTile p f).rxq = s.rxq := rfl
@[simp] theorem State.modTile_jobs (p : Nat) (f : Tile → Tile) : (s.modTile p f).jobs = s.jobs := rfl
@[simp] theorem State.modTile_reel (p : Nat) (f : Tile → Tile) : (s.modTile p f).reel = s.reel := rfl
@[simp] theorem State.modTile_dumps (p : Nat) (f : Tile → Tile) : (s.modTile p f).dumps = s.dumps := rfl
@[simp] theorem State.modTile_dumping (p : Nat) (f : Tile → Tile) : (s.modTile p f).dumping = s.dumping := rfl
@[simp] theorem State.modTile_nextDump (p : Nat) (f : Tile → Tile) : (s.modTile p f).nextDump = s.nextDump := rfl
@[simp] theorem State.modTile_start (p : Nat) (f : Tile → Tile) : (s.modTile p f).start = s.start := rfl
@[simp] theorem State.modTile_crossing (p : Nat) (f : Tile → Tile) : (s.modTile p f).crossing = s.crossing := rfl
@[simp] theorem State.modTile_scratch (p : Nat) (f : Tile → Tile) : (s.modTile p f).scratch = s.scratch := rfl
@[simp] theorem State.modTile_verdicts (p : Nat) (f : Tile → Tile) : (s.modTile p f).verdicts = s.verdicts := rfl
@[simp] theorem State.modTile_fresh (p : Nat) (f : Tile → Tile) : (s.modTile p f).fresh = s.fresh := rfl
@[simp] theorem State.modTile_outbox (p : Nat) (f : Tile → Tile) : (s.modTile p f).outbox = s.outbox := rfl
@[simp] theorem State.modTile_pending (p : Nat) (f : Tile → Tile) : (s.modTile p f).pending = s.pending := rfl

@[simp] theorem State.modCtx_clk (p : Nat) (f : Context → Context) : (s.modCtx p f).clk = s.clk := rfl
@[simp] theorem State.modCtx_ident (p : Nat) (f : Context → Context) : (s.modCtx p f).ident = s.ident := rfl
@[simp] theorem State.modCtx_host (p : Nat) (f : Context → Context) : (s.modCtx p f).host = s.host := rfl
@[simp] theorem State.modCtx_pts (p : Nat) (f : Context → Context) : (s.modCtx p f).pts = s.pts := rfl
@[simp] theorem State.modCtx_chans (p : Nat) (f : Context → Context) : (s.modCtx p f).chans = s.chans := rfl
@[simp] theorem State.modCtx_sheets (p : Nat) (f : Context → Context) : (s.modCtx p f).sheets = s.sheets := rfl
@[simp] theorem State.modCtx_tiles (p : Nat) (f : Context → Context) : (s.modCtx p f).tiles = s.tiles := rfl
@[simp] theorem State.modCtx_flights (p : Nat) (f : Context → Context) : (s.modCtx p f).flights = s.flights := rfl
@[simp] theorem State.modCtx_qmaxes (p : Nat) (f : Context → Context) : (s.modCtx p f).qmaxes = s.qmaxes := rfl
@[simp] theorem State.modCtx_dram (p : Nat) (f : Context → Context) : (s.modCtx p f).dram = s.dram := rfl
@[simp] theorem State.modCtx_pool (p : Nat) (f : Context → Context) : (s.modCtx p f).pool = s.pool := rfl
@[simp] theorem State.modCtx_poolChans (p : Nat) (f : Context → Context) : (s.modCtx p f).poolChans = s.poolChans := rfl
@[simp] theorem State.modCtx_rot (p : Nat) (f : Context → Context) : (s.modCtx p f).rot = s.rot := rfl
@[simp] theorem State.modCtx_ends (p : Nat) (f : Context → Context) : (s.modCtx p f).ends = s.ends := rfl
@[simp] theorem State.modCtx_copies (p : Nat) (f : Context → Context) : (s.modCtx p f).copies = s.copies := rfl
@[simp] theorem State.modCtx_sessions (p : Nat) (f : Context → Context) : (s.modCtx p f).sessions = s.sessions := rfl
@[simp] theorem State.modCtx_cache (p : Nat) (f : Context → Context) : (s.modCtx p f).cache = s.cache := rfl
@[simp] theorem State.modCtx_modCtr (p : Nat) (f : Context → Context) : (s.modCtx p f).modCtr = s.modCtr := rfl
@[simp] theorem State.modCtx_groups (p : Nat) (f : Context → Context) : (s.modCtx p f).groups = s.groups := rfl
@[simp] theorem State.modCtx_ops (p : Nat) (f : Context → Context) : (s.modCtx p f).ops = s.ops := rfl
@[simp] theorem State.modCtx_lastOp (p : Nat) (f : Context → Context) : (s.modCtx p f).lastOp = s.lastOp := rfl
@[simp] theorem State.modCtx_logs (p : Nat) (f : Context → Context) : (s.modCtx p f).logs = s.logs := rfl
@[simp] theorem State.modCtx_dies (p : Nat) (f : Context → Context) : (s.modCtx p f).dies = s.dies := rfl
@[simp] theorem State.modCtx_mgmt (p : Nat) (f : Context → Context) : (s.modCtx p f).mgmt = s.mgmt := rfl
@[simp] theorem State.modCtx_side (p : Nat) (f : Context → Context) : (s.modCtx p f).side = s.side := rfl
@[simp] theorem State.modCtx_ports (p : Nat) (f : Context → Context) : (s.modCtx p f).ports = s.ports := rfl
@[simp] theorem State.modCtx_rxq (p : Nat) (f : Context → Context) : (s.modCtx p f).rxq = s.rxq := rfl
@[simp] theorem State.modCtx_jobs (p : Nat) (f : Context → Context) : (s.modCtx p f).jobs = s.jobs := rfl
@[simp] theorem State.modCtx_reel (p : Nat) (f : Context → Context) : (s.modCtx p f).reel = s.reel := rfl
@[simp] theorem State.modCtx_dumps (p : Nat) (f : Context → Context) : (s.modCtx p f).dumps = s.dumps := rfl
@[simp] theorem State.modCtx_dumping (p : Nat) (f : Context → Context) : (s.modCtx p f).dumping = s.dumping := rfl
@[simp] theorem State.modCtx_nextDump (p : Nat) (f : Context → Context) : (s.modCtx p f).nextDump = s.nextDump := rfl
@[simp] theorem State.modCtx_start (p : Nat) (f : Context → Context) : (s.modCtx p f).start = s.start := rfl
@[simp] theorem State.modCtx_crossing (p : Nat) (f : Context → Context) : (s.modCtx p f).crossing = s.crossing := rfl
@[simp] theorem State.modCtx_scratch (p : Nat) (f : Context → Context) : (s.modCtx p f).scratch = s.scratch := rfl
@[simp] theorem State.modCtx_verdicts (p : Nat) (f : Context → Context) : (s.modCtx p f).verdicts = s.verdicts := rfl
@[simp] theorem State.modCtx_fresh (p : Nat) (f : Context → Context) : (s.modCtx p f).fresh = s.fresh := rfl
@[simp] theorem State.modCtx_outbox (p : Nat) (f : Context → Context) : (s.modCtx p f).outbox = s.outbox := rfl
@[simp] theorem State.modCtx_pending (p : Nat) (f : Context → Context) : (s.modCtx p f).pending = s.pending := rfl

@[simp] theorem State.modQueue_clk (p k : Nat) (f : Queue → Queue) : (s.modQueue p k f).clk = s.clk := rfl
@[simp] theorem State.modQueue_ident (p k : Nat) (f : Queue → Queue) : (s.modQueue p k f).ident = s.ident := rfl
@[simp] theorem State.modQueue_host (p k : Nat) (f : Queue → Queue) : (s.modQueue p k f).host = s.host := rfl
@[simp] theorem State.modQueue_pts (p k : Nat) (f : Queue → Queue) : (s.modQueue p k f).pts = s.pts := rfl
@[simp] theorem State.modQueue_chans (p k : Nat) (f : Queue → Queue) : (s.modQueue p k f).chans = s.chans := rfl
@[simp] theorem State.modQueue_sheets (p k : Nat) (f : Queue → Queue) : (s.modQueue p k f).sheets = s.sheets := rfl
@[simp] theorem State.modQueue_tiles (p k : Nat) (f : Queue → Queue) : (s.modQueue p k f).tiles = s.tiles := rfl
@[simp] theorem State.modQueue_flights (p k : Nat) (f : Queue → Queue) : (s.modQueue p k f).flights = s.flights := rfl
@[simp] theorem State.modQueue_qmaxes (p k : Nat) (f : Queue → Queue) : (s.modQueue p k f).qmaxes = s.qmaxes := rfl
@[simp] theorem State.modQueue_dram (p k : Nat) (f : Queue → Queue) : (s.modQueue p k f).dram = s.dram := rfl
@[simp] theorem State.modQueue_pool (p k : Nat) (f : Queue → Queue) : (s.modQueue p k f).pool = s.pool := rfl
@[simp] theorem State.modQueue_poolChans (p k : Nat) (f : Queue → Queue) : (s.modQueue p k f).poolChans = s.poolChans := rfl
@[simp] theorem State.modQueue_rot (p k : Nat) (f : Queue → Queue) : (s.modQueue p k f).rot = s.rot := rfl
@[simp] theorem State.modQueue_ends (p k : Nat) (f : Queue → Queue) : (s.modQueue p k f).ends = s.ends := rfl
@[simp] theorem State.modQueue_copies (p k : Nat) (f : Queue → Queue) : (s.modQueue p k f).copies = s.copies := rfl
@[simp] theorem State.modQueue_sessions (p k : Nat) (f : Queue → Queue) : (s.modQueue p k f).sessions = s.sessions := rfl
@[simp] theorem State.modQueue_cache (p k : Nat) (f : Queue → Queue) : (s.modQueue p k f).cache = s.cache := rfl
@[simp] theorem State.modQueue_modCtr (p k : Nat) (f : Queue → Queue) : (s.modQueue p k f).modCtr = s.modCtr := rfl
@[simp] theorem State.modQueue_groups (p k : Nat) (f : Queue → Queue) : (s.modQueue p k f).groups = s.groups := rfl
@[simp] theorem State.modQueue_ops (p k : Nat) (f : Queue → Queue) : (s.modQueue p k f).ops = s.ops := rfl
@[simp] theorem State.modQueue_lastOp (p k : Nat) (f : Queue → Queue) : (s.modQueue p k f).lastOp = s.lastOp := rfl
@[simp] theorem State.modQueue_logs (p k : Nat) (f : Queue → Queue) : (s.modQueue p k f).logs = s.logs := rfl
@[simp] theorem State.modQueue_dies (p k : Nat) (f : Queue → Queue) : (s.modQueue p k f).dies = s.dies := rfl
@[simp] theorem State.modQueue_mgmt (p k : Nat) (f : Queue → Queue) : (s.modQueue p k f).mgmt = s.mgmt := rfl
@[simp] theorem State.modQueue_side (p k : Nat) (f : Queue → Queue) : (s.modQueue p k f).side = s.side := rfl
@[simp] theorem State.modQueue_ports (p k : Nat) (f : Queue → Queue) : (s.modQueue p k f).ports = s.ports := rfl
@[simp] theorem State.modQueue_rxq (p k : Nat) (f : Queue → Queue) : (s.modQueue p k f).rxq = s.rxq := rfl
@[simp] theorem State.modQueue_jobs (p k : Nat) (f : Queue → Queue) : (s.modQueue p k f).jobs = s.jobs := rfl
@[simp] theorem State.modQueue_reel (p k : Nat) (f : Queue → Queue) : (s.modQueue p k f).reel = s.reel := rfl
@[simp] theorem State.modQueue_dumps (p k : Nat) (f : Queue → Queue) : (s.modQueue p k f).dumps = s.dumps := rfl
@[simp] theorem State.modQueue_dumping (p k : Nat) (f : Queue → Queue) : (s.modQueue p k f).dumping = s.dumping := rfl
@[simp] theorem State.modQueue_nextDump (p k : Nat) (f : Queue → Queue) : (s.modQueue p k f).nextDump = s.nextDump := rfl
@[simp] theorem State.modQueue_start (p k : Nat) (f : Queue → Queue) : (s.modQueue p k f).start = s.start := rfl
@[simp] theorem State.modQueue_crossing (p k : Nat) (f : Queue → Queue) : (s.modQueue p k f).crossing = s.crossing := rfl
@[simp] theorem State.modQueue_scratch (p k : Nat) (f : Queue → Queue) : (s.modQueue p k f).scratch = s.scratch := rfl
@[simp] theorem State.modQueue_verdicts (p k : Nat) (f : Queue → Queue) : (s.modQueue p k f).verdicts = s.verdicts := rfl
@[simp] theorem State.modQueue_fresh (p k : Nat) (f : Queue → Queue) : (s.modQueue p k f).fresh = s.fresh := rfl
@[simp] theorem State.modQueue_outbox (p k : Nat) (f : Queue → Queue) : (s.modQueue p k f).outbox = s.outbox := rfl
@[simp] theorem State.modQueue_pending (p k : Nat) (f : Queue → Queue) : (s.modQueue p k f).pending = s.pending := rfl

@[simp] theorem State.modPort_clk (p : Nat) (f : FPort → FPort) : (s.modPort p f).clk = s.clk := rfl
@[simp] theorem State.modPort_ident (p : Nat) (f : FPort → FPort) : (s.modPort p f).ident = s.ident := rfl
@[simp] theorem State.modPort_host (p : Nat) (f : FPort → FPort) : (s.modPort p f).host = s.host := rfl
@[simp] theorem State.modPort_pts (p : Nat) (f : FPort → FPort) : (s.modPort p f).pts = s.pts := rfl
@[simp] theorem State.modPort_chans (p : Nat) (f : FPort → FPort) : (s.modPort p f).chans = s.chans := rfl
@[simp] theorem State.modPort_sheets (p : Nat) (f : FPort → FPort) : (s.modPort p f).sheets = s.sheets := rfl
@[simp] theorem State.modPort_tiles (p : Nat) (f : FPort → FPort) : (s.modPort p f).tiles = s.tiles := rfl
@[simp] theorem State.modPort_flights (p : Nat) (f : FPort → FPort) : (s.modPort p f).flights = s.flights := rfl
@[simp] theorem State.modPort_qmaxes (p : Nat) (f : FPort → FPort) : (s.modPort p f).qmaxes = s.qmaxes := rfl
@[simp] theorem State.modPort_dram (p : Nat) (f : FPort → FPort) : (s.modPort p f).dram = s.dram := rfl
@[simp] theorem State.modPort_pool (p : Nat) (f : FPort → FPort) : (s.modPort p f).pool = s.pool := rfl
@[simp] theorem State.modPort_poolChans (p : Nat) (f : FPort → FPort) : (s.modPort p f).poolChans = s.poolChans := rfl
@[simp] theorem State.modPort_ctxs (p : Nat) (f : FPort → FPort) : (s.modPort p f).ctxs = s.ctxs := rfl
@[simp] theorem State.modPort_rot (p : Nat) (f : FPort → FPort) : (s.modPort p f).rot = s.rot := rfl
@[simp] theorem State.modPort_ends (p : Nat) (f : FPort → FPort) : (s.modPort p f).ends = s.ends := rfl
@[simp] theorem State.modPort_copies (p : Nat) (f : FPort → FPort) : (s.modPort p f).copies = s.copies := rfl
@[simp] theorem State.modPort_sessions (p : Nat) (f : FPort → FPort) : (s.modPort p f).sessions = s.sessions := rfl
@[simp] theorem State.modPort_cache (p : Nat) (f : FPort → FPort) : (s.modPort p f).cache = s.cache := rfl
@[simp] theorem State.modPort_modCtr (p : Nat) (f : FPort → FPort) : (s.modPort p f).modCtr = s.modCtr := rfl
@[simp] theorem State.modPort_groups (p : Nat) (f : FPort → FPort) : (s.modPort p f).groups = s.groups := rfl
@[simp] theorem State.modPort_ops (p : Nat) (f : FPort → FPort) : (s.modPort p f).ops = s.ops := rfl
@[simp] theorem State.modPort_lastOp (p : Nat) (f : FPort → FPort) : (s.modPort p f).lastOp = s.lastOp := rfl
@[simp] theorem State.modPort_logs (p : Nat) (f : FPort → FPort) : (s.modPort p f).logs = s.logs := rfl
@[simp] theorem State.modPort_dies (p : Nat) (f : FPort → FPort) : (s.modPort p f).dies = s.dies := rfl
@[simp] theorem State.modPort_mgmt (p : Nat) (f : FPort → FPort) : (s.modPort p f).mgmt = s.mgmt := rfl
@[simp] theorem State.modPort_side (p : Nat) (f : FPort → FPort) : (s.modPort p f).side = s.side := rfl
@[simp] theorem State.modPort_rxq (p : Nat) (f : FPort → FPort) : (s.modPort p f).rxq = s.rxq := rfl
@[simp] theorem State.modPort_jobs (p : Nat) (f : FPort → FPort) : (s.modPort p f).jobs = s.jobs := rfl
@[simp] theorem State.modPort_reel (p : Nat) (f : FPort → FPort) : (s.modPort p f).reel = s.reel := rfl
@[simp] theorem State.modPort_dumps (p : Nat) (f : FPort → FPort) : (s.modPort p f).dumps = s.dumps := rfl
@[simp] theorem State.modPort_dumping (p : Nat) (f : FPort → FPort) : (s.modPort p f).dumping = s.dumping := rfl
@[simp] theorem State.modPort_nextDump (p : Nat) (f : FPort → FPort) : (s.modPort p f).nextDump = s.nextDump := rfl
@[simp] theorem State.modPort_start (p : Nat) (f : FPort → FPort) : (s.modPort p f).start = s.start := rfl
@[simp] theorem State.modPort_crossing (p : Nat) (f : FPort → FPort) : (s.modPort p f).crossing = s.crossing := rfl
@[simp] theorem State.modPort_scratch (p : Nat) (f : FPort → FPort) : (s.modPort p f).scratch = s.scratch := rfl
@[simp] theorem State.modPort_verdicts (p : Nat) (f : FPort → FPort) : (s.modPort p f).verdicts = s.verdicts := rfl
@[simp] theorem State.modPort_fresh (p : Nat) (f : FPort → FPort) : (s.modPort p f).fresh = s.fresh := rfl
@[simp] theorem State.modPort_outbox (p : Nat) (f : FPort → FPort) : (s.modPort p f).outbox = s.outbox := rfl
@[simp] theorem State.modPort_pending (p : Nat) (f : FPort → FPort) : (s.modPort p f).pending = s.pending := rfl

@[simp] theorem State.modJob_clk (p : Nat) (f : Job → Job) : (s.modJob p f).clk = s.clk := rfl
@[simp] theorem State.modJob_ident (p : Nat) (f : Job → Job) : (s.modJob p f).ident = s.ident := rfl
@[simp] theorem State.modJob_host (p : Nat) (f : Job → Job) : (s.modJob p f).host = s.host := rfl
@[simp] theorem State.modJob_pts (p : Nat) (f : Job → Job) : (s.modJob p f).pts = s.pts := rfl
@[simp] theorem State.modJob_chans (p : Nat) (f : Job → Job) : (s.modJob p f).chans = s.chans := rfl
@[simp] theorem State.modJob_sheets (p : Nat) (f : Job → Job) : (s.modJob p f).sheets = s.sheets := rfl
@[simp] theorem State.modJob_tiles (p : Nat) (f : Job → Job) : (s.modJob p f).tiles = s.tiles := rfl
@[simp] theorem State.modJob_flights (p : Nat) (f : Job → Job) : (s.modJob p f).flights = s.flights := rfl
@[simp] theorem State.modJob_qmaxes (p : Nat) (f : Job → Job) : (s.modJob p f).qmaxes = s.qmaxes := rfl
@[simp] theorem State.modJob_dram (p : Nat) (f : Job → Job) : (s.modJob p f).dram = s.dram := rfl
@[simp] theorem State.modJob_pool (p : Nat) (f : Job → Job) : (s.modJob p f).pool = s.pool := rfl
@[simp] theorem State.modJob_poolChans (p : Nat) (f : Job → Job) : (s.modJob p f).poolChans = s.poolChans := rfl
@[simp] theorem State.modJob_ctxs (p : Nat) (f : Job → Job) : (s.modJob p f).ctxs = s.ctxs := rfl
@[simp] theorem State.modJob_rot (p : Nat) (f : Job → Job) : (s.modJob p f).rot = s.rot := rfl
@[simp] theorem State.modJob_ends (p : Nat) (f : Job → Job) : (s.modJob p f).ends = s.ends := rfl
@[simp] theorem State.modJob_copies (p : Nat) (f : Job → Job) : (s.modJob p f).copies = s.copies := rfl
@[simp] theorem State.modJob_sessions (p : Nat) (f : Job → Job) : (s.modJob p f).sessions = s.sessions := rfl
@[simp] theorem State.modJob_cache (p : Nat) (f : Job → Job) : (s.modJob p f).cache = s.cache := rfl
@[simp] theorem State.modJob_modCtr (p : Nat) (f : Job → Job) : (s.modJob p f).modCtr = s.modCtr := rfl
@[simp] theorem State.modJob_groups (p : Nat) (f : Job → Job) : (s.modJob p f).groups = s.groups := rfl
@[simp] theorem State.modJob_ops (p : Nat) (f : Job → Job) : (s.modJob p f).ops = s.ops := rfl
@[simp] theorem State.modJob_lastOp (p : Nat) (f : Job → Job) : (s.modJob p f).lastOp = s.lastOp := rfl
@[simp] theorem State.modJob_logs (p : Nat) (f : Job → Job) : (s.modJob p f).logs = s.logs := rfl
@[simp] theorem State.modJob_dies (p : Nat) (f : Job → Job) : (s.modJob p f).dies = s.dies := rfl
@[simp] theorem State.modJob_mgmt (p : Nat) (f : Job → Job) : (s.modJob p f).mgmt = s.mgmt := rfl
@[simp] theorem State.modJob_side (p : Nat) (f : Job → Job) : (s.modJob p f).side = s.side := rfl
@[simp] theorem State.modJob_ports (p : Nat) (f : Job → Job) : (s.modJob p f).ports = s.ports := rfl
@[simp] theorem State.modJob_rxq (p : Nat) (f : Job → Job) : (s.modJob p f).rxq = s.rxq := rfl
@[simp] theorem State.modJob_reel (p : Nat) (f : Job → Job) : (s.modJob p f).reel = s.reel := rfl
@[simp] theorem State.modJob_dumps (p : Nat) (f : Job → Job) : (s.modJob p f).dumps = s.dumps := rfl
@[simp] theorem State.modJob_dumping (p : Nat) (f : Job → Job) : (s.modJob p f).dumping = s.dumping := rfl
@[simp] theorem State.modJob_nextDump (p : Nat) (f : Job → Job) : (s.modJob p f).nextDump = s.nextDump := rfl
@[simp] theorem State.modJob_start (p : Nat) (f : Job → Job) : (s.modJob p f).start = s.start := rfl
@[simp] theorem State.modJob_crossing (p : Nat) (f : Job → Job) : (s.modJob p f).crossing = s.crossing := rfl
@[simp] theorem State.modJob_scratch (p : Nat) (f : Job → Job) : (s.modJob p f).scratch = s.scratch := rfl
@[simp] theorem State.modJob_verdicts (p : Nat) (f : Job → Job) : (s.modJob p f).verdicts = s.verdicts := rfl
@[simp] theorem State.modJob_fresh (p : Nat) (f : Job → Job) : (s.modJob p f).fresh = s.fresh := rfl
@[simp] theorem State.modJob_outbox (p : Nat) (f : Job → Job) : (s.modJob p f).outbox = s.outbox := rfl
@[simp] theorem State.modJob_pending (p : Nat) (f : Job → Job) : (s.modJob p f).pending = s.pending := rfl

@[simp] theorem State.emit_clk (o : Output) : (s.emit o).clk = s.clk := rfl
@[simp] theorem State.emit_ident (o : Output) : (s.emit o).ident = s.ident := rfl
@[simp] theorem State.emit_host (o : Output) : (s.emit o).host = s.host := rfl
@[simp] theorem State.emit_pts (o : Output) : (s.emit o).pts = s.pts := rfl
@[simp] theorem State.emit_chans (o : Output) : (s.emit o).chans = s.chans := rfl
@[simp] theorem State.emit_sheets (o : Output) : (s.emit o).sheets = s.sheets := rfl
@[simp] theorem State.emit_tiles (o : Output) : (s.emit o).tiles = s.tiles := rfl
@[simp] theorem State.emit_flights (o : Output) : (s.emit o).flights = s.flights := rfl
@[simp] theorem State.emit_qmaxes (o : Output) : (s.emit o).qmaxes = s.qmaxes := rfl
@[simp] theorem State.emit_dram (o : Output) : (s.emit o).dram = s.dram := rfl
@[simp] theorem State.emit_pool (o : Output) : (s.emit o).pool = s.pool := rfl
@[simp] theorem State.emit_poolChans (o : Output) : (s.emit o).poolChans = s.poolChans := rfl
@[simp] theorem State.emit_ctxs (o : Output) : (s.emit o).ctxs = s.ctxs := rfl
@[simp] theorem State.emit_rot (o : Output) : (s.emit o).rot = s.rot := rfl
@[simp] theorem State.emit_ends (o : Output) : (s.emit o).ends = s.ends := rfl
@[simp] theorem State.emit_copies (o : Output) : (s.emit o).copies = s.copies := rfl
@[simp] theorem State.emit_sessions (o : Output) : (s.emit o).sessions = s.sessions := rfl
@[simp] theorem State.emit_cache (o : Output) : (s.emit o).cache = s.cache := rfl
@[simp] theorem State.emit_modCtr (o : Output) : (s.emit o).modCtr = s.modCtr := rfl
@[simp] theorem State.emit_groups (o : Output) : (s.emit o).groups = s.groups := rfl
@[simp] theorem State.emit_ops (o : Output) : (s.emit o).ops = s.ops := rfl
@[simp] theorem State.emit_lastOp (o : Output) : (s.emit o).lastOp = s.lastOp := rfl
@[simp] theorem State.emit_logs (o : Output) : (s.emit o).logs = s.logs := rfl
@[simp] theorem State.emit_dies (o : Output) : (s.emit o).dies = s.dies := rfl
@[simp] theorem State.emit_mgmt (o : Output) : (s.emit o).mgmt = s.mgmt := rfl
@[simp] theorem State.emit_side (o : Output) : (s.emit o).side = s.side := rfl
@[simp] theorem State.emit_ports (o : Output) : (s.emit o).ports = s.ports := rfl
@[simp] theorem State.emit_rxq (o : Output) : (s.emit o).rxq = s.rxq := rfl
@[simp] theorem State.emit_jobs (o : Output) : (s.emit o).jobs = s.jobs := rfl
@[simp] theorem State.emit_reel (o : Output) : (s.emit o).reel = s.reel := rfl
@[simp] theorem State.emit_dumps (o : Output) : (s.emit o).dumps = s.dumps := rfl
@[simp] theorem State.emit_dumping (o : Output) : (s.emit o).dumping = s.dumping := rfl
@[simp] theorem State.emit_nextDump (o : Output) : (s.emit o).nextDump = s.nextDump := rfl
@[simp] theorem State.emit_start (o : Output) : (s.emit o).start = s.start := rfl
@[simp] theorem State.emit_crossing (o : Output) : (s.emit o).crossing = s.crossing := rfl
@[simp] theorem State.emit_scratch (o : Output) : (s.emit o).scratch = s.scratch := rfl
@[simp] theorem State.emit_verdicts (o : Output) : (s.emit o).verdicts = s.verdicts := rfl
@[simp] theorem State.emit_fresh (o : Output) : (s.emit o).fresh = s.fresh := rfl
@[simp] theorem State.emit_pending (o : Output) : (s.emit o).pending = s.pending := rfl

@[simp] theorem State.modOp_clk (p : Nat) (f : OpRec → OpRec) : (s.modOp p f).clk = s.clk := rfl
@[simp] theorem State.modOp_ident (p : Nat) (f : OpRec → OpRec) : (s.modOp p f).ident = s.ident := rfl
@[simp] theorem State.modOp_host (p : Nat) (f : OpRec → OpRec) : (s.modOp p f).host = s.host := rfl
@[simp] theorem State.modOp_pts (p : Nat) (f : OpRec → OpRec) : (s.modOp p f).pts = s.pts := rfl
@[simp] theorem State.modOp_chans (p : Nat) (f : OpRec → OpRec) : (s.modOp p f).chans = s.chans := rfl
@[simp] theorem State.modOp_sheets (p : Nat) (f : OpRec → OpRec) : (s.modOp p f).sheets = s.sheets := rfl
@[simp] theorem State.modOp_tiles (p : Nat) (f : OpRec → OpRec) : (s.modOp p f).tiles = s.tiles := rfl
@[simp] theorem State.modOp_flights (p : Nat) (f : OpRec → OpRec) : (s.modOp p f).flights = s.flights := rfl
@[simp] theorem State.modOp_qmaxes (p : Nat) (f : OpRec → OpRec) : (s.modOp p f).qmaxes = s.qmaxes := rfl
@[simp] theorem State.modOp_dram (p : Nat) (f : OpRec → OpRec) : (s.modOp p f).dram = s.dram := rfl
@[simp] theorem State.modOp_pool (p : Nat) (f : OpRec → OpRec) : (s.modOp p f).pool = s.pool := rfl
@[simp] theorem State.modOp_poolChans (p : Nat) (f : OpRec → OpRec) : (s.modOp p f).poolChans = s.poolChans := rfl
@[simp] theorem State.modOp_ctxs (p : Nat) (f : OpRec → OpRec) : (s.modOp p f).ctxs = s.ctxs := rfl
@[simp] theorem State.modOp_rot (p : Nat) (f : OpRec → OpRec) : (s.modOp p f).rot = s.rot := rfl
@[simp] theorem State.modOp_ends (p : Nat) (f : OpRec → OpRec) : (s.modOp p f).ends = s.ends := rfl
@[simp] theorem State.modOp_copies (p : Nat) (f : OpRec → OpRec) : (s.modOp p f).copies = s.copies := rfl
@[simp] theorem State.modOp_sessions (p : Nat) (f : OpRec → OpRec) : (s.modOp p f).sessions = s.sessions := rfl
@[simp] theorem State.modOp_cache (p : Nat) (f : OpRec → OpRec) : (s.modOp p f).cache = s.cache := rfl
@[simp] theorem State.modOp_modCtr (p : Nat) (f : OpRec → OpRec) : (s.modOp p f).modCtr = s.modCtr := rfl
@[simp] theorem State.modOp_groups (p : Nat) (f : OpRec → OpRec) : (s.modOp p f).groups = s.groups := rfl
@[simp] theorem State.modOp_lastOp (p : Nat) (f : OpRec → OpRec) : (s.modOp p f).lastOp = s.lastOp := rfl
@[simp] theorem State.modOp_logs (p : Nat) (f : OpRec → OpRec) : (s.modOp p f).logs = s.logs := rfl
@[simp] theorem State.modOp_dies (p : Nat) (f : OpRec → OpRec) : (s.modOp p f).dies = s.dies := rfl
@[simp] theorem State.modOp_mgmt (p : Nat) (f : OpRec → OpRec) : (s.modOp p f).mgmt = s.mgmt := rfl
@[simp] theorem State.modOp_side (p : Nat) (f : OpRec → OpRec) : (s.modOp p f).side = s.side := rfl
@[simp] theorem State.modOp_ports (p : Nat) (f : OpRec → OpRec) : (s.modOp p f).ports = s.ports := rfl
@[simp] theorem State.modOp_rxq (p : Nat) (f : OpRec → OpRec) : (s.modOp p f).rxq = s.rxq := rfl
@[simp] theorem State.modOp_jobs (p : Nat) (f : OpRec → OpRec) : (s.modOp p f).jobs = s.jobs := rfl
@[simp] theorem State.modOp_reel (p : Nat) (f : OpRec → OpRec) : (s.modOp p f).reel = s.reel := rfl
@[simp] theorem State.modOp_dumps (p : Nat) (f : OpRec → OpRec) : (s.modOp p f).dumps = s.dumps := rfl
@[simp] theorem State.modOp_dumping (p : Nat) (f : OpRec → OpRec) : (s.modOp p f).dumping = s.dumping := rfl
@[simp] theorem State.modOp_nextDump (p : Nat) (f : OpRec → OpRec) : (s.modOp p f).nextDump = s.nextDump := rfl
@[simp] theorem State.modOp_start (p : Nat) (f : OpRec → OpRec) : (s.modOp p f).start = s.start := rfl
@[simp] theorem State.modOp_crossing (p : Nat) (f : OpRec → OpRec) : (s.modOp p f).crossing = s.crossing := rfl
@[simp] theorem State.modOp_scratch (p : Nat) (f : OpRec → OpRec) : (s.modOp p f).scratch = s.scratch := rfl
@[simp] theorem State.modOp_verdicts (p : Nat) (f : OpRec → OpRec) : (s.modOp p f).verdicts = s.verdicts := rfl
@[simp] theorem State.modOp_fresh (p : Nat) (f : OpRec → OpRec) : (s.modOp p f).fresh = s.fresh := rfl
@[simp] theorem State.modOp_outbox (p : Nat) (f : OpRec → OpRec) : (s.modOp p f).outbox = s.outbox := rfl
@[simp] theorem State.modOp_pending (p : Nat) (f : OpRec → OpRec) : (s.modOp p f).pending = s.pending := rfl

@[simp] theorem State.ctxCount_clk (p i n : Nat) : (s.ctxCount p i n).clk = s.clk := rfl
@[simp] theorem State.ctxCount_ident (p i n : Nat) : (s.ctxCount p i n).ident = s.ident := rfl
@[simp] theorem State.ctxCount_host (p i n : Nat) : (s.ctxCount p i n).host = s.host := rfl
@[simp] theorem State.ctxCount_pts (p i n : Nat) : (s.ctxCount p i n).pts = s.pts := rfl
@[simp] theorem State.ctxCount_chans (p i n : Nat) : (s.ctxCount p i n).chans = s.chans := rfl
@[simp] theorem State.ctxCount_sheets (p i n : Nat) : (s.ctxCount p i n).sheets = s.sheets := rfl
@[simp] theorem State.ctxCount_tiles (p i n : Nat) : (s.ctxCount p i n).tiles = s.tiles := rfl
@[simp] theorem State.ctxCount_flights (p i n : Nat) : (s.ctxCount p i n).flights = s.flights := rfl
@[simp] theorem State.ctxCount_qmaxes (p i n : Nat) : (s.ctxCount p i n).qmaxes = s.qmaxes := rfl
@[simp] theorem State.ctxCount_dram (p i n : Nat) : (s.ctxCount p i n).dram = s.dram := rfl
@[simp] theorem State.ctxCount_pool (p i n : Nat) : (s.ctxCount p i n).pool = s.pool := rfl
@[simp] theorem State.ctxCount_poolChans (p i n : Nat) : (s.ctxCount p i n).poolChans = s.poolChans := rfl
@[simp] theorem State.ctxCount_rot (p i n : Nat) : (s.ctxCount p i n).rot = s.rot := rfl
@[simp] theorem State.ctxCount_ends (p i n : Nat) : (s.ctxCount p i n).ends = s.ends := rfl
@[simp] theorem State.ctxCount_copies (p i n : Nat) : (s.ctxCount p i n).copies = s.copies := rfl
@[simp] theorem State.ctxCount_sessions (p i n : Nat) : (s.ctxCount p i n).sessions = s.sessions := rfl
@[simp] theorem State.ctxCount_cache (p i n : Nat) : (s.ctxCount p i n).cache = s.cache := rfl
@[simp] theorem State.ctxCount_modCtr (p i n : Nat) : (s.ctxCount p i n).modCtr = s.modCtr := rfl
@[simp] theorem State.ctxCount_groups (p i n : Nat) : (s.ctxCount p i n).groups = s.groups := rfl
@[simp] theorem State.ctxCount_ops (p i n : Nat) : (s.ctxCount p i n).ops = s.ops := rfl
@[simp] theorem State.ctxCount_lastOp (p i n : Nat) : (s.ctxCount p i n).lastOp = s.lastOp := rfl
@[simp] theorem State.ctxCount_logs (p i n : Nat) : (s.ctxCount p i n).logs = s.logs := rfl
@[simp] theorem State.ctxCount_dies (p i n : Nat) : (s.ctxCount p i n).dies = s.dies := rfl
@[simp] theorem State.ctxCount_mgmt (p i n : Nat) : (s.ctxCount p i n).mgmt = s.mgmt := rfl
@[simp] theorem State.ctxCount_side (p i n : Nat) : (s.ctxCount p i n).side = s.side := rfl
@[simp] theorem State.ctxCount_ports (p i n : Nat) : (s.ctxCount p i n).ports = s.ports := rfl
@[simp] theorem State.ctxCount_rxq (p i n : Nat) : (s.ctxCount p i n).rxq = s.rxq := rfl
@[simp] theorem State.ctxCount_jobs (p i n : Nat) : (s.ctxCount p i n).jobs = s.jobs := rfl
@[simp] theorem State.ctxCount_reel (p i n : Nat) : (s.ctxCount p i n).reel = s.reel := rfl
@[simp] theorem State.ctxCount_dumps (p i n : Nat) : (s.ctxCount p i n).dumps = s.dumps := rfl
@[simp] theorem State.ctxCount_dumping (p i n : Nat) : (s.ctxCount p i n).dumping = s.dumping := rfl
@[simp] theorem State.ctxCount_nextDump (p i n : Nat) : (s.ctxCount p i n).nextDump = s.nextDump := rfl
@[simp] theorem State.ctxCount_start (p i n : Nat) : (s.ctxCount p i n).start = s.start := rfl
@[simp] theorem State.ctxCount_crossing (p i n : Nat) : (s.ctxCount p i n).crossing = s.crossing := rfl
@[simp] theorem State.ctxCount_scratch (p i n : Nat) : (s.ctxCount p i n).scratch = s.scratch := rfl
@[simp] theorem State.ctxCount_verdicts (p i n : Nat) : (s.ctxCount p i n).verdicts = s.verdicts := rfl
@[simp] theorem State.ctxCount_fresh (p i n : Nat) : (s.ctxCount p i n).fresh = s.fresh := rfl
@[simp] theorem State.ctxCount_outbox (p i n : Nat) : (s.ctxCount p i n).outbox = s.outbox := rfl
@[simp] theorem State.ctxCount_pending (p i n : Nat) : (s.ctxCount p i n).pending = s.pending := rfl

@[simp] theorem State.modCount_clk (i n : Nat) : (s.modCount i n).clk = s.clk := rfl
@[simp] theorem State.modCount_ident (i n : Nat) : (s.modCount i n).ident = s.ident := rfl
@[simp] theorem State.modCount_host (i n : Nat) : (s.modCount i n).host = s.host := rfl
@[simp] theorem State.modCount_pts (i n : Nat) : (s.modCount i n).pts = s.pts := rfl
@[simp] theorem State.modCount_chans (i n : Nat) : (s.modCount i n).chans = s.chans := rfl
@[simp] theorem State.modCount_sheets (i n : Nat) : (s.modCount i n).sheets = s.sheets := rfl
@[simp] theorem State.modCount_tiles (i n : Nat) : (s.modCount i n).tiles = s.tiles := rfl
@[simp] theorem State.modCount_flights (i n : Nat) : (s.modCount i n).flights = s.flights := rfl
@[simp] theorem State.modCount_qmaxes (i n : Nat) : (s.modCount i n).qmaxes = s.qmaxes := rfl
@[simp] theorem State.modCount_dram (i n : Nat) : (s.modCount i n).dram = s.dram := rfl
@[simp] theorem State.modCount_pool (i n : Nat) : (s.modCount i n).pool = s.pool := rfl
@[simp] theorem State.modCount_poolChans (i n : Nat) : (s.modCount i n).poolChans = s.poolChans := rfl
@[simp] theorem State.modCount_ctxs (i n : Nat) : (s.modCount i n).ctxs = s.ctxs := rfl
@[simp] theorem State.modCount_rot (i n : Nat) : (s.modCount i n).rot = s.rot := rfl
@[simp] theorem State.modCount_ends (i n : Nat) : (s.modCount i n).ends = s.ends := rfl
@[simp] theorem State.modCount_copies (i n : Nat) : (s.modCount i n).copies = s.copies := rfl
@[simp] theorem State.modCount_sessions (i n : Nat) : (s.modCount i n).sessions = s.sessions := rfl
@[simp] theorem State.modCount_cache (i n : Nat) : (s.modCount i n).cache = s.cache := rfl
@[simp] theorem State.modCount_groups (i n : Nat) : (s.modCount i n).groups = s.groups := rfl
@[simp] theorem State.modCount_ops (i n : Nat) : (s.modCount i n).ops = s.ops := rfl
@[simp] theorem State.modCount_lastOp (i n : Nat) : (s.modCount i n).lastOp = s.lastOp := rfl
@[simp] theorem State.modCount_logs (i n : Nat) : (s.modCount i n).logs = s.logs := rfl
@[simp] theorem State.modCount_dies (i n : Nat) : (s.modCount i n).dies = s.dies := rfl
@[simp] theorem State.modCount_mgmt (i n : Nat) : (s.modCount i n).mgmt = s.mgmt := rfl
@[simp] theorem State.modCount_side (i n : Nat) : (s.modCount i n).side = s.side := rfl
@[simp] theorem State.modCount_ports (i n : Nat) : (s.modCount i n).ports = s.ports := rfl
@[simp] theorem State.modCount_rxq (i n : Nat) : (s.modCount i n).rxq = s.rxq := rfl
@[simp] theorem State.modCount_jobs (i n : Nat) : (s.modCount i n).jobs = s.jobs := rfl
@[simp] theorem State.modCount_reel (i n : Nat) : (s.modCount i n).reel = s.reel := rfl
@[simp] theorem State.modCount_dumps (i n : Nat) : (s.modCount i n).dumps = s.dumps := rfl
@[simp] theorem State.modCount_dumping (i n : Nat) : (s.modCount i n).dumping = s.dumping := rfl
@[simp] theorem State.modCount_nextDump (i n : Nat) : (s.modCount i n).nextDump = s.nextDump := rfl
@[simp] theorem State.modCount_start (i n : Nat) : (s.modCount i n).start = s.start := rfl
@[simp] theorem State.modCount_crossing (i n : Nat) : (s.modCount i n).crossing = s.crossing := rfl
@[simp] theorem State.modCount_scratch (i n : Nat) : (s.modCount i n).scratch = s.scratch := rfl
@[simp] theorem State.modCount_verdicts (i n : Nat) : (s.modCount i n).verdicts = s.verdicts := rfl
@[simp] theorem State.modCount_fresh (i n : Nat) : (s.modCount i n).fresh = s.fresh := rfl
@[simp] theorem State.modCount_outbox (i n : Nat) : (s.modCount i n).outbox = s.outbox := rfl
@[simp] theorem State.modCount_pending (i n : Nat) : (s.modCount i n).pending = s.pending := rfl

@[simp] theorem State.sheetCount_clk (p i n : Nat) : (s.sheetCount p i n).clk = s.clk := rfl
@[simp] theorem State.sheetCount_ident (p i n : Nat) : (s.sheetCount p i n).ident = s.ident := rfl
@[simp] theorem State.sheetCount_host (p i n : Nat) : (s.sheetCount p i n).host = s.host := rfl
@[simp] theorem State.sheetCount_pts (p i n : Nat) : (s.sheetCount p i n).pts = s.pts := rfl
@[simp] theorem State.sheetCount_chans (p i n : Nat) : (s.sheetCount p i n).chans = s.chans := rfl
@[simp] theorem State.sheetCount_tiles (p i n : Nat) : (s.sheetCount p i n).tiles = s.tiles := rfl
@[simp] theorem State.sheetCount_flights (p i n : Nat) : (s.sheetCount p i n).flights = s.flights := rfl
@[simp] theorem State.sheetCount_qmaxes (p i n : Nat) : (s.sheetCount p i n).qmaxes = s.qmaxes := rfl
@[simp] theorem State.sheetCount_dram (p i n : Nat) : (s.sheetCount p i n).dram = s.dram := rfl
@[simp] theorem State.sheetCount_pool (p i n : Nat) : (s.sheetCount p i n).pool = s.pool := rfl
@[simp] theorem State.sheetCount_poolChans (p i n : Nat) : (s.sheetCount p i n).poolChans = s.poolChans := rfl
@[simp] theorem State.sheetCount_ctxs (p i n : Nat) : (s.sheetCount p i n).ctxs = s.ctxs := rfl
@[simp] theorem State.sheetCount_rot (p i n : Nat) : (s.sheetCount p i n).rot = s.rot := rfl
@[simp] theorem State.sheetCount_ends (p i n : Nat) : (s.sheetCount p i n).ends = s.ends := rfl
@[simp] theorem State.sheetCount_copies (p i n : Nat) : (s.sheetCount p i n).copies = s.copies := rfl
@[simp] theorem State.sheetCount_sessions (p i n : Nat) : (s.sheetCount p i n).sessions = s.sessions := rfl
@[simp] theorem State.sheetCount_cache (p i n : Nat) : (s.sheetCount p i n).cache = s.cache := rfl
@[simp] theorem State.sheetCount_modCtr (p i n : Nat) : (s.sheetCount p i n).modCtr = s.modCtr := rfl
@[simp] theorem State.sheetCount_groups (p i n : Nat) : (s.sheetCount p i n).groups = s.groups := rfl
@[simp] theorem State.sheetCount_ops (p i n : Nat) : (s.sheetCount p i n).ops = s.ops := rfl
@[simp] theorem State.sheetCount_lastOp (p i n : Nat) : (s.sheetCount p i n).lastOp = s.lastOp := rfl
@[simp] theorem State.sheetCount_logs (p i n : Nat) : (s.sheetCount p i n).logs = s.logs := rfl
@[simp] theorem State.sheetCount_dies (p i n : Nat) : (s.sheetCount p i n).dies = s.dies := rfl
@[simp] theorem State.sheetCount_mgmt (p i n : Nat) : (s.sheetCount p i n).mgmt = s.mgmt := rfl
@[simp] theorem State.sheetCount_side (p i n : Nat) : (s.sheetCount p i n).side = s.side := rfl
@[simp] theorem State.sheetCount_ports (p i n : Nat) : (s.sheetCount p i n).ports = s.ports := rfl
@[simp] theorem State.sheetCount_rxq (p i n : Nat) : (s.sheetCount p i n).rxq = s.rxq := rfl
@[simp] theorem State.sheetCount_jobs (p i n : Nat) : (s.sheetCount p i n).jobs = s.jobs := rfl
@[simp] theorem State.sheetCount_reel (p i n : Nat) : (s.sheetCount p i n).reel = s.reel := rfl
@[simp] theorem State.sheetCount_dumps (p i n : Nat) : (s.sheetCount p i n).dumps = s.dumps := rfl
@[simp] theorem State.sheetCount_dumping (p i n : Nat) : (s.sheetCount p i n).dumping = s.dumping := rfl
@[simp] theorem State.sheetCount_nextDump (p i n : Nat) : (s.sheetCount p i n).nextDump = s.nextDump := rfl
@[simp] theorem State.sheetCount_start (p i n : Nat) : (s.sheetCount p i n).start = s.start := rfl
@[simp] theorem State.sheetCount_crossing (p i n : Nat) : (s.sheetCount p i n).crossing = s.crossing := rfl
@[simp] theorem State.sheetCount_scratch (p i n : Nat) : (s.sheetCount p i n).scratch = s.scratch := rfl
@[simp] theorem State.sheetCount_verdicts (p i n : Nat) : (s.sheetCount p i n).verdicts = s.verdicts := rfl
@[simp] theorem State.sheetCount_fresh (p i n : Nat) : (s.sheetCount p i n).fresh = s.fresh := rfl
@[simp] theorem State.sheetCount_outbox (p i n : Nat) : (s.sheetCount p i n).outbox = s.outbox := rfl
@[simp] theorem State.sheetCount_pending (p i n : Nat) : (s.sheetCount p i n).pending = s.pending := rfl

@[simp] theorem State.portCount_clk (p k n : Nat) : (s.portCount p k n).clk = s.clk := rfl
@[simp] theorem State.portCount_ident (p k n : Nat) : (s.portCount p k n).ident = s.ident := rfl
@[simp] theorem State.portCount_host (p k n : Nat) : (s.portCount p k n).host = s.host := rfl
@[simp] theorem State.portCount_pts (p k n : Nat) : (s.portCount p k n).pts = s.pts := rfl
@[simp] theorem State.portCount_chans (p k n : Nat) : (s.portCount p k n).chans = s.chans := rfl
@[simp] theorem State.portCount_sheets (p k n : Nat) : (s.portCount p k n).sheets = s.sheets := rfl
@[simp] theorem State.portCount_tiles (p k n : Nat) : (s.portCount p k n).tiles = s.tiles := rfl
@[simp] theorem State.portCount_flights (p k n : Nat) : (s.portCount p k n).flights = s.flights := rfl
@[simp] theorem State.portCount_qmaxes (p k n : Nat) : (s.portCount p k n).qmaxes = s.qmaxes := rfl
@[simp] theorem State.portCount_dram (p k n : Nat) : (s.portCount p k n).dram = s.dram := rfl
@[simp] theorem State.portCount_pool (p k n : Nat) : (s.portCount p k n).pool = s.pool := rfl
@[simp] theorem State.portCount_poolChans (p k n : Nat) : (s.portCount p k n).poolChans = s.poolChans := rfl
@[simp] theorem State.portCount_ctxs (p k n : Nat) : (s.portCount p k n).ctxs = s.ctxs := rfl
@[simp] theorem State.portCount_rot (p k n : Nat) : (s.portCount p k n).rot = s.rot := rfl
@[simp] theorem State.portCount_ends (p k n : Nat) : (s.portCount p k n).ends = s.ends := rfl
@[simp] theorem State.portCount_copies (p k n : Nat) : (s.portCount p k n).copies = s.copies := rfl
@[simp] theorem State.portCount_sessions (p k n : Nat) : (s.portCount p k n).sessions = s.sessions := rfl
@[simp] theorem State.portCount_cache (p k n : Nat) : (s.portCount p k n).cache = s.cache := rfl
@[simp] theorem State.portCount_modCtr (p k n : Nat) : (s.portCount p k n).modCtr = s.modCtr := rfl
@[simp] theorem State.portCount_groups (p k n : Nat) : (s.portCount p k n).groups = s.groups := rfl
@[simp] theorem State.portCount_ops (p k n : Nat) : (s.portCount p k n).ops = s.ops := rfl
@[simp] theorem State.portCount_lastOp (p k n : Nat) : (s.portCount p k n).lastOp = s.lastOp := rfl
@[simp] theorem State.portCount_logs (p k n : Nat) : (s.portCount p k n).logs = s.logs := rfl
@[simp] theorem State.portCount_dies (p k n : Nat) : (s.portCount p k n).dies = s.dies := rfl
@[simp] theorem State.portCount_mgmt (p k n : Nat) : (s.portCount p k n).mgmt = s.mgmt := rfl
@[simp] theorem State.portCount_side (p k n : Nat) : (s.portCount p k n).side = s.side := rfl
@[simp] theorem State.portCount_rxq (p k n : Nat) : (s.portCount p k n).rxq = s.rxq := rfl
@[simp] theorem State.portCount_jobs (p k n : Nat) : (s.portCount p k n).jobs = s.jobs := rfl
@[simp] theorem State.portCount_reel (p k n : Nat) : (s.portCount p k n).reel = s.reel := rfl
@[simp] theorem State.portCount_dumps (p k n : Nat) : (s.portCount p k n).dumps = s.dumps := rfl
@[simp] theorem State.portCount_dumping (p k n : Nat) : (s.portCount p k n).dumping = s.dumping := rfl
@[simp] theorem State.portCount_nextDump (p k n : Nat) : (s.portCount p k n).nextDump = s.nextDump := rfl
@[simp] theorem State.portCount_start (p k n : Nat) : (s.portCount p k n).start = s.start := rfl
@[simp] theorem State.portCount_crossing (p k n : Nat) : (s.portCount p k n).crossing = s.crossing := rfl
@[simp] theorem State.portCount_scratch (p k n : Nat) : (s.portCount p k n).scratch = s.scratch := rfl
@[simp] theorem State.portCount_verdicts (p k n : Nat) : (s.portCount p k n).verdicts = s.verdicts := rfl
@[simp] theorem State.portCount_fresh (p k n : Nat) : (s.portCount p k n).fresh = s.fresh := rfl
@[simp] theorem State.portCount_outbox (p k n : Nat) : (s.portCount p k n).outbox = s.outbox := rfl
@[simp] theorem State.portCount_pending (p k n : Nat) : (s.portCount p k n).pending = s.pending := rfl

@[simp] theorem State.msix_clk (v : Nat) : (s.msix v).clk = s.clk := by unfold State.msix; split <;> [rfl; split <;> rfl]
@[simp] theorem State.msix_ident (v : Nat) : (s.msix v).ident = s.ident := by unfold State.msix; split <;> [rfl; split <;> rfl]
@[simp] theorem State.msix_pts (v : Nat) : (s.msix v).pts = s.pts := by unfold State.msix; split <;> [rfl; split <;> rfl]
@[simp] theorem State.msix_chans (v : Nat) : (s.msix v).chans = s.chans := by unfold State.msix; split <;> [rfl; split <;> rfl]
@[simp] theorem State.msix_sheets (v : Nat) : (s.msix v).sheets = s.sheets := by unfold State.msix; split <;> [rfl; split <;> rfl]
@[simp] theorem State.msix_tiles (v : Nat) : (s.msix v).tiles = s.tiles := by unfold State.msix; split <;> [rfl; split <;> rfl]
@[simp] theorem State.msix_flights (v : Nat) : (s.msix v).flights = s.flights := by unfold State.msix; split <;> [rfl; split <;> rfl]
@[simp] theorem State.msix_qmaxes (v : Nat) : (s.msix v).qmaxes = s.qmaxes := by unfold State.msix; split <;> [rfl; split <;> rfl]
@[simp] theorem State.msix_dram (v : Nat) : (s.msix v).dram = s.dram := by unfold State.msix; split <;> [rfl; split <;> rfl]
@[simp] theorem State.msix_pool (v : Nat) : (s.msix v).pool = s.pool := by unfold State.msix; split <;> [rfl; split <;> rfl]
@[simp] theorem State.msix_poolChans (v : Nat) : (s.msix v).poolChans = s.poolChans := by unfold State.msix; split <;> [rfl; split <;> rfl]
@[simp] theorem State.msix_ctxs (v : Nat) : (s.msix v).ctxs = s.ctxs := by unfold State.msix; split <;> [rfl; split <;> rfl]
@[simp] theorem State.msix_rot (v : Nat) : (s.msix v).rot = s.rot := by unfold State.msix; split <;> [rfl; split <;> rfl]
@[simp] theorem State.msix_ends (v : Nat) : (s.msix v).ends = s.ends := by unfold State.msix; split <;> [rfl; split <;> rfl]
@[simp] theorem State.msix_copies (v : Nat) : (s.msix v).copies = s.copies := by unfold State.msix; split <;> [rfl; split <;> rfl]
@[simp] theorem State.msix_sessions (v : Nat) : (s.msix v).sessions = s.sessions := by unfold State.msix; split <;> [rfl; split <;> rfl]
@[simp] theorem State.msix_cache (v : Nat) : (s.msix v).cache = s.cache := by unfold State.msix; split <;> [rfl; split <;> rfl]
@[simp] theorem State.msix_modCtr (v : Nat) : (s.msix v).modCtr = s.modCtr := by unfold State.msix; split <;> [rfl; split <;> rfl]
@[simp] theorem State.msix_groups (v : Nat) : (s.msix v).groups = s.groups := by unfold State.msix; split <;> [rfl; split <;> rfl]
@[simp] theorem State.msix_ops (v : Nat) : (s.msix v).ops = s.ops := by unfold State.msix; split <;> [rfl; split <;> rfl]
@[simp] theorem State.msix_lastOp (v : Nat) : (s.msix v).lastOp = s.lastOp := by unfold State.msix; split <;> [rfl; split <;> rfl]
@[simp] theorem State.msix_logs (v : Nat) : (s.msix v).logs = s.logs := by unfold State.msix; split <;> [rfl; split <;> rfl]
@[simp] theorem State.msix_dies (v : Nat) : (s.msix v).dies = s.dies := by unfold State.msix; split <;> [rfl; split <;> rfl]
@[simp] theorem State.msix_mgmt (v : Nat) : (s.msix v).mgmt = s.mgmt := by unfold State.msix; split <;> [rfl; split <;> rfl]
@[simp] theorem State.msix_side (v : Nat) : (s.msix v).side = s.side := by unfold State.msix; split <;> [rfl; split <;> rfl]
@[simp] theorem State.msix_ports (v : Nat) : (s.msix v).ports = s.ports := by unfold State.msix; split <;> [rfl; split <;> rfl]
@[simp] theorem State.msix_rxq (v : Nat) : (s.msix v).rxq = s.rxq := by unfold State.msix; split <;> [rfl; split <;> rfl]
@[simp] theorem State.msix_jobs (v : Nat) : (s.msix v).jobs = s.jobs := by unfold State.msix; split <;> [rfl; split <;> rfl]
@[simp] theorem State.msix_reel (v : Nat) : (s.msix v).reel = s.reel := by unfold State.msix; split <;> [rfl; split <;> rfl]
@[simp] theorem State.msix_dumps (v : Nat) : (s.msix v).dumps = s.dumps := by unfold State.msix; split <;> [rfl; split <;> rfl]
@[simp] theorem State.msix_dumping (v : Nat) : (s.msix v).dumping = s.dumping := by unfold State.msix; split <;> [rfl; split <;> rfl]
@[simp] theorem State.msix_nextDump (v : Nat) : (s.msix v).nextDump = s.nextDump := by unfold State.msix; split <;> [rfl; split <;> rfl]
@[simp] theorem State.msix_start (v : Nat) : (s.msix v).start = s.start := by unfold State.msix; split <;> [rfl; split <;> rfl]
@[simp] theorem State.msix_crossing (v : Nat) : (s.msix v).crossing = s.crossing := by unfold State.msix; split <;> [rfl; split <;> rfl]
@[simp] theorem State.msix_scratch (v : Nat) : (s.msix v).scratch = s.scratch := by unfold State.msix; split <;> [rfl; split <;> rfl]
@[simp] theorem State.msix_verdicts (v : Nat) : (s.msix v).verdicts = s.verdicts := by unfold State.msix; split <;> [rfl; split <;> rfl]
@[simp] theorem State.msix_fresh (v : Nat) : (s.msix v).fresh = s.fresh := by unfold State.msix; split <;> [rfl; split <;> rfl]
@[simp] theorem State.msix_pending (v : Nat) : (s.msix v).pending = s.pending := by unfold State.msix; split <;> [rfl; split <;> rfl]
@[simp] theorem State.msix_host_linkUp (v : Nat) : (s.msix v).host.linkUp = s.host.linkUp := by unfold State.msix; split <;> [rfl; split <;> rfl]
@[simp] theorem State.msix_host_rate (v : Nat) : (s.msix v).host.rate = s.host.rate := by unfold State.msix; split <;> [rfl; split <;> rfl]
@[simp] theorem State.msix_host_width (v : Nat) : (s.msix v).host.width = s.host.width := by unfold State.msix; split <;> [rfl; split <;> rfl]
@[simp] theorem State.msix_host_flit68 (v : Nat) : (s.msix v).host.flit68 = s.host.flit68 := by unfold State.msix; split <;> [rfl; split <;> rfl]
@[simp] theorem State.msix_host_busMaster (v : Nat) : (s.msix v).host.busMaster = s.host.busMaster := by unfold State.msix; split <;> [rfl; split <;> rfl]
@[simp] theorem State.msix_host_code (v : Nat) : (s.msix v).host.code = s.host.code := by unfold State.msix; split <;> [rfl; split <;> rfl]
@[simp] theorem State.msix_host_reqLen (v : Nat) : (s.msix v).host.reqLen = s.host.reqLen := by unfold State.msix; split <;> [rfl; split <;> rfl]
@[simp] theorem State.msix_host_fwReady (v : Nat) : (s.msix v).host.fwReady = s.host.fwReady := by unfold State.msix; split <;> [rfl; split <;> rfl]
@[simp] theorem State.msix_host_busy (v : Nat) : (s.msix v).host.busy = s.host.busy := by unfold State.msix; split <;> [rfl; split <;> rfl]
@[simp] theorem State.msix_host_spoiled (v : Nat) : (s.msix v).host.spoiled = s.host.spoiled := by unfold State.msix; split <;> [rfl; split <;> rfl]
@[simp] theorem State.msix_host_done (v : Nat) : (s.msix v).host.done = s.host.done := by unfold State.msix; split <;> [rfl; split <;> rfl]
@[simp] theorem State.msix_host_respLen (v : Nat) : (s.msix v).host.respLen = s.host.respLen := by unfold State.msix; split <;> [rfl; split <;> rfl]
@[simp] theorem State.msix_host_seq (v : Nat) : (s.msix v).host.seq = s.host.seq := by unfold State.msix; split <;> [rfl; split <;> rfl]
@[simp] theorem State.msix_host_status (v : Nat) : (s.msix v).host.status = s.host.status := by unfold State.msix; split <;> [rfl; split <;> rfl]
@[simp] theorem State.msix_host_payload (v : Nat) : (s.msix v).host.payload = s.host.payload := by unfold State.msix; split <;> [rfl; split <;> rfl]
@[simp] theorem State.msix_host_owner (v : Nat) : (s.msix v).host.owner = s.host.owner := by unfold State.msix; split <;> [rfl; split <;> rfl]
@[simp] theorem State.msix_host_preempted (v : Nat) : (s.msix v).host.preempted = s.host.preempted := by unfold State.msix; split <;> [rfl; split <;> rfl]
@[simp] theorem State.msix_host_mask (v : Nat) : (s.msix v).host.mask = s.host.mask := by unfold State.msix; split <;> [rfl; split <;> rfl]
@[simp] theorem State.msix_host_msixTable (v : Nat) : (s.msix v).host.msixTable = s.host.msixTable := by unfold State.msix; split <;> [rfl; split <;> rfl]
@[simp] theorem State.msix_host_devCache (v : Nat) : (s.msix v).host.devCache = s.host.devCache := by unfold State.msix; split <;> [rfl; split <;> rfl]
@[simp] theorem State.msix_host_hostLines (v : Nat) : (s.msix v).host.hostLines = s.host.hostLines := by unfold State.msix; split <;> [rfl; split <;> rfl]
@[simp] theorem State.msix_host_component (v : Nat) : (s.msix v).host.component = s.host.component := by unfold State.msix; split <;> [rfl; split <;> rfl]

@[simp] theorem State.raise_clk (i : Nat) : (s.raise i).clk = s.clk := by unfold State.raise; dsimp only; split <;> [skip; split] <;> simp
@[simp] theorem State.raise_ident (i : Nat) : (s.raise i).ident = s.ident := by unfold State.raise; dsimp only; split <;> [skip; split] <;> simp
@[simp] theorem State.raise_pts (i : Nat) : (s.raise i).pts = s.pts := by unfold State.raise; dsimp only; split <;> [skip; split] <;> simp
@[simp] theorem State.raise_chans (i : Nat) : (s.raise i).chans = s.chans := by unfold State.raise; dsimp only; split <;> [skip; split] <;> simp
@[simp] theorem State.raise_sheets (i : Nat) : (s.raise i).sheets = s.sheets := by unfold State.raise; dsimp only; split <;> [skip; split] <;> simp
@[simp] theorem State.raise_tiles (i : Nat) : (s.raise i).tiles = s.tiles := by unfold State.raise; dsimp only; split <;> [skip; split] <;> simp
@[simp] theorem State.raise_flights (i : Nat) : (s.raise i).flights = s.flights := by unfold State.raise; dsimp only; split <;> [skip; split] <;> simp
@[simp] theorem State.raise_qmaxes (i : Nat) : (s.raise i).qmaxes = s.qmaxes := by unfold State.raise; dsimp only; split <;> [skip; split] <;> simp
@[simp] theorem State.raise_dram (i : Nat) : (s.raise i).dram = s.dram := by unfold State.raise; dsimp only; split <;> [skip; split] <;> simp
@[simp] theorem State.raise_pool (i : Nat) : (s.raise i).pool = s.pool := by unfold State.raise; dsimp only; split <;> [skip; split] <;> simp
@[simp] theorem State.raise_poolChans (i : Nat) : (s.raise i).poolChans = s.poolChans := by unfold State.raise; dsimp only; split <;> [skip; split] <;> simp
@[simp] theorem State.raise_ctxs (i : Nat) : (s.raise i).ctxs = s.ctxs := by unfold State.raise; dsimp only; split <;> [skip; split] <;> simp
@[simp] theorem State.raise_rot (i : Nat) : (s.raise i).rot = s.rot := by unfold State.raise; dsimp only; split <;> [skip; split] <;> simp
@[simp] theorem State.raise_ends (i : Nat) : (s.raise i).ends = s.ends := by unfold State.raise; dsimp only; split <;> [skip; split] <;> simp
@[simp] theorem State.raise_copies (i : Nat) : (s.raise i).copies = s.copies := by unfold State.raise; dsimp only; split <;> [skip; split] <;> simp
@[simp] theorem State.raise_sessions (i : Nat) : (s.raise i).sessions = s.sessions := by unfold State.raise; dsimp only; split <;> [skip; split] <;> simp
@[simp] theorem State.raise_cache (i : Nat) : (s.raise i).cache = s.cache := by unfold State.raise; dsimp only; split <;> [skip; split] <;> simp
@[simp] theorem State.raise_modCtr (i : Nat) : (s.raise i).modCtr = s.modCtr := by unfold State.raise; dsimp only; split <;> [skip; split] <;> simp
@[simp] theorem State.raise_groups (i : Nat) : (s.raise i).groups = s.groups := by unfold State.raise; dsimp only; split <;> [skip; split] <;> simp
@[simp] theorem State.raise_ops (i : Nat) : (s.raise i).ops = s.ops := by unfold State.raise; dsimp only; split <;> [skip; split] <;> simp
@[simp] theorem State.raise_lastOp (i : Nat) : (s.raise i).lastOp = s.lastOp := by unfold State.raise; dsimp only; split <;> [skip; split] <;> simp
@[simp] theorem State.raise_logs (i : Nat) : (s.raise i).logs = s.logs := by unfold State.raise; dsimp only; split <;> [skip; split] <;> simp
@[simp] theorem State.raise_dies (i : Nat) : (s.raise i).dies = s.dies := by unfold State.raise; dsimp only; split <;> [skip; split] <;> simp
@[simp] theorem State.raise_mgmt (i : Nat) : (s.raise i).mgmt = s.mgmt := by unfold State.raise; dsimp only; split <;> [skip; split] <;> simp
@[simp] theorem State.raise_side (i : Nat) : (s.raise i).side = s.side := by unfold State.raise; dsimp only; split <;> [skip; split] <;> simp
@[simp] theorem State.raise_ports (i : Nat) : (s.raise i).ports = s.ports := by unfold State.raise; dsimp only; split <;> [skip; split] <;> simp
@[simp] theorem State.raise_rxq (i : Nat) : (s.raise i).rxq = s.rxq := by unfold State.raise; dsimp only; split <;> [skip; split] <;> simp
@[simp] theorem State.raise_jobs (i : Nat) : (s.raise i).jobs = s.jobs := by unfold State.raise; dsimp only; split <;> [skip; split] <;> simp
@[simp] theorem State.raise_reel (i : Nat) : (s.raise i).reel = s.reel := by unfold State.raise; dsimp only; split <;> [skip; split] <;> simp
@[simp] theorem State.raise_dumps (i : Nat) : (s.raise i).dumps = s.dumps := by unfold State.raise; dsimp only; split <;> [skip; split] <;> simp
@[simp] theorem State.raise_dumping (i : Nat) : (s.raise i).dumping = s.dumping := by unfold State.raise; dsimp only; split <;> [skip; split] <;> simp
@[simp] theorem State.raise_nextDump (i : Nat) : (s.raise i).nextDump = s.nextDump := by unfold State.raise; dsimp only; split <;> [skip; split] <;> simp
@[simp] theorem State.raise_start (i : Nat) : (s.raise i).start = s.start := by unfold State.raise; dsimp only; split <;> [skip; split] <;> simp
@[simp] theorem State.raise_crossing (i : Nat) : (s.raise i).crossing = s.crossing := by unfold State.raise; dsimp only; split <;> [skip; split] <;> simp
@[simp] theorem State.raise_scratch (i : Nat) : (s.raise i).scratch = s.scratch := by unfold State.raise; dsimp only; split <;> [skip; split] <;> simp
@[simp] theorem State.raise_verdicts (i : Nat) : (s.raise i).verdicts = s.verdicts := by unfold State.raise; dsimp only; split <;> [skip; split] <;> simp
@[simp] theorem State.raise_fresh (i : Nat) : (s.raise i).fresh = s.fresh := by unfold State.raise; dsimp only; split <;> [skip; split] <;> simp
@[simp] theorem State.raise_pending (i : Nat) : (s.raise i).pending = s.pending := by unfold State.raise; dsimp only; split <;> [skip; split] <;> simp
@[simp] theorem State.raise_host_linkUp (i : Nat) : (s.raise i).host.linkUp = s.host.linkUp := by unfold State.raise; dsimp only; split <;> [skip; split] <;> simp
@[simp] theorem State.raise_host_rate (i : Nat) : (s.raise i).host.rate = s.host.rate := by unfold State.raise; dsimp only; split <;> [skip; split] <;> simp
@[simp] theorem State.raise_host_width (i : Nat) : (s.raise i).host.width = s.host.width := by unfold State.raise; dsimp only; split <;> [skip; split] <;> simp
@[simp] theorem State.raise_host_flit68 (i : Nat) : (s.raise i).host.flit68 = s.host.flit68 := by unfold State.raise; dsimp only; split <;> [skip; split] <;> simp
@[simp] theorem State.raise_host_busMaster (i : Nat) : (s.raise i).host.busMaster = s.host.busMaster := by unfold State.raise; dsimp only; split <;> [skip; split] <;> simp
@[simp] theorem State.raise_host_code (i : Nat) : (s.raise i).host.code = s.host.code := by unfold State.raise; dsimp only; split <;> [skip; split] <;> simp
@[simp] theorem State.raise_host_reqLen (i : Nat) : (s.raise i).host.reqLen = s.host.reqLen := by unfold State.raise; dsimp only; split <;> [skip; split] <;> simp
@[simp] theorem State.raise_host_fwReady (i : Nat) : (s.raise i).host.fwReady = s.host.fwReady := by unfold State.raise; dsimp only; split <;> [skip; split] <;> simp
@[simp] theorem State.raise_host_busy (i : Nat) : (s.raise i).host.busy = s.host.busy := by unfold State.raise; dsimp only; split <;> [skip; split] <;> simp
@[simp] theorem State.raise_host_spoiled (i : Nat) : (s.raise i).host.spoiled = s.host.spoiled := by unfold State.raise; dsimp only; split <;> [skip; split] <;> simp
@[simp] theorem State.raise_host_done (i : Nat) : (s.raise i).host.done = s.host.done := by unfold State.raise; dsimp only; split <;> [skip; split] <;> simp
@[simp] theorem State.raise_host_respLen (i : Nat) : (s.raise i).host.respLen = s.host.respLen := by unfold State.raise; dsimp only; split <;> [skip; split] <;> simp
@[simp] theorem State.raise_host_seq (i : Nat) : (s.raise i).host.seq = s.host.seq := by unfold State.raise; dsimp only; split <;> [skip; split] <;> simp
@[simp] theorem State.raise_host_status (i : Nat) : (s.raise i).host.status = s.host.status := by unfold State.raise; dsimp only; split <;> [skip; split] <;> simp
@[simp] theorem State.raise_host_payload (i : Nat) : (s.raise i).host.payload = s.host.payload := by unfold State.raise; dsimp only; split <;> [skip; split] <;> simp
@[simp] theorem State.raise_host_owner (i : Nat) : (s.raise i).host.owner = s.host.owner := by unfold State.raise; dsimp only; split <;> [skip; split] <;> simp
@[simp] theorem State.raise_host_preempted (i : Nat) : (s.raise i).host.preempted = s.host.preempted := by unfold State.raise; dsimp only; split <;> [skip; split] <;> simp
@[simp] theorem State.raise_host_mask (i : Nat) : (s.raise i).host.mask = s.host.mask := by unfold State.raise; dsimp only; split <;> [skip; split] <;> simp
@[simp] theorem State.raise_host_msixTable (i : Nat) : (s.raise i).host.msixTable = s.host.msixTable := by unfold State.raise; dsimp only; split <;> [skip; split] <;> simp
@[simp] theorem State.raise_host_devCache (i : Nat) : (s.raise i).host.devCache = s.host.devCache := by unfold State.raise; dsimp only; split <;> [skip; split] <;> simp
@[simp] theorem State.raise_host_hostLines (i : Nat) : (s.raise i).host.hostLines = s.host.hostLines := by unfold State.raise; dsimp only; split <;> [skip; split] <;> simp
@[simp] theorem State.raise_host_component (i : Nat) : (s.raise i).host.component = s.host.component := by unfold State.raise; dsimp only; split <;> [skip; split] <;> simp

@[simp] theorem State.fsUpdate_clk  : (s.fsUpdate).clk = s.clk := by simp [State.fsUpdate]
@[simp] theorem State.fsUpdate_ident  : (s.fsUpdate).ident = s.ident := by simp [State.fsUpdate]
@[simp] theorem State.fsUpdate_pts  : (s.fsUpdate).pts = s.pts := by simp [State.fsUpdate]
@[simp] theorem State.fsUpdate_chans  : (s.fsUpdate).chans = s.chans := by simp [State.fsUpdate]
@[simp] theorem State.fsUpdate_sheets  : (s.fsUpdate).sheets = s.sheets := by simp [State.fsUpdate]
@[simp] theorem State.fsUpdate_tiles  : (s.fsUpdate).tiles = s.tiles := by simp [State.fsUpdate]
@[simp] theorem State.fsUpdate_flights  : (s.fsUpdate).flights = s.flights := by simp [State.fsUpdate]
@[simp] theorem State.fsUpdate_qmaxes  : (s.fsUpdate).qmaxes = s.qmaxes := by simp [State.fsUpdate]
@[simp] theorem State.fsUpdate_dram  : (s.fsUpdate).dram = s.dram := by simp [State.fsUpdate]
@[simp] theorem State.fsUpdate_pool  : (s.fsUpdate).pool = s.pool := by simp [State.fsUpdate]
@[simp] theorem State.fsUpdate_poolChans  : (s.fsUpdate).poolChans = s.poolChans := by simp [State.fsUpdate]
@[simp] theorem State.fsUpdate_ctxs  : (s.fsUpdate).ctxs = s.ctxs := by simp [State.fsUpdate]
@[simp] theorem State.fsUpdate_rot  : (s.fsUpdate).rot = s.rot := by simp [State.fsUpdate]
@[simp] theorem State.fsUpdate_ends  : (s.fsUpdate).ends = s.ends := by simp [State.fsUpdate]
@[simp] theorem State.fsUpdate_copies  : (s.fsUpdate).copies = s.copies := by simp [State.fsUpdate]
@[simp] theorem State.fsUpdate_sessions  : (s.fsUpdate).sessions = s.sessions := by simp [State.fsUpdate]
@[simp] theorem State.fsUpdate_cache  : (s.fsUpdate).cache = s.cache := by simp [State.fsUpdate]
@[simp] theorem State.fsUpdate_modCtr  : (s.fsUpdate).modCtr = s.modCtr := by simp [State.fsUpdate]
@[simp] theorem State.fsUpdate_groups  : (s.fsUpdate).groups = s.groups := by simp [State.fsUpdate]
@[simp] theorem State.fsUpdate_ops  : (s.fsUpdate).ops = s.ops := by simp [State.fsUpdate]
@[simp] theorem State.fsUpdate_lastOp  : (s.fsUpdate).lastOp = s.lastOp := by simp [State.fsUpdate]
@[simp] theorem State.fsUpdate_logs  : (s.fsUpdate).logs = s.logs := by simp [State.fsUpdate]
@[simp] theorem State.fsUpdate_dies  : (s.fsUpdate).dies = s.dies := by simp [State.fsUpdate]
@[simp] theorem State.fsUpdate_mgmt  : (s.fsUpdate).mgmt = s.mgmt := by simp [State.fsUpdate]
@[simp] theorem State.fsUpdate_side  : (s.fsUpdate).side = s.side := by simp [State.fsUpdate]
@[simp] theorem State.fsUpdate_ports  : (s.fsUpdate).ports = s.ports := by simp [State.fsUpdate]
@[simp] theorem State.fsUpdate_rxq  : (s.fsUpdate).rxq = s.rxq := by simp [State.fsUpdate]
@[simp] theorem State.fsUpdate_jobs  : (s.fsUpdate).jobs = s.jobs := by simp [State.fsUpdate]
@[simp] theorem State.fsUpdate_reel  : (s.fsUpdate).reel = s.reel := by simp [State.fsUpdate]
@[simp] theorem State.fsUpdate_dumps  : (s.fsUpdate).dumps = s.dumps := by simp [State.fsUpdate]
@[simp] theorem State.fsUpdate_dumping  : (s.fsUpdate).dumping = s.dumping := by simp [State.fsUpdate]
@[simp] theorem State.fsUpdate_nextDump  : (s.fsUpdate).nextDump = s.nextDump := by simp [State.fsUpdate]
@[simp] theorem State.fsUpdate_start  : (s.fsUpdate).start = s.start := by simp [State.fsUpdate]
@[simp] theorem State.fsUpdate_crossing  : (s.fsUpdate).crossing = s.crossing := by simp [State.fsUpdate]
@[simp] theorem State.fsUpdate_scratch  : (s.fsUpdate).scratch = s.scratch := by simp [State.fsUpdate]
@[simp] theorem State.fsUpdate_verdicts  : (s.fsUpdate).verdicts = s.verdicts := by simp [State.fsUpdate]
@[simp] theorem State.fsUpdate_fresh  : (s.fsUpdate).fresh = s.fresh := by simp [State.fsUpdate]
@[simp] theorem State.fsUpdate_pending  : (s.fsUpdate).pending = s.pending := by simp [State.fsUpdate]
@[simp] theorem State.fsUpdate_host_linkUp  : (s.fsUpdate).host.linkUp = s.host.linkUp := by simp [State.fsUpdate]
@[simp] theorem State.fsUpdate_host_rate  : (s.fsUpdate).host.rate = s.host.rate := by simp [State.fsUpdate]
@[simp] theorem State.fsUpdate_host_width  : (s.fsUpdate).host.width = s.host.width := by simp [State.fsUpdate]
@[simp] theorem State.fsUpdate_host_flit68  : (s.fsUpdate).host.flit68 = s.host.flit68 := by simp [State.fsUpdate]
@[simp] theorem State.fsUpdate_host_busMaster  : (s.fsUpdate).host.busMaster = s.host.busMaster := by simp [State.fsUpdate]
@[simp] theorem State.fsUpdate_host_code  : (s.fsUpdate).host.code = s.host.code := by simp [State.fsUpdate]
@[simp] theorem State.fsUpdate_host_reqLen  : (s.fsUpdate).host.reqLen = s.host.reqLen := by simp [State.fsUpdate]
@[simp] theorem State.fsUpdate_host_fwReady  : (s.fsUpdate).host.fwReady = s.host.fwReady := by simp [State.fsUpdate]
@[simp] theorem State.fsUpdate_host_busy  : (s.fsUpdate).host.busy = s.host.busy := by simp [State.fsUpdate]
@[simp] theorem State.fsUpdate_host_spoiled  : (s.fsUpdate).host.spoiled = s.host.spoiled := by simp [State.fsUpdate]
@[simp] theorem State.fsUpdate_host_done  : (s.fsUpdate).host.done = s.host.done := by simp [State.fsUpdate]
@[simp] theorem State.fsUpdate_host_respLen  : (s.fsUpdate).host.respLen = s.host.respLen := by simp [State.fsUpdate]
@[simp] theorem State.fsUpdate_host_seq  : (s.fsUpdate).host.seq = s.host.seq := by simp [State.fsUpdate]
@[simp] theorem State.fsUpdate_host_status  : (s.fsUpdate).host.status = s.host.status := by simp [State.fsUpdate]
@[simp] theorem State.fsUpdate_host_payload  : (s.fsUpdate).host.payload = s.host.payload := by simp [State.fsUpdate]
@[simp] theorem State.fsUpdate_host_owner  : (s.fsUpdate).host.owner = s.host.owner := by simp [State.fsUpdate]
@[simp] theorem State.fsUpdate_host_preempted  : (s.fsUpdate).host.preempted = s.host.preempted := by simp [State.fsUpdate]
@[simp] theorem State.fsUpdate_host_mask  : (s.fsUpdate).host.mask = s.host.mask := by simp [State.fsUpdate]
@[simp] theorem State.fsUpdate_host_msixTable  : (s.fsUpdate).host.msixTable = s.host.msixTable := by simp [State.fsUpdate]
@[simp] theorem State.fsUpdate_host_devCache  : (s.fsUpdate).host.devCache = s.host.devCache := by simp [State.fsUpdate]
@[simp] theorem State.fsUpdate_host_hostLines  : (s.fsUpdate).host.hostLines = s.host.hostLines := by simp [State.fsUpdate]
@[simp] theorem State.fsUpdate_host_component  : (s.fsUpdate).host.component = s.host.component := by simp [State.fsUpdate]

@[simp] theorem settle_clk : (settle s t).clk = t.clk := by unfold settle; split <;> simp
@[simp] theorem settle_ident : (settle s t).ident = t.ident := by unfold settle; split <;> simp
@[simp] theorem settle_pts : (settle s t).pts = t.pts := by unfold settle; split <;> simp
@[simp] theorem settle_chans : (settle s t).chans = t.chans := by unfold settle; split <;> simp
@[simp] theorem settle_sheets : (settle s t).sheets = t.sheets := by unfold settle; split <;> simp
@[simp] theorem settle_tiles : (settle s t).tiles = t.tiles := by unfold settle; split <;> simp
@[simp] theorem settle_flights : (settle s t).flights = t.flights := by unfold settle; split <;> simp
@[simp] theorem settle_qmaxes : (settle s t).qmaxes = t.qmaxes := by unfold settle; split <;> simp
@[simp] theorem settle_dram : (settle s t).dram = t.dram := by unfold settle; split <;> simp
@[simp] theorem settle_pool : (settle s t).pool = t.pool := by unfold settle; split <;> simp
@[simp] theorem settle_poolChans : (settle s t).poolChans = t.poolChans := by unfold settle; split <;> simp
@[simp] theorem settle_ctxs : (settle s t).ctxs = t.ctxs := by unfold settle; split <;> simp
@[simp] theorem settle_rot : (settle s t).rot = t.rot := by unfold settle; split <;> simp
@[simp] theorem settle_ends : (settle s t).ends = t.ends := by unfold settle; split <;> simp
@[simp] theorem settle_copies : (settle s t).copies = t.copies := by unfold settle; split <;> simp
@[simp] theorem settle_sessions : (settle s t).sessions = t.sessions := by unfold settle; split <;> simp
@[simp] theorem settle_cache : (settle s t).cache = t.cache := by unfold settle; split <;> simp
@[simp] theorem settle_modCtr : (settle s t).modCtr = t.modCtr := by unfold settle; split <;> simp
@[simp] theorem settle_groups : (settle s t).groups = t.groups := by unfold settle; split <;> simp
@[simp] theorem settle_ops : (settle s t).ops = t.ops := by unfold settle; split <;> simp
@[simp] theorem settle_lastOp : (settle s t).lastOp = t.lastOp := by unfold settle; split <;> simp
@[simp] theorem settle_logs : (settle s t).logs = t.logs := by unfold settle; split <;> simp
@[simp] theorem settle_dies : (settle s t).dies = t.dies := by unfold settle; split <;> simp
@[simp] theorem settle_mgmt : (settle s t).mgmt = t.mgmt := by unfold settle; split <;> simp
@[simp] theorem settle_side : (settle s t).side = t.side := by unfold settle; split <;> simp
@[simp] theorem settle_ports : (settle s t).ports = t.ports := by unfold settle; split <;> simp
@[simp] theorem settle_rxq : (settle s t).rxq = t.rxq := by unfold settle; split <;> simp
@[simp] theorem settle_jobs : (settle s t).jobs = t.jobs := by unfold settle; split <;> simp
@[simp] theorem settle_reel : (settle s t).reel = t.reel := by unfold settle; split <;> simp
@[simp] theorem settle_dumps : (settle s t).dumps = t.dumps := by unfold settle; split <;> simp
@[simp] theorem settle_dumping : (settle s t).dumping = t.dumping := by unfold settle; split <;> simp
@[simp] theorem settle_nextDump : (settle s t).nextDump = t.nextDump := by unfold settle; split <;> simp
@[simp] theorem settle_start : (settle s t).start = t.start := by unfold settle; split <;> simp
@[simp] theorem settle_crossing : (settle s t).crossing = t.crossing := by unfold settle; split <;> simp
@[simp] theorem settle_scratch : (settle s t).scratch = t.scratch := by unfold settle; split <;> simp
@[simp] theorem settle_verdicts : (settle s t).verdicts = t.verdicts := by unfold settle; split <;> simp
@[simp] theorem settle_fresh : (settle s t).fresh = t.fresh := by unfold settle; split <;> simp
@[simp] theorem settle_pending : (settle s t).pending = t.pending := by unfold settle; split <;> simp
@[simp] theorem settle_host_linkUp : (settle s t).host.linkUp = t.host.linkUp := by unfold settle; split <;> simp
@[simp] theorem settle_host_rate : (settle s t).host.rate = t.host.rate := by unfold settle; split <;> simp
@[simp] theorem settle_host_width : (settle s t).host.width = t.host.width := by unfold settle; split <;> simp
@[simp] theorem settle_host_flit68 : (settle s t).host.flit68 = t.host.flit68 := by unfold settle; split <;> simp
@[simp] theorem settle_host_busMaster : (settle s t).host.busMaster = t.host.busMaster := by unfold settle; split <;> simp
@[simp] theorem settle_host_code : (settle s t).host.code = t.host.code := by unfold settle; split <;> simp
@[simp] theorem settle_host_reqLen : (settle s t).host.reqLen = t.host.reqLen := by unfold settle; split <;> simp
@[simp] theorem settle_host_fwReady : (settle s t).host.fwReady = t.host.fwReady := by unfold settle; split <;> simp
@[simp] theorem settle_host_busy : (settle s t).host.busy = t.host.busy := by unfold settle; split <;> simp
@[simp] theorem settle_host_spoiled : (settle s t).host.spoiled = t.host.spoiled := by unfold settle; split <;> simp
@[simp] theorem settle_host_done : (settle s t).host.done = t.host.done := by unfold settle; split <;> simp
@[simp] theorem settle_host_respLen : (settle s t).host.respLen = t.host.respLen := by unfold settle; split <;> simp
@[simp] theorem settle_host_seq : (settle s t).host.seq = t.host.seq := by unfold settle; split <;> simp
@[simp] theorem settle_host_status : (settle s t).host.status = t.host.status := by unfold settle; split <;> simp
@[simp] theorem settle_host_payload : (settle s t).host.payload = t.host.payload := by unfold settle; split <;> simp
@[simp] theorem settle_host_owner : (settle s t).host.owner = t.host.owner := by unfold settle; split <;> simp
@[simp] theorem settle_host_preempted : (settle s t).host.preempted = t.host.preempted := by unfold settle; split <;> simp
@[simp] theorem settle_host_mask : (settle s t).host.mask = t.host.mask := by unfold settle; split <;> simp
@[simp] theorem settle_host_msixTable : (settle s t).host.msixTable = t.host.msixTable := by unfold settle; split <;> simp
@[simp] theorem settle_host_devCache : (settle s t).host.devCache = t.host.devCache := by unfold settle; split <;> simp
@[simp] theorem settle_host_hostLines : (settle s t).host.hostLines = t.host.hostLines := by unfold settle; split <;> simp
@[simp] theorem settle_host_component : (settle s t).host.component = t.host.component := by unfold settle; split <;> simp

/-! ### What an update makes of its own part -/

@[simp] theorem State.modPt_pts_length (p : Nat) (f : Partition → Partition) : (s.modPt p f).pts.length = s.pts.length := by
  simp [State.modPt]
theorem State.pt_modPt_same (p : Nat) (f : Partition → Partition) (h : p < s.pts.length) : (s.modPt p f).pt p = f (s.pt p) := by
  simp [State.pt, State.modPt, List.getD_eq_getElem?_getD, h]
theorem State.pt_modPt_other (p q : Nat) (f : Partition → Partition) (h : p ≠ q) : (s.modPt p f).pt q = s.pt q := by
  simp [State.pt, State.modPt, List.getD_eq_getElem?_getD, h]
@[simp] theorem State.modChan_chans_length (p : Nat) (f : Chan → Chan) : (s.modChan p f).chans.length = s.chans.length := by
  simp [State.modChan]
theorem State.chan_modChan_same (p : Nat) (f : Chan → Chan) (h : p < s.chans.length) : (s.modChan p f).chan p = f (s.chan p) := by
  simp [State.chan, State.modChan, List.getD_eq_getElem?_getD, h]
theorem State.chan_modChan_other (p q : Nat) (f : Chan → Chan) (h : p ≠ q) : (s.modChan p f).chan q = s.chan q := by
  simp [State.chan, State.modChan, List.getD_eq_getElem?_getD, h]
@[simp] theorem State.modSheet_sheets_length (p : Nat) (f : Sheet → Sheet) : (s.modSheet p f).sheets.length = s.sheets.length := by
  simp [State.modSheet]
theorem State.sheet_modSheet_same (p : Nat) (f : Sheet → Sheet) (h : p < s.sheets.length) : (s.modSheet p f).sheet p = f (s.sheet p) := by
  simp [State.sheet, State.modSheet, List.getD_eq_getElem?_getD, h]
theorem State.sheet_modSheet_other (p q : Nat) (f : Sheet → Sheet) (h : p ≠ q) : (s.modSheet p f).sheet q = s.sheet q := by
  simp [State.sheet, State.modSheet, List.getD_eq_getElem?_getD, h]
@[simp] theorem State.modCtx_ctxs_length (p : Nat) (f : Context → Context) : (s.modCtx p f).ctxs.length = s.ctxs.length := by
  simp [State.modCtx]
theorem State.ctx_modCtx_same (p : Nat) (f : Context → Context) (h : p < s.ctxs.length) : (s.modCtx p f).ctx p = f (s.ctx p) := by
  simp [State.ctx, State.modCtx, List.getD_eq_getElem?_getD, h]
theorem State.ctx_modCtx_other (p q : Nat) (f : Context → Context) (h : p ≠ q) : (s.modCtx p f).ctx q = s.ctx q := by
  simp [State.ctx, State.modCtx, List.getD_eq_getElem?_getD, h]
@[simp] theorem State.modPort_ports_length (p : Nat) (f : FPort → FPort) : (s.modPort p f).ports.length = s.ports.length := by
  simp [State.modPort]
theorem State.port_modPort_same (p : Nat) (f : FPort → FPort) (h : p < s.ports.length) : (s.modPort p f).port p = f (s.port p) := by
  simp [State.port, State.modPort, List.getD_eq_getElem?_getD, h]
theorem State.port_modPort_other (p q : Nat) (f : FPort → FPort) (h : p ≠ q) : (s.modPort p f).port q = s.port q := by
  simp [State.port, State.modPort, List.getD_eq_getElem?_getD, h]

end Sys2Proof.Machine
end

