-- ==== Sys2Proof/Laws/Host.lean ====
section
/-!
SUPPORT. What a mailbox command of the host does once its effect is known, and what an update of the fault summary leaves alone.
-/
namespace Sys2Proof.Machine

/-! ### Interrupts and the fault summary -/

theorem State.msix_eq (s : State) (v : Nat) :
    s.msix v = { s with host := { s.host with msixPending := (s.msix v).host.msixPending }, outbox := (s.msix v).outbox } ∧
      s.outbox <+: (s.msix v).outbox := by
  unfold State.msix
  split
  · exact ⟨rfl, List.prefix_refl _⟩
  · split
    · exact ⟨rfl, List.prefix_refl _⟩
    · exact ⟨rfl, List.prefix_append _ _⟩

theorem State.raise_eq (s : State) (i : Nat) :
    s.raise i = { s with
      host := { s.host with cause := s.host.cause ||| BitVec.ofNat 6 (2 ^ i), msixPending := (s.raise i).host.msixPending }
      outbox := (s.raise i).outbox } ∧ s.outbox <+: (s.raise i).outbox := by
  unfold State.raise
  dsimp only
  split
  · exact ⟨rfl, List.prefix_refl _⟩
  · split
    · exact ⟨rfl, List.prefix_refl _⟩
    · have h := State.msix_eq { s with host := { s.host with cause := s.host.cause ||| BitVec.ofNat 6 (2 ^ i) } } (causeVector i)
      refine ⟨?_, h.2⟩
      conv_lhs => rw [h.1]

/-- What `settle` may do to a state. -/
theorem settled (s u : State) : Settled u (settle s u) := by
  unfold settle
  split
  · exact ⟨rfl, .inl rfl, .inl rfl, List.prefix_refl _⟩
  · unfold State.fsUpdate
    have h := State.raise_eq { u with host := { u.host with fsGen := u.host.fsGen + 2 } } 3
    generalize State.raise { u with host := { u.host with fsGen := u.host.fsGen + 2 } } 3 = v at h ⊢
    obtain ⟨h1, h2⟩ := h
    refine ⟨?_, .inr (by rw [h1]), .inr ?_, h2⟩
    · rw [h1]
    · rw [h1]; rfl

/-- A command that answers through `nextOf` makes the state it names. -/
theorem makes_of {c : Instr} {s u : State} (h : exec c s = nextOf s u) : Makes c s u := ⟨_, h, settled s u⟩

/-! ### The mailbox -/

theorem hostCmd_ready {kind : MbKind} {code : Nat} {f : MbFun} {p : Payload} {s : State} (h : HostReady s)
    (hk : kind = .q ∨ s.host.owner = .host) : hostCmd kind code f p s = complete (f .host p (s.submit code p)) := by
  obtain ⟨h1, h2, h3, h4, h5, -⟩ := h
  have hg : gate kind code f .host p (s.submit code p) = f .host p (s.submit code p) := by
    unfold gate
    rw [if_neg (by simpa [State.submit] using h5)]
    unfold lockGate
    rw [if_pos]
    rcases hk with hk | hk
    · exact .inl hk
    · right; simp [State.submit, ownerIs, hk]
  have h6 : (s.submit code p).host.fwReady = true := h4
  simp [hostCmd, h1, h2, h3, h6, hg]

@[simp] theorem length_fill (n : Nat) (b : List RByte) : (fill n b).length = b.length := by simp [fill]

/-- Each byte read has the bits that the response states. -/
theorem fill_value {n i : Nat} {x : RByte} {bs : List RByte} (h : bs[i]? = some x) :
    ∃ hi : i < (fill n bs).length, (fill n bs)[i] = x.value (Config.freeByte (n + i)) := by
  obtain ⟨hi, hb⟩ := List.getElem?_eq_some_iff.1 h
  exact ⟨by simpa using hi, by simp [fill, hb]⟩

/-- A mailbox command whose function gives `u` beside the mailbox and a response replies so. -/
theorem replies_of {c : Instr} {kind : MbKind} {code : Nat} {f : MbFun} {p : Payload} {s u v : State} {st : Nat} {bs : List RByte}
    (h : HostReady s) (hk : kind = .q ∨ s.host.owner = .host)
    (hc : exec c s = nextOf s (hostCmd kind code f p s))
    (hf : f .host p (s.submit code p) = (v, ⟨st, bs⟩))
    (hv : v.host.payload.wf = true ∧ v.host.seq = s.host.seq ∧ v.host.spoiled = false)
    (hu : Beside u v) : Replies c s st bs u := by
  rw [hostCmd_ready h hk, hf] at hc
  have hs := settled s (complete (v, ⟨st, bs⟩))
  refine ⟨_, hc, ?_⟩
  generalize settle s (complete (v, ⟨st, bs⟩)) = t at hs
  obtain ⟨h1, -, h3, h4⟩ := hs
  have hcomp := State.raise_eq
    { v with
      fresh := v.fresh + (fill v.fresh bs).length
      host := { v.host with
        payload := v.host.payload.write 0 (fill v.fresh bs)
        status := st, respLen := (fill v.fresh bs).length, done := true, seq := v.host.seq + 1, busy := false } } 0
  have hdef : complete (v, ⟨st, bs⟩) = State.raise
    { v with
      fresh := v.fresh + (fill v.fresh bs).length
      host := { v.host with
        payload := v.host.payload.write 0 (fill v.fresh bs)
        status := st, respLen := (fill v.fresh bs).length, done := true, seq := v.host.seq + 1, busy := false } } 0 := by
    simp [complete, hv.2.2]
  rw [hdef] at h1 h3 h4
  generalize State.raise _ 0 = w at h1 h3 h4 hcomp
  obtain ⟨h5, h6⟩ := hcomp
  obtain ⟨h7, h8⟩ := hu
  refine ⟨⟨?_, ?_, ?_, ?_, ?_, ?_, ?_⟩, ?_, ?_⟩
  · rw [h1, h5]
  · rw [h1, h5]
  · rw [h1, h5]
  · rw [h1, h5]; simp [hv.2.1]
  · have : w.host.cause.getLsbD 0 = true := by rw [h5]; simp
    rcases h3 with h3 | h3 <;> rw [h3] <;> simp [this]
  · rw [h1, h5]; simp
  · intro i x hx
    obtain ⟨hi, hb⟩ := fill_value (n := v.fresh) hx
    rw [h1, h5]
    have := Mem.get_write 0 i (fill v.fresh bs) hv.1 hi
    exact ⟨_, by simpa [hb] using this⟩
  · rw [h1, h5, h7]
  · exact h8.trans (h6.trans h4)

end Sys2Proof.Machine
end

