-- ==== Sys2Proof/Laws/PerInstr.lean ====
section
/-!
SUPPORT. One law per command: a well-formed command's mailbox request fits the payload area (R288).
-/
namespace Sys2Proof

/-- The mailbox request that a command carries, of the host or of the sideband. -/
def Instr.request : Instr → Option Payload
  | .identify p | .opStatus p | .describe p | .resolve p | .children p | .status p | .counters p | .groupCreate p
  | .groupEdit p | .groupDelete p | .startStatus p | .ctxCreate p | .ctxDestroy p | .ctxAlloc p | .ctxFree p
  | .ctxBind p | .ctxSuspend p | .ctxResume p | .queueConfig p | .progLoad p | .progUnload p | .progInfo p | .reset p
  | .fwRestart p | .modeSet p | .modeGet p | .powerSet p | .fence p | .unfence p | .test p | .testResult p
  | .ledgerRead p | .errlogRead p | .dumpTrigger p | .dumpInfo p | .dumpRead p | .dumpClear p | .settingsGet p
  | .settingsSet p | .fwInfo p | .fwStageBegin p | .fwStageData p | .fwStageCommit p | .fwRecoveryLoad p
  | .fwSvnAdvance p | .keyEnrol p | .keyClear p | .keyList p | .reelInfo p | .reelEject p | .reelSeal p
  | .reelFormat p | .portStatus p | .vcBind p | .routeSet p | .routeGet p | .collStatus p | .jobCreate p
  | .jobStatus p | .jobLeave p | .ecSetup p | .jobRestart p => some p
  | .mbRequest _ _ p => some p
  | _ => none

/-- The request of a well-formed command is at most 4,096 bytes. -/
def Laws.Wf.Statement (i : Instr) : Prop := i.wellFormed = true → ∀ p, i.request = some p → p.length ≤ 4096

theorem Laws.Wf.identify : ∀ a0, Laws.Wf.Statement (.identify a0) := fun _ h _ e => Option.some.inj e ▸ of_decide_eq_true h
theorem Laws.Wf.opStatus : ∀ a0, Laws.Wf.Statement (.opStatus a0) := fun _ h _ e => Option.some.inj e ▸ of_decide_eq_true h
theorem Laws.Wf.describe : ∀ a0, Laws.Wf.Statement (.describe a0) := fun _ h _ e => Option.some.inj e ▸ of_decide_eq_true h
theorem Laws.Wf.resolve : ∀ a0, Laws.Wf.Statement (.resolve a0) := fun _ h _ e => Option.some.inj e ▸ of_decide_eq_true h
theorem Laws.Wf.children : ∀ a0, Laws.Wf.Statement (.children a0) := fun _ h _ e => Option.some.inj e ▸ of_decide_eq_true h
theorem Laws.Wf.status : ∀ a0, Laws.Wf.Statement (.status a0) := fun _ h _ e => Option.some.inj e ▸ of_decide_eq_true h
theorem Laws.Wf.counters : ∀ a0, Laws.Wf.Statement (.counters a0) := fun _ h _ e => Option.some.inj e ▸ of_decide_eq_true h
theorem Laws.Wf.groupCreate : ∀ a0, Laws.Wf.Statement (.groupCreate a0) := fun _ h _ e => Option.some.inj e ▸ of_decide_eq_true h
theorem Laws.Wf.groupEdit : ∀ a0, Laws.Wf.Statement (.groupEdit a0) := fun _ h _ e => Option.some.inj e ▸ of_decide_eq_true h
theorem Laws.Wf.groupDelete : ∀ a0, Laws.Wf.Statement (.groupDelete a0) := fun _ h _ e => Option.some.inj e ▸ of_decide_eq_true h
theorem Laws.Wf.startStatus : ∀ a0, Laws.Wf.Statement (.startStatus a0) := fun _ h _ e => Option.some.inj e ▸ of_decide_eq_true h
theorem Laws.Wf.ctxCreate : ∀ a0, Laws.Wf.Statement (.ctxCreate a0) := fun _ h _ e => Option.some.inj e ▸ of_decide_eq_true h
theorem Laws.Wf.ctxDestroy : ∀ a0, Laws.Wf.Statement (.ctxDestroy a0) := fun _ h _ e => Option.some.inj e ▸ of_decide_eq_true h
theorem Laws.Wf.ctxAlloc : ∀ a0, Laws.Wf.Statement (.ctxAlloc a0) := fun _ h _ e => Option.some.inj e ▸ of_decide_eq_true h
theorem Laws.Wf.ctxFree : ∀ a0, Laws.Wf.Statement (.ctxFree a0) := fun _ h _ e => Option.some.inj e ▸ of_decide_eq_true h
theorem Laws.Wf.ctxBind : ∀ a0, Laws.Wf.Statement (.ctxBind a0) := fun _ h _ e => Option.some.inj e ▸ of_decide_eq_true h
theorem Laws.Wf.ctxSuspend : ∀ a0, Laws.Wf.Statement (.ctxSuspend a0) := fun _ h _ e => Option.some.inj e ▸ of_decide_eq_true h
theorem Laws.Wf.suspensionSaved : ∀ a0, Laws.Wf.Statement (.suspensionSaved a0) := fun _ _ _ e => nomatch e
theorem Laws.Wf.ctxResume : ∀ a0, Laws.Wf.Statement (.ctxResume a0) := fun _ h _ e => Option.some.inj e ▸ of_decide_eq_true h
theorem Laws.Wf.resumptionFinished : ∀ a0, Laws.Wf.Statement (.resumptionFinished a0) := fun _ _ _ e => nomatch e
theorem Laws.Wf.queueConfig : ∀ a0, Laws.Wf.Statement (.queueConfig a0) := fun _ h _ e => Option.some.inj e ▸ of_decide_eq_true h
theorem Laws.Wf.progLoad : ∀ a0, Laws.Wf.Statement (.progLoad a0) := fun _ h _ e => Option.some.inj e ▸ of_decide_eq_true h
theorem Laws.Wf.progLoadFinished : ∀ a0 a1 a2, Laws.Wf.Statement (.progLoadFinished a0 a1 a2) := fun _ _ _ _ _ e => nomatch e
theorem Laws.Wf.progUnload : ∀ a0, Laws.Wf.Statement (.progUnload a0) := fun _ h _ e => Option.some.inj e ▸ of_decide_eq_true h
theorem Laws.Wf.progInfo : ∀ a0, Laws.Wf.Statement (.progInfo a0) := fun _ h _ e => Option.some.inj e ▸ of_decide_eq_true h
theorem Laws.Wf.reset : ∀ a0, Laws.Wf.Statement (.reset a0) := fun _ h _ e => Option.some.inj e ▸ of_decide_eq_true h
theorem Laws.Wf.partitionResetEnd : ∀ a0 a1 a2 a3 a4, Laws.Wf.Statement (.partitionResetEnd a0 a1 a2 a3 a4) := fun _ _ _ _ _ _ _ e => nomatch e
theorem Laws.Wf.fwRestart : ∀ a0, Laws.Wf.Statement (.fwRestart a0) := fun _ h _ e => Option.some.inj e ▸ of_decide_eq_true h
theorem Laws.Wf.fwRestartEnd : ∀ a0 a1, Laws.Wf.Statement (.fwRestartEnd a0 a1) := fun _ _ _ _ e => nomatch e
theorem Laws.Wf.modeSet : ∀ a0, Laws.Wf.Statement (.modeSet a0) := fun _ h _ e => Option.some.inj e ▸ of_decide_eq_true h
theorem Laws.Wf.modeUnitApplied : ∀ a0 a1, Laws.Wf.Statement (.modeUnitApplied a0 a1) := fun _ _ _ _ e => nomatch e
theorem Laws.Wf.modeGet : ∀ a0, Laws.Wf.Statement (.modeGet a0) := fun _ h _ e => Option.some.inj e ▸ of_decide_eq_true h
theorem Laws.Wf.powerSet : ∀ a0, Laws.Wf.Statement (.powerSet a0) := fun _ h _ e => Option.some.inj e ▸ of_decide_eq_true h
theorem Laws.Wf.powerStateReached : ∀ a0, Laws.Wf.Statement (.powerStateReached a0) := fun _ _ _ e => nomatch e
theorem Laws.Wf.fence : ∀ a0, Laws.Wf.Statement (.fence a0) := fun _ h _ e => Option.some.inj e ▸ of_decide_eq_true h
theorem Laws.Wf.unfence : ∀ a0, Laws.Wf.Statement (.unfence a0) := fun _ h _ e => Option.some.inj e ▸ of_decide_eq_true h
theorem Laws.Wf.test : ∀ a0, Laws.Wf.Statement (.test a0) := fun _ h _ e => Option.some.inj e ▸ of_decide_eq_true h
theorem Laws.Wf.testFinished : ∀ a0 a1 a2, Laws.Wf.Statement (.testFinished a0 a1 a2) := fun _ _ _ _ _ e => nomatch e
theorem Laws.Wf.testResult : ∀ a0, Laws.Wf.Statement (.testResult a0) := fun _ h _ e => Option.some.inj e ▸ of_decide_eq_true h
theorem Laws.Wf.ledgerRead : ∀ a0, Laws.Wf.Statement (.ledgerRead a0) := fun _ h _ e => Option.some.inj e ▸ of_decide_eq_true h
theorem Laws.Wf.errlogRead : ∀ a0, Laws.Wf.Statement (.errlogRead a0) := fun _ h _ e => Option.some.inj e ▸ of_decide_eq_true h
theorem Laws.Wf.dumpTrigger : ∀ a0, Laws.Wf.Statement (.dumpTrigger a0) := fun _ h _ e => Option.some.inj e ▸ of_decide_eq_true h
theorem Laws.Wf.dumpInfo : ∀ a0, Laws.Wf.Statement (.dumpInfo a0) := fun _ h _ e => Option.some.inj e ▸ of_decide_eq_true h
theorem Laws.Wf.dumpRead : ∀ a0, Laws.Wf.Statement (.dumpRead a0) := fun _ h _ e => Option.some.inj e ▸ of_decide_eq_true h
theorem Laws.Wf.dumpClear : ∀ a0, Laws.Wf.Statement (.dumpClear a0) := fun _ h _ e => Option.some.inj e ▸ of_decide_eq_true h
theorem Laws.Wf.settingsGet : ∀ a0, Laws.Wf.Statement (.settingsGet a0) := fun _ h _ e => Option.some.inj e ▸ of_decide_eq_true h
theorem Laws.Wf.settingsSet : ∀ a0, Laws.Wf.Statement (.settingsSet a0) := fun _ h _ e => Option.some.inj e ▸ of_decide_eq_true h
theorem Laws.Wf.fwInfo : ∀ a0, Laws.Wf.Statement (.fwInfo a0) := fun _ h _ e => Option.some.inj e ▸ of_decide_eq_true h
theorem Laws.Wf.fwStageBegin : ∀ a0, Laws.Wf.Statement (.fwStageBegin a0) := fun _ h _ e => Option.some.inj e ▸ of_decide_eq_true h
theorem Laws.Wf.fwStageData : ∀ a0, Laws.Wf.Statement (.fwStageData a0) := fun _ h _ e => Option.some.inj e ▸ of_decide_eq_true h
theorem Laws.Wf.fwStageCommit : ∀ a0, Laws.Wf.Statement (.fwStageCommit a0) := fun _ h _ e => Option.some.inj e ▸ of_decide_eq_true h
theorem Laws.Wf.fwCommitFinished : ∀ a0, Laws.Wf.Statement (.fwCommitFinished a0) := fun _ _ _ e => nomatch e
theorem Laws.Wf.fwRecoveryLoad : ∀ a0, Laws.Wf.Statement (.fwRecoveryLoad a0) := fun _ h _ e => Option.some.inj e ▸ of_decide_eq_true h
theorem Laws.Wf.fwSvnAdvance : ∀ a0, Laws.Wf.Statement (.fwSvnAdvance a0) := fun _ h _ e => Option.some.inj e ▸ of_decide_eq_true h
theorem Laws.Wf.keyEnrol : ∀ a0, Laws.Wf.Statement (.keyEnrol a0) := fun _ h _ e => Option.some.inj e ▸ of_decide_eq_true h
theorem Laws.Wf.keyClear : ∀ a0, Laws.Wf.Statement (.keyClear a0) := fun _ h _ e => Option.some.inj e ▸ of_decide_eq_true h
theorem Laws.Wf.keyList : ∀ a0, Laws.Wf.Statement (.keyList a0) := fun _ h _ e => Option.some.inj e ▸ of_decide_eq_true h
theorem Laws.Wf.reelInfo : ∀ a0, Laws.Wf.Statement (.reelInfo a0) := fun _ h _ e => Option.some.inj e ▸ of_decide_eq_true h
theorem Laws.Wf.reelEject : ∀ a0, Laws.Wf.Statement (.reelEject a0) := fun _ h _ e => Option.some.inj e ▸ of_decide_eq_true h
theorem Laws.Wf.reelSeal : ∀ a0, Laws.Wf.Statement (.reelSeal a0) := fun _ h _ e => Option.some.inj e ▸ of_decide_eq_true h
theorem Laws.Wf.reelFormat : ∀ a0, Laws.Wf.Statement (.reelFormat a0) := fun _ h _ e => Option.some.inj e ▸ of_decide_eq_true h
theorem Laws.Wf.reelOpFinished : ∀ a0 a1, Laws.Wf.Statement (.reelOpFinished a0 a1) := fun _ _ _ _ e => nomatch e
theorem Laws.Wf.portStatus : ∀ a0, Laws.Wf.Statement (.portStatus a0) := fun _ h _ e => Option.some.inj e ▸ of_decide_eq_true h
theorem Laws.Wf.vcBind : ∀ a0, Laws.Wf.Statement (.vcBind a0) := fun _ h _ e => Option.some.inj e ▸ of_decide_eq_true h
theorem Laws.Wf.routeSet : ∀ a0, Laws.Wf.Statement (.routeSet a0) := fun _ h _ e => Option.some.inj e ▸ of_decide_eq_true h
theorem Laws.Wf.routeGet : ∀ a0, Laws.Wf.Statement (.routeGet a0) := fun _ h _ e => Option.some.inj e ▸ of_decide_eq_true h
theorem Laws.Wf.collStatus : ∀ a0, Laws.Wf.Statement (.collStatus a0) := fun _ h _ e => Option.some.inj e ▸ of_decide_eq_true h
theorem Laws.Wf.jobCreate : ∀ a0, Laws.Wf.Statement (.jobCreate a0) := fun _ h _ e => Option.some.inj e ▸ of_decide_eq_true h
theorem Laws.Wf.jobStatus : ∀ a0, Laws.Wf.Statement (.jobStatus a0) := fun _ h _ e => Option.some.inj e ▸ of_decide_eq_true h
theorem Laws.Wf.jobLeave : ∀ a0, Laws.Wf.Statement (.jobLeave a0) := fun _ h _ e => Option.some.inj e ▸ of_decide_eq_true h
theorem Laws.Wf.ecSetup : ∀ a0, Laws.Wf.Statement (.ecSetup a0) := fun _ h _ e => Option.some.inj e ▸ of_decide_eq_true h
theorem Laws.Wf.jobRestart : ∀ a0, Laws.Wf.Statement (.jobRestart a0) := fun _ h _ e => Option.some.inj e ▸ of_decide_eq_true h
theorem Laws.Wf.mbDoneClear : Laws.Wf.Statement .mbDoneClear := fun _ _ e => nomatch e
theorem Laws.Wf.lockAcquireHost : Laws.Wf.Statement .lockAcquireHost := fun _ _ e => nomatch e
theorem Laws.Wf.lockReleaseHost : Laws.Wf.Statement .lockReleaseHost := fun _ _ e => nomatch e
theorem Laws.Wf.preemptedClear : Laws.Wf.Statement .preemptedClear := fun _ _ e => nomatch e
theorem Laws.Wf.intCauseClear : ∀ a0, Laws.Wf.Statement (.intCauseClear a0) := fun _ _ _ e => nomatch e
theorem Laws.Wf.intMaskWrite : ∀ a0, Laws.Wf.Statement (.intMaskWrite a0) := fun _ _ _ e => nomatch e
theorem Laws.Wf.registerWrite : ∀ a0 a1, Laws.Wf.Statement (.registerWrite a0 a1) := fun _ _ _ _ e => nomatch e
theorem Laws.Wf.dbTailWrite : ∀ a0 a1 a2 a3, Laws.Wf.Statement (.dbTailWrite a0 a1 a2 a3) := fun _ _ _ _ _ _ e => nomatch e
theorem Laws.Wf.dbStop : ∀ a0 a1 a2, Laws.Wf.Statement (.dbStop a0 a1 a2) := fun _ _ _ _ _ e => nomatch e
theorem Laws.Wf.dbRestart : ∀ a0 a1 a2, Laws.Wf.Statement (.dbRestart a0 a1 a2) := fun _ _ _ _ _ e => nomatch e
theorem Laws.Wf.entryFetched : ∀ a0 a1 a2 a3, Laws.Wf.Statement (.entryFetched a0 a1 a2 a3) := fun _ _ _ _ _ _ e => nomatch e
theorem Laws.Wf.entryStart : ∀ a0, Laws.Wf.Statement (.entryStart a0) := fun _ _ _ e => nomatch e
theorem Laws.Wf.waitDeadlineExpired : ∀ a0 a1 a2, Laws.Wf.Statement (.waitDeadlineExpired a0 a1 a2) := fun _ _ _ _ _ e => nomatch e
theorem Laws.Wf.entryComplete : ∀ a0 a1 a2 a3 a4, Laws.Wf.Statement (.entryComplete a0 a1 a2 a3 a4) := fun _ _ _ _ _ _ _ e => nomatch e
theorem Laws.Wf.run : ∀ a0 a1 a2, Laws.Wf.Statement (.run a0 a1 a2) := fun _ _ _ _ _ e => nomatch e
theorem Laws.Wf.stop : ∀ a0 a1 a2, Laws.Wf.Statement (.stop a0 a1 a2) := fun _ _ _ _ _ e => nomatch e
theorem Laws.Wf.reconfig : ∀ a0 a1 a2, Laws.Wf.Statement (.reconfig a0 a1 a2) := fun _ _ _ _ _ e => nomatch e
theorem Laws.Wf.copy : ∀ a0 a1 a2 a3 a4, Laws.Wf.Statement (.copy a0 a1 a2 a3 a4) := fun _ _ _ _ _ _ _ e => nomatch e
theorem Laws.Wf.feed : ∀ a0 a1 a2 a3, Laws.Wf.Statement (.feed a0 a1 a2 a3) := fun _ _ _ _ _ _ e => nomatch e
theorem Laws.Wf.fill : ∀ a0 a1 a2, Laws.Wf.Statement (.fill a0 a1 a2) := fun _ _ _ _ _ e => nomatch e
theorem Laws.Wf.rxBind : ∀ a0 a1 a2, Laws.Wf.Statement (.rxBind a0 a1 a2) := fun _ _ _ _ _ e => nomatch e
theorem Laws.Wf.rxUnbind : ∀ a0 a1 a2, Laws.Wf.Statement (.rxUnbind a0 a1 a2) := fun _ _ _ _ _ e => nomatch e
theorem Laws.Wf.send : ∀ a0 a1 a2 a3, Laws.Wf.Statement (.send a0 a1 a2 a3) := fun _ _ _ _ _ _ e => nomatch e
theorem Laws.Wf.requestOpen : ∀ a0 a1 a2 a3, Laws.Wf.Statement (.requestOpen a0 a1 a2 a3) := fun _ _ _ _ _ _ e => nomatch e
theorem Laws.Wf.requestSubmit : ∀ a0 a1 a2 a3, Laws.Wf.Statement (.requestSubmit a0 a1 a2 a3) := fun _ _ _ _ _ _ e => nomatch e
theorem Laws.Wf.requestClose : ∀ a0 a1 a2, Laws.Wf.Statement (.requestClose a0 a1 a2) := fun _ _ _ _ _ e => nomatch e
theorem Laws.Wf.requestQuery : ∀ a0 a1 a2, Laws.Wf.Statement (.requestQuery a0 a1 a2) := fun _ _ _ _ _ e => nomatch e
theorem Laws.Wf.syncBind : ∀ a0 a1 a2, Laws.Wf.Statement (.syncBind a0 a1 a2) := fun _ _ _ _ _ e => nomatch e
theorem Laws.Wf.syncUnbind : ∀ a0 a1 a2, Laws.Wf.Statement (.syncUnbind a0 a1 a2) := fun _ _ _ _ _ e => nomatch e
theorem Laws.Wf.syncOpRead : ∀ a0 a1 a2, Laws.Wf.Statement (.syncOpRead a0 a1 a2) := fun _ _ _ _ _ e => nomatch e
theorem Laws.Wf.syncOpAdd : ∀ a0 a1 a2, Laws.Wf.Statement (.syncOpAdd a0 a1 a2) := fun _ _ _ _ _ e => nomatch e
theorem Laws.Wf.collective : ∀ a0 a1 a2, Laws.Wf.Statement (.collective a0 a1 a2) := fun _ _ _ _ _ e => nomatch e
theorem Laws.Wf.ecRefresh : ∀ a0 a1 a2, Laws.Wf.Statement (.ecRefresh a0 a1 a2) := fun _ _ _ _ _ e => nomatch e
theorem Laws.Wf.ecRebuild : ∀ a0 a1 a2 a3, Laws.Wf.Statement (.ecRebuild a0 a1 a2 a3) := fun _ _ _ _ _ _ e => nomatch e
theorem Laws.Wf.watermark : ∀ a0 a1 a2 a3, Laws.Wf.Statement (.watermark a0 a1 a2 a3) := fun _ _ _ _ _ _ e => nomatch e
theorem Laws.Wf.replicaCheck : ∀ a0 a1 a2, Laws.Wf.Statement (.replicaCheck a0 a1 a2) := fun _ _ _ _ _ e => nomatch e
theorem Laws.Wf.messageCopyDecided : ∀ a0, Laws.Wf.Statement (.messageCopyDecided a0) := fun _ _ _ e => nomatch e
theorem Laws.Wf.busMasterEnableSet : Laws.Wf.Statement .busMasterEnableSet := fun _ _ e => nomatch e
theorem Laws.Wf.cxlMemRead : ∀ a0 a1, Laws.Wf.Statement (.cxlMemRead a0 a1) := fun _ _ _ _ e => nomatch e
theorem Laws.Wf.cxlMemWrite : ∀ a0 a1, Laws.Wf.Statement (.cxlMemWrite a0 a1) := fun _ _ _ _ e => nomatch e
theorem Laws.Wf.functionLevelReset : Laws.Wf.Statement .functionLevelReset := fun _ _ e => nomatch e
theorem Laws.Wf.lockIdleExpired : Laws.Wf.Statement .lockIdleExpired := fun _ _ e => nomatch e
theorem Laws.Wf.backgroundOpFinished : ∀ a0, Laws.Wf.Statement (.backgroundOpFinished a0) := fun _ _ _ e => nomatch e
theorem Laws.Wf.routeCycle : ∀ a0, Laws.Wf.Statement (.routeCycle a0) := fun _ _ _ e => nomatch e
theorem Laws.Wf.issueEntryAdvance : ∀ a0, Laws.Wf.Statement (.issueEntryAdvance a0) := fun _ _ _ e => nomatch e
theorem Laws.Wf.foldSlotSwitch : ∀ a0, Laws.Wf.Statement (.foldSlotSwitch a0) := fun _ _ _ e => nomatch e
theorem Laws.Wf.externalWaitPoint : ∀ a0, Laws.Wf.Statement (.externalWaitPoint a0) := fun _ _ _ e => nomatch e
theorem Laws.Wf.holdRelease : ∀ a0, Laws.Wf.Statement (.holdRelease a0) := fun _ _ _ e => nomatch e
theorem Laws.Wf.calenderPoint : ∀ a0 a1, Laws.Wf.Statement (.calenderPoint a0 a1) := fun _ _ _ _ e => nomatch e
theorem Laws.Wf.catchupDone : ∀ a0, Laws.Wf.Statement (.catchupDone a0) := fun _ _ _ e => nomatch e
theorem Laws.Wf.prologueEnd : ∀ a0, Laws.Wf.Statement (.prologueEnd a0) := fun _ _ _ e => nomatch e
theorem Laws.Wf.prologueOverrun : ∀ a0, Laws.Wf.Statement (.prologueOverrun a0) := fun _ _ _ e => nomatch e
theorem Laws.Wf.calenderOverdue : ∀ a0, Laws.Wf.Statement (.calenderOverdue a0) := fun _ _ _ e => nomatch e
theorem Laws.Wf.hung : ∀ a0, Laws.Wf.Statement (.hung a0) := fun _ _ _ e => nomatch e
theorem Laws.Wf.programWaitDeadline : ∀ a0, Laws.Wf.Statement (.programWaitDeadline a0) := fun _ _ _ e => nomatch e
theorem Laws.Wf.channelSlotIssue : ∀ a0 a1, Laws.Wf.Statement (.channelSlotIssue a0 a1) := fun _ _ _ _ e => nomatch e
theorem Laws.Wf.dramReadArrival : ∀ a0 a1 a2, Laws.Wf.Statement (.dramReadArrival a0 a1 a2) := fun _ _ _ _ _ e => nomatch e
theorem Laws.Wf.readBufferEmit : ∀ a0, Laws.Wf.Statement (.readBufferEmit a0) := fun _ _ _ e => nomatch e
theorem Laws.Wf.sramScrub : ∀ a0 a1 a2, Laws.Wf.Statement (.sramScrub a0 a1 a2) := fun _ _ _ _ _ e => nomatch e
theorem Laws.Wf.dramScrub : ∀ a0 a1, Laws.Wf.Statement (.dramScrub a0 a1) := fun _ _ _ _ e => nomatch e
theorem Laws.Wf.dramTempSample : ∀ a0, Laws.Wf.Statement (.dramTempSample a0) := fun _ _ _ e => nomatch e
theorem Laws.Wf.telemetrySnapshot : Laws.Wf.Statement .telemetrySnapshot := fun _ _ e => nomatch e
theorem Laws.Wf.messagePlaneSlot : ∀ a0, Laws.Wf.Statement (.messagePlaneSlot a0) := fun _ _ _ e => nomatch e
theorem Laws.Wf.maintenanceSlot : ∀ a0, Laws.Wf.Statement (.maintenanceSlot a0) := fun _ _ _ e => nomatch e
theorem Laws.Wf.dwellStart : ∀ a0 a1 a2, Laws.Wf.Statement (.dwellStart a0 a1 a2) := fun _ _ _ _ _ e => nomatch e
theorem Laws.Wf.zeroiseDone : ∀ a0 a1 a2, Laws.Wf.Statement (.zeroiseDone a0 a1 a2) := fun _ _ _ _ _ e => nomatch e
theorem Laws.Wf.marchDone : ∀ a0 a1 a2, Laws.Wf.Statement (.marchDone a0 a1 a2) := fun _ _ _ _ _ e => nomatch e
theorem Laws.Wf.logicBistDone : ∀ a0 a1 a2, Laws.Wf.Statement (.logicBistDone a0 a1 a2) := fun _ _ _ _ _ e => nomatch e
theorem Laws.Wf.marginBistDone : ∀ a0 a1 a2, Laws.Wf.Statement (.marginBistDone a0 a1 a2) := fun _ _ _ _ _ e => nomatch e
theorem Laws.Wf.softRepair : ∀ a0 a1 a2, Laws.Wf.Statement (.softRepair a0 a1 a2) := fun _ _ _ _ _ e => nomatch e
theorem Laws.Wf.couchInDone : ∀ a0, Laws.Wf.Statement (.couchInDone a0) := fun _ _ _ e => nomatch e
theorem Laws.Wf.spareMove : ∀ a0, Laws.Wf.Statement (.spareMove a0) := fun _ _ _ e => nomatch e
theorem Laws.Wf.replicaReportsGathered : ∀ a0 a1, Laws.Wf.Statement (.replicaReportsGathered a0 a1) := fun _ _ _ _ e => nomatch e
theorem Laws.Wf.replicaRebuildDone : ∀ a0 a1 a2, Laws.Wf.Statement (.replicaRebuildDone a0 a1 a2) := fun _ _ _ _ _ e => nomatch e
theorem Laws.Wf.phyCheck : ∀ a0 a1, Laws.Wf.Statement (.phyCheck a0 a1) := fun _ _ _ _ e => nomatch e
theorem Laws.Wf.coreWatchdogExpired : ∀ a0, Laws.Wf.Statement (.coreWatchdogExpired a0) := fun _ _ _ e => nomatch e
theorem Laws.Wf.controlDieHeartbeat : Laws.Wf.Statement .controlDieHeartbeat := fun _ _ e => nomatch e
theorem Laws.Wf.controlDieLost : ∀ a0, Laws.Wf.Statement (.controlDieLost a0) := fun _ _ _ e => nomatch e
theorem Laws.Wf.dumpUnitTimeout : ∀ a0 a1, Laws.Wf.Statement (.dumpUnitTimeout a0 a1) := fun _ _ _ _ e => nomatch e
theorem Laws.Wf.dumpTargetFailed : Laws.Wf.Statement .dumpTargetFailed := fun _ _ e => nomatch e
theorem Laws.Wf.dumpWritten : Laws.Wf.Statement .dumpWritten := fun _ _ e => nomatch e
theorem Laws.Wf.mbRequest : ∀ a0 a1 a2, Laws.Wf.Statement (.mbRequest a0 a1 a2) := fun _ _ _ h _ e => Option.some.inj e ▸ of_decide_eq_true h
theorem Laws.Wf.lockAcquire : ∀ a0, Laws.Wf.Statement (.lockAcquire a0) := fun _ _ _ e => nomatch e
theorem Laws.Wf.lockRelease : Laws.Wf.Statement .lockRelease := fun _ _ e => nomatch e
theorem Laws.Wf.dumpStreamAck : ∀ a0 a1, Laws.Wf.Statement (.dumpStreamAck a0 a1) := fun _ _ _ _ e => nomatch e
theorem Laws.Wf.dumpStreamResend : Laws.Wf.Statement .dumpStreamResend := fun _ _ e => nomatch e
theorem Laws.Wf.setEndpointId : ∀ a0, Laws.Wf.Statement (.setEndpointId a0) := fun _ _ _ e => nomatch e
theorem Laws.Wf.smbusFallback : Laws.Wf.Statement .smbusFallback := fun _ _ e => nomatch e
theorem Laws.Wf.setEventReceiver : ∀ a0, Laws.Wf.Statement (.setEventReceiver a0) := fun _ _ _ e => nomatch e
theorem Laws.Wf.sensorRefresh : ∀ a0, Laws.Wf.Statement (.sensorRefresh a0) := fun _ _ _ e => nomatch e
theorem Laws.Wf.requestUpdate : ∀ a0, Laws.Wf.Statement (.requestUpdate a0) := fun _ _ _ e => nomatch e
theorem Laws.Wf.activateFirmware : Laws.Wf.Statement .activateFirmware := fun _ _ e => nomatch e
theorem Laws.Wf.cancelUpdate : Laws.Wf.Statement .cancelUpdate := fun _ _ e => nomatch e
theorem Laws.Wf.getVersion : Laws.Wf.Statement .getVersion := fun _ _ e => nomatch e
theorem Laws.Wf.getCapabilities : Laws.Wf.Statement .getCapabilities := fun _ _ e => nomatch e
theorem Laws.Wf.negotiateAlgorithms : Laws.Wf.Statement .negotiateAlgorithms := fun _ _ e => nomatch e
theorem Laws.Wf.getDigests : Laws.Wf.Statement .getDigests := fun _ _ e => nomatch e
theorem Laws.Wf.getCertificate : ∀ a0 a1, Laws.Wf.Statement (.getCertificate a0 a1) := fun _ _ _ _ e => nomatch e
theorem Laws.Wf.challenge : ∀ a0, Laws.Wf.Statement (.challenge a0) := fun _ _ _ e => nomatch e
theorem Laws.Wf.getMeasurements : ∀ a0 a1 a2, Laws.Wf.Statement (.getMeasurements a0 a1 a2) := fun _ _ _ _ _ e => nomatch e
theorem Laws.Wf.fabricPacketRx : ∀ a0 a1 a2, Laws.Wf.Statement (.fabricPacketRx a0 a1 a2) := fun _ _ _ _ _ e => nomatch e
theorem Laws.Wf.creditReturn : ∀ a0 a1 a2, Laws.Wf.Statement (.creditReturn a0 a1 a2) := fun _ _ _ _ _ e => nomatch e
theorem Laws.Wf.ethernetFrameRx : ∀ a0 a1 a2 a3, Laws.Wf.Statement (.ethernetFrameRx a0 a1 a2 a3) := fun _ _ _ _ _ _ e => nomatch e
theorem Laws.Wf.contrib : Laws.Wf.Statement .contrib := fun _ _ e => nomatch e
theorem Laws.Wf.result : Laws.Wf.Statement .result := fun _ _ e => nomatch e
theorem Laws.Wf.data : Laws.Wf.Statement .data := fun _ _ e => nomatch e
theorem Laws.Wf.ack : Laws.Wf.Statement .ack := fun _ _ e => nomatch e
theorem Laws.Wf.reissueReq : Laws.Wf.Statement .reissueReq := fun _ _ e => nomatch e
theorem Laws.Wf.pending : Laws.Wf.Statement .pending := fun _ _ e => nomatch e
theorem Laws.Wf.digest : Laws.Wf.Statement .digest := fun _ _ e => nomatch e
theorem Laws.Wf.collectiveOccurrenceStart : ∀ a0 a1, Laws.Wf.Statement (.collectiveOccurrenceStart a0 a1) := fun _ _ _ _ e => nomatch e
theorem Laws.Wf.collectiveOccurrenceDone : ∀ a0 a1, Laws.Wf.Statement (.collectiveOccurrenceDone a0 a1) := fun _ _ _ _ e => nomatch e
theorem Laws.Wf.nipWaitExpired : ∀ a0 a1 a2 a3, Laws.Wf.Statement (.nipWaitExpired a0 a1 a2 a3) := fun _ _ _ _ _ _ e => nomatch e
theorem Laws.Wf.portTrained : ∀ a0 a1 a2 a3, Laws.Wf.Statement (.portTrained a0 a1 a2 a3) := fun _ _ _ _ _ _ e => nomatch e
theorem Laws.Wf.portDown : ∀ a0, Laws.Wf.Statement (.portDown a0) := fun _ _ _ e => nomatch e
theorem Laws.Wf.heartbeat : ∀ a0, Laws.Wf.Statement (.heartbeat a0) := fun _ _ _ e => nomatch e
theorem Laws.Wf.heartbeatLost : ∀ a0 a1, Laws.Wf.Statement (.heartbeatLost a0 a1) := fun _ _ _ _ e => nomatch e
theorem Laws.Wf.hello : Laws.Wf.Statement .hello := fun _ _ e => nomatch e
theorem Laws.Wf.vote : Laws.Wf.Statement .vote := fun _ _ e => nomatch e
theorem Laws.Wf.decision : Laws.Wf.Statement .decision := fun _ _ e => nomatch e
theorem Laws.Wf.alert : Laws.Wf.Statement .alert := fun _ _ e => nomatch e
theorem Laws.Wf.leave : Laws.Wf.Statement .leave := fun _ _ e => nomatch e
theorem Laws.Wf.memberAck : Laws.Wf.Statement .memberAck := fun _ _ e => nomatch e
theorem Laws.Wf.resetNotice : ∀ a0, Laws.Wf.Statement (.resetNotice a0) := fun _ _ _ e => nomatch e
theorem Laws.Wf.memberResend : ∀ a0, Laws.Wf.Statement (.memberResend a0) := fun _ _ _ e => nomatch e
theorem Laws.Wf.restartGatherExpired : ∀ a0, Laws.Wf.Statement (.restartGatherExpired a0) := fun _ _ _ e => nomatch e
theorem Laws.Wf.jobFormTimeout : ∀ a0, Laws.Wf.Statement (.jobFormTimeout a0) := fun _ _ _ e => nomatch e
theorem Laws.Wf.ecGenerationComplete : ∀ a0, Laws.Wf.Statement (.ecGenerationComplete a0) := fun _ _ _ e => nomatch e
theorem Laws.Wf.powerLimiterSample : ∀ a0, Laws.Wf.Statement (.powerLimiterSample a0) := fun _ _ _ e => nomatch e
theorem Laws.Wf.thermalSample : ∀ a0, Laws.Wf.Statement (.thermalSample a0) := fun _ _ _ e => nomatch e
theorem Laws.Wf.thermtrip : Laws.Wf.Statement .thermtrip := fun _ _ e => nomatch e
theorem Laws.Wf.avsUpdate : ∀ a0 a1 a2 a3, Laws.Wf.Statement (.avsUpdate a0 a1 a2 a3) := fun _ _ _ _ _ _ e => nomatch e
theorem Laws.Wf.idleEntry : ∀ a0, Laws.Wf.Statement (.idleEntry a0) := fun _ _ _ e => nomatch e
theorem Laws.Wf.limitLevelApply : ∀ a0, Laws.Wf.Statement (.limitLevelApply a0) := fun _ _ _ e => nomatch e
theorem Laws.Wf.pllLockTimeout : ∀ a0, Laws.Wf.Statement (.pllLockTimeout a0) := fun _ _ _ e => nomatch e
theorem Laws.Wf.vcorePgFall : ∀ a0, Laws.Wf.Statement (.vcorePgFall a0) := fun _ _ _ e => nomatch e
theorem Laws.Wf.vsocPgFall : Laws.Wf.Statement .vsocPgFall := fun _ _ e => nomatch e
theorem Laws.Wf.auxArrival : Laws.Wf.Statement .auxArrival := fun _ _ e => nomatch e
theorem Laws.Wf.auxRemoval : Laws.Wf.Statement .auxRemoval := fun _ _ e => nomatch e
theorem Laws.Wf.platRstN : Laws.Wf.Statement .platRstN := fun _ _ e => nomatch e
theorem Laws.Wf.wakeReqN : Laws.Wf.Statement .wakeReqN := fun _ _ e => nomatch e
theorem Laws.Wf.testModeEntry : Laws.Wf.Statement .testModeEntry := fun _ _ e => nomatch e
theorem Laws.Wf.warmReset : Laws.Wf.Statement .warmReset := fun _ _ e => nomatch e
theorem Laws.Wf.stageAuxDone : ∀ a0, Laws.Wf.Statement (.stageAuxDone a0) := fun _ _ _ e => nomatch e
theorem Laws.Wf.stageBootRomDone : ∀ a0 a1, Laws.Wf.Statement (.stageBootRomDone a0 a1) := fun _ _ _ _ e => nomatch e
theorem Laws.Wf.stageRailsDone : ∀ a0, Laws.Wf.Statement (.stageRailsDone a0) := fun _ _ _ e => nomatch e
theorem Laws.Wf.railPgTimeout : ∀ a0, Laws.Wf.Statement (.railPgTimeout a0) := fun _ _ _ e => nomatch e
theorem Laws.Wf.stageBistDone : ∀ a0 a1 a2, Laws.Wf.Statement (.stageBistDone a0 a1 a2) := fun _ _ _ _ _ e => nomatch e
theorem Laws.Wf.stageRepairRecordDone : ∀ a0 a1, Laws.Wf.Statement (.stageRepairRecordDone a0 a1) := fun _ _ _ _ e => nomatch e
theorem Laws.Wf.stageLpddr5xDone : ∀ a0, Laws.Wf.Statement (.stageLpddr5xDone a0) := fun _ _ _ e => nomatch e
theorem Laws.Wf.stageLinksDone : ∀ a0 a1 a2, Laws.Wf.Statement (.stageLinksDone a0 a1 a2) := fun _ _ _ _ _ e => nomatch e
theorem Laws.Wf.stageSheetMapsDone : Laws.Wf.Statement .stageSheetMapsDone := fun _ _ e => nomatch e
theorem Laws.Wf.mailboxReady : Laws.Wf.Statement .mailboxReady := fun _ _ e => nomatch e
theorem Laws.Wf.startupHalt : ∀ a0, Laws.Wf.Statement (.startupHalt a0) := fun _ _ _ e => nomatch e
theorem Laws.Wf.reelLatchOpen : Laws.Wf.Statement .reelLatchOpen := fun _ _ e => nomatch e
theorem Laws.Wf.reelLatchClose : Laws.Wf.Statement .reelLatchClose := fun _ _ e => nomatch e
theorem Laws.Wf.reelStartingDone : ∀ a0, Laws.Wf.Statement (.reelStartingDone a0) := fun _ _ _ e => nomatch e
theorem Laws.Wf.reelHealthPoll : ∀ a0 a1 a2 a3, Laws.Wf.Statement (.reelHealthPoll a0 a1 a2 a3) := fun _ _ _ _ _ _ e => nomatch e
theorem Laws.Wf.reelCommandTimeout : Laws.Wf.Statement .reelCommandTimeout := fun _ _ e => nomatch e
theorem Laws.Wf.reelAccessDone : ∀ a0 a1, Laws.Wf.Statement (.reelAccessDone a0 a1) := fun _ _ _ _ e => nomatch e
theorem Laws.Wf.busMasterEnableClear : Laws.Wf.Statement .busMasterEnableClear := fun _ _ e => nomatch e
theorem Laws.Wf.feedDataReachedLpddr5x : ∀ a0 a1 a2, Laws.Wf.Statement (.feedDataReachedLpddr5x a0 a1 a2) := fun _ _ _ _ _ e => nomatch e
theorem Laws.Wf.selfRefreshReentry : ∀ a0, Laws.Wf.Statement (.selfRefreshReentry a0) := fun _ _ _ e => nomatch e
theorem Laws.Wf.vcorePgReturn : ∀ a0, Laws.Wf.Statement (.vcorePgReturn a0) := fun _ _ _ e => nomatch e
theorem Laws.Wf.entdaa : ∀ a0, Laws.Wf.Statement (.entdaa a0) := fun _ _ _ e => nomatch e
theorem Laws.Wf.firmwareDataPart : ∀ a0 a1, Laws.Wf.Statement (.firmwareDataPart a0 a1) := fun _ _ _ _ e => nomatch e
theorem Laws.Wf.externalTestScanAccess : ∀ a0 a1 a2, Laws.Wf.Statement (.externalTestScanAccess a0 a1 a2) := fun _ _ _ _ _ e => nomatch e
theorem Laws.Wf.cxlLinkTraining : ∀ a0 a1 a2, Laws.Wf.Statement (.cxlLinkTraining a0 a1 a2) := fun _ _ _ _ _ e => nomatch e
theorem Laws.Wf.replicaRebuildTimeout : ∀ a0, Laws.Wf.Statement (.replicaRebuildTimeout a0) := fun _ _ _ e => nomatch e
theorem Laws.Wf.snapshotCopyComplete : ∀ a0, Laws.Wf.Statement (.snapshotCopyComplete a0) := fun _ _ _ e => nomatch e
theorem Laws.Wf.dumpPartitionReadDone : ∀ a0, Laws.Wf.Statement (.dumpPartitionReadDone a0) := fun _ _ _ e => nomatch e
theorem Laws.Wf.recoveryHostWindowExpired : Laws.Wf.Statement .recoveryHostWindowExpired := fun _ _ e => nomatch e
theorem Laws.Wf.controlCoreRestartDone : ∀ a0, Laws.Wf.Statement (.controlCoreRestartDone a0) := fun _ _ _ e => nomatch e
theorem Laws.Wf.restartStateRestored : ∀ a0 a1, Laws.Wf.Statement (.restartStateRestored a0 a1) := fun _ _ _ _ e => nomatch e

end Sys2Proof
end

