-- ==== Sys2Proof/Tests/Slice0.lean ====
section
/-!
SUPPORT. Tests: ill-formed commands are refused by WellFormed, and the statements' hypotheses can be met.
-/
namespace Sys2Proof.Tests

open Sys2Proof.Machine

set_option Elab.async false
set_option autoImplicit false

/-! ### Ill-formed commands -/

theorem test_long_request_refused : (Instr.fence (List.replicate 4097 0)).wellFormed = false := by decide +kernel
theorem test_long_sideband_request_refused : (Instr.mbRequest 0 1 (List.replicate 4097 0)).wellFormed = false := by decide +kernel
theorem test_register_write_past_bar2_refused : (Instr.registerWrite 0x20FFFD [1, 2, 3, 4]).wellFormed = false := by decide +kernel
theorem test_empty_register_write_refused : (Instr.registerWrite 0 []).wellFormed = false := by decide +kernel
theorem test_short_packet_refused : (Instr.fabricPacketRx 0 (List.replicate 35 0) ⟨0, 0⟩).wellFormed = false := by decide +kernel
theorem test_long_packet_refused : (Instr.fabricPacketRx 0 (List.replicate 4197 0) ⟨0, 0⟩).wellFormed = false := by decide +kernel
theorem test_long_firmware_part_refused : (Instr.firmwareDataPart 0 (List.replicate 1025 0)).wellFormed = false := by decide +kernel
theorem test_credit_over_buffer_refused : (Instr.creditReturn 0 0 257).wellFormed = false := by decide +kernel
theorem test_link_width_refused : (Instr.cxlLinkTraining true 64 ⟨16, false⟩).wellFormed = false := by decide +kernel
theorem test_longest_request_accepted : (Instr.fence (List.replicate 4096 0)).wellFormed = true := by decide +kernel
theorem test_longest_packet_accepted : (Instr.fabricPacketRx 0 (List.replicate 4196 0) ⟨0, 0⟩).wellFormed = true := by decide +kernel


/-! ### States that meet the hypotheses of the statements -/

/-- A module in service: start-up done, the host holds the lock, every partition in Run. -/
def up : State := { State.reset with
  start := { State.reset.start with stage := 0xA, vsoc := true, handles := true }
  host := { State.reset.host with linkUp := true, fwReady := true, owner := .host, busMaster := true }
  pts := List.replicate 8 { pwr := .run, pg := true, en := true } }
/-- `up` with the lock free. -/
def upFree : State := { up with host := { up.host with owner := .free } }
def hnd (u : UnitRef) : Payload := le 4 (up.handleOf u)

def gh (k : Nat) : Nat := up.hword 8 k
/-- Groups nested four deep. -/
def nested : State := { up with groups := [⟨gh 1, [up.handleOf (.pt 0)]⟩, ⟨gh 2, [gh 1]⟩, ⟨gh 3, [gh 2]⟩, ⟨gh 4, [gh 3]⟩, ⟨gh 5, List.replicate 64 (up.handleOf (.pt 1))⟩] }
/-- As many groups as the module holds. -/
def fullGroups : State := { up with groups := List.replicate 1024 ⟨gh 1, []⟩ }
def ptH (p : Nat) : Nat := up.handleOf (.pt p)
def gcreate (l : List Nat) : Payload := le 2 l.length ++ [0, 0] ++ l.flatMap (le 4)
def gedit (h op m : Nat) : Payload := le 4 h ++ le 1 op ++ [0, 0, 0] ++ le 4 m
def withOp : State := { up with ops := [{ id := 7, code := 0x60, handle := 1, start := 3, stop := 5, finished := true, status := ok }], lastOp := 7 }
def beatDue : State := { upFree with clk := { upFree.clk with life := 1800000000 } }
def beatDueH : State := { beatDue with host := { beatDue.host with owner := .host } }
def noReady : State := { up with host := { up.host with fwReady := false } }
def linkDown : State := { up with host := { up.host with linkUp := false } }

/-- `nested` with a unit added to a group. -/
def nested2 (h m : Nat) : State :=
  { nested with groups := nested.groups.map fun g => if g.handle = h then { g with members := nested.membersOf h ++ [m] } else g }
def op7 : OpRec := { id := 7, code := 0x60, handle := 1, start := 3, stop := 5, finished := true, status := ok }
/-- IDENTIFY handed over and not yet completed. -/
def busyUp : State := { up with host := { up.host with busy := true, code := 1 } }

def alloc1 : Alloc := ⟨[1], 0, 8, 0, 1000, (chansOfPt 1).take 8⟩
/-- `up` with context 3 in a state. -/
def ctxIn (st : CtxState) (al : Option Alloc) (held : List Nat) : State :=
  up.modCtx 3 fun x => { x with st := st, serial := 40, alloc := al, held := held }
/-- Entries of a container's directory, each section from a multiple of 64. -/
def secs : List (Nat × List Byte) :=
  [(1, []), (3, zeros 8), (5, zeros 8), (6, []), (7, le 4 400 ++ [8, 1, 0, 0] ++ zeros 24 ++ zeros 32 ++ (List.replicate 8 (zeros 16)).flatten),
    (0xFF, zeros 4627)]
/-- The directory and the bodies of the sections. -/
def layOut (off : Nat) : List (Nat × List Byte) → List Byte × List Byte
  | [] => ([], [])
  | x :: r =>
    let pad := (64 - x.2.length % 64) % 64
    let z := if r.isEmpty then 0 else pad
    let t := layOut (off + x.2.length + z) r
    (le 8 x.1 ++ le 8 off ++ le 8 x.2.length ++ t.1, x.2 ++ zeros z ++ t.2)
/-- A container of class 1 with no tile configured, one calender point and no data slot. -/
def box : List Byte :=
  let d := layOut 448 secs
  let body := d.1 ++ zeros 48 ++ d.2
  le 4 0x534C5954 ++ [4, 1] ++ le 2 256 ++ le 8 (256 + body.length) ++ [1, 1] ++ le 2 0 ++ [8, 6] ++ zeros 2 ++ le 4 32 ++ le 4 2400
    ++ zeros 16 ++ zeros 4 ++ [0, 0, 0, 0] ++ le 8 2400 ++ zeros 192 ++ body
def boxProg : Prog :=
  { cls := 1, foldF := 1, predicated := false, refreshN := false, minCh := 8, foldPeriod := 32, stepBound := 2400, pid := zeros 16, keyId := 0
    calPeriod := 2400, cal := [0], waits := [], regions := [], syncMap := [], unitCfg := [], operands := [], prologue := [], reconfig := []
    slotPeriod := 400, schedNch := 8, nPart := 1, schedGranule := 0, attach := zeros 24, lists := List.replicate 8 ⟨0, 0, []⟩ }
def loading : State :=
  let s := (ctxIn .loading (some alloc1) [1]).modCtx 3 fun x => { x with load := some (0, 0, box.length), op := some 7 }
  { s with mgmt := { s.mgmt with keys := some [] :: List.replicate 7 none } }
def placed : State := (ctxIn .placed (some alloc1) [1]).modCtx 3 fun x => { x with prog := some boxProg }
def suspending : State := ctxIn .suspending (some alloc1) [1]
def resuming : State := ctxIn .resuming (some alloc1) [1]

/-- Partition 2 under a reset that operation 9 asked for. -/
def inReset : State := up.modPt 2 fun x => { x with reset := some ⟨9, false⟩ }
/-- A dump of the module that still reads every partition. -/
def dump0 : Dumping := { id := 1, op := some 7, trigger := 0, scope := up.handleOf .module, pts := List.range 8, reading := List.range 8, target := 2, restarted := false, silent := [], start := 0 }
def dumpRuns : State := { up with dumping := some dump0, ops := [{ id := 7, code := 0x70, handle := up.handleOf .module }], lastOp := 7 }
def vkey : List Byte := zeros 2592
/-- A firmware image of one payload byte under vendor key 0. -/
def image : List Byte :=
  le 4 0x46584245 ++ le 2 1 ++ [2, 1] ++ le 4 0x0104 ++ le 2 0x0104 ++ [0xB1, 0] ++ le 8 1 ++ zeros 8 ++ vkey ++ zeros (0xA40 - 2624) ++ [7] ++ zeros 4627
def fwDown : State := { up with
  ident := { up.ident with vendor := List.replicate 4 (sha3 vkey) }
  mgmt := { up.mgmt with flash := Mem.write [] 0 image, flashLen := image.length, restart := some none, fw := .pending } }
def fwBad : State := { up with mgmt := { up.mgmt with restart := some (some 7) } }
def testModeOn : State := { up with mgmt := { up.mgmt with testMode := true } }
def keysUsable : State := { up with mgmt := { up.mgmt with settings := [(0x15, [1])] } }
def modeChange (k v : Nat) (us : List Nat) : State := { up with mgmt := { up.mgmt with modes := [⟨k, v, 7, us, [], false⟩] } }
def asleep2 : State := up.modPt 2 fun x => { x with pwr := .asleep }
def m2 : State := { up with start := { up.start with pwr := .m2 } }
def powerOp (a : Nat) : State := { up with ops := [{ id := 7, code := 0x42, handle := up.handleOf (.pt 2), arg := a, pts := [2] }], lastOp := 7 }
def testOp : State := { up with ops := [{ id := 7, code := 0x60, handle := up.handleOf (.pcol 0 1), cols := [(0, 1)], kind := 3 }], lastOp := 7 }
def testDone : State := { up with ops := [{ id := 7, code := 0x60, handle := up.handleOf (.pcol 0 1), finished := true, records := [zeros 32] }], lastOp := 7 }
def fenced2 : State := up.modPt 2 fun x => { x with fenced := true }
def dump1 : Dump := ⟨5, 2, zeros 64, 3⟩
def dumpHeld : State := { up with dumps := [dump1] }
def dumpLast : Dumping := { dump0 with reading := [], scope := up.handleOf (.pt 1), pts := [1], target := 3 }
def dumpOver : State := { dumpRuns with dumping := some dumpLast, clk := { dumpRuns.clk with life := 60 * cycPerSec } }
def dumpRead : Dumping := { dump0 with reading := [], scope := up.handleOf (.pt 1), pts := [1] }
def dumpOut : State := { dumpRuns with dumping := some dumpRead }
def dumpSent : State := { dumpOver with side := { dumpOver.side with stream := some (1, 64, 64, 64) } }
def modPower : State := { up with start := { up.start with pwr := .m2, pwrOp := some (.m3, some 7) }, ops := [{ id := 7, code := 0x42, handle := up.handleOf .module }], lastOp := 7 }
def mixedModes : State := up.modPt 2 fun x => { x with perf := 3 }
def unfencing : State := { fenced2 with ops := [{ id := 7, code := 0x51, handle := up.handleOf (.pt 2), cols := [(6, 0)], units := [up.handleOf (.pt 2)] }], lastOp := 7 }
def stuck2 : State := dumpRuns.modPt 2 fun x => { x with reset := some ⟨9, true⟩ }
def cond0 : BistCond := ⟨25, 750⟩

/-- An entry's 64 bytes from its fields (offset, width, value). -/
def slot (op : Nat) (fs : List (Nat × Nat × Nat)) : List Byte :=
  fs.foldl (fun b f => b.take f.1 ++ le f.2.1 f.2.2 ++ b.drop (f.1 + f.2.1)) (le 1 op ++ zeros 63)
/-- A started entry. -/
def ent (op : Nat) (fs : List (Nat × Nat × Nat)) : Entry := { n := 0, bytes := slot op fs, started := true, ord := 1 }
/-- A state whose context 3 has entries in queue `k`. -/
def withEnts (s : State) (k : Nat) (l : List Entry) : State :=
  s.modQueue 3 k fun _ => { enabled := true, entries := 64, base := 4096, vector := 5, tail := 2, fetch := 1, ents := l }
def engines (op k : Nat) (fs : List (Nat × Nat × Nat)) : State := withEnts placed k [ent op fs]
def stageFw : State := { up with mgmt := { up.mgmt with fw := .staging, stageLen := 8192 } }
def verifying : State := { up with
  mgmt := { up.mgmt with fw := .verifying, commitOp := some (7, false), stage := Mem.write [] 0 image, stageLen := image.length }
  ops := [{ id := 7, code := 0x93, handle := 1 }], lastOp := 7 }
def writing : State := { verifying with mgmt := { verifying.mgmt with fw := .writing } }
def stoppedQ : State := (withEnts placed 4 []).modQueue 3 4 fun x => { x with stopped := true }
/-- A fresh entry that has not started. -/
def waitEnt (b : List Byte) : Entry := { n := 0, bytes := b }
def syncEnt0 : SyncEnt := { st := 1, owned := true, owner := 3, pt := 1, index := 0, allow := 16 }
def withSync (s : State) : State :=
  (s.modCtx 3 fun x => { x with sync := [(9, syncEnt0)] }).modPt 1 fun y => { y with counters := [(0, 5)] }
def started (o : Done) (b : List Byte) : Entry := { n := 0, bytes := b, started := true, ord := 1, outcome := some o }
def okDone : Done := { status := ok }
def running : State := (ctxIn .running (some alloc1) [1]).modCtx 3 fun x => { x with prog := some boxProg, run := some ⟨0, 5, 0⟩, started := true, hold := .none }
def recProg : Prog := { boxProg with reconfig := [(4, [])] }
def recState : State := (engines 3 0 [(0x18, 4, 4), (0x1C, 1, 1)]).modCtx 3 fun x => { x with prog := some recProg }
def hostData : List Byte := List.replicate 64 7
def stopWaits : State := withEnts running 1 [ent 2 []]
/-- A queue whose TAIL covers one entry, 40 cyc ago. -/
def postedQ : State := (withEnts placed 4 []).modQueue 3 4 fun x => { x with posted := [(2, 0)] }
def farQ : State := (withEnts placed 4 []).modQueue 3 4 fun x => { x with stopped := true, tail := 65 }
/-- A COPY that waits for counter 9 to reach 6. -/
def spinE : Entry := waitEnt (slot 0x10 [(1, 1, 32), (8, 2, 9), (12, 4, 6), (16, 4, 1)])
def spinQ : State := withEnts (withSync placed) 4 [spinE]
def reelOn (s : State) : State := { s with reel := { s.reel with st := .ready, authentic := true, weightGib := 1, nlba := 2 ^ 28 } }
/-- Bits in error in the second word of partition 1's first channel. -/
def flip1 (n : Nat) : DramFlip := { ch := 32, group := 0, burst := 1, mask := BitVec.ofNat 512 n }

def ctxH : Nat := placed.handleOf (.ctx 3)
def ring0 : Endpoint := { handle := ctxH, role := 0, ctx := 3, inPool := false, acceptAll := true, vector := 0, base := 4096, ctl := 8192, cells := 16, out := 4, bounce := 65536 }
def bindF (loc : Nat) : List (Nat × Nat × Nat) := [(0x18, 4, ctxH), (0x1D, 1, loc), (0x20, 8, 4096), (0x28, 8, 8192), (0x30, 4, 16)]
def pooled (s : State) : State := { s with ident := { s.ident with poolGib := 1 }, poolChans := [0] }
def withRing (s : State) : State := { s with ends := [ring0] }
def sendE : Entry := { ent 0x15 [(0x18, 4, ctxH), (0x1C, 4, ctxH), (0x24, 2, 64)] with targets := [ctxH] }
def sending : State := withRing (withEnts placed 4 [sendE])
def req (op : Nat) (fs : List (Nat × Nat × Nat)) : Entry := ent 0x16 ([(0x1A, 1, op), (0x1C, 4, 5)] ++ fs)
def sess (b : Bool) : Session := { isOpen := b, owner := 3, ctx := 3, engine := 1, gen := 2 }
def reqS (op : Nat) (fs : List (Nat × Nat × Nat)) (b : Bool) : State := { withEnts placed 4 [req op fs] with sessions := [(5, sess b)], cache := [⟨5, sess b, false⟩] }
def copyOf (role : Nat) (f : Option Nat) : Copy := { target := ctxH, role := role, src := 3, from' := f, cells := [zeros 64], plen := 0, entry := none, session := none, calender := none }
def obs0 : RingObs := ⟨0, 1, 0, true, true, false⟩
def copied : State := { withRing placed with copies := [copyOf 0 none] }
def copiedFull : State := { withRing placed with copies := [copyOf 0 none], ends := [{ ring0 with wr := 16 }] }
def opReady : State := { up with ops := [{ id := 7, code := 0x21, handle := 1, ready := some (ok, []) }], lastOp := 7 }
def reelUp : State := { up with reel := { up.reel with st := .ready, latch := true, authentic := true, nlba := 2 ^ 32 } }
def reelOp (code a b : Nat) : State := { reelUp with reel := { reelUp.reel with ops := [(7, code, a, b)] }, ops := [{ id := 7, code := code, handle := 1 }], lastOp := 7 }
def reelBusy : State := { withEnts placed 4 [ent 0x10 [(0x18, 1, 3), (0x19, 1, 1), (0x20, 8, 2 ^ 60), (0x30, 8, 4096)]] with reel := { reelUp.reel with access := [(3, 4, 0)] } }
def reelWrites : State := { withEnts placed 4 [ent 0x10 [(0x18, 1, 0), (0x19, 1, 3), (0x28, 8, 2 ^ 60), (0x30, 8, 4096)]] with reel := { reelUp.reel with access := [(3, 4, 0)] } }
def found0 : ReelFound := { present := true, linkOk := true, reduced := false, authentic := true, lba4k := true, nlba := 2 ^ 28, pu := 1, units := 5, readOnly := false, serial := 1, fwrev := 2, chain := 3, content := [] }
def reelStarts : State := { up with reel := { up.reel with st := .starting, latch := true } }

def bindE (loc : Nat) : Entry := ent 0x13 (bindF loc)
/-- The end that RX_BIND `bindE loc` makes. -/
def bindEnd (loc : Nat) : Endpoint :=
  { handle := ctxH, role := 0, ctx := 3, inPool := decide (loc = 1), acceptAll := false, vector := 0, base := 4096, ctl := 8192, cells := 16, out := 0
    bounce := 0 }
def pairProg : Prog := { boxProg with syncMap := [⟨9, 3, false, 0, 10, 0, 1⟩] }
def pairE : Entry := ent 0x19 [(0x18, 2, 9), (0x1A, 1, 1), (0x1C, 4, 0x7FFFFFFF)]
/-- Counters 9 and 10, a pair of the placed program, both at 5. -/
def pairQ : State :=
  ((withEnts placed 4 [pairE]).modCtx 3 fun x => { x with prog := some pairProg, sync := [(9, syncEnt0), (10, { syncEnt0 with index := 1 })] }).modPt 1
    fun y => { y with counters := [(0, 5), (1, 5)] }
def polled : State := { reelUp with clk := { reelUp.clk with life := 60 * cycPerSec } }

/-- Every sheet's map installed. -/
def mapped (s : State) : State := { s with sheets := List.replicate 24 { map := (List.range 16).map some, rove := some 16, stand := some 17 } }
/-- A configuration image with context 0 valid: BRANCH, one issue entry of OP and LEN. -/
def cfg0 (branch op len : Nat) : Mem :=
  (((Mem.write [] 0 (le 8 (2 ^ 43))).write 0x40 (le 4 1)).write 0x400 (le 8 (branch * 2 ^ 60))).write 0x440 (le 8 (op * 2 ^ 56 + (len - 1) * 2 ^ 33))
/-- Sheet 3, physical column 0, row 1. -/
def tp : PTile := ⟨3, 0, 1⟩
def ti : Nat := tileIx 3 0 1
def runMap : State := mapped running
def onTile (t : Tile) : State := runMap.modTile ti fun _ => t
def tileRep (r : Nat) : Tile := { cfg := cfg0 0 0 2, cst := { rep := r } :: List.replicate 7 {} }
def tilePred (b : Nat) (q : List (Nat × Bool × BitVec 512)) : Tile := { cfg := (cfg0 b 0 2).write 0x408 (le 8 1), queues := q :: List.replicate 7 [] }
def tileBuf : Tile := { cfg := cfg0 0 0 2, cst := { time := 24, rdBuf := [(0, 5)] } :: List.replicate 7 {} }
def atSched (s : State) (n : Nat) : State := { s.modCtx 3 (fun x => { x with sched := n }) with clk := { s.clk with cycle := BitVec.ofNat 48 n } }
/-- `running` at the cycle before its calender point. -/
def late : State := atSched runMap 2399
def waitProg : Prog := { boxProg with waits := [⟨64, 1, 4⟩] }
def waiting : State :=
  { running.modCtx 3 (fun x => { x with prog := some waitProg, sched := 64, hold := .wait 64 1 0, sampled := [(64, 0)] }) with clk := { running.clk with life := 256 } }
def tooEarly : State := { waiting with clk := { waiting.clk with life := 255 } }
def offFrame : State := { waiting with clk := { waiting.clk with cycle := 1 } }
def swp : Dwell := { kind := .sweep, start := 0, phase := .couchIn, pos := 16, target := some 0, tphys := some 0, next := .plain, couched := none, words := 0, catching := none, inStep := false, refusals := 0, abandoned := false, fails := [], key1 := 2, key2 := 3, mismatched := false }
def withDwell (d : Dwell) : State := runMap.modSheet 3 fun x => { x with dwell := some d }
def inPrologue : State := runMap.modCtx 3 fun x => { x with hold := .prologue 0 }
def proBusy : State := (inPrologue.modCtx 3 fun x => { x with prog := some { boxProg with prologue := [⟨1, 0, []⟩] } })
def atPoint (l : Nat) : State := { runMap.modCtx 3 (fun x => { x with hold := .calender 0 }) with clk := { runMap.clk with life := l } }
def decided : State := atPoint 768
def faultyStep : State := decided.modCtx 3 fun x => { x with faults := [0x0101] }
def lastTry : State := faultyStep.modCtx 3 fun x => { x with rollbacks := 8 }
def longPro : State := { inPrologue with clk := { inPrologue.clk with life := 2 ^ 23 + 1, cycle := BitVec.ofNat 48 (2 ^ 23 + 1) } }
def longRun : State := running.modPt 1 fun x => { x with runCyc := 3601 }
def syncWait : Prog := { boxProg with waits := [⟨64, 3, 9⟩], syncMap := [⟨9, 2, false, 0, 1, 0, 1⟩] }
def pastDeadline : State := running.modCtx 3 fun x => { x with prog := some syncWait, sched := 64, hold := .wait 64 1 0 }
def overdue : State := running.modPt 1 fun x => { x with sinceRelease := 2 ^ 28 }
/-- A channel list with one entry. -/
def oneEnt (op : Nat) : SlotEnt := { slot := 0, op := op, side := false, adv := false, ctx := 0, region := 127, addr := 15 }
def listProg (op : Nat) : Prog := { boxProg with lists := [⟨0, 0, [oneEnt op]⟩] }
def listRun (op n : Nat) : State := atSched (runMap.modCtx 3 fun x => { x with prog := some (listProg op) }) n
def pIx : Nat := tileIx 3 0 0
def wrBufIs (l : List (Option (BitVec 512))) : State := (listRun 2 0).modTile pIx fun x => { x with cst := { wrBuf := l } :: List.replicate 7 {} }
def rd0 : ReadRec := { due := 6, ch := 32, list := 0, cfg := 0, off := 960, committed := false, slot := 0, data := 7 }
def arriving : State := (listRun 0 6).modCtx 3 fun x => { x with reads := [rd0] }
def arrivingFull : State := arriving.modTile pIx fun x => { x with cst := { rdBuf := List.replicate 64 (0, 0) } :: List.replicate 7 {} }
/-- `running` one cycle before a wait point. -/
def nearWait : State := atSched (runMap.modCtx 3 fun x => { x with prog := some waitProg }) 63
def tilePredS : State := onTile (tilePred 3 [(0, false, 1)])
def takes : (Nat × Bool × BitVec 512) × Tile := ((tilePredS.view 3 ti 0).take (tilePredS.tile ti) 0).getD ((0, false, 0), {})
/-- A program that waits on an ORPHANED counter. -/
def orphanWait : State := pastDeadline.modCtx 3 fun x => { x with sync := [(9, { syncEnt0 with st := 2 })] }
def replicaDue : State := decided.modCtx 3 fun x => { x with armed := [⟨0, 2, 5, [], false, 1, 2, none⟩] }
def word0 : WriteRec := { due := 0, ctx := 3, ch := 32, off := 960, addr := 0, data := some 7, mark := none, last := false }
def landing : State := { listRun 0 1 with crossing := [word0] }
def proEnt : SlotEnt := { oneEnt 0 with region := 0 }
def proProg : Prog := { boxProg with regions := [⟨0, 16384, 64, true⟩], lists := [⟨0, 0, [proEnt]⟩] }
def proRead : State := { (runMap.modCtx 3 fun x => { x with prog := some proProg, hold := .prologue 0 }) with clk := { runMap.clk with life := 6, cycle := 6 } }
/-- Bits in error in the word of `rd0`. -/
def flipR (n : Nat) : DramFlip := { ch := 32, group := 1, burst := 0, mask := BitVec.ofNat 512 n }

def sTile : PTile := ⟨3, 0, 3⟩
def clean1 : State := mapped up
def badPkg (t : Int) : List (Fin 48 × Int) := (packagesOf 1).filterMap fun k => if h : k < 48 then some (⟨k, h⟩, t) else none
def nProg : Prog := { boxProg with refreshN := true }
def runN : State := (running.modCtx 3 fun x => { x with prog := some nProg }).modPt 1 fun y => { y with classN := true }
/-- A message cell for a tile. -/
def cell (r : BitVec 4) (c : BitVec 6) : Link := mkWord (1#1 ++ 1#3 ++ 0#4 ++ 0#3 ++ 0#1 ++ r ++ c ++ 0#9) 0
/-- Slot 31 of frame 0 or 1. -/
def slotAt (f : Nat) : State := { mapped up with clk := { up.clk with cycle := BitVec.ofNat 48 (32 * f + 31) } }
def cellAt (i k : Nat) (w : Link) : State := (slotAt 0).modTile i fun t => { t with latches := (List.replicate 5 none).set k (some w) }
def t10 : Nat := tileIx 3 0 1
def t00 : Nat := tileIx 3 0 0
def t01 : Nat := tileIx 3 1 0
def dueDwell : State := (mapped up).modSheet 3 fun x => { x with dwellDue := some .sweep }
def dwl (p : Phase) : Dwell := { swp with phase := p }
def inPhase (p : Phase) : State := withDwell (dwl p)
def fail0 (k : Fin 3) (r : Bool) : BistFail := ⟨2, r, k, 0, 1, 1, 0⟩
def idleDwell (d : Dwell) : State := (mapped up).modSheet 3 fun x => { x with dwell := some d }
def inStepD : Dwell := { swp with phase := .inStep, inStep := true, tphys := some 15, target := some 15 }
def spare16 : State := idleDwell { inStepD with pos := 16 }
def spareUp : State := (idleDwell { inStepD with pos := 16 }).modSheet 3 fun x => { x with down := true }
def steer9 (k : Nat) : State := (idleDwell { inStepD with kind := .steered 4 k }).modSheet 3 fun x => { x with watched := [4] }
def job0 : Job := { id := 77, st := .active, ctx := 3, nmod := 2, rank := 0, serial := 50, epoch := 0, addrs := [1, 2], peersCrc := 0, areas := [], op := none, lost := [] }
def armed0 (n : Nat) : Armed := { region := 0, copies := n, group := 5, entries := [], disagreed := false, h1 := 1, h2 := 2 }
def regProg : Prog := { boxProg with regions := [⟨0, 16384, 64, true⟩] }
def replica (n : Nat) : State :=
  { runMap.modCtx 3 (fun x => { x with prog := some regProg, flips := [false], hold := .decide 0, armed := [armed0 n] }) with jobs := [job0] }
def rep (b : Bool) (w : BitVec 128) : ReplicaReport := ⟨1, b, [(0, w)]⟩
def own0 : BitVec 128 := (2#64 ++ 1#64)
def rebuilding (w : Option (W64 × W64)) : State := (replica 3).modCtx 3 fun x => { x with replicaOk := some true, armed := [{ armed0 3 with want := w }] }
def zeroWm : BitVec 128 := watermark (jobKeys 77 0).1 (jobKeys 77 0).2 (wmElems 0 (padTo 64 (zeros 64)))
def scanTest (z : Bool) : State := (mapped testModeOn).modSheet 3 fun x => { x with tstat := x.tstat.set 5 { zeroised := z, isolated := true } }
def twoExpiries : State := { up with dies := { up.dies with expiries := [(4, 0), (4, 1)] } }
def otherExpiry : State := { up with dies := { up.dies with expiries := [(5, 0)] } }

def tempsMap (s : State) (l : List (Fin 48 × Int)) : KMap Int := l.foldl (fun (m : KMap Int) e => m.set e.1.val e.2) s.dies.pkgTemp
def hotOf (s : State) (m : KMap Int) : List Nat :=
  (List.range 8).filter fun p => (packagesOf p).any (fun k => decide (105 < m.getD k 0)) ||
    (s.dies.hotPts.contains p && (packagesOf p).any fun k => decide (100 < m.getD k 0))
/-- The state with a sample of package temperatures taken. -/
def tempsIn (s : State) (l : List (Fin 48 × Int)) : State :=
  { s with dies := { s.dies with pkgTemp := tempsMap s l, hotPts := hotOf s (tempsMap s l) } }
/-- Bits in error in a scrubbed group. -/
def flipS (n : Nat) : DramFlip := { ch := 191, group := 0, burst := 1, mask := BitVec.ofNat 512 n }
def hotHeld : State := running.modCtx 3 fun x => { x with hotHold := true }
/-- 96 ms after the start of a dwell (R430). -/
def lateLife (s : State) : State := { s with clk := { s.clk with life := 172800000 } }
def watch4 (s : State) : State := s.modSheet 3 fun x => { x with watched := [4] }
def faultyReplica : State := (replica 2).modCtx 3 fun x => { x with faults := [0x0101] }
def lateReplica (n : Nat) : State := { replica n with clk := { (replica n).clk with life := ((replica n).ctx 3).replicaLimit } }
def lateRebuild : State := { rebuilding none with clk := { (rebuilding none).clk with life := 180000001 } }
/-- A failing MAC row. -/
def macFail : BistFail := ⟨1, true, 0, 0, 1, 5, 0⟩

def portOf (st : PortState) : FPort := { st := st, lanes := 0xF, groups := List.replicate 16 0, credits := List.replicate 16 256, peer := 9, peerPort := 2 }
def net : State := { up with
  start := { up.start with aux := true }
  ports := List.replicate 18 (portOf .up)
  mgmt := { up.mgmt with settings := [(0x0A, le 2 5)] } }
def sample (a : Nat) (o : Bool) : PowerSample := ⟨a, o⟩
def auxOn : State := { up with start := { up.start with aux := true } }
def pendL (a : Nat) (s : State) : State := s.modPt 1 fun x => { x with lvlPend := some (3, 2, a) }
def idleSet : State := { up with clk := { up.clk with life := 1800 }, mgmt := { up.mgmt with settings := [(0x21, le 4 1)] } }
def pkt0 : Packet := { port := 0, typ := 1, vc := 4, flags := 0, dst := 5, src := 9, jobTag := 7, coll := 1, attempt := 0, step := 1, pkt := 0, payload := [1, 2, 3] }
def bytesTo (d h : Nat) : List Byte := packetBytes { pkt0 with dst := d } h
def auxOff : State := { up with start := { up.start with aux := false } }
/-- The header that leaves: VC and hops set. -/
def fwd (d h : Nat) : List Byte := packetBytes { pkt0 with dst := d } h
def routed : State := { net with mgmt := { net.mgmt with settings := [(0x0A, le 2 5), (0x11, le 2 8 ++ le 2 8 ++ le 2 3)] } }
def ethNet : State := net.modPort 2 fun x => { x with eth := true, etherType := 0x88B5 }
def credWait : State := net.modPort 2 fun x => { x with txq := [bytesTo 9 3], credits := List.replicate 16 0 }
def training : State := net.modPort 2 fun x => { portOf .training with lanes := 0 }
def collUp : State := { net with ctxs := placed.ctxs }
def limited (l n e : Nat) : State := { auxOn with dies := { auxOn.dies with limL := l, second := (n, e) } }
/-- A tile of partition 1 has been hot, or all have been cool, since cycle `a`. -/
def wasHot (a : Nat) : State := { auxOn.modPt 1 (fun x => { x with hotAt := some a }) with clk := { auxOn.clk with life := 1800000 } }
def wasCool (a : Nat) : State := { auxOn.modPt 1 (fun x => { x with coolAt := some a }) with clk := { auxOn.clk with life := 18000000 } }
/-- A collective runs on port 3 under group 1. -/
def vcBusy : State :=
  { (routed.modPort 3 fun x => { x with groups := List.replicate 16 1 }).modCtx 3 (fun x => { x with
      colls := [{ id := 1, desc := List.replicate 128 1, edges := [{ peer := 9, child := false }], running := some (1, 1, 0) }] }) with
    mgmt := { net.mgmt with settings := [(0x0A, le 2 5), (0x11, le 2 9 ++ le 2 9 ++ le 2 3)] } }

/-- A collective's descriptor from its fields. -/
def descB (fs : List (Nat × Nat × Nat)) : List Byte :=
  fs.foldl (fun b f => b.take f.1 ++ le f.2.1 f.2.2 ++ b.drop (f.1 + f.2.1)) (zeros 0x40 ++ List.replicate 32 0xFF ++ zeros 32)
/-- RECV of 64 bytes from module 9 to context address 8192. -/
def recvD (fl : Nat) : List Byte := descB [(0, 1, 5), (1, 1, 1), (3, 1, fl), (0x18, 8, 8192), (0x28, 8, 64), (0x38, 2, 2), (0x3A, 2, 9), (0x3C, 2, 1)]
def ecNum : Nat := qix 2 0
def ecJob0 : Job := { job0 with nmod := 6, addrs := [5, 9, 10, 11, 12, 13], areas := [1048576, 65536, 2097152, 32768], k := 4, chunk := 4096, protGen := 0, genDone := 0, gen := 1 }
def ecQ (e : Entry) (j : Job) : State := { withEnts collUp ecNum [e] with jobs := [j] }
def eRef (id : Nat) : Entry := ent 0x21 [(0x18, 8, id)]
def eReb : Entry := ent 0x22 [(0x18, 8, 77), (0x20, 2, 2), (0x28, 8, 4194304)]
def ecVoting : Job := { ecJob0 with st := .voting }
def ecNone : Job := { ecJob0 with k := 0 }
def ecLost (c : Nat) (l : List Nat) : Job := { ecJob0 with lost := l, chunk := c }
def ecCopying : Job := { ecJob0 with copying := true }
def ecDone : Job := { ecJob0 with genDone := 1 }
def ecGotAll : Job := { ecJob0 with ecGot := List.replicate 8 (1, 0, false, 0) }
def onlyJob (j : Job) : State := { collUp with jobs := [j] }
def ckQ (e : Entry) : State := withEnts collUp 12 [e]
def eWm (k : Nat) : Entry := ent 0x30 [(0x18, 8, 4096), (0x20, 8, 64), (0x28, 4, 1), (0x30, 1, k), (0x38, 8, 8192)]
def eRep (m : Nat) : Entry := ent 0x31 [(0x18, 1, 0), (0x19, 1, m), (0x20, 4, up.handleOf (.job 50))]
def onceProg : Prog := { boxProg with slotPeriod := 400, regions := [⟨0, 16384, 7680, true⟩], lists := List.replicate 8 ⟨0, 0, [{ oneEnt 2 with side := true, region := 0 }]⟩ }
def ckJob (m : Nat) (p : Option Prog) : State :=
  let s := ckQ (eRep m)
  { s.modCtx 3 (fun x => { x with prog := p }) with jobs := [job0] }
def collEnt (d : List Byte) (id : Nat) : State := (withEnts (routed.modPort 3 fun x => { x with groups := List.replicate 16 1 }) ecNum []).ctxWrite 3 0 d
def ckArmed : State := (ckJob 2 (some onceProg)).modCtx 3 fun x => { x with armed := [armed0 2] }

/-- Context 3 placed, its COLLECTIVE entry, and the descriptor in its memory. -/
def eColl (id : Nat) : Entry := ent 0x20 [(0x18, 4, id)]
def collIn (st : CtxState) (id : Nat) (d : List Byte) : State :=
  ((withEnts (routedG) ecNum [eColl id]).ctxWrite 3 0 d).modCtx 3 fun x => { x with st := st, prog := none }
where routedG : State := { (routed.modPort 3 fun x => { x with groups := List.replicate 16 1 }) with
  ctxs := placed.ctxs
  mgmt := { up.mgmt with settings := [(0x0A, le 2 5), (0x11, le 2 9 ++ le 2 9 ++ le 2 3)] } }
def coll0 (d : List Byte) (es : List Edge) : Coll := { id := 1, desc := d, edges := es }
def e9 : Edge := { peer := 9, child := false }
def c8 : Edge := { peer := 8, child := true }
/-- ALLREDUCE of 32 elements' blocks, a child 8 and the parent 9. -/
def redD (op fl par : Nat) (kids : List Nat) : List Byte :=
  descB ([(0, 1, op), (1, 1, 1), (2, 1, 6), (3, 1, fl), (6, 1, kids.length), (0x10, 8, 0), (0x18, 8, 1048576), (0x20, 8, 2097152), (0x28, 8, 32), (0x38, 2, 3), (0x3A, 2, par), (0x3C, 2, 1)]
    ++ (List.range kids.length).map fun i => (0x40 + 2 * i, 2, kids.getD i 0))
def collRun (d : Coll) : State :=
  let s := { running with mgmt := { up.mgmt with settings := [(0x0A, le 2 5)] }, ports := net.ports }
  s.modCtx 3 fun x => { x with colls := [d], prog := some boxProg }
def live (d : Coll) : Coll := { d with running := some (1, 1, 0) }
/-- A packet of the running occurrence. -/
def cpkt (typ : Nat) (src : Nat) (pay : List Byte) : Packet := { port := 3, typ := typ, vc := 4, flags := 0, dst := 5, src := src, jobTag := 0, coll := 1, attempt := 0, step := 1, pkt := 0, payload := pay }
def withRx (s : State) (l : List Packet) : State := { s with rxq := l }
def kidContrib : Coll := live { coll0 (redD 1 0 0xFFFF [8]) [c8] with written := [] }

/-- The collective that the entry of `collIn` installs. -/
def collD (id fl : Nat) : Coll := { id := id, desc := recvD fl, edges := [e9] }
def collB (id fl : Nat) : Coll := { id := id, desc := recvD fl, edges := [] }
def onceC (b : Bool) : Coll := { collD 1 4 with once := some (ecNum, 0), running := if b then some (1, 1, 0) else none }
/-- A ONCE collective and the COLLECTIVE entry that installed it. -/
def onceIn (b : Bool) : State := (collIn .placed 1 (recvD 4)).modCtx 3 fun x => { x with colls := [onceC b] }
def timed (n : Nat) : Coll := { collD 1 0 with edges := [{ e9 with timers := [(0, n, 0)] }], running := some (1, 1, 0) }
def ended (b : Bool) : Coll := { collD 1 0 with edges := [{ e9 with got := [0], digestDue := b }], running := some (1, 1, 0), written := [0] }
/-- NIP_WAIT_US after cycle 0. -/
def nipLate (s : State) : State := { s with clk := { s.clk with life := 360000 } }

def rx (d : Coll) (k : Packet) : State := withRx (collRun d) [k]
def rx1 (d : Coll) : State := withRx (collRun d) []
def recvC : Coll := live (coll0 (recvD 0) [e9])
def sendC : Coll := live (coll0 (descB [(0, 1, 4), (1, 1, 1), (0x10, 8, 8192), (0x28, 8, 64), (0x38, 2, 2), (0x3A, 2, 9), (0x3C, 2, 1)]) [{ e9 with sent := [0] }])
def kidC (op : Nat) : Coll := live (coll0 (redD op 0 0xFFFF [8]) [c8])
def kidGot : Coll := live (coll0 (redD 1 0 0xFFFF [8]) [{ c8 with got := [0] }])
def upC : Coll := live (coll0 (redD 1 0 9 []) [e9])
def upGot : Coll := live (coll0 (redD 1 0 9 []) [{ e9 with got := [0] }])
def kContrib : Packet := cpkt 1 8 (zeros (64 + 1024))
def kResult : Packet := cpkt 2 9 (zeros (64 + 2048))
def kData : Packet := cpkt 3 9 (List.replicate 64 7)
def kAck : Packet := cpkt 4 9 []
def kReissue : Packet := cpkt 5 9 []
def kPending : Packet := cpkt 6 9 []
def kDigest (w : List Byte) : Packet := cpkt 7 9 w
def ecPkt : Packet := { port := 3, typ := 3, vc := 4, flags := 0, dst := 5, src := 10, jobTag := 77, coll := 0xFFFF, attempt := 0, step := 1, pkt := 0, payload := List.replicate 4096 7 }
def ecRx (l : List Packet) : State := { onlyJob { ecJob0 with protGen := 2 ^ 64 - 1 } with rxq := l }
def faultyC : Coll := { recvC with faulted := true }
def recvGot : Coll := live (coll0 (recvD 0) [{ e9 with got := [0] }])
def ackedC : Coll := { sendC with edges := [{ e9 with sent := [0], acked := [0] }] }
def resentC : Coll := { sendC with edges := [{ e9 with sent := [0], resent := [0] }] }
def reduceC : Coll := live (coll0 (redD 2 0 9 []) [{ e9 with sent := [0] }])
def ecAck : Packet := { ecPkt with typ := 4, payload := [] }
def ecPktQ : Packet := { ecPkt with pkt := 2 ^ 31 }
def ecSeenJob (l : List (Nat × Nat × Bool × Nat)) : Job := { ecJob0 with protGen := 2 ^ 64 - 1, ecGot := l }
def ecSeen (l : List (Nat × Nat × Bool × Nat)) (r : List Packet) : State := { onlyJob (ecSeenJob l) with rxq := r }

/-- A module of a job: address 5, routes to its peers, the group of erasure traffic bound on port 3. -/
def jobNet : State := { (net.modPort 3 fun x => { x with groups := List.replicate 16 0x3F }) with
  ctxs := placed.ctxs
  mgmt := { up.mgmt with settings := [(0x0A, le 2 5), (0x11, le 2 9 ++ le 2 13 ++ le 2 3)] } }
def peers (n : Nat) : List Byte := le 2 1 ++ le 2 n ++ zeros 60 ++ ([5, 9, 10, 11, 12, 13].take n).flatMap (le 2)
def jobMem (n : Nat) : State := (jobNet.modCtx 3 fun x => { x with prog := none }).ctxWrite 3 4096 (peers n)
def createP (id c n rank a : Nat) : Payload := le 8 id ++ le 1 c ++ [0] ++ le 2 n ++ le 2 rank ++ [0, 0] ++ le 8 a
def restartP (id c n rank a k r : Nat) : Payload := createP id c n rank a ++ le 1 k ++ zeros 3 ++ le 4 r
def job2 (st : JobState) (rank : Nat) : Job :=
  { id := 77, st := st, ctx := 3, nmod := 2, rank := rank, serial := 50, epoch := 1, addrs := [5, 9], peersCrc := 0, areas := [], op := none, lost := [] }
def job6 : Job := { job0 with nmod := 6, addrs := [5, 9, 10, 11, 12, 13], k := 4, chunk := 4096 }
def chW : Nat := chunkOf (Config.saveLen + 0) 4
def setupJob : Job := { job0 with nmod := 6, addrs := [5, 9, 10, 11, 12, 13], areas := [0, 8 * chW, 8 * chW, 4 * chW] }
def setupState : State := { jobNet.modCtx 3 (fun x => { x with prog := none, alloc := some { alloc1 with lenG := 12 * chW } }) with jobs := [setupJob] }
def brokenJob : Job := { newJob 77 3 6 0 (peers 6) 1 with st := .broken, k := 4, op := none }
def withJob (j : Job) : State := { jobMem 6 with jobs := [j] }
def lone (j : Job) : State := { jobNet with jobs := [j] }
def mpkt (j : Job) (sub r : Nat) (body : List Byte) (step : Nat) : Packet :=
  { port := 3, typ := 8, vc := 15, flags := 0, dst := 5, src := j.addrs.getD r 0, jobTag := 77, coll := 0, attempt := 0, step := step, pkt := 0
    payload := le 1 sub ++ le 1 0 ++ le 2 r ++ le 4 0 ++ le 4 j.wireEpoch ++ le 4 0 ++ body }
def hello (j : Job) (n : Nat) : List Byte := le 2 n ++ [0, 0] ++ le 4 up.mgmt.runVer.toNat ++ le 4 j.peersCrc ++ zeros 4 ++ le 8 0
def opOf (s : State) (code : Nat) : State := { s with ops := [{ id := 7, code := code, handle := 1 }], lastOp := 7 }
def jRx (s : State) (j : Job) (l : List Packet) : State := { opOf s 0x30 with jobs := [j], rxq := l }
def forming0 : Job := { job2 .forming 0 with op := some 7, hellos := [(0, true, false, 0)] }
def forming1 : Job := { job2 .forming 1 with op := some 7, addrs := [9, 5] }
def forming3 : Job := { forming0 with nmod := 3, addrs := [5, 9, 10] }

def runJob (j : Job) (l : List Packet) : State := { opOf { jobNet with ctxs := running.ctxs } 0x30 with jobs := [j], rxq := l }
def decState (j : Job) (l : List Packet) : State :=
  { opOf { jobNet with ctxs := (decided.modCtx 3 fun x => { x with hold := .decide 0 }).ctxs, pts := decided.pts, sheets := decided.sheets, clk := decided.clk } 0x30 with jobs := [j], rxq := l }
/-- Rank 1 of three, its parent rank 0. -/
def mid : Job := { job2 .active 1 with nmod := 6, addrs := [9, 5, 10, 11, 12, 13] }
def voteB : List Byte := le 1 0 ++ zeros 3 ++ le 2 1 ++ zeros 2 ++ le 8 0 ++ zeros 1024
def mid2 : Job := { mid with own := some 0 }
def decB (k : Nat) : List Byte := le 1 k ++ zeros 7 ++ le 8 3 ++ le 8 2
def restarting0 : Job := { job2 .restarting 1 with addrs := [9, 5], k := 4, op := some 7, lost := [0] , joiner := true}
def restR : Job := { restarting0 with lost := [] }
def act1 : Job := { job2 .active 1 with addrs := [9, 5] }
def actV : Job := { act1 with own := some 0 }
def act0 : Job := job2 .active 0
def peerUp : State := { lone act0 with ports := List.replicate 18 { portOf .up with peer := 9 } }
def noPeer : State := lone { act0 with addrs := [5, 7] }
def vot0 : Job := { job2 .voting 0 with lost := [1] }
def vot3 : Job := { job2 .voting 0 with nmod := 3, addrs := [5, 9, 10], lost := [2] }
def vot3in : Job := { vot3 with votes := [(1, 2, 1, 0, [2])] }
def unk : Job := { act0 with unacked := [{ seq := 4, rank := 1, bytes := le 1 2, tries := 3, step := 0, attempt := 0 }, { seq := 5, rank := 1, bytes := le 1 5, tries := 4, step := 0, attempt := 0 }] }
def saved0 : Saved := { commit := (running.ctx 3).commit, step := 6, flips := [], feeds := [], sync := [], scaleFlips := [], tables := [] }
def rst1 : Job := { job2 .restarting 1 with addrs := [9, 5], k := 4, gen := 2 }
def rstS : Job := { rst1 with saved := [(2, saved0)] }
def lostJ : Job := { act0 with lost := [1], st := .voting }
def lateJ (s : State) : State := { s with clk := { s.clk with life := 400000000000 } }
def formR : Job := { job2 .forming 0 with nmod := 6, addrs := [5, 9, 10, 11, 12, 13], k := 4, op := some 7, hellos := [(0, true, false, 3), (2, true, false, 2), (3, true, true, 1), (4, true, false, 2), (5, true, false, 2)] }
def formR1 : Job := { job2 .forming 1 with nmod := 6, addrs := [9, 5, 10, 11, 12, 13], k := 4, op := some 7 }
def voteR : List Byte := le 1 2 ++ zeros 3 ++ le 2 1 ++ zeros 2 ++ le 8 0 ++ zeros 1024
def midR : Job := { mid with st := .restarting, k := 4 }
def beaten : Job := { act0 with beat := some 0 }
def formH : Job := { forming1 with beat := none }
def unk1 : Job := { act0 with unacked := [{ seq := 4, rank := 1, bytes := le 1 2, tries := 3, step := 0, attempt := 0 }] }
def rst1j : Job := { rst1 with joiner := true }
def rstRoot : Job := { job2 .restarting 0 with k := 4, gen := 2, op := some 7, saved := [(2, saved0)], votes := [(1, 0, 1, 0, [])] }

def sb : State := { upFree with side := { up.side with eid := some 9, lockEid := some 9, receiver := some 8 } }
def sbHeld : State := { sb with host := { sb.host with owner := .sideband } }
def sbHost : State := { sb with host := { sb.host with owner := .host } }
def sbOut : State := { sb with side := { sb.side with outstanding := some 1 } }
def sbEarly : State := { sb with start := { sb.start with stage := 5 } }
def sbSmbus : State := { sb with side := { sb.side with smbusOnly := true } }
def streaming : State := { sb with side := { sb.side with stream := some (1, 4096, 2048, 65536) }, dumping := some dump0 }
def fwSt (st : FwState) (p : Bool) (got : Nat) : State :=
  { sbHeld with mgmt := { sb.mgmt with fw := st, pldm := p, pldmGot := got, pldmLen := 5000, stageLen := 5000 } }
def spdmTest : State := { sb with mgmt := { sb.mgmt with testMode := true, keysHeld := false } }
def spdmKeys : State := { sb with mgmt := { sb.mgmt with keysHeld := true } }
def m3 : State := { auxOn with start := { auxOn.start with pwr := .m3 } }
def warmDue : State := { auxOn with start := { auxOn.start with warmDue := true } }
/-- `up` at a stage of start-up. -/
def atStage (n : Nat) : State := { up with start := { up.start with stage := n, handles := false }, host := { up.host with fwReady := false } }
def bootGood : State := { atStage 2 with
  ident := { up.ident with vendor := List.replicate 4 (sha3 vkey) }, mgmt := { up.mgmt with flash := Mem.write [] 0 image, flashLen := image.length } }
def reelBoot (img : List Byte) : State := { bootGood with
  mgmt := { up.mgmt with fw := .recovery, recovery := 2 }
  reel := { reelUp.reel with data := (Mem.write [] (256 * 4096) img) } }
def recov (k : Nat) : State := { atStage 2 with mgmt := { up.mgmt with fw := .recovery, recovery := k } }
def railsLost : State := (atStage 3).modPt 2 fun x => { x with pg := false }
def railsWarm : State := { railsLost with start := { railsLost.start with kind := 1, warmBy := some 2 } }
def badCol : ColFail := ⟨3, 4, fail0 0 false⟩
def repCol : ColFail := ⟨3, 4, fail0 0 true⟩
def repaired : State := { atStage 5 with logs := { up.logs with repair := [le 1 0x15 ++ zeros 3 ++ le 4 0x200 ++ le 4 1 ++ zeros 20] } }
def trainedAll (st : PortState) : State := { atStage 6 with ports := List.replicate 18 (portOf st) }
def sheetBad : State := (atStage 8).modSheet 3 fun x => { x with linkFail := true }

def bootEmpty : State := { bootGood with mgmt := { bootGood.mgmt with flash := [], flashLen := 0 } }
def streamed : State := { sb with side := { sb.side with stream := some (1, 4096, 4096, 65536) }, dumping := some dump0 }
def sbRead : State := { sb with side := { sb.side with readAt := some 0 } }
def sbM3 : State := { sb with start := { sb.start with pwr := .m3 } }
def sbRecov : State := { sb with mgmt := { sb.mgmt with fw := .recovery, recovery := 4 } }
def readP : Payload := le 4 1 ++ zeros 4 ++ le 8 0 ++ le 4 16
/-- A dump in the SYS area of a partition that is in reset. -/
def sbDump : State := { sbHeld.modPt sbHeld.mgmt.dumpPt (fun x => { x with reset := some ⟨9, false⟩ }) with dumps := [{ id := 1, place := 2, bytes := zeros 4096, cycle := 0 }] }

/-! ### Lemmas for the witnesses that decide cannot evaluate -/

theorem sheets_clear : ∀ n : Nat, (up.sheet n).dwell = none ∧ (up.sheet n).dwellDue = none := by
  intro n
  have h : up.sheet n = {} := by
    show List.getD (List.replicate 24 ({} : Sheet)) n {} = {}
    simp only [List.getD_eq_getElem?_getD, List.getElem?_replicate]
    split <;> rfl
  rw [h]; exact ⟨rfl, rfl⟩

theorem slot_sheets_idle : ∀ n : Nat, ((slotAt 1).sheet n).dwell = none := by
  intro n
  show (List.getD (List.replicate 24 ({ map := (List.range 16).map some, rove := some 16, stand := some 17 } : Sheet)) n {}).dwell = none
  simp only [List.getD_eq_getElem?_getD, List.getElem?_replicate]
  split <;> rfl

/-- Bytes of a number. -/
theorem le_length (n v : Nat) : (le n v).length = n := by simp [le]

/-- The image's length. -/
theorem image_length : image.length = 7252 := by
  simp only [image, vkey, zeros, List.length_append, List.length_replicate, le_length, List.length_cons, List.length_nil]

/-- The vendor key lies in the image's header. -/
theorem image_key : (image.drop 0x20).take 2592 = vkey := by
  have h : image = (le 4 0x46584245 ++ le 2 1 ++ [2, 1] ++ le 4 0x0104 ++ le 2 0x0104 ++ [0xB1, 0] ++ le 8 1 ++ zeros 8) ++
      (vkey ++ (zeros (0xA40 - 2624) ++ [7] ++ zeros 4627)) := by simp only [image, List.append_assoc]
  have hv : vkey.length = 2592 := by simp only [vkey, zeros, List.length_replicate]
  rw [h, List.drop_left' (by simp only [zeros, List.length_append, List.length_replicate, le_length, List.length_cons, List.length_nil]), List.take_left' hv]

/-- A module whose fuses hold `vkey`'s digest runs `image`. -/
theorem image_boots (s : State) (h1 : s.ident.stepping = 0xB1) (h2 : s.ident.revoked = 0) (h3 : s.ident.vendor.getD 0 [] = sha3 vkey)
    (h4 : s.ident.svn ≤ 2) (h5 : s.verdicts = []) : s.imageOk image { sigOk := true } = true := by
  have k : fieldAt image 0x0F 1 = 0 := by decide +kernel
  have a : fieldAt image 0 4 = 0x46584245 := by decide +kernel
  have b : fieldAt image 4 2 = 1 := by decide +kernel
  have c : fieldAt image 0x10 8 = 1 := by decide +kernel
  have d : fieldAt image 0x0E 1 = 0xB1 := by decide +kernel
  have e : fieldAt image 6 1 = 2 := by decide +kernel
  simp only [State.imageOk, k, a, b, c, d, e, image_length, image_key, h1, h2, h3]
  simp [h4, State.sigGood, h5]

/-- What has been written to flash is read back. -/
theorem flash_image (s : State) (h1 : s.mgmt.flash = Mem.write [] 0 image) (h2 : s.mgmt.flashLen = image.length) : s.flashImage = image := by
  rw [State.flashImage, h1, h2]; exact Mem.read_write 0 image rfl

/-- What has been written to the cartridge's image area is read back. -/
theorem reel_image (s : State) (h : s.reel.data = Mem.write [] (256 * 4096) image) : s.reelImage = image := by
  have hn : unle (s.reel.data.read (256 * 4096 + 0x10) 8) = 1 := by
    have hg : ∀ i, i < 8 → s.reel.data.get (256 * 4096 + 0x10 + i) = image.getD (0x10 + i) 0 := by
      intro i hi
      rw [h, Nat.add_assoc, Mem.get_write _ _ _ rfl (by rw [image_length]; omega), List.getD_eq_getElem]
    have he : s.reel.data.read (256 * 4096 + 0x10) 8 = (List.range 8).map fun i => image.getD (0x10 + i) 0 := by
      unfold Mem.read
      exact List.map_congr_left fun i hi => hg i (List.mem_range.1 hi)
    rw [he]; decide +kernel
  simp only [State.reelImage, hn]
  rw [h]
  exact (if_neg (by decide)).trans ((by rw [image_length] : Mem.read (Mem.write [] (256 * 4096) image) (256 * 4096) (0xA40 + 1 + 4627) =
    Mem.read (Mem.write [] (256 * 4096) image) (256 * 4096) image.length).trans (Mem.read_write _ image rfl))

theorem flash_boots (s : State) (v : Verdict) (hv : v = { sigOk := true }) (h1 : s.mgmt.flash = Mem.write [] 0 image) (h2 : s.mgmt.flashLen = image.length)
    (h3 : s.ident.stepping = 0xB1) (h4 : s.ident.revoked = 0) (h5 : s.ident.vendor = List.replicate 4 (sha3 vkey)) (h6 : s.ident.svn ≤ 2)
    (h7 : s.verdicts = []) :
    s.imageOk s.flashImage v = true := by
  rw [flash_image s h1 h2, hv]; exact image_boots s h3 h4 (by rw [h5]; rfl) h6 h7

theorem reel_boots (s : State) (v : Verdict) (hv : v = { sigOk := true }) (h1 : s.reel.data = Mem.write [] (256 * 4096) image)
    (h3 : s.ident.stepping = 0xB1) (h4 : s.ident.revoked = 0) (h5 : s.ident.vendor = List.replicate 4 (sha3 vkey)) (h6 : s.ident.svn ≤ 2)
    (h7 : s.verdicts = []) :
    s.imageOk s.reelImage v = true := by
  rw [reel_image s h1, hv]; exact image_boots s h3 h4 (by rw [h5]; rfl) h6 h7

/-- A verdict given now changes nothing of the checks of the image it is on. -/
theorem imageOk_judge (s : State) (b : List Byte) (v : Verdict) (h : s.verdicts = []) : (s.judgeImage b v).imageOk b v = s.imageOk b v := by
  simp [State.judgeImage, State.judge, State.imageOk, State.sigGood, h]

/-- A command waits. -/
def releasing : State := { up with pending := [.lockRelease] }

theorem reel_recovers (s : State) (h1 : s.reel.st = .ready) (h2 : s.reel.authentic = true) (h3 : s.reel.data = Mem.write [] (256 * 4096) image) :
    s.reelRecovers = true := by
  have he : image.isEmpty = false := by simp [List.isEmpty_eq_false_iff, ← List.length_pos_iff, image_length]
  simp [State.reelRecovers, Reel.inService, h1, h2, reel_image s h3, he]

/-! ### StepRunsFront -/

def w_StepRunsFront_1_1 : State := { up with pending := [.lockRelease, .lockAcquire 1] }
theorem witness_StepRunsFront :
    (w_StepRunsFront_1_1.pending = [Instr.lockRelease, Instr.lockAcquire 1]) ∧
    (up.pending = []) := by
  refine ⟨?_, ?_⟩ <;> decide +kernel
/-! ### ResetState -/

/-! ### ResetInvariant -/

/-! ### StepKeepsShape -/

theorem witness_StepKeepsShape : ∃ t, step releasing = .next t ∧ Shaped releasing := ⟨_, rfl, by unfold Shaped; decide +kernel⟩
/-! ### StepKeepsMemoryForm -/

theorem witness_StepKeepsMemoryForm : ∃ t, step releasing = .next t ∧ Canonical releasing := ⟨_, rfl, by unfold Canonical; decide +kernel⟩
/-! ### StepKeepsQueueOrder -/

theorem witness_StepKeepsQueueOrder : ∃ t, step releasing = .next t ∧ releasing.pending = [Instr.lockRelease] := ⟨_, rfl, rfl⟩
/-! ### FusesAndTestModeLatched -/

theorem witness_FusesAndTestModeLatched : ∃ t, exec .lockRelease testModeOn = .next t ∧ testModeOn.mgmt.testMode = true := ⟨_, rfl, rfl⟩
/-! ### LockNotHeldDenied -/

def w_LockNotHeldDenied_2_1 : State := { upFree with side := { upFree.side with eid := some 8 } }
theorem witness_LockNotHeldDenied :
    (HostReady upFree ∧ upFree.host.owner ≠ Owner.host) ∧
    ((w_LockNotHeldDenied_2_1.sideUp = true ∧ w_LockNotHeldDenied_2_1.side.outstanding = none ∧
      w_LockNotHeldDenied_2_1.side.held = none ∧ w_LockNotHeldDenied_2_1.start.stage = 10 ∧
      w_LockNotHeldDenied_2_1.start.pwr ≠ ModPwr.m3 ∧ w_LockNotHeldDenied_2_1.host.fwReady = true ∧
      w_LockNotHeldDenied_2_1.mgmt.fw ≠ FwState.recovery ∧ List.length (hnd UnitRef.module) ≤ 4096 ∧ MbKind.bp ≠ MbKind.q ∧
      w_LockNotHeldDenied_2_1.host.owner ≠ Owner.sideband ∧ (MbKind.bp = MbKind.bp → w_LockNotHeldDenied_2_1.host.owner = Owner.free)) ∧
      mbOf (48#16).toNat = some (MbKind.bp, mbReset)) := by
  unfold HostReady
  exact ⟨by decide +kernel, ⟨by decide +kernel, rfl⟩⟩
/-! ### HostLockFreedWithCt0 -/

theorem witness_HostLockFreedWithCt0 :
    (beatDueH.dies.ct0Lost = false ∧ beatDueH.dies.ct1Lost = false ∧ beatDueH.dies.beat + cycPerSec / 100 ≤ beatDueH.clk.life ∧
      beatDueH.host.owner = Owner.host) ∧
    (beatDue.dies.ct0Lost = false ∧ beatDue.dies.ct1Lost = false ∧ beatDue.dies.beat + cycPerSec / 100 ≤ beatDue.clk.life ∧
      beatDue.host.owner ≠ Owner.host) := by
  refine ⟨?_, ?_⟩ <;> decide +kernel
/-! ### GroupOutcomes -/

def w_GroupOutcomes_1_2 : Payload := gcreate [ptH 0, ptH 1, ptH 0]
def w_GroupOutcomes_3_2 : Payload := gcreate [ptH 0, gh 4]
def w_GroupOutcomes_11_2 : Payload := gedit (ptH 1) 0 (ptH 0)
def w_GroupOutcomes_7_2 : Payload := gedit (gh 1) 0 (gh 2)
def w_GroupOutcomes_8_2 : Payload := gedit (gh 1) 0 (ptH 0)
def w_GroupOutcomes_9_2 : Payload := gedit (gh 5) 0 (ptH 0)
def w_GroupOutcomes_10_2 : Payload := gedit (gh 5) 1 (ptH 0)
theorem witness_GroupOutcomes_1 :
    (HostOwns nested ∧ List.length w_GroupOutcomes_1_2 = 4 + 4 * arg w_GroupOutcomes_1_2 0 2 ∧ 1 ≤ arg w_GroupOutcomes_1_2 0 2 ∧
      arg w_GroupOutcomes_1_2 0 2 ≤ 64 ∧ rsvdBad w_GroupOutcomes_1_2 [(2, 2)] = none ∧
      (2 < (List.map (fun i ↦ arg w_GroupOutcomes_1_2 (4 + 4 * i) 4) (List.range (arg w_GroupOutcomes_1_2 0 2))).length) ∧
      ((List.map (fun i ↦ arg w_GroupOutcomes_1_2 (4 + 4 * i) 4) (List.range (arg w_GroupOutcomes_1_2 0 2))).getD 2 0 ∈ List.take 2 (List.map (fun i ↦ arg w_GroupOutcomes_1_2 (4 + 4 * i) 4) (List.range (arg w_GroupOutcomes_1_2 0 2)))) ∧
      ((List.take 2 (List.map (fun i ↦ arg w_GroupOutcomes_1_2 (4 + 4 * i) 4) (List.range (arg w_GroupOutcomes_1_2 0 2)))).Nodup)) ∧
    (HostOwns nested ∧ List.length (gcreate [ptH 0, 5]) = 4 + 4 * arg (gcreate [ptH 0, 5]) 0 2 ∧ 1 ≤ arg (gcreate [ptH 0, 5]) 0 2 ∧
      arg (gcreate [ptH 0, 5]) 0 2 ≤ 64 ∧ rsvdBad (gcreate [ptH 0, 5]) [(2, 2)] = none ∧
      ((List.map (fun i ↦ arg (gcreate [ptH 0, 5]) (4 + 4 * i) 4) (List.range (arg (gcreate [ptH 0, 5]) 0 2))).Nodup) ∧
      (1 < (List.map (fun i ↦ arg (gcreate [ptH 0, 5]) (4 + 4 * i) 4) (List.range (arg (gcreate [ptH 0, 5]) 0 2))).length) ∧
      (nested.unitOf ((List.map (fun i ↦ arg (gcreate [ptH 0, 5]) (4 + 4 * i) 4) (List.range (arg (gcreate [ptH 0, 5]) 0 2))).getD 1 0) = none) ∧
      (∀ m ∈ List.take 1 (List.map (fun i ↦ arg (gcreate [ptH 0, 5]) (4 + 4 * i) 4) (List.range (arg (gcreate [ptH 0, 5]) 0 2))), nested.unitOf m ≠ none)) ∧
    (HostOwns nested ∧ List.length w_GroupOutcomes_3_2 = 4 + 4 * arg w_GroupOutcomes_3_2 0 2 ∧ 1 ≤ arg w_GroupOutcomes_3_2 0 2 ∧
      arg w_GroupOutcomes_3_2 0 2 ≤ 64 ∧ rsvdBad w_GroupOutcomes_3_2 [(2, 2)] = none ∧
      ((List.map (fun i ↦ arg w_GroupOutcomes_3_2 (4 + 4 * i) 4) (List.range (arg w_GroupOutcomes_3_2 0 2))).Nodup) ∧
      (1 < (List.map (fun i ↦ arg w_GroupOutcomes_3_2 (4 + 4 * i) 4) (List.range (arg w_GroupOutcomes_3_2 0 2))).length) ∧
      (∀ m ∈ List.map (fun i ↦ arg w_GroupOutcomes_3_2 (4 + 4 * i) 4) (List.range (arg w_GroupOutcomes_3_2 0 2)), nested.unitOf m ≠ none) ∧
      (4 ≤ nested.depthOf 5 ((List.map (fun i ↦ arg w_GroupOutcomes_3_2 (4 + 4 * i) 4) (List.range (arg w_GroupOutcomes_3_2 0 2))).getD 1 0)) ∧
      (∀ m ∈ List.take 1 (List.map (fun i ↦ arg w_GroupOutcomes_3_2 (4 + 4 * i) 4) (List.range (arg w_GroupOutcomes_3_2 0 2))), nested.depthOf 5 m < 4)) := by
  unfold HostOwns HostReady
  refine ⟨?_, ?_, ?_⟩ <;> decide +kernel
theorem witness_GroupOutcomes_2 :
    (HostOwns fullGroups ∧ List.length (gcreate [ptH 0]) = 4 + 4 * arg (gcreate [ptH 0]) 0 2 ∧ 1 ≤ arg (gcreate [ptH 0]) 0 2 ∧
      arg (gcreate [ptH 0]) 0 2 ≤ 64 ∧ rsvdBad (gcreate [ptH 0]) [(2, 2)] = none ∧
      ((List.map (fun i ↦ arg (gcreate [ptH 0]) (4 + 4 * i) 4) (List.range (arg (gcreate [ptH 0]) 0 2))).Nodup) ∧
      (∀ m ∈ List.map (fun i ↦ arg (gcreate [ptH 0]) (4 + 4 * i) 4) (List.range (arg (gcreate [ptH 0]) 0 2)), fullGroups.unitOf m ≠ none ∧ fullGroups.depthOf 5 m < 4) ∧
      1024 ≤ fullGroups.groups.length) ∧
    (HostOwns nested ∧ List.length (gedit 5 0 (ptH 0)) = 12 ∧ rsvdBad (gedit 5 0 (ptH 0)) [(5, 3)] = none ∧
      arg (gedit 5 0 (ptH 0)) 4 1 ≤ 1 ∧ 5 = arg (gedit 5 0 (ptH 0)) 0 4 ∧ ptH 0 = arg (gedit 5 0 (ptH 0)) 8 4 ∧ nested.unitOf 5 = none) ∧
    (HostOwns nested ∧ List.length (gedit (gh 1) 0 5) = 12 ∧ rsvdBad (gedit (gh 1) 0 5) [(5, 3)] = none ∧
      arg (gedit (gh 1) 0 5) 4 1 ≤ 1 ∧ gh 1 = arg (gedit (gh 1) 0 5) 0 4 ∧ 5 = arg (gedit (gh 1) 0 5) 8 4 ∧
      nested.unitOf (gh 1) ≠ none ∧ nested.unitOf 5 = none) := by
  unfold HostOwns HostReady
  refine ⟨?_, ?_, ?_⟩ <;> decide +kernel
theorem witness_GroupOutcomes_3 :
    (HostOwns nested ∧ List.length w_GroupOutcomes_11_2 = 12 ∧ rsvdBad w_GroupOutcomes_11_2 [(5, 3)] = none ∧
      arg w_GroupOutcomes_11_2 4 1 ≤ 1 ∧ ptH 1 = arg w_GroupOutcomes_11_2 0 4 ∧ ptH 0 = arg w_GroupOutcomes_11_2 8 4 ∧
      nested.unitOf (ptH 1) ≠ none ∧ nested.unitOf (ptH 0) ≠ none ∧ nested.unitOf (ptH 1) ≠ some (UnitRef.group (ptH 1))) ∧
    (HostOwns nested ∧ List.length w_GroupOutcomes_7_2 = 12 ∧ rsvdBad w_GroupOutcomes_7_2 [(5, 3)] = none ∧
      arg w_GroupOutcomes_7_2 4 1 ≤ 1 ∧ gh 1 = arg w_GroupOutcomes_7_2 0 4 ∧ gh 2 = arg w_GroupOutcomes_7_2 8 4 ∧
      (nested2 (gh 1) (gh 2) = { clk := nested.clk, ident := nested.ident, host := nested.host, pts := nested.pts, chans := nested.chans, sheets := nested.sheets, tiles := nested.tiles, flights := nested.flights, qmaxes := nested.qmaxes, dram := nested.dram, pool := nested.pool, poolChans := nested.poolChans, ctxs := nested.ctxs, rot := nested.rot, ends := nested.ends, copies := nested.copies, sessions := nested.sessions, cache := nested.cache, modCtr := nested.modCtr, groups := List.map (fun g ↦ if g.handle = gh 1 then { handle := g.handle, members := nested.membersOf (gh 1) ++ [gh 2] } else g) nested.groups, ops := nested.ops, lastOp := nested.lastOp, logs := nested.logs, dies := nested.dies, mgmt := nested.mgmt, side := nested.side, ports := nested.ports, rxq := nested.rxq, jobs := nested.jobs, reel := nested.reel, dumps := nested.dumps, dumping := nested.dumping, nextDump := nested.nextDump, start := nested.start, crossing := nested.crossing, scratch := nested.scratch, verdicts := nested.verdicts, fresh := nested.fresh, outbox := nested.outbox, pending := nested.pending }) ∧
      nested.unitOf (gh 1) = some (UnitRef.group (gh 1)) ∧ nested.unitOf (gh 2) ≠ none ∧ arg w_GroupOutcomes_7_2 4 1 = 0 ∧
      (nested.reaches 5 (gh 2) (gh 1) = true ∨ ∃ g ∈ (nested2 (gh 1) (gh 2)).groups, 4 < (nested2 (gh 1) (gh 2)).depthOf 6 g.handle)) := by
  unfold HostOwns HostReady
  refine ⟨?_, ?_⟩ <;> decide +kernel
theorem witness_GroupOutcomes_4 :
    (HostOwns nested ∧ List.length w_GroupOutcomes_8_2 = 12 ∧ rsvdBad w_GroupOutcomes_8_2 [(5, 3)] = none ∧
      arg w_GroupOutcomes_8_2 4 1 ≤ 1 ∧ gh 1 = arg w_GroupOutcomes_8_2 0 4 ∧ ptH 0 = arg w_GroupOutcomes_8_2 8 4 ∧
      (nested2 (gh 1) (ptH 0) = { clk := nested.clk, ident := nested.ident, host := nested.host, pts := nested.pts, chans := nested.chans, sheets := nested.sheets, tiles := nested.tiles, flights := nested.flights, qmaxes := nested.qmaxes, dram := nested.dram, pool := nested.pool, poolChans := nested.poolChans, ctxs := nested.ctxs, rot := nested.rot, ends := nested.ends, copies := nested.copies, sessions := nested.sessions, cache := nested.cache, modCtr := nested.modCtr, groups := List.map (fun g ↦ if g.handle = gh 1 then { handle := g.handle, members := nested.membersOf (gh 1) ++ [ptH 0] } else g) nested.groups, ops := nested.ops, lastOp := nested.lastOp, logs := nested.logs, dies := nested.dies, mgmt := nested.mgmt, side := nested.side, ports := nested.ports, rxq := nested.rxq, jobs := nested.jobs, reel := nested.reel, dumps := nested.dumps, dumping := nested.dumping, nextDump := nested.nextDump, start := nested.start, crossing := nested.crossing, scratch := nested.scratch, verdicts := nested.verdicts, fresh := nested.fresh, outbox := nested.outbox, pending := nested.pending }) ∧
      nested.unitOf (gh 1) = some (UnitRef.group (gh 1)) ∧ nested.unitOf (ptH 0) ≠ none ∧ arg w_GroupOutcomes_8_2 4 1 = 0 ∧
      nested.reaches 5 (ptH 0) (gh 1) = false ∧
      (∀ g ∈ (nested2 (gh 1) (ptH 0)).groups, (nested2 (gh 1) (ptH 0)).depthOf 6 g.handle ≤ 4) ∧ ptH 0 ∈ nested.membersOf (gh 1)) ∧
    (HostOwns nested ∧ List.length w_GroupOutcomes_9_2 = 12 ∧ rsvdBad w_GroupOutcomes_9_2 [(5, 3)] = none ∧
      arg w_GroupOutcomes_9_2 4 1 ≤ 1 ∧ gh 5 = arg w_GroupOutcomes_9_2 0 4 ∧ ptH 0 = arg w_GroupOutcomes_9_2 8 4 ∧
      (nested2 (gh 5) (ptH 0) = { clk := nested.clk, ident := nested.ident, host := nested.host, pts := nested.pts, chans := nested.chans, sheets := nested.sheets, tiles := nested.tiles, flights := nested.flights, qmaxes := nested.qmaxes, dram := nested.dram, pool := nested.pool, poolChans := nested.poolChans, ctxs := nested.ctxs, rot := nested.rot, ends := nested.ends, copies := nested.copies, sessions := nested.sessions, cache := nested.cache, modCtr := nested.modCtr, groups := List.map (fun g ↦ if g.handle = gh 5 then { handle := g.handle, members := nested.membersOf (gh 5) ++ [ptH 0] } else g) nested.groups, ops := nested.ops, lastOp := nested.lastOp, logs := nested.logs, dies := nested.dies, mgmt := nested.mgmt, side := nested.side, ports := nested.ports, rxq := nested.rxq, jobs := nested.jobs, reel := nested.reel, dumps := nested.dumps, dumping := nested.dumping, nextDump := nested.nextDump, start := nested.start, crossing := nested.crossing, scratch := nested.scratch, verdicts := nested.verdicts, fresh := nested.fresh, outbox := nested.outbox, pending := nested.pending }) ∧
      nested.unitOf (gh 5) = some (UnitRef.group (gh 5)) ∧ nested.unitOf (ptH 0) ≠ none ∧ arg w_GroupOutcomes_9_2 4 1 = 0 ∧
      nested.reaches 5 (ptH 0) (gh 5) = false ∧
      (∀ g ∈ (nested2 (gh 5) (ptH 0)).groups, (nested2 (gh 5) (ptH 0)).depthOf 6 g.handle ≤ 4) ∧ ptH 0 ∉ nested.membersOf (gh 5) ∧
      64 ≤ (nested.membersOf (gh 5)).length) := by
  unfold HostOwns HostReady
  refine ⟨?_, ?_⟩ <;> decide +kernel
theorem witness_GroupOutcomes_5 :
    (HostOwns nested ∧ List.length w_GroupOutcomes_10_2 = 12 ∧ rsvdBad w_GroupOutcomes_10_2 [(5, 3)] = none ∧
      arg w_GroupOutcomes_10_2 4 1 ≤ 1 ∧ gh 5 = arg w_GroupOutcomes_10_2 0 4 ∧ ptH 0 = arg w_GroupOutcomes_10_2 8 4 ∧
      nested.unitOf (gh 5) = some (UnitRef.group (gh 5)) ∧ nested.unitOf (ptH 0) ≠ none ∧ arg w_GroupOutcomes_10_2 4 1 = 1 ∧
      ptH 0 ∉ nested.membersOf (gh 5)) := by
  unfold HostOwns HostReady
  decide +kernel
/-! ### MailboxChecks -/

/-- Command codes and the commands with an empty payload (R298). -/
def codeRows : List (Nat × Instr) := [(0x01, .identify []), (0x02, .opStatus []), (0x03, .describe []), (0x04, .resolve []), (0x05, .children []), (0x06, .status []), (0x07,
  .counters []), (0x08, .groupCreate []), (0x09, .groupEdit []), (0x0a, .groupDelete []), (0x0b, .startStatus []), (0x10, .ctxCreate []),
  (0x11, .ctxDestroy []), (0x12, .ctxAlloc []), (0x13, .ctxFree []), (0x14, .ctxBind []), (0x15, .ctxSuspend []), (0x16, .ctxResume []),
  (0x17, .queueConfig []), (0x20, .progLoad []), (0x21, .progUnload []), (0x22, .progInfo []), (0x30, .reset []), (0x31, .fwRestart []),
  (0x40, .modeSet []), (0x41, .modeGet []), (0x42, .powerSet []), (0x50, .fence []), (0x51, .unfence []), (0x60, .test []), (0x61,
  .testResult []), (0x62, .ledgerRead []), (0x70, .dumpTrigger []), (0x71, .dumpInfo []), (0x72, .dumpRead []), (0x73, .dumpClear []),
  (0x74, .errlogRead []), (0x80, .settingsGet []), (0x81, .settingsSet []), (0x90, .fwInfo []), (0x91, .fwStageBegin []), (0x92,
  .fwStageData []), (0x93, .fwStageCommit []), (0x94, .fwRecoveryLoad []), (0x95, .fwSvnAdvance []), (0x96, .keyEnrol []), (0x97, .keyClear
  []), (0x98, .keyList []), (0xa0, .reelInfo []), (0xa1, .reelEject []), (0xa2, .reelSeal []), (0xa3, .reelFormat []), (0xb0, .portStatus
  []), (0xb1, .vcBind []), (0xb2, .jobCreate []), (0xb3, .jobStatus []), (0xb4, .jobLeave []), (0xb5, .ecSetup []), (0xb6, .routeSet []),
  (0xb7, .routeGet []), (0xb8, .collStatus []), (0xb9, .jobRestart [])]
theorem witness_MailboxChecks :
    (HostOwns up ∧
      (4, Instr.describe [1, 2, 3]) ∈ ([(0, .identify [1, 2, 3]), (4, .opStatus [1, 2, 3]), (4, .describe [1, 2, 3]), (48, .resolve [1, 2, 3]), (8, .children [1, 2, 3]), (4, .status [1, 2, 3]), (4, .counters [1, 2, 3]), (12, .groupEdit [1, 2, 3]), (4, .groupDelete [1, 2, 3]), (0, .startStatus [1, 2, 3]), (1, .ctxCreate [1, 2, 3]), (1, .ctxDestroy [1, 2, 3]), (8, .ctxAlloc [1, 2, 3]), (1, .ctxFree [1, 2, 3]), (2, .ctxBind [1, 2, 3]), (1, .ctxSuspend [1, 2, 3]), (1, .ctxResume [1, 2, 3]), (20, .queueConfig [1, 2, 3]), (20, .progLoad [1, 2, 3]), (1, .progUnload [1, 2, 3]), (1, .progInfo [1, 2, 3]), (4, .reset [1, 2, 3]), (0, .fwRestart [1, 2, 3]), (12, .modeSet [1, 2, 3]), (8, .modeGet [1, 2, 3]), (8, .powerSet [1, 2, 3]), (4, .fence [1, 2, 3]), (4, .unfence [1, 2, 3]), (8, .test [1, 2, 3]), (4, .testResult [1, 2, 3]), (8, .ledgerRead [1, 2, 3]), (8, .errlogRead [1, 2, 3]), (4, .dumpTrigger [1, 2, 3]), (0, .dumpInfo [1, 2, 3]), (20, .dumpRead [1, 2, 3]), (4, .dumpClear [1, 2, 3]), (4, .settingsGet [1, 2, 3]), (0, .fwInfo [1, 2, 3]), (8, .fwStageBegin [1, 2, 3]), (0, .fwStageCommit [1, 2, 3]), (8, .fwRecoveryLoad [1, 2, 3]), (0, .fwSvnAdvance [1, 2, 3]), (0, .keyList [1, 2, 3]), (0, .reelInfo [1, 2, 3]), (0, .reelEject [1, 2, 3]), (16, .reelSeal [1, 2, 3]), (8, .reelFormat [1, 2, 3]), (1, .portStatus [1, 2, 3]), (4, .vcBind [1, 2, 3]), (4, .routeGet [1, 2, 3]), (4, .collStatus [1, 2, 3]), (24, .jobCreate [1, 2, 3]), (8, .jobStatus [1, 2, 3]), (8, .jobLeave [1, 2, 3]), (16, .ecSetup [1, 2, 3]), (32, .jobRestart [1, 2, 3])] : List (Nat × Instr)) ∧
      [1, 2, 3].length ≠ (4, Instr.describe [1, 2, 3]).1) ∧
    (HostOwns up) ∧
    ((1, Instr.identify []) ∈ codeRows ∧
      (linkDown.dies.ct0Lost = true ∨ linkDown.host.busy = false ∧ linkDown.host.linkUp = false ∨ linkDown.host.busy = true ∧ (BitVec.toNat linkDown.host.code ≠ (1, Instr.identify []).1 ∨ linkDown.host.fwReady = false))) ∧
    ((1, Instr.identify []) ∈ codeRows ∧ noReady.dies.ct0Lost = false ∧ noReady.host.busy = false ∧ noReady.host.linkUp = true ∧
      noReady.host.fwReady = false ∧ noReady.host.payload.wf = true) ∧
    (((1, Instr.identify []) ∈ codeRows ∧ busyUp.dies.ct0Lost = false ∧ busyUp.host.busy = true ∧
      BitVec.toNat busyUp.host.code = (1, Instr.identify []).1 ∧ busyUp.host.fwReady = true ∧ busyUp.host.spoiled = false ∧
      busyUp.mgmt.fw ≠ FwState.recovery ∧ (MbKind.q = MbKind.q ∨ busyUp.host.owner = Owner.host) ∧
      ((1, Instr.identify []).1 ≠ 114 ∨ busyUp.dumpWaits Master.host busyUp.request = false) ∧
      (mbIdentify Master.host (busyUp.host.payload.read 0 busyUp.host.reqLen.toNat) busyUp).1.host.spoiled = false ∧
      (mbIdentify Master.host (busyUp.host.payload.read 0 busyUp.host.reqLen.toNat) busyUp).1.host.payload.wf = true) ∧
      mbOf 1 = some (MbKind.q, mbIdentify)) := by
  unfold HostOwns HostReady
  exact ⟨by decide +kernel, by decide +kernel, by decide +kernel, by decide +kernel, ⟨by decide +kernel, rfl⟩⟩
/-! ### UnitsAndGroups -/

def w_Units_4_3 : Payload := padTo 48 (pathOf (.sheet 3))
def w_Units_5_3 : Payload := hnd (.pt 1) ++ le 4 0
def w_Units_12_3 : Payload := gcreate [ptH 0, gh 3]
def w_Units_13_3 : Payload := gedit (gh 1) 1 (ptH 0)
def w_Units_14_3 : Payload := gedit (gh 1) 0 (ptH 2)
def w_Units_2b_2 : State := { up with ops := [{ id := 7, code := 0x60, handle := 1, start := 3 }], lastOp := 7 }
def w_Units_2b_5 : OpRec := { id := 7, code := 0x60, handle := 1, start := 3 }
theorem witness_UnitsAndGroups_1 :
    (HostReady up) ∧
    (HostReady withOp ∧ (le 4 7).length = 4 ∧ withOp.op? (arg (le 4 7) 0 4) = some op7 ∧ op7.finished = true) ∧
    (HostReady nested ∧ (le 4 (gh 1)).length = 4 ∧ nested.unitOf (arg (le 4 (gh 1)) 0 4) = some (UnitRef.group (gh 1))) ∧
    (HostReady nested ∧ List.length (hnd (UnitRef.ltile 3 4 5)) = 4 ∧
      nested.unitOf (arg (hnd (UnitRef.ltile 3 4 5)) 0 4) = some (UnitRef.ltile 3 4 5)) ∧
    (HostReady up ∧ List.length w_Units_4_3 = 48 ∧ unitOfPath w_Units_4_3 = some (UnitRef.sheet 3) ∧ up.start.handles = true) ∧
    (HostReady up ∧ List.length w_Units_5_3 = 8 ∧ up.unitOf (arg w_Units_5_3 0 4) = some (UnitRef.pt 1)) ∧
    (HostReady up ∧ List.length (hnd (UnitRef.pt 1)) = 4 ∧ up.unitOf (arg (hnd (UnitRef.pt 1)) 0 4) = some (UnitRef.pt 1)) ∧
    (HostReady up ∧ List.length (hnd (UnitRef.ptile 0 0 0)) = 4 ∧
      up.unitOf (arg (hnd (UnitRef.ptile 0 0 0)) 0 4) = some (UnitRef.ptile 0 0 0)) ∧
    (HostReady up) ∧
    (HostReady up ∧ (le 4 9).length = 4 ∧ up.op? (arg (le 4 9) 0 4) = none) := by
  unfold HostReady
  refine ⟨?_, ?_, ?_, ?_, ?_, ?_, ?_, ?_, ?_, ?_⟩ <;> decide +kernel
theorem witness_UnitsAndGroups_2 :
    (HostReady up ∧ (le 4 9).length = 4 ∧ up.unitOf (arg (le 4 9) 0 4) = none) ∧
    (HostReady up ∧ (le 8 9).length = 8 ∧ up.unitOf (arg (le 8 9) 0 4) = none) ∧
    (HostOwns nested ∧ List.length w_Units_12_3 = 4 + 4 * arg w_Units_12_3 0 2 ∧ 1 ≤ arg w_Units_12_3 0 2 ∧
      arg w_Units_12_3 0 2 ≤ 64 ∧ rsvdBad w_Units_12_3 [(2, 2)] = none ∧
      ((List.map (fun i ↦ arg w_Units_12_3 (4 + 4 * i) 4) (List.range (arg w_Units_12_3 0 2))).Nodup) ∧
      (∀ m ∈ List.map (fun i ↦ arg w_Units_12_3 (4 + 4 * i) 4) (List.range (arg w_Units_12_3 0 2)), nested.unitOf m ≠ none) ∧
      (∀ m ∈ List.map (fun i ↦ arg w_Units_12_3 (4 + 4 * i) 4) (List.range (arg w_Units_12_3 0 2)), nested.depthOf 5 m < 4) ∧
      nested.groups.length < 1024) ∧
    (HostOwns nested ∧ List.length w_Units_13_3 = 12 ∧ rsvdBad w_Units_13_3 [(5, 3)] = none ∧
      nested.unitOf (arg w_Units_13_3 0 4) = some (UnitRef.group (arg w_Units_13_3 0 4)) ∧
      nested.unitOf (arg w_Units_13_3 8 4) ≠ none ∧ arg w_Units_13_3 4 1 = 1 ∧
      (nested.membersOf (arg w_Units_13_3 0 4)).contains (arg w_Units_13_3 8 4) = true) := by
  unfold HostOwns HostReady
  refine ⟨?_, ?_, ?_, ?_⟩ <;> decide +kernel
theorem witness_UnitsAndGroups_3 :
    (HostOwns nested ∧ List.length w_Units_14_3 = 12 ∧ rsvdBad w_Units_14_3 [(5, 3)] = none ∧
      nested.unitOf (arg w_Units_14_3 0 4) = some (UnitRef.group (arg w_Units_14_3 0 4)) ∧
      nested.unitOf (arg w_Units_14_3 8 4) ≠ none ∧ arg w_Units_14_3 4 1 = 0 ∧
      (nested2 (gh 1) (ptH 2) = { clk := nested.clk, ident := nested.ident, host := nested.host, pts := nested.pts, chans := nested.chans, sheets := nested.sheets, tiles := nested.tiles, flights := nested.flights, qmaxes := nested.qmaxes, dram := nested.dram, pool := nested.pool, poolChans := nested.poolChans, ctxs := nested.ctxs, rot := nested.rot, ends := nested.ends, copies := nested.copies, sessions := nested.sessions, cache := nested.cache, modCtr := nested.modCtr, groups := List.map (fun g ↦ if g.handle = arg w_Units_14_3 0 4 then { handle := g.handle, members := nested.membersOf (arg w_Units_14_3 0 4) ++ [arg w_Units_14_3 8 4] } else g) nested.groups, ops := nested.ops, lastOp := nested.lastOp, logs := nested.logs, dies := nested.dies, mgmt := nested.mgmt, side := nested.side, ports := nested.ports, rxq := nested.rxq, jobs := nested.jobs, reel := nested.reel, dumps := nested.dumps, dumping := nested.dumping, nextDump := nested.nextDump, start := nested.start, crossing := nested.crossing, scratch := nested.scratch, verdicts := nested.verdicts, fresh := nested.fresh, outbox := nested.outbox, pending := nested.pending }) ∧
      nested.reaches 5 (arg w_Units_14_3 8 4) (arg w_Units_14_3 0 4) = false ∧
      (∀ g ∈ (nested2 (gh 1) (ptH 2)).groups, (nested2 (gh 1) (ptH 2)).depthOf 6 g.handle ≤ 4) ∧
      (nested.membersOf (arg w_Units_14_3 0 4)).contains (arg w_Units_14_3 8 4) = false ∧
      (nested.membersOf (arg w_Units_14_3 0 4)).length < 64) ∧
    (HostOwns nested ∧ (le 4 (gh 1)).length = 4 ∧
      nested.unitOf (arg (le 4 (gh 1)) 0 4) = some (UnitRef.group (arg (le 4 (gh 1)) 0 4))) ∧
    (HostReady w_Units_2b_2 ∧ (le 4 7).length = 4 ∧ w_Units_2b_2.op? (arg (le 4 7) 0 4) = some w_Units_2b_5 ∧
      w_Units_2b_5.finished = false) := by
  unfold HostOwns HostReady
  refine ⟨?_, ?_, ?_⟩ <;> decide +kernel
/-! ### ContextForeground -/

def w_Cf_2_3 : Payload := [3, 3, 8, 2, 0xE8, 3, 0, 0]
def w_Cf_3_2 : State := ctxIn .allocated (some alloc1) []
def w_Cf_4_2 : State := ctxIn .bound (some alloc1) [1]
def w_Cf_5_2 : State := ctxIn .bound (some alloc1) [1]
def w_Cf_5_3 : Payload := [3, 0, 2, 0] ++ le 8 4096 ++ le 4 64 ++ [2, 0, 0, 0]
def w_Cf_8_2 : State := ctxIn .faulted (some alloc1) [1]
theorem witness_ContextForeground_1 :
    (HostOwns up ∧ Shaped up ∧ 3 < 64 ∧ [3].length = 1 ∧
      (arg [3] 0 1 = 3 ∨ arg [3] 0 1 = 255 ∧ ∀ c < 3, (up.ctx c).st ≠ CtxState.free) ∧ (up.ctx 3).st = CtxState.free) ∧
    (HostOwns up ∧ Shaped up ∧ 0 < 64 ∧ [255].length = 1 ∧
      (arg [255] 0 1 = 0 ∨ arg [255] 0 1 = 255 ∧ ∀ c < 0, (up.ctx c).st ≠ CtxState.free) ∧ (up.ctx 0).st = CtxState.free) ∧
    (HostOwns (ctxIn CtxState.created none []) ∧ Shaped (ctxIn CtxState.created none []) ∧ 3 < 64 ∧ List.length w_Cf_2_3 = 8 ∧
      arg w_Cf_2_3 0 1 = 3 ∧ ((ctxIn CtxState.created none []).ctx 3).st = CtxState.created ∧ arg w_Cf_2_3 1 1 ≤ 3 ∧
      1 ≤ arg w_Cf_2_3 2 1 ∧ arg w_Cf_2_3 2 1 ≤ 24 ∧ someGridSet (bits 8 (arg w_Cf_2_3 3 1)) = true ∧ 1 ≤ arg w_Cf_2_3 4 4 ∧
      (∀ k ∈ bits 8 (arg w_Cf_2_3 3 1), arg w_Cf_2_3 2 1 ≤ ((ctxIn CtxState.created none []).goodChans k).length) ∧
      ((ctxIn CtxState.created none []).lowestFit (List.flatMap (fun k ↦ List.take (arg w_Cf_2_3 2 1) ((ctxIn CtxState.created none []).goodChans k)) (bits 8 (arg w_Cf_2_3 3 1))) (arg w_Cf_2_3 4 4) = some 0)) := by
  unfold HostOwns HostReady Shaped
  refine ⟨?_, ?_, ?_⟩ <;> decide +kernel
theorem witness_ContextForeground_2 :
    (HostOwns w_Cf_3_2 ∧ Shaped w_Cf_3_2 ∧ 3 < 64 ∧ [3, 2].length = 2 ∧ arg [3, 2] 0 1 = 3 ∧
      (w_Cf_3_2.ctx 3).st = CtxState.allocated ∧ [1] = bits 8 (arg [3, 2] 1 1) ∧ [1] ≠ [] ∧
      (Option.map (fun x ↦ x.pts) (w_Cf_3_2.ctx 3).alloc = some [1]) ∧ w_Cf_3_2.bindBar 3 [1] = none) ∧
    (HostOwns w_Cf_4_2 ∧ Shaped w_Cf_4_2 ∧ 3 < 64 ∧ [3, 0].length = 2 ∧ arg [3, 0] 0 1 = 3 ∧ arg [3, 0] 1 1 = 0 ∧
      (w_Cf_4_2.ctx 3).st = CtxState.bound) := by
  unfold HostOwns HostReady Shaped
  refine ⟨?_, ?_⟩ <;> decide +kernel
theorem witness_ContextForeground_3 :
    (HostOwns w_Cf_5_2 ∧ Shaped w_Cf_5_2 ∧ 3 < 64 ∧ List.length w_Cf_5_3 = 20 ∧ rsvdBad w_Cf_5_3 [(17, 3)] = none ∧
      arg w_Cf_5_3 0 1 = 3 ∧ arg w_Cf_5_3 1 1 ≤ 3 ∧ arg w_Cf_5_3 2 1 ≤ 3 ∧ arg w_Cf_5_3 3 1 ≤ 1 ∧
      (arg w_Cf_5_3 3 1 = 1 → 0 < w_Cf_5_2.poolLen ∧ arg w_Cf_5_3 4 8 + 64 * arg w_Cf_5_3 12 4 ≤ w_Cf_5_2.poolLen) ∧
      arg w_Cf_5_3 4 8 % 64 = 0 ∧ entriesOk (arg w_Cf_5_3 12 4) = true ∧ 2 ≤ arg w_Cf_5_3 16 1 ∧ arg w_Cf_5_3 16 1 ≤ 127 ∧
      (w_Cf_5_2.ctx 3).st ≠ CtxState.free ∧ (w_Cf_5_2.queue 3 (4 * arg w_Cf_5_3 1 1 + arg w_Cf_5_3 2 1)).unfinished = false) ∧
    (HostOwns placed ∧ Shaped placed ∧ 3 < 64 ∧ [3].length = 1 ∧ arg [3] 0 1 = 3 ∧ (placed.ctx 3).prog = some boxProg ∧
      (placed.ctx 3).held ≠ []) ∧
    (HostOwns (ctxIn CtxState.created none []) ∧ Shaped (ctxIn CtxState.created none []) ∧ 3 < 64 ∧ [3].length = 1 ∧
      arg [3] 0 1 = 3 ∧ ((ctxIn CtxState.created none []).ctx 3).unfinished = false ∧
      ((ctxIn CtxState.created none []).ctx 3).st = CtxState.created) := by
  unfold HostOwns HostReady Shaped
  refine ⟨?_, ?_, ?_⟩ <;> decide +kernel
theorem witness_ContextForeground_4 :
    (HostOwns w_Cf_8_2 ∧ Shaped w_Cf_8_2 ∧ 3 < 64 ∧ [3].length = 1 ∧ arg [3] 0 1 = 3 ∧ (w_Cf_8_2.ctx 3).unfinished = false ∧
      ((w_Cf_8_2.ctx 3).st = CtxState.allocated ∨ (w_Cf_8_2.ctx 3).st = CtxState.faulted)) := by
  unfold HostOwns HostReady Shaped
  decide +kernel
/-! ### ContextBackground -/

/-- A verdict given now changes nothing of the checks of the container it is on. -/
theorem loadCheck_judge (s : State) (c : Nat) (b : List Byte) (v : Verdict) (h : s.verdicts = []) :
    ((s.contKey b).elim s fun k => s.judge k b v).loadCheck c b v = s.loadCheck c b v := by
  cases hk : s.contKey b with
  | none => rfl
  | some k =>
    have e : s.judge k b v = { s with verdicts := [⟨k, b, v.sigOk⟩] } := by simp [State.judge, h]
    have f : loadFront { s with verdicts := [⟨k, b, v.sigOk⟩] } b v = loadFront s b v := by
      have hc : State.contKey { s with verdicts := [⟨k, b, v.sigOk⟩] } b = some k := hk
      have hg : State.sigGood { s with verdicts := [⟨k, b, v.sigOk⟩] } k b v = s.sigGood k b v := by simp [State.sigGood, h]
      unfold loadFront
      rw [hc, hk]
      simp only [hg]
    show (s.judge k b v).loadCheck c b v = _
    rw [e]
    unfold State.loadCheck
    rw [f]
    rfl
def w_Cb_1r_2 : State := ctxIn .running (some alloc1) [1]
def w_Cb_2_2 : State := ctxIn .suspended (some alloc1) []
def w_Cb_3_2 : State := ctxIn .bound (some alloc1) [1]
def w_Cb_3_3 : Payload := [3, 2, 0, 0] ++ le 8 0 ++ le 8 6000
def w_Cb_7_6 : Verdict := { sigOk := false }
def w_Cb_9_6 : Verdict := { sigOk := false }
def w_Cb_9_12 : LoadFail := ⟨integrity, 0, 0⟩
def w_Cb_8_6 : Verdict := { sigOk := true }
theorem witness_ContextBackground_1 :
    (HostOwns placed ∧ Shaped placed ∧ 3 < 64 ∧ arg [3] 0 1 = 3 ∧ placed.running.length < 16 ∧ [3].length = 1 ∧
      ((placed.ctx 3).st = CtxState.bound ∨ (placed.ctx 3).st = CtxState.placed ∨ (placed.ctx 3).st = CtxState.running)) ∧
    (HostOwns w_Cb_1r_2 ∧ Shaped w_Cb_1r_2 ∧ 3 < 64 ∧ arg [3] 0 1 = 3 ∧ w_Cb_1r_2.running.length < 16 ∧ [3].length = 1 ∧
      ((w_Cb_1r_2.ctx 3).st = CtxState.bound ∨ (w_Cb_1r_2.ctx 3).st = CtxState.placed ∨ (w_Cb_1r_2.ctx 3).st = CtxState.running)) ∧
    (HostOwns w_Cb_2_2 ∧ Shaped w_Cb_2_2 ∧ 3 < 64 ∧ arg [3] 0 1 = 3 ∧ w_Cb_2_2.running.length < 16 ∧ [3].length = 1 ∧
      (w_Cb_2_2.ctx 3).st = CtxState.suspended ∧ (w_Cb_2_2.ctx 3).alloc = some alloc1 ∧ w_Cb_2_2.bindBar 3 alloc1.pts = none ∧
      w_Cb_2_2.resumeBar 3 alloc1.pts = none) := by
  unfold HostOwns HostReady Shaped
  refine ⟨?_, ?_, ?_⟩ <;> decide +kernel
theorem witness_ContextBackground_2 :
    ((HostOwns w_Cb_3_2 ∧ Shaped w_Cb_3_2 ∧ 3 < 64 ∧ arg w_Cb_3_3 0 1 = 3 ∧ w_Cb_3_2.running.length < 16 ∧
      List.length w_Cb_3_3 = 20 ∧ rsvdBad w_Cb_3_3 [(3, 1)] = none ∧ (w_Cb_3_2.ctx 3).st = CtxState.bound ∧
      bits 8 (arg w_Cb_3_3 1 1) = (w_Cb_3_2.ctx 3).held ∧ arg w_Cb_3_3 2 1 ≤ 2 ∧
      (arg w_Cb_3_3 2 1 = 2 → arg w_Cb_3_3 4 8 + arg w_Cb_3_3 12 8 ≤ w_Cb_3_2.reel.weightGib * 2 ^ 30 ∧ w_Cb_3_2.reelWeights = true) ∧
      w_Cb_3_2.start.pwr = ModPwr.m0 ∧ w_Cb_3_2.modeBar (w_Cb_3_2.ctx 3).held = none) ∧
      (∀ (a : Alloc), arg w_Cb_3_3 2 1 = 1 → (w_Cb_3_2.ctx 3).alloc = some a → arg w_Cb_3_3 4 8 + arg w_Cb_3_3 12 8 ≤ allocLen a)) ∧
    (HostOwns placed ∧ Shaped placed ∧ 3 < 64 ∧ arg [3] 0 1 = 3 ∧ placed.running.length < 16 ∧ [3].length = 1 ∧
      ((placed.ctx 3).st = CtxState.placed ∨ (placed.ctx 3).st = CtxState.faulted) ∧ (placed.ctx 3).held ≠ []) ∧
    (Shaped suspending ∧ (suspending.ctx ↑3).st = CtxState.suspending ∧ (suspending.ctx ↑3).suspendDue = false) ∧
    (Shaped resuming ∧ (resuming.ctx ↑3).st = CtxState.resuming ∧ (resuming.ctx ↑3).hold.inPrologue = false) := by
  unfold HostOwns HostReady Shaped
  exact ⟨⟨by decide +kernel, fun _ h => absurd h (by decide +kernel)⟩, by decide +kernel, by decide +kernel, by decide +kernel⟩
theorem witness_ContextBackground_3 :
    (Shaped loading ∧ (loading.ctx ↑3).st = CtxState.loading ∧ (loading.ctx ↑3).load ≠ none ∧
      (ReadResult.error = ReadResult.poison ∨ ReadResult.error = ReadResult.error)) ∧
    ((Shaped loading ∧ (loading.ctx ↑3).st = CtxState.loading ∧ (loading.ctx ↑3).load = some (0, 0, box.length)) ∧
      (((loading.contKey (loading.loadBytes (↑3) 0 0 box.length box)).elim loading fun k ↦ loading.judge k (loading.loadBytes (↑3) 0 0 box.length box) w_Cb_9_6).loadCheck (↑3) (loading.loadBytes (↑3) 0 0 box.length box) w_Cb_9_6 = Except.error w_Cb_9_12)) ∧
    ((Shaped loading ∧ (loading.ctx ↑3).st = CtxState.loading ∧ (loading.ctx ↑3).load = some (0, 0, box.length) ∧
      (loading.ctx ↑3).reconfigAt ≤ loading.clk.life) ∧
      (((loading.contKey (loading.loadBytes (↑3) 0 0 box.length box)).elim loading fun k ↦ loading.judge k (loading.loadBytes (↑3) 0 0 box.length box) w_Cb_8_6).loadCheck (↑3) (loading.loadBytes (↑3) 0 0 box.length box) w_Cb_8_6 = Except.ok boxProg)) := by
  unfold Shaped
  exact ⟨by decide +kernel, ⟨by decide +kernel, (loadCheck_judge loading 3 _ _ rfl).trans (by decide +kernel)⟩, ⟨by decide +kernel, (loadCheck_judge loading 3 _ _ rfl).trans (by decide +kernel)⟩⟩
/-! ### Resets -/

theorem witness_Resets_1 :
    (Shaped up ∧ HostOwns up ∧ List.length (hnd UnitRef.module) = 4 ∧
      up.unitOf (arg (hnd UnitRef.module) 0 4) = some UnitRef.module ∧ up.verbBusy (arg (hnd UnitRef.module) 0 4) = false ∧
      up.running.length < 16) ∧
    (Shaped placed ∧ HostOwns placed ∧ List.length (hnd (UnitRef.pt 1)) = 4 ∧ 1 < 8 ∧
      placed.unitOf (arg (hnd (UnitRef.pt 1)) 0 4) = some (UnitRef.pt 1) ∧ placed.verbBusy (arg (hnd (UnitRef.pt 1)) 0 4) = false ∧
      placed.running.length < 16 ∧ (placed.pt 1).tripAt = none ∧ placed.dumping = none) ∧
    (Shaped dumpRuns ∧ HostOwns dumpRuns ∧ List.length (hnd (UnitRef.pt 1)) = 4 ∧ 1 < 8 ∧
      dumpRuns.unitOf (arg (hnd (UnitRef.pt 1)) 0 4) = some (UnitRef.pt 1) ∧
      dumpRuns.verbBusy (arg (hnd (UnitRef.pt 1)) 0 4) = false ∧ dumpRuns.running.length < 16 ∧ (dumpRuns.pt 1).tripAt = none ∧
      dumpRuns.dumping = some dump0 ∧ dump0.reading.contains 1 = true) := by
  unfold HostOwns HostReady Shaped
  refine ⟨?_, ?_, ?_⟩ <;> decide +kernel
theorem witness_Resets_2 :
    (Shaped inReset ∧ 2 < 8 ∧ (inReset.pt (2 : ℕ)).reset = some { op := BitVec.toNat (9 : W32), deferred := false } ∧
      (inReset.pt 2).tripAt = none ∧ ((inReset.pt 2).en = true → (inReset.pt 2).pg = true) ∧ inReset.start.pwr = ModPwr.m0) := by
  unfold Shaped
  decide +kernel
/-! ### FirmwareRestartAndKeys -/

def w_Fw_2_5 : Verdict := { sigOk := true }
def w_Fw_3_5 : Verdict := { sigOk := false }
def w_Fw_6_4 : Payload := [7, 0, 0, 0] ++ zeros 2592
theorem witness_FirmwareRestartAndKeys_1 :
    (HostOwns up ∧ up.mgmt.fw ≠ FwState.verifying ∧ up.mgmt.fw ≠ FwState.writing ∧ up.running.length < 16) ∧
    ((fwDown.mgmt.restart = some none ∧ fwDown.mgmt.fw ≠ FwState.recovery) ∧
      (fwDown.judgeImage fwDown.flashImage w_Fw_2_5).imageOk fwDown.flashImage w_Fw_2_5 = true) ∧
    (fwBad.mgmt.restart = some (some 7) ∧ fwBad.mgmt.fw ≠ FwState.recovery ∧
      (fwBad.judgeImage fwBad.flashImage w_Fw_3_5).imageOk fwBad.flashImage w_Fw_3_5 = false) ∧
    (HostOwns up ∧ up.mgmt.testMode = false ∧ up.running.length < 16) ∧
    (HostOwns testModeOn ∧ testModeOn.mgmt.testMode = true) ∧
    (HostOwns keysUsable ∧ List.length w_Fw_6_4 = 2596 ∧ rsvdBad w_Fw_6_4 [(1, 3)] = none ∧ keysUsable.settingNat 21 = 1 ∧
      arg w_Fw_6_4 0 1 ≤ 7 ∧ keysUsable.mgmt.testMode = false ∧ keysUsable.mgmt.keys.getD (arg w_Fw_6_4 0 1) none = none) ∧
    (HostOwns keysUsable ∧ [7, 0, 0, 0].length = 4 ∧ rsvdBad [7, 0, 0, 0] [(1, 3)] = none ∧ keysUsable.settingNat 21 = 1 ∧
      arg [7, 0, 0, 0] 0 1 ≤ 7 ∧ keysUsable.mgmt.testMode = false ∧
      (∀ x ∈ keysUsable.ctxs, ∀ (g : Prog), x.prog = some g → g.keyId ≠ arg [7, 0, 0, 0] 0 1)) := by
  unfold HostOwns HostReady
  exact ⟨by decide +kernel, ⟨by decide +kernel, (imageOk_judge fwDown _ _ rfl).trans (flash_boots fwDown _ rfl (by simp only [fwDown]) rfl rfl rfl rfl (by decide +kernel) rfl)⟩, by decide +kernel, by decide +kernel, by decide +kernel, by decide +kernel, by decide +kernel⟩
theorem witness_FirmwareRestartAndKeys_2 :
    (HostOwns up ∧ up.settingNat 21 ≠ 1) ∧
    (HostReady keysUsable) := by
  unfold HostOwns HostReady
  refine ⟨?_, ?_⟩ <;> decide +kernel
/-! ### ModeAndPowerCommands -/

def w_Mode_1_4 : Payload := [1, 0, 0, 0] ++ hnd (.pt 2) ++ le 4 3
def w_Mode_1m_4 : Payload := [2, 0, 0, 0] ++ le 4 0x20001 ++ le 4 1
def w_Mode_2a_6 : ModeChange := ⟨1, 3, 7, [2], [], false⟩
def w_Mode_2b_6 : ModeChange := ⟨2, 1, 7, [17], [], false⟩
def w_Mode_2c_6 : ModeChange := ⟨3, 1, 7, [0], [], false⟩
def w_Mode_3_4 : Payload := [1, 0, 0, 0] ++ hnd .module
def w_Mode_3_7 : ModeChange := ⟨1, 3, 7, [2], [], false⟩
def w_Mode_4_4 : Payload := [3, 0, 0, 0] ++ hnd .module
def w_Power_1_4 : Payload := hnd .module ++ [3, 0, 0, 0]
def w_Power_2_4 : Payload := hnd (.pt 2) ++ [0, 0, 0, 0]
def w_Mode_5_4 : Payload := [1, 0, 0, 0] ++ hnd .module
theorem witness_ModeAndPowerCommands_1 :
    (Shaped up ∧ HostOwns up ∧ List.length w_Mode_1_4 = 12 ∧ rsvdBad w_Mode_1_4 [(1, 3)] = none ∧ 1 ≤ arg w_Mode_1_4 0 1 ∧
      arg w_Mode_1_4 0 1 ≤ 3 ∧ (arg w_Mode_1_4 8 4 ≤ if arg w_Mode_1_4 0 1 = 1 then 3 else 1) ∧
      scopeBad up (arg w_Mode_1_4 0 1) (arg w_Mode_1_4 4 4) = none ∧
      modeSetBar up (arg w_Mode_1_4 0 1) (arg w_Mode_1_4 8 4) (modeUnits up (arg w_Mode_1_4 0 1) (arg w_Mode_1_4 4 4)) = none ∧
      up.running.length < 16 ∧
      (∃ u ∈ modeUnits up (arg w_Mode_1_4 0 1) (arg w_Mode_1_4 4 4), u ∉ List.filter (fun u ↦ decide (up.modeValue (arg w_Mode_1_4 0 1) u = arg w_Mode_1_4 8 4)) (modeUnits up (arg w_Mode_1_4 0 1) (arg w_Mode_1_4 4 4)))) ∧
    (Shaped up ∧ HostOwns up ∧ List.length w_Mode_1m_4 = 12 ∧ rsvdBad w_Mode_1m_4 [(1, 3)] = none ∧ 1 ≤ arg w_Mode_1m_4 0 1 ∧
      arg w_Mode_1m_4 0 1 ≤ 3 ∧ (arg w_Mode_1m_4 8 4 ≤ if arg w_Mode_1m_4 0 1 = 1 then 3 else 1) ∧
      scopeBad up (arg w_Mode_1m_4 0 1) (arg w_Mode_1m_4 4 4) = none ∧
      modeSetBar up (arg w_Mode_1m_4 0 1) (arg w_Mode_1m_4 8 4) (modeUnits up (arg w_Mode_1m_4 0 1) (arg w_Mode_1m_4 4 4)) = none ∧
      up.running.length < 16 ∧
      (∃ u ∈ modeUnits up (arg w_Mode_1m_4 0 1) (arg w_Mode_1m_4 4 4), u ∉ List.filter (fun u ↦ decide (up.modeValue (arg w_Mode_1m_4 0 1) u = arg w_Mode_1m_4 8 4)) (modeUnits up (arg w_Mode_1m_4 0 1) (arg w_Mode_1m_4 4 4)))) ∧
    (Shaped (modeChange 1 3 [2]) ∧
      (List.find? (fun x ↦ decide (x.mode = ↑0 + 1)) (modeChange 1 3 [2]).mgmt.modes = some w_Mode_2a_6) ∧
      w_Mode_2a_6.next = some 2 ∧ (2 < if 0 = 1 then 18 else 8) ∧ (w_Mode_2a_6.value ≤ if 0 = 0 then 3 else 1) ∧
      (0 ≠ 1 → ((modeChange 1 3 [2]).pt 2).reset = none) ∧
      (0 = 0 → ∀ (c : ℕ), (modeChange 1 3 [2]).holder 2 = some c → ((modeChange 1 3 [2]).ctx c).active = false)) := by
  unfold HostOwns HostReady Shaped
  refine ⟨?_, ?_, ?_⟩ <;> decide +kernel
theorem witness_ModeAndPowerCommands_2 :
    (Shaped (modeChange 2 1 [17]) ∧
      (List.find? (fun x ↦ decide (x.mode = ↑1 + 1)) (modeChange 2 1 [17]).mgmt.modes = some w_Mode_2b_6) ∧
      w_Mode_2b_6.next = some 17 ∧ (17 < if 1 = 1 then 18 else 8) ∧ (w_Mode_2b_6.value ≤ if 1 = 0 then 3 else 1) ∧
      (1 ≠ 1 → ((modeChange 2 1 [17]).pt 17).reset = none) ∧
      (1 = 0 → ∀ (c : ℕ), (modeChange 2 1 [17]).holder 17 = some c → ((modeChange 2 1 [17]).ctx c).active = false)) ∧
    (Shaped (modeChange 3 1 [0]) ∧
      (List.find? (fun x ↦ decide (x.mode = ↑2 + 1)) (modeChange 3 1 [0]).mgmt.modes = some w_Mode_2c_6) ∧
      w_Mode_2c_6.next = some 0 ∧ (0 < if 2 = 1 then 18 else 8) ∧ (w_Mode_2c_6.value ≤ if 2 = 0 then 3 else 1) ∧
      (2 ≠ 1 → ((modeChange 3 1 [0]).pt 0).reset = none) ∧
      (2 = 0 → ∀ (c : ℕ), (modeChange 3 1 [0]).holder 0 = some c → ((modeChange 3 1 [0]).ctx c).active = false)) ∧
    (Shaped (modeChange 1 3 [2]) ∧ HostReady (modeChange 1 3 [2]) ∧ List.length w_Mode_3_4 = 8 ∧
      rsvdBad w_Mode_3_4 [(1, 3)] = none ∧ 1 ≤ arg w_Mode_3_4 0 1 ∧ arg w_Mode_3_4 0 1 ≤ 3 ∧
      scopeBad (modeChange 1 3 [2]) (arg w_Mode_3_4 0 1) (arg w_Mode_3_4 4 4) = none ∧
      (List.find? (fun m ↦ decide (m.mode = arg w_Mode_3_4 0 1) && (modeUnits (modeChange 1 3 [2]) (arg w_Mode_3_4 0 1) (arg w_Mode_3_4 4 4)).any m.units.contains) (modeChange 1 3 [2]).mgmt.modes = some w_Mode_3_7)) := by
  unfold HostReady Shaped
  refine ⟨?_, ?_, ?_⟩ <;> decide +kernel
theorem witness_ModeAndPowerCommands_3 :
    (Shaped up ∧ HostReady up ∧ List.length w_Mode_4_4 = 8 ∧ rsvdBad w_Mode_4_4 [(1, 3)] = none ∧ 1 ≤ arg w_Mode_4_4 0 1 ∧
      arg w_Mode_4_4 0 1 ≤ 3 ∧ scopeBad up (arg w_Mode_4_4 0 1) (arg w_Mode_4_4 4 4) = none ∧
      (List.find? (fun m ↦ decide (m.mode = arg w_Mode_4_4 0 1) && (modeUnits up (arg w_Mode_4_4 0 1) (arg w_Mode_4_4 4 4)).any m.units.contains) up.mgmt.modes = none) ∧
      modeUnits up (arg w_Mode_4_4 0 1) (arg w_Mode_4_4 4 4) ≠ [] ∧
      (∀ u ∈ modeUnits up (arg w_Mode_4_4 0 1) (arg w_Mode_4_4 4 4), up.modeValue (arg w_Mode_4_4 0 1) u = 0)) ∧
    (Shaped m2 ∧ HostOwns m2 ∧ List.length w_Power_1_4 = 8 ∧ rsvdBad w_Power_1_4 [(5, 3)] = none ∧
      m2.unitOf (arg w_Power_1_4 0 4) = some UnitRef.module ∧ m2.running.length < 16 ∧
      modPowerBar m2 Master.host (arg w_Power_1_4 4 1) = none ∧
      (arg w_Power_1_4 4 1 = 0 ∧ m2.start.pwr = ModPwr.m2 ∨ arg w_Power_1_4 4 1 = 2 ∧ m2.start.pwr = ModPwr.m0 ∨ arg w_Power_1_4 4 1 = 3 ∧ m2.start.pwr = ModPwr.m2)) ∧
    (Shaped asleep2 ∧ HostOwns asleep2 ∧ List.length w_Power_2_4 = 8 ∧ rsvdBad w_Power_2_4 [(5, 3)] = none ∧
      (arg w_Power_2_4 4 1 = 0 ∨ arg w_Power_2_4 4 1 = 2 ∨ arg w_Power_2_4 4 1 = 3) ∧
      asleep2.unitOf (arg w_Power_2_4 0 4) = some (UnitRef.pt 2) ∧ targetHeld (asleep2.pt 2).pwr (arg w_Power_2_4 4 1) = false ∧
      ptPowerBar asleep2 (arg w_Power_2_4 4 1) 2 = none ∧
      (arg w_Power_2_4 4 1 = 0 → asleep2.overCap (asleep2.budgetWith [] [2] fun r ↦ (asleep2.pt r).perf) = false) ∧
      asleep2.running.length < 16) := by
  unfold HostOwns HostReady Shaped
  refine ⟨?_, ?_, ?_⟩ <;> decide +kernel
theorem witness_ModeAndPowerCommands_4 :
    (Shaped modPower ∧ modPower.start.pwrOp = some (ModPwr.m3, some (BitVec.toNat (7 : W32))) ∧ modPower.start.stage = 10 ∧
      (ModPwr.m3 = ModPwr.m2 → ∀ x ∈ modPower.ctxs, x.held = [])) ∧
    (Shaped (powerOp 0) ∧ (powerOp 0).start.pwrOp = none ∧
      (powerOp (0 : ℕ)).op? (BitVec.toNat (7 : W32)) = some (powerOp (0 : ℕ)).ops[(0 : ℕ)] ∧ (powerOp 0).ops[0].code = 66 ∧
      (powerOp 0).ops[0].finished = false ∧ (powerOp 0).ops[0].pts = [2] ∧ 2 < 8 ∧ ((powerOp 0).pt 2).tripAt = none ∧
      ((powerOp 0).pt 2).reset = none ∧ (((powerOp 0).pt 2).en = true → ((powerOp 0).pt 2).pg = true) ∧ (powerOp 0).ops[0].arg = 0) ∧
    (Shaped (powerOp 2) ∧ (powerOp 2).start.pwrOp = none ∧
      (powerOp (2 : ℕ)).op? (BitVec.toNat (7 : W32)) = some (powerOp (2 : ℕ)).ops[(0 : ℕ)] ∧ (powerOp 2).ops[0].code = 66 ∧
      (powerOp 2).ops[0].finished = false ∧ (powerOp 2).ops[0].pts = [2] ∧ 2 < 8 ∧ ((powerOp 2).pt 2).tripAt = none ∧
      ((powerOp 2).pt 2).reset = none ∧ (((powerOp 2).pt 2).en = true → ((powerOp 2).pt 2).pg = true) ∧ (powerOp 2).ops[0].arg = 2) := by
  unfold Shaped
  refine ⟨?_, ?_, ?_⟩ <;> decide +kernel
theorem witness_ModeAndPowerCommands_5 :
    (Shaped (powerOp 3) ∧ (powerOp 3).start.pwrOp = none ∧
      (powerOp (3 : ℕ)).op? (BitVec.toNat (7 : W32)) = some (powerOp (3 : ℕ)).ops[(0 : ℕ)] ∧ (powerOp 3).ops[0].code = 66 ∧
      (powerOp 3).ops[0].finished = false ∧ (powerOp 3).ops[0].pts = [2] ∧ 2 < 8 ∧ ((powerOp 3).pt 2).tripAt = none ∧
      ((powerOp 3).pt 2).reset = none ∧ (((powerOp 3).pt 2).en = true → ((powerOp 3).pt 2).pg = true) ∧ (powerOp 3).ops[0].arg = 3 ∧
      (powerOp 3).holder 2 = none) ∧
    (Shaped mixedModes ∧ HostReady mixedModes ∧ List.length w_Mode_5_4 = 8 ∧ rsvdBad w_Mode_5_4 [(1, 3)] = none ∧
      1 ≤ arg w_Mode_5_4 0 1 ∧ arg w_Mode_5_4 0 1 ≤ 3 ∧ scopeBad mixedModes (arg w_Mode_5_4 0 1) (arg w_Mode_5_4 4 4) = none ∧
      (List.find? (fun m ↦ decide (m.mode = arg w_Mode_5_4 0 1) && (modeUnits mixedModes (arg w_Mode_5_4 0 1) (arg w_Mode_5_4 4 4)).any m.units.contains) mixedModes.mgmt.modes = none) ∧
      1 ∈ modeUnits mixedModes (arg w_Mode_5_4 0 1) (arg w_Mode_5_4 4 4) ∧
      2 ∈ modeUnits mixedModes (arg w_Mode_5_4 0 1) (arg w_Mode_5_4 4 4) ∧
      mixedModes.modeValue (arg w_Mode_5_4 0 1) 1 ≠ mixedModes.modeValue (arg w_Mode_5_4 0 1) 2) := by
  unfold HostReady Shaped
  refine ⟨?_, ?_⟩ <;> decide +kernel
/-! ### FencingAndTest -/

def w_Fence_4_3 : Payload := hnd (.pcol 0 1) ++ [3, 0, 0, 0]
theorem witness_FencingAndTest_1 :
    (Shaped up ∧ HostOwns up ∧ List.length (hnd (UnitRef.pt 2)) = 4 ∧ 2 < 8 ∧
      up.unitOf (arg (hnd (UnitRef.pt 2)) 0 4) = some (UnitRef.pt 2) ∧ up.verbBusy (arg (hnd (UnitRef.pt 2)) 0 4) = false ∧
      up.running.length < 16 ∧ up.holder 2 = none) ∧
    (Shaped up ∧ HostOwns up ∧ List.length (hnd (UnitRef.pcol 5 3)) = 4 ∧ 5 < 24 ∧
      up.unitOf (arg (hnd (UnitRef.pcol 5 3)) 0 4) = some (UnitRef.pcol 5 3) ∧
      up.verbBusy (arg (hnd (UnitRef.pcol 5 3)) 0 4) = false ∧ up.running.length < 16 ∧ fenceBar up [UnitRef.pcol 5 3] = none) ∧
    (Shaped placed ∧ HostOwns placed ∧ List.length (hnd (UnitRef.pcol 3 3)) = 4 ∧ 3 < 24 ∧
      placed.unitOf (arg (hnd (UnitRef.pcol 3 3)) 0 4) = some (UnitRef.pcol 3 3) ∧
      placed.verbBusy (arg (hnd (UnitRef.pcol 3 3)) 0 4) = false ∧ placed.running.length < 16 ∧
      fenceBar placed [UnitRef.pcol 3 3] = none) := by
  unfold HostOwns HostReady Shaped
  refine ⟨?_, ?_, ?_⟩ <;> decide +kernel
theorem witness_FencingAndTest_2 :
    (Shaped fenced2 ∧ HostOwns fenced2 ∧ List.length (hnd (UnitRef.pt 2)) = 4 ∧
      fenced2.unitOf (arg (hnd (UnitRef.pt 2)) 0 4) ≠ none ∧
      (∀ u ∈ fenced2.verbUnits (arg (hnd (UnitRef.pt 2)) 0 4), fenceLevel u = true) ∧
      fenced2.verbBusy (arg (hnd (UnitRef.pt 2)) 0 4) = false ∧
      (∀ u ∈ fenced2.verbUnits (arg (hnd (UnitRef.pt 2)) 0 4), fenced2.isFenced u = true ∧ fenced2.isBroke u = false) ∧
      fenced2.verbUnits (arg (hnd (UnitRef.pt 2)) 0 4) ≠ [] ∧ fenced2.running.length < 16) ∧
    (Shaped up ∧ HostOwns up ∧ List.length w_Fence_4_3 = 8 ∧ rsvdBad w_Fence_4_3 [(5, 3)] = none ∧ arg w_Fence_4_3 4 1 ≤ 3 ∧
      up.unitOf (arg w_Fence_4_3 0 4) ≠ none ∧
      (∀ u ∈ up.verbUnits (arg w_Fence_4_3 0 4), fenceLevel u = true ∧ testBar up u = none) ∧
      up.verbBusy (arg w_Fence_4_3 0 4) = false ∧ up.start.pwr = ModPwr.m0 ∧ up.verbUnits (arg w_Fence_4_3 0 4) ≠ [] ∧
      up.running.length < 16) ∧
    (Shaped testOp ∧ testOp.op? (BitVec.toNat (7 : W32)) = some testOp.ops[(0 : ℕ)] ∧ testOp.ops[0].code = 96 ∧
      testOp.ops[0].finished = false ∧ testOp.ops[0].cols ≠ []) := by
  unfold HostOwns HostReady Shaped
  refine ⟨?_, ?_, ?_⟩ <;> decide +kernel
theorem witness_FencingAndTest_3 :
    (Shaped unfencing ∧ unfencing.op? (BitVec.toNat (7 : W32)) = some unfencing.ops[(0 : ℕ)] ∧ unfencing.ops[0].code = 81 ∧
      unfencing.ops[0].finished = false ∧ unfencing.ops[0].cols ≠ [] ∧ 2 < 8 ∧
      List.filterMap unfencing.unitOf unfencing.ops[0].units = [UnitRef.pt 2]) ∧
    (Shaped testDone ∧ HostReady testDone ∧ (le 4 7).length = 4 ∧ testDone.op? (arg (le 4 7) 0 4) = some testDone.ops[0] ∧
      testDone.ops[0].code = 96) := by
  unfold HostReady Shaped
  refine ⟨?_, ?_⟩ <;> decide +kernel
/-! ### LogsAndSettings -/

def w_Logs_1_2 : Payload := le 4 0 ++ [63, 0, 0, 0]
def w_Logs_2_2 : Payload := le 4 0 ++ [15, 0, 0, 0]
def w_Logs_4_2 : Payload := le 8 5 ++ le 8 32 ++ le 4 32
def w_Logs_7_2 : Payload := le 2 0x20 ++ le 2 2 ++ le 2 1900
def w_Logs_8_2 : Payload := le 2 0x0A ++ le 2 2 ++ le 2 5
theorem witness_LogsAndSettings_1 :
    (HostReady up ∧ List.length w_Logs_1_2 = 8 ∧ rsvdBad w_Logs_1_2 [(6, 2)] = none ∧ 1 ≤ arg w_Logs_1_2 4 2 ∧
      arg w_Logs_1_2 4 2 ≤ 63) ∧
    (HostReady up ∧ List.length w_Logs_2_2 = 8 ∧ rsvdBad w_Logs_2_2 [(6, 2)] = none ∧ 1 ≤ arg w_Logs_2_2 4 2 ∧
      arg w_Logs_2_2 4 2 ≤ 15) ∧
    (HostReady dumpHeld) ∧
    (HostOwns dumpHeld ∧ List.length w_Logs_4_2 = 20 ∧ rsvdBad w_Logs_4_2 [(4, 4)] = none ∧ 1 ≤ arg w_Logs_4_2 16 4 ∧
      arg w_Logs_4_2 16 4 ≤ 4080 ∧ (List.find? (fun d ↦ decide (d.id = arg w_Logs_4_2 0 4)) dumpHeld.dumpList = some dump1) ∧
      arg w_Logs_4_2 8 8 + arg w_Logs_4_2 16 4 ≤ dump1.bytes.length ∧
      ((dumpHeld.pt dumpHeld.mgmt.dumpPt).inReset = false ∨ ∀ e ∈ dumpHeld.dumpList, e.id = arg w_Logs_4_2 0 4 → e.place ≠ 2)) ∧
    (dump1 ∈ dumpHeld.dumps ∧ HostOwns dumpHeld ∧ (le 4 5).length = 4 ∧ dump1.id = arg (le 4 5) 0 4 ∧
      (dump1.place = 1 → dumpHeld.reel.inService = true)) ∧
    (HostReady up ∧ (le 4 32).length = 4 ∧ rsvdBad (le 4 32) [(2, 2)] = none ∧ settingDefault (arg (le 4 32) 0 2) = some (le 2 1900)) := by
  unfold HostOwns HostReady
  refine ⟨?_, ?_, ?_, ?_, ?_, ?_⟩ <;> decide +kernel
theorem witness_LogsAndSettings_2 :
    (HostOwns up ∧ List.length w_Logs_7_2 = 4 + arg w_Logs_7_2 2 2 ∧ settingDefault (arg w_Logs_7_2 0 2) ≠ none ∧
      settingOk (arg w_Logs_7_2 0 2) (List.drop 4 w_Logs_7_2) = true ∧ arg w_Logs_7_2 0 2 ≠ 17 ∧ arg w_Logs_7_2 0 2 ≠ 21 ∧
      arg w_Logs_7_2 0 2 ≠ 10 ∧
      (arg w_Logs_7_2 0 2 = 32 → (up.budgetWith [] [] fun q ↦ (up.pt q).perf) ≤ unle (List.drop 4 w_Logs_7_2))) ∧
    (HostOwns up ∧ List.length w_Logs_8_2 = 4 + arg w_Logs_8_2 2 2 ∧ settingDefault (arg w_Logs_8_2 0 2) ≠ none ∧
      settingOk (arg w_Logs_8_2 0 2) (List.drop 4 w_Logs_8_2) = true ∧ arg w_Logs_8_2 0 2 ≠ 17 ∧ arg w_Logs_8_2 0 2 ≠ 21 ∧
      arg w_Logs_8_2 0 2 = 10 ∧ up.inJob = none ∧ Shaped up) := by
  unfold HostOwns HostReady Shaped
  refine ⟨?_, ?_⟩ <;> decide +kernel
/-! ### DumpEngine -/

def w_Dump_4_1 : State := { dumpRuns with start := { dumpRuns.start with aux := true } }
theorem witness_DumpEngine_1 :
    ((Shaped up ∧ HostOwns up ∧ List.length (hnd (UnitRef.pt 1)) = 4 ∧
      up.unitOf (arg (hnd (UnitRef.pt 1)) 0 4) = some (UnitRef.pt 1) ∧ up.dies.ct1Lost = false ∧ up.dumping = none ∧
      up.running.length < 16 ∧ nextTarget up (arg (hnd (UnitRef.pt 1)) 0 4) 0 = some 2) ∧
      (UnitRef.pt 1 = UnitRef.module ∨ ∃ q, UnitRef.pt 1 = UnitRef.pt q)) ∧
    ((Shaped up ∧ HostOwns up ∧ List.length (hnd UnitRef.module) = 4 ∧
      up.unitOf (arg (hnd UnitRef.module) 0 4) = some UnitRef.module ∧ up.dies.ct1Lost = false ∧ up.dumping = none ∧
      up.running.length < 16 ∧ nextTarget up (arg (hnd UnitRef.module) 0 4) 0 = some 2) ∧
      (UnitRef.module = UnitRef.module ∨ ∃ q, UnitRef.module = UnitRef.pt q)) ∧
    (Shaped dumpRuns ∧ dumpRuns.dumping = some dump0 ∧ ((dump0.silent.any fun x ↦ decide (x.1 = BitVec.toNat (5 : W32))) = false)) ∧
    (Shaped stuck2 ∧ stuck2.dumping = some dump0 ∧ dump0.reading.contains ↑2 = true) ∧
    (Shaped w_Dump_4_1 ∧ w_Dump_4_1.dumping = some dump0 ∧ nextTarget w_Dump_4_1 dump0.scope dump0.target = some 3) := by
  unfold HostOwns HostReady Shaped
  exact ⟨⟨by decide +kernel, .inr ⟨1, rfl⟩⟩, ⟨by decide +kernel, .inl rfl⟩, by decide +kernel, by decide +kernel, by decide +kernel⟩
theorem witness_DumpEngine_2 :
    (Shaped dumpOver ∧ dumpOver.dumping = some dumpLast ∧ nextTarget dumpOver dumpLast.scope dumpLast.target = none ∧
      (dumpLast.target = 3 → dumpOver.side.ackAt + 60 * cycPerSec ≤ dumpOver.clk.life)) ∧
    ((Shaped dumpOut ∧ dumpOut.dumping = some dumpRead ∧ dumpRead.reading = []) ∧
      (dumpRead.target = 1 ∨ dumpRead.target = 2 ∨ dumpRead.target = 3 ∧ ∃ i x n, dumpOut.side.stream = some (i, x, n, n))) ∧
    ((Shaped dumpSent ∧ dumpSent.dumping = some dumpLast ∧ dumpLast.reading = []) ∧
      (dumpLast.target = 1 ∨ dumpLast.target = 2 ∨ dumpLast.target = 3 ∧ ∃ i x n, dumpSent.side.stream = some (i, x, n, n))) := by
  unfold Shaped
  exact ⟨by decide +kernel, ⟨by decide +kernel, .inr (.inl rfl)⟩, ⟨by decide +kernel, .inr (.inr ⟨rfl, _, _, _, rfl⟩)⟩⟩
/-! ### FirmwareStaging -/

def w_FwS_3_3 : Payload := le 8 8190 ++ [1, 2]
def w_FwS_6_3 : Verdict := { sigOk := true }
def w_FwS_7_3 : Verdict := { sigOk := true }
theorem witness_FirmwareStaging_1 :
    (HostReady up) ∧
    (HostOwns up ∧ (le 8 4096).length = 8 ∧ 4096 ≤ arg (le 8 4096) 0 8 ∧ arg (le 8 4096) 0 8 ≤ 64 * 2 ^ 20 ∧ up.fwBusy = false ∧
      up.mgmt.commitOp = none) ∧
    (HostOwns stageFw ∧ 9 ≤ List.length w_FwS_3_3 ∧ List.length w_FwS_3_3 ≤ 4088 ∧ stageFw.mgmt.fw = FwState.staging ∧
      stageFw.mgmt.stageLen ≠ 0 ∧ stageFw.mgmt.commitOp = none ∧
      arg w_FwS_3_3 0 8 + (List.drop 8 w_FwS_3_3).length ≤ stageFw.mgmt.stageLen ∧ stageFw.mgmt.stage.wf = true) ∧
    (HostOwns stageFw ∧ stageFw.mgmt.fw = FwState.staging ∧ stageFw.mgmt.stageLen ≠ 0 ∧
      stageFw.tylysBar stageFw.stagedImage = false ∧ stageFw.running.length < 16) ∧
    (HostOwns stageFw ∧ (zeros 8).length = 8 ∧ rsvdBad (zeros 8) [(1, 7)] = none ∧ arg (zeros 8) 0 1 ≤ 1 ∧ stageFw.fwBusy = false ∧
      stageFw.running.length < 16 ∧
      (arg (zeros 8) 0 1 = 0 → stageFw.mgmt.fw = FwState.staging ∧ stageFw.mgmt.stageLen ≠ 0 ∧ stageFw.tylysBar stageFw.stagedImage = false) ∧
      (arg (zeros 8) 0 1 = 1 → stageFw.reel.inService = true ∧ stageFw.reel.authentic = true ∧ stageFw.dies.ct1Lost = false ∧ stageFw.tylysBar stageFw.reelImage = false)) ∧
    (verifying.mgmt.commitOp = some (7, false) ∧ verifying.mgmt.fw = FwState.verifying) := by
  unfold HostOwns HostReady
  refine ⟨?_, ?_, ?_, ?_, ?_, ?_⟩ <;> decide +kernel
theorem witness_FirmwareStaging_2 :
    (writing.mgmt.commitOp = some (7, false) ∧ writing.mgmt.fw = FwState.writing ∧ OpRuns writing 7) := by
  unfold OpRuns
  decide +kernel
/-! ### HostRegisters -/

def w_Regs_8_2 : State := { up with host := { up.host with cause := 0x3F, mask := 0x3F, msixTable := [] } }
def w_Regs_13_2 : State := { up with host := { up.host with code := 1 } }
def w_Bell_4_2 : State := withEnts placed 4 [waitEnt (slot 2 [])]
theorem witness_HostRegisters_1 :
    (up.hostOn = true) ∧
    (up.hostOn = true) ∧
    (upFree.hostOn = true ∧ upFree.host.owner = Owner.free) ∧
    (up.hostOn = true ∧ up.host.owner ≠ Owner.free) ∧
    (up.hostOn = true ∧ up.host.owner = Owner.host) ∧
    (upFree.hostOn = true ∧ upFree.host.owner ≠ Owner.host) ∧
    (up.hostOn = true) ∧
    (w_Regs_8_2.hostOn = true) ∧
    (up.hostOn = true ∧ (8192 : ℕ) ≤ BitVec.toNat (12287 : W32) ∧ BitVec.toNat (12287 : W32) + [(1 : Byte)].length ≤ (12288 : ℕ) ∧
      [1] ≠ []) ∧
    (up.hostOn = true ∧ (1048576 : ℕ) ≤ BitVec.toNat (1048588 : W32) ∧
      BitVec.toNat (1048588 : W32) + [(0 : Byte), (0 : Byte), (0 : Byte), (0 : Byte)].length ≤ (1050624 : ℕ)) ∧
    (up.hostOn = true) ∧
    (busyUp.hostOn = true ∧ busyUp.host.busy = true) ∧
    (w_Regs_13_2.hostOn = true ∧ w_Regs_13_2.host.busy = false ∧ w_Regs_13_2.host.fwReady = true ∧
      mbCodes.contains (BitVec.toNat w_Regs_13_2.host.code) = true) ∧
    (up.hostOn = true) ∧
    (up.hostOn = true ∧ (2162688 : ℕ) < BitVec.toNat (2162685 : W32) + [(1 : Byte), (2 : Byte), (3 : Byte), (4 : Byte)].length) := by
  refine ⟨?_, ?_, ?_, ?_, ?_, ?_, ?_, ?_, ?_, ?_, ?_, ?_, ?_, ?_, ?_⟩ <;> decide +kernel
theorem witness_HostRegisters_2 :
    (Shaped (withEnts placed 4 []) ∧ (withEnts placed 4 []).bellsOn = true ∧
      ((withEnts placed 4 []).queue (↑3) (qix ↑1 ↑0)).enabled = true ∧
      ((withEnts placed 4 []).queue (↑3) (qix ↑1 ↑0)).stopped = false ∧
      BitVec.msb (64 - ((withEnts placed 4 []).queue (↑3) (qix ↑1 ↑0)).fetch) = false ∧
      BitVec.toNat (64 - ((withEnts placed 4 []).queue (↑3) (qix ↑1 ↑0)).head) ≤ ((withEnts placed 4 []).queue (↑3) (qix ↑1 ↑0)).entries) ∧
    (Shaped stoppedQ ∧ stoppedQ.bellsOn = true ∧ (stoppedQ.queue (↑3) (qix ↑1 ↑0)).enabled = true ∧
      (stoppedQ.queue (↑3) (qix ↑1 ↑0)).stopped = true) ∧
    (Shaped (withEnts placed 4 []) ∧ (withEnts placed 4 []).bellsOn = true ∧
      ((withEnts placed 4 []).queue (↑3) (qix ↑1 ↑0)).enabled = true ∧
      ((withEnts placed 4 []).queue (↑3) (qix ↑1 ↑0)).stopped = false ∧
      BitVec.msb (0 - ((withEnts placed 4 []).queue (↑3) (qix ↑1 ↑0)).fetch) = true) ∧
    (Shaped (withEnts placed 4 []) ∧ (withEnts placed 4 []).bellsOn = true ∧
      ((withEnts placed 4 []).queue (↑3) (qix ↑1 ↑0)).enabled = true ∧
      ((withEnts placed 4 []).queue (↑3) (qix ↑1 ↑0)).stopped = false ∧
      BitVec.msb (65 - ((withEnts placed 4 []).queue (↑3) (qix ↑1 ↑0)).fetch) = false ∧
      ((withEnts placed 4 []).queue (↑3) (qix ↑1 ↑0)).entries < BitVec.toNat (65 - ((withEnts placed 4 []).queue (↑3) (qix ↑1 ↑0)).head)) ∧
    (Shaped w_Bell_4_2 ∧ w_Bell_4_2.bellsOn = true ∧ (w_Bell_4_2.queue (↑3) (qix ↑1 ↑0)).enabled = true) ∧
    (Shaped stoppedQ ∧ stoppedQ.bellsOn = true ∧ (stoppedQ.queue (↑3) (qix ↑1 ↑0)).enabled = true ∧
      (stoppedQ.queue (↑3) (qix ↑1 ↑0)).stopped = true ∧ (stoppedQ.queue (↑3) (qix ↑1 ↑0)).tailFault = none) := by
  unfold Shaped
  refine ⟨?_, ?_, ?_, ?_, ?_, ?_⟩ <;> decide +kernel
theorem witness_HostRegisters_3 :
    (Shaped farQ ∧ farQ.bellsOn = true ∧ (farQ.queue (↑3) (qix ↑1 ↑0)).enabled = true ∧
      (farQ.queue (↑3) (qix ↑1 ↑0)).stopped = true ∧ (farQ.queue (↑3) (qix ↑1 ↑0)).tailFault = some 3) := by
  unfold Shaped
  decide +kernel
/-! ### QueueEntries -/

def w_QE_3_2 : State := withEnts placed 4 [waitEnt (slot 0x10 [(4, 1, 1)])]
def w_QE_3a_2 : State := withEnts placed 4 [waitEnt (slot 2 [])]
def w_QE_3c_2 : State := withEnts placed 4 [waitEnt (slot 0x15 [(4, 1, 1)])]
def w_QE_5_2 : State := withEnts (withSync placed) 4 [waitEnt (slot 0x10 [(1, 1, 32), (8, 2, 9), (12, 4, 6), (16, 4, 1)])]
def w_QE_6_2 : State := withEnts placed 4 [started okDone (slot 0x10 [(1, 1, 128)])]
def w_QE_7_2 : State := (withEnts placed 4 [started okDone (slot 0x10 [])]).modQueue 3 4 fun x => { x with inPool := true }
def w_QE_8_2 : State := withEnts (withSync placed) 4 [started okDone (slot 0x10 [(1, 1, 16), (10, 2, 9)])]
def w_QE_9_2 : State := withEnts placed 4 [started okDone (slot 0x10 [])]
theorem witness_QueueEntries_1 :
    (Shaped postedQ ∧ postedQ.dies.ct0Lost = false ∧ (postedQ.queue (↑3) (qix ↑1 ↑0)).enabled = true ∧
      (postedQ.queue (↑3) (qix ↑1 ↑0)).stopped = false ∧
      (postedQ.queue (↑3) (qix ↑1 ↑0)).fetch ≠ (postedQ.queue (↑3) (qix ↑1 ↑0)).tail ∧
      (postedQ.queue (↑3) (qix ↑1 ↑0)).fetchDue postedQ.clk.life = true ∧ (postedQ.ctx ↑3).st ≠ CtxState.free ∧
      postedQ.mgmt.restart = none ∧ ((postedQ.queue (↑3) (qix ↑1 ↑0)).inPool = true ∨ postedQ.host.busMaster = true) ∧
      (slot 2 []).length = 64) ∧
    (Shaped postedQ ∧ postedQ.dies.ct0Lost = false ∧ (postedQ.queue (↑3) (qix ↑1 ↑0)).enabled = true ∧
      (postedQ.queue (↑3) (qix ↑1 ↑0)).stopped = false ∧
      (postedQ.queue (↑3) (qix ↑1 ↑0)).fetch ≠ (postedQ.queue (↑3) (qix ↑1 ↑0)).tail ∧
      (postedQ.queue (↑3) (qix ↑1 ↑0)).fetchDue postedQ.clk.life = true ∧ (postedQ.ctx ↑3).st ≠ CtxState.free ∧
      postedQ.mgmt.restart = none ∧ ((postedQ.queue (↑3) (qix ↑1 ↑0)).inPool = true ∨ postedQ.host.busMaster = true) ∧
      (ReadResult.poison = ReadResult.poison ∨ ReadResult.poison = ReadResult.error)) ∧
    (Shaped w_QE_3_2 ∧ w_QE_3_2.dies.ct0Lost = false ∧ w_QE_3_2.start.stage = 10 ∧ 3 < 64 ∧
      3 = (w_QE_3_2.rot.getD (↑1) 63 + 1 + 3) % 64 ∧
      (∀ j < 3, w_QE_3_2.startQueue ((w_QE_3_2.rot.getD (↑1) 63 + 1 + j) % 64) ↑1 = none) ∧
      w_QE_3_2.startQueue 3 ↑1 = some (0, waitEnt (slot 16 [(4, 1, 1)])) ∧
      w_QE_3_2.entryBad 3 (↑1) (waitEnt (slot 16 [(4, 1, 1)])) = none ∧
      w_QE_3_2.canSpin 3 (↑1) 0 (waitEnt (slot 16 [(4, 1, 1)])) = false ∧ (waitEnt (slot 16 [(4, 1, 1)])).opcode ≠ 21) := by
  unfold Shaped
  refine ⟨?_, ?_, ?_⟩ <;> decide +kernel
theorem witness_QueueEntries_2 :
    (Shaped w_QE_3a_2 ∧ w_QE_3a_2.dies.ct0Lost = false ∧ w_QE_3a_2.start.stage = 10 ∧ 3 < 64 ∧
      3 = (w_QE_3a_2.rot.getD (↑1) 63 + 1 + 3) % 64 ∧
      (∀ j < 3, w_QE_3a_2.startQueue ((w_QE_3a_2.rot.getD (↑1) 63 + 1 + j) % 64) ↑1 = none) ∧
      w_QE_3a_2.startQueue 3 ↑1 = some (0, waitEnt (slot 2 [])) ∧
      w_QE_3a_2.entryBad 3 (↑1) (waitEnt (slot 2 [])) = some (failed unsupported)) ∧
    (Shaped spinQ ∧ spinQ.dies.ct0Lost = false ∧ spinQ.start.stage = 10 ∧ 3 < 64 ∧ 3 = (spinQ.rot.getD (↑1) 63 + 1 + 3) % 64 ∧
      (∀ j < 3, spinQ.startQueue ((spinQ.rot.getD (↑1) 63 + 1 + j) % 64) ↑1 = none) ∧ spinQ.startQueue 3 ↑1 = some (0, spinE) ∧
      spinQ.entryBad 3 (↑1) spinE = none ∧ spinQ.canSpin 3 (↑1) 0 spinE = true) ∧
    (Shaped w_QE_3c_2 ∧ w_QE_3c_2.dies.ct0Lost = false ∧ w_QE_3c_2.start.stage = 10 ∧ 3 < 64 ∧
      3 = (w_QE_3c_2.rot.getD (↑1) 63 + 1 + 3) % 64 ∧
      (∀ j < 3, w_QE_3c_2.startQueue ((w_QE_3c_2.rot.getD (↑1) 63 + 1 + j) % 64) ↑1 = none) ∧
      w_QE_3c_2.startQueue 3 ↑1 = some (0, waitEnt (slot 21 [(4, 1, 1)])) ∧
      w_QE_3c_2.entryBad 3 (↑1) (waitEnt (slot 21 [(4, 1, 1)])) = none ∧
      w_QE_3c_2.canSpin 3 (↑1) 0 (waitEnt (slot 21 [(4, 1, 1)])) = false ∧ (waitEnt (slot 21 [(4, 1, 1)])).opcode = 21) ∧
    (Shaped up ∧ up.dies.ct0Lost = false ∧ (∀ c < 64, up.startQueue c ↑2 = none)) := by
  unfold Shaped
  refine ⟨?_, ?_, ?_, ?_⟩ <;> decide +kernel
theorem witness_QueueEntries_3 :
    (Shaped w_QE_5_2 ∧ w_QE_5_2.dies.ct0Lost = false ∧
      (w_QE_5_2.queue (↑3) (qix ↑1 ↑0)).headEntry = some (waitEnt (slot 16 [(1, 1, 32), (8, 2, 9), (12, 4, 6), (16, 4, 1)])) ∧
      (waitEnt (slot 16 [(1, 1, 32), (8, 2, 9), (12, 4, 6), (16, 4, 1)])).flag 5 = true ∧
      w_QE_5_2.waitMet (↑3) (waitEnt (slot 16 [(1, 1, 32), (8, 2, 9), (12, 4, 6), (16, 4, 1)])) = false ∧
      w_QE_5_2.entryBad (↑3) (↑1) (waitEnt (slot 16 [(1, 1, 32), (8, 2, 9), (12, 4, 6), (16, 4, 1)])) = none) ∧
    (Shaped w_QE_6_2 ∧ w_QE_6_2.dies.ct0Lost = false ∧
      (w_QE_6_2.queue (↑3) (qix ↑1 ↑0)).entry? 0 = some (started okDone (slot 16 [(1, 1, 128)])) ∧
      (started okDone (slot 16 [(1, 1, 128)])).outcome = some okDone ∧ (started okDone (slot 16 [(1, 1, 128)])).complete = false ∧
      ((w_QE_6_2.queue (↑3) (qix ↑1 ↑0)).inPool = true ∨ w_QE_6_2.host.busMaster = true) ∧
      w_QE_6_2.signalWaits (↑3) (qix ↑1 ↑0) (started okDone (slot 16 [(1, 1, 128)])) okDone = false ∧
      (started okDone (slot 16 [(1, 1, 128)])).flag 4 = false ∧ (w_QE_6_2.queue (↑3) (qix ↑1 ↑0)).inPool = false) ∧
    (Shaped w_QE_7_2 ∧ w_QE_7_2.dies.ct0Lost = false ∧
      (w_QE_7_2.queue (↑3) (qix ↑1 ↑0)).entry? 0 = some (started okDone (slot 16 [])) ∧
      (started okDone (slot 16 [])).outcome = some okDone ∧ (started okDone (slot 16 [])).complete = false ∧
      ((w_QE_7_2.queue (↑3) (qix ↑1 ↑0)).inPool = true ∨ w_QE_7_2.host.busMaster = true) ∧
      w_QE_7_2.signalWaits (↑3) (qix ↑1 ↑0) (started okDone (slot 16 [])) okDone = false ∧
      (started okDone (slot 16 [])).flag 4 = false ∧ (w_QE_7_2.queue (↑3) (qix ↑1 ↑0)).inPool = true ∧ w_QE_7_2.pool.wf = true) := by
  unfold Shaped
  refine ⟨?_, ?_, ?_⟩ <;> decide +kernel
theorem witness_QueueEntries_4 :
    (Shaped w_QE_8_2 ∧ w_QE_8_2.dies.ct0Lost = false ∧
      (w_QE_8_2.queue (↑3) (qix ↑1 ↑0)).entry? 0 = some (started okDone (slot 16 [(1, 1, 16), (10, 2, 9)])) ∧
      (started okDone (slot 16 [(1, 1, 16), (10, 2, 9)])).outcome = some okDone ∧
      (started okDone (slot 16 [(1, 1, 16), (10, 2, 9)])).complete = false ∧
      ((w_QE_8_2.queue (↑3) (qix ↑1 ↑0)).inPool = true ∨ w_QE_8_2.host.busMaster = true) ∧
      w_QE_8_2.signalWaits (↑3) (qix ↑1 ↑0) (started okDone (slot 16 [(1, 1, 16), (10, 2, 9)])) okDone = false ∧
      (started okDone (slot 16 [(1, 1, 16), (10, 2, 9)])).flag 4 = true ∧ okDone.status = ok ∧
      w_QE_8_2.syncEnt (↑3) ((started okDone (slot 16 [(1, 1, 16), (10, 2, 9)])).fld 10 2) = some syncEnt0 ∧ syncEnt0.st ≠ 2 ∧
      syncEnt0.pt < 8 ∧ w_QE_8_2.pairsOn syncEnt0.pt syncEnt0.index = []) ∧
    (Shaped w_QE_9_2 ∧ w_QE_9_2.dies.ct0Lost = false ∧
      (w_QE_9_2.queue (↑3) (qix ↑1 ↑0)).entry? 0 = some (started okDone (slot 16 [])) ∧
      (started okDone (slot 16 [])).outcome = some okDone ∧ (started okDone (slot 16 [])).complete = false ∧
      ((w_QE_9_2.queue (↑3) (qix ↑1 ↑0)).inPool = true ∨ w_QE_9_2.host.busMaster = true) ∧
      w_QE_9_2.signalWaits (↑3) (qix ↑1 ↑0) (started okDone (slot 16 [])) okDone = false ∧
      (started okDone (slot 16 [])).flag 4 = false) := by
  unfold Shaped
  refine ⟨?_, ?_⟩ <;> decide +kernel
/-! ### GraphEngine -/

def w_GE_2_1 : State := (engines 1 0 [(0x18, 8, 4)]).modCtx 3 fun x => { x with step := 4 }
theorem witness_GraphEngine_1 :
    (Shaped (engines 1 0 []) ∧ (engines 1 0 []).entryAt (↑3) (↑0) 0 1 = some (ent 1 []) ∧
      ((engines 1 0 []).ctx ↑3).st = CtxState.placed ∧ ((engines 1 0 []).ctx ↑3).prog = some boxProg ∧
      ((engines 1 0 []).ctx ↑3).run = none ∧
      (boxProg.refreshN = true → ∀ p ∈ ((engines 1 0 []).ctx ↑3).held, ((engines 1 0 []).pt p).classN = true) ∧
      (∀ p ∈ ((engines 1 0 []).ctx ↑3).held, (engines 1 0 []).bandOfPt p ≠ 3 ∧ p < 8) ∧
      ((ent 1 []).fld 24 8 = 0 ∨ ((engines 1 0 []).ctx ↑3).step < (ent 1 []).fld 24 8)) ∧
    (Shaped w_GE_2_1 ∧ w_GE_2_1.entryAt (↑3) (↑0) 0 1 = some (ent 1 [(24, 8, 4)]) ∧ (w_GE_2_1.ctx ↑3).st = CtxState.placed ∧
      (w_GE_2_1.ctx ↑3).prog = some boxProg ∧ (w_GE_2_1.ctx ↑3).run = none ∧
      (boxProg.refreshN = true → ∀ p ∈ (w_GE_2_1.ctx ↑3).held, (w_GE_2_1.pt p).classN = true) ∧
      (∀ p ∈ (w_GE_2_1.ctx ↑3).held, w_GE_2_1.bandOfPt p ≠ 3 ∧ p < 8) ∧ (ent 1 [(24, 8, 4)]).fld 24 8 ≠ 0 ∧
      (ent 1 [(24, 8, 4)]).fld 24 8 ≤ (w_GE_2_1.ctx ↑3).step) ∧
    (Shaped (engines 2 1 []) ∧ (engines 2 1 []).entryAt (↑3) (↑1) 0 2 = some (ent 2 []) ∧ ((engines 2 1 []).ctx ↑3).run = none) ∧
    (Shaped stopWaits ∧ stopWaits.entryAt (↑3) (↑1) 0 2 = some (ent 2 []) ∧ (stopWaits.ctx ↑3).run ≠ none ∧
      (↑1, 0) ∉ (stopWaits.ctx ↑3).stops) := by
  unfold Shaped
  refine ⟨?_, ?_, ?_, ?_⟩ <;> decide +kernel
theorem witness_GraphEngine_2 :
    (Shaped recState ∧ recState.entryAt (↑3) (↑0) 0 3 = some (ent 3 [(24, 4, 4), (28, 1, 1)]) ∧
      (ent 3 [(24, 4, 4), (28, 1, 1)]).fld 28 1 ≤ 1 ∧ (recState.ctx ↑3).prog = some recProg ∧ (recState.ctx ↑3).run = none ∧
      (∀ (t : ℕ), (recState.ctx ↑3).lastReconfig = some t → t + 1024 ≤ recState.clk.life) ∧
      (List.find? (fun x ↦ decide (x.1 = (ent 3 [(24, 4, 4), (28, 1, 1)]).fld 24 4)) recProg.reconfig = some (4, [])) ∧
      (ent 3 [(24, 4, 4), (28, 1, 1)]).fld 28 1 ≠ 0) := by
  unfold Shaped
  decide +kernel
/-! ### Moves -/

def w_Mv_1_2 : State := engines 0x10 4 [(0x18, 1, 1), (0x19, 1, 1), (0x20, 8, 1000), (0x28, 8, 100), (0x30, 8, 64)]
def w_Mv_1r_2 : State := reelOn (engines 0x10 4 [(0x18, 1, 1), (0x19, 1, 3), (0x28, 8, 2 ^ 60), (0x30, 8, 4096)])
def w_Mv_2_2 : State := engines 0x10 4 [(0x18, 1, 0), (0x19, 1, 1), (0x28, 8, 100), (0x30, 8, 64)]
def w_Mv_3_2 : State := engines 0x10 4 [(0x18, 1, 1), (0x20, 8, 100), (0x30, 8, 64)]
def w_Mv_3c_2 : State := engines 0x10 4 [(0x18, 1, 1), (0x20, 8, 100), (0x30, 8, 64)]
def w_Mv_4_2 : State := reelOn (engines 0x10 4 [(0x18, 1, 3), (0x20, 8, 2 ^ 60), (0x30, 8, 4096)])
def w_Mv_5_2 : State := engines 0x11 4 [(0x28, 8, 64), (0x30, 8, 64)]
def w_Mv_6_2 : State := withEnts placed 4 [{ ent 0x11 [(0x30, 8, 64)] with marks := [(0, false)] }]
def w_Mv_6_6 : Entry := { ent 0x11 [(0x30, 8, 64)] with marks := [(0, false)] }
def w_Mv_7_2 : State := engines 0x12 4 [(0x18, 8, 0x0102030405060708), (0x20, 1, 1), (0x28, 8, 96), (0x30, 8, 16)]
def w_Mv_8_2 : State := engines 0x12 4 [(0x18, 8, 0x0102030405060708), (0x28, 8, 96), (0x30, 8, 16)]
theorem witness_Moves_1 :
    (Shaped w_Mv_1_2 ∧
      w_Mv_1_2.entryAt (↑3) (qix 1 ↑0) 0 16 = some (ent 16 [(24, 1, 1), (25, 1, 1), (32, 8, 1000), (40, 8, 100), (48, 8, 64)]) ∧
      lenBad ((ent 16 [(24, 1, 1), (25, 1, 1), (32, 8, 1000), (40, 8, 100), (48, 8, 64)]).fld 48 8) = false ∧
      w_Mv_1_2.locInvalid (↑3) ((ent 16 [(24, 1, 1), (25, 1, 1), (32, 8, 1000), (40, 8, 100), (48, 8, 64)]).fld 24 1) ((ent 16 [(24, 1, 1), (25, 1, 1), (32, 8, 1000), (40, 8, 100), (48, 8, 64)]).fld 32 8) ((ent 16 [(24, 1, 1), (25, 1, 1), (32, 8, 1000), (40, 8, 100), (48, 8, 64)]).fld 48 8) = false ∧
      w_Mv_1_2.locInvalid (↑3) ((ent 16 [(24, 1, 1), (25, 1, 1), (32, 8, 1000), (40, 8, 100), (48, 8, 64)]).fld 25 1) ((ent 16 [(24, 1, 1), (25, 1, 1), (32, 8, 1000), (40, 8, 100), (48, 8, 64)]).fld 40 8) ((ent 16 [(24, 1, 1), (25, 1, 1), (32, 8, 1000), (40, 8, 100), (48, 8, 64)]).fld 48 8) = false ∧
      w_Mv_1_2.needsCover (↑3) (ent 16 [(24, 1, 1), (25, 1, 1), (32, 8, 1000), (40, 8, 100), (48, 8, 64)]) = false ∧
      w_Mv_1_2.locConflict (↑3) ((ent 16 [(24, 1, 1), (25, 1, 1), (32, 8, 1000), (40, 8, 100), (48, 8, 64)]).fld 24 1) ((ent 16 [(24, 1, 1), (25, 1, 1), (32, 8, 1000), (40, 8, 100), (48, 8, 64)]).fld 32 8) ((ent 16 [(24, 1, 1), (25, 1, 1), (32, 8, 1000), (40, 8, 100), (48, 8, 64)]).fld 48 8) false = none ∧
      w_Mv_1_2.locConflict (↑3) ((ent 16 [(24, 1, 1), (25, 1, 1), (32, 8, 1000), (40, 8, 100), (48, 8, 64)]).fld 25 1) ((ent 16 [(24, 1, 1), (25, 1, 1), (32, 8, 1000), (40, 8, 100), (48, 8, 64)]).fld 40 8) ((ent 16 [(24, 1, 1), (25, 1, 1), (32, 8, 1000), (40, 8, 100), (48, 8, 64)]).fld 48 8) true = none ∧
      (↑3, qix 1 ↑0, 0) ∉ w_Mv_1_2.reel.access ∧
      (ent 16 [(24, 1, 1), (25, 1, 1), (32, 8, 1000), (40, 8, 100), (48, 8, 64)]).cover ≤ (w_Mv_1_2.ctx ↑3).step ∧
      w_Mv_1_2.locWaits (↑3) ((ent 16 [(24, 1, 1), (25, 1, 1), (32, 8, 1000), (40, 8, 100), (48, 8, 64)]).fld 24 1) ((ent 16 [(24, 1, 1), (25, 1, 1), (32, 8, 1000), (40, 8, 100), (48, 8, 64)]).fld 32 8) ((ent 16 [(24, 1, 1), (25, 1, 1), (32, 8, 1000), (40, 8, 100), (48, 8, 64)]).fld 48 8) = false ∧
      w_Mv_1_2.locWaits (↑3) ((ent 16 [(24, 1, 1), (25, 1, 1), (32, 8, 1000), (40, 8, 100), (48, 8, 64)]).fld 25 1) ((ent 16 [(24, 1, 1), (25, 1, 1), (32, 8, 1000), (40, 8, 100), (48, 8, 64)]).fld 40 8) ((ent 16 [(24, 1, 1), (25, 1, 1), (32, 8, 1000), (40, 8, 100), (48, 8, 64)]).fld 48 8) = false ∧
      (ent 16 [(24, 1, 1), (25, 1, 1), (32, 8, 1000), (40, 8, 100), (48, 8, 64)]).fld 24 1 ≠ 0 ∧
      (ent 16 [(24, 1, 1), (25, 1, 1), (32, 8, 1000), (40, 8, 100), (48, 8, 64)]).fld 24 1 ≠ 3 ∧
      (ent 16 [(24, 1, 1), (25, 1, 1), (32, 8, 1000), (40, 8, 100), (48, 8, 64)]).fld 25 1 ≠ 3) ∧
    (Shaped w_Mv_1r_2 ∧
      w_Mv_1r_2.entryAt (↑3) (qix 1 ↑0) 0 16 = some (ent 16 [(24, 1, 1), (25, 1, 3), (40, 8, 2 ^ 60), (48, 8, 4096)]) ∧
      lenBad ((ent 16 [(24, 1, 1), (25, 1, 3), (40, 8, 2 ^ 60), (48, 8, 4096)]).fld 48 8) = false ∧
      w_Mv_1r_2.locInvalid (↑3) ((ent 16 [(24, 1, 1), (25, 1, 3), (40, 8, 2 ^ 60), (48, 8, 4096)]).fld 24 1) ((ent 16 [(24, 1, 1), (25, 1, 3), (40, 8, 2 ^ 60), (48, 8, 4096)]).fld 32 8) ((ent 16 [(24, 1, 1), (25, 1, 3), (40, 8, 2 ^ 60), (48, 8, 4096)]).fld 48 8) = false ∧
      w_Mv_1r_2.locInvalid (↑3) ((ent 16 [(24, 1, 1), (25, 1, 3), (40, 8, 2 ^ 60), (48, 8, 4096)]).fld 25 1) ((ent 16 [(24, 1, 1), (25, 1, 3), (40, 8, 2 ^ 60), (48, 8, 4096)]).fld 40 8) ((ent 16 [(24, 1, 1), (25, 1, 3), (40, 8, 2 ^ 60), (48, 8, 4096)]).fld 48 8) = false ∧
      w_Mv_1r_2.needsCover (↑3) (ent 16 [(24, 1, 1), (25, 1, 3), (40, 8, 2 ^ 60), (48, 8, 4096)]) = false ∧
      w_Mv_1r_2.locConflict (↑3) ((ent 16 [(24, 1, 1), (25, 1, 3), (40, 8, 2 ^ 60), (48, 8, 4096)]).fld 24 1) ((ent 16 [(24, 1, 1), (25, 1, 3), (40, 8, 2 ^ 60), (48, 8, 4096)]).fld 32 8) ((ent 16 [(24, 1, 1), (25, 1, 3), (40, 8, 2 ^ 60), (48, 8, 4096)]).fld 48 8) false = none ∧
      w_Mv_1r_2.locConflict (↑3) ((ent 16 [(24, 1, 1), (25, 1, 3), (40, 8, 2 ^ 60), (48, 8, 4096)]).fld 25 1) ((ent 16 [(24, 1, 1), (25, 1, 3), (40, 8, 2 ^ 60), (48, 8, 4096)]).fld 40 8) ((ent 16 [(24, 1, 1), (25, 1, 3), (40, 8, 2 ^ 60), (48, 8, 4096)]).fld 48 8) true = none ∧
      (↑3, qix 1 ↑0, 0) ∉ w_Mv_1r_2.reel.access ∧
      (ent 16 [(24, 1, 1), (25, 1, 3), (40, 8, 2 ^ 60), (48, 8, 4096)]).cover ≤ (w_Mv_1r_2.ctx ↑3).step ∧
      w_Mv_1r_2.locWaits (↑3) ((ent 16 [(24, 1, 1), (25, 1, 3), (40, 8, 2 ^ 60), (48, 8, 4096)]).fld 24 1) ((ent 16 [(24, 1, 1), (25, 1, 3), (40, 8, 2 ^ 60), (48, 8, 4096)]).fld 32 8) ((ent 16 [(24, 1, 1), (25, 1, 3), (40, 8, 2 ^ 60), (48, 8, 4096)]).fld 48 8) = false ∧
      w_Mv_1r_2.locWaits (↑3) ((ent 16 [(24, 1, 1), (25, 1, 3), (40, 8, 2 ^ 60), (48, 8, 4096)]).fld 25 1) ((ent 16 [(24, 1, 1), (25, 1, 3), (40, 8, 2 ^ 60), (48, 8, 4096)]).fld 40 8) ((ent 16 [(24, 1, 1), (25, 1, 3), (40, 8, 2 ^ 60), (48, 8, 4096)]).fld 48 8) = false ∧
      (ent 16 [(24, 1, 1), (25, 1, 3), (40, 8, 2 ^ 60), (48, 8, 4096)]).fld 24 1 ≠ 0 ∧
      (ent 16 [(24, 1, 1), (25, 1, 3), (40, 8, 2 ^ 60), (48, 8, 4096)]).fld 25 1 = 3 ∧
      ((w_Mv_1r_2.decay []).moveData (↑3) (ent 16 [(24, 1, 1), (25, 1, 3), (40, 8, 2 ^ 60), (48, 8, 4096)]) []).1.status = ok) := by
  unfold Shaped
  refine ⟨?_, ?_⟩ <;> decide +kernel
theorem witness_Moves_2 :
    (Shaped w_Mv_2_2 ∧ w_Mv_2_2.entryAt (↑3) (qix 1 ↑0) 0 16 = some (ent 16 [(24, 1, 0), (25, 1, 1), (40, 8, 100), (48, 8, 64)]) ∧
      lenBad ((ent 16 [(24, 1, 0), (25, 1, 1), (40, 8, 100), (48, 8, 64)]).fld 48 8) = false ∧
      w_Mv_2_2.locInvalid (↑3) ((ent 16 [(24, 1, 0), (25, 1, 1), (40, 8, 100), (48, 8, 64)]).fld 24 1) ((ent 16 [(24, 1, 0), (25, 1, 1), (40, 8, 100), (48, 8, 64)]).fld 32 8) ((ent 16 [(24, 1, 0), (25, 1, 1), (40, 8, 100), (48, 8, 64)]).fld 48 8) = false ∧
      w_Mv_2_2.locInvalid (↑3) ((ent 16 [(24, 1, 0), (25, 1, 1), (40, 8, 100), (48, 8, 64)]).fld 25 1) ((ent 16 [(24, 1, 0), (25, 1, 1), (40, 8, 100), (48, 8, 64)]).fld 40 8) ((ent 16 [(24, 1, 0), (25, 1, 1), (40, 8, 100), (48, 8, 64)]).fld 48 8) = false ∧
      w_Mv_2_2.needsCover (↑3) (ent 16 [(24, 1, 0), (25, 1, 1), (40, 8, 100), (48, 8, 64)]) = false ∧
      w_Mv_2_2.locConflict (↑3) ((ent 16 [(24, 1, 0), (25, 1, 1), (40, 8, 100), (48, 8, 64)]).fld 24 1) ((ent 16 [(24, 1, 0), (25, 1, 1), (40, 8, 100), (48, 8, 64)]).fld 32 8) ((ent 16 [(24, 1, 0), (25, 1, 1), (40, 8, 100), (48, 8, 64)]).fld 48 8) false = none ∧
      w_Mv_2_2.locConflict (↑3) ((ent 16 [(24, 1, 0), (25, 1, 1), (40, 8, 100), (48, 8, 64)]).fld 25 1) ((ent 16 [(24, 1, 0), (25, 1, 1), (40, 8, 100), (48, 8, 64)]).fld 40 8) ((ent 16 [(24, 1, 0), (25, 1, 1), (40, 8, 100), (48, 8, 64)]).fld 48 8) true = none ∧
      (↑3, qix 1 ↑0, 0) ∉ w_Mv_2_2.reel.access ∧
      (ent 16 [(24, 1, 0), (25, 1, 1), (40, 8, 100), (48, 8, 64)]).cover ≤ (w_Mv_2_2.ctx ↑3).step ∧
      w_Mv_2_2.locWaits (↑3) ((ent 16 [(24, 1, 0), (25, 1, 1), (40, 8, 100), (48, 8, 64)]).fld 24 1) ((ent 16 [(24, 1, 0), (25, 1, 1), (40, 8, 100), (48, 8, 64)]).fld 32 8) ((ent 16 [(24, 1, 0), (25, 1, 1), (40, 8, 100), (48, 8, 64)]).fld 48 8) = false ∧
      w_Mv_2_2.locWaits (↑3) ((ent 16 [(24, 1, 0), (25, 1, 1), (40, 8, 100), (48, 8, 64)]).fld 25 1) ((ent 16 [(24, 1, 0), (25, 1, 1), (40, 8, 100), (48, 8, 64)]).fld 40 8) ((ent 16 [(24, 1, 0), (25, 1, 1), (40, 8, 100), (48, 8, 64)]).fld 48 8) = false ∧
      ((ent 16 [(24, 1, 0), (25, 1, 1), (40, 8, 100), (48, 8, 64)]).fld 24 1 = 0 → ReadResult.data hostData = ReadResult.data hostData ∧ hostData.length = (ent 16 [(24, 1, 0), (25, 1, 1), (40, 8, 100), (48, 8, 64)]).fld 48 8) ∧
      ((ent 16 [(24, 1, 0), (25, 1, 1), (40, 8, 100), (48, 8, 64)]).fld 24 1 ≠ 0 → hostData = []) ∧
      (ent 16 [(24, 1, 0), (25, 1, 1), (40, 8, 100), (48, 8, 64)]).fld 24 1 = 0 ∧
      (ent 16 [(24, 1, 0), (25, 1, 1), (40, 8, 100), (48, 8, 64)]).fld 25 1 = 1 ∧ (w_Mv_2_2.ctx ↑3).alloc = some alloc1 ∧
      w_Mv_2_2.dram.wf = true) := by
  unfold Shaped
  decide +kernel
theorem witness_Moves_3 :
    (Shaped w_Mv_3_2 ∧ w_Mv_3_2.entryAt (↑3) (qix 1 ↑0) 0 16 = some (ent 16 [(24, 1, 1), (32, 8, 100), (48, 8, 64)]) ∧
      lenBad ((ent 16 [(24, 1, 1), (32, 8, 100), (48, 8, 64)]).fld 48 8) = false ∧
      w_Mv_3_2.locInvalid (↑3) ((ent 16 [(24, 1, 1), (32, 8, 100), (48, 8, 64)]).fld 24 1) ((ent 16 [(24, 1, 1), (32, 8, 100), (48, 8, 64)]).fld 32 8) ((ent 16 [(24, 1, 1), (32, 8, 100), (48, 8, 64)]).fld 48 8) = false ∧
      w_Mv_3_2.locInvalid (↑3) ((ent 16 [(24, 1, 1), (32, 8, 100), (48, 8, 64)]).fld 25 1) ((ent 16 [(24, 1, 1), (32, 8, 100), (48, 8, 64)]).fld 40 8) ((ent 16 [(24, 1, 1), (32, 8, 100), (48, 8, 64)]).fld 48 8) = false ∧
      w_Mv_3_2.needsCover (↑3) (ent 16 [(24, 1, 1), (32, 8, 100), (48, 8, 64)]) = false ∧
      w_Mv_3_2.locConflict (↑3) ((ent 16 [(24, 1, 1), (32, 8, 100), (48, 8, 64)]).fld 24 1) ((ent 16 [(24, 1, 1), (32, 8, 100), (48, 8, 64)]).fld 32 8) ((ent 16 [(24, 1, 1), (32, 8, 100), (48, 8, 64)]).fld 48 8) false = none ∧
      w_Mv_3_2.locConflict (↑3) ((ent 16 [(24, 1, 1), (32, 8, 100), (48, 8, 64)]).fld 25 1) ((ent 16 [(24, 1, 1), (32, 8, 100), (48, 8, 64)]).fld 40 8) ((ent 16 [(24, 1, 1), (32, 8, 100), (48, 8, 64)]).fld 48 8) true = none ∧
      (↑3, qix 1 ↑0, 0) ∉ w_Mv_3_2.reel.access ∧ (ent 16 [(24, 1, 1), (32, 8, 100), (48, 8, 64)]).cover ≤ (w_Mv_3_2.ctx ↑3).step ∧
      w_Mv_3_2.locWaits (↑3) ((ent 16 [(24, 1, 1), (32, 8, 100), (48, 8, 64)]).fld 24 1) ((ent 16 [(24, 1, 1), (32, 8, 100), (48, 8, 64)]).fld 32 8) ((ent 16 [(24, 1, 1), (32, 8, 100), (48, 8, 64)]).fld 48 8) = false ∧
      w_Mv_3_2.locWaits (↑3) ((ent 16 [(24, 1, 1), (32, 8, 100), (48, 8, 64)]).fld 25 1) ((ent 16 [(24, 1, 1), (32, 8, 100), (48, 8, 64)]).fld 40 8) ((ent 16 [(24, 1, 1), (32, 8, 100), (48, 8, 64)]).fld 48 8) = false ∧
      (ent 16 [(24, 1, 1), (32, 8, 100), (48, 8, 64)]).fld 24 1 ≠ 0 ∧ (ent 16 [(24, 1, 1), (32, 8, 100), (48, 8, 64)]).fld 24 1 = 1 ∧
      (ent 16 [(24, 1, 1), (32, 8, 100), (48, 8, 64)]).fld 25 1 = 0 ∧
      (∃ x ∈ (w_Mv_3_2.decay [flip1 16777215]).rangeErrs (↑3) ((ent 16 [(24, 1, 1), (32, 8, 100), (48, 8, 64)]).fld 32 8) ((ent 16 [(24, 1, 1), (32, 8, 100), (48, 8, 64)]).fld 48 8), x.2.2 ≠ Ecc.corrected) ∧
      (∀ z ∈ (w_Mv_3_2.ctx ↑3).stops, z.1 < 4) ∧ (∀ (r : RunRec), (w_Mv_3_2.ctx ↑3).run = some r → r.q < 4)) := by
  unfold Shaped
  decide +kernel
theorem witness_Moves_4 :
    (Shaped w_Mv_3c_2 ∧ w_Mv_3c_2.entryAt (↑3) (qix 1 ↑0) 0 16 = some (ent 16 [(24, 1, 1), (32, 8, 100), (48, 8, 64)]) ∧
      lenBad ((ent 16 [(24, 1, 1), (32, 8, 100), (48, 8, 64)]).fld 48 8) = false ∧
      w_Mv_3c_2.locInvalid (↑3) ((ent 16 [(24, 1, 1), (32, 8, 100), (48, 8, 64)]).fld 24 1) ((ent 16 [(24, 1, 1), (32, 8, 100), (48, 8, 64)]).fld 32 8) ((ent 16 [(24, 1, 1), (32, 8, 100), (48, 8, 64)]).fld 48 8) = false ∧
      w_Mv_3c_2.locInvalid (↑3) ((ent 16 [(24, 1, 1), (32, 8, 100), (48, 8, 64)]).fld 25 1) ((ent 16 [(24, 1, 1), (32, 8, 100), (48, 8, 64)]).fld 40 8) ((ent 16 [(24, 1, 1), (32, 8, 100), (48, 8, 64)]).fld 48 8) = false ∧
      w_Mv_3c_2.needsCover (↑3) (ent 16 [(24, 1, 1), (32, 8, 100), (48, 8, 64)]) = false ∧
      w_Mv_3c_2.locConflict (↑3) ((ent 16 [(24, 1, 1), (32, 8, 100), (48, 8, 64)]).fld 24 1) ((ent 16 [(24, 1, 1), (32, 8, 100), (48, 8, 64)]).fld 32 8) ((ent 16 [(24, 1, 1), (32, 8, 100), (48, 8, 64)]).fld 48 8) false = none ∧
      w_Mv_3c_2.locConflict (↑3) ((ent 16 [(24, 1, 1), (32, 8, 100), (48, 8, 64)]).fld 25 1) ((ent 16 [(24, 1, 1), (32, 8, 100), (48, 8, 64)]).fld 40 8) ((ent 16 [(24, 1, 1), (32, 8, 100), (48, 8, 64)]).fld 48 8) true = none ∧
      (↑3, qix 1 ↑0, 0) ∉ w_Mv_3c_2.reel.access ∧ (ent 16 [(24, 1, 1), (32, 8, 100), (48, 8, 64)]).cover ≤ (w_Mv_3c_2.ctx ↑3).step ∧
      w_Mv_3c_2.locWaits (↑3) ((ent 16 [(24, 1, 1), (32, 8, 100), (48, 8, 64)]).fld 24 1) ((ent 16 [(24, 1, 1), (32, 8, 100), (48, 8, 64)]).fld 32 8) ((ent 16 [(24, 1, 1), (32, 8, 100), (48, 8, 64)]).fld 48 8) = false ∧
      w_Mv_3c_2.locWaits (↑3) ((ent 16 [(24, 1, 1), (32, 8, 100), (48, 8, 64)]).fld 25 1) ((ent 16 [(24, 1, 1), (32, 8, 100), (48, 8, 64)]).fld 40 8) ((ent 16 [(24, 1, 1), (32, 8, 100), (48, 8, 64)]).fld 48 8) = false ∧
      (ent 16 [(24, 1, 1), (32, 8, 100), (48, 8, 64)]).fld 24 1 ≠ 0 ∧ (ent 16 [(24, 1, 1), (32, 8, 100), (48, 8, 64)]).fld 24 1 = 1 ∧
      (ent 16 [(24, 1, 1), (32, 8, 100), (48, 8, 64)]).fld 25 1 = 0 ∧
      (∀ x ∈ (w_Mv_3c_2.decay [flip1 1]).rangeErrs (↑3) ((ent 16 [(24, 1, 1), (32, 8, 100), (48, 8, 64)]).fld 32 8) ((ent 16 [(24, 1, 1), (32, 8, 100), (48, 8, 64)]).fld 48 8), x.2.2 = Ecc.corrected)) := by
  unfold Shaped
  decide +kernel
theorem witness_Moves_5 :
    (Shaped w_Mv_4_2 ∧ w_Mv_4_2.entryAt (↑3) (qix 1 ↑0) 0 16 = some (ent 16 [(24, 1, 3), (32, 8, 2 ^ 60), (48, 8, 4096)]) ∧
      lenBad ((ent 16 [(24, 1, 3), (32, 8, 2 ^ 60), (48, 8, 4096)]).fld 48 8) = false ∧
      w_Mv_4_2.locInvalid (↑3) ((ent 16 [(24, 1, 3), (32, 8, 2 ^ 60), (48, 8, 4096)]).fld 24 1) ((ent 16 [(24, 1, 3), (32, 8, 2 ^ 60), (48, 8, 4096)]).fld 32 8) ((ent 16 [(24, 1, 3), (32, 8, 2 ^ 60), (48, 8, 4096)]).fld 48 8) = false ∧
      w_Mv_4_2.locInvalid (↑3) ((ent 16 [(24, 1, 3), (32, 8, 2 ^ 60), (48, 8, 4096)]).fld 25 1) ((ent 16 [(24, 1, 3), (32, 8, 2 ^ 60), (48, 8, 4096)]).fld 40 8) ((ent 16 [(24, 1, 3), (32, 8, 2 ^ 60), (48, 8, 4096)]).fld 48 8) = false ∧
      w_Mv_4_2.needsCover (↑3) (ent 16 [(24, 1, 3), (32, 8, 2 ^ 60), (48, 8, 4096)]) = false ∧
      w_Mv_4_2.locConflict (↑3) ((ent 16 [(24, 1, 3), (32, 8, 2 ^ 60), (48, 8, 4096)]).fld 24 1) ((ent 16 [(24, 1, 3), (32, 8, 2 ^ 60), (48, 8, 4096)]).fld 32 8) ((ent 16 [(24, 1, 3), (32, 8, 2 ^ 60), (48, 8, 4096)]).fld 48 8) false = none ∧
      w_Mv_4_2.locConflict (↑3) ((ent 16 [(24, 1, 3), (32, 8, 2 ^ 60), (48, 8, 4096)]).fld 25 1) ((ent 16 [(24, 1, 3), (32, 8, 2 ^ 60), (48, 8, 4096)]).fld 40 8) ((ent 16 [(24, 1, 3), (32, 8, 2 ^ 60), (48, 8, 4096)]).fld 48 8) true = none ∧
      (↑3, qix 1 ↑0, 0) ∉ w_Mv_4_2.reel.access ∧
      (ent 16 [(24, 1, 3), (32, 8, 2 ^ 60), (48, 8, 4096)]).cover ≤ (w_Mv_4_2.ctx ↑3).step ∧
      w_Mv_4_2.locWaits (↑3) ((ent 16 [(24, 1, 3), (32, 8, 2 ^ 60), (48, 8, 4096)]).fld 24 1) ((ent 16 [(24, 1, 3), (32, 8, 2 ^ 60), (48, 8, 4096)]).fld 32 8) ((ent 16 [(24, 1, 3), (32, 8, 2 ^ 60), (48, 8, 4096)]).fld 48 8) = false ∧
      w_Mv_4_2.locWaits (↑3) ((ent 16 [(24, 1, 3), (32, 8, 2 ^ 60), (48, 8, 4096)]).fld 25 1) ((ent 16 [(24, 1, 3), (32, 8, 2 ^ 60), (48, 8, 4096)]).fld 40 8) ((ent 16 [(24, 1, 3), (32, 8, 2 ^ 60), (48, 8, 4096)]).fld 48 8) = false ∧
      (ent 16 [(24, 1, 3), (32, 8, 2 ^ 60), (48, 8, 4096)]).fld 24 1 ≠ 0 ∧
      (ent 16 [(24, 1, 3), (32, 8, 2 ^ 60), (48, 8, 4096)]).fld 24 1 = 3 ∧
      (ent 16 [(24, 1, 3), (32, 8, 2 ^ 60), (48, 8, 4096)]).fld 25 1 ≠ 3) ∧
    (Shaped w_Mv_5_2 ∧ (w_Mv_5_2.ctx ↑3).alloc = some alloc1 ∧ w_Mv_5_2.dram.wf = true ∧
      w_Mv_5_2.entryAt (↑3) (qix 1 ↑0) 0 17 = some (ent 17 [(40, 8, 64), (48, 8, 64)]) ∧
      lenBad ((ent 17 [(40, 8, 64), (48, 8, 64)]).fld 48 8) = false ∧
      w_Mv_5_2.locInvalid (↑3) 0 ((ent 17 [(40, 8, 64), (48, 8, 64)]).fld 32 8) ((ent 17 [(40, 8, 64), (48, 8, 64)]).fld 48 8) = false ∧
      w_Mv_5_2.locInvalid (↑3) 1 ((ent 17 [(40, 8, 64), (48, 8, 64)]).fld 40 8) ((ent 17 [(40, 8, 64), (48, 8, 64)]).fld 48 8) = false ∧
      w_Mv_5_2.locConflict (↑3) 1 ((ent 17 [(40, 8, 64), (48, 8, 64)]).fld 40 8) ((ent 17 [(40, 8, 64), (48, 8, 64)]).fld 48 8) true = none ∧
      (ent 17 [(40, 8, 64), (48, 8, 64)]).marks = [] ∧ w_Mv_5_2.host.busMaster = true ∧
      w_Mv_5_2.locWaits (↑3) 1 ((ent 17 [(40, 8, 64), (48, 8, 64)]).fld 40 8) ((ent 17 [(40, 8, 64), (48, 8, 64)]).fld 48 8) = false ∧
      (((w_Mv_5_2.queue (↑3) (qix 1 ↑0)).feedsBefore 0 fun z ↦ !z.marks.isEmpty) = true) ∧
      hostData.length = (ent 17 [(40, 8, 64), (48, 8, 64)]).fld 48 8) := by
  unfold Shaped
  refine ⟨?_, ?_⟩ <;> decide +kernel
theorem witness_Moves_6 :
    (Shaped w_Mv_6_2 ∧ (w_Mv_6_2.ctx ↑3).alloc = some alloc1 ∧ w_Mv_6_2.dram.wf = true ∧
      w_Mv_6_2.entryAt (↑3) (qix 1 ↑0) 0 17 = some w_Mv_6_6 ∧ w_Mv_6_6.marks = [(0, false)] ∧
      (((w_Mv_6_2.queue (↑3) (qix 1 ↑0)).feedsBefore 0 fun z ↦ z.marks.any fun x ↦ x.2) = true)) ∧
    (Shaped w_Mv_7_2 ∧ (w_Mv_7_2.ctx ↑3).alloc = some alloc1 ∧ w_Mv_7_2.dram.wf = true ∧
      w_Mv_7_2.entryAt (↑3) (qix 1 ↑0) 0 18 = some (ent 18 [(24, 8, 72623859790382856), (32, 1, 1), (40, 8, 96), (48, 8, 16)]) ∧
      lenBad ((ent 18 [(24, 8, 72623859790382856), (32, 1, 1), (40, 8, 96), (48, 8, 16)]).fld 48 8) = false ∧
      (ent 18 [(24, 8, 72623859790382856), (32, 1, 1), (40, 8, 96), (48, 8, 16)]).fld 48 8 % 8 = 0 ∧
      (ent 18 [(24, 8, 72623859790382856), (32, 1, 1), (40, 8, 96), (48, 8, 16)]).fld 32 1 = 1 ∧
      w_Mv_7_2.locInvalid (↑3) 1 ((ent 18 [(24, 8, 72623859790382856), (32, 1, 1), (40, 8, 96), (48, 8, 16)]).fld 40 8) ((ent 18 [(24, 8, 72623859790382856), (32, 1, 1), (40, 8, 96), (48, 8, 16)]).fld 48 8) = false ∧
      w_Mv_7_2.locConflict (↑3) 1 ((ent 18 [(24, 8, 72623859790382856), (32, 1, 1), (40, 8, 96), (48, 8, 16)]).fld 40 8) ((ent 18 [(24, 8, 72623859790382856), (32, 1, 1), (40, 8, 96), (48, 8, 16)]).fld 48 8) true = none ∧
      (↑3, qix 1 ↑0, 0) ∉ w_Mv_7_2.reel.access ∧
      w_Mv_7_2.locWaits (↑3) 1 ((ent 18 [(24, 8, 72623859790382856), (32, 1, 1), (40, 8, 96), (48, 8, 16)]).fld 40 8) ((ent 18 [(24, 8, 72623859790382856), (32, 1, 1), (40, 8, 96), (48, 8, 16)]).fld 48 8) = false) ∧
    (Shaped w_Mv_8_2 ∧ (w_Mv_8_2.ctx ↑3).alloc = some alloc1 ∧ w_Mv_8_2.dram.wf = true ∧
      w_Mv_8_2.entryAt (↑3) (qix 1 ↑0) 0 18 = some (ent 18 [(24, 8, 72623859790382856), (40, 8, 96), (48, 8, 16)]) ∧
      lenBad ((ent 18 [(24, 8, 72623859790382856), (40, 8, 96), (48, 8, 16)]).fld 48 8) = false ∧
      (ent 18 [(24, 8, 72623859790382856), (40, 8, 96), (48, 8, 16)]).fld 48 8 % 8 = 0 ∧
      (ent 18 [(24, 8, 72623859790382856), (40, 8, 96), (48, 8, 16)]).fld 32 1 ≠ 3 ∧
      w_Mv_8_2.locInvalid (↑3) ((ent 18 [(24, 8, 72623859790382856), (40, 8, 96), (48, 8, 16)]).fld 32 1) ((ent 18 [(24, 8, 72623859790382856), (40, 8, 96), (48, 8, 16)]).fld 40 8) ((ent 18 [(24, 8, 72623859790382856), (40, 8, 96), (48, 8, 16)]).fld 48 8) = false ∧
      w_Mv_8_2.locConflict (↑3) ((ent 18 [(24, 8, 72623859790382856), (40, 8, 96), (48, 8, 16)]).fld 32 1) ((ent 18 [(24, 8, 72623859790382856), (40, 8, 96), (48, 8, 16)]).fld 40 8) ((ent 18 [(24, 8, 72623859790382856), (40, 8, 96), (48, 8, 16)]).fld 48 8) true = none ∧
      (↑3, qix 1 ↑0, 0) ∉ w_Mv_8_2.reel.access ∧
      w_Mv_8_2.locWaits (↑3) ((ent 18 [(24, 8, 72623859790382856), (40, 8, 96), (48, 8, 16)]).fld 32 1) ((ent 18 [(24, 8, 72623859790382856), (40, 8, 96), (48, 8, 16)]).fld 40 8) ((ent 18 [(24, 8, 72623859790382856), (40, 8, 96), (48, 8, 16)]).fld 48 8) = false) := by
  unfold Shaped
  refine ⟨?_, ?_, ?_⟩ <;> decide +kernel
/-! ### RingsAndSend -/

def w_RS_1_1 : State := pooled (engines 0x13 4 (bindF 1))
def w_RS_3_1 : State := { withEnts placed 4 [ent 0x14 [(0x18, 4, ctxH), (0x1C, 1, 4)]] with ends := [{ ring0 with role := 4 }] }
def w_RS_4_1 : State := withRing (withEnts placed 4 [ent 0x14 [(0x18, 4, ctxH)]])
theorem witness_RingsAndSend_1 :
    ((Shaped w_RS_1_1 ∧ w_RS_1_1.entryAt (↑3) (qix 1 ↑0) 0 19 = some (bindE 1) ∧ w_RS_1_1.bindBad (bindE 1) = none ∧
      w_RS_1_1.unitOf ((bindE 1).fld 24 4) = some (UnitRef.ctx 3) ∧ w_RS_1_1.mayBind (↑3) (UnitRef.ctx 3) = true ∧
      (∀ y ∈ w_RS_1_1.ends, y.handle = (bindE 1).fld 24 4 → y.role ≠ (bindE 1).fld 28 1) ∧
      bindEnd 1 = { handle := (bindE 1).fld 24 4, role := (bindE 1).fld 28 1, ctx := ↑3, inPool := decide ((bindE 1).fld 29 1 = 1), acceptAll := decide ((bindE 1).fld 30 1 = 1), vector := (bindE 1).fld 31 1, base := (bindE 1).fld 32 8, ctl := (bindE 1).fld 40 8, cells := (bindE 1).fld 48 4, out := (bindE 1).fld 52 1, bounce := (bindE 1).fld 56 8 } ∧
      (bindEnd 1).inPool = true ∧ w_RS_1_1.poolDown = false ∧ w_RS_1_1.pool.wf = true) ∧
      ((bindE 1).fld 28 1 ≠ 0 → ∃ d, UnitRef.ctx 3 = UnitRef.ctx d)) ∧
    ((Shaped (engines 19 4 (bindF 0)) ∧ (engines 19 4 (bindF 0)).entryAt (↑3) (qix 1 ↑0) 0 19 = some (bindE 0) ∧
      (engines 19 4 (bindF 0)).bindBad (bindE 0) = none ∧
      (engines 19 4 (bindF 0)).unitOf ((bindE 0).fld 24 4) = some (UnitRef.ctx 3) ∧
      (engines 19 4 (bindF 0)).mayBind (↑3) (UnitRef.ctx 3) = true ∧
      (∀ y ∈ (engines 19 4 (bindF 0)).ends, y.handle = (bindE 0).fld 24 4 → y.role ≠ (bindE 0).fld 28 1) ∧
      bindEnd 0 = { handle := (bindE 0).fld 24 4, role := (bindE 0).fld 28 1, ctx := ↑3, inPool := decide ((bindE 0).fld 29 1 = 1), acceptAll := decide ((bindE 0).fld 30 1 = 1), vector := (bindE 0).fld 31 1, base := (bindE 0).fld 32 8, ctl := (bindE 0).fld 40 8, cells := (bindE 0).fld 48 4, out := (bindE 0).fld 52 1, bounce := (bindE 0).fld 56 8 } ∧
      (bindEnd 0).inPool = false ∧ (engines 19 4 (bindF 0)).host.busMaster = true) ∧
      ((bindE 0).fld 28 1 ≠ 0 → ∃ d, UnitRef.ctx 3 = UnitRef.ctx d)) ∧
    (Shaped w_RS_3_1 ∧ w_RS_3_1.entryAt (↑3) (qix 1 ↑0) 0 20 = some (ent 20 [(24, 4, ctxH), (28, 1, 4)]) ∧
      (ent 20 [(24, 4, ctxH), (28, 1, 4)]).fld 28 1 ≠ 0 ∧ (ent 20 [(24, 4, ctxH), (28, 1, 4)]).fld 28 1 ≤ 4 ∧
      (∃ x ∈ w_RS_3_1.ends, x.handle = (ent 20 [(24, 4, ctxH), (28, 1, 4)]).fld 24 4 ∧ x.role = (ent 20 [(24, 4, ctxH), (28, 1, 4)]).fld 28 1 ∧ x.ctx = ↑3)) := by
  unfold Shaped
  exact ⟨⟨by decide +kernel, fun _ => ⟨3, rfl⟩⟩, ⟨by decide +kernel, fun _ => ⟨3, rfl⟩⟩, by decide +kernel⟩
theorem witness_RingsAndSend_2 :
    (Shaped w_RS_4_1 ∧ w_RS_4_1.entryAt (↑3) (qix 1 ↑0) 0 20 = some (ent 20 [(24, 4, ctxH)]) ∧
      (ent 20 [(24, 4, ctxH)]).fld 28 1 = 0 ∧
      (∃ x ∈ w_RS_4_1.ends, x.handle = (ent 20 [(24, 4, ctxH)]).fld 24 4 ∧ x.role = 0 ∧ x.ctx = ↑3) ∧
      (∀ j ∈ rangeFrom 4 4, ∀ z ∈ (w_RS_4_1.queue (↑3) j).ents, z.opcode = 21 → z.started = true → z.outcome = none → z.fld 24 4 ≠ (ent 20 [(24, 4, ctxH)]).fld 24 4)) ∧
    ((Shaped sending ∧ sending.entryAt (↑3) (qix 1 ↑0) 0 21 = some sendE ∧ sendE.fld 36 2 ≤ 496 ∧
      sending.senderOf (↑3) (sendE.fld 24 4) = some ring0 ∧ sending.unitOf (sendE.fld 28 4) = some (UnitRef.ctx 3) ∧
      1 ≤ sendE.targets.length ∧ sendE.targets.length ≤ 64 ∧ sendE.targets.length ≤ ring0.out ∧ sendE.marks = [] ∧
      (0 < sendE.fld 36 2 → sending.host.busMaster = true) ∧
      ((sending.earlier (↑3) sendE 21 fun z ↦ decide (z.fld 24 4 = sendE.fld 24 4)) = false) ∧ hostData.length = sendE.fld 36 2) ∧
      (∀ (k : ℕ), UnitRef.ctx 3 ≠ UnitRef.job k)) := by
  unfold Shaped
  exact ⟨by decide +kernel, ⟨by decide +kernel, fun _ h => nomatch h⟩⟩
/-! ### Requests -/

def w_Rq_1_1 : State := reqS 1 [(0x28, 4, 16), (0x18, 1, 3), (0x19, 1, 3)] false
def w_Rq_1_2 : State := (reqS 1 [(0x28, 4, 16), (0x18, 1, 3), (0x19, 1, 3)] false).lookup 5 |>.getD up
def w_Rq_2_1 : State := reqS 0 [(0x28, 4, 64), (0x18, 1, 3), (0x19, 1, 1)] true
def w_Rq_2_2 : State := (reqS 0 [(0x28, 4, 64), (0x18, 1, 3), (0x19, 1, 1)] true).lookup 5 |>.getD up
def w_Rq_3_2 : State := (reqS 2 [] true).lookup 5 |>.getD up
def w_Rq_4_1 : State := reqS 3 [(0x20, 8, 4096), (0x28, 4, 64)] true
def w_Rq_4_2 : State := (reqS 3 [(0x20, 8, 4096), (0x28, 4, 64)] true).lookup 5 |>.getD up
theorem witness_Requests_1 :
    (Shaped w_Rq_1_1 ∧ w_Rq_1_1.lookup ((req 1 [(40, 4, 16), (24, 1, 3), (25, 1, 3)]).fld 28 4) = some w_Rq_1_2 ∧
      w_Rq_1_1.requestAt (↑3) (qix 1 ↑0) 0 1 = some (req 1 [(40, 4, 16), (24, 1, 3), (25, 1, 3)]) ∧
      (req 1 [(40, 4, 16), (24, 1, 3), (25, 1, 3)]).fld 40 4 = 16 ∧ (req 1 [(40, 4, 16), (24, 1, 3), (25, 1, 3)]).fld 24 1 ≤ 63 ∧
      (req 1 [(40, 4, 16), (24, 1, 3), (25, 1, 3)]).fld 25 1 ≤ 3 ∧ w_Rq_1_1.host.busMaster = true ∧
      (w_Rq_1_1.session ((req 1 [(40, 4, 16), (24, 1, 3), (25, 1, 3)]).fld 28 4)).isOpen = false ∧
      (w_Rq_1_1.ctx ((req 1 [(40, 4, 16), (24, 1, 3), (25, 1, 3)]).fld 24 1)).st ≠ CtxState.free ∧ (zeros 16).length = 16) ∧
    (Shaped w_Rq_2_1 ∧ w_Rq_2_1.lookup ((req 0 [(40, 4, 64), (24, 1, 3), (25, 1, 1)]).fld 28 4) = some w_Rq_2_2 ∧
      w_Rq_2_1.requestAt (↑3) (qix 1 ↑0) 0 0 = some (req 0 [(40, 4, 64), (24, 1, 3), (25, 1, 1)]) ∧
      (req 0 [(40, 4, 64), (24, 1, 3), (25, 1, 1)]).fld 40 4 ≤ 464 ∧ (req 0 [(40, 4, 64), (24, 1, 3), (25, 1, 1)]).marks = [] ∧
      (0 < (req 0 [(40, 4, 64), (24, 1, 3), (25, 1, 1)]).fld 40 4 → w_Rq_2_1.host.busMaster = true) ∧
      ((w_Rq_2_1.earlier (↑3) (req 0 [(40, 4, 64), (24, 1, 3), (25, 1, 1)]) 22 fun z ↦ decide (z.fld 26 1 % 4 = 0) && decide (z.fld 28 4 = (req 0 [(40, 4, 64), (24, 1, 3), (25, 1, 1)]).fld 28 4)) = false) ∧
      (w_Rq_2_1.session ((req 0 [(40, 4, 64), (24, 1, 3), (25, 1, 1)]).fld 28 4)).isOpen = true ∧
      (w_Rq_2_1.session ((req 0 [(40, 4, 64), (24, 1, 3), (25, 1, 1)]).fld 28 4)).owner = ↑3 ∧
      (req 0 [(40, 4, 64), (24, 1, 3), (25, 1, 1)]).fld 24 1 = (w_Rq_2_1.session ((req 0 [(40, 4, 64), (24, 1, 3), (25, 1, 1)]).fld 28 4)).ctx ∧
      (req 0 [(40, 4, 64), (24, 1, 3), (25, 1, 1)]).fld 25 1 = (w_Rq_2_1.session ((req 0 [(40, 4, 64), (24, 1, 3), (25, 1, 1)]).fld 28 4)).engine ∧
      hostData.length = (req 0 [(40, 4, 64), (24, 1, 3), (25, 1, 1)]).fld 40 4) ∧
    (Shaped (reqS 2 [] true) ∧ (reqS 2 [] true).lookup ((req 2 []).fld 28 4) = some w_Rq_3_2 ∧
      (reqS 2 [] true).requestAt (↑3) (qix 1 ↑0) 0 2 = some (req 2 []) ∧ destBad (req 2 []) = none ∧
      ((reqS 2 [] true).session ((req 2 []).fld 28 4)).isOpen = true ∧ ((reqS 2 [] true).session ((req 2 []).fld 28 4)).owner = ↑3 ∧
      (∀ m ∈ (reqS 2 [] true).copies, m.session ≠ some ((req 2 []).fld 28 4)) ∧
      (((reqS 2 [] true).earlier (↑3) (req 2 []) 22 fun z ↦ decide (z.fld 26 1 % 4 = 0) && decide (z.fld 28 4 = (req 2 []).fld 28 4)) = false)) := by
  unfold Shaped
  refine ⟨?_, ?_, ?_⟩ <;> decide +kernel
theorem witness_Requests_2 :
    (Shaped w_Rq_4_1 ∧ w_Rq_4_1.lookup ((req 3 [(32, 8, 4096), (40, 4, 64)]).fld 28 4) = some w_Rq_4_2 ∧
      w_Rq_4_1.requestAt (↑3) (qix 1 ↑0) 0 3 = some (req 3 [(32, 8, 4096), (40, 4, 64)]) ∧
      (req 3 [(32, 8, 4096), (40, 4, 64)]).fld 40 4 = 64 ∧ destBad (req 3 [(32, 8, 4096), (40, 4, 64)]) = none ∧
      w_Rq_4_1.host.busMaster = true ∧
      ((w_Rq_4_1.session ((req 3 [(32, 8, 4096), (40, 4, 64)]).fld 28 4)).isOpen = true → (w_Rq_4_1.session ((req 3 [(32, 8, 4096), (40, 4, 64)]).fld 28 4)).owner = ↑3)) := by
  unfold Shaped
  decide +kernel
/-! ### SyncObjects -/

def w_Sy_1_1 : State := withSync (engines 0x17 4 [(0x18, 2, 7), (0x1B, 1, 1), (0x20, 4, 3)])
def w_Sy_2_1 : State := (withSync (engines 0x17 4 [(0x18, 2, 7), (0x1A, 1, 1), (0x1C, 1, 3), (0x1E, 2, 9)])).modCtx 3 fun x => { x with sync := [(9, { syncEnt0 with allow := 8 })] }
def w_Sy_2_7 : SyncEnt := { syncEnt0 with allow := 8 }
def w_Sy_3_1 : State := withSync (engines 0x18 4 [(0x18, 2, 9)])
def w_Sy_4_1 : State := withSync (engines 0x19 4 [(0x18, 2, 9)])
def w_Sy_5_1 : State := withSync (engines 0x19 4 [(0x18, 2, 9), (0x1A, 1, 1), (0x1C, 4, 0x7FFFFFFF)])
theorem witness_SyncObjects_1 :
    (Shaped w_Sy_1_1 ∧ w_Sy_1_1.entryAt (↑3) (qix 1 ↑0) 0 23 = some (ent 23 [(24, 2, 7), (27, 1, 1), (32, 4, 3)]) ∧
      (ent 23 [(24, 2, 7), (27, 1, 1), (32, 4, 3)]).fld 26 1 = 0 ∧ (ent 23 [(24, 2, 7), (27, 1, 1), (32, 4, 3)]).fld 27 1 < 8 ∧
      (w_Sy_1_1.ctx ↑3).alloc = some alloc1 ∧ alloc1.pts.contains ((ent 23 [(24, 2, 7), (27, 1, 1), (32, 4, 3)]).fld 27 1) = true ∧
      w_Sy_1_1.syncEnt (↑3) ((ent 23 [(24, 2, 7), (27, 1, 1), (32, 4, 3)]).fld 24 2) = none ∧ 1 < 16384 ∧
      (w_Sy_1_1.pt ((ent 23 [(24, 2, 7), (27, 1, 1), (32, 4, 3)]).fld 27 1)).counters.get? 1 = none ∧
      (∀ j < 1, (w_Sy_1_1.pt ((ent 23 [(24, 2, 7), (27, 1, 1), (32, 4, 3)]).fld 27 1)).counters.get? j ≠ none)) ∧
    (Shaped w_Sy_2_1 ∧ w_Sy_2_1.entryAt (↑3) (qix 1 ↑0) 0 23 = some (ent 23 [(24, 2, 7), (26, 1, 1), (28, 1, 3), (30, 2, 9)]) ∧
      (ent 23 [(24, 2, 7), (26, 1, 1), (28, 1, 3), (30, 2, 9)]).fld 26 1 = 1 ∧
      (ent 23 [(24, 2, 7), (26, 1, 1), (28, 1, 3), (30, 2, 9)]).fld 28 1 ≤ 63 ∧
      w_Sy_2_1.syncEnt ((ent 23 [(24, 2, 7), (26, 1, 1), (28, 1, 3), (30, 2, 9)]).fld 28 1) ((ent 23 [(24, 2, 7), (26, 1, 1), (28, 1, 3), (30, 2, 9)]).fld 30 2) = some w_Sy_2_7 ∧
      w_Sy_2_7.st = 1 ∧ w_Sy_2_7.owned = true ∧ BitVec.getLsbD w_Sy_2_7.allow ↑3 = true ∧
      w_Sy_2_1.syncEnt (↑3) ((ent 23 [(24, 2, 7), (26, 1, 1), (28, 1, 3), (30, 2, 9)]).fld 24 2) = none) ∧
    (Shaped w_Sy_3_1 ∧ w_Sy_3_1.entryAt (↑3) (qix 1 ↑0) 0 24 = some (ent 24 [(24, 2, 9)]) ∧
      w_Sy_3_1.syncEnt (↑3) ((ent 24 [(24, 2, 9)]).fld 24 2) = some syncEnt0 ∧ syncEnt0.pt < 8 ∧
      (∀ (g : Prog), (w_Sy_3_1.ctx ↑3).prog = some g → g.syncIds.contains ((ent 24 [(24, 2, 9)]).fld 24 2) = false)) ∧
    (Shaped w_Sy_4_1 ∧ w_Sy_4_1.entryAt (↑3) (qix 1 ↑0) 0 25 = some (ent 25 [(24, 2, 9)]) ∧ (ent 25 [(24, 2, 9)]).fld 26 1 = 0 ∧
      w_Sy_4_1.syncEnt (↑3) ((ent 25 [(24, 2, 9)]).fld 24 2) = some syncEnt0 ∧ syncEnt0.st ≠ 2) := by
  unfold Shaped
  refine ⟨?_, ?_, ?_, ?_⟩ <;> decide +kernel
theorem witness_SyncObjects_2 :
    (Shaped w_Sy_5_1 ∧ w_Sy_5_1.entryAt (↑3) (qix 1 ↑0) 0 25 = some (ent 25 [(24, 2, 9), (26, 1, 1), (28, 4, 2147483647)]) ∧
      (ent 25 [(24, 2, 9), (26, 1, 1), (28, 4, 2147483647)]).fld 26 1 = 1 ∧
      1 ≤ (ent 25 [(24, 2, 9), (26, 1, 1), (28, 4, 2147483647)]).fld 28 4 ∧
      (ent 25 [(24, 2, 9), (26, 1, 1), (28, 4, 2147483647)]).fld 28 4 < 2 ^ 31 ∧
      w_Sy_5_1.syncEnt (↑3) ((ent 25 [(24, 2, 9), (26, 1, 1), (28, 4, 2147483647)]).fld 24 2) = some syncEnt0 ∧ syncEnt0.st = 1 ∧
      syncEnt0.pt < 8 ∧ w_Sy_5_1.addWaits (↑3) (qix 1 ↑0) syncEnt0 = false ∧
      (∀ r ∈ w_Sy_5_1.pairsOn syncEnt0.pt syncEnt0.index, (w_Sy_5_1.syncAdd syncEnt0 (BitVec.ofNat 32 ((ent 25 [(24, 2, 9), (26, 1, 1), (28, 4, 2147483647)]).fld 28 4))).pairOk r.1 r.2 = true)) ∧
    (Shaped pairQ ∧ pairQ.entryAt (↑3) (qix 1 ↑0) 0 25 = some pairE ∧ pairE.fld 26 1 = 1 ∧ 1 ≤ pairE.fld 28 4 ∧
      pairE.fld 28 4 < 2 ^ 31 ∧ pairQ.syncEnt (↑3) (pairE.fld 24 2) = some syncEnt0 ∧ syncEnt0.st = 1 ∧
      pairQ.addWaits (↑3) (qix 1 ↑0) syncEnt0 = false ∧
      (∃ r ∈ pairQ.pairsOn syncEnt0.pt syncEnt0.index, (pairQ.syncAdd syncEnt0 (BitVec.ofNat 32 (pairE.fld 28 4))).pairOk r.1 r.2 = false)) := by
  unfold Shaped
  refine ⟨?_, ?_⟩ <;> decide +kernel
/-! ### HostAttachment -/

def w_HA_1b_2 : State := { placed with copies := [copyOf 0 none] }
def w_HA_2_7 : Endpoint := { ring0 with wr := 16 }
def w_HA_5b_5 : List DramFlip := [{ ch := 0, group := 0, burst := 1, mask := 0xFFFFFF }]
def w_HA_8a_2 : State := { up with start := { up.start with stage := 5 } }
theorem witness_HostAttachment_1 :
    (up.dies.ct0Lost = false ∧ up.nextCopy = none ∧ (∀ e ∈ up.ends, e.unconsumed = [])) ∧
    (w_HA_1b_2.dies.ct0Lost = false ∧ w_HA_1b_2.nextCopy = some 0 ∧ w_HA_1b_2.copies[0]? = some (copyOf 0 none) ∧
      w_HA_1b_2.copyRing (copyOf 0 none) = none ∧ (copyOf 0 none).from' = none) ∧
    (copied.dies.ct0Lost = false ∧ copied.nextCopy = some 0 ∧ copied.copies[0]? = some (copyOf 0 none) ∧
      copied.copyRing (copyOf 0 none) = some ring0 ∧ copied.decideCopy (copyOf 0 none) obs0 = Decision.place 0) ∧
    (copiedFull.dies.ct0Lost = false ∧ copiedFull.nextCopy = some 0 ∧ copiedFull.copies[0]? = some (copyOf 0 none) ∧
      copiedFull.copyRing (copyOf 0 none) = some w_HA_2_7 ∧ copiedFull.decideCopy (copyOf 0 none) obs0 = Decision.bounce 1 false) ∧
    (up.hostOn = true) ∧
    (up.hostOn = true) ∧
    (BitVec.toNat ((2 : W64) ^ (30 : ℕ) - (1 : W64)) < (pooled up).poolLen ∧ (pooled up).hostOn = true ∧
      (pooled up).start.stage = 10 ∧
      ((pooled up).pt (ptOfChan ((pooled up).poolChan (BitVec.toNat ((2 : W64) ^ (30 : ℕ) - (1 : W64)) / (64 : ℕ) * (64 : ℕ))))).inReset = false ∧
      ((pooled up).chan ((pooled up).poolChan (BitVec.toNat ((2 : W64) ^ (30 : ℕ) - (1 : W64)) / (64 : ℕ) * (64 : ℕ)))).broke = false) ∧
    (BitVec.toNat (64 : W64) < (pooled up).poolLen ∧ (pooled up).hostOn = true ∧ (pooled up).start.stage = 10 ∧
      ((pooled up).pt (ptOfChan ((pooled up).poolChan (BitVec.toNat (64 : W64) / (64 : ℕ) * (64 : ℕ))))).inReset = false ∧
      ((pooled up).chan ((pooled up).poolChan (BitVec.toNat (64 : W64) / (64 : ℕ) * (64 : ℕ)))).broke = false) := by
  refine ⟨?_, ?_, ?_, ?_, ?_, ?_, ?_, ?_⟩ <;> decide +kernel
theorem witness_HostAttachment_2 :
    (BitVec.toNat ((2 : W64) ^ (30 : ℕ) - (1 : W64)) < (pooled up).poolLen ∧ (pooled up).hostOn = true ∧
      (pooled up).start.stage = 10 ∧ (pooled up).pool.wf = true) ∧
    ((pooled up).poolLen ≤ BitVec.toNat ((2 : W64) ^ (30 : ℕ))) ∧
    (Shaped w_HA_8a_2 ∧ w_HA_8a_2.start.stage < 6) ∧
    (Shaped (withEnts placed 4 []) ∧ 6 ≤ (withEnts placed 4 []).start.stage) ∧
    (Shaped up ∧ up.host.owner ≠ Owner.free ∧ up.settingNat 6 ≠ 0 ∧ (up.mgmt.pldm = true → up.host.owner ≠ Owner.sideband)) ∧
    (Shaped opReady ∧ opReady.op? (BitVec.toNat (7 : W32)) = some opReady.ops[(0 : ℕ)] ∧ opReady.ops[0].finished = false ∧
      opReady.ops[0].ready = some (ok, []) ∧ opReady.mgmt.restart = none) ∧
    (Shaped up ∧ up.start.pwr ≠ ModPwr.m3 ∧ up.dies.ct0Lost = false ∧ (6 ≤ up.start.stage ∨ up.mgmt.fw = FwState.recovery) ∧
      (32 = 64 ∧ true = false ∨ 32 = 32) ∧ (4 = 8 ∨ 4 = 4)) ∧
    (Shaped up ∧ up.start.pwr ≠ ModPwr.m3 ∧ up.dies.ct0Lost = false ∧ (6 ≤ up.start.stage ∨ up.mgmt.fw = FwState.recovery)) := by
  unfold Shaped
  refine ⟨?_, ?_, ?_, ?_, ?_, ?_, ?_, ?_⟩ <;> decide +kernel
/-! ### ReelCommands -/

def w_Reel_3_3 : Payload := le 8 4096 ++ le 8 4096
def w_Reel_4_3 : Payload := le 4 0xFFFFFFFF ++ le 4 0
theorem witness_ReelCommands_1 :
    (HostReady reelUp) ∧
    (HostOwns reelUp ∧
      (reelUp.reel.st = ReelState.ready ∨ reelUp.reel.st = ReelState.unlabelled ∨ reelUp.reel.st = ReelState.failed) ∧
      reelUp.dumpOnReel = false ∧ reelUp.reel.opOf 162 = false ∧ reelUp.reel.opOf 163 = false ∧ reelUp.reelLoading = false ∧
      reelUp.running.length < 16) ∧
    (HostOwns reelUp ∧ List.length w_Reel_3_3 = 16 ∧ arg w_Reel_3_3 0 8 % 4096 = 0 ∧ arg w_Reel_3_3 8 8 % 4096 = 0 ∧
      4096 ≤ arg w_Reel_3_3 8 8 ∧ arg w_Reel_3_3 8 8 ≤ 2 ^ 40 ∧
      arg w_Reel_3_3 0 8 + arg w_Reel_3_3 8 8 + 8192 ≤ (reelArea reelUp.reel 2).2 ∧ reelUp.mgmt.testMode = false ∧
      reelUp.reel.st = ReelState.ready ∧ reelUp.reel.authentic = true ∧ reelUp.dies.ct1Lost = false ∧ reelUp.reel.writeStop = false ∧
      reelUp.running.length < 16) := by
  unfold HostOwns HostReady
  refine ⟨?_, ?_, ?_⟩ <;> decide +kernel
theorem witness_ReelCommands_2 :
    (HostOwns reelUp ∧ List.length w_Reel_4_3 = 8 ∧ rsvdBad w_Reel_4_3 [(4, 4)] = none ∧ reelUp.reel.inService = true ∧
      (weightOk reelUp.reel.nlba (if arg w_Reel_4_3 0 4 = 4294967295 then reelUp.settingNat 49 else arg w_Reel_4_3 0 4) = true) ∧
      reelUp.dies.ct1Lost = false ∧ reelUp.reel.access = [] ∧ reelUp.loadsReel = false ∧ reelUp.reelLoading = false ∧
      reelUp.dumpOnReel = false ∧ reelUp.reel.opOf 162 = false ∧ reelUp.reel.opOf 163 = false ∧ reelUp.reel.writeStop = false ∧
      reelUp.running.length < 16) ∧
    ((List.find? (fun x ↦ decide (x.1 = BitVec.toNat (7 : W32))) (reelOp (161 : ℕ) (0 : ℕ) (0 : ℕ)).reel.ops = some (BitVec.toNat (7 : W32), (161 : ℕ), (0 : ℕ), (0 : ℕ))) ∧
      OpRuns (reelOp (161 : ℕ) (0 : ℕ) (0 : ℕ)) (BitVec.toNat (7 : W32)) ∧
      (∀ x ∈ (reelOp (161 : ℕ) (0 : ℕ) (0 : ℕ)).ctxs, x.op ≠ some (BitVec.toNat (7 : W32)))) ∧
    ((List.find? (fun x ↦ decide (x.1 = BitVec.toNat (7 : W32))) (reelOp (162 : ℕ) (4096 : ℕ) (4096 : ℕ)).reel.ops = some (BitVec.toNat (7 : W32), (162 : ℕ), (4096 : ℕ), (4096 : ℕ))) ∧
      OpRuns (reelOp (162 : ℕ) (4096 : ℕ) (4096 : ℕ)) (BitVec.toNat (7 : W32)) ∧ (reelOp 162 4096 4096).reel.data.wf = true) ∧
    ((List.find? (fun x ↦ decide (x.1 = BitVec.toNat (7 : W32))) (reelOp (163 : ℕ) (100 : ℕ) (0 : ℕ)).reel.ops = some (BitVec.toNat (7 : W32), (163 : ℕ), (100 : ℕ), (0 : ℕ))) ∧
      OpRuns (reelOp (163 : ℕ) (100 : ℕ) (0 : ℕ)) (BitVec.toNat (7 : W32))) ∧
    ((List.find? (fun x ↦ decide (x.1 = BitVec.toNat (7 : W32))) (reelOp (162 : ℕ) (4096 : ℕ) (4096 : ℕ)).reel.ops = some (BitVec.toNat (7 : W32), (162 : ℕ), (4096 : ℕ), (4096 : ℕ))) ∧
      OpRuns (reelOp (162 : ℕ) (4096 : ℕ) (4096 : ℕ)) (BitVec.toNat (7 : W32)) ∧ 162 ≠ 161) := by
  unfold HostOwns HostReady OpRuns
  refine ⟨?_, ?_, ?_, ?_, ?_⟩ <;> decide +kernel
/-! ### ReelEvents -/

def w_RE_4_3 : ReelFound := { found0 with lba4k := false }
theorem witness_ReelEvents_1 :
    (up.reel.st = ReelState.absent ∧ up.reel.latch = false ∧ up.dies.ct1Lost = false ∧ up.start.aux = true) ∧
    (reelStarts.reel.st = ReelState.starting ∧ found0.present = true ∧ found0.linkOk = true ∧ found0.lba4k = true ∧
      67666176 ≤ found0.nlba) ∧
    (reelStarts.reel.st = ReelState.starting ∧
      (w_RE_4_3.present = false ∨ w_RE_4_3.linkOk = false ∨ w_RE_4_3.lba4k = false ∨ w_RE_4_3.nlba < 67666176)) ∧
    (polled.reel.inService = true ∧ polled.reel.polledAt + 60 * cycPerSec ≤ polled.clk.life) ∧
    (polled.reel.inService = true ∧ polled.reel.polledAt + 60 * cycPerSec ≤ polled.clk.life) ∧
    (Shaped reelBusy ∧ (reelBusy.reel.inService = true ∨ reelBusy.reel.st = ReelState.ejecting) ∧ reelBusy.dumpOnReel = false ∧
      reelBusy.reel.access = [(3, 4, 0)] ∧ (3, 4, 0).1 < 64 ∧ (3, 4, 0).2.1 < 16 ∧
      (reelBusy.queue (3, 4, 0).1 (3, 4, 0).2.1).entry? (3, 4, 0).2.2 = some (ent 16 [(24, 1, 3), (25, 1, 1), (32, 8, 2 ^ 60), (48, 8, 4096)]) ∧
      (ent 16 [(24, 1, 3), (25, 1, 1), (32, 8, 2 ^ 60), (48, 8, 4096)]).outcome = none) ∧
    (reelWrites.reel.access = [(3, 4, 0)] ∧
      (reelWrites.queue (3, 4, 0).1 (3, 4, 0).2.1).entry? (3, 4, 0).2.2 = some (ent 16 [(24, 1, 0), (25, 1, 3), (40, 8, 2 ^ 60), (48, 8, 4096)]) ∧
      (reelWrites.accessOf (3, 4, 0)).1 = true) ∧
    (reelBusy.reel.access = [(3, 4, 0)] ∧
      (reelBusy.queue (3, 4, 0).1 (3, 4, 0).2.1).entry? (3, 4, 0).2.2 = some (ent 16 [(24, 1, 3), (25, 1, 1), (32, 8, 2 ^ 60), (48, 8, 4096)]) ∧
      (reelBusy.accessOf (3, 4, 0)).1 = false) := by
  unfold Shaped
  refine ⟨?_, ?_, ?_, ?_, ?_, ?_, ?_, ?_⟩ <;> decide +kernel
theorem witness_ReelEvents_2 :
    (reelBusy.reel.access = [(3, 4, 0)] ∧
      (reelBusy.queue (3, 4, 0).1 (3, 4, 0).2.1).entry? (3, 4, 0).2.2 = some (ent 16 [(24, 1, 3), (25, 1, 1), (32, 8, 2 ^ 60), (48, 8, 4096)]) ∧
      Shaped reelBusy ∧ (3, 4, 0).1 < 64 ∧ (3, 4, 0).2.1 < 16 ∧
      (ent 16 [(24, 1, 3), (25, 1, 1), (32, 8, 2 ^ 60), (48, 8, 4096)]).outcome = none) := by
  unfold Shaped
  decide +kernel
/-! ### WireAndTiles -/

def w_WT_8_2 : State := onTile (tilePred 3 [(0, false, 1)])
def w_WT_10_2 : State := onTile { tileBuf with cst := { time := 23, rdBuf := [(0, 5)] } :: List.replicate 7 {} }
theorem witness_WireAndTiles_1 :
    (Shaped runMap) ∧
    ((Shaped up ∧ up.boundCtxs = [] ∧ up.crossing = []) ∧
      (∀ (n : ℕ), (up.sheet n).dwell = none ∧ (up.sheet n).dwellDue = none)) ∧
    (Shaped runMap ∧ runMap.boundCtxs = [3] ∧ (runMap.ctx 3).prog = some boxProg ∧ (runMap.ctx 3).st = CtxState.running ∧
      (runMap.ctx 3).runOn = [] ∧ runMap.schedRuns 3 = true ∧
      ((((List.foldl (fun a n ↦ (a.shadowCycle [] n).catchupCycle [] n) (runMap.ctxCycle [] 3).1 (List.range 24)).violate 3 []).ctx 3).st = CtxState.running) ∧
      ((((List.foldl (fun a n ↦ (a.shadowCycle [] n).catchupCycle [] n) (runMap.ctxCycle [] 3).1 (List.range 24)).violate 3 []).ctx 3).hold = Hold.none)) ∧
    (Shaped nearWait ∧ nearWait.boundCtxs = [3] ∧ (nearWait.ctx 3).prog = some waitProg ∧ (nearWait.ctx 3).st = CtxState.running ∧
      (nearWait.ctx 3).runOn = [] ∧ nearWait.schedRuns 3 = true ∧
      ((((List.foldl (fun a n ↦ (a.shadowCycle [] n).catchupCycle [] n) (nearWait.ctxCycle [] 3).1 (List.range 24)).violate 3 []).ctx 3).st = CtxState.running) ∧
      ((((List.foldl (fun a n ↦ (a.shadowCycle [] n).catchupCycle [] n) (nearWait.ctxCycle [] 3).1 (List.range 24)).violate 3 []).ctx 3).hold = Hold.none)) ∧
    (Shaped late ∧ late.boundCtxs = [3] ∧ (late.ctx 3).prog = some boxProg ∧ (late.ctx 3).st = CtxState.running ∧
      (late.ctx 3).runOn = [] ∧ late.schedRuns 3 = true ∧
      ((((List.foldl (fun a n ↦ (a.shadowCycle [] n).catchupCycle [] n) (late.ctxCycle [] 3).1 (List.range 24)).violate 3 []).ctx 3).st = CtxState.running) ∧
      ((((List.foldl (fun a n ↦ (a.shadowCycle [] n).catchupCycle [] n) (late.ctxCycle [] 3).1 (List.range 24)).violate 3 []).ctx 3).hold = Hold.none)) := by
  unfold Shaped
  exact ⟨by decide +kernel, ⟨by decide +kernel, sheets_clear⟩, by decide +kernel, by decide +kernel, by decide +kernel⟩
theorem witness_WireAndTiles_2 :
    (Shaped up ∧ up.ctxOfTile (ptileIx tp) = none) ∧
    (Shaped (onTile (tileRep 2)) ∧ (onTile (tileRep 2)).ctxOfTile (ptileIx tp) = some 3 ∧
      ctxValid ((onTile (tileRep 2)).tile (ptileIx tp)).cfg ≠ 0 ∧
      (((onTile (tileRep 2)).tile (ptileIx tp)).stateAt ((onTile (tileRep 2)).view 3 (ptileIx tp) ((onTile (tileRep 2)).ctx 3).sched).k).pos ≤ (ctxCtl ((onTile (tileRep 2)).view 3 (ptileIx tp) ((onTile (tileRep 2)).ctx 3).sched).mem ((onTile (tileRep 2)).view 3 (ptileIx tp) ((onTile (tileRep 2)).ctx 3).sched).base).issueLast ∧
      ((issueEnt ((onTile (tileRep 2)).view 3 (ptileIx tp) ((onTile (tileRep 2)).ctx 3).sched).mem ((onTile (tileRep 2)).view 3 (ptileIx tp) ((onTile (tileRep 2)).ctx 3).sched).base (((onTile (tileRep 2)).tile (ptileIx tp)).stateAt ((onTile (tileRep 2)).view 3 (ptileIx tp) ((onTile (tileRep 2)).ctx 3).sched).k).pos).op = 3 ∨ (issueEnt ((onTile (tileRep 2)).view 3 (ptileIx tp) ((onTile (tileRep 2)).ctx 3).sched).mem ((onTile (tileRep 2)).view 3 (ptileIx tp) ((onTile (tileRep 2)).ctx 3).sched).base (((onTile (tileRep 2)).tile (ptileIx tp)).stateAt ((onTile (tileRep 2)).view 3 (ptileIx tp) ((onTile (tileRep 2)).ctx 3).sched).k).pos).len ≤ (((onTile (tileRep 2)).tile (ptileIx tp)).stateAt ((onTile (tileRep 2)).view 3 (ptileIx tp) ((onTile (tileRep 2)).ctx 3).sched).k).rep)) ∧
    (Shaped (onTile (tileRep 1)) ∧ (onTile (tileRep 1)).ctxOfTile (ptileIx tp) = some 3 ∧
      ctxValid ((onTile (tileRep 1)).tile (ptileIx tp)).cfg ≠ 0 ∧
      (((onTile (tileRep 1)).tile (ptileIx tp)).stateAt ((onTile (tileRep 1)).view 3 (ptileIx tp) ((onTile (tileRep 1)).ctx 3).sched).k).pos ≤ (ctxCtl ((onTile (tileRep 1)).view 3 (ptileIx tp) ((onTile (tileRep 1)).ctx 3).sched).mem ((onTile (tileRep 1)).view 3 (ptileIx tp) ((onTile (tileRep 1)).ctx 3).sched).base).issueLast ∧
      (issueEnt ((onTile (tileRep 1)).view 3 (ptileIx tp) ((onTile (tileRep 1)).ctx 3).sched).mem ((onTile (tileRep 1)).view 3 (ptileIx tp) ((onTile (tileRep 1)).ctx 3).sched).base (((onTile (tileRep 1)).tile (ptileIx tp)).stateAt ((onTile (tileRep 1)).view 3 (ptileIx tp) ((onTile (tileRep 1)).ctx 3).sched).k).pos).op ≠ 3 ∧
      (((onTile (tileRep 1)).tile (ptileIx tp)).stateAt ((onTile (tileRep 1)).view 3 (ptileIx tp) ((onTile (tileRep 1)).ctx 3).sched).k).rep < (issueEnt ((onTile (tileRep 1)).view 3 (ptileIx tp) ((onTile (tileRep 1)).ctx 3).sched).mem ((onTile (tileRep 1)).view 3 (ptileIx tp) ((onTile (tileRep 1)).ctx 3).sched).base (((onTile (tileRep 1)).tile (ptileIx tp)).stateAt ((onTile (tileRep 1)).view 3 (ptileIx tp) ((onTile (tileRep 1)).ctx 3).sched).k).pos).len) ∧
    (Shaped (onTile (tilePred 0 [])) ∧ (onTile (tilePred 0 [])).ctxOfTile (ptileIx tp) = some 3 ∧
      ((onTile (tilePred 0 [])).view 3 (ptileIx tp) ((onTile (tilePred 0 [])).ctx 3).sched).first = true ∧
      (onTile (tilePred 0 [])).schedRuns 3 = true ∧ ctxValid ((onTile (tilePred 0 [])).tile (ptileIx tp)).cfg ≠ 0 ∧
      (((onTile (tilePred 0 [])).tile (ptileIx tp)).stateAt ((onTile (tilePred 0 [])).view 3 (ptileIx tp) ((onTile (tilePred 0 [])).ctx 3).sched).k).predAt ≠ ((onTile (tilePred 0 [])).ctx 3).sched + 1 ∧
      (ctxCtl ((onTile (tilePred 0 [])).view 3 (ptileIx tp) ((onTile (tilePred 0 [])).ctx 3).sched).mem ((onTile (tilePred 0 [])).view 3 (ptileIx tp) ((onTile (tilePred 0 [])).ctx 3).sched).base).branch = 0) ∧
    (Shaped w_WT_8_2 ∧ w_WT_8_2.ctxOfTile (ptileIx tp) = some 3 ∧
      (w_WT_8_2.view 3 (ptileIx tp) (w_WT_8_2.ctx 3).sched).first = true ∧ w_WT_8_2.schedRuns 3 = true ∧
      ctxValid (w_WT_8_2.tile (ptileIx tp)).cfg ≠ 0 ∧
      ((w_WT_8_2.tile (ptileIx tp)).stateAt (w_WT_8_2.view 3 (ptileIx tp) (w_WT_8_2.ctx 3).sched).k).predAt ≠ (w_WT_8_2.ctx 3).sched + 1 ∧
      (ctxCtl (w_WT_8_2.view 3 (ptileIx tp) (w_WT_8_2.ctx 3).sched).mem (w_WT_8_2.view 3 (ptileIx tp) (w_WT_8_2.ctx 3).sched).base).branch ≠ 0 ∧
      (w_WT_8_2.view 3 (ptileIx tp) (w_WT_8_2.ctx 3).sched).take (w_WT_8_2.tile (ptileIx tp)) (ctxCtl (w_WT_8_2.view 3 (ptileIx tp) (w_WT_8_2.ctx 3).sched).mem (w_WT_8_2.view 3 (ptileIx tp) (w_WT_8_2.ctx 3).sched).base).predQ = some (takes.1, takes.2)) := by
  unfold Shaped
  refine ⟨?_, ?_, ?_, ?_, ?_⟩ <;> decide +kernel
theorem witness_WireAndTiles_3 :
    (Shaped (onTile (tilePred 3 [])) ∧ (onTile (tilePred 3 [])).ctxOfTile (ptileIx tp) = some 3 ∧
      ((onTile (tilePred 3 [])).view 3 (ptileIx tp) ((onTile (tilePred 3 [])).ctx 3).sched).first = true ∧
      (onTile (tilePred 3 [])).schedRuns 3 = true ∧ ctxValid ((onTile (tilePred 3 [])).tile (ptileIx tp)).cfg ≠ 0 ∧
      (((onTile (tilePred 3 [])).tile (ptileIx tp)).stateAt ((onTile (tilePred 3 [])).view 3 (ptileIx tp) ((onTile (tilePred 3 [])).ctx 3).sched).k).predAt ≠ ((onTile (tilePred 3 [])).ctx 3).sched + 1 ∧
      (ctxCtl ((onTile (tilePred 3 [])).view 3 (ptileIx tp) ((onTile (tilePred 3 [])).ctx 3).sched).mem ((onTile (tilePred 3 [])).view 3 (ptileIx tp) ((onTile (tilePred 3 [])).ctx 3).sched).base).branch ≠ 0 ∧
      ((onTile (tilePred 3 [])).view 3 (ptileIx tp) ((onTile (tilePred 3 [])).ctx 3).sched).take ((onTile (tilePred 3 [])).tile (ptileIx tp)) (ctxCtl ((onTile (tilePred 3 [])).view 3 (ptileIx tp) ((onTile (tilePred 3 [])).ctx 3).sched).mem ((onTile (tilePred 3 [])).view 3 (ptileIx tp) ((onTile (tilePred 3 [])).ctx 3).sched).base).predQ = none ∧
      3 < 64) ∧
    (Shaped w_WT_10_2 ∧ w_WT_10_2.ctxOfTile (ptileIx tp) = some 3 ∧
      ((w_WT_10_2.tile (ptileIx tp)).stateAt (w_WT_10_2.view 3 (ptileIx tp) (w_WT_10_2.ctx 3).sched).k).rdBuf = [(0, 5)] ∧
      (∀ f ∈ w_WT_10_2.flights, ¬(f.tile = ptileIx tp ∧ f.port = 6 ∧ f.left = 0)) ∧
      ((w_WT_10_2.tile (ptileIx tp)).stateAt (w_WT_10_2.view 3 (ptileIx tp) (w_WT_10_2.ctx 3).sched).k).time < 0 + 24) ∧
    (Shaped (onTile tileBuf) ∧ (onTile tileBuf).ctxOfTile (ptileIx tp) = some 3 ∧
      (((onTile tileBuf).tile (ptileIx tp)).stateAt ((onTile tileBuf).view 3 (ptileIx tp) ((onTile tileBuf).ctx 3).sched).k).rdBuf = [(0, 5)] ∧
      (∀ f ∈ (onTile tileBuf).flights, ¬(f.tile = ptileIx tp ∧ f.port = 6 ∧ f.left = 0)) ∧
      0 + 24 ≤ (((onTile tileBuf).tile (ptileIx tp)).stateAt ((onTile tileBuf).view 3 (ptileIx tp) ((onTile tileBuf).ctx 3).sched).k).time) ∧
    (Shaped (atSched runMap 1) ∧ (atSched runMap 1).cyc % 2 ^ 21 ≠ 0) ∧
    (Shaped runMap ∧ runMap.cyc % 2 ^ 21 = 0 ∧ runMap.clk.snapAt ≠ runMap.clk.life + 1) := by
  unfold Shaped
  refine ⟨?_, ?_, ?_, ?_, ?_⟩ <;> decide +kernel
/-! ### WaitsCatchupAndPrologue -/

def w_Wa_4_2 : State := withDwell { swp with catching := some 1 }
def w_Wa_4_5 : Dwell := { swp with catching := some 1 }
def w_Wa_5_2 : State := withDwell { swp with catching := some 0 }
def w_Wa_5_5 : Dwell := { swp with catching := some 0 }
def w_Wa_5b_2 : State := withDwell { swp with catching := some 0, abandoned := true }
def w_Wa_5b_5 : Dwell := { swp with catching := some 0, abandoned := true }
def w_Wa_7_5 : Prog := { boxProg with prologue := [⟨1, 0, []⟩] }
theorem witness_WaitsCatchupAndPrologue_1 :
    (Shaped waiting ∧ (waiting.ctx ↑3).prog = some waitProg ∧ (waiting.ctx ↑3).hold = Hold.wait 64 1 0 ∧
      (∃ e ∈ (waiting.ctx ↑3).sampled, e.1 = (waiting.ctx ↑3).sched ∧ e.2 + 256 ≤ waiting.clk.life) ∧
      (Instr.externalWaitPoint 3 = Instr.externalWaitPoint 3 ∨ Instr.externalWaitPoint 3 = Instr.holdRelease 3 ∧ waiting.cyc % 32 = 0)) ∧
    (Shaped waiting ∧ (waiting.ctx ↑3).prog = some waitProg ∧ (waiting.ctx ↑3).hold = Hold.wait 64 1 0 ∧
      (∃ e ∈ (waiting.ctx ↑3).sampled, e.1 = (waiting.ctx ↑3).sched ∧ e.2 + 256 ≤ waiting.clk.life) ∧
      (Instr.holdRelease 3 = Instr.externalWaitPoint 3 ∨ Instr.holdRelease 3 = Instr.holdRelease 3 ∧ waiting.cyc % 32 = 0)) ∧
    (Shaped tooEarly ∧ (tooEarly.ctx ↑3).prog = some waitProg ∧ (tooEarly.ctx ↑3).hold = Hold.wait 64 1 0 ∧
      (∀ e ∈ (tooEarly.ctx ↑3).sampled, e.1 = (tooEarly.ctx ↑3).sched → tooEarly.clk.life < e.2 + 256) ∧
      tooEarly.waitsOrphaned (↑3) waitProg = false) ∧
    (Shaped offFrame ∧ (offFrame.ctx ↑3).prog = some waitProg ∧ (offFrame.ctx ↑3).hold = Hold.wait 64 1 0 ∧ offFrame.cyc % 32 ≠ 0) ∧
    (Shaped orphanWait ∧ (orphanWait.ctx ↑3).prog = some syncWait ∧ (orphanWait.ctx ↑3).hold = Hold.wait 64 1 0 ∧
      orphanWait.waitsOrphaned (↑3) syncWait = true) ∧
    (Shaped w_Wa_4_2 ∧ (w_Wa_4_2.sheet ↑3).dwell = some w_Wa_4_5 ∧ w_Wa_4_5.catching = some 1 ∧ w_Wa_4_2.clk.life < 1) := by
  unfold Shaped
  refine ⟨?_, ?_, ?_, ?_, ?_, ?_⟩ <;> decide +kernel
theorem witness_WaitsCatchupAndPrologue_2 :
    (Shaped w_Wa_5_2 ∧ (w_Wa_5_2.sheet ↑3).dwell = some w_Wa_5_5 ∧ w_Wa_5_5.catching = some 0 ∧ 0 ≤ w_Wa_5_2.clk.life ∧
      w_Wa_5_5.abandoned = false) ∧
    (Shaped w_Wa_5b_2 ∧ (w_Wa_5b_2.sheet ↑3).dwell = some w_Wa_5b_5 ∧ w_Wa_5b_5.catching = some 0 ∧ 0 ≤ w_Wa_5b_2.clk.life ∧
      w_Wa_5b_5.abandoned = true) ∧
    (Shaped (withDwell swp) ∧ (∀ (d : Dwell), ((withDwell swp).sheet ↑3).dwell = some d → d.catching = none)) ∧
    (Shaped proBusy ∧ (proBusy.ctx ↑3).prog = some w_Wa_7_5 ∧ proBusy.proEnded (↑3) w_Wa_7_5 = false) ∧
    (Shaped inPrologue ∧ (inPrologue.ctx ↑3).prog = some boxProg ∧ inPrologue.proEnded (↑3) boxProg = true) := by
  unfold Shaped
  refine ⟨?_, ?_, ?_, ?_, ?_⟩ <;> decide +kernel
/-! ### CalenderPoint -/

theorem witness_CalenderPoint_1 :
    (Shaped (atPoint 767) ∧ ((atPoint 767).ctx ↑3).prog = some boxProg ∧ ((atPoint 767).ctx ↑3).hold = Hold.calender 0 ∧
      ((atPoint 767).ctx ↑3).active = true ∧ ((atPoint 767).clk.life < 0 + 768 ∨ (atPoint 767).awaitsFirmware ↑3 = true)) ∧
    (Shaped replicaDue ∧ (replicaDue.ctx ↑3).prog = some boxProg ∧ (replicaDue.ctx ↑3).hold = Hold.calender 0 ∧
      (replicaDue.ctx ↑3).active = true ∧ 0 + 768 ≤ replicaDue.clk.life ∧ replicaDue.awaitsFirmware ↑3 = false ∧
      (replicaDue.ctx ↑3).armed ≠ [] ∧ ((replicaDue.calEvents ↑3 []).localDecision (↑3) boxProg).2 = some true) ∧
    (Shaped decided ∧ (decided.ctx ↑3).prog = some boxProg ∧ (decided.ctx ↑3).hold = Hold.calender 0 ∧
      (decided.ctx ↑3).active = true ∧ 0 + 768 ≤ decided.clk.life ∧ decided.awaitsFirmware ↑3 = false ∧ decided.activeJob ↑3 = none ∧
      (decided.ctx ↑3).armed = [] ∧ ((decided.calEvents ↑3 []).localDecision (↑3) boxProg).2 = some true) := by
  unfold Shaped
  refine ⟨?_, ?_, ?_⟩ <;> decide +kernel
theorem witness_CalenderPoint_2 :
    (Shaped faultyStep ∧ (faultyStep.ctx ↑3).prog = some boxProg ∧ (faultyStep.ctx ↑3).hold = Hold.calender 0 ∧
      (faultyStep.ctx ↑3).active = true ∧ 0 + 768 ≤ faultyStep.clk.life ∧ faultyStep.awaitsFirmware ↑3 = false ∧
      faultyStep.activeJob ↑3 = none ∧ (faultyStep.ctx ↑3).armed = [] ∧
      ((faultyStep.calEvents ↑3 []).localDecision (↑3) boxProg).2 = some false ∧
      (faultyStep.ctx ↑3).rollbacks < (faultyStep.ctx ↑3).rbLimit ∧ (faultyStep.ctx ↑3).replicaRb < 2) ∧
    (Shaped lastTry ∧ (lastTry.ctx ↑3).prog = some boxProg ∧ (lastTry.ctx ↑3).hold = Hold.calender 0 ∧
      (lastTry.ctx ↑3).active = true ∧ 0 + 768 ≤ lastTry.clk.life ∧ lastTry.awaitsFirmware ↑3 = false ∧ lastTry.activeJob ↑3 = none ∧
      (lastTry.ctx ↑3).armed = [] ∧ ((lastTry.calEvents ↑3 []).localDecision (↑3) boxProg).2 = some false ∧
      (lastTry.ctx ↑3).rbLimit ≤ (lastTry.ctx ↑3).rollbacks) := by
  unfold Shaped
  refine ⟨?_, ?_⟩ <;> decide +kernel
/-! ### HangDetection -/

def w_HD_3_1 : State := { running with pts := running.pts }
def w_HD_9_1 : State := running.modCtx 3 fun x => { x with overdue := true }
theorem witness_HangDetection_1 :
    (Shaped inPrologue ∧ 3 < inPrologue.start.stage ∧ (∀ (n : ℕ), inPrologue.proCycle ↑3 = some n → n ≤ 2 ^ 23)) ∧
    (Shaped longPro ∧ 3 < longPro.start.stage ∧ longPro.proCycle ↑3 = some (2 ^ 23 + 1) ∧ 2 ^ 23 < 2 ^ 23 + 1 ∧
      ((longPro.ctx ↑3).st = CtxState.placed ∨ (longPro.ctx ↑3).st = CtxState.running)) ∧
    (Shaped w_HD_3_1 ∧ 3 < w_HD_3_1.start.stage ∧ w_HD_3_1.holder ↑1 = some 3 ∧ (w_HD_3_1.ctx 3).prog = some boxProg ∧
      (w_HD_3_1.ctx 3).st = CtxState.running ∧ 2 * (w_HD_3_1.pt ↑1).runCyc ≤ 3 * boxProg.stepBound) ∧
    (Shaped longRun ∧ 3 < longRun.start.stage ∧ longRun.holder ↑1 = some 3 ∧ (longRun.ctx 3).prog = some boxProg ∧
      (longRun.ctx 3).st = CtxState.running ∧ 3 * boxProg.stepBound < 2 * (longRun.pt ↑1).runCyc) ∧
    (Shaped waiting ∧ 3 < waiting.start.stage ∧ (waiting.ctx ↑3).hold = Hold.wait 64 1 0 ∧ (waiting.ctx ↑3).prog = some waitProg ∧
      (waiting.ctx ↑3).st = CtxState.running ∧
      (∀ w ∈ waitProg.waitsAt (waiting.ctx ↑3).sched, w.1.kind = 3 → waiting.extMet (↑3) waitProg w.1 w.2 = true)) := by
  unfold Shaped
  refine ⟨?_, ?_, ?_, ?_, ?_⟩ <;> decide +kernel
theorem witness_HangDetection_2 :
    (Shaped pastDeadline ∧ 3 < pastDeadline.start.stage ∧ (pastDeadline.ctx ↑3).hold = Hold.wait 64 1 0 ∧
      (pastDeadline.ctx ↑3).prog = some syncWait ∧ (pastDeadline.ctx ↑3).st = CtxState.running ∧
      (∃ w ∈ syncWait.waitsAt (pastDeadline.ctx ↑3).sched, w.1.kind = 3 ∧ pastDeadline.extMet (↑3) syncWait w.1 w.2 = false)) ∧
    ((Shaped running ∧ 3 < running.start.stage ∧ (running.ctx ↑3).st = CtxState.running ∧ (running.ctx ↑3).overdue = false ∧
      (∀ p ∈ (running.ctx ↑3).held, (running.pt p).sinceRelease < 2 ^ 28)) ∧
      ((running.ctx ↑3).hold = Hold.none ∨ ∃ i k a, (running.ctx ↑3).hold = Hold.wait i k a)) ∧
    ((Shaped overdue ∧ 3 < overdue.start.stage ∧ (overdue.ctx ↑3).st = CtxState.running ∧ (overdue.ctx ↑3).overdue = false ∧
      (∃ p ∈ (overdue.ctx ↑3).held, 2 ^ 28 ≤ (overdue.pt p).sinceRelease)) ∧
      ((overdue.ctx ↑3).hold = Hold.none ∨ ∃ i k a, (overdue.ctx ↑3).hold = Hold.wait i k a)) ∧
    (Shaped w_HD_9_1 ∧ 3 < w_HD_9_1.start.stage ∧ (w_HD_9_1.ctx ↑3).overdue = true) := by
  unfold Shaped
  exact ⟨by decide +kernel, ⟨by decide +kernel, .inl rfl⟩, ⟨by decide +kernel, .inl rfl⟩, by decide +kernel⟩
/-! ### ChannelReads -/

theorem witness_ChannelReads_1 :
    (Shaped landing ∧ landing.dram.wf = true ∧ landing.crossing = [word0] ∧ word0.due ≤ landing.clk.life + 1 ∧ word0.data = some 7) ∧
    (Shaped proRead ∧ proRead.dram.wf = true ∧ (proRead.ctx ↑3).prog = some proProg ∧ (proRead.ctx ↑3).alloc = some alloc1 ∧
      List.idxOf (↑32) alloc1.chans < alloc1.chans.length ∧ proRead.proCycle ↑3 = some 6 ∧ 6 % 6 = 0 ∧
      (proRead.chan ↑32).slotAt ≠ proRead.clk.life + 1 ∧
      slotBurst proProg (proProg.lists.getD (List.idxOf (↑32) alloc1.chans) { stride := 0, win := 0, ents := [] }) (6 / 6) = some (proEnt, 0, 0) ∧
      proEnt.op ≤ 1 ∧ proEnt.region ≠ 127) ∧
    (Shaped (listRun 0 1) ∧ (listRun 0 1).dram.wf = true ∧ ((listRun 0 1).ctx ↑3).prog = some (listProg 0) ∧
      ((listRun 0 1).ctx ↑3).alloc = some alloc1 ∧ List.idxOf (↑32) alloc1.chans < alloc1.chans.length ∧
      (listRun 0 1).proCycle ↑3 = none ∧
      (((listRun 0 1).chan ↑32).slotAt = (listRun 0 1).clk.life + 1 ∨ ((listRun 0 1).ctx ↑3).sched % 6 ≠ 0 ∨ (listRun 0 1).schedRuns ↑3 = false)) := by
  unfold Shaped
  refine ⟨?_, ?_, ?_⟩ <;> decide +kernel
theorem witness_ChannelReads_2 :
    (Shaped (listRun 0 0) ∧ (listRun 0 0).dram.wf = true ∧ ((listRun 0 0).ctx ↑3).prog = some (listProg 0) ∧
      ((listRun 0 0).ctx ↑3).alloc = some alloc1 ∧ List.idxOf (↑32) alloc1.chans < alloc1.chans.length ∧
      (listRun 0 0).proCycle ↑3 = none ∧ ((listRun 0 0).chan ↑32).slotAt ≠ (listRun 0 0).clk.life + 1 ∧
      ((listRun 0 0).ctx ↑3).sched % 6 = 0 ∧ (listRun 0 0).schedRuns ↑3 = true ∧
      slotBurst (listProg 0) ((listProg 0).lists.getD (List.idxOf (↑32) alloc1.chans) { stride := 0, win := 0, ents := [] }) (((listRun 0 0).ctx ↑3).sched / 6) = none) ∧
    (Shaped (listRun 0 6) ∧ (listRun 0 6).dram.wf = true ∧ ((listRun 0 6).ctx ↑3).prog = some (listProg 0) ∧
      ((listRun 0 6).ctx ↑3).alloc = some alloc1 ∧ List.idxOf (↑32) alloc1.chans < alloc1.chans.length ∧
      (listRun 0 6).proCycle ↑3 = none ∧ ((listRun 0 6).chan ↑32).slotAt ≠ (listRun 0 6).clk.life + 1 ∧
      ((listRun 0 6).ctx ↑3).sched % 6 = 0 ∧ (listRun 0 6).schedRuns ↑3 = true ∧
      slotBurst (listProg 0) ((listProg 0).lists.getD (List.idxOf (↑32) alloc1.chans) { stride := 0, win := 0, ents := [] }) (((listRun 0 6).ctx ↑3).sched / 6) = some (oneEnt 0, 0, 0) ∧
      (oneEnt 0).op ≤ 1) := by
  unfold Shaped
  refine ⟨?_, ?_⟩ <;> decide +kernel
theorem witness_ChannelReads_3 :
    (Shaped (wrBufIs [some 9]) ∧ (wrBufIs [some 9]).dram.wf = true ∧ ((wrBufIs [some 9]).ctx ↑3).prog = some (listProg 2) ∧
      ((wrBufIs [some 9]).ctx ↑3).alloc = some alloc1 ∧ List.idxOf (↑32) alloc1.chans < alloc1.chans.length ∧
      (wrBufIs [some 9]).proCycle ↑3 = none ∧ ((wrBufIs [some 9]).chan ↑32).slotAt ≠ (wrBufIs [some 9]).clk.life + 1 ∧
      ((wrBufIs [some 9]).ctx ↑3).sched % 6 = 0 ∧ (wrBufIs [some 9]).schedRuns ↑3 = true ∧
      slotBurst (listProg 2) ((listProg 2).lists.getD (List.idxOf (↑32) alloc1.chans) { stride := 0, win := 0, ents := [] }) (((wrBufIs [some 9]).ctx ↑3).sched / 6) = some (oneEnt 2, 0, 0) ∧
      1 < (oneEnt 2).op ∧ ((wrBufIs [some 9]).portTile (listProg 2) alloc1 (List.idxOf (↑32) alloc1.chans)).1 = some pIx ∧
      (((wrBufIs [some 9]).tile pIx).stateAt (oneEnt 2).ctx).wrBuf = [some 9]) ∧
    (Shaped (wrBufIs [none]) ∧ (wrBufIs [none]).dram.wf = true ∧ ((wrBufIs [none]).ctx ↑3).prog = some (listProg 2) ∧
      ((wrBufIs [none]).ctx ↑3).alloc = some alloc1 ∧ List.idxOf (↑32) alloc1.chans < alloc1.chans.length ∧
      (wrBufIs [none]).proCycle ↑3 = none ∧ ((wrBufIs [none]).chan ↑32).slotAt ≠ (wrBufIs [none]).clk.life + 1 ∧
      ((wrBufIs [none]).ctx ↑3).sched % 6 = 0 ∧ (wrBufIs [none]).schedRuns ↑3 = true ∧
      slotBurst (listProg 2) ((listProg 2).lists.getD (List.idxOf (↑32) alloc1.chans) { stride := 0, win := 0, ents := [] }) (((wrBufIs [none]).ctx ↑3).sched / 6) = some (oneEnt 2, 0, 0) ∧
      1 < (oneEnt 2).op ∧ ((wrBufIs [none]).portTile (listProg 2) alloc1 (List.idxOf (↑32) alloc1.chans)).1 = some pIx ∧
      (((wrBufIs [none]).tile pIx).stateAt (oneEnt 2).ctx).wrBuf = [none]) := by
  unfold Shaped
  refine ⟨?_, ?_⟩ <;> decide +kernel
theorem witness_ChannelReads_4 :
    (Shaped (wrBufIs []) ∧ (wrBufIs []).dram.wf = true ∧ ((wrBufIs []).ctx ↑3).prog = some (listProg 2) ∧
      ((wrBufIs []).ctx ↑3).alloc = some alloc1 ∧ List.idxOf (↑32) alloc1.chans < alloc1.chans.length ∧
      (wrBufIs []).proCycle ↑3 = none ∧ ((wrBufIs []).chan ↑32).slotAt ≠ (wrBufIs []).clk.life + 1 ∧
      ((wrBufIs []).ctx ↑3).sched % 6 = 0 ∧ (wrBufIs []).schedRuns ↑3 = true ∧
      slotBurst (listProg 2) ((listProg 2).lists.getD (List.idxOf (↑32) alloc1.chans) { stride := 0, win := 0, ents := [] }) (((wrBufIs []).ctx ↑3).sched / 6) = some (oneEnt 2, 0, 0) ∧
      1 < (oneEnt 2).op ∧ ((wrBufIs []).portTile (listProg 2) alloc1 (List.idxOf (↑32) alloc1.chans)).1 = some pIx ∧
      (((wrBufIs []).tile pIx).stateAt (oneEnt 2).ctx).wrBuf = []) ∧
    (Shaped (listRun 0 6) ∧ ((listRun 0 6).ctx ↑3).prog = some (listProg 0) ∧ ((listRun 0 6).ctx ↑3).alloc = some alloc1 ∧
      ((∀ r ∈ ((listRun 0 6).ctx ↑3).reads, r.ch = ↑32 → r.pro = ((listRun 0 6).proCycle ↑3).isSome → r.due ≠ ((listRun 0 6).proCycle ↑3).getD ((listRun 0 6).ctx ↑3).sched) ∨ (listRun 0 6).proCycle ↑3 = none ∧ (listRun 0 6).schedRuns ↑3 = false)) ∧
    (Shaped arriving ∧ (arriving.ctx ↑3).prog = some (listProg 0) ∧ (arriving.ctx ↑3).alloc = some alloc1 ∧
      (arriving.proCycle ↑3 ≠ none ∨ arriving.schedRuns ↑3 = true) ∧
      (takeFirst (fun r ↦ decide (r.ch = ↑32 ∧ r.due = (arriving.proCycle ↑3).getD (arriving.ctx ↑3).sched ∧ r.pro = (arriving.proCycle ↑3).isSome)) (arriving.ctx ↑3).reads = some (rd0, [])) ∧
      (arriving.portTile (listProg 0) alloc1 rd0.list).1 = some pIx ∧
      (Ecc.corrected = eccOutcome (↑32) (rd0.off / 960) (rd0.off % 960 / 64) (rd0.dflaw ^^^ List.foldl (fun m f ↦ if f.ch = 32 ∧ f.group.toNat = rd0.off / 960 ∧ ↑f.burst = rd0.off % 960 / 64 then m ^^^ f.mask else m) 0 [flipR 1]) (rd0.cflaw ^^^ List.foldl (fun m f ↦ if f.ch = 32 ∧ f.group.toNat = rd0.off / 960 ∧ ↑f.burst = 15 then m ^^^ f.mask else m) 0 [flipR 1])) ∧
      (((arriving.tile pIx).stateAt (if rd0.pro = true then 8 else rd0.cfg)).rdBuf.length < 64) ∧
      (Ecc.corrected = Ecc.clean ∨ Ecc.corrected = Ecc.corrected) ∧ rd0.lost = false) := by
  unfold Shaped
  refine ⟨?_, ?_, ?_⟩ <;> decide +kernel
theorem witness_ChannelReads_5 :
    (Shaped arriving ∧ (arriving.ctx ↑3).prog = some (listProg 0) ∧ (arriving.ctx ↑3).alloc = some alloc1 ∧
      (arriving.proCycle ↑3 ≠ none ∨ arriving.schedRuns ↑3 = true) ∧
      (takeFirst (fun r ↦ decide (r.ch = ↑32 ∧ r.due = (arriving.proCycle ↑3).getD (arriving.ctx ↑3).sched ∧ r.pro = (arriving.proCycle ↑3).isSome)) (arriving.ctx ↑3).reads = some (rd0, [])) ∧
      (arriving.portTile (listProg 0) alloc1 rd0.list).1 = some pIx ∧
      (Ecc.uncorrectable = eccOutcome (↑32) (rd0.off / 960) (rd0.off % 960 / 64) (rd0.dflaw ^^^ List.foldl (fun m f ↦ if f.ch = 32 ∧ f.group.toNat = rd0.off / 960 ∧ ↑f.burst = rd0.off % 960 / 64 then m ^^^ f.mask else m) 0 [flipR 16777215]) (rd0.cflaw ^^^ List.foldl (fun m f ↦ if f.ch = 32 ∧ f.group.toNat = rd0.off / 960 ∧ ↑f.burst = 15 then m ^^^ f.mask else m) 0 [flipR 16777215])) ∧
      (((arriving.tile pIx).stateAt (if rd0.pro = true then 8 else rd0.cfg)).rdBuf.length < 64) ∧
      (Ecc.uncorrectable = Ecc.uncorrectable ∨ Ecc.uncorrectable ≠ Ecc.tagError ∧ rd0.lost = true) ∧
      (arriving.ctx ↑3).rollbacks = 0 ∧ (arriving.ctx ↑3).run ≠ none ∧ 3 < arriving.start.stage ∧
      ((arriving.chan ↑32).broke = true ∨ (arriving.chan ↑32).errs = [])) ∧
    (Shaped arrivingFull ∧ (arrivingFull.ctx ↑3).prog = some (listProg 0) ∧ (arrivingFull.ctx ↑3).alloc = some alloc1 ∧
      (arrivingFull.proCycle ↑3 ≠ none ∨ arrivingFull.schedRuns ↑3 = true) ∧
      (takeFirst (fun r ↦ decide (r.ch = ↑32 ∧ r.due = (arrivingFull.proCycle ↑3).getD (arrivingFull.ctx ↑3).sched ∧ r.pro = (arrivingFull.proCycle ↑3).isSome)) (arrivingFull.ctx ↑3).reads = some (rd0, [])) ∧
      (arrivingFull.portTile (listProg 0) alloc1 rd0.list).1 = some pIx ∧
      Ecc.clean = eccOutcome 32 (rd0.off / 960) (rd0.off % 960 / 64) rd0.dflaw rd0.cflaw ∧
      (64 ≤ ((arrivingFull.tile pIx).stateAt (if rd0.pro = true then 8 else rd0.cfg)).rdBuf.length) ∧ rd0.lost = false) := by
  unfold Shaped
  refine ⟨?_, ?_⟩ <;> decide +kernel
/-! ### ScrubbingAndTemperature -/

def w_Sc_1_4 : PTile := ⟨3, 0, 0⟩
def w_Sc_4_2 : State := up.modChan 191 fun x => { x with selfRefresh := false }
def w_Sc_5_2 : State := up.modChan 191 fun x => { x with selfRefresh := false }
def w_Sc_6_2 : State := { (up.modChan 191 fun x => { x with selfRefresh := false }).modPt 7 (fun x => { x with pwr := .off }) with clk := { up.clk with life := 2 ^ 20 } }
theorem witness_ScrubbingAndTemperature_1 :
    (Shaped clean1 ∧ 3 < clean1.start.stage ∧
      (storeWords (ptileIx w_Sc_1_4 % 16) = 0 ∨ (clean1.pt (ptOfSheet (ptileIx w_Sc_1_4 / 288))).pwr ≠ PtPwr.run ∧ (clean1.pt (ptOfSheet (ptileIx w_Sc_1_4 / 288))).pwr ≠ PtPwr.idle)) ∧
    (Shaped clean1 ∧ 3 < clean1.start.stage ∧ storeWords (ptileIx sTile % 16) ≠ 0 ∧
      ((clean1.pt (ptOfSheet (ptileIx sTile / 288))).pwr = PtPwr.run ∨ (clean1.pt (ptOfSheet (ptileIx sTile / 288))).pwr = PtPwr.idle)) ∧
    (Shaped clean1 ∧ 3 < clean1.start.stage ∧ storeWords (ptileIx sTile % 16) ≠ 0 ∧
      ((clean1.pt (ptOfSheet (ptileIx sTile / 288))).pwr = PtPwr.run ∨ (clean1.pt (ptOfSheet (ptileIx sTile / 288))).pwr = PtPwr.idle)) ∧
    (Shaped clean1 ∧ 3 < clean1.start.stage ∧ ((clean1.chan ↑191).broke = true ∨ (clean1.chan ↑191).selfRefresh = true)) ∧
    (Shaped w_Sc_4_2 ∧ 3 < w_Sc_4_2.start.stage ∧ (w_Sc_4_2.chan ↑191).broke = false ∧ (w_Sc_4_2.chan ↑191).selfRefresh = false ∧
      (∀ i < 15, (w_Sc_4_2.decay [flipS 1]).wordEcc (↑191) (960 * ((w_Sc_4_2.chan ↑191).scrub % w_Sc_4_2.groupsPerChan) + 64 * i) = Ecc.clean ∨ (w_Sc_4_2.decay [flipS 1]).wordEcc (↑191) (960 * ((w_Sc_4_2.chan ↑191).scrub % w_Sc_4_2.groupsPerChan) + 64 * i) = Ecc.corrected)) ∧
    (Shaped w_Sc_5_2 ∧ 3 < w_Sc_5_2.start.stage ∧ (w_Sc_5_2.chan ↑191).broke = false ∧ (w_Sc_5_2.chan ↑191).selfRefresh = false ∧
      (∃ i < 15, (w_Sc_5_2.decay [flipS 16777215]).wordEcc (↑191) (960 * ((w_Sc_5_2.chan ↑191).scrub % w_Sc_5_2.groupsPerChan) + 64 * i) = Ecc.uncorrectable) ∧
      (∀ i < 15, (w_Sc_5_2.decay [flipS 16777215]).wordEcc (↑191) (960 * ((w_Sc_5_2.chan ↑191).scrub % w_Sc_5_2.groupsPerChan) + 64 * i) ≠ Ecc.tagError)) ∧
    (Shaped w_Sc_6_2 ∧ 3 < w_Sc_6_2.start.stage ∧ (w_Sc_6_2.pt (ptOfChan ↑191)).pwr = PtPwr.off ∧
      (w_Sc_6_2.chan ↑191).selfRefresh = false ∧ (w_Sc_6_2.chan ↑191).wokenAt + 2 ^ 20 ≤ w_Sc_6_2.clk.life) := by
  unfold Shaped
  refine ⟨?_, ?_, ?_, ?_, ?_, ?_, ?_⟩ <;> decide +kernel
theorem witness_ScrubbingAndTemperature_2 :
    (Shaped up ∧ 3 < up.start.stage ∧
      ((up.pt (ptOfChan ↑191)).pwr ≠ PtPwr.off ∨ (up.chan ↑191).selfRefresh = true ∨ up.clk.life < (up.chan ↑191).wokenAt + 2 ^ 20)) ∧
    (Shaped up ∧ (∀ c < 64, (up.ctx c).run = none)) ∧
    (Shaped running ∧ (tempsMap running (badPkg 50) = List.foldl (fun m e ↦ m.set (↑e.1) e.2) running.dies.pkgTemp (badPkg 50)) ∧
      (hotOf running (tempsMap running (badPkg 50)) = List.filter (fun p ↦ ((packagesOf p).any fun k ↦ decide (105 < (tempsMap running (badPkg 50)).getD k 0)) || running.dies.hotPts.contains p && (packagesOf p).any fun k ↦ decide (100 < (tempsMap running (badPkg 50)).getD k 0)) (List.range 8)) ∧
      tempsIn running (badPkg 50) = { clk := running.clk, ident := running.ident, host := running.host, pts := running.pts, chans := running.chans, sheets := running.sheets, tiles := running.tiles, flights := running.flights, qmaxes := running.qmaxes, dram := running.dram, pool := running.pool, poolChans := running.poolChans, ctxs := running.ctxs, rot := running.rot, ends := running.ends, copies := running.copies, sessions := running.sessions, cache := running.cache, modCtr := running.modCtr, groups := running.groups, ops := running.ops, lastOp := running.lastOp, logs := running.logs, dies := have __src := running.dies; { ct0Lost := __src.ct0Lost, ct1Lost := __src.ct1Lost, beat := __src.beat, coreOff := __src.coreOff, coreDown := __src.coreDown, expiries := __src.expiries, nipOff := __src.nipOff, ecOff := __src.ecOff, nipLogged := __src.nipLogged, pkgTemp := tempsMap running (badPkg 50), hotPts := hotOf running (tempsMap running (badPkg 50)), dieTemp := __src.dieTemp, limL := __src.limL, thermT := __src.thermT, thermtrip := __src.thermtrip, powerW := __src.powerW, powerAt := __src.powerAt, limAt := __src.limAt, second := __src.second, tempAt := __src.tempAt, energy := __src.energy }, mgmt := running.mgmt, side := running.side, ports := running.ports, rxq := running.rxq, jobs := running.jobs, reel := running.reel, dumps := running.dumps, dumping := running.dumping, nextDump := running.nextDump, start := running.start, crossing := running.crossing, scratch := running.scratch, verdicts := running.verdicts, fresh := running.fresh, outbox := running.outbox, pending := running.pending } ∧
      3 < 64 ∧ (∀ d < 64, d ≠ 3 → (running.ctx d).run = none) ∧ (running.ctx 3).prog = some boxProg ∧
      (running.ctx 3).st = CtxState.running ∧ (running.ctx 3).run ≠ none ∧ (running.ctx 3).hotHold = false ∧
      (∀ e ∈ (tempsIn running (badPkg 50)).bands (running.ctx 3).held, e.2 = 0 ∨ boxProg.refreshN = false ∧ e.2 ≠ 3)) ∧
    (Shaped runN ∧ (tempsMap runN (badPkg 85) = List.foldl (fun m e ↦ m.set (↑e.1) e.2) runN.dies.pkgTemp (badPkg 85)) ∧
      (hotOf runN (tempsMap runN (badPkg 85)) = List.filter (fun p ↦ ((packagesOf p).any fun k ↦ decide (105 < (tempsMap runN (badPkg 85)).getD k 0)) || runN.dies.hotPts.contains p && (packagesOf p).any fun k ↦ decide (100 < (tempsMap runN (badPkg 85)).getD k 0)) (List.range 8)) ∧
      tempsIn runN (badPkg 85) = { clk := runN.clk, ident := runN.ident, host := runN.host, pts := runN.pts, chans := runN.chans, sheets := runN.sheets, tiles := runN.tiles, flights := runN.flights, qmaxes := runN.qmaxes, dram := runN.dram, pool := runN.pool, poolChans := runN.poolChans, ctxs := runN.ctxs, rot := runN.rot, ends := runN.ends, copies := runN.copies, sessions := runN.sessions, cache := runN.cache, modCtr := runN.modCtr, groups := runN.groups, ops := runN.ops, lastOp := runN.lastOp, logs := runN.logs, dies := have __src := runN.dies; { ct0Lost := __src.ct0Lost, ct1Lost := __src.ct1Lost, beat := __src.beat, coreOff := __src.coreOff, coreDown := __src.coreDown, expiries := __src.expiries, nipOff := __src.nipOff, ecOff := __src.ecOff, nipLogged := __src.nipLogged, pkgTemp := tempsMap runN (badPkg 85), hotPts := hotOf runN (tempsMap runN (badPkg 85)), dieTemp := __src.dieTemp, limL := __src.limL, thermT := __src.thermT, thermtrip := __src.thermtrip, powerW := __src.powerW, powerAt := __src.powerAt, limAt := __src.limAt, second := __src.second, tempAt := __src.tempAt, energy := __src.energy }, mgmt := runN.mgmt, side := runN.side, ports := runN.ports, rxq := runN.rxq, jobs := runN.jobs, reel := runN.reel, dumps := runN.dumps, dumping := runN.dumping, nextDump := runN.nextDump, start := runN.start, crossing := runN.crossing, scratch := runN.scratch, verdicts := runN.verdicts, fresh := runN.fresh, outbox := runN.outbox, pending := runN.pending } ∧
      3 < 64 ∧ (∀ d < 64, d ≠ 3 → (runN.ctx d).run = none) ∧ (runN.ctx 3).prog = some nProg ∧ (runN.ctx 3).st = CtxState.running ∧
      (runN.ctx 3).run ≠ none ∧ (runN.ctx 3).hotHold = false ∧ nProg.refreshN = true ∧
      (∀ e ∈ (tempsIn runN (badPkg 85)).bands (runN.ctx 3).held, e.2 ≤ 1) ∧
      (∃ e ∈ (tempsIn runN (badPkg 85)).bands (runN.ctx 3).held, e.2 = 1) ∧ (runN.ctx 3).refreshEnd = false) := by
  unfold Shaped
  refine ⟨?_, ?_, ?_, ?_⟩ <;> decide +kernel
theorem witness_ScrubbingAndTemperature_3 :
    (Shaped runN ∧ (tempsMap runN (badPkg 100) = List.foldl (fun m e ↦ m.set (↑e.1) e.2) runN.dies.pkgTemp (badPkg 100)) ∧
      (hotOf runN (tempsMap runN (badPkg 100)) = List.filter (fun p ↦ ((packagesOf p).any fun k ↦ decide (105 < (tempsMap runN (badPkg 100)).getD k 0)) || runN.dies.hotPts.contains p && (packagesOf p).any fun k ↦ decide (100 < (tempsMap runN (badPkg 100)).getD k 0)) (List.range 8)) ∧
      tempsIn runN (badPkg 100) = { clk := runN.clk, ident := runN.ident, host := runN.host, pts := runN.pts, chans := runN.chans, sheets := runN.sheets, tiles := runN.tiles, flights := runN.flights, qmaxes := runN.qmaxes, dram := runN.dram, pool := runN.pool, poolChans := runN.poolChans, ctxs := runN.ctxs, rot := runN.rot, ends := runN.ends, copies := runN.copies, sessions := runN.sessions, cache := runN.cache, modCtr := runN.modCtr, groups := runN.groups, ops := runN.ops, lastOp := runN.lastOp, logs := runN.logs, dies := have __src := runN.dies; { ct0Lost := __src.ct0Lost, ct1Lost := __src.ct1Lost, beat := __src.beat, coreOff := __src.coreOff, coreDown := __src.coreDown, expiries := __src.expiries, nipOff := __src.nipOff, ecOff := __src.ecOff, nipLogged := __src.nipLogged, pkgTemp := tempsMap runN (badPkg 100), hotPts := hotOf runN (tempsMap runN (badPkg 100)), dieTemp := __src.dieTemp, limL := __src.limL, thermT := __src.thermT, thermtrip := __src.thermtrip, powerW := __src.powerW, powerAt := __src.powerAt, limAt := __src.limAt, second := __src.second, tempAt := __src.tempAt, energy := __src.energy }, mgmt := runN.mgmt, side := runN.side, ports := runN.ports, rxq := runN.rxq, jobs := runN.jobs, reel := runN.reel, dumps := runN.dumps, dumping := runN.dumping, nextDump := runN.nextDump, start := runN.start, crossing := runN.crossing, scratch := runN.scratch, verdicts := runN.verdicts, fresh := runN.fresh, outbox := runN.outbox, pending := runN.pending } ∧
      3 < 64 ∧ (∀ d < 64, d ≠ 3 → (runN.ctx d).run = none) ∧ (runN.ctx 3).prog = some nProg ∧ (runN.ctx 3).st = CtxState.running ∧
      (runN.ctx 3).run ≠ none ∧ (runN.ctx 3).hotHold = false ∧ (2 = if nProg.refreshN = true then 2 else 3) ∧
      (∃ e ∈ (tempsIn runN (badPkg 100)).bands (runN.ctx 3).held, 2 ≤ e.2) ∧
      (∀ e ∈ (tempsIn runN (badPkg 100)).bands (runN.ctx 3).held, e.2 ≤ 3)) ∧
    (Shaped running ∧ (tempsMap running (badPkg 106) = List.foldl (fun m e ↦ m.set (↑e.1) e.2) running.dies.pkgTemp (badPkg 106)) ∧
      (hotOf running (tempsMap running (badPkg 106)) = List.filter (fun p ↦ ((packagesOf p).any fun k ↦ decide (105 < (tempsMap running (badPkg 106)).getD k 0)) || running.dies.hotPts.contains p && (packagesOf p).any fun k ↦ decide (100 < (tempsMap running (badPkg 106)).getD k 0)) (List.range 8)) ∧
      tempsIn running (badPkg 106) = { clk := running.clk, ident := running.ident, host := running.host, pts := running.pts, chans := running.chans, sheets := running.sheets, tiles := running.tiles, flights := running.flights, qmaxes := running.qmaxes, dram := running.dram, pool := running.pool, poolChans := running.poolChans, ctxs := running.ctxs, rot := running.rot, ends := running.ends, copies := running.copies, sessions := running.sessions, cache := running.cache, modCtr := running.modCtr, groups := running.groups, ops := running.ops, lastOp := running.lastOp, logs := running.logs, dies := have __src := running.dies; { ct0Lost := __src.ct0Lost, ct1Lost := __src.ct1Lost, beat := __src.beat, coreOff := __src.coreOff, coreDown := __src.coreDown, expiries := __src.expiries, nipOff := __src.nipOff, ecOff := __src.ecOff, nipLogged := __src.nipLogged, pkgTemp := tempsMap running (badPkg 106), hotPts := hotOf running (tempsMap running (badPkg 106)), dieTemp := __src.dieTemp, limL := __src.limL, thermT := __src.thermT, thermtrip := __src.thermtrip, powerW := __src.powerW, powerAt := __src.powerAt, limAt := __src.limAt, second := __src.second, tempAt := __src.tempAt, energy := __src.energy }, mgmt := running.mgmt, side := running.side, ports := running.ports, rxq := running.rxq, jobs := running.jobs, reel := running.reel, dumps := running.dumps, dumping := running.dumping, nextDump := running.nextDump, start := running.start, crossing := running.crossing, scratch := running.scratch, verdicts := running.verdicts, fresh := running.fresh, outbox := running.outbox, pending := running.pending } ∧
      3 < 64 ∧ (∀ d < 64, d ≠ 3 → (running.ctx d).run = none) ∧ (running.ctx 3).prog = some boxProg ∧
      (running.ctx 3).st = CtxState.running ∧ (running.ctx 3).run ≠ none ∧ (running.ctx 3).hotHold = false ∧
      (3 = if boxProg.refreshN = true then 2 else 3) ∧ (∃ e ∈ (tempsIn running (badPkg 106)).bands (running.ctx 3).held, 3 ≤ e.2) ∧
      (∀ e ∈ (tempsIn running (badPkg 106)).bands (running.ctx 3).held, e.2 ≤ 3)) := by
  unfold Shaped
  refine ⟨?_, ?_⟩ <;> decide +kernel
theorem witness_ScrubbingAndTemperature_4 :
    (Shaped hotHeld ∧ hotHeld.boundCtxs = [3] ∧ (hotHeld.ctx 3).prog = some boxProg ∧ (hotHeld.ctx 3).st = CtxState.running ∧
      (hotHeld.ctx 3).hotHold = true ∧ (hotHeld.ctx 3).viols = [] ∧ (hotHeld.ctx 3).held ⊆ List.range 8 ∧ hotHeld.cyc % 32 = 0) := by
  unfold Shaped
  decide +kernel
/-! ### ReservedTraffic -/

def w_RT_1b_5 : FwCell := ⟨tp, 1, 0, true, 7⟩
def w_RT_5_2 : State := cellAt t10 0 (cell 1 0 ^^^ 1)
theorem witness_ReservedTraffic_1 :
    (Shaped up ∧ up.slot31 0 = false) ∧
    (Shaped (slotAt 0) ∧ (slotAt 0).slot31 0 = true ∧ (∀ p < 8, (slotAt 0).awake p = true → (slotAt 0).cellTiles p = []) ∧
      (slotAt 0).awake (ptOfSheet ↑w_RT_1b_5.t.sh) = true ∧ (slotAt 0).mgmt.restart = none ∧
      ((slotAt 0).tile (tileIx ↑w_RT_1b_5.t.sh ↑w_RT_1b_5.t.pc ↑w_RT_1b_5.t.row)).latches = List.replicate 5 none) ∧
    (Shaped (slotAt 0) ∧ (slotAt 0).slot31 0 = true ∧ (∀ p < 8, (slotAt 0).awake p = true → (slotAt 0).cellTiles p = [])) ∧
    (Shaped (cellAt t10 1 (cell 1 0)) ∧ (cellAt t10 1 (cell 1 0)).slot31 0 = true ∧ 1 < 8 ∧
      (cellAt t10 1 (cell 1 0)).awake 1 = true ∧ (cellAt t10 1 (cell 1 0)).cellTiles 1 = [(1, 0, t10)] ∧
      (∀ q < 8, q ≠ 1 → (cellAt t10 1 (cell 1 0)).awake q = true → (cellAt t10 1 (cell 1 0)).cellTiles q = []) ∧ 1 < 5 ∧
      ((cellAt t10 1 (cell 1 0)).tile t10).latches = (List.replicate 5 none).set 1 (some (cell 1 0)) ∧
      served (nextHop 1 0 (cell 1 0)) ((cellAt t10 1 (cell 1 0)).cyc / 64) ≠ 1) := by
  unfold Shaped
  refine ⟨?_, ?_, ?_, ?_⟩ <;> decide +kernel
theorem witness_ReservedTraffic_2 :
    (Shaped (cellAt t10 0 (cell 1 0)) ∧ (cellAt t10 0 (cell 1 0)).slot31 0 = true ∧ 1 < 8 ∧
      (cellAt t10 0 (cell 1 0)).awake 1 = true ∧ (cellAt t10 0 (cell 1 0)).cellTiles 1 = [(1, 0, t10)] ∧
      (∀ q < 8, q ≠ 1 → (cellAt t10 0 (cell 1 0)).awake q = true → (cellAt t10 0 (cell 1 0)).cellTiles q = []) ∧ 0 < 5 ∧
      ((cellAt t10 0 (cell 1 0)).tile t10).latches = (List.replicate 5 none).set 0 (some (cell 1 0)) ∧
      served (nextHop 1 0 (cell 1 0)) ((cellAt t10 0 (cell 1 0)).cyc / 64) = 0 ∧ nextHop 1 0 (cell 1 0) = 4 ∧
      (cell 1 0 ^^^ flipOf [] t10 6).parOk = true ∧ (cell 1 0 ^^^ flipOf [] t10 6).valid = true ∧
      (cell 1 0 ^^^ flipOf [] t10 6).kind = 1) ∧
    (Shaped w_RT_5_2 ∧ w_RT_5_2.slot31 0 = true ∧ 1 < 8 ∧ w_RT_5_2.awake 1 = true ∧ w_RT_5_2.cellTiles 1 = [(1, 0, t10)] ∧
      (∀ q < 8, q ≠ 1 → w_RT_5_2.awake q = true → w_RT_5_2.cellTiles q = []) ∧ 0 < 5 ∧
      (w_RT_5_2.tile t10).latches = (List.replicate 5 none).set 0 (some (cell 1 0 ^^^ 1)) ∧
      served (nextHop 1 0 (cell 1 0 ^^^ 1)) (w_RT_5_2.cyc / 64) = 0 ∧ nextHop 1 0 (cell 1 0 ^^^ 1) = 4 ∧
      (cell 1 0 ^^^ 1 ^^^ flipOf [] t10 6).parOk = false ∧ 3 < w_RT_5_2.start.stage) := by
  unfold Shaped
  refine ⟨?_, ?_⟩ <;> decide +kernel
theorem witness_ReservedTraffic_3 :
    (Shaped (cellAt t00 3 (cell 0 2)) ∧ (cellAt t00 3 (cell 0 2)).slot31 0 = true ∧ 1 < 8 ∧
      (cellAt t00 3 (cell 0 2)).awake 1 = true ∧ (cellAt t00 3 (cell 0 2)).cellTiles 1 = [(0, 0, t00)] ∧
      (∀ q < 8, q ≠ 1 → (cellAt t00 3 (cell 0 2)).awake q = true → (cellAt t00 3 (cell 0 2)).cellTiles q = []) ∧ 3 < 5 ∧
      ((cellAt t00 3 (cell 0 2)).tile t00).latches = (List.replicate 5 none).set 3 (some (cell 0 2)) ∧
      served (nextHop 0 0 (cell 0 2)) ((cellAt t00 3 (cell 0 2)).cyc / 64) = 3 ∧
      planeNext 0 0 (nextHop 0 0 (cell 0 2)) = some (0, 1, 3) ∧ (cellAt t00 3 (cell 0 2)).localTile 1 0 1 = some t01 ∧ t01 ≠ t00 ∧
      ((cellAt t00 3 (cell 0 2)).tile t01).latches = List.replicate 5 none) ∧
    (Shaped (slotAt 0) ∧ (slotAt 0).slot31 1 = false) ∧
    ((Shaped (slotAt 1) ∧ (slotAt 1).slot31 1 = true) ∧
      (∀ (n : ℕ), ((slotAt 1).sheet n).dwell = none) ∧
      (∀ (i : ℕ), ((slotAt 1).tile i).sending = none)) ∧
    (Shaped (slotAt 1) ∧ (slotAt 1).slot31 1 = true) := by
  unfold Shaped
  exact ⟨by decide +kernel, by decide +kernel, ⟨by decide +kernel, slot_sheets_idle, fun _ => rfl⟩, by decide +kernel⟩
/-! ### DwellTests -/

def w_DT_5_1 : State := withDwell { dwl .zeroise with refusals := 1 }
def w_DT_5_4 : Dwell := { dwl .zeroise with refusals := 1 }
theorem witness_DwellTests_1 :
    (Shaped dueDwell ∧ 3 < dueDwell.start.stage ∧ (dueDwell.sheet ↑3).dwellDue = some DwellKind.sweep ∧
      (dueDwell.sheet ↑3).rove = some 16 ∧ 16 < 18 ∧ (dueDwell.sheet ↑3).health = 0 ∧ (dueDwell.sheet ↑3).dwell = none ∧
      ((dueDwell.pt (ptOfSheet ↑3)).pwr = PtPwr.run ∨ (dueDwell.pt (ptOfSheet ↑3)).pwr = PtPwr.idle) ∧
      (dueDwell.pt (ptOfSheet ↑3)).faulted = false ∧ dueDwell.dies.ct1Lost = false ∧ (2 : ℕ) ≤ BitVec.toNat (2 : W64)) ∧
    (Shaped dueDwell ∧ 3 < dueDwell.start.stage ∧
      ((dueDwell.sheet ↑(3 : Sh)).dwell ≠ none ∨ (dueDwell.sheet ↑(3 : Sh)).dwellDue = none ∨ (dueDwell.sheet ↑(3 : Sh)).rove = none ∨ BitVec.toNat (2 : W64) < (2 : ℕ) ∨ BitVec.toNat (1 : W64) < (2 : ℕ))) ∧
    (Shaped (inPhase Phase.zeroise) ∧ 3 < (inPhase Phase.zeroise).start.stage ∧
      ((inPhase Phase.zeroise).sheet ↑3).dwell = some (dwl Phase.zeroise) ∧ (dwl Phase.zeroise).abandoned = false ∧
      (dwl Phase.zeroise).pos < 18 ∧ (dwl Phase.zeroise).phase = Phase.zeroise) ∧
    (Shaped (inPhase Phase.zeroise) ∧ 3 < (inPhase Phase.zeroise).start.stage ∧
      ((inPhase Phase.zeroise).sheet ↑3).dwell = some (dwl Phase.zeroise) ∧ (dwl Phase.zeroise).abandoned = false ∧
      (dwl Phase.zeroise).pos < 18 ∧ (dwl Phase.zeroise).phase = Phase.zeroise ∧ (dwl Phase.zeroise).refusals = 0) := by
  unfold Shaped
  refine ⟨?_, ?_, ?_, ?_⟩ <;> decide +kernel
theorem witness_DwellTests_2 :
    (Shaped w_DT_5_1 ∧ 3 < w_DT_5_1.start.stage ∧ (w_DT_5_1.sheet ↑3).dwell = some w_DT_5_4 ∧ w_DT_5_4.abandoned = false ∧
      w_DT_5_4.pos < 18 ∧ w_DT_5_4.phase = Phase.zeroise ∧ 1 ≤ w_DT_5_4.refusals ∧ (w_DT_5_1.holderOfSheet ↑3).isSome = true) ∧
    (Shaped (inPhase Phase.march) ∧ 3 < (inPhase Phase.march).start.stage ∧
      ((inPhase Phase.march).sheet ↑3).dwell = some (dwl Phase.march) ∧ (dwl Phase.march).abandoned = false ∧
      (dwl Phase.march).pos < 18 ∧ (dwl Phase.march).phase = Phase.march) ∧
    (Shaped (inPhase Phase.logic) ∧ 3 < (inPhase Phase.logic).start.stage ∧
      ((inPhase Phase.logic).sheet ↑3).dwell = some (dwl Phase.logic) ∧ (dwl Phase.logic).abandoned = false ∧
      (dwl Phase.logic).pos < 18 ∧ (dwl Phase.logic).phase = Phase.logic ∧
      (∀ f ∈ [macFail], f.kind = 0 → f.sigDiff = 0 ∨ inMacRow f = true)) ∧
    (Shaped (inPhase Phase.margin) ∧ 3 < (inPhase Phase.margin).start.stage ∧
      ((inPhase Phase.margin).sheet ↑3).dwell = some (dwl Phase.margin) ∧ (dwl Phase.margin).abandoned = false ∧
      (dwl Phase.margin).pos < 18 ∧ (dwl Phase.margin).phase = Phase.margin ∧ (∀ f ∈ ([] : List BistFail), f.kind = 1 → f.sigDiff = 0)) := by
  unfold Shaped
  refine ⟨?_, ?_, ?_, ?_⟩ <;> decide +kernel
theorem witness_DwellTests_3 :
    (Shaped (inPhase Phase.logic) ∧ 3 < (inPhase Phase.logic).start.stage ∧
      ((inPhase Phase.logic).sheet ↑3).dwell = some (dwl Phase.logic) ∧ (dwl Phase.logic).abandoned = false ∧
      (dwl Phase.logic).pos < 18 ∧ (dwl Phase.logic).pos ∉ ((inPhase Phase.logic).sheet ↑3).broke ∧
      (∃ f ∈ [fail0 0 false], f.kind = 0 ∧ f.sigDiff ≠ 0 ∧ inMacRow f = false) ∧ (dwl Phase.logic).phase = Phase.logic) ∧
    (Shaped (inPhase Phase.margin) ∧ 3 < (inPhase Phase.margin).start.stage ∧
      ((inPhase Phase.margin).sheet ↑3).dwell = some (dwl Phase.margin) ∧ (dwl Phase.margin).abandoned = false ∧
      (dwl Phase.margin).pos < 18 ∧ (dwl Phase.margin).pos ∉ ((inPhase Phase.margin).sheet ↑3).broke ∧
      (∃ f ∈ [fail0 1 false], f.kind = 1 ∧ f.sigDiff ≠ 0) ∧ (dwl Phase.margin).phase = Phase.margin) := by
  unfold Shaped
  refine ⟨?_, ?_⟩ <;> decide +kernel
/-! ### DwellMoves -/

def w_DM_1_1 : State := withDwell { dwl .repair with fails := [fail0 2 true] }
def w_DM_1_3 : Dwell := { dwl .repair with fails := [fail0 2 true] }
def w_DM_6d_1 : State := lateLife (watch4 (idleDwell inStepD))
def w_DM_8_3 : Dwell := { inStepD with pos := 16 }
def w_DM_9_3 : Dwell := { inStepD with pos := 16 }
def w_DM_10_3 : Dwell := { inStepD with kind := .steered 4 9 }
def w_DM_10b_3 : Dwell := { inStepD with kind := .steered 4 8 }
def w_DM_11_1 : State := withDwell { swp with kind := .inspect }
def w_DM_11_3 : Dwell := { swp with kind := .inspect }
def w_DM_12_1 : State := watch4 (idleDwell { swp with kind := .inspect, phase := .idle })
def w_DM_12_3 : Dwell := { swp with kind := .inspect, phase := .idle }
theorem witness_DwellMoves_1 :
    ((Shaped w_DM_1_1 ∧ 3 < w_DM_1_1.start.stage ∧ (w_DM_1_1.sheet ↑3).dwell = some w_DM_1_3 ∧ w_DM_1_3.pos < 18 ∧
      w_DM_1_3.phase = Phase.repair ∧ w_DM_1_3.abandoned = false) ∧
      (w_DM_1_3.fails = [] ∨ ∃ f, w_DM_1_3.fails = [f] ∧ w_DM_1_1.canRepair (↑3) w_DM_1_3.pos f = true)) ∧
    (Shaped (inPhase Phase.repair) ∧ 3 < (inPhase Phase.repair).start.stage ∧
      ((inPhase Phase.repair).sheet ↑3).dwell = some (dwl Phase.repair) ∧ (dwl Phase.repair).pos < 18 ∧
      (dwl Phase.repair).phase = Phase.repair ∧ (dwl Phase.repair).abandoned = false ∧ [fail0 2 true] ≠ [] ∧
      (dwl Phase.repair).pos ∉ ((inPhase Phase.repair).sheet ↑3).broke) ∧
    (Shaped (inPhase Phase.couchIn) ∧ 3 < (inPhase Phase.couchIn).start.stage ∧
      ((inPhase Phase.couchIn).sheet ↑3).dwell = some (dwl Phase.couchIn) ∧ (dwl Phase.couchIn).pos < 18 ∧
      (dwl Phase.couchIn).phase = Phase.couchIn ∧ (dwl Phase.couchIn).couched = none ∧ (dwl Phase.couchIn).target ≠ none ∧
      ((inPhase Phase.couchIn).holderOfSheet ↑3).isSome = true) := by
  unfold Shaped
  exact ⟨⟨by decide +kernel, .inr ⟨fail0 2 true, rfl, by decide +kernel⟩⟩, by decide +kernel, by decide +kernel⟩
theorem witness_DwellMoves_2 :
    (Shaped (idleDwell swp) ∧ 3 < (idleDwell swp).start.stage ∧ ((idleDwell swp).sheet ↑3).dwell = some swp ∧ swp.pos < 18 ∧
      swp.phase = Phase.couchIn ∧ swp.couched = none ∧ swp.target ≠ none ∧ ((idleDwell swp).holderOfSheet ↑3).isSome = false ∧
      swp.inStep = false ∧ swp.catching = none ∧ ((idleDwell swp).sheet ↑3).mostDirty ≤ 33952) ∧
    (Shaped (inPhase Phase.march) ∧ 3 < (inPhase Phase.march).start.stage ∧
      ((inPhase Phase.march).sheet ↑3).dwell = some (dwl Phase.march) ∧ (dwl Phase.march).pos < 18 ∧
      ((dwl Phase.march).phase ≠ Phase.couchIn ∨ (dwl Phase.march).couched ≠ none ∨ (dwl Phase.march).target = none)) ∧
    (Shaped (inPhase Phase.march) ∧ 3 < (inPhase Phase.march).start.stage ∧
      ((inPhase Phase.march).sheet ↑3).dwell = some (dwl Phase.march) ∧ (dwl Phase.march).pos < 18 ∧
      (dwl Phase.march).kind ≠ DwellKind.inspect ∧
      ((dwl Phase.march).inStep = false ∨ (inPhase Phase.march).clk.life < (dwl Phase.march).start + 172800000)) ∧
    (Shaped (idleDwell inStepD) ∧ 3 < (idleDwell inStepD).start.stage ∧ ((idleDwell inStepD).sheet ↑3).dwell = some inStepD ∧
      inStepD.pos < 18 ∧ inStepD.kind ≠ DwellKind.inspect ∧
      (inStepD.inStep = false ∨ (idleDwell inStepD).clk.life < inStepD.start + 172800000)) := by
  unfold Shaped
  refine ⟨?_, ?_, ?_, ?_⟩ <;> decide +kernel
theorem witness_DwellMoves_3 :
    (Shaped (lateLife (idleDwell inStepD)) ∧ 3 < (lateLife (idleDwell inStepD)).start.stage ∧
      ((lateLife (idleDwell inStepD)).sheet ↑3).dwell = some inStepD ∧ inStepD.pos < 18 ∧
      (lateLife (idleDwell inStepD)).holderOfSheet ↑3 = none ∧ ((lateLife (idleDwell inStepD)).sheet ↑3).shadowed = some inStepD ∧
      inStepD.start + 172800000 ≤ (lateLife (idleDwell inStepD)).clk.life ∧ inStepD.kind = DwellKind.sweep ∧
      ((lateLife (idleDwell inStepD)).sheet ↑3).firstSteer = none) ∧
    (Shaped w_DM_6d_1 ∧ 3 < w_DM_6d_1.start.stage ∧ (w_DM_6d_1.sheet ↑3).dwell = some inStepD ∧ inStepD.pos < 18 ∧
      inStepD.kind = DwellKind.sweep ∧ inStepD.inStep = true ∧ inStepD.start + 172800000 ≤ w_DM_6d_1.clk.life ∧
      (w_DM_6d_1.sheet ↑3).firstSteer = some (4, 3) ∧ w_DM_6d_1.canInstall (↑3) MoveKind.mapReload = true) ∧
    (Shaped (lateLife (withDwell inStepD)) ∧ 3 < (lateLife (withDwell inStepD)).start.stage ∧
      ((lateLife (withDwell inStepD)).sheet ↑3).dwell = some inStepD ∧ inStepD.pos < 18 ∧ inStepD.kind = DwellKind.sweep ∧
      inStepD.inStep = true ∧ inStepD.start + 172800000 ≤ (lateLife (withDwell inStepD)).clk.life ∧
      ((lateLife (withDwell inStepD)).sheet ↑3).firstSteer = none ∧
      (lateLife (withDwell inStepD)).plan (↑3) (match (lateLife (withDwell inStepD)).holderOfSheet ↑3 with | some c => !((lateLife (withDwell inStepD)).ctx c).commitHold | none => false) = (17, false, MoveKind.labelSwap) ∧
      (lateLife (withDwell inStepD)).canInstall (↑3) MoveKind.labelSwap = false) := by
  unfold Shaped
  refine ⟨?_, ?_, ?_⟩ <;> decide +kernel
theorem witness_DwellMoves_4 :
    (Shaped (lateLife spareUp) ∧ 3 < (lateLife spareUp).start.stage ∧ ((lateLife spareUp).sheet ↑3).dwell = some w_DM_8_3 ∧
      w_DM_8_3.pos < 18 ∧ w_DM_8_3.kind = DwellKind.sweep ∧ w_DM_8_3.inStep = true ∧
      w_DM_8_3.start + 172800000 ≤ (lateLife spareUp).clk.life ∧ ((lateLife spareUp).sheet ↑3).firstSteer = none ∧
      (lateLife spareUp).plan (↑3) (match (lateLife spareUp).holderOfSheet ↑3 with | some c => !((lateLife spareUp).ctx c).commitHold | none => false) = (15, true, MoveKind.plain) ∧
      (lateLife spareUp).canInstall (↑3) MoveKind.plain = true ∧
      (w_DM_8_3.mismatched = false ∨ (lateLife spareUp).holderOfSheet ↑3 = none) ∧ w_DM_8_3.tphys = some 15 ∧
      ((lateLife spareUp).sheet ↑3).health = 0 ∧ ((lateLife spareUp).sheet ↑3).legal 15 = true ∧
      (((lateLife spareUp).sheet ↑3).stand = some 17 ∨ ((lateLife spareUp).sheet ↑3).ns ≠ [])) ∧
    (Shaped (lateLife spare16) ∧ 3 < (lateLife spare16).start.stage ∧ ((lateLife spare16).sheet ↑3).dwell = some w_DM_9_3 ∧
      w_DM_9_3.pos < 18 ∧ w_DM_9_3.kind = DwellKind.sweep ∧ w_DM_9_3.inStep = true ∧
      w_DM_9_3.start + 172800000 ≤ (lateLife spare16).clk.life ∧ ((lateLife spare16).sheet ↑3).firstSteer = none ∧
      (lateLife spare16).plan (↑3) (match (lateLife spare16).holderOfSheet ↑3 with | some c => !((lateLife spare16).ctx c).commitHold | none => false) = (17, false, MoveKind.labelSwap) ∧
      (lateLife spare16).canInstall (↑3) MoveKind.labelSwap = true ∧ (17 = 16 ∨ 17 = 17) ∧ ((lateLife spare16).sheet ↑3).ns = [] ∧
      ((lateLife spare16).sheet ↑3).linkFail = false) := by
  unfold Shaped
  refine ⟨?_, ?_⟩ <;> decide +kernel
theorem witness_DwellMoves_5 :
    (Shaped (lateLife (steer9 9)) ∧ 3 < (lateLife (steer9 9)).start.stage ∧
      ((lateLife (steer9 9)).sheet ↑3).dwell = some w_DM_10_3 ∧ w_DM_10_3.pos < 18 ∧ w_DM_10_3.kind = DwellKind.steered 4 9 ∧
      w_DM_10_3.inStep = true ∧ w_DM_10_3.start + 172800000 ≤ (lateLife (steer9 9)).clk.life ∧
      (lateLife (steer9 9)).canInstall (↑3) MoveKind.mapReload = true) ∧
    (Shaped (lateLife (steer9 8)) ∧ 3 < (lateLife (steer9 8)).start.stage ∧
      ((lateLife (steer9 8)).sheet ↑3).dwell = some w_DM_10b_3 ∧ w_DM_10b_3.pos < 18 ∧ w_DM_10b_3.kind = DwellKind.steered 4 8 ∧
      w_DM_10b_3.inStep = true ∧ w_DM_10b_3.start + 172800000 ≤ (lateLife (steer9 8)).clk.life ∧
      (lateLife (steer9 8)).canInstall (↑3) MoveKind.mapReload = true) ∧
    (Shaped w_DM_11_1 ∧ 3 < w_DM_11_1.start.stage ∧ (w_DM_11_1.sheet ↑3).dwell = some w_DM_11_3 ∧ w_DM_11_3.pos < 18 ∧
      w_DM_11_3.kind = DwellKind.inspect ∧ (w_DM_11_3.phase ≠ Phase.idle ∨ w_DM_11_1.canInstall (↑3) MoveKind.mapReload = false)) ∧
    (Shaped w_DM_12_1 ∧ 3 < w_DM_12_1.start.stage ∧ (w_DM_12_1.sheet ↑3).dwell = some w_DM_12_3 ∧ w_DM_12_3.pos < 18 ∧
      w_DM_12_3.kind = DwellKind.inspect ∧ w_DM_12_3.phase = Phase.idle ∧ w_DM_12_1.canInstall (↑3) MoveKind.mapReload = true ∧
      (w_DM_12_1.sheet ↑3).firstSteer = some (4, 3)) := by
  unfold Shaped
  refine ⟨?_, ?_, ?_, ?_⟩ <;> decide +kernel
/-! ### ReplicaDecision -/

def w_RD_2c_1 : State := { faultyReplica with jobs := [] }
def w_RD_6_10 : List ReplicaReport := [rep false 9, ⟨2, false, [(0, 9)]⟩]
def w_RD_9_1 : State := rebuilding (some (zeroWm.extractLsb' 0 64, zeroWm.extractLsb' 64 64))
theorem witness_ReplicaDecision_1 :
    (Shaped up ∧ 3 < up.start.stage ∧ up.replicaWaits ↑3 = none) ∧
    (Shaped up ∧ 3 < up.start.stage ∧ up.replicaWaits ↑3 = none) ∧
    (Shaped up ∧ 3 < up.start.stage ∧ up.replicaWaits ↑3 = none) ∧
    (Shaped (replica 2) ∧ 3 < (replica 2).start.stage ∧ (replica 2).replicaWaits ↑3 = some ((77, 0, 0), regProg, 0) ∧
      ((replica 2).ctx ↑3).replicaOk = none) ∧
    (Shaped (replica 2) ∧ 3 < (replica 2).start.stage ∧ (replica 2).replicaWaits ↑3 = some ((77, 0, 0), regProg, 0) ∧
      ((replica 2).ctx ↑3).replicaOk = none) ∧
    (Shaped (replica 2) ∧ 3 < (replica 2).start.stage ∧ (replica 2).replicaWaits ↑3 = some ((77, 0, 0), regProg, 0) ∧
      (replica 2).clk.life < 0 + ((replica 2).ctx ↑3).replicaLimit ∧
      (∃ m ∈ ((replica 2).ctx ↑3).armed, m.heard ((77, 0, 0).2.2 % max 1 m.copies) [] = false)) ∧
    (Shaped w_RD_2c_1 ∧ 3 < w_RD_2c_1.start.stage ∧ w_RD_2c_1.replicaWaits ↑3 = some ((0, 0, 0), regProg, 0) ∧
      w_RD_2c_1.activeJob ↑3 = none ∧ (w_RD_2c_1.ctx ↑3).replicaOk = none ∧
      (0 + (w_RD_2c_1.ctx ↑3).replicaLimit ≤ w_RD_2c_1.clk.life ∨ ∀ m ∈ (w_RD_2c_1.ctx ↑3).armed, m.heard ((0, 0, 0).2.2 % max 1 m.copies) [rep false 0] = true) ∧
      ((w_RD_2c_1.ctx ↑3).faults ≠ [] ∨ ([rep false 0].any fun x ↦ x.rollback) = true)) := by
  unfold Shaped
  refine ⟨?_, ?_, ?_, ?_, ?_, ?_, ?_⟩ <;> decide +kernel
theorem witness_ReplicaDecision_2 :
    (Shaped (replica 2) ∧ 3 < (replica 2).start.stage ∧ (replica 2).replicaWaits ↑3 = some ((77, 0, 0), regProg, 0) ∧
      (replica 2).activeJob ↑3 = some job0 ∧ (replica 2).job? job0.id = some job0 ∧
      (job0.childrenIn = false ∨ job0.parent job0.rank ≠ none) ∧ ((replica 2).ctx ↑3).replicaOk = none ∧
      (0 + ((replica 2).ctx ↑3).replicaLimit ≤ (replica 2).clk.life ∨ ∀ m ∈ ((replica 2).ctx ↑3).armed, m.heard ((77, 0, 0).2.2 % max 1 m.copies) [rep true 0] = true) ∧
      (((replica 2).ctx ↑3).faults ≠ [] ∨ ([rep true 0].any fun x ↦ x.rollback) = true)) ∧
    (Shaped (lateReplica 2) ∧ 3 < (lateReplica 2).start.stage ∧ (lateReplica 2).replicaWaits ↑3 = some ((77, 0, 0), regProg, 0) ∧
      (lateReplica 2).activeJob ↑3 = some job0 ∧ (lateReplica 2).job? job0.id = some job0 ∧
      (job0.childrenIn = false ∨ job0.parent job0.rank ≠ none) ∧ ((lateReplica 2).ctx ↑3).replicaOk = none ∧
      (0 + ((lateReplica 2).ctx ↑3).replicaLimit ≤ (lateReplica 2).clk.life ∨ ∀ m ∈ ((lateReplica 2).ctx ↑3).armed, m.heard ((77, 0, 0).2.2 % max 1 m.copies) [] = true) ∧
      ((lateReplica 2).ctx ↑3).faults = [] ∧ ((([] : List ReplicaReport).any fun x => x.rollback) = false) ∧
      (∃ e ∈ List.map (fun m ↦ (m, m.wms ((77, 0, 0).2.2 % max 1 m.copies) [])) ((lateReplica 2).ctx ↑3).armed, none ∈ e.2)) := by
  unfold Shaped
  refine ⟨?_, ?_⟩ <;> decide +kernel
theorem witness_ReplicaDecision_3 :
    (Shaped (replica 2) ∧ 3 < (replica 2).start.stage ∧ (replica 2).replicaWaits ↑3 = some ((77, 0, 0), regProg, 0) ∧
      (replica 2).activeJob ↑3 = some job0 ∧ (replica 2).job? job0.id = some job0 ∧
      (job0.childrenIn = false ∨ job0.parent job0.rank ≠ none) ∧ ((replica 2).ctx ↑3).replicaOk = none ∧
      (0 + ((replica 2).ctx ↑3).replicaLimit ≤ (replica 2).clk.life ∨ ∀ m ∈ ((replica 2).ctx ↑3).armed, m.heard ((77, 0, 0).2.2 % max 1 m.copies) [rep false own0] = true) ∧
      ((replica 2).ctx ↑3).faults = [] ∧ (([rep false own0].any fun x ↦ x.rollback) = false) ∧
      (∀ e ∈ List.map (fun m ↦ (m, m.wms ((77, 0, 0).2.2 % max 1 m.copies) [rep false own0])) ((replica 2).ctx ↑3).armed, none ∉ e.2 ∧ e.2.eraseDups.length ≤ 1)) ∧
    (Shaped (replica 3) ∧ 3 < (replica 3).start.stage ∧ (replica 3).replicaWaits ↑3 = some ((77, 0, 0), regProg, 0) ∧
      (replica 3).activeJob ↑3 = some job0 ∧ (replica 3).job? job0.id = some job0 ∧
      (job0.childrenIn = false ∨ job0.parent job0.rank ≠ none) ∧ ((replica 3).ctx ↑3).replicaOk = none ∧
      (0 + ((replica 3).ctx ↑3).replicaLimit ≤ (replica 3).clk.life ∨ ∀ m ∈ ((replica 3).ctx ↑3).armed, m.heard ((77, 0, 0).2.2 % max 1 m.copies) w_RD_6_10 = true) ∧
      ((replica 3).ctx ↑3).faults = [] ∧ ((w_RD_6_10.any fun x ↦ x.rollback) = false) ∧
      (∀ e ∈ List.map (fun m ↦ (m, m.wms ((77, 0, 0).2.2 % max 1 m.copies) w_RD_6_10)) ((replica 3).ctx ↑3).armed, none ∉ e.2) ∧
      (∃ e ∈ List.map (fun m ↦ (m, m.wms ((77, 0, 0).2.2 % max 1 m.copies) w_RD_6_10)) ((replica 3).ctx ↑3).armed, 1 < e.2.eraseDups.length) ∧
      (∀ e ∈ List.map (fun m ↦ (m, m.wms ((77, 0, 0).2.2 % max 1 m.copies) w_RD_6_10)) ((replica 3).ctx ↑3).armed, 1 < e.2.eraseDups.length → (majority e.1 e.2).isSome = true)) := by
  unfold Shaped
  refine ⟨?_, ?_⟩ <;> decide +kernel
theorem witness_ReplicaDecision_4 :
    (Shaped (replica 2) ∧ 3 < (replica 2).start.stage ∧ (replica 2).replicaWaits ↑3 = some ((77, 0, 0), regProg, 0) ∧
      (replica 2).activeJob ↑3 = some job0 ∧ (replica 2).job? job0.id = some job0 ∧
      (job0.childrenIn = false ∨ job0.parent job0.rank ≠ none) ∧ ((replica 2).ctx ↑3).replicaOk = none ∧
      (0 + ((replica 2).ctx ↑3).replicaLimit ≤ (replica 2).clk.life ∨ ∀ m ∈ ((replica 2).ctx ↑3).armed, m.heard ((77, 0, 0).2.2 % max 1 m.copies) [rep false 9] = true) ∧
      ((replica 2).ctx ↑3).faults = [] ∧ (([rep false 9].any fun x ↦ x.rollback) = false) ∧
      (∀ e ∈ List.map (fun m ↦ (m, m.wms ((77, 0, 0).2.2 % max 1 m.copies) [rep false 9])) ((replica 2).ctx ↑3).armed, none ∉ e.2) ∧
      (∃ e ∈ List.map (fun m ↦ (m, m.wms ((77, 0, 0).2.2 % max 1 m.copies) [rep false 9])) ((replica 2).ctx ↑3).armed, 1 < e.2.eraseDups.length ∧ (majority e.1 e.2).isSome = false)) ∧
    (Shaped (rebuilding none) ∧ 3 < (rebuilding none).start.stage ∧
      (rebuilding none).replicaWaits ↑3 = some ((77, 0, 0), regProg, 0) ∧ (rebuilding none).activeJob ↑3 = some job0 ∧
      (rebuilding none).job? job0.id = some job0 ∧ (job0.childrenIn = false ∨ job0.parent job0.rank ≠ none) ∧
      ((rebuilding none).ctx ↑3).replicaOk ≠ none ∧ (rebuilding none).clk.life ≤ 0 + 180000000 ∧
      (rebuilding none).rebuilds (↑3) regProg = []) := by
  unfold Shaped
  refine ⟨?_, ?_⟩ <;> decide +kernel
theorem witness_ReplicaDecision_5 :
    (Shaped w_RD_9_1 ∧ 3 < w_RD_9_1.start.stage ∧ w_RD_9_1.replicaWaits ↑3 = some ((77, 0, 0), regProg, 0) ∧
      w_RD_9_1.activeJob ↑3 = some job0 ∧ w_RD_9_1.job? job0.id = some job0 ∧
      (job0.childrenIn = false ∨ job0.parent job0.rank ≠ none) ∧ (w_RD_9_1.ctx ↑3).replicaOk ≠ none ∧
      w_RD_9_1.clk.life ≤ 0 + 180000000 ∧ w_RD_9_1.rebuilds (↑3) regProg = [(16384, 0, 64, zeroWm)] ∧
      (w_RD_9_1.ctx ↑3).alloc = some alloc1 ∧
      watermark (jobKeys (77, 0, 0).1 (77, 0, 0).2.1).1 (jobKeys (77, 0, 0).1 (77, 0, 0).2.1).2 (wmElems 0 (padTo 64 (List.take 64 (zeros 64)))) = zeroWm) ∧
    (Shaped (rebuilding none) ∧ 3 < (rebuilding none).start.stage ∧
      (rebuilding none).replicaWaits ↑3 = some ((77, 0, 0), regProg, 0) ∧ (rebuilding none).activeJob ↑3 = some job0 ∧
      (rebuilding none).job? job0.id = some job0 ∧ (job0.childrenIn = false ∨ job0.parent job0.rank ≠ none) ∧
      ((rebuilding none).ctx ↑3).replicaOk ≠ none ∧
      ((rebuilding none).clk.life ≤ 0 + 180000000 ∧ false = false ∧ (rebuilding none).rebuilds (↑3) regProg = [] ∨ 0 + 180000000 < (rebuilding none).clk.life)) ∧
    (Shaped (rebuilding none) ∧ 3 < (rebuilding none).start.stage ∧
      (rebuilding none).replicaWaits ↑3 = some ((77, 0, 0), regProg, 0) ∧ (rebuilding none).activeJob ↑3 = some job0 ∧
      (rebuilding none).job? job0.id = some job0 ∧ (job0.childrenIn = false ∨ job0.parent job0.rank ≠ none) ∧
      ((rebuilding none).ctx ↑3).replicaOk ≠ none ∧ (rebuilding none).clk.life ≤ 0 + 180000000) := by
  unfold Shaped
  refine ⟨?_, ?_, ?_⟩ <;> decide +kernel
theorem witness_ReplicaDecision_6 :
    (Shaped lateRebuild ∧ 3 < lateRebuild.start.stage ∧ lateRebuild.replicaWaits ↑3 = some ((77, 0, 0), regProg, 0) ∧
      lateRebuild.activeJob ↑3 = some job0 ∧ lateRebuild.job? job0.id = some job0 ∧
      (job0.childrenIn = false ∨ job0.parent job0.rank ≠ none) ∧ (lateRebuild.ctx ↑3).replicaOk ≠ none ∧
      0 + 180000000 < lateRebuild.clk.life) := by
  unfold Shaped
  decide +kernel
/-! ### ScanPhyAndControl -/

def w_SP_4_2 : State := up.modChan 0 fun x => { x with broke := true }
def w_SP_11_2 : State := { up with dies := { up.dies with coreDown := [15] } }
def w_SP_17_2 : State := { up with dies := { up.dies with ct1Lost := true } }
def w_SP_17b_2 : State := { up with dies := { up.dies with ct1Lost := true } }
def w_SP_18_2 : State := { upFree with clk := { up.clk with life := 17999999 } }
theorem witness_ScanPhyAndControl_1 :
    (Shaped (mapped up) ∧ 3 < (mapped up).start.stage ∧ (mapped up).mgmt.testMode = false) ∧
    (Shaped (scanTest true) ∧ 3 < (scanTest true).start.stage ∧ (scanTest true).mgmt.testMode = true ∧
      (true = false ∨ (((scanTest true).sheet ↑3).tstat.getD ↑5 { }).zeroised = true ∧ (((scanTest true).sheet ↑3).tstat.getD ↑5 { }).isolated = true)) ∧
    (Shaped (scanTest false) ∧ 3 < (scanTest false).start.stage ∧ (scanTest false).mgmt.testMode = true ∧
      ((((scanTest false).sheet ↑3).tstat.getD ↑5 { }).zeroised = false ∨ (((scanTest false).sheet ↑3).tstat.getD ↑5 { }).isolated = false)) ∧
    (Shaped w_SP_4_2 ∧ 3 < w_SP_4_2.start.stage ∧ (w_SP_4_2.chan ↑0).broke = true) ∧
    (Shaped up ∧ 3 < up.start.stage ∧ (up.chan ↑0).broke = false) ∧
    (Shaped up ∧ 3 < up.start.stage ∧ (up.chan ↑0).broke = false) ∧
    (Shaped placed ∧ 3 < placed.start.stage ∧ (placed.chan ↑32).broke = false) ∧
    (Shaped up ∧ 3 < up.start.stage) ∧
    (Shaped up ∧ 3 < up.start.stage ∧ (up.port ↑17).broke.getLsbD ↑3 = false ∧ (up.port ↑17).excess.get? ↑3 = none) := by
  unfold Shaped
  refine ⟨?_, ?_, ?_, ?_, ?_, ?_, ?_, ?_, ?_⟩ <;> decide +kernel
theorem witness_ScanPhyAndControl_2 :
    (Shaped up ∧ 3 < up.start.stage) ∧
    (Shaped up ∧ 3 < up.start.stage) ∧
    (Shaped w_SP_11_2 ∧ 3 < w_SP_11_2.start.stage ∧
      (w_SP_11_2.dies.lost (↑15 / 8) = true ∨ ↑15 ∈ w_SP_11_2.dies.coreOff ∨ ↑15 ∈ w_SP_11_2.dies.coreDown)) ∧
    (Shaped up ∧ 3 < up.start.stage ∧ up.dies.lost (↑4 / 8) = false ∧ ↑4 ∉ up.dies.coreOff ∧ ↑4 ∉ up.dies.coreDown ∧
      up.dies.expiries = []) ∧
    (Shaped twoExpiries ∧ 3 < twoExpiries.start.stage ∧ twoExpiries.dies.lost (↑4 / 8) = false ∧ ↑4 ∉ twoExpiries.dies.coreOff ∧
      ↑4 ∉ twoExpiries.dies.coreDown ∧ twoExpiries.dies.expiries = [(↑4, 0), (↑4, 1)] ∧
      twoExpiries.clk.life < 0 + 24 * 3600 * cycPerSec ∧ twoExpiries.clk.life < 1 + 24 * 3600 * cycPerSec) ∧
    (Shaped otherExpiry ∧ 3 < otherExpiry.start.stage ∧ otherExpiry.dies.lost (↑4 / 8) = false ∧ ↑4 ∉ otherExpiry.dies.coreOff ∧
      ↑4 ∉ otherExpiry.dies.coreDown ∧ otherExpiry.dies.expiries = [(5, 0)] ∧ 5 ≠ ↑4 ∧ otherExpiry.clk.life ≤ 0 + cycPerSec ∧
      otherExpiry.mgmt.restart = none) := by
  unfold Shaped
  refine ⟨?_, ?_, ?_, ?_, ?_, ?_⟩ <;> decide +kernel
theorem witness_ScanPhyAndControl_3 :
    (Shaped up ∧ 3 < up.start.stage) ∧
    (Shaped up ∧ 3 < up.start.stage ∧ up.dies.ct0Lost = false ∧ up.dies.ct1Lost = false) ∧
    (Shaped w_SP_17_2 ∧ 3 < w_SP_17_2.start.stage ∧ (w_SP_17_2.dies.ct0Lost = true ∨ w_SP_17_2.dies.ct1Lost = true)) ∧
    (Shaped w_SP_17b_2 ∧ 3 < w_SP_17b_2.start.stage ∧ (w_SP_17b_2.dies.ct0Lost = true ∨ w_SP_17b_2.dies.ct1Lost = true)) ∧
    (Shaped w_SP_18_2 ∧ 3 < w_SP_18_2.start.stage ∧ w_SP_18_2.clk.life < w_SP_18_2.dies.beat + cycPerSec / 100) ∧
    (Shaped beatDueH ∧ 3 < beatDueH.start.stage ∧ beatDueH.dies.ct0Lost = false ∧ beatDueH.dies.ct1Lost = false ∧
      beatDueH.dies.beat + cycPerSec / 100 ≤ beatDueH.clk.life) ∧
    (Shaped beatDueH ∧ 3 < beatDueH.start.stage ∧ beatDueH.dies.ct0Lost = false ∧ beatDueH.dies.ct1Lost = false ∧
      beatDueH.dies.beat + cycPerSec / 100 ≤ beatDueH.clk.life) := by
  unfold Shaped
  refine ⟨?_, ?_, ?_, ?_, ?_, ?_, ?_⟩ <;> decide +kernel
/-! ### LimiterAndTemperatures -/

def w_LT_4_2 : State := limited 6 9999 (10000 * 1900)
def w_LT_4b_2 : State := { limited 2 0 0 with clk := { auxOn.clk with life := 18000000 } }
theorem witness_LimiterAndTemperatures_1 :
    (Shaped auxOff ∧ (auxOff.start.aux = false ∨ ∃ t, auxOff.dies.powerAt = some t ∧ auxOff.clk.life < t + cycPerSec / 10000)) ∧
    (Shaped auxOn ∧ auxOn.start.aux = true ∧ (∀ (t : ℕ), auxOn.dies.powerAt = some t → t + cycPerSec / 10000 ≤ auxOn.clk.life)) ∧
    (Shaped (limited 2 0 0) ∧ (limited 2 0 0).start.aux = true ∧
      (∀ (t : ℕ), (limited 2 0 0).dies.powerAt = some t → t + cycPerSec / 10000 ≤ (limited 2 0 0).clk.life)) ∧
    (Shaped w_LT_4_2 ∧ w_LT_4_2.start.aux = true ∧
      (∀ (t : ℕ), w_LT_4_2.dies.powerAt = some t → t + cycPerSec / 10000 ≤ w_LT_4_2.clk.life)) ∧
    (Shaped w_LT_4b_2 ∧ w_LT_4b_2.start.aux = true ∧
      (∀ (t : ℕ), w_LT_4b_2.dies.powerAt = some t → t + cycPerSec / 10000 ≤ w_LT_4b_2.clk.life)) ∧
    (Shaped (pendL 0 up) ∧ (pendL 0 up).holder ↑1 = none ∧ ((pendL 0 up).pt ↑1).lvlPend = some (3, 2, 0) ∧ 0 ≤ (pendL 0 up).clk.life) ∧
    (Shaped (pendL 9 up) ∧ (pendL 9 up).holder ↑1 = none ∧ ((pendL 9 up).pt ↑1).lvlPend = some (3, 2, 9) ∧ (pendL 9 up).clk.life < 9) ∧
    (Shaped (pendL 0 running) ∧ (pendL 0 running).holder ↑1 = some 3 ∧ ((pendL 0 running).ctx 3).held.Nodup) ∧
    (Shaped auxOff ∧ 3 < auxOff.start.stage ∧
      (auxOff.start.aux = false ∨ ∃ t, auxOff.dies.tempAt = some t ∧ auxOff.clk.life < t + 2 ^ 16)) := by
  unfold Shaped
  refine ⟨?_, ?_, ?_, ?_, ?_, ?_, ?_, ?_, ?_⟩ <;> decide +kernel
theorem witness_LimiterAndTemperatures_2 :
    (Shaped auxOn ∧ 3 < auxOn.start.stage ∧ (∀ (t : ℕ), auxOn.dies.tempAt = some t → t + 2 ^ 16 ≤ auxOn.clk.life) ∧
      auxOn.start.aux = true ∧ (auxOn.pt (ptOfSheet ↑tp.sh)).pwr ≠ PtPwr.off ∧ auxOn.dies.thermT.length = 8 ∧ 115 ≤ 115) ∧
    (Shaped (wasHot 0) ∧ 3 < (wasHot 0).start.stage ∧
      (∀ (t : ℕ), (wasHot 0).dies.tempAt = some t → t + 2 ^ 16 ≤ (wasHot 0).clk.life) ∧ (wasHot 0).start.aux = true ∧
      ((wasHot 0).pt (ptOfSheet ↑tp.sh)).pwr ≠ PtPwr.off ∧ (wasHot 0).dies.thermT.length = 8 ∧ 114 < 115) ∧
    (Shaped auxOn ∧ 3 < auxOn.start.stage ∧ (∀ (t : ℕ), auxOn.dies.tempAt = some t → t + 2 ^ 16 ≤ auxOn.clk.life) ∧
      auxOn.start.aux = true ∧ (auxOn.pt (ptOfSheet ↑tp.sh)).pwr ≠ PtPwr.off ∧ auxOn.dies.thermT.length = 8 ∧ 105 < 115) ∧
    (Shaped (wasCool 0) ∧ 3 < (wasCool 0).start.stage ∧
      (∀ (t : ℕ), (wasCool 0).dies.tempAt = some t → t + 2 ^ 16 ≤ (wasCool 0).clk.life) ∧ (wasCool 0).start.aux = true ∧
      ((wasCool 0).pt (ptOfSheet ↑tp.sh)).pwr ≠ PtPwr.off ∧ (wasCool 0).dies.thermT.length = 8 ∧ 100 < 115) := by
  unfold Shaped
  refine ⟨?_, ?_, ?_, ?_⟩ <;> decide +kernel
theorem witness_LimiterAndTemperatures_3 :
    (Shaped auxOn ∧ 3 < auxOn.start.stage ∧ (∀ (t : ℕ), auxOn.dies.tempAt = some t → t + 2 ^ 16 ≤ auxOn.clk.life) ∧
      auxOn.start.aux = true ∧
      ((32 : ℕ) ≤ BitVec.toNat (32 : Byte) ∧ BitVec.toNat (32 : Byte) ≤ (37 : ℕ) ∨ BitVec.toNat (32 : Byte) = (48 : ℕ) ∨ BitVec.toNat (32 : Byte) = (49 : ℕ)) ∧
      auxOn.start.pwr ≠ ModPwr.m3 ∧ auxOn.start.vsoc = true ∧ 114 < 115) ∧
    (Shaped auxOn ∧ 3 < auxOn.start.stage ∧ (∀ (t : ℕ), auxOn.dies.tempAt = some t → t + 2 ^ 16 ≤ auxOn.clk.life) ∧
      auxOn.start.aux = true ∧
      ((32 : ℕ) ≤ BitVec.toNat (37 : Byte) ∧ BitVec.toNat (37 : Byte) ≤ (37 : ℕ) ∨ BitVec.toNat (37 : Byte) = (48 : ℕ) ∨ BitVec.toNat (37 : Byte) = (49 : ℕ)) ∧
      auxOn.start.pwr ≠ ModPwr.m3 ∧ auxOn.start.vsoc = true ∧ 115 ≤ 115) ∧
    (Shaped auxOn ∧ 3 < auxOn.start.stage ∧ (∀ (t : ℕ), auxOn.dies.tempAt = some t → t + 2 ^ 16 ≤ auxOn.clk.life) ∧
      auxOn.start.aux = true ∧
      ((32 : ℕ) ≤ BitVec.toNat (49 : Byte) ∧ BitVec.toNat (49 : Byte) ≤ (37 : ℕ) ∨ BitVec.toNat (49 : Byte) = (48 : ℕ) ∨ BitVec.toNat (49 : Byte) = (49 : ℕ)) ∧
      auxOn.start.pwr ≠ ModPwr.m3 ∧ auxOn.start.vsoc = true ∧ 115 ≤ 115) ∧
    (Shaped auxOn ∧ 3 < auxOn.start.stage ∧ auxOn.start.aux = true ∧ auxOn.dies.thermtrip = false) := by
  unfold Shaped
  refine ⟨?_, ?_, ?_, ?_⟩ <;> decide +kernel
theorem witness_LimiterAndTemperatures_4 :
    (Shaped auxOff ∧ 3 < auxOff.start.stage ∧ (auxOff.start.aux = false ∨ auxOff.dies.thermtrip = true)) ∧
    (Shaped auxOn) := by
  unfold Shaped
  refine ⟨?_, ?_⟩ <;> decide +kernel
/-! ### RailsAndIdle -/

def w_RI_1_1 : State := { up with dies := { up.dies with ct1Lost := true } }
def w_RI_7_1 : State := up.modPt 1 fun x => { x with pwr := .off }
def w_RI_9_1 : State := up.modPt 1 fun x => { x with pg := false }
def w_RI_10_1 : State := { up with dies := { up.dies with thermtrip := true } }
def w_RI_12_1 : State := { up with start := { up.start with vsoc := false } }
theorem witness_RailsAndIdle_1 :
    (Shaped w_RI_1_1 ∧ 3 < w_RI_1_1.start.stage ∧
      (w_RI_1_1.dies.ct1Lost = true ∨ (w_RI_1_1.pt ↑1).en = false ∨ (w_RI_1_1.pt ↑1).pg = false ∨ w_RI_1_1.start.stage < 4)) ∧
    (Shaped up ∧ 3 < up.start.stage ∧ up.dies.ct1Lost = false ∧ (up.pt ↑1).en = true ∧ (up.pt ↑1).pg = true ∧
      ((decide ((up.pt ↑1).pwr = PtPwr.run ∨ (up.pt ↑1).pwr = PtPwr.idle) && decide (550 ≤ 800 ∧ 800 ≤ 800 ∧ 800 % 5 = 0 ∧ 800 ≠ (up.pt ↑1).mv) && decide ((up.pt ↑1).mvAt = 0 ∨ (up.pt ↑1).mvAt + cycPerSec / 100 ≤ up.clk.life)) = true)) ∧
    (Shaped up ∧ 3 < up.start.stage ∧ up.dies.ct1Lost = false ∧ (up.pt ↑1).en = true ∧ (up.pt ↑1).pg = true ∧
      ((decide ((up.pt ↑1).pwr = PtPwr.run ∨ (up.pt ↑1).pwr = PtPwr.idle) && decide (550 ≤ 550 ∧ 550 ≤ 800 ∧ 550 % 5 = 0 ∧ 550 ≠ (up.pt ↑1).mv) && decide ((up.pt ↑1).mvAt = 0 ∨ (up.pt ↑1).mvAt + cycPerSec / 100 ≤ up.clk.life)) = true)) ∧
    (Shaped up ∧ 3 < up.start.stage ∧ up.dies.ct1Lost = false ∧ (up.pt ↑1).en = true ∧ (up.pt ↑1).pg = true ∧
      ((decide ((up.pt ↑1).pwr = PtPwr.run ∨ (up.pt ↑1).pwr = PtPwr.idle) && decide (550 ≤ 805 ∧ 805 ≤ 800 ∧ 805 % 5 = 0 ∧ 805 ≠ (up.pt ↑1).mv) && decide ((up.pt ↑1).mvAt = 0 ∨ (up.pt ↑1).mvAt + cycPerSec / 100 ≤ up.clk.life)) = false)) ∧
    (Shaped up ∧ 3 < up.start.stage ∧ up.dies.ct1Lost = false ∧ (up.pt ↑1).en = true ∧ (up.pt ↑1).pg = true ∧
      ((decide ((up.pt ↑1).pwr = PtPwr.run ∨ (up.pt ↑1).pwr = PtPwr.idle) && decide (550 ≤ 701 ∧ 701 ≤ 800 ∧ 701 % 5 = 0 ∧ 701 ≠ (up.pt ↑1).mv) && decide ((up.pt ↑1).mvAt = 0 ∨ (up.pt ↑1).mvAt + cycPerSec / 100 ≤ up.clk.life)) = false)) := by
  unfold Shaped
  refine ⟨?_, ?_, ?_, ?_, ?_⟩ <;> decide +kernel
theorem witness_RailsAndIdle_2 :
    (Shaped idleSet ∧ 3 < idleSet.start.stage ∧ (idleSet.pt ↑1).pwr = PtPwr.run ∧ idleSet.settingNat 33 ≠ 0 ∧
      (idleSet.pt ↑1).reset = none ∧ idleSet.needed ↑1 = false ∧
      (idleSet.pt ↑1).busyAt + usCyc (idleSet.settingNat 33) ≤ idleSet.clk.life) ∧
    (Shaped running ∧ 3 < running.start.stage ∧
      ((running.pt ↑1).pwr ≠ PtPwr.run ∨ running.settingNat 33 = 0 ∨ running.needed ↑1 = true ∨ running.clk.life < (running.pt ↑1).busyAt + usCyc (running.settingNat 33))) ∧
    (Shaped up ∧ 3 < up.start.stage ∧ (up.pt ↑1).pwr = PtPwr.run) ∧
    (Shaped w_RI_7_1 ∧ 3 < w_RI_7_1.start.stage ∧ (w_RI_7_1.pt ↑1).pwr ≠ PtPwr.run) ∧
    (Shaped running ∧ 3 < running.start.stage ∧ running.dies.thermtrip = false ∧ (running.pt ↑1).en = true ∧
      (running.pt ↑1).pg = true) ∧
    (Shaped w_RI_9_1 ∧ 3 < w_RI_9_1.start.stage ∧ w_RI_9_1.dies.thermtrip = false ∧ (w_RI_9_1.pt ↑1).en = true) ∧
    (Shaped w_RI_10_1 ∧ 3 < w_RI_10_1.start.stage ∧ (w_RI_10_1.dies.thermtrip = true ∨ (w_RI_10_1.pt ↑1).en = false)) := by
  unfold Shaped
  refine ⟨?_, ?_, ?_, ?_, ?_, ?_, ?_⟩ <;> decide +kernel
theorem witness_RailsAndIdle_3 :
    (Shaped up ∧ 3 < up.start.stage ∧ up.dies.thermtrip = false ∧ up.start.vsoc = true ∧ up.start.pwr ≠ ModPwr.m3) ∧
    (Shaped w_RI_12_1 ∧ 3 < w_RI_12_1.start.stage ∧
      (w_RI_12_1.dies.thermtrip = true ∨ w_RI_12_1.start.vsoc = false ∨ w_RI_12_1.start.pwr = ModPwr.m3)) := by
  unfold Shaped
  refine ⟨?_, ?_⟩ <;> decide +kernel
/-! ### PortCommands -/

def w_PC_7_2 : Payload := le 2 7 ++ le 2 2 ++ le 2 0xFF ++ le 2 0x111
def w_PC_7b_2 : Payload := le 2 8 ++ le 2 1 ++ le 2 0xFF
def w_PC_9_h_2 : Payload := le 2 0 ++ le 2 2048 
theorem witness_PortCommands_1 :
    (HostReady net ∧ [17].length = 1 ∧ arg [17] 0 1 ≤ 17) ∧
    (HostReady net ∧ [18].length = 1 ∧ 17 < arg [18] 0 1) ∧
    (HostOwns net ∧ [18, 0, 0, 0].length = 4 ∧ arg [18, 0, 0, 0] 3 1 = 0 ∧
      (17 < arg [18, 0, 0, 0] 0 1 ∧ arg [18, 0, 0, 0] 0 1 ≠ 255 ∨ arg [18, 0, 0, 0] 1 1 % 2 = 1 ∨ 12 < arg [18, 0, 0, 0] 1 1 ∨ 63 < arg [18, 0, 0, 0] 2 1)) ∧
    (HostOwns net ∧ [0, 14, 0, 0].length = 4 ∧ arg [0, 14, 0, 0] 3 1 = 0 ∧
      (17 < arg [0, 14, 0, 0] 0 1 ∧ arg [0, 14, 0, 0] 0 1 ≠ 255 ∨ arg [0, 14, 0, 0] 1 1 % 2 = 1 ∨ 12 < arg [0, 14, 0, 0] 1 1 ∨ 63 < arg [0, 14, 0, 0] 2 1)) ∧
    (HostOwns net ∧ [0, 0, 64, 0].length = 4 ∧ arg [0, 0, 64, 0] 3 1 = 0 ∧
      (17 < arg [0, 0, 64, 0] 0 1 ∧ arg [0, 0, 64, 0] 0 1 ≠ 255 ∨ arg [0, 0, 64, 0] 1 1 % 2 = 1 ∨ 12 < arg [0, 0, 64, 0] 1 1 ∨ 63 < arg [0, 0, 64, 0] 2 1)) ∧
    (HostOwns net ∧ [17, 12, 63, 0].length = 4 ∧ arg [17, 12, 63, 0] 3 1 = 0 ∧ arg [17, 12, 63, 0] 0 1 ≤ 17 ∧
      arg [17, 12, 63, 0] 1 1 % 2 = 0 ∧ arg [17, 12, 63, 0] 1 1 ≤ 12 ∧ arg [17, 12, 63, 0] 2 1 ≤ 63 ∧
      net.pairInUse (arg [17, 12, 63, 0] 0 1) (arg [17, 12, 63, 0] 1 1) = false ∧
      (arg [17, 12, 63, 0] 2 1 = 0 ∨ ∀ v < 16, v / 2 ≠ arg [17, 12, 63, 0] 1 1 / 2 → (net.port (arg [17, 12, 63, 0] 0 1)).groups.getD v 0 ≠ arg [17, 12, 63, 0] 2 1)) := by
  unfold HostOwns HostReady
  refine ⟨?_, ?_, ?_, ?_, ?_, ?_⟩ <;> decide +kernel
theorem witness_PortCommands_2 :
    (HostOwns net ∧ [0, 0, 0, 0].length = 4 ∧ arg [0, 0, 0, 0] 3 1 = 0 ∧ arg [0, 0, 0, 0] 0 1 ≤ 17 ∧ arg [0, 0, 0, 0] 1 1 % 2 = 0 ∧
      arg [0, 0, 0, 0] 1 1 ≤ 12 ∧ arg [0, 0, 0, 0] 2 1 ≤ 63 ∧ net.pairInUse (arg [0, 0, 0, 0] 0 1) (arg [0, 0, 0, 0] 1 1) = false ∧
      (arg [0, 0, 0, 0] 2 1 = 0 ∨ ∀ v < 16, v / 2 ≠ arg [0, 0, 0, 0] 1 1 / 2 → (net.port (arg [0, 0, 0, 0] 0 1)).groups.getD v 0 ≠ arg [0, 0, 0, 0] 2 1)) ∧
    (HostOwns net ∧ [255, 4, 0, 0].length = 4 ∧ arg [255, 4, 0, 0] 3 1 = 0 ∧ arg [255, 4, 0, 0] 0 1 = 255 ∧
      arg [255, 4, 0, 0] 1 1 % 2 = 0 ∧ arg [255, 4, 0, 0] 1 1 ≤ 12 ∧ arg [255, 4, 0, 0] 2 1 = 0 ∧ net.portModeBar = none ∧
      (∀ x < 18, net.pairInUse x (arg [255, 4, 0, 0] 1 1) = false)) ∧
    (HostOwns vcBusy ∧ [3, 0, 0, 0].length = 4 ∧ arg [3, 0, 0, 0] 3 1 = 0 ∧ arg [3, 0, 0, 0] 0 1 ≤ 17 ∧
      arg [3, 0, 0, 0] 1 1 % 2 = 0 ∧ arg [3, 0, 0, 0] 1 1 ≤ 12 ∧ arg [3, 0, 0, 0] 2 1 ≤ 63 ∧
      vcBusy.pairInUse (arg [3, 0, 0, 0] 0 1) (arg [3, 0, 0, 0] 1 1) = true) := by
  unfold HostOwns HostReady
  refine ⟨?_, ?_, ?_⟩ <;> decide +kernel
theorem witness_PortCommands_3 :
    (HostOwns net ∧ net.portModeBar = none ∧ 1 ≤ arg w_PC_7_2 2 2 ∧ arg w_PC_7_2 2 2 ≤ 2046 ∧
      List.length w_PC_7_2 = 4 + 2 * arg w_PC_7_2 2 2 ∧ arg w_PC_7_2 0 2 + arg w_PC_7_2 2 2 ≤ 65535 ∧
      (∀ i < arg w_PC_7_2 2 2, (arg w_PC_7_2 (4 + 2 * i) 2 % 256 ≤ 17 ∨ arg w_PC_7_2 (4 + 2 * i) 2 % 256 = 255) ∧ arg w_PC_7_2 (4 + 2 * i) 2 / 256 ≤ 1) ∧
      (∀ r ∈ routeRuns ((net.setting 17).length / 6) (net.setting 17), r.1 + r.2.1 ≤ 65535) ∧
      ((joinRuns ((cutRuns (arg w_PC_7_2 0 2) (arg w_PC_7_2 2 2) (routeRuns ((net.setting 17).length / 6) (net.setting 17))).1 ++ List.filterMap (fun i ↦ if arg w_PC_7_2 (4 + 2 * i) 2 % 256 = 255 then none else some (arg w_PC_7_2 0 2 + i, 1, arg w_PC_7_2 (4 + 2 * i) 2)) (List.range (arg w_PC_7_2 2 2)) ++ (cutRuns (arg w_PC_7_2 0 2) (arg w_PC_7_2 2 2) (routeRuns ((net.setting 17).length / 6) (net.setting 17))).2)).length ≤ 1024)) ∧
    (HostOwns routed ∧ routed.portModeBar = none ∧ 1 ≤ arg w_PC_7b_2 2 2 ∧ arg w_PC_7b_2 2 2 ≤ 2046 ∧
      List.length w_PC_7b_2 = 4 + 2 * arg w_PC_7b_2 2 2 ∧ arg w_PC_7b_2 0 2 + arg w_PC_7b_2 2 2 ≤ 65535 ∧
      (∀ i < arg w_PC_7b_2 2 2, (arg w_PC_7b_2 (4 + 2 * i) 2 % 256 ≤ 17 ∨ arg w_PC_7b_2 (4 + 2 * i) 2 % 256 = 255) ∧ arg w_PC_7b_2 (4 + 2 * i) 2 / 256 ≤ 1) ∧
      (∀ r ∈ routeRuns ((routed.setting 17).length / 6) (routed.setting 17), r.1 + r.2.1 ≤ 65535) ∧
      ((joinRuns ((cutRuns (arg w_PC_7b_2 0 2) (arg w_PC_7b_2 2 2) (routeRuns ((routed.setting 17).length / 6) (routed.setting 17))).1 ++ List.filterMap (fun i ↦ if arg w_PC_7b_2 (4 + 2 * i) 2 % 256 = 255 then none else some (arg w_PC_7b_2 0 2 + i, 1, arg w_PC_7b_2 (4 + 2 * i) 2)) (List.range (arg w_PC_7b_2 2 2)) ++ (cutRuns (arg w_PC_7b_2 0 2) (arg w_PC_7b_2 2 2) (routeRuns ((routed.setting 17).length / 6) (routed.setting 17))).2)).length ≤ 1024)) ∧
    (HostReady net ∧ (le 2 3 ++ le 2 1).length = 4 ∧ arg (le 2 3 ++ le 2 1) 0 2 + arg (le 2 3 ++ le 2 1) 2 2 ≤ 65535 ∧
      arg (le 2 3 ++ le 2 1) 2 2 ≤ 2048) ∧
    (HostReady net ∧ List.length w_PC_9_h_2 = 4 ∧ arg w_PC_9_h_2 0 2 + arg w_PC_9_h_2 2 2 ≤ 65535 ∧ arg w_PC_9_h_2 2 2 ≤ 2048) := by
  unfold HostOwns HostReady
  refine ⟨?_, ?_, ?_, ?_⟩ <;> decide +kernel
/-! ### PortTraffic -/

def w_PT_1a_6 : FecCount := ⟨0, 0⟩
def w_PT_1b_6 : FecCount := ⟨0, 0⟩
def w_PT_2_7 : FecCount := ⟨3, 0⟩
def w_PT_3_7 : FecCount := ⟨0, 1⟩
def w_PT_3b_7 : FecCount := ⟨0, 0⟩
def w_PT_4_7 : FecCount := ⟨0, 0⟩
def w_PT_5_7 : FecCount := ⟨0, 0⟩
def w_PT_5b_7 : FecCount := ⟨0, 0⟩
def w_PT_9a_3 : List Byte := packetBytes { pkt0 with typ := 3 } 4
def w_PT_9a_8 : FecCount := ⟨0, 1⟩
def w_PT_9b_3 : List Byte := packetBytes { pkt0 with typ := 2 } 4
def w_PT_9b_8 : FecCount := ⟨0, 0⟩
def w_PT_9_3 : List Byte := packetBytes { pkt0 with typ := 3 } 4
def w_PT_9_8 : FecCount := ⟨0, 0⟩
def w_PT_10_3 : List Byte := packetBytes { pkt0 with typ := 3 } 4
def w_PT_10_8 : FecCount := ⟨0, 0⟩
def w_PT_10b_3 : List Byte := packetBytes { pkt0 with typ := 3 } 4
def w_PT_10b_8 : FecCount := ⟨0, 0⟩
theorem witness_PortTraffic_1 :
    (Shaped up ∧ ((up.port ↑0).st ≠ PortState.up ∨ up.fabAddr = 65535)) ∧
    (Shaped up ∧ ((up.port ↑0).st ≠ PortState.up ∨ up.fabAddr = 65535)) ∧
    (Shaped net ∧ (net.port ↑0).st = PortState.up ∧ (net.port ↑0).eth = false ∧ net.fabAddr ≠ 65535 ∧ (net.port ↑0).ctr.length = 8 ∧
      w_PT_2_7.uncorr = 0 ∧ packetGood (bytesTo 5 3) = true ∧ (packetOf (↑0) (bytesTo 5 3)).dst = net.fabAddr ∧
      ((packetOf (↑0) (bytesTo 5 3)).typ ≠ 8 ∨ unle (List.take 1 (packetOf (↑0) (bytesTo 5 3)).payload) ≠ 1)) ∧
    (Shaped net ∧ (net.port ↑0).st = PortState.up ∧ (net.port ↑0).eth = false ∧ net.fabAddr ≠ 65535 ∧ (net.port ↑0).ctr.length = 8 ∧
      (w_PT_3_7.uncorr ≠ 0 ∨ packetGood (bytesTo 5 3) = false)) ∧
    (Shaped net ∧ (net.port ↑0).st = PortState.up ∧ (net.port ↑0).eth = false ∧ net.fabAddr ≠ 65535 ∧ (net.port ↑0).ctr.length = 8 ∧
      (w_PT_3b_7.uncorr ≠ 0 ∨ packetGood ((bytesTo 5 3).set 9 77) = false)) := by
  unfold Shaped
  refine ⟨?_, ?_, ?_, ?_, ?_⟩ <;> decide +kernel
theorem witness_PortTraffic_2 :
    (Shaped routed ∧ (routed.port ↑0).st = PortState.up ∧ (routed.port ↑0).eth = false ∧ routed.fabAddr ≠ 65535 ∧
      (routed.port ↑0).ctr.length = 8 ∧ w_PT_4_7.uncorr = 0 ∧ packetGood (bytesTo 8 4) = true ∧
      (packetOf (↑0) (bytesTo 8 4)).dst ≠ routed.fabAddr ∧ BitVec.toNat ((bytesTo 8 4).getD 3 0) ≠ 0 ∧
      routed.route (packetOf (↑0) (bytesTo 8 4)).dst % 256 ≤ 17 ∧
      (routed.port (routed.route (packetOf (↑0) (bytesTo 8 4)).dst % 256)).st = PortState.up ∧
      (routed.port (routed.route (packetOf (↑0) (bytesTo 8 4)).dst % 256)).eth = false ∧
      routed.route (packetOf (↑0) (bytesTo 8 4)).dst / 256 = 0 ∧
      (routed.port (routed.route (packetOf (↑0) (bytesTo 8 4)).dst % 256)).txq = [] ∧
      flitsOf (36 + (packetOf (↑0) (bytesTo 8 4)).payload.length) ≤ (routed.port (routed.route (packetOf (↑0) (bytesTo 8 4)).dst % 256)).credits.getD ((packetOf (↑0) (bytesTo 8 4)).vc % 16) 0) ∧
    (Shaped routed ∧ (routed.port ↑0).st = PortState.up ∧ (routed.port ↑0).eth = false ∧ routed.fabAddr ≠ 65535 ∧
      (routed.port ↑0).ctr.length = 8 ∧ w_PT_5_7.uncorr = 0 ∧ packetGood (bytesTo 8 0) = true ∧
      (packetOf (↑0) (bytesTo 8 0)).dst ≠ routed.fabAddr ∧
      (BitVec.toNat ((bytesTo 8 0).getD 3 0) = 0 ∨ 17 < routed.route (packetOf (↑0) (bytesTo 8 0)).dst % 256 ∨ (routed.port (routed.route (packetOf (↑0) (bytesTo 8 0)).dst % 256)).st ≠ PortState.up ∨ (routed.port (routed.route (packetOf (↑0) (bytesTo 8 0)).dst % 256)).eth = true)) := by
  unfold Shaped
  refine ⟨?_, ?_⟩ <;> decide +kernel
theorem witness_PortTraffic_3 :
    (Shaped net ∧ (net.port ↑0).st = PortState.up ∧ (net.port ↑0).eth = false ∧ net.fabAddr ≠ 65535 ∧ (net.port ↑0).ctr.length = 8 ∧
      w_PT_5b_7.uncorr = 0 ∧ packetGood (bytesTo 8 3) = true ∧ (packetOf (↑0) (bytesTo 8 3)).dst ≠ net.fabAddr ∧
      (BitVec.toNat ((bytesTo 8 3).getD 3 0) = 0 ∨ 17 < net.route (packetOf (↑0) (bytesTo 8 3)).dst % 256 ∨ (net.port (net.route (packetOf (↑0) (bytesTo 8 3)).dst % 256)).st ≠ PortState.up ∨ (net.port (net.route (packetOf (↑0) (bytesTo 8 3)).dst % 256)).eth = true)) ∧
    (Shaped net ∧ (net.port ↑2).st = PortState.up ∧ (net.port ↑2).eth = false ∧ net.fabAddr ≠ 65535 ∧ (net.port ↑2).ctr.length = 8 ∧
      (net.port ↑2).txq = []) ∧
    (Shaped credWait ∧ (credWait.port ↑2).st = PortState.up ∧ (credWait.port ↑2).eth = false ∧ credWait.fabAddr ≠ 65535 ∧
      (credWait.port ↑2).ctr.length = 8 ∧ (credWait.port ↑2).txq = [bytesTo 9 3] ∧ BitVec.toNat ((bytesTo 9 3).getD 1 0) % 16 = ↑4 ∧
      (credWait.port ↑2).credits.length = 16 ∧ flitsOf (bytesTo 9 3).length ≤ min 256 ((credWait.port ↑2).credits.getD (↑4) 0 + 7)) ∧
    (Shaped up ∧ (up.port ↑2).st ≠ PortState.up) := by
  unfold Shaped
  refine ⟨?_, ?_, ?_, ?_⟩ <;> decide +kernel
theorem witness_PortTraffic_4 :
    (Shaped ethNet ∧ (ethNet.port ↑2).st = PortState.up ∧ (ethNet.port ↑2).eth = true ∧ ethNet.fabAddr ≠ 65535 ∧
      (ethNet.port ↑2).ctr.length = 8 ∧ w_PT_9a_8.uncorr ≠ 0) ∧
    (Shaped ethNet ∧ (ethNet.port ↑2).st = PortState.up ∧ (ethNet.port ↑2).eth = true ∧ ethNet.fabAddr ≠ 65535 ∧
      (ethNet.port ↑2).ctr.length = 8 ∧ w_PT_9b_8.uncorr = 0 ∧ BitVec.toNat (34997 : W16) = (ethNet.port ↑(2 : Port)).etherType ∧
      BitVec.toNat (2199023255557 : BitVec (48 : ℕ)) = (2199023255552 : ℕ) + ethNet.fabAddr ∧ packetGood w_PT_9b_3 = true ∧
      (packetOf (↑2) w_PT_9b_3).typ < 3) ∧
    (Shaped ethNet ∧ (ethNet.port ↑2).st = PortState.up ∧ (ethNet.port ↑2).eth = true ∧ ethNet.fabAddr ≠ 65535 ∧
      (ethNet.port ↑2).ctr.length = 8 ∧ w_PT_9_8.uncorr = 0 ∧ BitVec.toNat (34997 : W16) = (ethNet.port ↑(2 : Port)).etherType ∧
      BitVec.toNat (2199023255557 : BitVec (48 : ℕ)) = (2199023255552 : ℕ) + ethNet.fabAddr ∧ packetGood w_PT_9_3 = true ∧
      3 ≤ (packetOf (↑2) w_PT_9_3).typ ∧
      ((packetOf (↑2) w_PT_9_3).typ ≠ 8 ∨ unle (List.take 1 (packetOf (↑2) w_PT_9_3).payload) ≠ 1) ∧
      (packetOf (↑2) w_PT_9_3).dst = ethNet.fabAddr) := by
  unfold Shaped
  refine ⟨?_, ?_, ?_⟩ <;> decide +kernel
theorem witness_PortTraffic_5 :
    (Shaped ethNet ∧ (ethNet.port ↑2).st = PortState.up ∧ (ethNet.port ↑2).eth = true ∧ ethNet.fabAddr ≠ 65535 ∧
      (ethNet.port ↑2).ctr.length = 8 ∧ w_PT_10_8.uncorr = 0 ∧
      (BitVec.toNat (34997 : W16) ≠ (ethNet.port ↑(2 : Port)).etherType ∨ BitVec.toNat (2199023255558 : BitVec (48 : ℕ)) ≠ (2199023255552 : ℕ) + ethNet.fabAddr)) ∧
    (Shaped ethNet ∧ (ethNet.port ↑2).st = PortState.up ∧ (ethNet.port ↑2).eth = true ∧ ethNet.fabAddr ≠ 65535 ∧
      (ethNet.port ↑2).ctr.length = 8 ∧ w_PT_10b_8.uncorr = 0 ∧
      (BitVec.toNat (34998 : W16) ≠ (ethNet.port ↑(2 : Port)).etherType ∨ BitVec.toNat (2199023255557 : BitVec (48 : ℕ)) ≠ (2199023255552 : ℕ) + ethNet.fabAddr)) ∧
    (Shaped training ∧
      ((training.port ↑2).st = PortState.training ∨ (training.port ↑2).st = PortState.down ∧ training.start.stage = 10 ∧ training.start.pwr = ModPwr.m0) ∧
      (∀ m ∈ training.mgmt.modes, m.mode = 2 → m.next ≠ some (2 : Port).val) ∧ (training.port ↑2).broke = 0 ∧
      (training.port ↑2).eth = false ∧ (training.port ↑2).txq = [] ∧ widthOf 3 ≠ 0) ∧
    (Shaped training ∧
      ((training.port ↑2).st = PortState.training ∨ (training.port ↑2).st = PortState.down ∧ training.start.stage = 10 ∧ training.start.pwr = ModPwr.m0) ∧
      (∀ m ∈ training.mgmt.modes, m.mode = 2 → m.next ≠ some (2 : Port).val) ∧ (training.port ↑2).broke = 0 ∧
      (training.port ↑2).eth = false ∧ (training.port ↑2).txq = [] ∧ widthOf 0 = 0) ∧
    (Shaped net ∧ ((net.port ↑2).st = PortState.up ∨ (net.port ↑2).st = PortState.failed)) := by
  unfold Shaped
  refine ⟨?_, ?_, ?_, ?_, ?_⟩ <;> decide +kernel
/-! ### ErasureCodedState -/

def w_EC_4_1 : State := ecQ eReb (ecLost 4096 [2, 3, 4])
def w_EC_6_1 : State := ecQ eReb (ecLost 4096 [2, 3])
theorem witness_ErasureCodedState_1 :
    (Shaped (ecQ (eRef 78) ecJob0) ∧ (ecQ (eRef 78) ecJob0).entryAt (↑3) (qix 2 ↑0) 0 33 = some (eRef 78) ∧
      (∀ j ∈ (ecQ (eRef 78) ecJob0).jobs, j.id ≠ (eRef 78).fld 24 8 ∨ j.ctx ≠ ↑3)) ∧
    (Shaped (ecQ (eRef 77) ecVoting) ∧ (ecQ (eRef 77) ecVoting).entryAt (↑3) (qix 2 ↑0) 0 33 = some (eRef 77) ∧
      (List.find? (fun j ↦ decide (j.id = (eRef 77).fld 24 8 ∧ j.ctx = ↑3)) (ecQ (eRef 77) ecVoting).jobs = some ecVoting) ∧
      (∀ w ∈ ((ecQ (eRef 77) ecVoting).ctx ↑3).ecWaits, w.1 ≠ qix 2 ↑0 ∨ w.2.1 ≠ 0) ∧ (ecVoting.st ≠ JobState.active ∨ ecVoting.k = 0)) ∧
    (Shaped (ecQ (eRef 77) ecNone) ∧ (ecQ (eRef 77) ecNone).entryAt (↑3) (qix 2 ↑0) 0 33 = some (eRef 77) ∧
      (List.find? (fun j ↦ decide (j.id = (eRef 77).fld 24 8 ∧ j.ctx = ↑3)) (ecQ (eRef 77) ecNone).jobs = some ecNone) ∧
      (∀ w ∈ ((ecQ (eRef 77) ecNone).ctx ↑3).ecWaits, w.1 ≠ qix 2 ↑0 ∨ w.2.1 ≠ 0) ∧ (ecNone.st ≠ JobState.active ∨ ecNone.k = 0)) ∧
    (Shaped (ecQ (eRef 77) ecJob0) ∧ (ecQ (eRef 77) ecJob0).entryAt (↑3) (qix 2 ↑0) 0 33 = some (eRef 77) ∧
      (List.find? (fun j ↦ decide (j.id = (eRef 77).fld 24 8 ∧ j.ctx = ↑3)) (ecQ (eRef 77) ecJob0).jobs = some ecJob0) ∧
      (∀ w ∈ ((ecQ (eRef 77) ecJob0).ctx ↑3).ecWaits, w.1 ≠ qix 2 ↑0 ∨ w.2.1 ≠ 0) ∧ ecJob0.st = JobState.active ∧ ecJob0.k ≠ 0) := by
  unfold Shaped
  refine ⟨?_, ?_, ?_, ?_⟩ <;> decide +kernel
theorem witness_ErasureCodedState_2 :
    (Shaped w_EC_4_1 ∧ w_EC_4_1.entryAt (↑3) (qix 2 ↑0) 0 34 = some eReb ∧
      (List.find? (fun j ↦ decide (j.id = eReb.fld 24 8 ∧ j.ctx = ↑3)) w_EC_4_1.jobs = some (ecLost 4096 [2, 3, 4])) ∧
      eReb.fld 32 2 < (ecLost 4096 [2, 3, 4]).nmod ∧
      w_EC_4_1.locInvalid (↑3) 1 (eReb.fld 40 8) (ecLost 4096 [2, 3, 4]).shardLen = false ∧
      ((ecLost 4096 [2, 3, 4]).st = JobState.active ∨ (ecLost 4096 [2, 3, 4]).st = JobState.broken) ∧ (ecLost 4096 [2, 3, 4]).k ≠ 0 ∧
      (ecLost 4096 [2, 3, 4]).protGen ≠ 2 ^ 64 - 1 ∧
      w_EC_4_1.locConflict (↑3) 1 (eReb.fld 40 8) (ecLost 4096 [2, 3, 4]).shardLen true = none ∧ w_EC_4_1.dies.ecOff.length ≠ 6 ∧
      (w_EC_4_1.ctx ↑3).alloc = some alloc1 ∧ w_EC_4_1.dram.wf = true ∧
      (2 < (List.filter (fun x ↦ (ecLost 4096 [2, 3, 4]).lost.contains x) ((ecLost 4096 [2, 3, 4]).groupOf (eReb.fld 32 2))).length)) ∧
    (Shaped (ecQ eReb (ecLost 32 [2, 3])) ∧ (ecQ eReb (ecLost 32 [2, 3])).entryAt (↑3) (qix 2 ↑0) 0 34 = some eReb ∧
      (List.find? (fun j ↦ decide (j.id = eReb.fld 24 8 ∧ j.ctx = ↑3)) (ecQ eReb (ecLost 32 [2, 3])).jobs = some (ecLost 32 [2, 3])) ∧
      eReb.fld 32 2 < (ecLost 32 [2, 3]).nmod ∧
      (ecQ eReb (ecLost 32 [2, 3])).locInvalid (↑3) 1 (eReb.fld 40 8) (ecLost 32 [2, 3]).shardLen = false ∧
      ((ecLost 32 [2, 3]).st = JobState.active ∨ (ecLost 32 [2, 3]).st = JobState.broken) ∧ (ecLost 32 [2, 3]).k ≠ 0 ∧
      (ecLost 32 [2, 3]).protGen ≠ 2 ^ 64 - 1 ∧
      (ecQ eReb (ecLost 32 [2, 3])).locConflict (↑3) 1 (eReb.fld 40 8) (ecLost 32 [2, 3]).shardLen true = none ∧
      (ecQ eReb (ecLost 32 [2, 3])).dies.ecOff.length ≠ 6 ∧ ((ecQ eReb (ecLost 32 [2, 3])).ctx ↑3).alloc = some alloc1 ∧
      (ecQ eReb (ecLost 32 [2, 3])).dram.wf = true ∧
      ((List.filter (fun x ↦ (ecLost 32 [2, 3]).lost.contains x) ((ecLost 32 [2, 3]).groupOf (eReb.fld 32 2))).length ≤ 2) ∧
      (List.replicate 128 7).length = (ecLost 32 [2, 3]).shardLen) := by
  unfold Shaped
  refine ⟨?_, ?_⟩ <;> decide +kernel
theorem witness_ErasureCodedState_3 :
    (Shaped w_EC_6_1 ∧ w_EC_6_1.entryAt (↑3) (qix 2 ↑0) 0 34 = some eReb ∧
      (List.find? (fun j ↦ decide (j.id = eReb.fld 24 8 ∧ j.ctx = ↑3)) w_EC_6_1.jobs = some (ecLost 4096 [2, 3])) ∧
      eReb.fld 32 2 < (ecLost 4096 [2, 3]).nmod ∧ w_EC_6_1.locInvalid (↑3) 1 (eReb.fld 40 8) (ecLost 4096 [2, 3]).shardLen = false ∧
      ((ecLost 4096 [2, 3]).st = JobState.active ∨ (ecLost 4096 [2, 3]).st = JobState.broken) ∧ (ecLost 4096 [2, 3]).k ≠ 0 ∧
      (ecLost 4096 [2, 3]).protGen ≠ 2 ^ 64 - 1 ∧
      w_EC_6_1.locConflict (↑3) 1 (eReb.fld 40 8) (ecLost 4096 [2, 3]).shardLen true = none ∧ w_EC_6_1.dies.ecOff.length ≠ 6 ∧
      (w_EC_6_1.ctx ↑3).alloc = some alloc1 ∧ w_EC_6_1.dram.wf = true ∧
      ((List.filter (fun x ↦ (ecLost 4096 [2, 3]).lost.contains x) ((ecLost 4096 [2, 3]).groupOf (eReb.fld 32 2))).length ≤ 2)) ∧
    (Shaped (onlyJob ecJob0) ∧ (onlyJob ecJob0).job? (BitVec.toNat (77 : W64)) = some ecJob0 ∧ ecJob0.ctx < 64 ∧
      ecJob0.copying = false) ∧
    (Shaped (onlyJob ecCopying) ∧ (onlyJob ecCopying).job? (BitVec.toNat (77 : W64)) = some ecCopying ∧ ecCopying.ctx < 64 ∧
      ecCopying.copying = true) ∧
    (Shaped (onlyJob ecDone) ∧ (onlyJob ecDone).job? (BitVec.toNat (77 : W64)) = some ecDone ∧ ecDone.ctx < 64 ∧
      (ecDone.k = 0 ∨ ecDone.copying = true ∨ ecDone.genDone = ecDone.gen ∨ ecDone.parityDone ecDone.gen = false)) := by
  unfold Shaped
  refine ⟨?_, ?_, ?_, ?_⟩ <;> decide +kernel
theorem witness_ErasureCodedState_4 :
    (Shaped (onlyJob ecGotAll) ∧ (onlyJob ecGotAll).job? (BitVec.toNat (77 : W64)) = some ecGotAll ∧ ecGotAll.ctx < 64 ∧
      ecGotAll.k ≠ 0 ∧ ecGotAll.copying = false ∧ ecGotAll.genDone ≠ ecGotAll.gen ∧ ecGotAll.parityDone ecGotAll.gen = true ∧
      (ecGotAll.setup = false ∨ ecGotAll.own ≠ none ∨ ((onlyJob ecGotAll).ctx ecGotAll.ctx).active = true)) := by
  unfold Shaped
  decide +kernel
/-! ### CheckEngine -/

def w_CK_3_1 : State := (ckQ (eWm 1)).modChan 36 fun x => { x with broke := true }
theorem witness_CheckEngine_1 :
    (Shaped (ckQ (eWm 1)) ∧ (ckQ (eWm 1)).entryAt (↑3) (qix 3 ↑0) 0 48 = some (eWm 1) ∧ (eWm 1).fld 48 1 ≤ 1 ∧
      (eWm 1).fld 24 8 % 8 = 0 ∧ (eWm 1).fld 32 8 % 8 = 0 ∧
      (ckQ (eWm 1)).locInvalid (↑3) 1 ((eWm 1).fld 24 8) ((eWm 1).fld 32 8) = false ∧
      (ckQ (eWm 1)).locInvalid (↑3) ((eWm 1).fld 48 1) ((eWm 1).fld 56 8) 16 = false ∧
      (ckQ (eWm 1)).locConflict (↑3) ((eWm 1).fld 48 1) ((eWm 1).fld 56 8) 16 true = none ∧
      (ckQ (eWm 1)).locWaits (↑3) 1 ((eWm 1).fld 24 8) ((eWm 1).fld 32 8) = false ∧
      (ckQ (eWm 1)).locWaits (↑3) ((eWm 1).fld 48 1) ((eWm 1).fld 56 8) 16 = false ∧ ((ckQ (eWm 1)).ctx ↑3).alloc = some alloc1 ∧
      (∀ x ∈ ((ckQ (eWm 1)).decay []).rangeErrs (↑3) ((eWm 1).fld 24 8) ((eWm 1).fld 32 8), x.2.2 = Ecc.corrected) ∧
      (eWm 1).fld 48 1 = 1 ∧ (ckQ (eWm 1)).dram.wf = true) ∧
    (Shaped (ckQ (eWm 0)) ∧ (ckQ (eWm 0)).entryAt (↑3) (qix 3 ↑0) 0 48 = some (eWm 0) ∧ (eWm 0).fld 48 1 ≤ 1 ∧
      (eWm 0).fld 24 8 % 8 = 0 ∧ (eWm 0).fld 32 8 % 8 = 0 ∧
      (ckQ (eWm 0)).locInvalid (↑3) 1 ((eWm 0).fld 24 8) ((eWm 0).fld 32 8) = false ∧
      (ckQ (eWm 0)).locInvalid (↑3) ((eWm 0).fld 48 1) ((eWm 0).fld 56 8) 16 = false ∧
      (ckQ (eWm 0)).locConflict (↑3) ((eWm 0).fld 48 1) ((eWm 0).fld 56 8) 16 true = none ∧
      (ckQ (eWm 0)).locWaits (↑3) 1 ((eWm 0).fld 24 8) ((eWm 0).fld 32 8) = false ∧
      (ckQ (eWm 0)).locWaits (↑3) ((eWm 0).fld 48 1) ((eWm 0).fld 56 8) 16 = false ∧ ((ckQ (eWm 0)).ctx ↑3).alloc = some alloc1 ∧
      (∀ x ∈ ((ckQ (eWm 0)).decay []).rangeErrs (↑3) ((eWm 0).fld 24 8) ((eWm 0).fld 32 8), x.2.2 = Ecc.corrected) ∧
      (eWm 0).fld 48 1 = 0) := by
  unfold Shaped
  refine ⟨?_, ?_⟩ <;> decide +kernel
theorem witness_CheckEngine_2 :
    (Shaped w_CK_3_1 ∧ w_CK_3_1.entryAt (↑3) (qix 3 ↑0) 0 48 = some (eWm 1) ∧ (eWm 1).fld 48 1 ≤ 1 ∧ (eWm 1).fld 24 8 % 8 = 0 ∧
      (eWm 1).fld 32 8 % 8 = 0 ∧ w_CK_3_1.locInvalid (↑3) 1 ((eWm 1).fld 24 8) ((eWm 1).fld 32 8) = false ∧
      w_CK_3_1.locInvalid (↑3) ((eWm 1).fld 48 1) ((eWm 1).fld 56 8) 16 = false ∧
      w_CK_3_1.locConflict (↑3) ((eWm 1).fld 48 1) ((eWm 1).fld 56 8) 16 true = none ∧
      w_CK_3_1.locWaits (↑3) 1 ((eWm 1).fld 24 8) ((eWm 1).fld 32 8) = false ∧
      w_CK_3_1.locWaits (↑3) ((eWm 1).fld 48 1) ((eWm 1).fld 56 8) 16 = false ∧ (w_CK_3_1.ctx ↑3).alloc = some alloc1 ∧
      (∃ x ∈ (w_CK_3_1.decay []).rangeErrs (↑3) ((eWm 1).fld 24 8) ((eWm 1).fld 32 8), x.2.2 ≠ Ecc.corrected) ∧
      (∀ z ∈ (w_CK_3_1.ctx ↑3).stops, z.1 < 4) ∧ (∀ (r : RunRec), (w_CK_3_1.ctx ↑3).run = some r → r.q < 4)) ∧
    (Shaped (ckJob 2 (some onceProg)) ∧ (ckJob 2 (some onceProg)).entryAt (↑3) (qix 3 ↑0) 0 49 = some (eRep 2) ∧
      (∀ a ∈ ((ckJob 2 (some onceProg)).ctx ↑3).armed, (qix 3 ↑0, 0) ∉ a.entries) ∧
      ((ckJob 2 (some onceProg)).ctx ↑3).prog = some onceProg ∧ (ckJob 2 (some onceProg)).jobOfCtx ↑3 = some job0 ∧
      ((ckJob 2 (some onceProg)).ctx ↑3).alloc = some alloc1 ∧ 2 ≤ (eRep 2).fld 25 1 ∧ (eRep 2).fld 25 1 ≤ 8 ∧
      (((ckJob 2 (some onceProg)).ctx ↑3).st = CtxState.placed ∨ ((ckJob 2 (some onceProg)).ctx ↑3).st = CtxState.running) ∧
      (ckJob 2 (some onceProg)).unitOf ((eRep 2).fld 32 4) = some (UnitRef.job job0.serial) ∧ job0.nmod % (eRep 2).fld 25 1 = 0 ∧
      (eRep 2).fld 24 1 < onceProg.regions.length ∧
      (onceProg.regions.getD ((eRep 2).fld 24 1) { baseA := 0, baseB := 0, len := 0, double := false }).double = true ∧
      regionWrittenOnce onceProg alloc1 ((eRep 2).fld 24 1) = true ∧
      (∀ a ∈ ((ckJob 2 (some onceProg)).ctx ↑3).armed, a.region ≠ (eRep 2).fld 24 1)) := by
  unfold Shaped
  refine ⟨?_, ?_⟩ <;> decide +kernel
theorem witness_CheckEngine_3 :
    (Shaped ckArmed ∧ ckArmed.entryAt (↑3) (qix 3 ↑0) 0 49 = some (eRep 2) ∧
      (∀ a ∈ (ckArmed.ctx ↑3).armed, (qix 3 ↑0, 0) ∉ a.entries) ∧ (ckArmed.ctx ↑3).prog = some onceProg ∧
      ckArmed.jobOfCtx ↑3 = some job0 ∧ (ckArmed.ctx ↑3).alloc = some alloc1 ∧ 2 ≤ (eRep 2).fld 25 1 ∧ (eRep 2).fld 25 1 ≤ 8 ∧
      ((ckArmed.ctx ↑3).st = CtxState.placed ∨ (ckArmed.ctx ↑3).st = CtxState.running) ∧
      ckArmed.unitOf ((eRep 2).fld 32 4) = some (UnitRef.job job0.serial) ∧ job0.nmod % (eRep 2).fld 25 1 = 0 ∧
      (eRep 2).fld 24 1 < onceProg.regions.length ∧
      (onceProg.regions.getD ((eRep 2).fld 24 1) { baseA := 0, baseB := 0, len := 0, double := false }).double = true ∧
      regionWrittenOnce onceProg alloc1 ((eRep 2).fld 24 1) = true ∧ (∃ a ∈ (ckArmed.ctx ↑3).armed, a.region = (eRep 2).fld 24 1)) ∧
    (Shaped (ckJob 1 (some onceProg)) ∧ (ckJob 1 (some onceProg)).entryAt (↑3) (qix 3 ↑0) 0 49 = some (eRep 1) ∧
      (∀ a ∈ ((ckJob 1 (some onceProg)).ctx ↑3).armed, (qix 3 ↑0, 0) ∉ a.entries) ∧
      ((eRep 1).fld 25 1 < 2 ∨ 8 < (eRep 1).fld 25 1 ∨ ((ckJob 1 (some onceProg)).ctx ↑3).prog = none ∨ (ckJob 1 (some onceProg)).jobOfCtx ↑3 = none)) ∧
    (Shaped (ckJob 9 (some onceProg)) ∧ (ckJob 9 (some onceProg)).entryAt (↑3) (qix 3 ↑0) 0 49 = some (eRep 9) ∧
      (∀ a ∈ ((ckJob 9 (some onceProg)).ctx ↑3).armed, (qix 3 ↑0, 0) ∉ a.entries) ∧
      ((eRep 9).fld 25 1 < 2 ∨ 8 < (eRep 9).fld 25 1 ∨ ((ckJob 9 (some onceProg)).ctx ↑3).prog = none ∨ (ckJob 9 (some onceProg)).jobOfCtx ↑3 = none)) := by
  unfold Shaped
  refine ⟨?_, ?_, ?_⟩ <;> decide +kernel
/-! ### CollectiveCommands -/

def w_Cc_1_1 : State := collRun (coll0 (recvD 0) [e9])
def w_Cc_2_1 : State := collRun (coll0 (recvD 0) [e9])
def w_Cc_6_1 : State := collIn .placed 1023 (recvD 4)
theorem witness_CollectiveCommands_1 :
    (Shaped w_Cc_1_1 ∧ HostReady w_Cc_1_1 ∧ [3, 0, 1, 0].length = 4 ∧ arg [3, 0, 1, 0] 1 1 = 0 ∧ arg [3, 0, 1, 0] 0 1 < 64 ∧
      (w_Cc_1_1.ctx (arg [3, 0, 1, 0] 0 1)).st ≠ CtxState.free ∧
      w_Cc_1_1.coll? (arg [3, 0, 1, 0] 0 1) (arg [3, 0, 1, 0] 2 2) = some (coll0 (recvD 0) [e9])) ∧
    (Shaped w_Cc_2_1 ∧ HostReady w_Cc_2_1 ∧ [3, 0, 2, 0].length = 4 ∧ arg [3, 0, 2, 0] 1 1 = 0 ∧ arg [3, 0, 2, 0] 0 1 < 64 ∧
      (w_Cc_2_1.ctx (arg [3, 0, 2, 0] 0 1)).st ≠ CtxState.free ∧ w_Cc_2_1.coll? (arg [3, 0, 2, 0] 0 1) (arg [3, 0, 2, 0] 2 2) = none) ∧
    (Shaped (collIn CtxState.running 1 (recvD 0)) ∧
      (collIn CtxState.running 1 (recvD 0)).entryAt (↑3) (qix 2 ↑0) 0 32 = some (eColl 1) ∧
      (∀ y ∈ ((collIn CtxState.running 1 (recvD 0)).ctx ↑3).colls, y.once ≠ some (qix 2 ↑0, 0)) ∧ (eColl 1).fld 24 4 ≤ 1023 ∧
      (collIn CtxState.running 1 (recvD 0)).locInvalid (↑3) 1 ((eColl 1).fld 32 8) 128 = false ∧
      ((collIn CtxState.running 1 (recvD 0)).ctx ↑3).alloc = some alloc1 ∧
      collB 1 0 = { id := (eColl 1).fld 24 4, desc := (collIn CtxState.running 1 (recvD 0)).ctxRead (↑3) ((eColl 1).fld 32 8) 128, edges := [] } ∧
      (collD 1 0 = { id := (collB 1 0).id, desc := (collB 1 0).desc, flip := (collB 1 0).flip, occ := (Option.map (fun g ↦ if (collB 1 0).isOnce = true then 0 else occBefore g.calPeriod (collB 1 0).start ((collIn CtxState.running 1 (recvD 0)).ctx ↑3).sched) ((collIn CtxState.running 1 (recvD 0)).ctx ↑3).prog).getD 0, running := (collB 1 0).running, faulted := (collB 1 0).faulted, doneInStep := (collB 1 0).doneInStep, edges := (collB 1 0).newEdges, parts := (collB 1 0).parts, written := (collB 1 0).written, next := (collB 1 0).next, home := (collB 1 0).home, nipWait := (collIn CtxState.running 1 (recvD 0)).settingNat 9, once := (collB 1 0).once }) ∧
      ((collIn CtxState.running 1 (recvD 0)).ctx ↑3).st = CtxState.running) := by
  unfold HostReady Shaped
  refine ⟨?_, ?_, ?_⟩ <;> decide +kernel
theorem witness_CollectiveCommands_2 :
    (Shaped (collIn CtxState.placed 1 (recvD 8)) ∧
      (collIn CtxState.placed 1 (recvD 8)).entryAt (↑3) (qix 2 ↑0) 0 32 = some (eColl 1) ∧
      (∀ y ∈ ((collIn CtxState.placed 1 (recvD 8)).ctx ↑3).colls, y.once ≠ some (qix 2 ↑0, 0)) ∧ (eColl 1).fld 24 4 ≤ 1023 ∧
      (collIn CtxState.placed 1 (recvD 8)).locInvalid (↑3) 1 ((eColl 1).fld 32 8) 128 = false ∧
      ((collIn CtxState.placed 1 (recvD 8)).ctx ↑3).alloc = some alloc1 ∧
      collB 1 8 = { id := (eColl 1).fld 24 4, desc := (collIn CtxState.placed 1 (recvD 8)).ctxRead (↑3) ((eColl 1).fld 32 8) 128, edges := [] } ∧
      (collD 1 8 = { id := (collB 1 8).id, desc := (collB 1 8).desc, flip := (collB 1 8).flip, occ := (Option.map (fun g ↦ if (collB 1 8).isOnce = true then 0 else occBefore g.calPeriod (collB 1 8).start ((collIn CtxState.placed 1 (recvD 8)).ctx ↑3).sched) ((collIn CtxState.placed 1 (recvD 8)).ctx ↑3).prog).getD 0, running := (collB 1 8).running, faulted := (collB 1 8).faulted, doneInStep := (collB 1 8).doneInStep, edges := (collB 1 8).newEdges, parts := (collB 1 8).parts, written := (collB 1 8).written, next := (collB 1 8).next, home := (collB 1 8).home, nipWait := (collIn CtxState.placed 1 (recvD 8)).settingNat 9, once := (collB 1 8).once }) ∧
      ((collIn CtxState.placed 1 (recvD 8)).ctx ↑3).st ≠ CtxState.running ∧
      ((collD 1 8).badField (Option.map (fun x ↦ x.calPeriod) ((collIn CtxState.placed 1 (recvD 8)).ctx ↑3).prog) = some 3)) ∧
    (Shaped (collIn CtxState.placed 1 (recvD 0)) ∧
      (collIn CtxState.placed 1 (recvD 0)).entryAt (↑3) (qix 2 ↑0) 0 32 = some (eColl 1) ∧
      (∀ y ∈ ((collIn CtxState.placed 1 (recvD 0)).ctx ↑3).colls, y.once ≠ some (qix 2 ↑0, 0)) ∧ (eColl 1).fld 24 4 ≤ 1023 ∧
      (collIn CtxState.placed 1 (recvD 0)).locInvalid (↑3) 1 ((eColl 1).fld 32 8) 128 = false ∧
      ((collIn CtxState.placed 1 (recvD 0)).ctx ↑3).alloc = some alloc1 ∧
      collB 1 0 = { id := (eColl 1).fld 24 4, desc := (collIn CtxState.placed 1 (recvD 0)).ctxRead (↑3) ((eColl 1).fld 32 8) 128, edges := [] } ∧
      (collD 1 0 = { id := (collB 1 0).id, desc := (collB 1 0).desc, flip := (collB 1 0).flip, occ := (Option.map (fun g ↦ if (collB 1 0).isOnce = true then 0 else occBefore g.calPeriod (collB 1 0).start ((collIn CtxState.placed 1 (recvD 0)).ctx ↑3).sched) ((collIn CtxState.placed 1 (recvD 0)).ctx ↑3).prog).getD 0, running := (collB 1 0).running, faulted := (collB 1 0).faulted, doneInStep := (collB 1 0).doneInStep, edges := (collB 1 0).newEdges, parts := (collB 1 0).parts, written := (collB 1 0).written, next := (collB 1 0).next, home := (collB 1 0).home, nipWait := (collIn CtxState.placed 1 (recvD 0)).settingNat 9, once := (collB 1 0).once }) ∧
      ((collIn CtxState.placed 1 (recvD 0)).ctx ↑3).st ≠ CtxState.running ∧
      ((collD 1 0).badField (Option.map (fun x ↦ x.calPeriod) ((collIn CtxState.placed 1 (recvD 0)).ctx ↑3).prog) = none) ∧
      (∀ y ∈ (collD 1 0).areas, (collIn CtxState.placed 1 (recvD 0)).locInvalid (↑3) 1 y.2.1 y.2.2 = false ∧ touchesRegion ((collIn CtxState.placed 1 (recvD 0)).ctx ↑3) y.2.1 y.2.2 = false) ∧
      (∀ y ∈ (collD 1 0).edges, (collIn CtxState.placed 1 (recvD 0)).edgePort y.peer ≤ 17 ∧ (collD 1 0).fld 1 1 ∈ ((collIn CtxState.placed 1 (recvD 0)).port ((collIn CtxState.placed 1 (recvD 0)).edgePort y.peer)).groups ∧ ((collD 1 0).reduces = true → ((collIn CtxState.placed 1 (recvD 0)).port ((collIn CtxState.placed 1 (recvD 0)).edgePort y.peer)).eth = false)) ∧
      (∀ y ∈ ((collIn CtxState.placed 1 (recvD 0)).ctx ↑3).colls, y.id = (collD 1 0).id → y.running = none) ∧
      (∀ m ∈ (collIn CtxState.placed 1 (recvD 0)).mgmt.modes, m.mode ≠ 2) ∧
      ((List.filter (fun y ↦ decide (y.id ≠ (collD 1 0).id)) ((collIn CtxState.placed 1 (recvD 0)).ctx ↑3).colls).length < 256) ∧
      (collIn CtxState.placed 1 (recvD 0)).dies.nipOff.length ≠ 6 ∧ (collD 1 0).isOnce = false) := by
  unfold Shaped
  refine ⟨?_, ?_⟩ <;> decide +kernel
theorem witness_CollectiveCommands_3 :
    (Shaped w_Cc_6_1 ∧ w_Cc_6_1.entryAt (↑3) (qix 2 ↑0) 0 32 = some (eColl 1023) ∧
      (∀ y ∈ (w_Cc_6_1.ctx ↑3).colls, y.once ≠ some (qix 2 ↑0, 0)) ∧ (eColl 1023).fld 24 4 ≤ 1023 ∧
      w_Cc_6_1.locInvalid (↑3) 1 ((eColl 1023).fld 32 8) 128 = false ∧ (w_Cc_6_1.ctx ↑3).alloc = some alloc1 ∧
      collB 1023 4 = { id := (eColl 1023).fld 24 4, desc := w_Cc_6_1.ctxRead (↑3) ((eColl 1023).fld 32 8) 128, edges := [] } ∧
      (collD 1023 4 = { id := (collB 1023 4).id, desc := (collB 1023 4).desc, flip := (collB 1023 4).flip, occ := (Option.map (fun g ↦ if (collB 1023 4).isOnce = true then 0 else occBefore g.calPeriod (collB 1023 4).start (w_Cc_6_1.ctx ↑3).sched) (w_Cc_6_1.ctx ↑3).prog).getD 0, running := (collB 1023 4).running, faulted := (collB 1023 4).faulted, doneInStep := (collB 1023 4).doneInStep, edges := (collB 1023 4).newEdges, parts := (collB 1023 4).parts, written := (collB 1023 4).written, next := (collB 1023 4).next, home := (collB 1023 4).home, nipWait := w_Cc_6_1.settingNat 9, once := (collB 1023 4).once }) ∧
      (w_Cc_6_1.ctx ↑3).st ≠ CtxState.running ∧
      ((collD 1023 4).badField (Option.map (fun x ↦ x.calPeriod) (w_Cc_6_1.ctx ↑3).prog) = none) ∧
      (∀ y ∈ (collD 1023 4).areas, w_Cc_6_1.locInvalid (↑3) 1 y.2.1 y.2.2 = false ∧ touchesRegion (w_Cc_6_1.ctx ↑3) y.2.1 y.2.2 = false) ∧
      (∀ y ∈ (collD 1023 4).edges, w_Cc_6_1.edgePort y.peer ≤ 17 ∧ (collD 1023 4).fld 1 1 ∈ (w_Cc_6_1.port (w_Cc_6_1.edgePort y.peer)).groups ∧ ((collD 1023 4).reduces = true → (w_Cc_6_1.port (w_Cc_6_1.edgePort y.peer)).eth = false)) ∧
      (∀ y ∈ (w_Cc_6_1.ctx ↑3).colls, y.id = (collD 1023 4).id → y.running = none) ∧ (∀ m ∈ w_Cc_6_1.mgmt.modes, m.mode ≠ 2) ∧
      ((List.filter (fun y ↦ decide (y.id ≠ (collD 1023 4).id)) (w_Cc_6_1.ctx ↑3).colls).length < 256) ∧
      w_Cc_6_1.dies.nipOff.length ≠ 6 ∧ (collD 1023 4).isOnce = true ∧
      ((w_Cc_6_1.ctx ↑3).st = CtxState.bound ∨ (w_Cc_6_1.ctx ↑3).st = CtxState.placed)) ∧
    (Shaped (onceIn true) ∧ (onceIn true).entryAt (↑3) (qix 2 ↑0) 0 32 = some (eColl 1) ∧
      (List.find? (fun d ↦ decide (d.once = some (qix 2 ↑0, 0))) ((onceIn true).ctx ↑3).colls = some (onceC true)) ∧
      (onceC true).running ≠ none ∧ (onceIn true).coll? (↑3) (onceC true).id = some (onceC true)) ∧
    (Shaped (onceIn false) ∧ (onceIn false).entryAt (↑3) (qix 2 ↑0) 0 32 = some (eColl 1) ∧
      (List.find? (fun d ↦ decide (d.once = some (qix 2 ↑0, 0))) ((onceIn false).ctx ↑3).colls = some (onceC false))) := by
  unfold Shaped
  refine ⟨?_, ?_, ?_⟩ <;> decide +kernel
/-! ### CollectiveOccurrences -/

def w_Co_0_1 : State := (collRun (coll0 (recvD 0) [e9])).modCtx 3 fun x => { x with prog := none }
def w_Co_1_1 : State := collRun { coll0 (recvD 0) [e9] with occ := 1 }
def w_Co_1_4 : Coll := { coll0 (recvD 0) [e9] with occ := 1 }
def w_Co_2_1 : State := collRun (coll0 (recvD 0) [e9])
def w_Co_3_1 : State := collRun (coll0 (recvD 0) [e9])
def w_Co_3b_1 : State := collRun (live (coll0 (recvD 0) [e9]))
def w_Co_5_8 : Edge := { e9 with timers := [(0, 0, 0)] }
def w_Co_6_8 : Edge := { e9 with timers := [(0, 0, 0)] }
def w_Co_7_h_8 : Edge := { e9 with timers := [(0, 1, 0)] }
theorem witness_CollectiveOccurrences_1 :
    (Shaped w_Co_0_1 ∧ 3 < w_Co_0_1.start.stage ∧
      w_Co_0_1.coll? (↑(3 : Ctx)) (BitVec.toNat (1 : W32)) = some (coll0 (recvD (0 : ℕ)) [e9]) ∧ (w_Co_0_1.ctx ↑3).prog = none) ∧
    (Shaped w_Co_1_1 ∧ 3 < w_Co_1_1.start.stage ∧ w_Co_1_1.coll? (↑(3 : Ctx)) (BitVec.toNat (1 : W32)) = some w_Co_1_4 ∧
      (w_Co_1_1.ctx ↑3).prog = some boxProg ∧
      (w_Co_1_4.isOnce = true ∨ (w_Co_1_1.ctx ↑3).active = false ∨ (∃ j, w_Co_1_1.jobOfCtx ↑3 = some j ∧ j.st ≠ JobState.active) ∨ occBefore boxProg.calPeriod w_Co_1_4.start ((w_Co_1_1.ctx ↑3).sched + 1) ≤ w_Co_1_4.occ ∨ (w_Co_1_1.homeNip w_Co_1_4).1 = none ∨ w_Co_1_4.running ≠ none ∨ w_Co_1_4.faulted = true ∨ 64 ≤ (List.filter (fun x ↦ x.running.isSome) (w_Co_1_1.ctx ↑3).colls).length ∨ ∃ die, (w_Co_1_1.homeNip w_Co_1_4).1 = some die ∧ 2 ^ 25 < w_Co_1_1.bufferUse die + w_Co_1_4.window * 4160)) ∧
    (Shaped w_Co_2_1 ∧ 3 < w_Co_2_1.start.stage ∧
      w_Co_2_1.coll? (↑(3 : Ctx)) (BitVec.toNat (1 : W32)) = some (coll0 (recvD (0 : ℕ)) [e9]) ∧
      (w_Co_2_1.ctx ↑3).prog = some boxProg ∧ (coll0 (recvD 0) [e9]).isOnce = false ∧ (w_Co_2_1.ctx ↑3).active = true ∧
      (∀ (j : Job), w_Co_2_1.jobOfCtx ↑3 = some j → j.st = JobState.active) ∧
      (coll0 (recvD 0) [e9]).occ < occBefore boxProg.calPeriod (coll0 (recvD 0) [e9]).start ((w_Co_2_1.ctx ↑3).sched + 1) ∧
      w_Co_2_1.homeNip (coll0 (recvD 0) [e9]) = (some 1, 1) ∧ (coll0 (recvD 0) [e9]).running = none ∧
      (coll0 (recvD 0) [e9]).faulted = false ∧ (coll0 (recvD 0) [e9]).once = none ∧
      ((List.filter (fun x ↦ x.running.isSome) (w_Co_2_1.ctx ↑3).colls).length < 64) ∧
      w_Co_2_1.bufferUse 1 + (coll0 (recvD 0) [e9]).window * 4160 ≤ 2 ^ 25) ∧
    (Shaped w_Co_3_1 ∧ 3 < w_Co_3_1.start.stage ∧
      w_Co_3_1.coll? (↑(3 : Ctx)) (BitVec.toNat (1 : W32)) = some (coll0 (recvD (0 : ℕ)) [e9]) ∧
      ((coll0 (recvD 0) [e9]).running = none ∨ (coll0 (recvD 0) [e9]).faulted = true ∨ (coll0 (recvD 0) [e9]).allDone = false)) := by
  unfold Shaped
  refine ⟨?_, ?_, ?_, ?_⟩ <;> decide +kernel
theorem witness_CollectiveOccurrences_2 :
    (Shaped w_Co_3b_1 ∧ 3 < w_Co_3b_1.start.stage ∧
      w_Co_3b_1.coll? (↑(3 : Ctx)) (BitVec.toNat (1 : W32)) = some (live (coll0 (recvD (0 : ℕ)) [e9])) ∧
      ((live (coll0 (recvD 0) [e9])).running = none ∨ (live (coll0 (recvD 0) [e9])).faulted = true ∨ (live (coll0 (recvD 0) [e9])).allDone = false)) ∧
    (Shaped (collRun (ended true)) ∧ 3 < (collRun (ended true)).start.stage ∧
      (collRun (ended true)).coll? (↑(3 : Ctx)) (BitVec.toNat (1 : W32)) = some (ended true) ∧ (ended true).running ≠ none ∧
      (ended true).faulted = false ∧ (ended true).allDone = true ∧ (∃ e ∈ (ended true).edges, e.digestDue = true)) ∧
    (Shaped (collRun (ended false)) ∧ 3 < (collRun (ended false)).start.stage ∧
      (collRun (ended false)).coll? (↑(3 : Ctx)) (BitVec.toNat (1 : W32)) = some (ended false) ∧
      (ended false).running = some (1, 1, 0) ∧ (ended false).faulted = false ∧ (ended false).allDone = true ∧
      (∀ e ∈ (ended false).edges, e.digestDue = false)) ∧
    (Shaped (collRun (timed 0)) ∧ 3 < (collRun (timed 0)).start.stage ∧
      (collRun (timed (0 : ℕ))).coll? (↑(3 : Ctx)) (BitVec.toNat (1 : W32)) = some (timed (0 : ℕ)) ∧
      (timed (0 : ℕ)).edge? (BitVec.toNat (9 : W16)) = some w_Co_5_8 ∧ (timed 0).faulted = false ∧ (timed 0).running ≠ none ∧
      (collRun (timed (0 : ℕ))).timerDue (timed (0 : ℕ)) w_Co_5_8 (BitVec.toNat (0 : W32)) (0 : ℕ) = false ∧
      (collRun (timed (0 : ℕ))).timerDue (timed (0 : ℕ)) w_Co_5_8 (BitVec.toNat (0 : W32)) (1 : ℕ) = false) := by
  unfold Shaped
  refine ⟨?_, ?_, ?_, ?_⟩ <;> decide +kernel
theorem witness_CollectiveOccurrences_3 :
    (Shaped (nipLate (collRun (timed 0))) ∧ 3 < (nipLate (collRun (timed 0))).start.stage ∧
      (nipLate (collRun (timed (0 : ℕ)))).coll? (↑(3 : Ctx)) (BitVec.toNat (1 : W32)) = some (timed (0 : ℕ)) ∧
      (timed (0 : ℕ)).edge? (BitVec.toNat (9 : W16)) = some w_Co_6_8 ∧ (timed 0).faulted = false ∧ (timed 0).running ≠ none ∧
      (nipLate (collRun (timed (0 : ℕ)))).timerDue (timed (0 : ℕ)) w_Co_6_8 (BitVec.toNat (0 : W32)) (0 : ℕ) = true) ∧
    (Shaped (nipLate (collRun (timed 1))) ∧ 3 < (nipLate (collRun (timed 1))).start.stage ∧
      (nipLate (collRun (timed (1 : ℕ)))).coll? (↑(3 : Ctx)) (BitVec.toNat (1 : W32)) = some (timed (1 : ℕ)) ∧
      (timed (1 : ℕ)).edge? (BitVec.toNat (9 : W16)) = some w_Co_7_h_8 ∧ (timed 1).faulted = false ∧ (timed 1).running ≠ none ∧
      (nipLate (collRun (timed (1 : ℕ)))).timerDue (timed (1 : ℕ)) w_Co_7_h_8 (BitVec.toNat (0 : W32)) (0 : ℕ) = false ∧
      (nipLate (collRun (timed (1 : ℕ)))).timerDue (timed (1 : ℕ)) w_Co_7_h_8 (BitVec.toNat (0 : W32)) (1 : ℕ) = true) := by
  unfold Shaped
  refine ⟨?_, ?_⟩ <;> decide +kernel
/-! ### CollectivePackets -/

def w_Cp_4_7 : Edge := { c8 with got := [0] }
def w_Cp_6_7 : Edge := { e9 with got := [0] }
def w_Cp_8a_7 : Edge := { e9 with got := [0] }
def w_Cp_9a_7 : Edge := { e9 with sent := [0], acked := [0] }
def w_Cp_9_7 : Edge := { e9 with sent := [0] }
def w_Cp_9b_7 : Edge := { e9 with sent := [0] }
def w_Cp_11a_7 : Edge := { e9 with sent := [0], resent := [0] }
def w_Cp_11_7 : Edge := { e9 with sent := [0] }
def w_Cp_13_1 : State := rx recvC (kDigest (zeros 16))
def w_Cp_14_1 : State := rx recvC (kDigest (List.replicate 16 1))
def w_Cp_15_1 : State := ecSeen [(1, 2, false, 0)] [ecPkt]
def w_Cp_17_1 : State := ecSeen [(1, 3, true, 0)] [ecPktQ]
theorem witness_CollectivePackets_1 :
    (Shaped up ∧ 3 < up.start.stage ∧
      (3, Instr.data) ∈ [(1, Instr.contrib), (2, Instr.result), (3, Instr.data), (5, Instr.reissueReq), (6, Instr.pending), (7, Instr.digest)] ∧
      (∀ k ∈ up.rxq, k.typ ≠ (3, Instr.data).1 ∨ up.ecWaitsFor k = true)) ∧
    (Shaped (withRx up [kData]) ∧ 3 < (withRx up [kData]).start.stage ∧
      (3, Instr.data) ∈ [(1, Instr.contrib), (2, Instr.result), (3, Instr.data), (5, Instr.reissueReq), (6, Instr.pending), (7, Instr.digest)] ∧
      (((withRx up [kData]).takePacket fun k ↦ decide (k.typ = (3, Instr.data).1) && !(withRx up [kData]).ecWaitsFor k) = some (kData, up)) ∧
      kData.coll ≠ ecColl ∧ (withRx up [kData]).matchPacket kData = none) ∧
    (Shaped (withRx up [kContrib]) ∧ 3 < (withRx up [kContrib]).start.stage ∧
      (1, Instr.contrib) ∈ [(1, Instr.contrib), (2, Instr.result), (3, Instr.data), (5, Instr.reissueReq), (6, Instr.pending), (7, Instr.digest)] ∧
      (((withRx up [kContrib]).takePacket fun k ↦ decide (k.typ = (1, Instr.contrib).1) && !(withRx up [kContrib]).ecWaitsFor k) = some (kContrib, up)) ∧
      kContrib.coll ≠ ecColl ∧ (withRx up [kContrib]).matchPacket kContrib = none) ∧
    (Shaped (rx faultyC kData) ∧ 3 < (rx faultyC kData).start.stage ∧
      (3, Instr.data) ∈ [(1, Instr.contrib), (2, Instr.result), (3, Instr.data), (5, Instr.reissueReq), (6, Instr.pending), (7, Instr.digest)] ∧
      (((rx faultyC kData).takePacket fun k ↦ decide (k.typ = (3, Instr.data).1) && !(rx faultyC kData).ecWaitsFor k) = some (kData, rx1 faultyC)) ∧
      kData.coll ≠ ecColl ∧ (rx faultyC kData).matchPacket kData = some (3, faultyC, e9) ∧ faultyC.faulted = true) ∧
    (Shaped up ∧ 3 < up.start.stage ∧ (∀ k ∈ up.rxq, k.typ ≠ 4)) := by
  unfold Shaped
  refine ⟨?_, ?_, ?_, ?_, ?_⟩ <;> decide +kernel
theorem witness_CollectivePackets_2 :
    (Shaped (ecRx [ecAck]) ∧ 3 < (ecRx [ecAck]).start.stage ∧
      (((ecRx [ecAck]).takePacket fun k ↦ decide (k.typ = 4)) = some (ecAck, ecRx [])) ∧ ecAck.coll = ecColl ∧
      ((ecRx [ecAck]).ecJob ecAck).isSome = true) ∧
    (Shaped (withRx collUp [ecAck]) ∧ 3 < (withRx collUp [ecAck]).start.stage ∧
      (((withRx collUp [ecAck]).takePacket fun k ↦ decide (k.typ = 4)) = some (ecAck, collUp)) ∧ ecAck.coll = ecColl ∧
      (withRx collUp [ecAck]).ecJob ecAck = none) ∧
    (Shaped (rx kidGot kContrib) ∧ 3 < (rx kidGot kContrib).start.stage ∧
      (rx kidGot kContrib).matchPacket kContrib = some (3, kidGot, w_Cp_4_7) ∧ kidGot.faulted = false ∧ kContrib.coll ≠ ecColl ∧
      3 < 64 ∧
      (((rx kidGot kContrib).takePacket fun k ↦ decide (k.typ = 1) && !(rx kidGot kContrib).ecWaitsFor k) = some (kContrib, rx1 kidGot)) ∧
      w_Cp_4_7.child = true ∧ kidGot.reduces = true ∧ kContrib.pkt < kidGot.npkts ∧ kContrib.flags / 8 % 4 ≠ 3 ∧
      (kContrib.payload.length = 64 + 128 * if kContrib.flags / 8 % 4 = 0 then 8 else if kContrib.flags / 8 % 4 = 1 then 16 else 32) ∧
      kContrib.pkt ∈ w_Cp_4_7.got) := by
  unfold Shaped
  refine ⟨?_, ?_, ?_⟩ <;> decide +kernel
theorem witness_CollectivePackets_3 :
    (Shaped (rx (kidC 1) kContrib) ∧ 3 < (rx (kidC 1) kContrib).start.stage ∧
      (rx (kidC 1) kContrib).matchPacket kContrib = some (3, kidC 1, c8) ∧ (kidC 1).faulted = false ∧ kContrib.coll ≠ ecColl ∧
      3 < 64 ∧
      (((rx (kidC 1) kContrib).takePacket fun k ↦ decide (k.typ = 1) && !(rx (kidC 1) kContrib).ecWaitsFor k) = some (kContrib, rx1 (kidC 1))) ∧
      c8.child = true ∧ (kidC 1).reduces = true ∧ kContrib.pkt < (kidC 1).npkts ∧ kContrib.flags / 8 % 4 ≠ 3 ∧
      (kContrib.payload.length = 64 + 128 * if kContrib.flags / 8 % 4 = 0 then 8 else if kContrib.flags / 8 % 4 = 1 then 16 else 32) ∧
      kContrib.pkt ∉ c8.got) ∧
    (Shaped (rx upGot kResult) ∧ 3 < (rx upGot kResult).start.stage ∧
      (rx upGot kResult).matchPacket kResult = some (3, upGot, w_Cp_6_7) ∧ upGot.faulted = false ∧ kResult.coll ≠ ecColl ∧ 3 < 64 ∧
      (((rx upGot kResult).takePacket fun k ↦ decide (k.typ = 2) && !(rx upGot kResult).ecWaitsFor k) = some (kResult, rx1 upGot)) ∧
      w_Cp_6_7.child = false ∧ upGot.op = 1 ∧ kResult.pkt < upGot.npkts ∧ kResult.payload.length = 64 + upGot.outBytes ∧
      upGot.up = some w_Cp_6_7 ∧ kResult.pkt ∈ w_Cp_6_7.got) := by
  unfold Shaped
  refine ⟨?_, ?_⟩ <;> decide +kernel
theorem witness_CollectivePackets_4 :
    (Shaped (rx upC kResult) ∧ 3 < (rx upC kResult).start.stage ∧ (rx upC kResult).matchPacket kResult = some (3, upC, e9) ∧
      upC.faulted = false ∧ kResult.coll ≠ ecColl ∧ 3 < 64 ∧
      (((rx upC kResult).takePacket fun k ↦ decide (k.typ = 2) && !(rx upC kResult).ecWaitsFor k) = some (kResult, rx1 upC)) ∧
      e9.child = false ∧ upC.op = 1 ∧ kResult.pkt < upC.npkts ∧ kResult.payload.length = 64 + upC.outBytes ∧ upC.up = some e9 ∧
      kResult.pkt ∉ e9.got) ∧
    (Shaped (rx recvGot kData) ∧ 3 < (rx recvGot kData).start.stage ∧
      (rx recvGot kData).matchPacket kData = some (3, recvGot, w_Cp_8a_7) ∧ recvGot.faulted = false ∧ kData.coll ≠ ecColl ∧ 3 < 64 ∧
      (((rx recvGot kData).takePacket fun k ↦ decide (k.typ = 3) && !(rx recvGot kData).ecWaitsFor k) = some (kData, rx1 recvGot)) ∧
      w_Cp_8a_7.child = false ∧ (recvGot.op = 3 ∨ recvGot.op = 5) ∧ kData.pkt < recvGot.npkts ∧
      kData.payload.length = recvGot.dataLen kData.pkt ∧ kData.pkt ∈ w_Cp_8a_7.got) := by
  unfold Shaped
  refine ⟨?_, ?_⟩ <;> decide +kernel
theorem witness_CollectivePackets_5 :
    (Shaped (rx recvC kData) ∧ 3 < (rx recvC kData).start.stage ∧ (rx recvC kData).matchPacket kData = some (3, recvC, e9) ∧
      recvC.faulted = false ∧ kData.coll ≠ ecColl ∧ 3 < 64 ∧
      (((rx recvC kData).takePacket fun k ↦ decide (k.typ = 3) && !(rx recvC kData).ecWaitsFor k) = some (kData, rx1 recvC)) ∧
      e9.child = false ∧ (recvC.op = 3 ∨ recvC.op = 5) ∧ kData.pkt < recvC.npkts ∧ kData.payload.length = recvC.dataLen kData.pkt ∧
      kData.pkt ∉ e9.got) ∧
    (Shaped (rx ackedC kAck) ∧ 3 < (rx ackedC kAck).start.stage ∧ (rx ackedC kAck).matchPacket kAck = some (3, ackedC, w_Cp_9a_7) ∧
      ackedC.faulted = false ∧ kAck.coll ≠ ecColl ∧ 3 < 64 ∧
      (((rx ackedC kAck).takePacket fun k ↦ decide (k.typ = 4)) = some (kAck, rx1 ackedC)) ∧
      (ackedC.op = 4 ∨ ackedC.op = 3 ∧ w_Cp_9a_7.child = true ∨ ackedC.op = 2 ∧ w_Cp_9a_7.child = false) ∧
      kAck.pkt ∈ w_Cp_9a_7.sent ∧ kAck.pkt ∈ w_Cp_9a_7.acked) := by
  unfold Shaped
  refine ⟨?_, ?_⟩ <;> decide +kernel
theorem witness_CollectivePackets_6 :
    (Shaped (rx sendC kAck) ∧ 3 < (rx sendC kAck).start.stage ∧ (rx sendC kAck).matchPacket kAck = some (3, sendC, w_Cp_9_7) ∧
      sendC.faulted = false ∧ kAck.coll ≠ ecColl ∧ 3 < 64 ∧
      (((rx sendC kAck).takePacket fun k ↦ decide (k.typ = 4)) = some (kAck, rx1 sendC)) ∧
      (sendC.op = 4 ∨ sendC.op = 3 ∧ w_Cp_9_7.child = true ∨ sendC.op = 2 ∧ w_Cp_9_7.child = false) ∧ kAck.pkt ∈ w_Cp_9_7.sent ∧
      kAck.pkt ∉ w_Cp_9_7.acked) ∧
    (Shaped (rx reduceC kAck) ∧ 3 < (rx reduceC kAck).start.stage ∧
      (rx reduceC kAck).matchPacket kAck = some (3, reduceC, w_Cp_9b_7) ∧ reduceC.faulted = false ∧ kAck.coll ≠ ecColl ∧ 3 < 64 ∧
      (((rx reduceC kAck).takePacket fun k ↦ decide (k.typ = 4)) = some (kAck, rx1 reduceC)) ∧
      (reduceC.op = 4 ∨ reduceC.op = 3 ∧ w_Cp_9b_7.child = true ∨ reduceC.op = 2 ∧ w_Cp_9b_7.child = false) ∧
      kAck.pkt ∈ w_Cp_9b_7.sent ∧ kAck.pkt ∉ w_Cp_9b_7.acked) ∧
    (Shaped (rx recvC kReissue) ∧ 3 < (rx recvC kReissue).start.stage ∧
      (rx recvC kReissue).matchPacket kReissue = some (3, recvC, e9) ∧ recvC.faulted = false ∧ kReissue.coll ≠ ecColl ∧ 3 < 64 ∧
      (((rx recvC kReissue).takePacket fun k ↦ decide (k.typ = 5) && !(rx recvC kReissue).ecWaitsFor k) = some (kReissue, rx1 recvC)) ∧
      (rx recvC kReissue).owed 3 recvC e9 kReissue.pkt = none) := by
  unfold Shaped
  refine ⟨?_, ?_, ?_⟩ <;> decide +kernel
theorem witness_CollectivePackets_7 :
    (Shaped (rx resentC kReissue) ∧ 3 < (rx resentC kReissue).start.stage ∧
      (rx resentC kReissue).matchPacket kReissue = some (3, resentC, w_Cp_11a_7) ∧ resentC.faulted = false ∧ kReissue.coll ≠ ecColl ∧
      3 < 64 ∧
      (((rx resentC kReissue).takePacket fun k ↦ decide (k.typ = 5) && !(rx resentC kReissue).ecWaitsFor k) = some (kReissue, rx1 resentC)) ∧
      (rx resentC kReissue).owed 3 resentC w_Cp_11a_7 kReissue.pkt = some (3, (rx resentC kReissue).collPayload 3 resentC 0) ∧
      kReissue.pkt ∈ w_Cp_11a_7.resent) ∧
    (Shaped (rx sendC kReissue) ∧ 3 < (rx sendC kReissue).start.stage ∧
      (rx sendC kReissue).matchPacket kReissue = some (3, sendC, w_Cp_11_7) ∧ sendC.faulted = false ∧ kReissue.coll ≠ ecColl ∧
      3 < 64 ∧
      (((rx sendC kReissue).takePacket fun k ↦ decide (k.typ = 5) && !(rx sendC kReissue).ecWaitsFor k) = some (kReissue, rx1 sendC)) ∧
      (rx sendC kReissue).owed 3 sendC w_Cp_11_7 kReissue.pkt = some (3, (rx sendC kReissue).collPayload 3 sendC 0) ∧
      kReissue.pkt ∉ w_Cp_11_7.resent) ∧
    (Shaped (rx recvC kPending) ∧ 3 < (rx recvC kPending).start.stage ∧
      (rx recvC kPending).matchPacket kPending = some (3, recvC, e9) ∧ recvC.faulted = false ∧ kPending.coll ≠ ecColl ∧ 3 < 64 ∧
      (((rx recvC kPending).takePacket fun k ↦ decide (k.typ = 6) && !(rx recvC kPending).ecWaitsFor k) = some (kPending, rx1 recvC))) := by
  unfold Shaped
  refine ⟨?_, ?_, ?_⟩ <;> decide +kernel
theorem witness_CollectivePackets_8 :
    (Shaped w_Cp_13_1 ∧ 3 < w_Cp_13_1.start.stage ∧ w_Cp_13_1.matchPacket (kDigest (zeros 16)) = some (3, recvC, e9) ∧
      recvC.faulted = false ∧ (kDigest (zeros 16)).coll ≠ ecColl ∧ 3 < 64 ∧
      ((w_Cp_13_1.takePacket fun k ↦ decide (k.typ = 7) && !w_Cp_13_1.ecWaitsFor k) = some (kDigest (zeros 16), rx1 recvC)) ∧
      unle (List.take 16 (kDigest (zeros 16)).payload) = e9.tx.toNat) ∧
    (Shaped w_Cp_14_1 ∧ 3 < w_Cp_14_1.start.stage ∧ w_Cp_14_1.matchPacket (kDigest (List.replicate 16 1)) = some (3, recvC, e9) ∧
      recvC.faulted = false ∧ (kDigest (List.replicate 16 1)).coll ≠ ecColl ∧ 3 < 64 ∧
      ((w_Cp_14_1.takePacket fun k ↦ decide (k.typ = 7) && !w_Cp_14_1.ecWaitsFor k) = some (kDigest (List.replicate 16 1), rx1 recvC)) ∧
      unle (List.take 16 (kDigest (List.replicate 16 1)).payload) ≠ e9.tx.toNat) := by
  unfold Shaped
  refine ⟨?_, ?_⟩ <;> decide +kernel
theorem witness_CollectivePackets_9 :
    ((Shaped w_Cp_15_1 ∧ 3 < w_Cp_15_1.start.stage ∧ ecPkt.coll = ecColl ∧
      w_Cp_15_1.ecJob ecPkt = some (ecSeenJob [(1, 2, false, 0)], 2) ∧ (ecSeenJob [(1, 2, false, 0)]).k ≠ 0 ∧
      2 < (ecSeenJob [(1, 2, false, 0)]).nmod ∧
      2 / (ecSeenJob [(1, 2, false, 0)]).m = (ecSeenJob [(1, 2, false, 0)]).rank / (ecSeenJob [(1, 2, false, 0)]).m ∧
      2 ≠ (ecSeenJob [(1, 2, false, 0)]).rank ∧ ecPkt.step ≤ (ecSeenJob [(1, 2, false, 0)]).gen + 1 ∧
      ((ecSeenJob [(1, 2, false, 0)]).protGen = 2 ^ 64 - 1 ∨ (ecSeenJob [(1, 2, false, 0)]).protGen < ecPkt.step) ∧
      ecPkt.pkt % 2 ^ 31 < (ecSeenJob [(1, 2, false, 0)]).pieces ∧
      (((if decide (2 ^ 31 ≤ ecPkt.pkt) = true then ((ecSeenJob [(1, 2, false, 0)]).rank % (ecSeenJob [(1, 2, false, 0)]).m + (ecSeenJob [(1, 2, false, 0)]).m - 1) % (ecSeenJob [(1, 2, false, 0)]).m else (ecSeenJob [(1, 2, false, 0)]).rank % (ecSeenJob [(1, 2, false, 0)]).m) + 2 * (ecSeenJob [(1, 2, false, 0)]).m - 2 % (ecSeenJob [(1, 2, false, 0)]).m - 1) % (ecSeenJob [(1, 2, false, 0)]).m < (ecSeenJob [(1, 2, false, 0)]).k) ∧
      (ecPkt.step, 2, decide (2 ^ 31 ≤ ecPkt.pkt), ecPkt.pkt % 2 ^ 31) ∈ (ecSeenJob [(1, 2, false, 0)]).ecGot) ∧
      ((w_Cp_15_1.takePacket fun k ↦ decide (k.typ = 3) && !w_Cp_15_1.ecWaitsFor k) = some (ecPkt, ecSeen [(1, 2, false, 0)] [])) ∧
      ecPkt.payload.length = 4096) ∧
    ((Shaped (ecSeen [] [ecPkt]) ∧ 3 < (ecSeen [] [ecPkt]).start.stage ∧ ecPkt.coll = ecColl ∧
      (ecSeen [] [ecPkt]).ecJob ecPkt = some (ecSeenJob [], 2) ∧ (ecSeenJob []).k ≠ 0 ∧ 2 < (ecSeenJob []).nmod ∧
      2 / (ecSeenJob []).m = (ecSeenJob []).rank / (ecSeenJob []).m ∧ 2 ≠ (ecSeenJob []).rank ∧ ecPkt.step ≤ (ecSeenJob []).gen + 1 ∧
      ((ecSeenJob []).protGen = 2 ^ 64 - 1 ∨ (ecSeenJob []).protGen < ecPkt.step) ∧ ecPkt.pkt % 2 ^ 31 < (ecSeenJob []).pieces ∧
      (((if decide (2 ^ 31 ≤ ecPkt.pkt) = true then ((ecSeenJob []).rank % (ecSeenJob []).m + (ecSeenJob []).m - 1) % (ecSeenJob []).m else (ecSeenJob []).rank % (ecSeenJob []).m) + 2 * (ecSeenJob []).m - 2 % (ecSeenJob []).m - 1) % (ecSeenJob []).m < (ecSeenJob []).k) ∧
      (∀ x ∈ (ecSeenJob []).ecGot, x.1 ≠ ecPkt.step ∨ x.2.2.1 ≠ decide (2 ^ 31 ≤ ecPkt.pkt) ∨ x.2.2.2 ≠ ecPkt.pkt % 2 ^ 31)) ∧
      (((ecSeen [] [ecPkt]).takePacket fun k ↦ decide (k.typ = 3) && !(ecSeen [] [ecPkt]).ecWaitsFor k) = some (ecPkt, ecSeen [] [])) ∧
      ecPkt.payload.length = 4096) := by
  unfold Shaped
  exact ⟨⟨by decide +kernel, rfl, by simp only [ecPkt, ecPktQ, List.length_replicate]⟩, ⟨by decide +kernel, rfl, by simp only [ecPkt, ecPktQ, List.length_replicate]⟩⟩
theorem witness_CollectivePackets_10 :
    ((Shaped w_Cp_17_1 ∧ 3 < w_Cp_17_1.start.stage ∧ ecPktQ.coll = ecColl ∧
      w_Cp_17_1.ecJob ecPktQ = some (ecSeenJob [(1, 3, true, 0)], 2) ∧ (ecSeenJob [(1, 3, true, 0)]).k ≠ 0 ∧
      2 < (ecSeenJob [(1, 3, true, 0)]).nmod ∧
      2 / (ecSeenJob [(1, 3, true, 0)]).m = (ecSeenJob [(1, 3, true, 0)]).rank / (ecSeenJob [(1, 3, true, 0)]).m ∧
      2 ≠ (ecSeenJob [(1, 3, true, 0)]).rank ∧ ecPktQ.step ≤ (ecSeenJob [(1, 3, true, 0)]).gen + 1 ∧
      ((ecSeenJob [(1, 3, true, 0)]).protGen = 2 ^ 64 - 1 ∨ (ecSeenJob [(1, 3, true, 0)]).protGen < ecPktQ.step) ∧
      ecPktQ.pkt % 2 ^ 31 < (ecSeenJob [(1, 3, true, 0)]).pieces ∧
      (((if decide (2 ^ 31 ≤ ecPktQ.pkt) = true then ((ecSeenJob [(1, 3, true, 0)]).rank % (ecSeenJob [(1, 3, true, 0)]).m + (ecSeenJob [(1, 3, true, 0)]).m - 1) % (ecSeenJob [(1, 3, true, 0)]).m else (ecSeenJob [(1, 3, true, 0)]).rank % (ecSeenJob [(1, 3, true, 0)]).m) + 2 * (ecSeenJob [(1, 3, true, 0)]).m - 2 % (ecSeenJob [(1, 3, true, 0)]).m - 1) % (ecSeenJob [(1, 3, true, 0)]).m < (ecSeenJob [(1, 3, true, 0)]).k) ∧
      (ecPktQ.step, 2, decide (2 ^ 31 ≤ ecPktQ.pkt), ecPktQ.pkt % 2 ^ 31) ∉ (ecSeenJob [(1, 3, true, 0)]).ecGot ∧
      (∃ x ∈ (ecSeenJob [(1, 3, true, 0)]).ecGot, x.1 = ecPktQ.step ∧ x.2.2.1 = decide (2 ^ 31 ≤ ecPktQ.pkt) ∧ x.2.2.2 = ecPktQ.pkt % 2 ^ 31)) ∧
      ((w_Cp_17_1.takePacket fun k ↦ decide (k.typ = 3) && !w_Cp_17_1.ecWaitsFor k) = some (ecPktQ, ecSeen [(1, 3, true, 0)] [])) ∧
      ecPktQ.payload.length = 4096) := by
  unfold Shaped
  exact ⟨by decide +kernel, rfl, by simp only [ecPkt, ecPktQ, List.length_replicate]⟩
/-! ### JobCommands -/

def w_JC_3_2 : Payload := createP 77 3 2 0 4096
def w_JC_7_2 : Payload := restartP 77 3 6 0 4096 4 0
def w_JC_8_2 : Payload := restartP 77 3 6 0 4096 4 10
theorem witness_JobCommands_1 :
    (Shaped (lone (job2 JobState.active 0)) ∧ HostReady (lone (job2 JobState.active 0)) ∧ (le 8 77).length = 8 ∧
      (lone (job2 JobState.active 0)).job? (arg (le 8 77) 0 8) = some (job2 JobState.active 0)) ∧
    (Shaped jobNet ∧ HostReady jobNet ∧ (le 8 77).length = 8 ∧ jobNet.job? (arg (le 8 77) 0 8) = none) ∧
    (Shaped (jobMem 2) ∧ HostOwns (jobMem 2) ∧ List.length w_JC_3_2 = 24 ∧ rsvdBad w_JC_3_2 [(9, 1), (14, 2)] = none ∧
      arg w_JC_3_2 8 1 < 64 ∧ 2 ≤ arg w_JC_3_2 10 2 ∧ arg w_JC_3_2 10 2 ≤ 8192 ∧ arg w_JC_3_2 12 2 < arg w_JC_3_2 10 2 ∧
      (jobMem 2).locInvalid (arg w_JC_3_2 8 1) 1 (arg w_JC_3_2 16 8) (64 + 2 * arg w_JC_3_2 10 2) = false ∧
      (((jobMem 2).ctx (arg w_JC_3_2 8 1)).st = CtxState.bound ∨ ((jobMem 2).ctx (arg w_JC_3_2 8 1)).st = CtxState.placed) ∧
      (jobMem 2).job? (arg w_JC_3_2 0 8) = none ∧ (jobMem 2).jobBar (arg w_JC_3_2 8 1) = none ∧
      peersOk (arg w_JC_3_2 10 2) (arg w_JC_3_2 12 2) (jobMem 2).fabAddr ((jobMem 2).ctxRead (arg w_JC_3_2 8 1) (arg w_JC_3_2 16 8) (64 + 2 * arg w_JC_3_2 10 2)) = true ∧
      (jobMem 2).running.length < 16) ∧
    (Shaped (lone (job2 JobState.excluded 0)) ∧ HostOwns (lone (job2 JobState.excluded 0)) ∧ (le 8 77).length = 8 ∧
      (lone (job2 JobState.excluded 0)).job? (arg (le 8 77) 0 8) = some (job2 JobState.excluded 0) ∧
      (lone (job2 JobState.excluded 0)).running.length < 16 ∧
      (lone (job2 JobState.excluded 0)).op? (lone (job2 JobState.excluded 0)).nextOp = none ∧
      (job2 JobState.excluded 0).st = JobState.excluded) := by
  unfold HostOwns HostReady Shaped
  refine ⟨?_, ?_, ?_, ?_⟩ <;> decide +kernel
theorem witness_JobCommands_2 :
    (Shaped (lone (job2 JobState.active 0)) ∧ HostOwns (lone (job2 JobState.active 0)) ∧ (le 8 77).length = 8 ∧
      (lone (job2 JobState.active 0)).job? (arg (le 8 77) 0 8) = some (job2 JobState.active 0) ∧
      (lone (job2 JobState.active 0)).running.length < 16 ∧
      (lone (job2 JobState.active 0)).op? (lone (job2 JobState.active 0)).nextOp = none ∧
      (job2 JobState.active 0).st ≠ JobState.excluded) := by
  unfold HostOwns HostReady Shaped
  decide +kernel
theorem witness_JobCommands_3 :
    (Shaped (withJob brokenJob) ∧ HostOwns (withJob brokenJob) ∧ List.length w_JC_7_2 = 32 ∧
      rsvdBad w_JC_7_2 [(9, 1), (14, 2), (25, 3)] = none ∧ arg w_JC_7_2 8 1 < 64 ∧ 2 ≤ arg w_JC_7_2 10 2 ∧ arg w_JC_7_2 10 2 ≤ 8192 ∧
      arg w_JC_7_2 12 2 < arg w_JC_7_2 10 2 ∧ 4 ≤ arg w_JC_7_2 24 1 ∧ arg w_JC_7_2 24 1 ≤ 14 ∧
      arg w_JC_7_2 10 2 % (arg w_JC_7_2 24 1 + 2) = 0 ∧ arg w_JC_7_2 28 4 ≤ 1048576 ∧
      (withJob brokenJob).locInvalid (arg w_JC_7_2 8 1) 1 (arg w_JC_7_2 16 8) (64 + 2 * arg w_JC_7_2 10 2) = false ∧
      ((withJob brokenJob).ctx (arg w_JC_7_2 8 1)).st = CtxState.placed ∧ (withJob brokenJob).running.length < 16 ∧
      (withJob brokenJob).job? (arg w_JC_7_2 0 8) = some brokenJob ∧ brokenJob.st = JobState.broken ∧
      brokenJob.k = arg w_JC_7_2 24 1 ∧ (withJob brokenJob).start.pwr = ModPwr.m0 ∧ (withJob brokenJob).portModeBar = none ∧
      brokenJob.ctx = arg w_JC_7_2 8 1 ∧ brokenJob.nmod = arg w_JC_7_2 10 2 ∧ brokenJob.rank = arg w_JC_7_2 12 2 ∧
      brokenJob.peersCrc = crc32c ((withJob brokenJob).ctxRead (arg w_JC_7_2 8 1) (arg w_JC_7_2 16 8) (64 + 2 * arg w_JC_7_2 10 2)) ∧
      brokenJob.addrs = peerAddrs (arg w_JC_7_2 10 2) ((withJob brokenJob).ctxRead (arg w_JC_7_2 8 1) (arg w_JC_7_2 16 8) (64 + 2 * arg w_JC_7_2 10 2)) ∧
      brokenJob.refreshN = arg w_JC_7_2 28 4) := by
  unfold HostOwns HostReady Shaped
  decide +kernel
theorem witness_JobCommands_4 :
    (Shaped (jobMem 6) ∧ HostOwns (jobMem 6) ∧ List.length w_JC_8_2 = 32 ∧ rsvdBad w_JC_8_2 [(9, 1), (14, 2), (25, 3)] = none ∧
      arg w_JC_8_2 8 1 < 64 ∧ 2 ≤ arg w_JC_8_2 10 2 ∧ arg w_JC_8_2 10 2 ≤ 8192 ∧ arg w_JC_8_2 12 2 < arg w_JC_8_2 10 2 ∧
      4 ≤ arg w_JC_8_2 24 1 ∧ arg w_JC_8_2 24 1 ≤ 14 ∧ arg w_JC_8_2 10 2 % (arg w_JC_8_2 24 1 + 2) = 0 ∧
      arg w_JC_8_2 28 4 ≤ 1048576 ∧
      (jobMem 6).locInvalid (arg w_JC_8_2 8 1) 1 (arg w_JC_8_2 16 8) (64 + 2 * arg w_JC_8_2 10 2) = false ∧
      ((jobMem 6).ctx (arg w_JC_8_2 8 1)).st = CtxState.placed ∧ (jobMem 6).running.length < 16 ∧
      (∀ (j : Job), (jobMem 6).job? (arg w_JC_8_2 0 8) = some j → j.st = JobState.excluded) ∧
      (jobMem 6).jobBar (arg w_JC_8_2 8 1) = none ∧
      peersOk (arg w_JC_8_2 10 2) (arg w_JC_8_2 12 2) (jobMem 6).fabAddr ((jobMem 6).ctxRead (arg w_JC_8_2 8 1) (arg w_JC_8_2 16 8) (64 + 2 * arg w_JC_8_2 10 2)) = true ∧
      (jobMem 6).dies.ecOff.length ≠ 6) ∧
    (Shaped (lone (job2 JobState.active 0)) ∧ HostOwns (lone (job2 JobState.active 0)) ∧ (le 8 77).length = 8 ∧
      (lone (job2 JobState.active 0)).job? (arg (le 8 77) 0 8) = some (job2 JobState.active 0) ∧
      (lone (job2 JobState.active 0)).running.length < 16 ∧
      (lone (job2 JobState.active 0)).op? (lone (job2 JobState.active 0)).nextOp = none ∧
      (job2 JobState.active 0).st ≠ JobState.excluded ∧ (job2 JobState.active 0).own = none ∧
      (job2 JobState.active 0).op ≠ some (lone (job2 JobState.active 0)).nextOp ∧
      ((job2 JobState.active 0).st = JobState.voting → ((lone (job2 JobState.active 0)).ctx (job2 JobState.active 0).ctx).run = none)) := by
  unfold HostOwns HostReady Shaped
  refine ⟨?_, ?_⟩ <;> decide +kernel
/-- The chunk size of EC_SETUP is the implementation's (`Config.saveLen`), so this clause is shown by hand. -/
def setupP : Payload := le 8 77 ++ le 1 4 ++ zeros 3 ++ le 4 10
theorem witness_JobCommands_setup :
    (Shaped setupState ∧ HostOwns setupState ∧ setupP.length = 16 ∧ rsvdBad setupP [(9, 3)] = none ∧ arg setupP 8 1 = 4 ∧ arg setupP 12 4 ≤ 1048576 ∧
      setupJob.nmod % (4 + 2) = 0 ∧ setupJob.st = .active ∧ setupJob.op = none ∧ setupJob.ctx = 3 ∧ (setupState.ctx 3).st = .placed ∧
      setupState.portModeBar = none ∧ setupState.dies.ecOff.length ≠ 6 ∧ setupState.running.length < 16) ∧
    setupState.job? (arg setupP 0 8) = some setupJob ∧
    2 * 4 * chunkOf (setupState.shardSize 3) 4 ≤ setupJob.areas.getD 1 0 ∧ 4 * chunkOf (setupState.shardSize 3) 4 ≤ setupJob.areas.getD 3 0 ∧
    (∀ g al, (setupState.ctx 3).prog = some g → (setupState.ctx 3).alloc = some al → ∀ i, i = 0 ∨ i = 2 →
      touchesRegion (setupState.ctx 3) (setupJob.areas.getD i 0) (setupJob.areas.getD (i + 1) 0) = false ∧
        writesInto g al (setupJob.areas.getD i 0) (setupJob.areas.getD (i + 1) 0) = false) ∧
    (∀ i, i = 0 ∨ i = 2 → setupState.locInvalid 3 1 (setupJob.areas.getD i 0) (setupJob.areas.getD (i + 1) 0) = false) ∧
    (∀ r, r / (4 + 2) = setupJob.rank / (4 + 2) → r ≠ setupJob.rank → setupState.edgePort (setupJob.addrs.getD r 0xFFFF) ≤ 17 ∧
      0x3F ∈ (setupState.port (setupState.edgePort (setupJob.addrs.getD r 0xFFFF))).groups) := by
  have hsh : setupState.shardSize 3 = Config.saveLen + 0 := by simp only [State.shardSize]; rfl
  refine ⟨by unfold HostOwns HostReady Shaped; decide +kernel, rfl, ?_, ?_, ?_, ?_, ?_⟩
  · rw [hsh, show setupJob.areas.getD 1 0 = 8 * chW by simp [setupJob], chW]
  · rw [hsh, show setupJob.areas.getD 3 0 = 4 * chW by simp [setupJob], chW]
  · intro g al h
    cases h
  · intro i hi
    have hl : ∀ a n, setupState.locInvalid 3 1 a n = decide (allocLen { alloc1 with lenG := 12 * chW } < a + n) := by
      intro a n
      have hc : (setupState.ctx 3).alloc = some { alloc1 with lenG := 12 * chW } := rfl
      simp [State.locInvalid, hc]
    have hal : allocLen { alloc1 with lenG := 12 * chW } = 960 * (12 * chW) * 8 * 1 := by simp [allocLen, alloc1]
    have h0 : setupJob.areas.getD 0 0 + setupJob.areas.getD 1 0 = 0 + 8 * chW := by simp [setupJob]
    have h2 : setupJob.areas.getD 2 0 + setupJob.areas.getD 3 0 = 8 * chW + 4 * chW := by simp [setupJob]
    rw [hl, hal, decide_eq_false_iff_not]
    rcases hi with rfl | rfl
    · rw [Nat.zero_add, h0]; omega
    · rw [h2]; omega
  · intro r hr hn
    have h6 : r < 6 := by
      have : setupJob.rank = 0 := rfl
      omega
    have h0 : r ≠ 0 := hn
    have hd : ∀ x, x < 6 → x ≠ 0 → setupState.edgePort (setupJob.addrs.getD x 0xFFFF) ≤ 17 ∧
        0x3F ∈ (setupState.port (setupState.edgePort (setupJob.addrs.getD x 0xFFFF))).groups := by decide +kernel
    exact hd r h6 h0
/-! ### JobAgreement -/

def w_JA_1_1 : State := jRx jobNet forming3 [mpkt forming3 2 1 (hello forming3 3) 0]
def w_JA_1b_1 : State := jRx jobNet forming0 [mpkt forming0 2 1 (hello forming0 7) 0]
def w_JA_1c_1 : State := jRx jobNet formR [mpkt formR 2 1 (hello formR 6) 0]
def w_JA_2_1 : State := jRx jobNet forming0 [mpkt forming0 2 1 (hello forming0 2) 0]
def w_JA_3_1 : State := jRx jobNet forming1 [mpkt forming1 2 0 (hello forming1 3) 0]
def w_JA_4_1 : State := lateJ (jRx jobNet forming0 [])
def w_JA_5_1 : State := lateJ (jRx jobNet { forming0 with k := 4 } [])
def w_JA_5_4 : Job := { forming0 with k := 4 }
def w_JA_7_1 : State := runJob mid [mpkt mid 3 3 voteB 1]
def w_JA_7b_1 : State := runJob mid2 [mpkt mid2 3 3 voteB 1]
def w_JA_7c_1 : State := runJob mid [mpkt mid 3 3 voteR 1]
def w_JA_7d_1 : State := runJob midR [mpkt midR 3 3 voteB 1]
def w_JA_8a_1 : State := jRx jobNet formR1 [mpkt formR1 4 0 (decB 3) 1]
def w_JA_8_1 : State := jRx jobNet forming1 [mpkt forming1 4 0 (decB 3) 1]
def w_JA_9_1 : State := jRx jobNet restR [mpkt restR 4 0 (decB 4) 1]
def w_JA_10_1 : State := decState actV [mpkt actV 4 0 (decB 0) 1]
def w_JA_10b_1 : State := decState actV [mpkt actV 4 0 (decB 1) 1]
def w_JA_11_1 : State := jRx jobNet act1 [mpkt act1 4 0 (decB 2) 1]
theorem witness_JobAgreement_1 :
    (Shaped w_JA_1_1 ∧ FromMember w_JA_1_1 2 (mpkt forming3 2 1 (hello forming3 3) 0) forming3 1 (jRx jobNet forming3 []) ∧
      forming3.st = JobState.forming ∧ forming3.rank = 0 ∧
      (w_JA_1_1.helloAgrees forming3 (List.drop 16 (mpkt forming3 2 1 (hello forming3 3) 0).payload) = false ∨ ∃ x < forming3.nmod, ∀ h ∈ List.filter (fun h ↦ decide (h.1 ≠ 1)) forming3.hellos ++ [(1, w_JA_1_1.helloAgrees forming3 (List.drop 16 (mpkt forming3 2 1 (hello forming3 3) 0).payload), decide (unle (argBytes (List.drop 16 (mpkt forming3 2 1 (hello forming3 3) 0).payload) 2 1) = 1), unle (argBytes (List.drop 16 (mpkt forming3 2 1 (hello forming3 3) 0).payload) 16 8))], h.1 = x → h.2.1 = false)) ∧
    (Shaped w_JA_1b_1 ∧ FromMember w_JA_1b_1 2 (mpkt forming0 2 1 (hello forming0 7) 0) forming0 1 (jRx jobNet forming0 []) ∧
      forming0.st = JobState.forming ∧ forming0.rank = 0 ∧
      (w_JA_1b_1.helloAgrees forming0 (List.drop 16 (mpkt forming0 2 1 (hello forming0 7) 0).payload) = false ∨ ∃ x < forming0.nmod, ∀ h ∈ List.filter (fun h ↦ decide (h.1 ≠ 1)) forming0.hellos ++ [(1, w_JA_1b_1.helloAgrees forming0 (List.drop 16 (mpkt forming0 2 1 (hello forming0 7) 0).payload), decide (unle (argBytes (List.drop 16 (mpkt forming0 2 1 (hello forming0 7) 0).payload) 2 1) = 1), unle (argBytes (List.drop 16 (mpkt forming0 2 1 (hello forming0 7) 0).payload) 16 8))], h.1 = x → h.2.1 = false)) ∧
    (Shaped w_JA_1c_1 ∧ FromMember w_JA_1c_1 2 (mpkt formR 2 1 (hello formR 6) 0) formR 1 (jRx jobNet formR []) ∧
      formR.st = JobState.forming ∧ formR.rank = 0 ∧ formR.restarts = true ∧
      w_JA_1c_1.helloAgrees formR (List.drop 16 (mpkt formR 2 1 (hello formR 6) 0).payload) = true ∧
      (∀ x < formR.nmod, ∃ h ∈ List.filter (fun h ↦ decide (h.1 ≠ 1)) formR.hellos ++ [(1, w_JA_1c_1.helloAgrees formR (List.drop 16 (mpkt formR 2 1 (hello formR 6) 0).payload), decide (unle (argBytes (List.drop 16 (mpkt formR 2 1 (hello formR 6) 0).payload) 2 1) = 1), unle (argBytes (List.drop 16 (mpkt formR 2 1 (hello formR 6) 0).payload) 16 8))], h.1 = x ∧ h.2.1 = true) ∧
      (formR.hopeless (List.filter (fun x ↦ (List.filter (fun h ↦ decide (h.1 ≠ (1 : ℕ))) formR.hellos ++ [((1 : ℕ), w_JA_1c_1.helloAgrees formR (List.drop (16 : ℕ) (mpkt formR (2 : ℕ) (1 : ℕ) (hello formR (6 : ℕ)) (0 : ℕ)).payload), decide (unle (argBytes (List.drop (16 : ℕ) (mpkt formR (2 : ℕ) (1 : ℕ) (hello formR (6 : ℕ)) (0 : ℕ)).payload) (2 : ℕ) (1 : ℕ)) = (1 : ℕ)), unle (argBytes (List.drop (16 : ℕ) (mpkt formR (2 : ℕ) (1 : ℕ) (hello formR (6 : ℕ)) (0 : ℕ)).payload) (16 : ℕ) (8 : ℕ)))]).any fun h ↦ decide (h.1 = x) && h.2.2.1) (List.range formR.nmod)) = none)) ∧
    (Shaped w_JA_2_1 ∧ FromMember w_JA_2_1 2 (mpkt forming0 2 1 (hello forming0 2) 0) forming0 1 (jRx jobNet forming0 []) ∧
      forming0.st = JobState.forming ∧ forming0.rank = 0 ∧ forming0.restarts = false ∧
      w_JA_2_1.helloAgrees forming0 (List.drop 16 (mpkt forming0 2 1 (hello forming0 2) 0).payload) = true ∧
      (∀ x < forming0.nmod, ∃ h ∈ List.filter (fun h ↦ decide (h.1 ≠ 1)) forming0.hellos ++ [(1, w_JA_2_1.helloAgrees forming0 (List.drop 16 (mpkt forming0 2 1 (hello forming0 2) 0).payload), decide (unle (argBytes (List.drop 16 (mpkt forming0 2 1 (hello forming0 2) 0).payload) 2 1) = 1), unle (argBytes (List.drop 16 (mpkt forming0 2 1 (hello forming0 2) 0).payload) 16 8))], h.1 = x ∧ h.2.1 = true)) := by
  unfold FromMember Shaped
  refine ⟨?_, ?_, ?_, ?_⟩ <;> decide +kernel
theorem witness_JobAgreement_2 :
    (Shaped w_JA_3_1 ∧ FromMember w_JA_3_1 2 (mpkt forming1 2 0 (hello forming1 3) 0) forming1 0 (jRx jobNet forming1 []) ∧
      forming1.st = JobState.forming ∧ forming1.restarts = false ∧
      w_JA_3_1.helloAgrees forming1 (List.drop 16 (mpkt forming1 2 0 (hello forming1 3) 0).payload) = false ∧ forming1.rank ≠ 0) ∧
    (Shaped w_JA_4_1 ∧ w_JA_4_1.job? (BitVec.toNat (77 : W64)) = some forming0 ∧ forming0.st = JobState.forming ∧
      forming0.since + forming0.formS * cycPerSec ≤ w_JA_4_1.clk.life ∧ forming0.restarts = false) ∧
    (Shaped w_JA_5_1 ∧ w_JA_5_1.job? (BitVec.toNat (77 : W64)) = some w_JA_5_4 ∧ w_JA_5_4.st = JobState.forming ∧
      w_JA_5_4.since + w_JA_5_4.formS * cycPerSec ≤ w_JA_5_1.clk.life ∧ w_JA_5_4.restarts = true) ∧
    (Shaped (lone (job2 JobState.active 0)) ∧
      (lone (job2 JobState.active (0 : ℕ))).job? (BitVec.toNat (77 : W64)) = some (job2 JobState.active (0 : ℕ)) ∧
      ((job2 JobState.active 0).st ≠ JobState.forming ∨ (lone (job2 JobState.active 0)).clk.life < (job2 JobState.active 0).since + (job2 JobState.active 0).formS * cycPerSec)) ∧
    (Shaped (jRx jobNet forming0 []) ∧ (jRx jobNet forming0 []).job? (BitVec.toNat (77 : W64)) = some forming0 ∧
      (forming0.st ≠ JobState.forming ∨ (jRx jobNet forming0 []).clk.life < forming0.since + forming0.formS * cycPerSec)) ∧
    ((Shaped w_JA_7_1 ∧ FromMember w_JA_7_1 3 (mpkt mid 3 3 voteB 1) mid 3 (runJob mid []) ∧ mid.st = JobState.active ∧
      unle (List.take 1 (List.drop 16 (mpkt mid 3 3 voteB 1).payload)) ≠ 2 ∧
      (mpkt mid 3 3 voteB 1).step = (w_JA_7_1.ctx mid.ctx).step + 1 ∧
      (mpkt mid 3 3 voteB 1).attempt = (w_JA_7_1.ctx mid.ctx).attempt % 256 ∧ mid.voted = false) ∧
      ((∃ q, mid.parent mid.rank = some q) ∨ mid.own = none ∨ ∃ c ∈ mid.children, ∀ v ∈ List.filter (fun v ↦ decide (v.1 ≠ 3)) mid.votes ++ [(3, unle (List.take 1 (List.drop 16 (mpkt mid 3 3 voteB 1).payload)), unle (argBytes (List.drop 16 (mpkt mid 3 3 voteB 1).payload) 4 2), unle (argBytes (List.drop 16 (mpkt mid 3 3 voteB 1).payload) 8 8), bits mid.nmod (unle (argBytes (List.drop 16 (mpkt mid 3 3 voteB 1).payload) 16 1024)))], v.1 ≠ c)) := by
  unfold FromMember Shaped
  exact ⟨by decide +kernel, by decide +kernel, by decide +kernel, by decide +kernel, by decide +kernel, ⟨by decide +kernel, .inl ⟨0, by decide +kernel⟩⟩⟩
theorem witness_JobAgreement_3 :
    ((Shaped w_JA_7b_1 ∧ FromMember w_JA_7b_1 3 (mpkt mid2 3 3 voteB 1) mid2 3 (runJob mid2 []) ∧ mid2.st = JobState.active ∧
      unle (List.take 1 (List.drop 16 (mpkt mid2 3 3 voteB 1).payload)) ≠ 2 ∧
      (mpkt mid2 3 3 voteB 1).step = (w_JA_7b_1.ctx mid2.ctx).step + 1 ∧
      (mpkt mid2 3 3 voteB 1).attempt = (w_JA_7b_1.ctx mid2.ctx).attempt % 256 ∧ mid2.voted = false) ∧
      ((∃ q, mid2.parent mid2.rank = some q) ∨ mid2.own = none ∨ ∃ c ∈ mid2.children, ∀ v ∈ List.filter (fun v ↦ decide (v.1 ≠ 3)) mid2.votes ++ [(3, unle (List.take 1 (List.drop 16 (mpkt mid2 3 3 voteB 1).payload)), unle (argBytes (List.drop 16 (mpkt mid2 3 3 voteB 1).payload) 4 2), unle (argBytes (List.drop 16 (mpkt mid2 3 3 voteB 1).payload) 8 8), bits mid2.nmod (unle (argBytes (List.drop 16 (mpkt mid2 3 3 voteB 1).payload) 16 1024)))], v.1 ≠ c)) ∧
    (Shaped w_JA_7c_1 ∧ FromMember w_JA_7c_1 3 (mpkt mid 3 3 voteR 1) mid 3 (runJob mid []) ∧
      (mid.st = JobState.active ∨ mid.st = JobState.voting) ∧ unle (List.take 1 (List.drop 16 (mpkt mid 3 3 voteR 1).payload)) = 2 ∧
      (∀ x ∈ bits mid.nmod (unle (argBytes (List.drop 16 (mpkt mid 3 3 voteR 1).payload) 16 1024)), x ∈ mid.lost) ∧
      (mid.st = JobState.voting → ∃ c ∈ mid.children, ∀ v ∈ List.filter (fun v ↦ decide (v.1 ≠ 3)) mid.votes ++ [(3, unle (List.take 1 (List.drop 16 (mpkt mid 3 3 voteR 1).payload)), unle (argBytes (List.drop 16 (mpkt mid 3 3 voteR 1).payload) 4 2), unle (argBytes (List.drop 16 (mpkt mid 3 3 voteR 1).payload) 8 8), bits mid.nmod (unle (argBytes (List.drop 16 (mpkt mid 3 3 voteR 1).payload) 16 1024)))], v.1 = c → v.2.1 ≠ 2)) ∧
    (Shaped w_JA_7d_1 ∧ FromMember w_JA_7d_1 3 (mpkt midR 3 3 voteB 1) midR 3 (runJob midR []) ∧ midR.st = JobState.restarting ∧
      unle (List.take 1 (List.drop 16 (mpkt midR 3 3 voteB 1).payload)) ≠ 2 ∧ midR.own = none) ∧
    (Shaped w_JA_8a_1 ∧ FromMember w_JA_8a_1 4 (mpkt formR1 4 0 (decB 3) 1) formR1 0 (jRx jobNet formR1 []) ∧
      unle (List.take 1 (List.drop 16 (mpkt formR1 4 0 (decB 3) 1).payload)) = 3 ∧ formR1.st = JobState.forming ∧
      formR1.restarts = true ∧
      formR1.hopeless (bits formR1.nmod (unle (argBytes (List.drop 16 (mpkt formR1 4 0 (decB 3) 1).payload) 24 1024))) = none) ∧
    (Shaped w_JA_8_1 ∧ FromMember w_JA_8_1 4 (mpkt forming1 4 0 (decB 3) 1) forming1 0 (jRx jobNet forming1 []) ∧
      unle (List.take 1 (List.drop 16 (mpkt forming1 4 0 (decB 3) 1).payload)) = 3 ∧ forming1.st = JobState.forming ∧
      forming1.restarts = false) := by
  unfold FromMember Shaped
  exact ⟨⟨by decide +kernel, .inl ⟨0, by decide +kernel⟩⟩, by decide +kernel, by decide +kernel, by decide +kernel, by decide +kernel⟩
theorem witness_JobAgreement_4 :
    (Shaped w_JA_9_1 ∧ FromMember w_JA_9_1 4 (mpkt restR 4 0 (decB 4) 1) restR 0 (jRx jobNet restR []) ∧
      unle (List.take 1 (List.drop 16 (mpkt restR 4 0 (decB 4) 1).payload)) = 4 ∧ restR.st = JobState.restarting) ∧
    (Shaped w_JA_10_1 ∧ FromMember w_JA_10_1 4 (mpkt actV 4 0 (decB 0) 1) actV 0 (decState actV []) ∧
      unle (List.take 1 (List.drop 16 (mpkt actV 4 0 (decB 0) 1).payload)) = 0 ∧
      (actV.st = JobState.active ∨ actV.st = JobState.voting) ∧ (mpkt actV 4 0 (decB 0) 1).step = (w_JA_10_1.ctx actV.ctx).step + 1 ∧
      (mpkt actV 4 0 (decB 0) 1).attempt = (w_JA_10_1.ctx actV.ctx).attempt % 256 ∧ actV.own = some 0 ∧
      (w_JA_10_1.ctx actV.ctx).prog = some boxProg ∧ (w_JA_10_1.ctx actV.ctx).hold = Hold.decide 0 ∧
      (∀ m ∈ boxProg.syncMap, m.role ≠ 1 ∧ m.role ≠ 3)) ∧
    (Shaped w_JA_10b_1 ∧ FromMember w_JA_10b_1 4 (mpkt actV 4 0 (decB 1) 1) actV 0 (decState actV []) ∧
      unle (List.take 1 (List.drop 16 (mpkt actV 4 0 (decB 1) 1).payload)) = 1 ∧
      (actV.st = JobState.active ∨ actV.st = JobState.voting) ∧
      (mpkt actV 4 0 (decB 1) 1).step = (w_JA_10b_1.ctx actV.ctx).step + 1 ∧
      (mpkt actV 4 0 (decB 1) 1).attempt = (w_JA_10b_1.ctx actV.ctx).attempt % 256 ∧ actV.own = some 0 ∧
      (w_JA_10b_1.ctx actV.ctx).prog = some boxProg ∧ (w_JA_10b_1.ctx actV.ctx).hold = Hold.decide 0) ∧
    (Shaped w_JA_11_1 ∧ FromMember w_JA_11_1 4 (mpkt act1 4 0 (decB 2) 1) act1 0 (jRx jobNet act1 []) ∧
      unle (List.take 1 (List.drop 16 (mpkt act1 4 0 (decB 2) 1).payload)) = 2 ∧
      (act1.st = JobState.active ∨ act1.st = JobState.voting)) := by
  unfold FromMember Shaped
  refine ⟨?_, ?_, ?_, ?_⟩ <;> decide +kernel
/-! ### JobLosses -/

def w_JL_3_1 : State := runJob mid [mpkt mid 5 0 (le 2 4) 1]
def w_JL_4_1 : State := runJob act0 [mpkt act0 6 1 [] 1]
def w_JL_8_1 : State := lone act0 |>.modPort 3 fun x => { x with st := .down }
def w_JL_8b_1 : State := lone act0 |>.modPort 3 fun x => { x with st := .down }
def w_JL_11b_6 : Unacked := { seq := 4, rank := 1, bytes := le 1 2, tries := 3, step := 0, attempt := 0 }
def w_JL_14_1 : State := jRx jobNet unk [mpkt unk 7 1 (le 4 4) 1]
theorem witness_JobLosses_1 :
    (Shaped (lateJ (lone act0)) ∧ act0.ctx < 64 ∧ BitVec.toNat (77 : W64) = act0.id ∧
      CanLose (lateJ (lone act0)) act0 (BitVec.toNat (1 : W16)) ∧ act0.neighbours.contains (BitVec.toNat (1 : W16)) = true ∧
      act0.heard.getD (BitVec.toNat (1 : W16)) (0 : ℕ) + usCyc (1000 : ℕ) ≤ (lateJ (lone act0)).clk.life) ∧
    (Shaped (lateJ (runJob act0 [])) ∧ act0.ctx < 64 ∧ BitVec.toNat (77 : W64) = act0.id ∧
      CanLose (lateJ (runJob act0 [])) act0 (BitVec.toNat (1 : W16)) ∧ act0.neighbours.contains (BitVec.toNat (1 : W16)) = true ∧
      act0.heard.getD (BitVec.toNat (1 : W16)) (0 : ℕ) + usCyc (1000 : ℕ) ≤ (lateJ (runJob act0 [])).clk.life) ∧
    (Shaped (lone lostJ) ∧ lostJ.ctx < 64 ∧ (lone lostJ).job? (BitVec.toNat (77 : W64)) = some lostJ ∧
      (BitVec.toNat (1 : W16) ∈ lostJ.lost ∧ lostJ.restarts = false ∨ lostJ.neighbours.contains (BitVec.toNat (1 : W16)) = false ∨ (lone lostJ).clk.life < lostJ.heard.getD (BitVec.toNat (1 : W16)) (0 : ℕ) + usCyc (1000 : ℕ))) ∧
    (Shaped (lone act0) ∧ act0.ctx < 64 ∧ (lone act0).job? (BitVec.toNat (77 : W64)) = some act0 ∧
      (BitVec.toNat (1 : W16) ∈ act0.lost ∧ act0.restarts = false ∨ act0.neighbours.contains (BitVec.toNat (1 : W16)) = false ∨ (lone act0).clk.life < act0.heard.getD (BitVec.toNat (1 : W16)) (0 : ℕ) + usCyc (1000 : ℕ))) ∧
    (Shaped w_JL_3_1 ∧ mid.ctx < 64 ∧ FromMember w_JL_3_1 5 (mpkt mid 5 0 (le 2 4) 1) mid 0 (runJob mid []) ∧
      CanLose w_JL_3_1 mid (unle (argBytes (mpkt mid 5 0 (le 2 4) 1).payload 16 2))) ∧
    (Shaped w_JL_4_1 ∧ act0.ctx < 64 ∧ FromMember w_JL_4_1 6 (mpkt act0 6 1 [] 1) act0 1 (runJob act0 []) ∧ CanLose w_JL_4_1 act0 1) := by
  unfold FromMember CanLose Shaped
  refine ⟨?_, ?_, ?_, ?_, ?_, ?_⟩ <;> decide +kernel
theorem witness_JobLosses_2 :
    (Shaped peerUp ∧ act0.ctx < 64 ∧ (peerUp.port ↑3).st = PortState.up ∧ (peerUp.port ↑3).peer ≠ 65535#16 ∧
      (∀ x ∈ peerUp.jobs, x.addrs.contains (BitVec.toNat (peerUp.port ↑3).peer) = true → x = act0) ∧
      act0.addrs.contains (BitVec.toNat (peerUp.port ↑3).peer) = true ∧
      CanLose peerUp act0 (List.idxOf (BitVec.toNat (peerUp.port ↑3).peer) act0.addrs)) ∧
    (Shaped peerUp ∧ act0.ctx < 64 ∧ (peerUp.port ↑3).st = PortState.up ∧ (peerUp.port ↑3).peer ≠ 65535#16 ∧
      (∀ x ∈ peerUp.jobs, x.addrs.contains (BitVec.toNat (peerUp.port ↑3).peer) = true → x = act0) ∧
      act0.addrs.contains (BitVec.toNat (peerUp.port ↑3).peer) = true ∧
      CanLose peerUp act0 (List.idxOf (BitVec.toNat (peerUp.port ↑3).peer) act0.addrs) ∧ (peerUp.port ↑3).eth = false) ∧
    (Shaped noPeer ∧ act0.ctx < 64 ∧ (noPeer.port ↑3).st = PortState.up ∧
      (∀ x ∈ noPeer.jobs, x.addrs.contains (BitVec.toNat (noPeer.port ↑3).peer) = false)) ∧
    (Shaped noPeer ∧ act0.ctx < 64 ∧ (noPeer.port ↑3).st = PortState.up ∧
      (∀ x ∈ noPeer.jobs, x.addrs.contains (BitVec.toNat (noPeer.port ↑3).peer) = false)) ∧
    (Shaped w_JL_8_1 ∧ act0.ctx < 64 ∧ (w_JL_8_1.port ↑3).st ≠ PortState.up) ∧
    (Shaped w_JL_8b_1 ∧ act0.ctx < 64 ∧ (w_JL_8b_1.port ↑3).st ≠ PortState.up) := by
  unfold CanLose Shaped
  refine ⟨?_, ?_, ?_, ?_, ?_, ?_⟩ <;> decide +kernel
theorem witness_JobLosses_3 :
    (Shaped (lone beaten) ∧ beaten.ctx < 64 ∧ (lone beaten).job? (BitVec.toNat (77 : W64)) = some beaten ∧
      (Option.any (fun a ↦ decide ((lone beaten).clk.life < a + usCyc 100)) beaten.beat = true)) ∧
    (Shaped (lateJ (lone beaten)) ∧ beaten.ctx < 64 ∧ (lateJ (lone beaten)).job? (BitVec.toNat (77 : W64)) = some beaten ∧
      (Option.any (fun a ↦ decide ((lateJ (lone beaten)).clk.life < a + usCyc 100)) beaten.beat = false) ∧
      (beaten.st = JobState.active ∨ beaten.st = JobState.voting ∨ beaten.st = JobState.broken ∨ beaten.st = JobState.restarting) ∧
      beaten.seq < 2 ^ 32 ∧ (∀ r ∈ beaten.neighbours, beaten.addrs.getD r 65535 ≠ (lateJ (lone beaten)).fabAddr)) ∧
    (Shaped (lateJ (lone formH)) ∧ formH.ctx < 64 ∧ (lateJ (lone formH)).job? (BitVec.toNat (77 : W64)) = some formH ∧
      (Option.any (fun a ↦ decide ((lateJ (lone formH)).clk.life < a + usCyc 100)) formH.beat = false) ∧
      formH.st = JobState.forming ∧ formH.rank ≠ 0 ∧ formH.helloAcked = false ∧ (∀ u ∈ formH.unacked, unle (List.take 1 u.bytes) ≠ 2)) := by
  unfold Shaped
  refine ⟨?_, ?_, ?_⟩ <;> decide +kernel
theorem witness_JobLosses_4 :
    (Shaped (lone act0) ∧ act0.ctx < 64 ∧ (lone act0).job? (BitVec.toNat (77 : W64)) = some act0 ∧
      (Option.any (fun a ↦ decide ((lone act0).clk.life < a + usCyc 100)) act0.beat = false) ∧ act0.st = JobState.active ∧
      act0.neighbours = [1] ∧ (lone act0).fabAddr ≠ 65535 ∧ act0.addrs.getD 1 65535 ≠ (lone act0).fabAddr ∧
      (lone act0).route (act0.addrs.getD 1 65535) = 3 ∧ 3 < 18 ∧ ((lone act0).port 3).st = PortState.up ∧
      ((lone act0).port 3).eth = false ∧ ((lone act0).port 3).txq = [] ∧ 1 ≤ ((lone act0).port 3).credits.getD 15 0) ∧
    (Shaped (lateJ (lone unk)) ∧ unk.ctx < 64 ∧ (lateJ (lone unk)).job? (BitVec.toNat (77 : W64)) = some unk ∧
      (∀ u ∈ unk.unacked, unk.addrs.getD u.rank 65535 ≠ (lateJ (lone unk)).fabAddr)) := by
  unfold Shaped
  refine ⟨?_, ?_⟩ <;> decide +kernel
theorem witness_JobLosses_5 :
    (Shaped (lateJ (lone unk1)) ∧ unk1.ctx < 64 ∧ (lateJ (lone unk1)).job? (BitVec.toNat (77 : W64)) = some unk1 ∧
      unk1.unacked = [w_JL_11b_6] ∧ w_JL_11b_6.tries < 4 ∧ w_JL_11b_6.sentAt + usCyc 10 ≤ (lateJ (lone unk1)).clk.life ∧
      (lateJ (lone unk1)).fabAddr ≠ 65535 ∧ unk1.addrs.getD w_JL_11b_6.rank 65535 ≠ (lateJ (lone unk1)).fabAddr ∧
      (lateJ (lone unk1)).route (unk1.addrs.getD w_JL_11b_6.rank 65535) = 3 ∧ 3 < 18 ∧
      ((lateJ (lone unk1)).port 3).st = PortState.up ∧ ((lateJ (lone unk1)).port 3).eth = false ∧
      ((lateJ (lone unk1)).port 3).txq = [] ∧ flitsOf (36 + w_JL_11b_6.bytes.length) ≤ ((lateJ (lone unk1)).port 3).credits.getD 15 0) ∧
    (Shaped (lone vot3) ∧ vot3.ctx < 64 ∧ (lone vot3).job? (BitVec.toNat (77 : W64)) = some vot3 ∧
      (vot3.st ≠ JobState.voting ∨ vot3.root ≠ vot3.rank ∨ (lone vot3).clk.life < vot3.since + usCyc vot3.gatherUs)) ∧
    (Shaped (lateJ (lone vot3)) ∧ vot3.ctx < 64 ∧ (lateJ (lone vot3)).job? (BitVec.toNat (77 : W64)) = some vot3 ∧
      vot3.st = JobState.voting ∧ vot3.root = vot3.rank ∧ vot3.since + usCyc vot3.gatherUs ≤ (lateJ (lone vot3)).clk.life ∧
      (∃ c ∈ vot3.children, ∀ v ∈ vot3.votes, v.1 = c → v.2.1 ≠ 2)) := by
  unfold Shaped
  refine ⟨?_, ?_, ?_⟩ <;> decide +kernel
theorem witness_JobLosses_6 :
    (Shaped (lateJ (lone vot3in)) ∧ vot3in.ctx < 64 ∧ (lateJ (lone vot3in)).job? (BitVec.toNat (77 : W64)) = some vot3in ∧
      vot3in.st = JobState.voting ∧ vot3in.root = vot3in.rank ∧
      vot3in.since + usCyc vot3in.gatherUs ≤ (lateJ (lone vot3in)).clk.life ∧ vot3in.parent vot3in.rank = none ∧
      (∀ c ∈ vot3in.children, ∃ v ∈ List.filter (fun v ↦ decide (v.2.1 = 2) && vot3in.children.contains v.1) vot3in.votes, v.1 = c) ∧
      (vot3in.nmod ≤ List.foldl (fun a v ↦ a + v.2.2.1) 1 (List.filter (fun v ↦ decide (v.2.1 = 2) && vot3in.children.contains v.1) vot3in.votes) + (List.foldl (fun a v ↦ a ++ v.2.2.2.2) vot3in.lost (List.filter (fun v ↦ decide (v.2.1 = 2) && vot3in.children.contains v.1) vot3in.votes)).eraseDups.length) ∧
      (vot3in.rank ∉ List.foldl (fun a v ↦ a ++ v.2.2.2.2) vot3in.lost (List.filter (fun v ↦ decide (v.2.1 = 2) && vot3in.children.contains v.1) vot3in.votes))) ∧
    (Shaped w_JL_14_1 ∧ unk.ctx < 64 ∧ FromMember w_JL_14_1 7 (mpkt unk 7 1 (le 4 4) 1) unk 1 (jRx jobNet unk [])) ∧
    ((Shaped (lone rst1j) ∧ rst1j.ctx < 64 ∧ (lone rst1j).job? (BitVec.toNat (77 : W64)) = some rst1j ∧
      rst1j.st = JobState.restarting ∧ rst1j.own = none ∧ rst1j.joiner = true) ∧
      ((∃ q, rst1j.parent rst1j.rank = some q) ∨ rst1j.childrenIn = false)) ∧
    ((Shaped (runJob rst1j []) ∧ rst1j.ctx < 64 ∧ (runJob rst1j []).job? (BitVec.toNat (77 : W64)) = some rst1j ∧
      rst1j.st = JobState.restarting ∧ rst1j.own = none ∧ rst1j.joiner = true ∧
      (zeros (rst1j.shardLen + 2 * rst1j.chunk)).length = rst1j.shardLen + 2 * rst1j.chunk ∧
      ((runJob rst1j []).ctx rst1j.ctx).prog = some boxProg) ∧
      ((∃ q, rst1j.parent rst1j.rank = some q) ∨ rst1j.childrenIn = false)) := by
  unfold FromMember Shaped
  exact ⟨by decide +kernel, by decide +kernel, ⟨by decide +kernel, .inl ⟨0, by decide +kernel⟩⟩, ⟨by decide +kernel, .inl ⟨0, by decide +kernel⟩⟩⟩
theorem witness_JobLosses_7 :
    (Shaped (lone act0) ∧ act0.ctx < 64 ∧ (lone act0).job? (BitVec.toNat (77 : W64)) = some act0 ∧
      (act0.st ≠ JobState.restarting ∨ act0.own ≠ none)) ∧
    (Shaped (runJob rstRoot []) ∧ rstRoot.ctx < 64 ∧ (runJob rstRoot []).job? (BitVec.toNat (77 : W64)) = some rstRoot ∧
      rstRoot.st = JobState.restarting ∧ rstRoot.own = none ∧ rstRoot.voted = false ∧ rstRoot.joiner = false ∧
      rstRoot.parent rstRoot.rank = none ∧ rstRoot.childrenIn = true ∧ (∀ y ∈ rstRoot.votes, y.2.1 = 0) ∧
      (List.find? (fun x ↦ decide (x.1 = rstRoot.gen)) rstRoot.saved = some (2, saved0)) ∧
      ((runJob rstRoot []).ctx rstRoot.ctx).prog = some boxProg) ∧
    ((Shaped (lone rst1) ∧ rst1.ctx < 64 ∧ (lone rst1).job? (BitVec.toNat (77 : W64)) = some rst1 ∧ rst1.st = JobState.restarting ∧
      rst1.own = none ∧ rst1.joiner = false ∧ (List.find? (fun x ↦ decide (x.1 = rst1.gen)) rst1.saved = none)) ∧
      ((∃ q, rst1.parent rst1.rank = some q) ∨ rst1.childrenIn = false)) := by
  unfold Shaped
  exact ⟨by decide +kernel, by decide +kernel, ⟨by decide +kernel, .inl ⟨0, by decide +kernel⟩⟩⟩
theorem witness_JobLosses_8 :
    ((Shaped (runJob rstS []) ∧ rstS.ctx < 64 ∧ (runJob rstS []).job? (BitVec.toNat (77 : W64)) = some rstS ∧
      rstS.st = JobState.restarting ∧ rstS.own = none ∧ rstS.joiner = false ∧
      (List.find? (fun x ↦ decide (x.1 = rstS.gen)) rstS.saved = some (2, saved0)) ∧
      ((runJob rstS []).ctx rstS.ctx).prog = some boxProg) ∧
      ((∃ q, rstS.parent rstS.rank = some q) ∨ rstS.childrenIn = false)) := by
  unfold Shaped
  exact ⟨by decide +kernel, .inl ⟨0, by decide +kernel⟩⟩
/-! ### SidebandMailbox -/

def w_Sm_3_h_8 : State := { sb with side := { sb.side with outstanding := some 1 } }
def w_Sm_3_h_9 : State × Resp := mbIdentify .sideband [] { sb with side := { sb.side with outstanding := some 1 } }
def w_Sm_3b_h_8 : State := { sbHost with side := { sb.side with outstanding := some 1 } }
def w_Sm_3b_h_9 : State × Resp := freeAfter (mbReset .sideband [] ({ sbHost with side := { sb.side with outstanding := some 1 } }.preempt))
def w_Sm_4_h_8 : State := { sbHost with side := { sb.side with outstanding := some 1 } }
def w_Sm_4b_h_8 : State := { sbDump with side := { sb.side with outstanding := some 1 } }
theorem witness_SidebandMailbox_1 :
    (up.sideUp = false) ∧
    (sbOut.sideUp = true ∧ sbOut.side.outstanding ≠ none ∧ sbOut.side.held ≠ some ((1 : Byte), BitVec.toNat (1 : W16), [])) ∧
    ((sb.sideUp = true ∧ sb.side.outstanding = none ∧ sb.side.held = none ∧ sb.start.stage = 10 ∧ sb.start.pwr ≠ ModPwr.m3 ∧
      sb.host.fwReady = true ∧ sb.mgmt.fw ≠ FwState.recovery ∧ sb.dies.ct0Lost = false ∧ ([] : Payload).length ≤ 4096 ∧
      w_Sm_3_h_8 = { clk := sb.clk, ident := sb.ident, host := sb.host, pts := sb.pts, chans := sb.chans, sheets := sb.sheets, tiles := sb.tiles, flights := sb.flights, qmaxes := sb.qmaxes, dram := sb.dram, pool := sb.pool, poolChans := sb.poolChans, ctxs := sb.ctxs, rot := sb.rot, ends := sb.ends, copies := sb.copies, sessions := sb.sessions, cache := sb.cache, modCtr := sb.modCtr, groups := sb.groups, ops := sb.ops, lastOp := sb.lastOp, logs := sb.logs, dies := sb.dies, mgmt := sb.mgmt, side := have __src := sb.side; { eid := __src.eid, i3c := __src.i3c, smbus := __src.smbus, lockEid := __src.lockEid, outstanding := some 1, held := __src.held, receiver := __src.receiver, readings := __src.readings, smbusOnly := __src.smbusOnly, stream := __src.stream, ackAt := __src.ackAt, resentAt := __src.resentAt, readAt := __src.readAt }, ports := sb.ports, rxq := sb.rxq, jobs := sb.jobs, reel := sb.reel, dumps := sb.dumps, dumping := sb.dumping, nextDump := sb.nextDump, start := sb.start, crossing := sb.crossing, scratch := sb.scratch, verdicts := sb.verdicts, fresh := sb.fresh, outbox := sb.outbox, pending := sb.pending } ∧
      (BitVec.toNat (1 : W16) ≠ (114 : ℕ) ∨ sb.dumpWaits Master.sideband [] = false)) ∧
      mbOf (1#16).toNat = some (MbKind.q, mbIdentify) ∧
      ((MbKind.q = MbKind.q ∨ sb.host.owner = Owner.sideband) ∧ w_Sm_3_h_9 = mbIdentify Master.sideband [] w_Sm_3_h_8)) ∧
    ((sbHost.sideUp = true ∧ sbHost.side.outstanding = none ∧ sbHost.side.held = none ∧ sbHost.start.stage = 10 ∧
      sbHost.start.pwr ≠ ModPwr.m3 ∧ sbHost.host.fwReady = true ∧ sbHost.mgmt.fw ≠ FwState.recovery ∧ sbHost.dies.ct0Lost = false ∧
      ([] : Payload).length ≤ 4096 ∧
      w_Sm_3b_h_8 = { clk := sbHost.clk, ident := sbHost.ident, host := sbHost.host, pts := sbHost.pts, chans := sbHost.chans, sheets := sbHost.sheets, tiles := sbHost.tiles, flights := sbHost.flights, qmaxes := sbHost.qmaxes, dram := sbHost.dram, pool := sbHost.pool, poolChans := sbHost.poolChans, ctxs := sbHost.ctxs, rot := sbHost.rot, ends := sbHost.ends, copies := sbHost.copies, sessions := sbHost.sessions, cache := sbHost.cache, modCtr := sbHost.modCtr, groups := sbHost.groups, ops := sbHost.ops, lastOp := sbHost.lastOp, logs := sbHost.logs, dies := sbHost.dies, mgmt := sbHost.mgmt, side := have __src := sbHost.side; { eid := __src.eid, i3c := __src.i3c, smbus := __src.smbus, lockEid := __src.lockEid, outstanding := some 1, held := __src.held, receiver := __src.receiver, readings := __src.readings, smbusOnly := __src.smbusOnly, stream := __src.stream, ackAt := __src.ackAt, resentAt := __src.resentAt, readAt := __src.readAt }, ports := sbHost.ports, rxq := sbHost.rxq, jobs := sbHost.jobs, reel := sbHost.reel, dumps := sbHost.dumps, dumping := sbHost.dumping, nextDump := sbHost.nextDump, start := sbHost.start, crossing := sbHost.crossing, scratch := sbHost.scratch, verdicts := sbHost.verdicts, fresh := sbHost.fresh, outbox := sbHost.outbox, pending := sbHost.pending } ∧
      (BitVec.toNat (48 : W16) ≠ (114 : ℕ) ∨ sbHost.dumpWaits Master.sideband [] = false)) ∧
      mbOf (48#16).toNat = some (MbKind.bp, mbReset) ∧
      (MbKind.bp = MbKind.bp ∧ sbHost.host.owner = Owner.host ∧ sbHost.host.busy = false ∧ w_Sm_3b_h_9 = freeAfter (mbReset Master.sideband [] w_Sm_3b_h_8.preempt))) := by
  exact ⟨by decide +kernel, by decide +kernel, ⟨by decide +kernel, rfl, ⟨.inl rfl, rfl⟩⟩, ⟨by decide +kernel, rfl, ⟨rfl, rfl, rfl, rfl⟩⟩⟩
theorem witness_SidebandMailbox_2 :
    ((sbHost.sideUp = true ∧ sbHost.side.outstanding = none ∧ sbHost.side.held = none ∧ sbHost.start.stage = 10 ∧
      sbHost.start.pwr ≠ ModPwr.m3 ∧ sbHost.host.fwReady = true ∧ sbHost.mgmt.fw ≠ FwState.recovery ∧ sbHost.dies.ct0Lost = false ∧
      ([] : Payload).length ≤ 4096 ∧
      w_Sm_4_h_8 = { clk := sbHost.clk, ident := sbHost.ident, host := sbHost.host, pts := sbHost.pts, chans := sbHost.chans, sheets := sbHost.sheets, tiles := sbHost.tiles, flights := sbHost.flights, qmaxes := sbHost.qmaxes, dram := sbHost.dram, pool := sbHost.pool, poolChans := sbHost.poolChans, ctxs := sbHost.ctxs, rot := sbHost.rot, ends := sbHost.ends, copies := sbHost.copies, sessions := sbHost.sessions, cache := sbHost.cache, modCtr := sbHost.modCtr, groups := sbHost.groups, ops := sbHost.ops, lastOp := sbHost.lastOp, logs := sbHost.logs, dies := sbHost.dies, mgmt := sbHost.mgmt, side := have __src := sbHost.side; { eid := __src.eid, i3c := __src.i3c, smbus := __src.smbus, lockEid := __src.lockEid, outstanding := some 1, held := __src.held, receiver := __src.receiver, readings := __src.readings, smbusOnly := __src.smbusOnly, stream := __src.stream, ackAt := __src.ackAt, resentAt := __src.resentAt, readAt := __src.readAt }, ports := sbHost.ports, rxq := sbHost.rxq, jobs := sbHost.jobs, reel := sbHost.reel, dumps := sbHost.dumps, dumping := sbHost.dumping, nextDump := sbHost.nextDump, start := sbHost.start, crossing := sbHost.crossing, scratch := sbHost.scratch, verdicts := sbHost.verdicts, fresh := sbHost.fresh, outbox := sbHost.outbox, pending := sbHost.pending } ∧
      MbKind.f ≠ MbKind.q ∧ (sbHost.host.owner = Owner.free ∨ sbHost.host.owner = Owner.host ∧ MbKind.f ≠ MbKind.bp)) ∧
      mbOf (10#16).toNat = some (MbKind.f, mbGroupDelete)) ∧
    ((sbDump.sideUp = true ∧ sbDump.side.outstanding = none ∧ sbDump.side.held = none ∧ sbDump.start.stage = 10 ∧
      sbDump.start.pwr ≠ ModPwr.m3 ∧ sbDump.host.fwReady = true ∧ sbDump.mgmt.fw ≠ FwState.recovery ∧ sbDump.dies.ct0Lost = false ∧
      List.length readP ≤ 4096 ∧
      w_Sm_4b_h_8 = { clk := sbDump.clk, ident := sbDump.ident, host := sbDump.host, pts := sbDump.pts, chans := sbDump.chans, sheets := sbDump.sheets, tiles := sbDump.tiles, flights := sbDump.flights, qmaxes := sbDump.qmaxes, dram := sbDump.dram, pool := sbDump.pool, poolChans := sbDump.poolChans, ctxs := sbDump.ctxs, rot := sbDump.rot, ends := sbDump.ends, copies := sbDump.copies, sessions := sbDump.sessions, cache := sbDump.cache, modCtr := sbDump.modCtr, groups := sbDump.groups, ops := sbDump.ops, lastOp := sbDump.lastOp, logs := sbDump.logs, dies := sbDump.dies, mgmt := sbDump.mgmt, side := have __src := sbDump.side; { eid := __src.eid, i3c := __src.i3c, smbus := __src.smbus, lockEid := __src.lockEid, outstanding := some 1, held := __src.held, receiver := __src.receiver, readings := __src.readings, smbusOnly := __src.smbusOnly, stream := __src.stream, ackAt := __src.ackAt, resentAt := __src.resentAt, readAt := __src.readAt }, ports := sbDump.ports, rxq := sbDump.rxq, jobs := sbDump.jobs, reel := sbDump.reel, dumps := sbDump.dumps, dumping := sbDump.dumping, nextDump := sbDump.nextDump, start := sbDump.start, crossing := sbDump.crossing, scratch := sbDump.scratch, verdicts := sbDump.verdicts, fresh := sbDump.fresh, outbox := sbDump.outbox, pending := sbDump.pending } ∧
      BitVec.toNat (114 : W16) = (114 : ℕ) ∧ sbDump.host.busy = false ∧ sbDump.dumpWaits Master.sideband readP = true) ∧
      mbOf (114#16).toNat = some (MbKind.bp, mbDumpRead)) := by
  exact ⟨⟨by decide +kernel, rfl⟩, ⟨by decide +kernel, rfl⟩⟩
theorem witness_SidebandMailbox_3 :
    (sbEarly.sideUp = true ∧ sbEarly.side.outstanding = none ∧ sbEarly.side.held = none ∧ sbEarly.start.stage ≠ 10 ∧
      sbEarly.host.busy = false ∧ ([] : Payload).length ≤ 4096 ∧ earlyServes (BitVec.toNat (2 : W16)) [] sbEarly = false) ∧
    (sb.sideUp = true ∧ (sb.host.owner = Owner.free ∨ sb.host.owner = Owner.sideband)) ∧
    (sbHost.sideUp = true ∧ sbHost.host.owner = Owner.host) ∧
    (sbHeld.sideUp = true ∧ (sbHeld.host.owner = Owner.free ∨ sbHeld.host.owner = Owner.sideband)) ∧
    (sbHost.sideUp = true ∧ sbHost.host.owner = Owner.host) ∧
    (up.sideUp = false) ∧
    (up.sideUp = false) := by
  refine ⟨?_, ?_, ?_, ?_, ?_, ?_, ?_⟩ <;> decide +kernel
/-! ### SidebandEndpointAndUpdate -/

def w_Se_5b_2 : State := { up with side := { up.side with i3c := some 9 } }
theorem witness_SidebandEndpointAndUpdate_1 :
    (sb.portUp = true ∧ 9 ≠ 0#8 ∧ 9 ≠ 255#8) ∧
    (sb.portUp = true ∧ (0 = 0#8 ∨ 0 = 255#8)) ∧
    (sb.portUp = true ∧ (255 = 0#8 ∨ 255 = 255#8)) ∧
    (auxOff.portUp = false) ∧
    (auxOff.portUp = false) ∧
    (auxOff.portUp = false) ∧
    (sb.portUp = true ∧ sb.side.smbusOnly = false) ∧
    (sbSmbus.side.smbusOnly = true) ∧
    (sb.portUp = true ∧ sb.side.i3c = none) ∧
    (w_Se_5b_2.side.i3c ≠ none) ∧
    (streaming.side.stream = some (BitVec.toNat (1 : W32), (4096 : ℕ), (2048 : ℕ), (65536 : ℕ)) ∧ streaming.dumping = some dump0 ∧
      streaming.sideUp = true ∧ 4096 ≤ 65536 ∧ (2048 : ℕ) ≤ BitVec.toNat (3072 : W64) ∧ BitVec.toNat (3072 : W64) ≤ (4096 : ℕ)) ∧
    (streaming.side.stream = some (BitVec.toNat (1 : W32), (4096 : ℕ), (2048 : ℕ), (65536 : ℕ)) ∧ streaming.dumping = some dump0 ∧
      streaming.sideUp = true ∧ 4096 ≤ 65536 ∧ (2048 : ℕ) ≤ BitVec.toNat (4096 : W64) ∧ BitVec.toNat (4096 : W64) ≤ (4096 : ℕ)) := by
  refine ⟨?_, ?_, ?_, ?_, ?_, ?_, ?_, ?_, ?_, ?_, ?_, ?_⟩ <;> decide +kernel
theorem witness_SidebandEndpointAndUpdate_2 :
    (streaming.side.stream = some (BitVec.toNat (1 : W32), (4096 : ℕ), (2048 : ℕ), (65536 : ℕ)) ∧ streaming.dumping = some dump0 ∧
      streaming.sideUp = true ∧ 4096 ≤ 65536 ∧ (BitVec.toNat (1024 : W64) < (2048 : ℕ) ∨ (4096 : ℕ) < BitVec.toNat (1024 : W64))) ∧
    (streaming.side.stream = some (BitVec.toNat (1 : W32), (4096 : ℕ), (2048 : ℕ), (65536 : ℕ)) ∧ streaming.dumping = some dump0 ∧
      streaming.sideUp = true ∧ 4096 ≤ 65536 ∧ (BitVec.toNat (5120 : W64) < (2048 : ℕ) ∨ (4096 : ℕ) < BitVec.toNat (5120 : W64))) ∧
    ((lateJ streaming).side.stream = some (1, 4096, 2048, 65536) ∧ (lateJ streaming).dumping = some dump0 ∧
      (lateJ streaming).portUp = true ∧ 2048 ≤ 4096 ∧ 4096 ≤ 65536 ∧ 2048 < 4096 ∧
      max (lateJ streaming).side.ackAt (lateJ streaming).side.resentAt + cycPerSec ≤ (lateJ streaming).clk.life) ∧
    (streaming.side.stream = some (1, 4096, 2048, 65536) ∧ streaming.dumping = some dump0 ∧ streaming.portUp = true ∧ 2048 ≤ 4096 ∧
      4096 ≤ 65536 ∧ (2048 = 4096 ∨ streaming.clk.life < max streaming.side.ackAt streaming.side.resentAt + cycPerSec)) ∧
    ((lateJ streamed).side.stream = some (1, 4096, 4096, 65536) ∧ (lateJ streamed).dumping = some dump0 ∧
      (lateJ streamed).portUp = true ∧ 4096 ≤ 4096 ∧ 4096 ≤ 65536 ∧
      (4096 = 4096 ∨ (lateJ streamed).clk.life < max (lateJ streamed).side.ackAt (lateJ streamed).side.resentAt + cycPerSec)) ∧
    (sb.side.stream = none) := by
  refine ⟨?_, ?_, ?_, ?_, ?_, ?_⟩ <;> decide +kernel
theorem witness_SidebandEndpointAndUpdate_3 :
    (sb.side.stream = none) ∧
    (sb.sideUp = true) ∧
    (up.sideUp = false) ∧
    ((up.sideUp = false ∨ ∃ a, up.side.readAt = some a ∧ up.clk.life < a + cycPerSec / 10)) ∧
    ((sbRead.sideUp = false ∨ ∃ a, sbRead.side.readAt = some a ∧ sbRead.clk.life < a + cycPerSec / 10)) ∧
    (sb.sideUp = true ∧ (∀ (a : ℕ), sb.side.readAt = some a → a + cycPerSec / 10 ≤ sb.clk.life) ∧
      ((List.map (fun x ↦ x.1) [(1, 105), (19, 40)]).Nodup)) ∧
    (sbM3.sideUp = true ∧ (∀ (a : ℕ), sbM3.side.readAt = some a → a + cycPerSec / 10 ≤ sbM3.clk.life) ∧
      ((List.map (fun x ↦ x.1) [(10, 40), (1, 105)]).Nodup)) ∧
    (sb.pldmOn = true ∧ (sb.mgmt.fw = FwState.recovery ∨ sb.mgmt.fw = FwState.idle ∧ sb.host.owner ≠ Owner.host) ∧
      (4096 : ℕ) ≤ BitVec.toNat (4096 : W32) ∧ BitVec.toNat (4096 : W32) ≤ (64 : ℕ) * (2 : ℕ) ^ (20 : ℕ) ∧ sb.mgmt.commitOp = none) ∧
    (sb.pldmOn = true ∧ (sb.mgmt.fw = FwState.recovery ∨ sb.mgmt.fw = FwState.idle ∧ sb.host.owner ≠ Owner.host) ∧
      (4096 : ℕ) ≤ BitVec.toNat (67108864 : W32) ∧ BitVec.toNat (67108864 : W32) ≤ (64 : ℕ) * (2 : ℕ) ^ (20 : ℕ) ∧
      sb.mgmt.commitOp = none) ∧
    (sbRecov.pldmOn = true ∧
      (sbRecov.mgmt.fw = FwState.recovery ∨ sbRecov.mgmt.fw = FwState.idle ∧ sbRecov.host.owner ≠ Owner.host) ∧
      (4096 : ℕ) ≤ BitVec.toNat (4096 : W32) ∧ BitVec.toNat (4096 : W32) ≤ (64 : ℕ) * (2 : ℕ) ^ (20 : ℕ) ∧
      sbRecov.mgmt.commitOp = none) ∧
    (sbHost.sideUp = true ∧
      (sbHost.pldmOn = false ∨ BitVec.toNat (4096 : W32) < (4096 : ℕ) ∨ (64 : ℕ) * (2 : ℕ) ^ (20 : ℕ) < BitVec.toNat (4096 : W32) ∨ sbHost.mgmt.commitOp ≠ none ∨ sbHost.mgmt.fw ≠ FwState.recovery ∧ (sbHost.mgmt.fw ≠ FwState.idle ∨ sbHost.host.owner = Owner.host))) ∧
    (sb.sideUp = true ∧
      (sb.pldmOn = false ∨ BitVec.toNat (4095 : W32) < (4096 : ℕ) ∨ (64 : ℕ) * (2 : ℕ) ^ (20 : ℕ) < BitVec.toNat (4095 : W32) ∨ sb.mgmt.commitOp ≠ none ∨ sb.mgmt.fw ≠ FwState.recovery ∧ (sb.mgmt.fw ≠ FwState.idle ∨ sb.host.owner = Owner.host))) := by
  refine ⟨?_, ?_, ?_, ?_, ?_, ?_, ?_, ?_, ?_, ?_, ?_, ?_⟩ <;> decide +kernel
theorem witness_SidebandEndpointAndUpdate_4 :
    (sb.sideUp = true ∧
      (sb.pldmOn = false ∨ BitVec.toNat (67108865 : W32) < (4096 : ℕ) ∨ (64 : ℕ) * (2 : ℕ) ^ (20 : ℕ) < BitVec.toNat (67108865 : W32) ∨ sb.mgmt.commitOp ≠ none ∨ sb.mgmt.fw ≠ FwState.recovery ∧ (sb.mgmt.fw ≠ FwState.idle ∨ sb.host.owner = Owner.host))) ∧
    ((fwSt FwState.staging true 0).sideUp = true ∧ (fwSt FwState.staging true 0).mgmt.pldm = true ∧
      (fwSt FwState.staging true 0).mgmt.commitOp = none ∧
      ((fwSt FwState.staging true 0).mgmt.fw = FwState.staging ∨ (fwSt FwState.staging true 0).mgmt.fw = FwState.recovery) ∧
      BitVec.toNat (0 : W32) = (fwSt FwState.staging true (0 : ℕ)).mgmt.pldmGot ∧
      (zeros 1024).length = min 1024 ((fwSt FwState.staging true 0).mgmt.pldmLen - (fwSt FwState.staging true 0).mgmt.pldmGot) ∧
      zeros 1024 ≠ [] ∧ BitVec.toNat (0 : W32) + (zeros (1024 : ℕ)).length < (fwSt FwState.staging true (0 : ℕ)).mgmt.pldmLen) ∧
    ((fwSt FwState.staging true 4096).sideUp = true ∧ (fwSt FwState.staging true 4096).mgmt.pldm = true ∧
      (fwSt FwState.staging true 4096).mgmt.commitOp = none ∧
      ((fwSt FwState.staging true 4096).mgmt.fw = FwState.staging ∨ (fwSt FwState.staging true 4096).mgmt.fw = FwState.recovery) ∧
      BitVec.toNat (4096 : W32) = (fwSt FwState.staging true (4096 : ℕ)).mgmt.pldmGot ∧
      (zeros 904).length = min 1024 ((fwSt FwState.staging true 4096).mgmt.pldmLen - (fwSt FwState.staging true 4096).mgmt.pldmGot) ∧
      zeros 904 ≠ [] ∧ (fwSt FwState.staging true (4096 : ℕ)).mgmt.pldmLen ≤ BitVec.toNat (4096 : W32) + (zeros (904 : ℕ)).length) ∧
    (((fwSt FwState.staging true (0 : ℕ)).sideUp = false ∨ (fwSt FwState.staging true (0 : ℕ)).mgmt.pldm = false ∨ BitVec.toNat (8 : W32) ≠ (fwSt FwState.staging true (0 : ℕ)).mgmt.pldmGot)) ∧
    ((fwSt FwState.pending true 5000).pldmOn = true ∧ (fwSt FwState.pending true 5000).mgmt.pldm = true ∧
      (fwSt FwState.pending true 5000).mgmt.fw = FwState.pending ∧ (fwSt FwState.pending true 5000).host.owner = Owner.sideband) ∧
    (sb.sideUp = true ∧ (sb.pldmOn = false ∨ sb.mgmt.pldm = false ∨ sb.mgmt.fw ≠ FwState.pending)) ∧
    ((fwSt FwState.verifying true 5000).sideUp = true ∧ (fwSt FwState.verifying true 5000).mgmt.pldm = true ∧
      (fwSt FwState.verifying true 5000).mgmt.fw ≠ FwState.writing ∧ (fwSt FwState.verifying true 5000).mgmt.fw ≠ FwState.pending) := by
  refine ⟨?_, ?_, ?_, ?_, ?_, ?_, ?_⟩ <;> decide +kernel
theorem witness_SidebandEndpointAndUpdate_5 :
    ((fwSt FwState.writing true 5000).sideUp = true ∧
      ((fwSt FwState.writing true 5000).mgmt.pldm = false ∨ (fwSt FwState.writing true 5000).mgmt.fw = FwState.writing ∨ (fwSt FwState.writing true 5000).mgmt.fw = FwState.pending)) ∧
    (up.sideUp = false) ∧
    (up.sideUp = false) ∧
    (up.sideUp = false) := by
  refine ⟨?_, ?_, ?_, ?_⟩ <;> decide +kernel
/-! ### Attestation -/

theorem witness_Attestation :
    (up.spdmOn = false ∧
      (Instr.getVersion ∈ [Instr.getVersion, Instr.getCapabilities, Instr.negotiateAlgorithms, Instr.getDigests] ∨ (∃ o l, Instr.getVersion = Instr.getCertificate o l) ∨ (∃ n, Instr.getVersion = Instr.challenge n) ∨ ∃ i g n, Instr.getVersion = Instr.getMeasurements i g n)) ∧
    (sb.spdmOn = true) ∧
    (sb.spdmOn = true) ∧
    (sb.spdmOn = true) ∧
    (sb.spdmOn = true) ∧
    (sb.spdmOn = true) ∧
    (spdmTest.spdmOn = true ∧ (spdmTest.mgmt.testMode = true ∨ spdmTest.mgmt.keysHeld = false)) ∧
    (spdmTest.spdmOn = true ∧ (spdmTest.mgmt.testMode = true ∨ spdmTest.mgmt.keysHeld = false)) ∧
    (spdmKeys.spdmOn = true ∧ spdmKeys.mgmt.testMode = false ∧ spdmKeys.mgmt.keysHeld = true) ∧
    (sb.spdmOn = true ∧ (7 : ℕ) < BitVec.toNat (8 : Byte) ∧ BitVec.toNat (8 : Byte) ≠ (255 : ℕ)) ∧
    (spdmKeys.spdmOn = true ∧ (7 : ℕ) < BitVec.toNat (254 : Byte) ∧ BitVec.toNat (254 : Byte) ≠ (255 : ℕ) ∧
      spdmKeys.mgmt.testMode = false ∧ spdmKeys.mgmt.keysHeld = true) ∧
    (sb.spdmOn = true ∧ (BitVec.toNat (0 : Byte) ≤ (7 : ℕ) ∨ BitVec.toNat (0 : Byte) = (255 : ℕ))) ∧
    (sb.spdmOn = true ∧ (BitVec.toNat (7 : Byte) ≤ (7 : ℕ) ∨ BitVec.toNat (7 : Byte) = (255 : ℕ))) ∧
    (spdmKeys.spdmOn = true ∧ (BitVec.toNat (255 : Byte) ≤ (7 : ℕ) ∨ BitVec.toNat (255 : Byte) = (255 : ℕ)) ∧
      spdmKeys.mgmt.testMode = false ∧ spdmKeys.mgmt.keysHeld = true) := by
  refine ⟨?_, ?_, ?_, ?_, ?_, ?_, ?_, ?_, ?_, ?_, ?_, ?_, ?_, ?_⟩ <;> decide +kernel
/-! ### PlatformSignals -/

theorem witness_PlatformSignals_1 :
    (Shaped auxOff ∧ auxOff.start.aux = false) ∧
    (Shaped up ∧ up.start.aux = true) ∧
    (Shaped auxOff ∧ auxOff.start.aux = false) ∧
    (Shaped up ∧ up.start.aux = true) ∧
    (Shaped auxOff ∧ auxOff.pinsOn = false) ∧
    (Shaped auxOff ∧ auxOff.pinsOn = false) ∧
    (Shaped auxOff ∧ auxOff.pinsOn = false) ∧
    (Shaped auxOff ∧ auxOff.pinsOn = false) ∧
    (Shaped up ∧ up.pinsOn = true) ∧
    (Shaped m3 ∧ m3.pinsOn = true ∧ m3.start.pwr = ModPwr.m3 ∧ m3.start.stage = 10 ∧ m3.start.warmDue = false) ∧
    (Shaped up ∧ up.pinsOn = true ∧ (up.start.pwr ≠ ModPwr.m3 ∨ up.start.stage ≠ 10 ∨ up.start.warmDue = true)) ∧
    (Shaped up ∧ up.pinsOn = true) := by
  unfold Shaped
  refine ⟨?_, ?_, ?_, ?_, ?_, ?_, ?_, ?_, ?_, ?_, ?_, ?_⟩ <;> decide +kernel
theorem witness_PlatformSignals_2 :
    (Shaped up ∧ up.pinsOn = true ∧ up.start.warmDue = false) ∧
    (Shaped warmDue ∧ warmDue.pinsOn = true ∧ warmDue.start.warmDue = true) := by
  unfold Shaped
  refine ⟨?_, ?_⟩ <;> decide +kernel
/-! ### StartupStages -/

def w_SS_1_2 : Verdict := { sigOk := true }
def w_SS_1b_2 : Verdict := { sigOk := true }
def w_SS_1c_2 : Verdict := { sigOk := true }
def w_SS_1d_2 : Verdict := { sigOk := true }
def w_SS_1e_2 : Verdict := { sigOk := true }
def w_SS_2_2 : Verdict := { sigOk := true }
def w_SS_3_2 : Verdict := { sigOk := true }
def w_SS_4_2 : Verdict := { sigOk := false }
def w_SS_5_2 : Verdict := { sigOk := true }
def w_SS_6_2 : Verdict := { sigOk := false }
def w_SS_6b_2 : Verdict := { sigOk := false }
def w_SS_6c_2 : Verdict := { sigOk := false }
def w_SS_7_2 : Verdict := { sigOk := false }
def w_SS_7b_2 : Verdict := { sigOk := false }
def w_SS_8_2 : Verdict := { sigOk := false }
def w_SS_8_6 : List (Fin 16) := (List.range 16).map fun x => Fin.ofNat 16 x
def w_SS_9a_2 : Verdict := { sigOk := false }
def w_SS_9_2 : Verdict := { sigOk := false }
def w_SS_10_2 : Verdict := { sigOk := false }
def w_SS_11_2 : Verdict := { sigOk := false }
def w_SS_12_2 : Verdict := { sigOk := false }
def w_SS_12b_2 : Verdict := { sigOk := false }
def w_SS_13_2 : Verdict := { sigOk := false }
def w_SS_13_6 : D2dFail := ⟨3, false, 5, 6⟩
def w_SS_13b_2 : Verdict := { sigOk := false }
def w_SS_13b_6 : D2dFail := ⟨3, true, 5, 6⟩
theorem witness_StartupStages_1 :
    (Shaped up ∧ (up.start.stage ≠ 1 ∨ up.start.aux = false)) ∧
    (Shaped up ∧ (up.start.stage ≠ 2 ∨ up.start.aux = false ∨ up.start.warmDue = true)) ∧
    (Shaped up ∧ (up.start.stage ≠ 3 ∨ up.start.aux = false ∨ up.start.warmDue = true)) ∧
    (Shaped up ∧ (up.start.stage ≠ 3 ∨ up.start.aux = false ∨ up.start.warmDue = true)) ∧
    (Shaped up ∧ (up.start.stage ≠ 4 ∨ up.start.aux = false ∨ up.start.warmDue = true)) ∧
    (Shaped (atStage 1) ∧ (atStage 1).start.aux = true ∧ (atStage 1).start.stage = 1) ∧
    ((Shaped bootGood ∧ bootGood.start.aux = true ∧ bootGood.start.stage = 2 ∧ bootGood.start.warmDue = false ∧
      bootGood.mgmt.fw ≠ FwState.recovery) ∧
      bootGood.imageOk bootGood.flashImage w_SS_3_2 = true) ∧
    (Shaped bootEmpty ∧ bootEmpty.start.aux = true ∧ bootEmpty.start.stage = 2 ∧ bootEmpty.start.warmDue = false ∧
      bootEmpty.mgmt.fw ≠ FwState.recovery ∧ bootEmpty.imageOk bootEmpty.flashImage w_SS_4_2 = false) := by
  unfold Shaped
  exact ⟨by decide +kernel, by decide +kernel, by decide +kernel, by decide +kernel, by decide +kernel, by decide +kernel, ⟨by decide +kernel, flash_boots bootGood _ rfl (by simp only [bootGood]) rfl rfl rfl rfl (by decide +kernel) rfl⟩, by decide +kernel⟩
theorem witness_StartupStages_2 :
    ((Shaped (reelBoot image) ∧ (reelBoot image).start.aux = true ∧ (reelBoot image).start.stage = 2 ∧
      (reelBoot image).start.warmDue = false ∧ (reelBoot image).mgmt.fw = FwState.recovery ∧ (reelBoot image).mgmt.recovery = 2) ∧
      (reelBoot image).reelRecovers = true ∧
      (reelBoot image).imageOk (reelBoot image).reelImage w_SS_5_2 = true) ∧
    (Shaped (reelBoot []) ∧ (reelBoot []).start.aux = true ∧ (reelBoot []).start.stage = 2 ∧ (reelBoot []).start.warmDue = false ∧
      (reelBoot []).mgmt.fw = FwState.recovery ∧ (reelBoot []).mgmt.recovery = 2 ∧
      ((reelBoot []).reelRecovers = false ∨ (reelBoot []).imageOk (reelBoot []).reelImage w_SS_6_2 = false)) ∧
    (Shaped bootGood ∧ bootGood.start.aux = true ∧ bootGood.start.stage = 2 ∧ bootGood.start.warmDue = false ∧ 2 ≤ ↑2 ∧
      (bootGood.mgmt.fw ≠ FwState.recovery ∨ bootGood.mgmt.recovery < ↑2 + 1)) ∧
    (Shaped (recov 3) ∧ (recov 3).start.aux = true ∧ (recov 3).start.stage = 2 ∧ (recov 3).start.warmDue = false ∧ 2 ≤ ↑2 ∧
      (recov 3).mgmt.fw = FwState.recovery ∧ ↑2 + 1 ≤ (recov 3).mgmt.recovery) := by
  unfold Shaped
  exact ⟨⟨by decide +kernel, reel_recovers (reelBoot image) rfl rfl (by simp only [reelBoot]), reel_boots (reelBoot image) _ rfl (by simp only [reelBoot]) rfl rfl rfl (by decide +kernel) rfl⟩, by decide +kernel, by decide +kernel, by decide +kernel⟩
theorem witness_StartupStages_3 :
    ((Shaped railsWarm ∧ railsWarm.start.aux = true ∧ railsWarm.start.stage = 3 ∧ railsWarm.start.warmDue = false ∧
      railsWarm.ident.fusedRepairs = [] ∧ railsWarm.logs.inForce = []) ∧
      (∃ c, ↑c ∉ railsWarm.dies.coreOff ∧ c ∉ [])) ∧
    ((Shaped railsWarm ∧ railsWarm.start.aux = true ∧ railsWarm.start.stage = 3 ∧ railsWarm.start.warmDue = false ∧
      railsWarm.ident.fusedRepairs = [] ∧ railsWarm.logs.inForce = []) ∧
      (∃ c, ↑c ∉ railsWarm.dies.coreOff ∧ c ∉ [3])) ∧
    (Shaped railsWarm ∧ railsWarm.start.aux = true ∧ railsWarm.start.stage = 3 ∧ railsWarm.start.warmDue = false ∧
      railsWarm.ident.fusedRepairs = [] ∧ railsWarm.logs.inForce = [] ∧ (∀ (c : Fin 16), c ∈ w_SS_8_6)) ∧
    (Shaped (atStage 3) ∧ ((atStage 3).clk.life < (atStage 3).clk.stageZero + usCyc 10000 ∨ (atStage 3).pinsOn = false)) ∧
    (Shaped (lateJ (atStage 3)) ∧ (lateJ (atStage 3)).pinsOn = true ∧ (lateJ (atStage 3)).start.stage = 3 ∧
      (lateJ (atStage 3)).start.warmDue = false ∧ (lateJ (atStage 3)).clk.stageZero + usCyc 10000 ≤ (lateJ (atStage 3)).clk.life) := by
  unfold Shaped
  exact ⟨⟨by decide +kernel, ⟨0, by decide +kernel⟩⟩, ⟨by decide +kernel, ⟨0, by decide +kernel⟩⟩, by decide +kernel, by decide +kernel, by decide +kernel⟩
theorem witness_StartupStages_4 :
    (Shaped (lateJ (atStage 3)) ∧ (lateJ (atStage 3)).pinsOn = true ∧ (lateJ (atStage 3)).start.stage = 3 ∧
      (lateJ (atStage 3)).start.warmDue = false ∧ (lateJ (atStage 3)).clk.stageZero + usCyc 10000 ≤ (lateJ (atStage 3)).clk.life ∧
      0 ≠ 8) ∧
    (Shaped (atStage 4) ∧ (atStage 4).start.aux = true ∧ (atStage 4).start.stage = 4 ∧ (atStage 4).start.warmDue = false) ∧
    (Shaped (atStage 4) ∧ (atStage 4).start.aux = true ∧ (atStage 4).start.stage = 4 ∧ (atStage 4).start.warmDue = false ∧
      (atStage 4).logs.inForce = []) ∧
    (Shaped (atStage 4) ∧ (atStage 4).start.aux = true ∧ (atStage 4).start.stage = 4 ∧ (atStage 4).start.warmDue = false ∧
      (atStage 4).logs.inForce = []) ∧
    (Shaped (atStage 4) ∧ (atStage 4).start.aux = true ∧ (atStage 4).start.stage = 4 ∧ (atStage 4).start.warmDue = false) ∧
    (Shaped (atStage 4) ∧ (atStage 4).start.aux = true ∧ (atStage 4).start.stage = 4 ∧ (atStage 4).start.warmDue = false) := by
  unfold Shaped
  refine ⟨?_, ?_, ?_, ?_, ?_, ?_⟩ <;> decide +kernel
/-! ### StartupEnds -/

def w_SE_1_4 : Verdict := { sigOk := true }
def w_SE_1b_4 : Verdict := { sigOk := true }
def w_SE_1c_4 : Verdict := { sigOk := true }
def w_SE_1d_4 : Verdict := { sigOk := true }
def w_SE_1e_4 : Verdict := { sigOk := true }
def w_SE_1f_4 : Verdict := { sigOk := true }
def w_SE_2_5 : Verdict := { sigOk := true }
def w_SE_2b_5 : Verdict := { sigOk := false }
theorem witness_StartupEnds_1 :
    (Shaped up ∧ up.start.aux = true ∧ (up.start.warmDue = true ∨ up.start.stage ≠ 5)) ∧
    (Shaped up ∧ up.start.aux = true ∧ (up.start.warmDue = true ∨ up.start.stage ≠ 6 ∧ up.start.stage ≠ 7 ∨ up.start.six = true)) ∧
    (Shaped up ∧ up.start.aux = true ∧ (up.start.warmDue = true ∨ up.start.stage ≠ 6 ∧ up.start.stage ≠ 7 ∨ up.start.seven = true)) ∧
    (Shaped up ∧ up.start.aux = true ∧ (up.start.warmDue = true ∨ up.start.stage ≠ 8)) ∧
    (Shaped up ∧ up.start.aux = true ∧ (up.start.warmDue = true ∨ up.start.stage ≠ 9)) ∧
    (Shaped up ∧ up.start.aux = true ∧
      (up.start.warmDue = true ∨ 1 = 0 ∨ (1 = 1 ∨ 1 = 2) ∧ up.start.stage ≠ 3 ∨ 1 = 3 ∧ ∀ (n : ℕ), stageMax up.start.stage = some n → up.clk.life ≤ up.clk.stageZero + usCyc (1000 * n))) ∧
    (Shaped repaired ∧ repaired.start.aux = true ∧ repaired.start.warmDue = false ∧ repaired.start.stage = 5) ∧
    (Shaped repaired ∧ repaired.start.aux = true ∧ repaired.start.warmDue = false ∧ repaired.start.stage = 5) := by
  unfold Shaped
  refine ⟨?_, ?_, ?_, ?_, ?_, ?_, ?_, ?_⟩ <;> decide +kernel
theorem witness_StartupEnds_2 :
    (Shaped (atStage 6) ∧ (atStage 6).start.aux = true ∧ (atStage 6).start.warmDue = false ∧
      ((atStage 6).start.stage = 6 ∨ (atStage 6).start.stage = 7) ∧ (atStage 6).start.six = false) ∧
    (Shaped (atStage 7) ∧ (atStage 7).start.aux = true ∧ (atStage 7).start.warmDue = false ∧
      ((atStage 7).start.stage = 6 ∨ (atStage 7).start.stage = 7) ∧ (atStage 7).start.six = false) ∧
    (Shaped (trainedAll PortState.up) ∧ (trainedAll PortState.up).start.aux = true ∧
      (trainedAll PortState.up).start.warmDue = false ∧
      ((trainedAll PortState.up).start.stage = 6 ∨ (trainedAll PortState.up).start.stage = 7) ∧
      (trainedAll PortState.up).start.seven = false ∧
      ((∀ x ∈ (trainedAll PortState.up).ports, x.st = PortState.up ∨ x.st = PortState.failed) ∨ false = true ∧ (trainedAll PortState.up).clk.stageZero + 52 * cycPerSec ≤ (trainedAll PortState.up).clk.life)) ∧
    (Shaped (lateJ (trainedAll PortState.training)) ∧ (lateJ (trainedAll PortState.training)).start.aux = true ∧
      (lateJ (trainedAll PortState.training)).start.warmDue = false ∧
      ((lateJ (trainedAll PortState.training)).start.stage = 6 ∨ (lateJ (trainedAll PortState.training)).start.stage = 7) ∧
      (lateJ (trainedAll PortState.training)).start.seven = false ∧
      ((∀ x ∈ (lateJ (trainedAll PortState.training)).ports, x.st = PortState.up ∨ x.st = PortState.failed) ∨ true = true ∧ (lateJ (trainedAll PortState.training)).clk.stageZero + 52 * cycPerSec ≤ (lateJ (trainedAll PortState.training)).clk.life)) ∧
    (Shaped (trainedAll PortState.training) ∧ (trainedAll PortState.training).start.aux = true ∧
      (trainedAll PortState.training).start.warmDue = false ∧
      ((trainedAll PortState.training).start.stage = 6 ∨ (trainedAll PortState.training).start.stage = 7) ∧
      (trainedAll PortState.training).start.seven = false ∧
      (∃ x ∈ (trainedAll PortState.training).ports, x.st ≠ PortState.up ∧ x.st ≠ PortState.failed) ∧
      (true = false ∨ (trainedAll PortState.training).clk.life < (trainedAll PortState.training).clk.stageZero + 52 * cycPerSec)) := by
  unfold Shaped
  refine ⟨?_, ?_, ?_, ?_, ?_⟩ <;> decide +kernel
theorem witness_StartupEnds_3 :
    (Shaped (atStage 8) ∧ (atStage 8).start.aux = true ∧ (atStage 8).start.warmDue = false ∧ (atStage 8).start.stage = 8) ∧
    (Shaped sheetBad ∧ sheetBad.start.aux = true ∧ sheetBad.start.warmDue = false ∧ sheetBad.start.stage = 8) ∧
    (Shaped (atStage 9) ∧ (atStage 9).start.aux = true ∧ (atStage 9).start.warmDue = false ∧ (atStage 9).start.stage = 9) ∧
    (Shaped (atStage 3) ∧ (atStage 3).start.aux = true ∧ (atStage 3).start.warmDue = false ∧
      ((atStage 3).start.stage = 3 ∧ (1 = 1 ∨ 1 = 2) ∨ 1 = 3 ∧ ∃ n, stageMax (atStage 3).start.stage = some n ∧ (atStage 3).clk.stageZero + usCyc (1000 * n) < (atStage 3).clk.life)) ∧
    (Shaped (lateJ (atStage 9)) ∧ (lateJ (atStage 9)).start.aux = true ∧ (lateJ (atStage 9)).start.warmDue = false ∧
      ((lateJ (atStage 9)).start.stage = 3 ∧ (3 = 1 ∨ 3 = 2) ∨ 3 = 3 ∧ ∃ n, stageMax (lateJ (atStage 9)).start.stage = some n ∧ (lateJ (atStage 9)).clk.stageZero + usCyc (1000 * n) < (lateJ (atStage 9)).clk.life)) ∧
    (Shaped (lateJ (recov 3)) ∧ (lateJ (recov 3)).start.aux = true ∧ (lateJ (recov 3)).mgmt.fw = FwState.recovery ∧
      (lateJ (recov 3)).mgmt.recovery = 3 ∧ (lateJ (recov 3)).mgmt.waitHostAt + 120 * cycPerSec ≤ (lateJ (recov 3)).clk.life) ∧
    (Shaped up ∧ up.start.aux = true ∧
      (up.mgmt.fw ≠ FwState.recovery ∨ up.mgmt.recovery ≠ 3 ∨ up.clk.life < up.mgmt.waitHostAt + 120 * cycPerSec)) := by
  unfold Shaped
  refine ⟨?_, ?_, ?_, ?_, ?_, ?_, ?_⟩ <;> decide +kernel

end Sys2Proof.Tests
end

namespace Sys2Proof.Machine

section
set_option Elab.async false -- one thread: the proofs are many and short
variable {s t : State}

/-! ### The parts of the state that have a shape -/

/-- A context has its 16 engine queues (R326). -/
def Context.Shaped (x : Context) : Prop := x.queues.length = 16

/-- A sheet has its 16 map entries and the TSTAT of its 18 columns (R60, R229). -/
def Sheet.Shaped (x : Sheet) : Prop := x.map.length = 16 ∧ x.tstat.length = 18

/-- A state with as many partitions, channels and ports, and with the contexts and sheets of `s`, is shaped as `s` is. -/
theorem Shaped.of_lengths (h : Shaped s) (hp : t.pts.length = s.pts.length) (hc : t.chans.length = s.chans.length)
    (hs : t.sheets = s.sheets) (hx : t.ctxs = s.ctxs) (hf : t.ports.length = s.ports.length)
    (hd : t.start.doneMs.length = s.start.doneMs.length) : Shaped t := by
  unfold Machine.Shaped at h ⊢
  rwa [hp, hc, hs, hx, hf, hd]

/-- An update of `s` that leaves its counted parts alone. -/
theorem Shaped.frame {clk : Clock} {ident : Ident} {host : HostIf} {tiles : KMap Tile} {flights : List Flight} {qmaxes : List QmaxRec} {dram : Mem} {pool : Mem} {poolChans : List Nat} {rot : List Nat} {ends : List Endpoint} {copies : List Copy} {sessions : KMap Session} {cache : List CacheWay} {modCtr : KMap Nat} {groups : List Group} {ops : List OpRec} {lastOp : Nat} {logs : Logs} {dies : Dies} {mgmt : Mgmt} {side : Side} {rxq : List Packet} {jobs : List Job} {reel : Reel} {dumps : List Dump} {dumping : Option Dumping} {nextDump : Nat} {start : Startup} {crossing : List WriteRec} {scratch : List Undef} {verdicts : List Judged} {fresh : Nat} {outbox : List Output} {pending : List Instr}
    (h : Shaped s) (hd : start.doneMs.length = s.start.doneMs.length := by rfl) :
    Shaped ⟨clk, ident, host, s.pts, s.chans, s.sheets, tiles, flights, qmaxes, dram, pool, poolChans, s.ctxs, rot, ends, copies, sessions, cache, modCtr, groups, ops, lastOp, logs, dies, mgmt, side, s.ports, rxq, jobs, reel, dumps, dumping, nextDump, start, crossing, scratch, verdicts, fresh, outbox, pending⟩ :=
  h.of_lengths rfl rfl rfl rfl rfl hd

/-- New contexts, as many, each with its queues. -/
theorem Shaped.withCtxs {l : List Context} (h : Shaped s) (hl : l.length = 64) (hx : ∀ x ∈ l, x.Shaped) : Shaped { s with ctxs := l } := by
  obtain ⟨hp, hc, hs, -, hf, hd, -, hy⟩ := h
  exact ⟨hp, hc, hs, hl, hf, hd, hx, hy⟩

/-- New sheets, as many, each with its map and TSTAT. -/
theorem Shaped.withSheets {l : List Sheet} (h : Shaped s) (hl : l.length = 24) (hy : ∀ x ∈ l, x.Shaped) : Shaped { s with sheets := l } := by
  obtain ⟨hp, hc, -, hx, hf, hd, hq, -⟩ := h
  exact ⟨hp, hc, hl, hx, hf, hd, hq, hy⟩

theorem Shaped.ctxs_length (h : Shaped s) : s.ctxs.length = 64 := h.2.2.2.1
theorem Shaped.sheets_length (h : Shaped s) : s.sheets.length = 24 := h.2.2.1
theorem Shaped.of_mem_ctxs (h : Shaped s) {x : Context} (hx : x ∈ s.ctxs) : x.Shaped := h.2.2.2.2.2.2.1 x hx
theorem Shaped.of_mem_sheets (h : Shaped s) {x : Sheet} (hx : x ∈ s.sheets) : x.Shaped := h.2.2.2.2.2.2.2 x hx

/-- What holds of every element, and is kept by `f`, holds of every element after one is modified by `f`. -/
theorem forall_mem_modify {α : Type} {P : α → Prop} {l : List α} {i : Nat} {f : α → α} (h : ∀ x ∈ l, P x) (hf : ∀ x, P x → P (f x)) :
    ∀ x ∈ l.modify i f, P x := by
  induction l generalizing i with
  | nil => simp
  | cons a l ih =>
    cases i with
    | zero => simpa [hf a (h a (by simp))] using fun x hx => h x (by simp [hx])
    | succ i => simpa [h a (by simp)] using ih (i := i) fun x hx => h x (by simp [hx])

theorem Shaped.mapCtxs {f : Context → Context} (h : Shaped s)
    (hf : ∀ x : Context, (f x).queues.length = x.queues.length := by intro; simp) : Shaped { s with ctxs := s.ctxs.map f } :=
  h.withCtxs (by simpa using h.ctxs_length) (List.forall_mem_map.2 fun x hx => (hf x).trans (h.of_mem_ctxs hx))

theorem Shaped.mapSheets {f : Sheet → Sheet} (h : Shaped s) (hf : ∀ x : Sheet, x.Shaped → (f x).Shaped) :
    Shaped { s with sheets := s.sheets.map f } :=
  h.withSheets (by simpa using h.sheets_length) (List.forall_mem_map.2 fun x hx => hf x (h.of_mem_sheets hx))

/-! ### Control flow -/

theorem Shaped.ite {c : Prop} [Decidable c] (hs : Shaped s) (ht : Shaped t) : Shaped (if c then s else t) := by split <;> assumption

theorem Shaped.foldl {α : Type} {l : List α} {f : State → α → State} (h : Shaped s) (hf : ∀ {a x}, Shaped a → Shaped (f a x)) :
    Shaped (l.foldl f s) := List.foldlRecOn l f h fun _ ha _ _ => hf ha

theorem Shaped.iteFst {α : Type} {c : Prop} [Decidable c] {a b : State × α} (ha : Shaped a.1) (hb : Shaped b.1) :
    Shaped (if c then a else b).1 := by split <;> assumption

theorem Shaped.iteSnd {α : Type} {c : Prop} [Decidable c] {a b : α × State} (ha : Shaped a.2) (hb : Shaped b.2) :
    Shaped (if c then a else b).2 := by split <;> assumption

/-- A fold that carries something beside the state. -/
theorem Shaped.foldlFst {α β : Type} {l : List α} {f : State × β → α → State × β} {b : State × β} (h : Shaped b.1)
    (hf : ∀ {a x}, Shaped a.1 → Shaped (f a x).1) : Shaped (l.foldl f b).1 :=
  List.foldlRecOn (motive := fun a => Shaped a.1) l f h fun _ ha _ _ => hf ha

/-! ### The named updates of the parts -/

theorem Shaped.modPt {p : Nat} {f : Partition → Partition} (h : Shaped s) : Shaped (s.modPt p f) := h.of_lengths (by simp) rfl rfl rfl rfl rfl
theorem Shaped.modChan {p : Nat} {f : Chan → Chan} (h : Shaped s) : Shaped (s.modChan p f) := h.of_lengths rfl (by simp) rfl rfl rfl rfl
theorem Shaped.modPort {p : Nat} {f : FPort → FPort} (h : Shaped s) : Shaped (s.modPort p f) := h.of_lengths rfl rfl rfl rfl (by simp) rfl
theorem Shaped.modTile {i : Nat} {f : Tile → Tile} (h : Shaped s) : Shaped (s.modTile i f) := h.frame

theorem Shaped.modCtxOf {c : Nat} {f : Context → Context} (h : Shaped s) (hf : ∀ x : Context, x.Shaped → (f x).Shaped) : Shaped (s.modCtx c f) :=
  h.withCtxs (by simpa using h.ctxs_length) (forall_mem_modify (fun _ => h.of_mem_ctxs) hf)

theorem Shaped.modCtx {c : Nat} {f : Context → Context} (h : Shaped s)
    (hf : ∀ x : Context, (f x).queues.length = x.queues.length := by intro; simp) : Shaped (s.modCtx c f) :=
  h.modCtxOf fun x hx => (hf x).trans hx

theorem Shaped.modSheetOf {n : Nat} {f : Sheet → Sheet} (h : Shaped s) (hf : ∀ x : Sheet, x.Shaped → (f x).Shaped) : Shaped (s.modSheet n f) :=
  h.withSheets (by simpa using h.sheets_length) (forall_mem_modify (fun _ => h.of_mem_sheets) hf)

theorem Shaped.modSheet {n : Nat} {f : Sheet → Sheet} (h : Shaped s) (hm : ∀ x : Sheet, (f x).map.length = x.map.length := by intro; simp)
    (ht : ∀ x : Sheet, (f x).tstat.length = x.tstat.length := by intro; simp) : Shaped (s.modSheet n f) :=
  h.modSheetOf fun x hx => ⟨(hm x).trans hx.1, (ht x).trans hx.2⟩

theorem Shaped.modQueue {c k : Nat} {f : Queue → Queue} (h : Shaped s) : Shaped (s.modQueue c k f) := h.modCtx fun _ => by simp


/-! ### Ops -/

theorem Shaped.modJob {id : Nat} {f : Job → Job} (h : Shaped s) : Shaped (s.modJob id f) := h.frame

theorem Shaped.emit {o : Output} (h : Shaped s) : Shaped (s.emit o) := h.frame

theorem Shaped.ctxCount {c id n : Nat} (h : Shaped s) : Shaped (s.ctxCount c id n) := h.modCtx

theorem Shaped.modCount {id n : Nat} (h : Shaped s) : Shaped (s.modCount id n) := h.frame

theorem Shaped.putSession {tag : Nat} {x : Session} (h : Shaped s) : Shaped (s.putSession tag x) := h.frame

theorem Shaped.flushSessions (h : Shaped s) : Shaped s.flushSessions := h.frame

theorem Shaped.closeSessions {sel : Session → Bool} (h : Shaped s) : Shaped (s.closeSessions sel) := h.frame.modCount

theorem Shaped.copyArrives {m : Copy} (h : Shaped s) : Shaped (s.copyArrives m) := h.frame

theorem Shaped.sheetCount {sh id n : Nat} (h : Shaped s) : Shaped (s.sheetCount sh id n) := h.modSheet

theorem Shaped.portCount {p k n : Nat} (h : Shaped s) : Shaped (s.portCount p k n) := h.modPort

theorem Shaped.msix {v : Nat} (h : Shaped s) : Shaped (s.msix v) := .ite h (.ite h.frame h.emit)

theorem Shaped.raise {i : Nat} (h : Shaped s) : Shaped (s.raise i) := .ite h.frame (.ite h.frame h.frame.msix)

theorem Shaped.fsUpdate (h : Shaped s) : Shaped s.fsUpdate := h.frame.raise

theorem Shaped.logErr {cls : Nat} {a : ErrAt} {body : List Byte} (h : Shaped s) : Shaped (s.logErr cls a body) := by
  unfold State.logErr
  extract_lets +onlyGivenNames x isStep first flags r s1
  have hs1 : Shaped s1 := .ite h.modCtx (.ite h.modCtx h)
  exact .ite hs1.frame hs1.frame.fsUpdate

theorem Shaped.tookSerial (h : Shaped s) : Shaped s.tookSerial := h.frame

theorem Shaped.dropHandle {h : Nat} (hs : Shaped s) : Shaped (s.dropHandle h) := hs.frame

theorem Shaped.modOp {id : Nat} {f : OpRec → OpRec} (h : Shaped s) : Shaped (s.modOp id f) := h.frame

theorem Shaped.finishOp {id st : Nat} {detail : List Byte} (h : Shaped s) : Shaped (s.finishOp id st detail) := by
  unfold State.finishOp
  split
  exacts [h, .ite h h.frame.raise]

theorem Shaped.readyOp {id st : Nat} {detail : List Byte} (h : Shaped s) : Shaped (s.readyOp id st detail) := h.modOp

theorem Shaped.finishOp? {id : Option Nat} {st : Nat} {detail : List Byte} (h : Shaped s) : Shaped (s.finishOp? id st detail) := by
  unfold State.finishOp?
  split
  exacts [h.finishOp, h]

theorem Shaped.decay {l : List DramFlip} (h : Shaped s) : Shaped (s.decay l) := h.foldl fun ha => ha.modChan

theorem Shaped.undefine {c n : Nat} (h : Shaped s) : Shaped (s.undefine c n) := h.frame

theorem Shaped.forget {c : Nat} (h : Shaped s) : Shaped (s.forget c) := h.frame

theorem Shaped.defined {c a n : Nat} (h : Shaped s) : Shaped (s.defined c a n) := .ite h h.frame

theorem Shaped.ctxWrite {c a : Nat} {b : List Byte} (h : Shaped s) : Shaped (s.ctxWrite c a b) := by
  unfold State.ctxWrite
  split
  exacts [h, .ite h.frame.defined (h.frame.defined.foldl fun ha => ha.modChan)]

theorem Shaped.syncAdd {e : SyncEnt} {v : W32} (h : Shaped s) : Shaped (s.syncAdd e v) := h.modPt.ctxCount

theorem Shaped.orphan {pt index : Nat} {sel : SyncEnt → Bool} (h : Shaped s) : Shaped (s.orphan pt index sel) := h.mapCtxs

theorem Shaped.freeCounter {pt index : Nat} (h : Shaped s) : Shaped (s.freeCounter pt index) := h.modPt.orphan

/-! ### Flags -/

theorem Shaped.settle (h : Shaped t) : Shaped (settle s t) := .ite h h.fsUpdate

/-! ### Operands -/

theorem Shaped.checked {len : Nat} {rs : List (Nat × Nat)} {p : Payload} {k : Unit → State × Resp} (h : Shaped s)
    (hk : Shaped (k ()).1) : Shaped (checked len rs p s k).1 := by
  unfold Machine.checked
  refine .iteFst h ?_
  split
  · exact h
  · exact hk

theorem Shaped.preempt (h : Shaped s) : Shaped s.preempt := h.frame.raise

theorem Shaped.freeAfter {r : State × Resp} (h : Shaped r.1) : Shaped (freeAfter r).1 := h.frame

/-- A mailbox command that leaves the shape of the state as it is. -/
def MbFun.KeepsShape (f : MbFun) : Prop := ∀ {s : State} {m : Master} {p : Payload}, Shaped s → Shaped (f m p s).1

theorem Shaped.lockGate {kind : MbKind} {f : MbFun} {m : Master} {p : Payload} (h : Shaped s) (hf : f.KeepsShape) :
    Shaped (lockGate kind f m p s).1 := .iteFst (hf h) (.iteFst (hf h.preempt).freeAfter h)

theorem Shaped.gate {kind : MbKind} {code : Nat} {f : MbFun} {m : Master} {p : Payload} (h : Shaped s) (hf : f.KeepsShape) :
    Shaped (gate kind code f m p s).1 := .iteFst (.iteFst (hf h) h) (h.lockGate hf)

theorem Shaped.complete {r : State × Resp} (h : Shaped r.1) : Shaped (complete r) := h.frame.raise

theorem Shaped.submit {code : Nat} {p : Payload} (h : Shaped s) : Shaped (s.submit code p) := h.frame

theorem Shaped.hostCmd {kind : MbKind} {code : Nat} {f : MbFun} {p : Payload} (h : Shaped s) (hf : f.KeepsShape) :
    Shaped (hostCmd kind code f p s) := by
  unfold Machine.hostCmd
  exact .ite h (.ite (.ite (((Shaped.ite h.frame h).gate hf).complete) h) (.ite h (.ite h.submit.complete (h.submit.gate hf).complete)))

theorem Shaped.respond {r : State × Resp} {tag : Byte} (h : Shaped r.1) : Shaped (State.respond r tag) := h.emit.frame

theorem Shaped.cutCommands (h : Shaped s) : Shaped s.cutCommands := by
  unfold State.cutCommands
  extract_lets s1
  have hs1 : Shaped s1 := .ite h.complete h
  split
  exacts [hs1.respond, hs1]

theorem Shaped.background {m : Master} {code handle : Nat} {k : Nat → State → State} (h : Shaped s)
    (hk : ∀ {i t}, Shaped t → Shaped (k i t)) : Shaped (background s m code handle k).1 := .iteFst h (hk h.frame)

theorem Shaped.wakeChans {l : List Nat} (h : Shaped s) : Shaped (s.wakeChans l) := h.foldl fun ha => .ite ha.modChan ha

theorem Shaped.reclaim {lines : List Nat} (h : Shaped s) : Shaped (s.reclaim lines) := .ite h (h.frame.foldl fun ha => ha.emit)

theorem Shaped.poolWrite {a : Nat} {b : List Byte} (h : Shaped s) : Shaped (s.poolWrite a b) :=
    .ite h.frame.wakeChans.reclaim (h.frame.wakeChans.reclaim.foldl fun ha => ha.modChan)

theorem Shaped.cacheLine {a : Nat} (h : Shaped s) : Shaped (s.cacheLine a) := h.frame

theorem Shaped.hostPut {a : Nat} {b : List Byte} (h : Shaped s) : Shaped (s.hostPut a b) := (h.foldl fun ha => ha.cacheLine).emit

/-! ### Bist -/

theorem Shaped.ranBist {sh pc kind n : Nat} {fails : List BistFail} (h : Shaped s) : Shaped (s.ranBist sh pc kind n fails) := h.modSheet

/-! ### Sheets: what the role functions leave of the map and of TSTAT -/

@[simp] theorem length_mapOf (x : Sheet) (rove stand : Option Nat) : (mapOf x rove stand).length = 16 := by
  unfold mapOf
  extract_lets live
  split
  · simp
  · next hl => simpa using (not_or.1 hl).2

theorem placeSpares_frame (x : Sheet) : (placeSpares x).map = x.map ∧ (placeSpares x).tstat = x.tstat := by
  unfold placeSpares
  split
  · split
    · exact ⟨rfl, rfl⟩
    · extract_lets y
      split
      · split <;> exact ⟨rfl, rfl⟩
      · exact ⟨rfl, rfl⟩
  · extract_lets y
    split
    · exact ⟨rfl, rfl⟩
    · split
      · exact ⟨rfl, rfl⟩
      · split <;> exact ⟨rfl, rfl⟩
  · exact ⟨rfl, rfl⟩

@[simp] theorem placeSpares_map (x : Sheet) : (placeSpares x).map = x.map := (placeSpares_frame x).1

@[simp] theorem placeSpares_tstat (x : Sheet) : (placeSpares x).tstat = x.tstat := (placeSpares_frame x).2

@[simp] theorem Sheet.startRoles_tstat (x : Sheet) : x.startRoles.tstat = x.tstat := by
  unfold Sheet.startRoles
  extract_lets y
  split <;> rfl

@[simp] theorem retireRoles_map (x : Sheet) (pc : Nat) : (retireRoles x pc).map = x.map := by
  unfold retireRoles
  repeat' split
  all_goals rfl

@[simp] theorem retireRoles_tstat (x : Sheet) (pc : Nat) : (retireRoles x pc).tstat = x.tstat := by
  unfold retireRoles
  repeat' split
  all_goals rfl

@[simp] theorem fenceRoles_map (x : Sheet) (pc : Nat) (row : Option Nat) : (fenceRoles x pc row).map = x.map := by
  unfold fenceRoles
  split <;> rfl

@[simp] theorem unfenceRoles_map (x : Sheet) (pc : Nat) (row : Option Nat) : (unfenceRoles x pc row).map = x.map := by
  unfold unfenceRoles
  split <;> rfl

@[simp] theorem unfenceRoles_tstat (x : Sheet) (pc : Nat) (row : Option Nat) : (unfenceRoles x pc row).tstat = x.tstat := by
  unfold unfenceRoles
  split <;> rfl

@[simp] theorem Sheet.renew_map (x : Sheet) : x.renew.map = x.map := by
  unfold Sheet.renew
  repeat' split
  all_goals rfl

@[simp] theorem Sheet.renew_tstat (x : Sheet) : x.renew.tstat = x.tstat := by
  unfold Sheet.renew
  repeat' split
  all_goals rfl

@[simp] theorem Sheet.recouch_map (x : Sheet) : x.recouch.map = x.map := by
  unfold Sheet.recouch
  split <;> rfl

@[simp] theorem Sheet.length_recouch_tstat (x : Sheet) : x.recouch.tstat.length = x.tstat.length := by
  unfold Sheet.recouch
  split <;> simp

@[simp] theorem newDwell_map (x : Sheet) : (newDwell x).map = x.map := by
  unfold newDwell
  repeat' split
  all_goals simp

@[simp] theorem length_newDwell_tstat (x : Sheet) : (newDwell x).tstat.length = x.tstat.length := by
  unfold newDwell
  repeat' split
  all_goals simp

/-- An installation gives a whole map, whatever stood there. -/
@[simp] theorem length_install_map (x : Sheet) : (install x).map.length = 16 := by simp [install]

@[simp] theorem install_tstat (x : Sheet) : (install x).tstat = x.tstat := by simp [install]

theorem Shaped.markDirty {i w : Nat} (h : Shaped s) : Shaped (s.markDirty i w) := by
  unfold State.markDirty
  extract_lets +onlyGivenNames x
  split
  exacts [h, .ite h h.modSheet]

theorem Shaped.writeRepair {l : List (List Byte)} (h : Shaped s) : Shaped (s.writeRepair l) := h.frame

theorem Shaped.storeEntry {e : List Byte} (h : Shaped s) : Shaped (s.storeEntry e) :=
    .ite h.logErr (.ite (.ite h.logErr h.frame) (.ite h.logErr h.writeRepair))

theorem Shaped.addRepair {kind cause loc detail : Nat} (h : Shaped s) : Shaped (s.addRepair kind cause loc detail) := h.frame.storeEntry

theorem Shaped.retireOne {sh pc cause : Nat} (h : Shaped s) : Shaped (s.retireOne sh pc cause) := .ite h h.modSheet.addRepair.logErr

theorem Shaped.installMap {sh : Nat} {old : Sheet} (h : Shaped s) : Shaped (s.installMap sh old) := by
  refine h.modSheetOf fun x hx => ?_
  extract_lets y
  have hy : y.map.length = 16 ∧ y.tstat.length = 18 := ⟨length_install_map x, by simpa [y] using hx.2⟩
  split
  · exact ⟨by simpa using hy.1, by simpa using hy.2⟩
  · exact hy

theorem Shaped.applyRoles {sh : Nat} {old : Sheet} (h : Shaped s) : Shaped (s.applyRoles sh old) := .ite h.modSheet h.installMap

theorem Shaped.retire {sh : Nat} {l : List (Nat × Nat)} (h : Shaped s) : Shaped (s.retire sh l) :=
    (h.foldl fun ha => ha.retireOne).applyRoles

theorem Shaped.condemn {sh pc cause : Nat} (h : Shaped s) : Shaped (s.condemn sh pc cause) :=
    .ite (h.modSheetOf fun x hx => by split <;> exact hx) h.retire

theorem Shaped.retirePending {sh : Nat} (h : Shaped s) : Shaped (s.retirePending sh) := h.modSheet.foldl fun ha => ha.retireOne

theorem Shaped.fenceCol {sh pc : Nat} {row : Option Nat} (h : Shaped s) : Shaped (s.fenceCol sh pc row) := h.modSheet.frame

theorem Shaped.unfenceCol {sh pc : Nat} {row : Option Nat} (h : Shaped s) : Shaped (s.unfenceCol sh pc row) := h.modSheet

/-! ### Units -/

theorem Shaped.restartQmax {h : Nat} {tiles : List Nat} (hs : Shaped s) : Shaped (s.restartQmax h tiles) := .ite hs hs.frame

theorem Shaped.mbIdentify {m : Master} {p : Payload} (h : Shaped s) : Shaped (mbIdentify m p s).1 := h.checked h

theorem Shaped.mbOpStatus {m : Master} {p : Payload} (h : Shaped s) : Shaped (mbOpStatus m p s).1 := by
  unfold Machine.mbOpStatus
  refine h.checked ?_
  split <;> exact h

theorem Shaped.mbDescribe {m : Master} {p : Payload} (h : Shaped s) : Shaped (mbDescribe m p s).1 := by
  unfold Machine.mbDescribe
  refine h.checked ?_
  extract_lets hd
  split <;> exact h

theorem Shaped.mbResolve {m : Master} {p : Payload} (h : Shaped s) : Shaped (mbResolve m p s).1 := by
  unfold Machine.mbResolve
  refine h.checked ?_
  split
  exacts [.iteFst h h, h]

theorem Shaped.mbChildren {m : Master} {p : Payload} (h : Shaped s) : Shaped (mbChildren m p s).1 := by
  unfold Machine.mbChildren
  refine h.checked ?_
  extract_lets +onlyGivenNames hd
  split <;> exact h

theorem Shaped.mbStatus {m : Master} {p : Payload} (h : Shaped s) : Shaped (mbStatus m p s).1 := by
  unfold Machine.mbStatus
  refine h.checked ?_
  extract_lets +onlyGivenNames hd
  split <;> exact h

theorem Shaped.mbCounters {m : Master} {p : Payload} (h : Shaped s) : Shaped (mbCounters m p s).1 := by
  unfold Machine.mbCounters
  refine h.checked ?_
  extract_lets +onlyGivenNames hd
  split
  exacts [h, h.restartQmax]

theorem Shaped.mbGroupCreate {m : Master} {p : Payload} (h : Shaped s) : Shaped (mbGroupCreate m p s).1 := by
  unfold Machine.mbGroupCreate
  extract_lets +onlyGivenNames n
  refine .iteFst h (h.checked ?_)
  extract_lets +onlyGivenNames ms
  split
  · exact h
  · split
    · exact h
    · split
      exacts [h, .iteFst h h.tookSerial.frame]

theorem Shaped.mbGroupEdit {m : Master} {p : Payload} (h : Shaped s) : Shaped (mbGroupEdit m p s).1 := by
  unfold Machine.mbGroupEdit
  refine h.checked ?_
  extract_lets +onlyGivenNames hd op m
  exact .iteFst h (.iteFst h (.iteFst h (.iteFst h (.iteFst (.iteFst h (.iteFst h (.iteFst h (.iteFst h h.frame)))) (.iteFst h h.frame)))))

theorem Shaped.mbGroupDelete {m : Master} {p : Payload} (h : Shaped s) : Shaped (mbGroupDelete m p s).1 :=
    h.checked (.iteFst h (.iteFst h h.frame.dropHandle))

theorem Shaped.mbStartStatus {m : Master} {p : Payload} (h : Shaped s) : Shaped (mbStartStatus m p s).1 := h.checked h

/-! ### Fabric -/

theorem Shaped.transmit {port : Nat} {b : List Byte} (h : Shaped s) : Shaped (s.transmit port b) :=
    .ite h.emit.portCount (.ite h.modPort.emit.portCount h.modPort)

theorem Shaped.drainPort {port : Nat} (h : Shaped s) : Shaped (s.drainPort port) := h.modPort.foldl fun ha => ha.transmit

theorem Shaped.logFabric {cls port : Nat} {body : List Byte} (h : Shaped s) : Shaped (s.logFabric cls port body) := by
  unfold State.logFabric
  extract_lets +onlyGivenNames k
  split
  exacts [.ite h h.frame.logErr, h.frame.logErr]

theorem Shaped.fwdDrop {port dst : Nat} (h : Shaped s) : Shaped (s.fwdDrop port dst) := .ite h.portCount.logFabric h

theorem Shaped.stale {k : Packet} (h : Shaped s) : Shaped (s.stale k) := by
  unfold State.stale
  extract_lets s1 c
  have hs1 : Shaped s1 := h.logFabric
  clear_value c
  split
  exacts [hs1.ctxCount, hs1]

theorem Shaped.deliverPacket {k : Packet} (h : Shaped s0) : Shaped (s0.deliverPacket k) := .ite (.ite h.frame h.frame.stale) h.frame.frame

theorem Shaped.sendPacket {p : Packet} (h : Shaped s) : Shaped (s.sendPacket p) :=
    .ite h (.ite h.deliverPacket (.ite h (.ite h.fwdDrop h.transmit)))

theorem Shaped.breakLane {p lane cause : Nat} (h : Shaped s) : Shaped (s.breakLane p lane cause) := .ite h h.modPort.addRepair.logFabric

theorem Shaped.trainLane {p lane : Nat} {good : Bool} (h : Shaped s) : Shaped (s.trainLane p lane good) :=
    .ite h.modPort (.ite h.modPort.breakLane h.modPort)

theorem Shaped.trainPort {p : Nat} {lanes : BitVec 4} {peer : W16} {peerPort : Byte} (h : Shaped s) : Shaped (s.trainPort p lanes peer peerPort) :=
    ((h.foldl fun ha => .ite ha ha.trainLane).modPort).drainPort

theorem Shaped.startTraining {p : Nat} (h : Shaped s) : Shaped (s.startTraining p) := h.modPort

theorem Shaped.memberSendAt {id sub rank step attempt : Nat} {body : List Byte} (h : Shaped s) : Shaped (s.memberSendAt id sub rank step attempt body) := by
  unfold State.memberSendAt
  split
  exacts [h, h.modJob.sendPacket]

theorem Shaped.memberSend {id sub rank : Nat} {body : List Byte} (h : Shaped s) : Shaped (s.memberSend id sub rank body) := by
  unfold State.memberSend
  split
  exacts [h, h.memberSendAt]

theorem Shaped.memberSendAll {id sub : Nat} {ranks : List Nat} {body : List Byte} (h : Shaped s) : Shaped (s.memberSendAll id sub ranks body) :=
    h.foldl fun ha => ha.memberSend

theorem Shaped.leaveJob {id cause : Nat} (h : Shaped s) : Shaped (s.leaveJob id cause) := by
  unfold State.leaveJob
  split
  exacts [h, (Shaped.ite h.memberSendAll h).modJob]

/-! ### CtxOps -/

theorem Shaped.modEntry {c k : Nat} {n : W32} {f : Entry → Entry} (h : Shaped s) : Shaped (s.modEntry c k n f) := h.modQueue

theorem Shaped.setOutcome {c k : Nat} {n : W32} {d : Done} (h : Shaped s) : Shaped (s.setOutcome c k n d) := h.modEntry

theorem Shaped.endEntries {c eng : Nat} {sel : Entry → Bool} {d : Done} (h : Shaped s) : Shaped (s.endEntries c eng sel d) :=
    h.foldl fun ha => ha.modQueue

theorem Shaped.stopQueue {c k cause : Nat} (h : Shaped s) : Shaped (s.stopQueue c k cause) := .ite h.modQueue.logErr h.modQueue

theorem Shaped.stopQueues {c cause : Nat} (h : Shaped s) : Shaped (s.stopQueues c cause) := h.foldl fun ha => ha.stopQueue

theorem Shaped.keepMet {c : Nat} {sel : Nat → Bool} (h : Shaped s) : Shaped (s.keepMet c sel) := h.foldl fun ha => ha.modEntry

theorem Shaped.orphanWaits {c : Nat} {sel : Nat → Bool} (h : Shaped s) : Shaped (s.orphanWaits c sel) :=
    h.keepMet.foldl fun ha => ha.setOutcome.ctxCount

theorem Shaped.orphanCounterWaits {pt index : Nat} (h : Shaped s) : Shaped (s.orphanCounterWaits pt index) :=
    h.foldl fun ha => ha.orphanWaits

theorem Shaped.releaseCounter {pt index : Nat} (h : Shaped s) : Shaped (s.releaseCounter pt index) := h.orphanCounterWaits.freeCounter

theorem Shaped.loseCounters {p : Nat} (h : Shaped s) : Shaped (s.loseCounters p) :=
    ((h.foldl fun ha => ha.orphanCounterWaits).foldl fun ha => ha.orphan).modPt

theorem Shaped.markImports {c frm dest : Nat} (h : Shaped s) : Shaped (s.markImports c frm dest) := h.mapCtxs

theorem Shaped.suspendObjects {c : Nat} (h : Shaped s) : Shaped (s.suspendObjects c) := (h.foldl fun ha => ha.keepMet).markImports

theorem Shaped.resumeObjects {c : Nat} (h : Shaped s) : Shaped (s.resumeObjects c) :=
    ((h.foldl fun ha => ha.modPt.ctxCount).modCtx).markImports

theorem Shaped.endStops {c : Nat} (h : Shaped s) : Shaped (s.endStops c) := (h.foldl fun ha => ha.setOutcome).modCtx

theorem Shaped.endRun {c reason status : Nat} (h : Shaped s) : Shaped (s.endRun c reason status) := by
  unfold State.endRun
  split
  exacts [h.endStops, h.setOutcome.modCtx.endStops]

theorem Shaped.orphanCovers {c : Nat} (h : Shaped s) : Shaped (s.orphanCovers c) := h.endEntries

theorem Shaped.applyFences {sh : Nat} {commit : Bool} (h : Shaped s) : Shaped (s.applyFences sh commit) :=
    .ite h ((h.foldl fun ha => .ite (.ite ha ha.fenceCol) ha.unfenceCol).modSheet)

theorem Shaped.finishFences (h : Shaped s) : Shaped s.finishFences := h.foldl fun ha => .ite ha.readyOp ha

theorem Shaped.installPoint {commit : Bool} {sh : Nat} (h : Shaped s) : Shaped (s.installPoint commit sh) := by
  unfold State.installPoint
  extract_lets s1 due
  have hs1 : Shaped s1 := h.applyFences.retirePending
  exact ((Shaped.ite hs1.installMap hs1).modSheet).finishFences

theorem Shaped.installPoints {commit : Bool} {pts : List Nat} (h : Shaped s) : Shaped (s.installPoints commit pts) :=
    h.foldl fun ha => ha.foldl fun ha1 => ha1.installPoint

theorem Shaped.recouch {pts : List Nat} (h : Shaped s) : Shaped (s.recouch pts) := h.foldl fun ha => ha.foldl fun ha1 => ha1.modSheet

theorem Shaped.release {c : Nat} (h : Shaped s) : Shaped (s.release c) := h.modCtx.installPoints.recouch

theorem Shaped.unconfigure {pts : List Nat} (h : Shaped s) : Shaped (s.unconfigure pts) := h.frame

theorem Shaped.orphanWork {c : Nat} (h : Shaped s) : Shaped (s.orphanWork c) := h.endEntries.endEntries.endEntries.modCtx

theorem Shaped.faultCtx {c reason status : Nat} (h : Shaped s) : Shaped (s.faultCtx c reason status) := by
  unfold State.faultCtx
  extract_lets +onlyGivenNames x
  refine .ite h ?_
  extract_lets s1 s2 s3 s4
  have hs1 : Shaped s1 := h.endRun.modCtx
  have hs2 : Shaped s2 := by unfold s2; split; exacts [hs1.readyOp, hs1]
  have hs3 : Shaped s3 := hs2.orphanCovers.orphanWork
  have hs4 : Shaped s4 := hs3.resumeObjects
  split
  exacts [hs4.leaveJob, hs4]

/-! ### Container -/

theorem Shaped.judge {key image : List Byte} {v : Verdict} (h : Shaped s) : Shaped (s.judge key image v) := .ite h h.frame

theorem Shaped.wrote {i : Nat} (h : Shaped s) : Shaped (s.wrote i) := .ite h.modSheet h

theorem Shaped.writeImages {c : Nat} {gen : BitVec 4} {l : List TileRec} (h : Shaped s) : Shaped (s.writeImages c gen l) := by
  unfold State.writeImages
  exact h.foldl fun ha => by split; exacts [ha, ha.wrote.modTile]

theorem Shaped.writePrologue {c : Nat} {l : List TileRec} (h : Shaped s) : Shaped (s.writePrologue c l) := by
  unfold State.writePrologue
  exact h.foldl fun ha => by split; exacts [ha, ha.wrote.modTile]

theorem Shaped.writeOperands {c : Nat} {l : List TileRec} (h : Shaped s) : Shaped (s.writeOperands c l) := by
  unfold State.writeOperands
  exact h.foldl fun ha => by split; exacts [ha, ha.wrote.modTile]

theorem Shaped.loadTiles {c : Nat} {p : Prog} (h : Shaped s) : Shaped (s.loadTiles c p) := h.unconfigure.writeImages.writePrologue.modCtx

theorem Shaped.alignSprog {c : Nat} (h : Shaped s) : Shaped (s.alignSprog c) := h.foldl fun ha => ha.modSheet

/-! ### Contexts -/

theorem Shaped.calRecord {c step outcome cause : Nat} {overdue : Bool} {left : List (Nat × Nat)} (h : Shaped s) : Shaped (s.calRecord c step outcome cause overdue left) :=
    h.copyArrives.frame

@[simp] theorem Context.noProgram_queues (x : Context) : x.noProgram.queues = x.queues := rfl

theorem Shaped.withCtx {p : Payload} {k : Nat → State × Resp} (h : Shaped s) (hk : Shaped (k (arg p 0 1)).1) :
    Shaped (withCtx p s k).1 := .iteFst h hk

theorem Shaped.mbCtxCreate {m : Master} {p : Payload} (h : Shaped s) : Shaped (mbCtxCreate m p s).1 := by
  unfold Machine.mbCtxCreate
  refine h.checked ?_
  extract_lets +onlyGivenNames n
  refine .iteFst h (.iteFst h ?_)
  split
  exacts [h, h.tookSerial.modCtx]

theorem Shaped.destroyCtx {c : Nat} (h : Shaped s) : Shaped (s.destroyCtx c) := by
  unfold State.destroyCtx
  extract_lets +onlyGivenNames x hd s1 s2 s3
  have hs1 : Shaped s1 := h.stopQueues
  have hs2 : Shaped s2 := hs1.frame.closeSessions
  have hs3 : Shaped s3 := hs2.foldl fun ha => .ite ha.releaseCounter ha
  exact hs3.modCtx.dropHandle.forget

theorem Shaped.mbCtxDestroy {m : Master} {p : Payload} (h : Shaped s) : Shaped (mbCtxDestroy m p s).1 :=
    h.checked (h.withCtx (.iteFst h h.destroyCtx))

theorem Shaped.mbCtxAlloc {m : Master} {p : Payload} (h : Shaped s) : Shaped (mbCtxAlloc m p s).1 := by
  unfold Machine.mbCtxAlloc
  refine h.checked (h.withCtx ?_)
  extract_lets +onlyGivenNames gran nch pts len
  refine .iteFst h (.iteFst h (.iteFst h (.iteFst h (.iteFst h (.iteFst h ?_)))))
  extract_lets +onlyGivenNames chs
  split
  exacts [h, h.modCtx.undefine]

theorem Shaped.freeLeftovers {c : Nat} (h : Shaped s) : Shaped (s.freeLeftovers c) := by
  unfold State.freeLeftovers
  extract_lets x owned pairs left
  exact h.foldl fun ha => by split; exacts [.ite ha.releaseCounter.modCtx ha, ha]

theorem Shaped.mbCtxFree {m : Master} {p : Payload} (h : Shaped s) : Shaped (mbCtxFree m p s).1 :=
    h.checked (h.withCtx (.iteFst h h.freeLeftovers.unconfigure.modCtx.release.forget))

theorem Shaped.mbCtxBind {m : Master} {p : Payload} (h : Shaped s) : Shaped (mbCtxBind m p s).1 := by
  unfold Machine.mbCtxBind
  refine h.checked (h.withCtx ?_)
  extract_lets x pts
  refine .iteFst (.iteFst h h.modCtx.release) (.iteFst h (.iteFst h ?_))
  split
  exacts [h, h.modCtx.recouch]

theorem Shaped.mbCtxSuspend {m : Master} {p : Payload} (h : Shaped s) : Shaped (mbCtxSuspend m p s).1 :=
    h.checked (h.withCtx (.iteFst h (h.background fun ha => ha.modCtx.orphanCovers.suspendObjects)))

theorem Shaped.suspensionSaved {c : Nat} (h : Shaped s) : Shaped (suspensionSaved c s) := .ite h h.unconfigure.modCtx.release.finishOp?

theorem Shaped.mbCtxResume {m : Master} {p : Payload} (h : Shaped s) : Shaped (mbCtxResume m p s).1 := by
  unfold Machine.mbCtxResume
  refine h.checked (h.withCtx ?_)
  extract_lets +onlyGivenNames x pts
  refine .iteFst h ?_
  split
  · exact h
  · refine h.background fun ha => ?_
    extract_lets +onlyGivenNames t1
    have ht1 : Shaped t1 := ha.modCtx.recouch
    split
    · exact ht1
    · extract_lets t2 t3
      have ht2 : Shaped t2 := ht1.loadTiles
      have ht3 : Shaped t3 := ht2.foldl fun ha1 => by split; exacts [ha1.modTile, ha1]
      exact ht3.alignSprog.modCtx

theorem Shaped.resumptionFinished {c : Nat} (h : Shaped s) : Shaped (resumptionFinished c s) := .ite h h.modCtx.resumeObjects.finishOp?

theorem Shaped.mbQueueConfig {m : Master} {p : Payload} (h : Shaped s) : Shaped (mbQueueConfig m p s).1 := by
  unfold Machine.mbQueueConfig
  refine h.checked (h.withCtx ?_)
  extract_lets +onlyGivenNames e q loc base n v
  exact .iteFst h (.iteFst h (.iteFst h (.iteFst h (.iteFst h (.iteFst h (.iteFst h (.iteFst h h.modQueue)))))))

theorem Shaped.mbProgLoad {m : Master} {p : Payload} (h : Shaped s) : Shaped (mbProgLoad m p s).1 := by
  unfold Machine.mbProgLoad
  refine h.checked (h.withCtx ?_)
  extract_lets x src a n al
  refine .iteFst h (.iteFst h (.iteFst h (.iteFst h (.iteFst h (.iteFst h ?_)))))
  split
  exacts [h, h.background fun ha => ha.modCtx]

theorem Shaped.reelIoError {write : Bool} {nvme lba : Nat} (h : Shaped s) : Shaped (s.reelIoError write nvme lba) := h.logErr

theorem Shaped.reelIoOpen {write : Bool} {lba : Nat} (h : Shaped s) : Shaped (s.reelIoOpen write lba) := h.frame.reelIoError

theorem Shaped.progLoadFinished {c : Nat} {image : ReadResult} {v : Verdict} (h : Shaped s0) : Shaped (progLoadFinished c image v s0) := by
  unfold Machine.progLoadFinished
  extract_lets +onlyGivenNames x
  split
  · extract_lets +onlyGivenNames s fail
    have hs : Shaped s := by
      unfold s; split
      · extract_lets y
        cases s0.contKey y
        exacts [h, h.judge]
      · exact h
    split
    · split
      exacts [hs.modCtx.finishOp?, .ite h hs.modCtx.recouch.loadTiles.writeOperands.finishOp?]
    · exact .ite hs.modCtx.finishOp?.reelIoOpen hs.modCtx.finishOp?
  · exact h

theorem Shaped.mbProgUnload {m : Master} {p : Payload} (h : Shaped s) : Shaped (mbProgUnload m p s).1 := by
  unfold Machine.mbProgUnload
  refine h.checked (h.withCtx ?_)
  extract_lets +onlyGivenNames x
  refine .iteFst h (h.background fun ha => ?_)
  extract_lets sm pairs ids left t1 t2 t3 t4
  have ht1 : Shaped t1 := ha.orphanCovers.endEntries
  have ht2 : Shaped t2 := ht1.endEntries
  have ht3 : Shaped t3 := .ite ht2.calRecord ht2
  have ht4 : Shaped t4 := ht3.unconfigure.modCtx
  exact ht4.readyOp

theorem Shaped.mbProgInfo {m : Master} {p : Payload} (h : Shaped s) : Shaped (mbProgInfo m p s).1 := by
  unfold Machine.mbProgInfo
  refine h.checked (h.withCtx ?_)
  extract_lets +onlyGivenNames x
  split <;> exact h

/-! ### Resets -/

theorem Shaped.breakChan {ch cause group : Nat} (h : Shaped s) : Shaped (s.breakChan ch cause group) := by
  unfold State.breakChan
  refine .ite h ?_
  extract_lets s1 s2
  have hs1 : Shaped s1 := h.modChan.addRepair
  have hs2 : Shaped s2 := hs1.logErr
  refine hs2.foldl fun ha => ?_
  split
  exacts [.ite ha.faultCtx ha, ha]

theorem Shaped.abandonDwell {sh : Nat} (h : Shaped s) : Shaped (s.abandonDwell sh) := h.modSheet

theorem Shaped.darken {p : Nat} (h : Shaped s) : Shaped (s.darken p) := h.frame.loseCounters.foldl fun ha => ha.abandonDwell

theorem Shaped.selfRefresh {p : Nat} {b : Bool} (h : Shaped s) : Shaped (s.selfRefresh p b) := h.foldl fun ha => ha.modChan

theorem Shaped.dwellsDue {p : Nat} (h : Shaped s) : Shaped (s.dwellsDue p) := h.foldl fun ha => ha.modSheet

theorem Shaped.setRail {p : Nat} {on : Bool} (h : Shaped s) : Shaped (s.setRail p on) := .ite h.modPt h.modPt.emit

theorem Shaped.wakePt {p : Nat} (h : Shaped s) : Shaped (s.wakePt p) := h.setRail.modPt.selfRefresh.dwellsDue

theorem Shaped.unidle {p : Nat} (h : Shaped s) : Shaped (s.unidle p) := h.modPt

theorem Shaped.offPt {p : Nat} {byCmd : Bool} (h : Shaped s) : Shaped (s.offPt p byCmd) := h.darken.selfRefresh.setRail.modPt

theorem Shaped.sleepPt {p : Nat} (h : Shaped s) : Shaped (s.sleepPt p) := ((h.foldl fun ha => ha.abandonDwell).setRail).modPt

theorem Shaped.softRepair {sh pc : Nat} {f : BistFail} (h : Shaped s) : Shaped (s.softRepair sh pc f) := h.modTile.addRepair.sheetCount

theorem Shaped.bistFail {sh pc : Nat} {f : BistFail} {cond : BistCond} {origin : Nat} (h : Shaped s) : Shaped (s.bistFail sh pc f cond origin) :=
    h.sheetCount.logErr

theorem Shaped.foundBist {cols : List (Nat × Nat)} {n : Nat} {fails : List ColFail} (h : Shaped s) : Shaped (s.foundBist cols n fails) :=
    h.foldl fun ha => ha.ranBist

theorem Shaped.windowCols {shs : List Nat} {cols : List ColFail} {cond : BistCond} (h : Shaped s) : Shaped (s.windowCols shs cols cond) :=
    h.foundBist.foldl fun ha => .ite ha (.ite ha.softRepair ha.bistFail.retireOne)

theorem Shaped.windowLinks {shs : List Nat} {d2d : List D2dFail} (h : Shaped s) : Shaped (s.windowLinks shs d2d) :=
    (h.foldl fun ha => ha.modSheet).foldl fun ha => .ite ha.addRepair ha.modSheet

theorem Shaped.resetCtx {c p : Nat} (h : Shaped s) : Shaped (s.resetCtx c p) := .ite h.faultCtx.modCtx h.faultCtx

theorem Shaped.beginReset {p op requester : Nat} (h : Shaped s) : Shaped (s.beginReset p op requester) := by
  unfold State.beginReset
  extract_lets s1 s2 s3 s4
  have hs2 : Shaped s2 := h.modPt.logErr
  have hs3 : Shaped s3 := by unfold s3; split; exacts [hs2.resetCtx, hs2]
  have hs4 : Shaped s4 := hs3.foldl fun ha => ha.retirePending
  exact hs4.darken.selfRefresh

theorem Shaped.applyMode {mode u value : Nat} {lanes : BitVec 4} (h : Shaped s) : Shaped (s.applyMode mode u value lanes) :=
    .ite h.modPt (.ite h.modPt h.modPort.trainPort)

theorem Shaped.modeApplied {mode : Nat} {us : List Nat} {bad : Bool} (h : Shaped s) : Shaped (s.modeApplied mode us bad) := by
  unfold State.modeApplied
  extract_lets +onlyGivenNames upd _ s1
  split
  exacts [h.frame, h.frame.frame.finishOp.raise]

theorem Shaped.modesAfterReset {p : Nat} (h : Shaped s) : Shaped (s.modesAfterReset p) := h.foldl fun ha => .ite ha.applyMode.modeApplied ha

theorem Shaped.perfAtCommit {c : Nat} (h : Shaped s) : Shaped (s.perfAtCommit c) := by
  unfold State.perfAtCommit
  split
  · exact h
  · split
    exacts [h, .ite h ((h.foldl fun ha => ha.applyMode).modeApplied)]

theorem Sheet.Shaped.windowEnd {roles : Sheet → Sheet} {x : Sheet} : (windowEnd roles x).Shaped :=
  ⟨by simp [Machine.windowEnd], by simp [Machine.windowEnd]⟩

theorem Shaped.endReset {p : Nat} {before : List Sheet} {broke : List Nat} (h : Shaped s) : Shaped (s.endReset p before broke) := by
  unfold State.endReset
  extract_lets s1 s2 s3 s4 x s5 s6
  have hs1 : Shaped s1 := h.foldl fun ha => ha.breakChan
  have hs2 : Shaped s2 := hs1.foldl fun ha => ha.modChan
  have hs3 : Shaped s3 := hs2.foldl fun ha => ha.modSheetOf fun _ _ => .windowEnd
  have hs5 : Shaped s5 := .ite hs3.modPt hs3.modPt.wakePt
  have hs6 : Shaped s6 := hs5.modesAfterReset
  exact .ite hs6.flushSessions hs6

theorem Shaped.partitionResetEnd {op : Nat} {cols : List ColFail} {d2d : List D2dFail} {chans : List Ch} {cond : BistCond} (h : Shaped s) : Shaped (partitionResetEnd op cols d2d chans cond s) := by
  unfold Machine.partitionResetEnd
  extract_lets +onlyGivenNames ps
  refine .ite h ?_
  extract_lets before s1 s2 s3
  have hs1 : Shaped s1 := h.windowCols
  have hs2 : Shaped s2 := hs1.windowLinks
  have hs3 : Shaped s3 := hs2.foldl fun ha => ha.endReset
  exact .ite hs3 hs3.finishOp

theorem Shaped.verbChecks {h : Nat} {legal : UnitRef → Bool} {k : List UnitRef → State × Resp} (hs : Shaped s)
    (hk : Shaped (k (s.verbUnits h)).1) : Shaped (verbChecks s h legal k).1 :=
  .iteFst hs (.iteFst hs (.iteFst hs hk))

theorem Shaped.acceptWarm {by' : Nat} (h : Shaped s) : Shaped (s.acceptWarm by') := by
  have hs := h.mapCtxs (f := fun x => { x with hold := .stopped })
  exact hs.frame

theorem Shaped.mbReset {m : Master} {p : Payload} (h : Shaped s) : Shaped (mbReset m p s).1 := by
  unfold Machine.mbReset
  refine h.checked ?_
  extract_lets +onlyGivenNames hd who
  refine .iteFst (.iteFst h (h.background fun ha => ha.acceptWarm)) (h.verbChecks ?_)
  extract_lets +onlyGivenNames early
  split
  · exact h
  · refine h.background fun ha => ?_
    extract_lets t1
    have ht1 : Shaped t1 := ha.foldl fun ha1 => .ite ha1.modPt ha1.beginReset
    exact .ite ht1.finishOp ht1

theorem Shaped.judgeImage {b : List Byte} {v : Verdict} (h : Shaped s) : Shaped (s.judgeImage b v) := h.judge

theorem Shaped.runImage {b : List Byte} (h : Shaped s) : Shaped (s.runImage b) := h.frame

theorem Shaped.readyUp (h : Shaped s) : Shaped s.readyUp := h.frame.raise.cutCommands

theorem Shaped.fwUp (h : Shaped s) : Shaped s.fwUp := (Shaped.ite h.frame h).readyUp

theorem Shaped.coreOff {core cause : Nat} (h : Shaped s) : Shaped (s.coreOff core cause) := .ite h h.frame.addRepair.logErr

theorem Shaped.beginRestart {op : Option Nat} {cause : Nat} (h : Shaped s) : Shaped (s.beginRestart op cause) := h.frame.logErr

theorem Shaped.endRestart {b : List Byte} (h : Shaped s) : Shaped (s.endRestart b) := by
  unfold State.endRestart
  split
  exacts [h, h.runImage.frame.fwUp.finishOp?]

theorem Shaped.mbFwRestart {m : Master} {p : Payload} (h : Shaped s) : Shaped (mbFwRestart m p s).1 :=
    h.checked (.iteFst h (h.background fun ha => ha.beginRestart))

theorem Shaped.fwRestartEnd {fails : List (Fin 16)} {v : Verdict} (h : Shaped s) : Shaped (fwRestartEnd fails v s) := by
  unfold Machine.fwRestartEnd
  refine .ite h ?_
  extract_lets +onlyGivenNames s1
  have hs1 : Shaped s1 := h.judgeImage.foldl fun ha => ha.coreOff
  exact .ite hs1.endRestart hs1.frame.readyUp

theorem Shaped.mbModeSet {m : Master} {p : Payload} (h : Shaped s) : Shaped (mbModeSet m p s).1 := by
  unfold Machine.mbModeSet
  refine h.checked ?_
  extract_lets +onlyGivenNames mode scope value
  refine .iteFst h (.iteFst h ?_)
  split
  · exact h
  · extract_lets +onlyGivenNames us
    split
    · exact h
    · refine h.background fun ha => ?_
      extract_lets same c _ t1
      have ht1 : Shaped t1 := ha.frame.modeApplied
      split
      exacts [.ite ht1.startTraining ht1, ht1]

theorem Shaped.modeUnitApplied {mode : Nat} {lanes : BitVec 4} (h : Shaped s) : Shaped (modeUnitApplied mode lanes s) := by
  unfold Machine.modeUnitApplied
  split
  · exact h
  · split
    · exact h
    · extract_lets +onlyGivenNames waits
      refine .ite h ?_
      extract_lets s1 s2
      have hs1 : Shaped s1 := h.applyMode
      have hs2 : Shaped s2 := hs1.modeApplied
      split
      · refine .ite ?_ hs2
        split
        exacts [hs2.startTraining, hs2]
      · exact hs2

theorem Shaped.mbModeGet {m : Master} {p : Payload} (h : Shaped s) : Shaped (mbModeGet m p s).1 := by
  unfold Machine.mbModeGet
  refine h.checked ?_
  extract_lets +onlyGivenNames mode scope
  refine .iteFst h ?_
  split
  · exact h
  · extract_lets +onlyGivenNames us
    split <;> exact h

theorem Shaped.powerDefault {p : Nat} (h : Shaped s) : Shaped (s.powerDefault p) := .ite h.offPt (.ite h.sleepPt.selfRefresh h.wakePt)

theorem Shaped.leaveM3 {op : Option Nat} (h : Shaped s) : Shaped (s.leaveM3 op) := by
  have hs := h.mapSheets (f := fun x => { ({} : Sheet) with counters := x.counters }) fun _ _ => ⟨rfl, rfl⟩
  obtain ⟨hp, hc, hs, hx, hf, -, hq, hy⟩ := hs
  exact ⟨hp, by simpa [State.leaveM3] using hc, hs, hx, by simpa [State.leaveM3] using hf, List.length_replicate, hq, hy⟩

theorem Shaped.mbPowerSet {m : Master} {p : Payload} (h : Shaped s) : Shaped (mbPowerSet m p s).1 := by
  unfold Machine.mbPowerSet
  refine h.checked ?_
  extract_lets +onlyGivenNames hd st
  refine .iteFst h ?_
  split
  · extract_lets +onlyGivenNames held
    refine .iteFst (h.background fun ha => ha.finishOp) ?_
    split
    exacts [h, h.background fun ha => .ite ha.leaveM3 ha.frame]
  · refine .iteFst h ?_
    extract_lets +onlyGivenNames us
    refine .iteFst h ?_
    extract_lets ps todo
    split
    exacts [h, .iteFst h (h.background fun ha => .ite ha.finishOp ha.modOp)]

theorem Shaped.portsDown (h : Shaped s) : Shaped s.portsDown := h.foldl fun ha => ha.modPort

theorem Shaped.takeModPwr {t : ModPwr} (h : Shaped s) : Shaped (s.takeModPwr t) := by
  unfold State.takeModPwr
  split
  · extract_lets s1 _ s2
    have hs1 : Shaped s1 := h.foldl fun ha => ha.offPt
    clear_value s1
    have hs2 : Shaped s2 := hs1.frame
    exact .ite hs2.portsDown hs2
  · extract_lets +onlyGivenNames s1
    have hs1 : Shaped s1 := (h.foldl fun ha => ha.selfRefresh).portsDown.emit
    exact hs1.frame (by simp)
  · exact (h.frame.foldl fun ha => ha.powerDefault).foldl fun ha => .ite ha.startTraining ha

theorem Shaped.takePtPwr {st p : Nat} (h : Shaped s) : Shaped (s.takePtPwr st p) :=
    .ite h (.ite h.wakePt (.ite (.ite h.sleepPt.selfRefresh h.sleepPt) (.ite h h.offPt)))

theorem Shaped.powerStateReached {op : Nat} (h : Shaped s) : Shaped (powerStateReached op s) := by
  unfold Machine.powerStateReached
  split
  · exact .ite (.ite h.frame.finishOp h.frame.takeModPwr.finishOp) h
  · split
    exacts [h, .ite h ((h.foldl fun ha => ha.takePtPwr).finishOp)]

theorem Shaped.fenceUnit {op : Nat} {u : UnitRef} (h : Shaped s) : Shaped (s.fenceUnit op u) := by
  unfold State.fenceUnit
  split
  · exact h.modPt.foldl fun ha => ha.modSheet.abandonDwell
  · exact h.modSheet.abandonDwell
  · exact .ite h.modSheet h.fenceCol.applyRoles
  · exact .ite h.modSheet h.fenceCol.applyRoles
  · exact h

theorem Shaped.mbFence {m : Master} {p : Payload} (h : Shaped s) : Shaped (mbFence m p s).1 := by
  unfold Machine.mbFence
  refine h.checked ?_
  extract_lets hd
  refine h.verbChecks ?_
  split
  · exact h
  · exact h.background fun ha => .ite ha.finishOp ((ha.foldl fun ha1 => ha1.fenceUnit).finishFences)

theorem Shaped.mbUnfence {m : Master} {p : Payload} (h : Shaped s) : Shaped (mbUnfence m p s).1 := by
  unfold Machine.mbUnfence
  refine h.checked ?_
  extract_lets hd
  refine h.verbChecks ?_
  split
  exacts [h, h.background fun ha => .ite ha.finishOp ha.modOp]

theorem Shaped.unfenceUnit {op : Nat} {u : UnitRef} (h : Shaped s) : Shaped (s.unfenceUnit op u) := by
  unfold State.unfenceUnit
  split
  exacts [h.modPt.foldl fun ha => ha.modSheet, h.modSheet, h.modSheet, h.modSheet, h]

theorem Shaped.beginTest {us : List UnitRef} {cols : List (Nat × Nat)} (h : Shaped s) : Shaped (s.beginTest us cols) :=
    (h.frame.foldl fun ha => ha.abandonDwell).foldl fun ha => ha.modSheet

theorem Shaped.mbTest {m : Master} {p : Payload} (h : Shaped s) : Shaped (mbTest m p s).1 := by
  unfold Machine.mbTest
  refine h.checked ?_
  extract_lets +onlyGivenNames hd kind
  refine .iteFst h (h.verbChecks (.iteFst h ?_))
  split
  exacts [h, h.background fun ha => .ite ha.finishOp ha.modOp.beginTest]

theorem Shaped.testFails {fails : List ColFail} {cond : BistCond} (h : Shaped s) : Shaped (s.testFails fails cond) :=
    h.foldl fun ha => .ite ha.softRepair ha.bistFail.condemn

theorem Shaped.testFinished {op : Nat} {fails : List ColFail} {cond : BistCond} (h : Shaped s) : Shaped (testFinished op fails cond s) := by
  unfold Machine.testFinished
  split
  · exact h
  · extract_lets +onlyGivenNames mine
    refine .ite h (.ite (((((Shaped.ite h.foundBist h).testFails).modOp).foldl fun ha => .ite ha.modSheet ha).finishOp) (.ite ?_ h))
    extract_lets us s1 s2 shs s3 s4
    have hs1 : Shaped s1 := (h.foundBist.foldl fun ha => ha.unfenceUnit).testFails
    have hs3 : Shaped s3 := hs1.modOp.foldl fun ha => .ite ha.installPoint ha
    have hs4 : Shaped s4 := hs3.foldl fun ha => ha.modSheet
    exact hs4.finishFences

theorem Shaped.mbTestResult {m : Master} {p : Payload} (h : Shaped s) : Shaped (mbTestResult m p s).1 := by
  unfold Machine.mbTestResult
  refine h.checked ?_
  split
  exacts [.iteFst h h, h]

/-! ### Logs -/

theorem Shaped.mbLedgerRead {m : Master} {p : Payload} (h : Shaped s) : Shaped (mbLedgerRead m p s).1 := h.checked (.iteFst h h)

theorem Shaped.mbErrlogRead {m : Master} {p : Payload} (h : Shaped s) : Shaped (mbErrlogRead m p s).1 := h.checked (.iteFst h h)

theorem Shaped.pumpStream (h : Shaped s) : Shaped s.pumpStream := by
  unfold State.pumpStream
  split
  exacts [(h.foldl fun ha => ha.emit).frame, h]

theorem Shaped.aimDump {d : Dumping} (h : Shaped s) : Shaped (s.aimDump d) := .ite h.frame.pumpStream h.frame

theorem Shaped.startDump {op : Option Nat} {trigger scope : Nat} {pts : List Nat} (h : Shaped s) : Shaped (s.startDump op trigger scope pts) := by
  unfold State.startDump
  refine .ite h.finishOp? ?_
  extract_lets id s1
  split
  exacts [h.frame.logErr.finishOp?, h.frame.aimDump]

theorem Shaped.dumpPartitionReadDone {p : Nat} (h : Shaped s) : Shaped (dumpPartitionReadDone p s) := by
  unfold Machine.dumpPartitionReadDone
  split
  · exact h
  · refine .ite h ?_
    extract_lets s1
    split
    exacts [.ite h.frame.beginReset h.frame, h.frame]

theorem Shaped.endReading (h : Shaped s) : Shaped s.endReading := by
  unfold State.endReading
  split
  exacts [h, h.foldl fun ha => ha.dumpPartitionReadDone]

theorem Shaped.dumpWritten (h : Shaped s) : Shaped (dumpWritten s) := by
  unfold Machine.dumpWritten
  split
  exacts [h, .ite h ((((Shaped.ite h.wakeChans h).frame).logErr).finishOp?)]

theorem Shaped.dumpTargetFailed (h : Shaped s) : Shaped (dumpTargetFailed s) := by
  unfold Machine.dumpTargetFailed
  split
  · exact h
  · refine .ite h ?_
    split
    exacts [h.aimDump, h.endReading.frame.frame.logErr.finishOp?]

theorem Shaped.dumpUnitTimeout {h off : Nat} (hs : Shaped s) : Shaped (dumpUnitTimeout h off s) := by
  unfold Machine.dumpUnitTimeout
  split
  exacts [hs, .ite hs hs.frame]

theorem Shaped.mbDumpTrigger {m : Master} {p : Payload} (h : Shaped s) : Shaped (mbDumpTrigger m p s).1 := by
  unfold Machine.mbDumpTrigger
  refine h.checked ?_
  extract_lets +onlyGivenNames hd
  split
  · exact h
  · exact .iteFst h (.iteFst h (.iteFst h (.iteFst h (h.background fun ha => ha.startDump))))

theorem Shaped.mbDumpInfo {m : Master} {p : Payload} (h : Shaped s) : Shaped (mbDumpInfo m p s).1 := h.checked h

theorem Shaped.mbDumpRead {m : Master} {p : Payload} (h : Shaped s) : Shaped (mbDumpRead m p s).1 := by
  unfold Machine.mbDumpRead
  refine h.checked ?_
  extract_lets off n
  refine .iteFst h ?_
  split
  exacts [h, .iteFst h (.ite h.wakeChans h)]

theorem Shaped.hostDumpRead {p : Payload} (h : Shaped s) : Shaped (hostDumpRead p s) :=
    .ite (.ite h h.submit.frame) (h.hostCmd Shaped.mbDumpRead)

theorem Shaped.mbDumpClear {m : Master} {p : Payload} (h : Shaped s) : Shaped (mbDumpClear m p s).1 := h.checked (.iteFst h.frame h)

theorem Shaped.putSetting {id : Nat} {v : List Byte} (h : Shaped s) : Shaped (s.putSetting id v) := h.frame

theorem Shaped.mbSettingsGet {m : Master} {p : Payload} (h : Shaped s) : Shaped (mbSettingsGet m p s).1 := h.checked (.iteFst h h)

theorem Shaped.mbSettingsSet {m : Master} {p : Payload} (h : Shaped s) : Shaped (mbSettingsSet m p s).1 := by
  unfold Machine.mbSettingsSet
  extract_lets id n v
  refine .iteFst h (.iteFst h (.iteFst h (.iteFst h (.iteFst ?_ (.iteFst h h.putSetting)))))
  split
  · exact h
  · dsimp only
    exact h.putSetting.foldl fun ha => .ite ha ha.startTraining

/-! ### Firmware -/

theorem Shaped.endStage {n next : Nat} (h : Shaped s) : Shaped (s.endStage n next) := h.frame (by simp)

theorem Shaped.bootDone {b : List Byte} {fromFlash : Bool} (h : Shaped s) : Shaped (s.bootDone b fromFlash) := by
  unfold State.bootDone
  extract_lets +onlyGivenNames s1 bad _ s2 _ _ _ s3
  have hs1 : Shaped s1 := h.runImage
  have hs2 : Shaped s2 := hs1.frame
  have hs3 : Shaped s3 := hs2.frame
  exact hs3.frame.endStage

theorem Shaped.writeFlash {b : List Byte} (h : Shaped s) : Shaped (s.writeFlash b) := h.frame

theorem Shaped.mbFwInfo {m : Master} {p : Payload} (h : Shaped s) : Shaped (mbFwInfo m p s).1 := h.checked h

theorem Shaped.mbFwStageBegin {m : Master} {p : Payload} (h : Shaped s) : Shaped (mbFwStageBegin m p s).1 :=
    h.checked (.iteFst h (.iteFst h h.frame))

theorem Shaped.mbFwStageData {m : Master} {p : Payload} (h : Shaped s) : Shaped (mbFwStageData m p s).1 :=
    .iteFst h (.iteFst h (.iteFst h h.frame))

theorem Shaped.beginCommit {op : Nat} {restart reel : Bool} (h : Shaped s) : Shaped (s.beginCommit op restart reel) := h.frame

theorem Shaped.mbFwStageCommit {m : Master} {p : Payload} (h : Shaped s) : Shaped (mbFwStageCommit m p s).1 :=
    h.checked (.iteFst h (.iteFst h (h.background fun ha => ha.beginCommit)))

theorem Shaped.pldmReport {code result : Nat} (h : Shaped s) : Shaped (s.pldmReport code result) := .ite h.emit h

theorem Shaped.fwCommitFinished {v : Verdict} (h : Shaped t) : Shaped (fwCommitFinished v t) := by
  unfold Machine.fwCommitFinished
  split
  · exact h
  · extract_lets +onlyGivenNames b s _ idle
    have hs : Shaped s := h.judgeImage
    split
    · exact .ite hs.frame.pldmReport hs.frame.pldmReport.finishOp
    · exact .ite hs.frame.writeFlash.frame.beginRestart hs.frame.writeFlash.frame.pldmReport.finishOp
    · refine .ite hs.frame.pldmReport.finishOp ?_
      extract_lets s0 _ s1
      have hs0 : Shaped s0 := hs.pldmReport.pldmReport
      have hs1 : Shaped s1 := hs0.frame.writeFlash
      exact .ite hs1.finishOp.endRestart hs1.finishOp.bootDone
    · exact hs

theorem Shaped.mbFwRecoveryLoad {m : Master} {p : Payload} (h : Shaped s) : Shaped (mbFwRecoveryLoad m p s).1 := by
  unfold Machine.mbFwRecoveryLoad
  refine h.checked ?_
  extract_lets src
  refine .iteFst h ?_
  split
  · exact .iteFst h (.iteFst h (h.background fun ha => ha.beginCommit))
  · exact .iteFst h (.iteFst h (.iteFst h (.iteFst h (h.background fun ha => ha.beginCommit))))

theorem Shaped.mbFwSvnAdvance {m : Master} {p : Payload} (h : Shaped s) : Shaped (mbFwSvnAdvance m p s).1 :=
    h.checked (.iteFst h (h.background fun ha => ha.frame.readyOp))

theorem Shaped.mbKeyEnrol {m : Master} {p : Payload} (h : Shaped s) : Shaped (mbKeyEnrol m p s).1 :=
    .iteFst h (h.checked (.iteFst h (.iteFst h (.iteFst h h.frame))))

theorem Shaped.mbKeyClear {m : Master} {p : Payload} (h : Shaped s) : Shaped (mbKeyClear m p s).1 := by
  unfold Machine.mbKeyClear
  refine .iteFst h (h.checked ?_)
  extract_lets +onlyGivenNames k
  refine .iteFst h (.iteFst h ?_)
  split
  exacts [h, h.frame]

theorem Shaped.mbKeyList {m : Master} {p : Payload} (h : Shaped s) : Shaped (mbKeyList m p s).1 := h.checked h

/-! ### Queues -/

theorem Shaped.mbDoneClear (h : Shaped s) : Shaped (mbDoneClear s) := .ite h.frame h

theorem Shaped.lockAcquireHost (h : Shaped s) : Shaped (lockAcquireHost s) := .ite h.frame h

theorem Shaped.lockReleaseHost (h : Shaped s) : Shaped (lockReleaseHost s) := .ite h.frame h

theorem Shaped.preemptedClear (h : Shaped s) : Shaped (preemptedClear s) := .ite h.frame h

theorem Shaped.intCauseClear {v : W32} (h : Shaped s) : Shaped (intCauseClear v s) := .ite h.frame h

theorem Shaped.intMaskWrite {v : W32} (h : Shaped s) : Shaped (intMaskWrite v s) := .ite (h.frame.foldl fun ha => .ite ha.msix ha) h

theorem Shaped.msixUnmasked (h : Shaped t) : Shaped (s.msixUnmasked t) := h.foldl fun ha => .ite ha.frame.emit ha

theorem Shaped.queueGo {c k : Nat} (h : Shaped s) : Shaped (s.queueGo c k) := by
  unfold State.queueGo
  split
  exacts [h.stopQueue, h.modQueue]

theorem Shaped.dbTailWrite {c k : Nat} {v : W32} (h : Shaped s) : Shaped (dbTailWrite c k v s) :=
    .ite h (.ite h.modQueue.queueGo h.modQueue)

theorem Shaped.dbStop {c k : Nat} (h : Shaped s) : Shaped (dbStop c k s) := .ite h.stopQueue h

theorem Shaped.dbRestart {c k : Nat} (h : Shaped s) : Shaped (dbRestart c k s) := .ite h h.modQueue.queueGo

theorem Shaped.entryFetched {c k : Nat} {r : ReadResult} (h : Shaped s) : Shaped (entryFetched c k r s) := by
  unfold Machine.entryFetched
  extract_lets +onlyGivenNames q
  refine .ite h ?_
  split
  exacts [(Shaped.ite h h.cacheLine).modQueue, h.stopQueue]

theorem Shaped.entryStart {e : Nat} (h : Shaped s) : Shaped (entryStart e s) := by
  unfold Machine.entryStart
  refine .ite h ?_
  extract_lets +onlyGivenNames last
  split
  · exact h
  · extract_lets +onlyGivenNames s1
    split
    · exact .ite h.frame.setOutcome.ctxCount h.frame.setOutcome
    · refine .ite ((h.frame.foldl fun ha => ha.unidle).modEntry) ?_
      extract_lets +onlyGivenNames s2
      have hs2 : Shaped s2 := h.frame.modEntry
      refine .ite ?_ hs2
      split
      exacts [.ite hs2 hs2.frame, hs2]

theorem Shaped.waitDeadlineExpired {c k : Nat} (h : Shaped s) : Shaped (waitDeadlineExpired c k s) := by
  unfold Machine.waitDeadlineExpired
  split
  exacts [.ite h.setOutcome.ctxCount h, h]

theorem Shaped.engineAdd {c k : Nat} {t : SyncEnt} {v : W32} (h : Shaped s0) : Shaped (s0.engineAdd c k t v).2 := by
  unfold State.engineAdd
  extract_lets +onlyGivenNames pairs _ s s1
  have hs : Shaped s := .ite h h.frame
  have hs1 : Shaped s1 := hs.syncAdd
  split
  exacts [hs1, hs.logErr]

theorem Shaped.entryComplete {c k : Nat} {n : W32} {writeOk : Bool} (h : Shaped s) : Shaped (entryComplete c k n writeOk s) := by
  unfold Machine.entryComplete
  extract_lets +onlyGivenNames q
  split
  · exact h
  · split
    · exact h
    · refine .ite h ?_
      extract_lets +onlyGivenNames r s1 rec' slot done
      have hr : Shaped r.2 := .iteSnd (by split; exacts [.iteSnd h.ctxCount h.engineAdd, h]) h
      have hdone : Shaped done := hr.modEntry.modQueue
      exact .ite hdone.stopQueue (.ite ((Shaped.ite hdone.poolWrite hdone.hostPut).msix) (.ite hdone.poolWrite hdone.hostPut))

/-! ### Bar -/

theorem Shaped.pressGo (h : Shaped s) : Shaped (pressGo s) := .ite h (.ite (h.hostCmd fun h => h) h.frame)

theorem Shaped.mailboxWrite {r v m : Nat} (h : Shaped s) : Shaped (mailboxWrite r v m s) := by
  unfold Machine.mailboxWrite
  extract_lets +onlyGivenNames w
  refine .ite (.ite h.pressGo h) (.ite (.ite h.frame h.frame) (.ite (.ite h.mbDoneClear h) (.ite ?_ (.ite h.intCauseClear (.ite h.intMaskWrite h)))))
  extract_lets s1
  have hs1 : Shaped s1 := .ite h.lockAcquireHost (.ite h.lockReleaseHost h)
  exact .ite hs1.preemptedClear hs1

theorem Shaped.doorbellWrite {c k r v m : Nat} (h : Shaped s) : Shaped (doorbellWrite c k r v m s) :=
    .ite h.dbTailWrite (.ite (.ite h.dbStop (.ite h.dbRestart h)) h)

theorem Shaped.areaWrite {off : Nat} {b : List Byte} (h : Shaped s) : Shaped (areaWrite off b s) := by
  unfold Machine.areaWrite
  exact .ite (h.foldl fun ha => ha.mailboxWrite) (.ite h.frame (.ite (h.foldl fun ha => ha.doorbellWrite) (.ite h.frame.msixUnmasked h.frame)))

theorem Shaped.registerWrite {off : Nat} {b : List Byte} (h : Shaped s) : Shaped (registerWrite off b s) :=
    .ite h (h.foldl fun ha => .ite ha.areaWrite ha)

/-! ### Ledger -/

theorem Shaped.recordMismatch {sh : Nat} {d : Dwell} {m : Mismatch} (h : Shaped s) : Shaped (s.recordMismatch sh d m) := by
  unfold State.recordMismatch
  extract_lets x lcol tpc spc c y bin now old tc sc watch flags r rec' kept _ s1 s2 s3 s4 s5
  have hs2 : Shaped s2 := h.frame.logErr
  have hs3 : Shaped s3 := hs2.modSheet
  have hs4 : Shaped s4 := .ite hs3.sheetCount hs3
  have hs5 : Shaped s5 := .ite hs4.condemn hs4
  exact .ite hs5.condemn hs5

/-! ### Moves -/

theorem Shaped.beginPrologue {c : Nat} {g : Prog} (h : Shaped s) : Shaped (s.beginPrologue c g) := .ite h.modCtx h.writePrologue.modCtx

theorem Shaped.startRun {c : Nat} {g : Prog} {r : RunRec} (h : Shaped s) : Shaped (s.startRun c g r) := by
  unfold State.startRun
  extract_lets +onlyGivenNames x s1 s2 s3
  have hs1 : Shaped s1 := h.foldl fun ha => .ite ha ha.wakePt
  have hs2 : Shaped s2 := hs1.foldl fun ha => ha.modPt
  have hs3 : Shaped s3 := hs2.modCtx
  exact .ite (.ite hs3.alignSprog.beginPrologue.modCtx hs3.alignSprog) hs3.modCtx.alignSprog.beginPrologue

theorem Shaped.run {c q : Nat} {n : W32} (h : Shaped s) : Shaped (run c q n s) := by
  unfold Machine.run
  split
  · exact h
  · extract_lets x lim
    refine .ite h ?_
    split
    · refine .ite h.setOutcome ?_
      split
      exacts [h.setOutcome, .ite h.setOutcome h.startRun]
    · exact h.setOutcome

theorem Shaped.stop {c q : Nat} {n : W32} (h : Shaped s) : Shaped (stop c q n s) := by
  unfold Machine.stop
  split
  exacts [h, .ite h.setOutcome (.ite h h.modCtx)]

theorem Shaped.reconfigure {c : Nat} {g : Prog} {l : List TileRec} (h : Shaped s) : Shaped (s.reconfigure c g l) := by
  unfold State.reconfigure
  extract_lets +onlyGivenNames gen s1 named s2
  have hs1 : Shaped s1 := h.foldl fun ha => by split; exacts [ha.modTile, ha]
  have hs2 : Shaped s2 := hs1.writeImages.writePrologue
  exact hs2.modCtx

theorem Shaped.reconfig {c q : Nat} {n : W32} (h : Shaped s) : Shaped (reconfig c q n s) := by
  unfold Machine.reconfig
  split
  · exact h
  · extract_lets x
    refine .ite h.setOutcome ?_
    split
    · exact h.setOutcome
    · split
      exacts [h.setOutcome, .ite h (.ite h.setOutcome h.reconfigure.setOutcome)]

theorem Shaped.wakeLoc {c kind a n : Nat} (h : Shaped s) : Shaped (s.wakeLoc c kind a n) := by
  unfold State.wakeLoc
  split
  · exact h.wakeChans
  · split
    exacts [h.unidle, h]
  · exact h

theorem Shaped.locWrite {c kind a : Nat} {b : List Byte} (h : Shaped s) : Shaped (s.locWrite c kind a b) := by
  unfold State.locWrite
  refine .ite h.hostPut (.ite h.ctxWrite (.ite ?_ h.frame))
  split
  exacts [h.wrote.modTile.foldl fun ha => ha.markDirty, h]

theorem Shaped.memError {ch group : Nat} {tag : Bool} (h : Shaped s) : Shaped (s.memError ch group tag) :=
    .ite h.modChan.breakChan h.modChan

theorem Shaped.engineEcc {ch off : Nat} {ecc : Ecc} (h : Shaped s) : Shaped (s.engineEcc ch off ecc) := by
  unfold State.engineEcc
  split
  exacts [h, h.modChan, h.logErr.memError, h.logErr.memError]

theorem Shaped.readRange {c a n : Nat} (h : Shaped s) : Shaped (s.readRange c a n).1 := by
  unfold State.readRange
  extract_lets l s1
  have hs1 : Shaped s1 := h.foldl fun ha => ha.engineEcc
  split
  exacts [hs1.engineEcc, hs1]

theorem Shaped.moveData {c : Nat} {e : Entry} {host : List Byte} (h : Shaped s) : Shaped (s.moveData c e host).2 := by
  unfold State.moveData
  extract_lets sk dk src dst len s1 r
  have hs1 : Shaped s1 := h.wakeLoc.wakeLoc
  have hr : Shaped r.1 := .iteFst hs1.readRange hs1
  exact .iteSnd hr.locWrite hr

theorem Shaped.copy {c q : Nat} {n : W32} {src : ReadResult} {flips : List DramFlip} (h : Shaped s0) : Shaped (copy c q n src flips s0) := by
  unfold Machine.copy
  extract_lets +onlyGivenNames s k
  split
  · exact h.decay
  · extract_lets +onlyGivenNames sk dk a b len fail
    refine .ite h.decay.setOutcome (.ite h.decay.setOutcome (.ite h.decay.setOutcome (.ite h.decay.setOutcome ?_)))
    split
    · exact h.decay.setOutcome
    · refine .ite h.decay ?_
      extract_lets +onlyGivenNames host
      clear_value host
      cases host
      · exact h.decay.setOutcome
      · exact .ite h.decay (.ite h.decay.frame (.ite h.decay.moveData.frame h.decay.moveData.setOutcome))

theorem Shaped.feed {c q : Nat} {n : W32} {src : ReadResult} (h : Shaped s) : Shaped (feed c q n src s) := by
  unfold Machine.feed
  extract_lets +onlyGivenNames k
  split
  · exact h
  · extract_lets b len
    refine .ite h.setOutcome (.ite h.setOutcome (.ite h.setOutcome ?_))
    split
    · exact h.setOutcome
    · refine .ite h ?_
      split
      exacts [.ite h h.wakeLoc.locWrite.modEntry, h.setOutcome]

theorem Shaped.feedDataReached {c q : Nat} {n : W32} (h : Shaped s) : Shaped (feedDataReached c q n s) := by
  unfold Machine.feedDataReached
  extract_lets k
  split
  exacts [h, .ite h h.modEntry.modQueue]

theorem Shaped.fillMem {c q : Nat} {n : W32} (h : Shaped s) : Shaped (fillMem c q n s) := by
  unfold Machine.fillMem
  extract_lets +onlyGivenNames k
  split
  · exact h
  · extract_lets +onlyGivenNames dk b len
    refine .ite h.setOutcome (.ite h.setOutcome ?_)
    split
    · exact h.setOutcome
    · exact .ite h (.ite h.wakeLoc.locWrite.frame h.wakeLoc.locWrite.setOutcome)

/-! ### Links -/

theorem Shaped.fly {tile port left : Nat} {w : Link} (h : Shaped s) : Shaped (s.fly tile port left w) := h.frame

/-- A word that fails is logged; unless its sender was poisoned its path is kept, and a tile that two paths share is condemned. -/
theorem Shaped.wordFault {c i cls checkpoint port : Nat} {w : Link} {path : List Nat} (h : Shaped s) :
    Shaped (s.wordFault c i cls checkpoint port w path) := by
  unfold State.wordFault
  extract_lets +onlyGivenNames sec s1 s2
  have hs2 : Shaped s2 := h.modTile.logErr
  clear_value s2
  refine .ite hs2 ?_
  conv => arg 1; whnf -- what it does with the path
  split
  exacts [hs2.frame, hs2.frame.logErr.condemn]

theorem Shaped.breach {c : Nat} {v : Violation} (h : Shaped s) : Shaped (s.breach c v) := h.modCtx

theorem Shaped.violate {c : Nat} {l : List Violation} (h : Shaped s0) : Shaped (s0.violate c l) := by
  unfold State.violate
  extract_lets +onlyGivenNames s
  split
  exacts [h, .ite h.modCtx.logErr h.modCtx.logErr.modCtx.faultCtx.modCtx]

/-! ### Reads -/

theorem Shaped.accumulate {c r el : Nat} {d : BitVec 512} (h : Shaped s) : Shaped (s.accumulate c r el d) := .ite h h.modCtx

theorem Shaped.landWrite {w : WriteRec} (h : Shaped s) : Shaped (s.landWrite w) := by
  unfold State.landWrite
  extract_lets s1
  have hs1 : Shaped s1 := by unfold s1; split; exacts [h, by split; exacts [h.frame.defined.modChan.accumulate, h.frame.defined.modChan]]
  exact .ite hs1.modChan hs1

theorem Shaped.landWrites (h : Shaped s) : Shaped s.landWrites := .ite h (h.frame.foldl fun ha => ha.landWrite)

theorem Shaped.programUe {c : Nat} {r : ReadRec} {tag : Bool} (h : Shaped s) : Shaped (s.programUe c r tag) :=
    .ite h.logErr.memError.modCtx.logErr.faultCtx h.logErr.memError.modCtx

theorem Shaped.deliverRead {c : Nat} {r : ReadRec} (h : Shaped s) : Shaped (s.deliverRead c r) := by
  unfold State.deliverRead
  split
  · extract_lets +onlyGivenNames o bad data s2 _ _ s3
    have hs2 : Shaped s2 := .ite h.modChan h
    have hs3 : Shaped s3 := by unfold s3; split; exacts [hs2, .ite hs2.breach hs2.modTile]
    exact .ite hs3.programUe hs3
  · exact h

theorem Shaped.dueReads {c : Nat} (h : Shaped s) : Shaped (s.dueReads c) := .ite (h.modCtx.foldl fun ha => ha.deliverRead) h

theorem Shaped.emitRead {c i : Nat} (h : Shaped s) : Shaped (s.emitRead c i) := by
  unfold State.emitRead
  extract_lets +onlyGivenNames v t st
  split
  exacts [h, .ite h h.modTile.fly]

/-! ### Restore -/

theorem Shaped.moveCols {old : State} {whole : Bool} {sh : Nat} (h : Shaped s) : Shaped (s.moveCols old whole sh) := by
  unfold State.moveCols
  extract_lets +onlyGivenNames m0 m1
  refine .ite h ?_
  extract_lets cells s1
  have hs1 : Shaped s1 := h.foldl fun ha => by split; exacts [.ite ha ha.modTile, ha]
  exact hs1.foldl fun ha => by split; exacts [.ite ha ha.wrote.modTile, ha]

theorem Shaped.undefScratch {c : Nat} {g : Prog} (h : Shaped s) : Shaped (s.undefScratch c g) := by
  unfold State.undefScratch
  split
  exacts [h, (h.undefine.foldl fun ha => ha.defined).frame]

theorem Sheet.Shaped.placeInspect {x : Sheet} (h : x.Shaped) : (placeInspect x).Shaped := by
  unfold Machine.placeInspect
  split
  · exact h
  · extract_lets +onlyGivenNames y
    split
    exacts [⟨length_install_map _, by simpa [y] using h.2⟩, h]

theorem Shaped.restoreCommit {c : Nat} {g : Prog} (h : Shaped s) : Shaped (s.restoreCommit c g) := by
  unfold State.restoreCommit
  extract_lets x shs s1 s2 s3 s4 s5 empty s6
  have hs2 : Shaped s2 := h.modCtx.foldl fun ha => ha.modSheet
  have hs4 : Shaped s4 := hs2.frame.installPoints
  have hs5 : Shaped s5 := hs4.foldl fun ha => (ha.modSheetOf fun _ hx => hx.placeInspect).moveCols
  have hs6 : Shaped s6 := hs5.foldl fun ha => ha.modTile
  exact (hs6.foldl fun ha => by split; exacts [ha.modTile, ha]).undefScratch

theorem Shaped.abandonStep {c : Nat} {g : Prog} {reason status : Nat} (h : Shaped s) : Shaped (s.abandonStep c g reason status) :=
    h.endRun.restoreCommit.modCtx

theorem Shaped.hotAbandon {c : Nat} (h : Shaped s) : Shaped (s.hotAbandon c) := by
  unfold State.hotAbandon
  extract_lets +onlyGivenNames x
  split
  · extract_lets s1 s2
    have hs1 : Shaped s1 := h.abandonStep.modCtx
    have hs2 : Shaped s2 := hs1.foldl fun ha => ha.modPt
    exact .ite hs2 (hs2.foldl fun ha => ha.selfRefresh)
  · exact h

/-! ### Wire -/

theorem Shaped.sampleWaits {c : Nat} (h : Shaped s) : Shaped (s.sampleWaits c) := by
  unfold State.sampleWaits
  extract_lets +onlyGivenNames x
  split
  exacts [h, .ite h h.modCtx]

theorem Shaped.passWaits {c : Nat} {g : Prog} (h : Shaped s) : Shaped (s.passWaits c g) := (h.foldl fun ha => .ite ha.modQueue ha).modCtx

theorem Shaped.arriveWait {c : Nat} (h : Shaped s) : Shaped (s.arriveWait c) := by
  unfold State.arriveWait
  extract_lets x
  split
  · exact h
  · split
    exacts [h, h.modCtx]

theorem Shaped.arrive {c : Nat} (h : Shaped s) : Shaped (s.arrive c) := by
  unfold State.arrive
  split
  exacts [h, .ite h.modCtx h.arriveWait]

theorem Shaped.flit {i port : Nat} {w : Link} (h : Shaped s) : Shaped (s.flit i port w) := .ite h.modTile h

theorem Shaped.parErr {i : Nat} (h : Shaped s) : Shaped (s.parErr i) := h.modTile

theorem Shaped.countFlits {c : Nat} {evs : List WireEvent} {outs : List TileCycle} (h : Shaped s) : Shaped (s.countFlits c evs outs) :=
    h.foldl fun ha => ha.flit

theorem Shaped.deliver {c : Nat} {d : TileCycle × Link × List Nat × Nat} (h : Shaped s) : Shaped (s.deliver c d).1 := by
  unfold State.deliver
  extract_lets +onlyGivenNames o w i
  split
  · exact h.wordFault
  · extract_lets +onlyGivenNames t q
    refine .iteFst h.modTile ?_
    split
    exacts [h, h.modTile]

theorem Shaped.logSram {c : Nat} {o : TileCycle} (h : Shaped s) : Shaped (s.logSram c o) :=
    (Shaped.ite h h.modTile).foldl fun ha => ha.logErr

theorem Shaped.cycleCtx {c : Nat} {evs : List WireEvent} (h : Shaped s) : Shaped (s.cycleCtx c evs) := by
  unfold State.cycleCtx
  extract_lets held outs r s1 s2 s3 s4 s5 d
  have hs1 : Shaped s1 := h.foldl fun ha => ha.modTile
  have hs2 : Shaped s2 := hs1.countFlits
  have hs4 : Shaped s4 := hs2.frame.foldl fun ha => (ha.foldl fun ha1 => ha1.markDirty).logSram
  have hs5 : Shaped s5 := hs4.foldl fun ha => ha.modTile.logErr
  have hd : Shaped d.1 := hs5.foldlFst fun ha => ha.deliver
  exact hd.foldl fun ha => ha.breach

theorem Shaped.mirror {sh : Nat} {d : Dwell} (h : Shaped s) : Shaped (s.mirror sh d) := by
  unfold State.mirror
  split
  exacts [h.foldl fun ha => ha.modTile, h]

theorem Shaped.shadowCycle {evs : List WireEvent} {sh : Nat} (h : Shaped s) : Shaped (s.shadowCycle evs sh) := by
  unfold State.shadowCycle
  split
  · exact h
  · refine .ite h.mirror ?_
    extract_lets +onlyGivenNames s0 s1
    have hs1 : Shaped s1 := h.mirror.sheetCount
    split
    exacts [hs1, .ite hs1.sheetCount hs1.sheetCount.recordMismatch]

theorem Shaped.couchFault {i port : Nat} {w : Link} (h : Shaped s) : Shaped (s.couchFault i port w) := h.parErr.logErr

theorem Shaped.catchupCycle {evs : List WireEvent} {sh : Nat} (h : Shaped s) : Shaped (s.catchupCycle evs sh) := by
  unfold State.catchupCycle
  split
  · refine .ite h ?_
    split
    exacts [h, h.couchFault.modSheet]
  · exact h

theorem Shaped.stallTile {c : Nat} {p : Nat × Nat × Nat} (h : Shaped s) : Shaped (s.stallTile c p) := h.modTile

theorem Shaped.frameStart {c : Nat} (h : Shaped s) : Shaped (s.frameStart c) := by
  unfold State.frameStart
  extract_lets x f s1 l t byL byT s2 proc
  have hs1 : Shaped s1 := .ite h.sampleWaits h
  have hs2 : Shaped s2 := .ite hs1 (hs1.foldl fun ha => ha.modPt)
  exact .ite (hs2.foldl fun ha => ha.stallTile) hs2

theorem Shaped.refed {c : Nat} (h : Shaped s) : Shaped (s.refed c) := by
  unfold State.refed
  split
  exacts [.ite h h.beginPrologue, h]

theorem Shaped.releaseDue {c : Nat} (h : Shaped s) : Shaped (s.releaseDue c) := by
  unfold State.releaseDue
  split
  exacts [.ite (((h.foldl fun ha => ha.modPt).modCtx).arriveWait) h, h]

theorem Shaped.endRunOn {c : Nat} (h : Shaped s) : Shaped (s.endRunOn c) := .ite h h.modCtx

theorem Shaped.voteHold {c : Nat} (h : Shaped s) : Shaped (s.voteHold c) := .ite h.modCtx h

theorem Shaped.ctxCycle {evs : List WireEvent} {c : Nat} (h : Shaped s) : Shaped (s.ctxCycle evs c).1 := by
  unfold State.ctxCycle
  extract_lets +onlyGivenNames s1 s2 runs
  have hs1 : Shaped s1 := h.refed.releaseDue
  have hs2 : Shaped s2 := .ite hs1.endRunOn.hotAbandon.voteHold.frameStart hs1
  clear_value s2
  refine .iteFst ?_ hs2
  dsimp only
  exact (hs2.dueReads.foldl fun ha => ha.emitRead).cycleCtx

theorem Shaped.advance {c : Nat} {ran : List Nat} (h : Shaped s) : Shaped (s.advance c ran) := by
  unfold State.advance
  extract_lets runs s1
  have hs1 : Shaped s1 := .ite (h.foldl fun ha => ha.modPt) h
  exact .ite hs1 (hs1.modCtx.foldl fun ha => ha.modSheet)

theorem Shaped.arriveAfter {c : Nat} {ran : List Nat} (h : Shaped s) : Shaped (s.arriveAfter c ran) := .ite h.arrive h

theorem Shaped.keepBusy (h : Shaped s) : Shaped s.keepBusy := h.foldl fun ha => .ite ha.modPt ha

theorem Shaped.routeCycle {evs : List WireEvent} (h : Shaped s) : Shaped (routeCycle evs s) := by
  unfold Machine.routeCycle
  extract_lets cs r s2 s3 s4 _ s5
  have hr : Shaped r.1 := h.foldlFst fun ha => ha.ctxCycle
  have hs2 : Shaped s2 := hr.foldl fun ha => ha.shadowCycle.catchupCycle
  have hs3 : Shaped s3 := hs2.foldl fun ha => ha.violate
  have hs4 : Shaped s4 := hs3.foldl fun ha => ha.advance
  have hs5 : Shaped s5 := hs4.of_lengths rfl rfl rfl rfl (by simp [s5]) rfl
  exact (hs5.landWrites.foldl fun ha => ha.arriveAfter).keepBusy

theorem Shaped.issueEntryAdvance {i : Nat} (h : Shaped s) : Shaped (issueEntryAdvance i s) := by
  unfold Machine.issueEntryAdvance
  split
  exacts [h, .ite h (.ite h h.modTile)]

theorem Shaped.foldSlotSwitch {i : Nat} (h : Shaped s) : Shaped (foldSlotSwitch i s) := by
  unfold Machine.foldSlotSwitch
  split
  · exact h
  · extract_lets +onlyGivenNames x v t st
    refine .ite h ?_
    extract_lets +onlyGivenNames ctl
    refine .ite h ?_
    extract_lets +onlyGivenNames mark
    split
    exacts [h.modTile, h.modTile.breach]

theorem Shaped.readBufferEmit {i : Nat} (h : Shaped s) : Shaped (readBufferEmit i s) := by
  unfold Machine.readBufferEmit
  split
  exacts [h, h.emitRead]

theorem Shaped.telemetrySnapshot (h : Shaped s) : Shaped (telemetrySnapshot s) := .ite h (h.frame.foldl fun ha => ha.modTile)

/-! ### Commit -/

theorem Shaped.hangDump {pts : List Nat} (h : Shaped s) : Shaped (s.hangDump pts) := .ite h.startDump h

theorem Shaped.hang {c kind : Nat} {pts : List Nat} (h : Shaped s) : Shaped (s.hang c kind pts) :=
    ((h.logErr.foldl fun ha => ha.modPt).faultCtx).hangDump

theorem Shaped.wmDiffers {sh : Nat} {m : Mismatch} (h : Shaped s) : Shaped (s.wmDiffers sh m) := by
  unfold State.wmDiffers
  split
  exacts [h, .ite h.sheetCount h.sheetCount.recordMismatch]

theorem Shaped.programAdds {c : Nat} {g : Prog} (h : Shaped s) : Shaped (s.programAdds c g) := by
  unfold State.programAdds
  extract_lets +onlyGivenNames x
  exact h.foldl fun ha => .ite ha (by split; exacts [.ite ha.ctxCount (.ite ha.modCtx ha.syncAdd.ctxCount), ha])

theorem Shaped.pairViolation {adds : State} {c cause d : Nat} {m : SyncMapEnt} (h : Shaped s) : Shaped (s.pairViolation adds c cause d m) :=
    h.logErr.modCtx.faultCtx

theorem Shaped.localDecision {c : Nat} {g : Prog} (h : Shaped s) : Shaped (s.localDecision c g).1 := by
  unfold State.localDecision
  extract_lets +onlyGivenNames x sheets _ s1 s2
  have hs1 : Shaped s1 := by unfold s1; split; exacts [h.logErr, h]
  have hs2 : Shaped s2 := hs1.violate
  refine .iteFst hs2 (.iteFst hs2 ?_)
  extract_lets adds
  have hadds : Shaped adds := hs2.programAdds
  split
  · exact hs2.pairViolation
  · exact .iteFst hs2.pairViolation hs2.logErr.modCtx
  · split
    exacts [hs2.logErr, hs2]

theorem Shaped.leavePoint {c : Nat} (h : Shaped s) : Shaped (s.leavePoint c) := by
  unfold State.leavePoint
  extract_lets x
  refine .ite h.modCtx (.ite h.modCtx (.ite h.modCtx (.ite h.modCtx ?_)))
  split
  exacts [h.beginPrologue.modCtx, h.modCtx]

theorem Shaped.beginCatchup {sh : Nat} (h : Shaped s) : Shaped (s.beginCatchup sh) := by
  unfold State.beginCatchup
  extract_lets +onlyGivenNames x
  split
  exacts [.ite h (.ite h.sheetCount h.modSheet), h]

theorem Shaped.refreshAtCommit {c : Nat} (h : Shaped s) : Shaped (s.refreshAtCommit c) := by
  unfold State.refreshAtCommit
  split
  · exact h
  · exact .ite ((Shaped.ite h.ctxCount h).modCtx) (.ite h (.ite h.ctxCount h.ctxWrite.frame.modJob))

theorem Shaped.recordFeeds {c k : Nat} (h : Shaped s) : Shaped (s.recordFeeds c k) := (h.foldl fun ha => ha.setOutcome).modQueue

theorem Shaped.endArmed {c : Nat} (h : Shaped s) : Shaped (s.endArmed c) := (h.foldl fun ha => ha.foldl fun ha1 => ha1.setOutcome).modCtx

theorem Shaped.clearStale {c : Nat} (h : Shaped s) : Shaped (s.clearStale c) := h.foldl fun ha => ha.modTile

theorem Shaped.commitRecords {c : Nat} {g : Prog} (h : Shaped s) : Shaped (s.commitRecords c g) :=
    ((h.foldl fun ha => ha.modTile).foldl fun ha => ha.recordFeeds).modCtx

theorem Shaped.commitStep {c : Nat} {g : Prog} (h : Shaped s) : Shaped (s.commitStep c g) := by
  unfold State.commitStep
  extract_lets +onlyGivenNames adds
  have hadds : Shaped adds := h.programAdds
  split
  · exact h.pairViolation
  · extract_lets s1 x s2 s3 s4 reload s5 s6 s7 s8 s9 s10
    have hs1 : Shaped s1 := hadds.commitRecords.endArmed
    have hs2 : Shaped s2 := .ite hs1.calRecord hs1
    have hs3 : Shaped s3 := hs2.clearStale
    have hs4 : Shaped s4 := hs3.modCtx.perfAtCommit
    have hs5 : Shaped s5 := hs4.installPoints
    have hs6 : Shaped s6 := hs5.foldl fun ha => ha.moveCols.modSheet
    have hs7 : Shaped s7 := hs6.modCtx
    have hs8 : Shaped s8 := .ite hs7 (hs7.foldl fun ha => ha.beginCatchup)
    have hs9 : Shaped s9 := hs8.refreshAtCommit
    have hs10 : Shaped s10 := by unfold s10; split; exacts [(Shaped.ite (hs9.endRun.foldl fun ha => ha.modPt) hs9.endRun).modCtx, hs9]
    exact hs10.modCtx.leavePoint

theorem Shaped.rollbackStep {c : Nat} {g : Prog} {replica : Bool} (h : Shaped s) : Shaped (s.rollbackStep c g replica) := by
  unfold State.rollbackStep
  extract_lets +onlyGivenNames x
  exact .ite h.logErr.faultCtx (.ite h.faultCtx (((h.ctxCount.modCtx.calRecord.restoreCommit.foldl fun ha => ha.modSheet).modCtx).beginPrologue))

/-! ### Votes -/

theorem Shaped.protect {id gen step : Nat} (h : Shaped s) : Shaped (s.protect id gen step) := by
  unfold State.protect
  split
  exacts [h, (h.modJob.foldl fun ha => ha.setOutcome).modCtx]

theorem Shaped.voteRollback {j : Job} {g : Prog} (h : Shaped s) : Shaped (s.voteRollback j g) := (Shaped.ite h.logErr h).rollbackStep

theorem Shaped.endSetup {id : Nat} (h : Shaped s) : Shaped (s.endSetup id) := by
  unfold State.endSetup
  split
  exacts [h, .ite h h.finishOp?.modJob]

theorem Shaped.waited {c since : Nat} (h : Shaped s) : Shaped (s.waited c since) := h.modCtx

theorem Shaped.perStep {id code gen step : Nat} (h : Shaped s) : Shaped (s.perStep id code gen step) := by
  unfold State.perStep
  split
  · exact h
  · split
    · extract_lets body s1 s2 s3
      have hs1 : Shaped s1 := h.memberSendAll
      have hs2 : Shaped s2 := hs1.modJob.protect
      have hs3 : Shaped s3 := hs2.ctxCount.ctxCount.waited.modCtx
      exact (Shaped.ite hs3.commitStep hs3.ctxCount.voteRollback).endSetup
    · exact .ite h h.memberSendAll.modJob.protect.endSetup
    · exact h

theorem Shaped.tryVote {id : Nat} (h : Shaped s) : Shaped (s.tryVote id) := by
  unfold State.tryVote
  split
  · exact h
  · split
    · exact h
    · refine .ite h ?_
      extract_lets v
      split
      exacts [h.memberSend.modJob, h.perStep]

theorem Shaped.rollOrCommit {c : Nat} {g : Prog} {good : Bool} (h : Shaped s) : Shaped (s.rollOrCommit c g good) :=
    .ite h.commitStep h.rollbackStep

theorem Shaped.afterReplica {c : Nat} {g : Prog} {good : Bool} (h : Shaped s) : Shaped (s.afterReplica c g good) := by
  unfold State.afterReplica
  split
  exacts [h.modCtx.modJob.tryVote, h.rollOrCommit]

theorem Shaped.afterLocal {c : Nat} {g : Prog} {good : Bool} (h : Shaped s) : Shaped (s.afterLocal c g good) :=
    .ite h.afterReplica h.emit.modCtx

/-! ### Calender -/

theorem Shaped.endWait {c : Nat} (h : Shaped s) : Shaped (s.endWait c) := by
  unfold State.endWait
  extract_lets +onlyGivenNames x
  split
  exacts [.ite h.passWaits.modCtx (.ite h.ctxCount.faultCtx.frame h), h]

theorem Shaped.externalWaitPoint {c : Nat} (h : Shaped s) : Shaped (externalWaitPoint c s) := h.endWait

theorem Shaped.holdRelease {c : Nat} (h : Shaped s) : Shaped (holdRelease c s) := .ite h.endWait h

theorem Shaped.programWaitDeadline {c : Nat} (h : Shaped s) : Shaped (programWaitDeadline c s) := by
  unfold Machine.programWaitDeadline
  extract_lets x
  split
  exacts [.ite h.ctxCount.hang h, h]

theorem Shaped.hung {p : Nat} (h : Shaped s) : Shaped (hung p s) := by
  unfold Machine.hung
  split
  · exact h
  · split
    exacts [h, .ite h.hang h]

theorem Shaped.calenderOverdue {c : Nat} (h : Shaped s) : Shaped (calenderOverdue c s) := .ite h.logErr.ctxCount.modCtx h

theorem Shaped.calEvents {c : Nat} {evs : List CalEvent} (h : Shaped s) : Shaped (s.calEvents c evs) := by
  unfold State.calEvents
  extract_lets held
  exact h.foldl fun ha => by split; exacts [.ite ha.modSheet ha, .ite ha.wmDiffers ha]

theorem Shaped.calenderPoint {c : Nat} {evs : List CalEvent} (h : Shaped s) : Shaped (calenderPoint c evs s) := by
  unfold Machine.calenderPoint
  extract_lets +onlyGivenNames x
  split
  · refine .ite h ?_
    extract_lets r
    have hr : Shaped r.1 := h.calEvents.localDecision
    split
    exacts [hr, hr.afterLocal]
  · exact h

theorem Shaped.countCouch {sh : Nat} {d : Dwell} {pc : Nat} {x : Sheet} (h : Shaped s) : Shaped (s.countCouch sh d pc x) :=
    h.foldl fun ha => ha.modTile

theorem Shaped.afterCatchup {sh at' : Nat} (h : Shaped s) : Shaped (s.afterCatchup sh at') := by
  unfold State.afterCatchup
  split
  · exact h
  · split
    exacts [h.sheetCount.leavePoint, h]

theorem Shaped.catchupDone {sh : Nat} (h : Shaped s) : Shaped (catchupDone sh s) := by
  unfold Machine.catchupDone
  split
  · exact h
  · split
    · exact h
    · refine .ite h (.ite h.modSheet.afterCatchup ?_)
      extract_lets pcs s1 s2
      have hs1 : Shaped s1 := h.foldl fun ha => ha.foldl fun ha1 => .ite ha1.modTile ha1
      have hs2 : Shaped s2 := hs1.modSheet.sheetCount
      exact ((hs2.foldl fun ha => ha.countCouch).mirror).afterCatchup

theorem Shaped.prologueEnd {c : Nat} (h : Shaped s) : Shaped (prologueEnd c s) := by
  unfold Machine.prologueEnd
  extract_lets +onlyGivenNames x
  split
  · exact h
  · refine .ite h ?_
    extract_lets shs s1 s2 s2' s3
    have hs1 : Shaped s1 := .ite (h.foldl fun ha => ha.modSheet) h
    have hs2 : Shaped s2 := hs1.foldl fun ha => by split; exacts [ha, ha.foldl fun ha1 => ha1.foldl fun ha2 => .ite ha2.modTile ha2]
    have hs2' : Shaped s2' := .ite hs2.clearStale hs2
    have hs3 : Shaped s3 := hs2'.foldl fun ha => ha.modTile
    exact hs3.modCtx

theorem Shaped.prologueOverrun {c : Nat} (h : Shaped s) : Shaped (prologueOverrun c s) := by
  unfold Machine.prologueOverrun
  split
  exacts [.ite h.logErr.faultCtx h, h]

/-! ### Plane -/

theorem Shaped.slotDone (h : Shaped s) : Shaped s.slotDone := h.frame

theorem Shaped.cellFault {i : Nat} {w : Link} (h : Shaped s) : Shaped (s.cellFault i w) := h.modTile.parErr.logErr

theorem Shaped.moveCell {evs : List WireEvent} {m : CellMove} (h : Shaped s) : Shaped (s.moveCell evs m) := by
  unfold State.moveCell
  extract_lets +onlyGivenNames s1
  split
  exacts [h.modTile.modTile.flit, .ite h.modTile.modTile h.modTile.cellFault]

theorem Shaped.sendCell {before : State} {x : FwCell} (h : Shaped s) : Shaped (before.sendCell s x) := .ite h h.modTile

theorem Shaped.messagePlaneSlot {evs : List WireEvent} {cells : List FwCell} (h : Shaped s) : Shaped (messagePlaneSlot evs cells s) :=
    .ite h (((h.foldl fun ha => ha.moveCell).foldl fun ha => ha.sendCell).slotDone)

theorem Shaped.couchSlot {evs : List WireEvent} {sh : Nat} (h : Shaped s) : Shaped (s.couchSlot evs sh) := by
  unfold State.couchSlot
  extract_lets +onlyGivenNames x
  split
  · refine .ite h ?_
    extract_lets rows came s0
    have hs0 : Shaped s0 := h.foldl fun ha => ha.flit
    split
    exacts [hs0.couchFault.modSheet, .ite hs0.modSheet hs0.modSheet]
  · exact h

theorem Shaped.snapArrived {i : Nat} {x : Tlm} {at' : Nat} (h : Shaped s) : Shaped (s.snapArrived i x at') := h.modTile.frame

theorem Shaped.tlmSlot {evs : List WireEvent} {sh pc : Nat} (h : Shaped s) : Shaped (s.tlmSlot evs sh pc) := by
  unfold State.tlmSlot
  split
  · exact h
  · extract_lets i mask s1
    have hs1 : Shaped s1 := h.foldl fun ha => ha.flit
    refine .ite hs1.modTile.parErr ?_
    split
    exacts [hs1, .ite hs1.modTile hs1.snapArrived]

theorem Shaped.testSlot {evs : List WireEvent} {sh : Nat} (h : Shaped s) : Shaped (s.testSlot evs sh) := by
  unfold State.testSlot
  extract_lets +onlyGivenNames x
  split
  · extract_lets +onlyGivenNames phase1
    refine .ite h ?_
    extract_lets came s1
    have hs1 : Shaped s1 := h.foldl fun ha => ha.flit
    split
    exacts [hs1.parErr.modSheet, hs1]
  · exact h

theorem Shaped.maintenanceSlot {evs : List WireEvent} (h : Shaped s) : Shaped (maintenanceSlot evs s) := by
  unfold Machine.maintenanceSlot
  refine .ite h ?_
  extract_lets shs s1 s2
  have hs1 : Shaped s1 := h.foldl fun ha => ha.couchSlot
  have hs2 : Shaped s2 := .ite (hs1.foldl fun ha => ha.foldl fun ha1 => ha1.tlmSlot) (hs1.foldl fun ha => ha.testSlot)
  exact hs2.slotDone

/-! ### Dwell -/

theorem Shaped.dwellStart {sh : Nat} {key1 key2 : W64} (h : Shaped s) : Shaped (dwellStart sh key1 key2 s) := by
  unfold Machine.dwellStart
  extract_lets +onlyGivenNames x
  split
  exacts [.ite h h.unidle.modSheet.sheetCount, h]

theorem Shaped.nextPhase {sh : Nat} {d : Dwell} {p : Phase} {scan : Bool} (h : Shaped s) : Shaped (s.nextPhase sh d p scan) := h.modSheet

theorem Shaped.zeroiseDone {sh : Nat} {refused : Bool} {cond : BistCond} (h : Shaped s) : Shaped (zeroiseDone sh refused cond s) := by
  unfold Machine.zeroiseDone
  split
  · exact h
  · refine .ite h ?_
    exact .ite (.ite h.modSheet.sheetCount.logErr.installPoint h.modSheet.sheetCount.logErr) (((h.foldl fun ha => ha.modTile).nextPhase).modSheet)

theorem Shaped.marchDone {sh : Nat} {fails : List BistFail} {p : BistCond} (h : Shaped s) : Shaped (marchDone sh fails p s) := by
  unfold Machine.marchDone
  split
  exacts [.ite h h.nextPhase, h]

theorem Shaped.condemnSpare {sh : Nat} {d : Dwell} {bad : List BistFail} {cond : BistCond} (h : Shaped s) : Shaped (s.condemnSpare sh d bad cond) :=
    (h.foldl fun ha => ha.bistFail).retire

theorem Shaped.bistDone {sh kind : Nat} {at' next : Phase} {scan : Bool} {fails : List BistFail} {cond : BistCond} (h : Shaped s) : Shaped (s.bistDone sh kind at' next scan fails cond) := by
  unfold State.bistDone
  split
  exacts [.ite h (.ite h.ranBist.nextPhase h.ranBist.condemnSpare), h]

theorem Shaped.logicBistDone {sh : Nat} {fails : List BistFail} {cond : BistCond} (h : Shaped s) : Shaped (logicBistDone sh fails cond s) :=
    h.bistDone

theorem Shaped.marginBistDone {sh : Nat} {fails : List BistFail} {cond : BistCond} (h : Shaped s) : Shaped (marginBistDone sh fails cond s) :=
    h.bistDone

theorem Shaped.repairOne {sh pc : Nat} {f : BistFail} (h : Shaped s) : Shaped (s.repairOne sh pc f).1 := .iteFst h.softRepair h

theorem Shaped.repairMarked {sh pc row : Nat} (h : Shaped s) : Shaped (s.repairMarked sh pc row) :=
    (h.foldl fun ha => .ite ha.modTile.addRepair.sheetCount ha.logErr).modTile

theorem Shaped.softRepairEvent {sh : Nat} {rerunFails : List BistFail} {cond : BistCond} (h : Shaped s) : Shaped (Machine.softRepair sh rerunFails cond s) := by
  unfold Machine.softRepair
  split
  · exact h
  · refine .ite h ?_
    extract_lets r s1 s2 bad
    have hr : Shaped r.1 := h.foldlFst fun ha => ha.repairOne
    have hs1 : Shaped s1 := hr.foldl fun ha => ha.repairMarked
    have hs2 : Shaped s2 := hs1.sheetCount
    exact .ite hs2.condemnSpare hs2.nextPhase

theorem Shaped.couchInDone {sh : Nat} (h : Shaped s) : Shaped (couchInDone sh s) := by
  unfold Machine.couchInDone
  split
  exacts [h, .ite h (.ite h.modSheet.beginCatchup h.modSheet)]

theorem Shaped.takePosition {sh pos : Nat} {down whole : Bool} {kind : DwellKind} (h : Shaped s) : Shaped (s.takePosition sh pos down whole kind) := by
  unfold State.takePosition
  extract_lets t
  have ht : Shaped t := h.modSheetOf fun _ hx => ⟨by simp, by simpa using hx.2⟩
  exact ht.moveCols

theorem Shaped.reloadPrologue {sh : Nat} (h : Shaped s) : Shaped (s.reloadPrologue sh) := by
  unfold State.reloadPrologue
  split
  · exact h
  · extract_lets x s1
    have hs1 : Shaped s1 := h.foldl fun ha => ha.modSheet
    split
    exacts [hs1.modCtx, hs1.beginPrologue, hs1]

theorem Shaped.reloadTo {sh pos : Nat} {down : Bool} {kind : DwellKind} (h : Shaped s) : Shaped (s.reloadTo sh pos down kind) :=
    .ite h.modSheet h.takePosition.reloadPrologue

theorem Shaped.sweepMove {sh : Nat} {d : Dwell} (h : Shaped s) : Shaped (s.sweepMove sh d) := by
  unfold State.sweepMove
  extract_lets +onlyGivenNames x r
  split
  · exact .ite h.modSheet.reloadTo h
  · extract_lets +onlyGivenNames rollback n
    refine .ite h ?_
    split
    exacts [.ite h (.ite h.takePosition h.modSheet), h.modSheetOf fun _ hx => ⟨by simp, by simpa using hx.2⟩, h.reloadTo]

theorem Shaped.inspectMove {sh : Nat} (h : Shaped s) : Shaped (s.inspectMove sh) := by
  unfold State.inspectMove
  extract_lets +onlyGivenNames x
  refine .ite h ?_
  split
  exacts [h.reloadTo, h.modSheet.reloadTo]

theorem Shaped.steeredMove {sh col done : Nat} {against : Bool} (h : Shaped s) : Shaped (s.steeredMove sh col done against) := by
  unfold State.steeredMove
  refine .ite h ?_
  extract_lets +onlyGivenNames s1 n
  have hs1 : Shaped s1 := h.sheetCount
  refine .ite hs1.modSheet ?_
  extract_lets s2 x
  have hs2 : Shaped s2 := hs1.modSheet
  split
  exacts [hs2.reloadTo, hs2.modSheet]

theorem Shaped.moveEvents {sh : Nat} {evs : List CalEvent} (h : Shaped s) : Shaped (s.moveEvents sh evs) := by
  unfold State.moveEvents
  split
  · exact h
  · exact .ite h (h.foldl fun ha => by split; exacts [ha, .ite ha.wmDiffers ha])

theorem Shaped.spareMove {sh : Nat} {evs : List CalEvent} (h : Shaped s0) : Shaped (spareMove sh evs s0) := by
  unfold Machine.spareMove
  extract_lets +onlyGivenNames s
  have hs : Shaped s := h.moveEvents
  split
  · exact hs
  · extract_lets due
    split
    exacts [.ite hs.inspectMove hs, .ite hs.sweepMove hs, .ite hs.steeredMove hs]

theorem Shaped.externalTestScanAccess {sh pc : Nat} {scan : Bool} (h : Shaped s) : Shaped (externalTestScanAccess sh pc scan s) :=
    .ite h (.ite h.modSheet.sheetCount.logErr h.modSheet)

/-! ### Messages -/

theorem Shaped.ringWrite {inPool : Bool} {a : Nat} {b : List Byte} (h : Shaped s) : Shaped (s.ringWrite inPool a b) :=
    .ite h.poolWrite h.hostPut

theorem Shaped.rxBind {c q : Nat} {n : W32} (h : Shaped s) : Shaped (rxBind c q n s) := by
  unfold Machine.rxBind
  extract_lets +onlyGivenNames k
  split
  · exact h
  · extract_lets +onlyGivenNames hd role
    split
    · exact h.setOutcome
    · split
      · exact h.setOutcome
      · extract_lets +onlyGivenNames isCtx
        exact .ite h.setOutcome (.ite h.setOutcome (.ite h h.frame.ringWrite.ringWrite.ringWrite.ringWrite.setOutcome))

theorem Shaped.rxUnbind {c q : Nat} {n : W32} (h : Shaped s) : Shaped (rxUnbind c q n s) := by
  unfold Machine.rxUnbind
  extract_lets +onlyGivenNames k
  split
  exacts [h, .ite h.setOutcome (.ite h.setOutcome (.ite h h.frame.setOutcome))]

theorem Shaped.modEnd {h role : Nat} {f : Endpoint → Endpoint} (hs : Shaped s) : Shaped (s.modEnd h role f) := hs.frame

theorem Shaped.sendFails {c k : Nat} {n : W32} {e : Entry} {d : Done} (h : Shaped s) : Shaped (s.sendFails c k n e d) := by
  unfold State.sendFails
  split
  exacts [(Shaped.ite h h.modEnd).setOutcome, h.setOutcome]

theorem Shaped.send {c q : Nat} {n : W32} {src : ReadResult} (h : Shaped s) : Shaped (send c q n src s) := by
  unfold Machine.send
  extract_lets +onlyGivenNames k
  split
  · exact h
  · extract_lets +onlyGivenNames plen dest from' t fail
    refine .ite h.sendFails ?_
    split
    · exact h.sendFails
    · split
      · exact h.sendFails
      · extract_lets +onlyGivenNames isJob isGroup
        refine .ite h.sendFails (.ite h ?_)
        extract_lets +onlyGivenNames body
        clear_value body
        split
        · exact h.sendFails
        · refine .ite h ?_
          extract_lets mk _ s1
          have hs1 : Shaped s1 := ((h.foldl fun ha => ha.copyArrives).frame).ctxCount
          exact .ite hs1.setOutcome hs1.modEntry

theorem Shaped.lookup {tag : Nat} (h : Shaped s) (ht : s.lookup tag = some t) : Shaped t := by
  unfold State.lookup at ht
  split at ht
  · obtain rfl := Option.some.inj ht
    exact h.frame.modCount
  · split at ht
    · contradiction
    · extract_lets s1 s2 s3 at ht
      have hs1 : Shaped s1 := by
        unfold s1; split
        exacts [h.frame, h]
      have hs2 : Shaped s2 := hs1.frame
      obtain rfl := Option.some.inj ht
      exact (Shaped.ite hs2.wakeChans hs2).modCount

theorem Shaped.requestOpen {c q : Nat} {n : W32} {src : ReadResult} (h : Shaped s) : Shaped (requestOpen c q n src s) := by
  unfold Machine.requestOpen
  extract_lets +onlyGivenNames k
  split
  · exact h
  · extract_lets +onlyGivenNames tag d g
    refine .ite h.setOutcome ?_
    split
    · exact h.setOutcome
    · refine .ite h ?_
      split
      · exact h
      · rename_i t ht
        replace ht := h.lookup ht
        refine .ite ht.setOutcome (.ite ht.setOutcome ?_)
        split
        exacts [.ite h ht.putSession.modCount.setOutcome, ht.setOutcome]

theorem Shaped.requestSubmit {c q : Nat} {n : W32} {src : ReadResult} (h : Shaped s) : Shaped (requestSubmit c q n src s) := by
  unfold Machine.requestSubmit
  extract_lets +onlyGivenNames k
  split
  · exact h
  · extract_lets +onlyGivenNames tag len same
    refine .ite h.setOutcome (.ite h ?_)
    split
    · exact h
    · rename_i t ht
      replace ht := h.lookup ht
      extract_lets +onlyGivenNames x
      refine .ite ht.setOutcome (.ite ht.setOutcome (.ite ht.setOutcome (.ite ht.setOutcome ?_)))
      extract_lets +onlyGivenNames body
      clear_value body
      split
      exacts [ht.setOutcome, .ite h ht.putSession.copyArrives.frame.modEntry]

theorem Shaped.requestClose {c q : Nat} {n : W32} (h : Shaped s) : Shaped (requestClose c q n s) := by
  unfold Machine.requestClose
  extract_lets +onlyGivenNames k
  split
  · exact h
  · extract_lets +onlyGivenNames tag
    split
    · exact h.setOutcome
    · split
      · exact h
      · rename_i t ht
        replace ht := h.lookup ht
        exact .ite ht.setOutcome (.ite ht.setOutcome (.ite h ht.putSession.modCount.setOutcome))

theorem Shaped.requestQuery {c q : Nat} {n : W32} (h : Shaped s) : Shaped (requestQuery c q n s) := by
  unfold Machine.requestQuery
  extract_lets +onlyGivenNames k
  split
  · exact h
  · extract_lets +onlyGivenNames tag
    refine .ite h.setOutcome ?_
    split
    · exact h.setOutcome
    · refine .ite h ?_
      split
      · exact h
      · rename_i t ht
        replace ht := h.lookup ht
        exact .ite ht.setOutcome ht.hostPut.setOutcome

theorem Shaped.syncBind {c q : Nat} {n : W32} (h : Shaped s) : Shaped (syncBind c q n s) := by
  unfold Machine.syncBind
  extract_lets +onlyGivenNames k
  split
  · exact h
  · extract_lets id mode p own set put
    refine .ite h.setOutcome ?_
    split
    · refine .ite h.setOutcome (.ite h.setOutcome ?_)
      split
      exacts [h.setOutcome, h.modPt.modCtx.setOutcome]
    · refine .ite h.setOutcome ?_
      split
      · exact .ite h.setOutcome (.ite h.setOutcome (.ite h.setOutcome h.modCtx.setOutcome))
      · exact h.setOutcome

theorem Shaped.syncUnbind {c q : Nat} {n : W32} (h : Shaped s) : Shaped (syncUnbind c q n s) := by
  unfold Machine.syncUnbind
  extract_lets +onlyGivenNames k
  split
  · exact h
  · extract_lets +onlyGivenNames id
    split
    · exact h.setOutcome
    · exact .ite h.setOutcome (((Shaped.ite (.ite h h.releaseCounter) h.orphanWaits).modCtx).setOutcome)

theorem Shaped.syncOpRead {c q : Nat} {n : W32} (h : Shaped s) : Shaped (syncOpRead c q n s) := by
  unfold Machine.syncOpRead
  extract_lets +onlyGivenNames k
  split
  · exact h
  · extract_lets op
    refine .ite h (.ite h.setOutcome ?_)
    split
    exacts [h.setOutcome, .ite h.setOutcome h.setOutcome]

theorem Shaped.syncOpAdd {c q : Nat} {n : W32} (h : Shaped s) : Shaped (syncOpAdd c q n s) := by
  unfold Machine.syncOpAdd
  extract_lets +onlyGivenNames k
  split
  · exact h
  · extract_lets +onlyGivenNames v
    refine .ite h (.ite h.setOutcome ?_)
    split
    exacts [h.setOutcome, .ite h.setOutcome.ctxCount (.ite h h.engineAdd.setOutcome)]

theorem Shaped.readCtl {e : Endpoint} {off : Nat} (h : Shaped s) : Shaped (s.readCtl e off) := .ite h h.cacheLine

theorem Shaped.ringRecord {e : Endpoint} (h : Shaped s) : Shaped (s.ringRecord e) := h.logErr

theorem Shaped.ringError {e : Endpoint} (h : Shaped s) : Shaped (s.ringError e) := h.modEnd.ringRecord

theorem Shaped.putCells {inPool : Bool} {base cells : Nat} {w : W32} {pad : Nat} {m : List (List Byte)} (h : Shaped s) : Shaped (s.putCells inPool base cells w pad m) :=
    (Shaped.ite h h.ringWrite.frame).foldl fun ha => ha.ringWrite

theorem Shaped.copyOutcome {m : Copy} {r : Option Bool} {cause : Nat} (h : Shaped s) : Shaped (s.copyOutcome m r cause) := by
  unfold State.copyOutcome
  split
  · split
    exacts [.ite h h.ctxCount, h]
  · split
    · exact .ite h.putSession.setOutcome h.putSession.setOutcome
    · extract_lets +onlyGivenNames s1
      have hs1 : Shaped s1 := h.modEntry
      split
      exacts [hs1, .ite hs1 hs1.setOutcome]

theorem Shaped.readBrd {e : Endpoint} {o : RingObs} (h : Shaped s) : Shaped (s.readBrd e o) :=
    .ite (.ite h.readCtl h.readCtl.ringError) h.readCtl.modEnd

theorem Shaped.bounceCopy {m : Copy} {p : Endpoint} {cause : Nat} {o : RingObs} (h : Shaped s) : Shaped (s.bounceCopy m p cause o).2 := by
  unfold State.bounceCopy
  extract_lets +onlyGivenNames s0
  refine .iteSnd h.modEnd.ringRecord ?_
  extract_lets +onlyGivenNames brd s1
  have hs1 : Shaped s1 := h.modEnd.readBrd
  refine .iteSnd (.ite hs1.ringRecord hs1) (.iteSnd hs1.ringRecord ?_)
  split
  exacts [hs1.ringRecord, hs1.putCells.ringWrite.modEnd]

theorem Shaped.lookBrd {o : RingObs} (h : Shaped s) : Shaped (s.lookBrd o) := by
  unfold State.lookBrd
  split
  exacts [h, h.readBrd.frame]

theorem Shaped.messageCopyDecided {o : RingObs} (h : Shaped s) : Shaped (messageCopyDecided o s) := by
  unfold Machine.messageCopyDecided
  refine .ite h ?_
  split
  · exact h.lookBrd
  · split
    · exact h
    · extract_lets +onlyGivenNames d ring s' s0
      clear_value d ring
      have hs0 : Shaped s0 := by
        unfold s0; split
        exacts [.ite h.frame.readCtl h.frame, h.frame]
      clear_value s0
      split
      · extract_lets irq l wr sent fire s1 s2 s3 s4 s5 s6
        have hs1 : Shaped s1 := hs0.putCells
        have hs2 : Shaped s2 := hs1.ringWrite
        have hs3 : Shaped s3 := hs2.modEnd
        have hs4 : Shaped s4 := .ite hs3.msix hs3
        have hs5 : Shaped s5 := hs4.ctxCount.ctxCount
        have hs6 : Shaped s6 := by unfold s6; split; exacts [hs5.modEnd, hs5]
        exact hs6.copyOutcome
      · extract_lets +onlyGivenNames s1 s2
        have hs1 : Shaped s1 := by unfold s1; split; exacts [.ite hs0.ringError hs0, hs0]
        have hs2 : Shaped s2 := by unfold s2; split; exacts [.ite hs1.modEnd hs1.modEnd.ringWrite, hs1]
        clear_value s2
        split
        exacts [(Shaped.ite hs2.bounceCopy.ctxCount hs2.bounceCopy).copyOutcome, hs2.copyOutcome]
      · exact h

theorem Shaped.busMasterSet (h : Shaped s) : Shaped (busMasterSet s) := .ite h.frame h

theorem Shaped.busMasterClear (h : Shaped s) : Shaped (busMasterClear s) := .ite h.frame h

theorem Shaped.hostHolds {line : Nat} (h : Shaped s) : Shaped (s.hostHolds line) := h.frame

theorem Shaped.cxlMemRead {a : Nat} {flips : List DramFlip} (h : Shaped s0) : Shaped (cxlMemRead a flips s0) := by
  unfold Machine.cxlMemRead
  extract_lets +onlyGivenNames s line ch off
  refine .ite h.decay ?_
  extract_lets +onlyGivenNames s1
  have hs1 : Shaped s1 := h.decay.wakeChans
  refine .ite hs1.emit ?_
  extract_lets s2
  have hs2 : Shaped s2 := hs1.engineEcc
  split
  exacts [hs2.emit, hs2.emit, hs2.emit.hostHolds]

theorem Shaped.cxlMemWrite {a : Nat} {data : BitVec 512} (h : Shaped s) : Shaped (cxlMemWrite a data s) := .ite h h.frame.poolWrite

theorem Shaped.functionLevelReset (h : Shaped s) : Shaped (functionLevelReset s) :=
    .ite h (h.frame.foldl fun ha => ha.foldl fun ha1 => .ite ha1.stopQueue ha1)

theorem Shaped.lockIdleExpired (h : Shaped s) : Shaped (lockIdleExpired s) := .ite h.frame h

theorem Shaped.backgroundOpFinished {op : Nat} (h : Shaped s) : Shaped (backgroundOpFinished op s) := by
  unfold Machine.backgroundOpFinished
  split
  · split
    exacts [.ite h h.finishOp, h]
  · exact h

theorem Shaped.cxlLinkTraining {up : Bool} {rate width : Nat} {flit68 : Bool} (h : Shaped s) : Shaped (cxlLinkTraining up rate width flit68 s) :=
    .ite h h.frame

/-! ### Reel -/

theorem Shaped.mbReelInfo {m : Master} {p : Payload} (h : Shaped s) : Shaped (mbReelInfo m p s).1 := h.checked h

theorem Shaped.setReel {st : ReelState} {cause : Nat} (h : Shaped s) : Shaped (s.setReel st cause) := .ite h.frame h.frame.logErr

theorem Shaped.beginReelOp {id code a b : Nat} (h : Shaped s) : Shaped (s.beginReelOp id code a b) := h.frame

theorem Shaped.mbReelEject {m : Master} {p : Payload} (h : Shaped s) : Shaped (mbReelEject m p s).1 :=
    h.checked (.iteFst h (h.background fun ha => ha.beginReelOp.setReel))

theorem Shaped.mbReelSeal {m : Master} {p : Payload} (h : Shaped s) : Shaped (mbReelSeal m p s).1 := by
  unfold Machine.mbReelSeal
  refine h.checked ?_
  extract_lets off len r
  exact .iteFst h (.iteFst h (.iteFst h (.iteFst h (.iteFst h (.iteFst h (h.background fun ha => ha.beginReelOp))))))

theorem Shaped.mbReelFormat {m : Master} {p : Payload} (h : Shaped s) : Shaped (mbReelFormat m p s).1 :=
    h.checked (.iteFst h (.iteFst h (.iteFst h (h.background fun ha => ha.beginReelOp))))

theorem Shaped.endAccesses {st : Nat} (h : Shaped s) : Shaped (s.endAccesses st) := h.frame.foldl fun ha => ha.setOutcome

theorem Shaped.endReelLoads {st : Nat} (h : Shaped s) : Shaped (s.endReelLoads st) := by
  unfold State.endReelLoads
  exact h.foldl fun ha => by split; exacts [ha.modCtx.finishOp?, ha]

theorem Shaped.reelOpFinished {op : Nat} {good : Bool} (h : Shaped s) : Shaped (reelOpFinished op good s) := by
  unfold Machine.reelOpFinished
  split
  · exact h
  · extract_lets +onlyGivenNames _ s1
    split
    · exact h.frame.endAccesses.endReelLoads.setReel.finishOp
    · exact .ite h.frame.reelIoOpen.finishOp (.ite h.frame.frame.finishOp h.frame.frame.setReel.finishOp)

theorem Shaped.scrambleReads (h : Shaped s) : Shaped s.scrambleReads := by
  unfold State.scrambleReads
  exact h.foldl fun ha => by split; exacts [.ite ha.locWrite.frame ha, ha]

theorem Shaped.reelLost (h : Shaped s) : Shaped s.reelLost := by
  unfold State.reelLost
  extract_lets ops s1 _ s2
  have hs1 : Shaped s1 := h.scrambleReads.endAccesses.endReelLoads
  have hs2 : Shaped s2 := hs1.frame.foldl fun ha => ha.finishOp
  exact .ite hs2.dumpTargetFailed hs2

theorem Shaped.reelOff (h : Shaped s) : Shaped s.reelOff := h.reelLost.frame

theorem Shaped.reelLatchOpen (h : Shaped s) : Shaped (reelLatchOpen s) := ((Shaped.ite h h.reelOff).frame).setReel

theorem Shaped.reelLatchClose (h : Shaped s) : Shaped (reelLatchClose s) := .ite h.frame.setReel h.frame

theorem Shaped.reelHealth {pu units : Nat} {readOnly : Bool} (h : Shaped s) : Shaped (s.reelHealth pu units readOnly) :=
    .ite ((Shaped.ite h.frame.logErr h.frame).logErr) (.ite h.frame.logErr h.frame)

theorem Shaped.reelStartingDone {f : ReelFound} (h : Shaped s) : Shaped (reelStartingDone f s) := by
  unfold Machine.reelStartingDone
  refine .ite h (.ite h.setReel (.ite h.setReel ?_))
  extract_lets +onlyGivenNames _ s1
  refine .ite h.frame.setReel ?_
  extract_lets +onlyGivenNames s2
  have hs2 : Shaped s2 := h.frame.reelHealth
  split
  exacts [.ite hs2.frame.setReel hs2.setReel, hs2.setReel]

theorem Shaped.reelFailed {cause st : Nat} (h : Shaped s) : Shaped (s.reelFailed cause st) := by
  unfold State.reelFailed
  extract_lets ops s1 _ s2 s3
  have hs1 : Shaped s1 := h.endAccesses.endReelLoads
  have hs2 : Shaped s2 := hs1.frame.foldl fun ha => ha.finishOp
  have hs3 : Shaped s3 := hs2.setReel
  exact .ite hs3.dumpTargetFailed hs3

theorem Shaped.reelHealthPoll {pu units : Nat} {readOnly critical : Bool} (h : Shaped s) : Shaped (reelHealthPoll pu units readOnly critical s) :=
    .ite h (.ite h.reelHealth.reelFailed h.reelHealth)

theorem Shaped.endReelOp (h : Shaped s) : Shaped s.endReelOp := by
  unfold State.endReelOp
  split
  exacts [h.frame.finishOp, h]

theorem Shaped.reelCommandTimeout (h : Shaped s) : Shaped (reelCommandTimeout s) := by
  unfold Machine.reelCommandTimeout
  extract_lets +onlyGivenNames r
  refine .ite h ?_
  extract_lets +onlyGivenNames s0 _ s1
  have hs0 : Shaped s0 := h.frame
  have hs1 : Shaped s1 := by
    unfold s1; split
    · exact hs0.reelIoOpen.dumpTargetFailed
    · split
      exacts [hs0.endReelLoads.endReelOp.reelIoOpen, hs0.frame.setOutcome.reelIoOpen]
  exact .ite hs1.reelFailed hs1

theorem Shaped.reelAccessDone {good : Bool} {nvme : Nat} (h : Shaped s) : Shaped (reelAccessDone good nvme s) := by
  unfold Machine.reelAccessDone
  split
  · exact h
  · extract_lets +onlyGivenNames _ s1 a
    refine .ite h.frame.setOutcome.reelIoError ?_
    split
    exacts [h.frame, .ite h.frame.setOutcome h.frame.moveData.setOutcome]

/-! ### Checks -/

theorem Shaped.replicaFault {c : Nat} {g : Prog} {cls : Nat} {body : List Byte} {silent : Bool} (h : Shaped s) : Shaped (s.replicaFault c g cls body silent) :=
    ((((Shaped.ite h.logErr h).logErr).ctxCount).modCtx).afterReplica

theorem Shaped.replicaReportsGathered {c : Nat} {reports : List ReplicaReport} (h : Shaped s0) : Shaped (replicaReportsGathered c reports s0) := by
  unfold Machine.replicaReportsGathered
  split
  · exact h
  · extract_lets +onlyGivenNames x pos
    refine .ite h ?_
    extract_lets +onlyGivenNames s step l
    refine .ite h.waited.afterReplica ?_
    split
    · exact h.waited.replicaFault
    · extract_lets +onlyGivenNames apart
      clear_value apart
      split
      · exact h.waited.ctxCount.modCtx.afterReplica
      · exact .ite h.waited.modCtx h.waited.replicaFault

theorem Shaped.rebuildFault {c : Nat} {j : Nat × Nat × Nat} {g : Prog} (h : Shaped s) : Shaped (s.rebuildFault c j g) := h.replicaFault

theorem Shaped.replicaRebuildDone {c : Nat} {data : List Byte} {good : Bool} (h : Shaped s0) : Shaped (replicaRebuildDone c data good s0) := by
  unfold Machine.replicaRebuildDone
  split
  · exact h
  · extract_lets +onlyGivenNames s x
    refine .ite h (.ite h.waited.rebuildFault ?_)
    extract_lets +onlyGivenNames keys l r
    have hr : Shaped r.1 := h.waited.foldlFst fun ha => ha.ctxWrite
    exact .ite ((Shaped.ite hr.modCtx hr.modCtx.ctxCount).afterReplica) hr.rebuildFault

theorem Shaped.replicaRebuildTimeout {c : Nat} (h : Shaped s) : Shaped (replicaRebuildTimeout c s) := by
  unfold Machine.replicaRebuildTimeout
  split
  exacts [h, .ite h h.waited.rebuildFault]

theorem Shaped.phyWarn {a : ErrAt} {kind ix lane : Nat} (h : Shaped s) : Shaped (s.phyWarn a kind ix lane) := h.logErr

theorem Shaped.phyChannel {ch : Nat} {bad : Bool} (h : Shaped s) : Shaped (s.phyChannel ch bad) :=
    .ite h (.ite h.modPt h.modPt.phyWarn.modChan)

theorem Shaped.phyFabric {p lane : Nat} {bad : Bool} (h : Shaped s) : Shaped (s.phyFabric p lane bad) := by
  unfold State.phyFabric
  refine .ite h ?_
  extract_lets s1 s2 s3
  have hs2 : Shaped s2 := by unfold s2; split; exacts [.ite h.phyWarn.breakLane h.phyWarn, h.phyWarn]
  have hs3 : Shaped s3 := hs2.modPort
  exact .ite hs3.startTraining hs3

theorem Shaped.phyCheck {u : PhyUnit} {bad : Bool} (h : Shaped s) : Shaped (phyCheck u bad s) := by
  unfold Machine.phyCheck
  split
  exacts [h.phyChannel, h.phyFabric, .ite h.phyWarn h]

theorem Shaped.coreWatchdogExpired {core : Nat} (h : Shaped s) : Shaped (coreWatchdogExpired core s) := by
  unfold Machine.coreWatchdogExpired
  refine .ite h ?_
  extract_lets loc e l s1 s2 _ s3 s4
  have hs2 : Shaped s2 := .ite h.logErr.startDump h.logErr
  have hs4 : Shaped s4 := .ite hs2.frame.coreOff hs2.frame
  exact .ite hs4.beginRestart hs4

theorem Shaped.controlCoreRestartDone {core : Nat} (h : Shaped s) : Shaped (controlCoreRestartDone core s) := h.frame

theorem Shaped.controlDieHeartbeat (h : Shaped s) : Shaped (controlDieHeartbeat s) := .ite h h.frame

theorem Shaped.loseCt0 (h : Shaped s) : Shaped s.loseCt0 := h.frame

theorem Shaped.loseCt1 (h : Shaped s) : Shaped s.loseCt1 := by
  unfold State.loseCt1
  extract_lets +onlyGivenNames _ s1 _ t s2
  have hs1 : Shaped s1 := h.frame
  have ht : Shaped t := hs1.endReading.frame
  have hs2 : Shaped s2 := by
    unfold s2; split
    exacts [ht.logErr.finishOp?, hs1]
  refine (Shaped.ite hs2 hs2.reelLost.setReel).foldl fun ha => ha.modSheet (ht := fun x => ?_)
  split <;> simp

theorem Shaped.controlDieLost {die : Nat} (h : Shaped s) : Shaped (controlDieLost die s) := .ite h ((Shaped.ite h.loseCt0 h.loseCt1).logErr)

/-! ### CheckEngine -/

theorem Shaped.watermarkEntry {c q : Nat} {n : W32} {flips : List DramFlip} (h : Shaped s0) : Shaped (watermarkEntry c q n flips s0) := by
  unfold Machine.watermarkEntry
  extract_lets +onlyGivenNames s k
  split
  · exact h.decay
  · extract_lets +onlyGivenNames a len dk b fail
    refine .ite h.decay.setOutcome (.ite h.decay.setOutcome (.ite h.decay.setOutcome (.ite h.decay.setOutcome (.ite h.decay.setOutcome ?_))))
    split
    · exact h.decay.setOutcome
    · refine .ite h.decay ?_
      extract_lets +onlyGivenNames r
      have hr : Shaped r.1 := h.decay.wakeLoc.wakeLoc.readRange
      exact .ite hr.setOutcome hr.locWrite.setOutcome

theorem Shaped.replicaCheck {c q : Nat} {n : W32} (h : Shaped s) : Shaped (replicaCheck c q n s) := by
  unfold Machine.replicaCheck
  extract_lets +onlyGivenNames k
  split
  · exact h
  · extract_lets +onlyGivenNames x r m fail
    have hfail : Shaped fail := h.setOutcome
    refine .ite h (.ite hfail ?_)
    split
    exacts [.ite hfail (.ite h.modCtx h.modCtx), hfail]

/-! ### Ports -/

theorem Shaped.mbPortStatus {m : Master} {p : Payload} (h : Shaped s) : Shaped (mbPortStatus m p s).1 := h.checked (.iteFst h h)

theorem Shaped.mbVcBind {m : Master} {p : Payload} (h : Shaped s) : Shaped (mbVcBind m p s).1 := by
  unfold Machine.mbVcBind
  refine h.checked ?_
  extract_lets +onlyGivenNames n vc g
  refine .iteFst h (.iteFst h (.iteFst h ?_))
  extract_lets ps clash
  split
  exacts [h, .iteFst h (h.foldl fun ha => ha.modPort)]

theorem Shaped.mbRouteSet {m : Master} {p : Payload} (h : Shaped s) : Shaped (mbRouteSet m p s).1 := by
  unfold Machine.mbRouteSet
  extract_lets +onlyGivenNames f n es bad
  refine .iteFst h (.iteFst h (.iteFst h ?_))
  split
  · exact h
  · split
    exacts [h, .iteFst h h.frame]

theorem Shaped.mbRouteGet {m : Master} {p : Payload} (h : Shaped s) : Shaped (mbRouteGet m p s).1 := h.checked (.iteFst h (.iteFst h h))

theorem Shaped.discardRx {p : Nat} {b : List Byte} (h : Shaped s) : Shaped (s.discardRx p b) :=
    .ite h.portCount.modPort.logFabric h.portCount

theorem Shaped.forwardPacket {p : Nat} {b : List Byte} (h : Shaped s) : Shaped (s.forwardPacket p b) := .ite h.fwdDrop h.transmit.portCount

theorem Shaped.countFec {p : Nat} {f : FecCount} (h : Shaped s) : Shaped (s.countFec p f) := h.portCount.portCount

theorem Shaped.fabricPacketRx {p : Nat} {b : List Byte} {fec : FecCount} (h : Shaped s) : Shaped (fabricPacketRx p b fec s) := by
  unfold Machine.fabricPacketRx
  extract_lets +onlyGivenNames x
  refine .ite h ?_
  extract_lets +onlyGivenNames s1
  have hs1 : Shaped s1 := h.emit.countFec
  exact .ite hs1.discardRx (.ite hs1.discardRx (.ite hs1.portCount.deliverPacket hs1.portCount.forwardPacket))

theorem Shaped.creditReturn {p vc n : Nat} (h : Shaped s) : Shaped (creditReturn p vc n s) := .ite h h.modPort.drainPort

theorem Shaped.ethernetFrameRx {p : Nat} {dst : BitVec 48} {etherType : W16} {b : List Byte} {fec : FecCount} (h : Shaped s0) : Shaped (ethernetFrameRx p dst etherType b fec s0) := by
  unfold Machine.ethernetFrameRx
  extract_lets +onlyGivenNames s x
  have hs : Shaped s := h.countFec
  exact .ite h (.ite hs.discardRx (.ite hs.fwdDrop (.ite hs.discardRx (.ite hs (.ite hs.fwdDrop hs.portCount.deliverPacket)))))

theorem Shaped.portTrained {p : Nat} {lanes : BitVec 4} {peer : W16} {peerPort : Byte} (h : Shaped s) : Shaped (portTrained p lanes peer peerPort s) :=
    .ite h h.trainPort

/-! ### Erasure -/

theorem Shaped.sendChunk {j : Job} {n c : Nat} {q : Bool} (h : Shaped s) : Shaped (s.sendChunk j n c q) := by
  unfold State.sendChunk
  extract_lets i dst
  split
  exacts [h, h.foldl fun ha => ha.sendPacket]

theorem Shaped.sendChunks {j : Job} {n : Nat} (h : Shaped s) : Shaped (s.sendChunks j n) := h.foldl fun ha => ha.sendChunk.sendChunk

theorem Shaped.ackPacket {k : Packet} (h : Shaped s) : Shaped (s.ackPacket k) := h.sendPacket

theorem Shaped.ecReceive {k : Packet} (h : Shaped s) : Shaped (s.ecReceive k) := by
  unfold State.ecReceive
  split
  exacts [h.stale, .ite h.stale (.ite h.ackPacket h.ctxWrite.modJob.ackPacket)]

theorem Shaped.snapshotCopyComplete {job : Nat} (h : Shaped s) : Shaped (snapshotCopyComplete job s) := by
  unfold Machine.snapshotCopyComplete
  split
  · exact h
  · exact .ite h (.ite h.modJob.modCtx.sendChunks.leavePoint h.modJob.modCtx.sendChunks)

theorem Shaped.ecGenerationComplete {job : Nat} (h : Shaped s) : Shaped (ecGenerationComplete job s) := by
  unfold Machine.ecGenerationComplete
  split
  exacts [h, .ite h (.ite h.modJob.ctxCount.modJob.tryVote h.modJob.ctxCount)]

theorem Shaped.ecRefresh {c q : Nat} {n : W32} (h : Shaped s) : Shaped (ecRefresh c q n s) := by
  unfold Machine.ecRefresh
  extract_lets k
  split
  · exact h
  · split
    exacts [h.setOutcome, .ite h (.ite h.setOutcome h.modJob.modCtx)]

theorem Shaped.ecRebuild {c q : Nat} {n : W32} {shard : ReadResult} (h : Shaped s) : Shaped (ecRebuild c q n shard s) := by
  unfold Machine.ecRebuild
  extract_lets +onlyGivenNames k
  split
  · exact h
  · extract_lets +onlyGivenNames fail
    split
    · exact h.setOutcome
    · extract_lets r a len
      refine .ite h.setOutcome (.ite h.setOutcome (.ite h.setOutcome ?_))
      split
      · exact h.setOutcome
      · refine .ite h.setOutcome (.ite h.setOutcome ?_)
        split
        exacts [.ite h h.wakeLoc.locWrite.ctxCount.setOutcome, h.setOutcome]

/-! ### Colls -/

theorem Shaped.modColl {c id : Nat} {f : Coll → Coll} (h : Shaped s) : Shaped (s.modColl c id f) := h.modCtx

theorem Shaped.collFault {c id sub port peer pkt detail : Nat} (h : Shaped s) : Shaped (s.collFault c id sub port peer pkt detail) := by
  unfold State.collFault
  split
  · exact h
  · refine .ite h ?_
    extract_lets occ s1
    split
    exacts [h.logErr.setOutcome.modColl, h.logErr.modColl]

theorem Shaped.collSend {c : Nat} {d : Coll} {typ flags peer pkt : Nat} {pay : List Byte} (h : Shaped s) : Shaped (s.collSend c d typ flags peer pkt pay) := by
  unfold State.collSend
  split
  · exact h
  · extract_lets vc
    clear_value vc
    split
    exacts [h, h.sendPacket]

theorem Shaped.collData {c id typ peer pkt : Nat} {pay : List Byte} {again : Bool} (h : Shaped s) : Shaped (s.collData c id typ peer pkt pay again) := by
  unfold State.collData
  split
  exacts [h, .ite h.collSend h.collSend.modColl]

theorem Shaped.startTimer {c id peer pkt : Nat} (h : Shaped s) : Shaped (s.startTimer c id peer pkt) := h.modColl

theorem Shaped.stopTimer {c id peer pkt : Nat} (h : Shaped s) : Shaped (s.stopTimer c id peer pkt) := by
  unfold State.stopTimer
  split
  exacts [h, .ite h.modColl.ctxCount.modColl h.modColl]

theorem Shaped.accepted {c id peer pkt : Nat} {pay : List Byte} (h : Shaped s) : Shaped (s.accepted c id peer pkt pay) :=
    h.modColl.stopTimer

theorem Shaped.writeResult {c : Nat} {d : Coll} {pkt : Nat} {r : List Byte × List Byte × List Byte} (h : Shaped s) : Shaped (s.writeResult c d pkt r) :=
    ((Shaped.ite h.ctxWrite.ctxWrite h.ctxWrite).ctxWrite).modColl

theorem Shaped.sumDone {c id : Nat} {p : Partial} (h : Shaped s) : Shaped (s.sumDone c id p) := by
  unfold State.sumDone
  split
  · exact h
  · refine .ite h ?_
    split
    · exact h.collData.startTimer
    · exact .ite (h.writeResult.foldl fun ha => ha.collData) h.writeResult
    · exact h

theorem Shaped.addInput {c id : Nat} {p : Partial} {port peer : Nat} (h : Shaped s) : Shaped (s.addInput c id p port peer) := by
  unfold State.addInput
  split
  · exact h
  · extract_lets +onlyGivenNames held
    split
    · exact h.collFault
    · exact (Shaped.ite h.modColl (h.modColl.foldl fun ha => .ite ha.startTimer ha)).sumDone

theorem Shaped.pump {c id n : Nat} (h : Shaped s) : Shaped (s.pump c id n) := by
  induction n generalizing s with
  | zero => exact h
  | succ n ih =>
    unfold State.pump
    split
    exacts [h, .ite h (ih h.modColl.ctxCount.addInput)]

theorem Shaped.pumpEdge {c id peer n : Nat} (h : Shaped s) : Shaped (s.pumpEdge c id peer n) := by
  induction n generalizing s with
  | zero => exact h
  | succ n ih =>
    unfold State.pumpEdge
    split
    · exact h
    · split
      · exact h
      · extract_lets src
        split
        exacts [h, .ite h (ih h.collData.startTimer)]

theorem Shaped.pumpData {c id : Nat} (h : Shaped s) : Shaped (s.pumpData c id) := by
  unfold State.pumpData
  split
  exacts [h, h.foldl fun ha => ha.pumpEdge]

theorem Shaped.pumpAll {c id : Nat} (h : Shaped s) : Shaped (s.pumpAll c id) := by
  unfold State.pumpAll
  split
  exacts [h, .ite h.pump (.ite h h.pumpData)]

theorem Shaped.startOcc {c id occ : Nat} (h : Shaped s) : Shaped (s.startOcc c id occ) := by
  unfold State.startOcc
  split
  · exact h
  · extract_lets +onlyGivenNames x
    split
    · exact h
    · refine .ite h ?_
      extract_lets _ s1 s2 s3
      have hs1 : Shaped s1 := .ite h.frame.logErr h
      have hs2 : Shaped s2 := hs1.modColl
      have hs3 : Shaped s3 := .ite (hs2.foldl fun ha => ha.startTimer) hs2
      exact hs3.pumpAll

theorem Shaped.collectiveOccurrenceStart {c id : Nat} (h : Shaped s) : Shaped (collectiveOccurrenceStart c id s) := by
  unfold Machine.collectiveOccurrenceStart
  extract_lets +onlyGivenNames x
  split
  exacts [.ite h h.startOcc, h]

theorem Shaped.collectiveOccurrenceDone {c id : Nat} (h : Shaped s) : Shaped (collectiveOccurrenceDone c id s) := by
  unfold Machine.collectiveOccurrenceDone
  split
  · exact h
  · split
    · exact h
    · refine .ite h ?_
      extract_lets +onlyGivenNames s1
      have hs1 : Shaped s1 := h.foldl fun ha => .ite ha.collSend.modColl ha
      refine .ite hs1 ?_
      extract_lets s2
      have hs2 : Shaped s2 := hs1.modColl.ctxCount
      split
      exacts [hs2.setOutcome, hs2]

theorem Shaped.takePacket {sel : Packet → Bool} {k : Packet} (h : Shaped s) (ht : s.takePacket sel = some (k, t)) : Shaped t := by
  obtain ⟨k', -, hk⟩ := Option.map_eq_some_iff.1 ht
  obtain ⟨-, rfl⟩ := Prod.mk.inj hk
  exact h.frame

theorem Shaped.onPacket {typ : Nat} {f : Packet → Nat → Coll → Edge → State → State} (h : Shaped s)
    (hf : ∀ {k c d e a}, Shaped a → Shaped (f k c d e a)) : Shaped (s.onPacket typ f) := by
  unfold State.onPacket
  split
  · exact h
  · rename_i k s1 hs1
    replace hs1 := h.takePacket hs1
    split
    exacts [hs1.stale, .ite hs1 (hf hs1)]

theorem Shaped.contrib (h : Shaped s) : Shaped (contrib s) := by
  unfold Machine.contrib
  exact h.onPacket fun ha => (.ite ha.stale (.ite ha (((Shaped.ite ha.accepted.collSend ha.accepted).addInput).pumpAll)))

theorem Shaped.result (h : Shaped s) : Shaped (result s) := by
  unfold Machine.result
  exact h.onPacket fun ha => (.ite ha.stale (.ite ha ((ha.accepted.writeResult.foldl fun ha1 => ha1.collData).pumpAll)))

theorem Shaped.data (h : Shaped s) : Shaped (data s) := by
  unfold Machine.data
  split
  · exact h
  · rename_i k s1 hs1
    replace hs1 := h.takePacket hs1
    refine .ite hs1.ecReceive (h.onPacket fun ha => (.ite ha.stale (.ite ha.collSend ?_)))
    extract_lets t1 t2 t3
    have ht1 : Shaped t1 := ha.accepted.ctxWrite.modColl
    have ht2 : Shaped t2 := ht1.collSend
    have ht3 : Shaped t3 := .ite ht2.startTimer ht2
    exact ht3.pumpAll

theorem Shaped.ack (h : Shaped s) : Shaped (Machine.ack s) := by
  unfold Machine.ack
  split
  · exact h
  · rename_i k s1 hs1
    replace hs1 := h.takePacket hs1
    exact .ite (.ite hs1 hs1.stale) (h.onPacket fun ha => .ite ha.stale (.ite ha ha.modColl.stopTimer.pumpAll))

theorem Shaped.reissueReq (h : Shaped s) : Shaped (reissueReq s) := by
  unfold Machine.reissueReq
  refine h.onPacket fun ha => ?_
  extract_lets +onlyGivenNames t1
  have ht1 : Shaped t1 := ha.modColl
  split
  · exact ht1.collSend
  · exact .ite ha (.ite ht1.modColl.ctxCount.logFabric.collSend ht1.modColl.ctxCount.logFabric.collData)

theorem Shaped.pending (h : Shaped s) : Shaped (pending s) := h.onPacket fun ha => ha.modColl

theorem Shaped.digest (h : Shaped s) : Shaped (digest s) := h.onPacket fun ha => .ite ha.modColl ha.modColl.collFault

theorem Shaped.nipWaitExpired {c id peer pkt : Nat} (h : Shaped s) : Shaped (nipWaitExpired c id peer pkt s) := by
  unfold Machine.nipWaitExpired
  split
  · exact h
  · split
    exacts [h, .ite h (.ite h.modColl.collSend (.ite h.ctxCount.modColl.collFault h))]

theorem Shaped.collective {c q : Nat} {n : W32} (h : Shaped s) : Shaped (collective c q n s) := by
  unfold Machine.collective
  extract_lets +onlyGivenNames k
  split
  · exact h
  · extract_lets +onlyGivenNames x fail id a
    split
    · exact h.startOcc
    · refine .ite h.setOutcome (.ite h.setOutcome (.ite h.setOutcome ?_))
      extract_lets +onlyGivenNames d0 d ports
      split
      · exact h.setOutcome
      · split
        · exact h.setOutcome
        · refine .ite h.setOutcome (.ite h.setOutcome (.ite h.setOutcome ?_))
          split
          exacts [h.setOutcome, .ite h.setOutcome (.ite h.modCtx.startOcc h.modCtx.setOutcome)]

theorem Shaped.mbCollStatus {m : Master} {p : Payload} (h : Shaped s) : Shaped (mbCollStatus m p s).1 := by
  unfold Machine.mbCollStatus
  refine h.checked (h.withCtx ?_)
  split <;> exact h

/-! ### Jobs -/

theorem Shaped.greetAll {was : List Job} (h : Shaped s) : Shaped (s.greetAll was) := h.frame

theorem Shaped.forms {id : Nat} (h : Shaped s) : Shaped (s.forms id) := h.modJob

theorem Shaped.formFailed {id st : Nat} (h : Shaped s) : Shaped (s.formFailed id st) := by
  unfold State.formFailed
  split
  exacts [h, .ite h.finishOp?.modJob h.finishOp?.frame]

theorem Shaped.applyFormed {id gen step : Nat} {joiners : List Nat} (h : Shaped s) : Shaped (s.applyFormed id gen step joiners) := by
  unfold State.applyFormed
  split
  · exact h
  · refine .ite h ?_
    extract_lets s1 s2
    have hs1 : Shaped s1 := h.memberSendAll
    have hs2 : Shaped s2 := .ite hs1.tookSerial.modJob hs1
    refine .ite hs2.modJob.finishOp? ?_
    split
    exacts [hs2.logErr.formFailed, hs2.modJob]

theorem Shaped.tryForm {id : Nat} (h : Shaped s) : Shaped (s.tryForm id) := by
  unfold State.tryForm
  split
  exacts [h, .ite h h.applyFormed]

theorem Shaped.sayHello {id : Nat} (h : Shaped s) : Shaped (s.sayHello id) := by
  unfold State.sayHello
  split
  exacts [h, .ite h.modJob.tryForm h.memberSend]

theorem Shaped.abandonColls {c : Nat} (h : Shaped s) : Shaped (s.abandonColls c) := by
  unfold State.abandonColls
  exact (h.foldl fun ha => by split; exacts [ha.setOutcome, ha]).modCtx

theorem Shaped.abandonRefresh {id : Nat} (h : Shaped s) : Shaped (s.abandonRefresh id) := by
  unfold State.abandonRefresh
  split
  exacts [h, ((Shaped.ite h.finishOp? h).modJob).modCtx]

theorem Shaped.applyRestart {id : Nat} {lost : List Nat} (h : Shaped s) : Shaped (s.applyRestart id lost) := by
  unfold State.applyRestart
  split
  · exact h
  · refine .ite h ?_
    extract_lets c all s1 s2 s3 s4 s5
    have hs1 : Shaped s1 := h.modJob.greetAll.memberSendAll
    have hs2 : Shaped s2 := hs1.logErr.ctxCount
    have hs3 : Shaped s3 := (hs2.foldl fun ha => ha.setOutcome).modCtx
    have hs4 : Shaped s4 := hs3.orphanCovers.abandonColls.abandonRefresh
    have hs5 : Shaped s5 := by unfold s5; split; exacts [.ite hs4.abandonStep hs4, hs4]
    exact hs5.modJob

theorem Shaped.voteRestart {id : Nat} (h : Shaped s) : Shaped (s.voteRestart id) := by
  unfold State.voteRestart
  split
  · exact h
  · extract_lets +onlyGivenNames l
    refine .ite h ?_
    extract_lets +onlyGivenNames n lost
    split
    · exact h.memberSend
    · refine .ite h ?_
      extract_lets s1
      have hs1 : Shaped s1 := by unfold s1; split; exacts [h.foldl fun ha => ha.memberSendAt, h]
      exact hs1.applyRestart

theorem Shaped.holdJob {c : Nat} (h : Shaped s) : Shaped (s.holdJob c) := h.modCtx

theorem Shaped.takeLost {id rank cause : Nat} (h : Shaped s) : Shaped (s.takeLost id rank cause) := by
  unfold State.takeLost
  split
  · exact h
  · extract_lets +onlyGivenNames live
    refine .ite h ?_
    extract_lets +onlyGivenNames known dests s1 s2 s3
    have hs2 : Shaped s2 := h.logErr.memberSendAll
    have hs3 : Shaped s3 := hs2.modJob
    exact .ite hs3.abandonColls.holdJob.abandonRefresh.modJob.voteRestart (.ite hs3.finishOp?.modJob hs3)

theorem Shaped.declareLost {id rank cause : Nat} (h : Shaped s) : Shaped (s.declareLost id rank cause) := h.takeLost.greetAll

theorem Shaped.writeRegions {c : Nat} {b : List Byte} (h : Shaped s) : Shaped (s.writeRegions c b) :=
    h.foldlFst fun ha => .iteFst ha ha.ctxWrite

theorem Shaped.restoreSaved {c : Nat} {v : Saved} (h : Shaped s) : Shaped (s.restoreSaved c v) := by
  unfold State.restoreSaved
  split
  · exact h
  · extract_lets s1 s2 s3 s4 s5
    have hs2 : Shaped s2 := h.modCtx.foldl fun ha => ha.modPt
    have hs3 : Shaped s3 := hs2.foldl fun ha => by split; exacts [ha.ctxWrite, ha]
    have hs4 : Shaped s4 := hs3.loadTiles
    have hs5 : Shaped s5 := hs4.foldl fun ha => ha.foldl fun ha1 => ha1.modSheet
    exact hs5.foldl fun ha => by split; exacts [ha.modTile, ha]

theorem Shaped.applyRestarted {id : Nat} (h : Shaped s) : Shaped (s.applyRestarted id) := by
  unfold State.applyRestarted
  split
  exacts [h, .ite h h.memberSendAll.logErr.finishOp?.modJob]

theorem Shaped.restartFailed {id : Nat} (h : Shaped s) : Shaped (s.restartFailed id) := by
  unfold State.restartFailed
  split
  exacts [h, .ite h h.memberSendAll.finishOp?.modJob]

theorem Shaped.tryRestored {id : Nat} (h : Shaped s) : Shaped (s.tryRestored id) := by
  unfold State.tryRestored
  split
  · exact h
  · split
    · exact h
    · refine .ite h ?_
      extract_lets v
      split
      exacts [h.memberSend.modJob, .ite h.applyRestarted h.restartFailed]

theorem Shaped.restartStateRestored {job : Nat} {shard : ReadResult} (h : Shaped s) : Shaped (restartStateRestored job shard s) := by
  unfold Machine.restartStateRestored
  split
  · exact h
  · refine .ite h ?_
    extract_lets +onlyGivenNames c report
    split
    · split
      exacts [h.restoreSaved.writeRegions.modJob.tryRestored, h.modJob.tryRestored]
    · split
      · exact .ite h h.frame.restoreSaved.writeRegions.ctxWrite.ctxWrite.ctxCount.modJob.modJob.tryRestored
      · exact h.modJob.tryRestored

theorem Shaped.onMember {sub : Nat} {any : Job → List Byte → Bool} {f : Packet → Nat → Job → State → State} (h : Shaped s)
    (hf : ∀ {k r j a}, Shaped a → Shaped (f k r j a)) : Shaped (s.onMember sub any f) := by
  unfold State.onMember
  split
  · exact h
  · rename_i k s1 hs1
    replace hs1 := h.takePacket hs1
    extract_lets +onlyGivenNames r ep body
    split
    · exact hs1.stale
    · extract_lets +onlyGivenNames guest
      refine .ite hs1.stale (.ite hs1 ?_)
      extract_lets s2 s3
      have hs2 : Shaped s2 := .ite hs1.modJob hs1
      have hs3 : Shaped s3 := .ite hs2 hs2.memberSendAt
      split
      exacts [hf hs3, hs3]

theorem Shaped.hello (h : Shaped s) : Shaped (hello s) := by
  unfold Machine.hello
  split
  · exact h
  · rename_i k s1 hs1
    replace hs1 := h.takePacket hs1
    extract_lets +onlyGivenNames forming
    exact .ite hs1.stale (h.onMember fun ha => .ite (.ite ha.modJob.tryForm ha.modJob.memberSend) (.ite ha.formFailed ha))

theorem Shaped.vote (h : Shaped s) : Shaped (vote s) := by
  unfold Machine.vote
  refine h.onMember fun ha => ?_
  extract_lets b code lost put
  exact .ite (.ite ha (((ha.foldl fun ha1 => .ite ha1 ha1.declareLost).modJob).voteRestart)) (.ite ha.modJob.tryRestored (.ite ha ha.modJob.tryVote))

theorem Shaped.decision (h : Shaped s) : Shaped (decision s) := by
  unfold Machine.decision
  refine h.onMember fun ha => ?_
  extract_lets b code gen step lost
  exact .ite ha.applyFormed (.ite ha.applyRestarted (.ite ha.applyRestart (.ite (.ite ha.restartFailed ha) (.ite ha ha.perStep))))

theorem Shaped.alert (h : Shaped s) : Shaped (alert s) := h.onMember fun ha => ha.declareLost

theorem Shaped.leave (h : Shaped s) : Shaped (leave s) := h.onMember fun ha => ha.declareLost

theorem Shaped.memberAck (h : Shaped s) : Shaped (memberAck s) := h.onMember fun ha => ha.modJob

theorem Shaped.heartbeat {job : Nat} (h : Shaped s) : Shaped (heartbeat job s) := by
  unfold Machine.heartbeat
  split
  exacts [h, .ite h (.ite h.modJob.memberSendAll (.ite h.modJob.sayHello h))]

theorem Shaped.heartbeatLost {job rank : Nat} (h : Shaped s) : Shaped (heartbeatLost job rank s) := by
  unfold Machine.heartbeatLost
  split
  exacts [h, .ite h.declareLost h]

theorem Shaped.memberResend {job : Nat} (h : Shaped s) : Shaped (memberResend job s) := by
  unfold Machine.memberResend
  split
  exacts [h, h.modJob.foldl fun ha => ha.sendPacket]

theorem Shaped.restartGatherExpired {job : Nat} (h : Shaped s) : Shaped (restartGatherExpired job s) := by
  unfold Machine.restartGatherExpired
  split
  exacts [h, .ite h.modJob.voteRestart h]

theorem Shaped.jobFormTimeout {job : Nat} (h : Shaped s) : Shaped (jobFormTimeout job s) := by
  unfold Machine.jobFormTimeout
  split
  exacts [h, .ite h.formFailed h]

theorem Shaped.losePeer {addr cause : Nat} (h : Shaped s) : Shaped (s.losePeer addr cause) := h.foldl fun ha => .ite ha.declareLost ha

theorem Shaped.resetNotice {p : Nat} (h : Shaped s) : Shaped (resetNotice p s) := .ite h h.losePeer

theorem Shaped.portDown {p : Nat} (h : Shaped s) : Shaped (portDown p s) := .ite h (.ite h.modPort.logFabric h.modPort.logFabric.losePeer)

theorem Shaped.mbJobCreate {m : Master} {p : Payload} (h : Shaped s) : Shaped (mbJobCreate m p s).1 := by
  unfold Machine.mbJobCreate
  refine h.checked ?_
  extract_lets +onlyGivenNames id c n rank a
  refine .iteFst h (.iteFst h (.iteFst h ?_))
  extract_lets +onlyGivenNames x
  refine .iteFst h (.iteFst h ?_)
  split
  · exact h
  · split
    exacts [h, .iteFst h (h.background fun ha => ha.frame.forms.sayHello)]

theorem Shaped.mbJobStatus {m : Master} {p : Payload} (h : Shaped s) : Shaped (mbJobStatus m p s).1 := by
  unfold Machine.mbJobStatus
  refine h.checked ?_
  split <;> exact h

theorem Shaped.mbJobLeave {m : Master} {p : Payload} (h : Shaped s) : Shaped (mbJobLeave m p s).1 := by
  unfold Machine.mbJobLeave
  refine h.checked ?_
  extract_lets +onlyGivenNames id
  split
  · exact h
  · refine h.background fun ha => (.ite ha.frame.dropHandle.readyOp ?_)
    extract_lets c t1 t2 t3 t4
    have ht1 : Shaped t1 := ha.leaveJob.modJob
    have ht2 : Shaped t2 := by unfold t2; split; exacts [ht1.finishOp, ht1]
    have ht3 : Shaped t3 := (ht2.foldl fun ha1 => ha1.setOutcome).modCtx
    have ht4 : Shaped t4 := by unfold t4; split; exacts [.ite ht3.rollOrCommit (.ite ht3.abandonStep ht3), .ite ht3.abandonStep ht3, ht3]
    exact ht4.readyOp

theorem Shaped.mbEcSetup {m : Master} {p : Payload} (h : Shaped s) : Shaped (mbEcSetup m p s).1 := by
  unfold Machine.mbEcSetup
  refine h.checked ?_
  extract_lets +onlyGivenNames id k rn
  refine .iteFst h (.iteFst h ?_)
  split
  · exact h
  · extract_lets +onlyGivenNames c x ch ar y ports meets
    refine .iteFst h (.iteFst h (.iteFst h (.iteFst h (.iteFst h ?_))))
    split
    exacts [h, .iteFst h (h.background fun ha => ha.ctxWrite.frame.modJob)]

theorem Shaped.mbJobRestart {m : Master} {p : Payload} (h : Shaped s) : Shaped (mbJobRestart m p s).1 := by
  unfold Machine.mbJobRestart
  refine h.checked ?_
  extract_lets +onlyGivenNames id c n rank a k rn
  refine .iteFst h (.iteFst h (.iteFst h (.iteFst h (.iteFst h ?_))))
  extract_lets +onlyGivenNames x old member b
  refine .iteFst h ?_
  extract_lets +onlyGivenNames bar
  clear_value bar
  split
  · exact h
  · extract_lets +onlyGivenNames fits
    refine .iteFst h (.iteFst h (h.background fun ha => ?_))
    extract_lets t1 _ t2
    have ht1 : Shaped t1 := ha.foldl fun ha1 => .ite ha1.startTraining ha1
    have ht2 : Shaped t2 := .ite ht1.modJob ht1.frame
    exact ht2.forms.sayHello

/-! ### Memory -/

theorem Shaped.slotWrite {c ch l tile : Nat} {flip : Link} {g : Prog} {al : Alloc} {cl : ChanList} {e : SlotEnt} {i n : Nat} (h : Shaped s) : Shaped (s.slotWrite c ch l tile flip g al cl e i n) := by
  unfold State.slotWrite
  extract_lets +onlyGivenNames st
  split
  · exact h.breach
  · extract_lets +onlyGivenNames s1 word go send
    split
    · exact h.modTile.frame
    · extract_lets x
      split
      exacts [h.modTile.wordFault.frame, h.modTile.frame]

theorem Shaped.slotRead {c ch l j : Nat} {mesh pro : Bool} {g : Prog} {al : Alloc} {cl : ChanList} {e : SlotEnt} {side : Bool} {i n : Nat} (h : Shaped s) : Shaped (s.slotRead c ch l j mesh pro g al cl e side i n) :=
    h.modCtx

theorem Shaped.channelSlotIssue {c ch : Nat} {flip : Link} (h : Shaped s) : Shaped (channelSlotIssue c ch flip s) := by
  unfold Machine.channelSlotIssue
  extract_lets +onlyGivenNames x
  split
  · extract_lets +onlyGivenNames l cl t
    refine .ite h ?_
    extract_lets s1
    split
    · refine .ite h ?_
      split
      exacts [.ite h.modChan.slotRead h.modChan, h.modChan]
    · refine .ite h ?_
      split
      · refine .ite h.modChan.slotRead ?_
        split
        exacts [h.modChan.slotWrite, h.modChan]
      · exact h.modChan
  · exact h

theorem Shaped.dramReadArrival {c ch : Nat} {flips : List DramFlip} (h : Shaped s0) : Shaped (dramReadArrival c ch flips s0) := by
  unfold Machine.dramReadArrival
  extract_lets +onlyGivenNames s pro now
  refine .ite h.decay ?_
  split
  exacts [h.decay.modCtx.deliverRead, h.decay]

theorem Shaped.sramScrub {i : Nat} {lanes : Byte} {ecc : Ecc} (h : Shaped s) : Shaped (sramScrub i lanes ecc s) :=
    .ite h (.ite h.modTile.modTile.logErr (.ite h.modTile.modTile h.modTile))

theorem Shaped.dramScrub {ch : Nat} {flips : List DramFlip} (h : Shaped s0) : Shaped (dramScrub ch flips s0) := by
  unfold Machine.dramScrub
  extract_lets +onlyGivenNames s x
  exact .ite h.decay (.ite h.decay.modChan.engineEcc (.ite h.decay.modChan.engineEcc h.decay.modChan.modChan))

theorem Shaped.logRefresh {c : Nat} {l : List (Nat × Nat)} (h : Shaped s) : Shaped (s.logRefresh c l) := h.logErr

theorem Shaped.refreshClass {c : Nat} (h : Shaped s) : Shaped (s.refreshClass c) := by
  unfold State.refreshClass
  extract_lets +onlyGivenNames x
  split
  exacts [h, .ite h (.ite h.logRefresh.modCtx (.ite h.logRefresh.modCtx h))]

theorem Shaped.dramTempSample {temps : List (Fin 48 × ℤ)} (h : Shaped s) : Shaped (dramTempSample temps s) :=
    h.frame.frame.foldl fun ha => ha.refreshClass

theorem Shaped.selfRefreshReentry {ch : Nat} (h : Shaped s) : Shaped (selfRefreshReentry ch s) := .ite h.modChan h

/-! ### Sideband -/

/-- Every mailbox command keeps the shape. -/
theorem MbFun.KeepsShape.of_mbOf {code : Nat} {k : MbKind × MbFun} (hk : mbOf code = some k) : k.2.KeepsShape := by
  unfold mbOf at hk
  split at hk <;> cases hk
  exacts [
    @Shaped.mbIdentify, @Shaped.mbOpStatus, @Shaped.mbDescribe, @Shaped.mbResolve, @Shaped.mbChildren, @Shaped.mbStatus,
    @Shaped.mbCounters, @Shaped.mbGroupCreate, @Shaped.mbGroupEdit, @Shaped.mbGroupDelete, @Shaped.mbStartStatus, @Shaped.mbCtxCreate,
    @Shaped.mbCtxDestroy, @Shaped.mbCtxAlloc, @Shaped.mbCtxFree, @Shaped.mbCtxBind, @Shaped.mbCtxSuspend, @Shaped.mbCtxResume,
    @Shaped.mbQueueConfig, @Shaped.mbProgLoad, @Shaped.mbProgUnload, @Shaped.mbProgInfo, @Shaped.mbReset, @Shaped.mbFwRestart,
    @Shaped.mbModeSet, @Shaped.mbModeGet, @Shaped.mbPowerSet, @Shaped.mbFence, @Shaped.mbUnfence, @Shaped.mbTest, @Shaped.mbTestResult,
    @Shaped.mbLedgerRead, @Shaped.mbDumpTrigger, @Shaped.mbDumpInfo, @Shaped.mbDumpRead, @Shaped.mbDumpClear, @Shaped.mbErrlogRead,
    @Shaped.mbSettingsGet, @Shaped.mbSettingsSet, @Shaped.mbFwInfo, @Shaped.mbFwStageBegin, @Shaped.mbFwStageData,
    @Shaped.mbFwStageCommit, @Shaped.mbFwRecoveryLoad, @Shaped.mbFwSvnAdvance, @Shaped.mbKeyEnrol, @Shaped.mbKeyClear,
    @Shaped.mbKeyList, @Shaped.mbReelInfo, @Shaped.mbReelEject, @Shaped.mbReelSeal, @Shaped.mbReelFormat, @Shaped.mbPortStatus,
    @Shaped.mbVcBind, @Shaped.mbJobCreate, @Shaped.mbJobStatus, @Shaped.mbJobLeave, @Shaped.mbEcSetup, @Shaped.mbRouteSet,
    @Shaped.mbRouteGet, @Shaped.mbCollStatus, @Shaped.mbJobRestart]

theorem Shaped.ct0Gate {code : Nat} {f : MbFun} (hf : f.KeepsShape) {m : Master} {p : Payload} (h : Shaped s) : Shaped (ct0Gate code f m p s).1 :=
  .iteFst (.iteFst h h) (hf h)

theorem Shaped.withHandles {f : MbFun} (hf : f.KeepsShape) {m : Master} {p : Payload} (h : Shaped s) : Shaped (withHandles f m p s).1 := by
  unfold Machine.withHandles
  extract_lets +onlyGivenNames _ r
  have hr : Shaped r.1 := hf h.frame
  exact hr.frame

theorem Shaped.tunnelled {code : Nat} {p : Payload} (h : Shaped s) : Shaped (tunnelled code p s).1 := by
  unfold Machine.tunnelled
  extract_lets unknown k
  have hk : k.2.KeepsShape := by
    unfold k
    cases hc : mbOf code
    exacts [fun h => h, MbFun.KeepsShape.of_mbOf hc]
  refine .iteFst (h.gate fun h => h) (.iteFst (.iteFst (h.lockGate (.withHandles hk)) h) (.iteFst (h.gate fun h => ?_) (.iteFst h (h.gate (.ct0Gate hk)))))
  exact .iteFst (hk h) h

theorem Shaped.hostFinish (h : Shaped s) : Shaped s.hostFinish := by
  unfold State.hostFinish
  split
  · rename_i k hk
    exact .ite h.hostDumpRead (h.hostCmd (MbFun.KeepsShape.of_mbOf hk))
  · exact h

theorem Shaped.runTunnelled {tag : Byte} {code : Nat} {p : Payload} (h : Shaped s) : Shaped (s.runTunnelled tag code p) :=
    .ite ((Shaped.ite h.hostFinish h).frame) (((Shaped.ite h.hostFinish h).tunnelled).respond)

theorem Shaped.mbRequest {tag : Byte} {code : Nat} {p : Payload} (h : Shaped s) : Shaped (mbRequest tag code p s) :=
    .ite h (.ite h.runTunnelled (.ite h.emit.frame h.frame.runTunnelled))

theorem Shaped.lockAcquire {eid : Byte} (h : Shaped s) : Shaped (lockAcquire eid s) := .ite h h.frame.emit

theorem Shaped.lockRelease (h : Shaped s) : Shaped (lockRelease s) := .ite h h.frame.emit

theorem Shaped.dumpStreamAck {id next : Nat} (h : Shaped s) : Shaped (dumpStreamAck id next s) := by
  unfold Machine.dumpStreamAck
  split
  exacts [h, .ite h h.frame.pumpStream]

theorem Shaped.dumpStreamResend (h : Shaped s) : Shaped (dumpStreamResend s) := by
  unfold Machine.dumpStreamResend
  split
  exacts [h, .ite h h.frame.pumpStream]

theorem Shaped.setEndpointId {eid : Byte} (h : Shaped s) : Shaped (setEndpointId eid s) := .ite h (.ite h.emit h.frame.emit)

theorem Shaped.smbusFallback (h : Shaped s) : Shaped (smbusFallback s) := .ite h h.frame

theorem Shaped.entdaa {a : BitVec 7} (h : Shaped s) : Shaped (entdaa a s) := .ite h h.frame

theorem Shaped.setEventReceiver {eid : Byte} (h : Shaped s) : Shaped (setEventReceiver eid s) := .ite h h.frame.emit

theorem Shaped.refreshSensor {id : Nat} {v : ℤ} (h : Shaped s) : Shaped (s.refreshSensor id v) := by
  unfold State.refreshSensor
  extract_lets old event _ s1
  split
  exacts [.ite h.frame.emit h.frame, h.frame]

theorem Shaped.sensorRefresh {l : List (Nat × ℤ)} (h : Shaped s0) : Shaped (sensorRefresh l s0) :=
    .ite h ((Shaped.ite h.frame h.frame.frame).foldl fun ha => ha.refreshSensor)

theorem Shaped.askPart (h : Shaped s) : Shaped s.askPart := h.emit

theorem Shaped.requestUpdate {len : Nat} (h : Shaped s) : Shaped (requestUpdate len s) := .ite h (.ite h.emit h.frame.emit.askPart)

theorem Shaped.firmwareDataPart {off : Nat} {b : List Byte} (h : Shaped s) : Shaped (firmwareDataPart off b s) :=
    .ite h (.ite h.frame.askPart h.frame.beginCommit)

theorem Shaped.endUpdate (h : Shaped s) : Shaped s.endUpdate := h.frame

theorem Shaped.activateFirmware (h : Shaped s) : Shaped (activateFirmware s) := .ite h (.ite h.emit h.endUpdate.emit.beginRestart)

theorem Shaped.cancelUpdate (h : Shaped s) : Shaped (cancelUpdate s) := .ite h (.ite h.emit h.frame.endUpdate.emit)

theorem Shaped.spdm {code : Nat} {b : List Byte} (h : Shaped s) : Shaped (s.spdm code b) := h.emit

theorem Shaped.spdmError {e : Nat} (h : Shaped s) : Shaped (s.spdmError e) := h.spdm

theorem Shaped.getVersion (h : Shaped s) : Shaped (getVersion s) := .ite h.spdm h

theorem Shaped.getCapabilities (h : Shaped s) : Shaped (getCapabilities s) := .ite h.spdm h

theorem Shaped.negotiateAlgorithms (h : Shaped s) : Shaped (negotiateAlgorithms s) := .ite h.spdm h

theorem Shaped.getDigests (h : Shaped s) : Shaped (getDigests s) := .ite h.spdm h

theorem Shaped.getCertificate {off len : Nat} (h : Shaped s) : Shaped (getCertificate off len s) := .ite h (.ite h.spdmError h.spdm)

theorem Shaped.signed {code : Nat} {nonce : BitVec 256} {b : List RByte} (h : Shaped s) : Shaped (s.signed code nonce b) := h.spdm.frame

theorem Shaped.challenge {nonce : BitVec 256} (h : Shaped s) : Shaped (challenge nonce s) := .ite h (.ite h.spdmError h.signed)

theorem Shaped.getMeasurements {index : Nat} {sign : Bool} {nonce : BitVec 256} (h : Shaped s) : Shaped (getMeasurements index sign nonce s) :=
    .ite h (.ite h.spdmError (.ite h.spdmError (.ite h.signed h.spdm.frame)))

/-! ### Power -/

theorem Shaped.sendLevels (h : Shaped s) : Shaped s.sendLevels := h.foldl fun ha => .ite ha ha.modPt

theorem Shaped.limitLevelApply {p : Nat} (h : Shaped s) : Shaped (limitLevelApply p s) := h.foldl fun ha => ha.modPt

theorem Shaped.powerLimiterSample {x : PowerSample} (h : Shaped s) : Shaped (powerLimiterSample x s) :=
    .ite h ((Shaped.ite h.frame.logErr h.frame).sendLevels)

theorem Shaped.dropPt {p : Nat} (h : Shaped s) : Shaped (s.dropPt p) := by
  unfold State.dropPt
  extract_lets s1 s2
  have hs1 : Shaped s1 := by unfold s1; split; exacts [h.faultCtx, h]
  have hs2 : Shaped s2 := hs1.foldl fun ha => ha.retirePending
  exact hs2.darken.selfRefresh.modPt

theorem Shaped.tripPt {p i : Nat} {deg : ℤ} (h : Shaped s) : Shaped (s.tripPt p i deg) := h.logErr.dropPt.setRail.modPt

theorem Shaped.resetNotices (h : Shaped s) : Shaped s.resetNotices := h.foldl fun ha => .ite ha.emit ha

theorem Shaped.shutDown (h : Shaped s) : Shaped s.shutDown := by
  unfold State.shutDown
  extract_lets s0 s1 s2 s3 s4 _ _ s5 s6 _ s7
  have hs0 : Shaped s0 := h.resetNotices
  clear_value s0
  have hs1 : Shaped s1 := hs0.frame
  have hs2 : Shaped s2 := hs1.foldl fun ha => ha.dropHandle
  have hs3 : Shaped s3 := hs2.foldl fun ha => .ite ha ha.faultCtx.destroyCtx
  have hs4 : Shaped s4 := hs3.foldl fun ha => ha.finishOp
  clear_value s4
  have hs5 : Shaped s5 := hs4.frame
  clear_value s5
  have hs6 : Shaped s6 := hs5.foldl fun ha => ha.offPt.modPt
  clear_value s6
  exact hs6.frame.takeModPwr

theorem Shaped.oneTemp {x : TempReading} (h : Shaped s) : Shaped (s.oneTemp x) := by
  unfold State.oneTemp
  split
  · exact .ite h (.ite h.modPt h.modPt.tripPt)
  · exact .ite h (.ite h.frame h.frame.logErr.shutDown)

theorem Shaped.thermLevel {p : Nat} (h : Shaped s) : Shaped (s.thermLevel p) := by
  unfold State.thermLevel
  extract_lets x life t hottest hot cool up down s1 _ s2
  have hs2 : Shaped s2 := h.modPt.frame
  split
  exacts [hs2.logErr, hs2]

theorem Shaped.thermalSample {xs : List TempReading} (h : Shaped s) : Shaped (thermalSample xs s) :=
    .ite h (((h.frame.foldl fun ha => ha.oneTemp).foldl fun ha => ha.thermLevel).sendLevels)

theorem Shaped.thermtrip (h : Shaped s) : Shaped (thermtrip s) := .ite h h.frame.emit

theorem Shaped.avsUpdate {p mv readMv readMa : Nat} (h : Shaped s) : Shaped (avsUpdate p mv readMv readMa s) :=
    .ite h (.ite (((Shaped.ite h h.modPt).modPt).emit) (.ite h h.modPt))

theorem Shaped.idleEntry {p : Nat} (h : Shaped s) : Shaped (idleEntry p s) := .ite h h.modPt

theorem Shaped.pllLockTimeout {p : Nat} (h : Shaped s) : Shaped (pllLockTimeout p s) := .ite h (h.modPt.foldl fun ha => ha.abandonDwell)

theorem Shaped.railFault {rail : Nat} {c p : Option Nat} (h : Shaped s) : Shaped (s.railFault rail c p) := h.logErr

theorem Shaped.vcorePgFall {p : Nat} (h : Shaped s) : Shaped (vcorePgFall p s) := .ite h h.railFault.dropPt.modPt

theorem Shaped.vcorePgReturn {p : Nat} (h : Shaped s) : Shaped (vcorePgReturn p s) := .ite h h.modPt

theorem Shaped.vsocPgFall (h : Shaped s) : Shaped (vsocPgFall s) := .ite h h.railFault.shutDown

/-! ### Startup -/

/-- What power leaves is a module as it was made. -/
theorem shaped_powerKept : Shaped s.powerKept :=
  ⟨rfl, rfl, rfl, rfl, rfl, rfl, fun _ hx => by rw [List.eq_of_mem_replicate hx]; rfl, fun _ hx => by rw [List.eq_of_mem_replicate hx]; exact ⟨rfl, rfl⟩⟩

theorem Shaped.warmKept (h : Shaped s) : Shaped s.warmKept := by
  obtain ⟨hp, -, hs, hx, hf, -, hq, hy⟩ := shaped_powerKept (s := s)
  exact ⟨hp, by simpa [State.warmKept] using h.2.1, hs, hx, hf, rfl, hq, hy⟩

theorem Shaped.startReel (h : Shaped s) : Shaped s.startReel := .ite h.setReel h

theorem Shaped.auxRemoval (h : Shaped s) : Shaped (auxRemoval s) := .ite shaped_powerKept h

theorem Shaped.auxArrival (h : Shaped s) : Shaped (auxArrival s) := .ite h h.frame

theorem Shaped.platRstN (h : Shaped s) : Shaped (platRstN s) := .ite h.acceptWarm h

theorem Shaped.wakeReqN (h : Shaped s) : Shaped (wakeReqN s) := .ite h.leaveM3 h

theorem Shaped.testModeEntry (h : Shaped s) : Shaped (testModeEntry s) := .ite h.frame h

theorem Shaped.warmReset (h : Shaped s) : Shaped (warmReset s) := by
  unfold Machine.warmReset
  refine .ite h ?_
  extract_lets s1 s2 s3
  have hs1 : Shaped s1 := h.resetNotices
  have hs2 : Shaped s2 := hs1.foldl fun ha => .ite ha.emit ha
  have hs3 : Shaped s3 := .ite hs2.emit hs2
  exact hs3.warmKept.startReel

theorem Shaped.stageAuxDone {straps : BitVec 2} (h : Shaped s) : Shaped (stageAuxDone straps s) := .ite h h.frame.endStage.startReel

theorem Shaped.awaitHost (h : Shaped s) : Shaped s.awaitHost := h.frame.raise

theorem Shaped.stageBootRomDone {src : Nat} {v : Verdict} (h : Shaped s) : Shaped (stageBootRomDone src v s) := by
  unfold Machine.stageBootRomDone
  refine .ite h (.ite (.ite h (.ite h.judgeImage.bootDone (.ite h.judgeImage.frame h.judgeImage.frame.awaitHost))) (.ite h ?_))
  exact .ite (.ite h (.ite h.judgeImage.writeFlash.bootDone h.judgeImage.awaitHost)) (.ite h h.fwCommitFinished)

theorem Shaped.recoveryHostWindowExpired (h : Shaped s) : Shaped (recoveryHostWindowExpired s) := .ite h.frame h

theorem Shaped.markEntry {e : List Byte} (h : Shaped s) : Shaped (s.markEntry e) := by
  unfold State.markEntry
  extract_lets +onlyGivenNames k loc det die
  exact .ite h.modTile (.ite h.modSheet (.ite h.modChan (.ite h.frame (.ite h.frame (.ite h.frame (.ite h.modPort h))))))

theorem Shaped.applyEntry {e : List Byte} (h : Shaped s) : Shaped (s.applyEntry e) := .ite h h.frame.markEntry

theorem Shaped.foundEntry {e : List Byte} (h : Shaped s) : Shaped (s.foundEntry e) := h.frame.applyEntry

theorem Shaped.startLog (h : Shaped s) : Shaped s.startLog := by
  unfold State.startLog
  extract_lets +onlyGivenNames early s1 s2
  have hs1 : Shaped s1 := by unfold s1; split; exacts [h.logErr, h]
  have hs2 : Shaped s2 := hs1.foldl fun ha => ha.frame.fsUpdate
  exact hs2.frame

theorem Shaped.haltStart {cause : Nat} (h : Shaped s) : Shaped (s.haltStart cause) := h.frame

theorem Shaped.stageRailsDone {fails : List (Fin 16)} (h : Shaped s) : Shaped (stageRailsDone fails s) := by
  unfold Machine.stageRailsDone
  refine .ite h ?_
  extract_lets _ s1 s2 s3 s4
  have hs1 : Shaped s1 := h.frame.emit
  have hs2 : Shaped s2 := hs1.foldl fun ha => .ite ha ha.setRail.modPt
  have hs3 : Shaped s3 := hs2.foldl fun ha => ha.markEntry
  have hs4 : Shaped s4 := hs3.foldl fun ha => ha.foundEntry.logErr
  exact .ite hs4.haltStart hs4.endStage.startLog

theorem Shaped.railPgTimeout {rail : Nat} (h : Shaped s) : Shaped (railPgTimeout rail s) := .ite h (.ite h.haltStart h.emit.modPt.railFault)

theorem Shaped.startFail {x : ColFail} {cond : BistCond} (h : Shaped s) : Shaped (s.startFail x cond) :=
    .ite h (.ite h.foundEntry.sheetCount h.bistFail.foundEntry.logErr)

theorem Shaped.stageBistDone {cols : List ColFail} {d2d : List D2dFail} {cond : BistCond} (h : Shaped s) : Shaped (stageBistDone cols d2d cond s) := by
  unfold Machine.stageBistDone
  refine .ite h ?_
  extract_lets s0 on s1 s2
  have hs0 : Shaped s0 := h.mapSheets fun _ hx => hx
  have hs1 : Shaped s1 := hs0.foundBist.foldl fun ha => ha.startFail
  have hs2 : Shaped s2 := hs1.foldl fun ha => .ite ha.foundEntry ha.modSheet
  exact hs2.endStage

theorem Shaped.trainAll (h : Shaped s) : Shaped s.trainAll := h.foldl fun ha => ha.modPort.startTraining

theorem Shaped.stageRepairRecordDone {badLedger : List W32} {v : Verdict} (h : Shaped s) : Shaped (stageRepairRecordDone badLedger v s) := by
  unfold Machine.stageRepairRecordDone
  refine .ite h ?_
  refine Shaped.endStage (Shaped.trainAll (.ite ?_ ?_))
  · extract_lets _ a new _ b
    have ha : Shaped a := (h.frame.foldl fun hb => hb.applyEntry).foldl fun hb => hb.applyEntry
    have hb : Shaped b := .ite ha ha.frame
    exact hb.foldl fun hc => hc.storeEntry
  · extract_lets _ _ a b
    have ha : Shaped a := h.frame.logErr.foldl fun hb => hb.applyEntry
    have hb : Shaped b := ha.foldl fun hc => hc.applyEntry
    exact .ite hb hb.frame.writeRepair

theorem Shaped.joinStages {n : Nat} (h : Shaped s) : Shaped (s.joinStages n) := h.endStage.frame

theorem Shaped.stageLpddr5xDone {broke : List Ch} (h : Shaped s) : Shaped (stageLpddr5xDone broke s) := by
  unfold Machine.stageLpddr5xDone
  refine .ite h ?_
  extract_lets s1 _ s2
  have hs1 : Shaped s1 := h.foldl fun ha => ha.breakChan
  have hs2 : Shaped s2 := hs1.of_lengths rfl (by simp [s2]) rfl rfl rfl rfl
  exact hs2.joinStages

theorem Shaped.engineOff {kind d : Nat} (h : Shaped s) : Shaped (s.engineOff kind d) := .ite h h.applyEntry.storeEntry.logErr

theorem Shaped.stageLinksDone {nipFail ecFail : List (Fin 6)} {timedOut : Bool} (h : Shaped s) : Shaped (stageLinksDone nipFail ecFail timedOut s) :=
    .ite h ((((h.foldl fun ha => ha.engineOff).foldl fun ha => ha.engineOff).frame).joinStages)

theorem Shaped.stageSheetMapsDone (h : Shaped s) : Shaped (stageSheetMapsDone s) := by
  unfold Machine.stageSheetMapsDone
  exact .ite h (Shaped.endStage (h.mapSheets fun x _ => (Sheet.Shaped.windowEnd (roles := Sheet.startRoles) (x := x) : _)))

theorem Shaped.mailboxReady (h : Shaped s) : Shaped (mailboxReady s) := by
  unfold Machine.mailboxReady
  refine .ite h ?_
  extract_lets s1 s2 s3 s4 op _ s5
  have hs1 : Shaped s1 := .ite h.functionLevelReset h.frame
  have hs3 : Shaped s3 := hs1.frame.foldl fun ha => ha.modPt
  have hs4 : Shaped s4 := hs3.foldl fun ha => .ite ha ha.powerDefault
  clear_value s4
  have hs5 : Shaped s5 := hs4.frame.endStage
  exact hs5.finishOp?.fwUp

theorem Shaped.startupHalt {cause : Nat} (h : Shaped s) : Shaped (startupHalt cause s) := .ite h h.haltStart

/-! ### Every command -/

/-- Whatever state the outcome goes on to is shaped. -/
def ShapedNext (o : Host.Outcome State Fault Refusal) : Prop := ∀ {t : State}, o = .next t → Shaped t

theorem ShapedNext.next (h : Shaped s) : ShapedNext (.next s) := fun ht => by cases ht; exact h

theorem ShapedNext.nextOf (h : Shaped t) : ShapedNext (Machine.nextOf s t) := ShapedNext.next h.settle

theorem ShapedNext.stop {r : Fault} : ShapedNext (.fault r) := nofun

theorem ShapedNext.ite {c : Prop} [Decidable c] {o o' : Host.Outcome State Fault Refusal} (h : ShapedNext o) (h' : ShapedNext o') :
    ShapedNext (if c then o else o') := by split <;> assumption

/-- Every command keeps the shape: its own event does, and so does what follows it. -/
theorem shapedNext_exec {i : Instr} (h : Shaped s) : ShapedNext (exec i s) := by
  cases i with
  | identify => exact ShapedNext.nextOf (h.hostCmd @Shaped.mbIdentify)
  | opStatus => exact ShapedNext.nextOf (h.hostCmd @Shaped.mbOpStatus)
  | describe => exact ShapedNext.nextOf (h.hostCmd @Shaped.mbDescribe)
  | resolve => exact ShapedNext.nextOf (h.hostCmd @Shaped.mbResolve)
  | children => exact ShapedNext.nextOf (h.hostCmd @Shaped.mbChildren)
  | status => exact ShapedNext.nextOf (h.hostCmd @Shaped.mbStatus)
  | counters => exact ShapedNext.nextOf (h.hostCmd @Shaped.mbCounters)
  | groupCreate => exact ShapedNext.nextOf (h.hostCmd @Shaped.mbGroupCreate)
  | groupEdit => exact ShapedNext.nextOf (h.hostCmd @Shaped.mbGroupEdit)
  | groupDelete => exact ShapedNext.nextOf (h.hostCmd @Shaped.mbGroupDelete)
  | startStatus => exact ShapedNext.nextOf (h.hostCmd @Shaped.mbStartStatus)
  | ctxCreate => exact ShapedNext.nextOf (h.hostCmd @Shaped.mbCtxCreate)
  | ctxDestroy => exact ShapedNext.nextOf (h.hostCmd @Shaped.mbCtxDestroy)
  | ctxAlloc => exact ShapedNext.nextOf (h.hostCmd @Shaped.mbCtxAlloc)
  | ctxFree => exact ShapedNext.nextOf (h.hostCmd @Shaped.mbCtxFree)
  | ctxBind => exact ShapedNext.nextOf (h.hostCmd @Shaped.mbCtxBind)
  | ctxSuspend => exact ShapedNext.nextOf (h.hostCmd @Shaped.mbCtxSuspend)
  | suspensionSaved => exact ShapedNext.nextOf h.suspensionSaved
  | ctxResume => exact ShapedNext.nextOf (h.hostCmd @Shaped.mbCtxResume)
  | resumptionFinished => exact ShapedNext.nextOf h.resumptionFinished
  | queueConfig => exact ShapedNext.nextOf (h.hostCmd @Shaped.mbQueueConfig)
  | progLoad => exact ShapedNext.nextOf (h.hostCmd @Shaped.mbProgLoad)
  | progLoadFinished => exact ShapedNext.nextOf h.progLoadFinished
  | progUnload => exact ShapedNext.nextOf (h.hostCmd @Shaped.mbProgUnload)
  | progInfo => exact ShapedNext.nextOf (h.hostCmd @Shaped.mbProgInfo)
  | reset => exact ShapedNext.nextOf (h.hostCmd @Shaped.mbReset)
  | partitionResetEnd => exact ShapedNext.nextOf h.partitionResetEnd
  | fwRestart => exact ShapedNext.nextOf (h.hostCmd @Shaped.mbFwRestart)
  | fwRestartEnd => exact ShapedNext.nextOf h.fwRestartEnd
  | modeSet => exact ShapedNext.nextOf (h.hostCmd @Shaped.mbModeSet)
  | modeUnitApplied => exact ShapedNext.nextOf h.modeUnitApplied
  | modeGet => exact ShapedNext.nextOf (h.hostCmd @Shaped.mbModeGet)
  | powerSet => exact ShapedNext.nextOf (h.hostCmd @Shaped.mbPowerSet)
  | powerStateReached => exact ShapedNext.nextOf h.powerStateReached
  | fence => exact ShapedNext.nextOf (h.hostCmd @Shaped.mbFence)
  | unfence => exact ShapedNext.nextOf (h.hostCmd @Shaped.mbUnfence)
  | test => exact ShapedNext.nextOf (h.hostCmd @Shaped.mbTest)
  | testFinished => exact ShapedNext.nextOf h.testFinished
  | testResult => exact ShapedNext.nextOf (h.hostCmd @Shaped.mbTestResult)
  | ledgerRead => exact ShapedNext.nextOf (h.hostCmd @Shaped.mbLedgerRead)
  | errlogRead => exact ShapedNext.nextOf (h.hostCmd @Shaped.mbErrlogRead)
  | dumpTrigger => exact ShapedNext.nextOf (h.hostCmd @Shaped.mbDumpTrigger)
  | dumpInfo => exact ShapedNext.nextOf (h.hostCmd @Shaped.mbDumpInfo)
  | dumpRead => exact ShapedNext.nextOf h.hostDumpRead
  | dumpClear => exact ShapedNext.nextOf (h.hostCmd @Shaped.mbDumpClear)
  | settingsGet => exact ShapedNext.nextOf (h.hostCmd @Shaped.mbSettingsGet)
  | settingsSet => exact ShapedNext.nextOf (h.hostCmd @Shaped.mbSettingsSet)
  | fwInfo => exact ShapedNext.nextOf (h.hostCmd @Shaped.mbFwInfo)
  | fwStageBegin => exact ShapedNext.nextOf (h.hostCmd @Shaped.mbFwStageBegin)
  | fwStageData => exact ShapedNext.nextOf (h.hostCmd @Shaped.mbFwStageData)
  | fwStageCommit => exact ShapedNext.nextOf (h.hostCmd @Shaped.mbFwStageCommit)
  | fwCommitFinished => exact ShapedNext.nextOf h.fwCommitFinished
  | fwRecoveryLoad => exact ShapedNext.nextOf (h.hostCmd @Shaped.mbFwRecoveryLoad)
  | fwSvnAdvance => exact ShapedNext.nextOf (h.hostCmd @Shaped.mbFwSvnAdvance)
  | keyEnrol => exact ShapedNext.nextOf (h.hostCmd @Shaped.mbKeyEnrol)
  | keyClear => exact ShapedNext.nextOf (h.hostCmd @Shaped.mbKeyClear)
  | keyList => exact ShapedNext.nextOf (h.hostCmd @Shaped.mbKeyList)
  | reelInfo => exact ShapedNext.nextOf (h.hostCmd @Shaped.mbReelInfo)
  | reelEject => exact ShapedNext.nextOf (h.hostCmd @Shaped.mbReelEject)
  | reelSeal => exact ShapedNext.nextOf (h.hostCmd @Shaped.mbReelSeal)
  | reelFormat => exact ShapedNext.nextOf (h.hostCmd @Shaped.mbReelFormat)
  | reelOpFinished => exact ShapedNext.nextOf h.reelOpFinished
  | portStatus => exact ShapedNext.nextOf (h.hostCmd @Shaped.mbPortStatus)
  | vcBind => exact ShapedNext.nextOf (h.hostCmd @Shaped.mbVcBind)
  | routeSet => exact ShapedNext.nextOf (h.hostCmd @Shaped.mbRouteSet)
  | routeGet => exact ShapedNext.nextOf (h.hostCmd @Shaped.mbRouteGet)
  | collStatus => exact ShapedNext.nextOf (h.hostCmd @Shaped.mbCollStatus)
  | jobCreate => exact ShapedNext.nextOf (h.hostCmd @Shaped.mbJobCreate)
  | jobStatus => exact ShapedNext.nextOf (h.hostCmd @Shaped.mbJobStatus)
  | jobLeave => exact ShapedNext.nextOf (h.hostCmd @Shaped.mbJobLeave)
  | ecSetup => exact ShapedNext.nextOf (h.hostCmd @Shaped.mbEcSetup)
  | jobRestart => exact ShapedNext.nextOf (h.hostCmd @Shaped.mbJobRestart)
  | mbDoneClear => exact ShapedNext.nextOf h.mbDoneClear
  | lockAcquireHost => exact ShapedNext.nextOf h.lockAcquireHost
  | lockReleaseHost => exact ShapedNext.nextOf h.lockReleaseHost
  | preemptedClear => exact ShapedNext.nextOf h.preemptedClear
  | intCauseClear => exact ShapedNext.nextOf h.intCauseClear
  | intMaskWrite => exact ShapedNext.nextOf h.intMaskWrite
  | registerWrite => exact ShapedNext.ite ShapedNext.stop (ShapedNext.nextOf h.registerWrite)
  | dbTailWrite => exact ShapedNext.nextOf h.dbTailWrite
  | dbStop => exact ShapedNext.nextOf h.dbStop
  | dbRestart => exact ShapedNext.nextOf h.dbRestart
  | entryFetched => exact ShapedNext.nextOf h.entryFetched
  | entryStart => exact ShapedNext.nextOf h.entryStart
  | waitDeadlineExpired => exact ShapedNext.nextOf h.waitDeadlineExpired
  | entryComplete => exact ShapedNext.nextOf h.entryComplete
  | run => exact ShapedNext.nextOf h.run
  | stop => exact ShapedNext.nextOf h.stop
  | reconfig => exact ShapedNext.nextOf h.reconfig
  | copy => exact ShapedNext.nextOf h.copy
  | feed => exact ShapedNext.nextOf h.feed
  | fill => exact ShapedNext.nextOf h.fillMem
  | rxBind => exact ShapedNext.nextOf h.rxBind
  | rxUnbind => exact ShapedNext.nextOf h.rxUnbind
  | send => exact ShapedNext.nextOf h.send
  | requestOpen => exact ShapedNext.nextOf h.requestOpen
  | requestSubmit => exact ShapedNext.nextOf h.requestSubmit
  | requestClose => exact ShapedNext.nextOf h.requestClose
  | requestQuery => exact ShapedNext.nextOf h.requestQuery
  | syncBind => exact ShapedNext.nextOf h.syncBind
  | syncUnbind => exact ShapedNext.nextOf h.syncUnbind
  | syncOpRead => exact ShapedNext.nextOf h.syncOpRead
  | syncOpAdd => exact ShapedNext.nextOf h.syncOpAdd
  | collective => exact ShapedNext.nextOf h.collective
  | ecRefresh => exact ShapedNext.nextOf h.ecRefresh
  | ecRebuild => exact ShapedNext.nextOf h.ecRebuild
  | watermark => exact ShapedNext.nextOf h.watermarkEntry
  | replicaCheck => exact ShapedNext.nextOf h.replicaCheck
  | messageCopyDecided => exact ShapedNext.nextOf h.messageCopyDecided
  | busMasterEnableSet => exact ShapedNext.nextOf h.busMasterSet
  | cxlMemRead => exact ShapedNext.ite ShapedNext.stop (ShapedNext.nextOf h.cxlMemRead)
  | cxlMemWrite => exact ShapedNext.ite ShapedNext.stop (ShapedNext.nextOf h.cxlMemWrite)
  | functionLevelReset => exact ShapedNext.nextOf h.functionLevelReset
  | lockIdleExpired => exact ShapedNext.nextOf h.lockIdleExpired
  | backgroundOpFinished => exact ShapedNext.nextOf h.backgroundOpFinished
  | routeCycle => exact ShapedNext.nextOf h.routeCycle
  | issueEntryAdvance => exact ShapedNext.nextOf h.issueEntryAdvance
  | foldSlotSwitch => exact ShapedNext.nextOf h.foldSlotSwitch
  | externalWaitPoint => exact ShapedNext.nextOf h.externalWaitPoint
  | holdRelease => exact ShapedNext.nextOf h.holdRelease
  | calenderPoint => exact ShapedNext.nextOf h.calenderPoint
  | catchupDone => exact ShapedNext.nextOf h.catchupDone
  | prologueEnd => exact ShapedNext.nextOf h.prologueEnd
  | prologueOverrun => exact ShapedNext.nextOf h.prologueOverrun
  | calenderOverdue => exact ShapedNext.nextOf h.calenderOverdue
  | hung => exact ShapedNext.nextOf h.hung
  | programWaitDeadline => exact ShapedNext.nextOf h.programWaitDeadline
  | channelSlotIssue => exact ShapedNext.nextOf h.channelSlotIssue
  | dramReadArrival => exact ShapedNext.nextOf h.dramReadArrival
  | readBufferEmit => exact ShapedNext.nextOf h.readBufferEmit
  | sramScrub => exact ShapedNext.nextOf h.sramScrub
  | dramScrub => exact ShapedNext.nextOf h.dramScrub
  | dramTempSample => exact ShapedNext.nextOf h.dramTempSample
  | telemetrySnapshot => exact ShapedNext.nextOf h.telemetrySnapshot
  | messagePlaneSlot => exact ShapedNext.nextOf h.messagePlaneSlot
  | maintenanceSlot => exact ShapedNext.nextOf h.maintenanceSlot
  | dwellStart => exact ShapedNext.nextOf h.dwellStart
  | zeroiseDone => exact ShapedNext.nextOf h.zeroiseDone
  | marchDone => exact ShapedNext.nextOf h.marchDone
  | logicBistDone => exact ShapedNext.nextOf h.logicBistDone
  | marginBistDone => exact ShapedNext.nextOf h.marginBistDone
  | softRepair => exact ShapedNext.nextOf h.softRepairEvent
  | couchInDone => exact ShapedNext.nextOf h.couchInDone
  | spareMove => exact ShapedNext.nextOf h.spareMove
  | replicaReportsGathered => exact ShapedNext.nextOf h.replicaReportsGathered
  | replicaRebuildDone => exact ShapedNext.nextOf h.replicaRebuildDone
  | phyCheck => exact ShapedNext.nextOf h.phyCheck
  | coreWatchdogExpired => exact ShapedNext.nextOf h.coreWatchdogExpired
  | controlDieHeartbeat => exact ShapedNext.nextOf h.controlDieHeartbeat
  | controlDieLost => exact ShapedNext.nextOf h.controlDieLost
  | dumpUnitTimeout => exact ShapedNext.nextOf h.dumpUnitTimeout
  | dumpTargetFailed => exact ShapedNext.nextOf h.dumpTargetFailed
  | dumpWritten => exact ShapedNext.nextOf h.dumpWritten
  | mbRequest => exact ShapedNext.nextOf h.mbRequest
  | lockAcquire => exact ShapedNext.nextOf h.lockAcquire
  | lockRelease => exact ShapedNext.nextOf h.lockRelease
  | dumpStreamAck => exact ShapedNext.nextOf h.dumpStreamAck
  | dumpStreamResend => exact ShapedNext.nextOf h.dumpStreamResend
  | setEndpointId => exact ShapedNext.nextOf h.setEndpointId
  | smbusFallback => exact ShapedNext.nextOf h.smbusFallback
  | setEventReceiver => exact ShapedNext.nextOf h.setEventReceiver
  | sensorRefresh => exact ShapedNext.nextOf h.sensorRefresh
  | requestUpdate => exact ShapedNext.nextOf h.requestUpdate
  | activateFirmware => exact ShapedNext.nextOf h.activateFirmware
  | cancelUpdate => exact ShapedNext.nextOf h.cancelUpdate
  | getVersion => exact ShapedNext.nextOf h.getVersion
  | getCapabilities => exact ShapedNext.nextOf h.getCapabilities
  | negotiateAlgorithms => exact ShapedNext.nextOf h.negotiateAlgorithms
  | getDigests => exact ShapedNext.nextOf h.getDigests
  | getCertificate => exact ShapedNext.nextOf h.getCertificate
  | challenge => exact ShapedNext.nextOf h.challenge
  | getMeasurements => exact ShapedNext.nextOf h.getMeasurements
  | fabricPacketRx => exact ShapedNext.nextOf h.fabricPacketRx
  | creditReturn => exact ShapedNext.nextOf h.creditReturn
  | ethernetFrameRx => exact ShapedNext.nextOf h.ethernetFrameRx
  | contrib => exact ShapedNext.nextOf h.contrib
  | result => exact ShapedNext.nextOf h.result
  | data => exact ShapedNext.nextOf h.data
  | ack => exact ShapedNext.nextOf h.ack
  | reissueReq => exact ShapedNext.nextOf h.reissueReq
  | pending => exact ShapedNext.nextOf h.pending
  | digest => exact ShapedNext.nextOf h.digest
  | collectiveOccurrenceStart => exact ShapedNext.nextOf h.collectiveOccurrenceStart
  | collectiveOccurrenceDone => exact ShapedNext.nextOf h.collectiveOccurrenceDone
  | nipWaitExpired => exact ShapedNext.nextOf h.nipWaitExpired
  | portTrained => exact ShapedNext.nextOf h.portTrained
  | portDown => exact ShapedNext.nextOf h.portDown
  | heartbeat => exact ShapedNext.nextOf h.heartbeat
  | heartbeatLost => exact ShapedNext.nextOf h.heartbeatLost
  | hello => exact ShapedNext.nextOf h.hello
  | vote => exact ShapedNext.nextOf h.vote
  | decision => exact ShapedNext.nextOf h.decision
  | alert => exact ShapedNext.nextOf h.alert
  | leave => exact ShapedNext.nextOf h.leave
  | memberAck => exact ShapedNext.nextOf h.memberAck
  | resetNotice => exact ShapedNext.nextOf h.resetNotice
  | memberResend => exact ShapedNext.nextOf h.memberResend
  | restartGatherExpired => exact ShapedNext.nextOf h.restartGatherExpired
  | jobFormTimeout => exact ShapedNext.nextOf h.jobFormTimeout
  | ecGenerationComplete => exact ShapedNext.nextOf h.ecGenerationComplete
  | powerLimiterSample => exact ShapedNext.nextOf h.powerLimiterSample
  | thermalSample => exact ShapedNext.nextOf h.thermalSample
  | thermtrip => exact ShapedNext.nextOf h.thermtrip
  | avsUpdate => exact ShapedNext.nextOf h.avsUpdate
  | idleEntry => exact ShapedNext.nextOf h.idleEntry
  | limitLevelApply => exact ShapedNext.nextOf h.limitLevelApply
  | pllLockTimeout => exact ShapedNext.nextOf h.pllLockTimeout
  | vcorePgFall => exact ShapedNext.nextOf h.vcorePgFall
  | vsocPgFall => exact ShapedNext.nextOf h.vsocPgFall
  | auxArrival => exact ShapedNext.nextOf h.auxArrival
  | auxRemoval => exact ShapedNext.next h.auxRemoval
  | platRstN => exact ShapedNext.nextOf h.platRstN
  | wakeReqN => exact ShapedNext.nextOf h.wakeReqN
  | testModeEntry => exact ShapedNext.nextOf h.testModeEntry
  | warmReset => exact ShapedNext.next h.warmReset
  | stageAuxDone => exact ShapedNext.nextOf h.stageAuxDone
  | stageBootRomDone => exact ShapedNext.nextOf h.stageBootRomDone
  | stageRailsDone => exact ShapedNext.nextOf h.stageRailsDone
  | railPgTimeout => exact ShapedNext.nextOf h.railPgTimeout
  | stageBistDone => exact ShapedNext.nextOf h.stageBistDone
  | stageRepairRecordDone => exact ShapedNext.nextOf h.stageRepairRecordDone
  | stageLpddr5xDone => exact ShapedNext.nextOf h.stageLpddr5xDone
  | stageLinksDone => exact ShapedNext.nextOf h.stageLinksDone
  | stageSheetMapsDone => exact ShapedNext.nextOf h.stageSheetMapsDone
  | mailboxReady => exact ShapedNext.nextOf h.mailboxReady
  | startupHalt => exact ShapedNext.nextOf h.startupHalt
  | reelLatchOpen => exact ShapedNext.nextOf h.reelLatchOpen
  | reelLatchClose => exact ShapedNext.nextOf h.reelLatchClose
  | reelStartingDone => exact ShapedNext.nextOf h.reelStartingDone
  | reelHealthPoll => exact ShapedNext.nextOf h.reelHealthPoll
  | reelCommandTimeout => exact ShapedNext.nextOf h.reelCommandTimeout
  | reelAccessDone => exact ShapedNext.nextOf h.reelAccessDone
  | busMasterEnableClear => exact ShapedNext.nextOf h.busMasterClear
  | feedDataReachedLpddr5x => exact ShapedNext.nextOf h.feedDataReached
  | selfRefreshReentry => exact ShapedNext.nextOf h.selfRefreshReentry
  | vcorePgReturn => exact ShapedNext.nextOf h.vcorePgReturn
  | entdaa => exact ShapedNext.nextOf h.entdaa
  | firmwareDataPart => exact ShapedNext.nextOf h.firmwareDataPart
  | externalTestScanAccess => exact ShapedNext.nextOf h.externalTestScanAccess
  | cxlLinkTraining => exact ShapedNext.nextOf h.cxlLinkTraining
  | replicaRebuildTimeout => exact ShapedNext.nextOf h.replicaRebuildTimeout
  | snapshotCopyComplete => exact ShapedNext.nextOf h.snapshotCopyComplete
  | dumpPartitionReadDone => exact ShapedNext.nextOf h.dumpPartitionReadDone
  | recoveryHostWindowExpired => exact ShapedNext.nextOf h.recoveryHostWindowExpired
  | controlCoreRestartDone => exact ShapedNext.nextOf h.controlCoreRestartDone
  | restartStateRestored => exact ShapedNext.nextOf h.restartStateRestored

end

end Sys2Proof.Machine

open Sys2Proof.Machine in
/-- Settles O4: a step is the command at the front of the queue, and every command keeps the shape. -/
theorem stepKeepsShape : Obligations.StepKeepsShape := by
  intro s t h ht
  unfold step at ht
  split at ht
  · cases ht
    exact h
  · exact shapedNext_exec h.frame ht

namespace Sys2Proof.Machine

section
set_option Elab.async false -- one thread: the proofs are many and short
variable {s t u : State}
/-! ### What is recorded -/

/-- `u` is `t` but for the logs, the host's fault summary and what is sent. -/
def Recorded (t u : State) : Prop := u = { t with logs := u.logs, host := u.host, outbox := u.outbox }

theorem Recorded.fsUpdate (h : Recorded s t) : Recorded s t.fsUpdate := by
  have hr := (State.raise_eq { t with host := { t.host with fsGen := t.host.fsGen + 2 } } 3).1
  unfold Recorded at h ⊢
  unfold State.fsUpdate
  generalize State.raise _ 3 = u at hr ⊢
  rw [hr, h]

theorem Recorded.withLogs {l : Logs} (h : Recorded s t) : Recorded s { t with logs := l } := by
  unfold Recorded at h ⊢
  rw [h]

theorem Recorded.logErr {cls : Nat} {a : ErrAt} {body : List Byte} (h : Recorded s t) (ha : a.ctx = none) : Recorded s (t.logErr cls a body) := by
  unfold State.logErr
  extract_lets +onlyGivenNames x isStep first flags r t1
  have ht1 : t1 = t := by simp [t1, isStep, ha]
  rw [ht1]
  split
  exacts [h.withLogs, h.withLogs.fsUpdate]

theorem Recorded.storeEntry {e : List Byte} (h : Recorded s t) : Recorded s (t.storeEntry e) := by
  unfold State.storeEntry
  split
  · exact h.logErr rfl
  · split
    · split
      exacts [h.logErr rfl, h.withLogs]
    · extract_lets l
      split
      exacts [h.logErr rfl, h.withLogs]

theorem Recorded.addRepair {kind cause loc detail : Nat} (h : Recorded s t) : Recorded s (t.addRepair kind cause loc detail) :=
  h.withLogs.storeEntry

/-! ### What a dwell and a move leave alone -/

/-- Apart from sheets, tiles, contexts and records, `t` is as `s` was, and counter `id` of sheet `n` has not moved. -/
structure Apart (n id : Nat) (s t : State) : Prop where
  clk : t.clk = s.clk
  pts : t.pts = s.pts
  dram : t.dram = s.dram
  pool : t.pool = s.pool
  management : SameManagement s t
  count : (t.sheet n).counters.getD id 0 = (s.sheet n).counters.getD id 0

/-- Nor have the contexts changed. -/
structure ApartCtxs (n id : Nat) (s t : State) : Prop extends Apart n id s t where
  ctxs : t.ctxs = s.ctxs

/-- What holds of a sheet holds of it after an update of a sheet that keeps it. -/
theorem State.sheet_modSheet_of {P : Sheet → Prop} {m k : Nat} {f : Sheet → Sheet} (h : P (s.sheet m)) (hf : ∀ x, P x → P (f x)) :
    P ((s.modSheet k f).sheet m) := by
  by_cases hk : k = m
  · subst hk
    by_cases hl : k < s.sheets.length
    · rw [State.sheet_modSheet_same s k f hl]
      exact hf _ h
    · simpa [State.sheet, State.modSheet, hl] using h
  · rwa [State.sheet_modSheet_other s k m f hk]

/-- What such an update does not change in a sheet is as it was. -/
theorem State.sheet_modSheet_eq {α : Type} {g : Sheet → α} {m k : Nat} {f : Sheet → Sheet} (hf : ∀ x, g (f x) = g x) :
    g ((s.modSheet k f).sheet m) = g (s.sheet m) :=
  State.sheet_modSheet_of (P := fun x => g x = g (s.sheet m)) rfl fun x hx => (hf x).trans hx

section
variable {n id m : Nat}

theorem ApartCtxs.refl : ApartCtxs n id s s := ⟨⟨rfl, rfl, rfl, rfl, ⟨rfl, rfl, rfl⟩, rfl⟩, rfl⟩

theorem Apart.modSheet {f : Sheet → Sheet} (h : Apart n id s t) (hf : ∀ x, (f x).counters.getD id 0 = x.counters.getD id 0 := by intro; simp) :
    Apart n id s (t.modSheet m f) :=
  ⟨h.clk, h.pts, h.dram, h.pool, h.management, (State.sheet_modSheet_eq (g := fun x => x.counters.getD id 0) hf).trans h.count⟩

theorem ApartCtxs.modSheet {f : Sheet → Sheet} (h : ApartCtxs n id s t)
    (hf : ∀ x, (f x).counters.getD id 0 = x.counters.getD id 0 := by intro; simp) : ApartCtxs n id s (t.modSheet m f) :=
  ⟨h.toApart.modSheet hf, h.ctxs⟩

theorem ApartCtxs.sheetCount {k x : Nat} (h : ApartCtxs n id s t) (hk : id ≠ k) : ApartCtxs n id s (t.sheetCount m k x) :=
  h.modSheet fun y => KMap.getD_set_other y.counters k id _ 0 hk

theorem Apart.modTile {i : Nat} {f : Tile → Tile} (h : Apart n id s t) : Apart n id s (t.modTile i f) :=
  ⟨h.clk, h.pts, h.dram, h.pool, h.management, h.count⟩

theorem ApartCtxs.modTile {i : Nat} {f : Tile → Tile} (h : ApartCtxs n id s t) : ApartCtxs n id s (t.modTile i f) :=
  ⟨h.toApart.modTile, h.ctxs⟩

theorem Apart.modCtx {c : Nat} {f : Context → Context} (h : Apart n id s t) : Apart n id s (t.modCtx c f) :=
  ⟨h.clk, h.pts, h.dram, h.pool, h.management, h.count⟩

theorem ApartCtxs.recorded (h : ApartCtxs n id s t) (hr : Recorded t u) : ApartCtxs n id s u := by
  rw [hr]
  exact ⟨⟨h.clk, h.pts, h.dram, h.pool, h.management, h.count⟩, h.ctxs⟩

theorem Recorded.refl : Recorded s s := rfl

theorem ApartCtxs.logErr {cls : Nat} {a : ErrAt} {body : List Byte} (h : ApartCtxs n id s t) (ha : a.ctx = none) :
    ApartCtxs n id s (t.logErr cls a body) := h.recorded (Recorded.refl.logErr ha)

theorem ApartCtxs.addRepair {kind cause loc detail : Nat} (h : ApartCtxs n id s t) : ApartCtxs n id s (t.addRepair kind cause loc detail) :=
  h.recorded Recorded.refl.addRepair

theorem ApartCtxs.foldl {α : Type} {l : List α} {f : State → α → State} (h : ApartCtxs n id s t)
    (hf : ∀ {a x}, ApartCtxs n id s a → ApartCtxs n id s (f a x)) : ApartCtxs n id s (l.foldl f t) :=
  List.foldlRecOn l f h fun _ ha _ _ => hf ha

theorem Apart.foldl {α : Type} {l : List α} {f : State → α → State} (h : Apart n id s t)
    (hf : ∀ {a x}, Apart n id s a → Apart n id s (f a x)) : Apart n id s (l.foldl f t) :=
  List.foldlRecOn l f h fun _ ha _ _ => hf ha

/-! ### Repairs and retirement -/

theorem ApartCtxs.softRepair {pc : Nat} {f : BistFail} (h : ApartCtxs n id s t) (hid : id ≠ 0x0B07) : ApartCtxs n id s (t.softRepair m pc f) :=
  h.modTile.addRepair.sheetCount hid

theorem ApartCtxs.repairOne {pc : Nat} {f : BistFail} (h : ApartCtxs n id s t) (hid : id ≠ 0x0B07) : ApartCtxs n id s (t.repairOne m pc f).1 := by
  unfold State.repairOne
  split
  exacts [h.softRepair hid, h]

theorem ApartCtxs.repairMarked {pc row : Nat} (h : ApartCtxs n id s t) (hid : id ≠ 0x0B07) : ApartCtxs n id s (t.repairMarked m pc row) := by
  unfold State.repairMarked
  extract_lets i kind size
  refine ApartCtxs.modTile (h.foldl fun ha => ?_)
  extract_lets key used detail
  split
  exacts [ha.modTile.addRepair.sheetCount hid, ha.logErr rfl]

theorem ApartCtxs.bistFail {pc : Nat} {f : BistFail} {cond : BistCond} {origin : Nat} (h : ApartCtxs n id s t) (hid : id ≠ 0x0B03) :
    ApartCtxs n id s (t.bistFail m pc f cond origin) := (h.sheetCount hid).logErr rfl

@[simp] theorem retireRoles_counters (x : Sheet) (pc : Nat) : (retireRoles x pc).counters = x.counters := by
  unfold retireRoles
  extract_lets +onlyGivenNames y
  split
  · rfl
  · split
    · rfl
    · split <;> rfl

/-- Placing the spares changes their places and the direction alone. -/
theorem placeSpares_eq (x : Sheet) :
    placeSpares x = { x with rove := (placeSpares x).rove, stand := (placeSpares x).stand, down := (placeSpares x).down } := by
  unfold placeSpares
  split
  · split
    · rfl
    · dsimp only
      split
      · split <;> rfl
      · rfl
  · dsimp only
    split
    · rfl
    · split
      · rfl
      · split <;> rfl
  · rfl

@[simp] theorem placeSpares_counters (x : Sheet) : (placeSpares x).counters = x.counters := by rw [placeSpares_eq]

@[simp] theorem install_counters (x : Sheet) : (install x).counters = x.counters := placeSpares_counters x

/-- Couch-in that starts afresh changes the dwell and what belongs to it alone. -/
theorem Sheet.recouch_eq (x : Sheet) : x.recouch = { x with dwell := x.recouch.dwell, dirty := x.recouch.dirty, tstat := x.recouch.tstat } := by
  unfold Sheet.recouch
  split <;> rfl

theorem newDwell_eq (x : Sheet) : newDwell x = { x with
    dwell := (newDwell x).dwell, dwellDue := (newDwell x).dwellDue, dirty := (newDwell x).dirty, tstat := (newDwell x).tstat } := by
  unfold newDwell
  split
  · split
    · rfl
    · split
      · rfl
      · split
        · rfl
        · dsimp only
          rw [Sheet.recouch_eq]
  · rfl
  · rfl

@[simp] theorem newDwell_counters (x : Sheet) : (newDwell x).counters = x.counters := by rw [newDwell_eq]

theorem ApartCtxs.retireOne {pc cause : Nat} (h : ApartCtxs n id s t) : ApartCtxs n id s (t.retireOne m pc cause) := by
  unfold State.retireOne
  split
  exacts [h, h.modSheet.addRepair.logErr rfl]

theorem ApartCtxs.applyRoles {old : Sheet} (h : ApartCtxs n id s t) : ApartCtxs n id s (t.applyRoles m old) := by
  unfold State.applyRoles State.installMap
  split
  · exact h.modSheet
  · refine h.modSheet fun x => ?_
    dsimp only
    split <;> simp

theorem ApartCtxs.retire {l : List (Nat × Nat)} (h : ApartCtxs n id s t) : ApartCtxs n id s (t.retire m l) :=
  (h.foldl fun ha => ha.retireOne).applyRoles

theorem ApartCtxs.condemn {pc cause : Nat} (h : ApartCtxs n id s t) : ApartCtxs n id s (t.condemn m pc cause) := by
  unfold State.condemn
  split
  · refine h.modSheet fun x => ?_
    split <;> rfl
  · exact h.retire

theorem ApartCtxs.condemnSpare {d : Dwell} {bad : List BistFail} {cond : BistCond} (h : ApartCtxs n id s t) (hid : id ≠ 0x0B03) :
    ApartCtxs n id s (t.condemnSpare m d bad cond) := (h.foldl fun ha => ha.bistFail hid).retire

theorem ApartCtxs.nextPhase {d : Dwell} {p : Phase} {scan : Bool} (h : ApartCtxs n id s t) : ApartCtxs n id s (t.nextPhase m d p scan) := h.modSheet

theorem ApartCtxs.recordMismatch {d : Dwell} {x : Mismatch} (h : ApartCtxs n id s t) (hh : t.holderOfSheet m = none) (hid : id ≠ 0x0C04) :
    ApartCtxs n id s (t.recordMismatch m d x) := by
  unfold State.recordMismatch
  extract_lets x' lcol tpc spc c y bin now old tc sc watch flags r rec' kept _ s1 s2 s3 s4 s5
  have hs1 : ApartCtxs n id s s1 := h.recorded Recorded.refl.withLogs
  have hs2 : ApartCtxs n id s s2 := hs1.logErr hh
  have hs3 : ApartCtxs n id s s3 := hs2.modSheet
  have hs4 : ApartCtxs n id s s4 := by
    unfold s4; split
    exacts [hs3.sheetCount hid, hs3]
  have hs5 : ApartCtxs n id s s5 := by
    unfold s5; split
    exacts [hs4.condemn, hs4]
  split
  exacts [hs5.condemn, hs5]

/-! ### Moves -/

theorem ApartCtxs.wrote {i : Nat} (h : ApartCtxs n id s t) : ApartCtxs n id s (t.wrote i) := by
  unfold State.wrote
  split
  exacts [h.modSheet, h]

theorem Apart.wrote {i : Nat} (h : Apart n id s t) : Apart n id s (t.wrote i) := by
  unfold State.wrote
  split
  exacts [h.modSheet, h]

/-- What a move of columns changes: the columns of the installed map are written, and tiles change. -/
theorem State.moveCols_of {R : State → Prop} {old : State} {whole : Bool} (h : R s) (ht : ∀ a i f, R a → R (a.modTile i f))
    (hw : ∀ a q r, r < 16 → some q ∈ (s.sheet m).map → R a → R (a.wrote (tileIx m q r))) : R (s.moveCols old whole m) := by
  unfold State.moveCols
  extract_lets +onlyGivenNames m0 m1
  split
  · exact h
  · extract_lets cells t1
    have ht1 : R t1 := List.foldlRecOn _ _ h fun a ha _ _ => by
      split
      · split
        exacts [ha, ht _ _ _ ha]
      · exact ha
    refine List.foldlRecOn _ _ ht1 fun a ha x hx => ?_
    split
    · next hq =>
      split
      · exact ha
      · refine ht _ _ _ (hw _ _ _ ?_ (List.mem_of_getElem? (by simpa [List.getD_eq_getElem?_getD, Option.getD_eq_iff] using hq)) ha)
        simp only [cells, List.mem_flatMap, List.mem_map, List.mem_range] at hx
        obtain ⟨_, _, r, hr, rfl⟩ := hx
        exact hr
    · exact ha

theorem ApartCtxs.moveCols {old : State} {whole : Bool} (h : ApartCtxs n id s t) : ApartCtxs n id s (t.moveCols old whole m) :=
  State.moveCols_of h (fun _ _ _ ha => ha.modTile) fun _ _ _ _ _ ha => ha.wrote

theorem ApartCtxs.takePosition {pos : Nat} {down whole : Bool} {kind : DwellKind} (h : ApartCtxs n id s t) :
    ApartCtxs n id s (t.takePosition m pos down whole kind) := by
  unfold State.takePosition
  exact (h.modSheet fun x => by simp).moveCols

theorem Apart.beginPrologue {c : Nat} {g : Prog} (h : Apart n id s t) : Apart n id s (t.beginPrologue c g) := by
  unfold State.beginPrologue State.writePrologue
  split
  · exact h.modCtx
  · refine Apart.modCtx (h.foldl fun ha => ?_)
    split
    exacts [ha, ha.wrote.modTile]

theorem Apart.reloadPrologue (h : Apart n id s t) : Apart n id s (t.reloadPrologue m) := by
  unfold State.reloadPrologue
  split
  · exact h
  · extract_lets x t1
    have ht1 : Apart n id s t1 := h.foldl fun ha => ha.modSheet
    split
    exacts [ht1.modCtx, ht1.beginPrologue, ht1]

theorem ApartCtxs.reloadTo {pos : Nat} {down : Bool} {kind : DwellKind} (h : ApartCtxs n id s t) : Apart n id s (t.reloadTo m pos down kind) := by
  unfold State.reloadTo
  split
  exacts [h.modSheet.toApart, h.takePosition.toApart.reloadPrologue]

theorem ApartCtxs.sweepMove {d : Dwell} (h : ApartCtxs n id s t) : Apart n id s (t.sweepMove m d) := by
  unfold State.sweepMove
  extract_lets +onlyGivenNames x r
  split
  · split
    exacts [h.modSheet.reloadTo, h.toApart]
  · extract_lets +onlyGivenNames rollback next
    split
    · exact h.toApart
    · split
      · split
        · exact h.toApart
        · split
          exacts [h.takePosition.toApart, h.modSheet.toApart]
      · exact (h.modSheet fun x => by simp).toApart
      · exact h.reloadTo
end

/-! ### Sheets through a move -/

section
variable {n m : Nat} {P : Sheet → Prop} {w : Bool} {pos : Nat} {down : Bool} {kind : DwellKind}

theorem State.sheet_wrote_of {i : Nat} (hP : ∀ x l, P x → P { x with tstat := l }) (h : P (s.sheet m)) : P ((s.wrote i).sheet m) := by
  unfold State.wrote
  split
  exacts [State.sheet_modSheet_of h fun x hx => hP x _ hx, h]

theorem State.sheet_wrote_other {q r : Nat} (hq : q < 18) (hr : r < 16) (hm : m ≠ n) : (s.wrote (tileIx n q r)).sheet m = s.sheet m := by
  have hn : tileIx n q r / 288 = n := by unfold tileIx; omega
  unfold State.wrote
  rw [hn]
  split
  exacts [State.sheet_modSheet_other s n m _ hm.symm, rfl]

theorem State.sheet_takePosition_of (hP : ∀ x l, P x → P { x with tstat := l })
    (h : P { install { s.sheet n with rove := some pos, down := down } with dwell := none, dwellDue := some kind, dirty := [] })
    (hn : n < s.sheets.length) : P ((s.takePosition n pos down w kind).sheet n) := by
  unfold State.takePosition
  refine State.moveCols_of (R := fun a => P (a.sheet n)) ?_ (fun _ _ _ ha => ha) fun _ _ _ _ _ ha => State.sheet_wrote_of hP ha
  rw [State.sheet_modSheet_same s n _ hn]
  exact hP _ _ h

theorem mapOf_lt {x : Sheet} {rove stand : Option Nat} {q : Nat} (h : some q ∈ mapOf x rove stand) : q < 18 := by
  unfold mapOf at h
  extract_lets live at h
  split at h
  · simp at h
  · obtain ⟨c, hc, ⟨⟩⟩ := List.mem_map.1 h
    exact List.mem_range.1 (List.mem_filter.1 hc).1

theorem State.sheet_takePosition_other (hm : m ≠ n) (hn : n < s.sheets.length) : (s.takePosition n pos down w kind).sheet m = s.sheet m := by
  unfold State.takePosition
  refine State.moveCols_of (R := fun a => a.sheet m = s.sheet m) (State.sheet_modSheet_other s n m _ hm.symm) (fun _ _ _ ha => ha) ?_
  intro a q r hr hq ha
  rw [State.sheet_modSheet_same s n _ hn] at hq
  exact (State.sheet_wrote_other (mapOf_lt hq) hr hm).trans ha

theorem State.sheet_beginPrologue_of {c : Nat} {g : Prog} (hP : ∀ x l, P x → P { x with tstat := l }) (h : P (s.sheet m)) :
    P ((s.beginPrologue c g).sheet m) := by
  unfold State.beginPrologue State.writePrologue
  split
  · exact h
  · refine List.foldlRecOn (motive := fun a : State => P (a.sheet m)) _ _ h fun a ha x _ => ?_
    split
    exacts [ha, State.sheet_wrote_of hP ha]

theorem State.sheet_reloadPrologue_of (hP : ∀ x l, P x → P { x with tstat := l }) (hD : ∀ x f, P x → P { x with dwell := x.dwell.map f })
    (h : P (s.sheet m)) : P ((s.reloadPrologue n).sheet m) := by
  unfold State.reloadPrologue
  split
  · exact h
  · extract_lets x t1
    have ht1 : P (t1.sheet m) := List.foldlRecOn (motive := fun a : State => P (a.sheet m)) _ _ h fun a ha x _ =>
      State.sheet_modSheet_of ha fun x => hD x _
    split
    exacts [ht1, State.sheet_beginPrologue_of hP ht1, ht1]

@[simp] theorem placeSpares_watched (x : Sheet) : (placeSpares x).watched = x.watched := by rw [placeSpares_eq]

@[simp] theorem install_watched (x : Sheet) : (install x).watched = x.watched := placeSpares_watched x

/-- After the spare went to a position or stayed there, no dwell is in progress and one is due; WATCHED is as it was. -/
theorem State.reloadTo_sheet (hn : n < s.sheets.length) : ((s.reloadTo n pos down kind).sheet n).dwell = none ∧
    ((s.reloadTo n pos down kind).sheet n).dwellDue = some kind ∧ ((s.reloadTo n pos down kind).sheet n).watched = (s.sheet n).watched := by
  unfold State.reloadTo
  split
  · rw [State.sheet_modSheet_same s n _ hn]
    exact ⟨rfl, rfl, rfl⟩
  · refine State.sheet_reloadPrologue_of (P := fun x => x.dwell = none ∧ x.dwellDue = some kind ∧ x.watched = (s.sheet n).watched)
      (fun _ _ h => h) (fun x f h => ⟨by simp [h.1], h.2⟩) (State.sheet_takePosition_of
      (P := fun x => x.dwell = none ∧ x.dwellDue = some kind ∧ x.watched = (s.sheet n).watched) (fun _ _ h => h) ⟨rfl, rfl, install_watched _⟩ hn)
end

/-! ### Where the spares are placed -/

theorem install_rove (x : Sheet) : (install x).rove = (placeSpares x).rove := rfl
theorem install_stand (x : Sheet) : (install x).stand = (placeSpares x).stand := rfl
theorem install_down (x : Sheet) : (install x).down = (placeSpares x).down := rfl

/-- A roving spare on a legal position stays there, with the direction that it has. -/
theorem placeSpares_legal {x : Sheet} {p : Nat} (hh : x.health = 0) (hr : x.rove = some p) (hl : x.legal p = true)
    (hs : x.stand = some 17 ∨ x.ns ≠ []) : (placeSpares x).rove = some p ∧ (placeSpares x).down = x.down := by
  unfold placeSpares
  rw [hh]
  cases hns : x.ns with
  | nil =>
    have hst : x.stand = some 17 := hs.resolve_right fun h => h hns
    have hy : ({ x with rove := some p, stand := some 17 } : Sheet) = x := by rw [← hr, ← hst]
    simp [hy, hr, hl, hst]
  | cons a l =>
    have hy : ({ x with rove := some p, stand := none } : Sheet).legal p = true := by
      simp only [Sheet.legal, Bool.and_eq_true] at hl ⊢
      exact ⟨hl.1, rfl⟩
    simp [hr, hy]

/-- Where the spares are beside each other in the last two columns they stay, whichever roves. -/
theorem placeSpares_swapped {x : Sheet} {p : Nat} (hp : p = 16 ∨ p = 17) (hns : x.ns = []) (hl : x.linkFail = false) (hr : x.rove = some p)
    (hs : x.stand = some (33 - p)) : placeSpares x = x := by
  have hh : x.health = 0 := by simp [Sheet.health, hl, hns]
  unfold placeSpares
  rw [hh, hns]
  rcases hp with rfl | rfl
  · have hy : ({ x with rove := some 16, stand := some 17 } : Sheet) = x := by rw [← hr, ← hs]
    have hleg : x.legal 16 = true := by simp [Sheet.legal, hns, hs]
    simp [hy, hr, hleg]
  · simp [hr, hs]

/-! ### A column retires -/

section
variable {n m pos pc cause : Nat} {old : Sheet}

theorem Recorded.sheet_eq (h : Recorded t u) : u.sheet m = t.sheet m := by
  rw [h]
  rfl

theorem State.logErr_recorded {cls : Nat} {a : ErrAt} {body : List Byte} (h : 3 < s.start.stage) :
    ∃ r ∈ (s.logErr cls a body).logs.errs, r.cls = cls := by
  unfold State.logErr
  extract_lets +onlyGivenNames x isStep first flags r t
  rw [if_neg (by omega)]
  exact ⟨r, by simp, rfl⟩

theorem retireRoles_broke (x : Sheet) : (retireRoles x pc).broke = (List.range 18).filter fun c => c = pc || x.broke.contains c := by
  unfold retireRoles
  extract_lets +onlyGivenNames y
  split
  · rfl
  · split
    · rfl
    · split <;> rfl

@[simp] theorem placeSpares_broke (x : Sheet) : (placeSpares x).broke = x.broke := by rw [placeSpares_eq]

@[simp] theorem install_broke (x : Sheet) : (install x).broke = x.broke := placeSpares_broke x

@[simp] theorem newDwell_broke (x : Sheet) : (newDwell x).broke = x.broke := by rw [newDwell_eq]

theorem State.applyRoles_broke : ((s.applyRoles n old).sheet m).broke = (s.sheet m).broke := by
  unfold State.applyRoles State.installMap
  split
  · exact State.sheet_modSheet_eq fun _ => rfl
  · refine State.sheet_modSheet_eq fun x => ?_
    dsimp only
    split <;> simp

theorem State.applyRoles_logs : (s.applyRoles n old).logs = s.logs := by
  unfold State.applyRoles
  split <;> rfl

/-- The column that retires is broke, and a record says so (R464). -/
theorem State.retireOne_retires (hp : pc < 18) (hn : n < s.sheets.length) (hs : 3 < s.start.stage) (hb : pc ∉ (s.sheet n).broke) :
    pc ∈ ((s.retireOne n pc cause).sheet n).broke ∧ ∃ r ∈ (s.retireOne n pc cause).logs.errs, r.cls = 0x0302 := by
  unfold State.retireOne
  rw [if_neg (by simpa using hb)]
  extract_lets e s1 s2
  have hr : Recorded s1 s2 := Recorded.refl.addRepair
  refine ⟨?_, State.logErr_recorded ?_⟩
  · rw [(hr.logErr rfl).sheet_eq, State.sheet_modSheet_same s n _ hn, retireRoles_broke]
    simp [hp]
  · rw [hr]
    exact hs

theorem ascending_single (hp : pc < 18) : ascending [(pc, cause)] = [(pc, cause)] := by
  interval_cases pc <;> rfl

theorem State.retire_retires (hp : pc < 18) (hn : n < s.sheets.length) (hs : 3 < s.start.stage) (hb : pc ∉ (s.sheet n).broke) :
    pc ∈ ((s.retire n [(pc, cause)]).sheet n).broke ∧ ∃ r ∈ (s.retire n [(pc, cause)]).logs.errs, r.cls = 0x0302 := by
  unfold State.retire
  rw [ascending_single hp, State.applyRoles_broke, State.applyRoles_logs]
  exact State.retireOne_retires hp hn hs hb
end

/-! ### The repair interval -/

section
variable {n m pos row id : Nat} {f : BistFail} {d : Dwell} {fails bad : List BistFail} {cond : BistCond}

theorem State.sheetCount_broke {k : Nat} : ((s.sheetCount n id k).sheet m).broke = (s.sheet m).broke := State.sheet_modSheet_eq fun _ => rfl

theorem State.repairOne_broke : ((s.repairOne n pos f).1.sheet m).broke = (s.sheet m).broke := by
  unfold State.repairOne
  split
  · exact State.sheetCount_broke.trans (congrArg Sheet.broke Recorded.refl.addRepair.sheet_eq)
  · rfl

theorem State.repairMarked_broke : ((s.repairMarked n pos row).sheet m).broke = (s.sheet m).broke := by
  unfold State.repairMarked
  extract_lets i kind size
  refine List.foldlRecOn (motive := fun a : State => (a.sheet m).broke = (s.sheet m).broke) _ _ rfl fun a ha w _ => ?_
  extract_lets key used detail
  split
  · exact (State.sheetCount_broke.trans (congrArg Sheet.broke Recorded.refl.addRepair.sheet_eq)).trans ha
  · exact (congrArg Sheet.broke (Recorded.refl.logErr rfl).sheet_eq).trans ha

theorem State.bistFail_broke {origin : Nat} : ((s.bistFail n pos f cond origin).sheet m).broke = (s.sheet m).broke :=
  (congrArg Sheet.broke (Recorded.refl.logErr rfl).sheet_eq).trans State.sheetCount_broke

/-- A spare that fails is broke, and a record says so (R445, R464). -/
theorem State.condemnSpare_retires (h : Shaped s) (hn : n < 24) (hp : d.pos < 18) (hs : 3 < s.start.stage) (hb : d.pos ∉ (s.sheet n).broke) :
    d.pos ∈ ((s.condemnSpare n d bad cond).sheet n).broke ∧ ∃ r ∈ (s.condemnSpare n d bad cond).logs.errs, r.cls = 0x0302 := by
  unfold State.condemnSpare
  extract_lets t
  have ht : ApartCtxs n 0 s t := ApartCtxs.refl.foldl fun ha => ha.bistFail (by decide)
  have hl : Shaped t := h.foldl fun ha => ha.bistFail
  have hbt : (t.sheet n).broke = (s.sheet n).broke :=
    List.foldlRecOn (motive := fun a : State => (a.sheet n).broke = (s.sheet n).broke) _ _ rfl fun _ ha _ _ => State.bistFail_broke.trans ha
  exact State.retire_retires hp (by rwa [hl.sheets_length]) (by rwa [ht.management.2.2]) (by rwa [hbt])

/-- The state once the spares are switched in for the failures of a dwell, and the failures that none covers. -/
def State.switched (s : State) (n : Nat) (d : Dwell) : State × List BistFail :=
  d.fails.foldl (fun (a : State × List BistFail) f =>
    let b := a.1.repairOne n d.pos f
    (b.1, a.2 ++ b.2)) (s, [])

/-- The state once the marked words of a column are repaired. -/
def State.remapped (s : State) (n pos : Nat) : State := (List.range 16).foldl (fun a row => a.repairMarked n pos row) s

theorem Shaped.switched (h : Shaped s) : Shaped (s.switched n d).1 := Shaped.foldlFst (b := (s, [])) h fun ha => ha.repairOne

theorem Shaped.remapped (h : Shaped s) : Shaped (s.remapped n pos) := by
  unfold State.remapped
  exact h.foldl fun ha => ha.repairMarked

theorem ApartCtxs.switched (hid : id ≠ 0x0B07) : ApartCtxs n id s (s.switched n d).1 :=
  List.foldlRecOn (motive := fun a : State × List BistFail => ApartCtxs n id s a.1) _ _ ApartCtxs.refl fun _ ha _ _ => ha.repairOne hid

theorem ApartCtxs.remapped (h : ApartCtxs n id s t) (hid : id ≠ 0x0B07) : ApartCtxs n id s (t.remapped n pos) := by
  unfold State.remapped
  exact h.foldl fun ha => ha.repairMarked hid

theorem State.switched_broke : ((s.switched n d).1.sheet m).broke = (s.sheet m).broke :=
  List.foldlRecOn (motive := fun a : State × List BistFail => (a.1.sheet m).broke = (s.sheet m).broke) _ _ rfl
    fun _ ha _ _ => State.repairOne_broke.trans ha

theorem State.remapped_broke : ((s.remapped n pos).sheet m).broke = (s.sheet m).broke := by
  unfold State.remapped
  exact List.foldlRecOn (motive := fun a : State => (a.sheet m).broke = (s.sheet m).broke) _ _ rfl
    fun _ ha _ _ => State.repairMarked_broke.trans ha

theorem State.switched_covered (h : d.fails = [] ∨ ∃ f, d.fails = [f] ∧ s.canRepair n d.pos f = true) : (s.switched n d).2 = [] := by
  unfold State.switched
  rcases h with h | ⟨f, h, hc⟩ <;> rw [h]
  · rfl
  · simp [State.repairOne, hc]

/-- The state when the repair interval has switched in its spares and counted itself. -/
def State.repaired (s : State) (n : Nat) (d : Dwell) : State := ((s.switched n d).1.remapped n d.pos).sheetCount n 0x0B02 1

theorem State.sheetCount_count {k : Nat} (hn : n < s.sheets.length) :
    ((s.sheetCount n id k).sheet n).counters.getD id 0 = ((s.sheet n).counters.getD id 0 + k) % 2 ^ 48 := by
  unfold State.sheetCount
  rw [State.sheet_modSheet_same s n _ hn]
  exact KMap.getD_set_same ..

theorem Shaped.repaired (h : Shaped s) : Shaped (s.repaired n d) := h.switched.remapped.sheetCount

theorem ApartCtxs.repaired (hid : id ≠ 0x0B07) (hid' : id ≠ 0x0B02) : ApartCtxs n id s (s.repaired n d) :=
  ((ApartCtxs.switched hid).remapped hid).sheetCount hid'

theorem State.repaired_broke : ((s.repaired n d).sheet m).broke = (s.sheet m).broke :=
  (State.sheetCount_broke.trans State.remapped_broke).trans State.switched_broke

theorem State.repaired_count (h : Shaped s) (hn : n < 24) :
    ((s.repaired n d).sheet n).counters.getD 0x0B02 0 = ((s.sheet n).counters.getD 0x0B02 0 + 1) % 2 ^ 48 := by
  have hm : ApartCtxs n 0x0B02 s ((s.switched n d).1.remapped n d.pos) := (ApartCtxs.switched (by decide)).remapped (by decide)
  unfold State.repaired
  rw [State.sheetCount_count (by rwa [h.switched.remapped.sheets_length]), hm.count]

theorem softRepair_fails (hd : (s.sheet n).dwell = some d) (hp : d.phase = .repair) (ha : d.abandoned = false)
    (hf : (s.switched n d).2 ++ fails ≠ []) :
    softRepair n fails cond s = (s.repaired n d).condemnSpare n d ((s.switched n d).2 ++ fails) cond := by
  unfold softRepair
  rw [hd]
  dsimp only
  rw [if_neg (by simp [hp, ha])]
  exact if_pos (by simpa [State.switched] using hf)

theorem softRepair_passes (hd : (s.sheet n).dwell = some d) (hp : d.phase = .repair) (ha : d.abandoned = false)
    (hf : (s.switched n d).2 ++ fails = []) : softRepair n fails cond s =
      (s.repaired n d).nextPhase n { d with fails := [] } (if d.kind = .inspect then .idle else .couchIn) false := by
  unfold softRepair
  rw [hd]
  dsimp only
  rw [if_neg (by simp [hp, ha])]
  exact if_neg (by simpa [State.switched] using hf)

theorem State.nextPhase_sheet {p : Phase} {scan : Bool} (hn : n < s.sheets.length) :
    ((s.nextPhase n d p scan).sheet n).dwell = some { d with phase := p, phaseAt := s.clk.life } ∧
      ((s.nextPhase n d p scan).sheet n).counters = (s.sheet n).counters := by
  unfold State.nextPhase
  rw [State.sheet_modSheet_same s n _ hn]
  exact ⟨rfl, rfl⟩
end

/-! ### How the dwell's commands answer -/

theorem answers_of {c : Instr} {P : State → Prop} (h : exec c s = nextOf s u) (hP : P (settle s u)) : Answers c s P := ⟨_, h, hP⟩

@[simp] theorem settle_sheet (m : Nat) : (settle s t).sheet m = t.sheet m := by simp [State.sheet]

theorem Shaped.sheet_lt (h : Shaped s) (n : Sh) : n.val < s.sheets.length := by
  rw [h.sheets_length]
  exact n.isLt

theorem SameManagement.settle (h : SameManagement s t) : SameManagement s (settle s t) := by simpa [SameManagement] using h

theorem SameMemory.settle (h : SameMemory s t) : SameMemory s (settle s t) := by simpa [SameMemory] using h

section
variable {n : Sh} {d : Dwell} {evs : List CalEvent} {fails : List BistFail} {cond : BistCond}

/-- Where every failure has a spare, the repair interval goes on to couch-in, or to the installation point of an INSPECT dwell. -/
theorem softRepair_passes_answers (h : Shaped s) (hd : (s.sheet n).dwell = some d) (hp : d.phase = .repair) (ha : d.abandoned = false)
    (hc : d.fails = [] ∨ ∃ f, d.fails = [f] ∧ s.canRepair n d.pos f = true) :
    Answers (.softRepair n [] cond) s fun t =>
      (t.sheet n).dwell = some { d with fails := [], phase := if d.kind = .inspect then .idle else .couchIn, phaseAt := s.clk.life } ∧
      (t.sheet n).counters.getD 0x0B02 0 = ((s.sheet n).counters.getD 0x0B02 0 + 1) % 2 ^ 48 ∧ t.ctxs = s.ctxs ∧ t.dram = s.dram ∧
      t.pool = s.pool ∧ t.pts = s.pts ∧ SameManagement s t := by
  have hf : (s.switched n d).2 ++ [] = [] := by rw [State.switched_covered hc]; rfl
  have hn : n.val < (s.repaired n d).sheets.length := h.repaired.sheet_lt n
  have hm : ApartCtxs n 0 s (s.repaired n d) := ApartCtxs.repaired (by decide) (by decide)
  refine answers_of (congrArg (nextOf s) (softRepair_passes hd hp ha hf)) ?_
  generalize (if d.kind = .inspect then Phase.idle else Phase.couchIn) = ph
  have ht : ApartCtxs n 0 s ((s.repaired n d).nextPhase n { d with fails := [] } ph false) := hm.nextPhase
  obtain ⟨hdw, hct⟩ := State.nextPhase_sheet (d := { d with fails := [] }) (p := ph) (scan := false) hn
  rw [settle_sheet, settle_ctxs, settle_dram, settle_pool, settle_pts, hdw, hct, State.repaired_count h n.isLt, hm.clk]
  exact ⟨rfl, rfl, ht.ctxs, ht.dram, ht.pool, ht.pts, SameManagement.settle ht.management⟩

/-- A rerun that fails retires the column. -/
theorem softRepair_fails_answers (h : Shaped s) (hs : 3 < s.start.stage) (hpos : d.pos < 18) (hd : (s.sheet n).dwell = some d)
    (hp : d.phase = .repair) (ha : d.abandoned = false) (hf : fails ≠ []) (hb : d.pos ∉ (s.sheet n).broke) :
    Answers (.softRepair n fails cond) s fun t => d.pos ∈ (t.sheet n).broke ∧ (∃ r ∈ t.logs.errs, r.cls = 0x0302) ∧ t.ctxs = s.ctxs ∧
      t.dram = s.dram ∧ t.pool = s.pool ∧ SameManagement s t := by
  have hm : ApartCtxs n 0 s (s.repaired n d) := ApartCtxs.repaired (by decide) (by decide)
  have hc : ApartCtxs n 0 s ((s.repaired n d).condemnSpare n d ((s.switched n d).2 ++ fails) cond) := hm.condemnSpare (by decide)
  refine answers_of (congrArg (nextOf s) (softRepair_fails hd hp ha (by simp [hf]))) ?_
  rw [settle_sheet, settle_logs, settle_ctxs, settle_dram, settle_pool]
  obtain ⟨hbroke, hrec⟩ := State.condemnSpare_retires (bad := (s.switched n d).2 ++ fails) (cond := cond) h.repaired n.isLt hpos
    (by rwa [hm.management.2.2]) (by rwa [State.repaired_broke])
  exact ⟨hbroke, hrec, hc.ctxs, hc.dram, hc.pool, SameManagement.settle hc.management⟩

/-! ### Couch-in -/

/-- The state in which couch-in has copied every word. -/
def State.copiedAll (s : State) (n : Nat) (d : Dwell) : State := s.modSheet n fun y => { y with
  dwell := some { d with couched := some s.clk.life, words := 65536 }
  tstat := y.tstat.modify d.pos fun (t : TStat) => { t with zeroised := false, copied := 0xFFFF } }

theorem couchInDone_eq (hd : (s.sheet n).dwell = some d) (hp : d.phase = .couchIn) (hc : d.couched = none) (ht : d.target ≠ none) :
    couchInDone n s = if (s.holderOfSheet n).isNone then (s.copiedAll n d).beginCatchup n else s.copiedAll n d := by
  unfold couchInDone
  rw [hd]
  exact if_neg (by simp [hp, hc, ht])

theorem couchInDone_stays (hd : (s.sheet n).dwell = some d) (h : d.phase ≠ .couchIn ∨ d.couched ≠ none ∨ d.target = none) : couchInDone n s = s := by
  unfold couchInDone
  rw [hd]
  exact if_pos (by simpa [Option.isSome_iff_ne_none] using h)

theorem couchInDone_bound_answers (h : Shaped s) (hpos : d.pos < 18) (hd : (s.sheet n).dwell = some d) (hp : d.phase = .couchIn)
    (hc : d.couched = none) (ht : d.target ≠ none) (hb : (s.holderOfSheet n).isSome = true) :
    Answers (.couchInDone n) s fun t => (t.sheet n).dwell = some { d with couched := some s.clk.life, words := 65536 } ∧
      ((t.sheet n).tstat.getD d.pos {}).copied = 0xFFFF ∧ ((t.sheet n).tstat.getD d.pos {}).zeroised = false ∧
      (∀ m, m ≠ n.val → t.sheet m = s.sheet m) ∧ t.ctxs = s.ctxs ∧ SameMemory s t ∧ SameManagement s t := by
  have hn : n.val < s.sheets.length := h.sheet_lt n
  have hlen : d.pos < (s.sheet n).tstat.length := by
    have hmem : s.sheet n ∈ s.sheets := by simp [State.sheet, List.getD_eq_getElem?_getD, hn]
    rw [(h.of_mem_sheets hmem).2]
    exact hpos
  have hu : couchInDone n s = s.copiedAll n d := by
    rw [couchInDone_eq hd hp hc ht, if_neg (by simpa [Option.isSome_iff_ne_none] using hb)]
  refine answers_of (congrArg (nextOf s) hu) ?_
  simp only [settle_sheet, settle_ctxs, State.copiedAll, State.sheet_modSheet_same _ _ _ hn]
  refine ⟨trivial, ?_, ?_, fun m hm => State.sheet_modSheet_other s n m _ hm.symm, rfl, SameMemory.settle ⟨rfl, rfl, rfl, rfl⟩,
    SameManagement.settle ⟨rfl, rfl, rfl⟩⟩ <;> simp [List.getD_eq_getElem?_getD, hlen]

theorem couchInDone_unbound_answers (h : Shaped s) (hd : (s.sheet n).dwell = some d) (hp : d.phase = .couchIn)
    (hc : d.couched = none) (ht : d.target ≠ none) (hb : (s.holderOfSheet n).isSome = false) (hi : d.inStep = false) (hca : d.catching = none)
    (hdirty : (s.sheet n).mostDirty ≤ 33952) :
    Answers (.couchInDone n) s fun t => (t.sheet n).dwell = some { d with
        couched := some s.clk.life, words := 65536, catching := some (s.clk.life + 1 + (2048 + (s.sheet n).mostDirty)) } ∧
      t.ctxs = s.ctxs ∧ SameMemory s t ∧ SameManagement s t := by
  have hn : n.val < s.sheets.length := h.sheet_lt n
  have hs : (s.copiedAll n d).sheet n = _ := State.sheet_modSheet_same s n _ hn
  have hu : couchInDone n s = (s.copiedAll n d).modSheet n fun y => { y with dwell := y.dwell.map fun (e : Dwell) =>
      { e with catching := some (s.clk.life + 1 + (2048 + (s.sheet n).mostDirty)) } } := by
    rw [couchInDone_eq hd hp hc ht, if_pos (by simpa using hb)]
    unfold State.beginCatchup
    rw [hs]
    dsimp only
    rw [if_neg (by simp [hi, hca])]
    exact if_neg (Nat.not_lt.2 (show 2048 + (s.sheet n).mostDirty ≤ 36000 by omega))
  refine answers_of (congrArg (nextOf s) hu) ?_
  rw [settle_sheet, settle_ctxs, State.sheet_modSheet_same _ _ _ (by simpa [State.copiedAll] using hn), hs]
  exact ⟨rfl, rfl, SameMemory.settle ⟨rfl, rfl, rfl, rfl⟩, SameManagement.settle ⟨rfl, rfl, rfl⟩⟩
end

/-! ### The end of a dwell -/

section
variable {n m id col k : Nat} {d : Dwell} {evs : List CalEvent} {b : Bool}

theorem ApartCtxs.inspectMove (h : ApartCtxs n id s t) : Apart n id s (t.inspectMove m) := by
  unfold State.inspectMove
  extract_lets x
  split
  · exact h.toApart
  · split
    exacts [h.reloadTo, h.modSheet.reloadTo]

theorem ApartCtxs.steeredMove (h : ApartCtxs n id s t) (hid : id ≠ 0x0C05) : Apart n id s (t.steeredMove m col k b) := by
  unfold State.steeredMove
  split
  · exact h.toApart
  · extract_lets s1 j s2 x
    have hs1 : ApartCtxs n id s s1 := h.sheetCount hid
    have hs2 : ApartCtxs n id s s2 := hs1.modSheet
    split
    · exact hs1.modSheet.toApart
    · split
      exacts [hs2.reloadTo, hs2.modSheet.toApart]

/-- A move after what its events record. -/
theorem ApartCtxs.spareMove (h : ApartCtxs n id s (t.moveEvents m evs)) (hid : id ≠ 0x0C05) : Apart n id s (spareMove m evs t) := by
  unfold Machine.spareMove
  extract_lets r
  split
  · exact h.toApart
  · extract_lets due
    split
    · split
      exacts [h.inspectMove, h.toApart]
    · split
      exacts [h.sweepMove, h.toApart]
    · split
      exacts [h.steeredMove hid, h.toApart]

theorem State.moveDue_iff : s.moveDue d = true ↔ d.inStep = true ∧ d.start + 172800000 ≤ s.clk.life := by
  unfold State.moveDue
  rw [Bool.and_eq_true, decide_eq_true_iff]
  exact Iff.rfl

theorem Sheet.shadowed_inStep {x : Sheet} (h : x.shadowed = some d) : d.inStep = true := by
  unfold Sheet.shadowed at h
  split at h
  · split at h
    · next e _ hs =>
      obtain rfl : e = d := Option.some.inj h
      exact (Bool.and_eq_true_iff.1 hs).1
    · cases h
  · cases h

/-- With no events, and under a bound context, nothing is compared at the move. -/
theorem State.moveEvents_quiet (h : evs = [] ∨ s.holderOfSheet n ≠ none) : s.moveEvents n evs = s := by
  unfold State.moveEvents
  split
  · rfl
  · split
    · rfl
    · next hb =>
      have he : evs = [] := h.resolve_right fun hh => hb (.inl (Option.isSome_iff_ne_none.2 hh))
      rw [he]
      rfl

theorem spareMove_not_due (hd : (s.sheet n).dwell = some d) (hk : d.kind ≠ .inspect) (h : s.moveDue d = false) : spareMove n evs s = s := by
  have he : s.moveEvents n evs = s := by
    unfold State.moveEvents
    rw [hd]
    exact if_pos (.inr (by rw [h]; rfl))
  unfold spareMove
  rw [he]
  dsimp only
  rw [hd]
  dsimp only
  split
  · exact absurd ‹_› hk
  · rw [h]; rfl
  · rw [h]; rfl

theorem spareMove_sweep (he : s.moveEvents n evs = s) (hd : (s.sheet n).dwell = some d) (hk : d.kind = .sweep) (h : s.moveDue d = true) :
    spareMove n evs s = s.sweepMove n d := by
  unfold spareMove
  rw [he]
  dsimp only
  rw [hd]
  dsimp only
  rw [hk]
  exact if_pos h

theorem spareMove_steered (he : s.moveEvents n evs = s) (hd : (s.sheet n).dwell = some d) (hk : d.kind = .steered col k) (h : s.moveDue d = true) :
    spareMove n evs s = s.steeredMove n col k d.against := by
  unfold spareMove
  rw [he]
  dsimp only
  rw [hd]
  dsimp only
  rw [hk]
  exact if_pos h

theorem spareMove_inspect (he : s.moveEvents n evs = s) (hd : (s.sheet n).dwell = some d) (hk : d.kind = .inspect) :
    spareMove n evs s = if d.phase = .idle then s.inspectMove n else s := by
  unfold spareMove
  rw [he]
  dsimp only
  rw [hd]
  dsimp only
  rw [hk]

variable {col p : Nat} {down : Bool} {kind : MoveKind}

theorem State.sweepMove_steers (hf : (s.sheet n).firstSteer = some (col, p)) (hi : s.canInstall n .mapReload = true) : s.sweepMove n d =
    (s.modSheet n fun y => { y with before := some (d.pos, (s.sheet n).down) }).reloadTo n p (s.sheet n).down (.steered col 0) := by
  unfold State.sweepMove
  dsimp only
  rw [hf]
  exact if_pos hi

section
variable (hf : (s.sheet n).firstSteer = none)
  (hb : b = (match s.holderOfSheet n with
    | some c => !(s.ctx c).commitHold
    | none => false))
include hf hb

theorem State.sweepMove_stays (hp : s.plan n b = (p, down, kind)) (hi : s.canInstall n kind = false) : s.sweepMove n d = s := by
  subst hb
  unfold State.sweepMove
  extract_lets x r rollback move
  rw [show x.firstSteer = none from hf, show move = (p, down, kind) from hp]
  exact if_pos (by simp [hi])

theorem State.sweepMove_plain (hp : s.plan n b = (p, down, .plain)) (hi : s.canInstall n .plain = true)
    (hm : d.mismatched = false ∨ s.holderOfSheet n = none) (ht : d.tphys = some p) : s.sweepMove n d = s.takePosition n p down true .sweep := by
  subst hb
  unfold State.sweepMove
  extract_lets x r rollback move
  rw [show x.firstSteer = none from hf, show move = (p, down, .plain) from hp]
  dsimp only
  rw [if_neg (by simp [hi]), if_neg (by rcases hm with h | h <;> simp [h]), if_pos ht]

theorem State.sweepMove_labelSwap (hp : s.plan n b = (p, down, .labelSwap)) (hi : s.canInstall n .labelSwap = true) :
    s.sweepMove n d = s.modSheet n fun y => { install { y with rove := some p, stand := some (33 - p), down := down } with
      dwell := none, dwellDue := some .sweep, dirty := [] } := by
  subst hb
  unfold State.sweepMove
  extract_lets x r rollback move
  rw [show x.firstSteer = none from hf, show move = (p, down, .labelSwap) from hp]
  exact if_neg (by simp [hi])
end

theorem State.inspectMove_steers (hi : s.canInstall n .mapReload = true) (hf : (s.sheet n).firstSteer = some (col, p)) :
    s.inspectMove n = s.reloadTo n p (s.sheet n).down (.steered col 0) := by
  unfold State.inspectMove
  extract_lets x
  rw [show x.firstSteer = some (col, p) from hf]
  exact if_neg (by simp [hi])

theorem State.inspectMove_stays (hi : s.canInstall n .mapReload = false) : s.inspectMove n = s := by
  unfold State.inspectMove
  exact if_pos (by simp [hi])

/-- A STEERED dwell that ends is counted; it is followed by another one, or after ten clears WATCHED. -/
theorem State.steeredMove_sheet {j : Nat} (hn : n < s.sheets.length) (hi : s.canInstall n .mapReload = true) (hj : j = if b then 0 else k + 1) :
    (j < 10 → ((s.steeredMove n col k b).sheet n).dwell = none ∧ ((s.steeredMove n col k b).sheet n).dwellDue = some (.steered col j) ∧
      ((s.steeredMove n col k b).sheet n).watched = (s.sheet n).watched) ∧
    (10 ≤ j → col ∉ ((s.steeredMove n col k b).sheet n).watched) := by
  unfold State.steeredMove
  rw [if_neg (by simp [hi])]
  extract_lets s1 i s2 x
  have hn1 : n < s1.sheets.length := by simpa [s1, State.sheetCount] using hn
  have hn2 : n < s2.sheets.length := by simpa [s2] using hn1
  rw [show i = j from hj.symm]
  refine ⟨fun h => ?_, fun h => ?_⟩
  · rw [if_pos h, State.sheet_modSheet_same s1 n _ hn1]
    exact ⟨rfl, rfl, State.sheet_modSheet_eq (g := Sheet.watched) fun _ => rfl⟩
  · have hw : col ∉ (s2.sheet n).watched := by
      rw [State.sheet_modSheet_same s1 n _ hn1]
      simp
    rw [if_neg (by omega)]
    split
    · rwa [(State.reloadTo_sheet hn2).2.2]
    · rwa [State.sheet_modSheet_same s2 n _ hn2]

theorem State.steeredMove_count (hi : s.canInstall n .mapReload = true) :
    Apart n 0x0C05 (s.sheetCount n 0x0C05 1) (s.steeredMove n col k b) := by
  unfold State.steeredMove
  rw [if_neg (by simp [hi])]
  extract_lets s1 i s2 x
  have hs2 : ApartCtxs n 0x0C05 s1 s2 := ApartCtxs.refl.modSheet
  split
  · exact ApartCtxs.refl.modSheet.toApart
  · split
    exacts [hs2.reloadTo, hs2.modSheet.toApart]
end

/-! ### How SPARE_MOVE answers -/

section
variable {n : Sh} {d : Dwell} {evs : List CalEvent}

/-- With no context bound a difference of the accumulators is counted at the move. -/
theorem spareMove_differs_answers {row : Row} {diff : W32} {temp : Int} {mv : Nat} {act : Byte} (h : Shaped s) (hb : s.holderOfSheet n = none)
    (hx : (s.sheet n).shadowed = some d) (hd : (s.sheet n).dwell = some d) (hdue : s.moveDue d = true) :
    Answers (.spareMove ⟨n, [.shadowWm n row diff temp mv act]⟩) s fun t =>
      (t.sheet n).counters.getD 0x0C03 0 = ((s.sheet n).counters.getD 0x0C03 0 + 1) % 2 ^ 48 ∧ t.dram = s.dram ∧ t.pool = s.pool ∧
      SameManagement s t := by
  have hn : n.val < s.sheets.length := h.sheet_lt n
  have he : s.moveEvents n [.shadowWm n row diff temp mv act] = s.wmDiffers n ⟨2, row.val, 7, 0xFF, diff, temp, mv, act.toNat⟩ := by
    unfold State.moveEvents
    rw [hd]
    dsimp only
    rw [if_neg (by simp [hb, hdue])]
    exact if_pos rfl
  have hw : ApartCtxs n 0x0C03 (s.sheetCount n 0x0C03 1) (s.moveEvents n [.shadowWm n row diff temp mv act]) := by
    rw [he]
    unfold State.wmDiffers
    rw [hx]
    dsimp only
    split
    exacts [.refl, ApartCtxs.refl.recordMismatch hb (by decide)]
  have ht := hw.spareMove (by decide)
  refine answers_of rfl ?_
  rw [settle_sheet, settle_dram, settle_pool]
  exact ⟨ht.count.trans (State.sheetCount_count hn), ht.dram, ht.pool, SameManagement.settle ht.management⟩

/-- A map reload after which a dwell is due. -/
theorem answers_of_reloadTo {c : Instr} {p : Nat} {down : Bool} {kind : DwellKind} (hx : exec c s = nextOf s (t.reloadTo n p down kind))
    (ht : ApartCtxs n 0 s t) (hn : n.val < t.sheets.length) :
    Answers c s fun t => (t.sheet n).dwell = none ∧ (t.sheet n).dwellDue = some kind ∧ t.dram = s.dram ∧ t.pool = s.pool ∧ t.pts = s.pts ∧
      SameManagement s t := by
  have hr : Apart n 0 s (t.reloadTo n p down kind) := ht.reloadTo
  obtain ⟨hdw, hdue, -⟩ := State.reloadTo_sheet (pos := p) (down := down) (kind := kind) hn
  refine answers_of hx ?_
  rw [settle_sheet, settle_dram, settle_pool, settle_pts]
  exact ⟨hdw, hdue, hr.dram, hr.pool, hr.pts, SameManagement.settle hr.management⟩

/-- A plain move: the spare stands in its target's column, and another SWEEP dwell is due. -/
theorem takePosition_answers {c : Instr} {p : Nat} {down : Bool} (hx : exec c s = nextOf s (s.takePosition n p down true .sweep)) (h : Shaped s)
    (hh : (s.sheet n).health = 0) (hl : (s.sheet n).legal p = true) (hs : (s.sheet n).stand = some 17 ∨ (s.sheet n).ns ≠ []) :
    Answers c s fun t => (t.sheet n).rove = some p ∧ (t.sheet n).down = down ∧ (t.sheet n).dwell = none ∧
      (t.sheet n).dwellDue = some .sweep ∧ (∀ m, m ≠ n.val → t.sheet m = s.sheet m) ∧ t.ctxs = s.ctxs ∧ t.dram = s.dram ∧ t.pool = s.pool ∧
      t.pts = s.pts ∧ SameManagement s t := by
  have hn : n.val < s.sheets.length := h.sheet_lt n
  have ht : ApartCtxs n 0 s (s.takePosition n p down true .sweep) := ApartCtxs.refl.takePosition
  obtain ⟨hrove, hdown⟩ := placeSpares_legal (x := { s.sheet n with rove := some p, down := down }) hh rfl hl hs
  obtain ⟨h1, h2, h3, h4⟩ := State.sheet_takePosition_of (w := true)
    (P := fun x => x.rove = some p ∧ x.down = down ∧ x.dwell = none ∧ x.dwellDue = some .sweep) (fun _ _ h => h) ⟨hrove, hdown, rfl, rfl⟩ hn
  refine answers_of hx ?_
  simp only [settle_sheet]
  rw [settle_ctxs, settle_dram, settle_pool, settle_pts]
  exact ⟨h1, h2, h3, h4, fun m hm => State.sheet_takePosition_other hm hn, ht.ctxs, ht.dram, ht.pool, ht.pts, SameManagement.settle ht.management⟩

/-- The spares change their roles, in the last two columns. -/
theorem labelSwap_answers {c : Instr} {p : Nat} {down : Bool} (hx : exec c s = nextOf s (s.modSheet n fun y =>
      { install { y with rove := some p, stand := some (33 - p), down := down } with dwell := none, dwellDue := some .sweep, dirty := [] }))
    (h : Shaped s) (hp : p = 16 ∨ p = 17) (hns : (s.sheet n).ns = []) (hl : (s.sheet n).linkFail = false) :
    Answers c s fun t => (t.sheet n).rove = some p ∧ (t.sheet n).stand = some (33 - p) ∧ (t.sheet n).down = down ∧
      (t.sheet n).dwell = none ∧ (t.sheet n).dwellDue = some .sweep ∧ t.tiles = s.tiles ∧ t.ctxs = s.ctxs ∧ SameMemory s t ∧
      SameManagement s t := by
  have hn : n.val < s.sheets.length := h.sheet_lt n
  have he := placeSpares_swapped (x := { s.sheet n with rove := some p, stand := some (33 - p), down := down }) hp hns hl rfl rfl
  refine answers_of hx ?_
  rw [settle_sheet, settle_tiles, settle_ctxs, State.sheet_modSheet_same s n _ hn]
  dsimp only
  rw [install_rove, install_stand, install_down, he]
  exact ⟨rfl, rfl, rfl, rfl, rfl, rfl, rfl, SameMemory.settle ⟨rfl, rfl, rfl, rfl⟩, SameManagement.settle ⟨rfl, rfl, rfl⟩⟩

theorem steeredMove_answers {c : Instr} {col k j : Nat} {b : Bool} (hx : exec c s = nextOf s (s.steeredMove n col k b)) (h : Shaped s)
    (hi : s.canInstall n .mapReload = true) (hj : j = if b then 0 else k + 1) :
    Answers c s fun t => (t.sheet n).counters.getD 0x0C05 0 = ((s.sheet n).counters.getD 0x0C05 0 + 1) % 2 ^ 48 ∧
      (j < 10 → (t.sheet n).dwell = none ∧ (t.sheet n).dwellDue = some (.steered col j) ∧ (t.sheet n).watched = (s.sheet n).watched) ∧
      (10 ≤ j → col ∉ (t.sheet n).watched) ∧ t.dram = s.dram ∧ t.pool = s.pool ∧ t.pts = s.pts ∧ SameManagement s t := by
  have hn : n.val < s.sheets.length := h.sheet_lt n
  have ht : Apart n 0x0C05 (s.sheetCount n 0x0C05 1) (s.steeredMove n col k b) := State.steeredMove_count hi
  obtain ⟨h1, h2⟩ := State.steeredMove_sheet (col := col) hn hi hj
  refine answers_of hx ?_
  rw [settle_sheet, settle_dram, settle_pool, settle_pts]
  exact ⟨ht.count.trans (State.sheetCount_count hn), h1, h2, ht.dram, ht.pool, ht.pts, SameManagement.settle ht.management⟩
end
end
end Sys2Proof.Machine

open Sys2Proof.Machine in
/-- Settles O40: each clause is the answer of the command at that point of the dwell. -/
theorem dwellMoves : Obligations.DwellMoves := by
  unfold Obligations.DwellMoves
  intro s n d h hs hd hpos
  have due (hi : d.inStep = true) (ht : d.start + 172800000 ≤ s.clk.life) : s.moveDue d = true := State.moveDue_iff.2 ⟨hi, ht⟩
  refine ⟨fun cond hp ha hc => softRepair_passes_answers h hd hp ha hc,
    fun fails cond hp ha hf hb => softRepair_fails_answers h hs hpos hd hp ha hf hb,
    fun hp hc ht hb => couchInDone_bound_answers h hpos hd hp hc ht hb,
    fun hp hc ht hb hi hca hdirty => couchInDone_unbound_answers h hd hp hc ht hb hi hca hdirty,
    fun hst => makes_of (congrArg (nextOf s) (couchInDone_stays hd hst)), ?notDue, ?differs, ?steers, ?sweep, ?steered, ?inspect⟩
  case notDue =>
    intro evs hk hnot
    refine makes_of (congrArg (nextOf s) (spareMove_not_due hd hk (Bool.eq_false_iff.2 fun hdue => ?_)))
    obtain ⟨hi, ht⟩ := State.moveDue_iff.1 hdue
    rcases hnot with hnot | hnot
    · simp [hnot] at hi
    · omega
  case differs =>
    intro row diff temp mv act hb hx ht hk hf
    exact spareMove_differs_answers h hb hx hd (due (Sheet.shadowed_inStep hx) ht)
  case steers =>
    intro evs col p hev hk hi ht hf hc
    have hn : n.val < s.sheets.length := h.sheet_lt n
    have hu := (spareMove_sweep (State.moveEvents_quiet hev) hd hk (due hi ht)).trans (State.sweepMove_steers hf hc)
    exact answers_of_reloadTo (congrArg (nextOf s) hu) ApartCtxs.refl.modSheet (by simpa using hn)
  case sweep =>
    intro evs b p down hev hk hi ht hf hb
    have hu : spareMove n evs s = s.sweepMove n d := spareMove_sweep (State.moveEvents_quiet hev) hd hk (due hi ht)
    refine ⟨fun k hp hc => makes_of (congrArg (nextOf s) (hu.trans (State.sweepMove_stays hf hb hp hc))), ?_, ?_⟩
    · intro hp hc hm htp hh hl hst
      exact takePosition_answers (congrArg (nextOf s) (hu.trans (State.sweepMove_plain hf hb hp hc hm htp))) h hh hl hst
    · intro hp hc hpp hns hl
      exact labelSwap_answers (congrArg (nextOf s) (hu.trans (State.sweepMove_labelSwap hf hb hp hc))) h hpp hns hl
  case steered =>
    intro evs col k m hev hk hi ht hc hm
    exact steeredMove_answers (congrArg (nextOf s) (spareMove_steered (State.moveEvents_quiet hev) hd hk (due hi ht))) h hc hm
  case inspect =>
    intro evs hev hk
    have hu := spareMove_inspect (State.moveEvents_quiet hev) hd hk
    refine ⟨fun hst => makes_of (congrArg (nextOf s) (hu.trans ?_)), fun col p hp hc hf => ?_⟩
    · rcases hst with hst | hst
      · exact if_neg hst
      · rw [State.inspectMove_stays hst, ite_self]
    · rw [if_pos hp, State.inspectMove_steers hc hf] at hu
      exact answers_of_reloadTo (congrArg (nextOf s) hu) ApartCtxs.refl (h.sheet_lt n)

namespace Sys2Proof.Machine

/-! ### Reset -/

theorem getD_replicate_default {α : Type} (n i : Nat) (a : α) : (List.replicate n a).getD i a = a := by
  rw [List.getD_eq_getElem?_getD, List.getElem?_getD_replicate_default_eq]

@[simp] theorem State.reset_pt (p : Nat) : State.reset.pt p = {} := getD_replicate_default ..

@[simp] theorem State.reset_chan (c : Nat) : State.reset.chan c = {} := getD_replicate_default ..

@[simp] theorem State.reset_sheet (n : Nat) : State.reset.sheet n = {} := getD_replicate_default ..

@[simp] theorem State.reset_ctx (c : Nat) : State.reset.ctx c = {} := getD_replicate_default ..

@[simp] theorem State.reset_queue (c k : Nat) : State.reset.queue c k = {} := by
  rw [State.queue, State.reset_ctx]
  exact getD_replicate_default ..

@[simp] theorem State.reset_port (p : Nat) : State.reset.port p = {} := getD_replicate_default ..

end Sys2Proof.Machine

open Sys2Proof.Machine in
/-- Settles O2: every partition, channel, sheet, context, queue and port of the reset state is the one its type gives at reset, and the
other parts hold their fields' reset values. -/
theorem resetState : Obligations.ResetState := by
  rintro s rfl
  simp only [State.reset_pt, State.reset_chan, State.reset_sheet, State.reset_ctx, State.reset_queue, State.reset_port, BitVec.ofNat_eq_ofNat,
    and_self, true_and, implies_true]
  and_intros <;> rfl

namespace Sys2Proof.Machine

section
variable {s t u v : State}

/-! ### A mailbox command that completes -/

theorem Beside.trans (h : Beside s t) (h' : Beside t u) : Beside s u := by
  obtain ⟨h1, h2⟩ := h
  obtain ⟨h3, h4⟩ := h'
  refine ⟨?_, h2.trans h4⟩
  rw [h3, h1]

theorem Beside.submit {code : Nat} {p : Payload} : Beside s (s.submit code p) := ⟨rfl, List.prefix_refl _⟩

/-- The mailbox of `v` reports the response (R289). -/
def State.reporting (v : State) (r : Resp) : State :=
  { v with
    fresh := v.fresh + (fill v.fresh r.bytes).length
    host := { v.host with
      payload := v.host.payload.write 0 (fill v.fresh r.bytes)
      status := r.status, respLen := (fill v.fresh r.bytes).length, done := true, seq := v.host.seq + 1, busy := false } }

/-- The completion of a command that nothing has spoiled (R289). -/
theorem complete_eq {r : Resp} (h : v.host.spoiled = false) : complete (v, r) = (v.reporting r).raise 0 := by
  simp [complete, State.reporting, h]

theorem Beside.complete {r : Resp} (h : v.host.spoiled = false) : Beside v (complete (v, r)) := by
  obtain ⟨hr, ho⟩ := State.raise_eq (v.reporting r) 0
  rw [complete_eq h]
  exact ⟨by rw [hr]; rfl, ho⟩

theorem Reported.complete {r : Resp} (h : v.host.spoiled = false) (hw : v.host.payload.wf = true) :
    Reported v (complete (v, r)) r.status r.bytes := by
  rw [complete_eq h, (State.raise_eq (v.reporting r) 0).1]
  refine ⟨rfl, rfl, rfl, rfl, by simp, length_fill _ _, fun i x hx => ?_⟩
  obtain ⟨hi, hb⟩ := fill_value (n := v.fresh) hx
  have hg := Mem.get_write 0 i (fill v.fresh r.bytes) hw hi
  rw [Nat.zero_add] at hg
  exact ⟨_, hg.trans hb⟩

theorem Beside.settled (h : Settled u t) : Beside u t := by
  obtain ⟨h1, -, -, h2⟩ := h
  exact ⟨by rw [h1], h2⟩

theorem Reported.settled {st : Nat} {bs : List RByte} (hr : Reported s u st bs) (h : Settled u t) : Reported s t st bs := by
  obtain ⟨h1, -, hc, -⟩ := h
  obtain ⟨hd, hb, hs, hq, hm, hl, hp⟩ := hr
  rw [h1]
  refine ⟨hd, hb, hs, hq, ?_, hl, hp⟩
  rcases hc with hc | hc <;> simp [hc, hm]

/-- A command that completes from `v` reports its response, and changes nothing beside the mailbox. -/
theorem answers_complete {c : Instr} {r : Resp} (hx : exec c s = nextOf s (complete (v, r))) (hs : v.host.spoiled = false)
    (hw : v.host.payload.wf = true) : Answers c s fun t => Reported v t r.status r.bytes ∧ Beside v t :=
  have h : Settled (complete (v, r)) (settle s (complete (v, r))) := settled s _
  answers_of hx ⟨(Reported.complete hs hw).settled h, (Beside.complete hs).trans (.settled h)⟩

variable {c : Instr} {kind : MbKind} {code : Nat} {f : MbFun} {p : Payload} {r : Resp}

/-- A command that completes with nothing done but its submission. -/
theorem replies_complete (hx : exec c s = nextOf s (complete (s.submit code p, r))) (hw : s.host.payload.wf = true) :
    Replies c s r.status r.bytes s := by
  obtain ⟨t, ht, hr, hb⟩ := answers_complete hx rfl (Mem.wf_write 0 p hw)
  exact ⟨t, ht, hr, Beside.submit.trans hb⟩

theorem HostReady.not_busy (h : HostReady s) : s.host.busy = false := by
  obtain ⟨-, hb, -⟩ := h
  exact hb

theorem HostReady.payload_wf (h : HostReady s) : s.host.payload.wf = true := by
  obtain ⟨-, -, -, -, -, hw⟩ := h
  exact hw

/-- A command of the host that owns the lock, which answers and does nothing else. -/
theorem replies_of_owned (h : HostOwns s) (hx : exec c s = nextOf s (hostCmd kind code f p s))
    (hf : f .host p (s.submit code p) = (s.submit code p, r)) : Replies c s r.status r.bytes s := by
  obtain ⟨hr, ho⟩ := h
  rw [hostCmd_ready hr (.inr ho), hf] at hx
  exact replies_complete hx hr.payload_wf

/-! ### The checks of the host mailbox -/

/-- The host has no access to the mailbox, the link is down, or another command is in progress (R27, R289). -/
def State.NotTaken (s : State) (code : Nat) : Prop :=
  s.dies.ct0Lost = true ∨ (s.host.busy = false ∧ s.host.linkUp = false) ∨
    (s.host.busy = true ∧ (s.host.code.toNat ≠ code ∨ s.host.fwReady = false))

theorem hostCmd_not_taken (h : s.NotTaken code) : hostCmd kind code f p s = s := by
  unfold hostCmd
  rcases h with h | ⟨hb, hl⟩ | ⟨hb, hc | hr⟩
  · exact if_pos h
  · simp [hb, hl]
  · simp [hb, hc]
  · simp [hb, hr]

/-- Without FW_READY a command completes with BUSY (R289). -/
theorem hostCmd_not_ready (hd : s.dies.ct0Lost = false) (hb : s.host.busy = false) (hl : s.host.linkUp = true)
    (hr : s.host.fwReady = false) : hostCmd kind code f p s = complete (s.submit code p, err busy) := by
  have hr' : (s.submit code p).host.fwReady = false := hr
  simp [hostCmd, hd, hb, hl, hr']

/-- The command in progress is carried out on the request in the payload area (R288, R289). -/
theorem hostCmd_in_progress (hd : s.dies.ct0Lost = false) (hb : s.host.busy = true) (hc : s.host.code.toNat = code)
    (hr : s.host.fwReady = true) (hs : s.host.spoiled = false) (hf : s.mgmt.fw ≠ .recovery) (hk : kind = .q ∨ s.host.owner = .host) :
    hostCmd kind code f p s = complete (f .host (s.host.payload.read 0 s.host.reqLen.toNat) s) := by
  have hq : s.request = s.host.payload.read 0 s.host.reqLen.toNat := by simp [State.request, hs]
  have hk' : kind = .q ∨ ownerIs s.host.owner .host = true := hk.imp_right fun h => by rw [h]; rfl
  simp [hostCmd, hd, hb, hc, hr, hs, hq, gate, hf, lockGate, hk']

/-- The host's DUMP_READ with this request has to wait (R277, R289). -/
def State.hostDumpWaits (s : State) (p : Payload) : Bool :=
  (!s.dies.ct0Lost && (if s.host.busy then decide (s.host.code = 0x0072#16) else s.host.linkUp)) &&
    s.dumpWaits .host (if s.host.busy then s.request else p)

theorem hostDumpRead_of_not_waits (h : s.hostDumpWaits p = false) : hostDumpRead p s = hostCmd .bp 0x0072 mbDumpRead p s :=
  if_neg (by rw [← State.hostDumpWaits, h]; exact Bool.false_ne_true)

theorem State.hostDumpWaits_of_not_ready (h : s.host.fwReady = false) : s.hostDumpWaits p = false := by
  simp [State.hostDumpWaits, State.dumpWaits, h]

theorem State.hostDumpWaits_of_length (hb : s.host.busy = false) (h : p.length ≠ 20) : s.hostDumpWaits p = false := by
  simp [State.hostDumpWaits, State.dumpWaits, hb, h]

/-- A DUMP_READ that is not taken does not wait. -/
theorem State.hostDumpWaits_of_not_taken (h : s.NotTaken 0x72) : s.hostDumpWaits p = false := by
  rcases h with h | ⟨hb, hl⟩ | ⟨hb, hc | hr⟩
  · simp [State.hostDumpWaits, h]
  · simp [State.hostDumpWaits, hb, hl]
  · have hc' : s.host.code ≠ 0x0072#16 := fun he => hc (by rw [he]; rfl)
    simp [State.hostDumpWaits, hb, hc']
  · exact State.hostDumpWaits_of_not_ready hr

theorem State.hostDumpWaits_of_busy (hb : s.host.busy = true) (h : s.dumpWaits .host s.request = false) : s.hostDumpWaits p = false := by
  simp [State.hostDumpWaits, hb, h]

/-- `c` is the command that R298 gives the code, with this request; DUMP_READ is so where it has not to wait. -/
def IsHostCmd (p : Payload) (code : Nat) (c : Instr) : Prop :=
  ∃ k : MbKind × MbFun, mbOf code = some k ∧
    ∀ s : State, (code = 0x72 → s.hostDumpWaits p = false) → exec c s = nextOf s (hostCmd k.1 code k.2 p s)

theorem isHostCmd_dumpRead : IsHostCmd p 0x72 (.dumpRead p) :=
  ⟨_, rfl, fun s h => congrArg (nextOf s) (hostDumpRead_of_not_waits (h rfl))⟩

theorem IsHostCmd.not_taken (hc : IsHostCmd p code c) (h : s.NotTaken code) : Makes c s s := by
  obtain ⟨k, -, hx⟩ := hc
  have hw : code = 0x72 → s.hostDumpWaits p = false := fun he => State.hostDumpWaits_of_not_taken (he ▸ h)
  exact makes_of ((hx s hw).trans (congrArg (nextOf s) (hostCmd_not_taken h)))

theorem IsHostCmd.not_ready (hc : IsHostCmd p code c) (hd : s.dies.ct0Lost = false) (hb : s.host.busy = false)
    (hl : s.host.linkUp = true) (hr : s.host.fwReady = false) (hw : s.host.payload.wf = true) :
    Replies c s busy (err busy).bytes s := by
  obtain ⟨k, -, hx⟩ := hc
  have hc : exec c s = nextOf s (complete (s.submit code p, err busy)) :=
    (hx s fun _ => State.hostDumpWaits_of_not_ready hr).trans (congrArg (nextOf s) (hostCmd_not_ready hd hb hl hr))
  exact replies_complete hc hw

theorem IsHostCmd.in_progress {r : State × Resp} (hc : IsHostCmd p code c) (hd : s.dies.ct0Lost = false) (hb : s.host.busy = true)
    (he : s.host.code.toNat = code) (hr : s.host.fwReady = true) (hs : s.host.spoiled = false) (hf : s.mgmt.fw ≠ .recovery)
    (hm : mbOf code = some (kind, f)) (hk : kind = .q ∨ s.host.owner = .host) (hw : code ≠ 0x72 ∨ s.dumpWaits .host s.request = false)
    (hq : r = f .host (s.host.payload.read 0 s.host.reqLen.toNat) s) (hrs : r.1.host.spoiled = false) (hrw : r.1.host.payload.wf = true) :
    Answers c s fun t => Reported r.1 t r.2.status r.2.bytes ∧ Beside r.1 t := by
  obtain ⟨k, hk', hx⟩ := hc
  obtain rfl : (kind, f) = k := Option.some.inj (hm.symm.trans hk')
  have hc : exec c s = nextOf s (hostCmd kind code f p s) := hx s fun h => State.hostDumpWaits_of_busy hb (hw.resolve_left (absurd h))
  rw [hostCmd_in_progress hd hb he hr hs hf hk, ← hq] at hc
  exact answers_complete hc hrs hrw

/-! ### Commands of fixed length -/

theorem checked_of_length {n : Nat} {rs : List (Nat × Nat)} {k : Unit → State × Resp} (h : p.length ≠ n) :
    checked n rs p s k = (s, err invalid) := if_pos h

theorem checked_of_form {n : Nat} {rs : List (Nat × Nat)} {k : Unit → State × Resp} (hl : p.length = n) (hr : rsvdBad p rs = none) :
    checked n rs p s k = k () := by
  rw [checked, if_neg (not_not.2 hl), hr]

/-- The command `c` of the host takes requests of this length alone (R301). -/
def TakesLength (p : Payload) (n : Nat) (c : Instr) : Prop :=
  p.length ≠ n → ∀ s : State, HostOwns s → Replies c s invalid (err invalid).bytes s

theorem takesLength_of_checked {n : Nat} {rs : List (Nat × Nat)} {k : State → Unit → State × Resp}
    (hx : ∀ s, exec c s = nextOf s (hostCmd kind code f p s)) (hf : ∀ s, f .host p s = checked n rs p s (k s)) : TakesLength p n c :=
  fun hn s h => replies_of_owned h (hx s) ((hf _).trans (checked_of_length hn))

theorem takesLength_dumpRead : TakesLength p 20 (.dumpRead p) := by
  intro hn s h
  have ⟨hready, _⟩ := h
  have hx : exec (.dumpRead p) s = nextOf s (hostCmd .bp 0x0072 mbDumpRead p s) :=
    congrArg (nextOf s) (hostDumpRead_of_not_waits (State.hostDumpWaits_of_length hready.not_busy hn))
  exact replies_of_owned h hx (checked_of_length hn)

end
end Sys2Proof.Machine

open Sys2Proof.Machine in
/-- Settles O11: a row of the first list is a command that takes one length alone, a row of the second one that passes through the checks
of the host mailbox. -/
theorem mailboxChecks : Obligations.MailboxChecks := by
  intro s p
  refine ⟨fun h => BAll.imp_right (P := fun e _ => TakesLength p e.1 e.2) (fun e _ he hn => he hn s h) ?lengths,
    BAll.imp_right (P := fun e _ => IsHostCmd p e.1 e.2) (fun e _ (he : IsHostCmd p e.1 e.2) => ⟨he.not_taken, he.not_ready,
      fun _ _ _ => he.in_progress⟩) ?codes⟩
  case lengths =>
    simp only [List.forall_mem_cons, List.not_mem_nil, IsEmpty.forall_iff, implies_true, takesLength_dumpRead, true_and, and_true]
    and_intros <;> exact takesLength_of_checked (fun _ => rfl) fun _ => rfl
  case codes =>
    simp only [List.forall_mem_cons, List.not_mem_nil, IsEmpty.forall_iff, implies_true, isHostCmd_dumpRead, true_and, and_true]
    and_intros <;> exact ⟨_, rfl, fun _ _ => rfl⟩

namespace Sys2Proof.Machine

section
variable {s t : State}

/-! ### What does not depend on the mailbox -/

/-- The depth of nesting depends only on what the handles name and on the members of the groups (R36). -/
theorem State.depthOf_congr (hu : ∀ h, t.unitOf h = s.unitOf h) (hm : ∀ h, t.membersOf h = s.membersOf h) (f h : Nat) :
    t.depthOf f h = s.depthOf f h := by
  induction f generalizing h with
  | zero => rfl
  | succ f ih => simp only [State.depthOf, hu, hm, ih]

theorem State.reaches_congr (hm : ∀ h, t.membersOf h = s.membersOf h) (f h x : Nat) : t.reaches f h x = s.reaches f h x := by
  induction f generalizing h with
  | zero => rfl
  | succ f ih => simp only [State.reaches, hm, ih]

variable {code : Nat} {p : Payload} {m : Master}

theorem State.unitOf_submit (h : Nat) : (s.submit code p).unitOf h = s.unitOf h := rfl

theorem State.membersOf_submit (h : Nat) : (s.submit code p).membersOf h = s.membersOf h := rfl

theorem State.depthOf_submit (f h : Nat) : (s.submit code p).depthOf f h = s.depthOf f h :=
  State.depthOf_congr State.unitOf_submit State.membersOf_submit f h

theorem State.reaches_submit (f h x : Nat) : (s.submit code p).reaches f h x = s.reaches f h x :=
  State.reaches_congr State.membersOf_submit f h x

/-! ### GROUP_CREATE -/

section
variable {l : List Nat} {i j : Nat}

theorem getD_mem_take (hj : j < i) (hi : i ≤ l.length) : l.getD j 0 ∈ l.take i := by
  have hj' : j < l.length := by omega
  rw [← List.getElem_eq_getD 0 (h := hj')]
  exact List.mem_take_iff_getElem.2 ⟨j, by omega, rfl⟩

/-- In a list without repeats no element stands before itself. -/
theorem getD_not_mem_take (hn : (l.take i).Nodup) (hj : j < i) (hi : i ≤ l.length) : l.getD j 0 ∉ l.take j := by
  have hj' : j < l.length := by omega
  have hs : (l.take (j + 1)).Nodup := hn.sublist (List.take_sublist_take_left hj)
  rw [← List.take_append_getElem hj', ← List.concat_eq_append, List.nodup_concat] at hs
  rw [← List.getElem_eq_getD 0 (h := hj')]
  exact hs.1

theorem firstRepeat_eq_some (hi : i < l.length) (hr : l.getD i 0 ∈ l.take i) (hn : (l.take i).Nodup) : firstRepeat l = some i := by
  refine List.find?_range_eq_some.2 ⟨by simpa using hr, List.mem_range.2 hi, fun j hj => ?_⟩
  simpa using getD_not_mem_take hn hj hi.le

theorem firstRepeat_eq_none (hn : l.Nodup) : firstRepeat l = none := by
  refine List.find?_eq_none.2 fun j hj => ?_
  have hj' : j < l.length := List.mem_range.1 hj
  simpa using getD_not_mem_take (l := l) (by rwa [List.take_length]) hj' le_rfl

/-- The place of the first element with a property. -/
theorem find?_range_getD_eq_some {P : Nat → Bool} {n : Nat} (hl : l.length = n) (hi : i < l.length)
    (hp : P (l.getD i 0) = true) (hb : ∀ x ∈ l.take i, P x = false) :
    (List.range n).find? (fun j => P (l.getD j 0)) = some i := by
  subst hl
  exact List.find?_range_eq_some.2 ⟨hp, List.mem_range.2 hi, fun j hj => by simpa using hb _ (getD_mem_take hj hi.le)⟩

theorem find?_range_getD_eq_none {P : Nat → Bool} {n : Nat} (hl : l.length = n) (hp : ∀ x ∈ l, P x = false) :
    (List.range n).find? (fun j => P (l.getD j 0)) = none := by
  subst hl
  refine List.find?_eq_none.2 fun j hj => ?_
  have hj' : j < l.length := List.mem_range.1 hj
  rw [← List.getElem_eq_getD 0 (h := hj'), hp _ (List.getElem_mem hj')]
  exact Bool.false_ne_true
end

/-- The members that a GROUP_CREATE request lists (R298). -/
def createMembers (p : Payload) : List Nat := (List.range (arg p 0 2)).map fun i => arg p (4 + 4 * i) 4

theorem length_createMembers : (createMembers p).length = arg p 0 2 := by simp [createMembers]

/-- A GROUP_CREATE request of the right form: 1 to 64 members, its length and its reserved bytes (R37, R298, R313). -/
structure CreateForm (p : Payload) : Prop where
  length : p.length = 4 + 4 * arg p 0 2
  some_member : 1 ≤ arg p 0 2
  at_most : arg p 0 2 ≤ 64
  reserved : rsvdBad p [(2, 2)] = none

theorem CreateForm.bounds (hp : CreateForm p) : ¬ (p.length < 4 ∨ arg p 0 2 < 1 ∨ 64 < arg p 0 2) := by
  obtain ⟨hl, h1, h64, -⟩ := hp
  omega

/-- The place of the first member of a GROUP_CREATE request that no unit of `s` has as its handle (R37). -/
def State.firstUnknown (s : State) (p : Payload) : Option Nat :=
  (List.range (arg p 0 2)).find? fun i => (s.unitOf ((createMembers p).getD i 0)).isNone

/-- The place of the first member of a GROUP_CREATE request that nests too deep to be a member (R36). -/
def State.firstDeep (s : State) (p : Payload) : Option Nat :=
  (List.range (arg p 0 2)).find? fun i => decide (4 ≤ s.depthOf 5 ((createMembers p).getD i 0))

theorem State.firstUnknown_submit {q : Payload} : (s.submit code p).firstUnknown q = s.firstUnknown q := rfl

theorem State.firstDeep_submit {q : Payload} : (s.submit code p).firstDeep q = s.firstDeep q := by
  simp only [State.firstDeep, State.depthOf_submit]

theorem isNone_unitOf_of_ne {x : Nat} (h : s.unitOf x ≠ none) : (s.unitOf x).isNone = false :=
  Option.isNone_eq_false_iff.2 (Option.isSome_iff_ne_none.2 h)

theorem State.firstUnknown_eq_some {i : Nat} (hi : i < (createMembers p).length) (hu : s.unitOf ((createMembers p).getD i 0) = none)
    (hb : ∀ x ∈ (createMembers p).take i, s.unitOf x ≠ none) : s.firstUnknown p = some i :=
  find?_range_getD_eq_some (P := fun x => (s.unitOf x).isNone) length_createMembers hi (Option.isNone_iff_eq_none.2 hu)
    fun x hx => isNone_unitOf_of_ne (hb x hx)

theorem State.firstUnknown_eq_none (hk : ∀ x ∈ createMembers p, s.unitOf x ≠ none) : s.firstUnknown p = none :=
  find?_range_getD_eq_none (P := fun x => (s.unitOf x).isNone) length_createMembers fun x hx => isNone_unitOf_of_ne (hk x hx)

theorem State.firstDeep_eq_some {i : Nat} (hi : i < (createMembers p).length) (hd : 4 ≤ s.depthOf 5 ((createMembers p).getD i 0))
    (hb : ∀ x ∈ (createMembers p).take i, s.depthOf 5 x < 4) : s.firstDeep p = some i :=
  find?_range_getD_eq_some (P := fun x => decide (4 ≤ s.depthOf 5 x)) length_createMembers hi (decide_eq_true hd)
    fun x hx => decide_eq_false (hb x hx).not_ge

theorem State.firstDeep_eq_none (hd : ∀ x ∈ createMembers p, s.depthOf 5 x < 4) : s.firstDeep p = none :=
  find?_range_getD_eq_none (P := fun x => decide (4 ≤ s.depthOf 5 x)) length_createMembers fun x hx => decide_eq_false (hd x hx).not_ge

theorem mbGroupCreate_of_repeat {i : Nat} (hp : CreateForm p) (hi : firstRepeat (createMembers p) = some i) :
    mbGroupCreate m p s = (s, err invalid { arg := 4 + 4 * i, handle := (createMembers p).getD i 0 }) := by
  unfold createMembers at hi ⊢
  simp only [mbGroupCreate, if_neg hp.bounds, checked_of_form hp.length hp.reserved, hi]

theorem mbGroupCreate_of_unknown {i : Nat} (hp : CreateForm p) (h1 : firstRepeat (createMembers p) = none)
    (hi : s.firstUnknown p = some i) :
    mbGroupCreate m p s = (s, err notFound { arg := 4 + 4 * i, handle := (createMembers p).getD i 0 }) := by
  unfold State.firstUnknown createMembers at *
  simp only [mbGroupCreate, if_neg hp.bounds, checked_of_form hp.length hp.reserved, h1, hi, noHandle]

theorem mbGroupCreate_of_deep {i : Nat} (hp : CreateForm p) (h1 : firstRepeat (createMembers p) = none)
    (h2 : s.firstUnknown p = none) (hi : s.firstDeep p = some i) :
    mbGroupCreate m p s = (s, err invalid { arg := 4 + 4 * i, handle := (createMembers p).getD i 0 }) := by
  unfold State.firstUnknown State.firstDeep createMembers at *
  simp only [mbGroupCreate, if_neg hp.bounds, checked_of_form hp.length hp.reserved, h1, h2, hi]

theorem mbGroupCreate_of_full (hp : CreateForm p) (h1 : firstRepeat (createMembers p) = none)
    (h2 : s.firstUnknown p = none) (h3 : s.firstDeep p = none) (h4 : 1024 ≤ s.groups.length) :
    mbGroupCreate m p s = (s, err noResource) := by
  unfold State.firstUnknown State.firstDeep createMembers at *
  simp only [mbGroupCreate, if_neg hp.bounds, checked_of_form hp.length hp.reserved, h1, h2, h3, if_pos h4]

/-! ### GROUP_EDIT -/

/-- A GROUP_EDIT request of the right form (R298, R313). -/
structure EditForm (p : Payload) : Prop where
  length : p.length = 12
  reserved : rsvdBad p [(5, 3)] = none
  op : arg p 4 1 ≤ 1

theorem mbGroupEdit_of_unknown_group (hp : EditForm p) (hh : s.unitOf (arg p 0 4) = none) :
    mbGroupEdit m p s = (s, err notFound { arg := 0, handle := arg p 0 4 }) := by
  simp [mbGroupEdit, checked_of_form hp.length hp.reserved, hp.op.not_gt, hh, noHandle]

theorem mbGroupEdit_of_unknown_member (hp : EditForm p) (hh : s.unitOf (arg p 0 4) ≠ none) (hx : s.unitOf (arg p 8 4) = none) :
    mbGroupEdit m p s = (s, err notFound { arg := 8, handle := arg p 8 4 }) := by
  simp [mbGroupEdit, checked_of_form hp.length hp.reserved, hp.op.not_gt, hh, hx, noHandle]

theorem mbGroupEdit_of_no_group (hp : EditForm p) (hh : s.unitOf (arg p 0 4) ≠ none) (hx : s.unitOf (arg p 8 4) ≠ none)
    (hg : s.unitOf (arg p 0 4) ≠ some (.group (arg p 0 4))) :
    mbGroupEdit m p s = (s, err unsupported { handle := arg p 0 4 }) := by
  simp [mbGroupEdit, checked_of_form hp.length hp.reserved, hp.op.not_gt, hh, hx, hg]

/-- Group `h` with `x` added to its members (R37). -/
def State.withMember (s : State) (h x : Nat) : State :=
  { s with groups := s.groups.map fun g => if g.handle = h then { g with members := s.membersOf h ++ [x] } else g }

/-- With `x` in group `h` groups would form a cycle or nest deeper than 4 (R36, R37). -/
def State.overNests (s : State) (h x : Nat) : Bool :=
  s.reaches 5 x h || (s.withMember h x).groups.any fun g => decide (4 < (s.withMember h x).depthOf 6 g.handle)

theorem State.overNests_iff {h x : Nat} : s.overNests h x = true ↔
    s.reaches 5 x h = true ∨ ∃ g ∈ (s.withMember h x).groups, 4 < (s.withMember h x).depthOf 6 g.handle := by
  simp [State.overNests]

theorem State.overNests_submit (h x : Nat) : (s.submit code p).overNests h x = s.overNests h x := by
  have hw : (s.submit code p).withMember h x = (s.withMember h x).submit code p := rfl
  simp only [State.overNests, State.reaches_submit, hw, State.depthOf_submit]
  rfl

/-- GROUP_EDIT that adds to a user group: what keeps the new member out, in the order of the checks (R725). -/
theorem mbGroupEdit_add (hp : EditForm p) (hg : s.unitOf (arg p 0 4) = some (.group (arg p 0 4))) (hx : s.unitOf (arg p 8 4) ≠ none)
    (ho : arg p 4 1 = 0) : mbGroupEdit m p s =
      if s.overNests (arg p 0 4) (arg p 8 4) then (s, err invalid { arg := 8, handle := arg p 8 4 })
      else if arg p 8 4 ∈ s.membersOf (arg p 0 4) then (s, err conflict { arg := 8, handle := arg p 8 4 })
      else if 64 ≤ (s.membersOf (arg p 0 4)).length then (s, err noResource { handle := arg p 0 4 })
      else (s.withMember (arg p 0 4) (arg p 8 4), okResp []) := by
  simp only [mbGroupEdit, checked_of_form hp.length hp.reserved, hg, isNone_unitOf_of_ne hx, ho, Option.isNone_some, Bool.false_eq_true,
    if_false, if_true, ne_eq, not_true_eq_false, List.contains_iff_mem, State.overNests, Bool.or_eq_true, ite_or]
  rfl

theorem mbGroupEdit_remove_of_not_member (hp : EditForm p) (hg : s.unitOf (arg p 0 4) = some (.group (arg p 0 4)))
    (hx : s.unitOf (arg p 8 4) ≠ none) (ho : arg p 4 1 = 1) (hc : arg p 8 4 ∉ s.membersOf (arg p 0 4)) :
    mbGroupEdit m p s = (s, err conflict { arg := 8, handle := arg p 8 4 }) := by
  simp [mbGroupEdit, checked_of_form hp.length hp.reserved, hg, hx, ho, hc]

/-- GROUP_CREATE by the lock's owner that answers and does nothing else. -/
theorem groupCreate_replies {r : Resp} (h : HostOwns s) (hf : mbGroupCreate .host p (s.submit 8 p) = (s.submit 8 p, r)) :
    Replies (.groupCreate p) s r.status r.bytes s := replies_of_owned h rfl hf

/-- GROUP_EDIT by the lock's owner that answers and does nothing else. -/
theorem groupEdit_replies {r : Resp} (h : HostOwns s) (hf : mbGroupEdit .host p (s.submit 9 p) = (s.submit 9 p, r)) :
    Replies (.groupEdit p) s r.status r.bytes s := replies_of_owned h rfl hf

end
end Sys2Proof.Machine

open Sys2Proof.Machine in
/-- Settles O10: the checks of GROUP_CREATE and of GROUP_EDIT in their order, none of which looks at the mailbox; the first that fails
is the answer. -/
theorem groupOutcomes : Obligations.GroupOutcomes := by
  intro s p h
  constructor
  · intro ms hl h1 h64 hr hms
    have hp : CreateForm p := ⟨hl, h1, h64, hr⟩
    obtain rfl : createMembers p = ms := hms.symm
    refine ⟨fun i hi hrep hn => groupCreate_replies h (mbGroupCreate_of_repeat hp (firstRepeat_eq_some hi hrep hn)),
      fun hn i hi => ⟨fun hu hb => ?_, fun hk hd hb => ?_⟩, fun hn hk hf => ?_⟩
    · exact groupCreate_replies h (mbGroupCreate_of_unknown hp (firstRepeat_eq_none hn) (State.firstUnknown_eq_some (s := s) hi hu hb))
    · exact groupCreate_replies h (mbGroupCreate_of_deep hp (firstRepeat_eq_none hn) (State.firstUnknown_eq_none (s := s) hk)
        (State.firstDeep_submit.trans (State.firstDeep_eq_some hi hd hb)))
    · obtain ⟨hk, hd⟩ := forall₂_and.1 hk
      exact groupCreate_replies h (mbGroupCreate_of_full hp (firstRepeat_eq_none hn) (State.firstUnknown_eq_none (s := s) hk)
        (State.firstDeep_submit.trans (State.firstDeep_eq_none hd)) hf)
  · intro x m u hl hr ho hx hm hu
    have hp : EditForm p := ⟨hl, hr, ho⟩
    subst hx hm
    obtain rfl : s.withMember (arg p 0 4) (arg p 8 4) = u := hu.symm
    refine ⟨fun hh => groupEdit_replies h (mbGroupEdit_of_unknown_group hp hh),
      fun hh hx => groupEdit_replies h (mbGroupEdit_of_unknown_member hp hh hx),
      fun hh hx hg => groupEdit_replies h (mbGroupEdit_of_no_group hp hh hx hg), fun hg hx => ?_⟩
    have added (ho : arg p 4 1 = 0) := mbGroupEdit_add (s := s.submit 9 p) (m := .host) hp hg hx ho
    refine ⟨fun ho hn => groupEdit_replies h ((added ho).trans (if_pos ?nests)), fun ho hr hd => ?_,
      fun ho hc => groupEdit_replies h (mbGroupEdit_remove_of_not_member hp hg hx ho hc)⟩
    case nests => rwa [State.overNests_submit, State.overNests_iff]
    have hn : ¬ (s.submit 9 p).overNests (arg p 0 4) (arg p 8 4) = true := by
      rw [State.overNests_submit, State.overNests_iff, not_or, Bool.not_eq_true]
      exact ⟨hr, fun ⟨g, hg, h4⟩ => absurd (hd g hg) h4.not_ge⟩
    exact ⟨fun hc => groupEdit_replies h ((added ho).trans ((if_neg hn).trans (if_pos hc))),
      fun hc hl => groupEdit_replies h ((added ho).trans ((if_neg hn).trans ((if_neg hc).trans (if_pos hl))))⟩

namespace Sys2Proof.Machine

section
variable {s t u v : State}

/-! ### What a mailbox command does once its effect is known -/

section
variable {c : Instr} {kind : MbKind} {code : Nat} {f : MbFun} {p : Payload} {r : Resp}

/-- A command that is carried out reports its response, and leaves the state that its function gives, the mailbox apart. -/
theorem answers_of_ready (h : HostReady s) (hk : kind = .q ∨ s.host.owner = .host) (hx : exec c s = nextOf s (hostCmd kind code f p s))
    (hf : f .host p (s.submit code p) = (v, r)) (hv : v.host = (s.submit code p).host) :
    Answers c s fun t => Reported s t r.status r.bytes ∧ Beside v t := by
  rw [hostCmd_ready h hk, hf] at hx
  obtain ⟨t, ht, hr, hb⟩ := answers_complete hx (by rw [hv]; rfl) (by rw [hv]; exact Mem.wf_write 0 p h.payload_wf)
  unfold Reported at hr
  rw [hv] at hr
  exact ⟨t, ht, hr, hb⟩

/-- The same where the function does nothing but submit the command. -/
theorem replies_of_ready (h : HostReady s) (hk : kind = .q ∨ s.host.owner = .host) (hx : exec c s = nextOf s (hostCmd kind code f p s))
    (hf : f .host p (s.submit code p) = (u.submit code p, r)) (hu : u.host = s.host) : Replies c s r.status r.bytes u := by
  obtain ⟨t, ht, hr, hb⟩ := answers_of_ready h hk hx hf (by simp only [State.submit, hu])
  exact ⟨t, ht, hr, Beside.submit.trans hb⟩
end

/-! ### The units of a verb (R44, R45, R50) -/

section
variable {code h : Nat} {p : Payload}

/-- A unit that FENCE takes stands for itself. -/
theorem State.expand_unit {x : UnitRef} (hu : s.unitOf h = some x) (hx : fenceLevel x = true) : s.expand h = [h] := by
  have he : s.expand h = s.expandAux (19999998 + 1 + 1) [h] [] := rfl
  rw [he, State.expandAux, hu]
  cases x <;> simp [fenceLevel] at hx ⊢ <;> rw [State.expandAux] <;> simp

theorem State.verbUnits_unit {x : UnitRef} (hu : s.unitOf h = some x) (hx : fenceLevel x = true) : s.verbUnits h = [x] := by
  simp [State.verbUnits, State.expand_unit hu hx, hu]

theorem State.expand_submit : (s.submit code p).expand h = s.expand h := by
  have aux (f : Nat) (l acc : List Nat) : (s.submit code p).expandAux f l acc = s.expandAux f l acc := by
    induction f generalizing l acc with
    | zero => rfl
    | succ f ih =>
      cases l with
      | nil => rfl
      | cons x r => simp only [State.expandAux, State.unitOf_submit, ih]; rfl
  exact aux ..

theorem State.verbUnits_submit : (s.submit code p).verbUnits h = s.verbUnits h := by
  rw [State.verbUnits, State.expand_submit]
  rfl

theorem State.verbBusy_submit : (s.submit code p).verbBusy h = s.verbBusy h := by
  rw [State.verbBusy, State.expand_submit]
  rfl

/-- A verb whose units are of a legal level, and on which no other verb is at work, is carried out on them. -/
theorem verbChecks_of_legal {legal : UnitRef → Bool} {k : List UnitRef → State × Resp} (hu : s.unitOf h ≠ none)
    (hl : ∀ x ∈ s.verbUnits h, legal x = true) (hb : s.verbBusy h = false) :
    verbChecks (s.submit code p) h legal k = k (s.verbUnits h) := by
  unfold verbChecks
  rw [State.unitOf_submit, State.verbUnits_submit, State.verbBusy_submit, hb, isNone_unitOf_of_ne hu]
  simp [List.all_eq_true.2 hl]

/-- An operation of the host is accepted while fewer than 16 run (R291). -/
theorem background_accepts {k : Nat → State → State} {n : Nat} (hr : s.running.length < 16) :
    background (s.submit code p) .host n h k = (k s.nextOp ((accepted s n h).submit code p), okResp (fld 4 s.nextOp)) := by
  have hr' : ¬ 16 ≤ (s.submit code p).running.length := Nat.not_le.2 hr
  rw [background, if_neg hr']
  dsimp only
  rw [State.expand_submit]
  rfl
end

/-! ### Sheets alone change -/

/-- What each step of a fold brings about for its own element, and no step undoes, holds of every element at the end. -/
theorem foldl_each {α : Type} {f : State → α → State} {I : State → Prop} {R : α → State → Prop} {l : List α}
    (hf : ∀ a, ∀ x ∈ l, I a → I (f a x) ∧ R x (f a x)) (hk : ∀ a x y, R y a → R y (f a x)) (h : I s) : ∀ x ∈ l, R x (l.foldl f s) := by
  induction l generalizing s with
  | nil => simp
  | cons a l ih =>
    obtain ⟨hi, hr⟩ := hf s a (by simp) h
    intro x hx
    rcases List.mem_cons.1 hx with rfl | hx
    · exact List.foldlRecOn (motive := R x) l f hr fun b hb y _ => hk b y x hb
    · exact ih (fun b y hy => hf b y (List.mem_cons_of_mem _ hy)) hi x hx

/-- What no step of a fold changes is as it was. -/
theorem foldl_same {α β : Type} {f : State → α → State} {g : State → β} {l : List α} (h : ∀ a x, g (f a x) = g a) : g (l.foldl f s) = g s :=
  List.foldlRecOn (motive := fun a => g a = g s) l f rfl fun a ha x _ => (h a x).trans ha

/-- `t` is `s` but for its sheets. -/
def SheetsOnly (s t : State) : Prop := t = { s with sheets := t.sheets }

section
variable {n pc id k : Nat} {f : Sheet → Sheet} {old : Sheet}

theorem SheetsOnly.refl : SheetsOnly s s := rfl

theorem SheetsOnly.modSheet (h : SheetsOnly s t) : SheetsOnly s (t.modSheet n f) := by
  unfold SheetsOnly at h ⊢
  rw [h]
  rfl

theorem SheetsOnly.foldl {α : Type} {l : List α} {f : State → α → State} (h : SheetsOnly s t)
    (hf : ∀ {a x}, SheetsOnly s a → SheetsOnly s (f a x)) : SheetsOnly s (l.foldl f t) :=
  List.foldlRecOn l f h fun _ ha _ _ => hf ha

theorem SheetsOnly.ite {c : Prop} [Decidable c] (ht : SheetsOnly s t) (hu : SheetsOnly s u) : SheetsOnly s (if c then t else u) := by
  split <;> assumption

theorem SheetsOnly.installMap (h : SheetsOnly s t) : SheetsOnly s (t.installMap n old) := h.modSheet

theorem SheetsOnly.applyRoles (h : SheetsOnly s t) : SheetsOnly s (t.applyRoles n old) := by
  unfold State.applyRoles
  split
  exacts [h.modSheet, h.installMap]

theorem SheetsOnly.abandonDwell (h : SheetsOnly s t) : SheetsOnly s (t.abandonDwell n) := h.modSheet

theorem SheetsOnly.foundBist {cols : List (Nat × Nat)} {fails : List ColFail} (h : SheetsOnly s t) :
    SheetsOnly s (t.foundBist cols k fails) := h.foldl fun ha => ha.modSheet

theorem Shaped.sheetsOnly (h : Shaped s) (hn : n < 24) : n < s.sheets.length := by rwa [h.sheets_length]
end

/-! ### Background operations (R291) -/

section
variable {id st : Nat} {d : List Byte} {f : OpRec → OpRec} {o : OpRec}

theorem State.op?_modOp (hf : ∀ o, (f o).id = o.id) : (s.modOp id f).op? id = (s.op? id).map f := by
  have hp (l : List OpRec) : (l.map fun o => if o.id = id then f o else o).find? (fun o => decide (o.id = id)) =
      (l.find? fun o => decide (o.id = id)).map f := by
    induction l with
    | nil => rfl
    | cons a l ih => by_cases ha : a.id = id <;> simp [ha, hf, ih]
  exact hp s.ops

/-- One record is passed over, where finished records are to be dropped and it is one, or kept. -/
def pruneStep (a : Nat × List OpRec) (o : OpRec) : Nat × List OpRec :=
  if o.finished ∧ 0 < a.1 then (a.1 - 1, a.2) else (a.1, a.2 ++ [o])

/-- Records passed over one by one: each that is finished counts against those to be dropped, and the others are kept in their order. -/
theorem foldl_pruneStep (l : List OpRec) (a : Nat × List OpRec) : (l.foldl pruneStep a).1 = a.1 - (l.filter (·.finished)).length ∧
    ∃ k, k.Sublist l ∧ (l.foldl pruneStep a).2 = a.2 ++ k := by
  induction l generalizing a with
  | nil => exact ⟨by simp, [], by simp, by simp⟩
  | cons x l ih =>
    obtain ⟨h1, k, hk, h2⟩ := ih (pruneStep a x)
    rw [List.foldl_cons, h1, h2]
    unfold pruneStep
    split
    · next hx =>
      refine ⟨?_, k, hk.cons x, rfl⟩
      simp only [List.filter_cons, hx.1, if_true, List.length_cons]
      omega
    · next hx =>
      refine ⟨?_, x :: k, hk.cons_cons x, by simp⟩
      by_cases hf : x.finished = true
      · have h0 : a.1 = 0 := by simpa [hf] using hx
        simp [h0]
      · simp [hf]

/-- The record of an operation that finishes now is the newest, and is kept (R291). -/
theorem pruneOps_concat {l : List OpRec} (ho : o.finished = true) : ∃ k, k.Sublist l ∧ pruneOps (l ++ [o]) = k ++ [o] := by
  unfold pruneOps
  extract_lets fin
  split
  · exact ⟨l, List.Sublist.refl l, rfl⟩
  · obtain ⟨h1, k, hk, h2⟩ := foldl_pruneStep l (fin - 256, [])
    have h0 : fin = (l.filter (·.finished)).length + 1 := by simp [fin, ho]
    refine ⟨k, hk, ?_⟩
    change ((l ++ [o]).foldl pruneStep (fin - 256, [])).2 = k ++ [o]
    rw [List.foldl_append, List.foldl_cons, List.foldl_nil, pruneStep, if_neg (by rw [h1]; omega), h2, List.nil_append]

theorem State.finishOp_eq : s.finishOp id st d =
    { s with ops := (s.finishOp id st d).ops, host := (s.finishOp id st d).host, outbox := (s.finishOp id st d).outbox } := by
  unfold State.finishOp
  split
  · rfl
  · split
    · rfl
    · extract_lets o'
      have hr := (State.raise_eq { s with ops := pruneOps ((s.ops.filter (·.id ≠ id)) ++ [o']) } 2).1
      generalize State.raise _ 2 = w at hr ⊢
      rw [hr]

/-- A running operation that finishes is found with its status, its results as they were. -/
theorem State.op?_finishOp (h : s.op? id = some o) (ho : o.finished = false) :
    ∃ o', (s.finishOp id st d).op? id = some o' ∧ o'.finished = true ∧ o'.status = st ∧ o'.records = o.records := by
  have hid : o.id = id := by simpa using List.find?_some h
  unfold State.finishOp
  rw [h]
  simp only [ho, Bool.false_eq_true, if_false]
  generalize ho' : ({ o with finished := true, ready := none, status := st, progress := 1000, stop := s.cyc, detail := padTo 16 d } : OpRec) = o'
  obtain ⟨k, hk, he⟩ := pruneOps_concat (l := s.ops.filter (·.id ≠ id)) (o := o') (by rw [← ho'])
  refine ⟨o', ?_, by rw [← ho'], by rw [← ho'], by rw [← ho']⟩
  rw [State.op?, (State.raise_eq _ 2).1]
  dsimp only
  rw [he, List.find?_append, List.find?_eq_none.2 fun x hx => by simpa using (List.mem_filter.1 (hk.subset hx)).2]
  simp [← ho', hid]

theorem State.finishFences_eq : s.finishFences = { s with ops := s.finishFences.ops } := by
  unfold State.finishFences
  refine List.foldlRecOn (motive := fun t : State => t = { s with ops := t.ops }) _ _ rfl fun a ha o _ => ?_
  split
  · rw [ha]; rfl
  · exact ha
end

/-! ### FENCE (R85, R522–R524) -/

section
variable {p : Payload} {h op n pc q : Nat}

theorem mem_sheetsOfPt_lt (hn : n ∈ sheetsOfPt q) : n < 24 := List.mem_range.1 (List.mem_filter.1 hn).1

/-- FENCE of one unit that nothing bars is accepted, and carried out at once or at an installation point. -/
theorem fence_answers {x : UnitRef} (ho : HostOwns s) (hl : p.length = 4) (hu : s.unitOf (arg p 0 4) = some x) (hx : fenceLevel x = true)
    (hb : s.verbBusy (arg p 0 4) = false) (hr : s.running.length < 16) (hbar : fenceBar s [x] = none)
    (hv : v = (((accepted s 0x50 (arg p 0 4)).submit 0x50 p).fenceUnit s.nextOp x).finishFences) (hh : v.host = (s.submit 0x50 p).host) :
    Answers (.fence p) s fun t => Reported s t ok (fld 4 s.nextOp) ∧ Beside v t := by
  obtain ⟨hready, howner⟩ := ho
  refine answers_of_ready (c := .fence p) (r := okResp (fld 4 s.nextOp)) hready (.inr howner) rfl ?_ hh
  have hunits : s.verbUnits (arg p 0 4) = [x] := State.verbUnits_unit hu hx
  have hbar' : fenceBar (s.submit 0x50 p) [x] = none := hbar
  simp only [mbFence, checked_of_form (rs := []) hl rfl]
  rw [verbChecks_of_legal (by simp [hu]) (by simpa [hunits] using hx) hb, hunits, hbar']
  dsimp only
  rw [background_accepts hr, hv]
  rfl

/-- A fenced partition is out of service with its sheets, and no dwell goes on there (R522). -/
theorem State.fenceUnit_pt (hs : Shaped s) (hq : q < 8) : ((s.fenceUnit op (.pt q)).pt q).fenced = true ∧
    (∀ n ∈ sheetsOfPt q, ((s.fenceUnit op (.pt q)).sheet n).sheetFenced = true ∧ ((s.fenceUnit op (.pt q)).sheet n).dwell = none) ∧
    SheetsOnly (s.modPt q fun x => { x with fenced := true }) (s.fenceUnit op (.pt q)) := by
  have hsheets : SheetsOnly (s.modPt q fun x => { x with fenced := true }) (s.fenceUnit op (.pt q)) :=
    SheetsOnly.refl.foldl fun ha => ha.modSheet.abandonDwell
  refine ⟨?_, ?_, hsheets⟩
  · rw [hsheets]
    have hl : q < s.pts.length := by rwa [hs.1]
    exact congrArg Partition.fenced (State.pt_modPt_same s q _ hl)
  · refine foldl_each (I := fun a => a.sheets.length = 24) (R := fun n a => (a.sheet n).sheetFenced = true ∧ (a.sheet n).dwell = none)
      (fun a n hn ha => ⟨by simpa [State.abandonDwell] using ha, ?_⟩) (fun a n m hm => ?_) (by simpa using hs.sheets_length)
    · have hl : n < a.sheets.length := by rw [ha]; exact mem_sheetsOfPt_lt hn
      unfold State.abandonDwell
      rw [State.sheet_modSheet_same _ n _ (by simpa using hl), State.sheet_modSheet_same a n _ hl]
      exact ⟨rfl, rfl⟩
    · exact State.sheet_modSheet_of (P := fun x => x.sheetFenced = true ∧ x.dwell = none)
        (State.sheet_modSheet_of (P := fun x => x.sheetFenced = true ∧ x.dwell = none) hm fun _ hx => ⟨rfl, hx.2⟩) fun _ hx => ⟨hx.1, rfl⟩

theorem fence_pt_answers (hs : Shaped s) (ho : HostOwns s) (hl : p.length = 4) (hq : q < 8) (hu : s.unitOf (arg p 0 4) = some (.pt q))
    (hb : s.verbBusy (arg p 0 4) = false) (hr : s.running.length < 16) (hfree : s.holder q = none) :
    Answers (.fence p) s fun t => Reported s t ok (fld 4 s.nextOp) ∧ (t.pt q).fenced = true ∧
      (∀ n ∈ sheetsOfPt q, (t.sheet n).sheetFenced = true ∧ (t.sheet n).dwell = none) ∧ t.ctxs = s.ctxs ∧ SameMemory s t ∧
      SameManagement s t := by
  have hbar : fenceBar s [.pt q] = none := by simp [fenceBar, colOfUnit, ptOfUnit, hfree]
  have ha : Shaped ((accepted s 0x50 (arg p 0 4)).submit 0x50 p) := Shaped.submit hs.frame
  obtain ⟨hpt, hsh, heq⟩ := State.fenceUnit_pt (op := s.nextOp) ha hq
  obtain ⟨t, ht, hrep, hbes, -⟩ := fence_answers ho hl hu rfl hb hr hbar rfl (by rw [State.finishFences_eq, heq]; rfl)
  rw [State.finishFences_eq] at hbes
  refine ⟨t, ht, hrep, by rw [hbes]; exact hpt, by rw [hbes]; exact hsh, ?_⟩
  rw [hbes, heq]
  exact ⟨rfl, ⟨rfl, rfl, rfl, rfl⟩, rfl, rfl, rfl⟩

@[simp] theorem placeSpares_fenced (x : Sheet) : (placeSpares x).fenced = x.fenced := by rw [placeSpares_eq]

@[simp] theorem install_fenced (x : Sheet) : (install x).fenced = x.fenced := placeSpares_fenced x

@[simp] theorem newDwell_fenced (x : Sheet) : (newDwell x).fenced = x.fenced := by rw [newDwell_eq]

theorem State.applyRoles_fenced {m : Nat} {old : Sheet} : ((s.applyRoles n old).sheet m).fenced = (s.sheet m).fenced := by
  unfold State.applyRoles State.installMap
  split
  · exact State.sheet_modSheet_eq fun _ => rfl
  · refine State.sheet_modSheet_eq fun x => ?_
    dsimp only
    split <;> simp

theorem fenceRoles_fenced (x : Sheet) (row : Option Nat) :
    (fenceRoles x pc row).fenced = x.fenced ++ if (pc, row) ∈ x.fenced then [] else [(pc, row)] := by
  unfold fenceRoles
  split <;> next hc => simp_all

/-- A fence of a column takes effect at once, and changes no other than its sheet and its tiles; or it waits, where the column is live under a
bound context (R85, R522). -/
theorem State.fenceUnit_pcol (hs : Shaped s) (hn : n < 24) :
    (if roleOf (s.sheet n) pc = 0 ∧ s.holderOfSheet n ≠ none then
      ((s.fenceUnit op (.pcol n pc)).sheet n).fencePend = (s.sheet n).fencePend ++ [(op, pc, none, true)] ∧
        ((s.fenceUnit op (.pcol n pc)).sheet n).fenced = (s.sheet n).fenced
    else ((s.fenceUnit op (.pcol n pc)).sheet n).fenced = (s.sheet n).fenced ++ if (pc, none) ∈ (s.sheet n).fenced then [] else [(pc, none)]) ∧
    SheetsOnly { s with tiles := (s.fenceUnit op (.pcol n pc)).tiles } (s.fenceUnit op (.pcol n pc)) := by
  have hl : n < s.sheets.length := hs.sheetsOnly hn
  simp only [← Option.isSome_iff_ne_none]
  unfold State.fenceUnit
  dsimp only
  split
  · rw [State.sheet_modSheet_same s n _ hl]
    exact ⟨⟨rfl, rfl⟩, SheetsOnly.refl.modSheet⟩
  · refine ⟨?_, ?_⟩
    · rw [State.applyRoles_fenced]
      exact (congrArg Sheet.fenced (State.sheet_modSheet_same s n _ hl)).trans (fenceRoles_fenced _ _)
    · have h : SheetsOnly (s.fenceCol n pc none) ((s.fenceCol n pc none).applyRoles n (s.sheet n)) := SheetsOnly.refl.applyRoles
      unfold SheetsOnly at h ⊢
      rw [h]
      rfl

theorem fence_pcol_answers (hs : Shaped s) (ho : HostOwns s) (hl : p.length = 4) (hn : n < 24) (hu : s.unitOf (arg p 0 4) = some (.pcol n pc))
    (hb : s.verbBusy (arg p 0 4) = false) (hr : s.running.length < 16) (hbar : fenceBar s [.pcol n pc] = none) :
    Answers (.fence p) s fun t => Reported s t ok (fld 4 s.nextOp) ∧
      (if roleOf (s.sheet n) pc = 0 ∧ s.holderOfSheet n ≠ none then
        (t.sheet n).fencePend = (s.sheet n).fencePend ++ [(s.nextOp, pc, none, true)] ∧ (t.sheet n).fenced = (s.sheet n).fenced
      else (t.sheet n).fenced = (s.sheet n).fenced ++ (if (pc, none) ∈ (s.sheet n).fenced then [] else [(pc, none)])) ∧
      t.ctxs = s.ctxs ∧ t.dram = s.dram ∧ t.pool = s.pool ∧ t.reel = s.reel ∧ SameManagement s t := by
  have ha : Shaped ((accepted s 0x50 (arg p 0 4)).submit 0x50 p) := Shaped.submit hs.frame
  obtain ⟨hsh, heq⟩ := State.fenceUnit_pcol (op := s.nextOp) (pc := pc) ha hn
  obtain ⟨t, ht, hrep, hbes, -⟩ := fence_answers ho hl hu rfl hb hr hbar rfl (by rw [State.finishFences_eq, heq]; rfl)
  rw [State.finishFences_eq] at hbes
  refine ⟨t, ht, hrep, by rw [hbes]; exact hsh, ?_⟩
  rw [hbes, heq]
  exact ⟨rfl, rfl, rfl, rfl, rfl, rfl, rfl⟩
end

/-! ### UNFENCE and TEST begin (R465, R525) -/

section
variable {p : Payload} {cols : List (Nat × Nat)} {us : List UnitRef}

theorem unfence_replies (ho : HostOwns s) (hl : p.length = 4) (hu : s.unitOf (arg p 0 4) ≠ none)
    (hlev : ∀ u ∈ s.verbUnits (arg p 0 4), fenceLevel u = true) (hb : s.verbBusy (arg p 0 4) = false)
    (hf : ∀ u ∈ s.verbUnits (arg p 0 4), s.isFenced u = true ∧ s.isBroke u = false) (hne : s.verbUnits (arg p 0 4) ≠ [])
    (hr : s.running.length < 16) : Replies (.unfence p) s ok (fld 4 s.nextOp)
      ((accepted s 0x51 (arg p 0 4)).modOp s.nextOp fun o => { o with cols := s.unfenceCols (s.verbUnits (arg p 0 4)) }) := by
  obtain ⟨hready, howner⟩ := ho
  refine replies_of_ready (u := (accepted s 0x51 (arg p 0 4)).modOp s.nextOp fun o => { o with cols := s.unfenceCols (s.verbUnits (arg p 0 4)) })
    (c := .unfence p) (r := okResp (fld 4 s.nextOp)) hready (.inr howner) rfl ?_ rfl
  have hfind : (s.verbUnits (arg p 0 4)).find? (fun u => !(s.submit 0x51 p).isFenced u || (s.submit 0x51 p).isBroke u) = none :=
    List.find?_eq_none.2 fun u hu => by
      have h : (!s.isFenced u || s.isBroke u) = false := by simp [hf u hu]
      exact Bool.eq_false_iff.1 h
  simp only [mbUnfence, checked_of_form (rs := []) hl rfl]
  rw [verbChecks_of_legal hu hlev hb, hfind]
  dsimp only
  rw [background_accepts hr, if_neg (by simpa using hne)]
  rfl

/-- A TEST that begins empties the tiles of its columns, and changes no more but sheets (R453). -/
theorem SheetsOnly.beginTest : SheetsOnly { s with tiles := s.tiles.filter fun e => !cols.contains (e.1 / 288, e.1 % 288 / 16) }
    (s.beginTest us cols) := (SheetsOnly.refl.foldl fun ha => ha.abandonDwell).foldl fun ha => ha.modSheet

/-- The operation of a TEST, accepted with its columns and its kind. -/
def State.testing (s : State) (p : Payload) (cols : List (Nat × Nat)) : State :=
  (Machine.accepted s 0x60 (arg p 0 4)).modOp s.nextOp fun o => { o with cols := cols, kind := arg p 4 1 }

theorem test_answers (ho : HostOwns s) (hl : p.length = 8) (hrsvd : rsvdBad p [(5, 3)] = none) (hk : arg p 4 1 ≤ 3)
    (hu : s.unitOf (arg p 0 4) ≠ none) (hlev : ∀ u ∈ s.verbUnits (arg p 0 4), fenceLevel u = true ∧ testBar s u = none)
    (hb : s.verbBusy (arg p 0 4) = false) (hp : s.start.pwr = .m0) (hne : s.verbUnits (arg p 0 4) ≠ []) (hr : s.running.length < 16)
    (hc : cols = ((s.verbUnits (arg p 0 4)).flatMap s.testCols).eraseDups) :
    Answers (.test p) s fun t => Reported s t ok (fld 4 s.nextOp) ∧
      t.ops = ((accepted s 0x60 (arg p 0 4)).modOp s.nextOp fun o => { o with cols := cols, kind := arg p 4 1 }).ops ∧
      (∀ e ∈ t.tiles, (e.1 / 288, e.1 % 288 / 16) ∉ cols) ∧ t.ctxs = s.ctxs ∧ t.dram = s.dram ∧ t.pool = s.pool ∧ SameManagement s t := by
  obtain ⟨hready, howner⟩ := ho
  have heq := SheetsOnly.beginTest (s := (s.testing p cols).submit 0x60 p) (us := s.verbUnits (arg p 0 4)) (cols := cols)
  have hbar : (s.verbUnits (arg p 0 4)).findSome? (testBar (s.submit 0x60 p)) = none :=
    List.findSome?_eq_none_iff.2 fun u hu => (hlev u hu).2
  have hf : mbTest .host p (s.submit 0x60 p) = (((s.testing p cols).submit 0x60 p).beginTest (s.verbUnits (arg p 0 4)) cols, okResp (fld 4 s.nextOp)) := by
    simp only [mbTest, checked_of_form hl hrsvd]
    rw [if_neg (Nat.not_lt.2 hk), verbChecks_of_legal hu (fun u hu => (hlev u hu).1) hb, if_neg (by simpa [State.submit] using hp), hbar]
    dsimp only
    rw [background_accepts hr, if_neg (by simpa using hne), hc]
    rfl
  obtain ⟨t, ht, hrep, hbes, -⟩ := answers_of_ready (c := .test p) hready (.inr howner) rfl hf (by rw [heq]; rfl)
  refine ⟨t, ht, hrep, ?_⟩
  rw [hbes, heq]
  refine ⟨rfl, fun e he => ?_, rfl, rfl, rfl, rfl, rfl, rfl⟩
  simpa using (List.mem_filter.1 he).2
end

/-! ### What repairs and markings change (R456) -/

/-- `t` is `s` but for the units that a repair or a marking reaches, and for what is recorded. -/
def RepairWork (s t : State) : Prop := t = { s with
  tiles := t.tiles, sheets := t.sheets, chans := t.chans, dies := t.dies, ports := t.ports, logs := t.logs, host := t.host, outbox := t.outbox }

section
variable {n pc id k : Nat} {f : BistFail} {cond : BistCond}

theorem RepairWork.refl : RepairWork s s := rfl

theorem RepairWork.recorded (h : RepairWork s t) (hr : Recorded t u) : RepairWork s u := by
  unfold RepairWork at h ⊢
  rw [hr, h]

theorem RepairWork.sheetsOnly (h : RepairWork s t) (hu : SheetsOnly t u) : RepairWork s u := by
  unfold RepairWork at h ⊢
  rw [hu, h]

theorem RepairWork.modTile {f : Tile → Tile} (h : RepairWork s t) : RepairWork s (t.modTile n f) := by
  unfold RepairWork at h ⊢
  rw [h]
  rfl

theorem RepairWork.modSheet {f : Sheet → Sheet} (h : RepairWork s t) : RepairWork s (t.modSheet n f) := h.sheetsOnly SheetsOnly.refl.modSheet

theorem RepairWork.foldl {α : Type} {l : List α} {f : State → α → State} (h : RepairWork s t)
    (hf : ∀ {a x}, RepairWork s a → RepairWork s (f a x)) : RepairWork s (l.foldl f t) :=
  List.foldlRecOn l f h fun _ ha _ _ => hf ha

theorem RepairWork.softRepair (h : RepairWork s t) : RepairWork s (t.softRepair n pc f) :=
  (h.modTile.recorded Recorded.refl.addRepair).modSheet

theorem RepairWork.bistFail {origin : Nat} (h : RepairWork s t) : RepairWork s (t.bistFail n pc f cond origin) :=
  h.modSheet.recorded (Recorded.refl.logErr rfl)

theorem RepairWork.retireOne {cause : Nat} (h : RepairWork s t) : RepairWork s (t.retireOne n pc cause) := by
  unfold State.retireOne
  split
  exacts [h, h.modSheet.recorded (Recorded.refl.addRepair.logErr rfl)]

theorem RepairWork.retire {l : List (Nat × Nat)} (h : RepairWork s t) : RepairWork s (t.retire n l) :=
  (h.foldl fun ha => ha.retireOne).sheetsOnly SheetsOnly.refl.applyRoles

theorem RepairWork.condemn {cause : Nat} (h : RepairWork s t) : RepairWork s (t.condemn n pc cause) := by
  unfold State.condemn
  split
  exacts [h.modSheet, h.retire]

theorem RepairWork.testFails {fails : List ColFail} (h : RepairWork s t) : RepairWork s (t.testFails fails cond) := by
  unfold State.testFails
  refine h.foldl fun ha => ?_
  split
  exacts [ha.softRepair, ha.bistFail.condemn]
end

@[simp] theorem settle_pt (p : Nat) : (settle s t).pt p = t.pt p := by simp [State.pt]

/-! ### The end of a TEST, and of the tests of an UNFENCE (R465, R466, R525) -/

section
variable {op : Nat} {o : OpRec} {fails : List ColFail} {cond : BistCond}

/-- The failures among the tests that operation `o` has run. -/
def OpRec.ran (o : OpRec) (fails : List ColFail) : List ColFail :=
  (fails.filter fun x => o.cols.contains (x.sh.val, x.pc.val) && isFailure x.fail).filter fun x => (kindsOf o.kind).contains x.fail.kind.val

/-- The record of operation `o` with the results of its tests. -/
def OpRec.withResults (o : OpRec) (records : List (List Byte)) : OpRec := { o with records := records, cols := [] }

/-- A TEST that has run: units are repaired or condemned, its result records are kept, the sheets it tested whole are due a dwell, and it finishes. -/
theorem testFinished_test (h : s.op? op = some o) (hc : o.code = 0x60) (hf : o.finished = false) (hn : o.cols ≠ []) :
    ∃ a b, RepairWork s a ∧
      SheetsOnly (a.modOp op fun y => y.withResults (testRecords s o.cols (kindsOf o.kind) (o.ran fails) cond)) b ∧
      testFinished op fails cond s = b.finishOp op ok [] := by
  unfold testFinished
  rw [h]
  dsimp only
  rw [if_neg (by simp [hf, hn]), if_pos hc]
  refine ⟨_, _, RepairWork.testFails ?_, SheetsOnly.refl.foldl fun ha => .ite ha.modSheet ha, rfl⟩
  split
  exacts [RepairWork.refl.sheetsOnly SheetsOnly.refl.foundBist, RepairWork.refl]

theorem testFinished_test_answers {op : W32} (h : s.op? op.toNat = some o) (hc : o.code = 0x60) (hf : o.finished = false) (hn : o.cols ≠ []) :
    Answers (.testFinished op fails cond) s fun t => ∃ o', t.op? op.toNat = some o' ∧ o'.finished = true ∧ o'.status = ok ∧
      o'.records = testRecords s o.cols (kindsOf o.kind) (o.ran fails) cond ∧ t.ctxs = s.ctxs ∧ t.dram = s.dram ∧ t.pool = s.pool ∧
      SameManagement s t := by
  obtain ⟨a, b, ha, hb, he⟩ := testFinished_test (fails := fails) (cond := cond) h hc hf hn
  have hop : b.op? op.toNat = some (o.withResults (testRecords s o.cols (kindsOf o.kind) (o.ran fails) cond)) := by
    have ha' : a.op? op.toNat = some o := by rw [ha]; exact h
    rw [hb]
    exact (State.op?_modOp (f := fun y => y.withResults _) fun _ => rfl).trans (congrArg (Option.map _) ha')
  obtain ⟨o', ho', hfin, hst, hrec⟩ := State.op?_finishOp (st := ok) (d := []) hop hf
  refine answers_of (congrArg (nextOf s) he) ⟨o', ?_, hfin, hst, hrec, ?_⟩
  · rw [State.op?, settle_ops]
    exact ho'
  · rw [settle_ctxs, settle_dram, settle_pool, State.finishOp_eq, hb, ha]
    exact ⟨rfl, rfl, rfl, SameManagement.settle ⟨rfl, rfl, rfl⟩⟩

/-- A partition that returns to service does so with its sheets. -/
theorem State.unfenceUnit_pt {q : Nat} (hs : Shaped s) (hq : q < 8) : ((s.unfenceUnit op (.pt q)).pt q).fenced = false ∧
    (∀ n ∈ sheetsOfPt q, ((s.unfenceUnit op (.pt q)).sheet n).sheetFenced = false) ∧
    SheetsOnly (s.modPt q fun x => { x with fenced := false }) (s.unfenceUnit op (.pt q)) := by
  have hsheets : SheetsOnly (s.modPt q fun x => { x with fenced := false }) (s.unfenceUnit op (.pt q)) :=
    SheetsOnly.refl.foldl fun ha => ha.modSheet
  refine ⟨?_, ?_, hsheets⟩
  · rw [hsheets]
    have hl : q < s.pts.length := by rwa [hs.1]
    exact congrArg Partition.fenced (State.pt_modPt_same s q _ hl)
  · refine foldl_each (I := fun a => a.sheets.length = 24) (R := fun n a => (a.sheet n).sheetFenced = false)
      (fun a n hn ha => ⟨by simpa using ha, ?_⟩) (fun a n m hm => ?_) (by simpa using hs.sheets_length)
    · rw [State.sheet_modSheet_same a n _ (by rw [ha]; exact mem_sheetsOfPt_lt hn)]
    · exact State.sheet_modSheet_of (P := fun x => x.sheetFenced = false) hm fun _ _ => rfl

@[simp] theorem newDwell_sheetFenced (x : Sheet) : (newDwell x).sheetFenced = x.sheetFenced := by rw [newDwell_eq]

/-- The tests of an UNFENCE of a partition have found nothing: it returns to service, and dwells follow the roles of its sheets. -/
theorem testFinished_unfence_pt {q : Nat} (h : s.op? op = some o) (hc : o.code = 0x51) (hf : o.finished = false) (hn : o.cols ≠ [])
    (hu : o.units.filterMap s.unitOf = [.pt q]) : testFinished op [] cond s =
      ((sheetsOfPt q).foldl (fun a n => a.modSheet n newDwell)
        (((s.foundBist o.cols 262144 []).unfenceUnit op (.pt q)).modOp op fun y => { y with cols := [], kind := 1 })).finishFences := by
  unfold testFinished
  rw [h]
  dsimp only
  rw [if_neg (by simp [hf, hn]), if_neg (by simp [hc]), if_pos hc, hu, List.flatMap_singleton]
  rfl

theorem testFinished_unfence_pt_answers {q : Nat} {op : W32} (hs : Shaped s) (h : s.op? op.toNat = some o) (hc : o.code = 0x51)
    (hf : o.finished = false) (hn : o.cols ≠ []) (hq : q < 8) (hu : o.units.filterMap s.unitOf = [.pt q]) :
    Answers (.testFinished op [] cond) s fun t => (t.pt q).fenced = false ∧ (∀ n ∈ sheetsOfPt q, (t.sheet n).sheetFenced = false) ∧
      t.ctxs = s.ctxs ∧ SameMemory s t ∧ SameManagement s t := by
  have hbist : SheetsOnly s (s.foundBist o.cols 262144 []) := SheetsOnly.refl.foundBist
  obtain ⟨hpt, hsh, hlift⟩ := State.unfenceUnit_pt (op := op.toNat) (hs.foundBist (cols := o.cols) (n := 262144) (fails := [])) hq
  have he := testFinished_unfence_pt (cond := cond) h hc hf hn hu
  generalize (s.foundBist o.cols 262144 []).unfenceUnit op.toNat (.pt q) = a at *
  have hb : SheetsOnly (a.modOp op.toNat fun y => { y with cols := [], kind := 1 })
    ((sheetsOfPt q).foldl (fun a n => a.modSheet n newDwell) (a.modOp op.toNat fun y => { y with cols := [], kind := 1 })) :=
    SheetsOnly.refl.foldl fun ha => ha.modSheet
  have hbs (n : Nat) : (((sheetsOfPt q).foldl (fun a n => a.modSheet n newDwell)
      (a.modOp op.toNat fun y => { y with cols := [], kind := 1 })).sheet n).sheetFenced = (a.sheet n).sheetFenced :=
    foldl_same (g := fun a => (a.sheet n).sheetFenced) fun _ _ => State.sheet_modSheet_eq newDwell_sheetFenced
  generalize List.foldl (fun (a : State) n => a.modSheet n newDwell) _ _ = b at *
  refine answers_of (congrArg (nextOf s) he) ?_
  rw [settle_pt, settle_ctxs]
  simp only [settle_sheet]
  rw [State.finishFences_eq]
  refine ⟨?_, fun n hn => (hbs n).trans (hsh n hn), ?_⟩
  · rw [hb]
    exact hpt
  · rw [hb, hlift, hbist]
    exact ⟨rfl, SameMemory.settle ⟨rfl, rfl, rfl, rfl⟩, SameManagement.settle ⟨rfl, rfl, rfl⟩⟩

theorem testResult_replies {p : Payload} (hr : HostReady s) (hl : p.length = 4) (h : s.op? (arg p 0 4) = some o) (hc : o.code = 0x60) :
    Replies (.testResult p) s ok (fld 4 o.records.length ++ known (o.records.take 127).flatten) s := by
  refine replies_of_ready (c := .testResult p) (u := s) (r := okResp _) hr (.inl rfl) rfl ?_ rfl
  have h' : (s.submit 0x61 p).op? (arg p 0 4) = some o := h
  simp only [mbTestResult, checked_of_form (rs := []) hl rfl, h', hc, if_true]
end
end
end Sys2Proof.Machine

open Sys2Proof.Machine in
/-- Settles O18: each clause is the answer of the command with that request, or of that end of its tests. -/
theorem fencingAndTest : Obligations.FencingAndTest := by
  intro s hs
  refine ⟨fun p q ho hl hq hu hb hr hfree => fence_pt_answers hs ho hl hq hu hb hr hfree,
    fun p n pc ho hl hn hu hb hr hbar => fence_pcol_answers hs ho hl hn hu hb hr hbar,
    fun p ho hl hu hlev hb hf hne hr => unfence_replies ho hl hu hlev hb hf hne hr,
    fun p cols ho hl hrsvd hk hu hlev hb hp hne hr hc => test_answers ho hl hrsvd hk hu hlev hb hp hne hr hc,
    fun op o fails cond h hc hf hn => testFinished_test_answers h hc hf hn,
    fun op o q cond h hc hf hn hq hu => testFinished_unfence_pt_answers hs h hc hf hn hq hu,
    fun p o hr hl h hc => testResult_replies hr hl h hc⟩

namespace Sys2Proof.Machine

section
variable {s t u v : State}

/-! ### The repair record at start-up (R456–R462, R699) -/

section
variable {e x : List Byte} {l : List (List Byte)} {n k : Nat}

theorem RepairWork.trans (h : RepairWork s t) (h' : RepairWork t u) : RepairWork s u := by
  unfold RepairWork at h h' ⊢
  rw [h', h]

theorem RepairWork.withLogs {logs : Logs} (h : RepairWork s t) : RepairWork s { t with logs := logs } := by
  unfold RepairWork at h ⊢
  rw [h]

theorem RepairWork.modPort {f : FPort → FPort} (h : RepairWork s t) : RepairWork s (t.modPort n f) := by
  unfold RepairWork at h ⊢
  rw [h]
  rfl

theorem RepairWork.markEntry (h : RepairWork s t) : RepairWork s (t.markEntry e) := by
  refine h.trans ?_
  unfold State.markEntry
  extract_lets +onlyGivenNames k loc det die
  split_ifs <;> rfl

theorem RepairWork.applyEntry (h : RepairWork s t) : RepairWork s (t.applyEntry e) := by
  unfold State.applyEntry
  split
  exacts [h, h.withLogs.markEntry]

theorem RepairWork.storeEntry (h : RepairWork s t) : RepairWork s (t.storeEntry e) := h.recorded Recorded.refl.storeEntry

theorem RepairWork.trainAll (h : RepairWork s t) : RepairWork s t.trainAll := h.foldl fun ha => ha.modPort.modPort

theorem State.markEntry_logs : (s.markEntry e).logs = s.logs := by
  unfold State.markEntry
  extract_lets +onlyGivenNames k loc det die
  split_ifs <;> rfl

/-- An entry that comes into force changes no log but the list of those in force. -/
theorem State.applyEntry_logs : (s.applyEntry e).logs = { s.logs with inForce := (s.applyEntry e).logs.inForce } := by
  unfold State.applyEntry
  split
  · rfl
  · rw [State.markEntry_logs]

theorem State.foldl_applyEntry_logs {α : Type} {l : List α} {g : State → α → List Byte} : (l.foldl (fun a x => a.applyEntry (g a x)) s).logs =
    { s.logs with inForce := (l.foldl (fun a x => a.applyEntry (g a x)) s).logs.inForce } :=
  List.foldlRecOn (motive := fun a : State => a.logs = { s.logs with inForce := a.logs.inForce }) l _ rfl fun a ha e _ => by
    rw [State.applyEntry_logs, ha]

/-- A repair or marking is in force (R456). -/
def State.InForce (s : State) (e : List Byte) : Prop := s.logs.inForce.any (sameRepair e) = true

theorem State.InForce.exists (h : s.InForce e) : ∃ f ∈ s.logs.inForce, sameRepair e f = true := List.any_eq_true.1 h

theorem State.InForce.of_logs (h : s.InForce e) (hl : t.logs.inForce = s.logs.inForce) : t.InForce e := by
  unfold State.InForce at h ⊢
  rwa [hl]

theorem State.InForce.applyEntry (h : s.InForce x) : (s.applyEntry e).InForce x := by
  unfold State.applyEntry
  split
  · exact h
  · unfold State.InForce at h ⊢
    rw [State.markEntry_logs]
    simp only [List.any_append, h, Bool.true_or]

theorem State.applyEntry_inForce : (s.applyEntry e).InForce e := by
  unfold State.applyEntry
  split
  · assumption
  · unfold State.InForce
    rw [State.markEntry_logs]
    simp [sameRepair]

theorem State.InForce.foldl_applyEntry (h : s.InForce x) : (l.foldl State.applyEntry s).InForce x :=
  List.foldlRecOn (motive := fun a : State => a.InForce x) l _ h fun _ ha _ _ => ha.applyEntry

/-- Every entry of a record that is applied is in force. -/
theorem State.foldl_applyEntry_inForce (he : e ∈ l) : (l.foldl State.applyEntry s).InForce e :=
  foldl_each (f := State.applyEntry) (I := fun _ => True) (R := fun x a => a.InForce x) (fun _ _ _ _ => ⟨trivial, State.applyEntry_inForce⟩)
    (fun _ _ _ h => h.applyEntry) trivial e he

/-- What is logged leaves the repair record and the ledger as they are. -/
theorem State.logErr_logs {cls : Nat} {a : ErrAt} {body : List Byte} : (s.logErr cls a body).logs =
    { s.logs with errs := (s.logErr cls a body).logs.errs, early := (s.logErr cls a body).logs.early, seq := (s.logErr cls a body).logs.seq } := by
  have hs (c : Prop) [Decidable c] (d : Prop) [Decidable d] (f g : Context → Context) (n : Nat) :
      (if c then s.modCtx n f else if d then s.modCtx n g else s).logs = s.logs := by split_ifs <;> rfl
  unfold State.logErr
  extract_lets +onlyGivenNames x isStep first flags r s1
  have h1 : s1.logs = s.logs := hs ..
  clear_value s1
  split
  · simp [h1]
  · simp [h1]

/-- An entry is stored in the record, or it is logged that it cannot be; what is in force and the ledger do not change. -/
theorem State.storeEntry_logs : (s.storeEntry e).logs.inForce = s.logs.inForce ∧ (s.storeEntry e).logs.ledger = s.logs.ledger := by
  have hlog : (s.logErr 0x030A {} e).logs.inForce = s.logs.inForce ∧ (s.logErr 0x030A {} e).logs.ledger = s.logs.ledger := by
    rw [State.logErr_logs]
    exact ⟨rfl, rfl⟩
  unfold State.storeEntry
  split
  · exact hlog
  · split
    · split
      exacts [hlog, ⟨rfl, rfl⟩]
    · extract_lets l
      split
      exacts [hlog, ⟨rfl, rfl⟩]

theorem State.foldl_storeEntry_logs : (l.foldl State.storeEntry s).logs.inForce = s.logs.inForce ∧
    (l.foldl State.storeEntry s).logs.ledger = s.logs.ledger :=
  ⟨foldl_same (g := fun a => a.logs.inForce) fun _ _ => State.storeEntry_logs.1, foldl_same (g := fun a => a.logs.ledger) fun _ _ => State.storeEntry_logs.2⟩

/-! ### Ports begin to train (R694, R701) -/

theorem State.port_modPort_of {P : FPort → Prop} {m : Nat} {f : FPort → FPort} (h : P (s.port m)) (hf : ∀ x, P x → P (f x)) :
    P ((s.modPort k f).port m) := by
  by_cases hk : k = m
  · subst hk
    by_cases hl : k < s.ports.length
    · rw [State.port_modPort_same s k f hl]
      exact hf _ h
    · simpa [State.port, State.modPort, hl] using h
  · rwa [State.port_modPort_other s k m f hk]

@[simp] theorem settle_port (k : Nat) : (settle s t).port k = t.port k := by simp [State.port]

theorem State.trainAll_logs : s.trainAll.logs = s.logs := foldl_same (g := fun a => a.logs) fun _ _ => rfl

/-- Every port trains, in the mode that PORT_DEFAULT gives. -/
theorem State.trainAll_port (hs : s.ports.length = 18) (hk : k < 18) :
    (s.trainAll.port k).st = .training ∧ (s.trainAll.port k).eth = (s.settingNat 0x13).testBit k := by
  refine foldl_each (I := fun a => a.ports.length = 18)
    (R := fun k a => (a.port k).st = .training ∧ (a.port k).eth = (s.settingNat 0x13).testBit k) (l := List.range 18)
    (fun a k hk ha => ⟨by simpa [State.startTraining] using ha, ?_⟩) (fun a k m hm => ?_) hs k (List.mem_range.2 hk)
  · have hl : k < a.ports.length := by rw [ha]; exact List.mem_range.1 hk
    unfold State.startTraining
    rw [State.port_modPort_same _ k _ (by simpa using hl), State.port_modPort_same a k _ hl]
    exact ⟨rfl, rfl⟩
  · by_cases h : k = m
    · subst h
      exact State.port_modPort_of (P := fun x => x.st = .training ∧ x.eth = (s.settingNat 0x13).testBit k)
        (State.port_modPort_of (P := fun x => x.st = .training ∧ x.eth = (s.settingNat 0x13).testBit k) hm fun _ hx => ⟨hx.1, rfl⟩)
        fun _ hx => ⟨rfl, hx.2⟩
    · unfold State.startTraining
      rwa [State.port_modPort_other _ k m _ h, State.port_modPort_other _ k m _ h]

/-! ### The record comes into force (R460–R462) -/

variable {bad : List W32} {sig : Verdict}

/-- The ledger's records that check, the record read (R490, R495). -/
def State.checkedLedger (s : State) (bad : List W32) : List (List Byte) :=
  s.logs.ledger.filter fun r => !bad.contains (BitVec.ofNat 32 (fieldAt r 0 4))

/-- A valid record is in force, and so are the entries that were pending (R460, R461). -/
theorem stageRepairRecordDone_valid (ha : s.start.aux = true) (hst : s.start.stage = 5) (hw : s.start.warmDue = false) (hv : sig.sigOk = true) :
    ∃ a, stageRepairRecordDone bad sig s = a.trainAll.endStage 5 6 ∧ RepairWork s a ∧ a.logs.ledger = s.checkedLedger bad ∧
      ∀ e ∈ s.logs.repair, a.InForce e := by
  unfold stageRepairRecordDone
  rw [if_neg (by simp [ha, hst, hw])]
  simp -zeta only [hv, if_true]
  extract_lets bad' nbad _ s1 a new _ b s2
  refine ⟨s2, rfl, ?_⟩
  have h1 : RepairWork s a := by
    have h0 : RepairWork s s1 := rfl
    exact (h0.foldl fun hb => hb.applyEntry).foldl fun hb => hb.applyEntry
  have hb : RepairWork a b := by
    unfold b
    split <;> rfl
  have hl : b.logs.inForce = a.logs.inForce ∧ b.logs.ledger = a.logs.ledger := by
    unfold b
    split <;> exact ⟨rfl, rfl⟩
  refine ⟨(h1.trans hb).foldl fun hc => hc.storeEntry, ?_, fun e he => ?_⟩
  · rw [State.foldl_storeEntry_logs.2, hl.2]
    exact (congrArg Logs.ledger State.foldl_applyEntry_logs).trans (congrArg Logs.ledger State.foldl_applyEntry_logs)
  · exact ((State.foldl_applyEntry_inForce he).foldl_applyEntry (l := s1.logs.repairPend)).of_logs (State.foldl_storeEntry_logs.1.trans hl.1)

/-- No copy of the record is valid: REPAIR_LOST (R462). -/
def State.recordLost (s : State) : State := State.logErr { s with start := { s.start with repairLost := true } } 0x030B {} []

/-- Without a valid copy that is logged, REPAIR_LOST is set, and the record is made anew (R462). -/
theorem stageRepairRecordDone_lost (ha : s.start.aux = true) (hst : s.start.stage = 5) (hw : s.start.warmDue = false) (hv : sig.sigOk = false) :
    ∃ a, stageRepairRecordDone bad sig s = a.trainAll.endStage 5 6 ∧ RepairWork { s with start := { s.start with repairLost := true } } a ∧
      a.logs.ledger = s.checkedLedger bad ∧ ∃ r ∈ a.logs.errs, r.cls = 0x030B := by
  unfold stageRepairRecordDone
  rw [if_neg (by simp [ha, hst, hw])]
  simp -zeta only [hv, Bool.false_eq_true, if_false]
  extract_lets bad' nbad _ s1 _ a b _ s2
  refine ⟨s2, rfl, ?_⟩
  have hb : b.logs = { s1.recordLost.logs with inForce := b.logs.inForce } := by
    unfold b
    rw [State.foldl_applyEntry_logs]
    unfold a
    rw [State.foldl_applyEntry_logs (g := fun _ e => e)]
    rfl
  have hw : RepairWork { s with start := { s.start with repairLost := true } } b := by
    have h0 : RepairWork { s with start := { s.start with repairLost := true } } { s1 with start := { s1.start with repairLost := true } } := rfl
    exact ((h0.recorded (Recorded.refl.logErr rfl)).foldl fun hb => hb.applyEntry).foldl fun hb => hb.applyEntry
  have hs2 : RepairWork b s2 ∧ s2.logs.ledger = b.logs.ledger ∧ s2.logs.errs = b.logs.errs := by
    unfold s2
    split <;> exact ⟨rfl, rfl, rfl⟩
  obtain ⟨hw2, hl2, he2⟩ := hs2
  refine ⟨hw.trans hw2, ?_, ?_⟩
  · rw [hl2, hb]
    exact congrArg Logs.ledger State.logErr_logs
  · rw [he2, hb]
    exact State.logErr_recorded (show 3 < s.start.stage by omega)

theorem State.endStage_ports {m : Nat} : (s.endStage n m).ports = s.ports := rfl

/-- What follows the record: the ports train, and stage 6 begins. -/
theorem answers_of_trainAll {a : State} {start : Startup} (hs : Shaped s) (he : stageRepairRecordDone bad sig s = a.trainAll.endStage 5 6)
    (ha : RepairWork { s with start := start } a) :
    Answers (.stageRepairRecordDone bad sig) s fun t => t.start.stage = 6 ∧ t.start.repairLost = start.repairLost ∧ t.logs = a.logs ∧
      (∀ k, k < 18 → (t.port k).st = .training ∧ (t.port k).eth = (s.settingNat 0x13).testBit k) ∧ t.ctxs = s.ctxs ∧ t.dram = s.dram ∧
      t.pool = s.pool ∧ t.mgmt = s.mgmt ∧ t.ident = s.ident := by
  have hports : a.ports.length = 18 := by
    have hl : a.trainAll.ports.length = a.ports.length := foldl_same (g := fun a => a.ports.length) fun a k => by simp [State.startTraining]
    obtain ⟨-, -, -, -, hp, -⟩ := (hs.stageRepairRecordDone (badLedger := bad) (v := sig))
    rw [he, State.endStage_ports, hl] at hp
    exact hp
  have ht : RepairWork { s with start := start } a.trainAll := ha.trainAll
  have hset : a.settingNat 0x13 = s.settingNat 0x13 := by rw [ha]; rfl
  have hport (k : Nat) (hk : k < 18) := State.trainAll_port hports hk
  rw [hset] at hport
  refine answers_of (congrArg (nextOf s) he) ?_
  simp only [settle_start, settle_logs, settle_port, settle_ctxs, settle_dram, settle_pool, settle_mgmt, settle_ident]
  have hlogs : a.trainAll.logs = a.logs := State.trainAll_logs
  generalize a.trainAll = b at *
  have hstart : b.start = start := by rw [ht]
  refine ⟨rfl, by rw [← hstart]; rfl, hlogs, hport, ?_⟩
  unfold State.endStage
  rw [ht]
  exact ⟨rfl, rfl, rfl, rfl, rfl⟩

theorem stageRepairRecordDone_answers (hs : Shaped s) (ha : s.start.aux = true) (hst : s.start.stage = 5) (hw : s.start.warmDue = false) :
    Answers (.stageRepairRecordDone bad sig) s fun t => t.start.stage = 6 ∧
      (sig.sigOk = true → (∀ e ∈ s.logs.repair, ∃ f ∈ t.logs.inForce, sameRepair e f = true) ∧ t.start.repairLost = s.start.repairLost) ∧
      (sig.sigOk = false → t.start.repairLost = true ∧ ∃ r ∈ t.logs.errs, r.cls = 0x030B) ∧ t.logs.ledger = s.checkedLedger bad ∧
      (∀ k, k < 18 → (t.port k).st = .training ∧ (t.port k).eth = (s.settingNat 0x13).testBit k) ∧ t.ctxs = s.ctxs ∧ t.dram = s.dram ∧
      t.pool = s.pool ∧ t.mgmt = s.mgmt ∧ t.ident = s.ident := by
  cases hv : sig.sigOk with
  | true =>
    obtain ⟨a, he, hwork, hled, hin⟩ := stageRepairRecordDone_valid (bad := bad) ha hst hw hv
    obtain ⟨t, ht, hstage, hlost, hlogs, hrest⟩ := answers_of_trainAll (start := s.start) hs he hwork
    exact ⟨t, ht, hstage, fun _ => ⟨fun e h => by rw [hlogs]; exact (hin e h).exists, hlost⟩, nofun, by rw [hlogs, hled], hrest⟩
  | false =>
    obtain ⟨a, he, hwork, hled, herr⟩ := stageRepairRecordDone_lost (bad := bad) ha hst hw hv
    obtain ⟨t, ht, hstage, hlost, hlogs, hrest⟩ := answers_of_trainAll hs he hwork
    exact ⟨t, ht, hstage, nofun, fun _ => ⟨hlost, by rwa [hlogs]⟩, by rw [hlogs, hled], hrest⟩
end

/-! ### What a context's fault changes (R275, R315, R581) -/

/-- `t` is `s` but for contexts, counters, operations, jobs, what the fabric carries, and what is recorded. -/
def FaultWork (s t : State) : Prop := t = { s with
  ctxs := t.ctxs, pts := t.pts, ops := t.ops, jobs := t.jobs, ports := t.ports, rxq := t.rxq, logs := t.logs, host := t.host, outbox := t.outbox }

section
variable {c k id n reason status : Nat} {b : List Byte} {d : Done} {p : Packet}

theorem FaultWork.refl : FaultWork s s := rfl

theorem FaultWork.trans (h : FaultWork s t) (h' : FaultWork t u) : FaultWork s u := by
  unfold FaultWork at h h' ⊢
  rw [h', h]

theorem FaultWork.recorded (h : FaultWork s t) (hr : Recorded t u) : FaultWork s u := by
  unfold FaultWork at h ⊢
  rw [hr, h]

theorem FaultWork.ite {q : Prop} [Decidable q] (ht : FaultWork s t) (hu : FaultWork s u) : FaultWork s (if q then t else u) := by
  split <;> assumption

theorem FaultWork.foldl {α : Type} {l : List α} {f : State → α → State} (h : FaultWork s t)
    (hf : ∀ {a x}, FaultWork s a → FaultWork s (f a x)) : FaultWork s (l.foldl f t) :=
  List.foldlRecOn l f h fun _ ha _ _ => hf ha

theorem FaultWork.modCtx {f : Context → Context} (h : FaultWork s t) : FaultWork s (t.modCtx c f) := h.trans (u := t.modCtx c f) rfl

theorem FaultWork.modQueue {f : Queue → Queue} (h : FaultWork s t) : FaultWork s (t.modQueue c k f) := h.modCtx

theorem FaultWork.modPt {f : Partition → Partition} (h : FaultWork s t) : FaultWork s (t.modPt k f) := h.trans (u := t.modPt k f) rfl

theorem FaultWork.modPort {f : FPort → FPort} (h : FaultWork s t) : FaultWork s (t.modPort k f) := h.trans (u := t.modPort k f) rfl

theorem FaultWork.modJob {f : Job → Job} (h : FaultWork s t) : FaultWork s (t.modJob id f) := h.trans (u := t.modJob id f) rfl

theorem FaultWork.emit {o : Output} (h : FaultWork s t) : FaultWork s (t.emit o) := h.trans (u := t.emit o) rfl

theorem FaultWork.transmit (h : FaultWork s t) : FaultWork s (t.transmit k b) :=
  .ite h.emit.modPort (.ite h.modPort.emit.modPort h.modPort)

theorem Recorded.logFabric (h : Recorded s t) : Recorded s (t.logFabric n k b) := by
  unfold State.logFabric
  extract_lets +onlyGivenNames key
  split
  · split
    exacts [h, h.withLogs.logErr rfl]
  · exact h.withLogs.logErr rfl

theorem FaultWork.logFabric (h : FaultWork s t) : FaultWork s (t.logFabric n k b) := h.recorded Recorded.refl.logFabric

theorem FaultWork.fwdDrop (h : FaultWork s t) : FaultWork s (t.fwdDrop k n) := .ite h.modPort.logFabric h

theorem FaultWork.stale (h : FaultWork s t) : FaultWork s (t.stale p) := by
  unfold State.stale
  extract_lets s1 c
  have hs1 : FaultWork s s1 := h.logFabric
  clear_value c
  split
  exacts [hs1.modCtx, hs1]

theorem FaultWork.deliverPacket (h : FaultWork s t) : FaultWork s (t.deliverPacket p) := by
  unfold State.deliverPacket
  extract_lets r heard s1
  have hs1 : FaultWork s s1 := h.trans rfl
  exact .ite (.ite hs1 hs1.stale) (hs1.trans (u := { s1 with rxq := _ }) rfl)

theorem FaultWork.sendPacket (h : FaultWork s t) : FaultWork s (t.sendPacket p) :=
  .ite h (.ite h.deliverPacket (.ite h (.ite h.fwdDrop h.transmit)))

theorem FaultWork.memberSend (h : FaultWork s t) : FaultWork s (t.memberSend id n k b) := by
  unfold State.memberSend State.memberSendAt
  split
  · exact h
  · split
    exacts [h, h.modJob.sendPacket]

theorem FaultWork.leaveJob (h : FaultWork s t) : FaultWork s (t.leaveJob id n) := by
  unfold State.leaveJob
  split
  exacts [h, (FaultWork.ite (h.foldl fun ha => ha.memberSend) h).modJob]

theorem FaultWork.endEntries {sel : Entry → Bool} (h : FaultWork s t) : FaultWork s (t.endEntries c k sel d) := h.foldl fun ha => ha.modQueue

theorem FaultWork.endStops (h : FaultWork s t) : FaultWork s (t.endStops c) := (h.foldl fun ha => ha.modQueue).modCtx

theorem FaultWork.endRun (h : FaultWork s t) : FaultWork s (t.endRun c reason status) := by
  unfold State.endRun
  split
  exacts [h.endStops, h.modQueue.modCtx.endStops]

theorem FaultWork.orphanWork (h : FaultWork s t) : FaultWork s (t.orphanWork c) := h.endEntries.endEntries.endEntries.modCtx

theorem FaultWork.markImports (h : FaultWork s t) : FaultWork s (t.markImports c n k) := h.trans (u := t.markImports c n k) rfl

theorem FaultWork.resumeObjects (h : FaultWork s t) : FaultWork s (t.resumeObjects c) :=
  ((h.foldl fun ha => ha.modPt.modCtx).modCtx).markImports

theorem FaultWork.faultCtx (h : FaultWork s t) : FaultWork s (t.faultCtx c reason status) := by
  unfold State.faultCtx
  extract_lets +onlyGivenNames x
  refine .ite h ?_
  extract_lets s1 s2 s3 s4
  have hs1 : FaultWork s s1 := h.endRun.modCtx
  have hs2 : FaultWork s s2 := by unfold s2; split; exacts [hs1.trans rfl, hs1]
  have hs3 : FaultWork s s3 := FaultWork.orphanWork hs2.endEntries
  have hs4 : FaultWork s s4 := hs3.resumeObjects
  split
  exacts [hs4.leaveJob, hs4]
end

/-! ### The LPDDR5X channels (R276, R278, R700) -/

section
variable {ch c cause g : Nat} {l : List Ch}

theorem State.breakChan_of_broke (h : (s.chan ch).broke = true) : s.breakChan ch cause g = s := if_pos h

/-- A good channel that breaks is broke and trained no longer; what follows from it changes no channel. -/
theorem State.breakChan_of_good (h : (s.chan ch).broke = false) :
    FaultWork (s.modChan ch fun x => { x with broke := true, trained := false }) (s.breakChan ch cause g) := by
  unfold State.breakChan
  rw [if_neg (by simp [h])]
  refine FaultWork.foldl (FaultWork.refl.recorded (Recorded.refl.addRepair.logErr rfl)) fun ha => ?_
  split
  · split
    exacts [ha.faultCtx, ha]
  · exact ha

/-- Beside channels, a channel that breaks changes what a context's fault changes. -/
theorem FaultWork.breakChan (h : FaultWork { s with chans := t.chans } t) :
    FaultWork { s with chans := (t.breakChan ch cause g).chans } (t.breakChan ch cause g) := by
  by_cases hb : (t.chan ch).broke = true
  · rwa [State.breakChan_of_broke hb]
  · have hg := State.breakChan_of_good (cause := cause) (g := g) (Bool.eq_false_iff.2 hb)
    unfold FaultWork at h hg ⊢
    rw [hg, State.modChan, h]

theorem State.breakChan_broke (hl : s.chans.length = 192) (hch : ch < 192) :
    ((s.breakChan ch cause g).chan c).broke = (decide (ch = c) || (s.chan c).broke) := by
  by_cases hb : (s.chan ch).broke = true
  · rw [State.breakChan_of_broke hb]
    by_cases hc : ch = c
    · simp [← hc, hb]
    · simp [hc]
  · have hg : (s.breakChan ch cause g).chan c = (s.modChan ch fun x => { x with broke := true, trained := false }).chan c := by
      rw [State.breakChan_of_good (Bool.eq_false_iff.2 hb)]
      rfl
    rw [hg]
    by_cases hc : ch = c
    · subst hc
      rw [State.chan_modChan_same s ch _ (by rwa [hl])]
      simp
    · rw [State.chan_modChan_other s ch c _ hc]
      simp [hc]

/-- The channels that stage 6 finds broke (R700). -/
def State.breakChans (s : State) (l : List Ch) : State := l.foldl (fun a (x : Ch) => a.breakChan x 7 0) s

theorem Shaped.breakChans (hs : Shaped s) : Shaped (s.breakChans l) := hs.foldl fun ha => ha.breakChan

theorem FaultWork.breakChans : FaultWork { s with chans := (s.breakChans l).chans } (s.breakChans l) :=
  List.foldlRecOn (motive := fun a : State => FaultWork { s with chans := a.chans } a) l _ FaultWork.refl fun _ ha _ _ => ha.breakChan

theorem State.breakChans_broke (hs : Shaped s) : ((s.breakChans l).chan c).broke = (decide (∃ x ∈ l, x.val = c) || (s.chan c).broke) := by
  induction l generalizing s with
  | nil => simp [State.breakChans]
  | cons x l ih =>
    have hx : (s.breakChans (x :: l)) = (s.breakChan x 7 0).breakChans l := rfl
    rw [hx, ih hs.breakChan, State.breakChan_broke hs.2.1 x.isLt, Bool.or_left_comm, ← Bool.or_assoc, ← Bool.decide_or]
    simp

/-- The start record when stage 6 or 7 has ended: stage 8 follows when both have (R694). -/
theorem State.joinStages_eq {n : Nat} : s.joinStages n = { s with
    start := { s.start with
      stage := if s.start.six && s.start.seven then 8 else if s.start.six then 7 else 6
      doneMs := s.start.doneMs.set (n - 1) (msOf (s.clk.life - s.clk.zero)) }
    clk := (s.joinStages n).clk } := rfl

@[simp] theorem settle_chan (k : Nat) : (settle s t).chan k = t.chan k := by simp [State.chan]

/-- Every channel that is not broke has trained; a cold start has cleared the memories, another has kept them (R276, R278, R700). -/
theorem stageLpddr5xDone_eq (ha : s.start.aux = true) (hw : s.start.warmDue = false) (hst : s.start.stage = 6 ∨ s.start.stage = 7)
    (h6 : s.start.six = false) : ∃ b : State, stageLpddr5xDone l s = b.joinStages 6 ∧
      b = { s.breakChans l with
        chans := b.chans, start := { (s.breakChans l).start with six := true }
        dram := if s.start.kind = 0 then [] else (s.breakChans l).dram, pool := if s.start.kind = 0 then [] else (s.breakChans l).pool } ∧
      ∀ c, c < (s.breakChans l).chans.length →
        (b.chan c).broke = ((s.breakChans l).chan c).broke ∧ (b.chan c).trained = !((s.breakChans l).chan c).broke := by
  refine ⟨_, if_neg (by rcases hst with h | h <;> simp [ha, hw, h6, h]), rfl, fun c hc => ?_⟩
  change c < (l.foldl (fun a (x : Ch) => a.breakChan x 7 0) s).chans.length at hc
  simp only [State.chan, State.breakChans, List.getD_eq_getElem?_getD, List.getElem?_mapIdx, List.getElem?_eq_getElem hc, Option.map_some,
    Option.getD_some, and_self]

theorem stageLpddr5xDone_answers (hs : Shaped s) (ha : s.start.aux = true) (hw : s.start.warmDue = false) (hst : s.start.stage = 6 ∨ s.start.stage = 7)
    (h6 : s.start.six = false) : Answers (.stageLpddr5xDone l) s fun t => t.start.six = true ∧ t.start.stage = (if s.start.seven then 8 else 7) ∧
      (∀ c, c < 192 → (t.chan c).broke = (decide (∃ x ∈ l, x.val = c) || (s.chan c).broke) ∧ (t.chan c).trained = !(t.chan c).broke) ∧
      t.dram = (if s.start.kind = 0 then [] else s.dram) ∧ t.pool = (if s.start.kind = 0 then [] else s.pool) ∧ t.tiles = s.tiles ∧
      t.mgmt = s.mgmt ∧ t.ident = s.ident := by
  obtain ⟨b, he, hb, hchan⟩ := stageLpddr5xDone_eq (l := l) ha hw hst h6
  have hf := FaultWork.breakChans (s := s) (l := l)
  have hbroke (c : Nat) := State.breakChans_broke (c := c) (l := l) hs
  rw [hs.breakChans.2.1] at hchan
  generalize s.breakChans l = a at *
  have hstart : b.start = { s.start with six := true } := by rw [hb, hf]
  refine answers_of (congrArg (nextOf s) he) ?_
  simp only [settle_start, settle_chan, settle_dram, settle_pool, settle_tiles, settle_mgmt, settle_ident]
  rw [State.joinStages_eq, hstart]
  refine ⟨rfl, by cases s.start.seven <;> rfl, fun c hc => ?_, ?_⟩
  · obtain ⟨h1, h2⟩ := hchan c hc
    exact ⟨h1.trans (hbroke c), h2.trans (congrArg not h1.symm)⟩
  · rw [hb, hf]
    exact ⟨rfl, rfl, rfl, rfl, rfl⟩
end

/-! ### The engines of the deckle dies, and the links (R457, R701) -/

section
variable {k kind d : Nat} {nf ef : List (Fin 6)} {out : Bool}

/-- The kinds of entry that mark a NIP (0x13) and an EC engine (0x14) unusable (R458). -/
def IsEngine (kind : Nat) : Prop := kind = 0x13 ∨ kind = 0x14

/-- The engine of a deckle die is marked unusable (R457). -/
def Dies.EngineGone (x : Dies) (kind d : Nat) : Prop := d ∈ if kind = 0x13 then x.nipOff else x.ecOff

/-- The repair record entry of an engine that fails its self-check. -/
def State.engineEntry (s : State) (kind d : Nat) : List Byte := s.repairEntry kind 0x0B ((0x20 + d) * 2 ^ 24) 0

theorem State.markEntry_engine (hk : IsEngine kind) (d : Fin 6) : s.markEntry (t.engineEntry kind d) = { s with dies :=
    if kind = 0x13 then { s.dies with nipOff := (s.dies.nipOff ++ [d.val]).eraseDups }
    else { s.dies with ecOff := (s.dies.ecOff ++ [d.val]).eraseDups } } := by
  have hloc : fieldAt (t.engineEntry kind d) 4 4 / 2 ^ 24 - 0x20 = d.val := by
    have h : fieldAt (t.engineEntry kind d) 4 4 = unle (le 4 ((0x20 + d.val) * 2 ^ 24)) := rfl
    rw [h]
    clear h
    revert d
    decide
  have hkind : fieldAt (t.engineEntry kind d) 0 1 = unle (le 1 kind) := rfl
  unfold State.markEntry
  rw [hkind]
  dsimp only
  rw [hloc]
  rcases hk with rfl | rfl <;> rfl

/-- Entries of engines repeat each other only where they are of one kind and one die. -/
theorem sameRepair_engineEntry {kind' : Nat} {d d' : Fin 6} (hk : IsEngine kind) (hk' : IsEngine kind')
    (h : sameRepair (s.engineEntry kind d) (t.engineEntry kind' d') = true) : kind = kind' ∧ d = d' := by
  obtain ⟨h1, h2⟩ := of_decide_eq_true h
  constructor
  · change BitVec.ofNat 8 (kind >>> 0) = BitVec.ofNat 8 (kind' >>> 0) at h1
    rcases hk with rfl | rfl <;> rcases hk' with rfl | rfl <;> simp_all
  · change le 4 ((0x20 + d.val) * 2 ^ 24) ++ le 4 0 = le 4 ((0x20 + d'.val) * 2 ^ 24) ++ le 4 0 at h2
    have h3 := List.append_cancel_right h2
    clear h h1 h2
    revert d d'
    decide

/-- Every engine whose entry is in force is marked. -/
def State.EnginesMarked (s : State) : Prop :=
  ∀ kind, IsEngine kind → ∀ d : Fin 6, s.InForce (s.engineEntry kind d) → s.dies.EngineGone kind d

/-- What is recorded of an engine leaves the marks as they are. -/
theorem State.EnginesMarked.of_same (h : s.EnginesMarked) (hl : t.logs.inForce = s.logs.inForce) (hd : t.dies = s.dies) : t.EnginesMarked := by
  intro kind hk d hin
  rw [hd]
  exact h kind hk d (State.InForce.of_logs (s := t) (e := s.engineEntry kind d) hin hl.symm)

theorem Dies.EngineGone.markEntry {d : Nat} {d' : Fin 6} {kind' : Nat} (hk : IsEngine kind) (h : s.dies.EngineGone kind' d) :
    (s.markEntry (t.engineEntry kind d')).dies.EngineGone kind' d := by
  rw [State.markEntry_engine hk]
  unfold Dies.EngineGone at h ⊢
  split_ifs at h ⊢ <;> simp_all

theorem State.markEntry_engineGone {d : Fin 6} (hk : IsEngine kind) : (s.markEntry (t.engineEntry kind d)).dies.EngineGone kind d := by
  rw [State.markEntry_engine hk]
  unfold Dies.EngineGone
  split_ifs <;> simp

theorem State.EnginesMarked.applyEntry {d : Fin 6} (hk : IsEngine kind) (h : s.EnginesMarked) : (s.applyEntry (s.engineEntry kind d)).EnginesMarked := by
  unfold State.applyEntry
  split
  · exact h
  · intro kind' hk' d' hin
    unfold State.InForce at hin
    rw [State.markEntry_logs] at hin
    rcases Bool.or_eq_true_iff.1 (List.any_append.symm.trans hin) with hold | hnew
    · exact Dies.EngineGone.markEntry hk (h kind' hk' d' hold)
    · rw [List.any_cons, List.any_nil, Bool.or_false] at hnew
      obtain ⟨rfl, rfl⟩ := sameRepair_engineEntry hk' hk hnew
      exact State.markEntry_engineGone hk

/-- An engine that fails its self-check is marked and recorded, if that has not been done (R457). -/
theorem State.engineOff_cases (kind d : Nat) : (s.InForce (s.engineEntry kind d) ∧ s.engineOff kind d = s) ∨
    (Recorded (s.applyEntry (s.engineEntry kind d)) (s.engineOff kind d) ∧
      (s.engineOff kind d).logs.inForce = (s.applyEntry (s.engineEntry kind d)).logs.inForce) := by
  unfold State.engineOff
  extract_lets loc e
  split
  · exact .inl ⟨by assumption, rfl⟩
  · refine .inr ⟨Recorded.refl.storeEntry.logErr rfl, ?_⟩
    rw [State.logErr_logs]
    exact State.storeEntry_logs.1

theorem State.EnginesMarked.engineOff {d : Fin 6} (hk : IsEngine kind) (h : s.EnginesMarked) :
    (s.engineOff kind d).EnginesMarked ∧ (s.engineOff kind d).dies.EngineGone kind d := by
  rcases s.engineOff_cases kind d with ⟨hin, he⟩ | ⟨hr, hl⟩
  · rw [he]
    exact ⟨h, h kind hk d hin⟩
  · have ha := h.applyEntry (d := d) hk
    have hd : (s.engineOff kind d).dies = (s.applyEntry (s.engineEntry kind d)).dies := by rw [hr]
    refine ⟨ha.of_same hl hd, ?_⟩
    rw [hd]
    exact ha kind hk d State.applyEntry_inForce

theorem Dies.EngineGone.engineOff {kind' d' : Nat} {d : Fin 6} (hk : IsEngine kind) (h : s.dies.EngineGone kind' d') :
    (s.engineOff kind d).dies.EngineGone kind' d' := by
  rcases s.engineOff_cases kind d with ⟨-, he⟩ | ⟨hr, -⟩
  · rwa [he]
  · rw [hr]
    unfold State.applyEntry
    split
    exacts [h, Dies.EngineGone.markEntry hk h]

/-- Beside the marks, an engine that fails is recorded and no more. -/
theorem Recorded.engineOff {d : Fin 6} (hk : IsEngine kind) (h : Recorded { s with dies := t.dies } t) :
    Recorded { s with dies := (t.engineOff kind d).dies } (t.engineOff kind d) := by
  rcases t.engineOff_cases kind d with ⟨-, he⟩ | ⟨hr, -⟩
  · rwa [he]
  · have ha : Recorded { s with dies := (t.applyEntry (t.engineEntry kind d)).dies } (t.applyEntry (t.engineEntry kind d)) := by
      unfold State.applyEntry
      split
      · exact h
      · rw [State.markEntry_engine hk]
        unfold Recorded at h ⊢
        rw [h]
    unfold Recorded at ha hr ⊢
    rw [hr, ha]

/-- The state once the engines that fail are marked. -/
def State.enginesOff (s : State) (nf ef : List (Fin 6)) : State :=
  ef.foldl (fun a (d : Fin 6) => a.engineOff 0x14 d) (nf.foldl (fun a (d : Fin 6) => a.engineOff 0x13 d) s)

theorem Recorded.enginesOff : Recorded { s with dies := (s.enginesOff nf ef).dies } (s.enginesOff nf ef) := by
  have h1 := List.foldlRecOn (motive := fun a : State => Recorded { s with dies := a.dies } a) nf (fun a (d : Fin 6) => a.engineOff 0x13 d)
    Recorded.refl fun _ ha _ _ => ha.engineOff (.inl rfl)
  exact List.foldlRecOn (motive := fun a : State => Recorded { s with dies := a.dies } a) ef _ h1 fun _ ha _ _ => ha.engineOff (.inr rfl)

theorem State.enginesOff_gone (h : s.logs.inForce = []) :
    (∀ d ∈ nf, d.val ∈ (s.enginesOff nf ef).dies.nipOff) ∧ ∀ d ∈ ef, d.val ∈ (s.enginesOff nf ef).dies.ecOff := by
  have h0 : s.EnginesMarked := fun kind _ d hin => by simp [State.InForce, h] at hin
  have h1 : (nf.foldl (fun a (d : Fin 6) => a.engineOff 0x13 d) s).EnginesMarked :=
    List.foldlRecOn (motive := State.EnginesMarked) nf _ h0 fun _ ha _ _ => (ha.engineOff (.inl rfl)).1
  have hn := foldl_each (f := fun a (d : Fin 6) => a.engineOff 0x13 d) (I := State.EnginesMarked) (R := fun d a => a.dies.EngineGone 0x13 d.val)
    (l := nf) (fun _ d _ ha => ha.engineOff (.inl rfl)) (fun _ _ _ hd => hd.engineOff (.inl rfl)) h0
  refine ⟨fun d hd => ?_, foldl_each (f := fun a (d : Fin 6) => a.engineOff 0x14 d) (I := State.EnginesMarked)
    (R := fun d a => a.dies.EngineGone 0x14 d.val) (fun _ d _ ha => ha.engineOff (.inr rfl)) (fun _ _ _ hd => hd.engineOff (.inr rfl)) h1⟩
  exact List.foldlRecOn (motive := fun a : State => a.dies.EngineGone 0x13 d.val) ef _ (hn d hd) fun _ ha _ _ => ha.engineOff (.inr rfl)

theorem State.linksSettled_iff : (s.ports.all fun (x : FPort) => decide (x.st = .up) || decide (x.st = .failed)) = true ↔
    ∀ x ∈ s.ports, x.st = .up ∨ x.st = .failed := by
  simp

/-- Stage 7 ends when every port is UP or FAILED, or at its maximum (R701). -/
theorem stageLinksDone_ends (ha : s.start.aux = true) (hw : s.start.warmDue = false) (hst : s.start.stage = 6 ∨ s.start.stage = 7)
    (h7 : s.start.seven = false)
    (he : (∀ x ∈ s.ports, x.st = .up ∨ x.st = .failed) ∨ (out = true ∧ s.clk.stageZero + 52 * cycPerSec ≤ s.clk.life)) :
    stageLinksDone nf ef out s = State.joinStages { s.enginesOff nf ef with start := { (s.enginesOff nf ef).start with seven := true } } 7 := by
  rw [← State.linksSettled_iff] at he
  refine if_neg ?_
  rintro (h | ⟨h6, h7⟩ | h | h | ⟨hns, hlate⟩)
  · simp [ha] at h
  · exact hst.elim h6 h7
  · simp [h7] at h
  · simp [hw] at h
  · rcases he with he | ⟨rfl, ht⟩
    · simp [he] at hns
    · exact hlate.elim (by simp) ht.not_gt

theorem stageLinksDone_answers (ha : s.start.aux = true) (hw : s.start.warmDue = false) (hst : s.start.stage = 6 ∨ s.start.stage = 7)
    (h7 : s.start.seven = false)
    (he : (∀ x ∈ s.ports, x.st = .up ∨ x.st = .failed) ∨ (out = true ∧ s.clk.stageZero + 52 * cycPerSec ≤ s.clk.life)) :
    Answers (.stageLinksDone nf ef out) s fun t => t.start.seven = true ∧ t.start.stage = (if s.start.six then 8 else 6) ∧
      (s.logs.inForce = [] → (∀ d ∈ nf, d.val ∈ t.dies.nipOff) ∧ ∀ d ∈ ef, d.val ∈ t.dies.ecOff) ∧ t.ports = s.ports ∧ t.ctxs = s.ctxs ∧
      SameMemory s t ∧ t.mgmt = s.mgmt := by
  have hr := Recorded.enginesOff (s := s) (nf := nf) (ef := ef)
  have hgone := State.enginesOff_gone (s := s) (nf := nf) (ef := ef)
  refine answers_of (congrArg (nextOf s) (stageLinksDone_ends ha hw hst h7 he)) ?_
  generalize s.enginesOff nf ef = a at *
  have hstart : a.start = s.start := by rw [hr]
  simp only [settle_start, settle_dies, settle_ports, settle_ctxs, settle_mgmt]
  rw [State.joinStages_eq, hstart]
  refine ⟨rfl, by cases s.start.six <;> rfl, hgone, ?_⟩
  rw [hr]
  exact ⟨rfl, rfl, SameMemory.settle ⟨rfl, rfl, rfl, rfl⟩, rfl⟩

theorem stageLinksDone_waits (hx : ∃ x ∈ s.ports, x.st ≠ .up ∧ x.st ≠ .failed) (ht : out = false ∨ s.clk.life < s.clk.stageZero + 52 * cycPerSec) :
    stageLinksDone nf ef out s = s := by
  have hs : (s.ports.all fun (x : FPort) => decide (x.st = .up) || decide (x.st = .failed)) = false := by
    simpa using hx
  refine if_pos (.inr (.inr (.inr (.inr ⟨by simpa using hs, ?_⟩))))
  exact ht.imp_left fun h => by simp [h]
end

/-! ### The sheet maps (R67, R82, R454) -/

section
variable {x : Sheet} {n : Nat}

/-- The starting roles of a sheet with neither a broke nor a fenced column: the spare roves at PC0, and one stands at PC17. -/
theorem Sheet.startRoles_of_whole (hns : x.ns = []) (hh : x.health = 0) :
    x.startRoles = { x with rove := some 0, stand := some 17, down := false } := by
  have hleg : ({ x with rove := none, stand := some 17, down := false } : Sheet).legal 0 = true := by
    have hns' : ({ x with rove := none, stand := some 17, down := false } : Sheet).ns = [] := hns
    simp [Sheet.legal, hns']
  have hfind : (List.range 18).find? ({ x with rove := none, stand := some 17, down := false } : Sheet).legal = some 0 :=
    List.find?_range_eq_some.2 ⟨hleg, by simp, fun j hj => absurd hj (Nat.not_lt_zero j)⟩
  have hh' : ({ x with rove := none, stand := some 17, down := false } : Sheet).health = 0 := hh
  unfold Sheet.startRoles
  simp only [hns, List.isEmpty_nil, if_true, hh', hfind]

/-- Spares in their starting places stay there. -/
theorem placeSpares_of_start (hns : x.ns = []) (hh : x.health = 0) (hr : x.rove = some 0) (hs : x.stand = some 17) : placeSpares x = x := by
  have hy : ({ x with rove := some 0, stand := some 17 } : Sheet) = x := by rw [← hr, ← hs]
  have hl : x.legal 0 = true := by simp [Sheet.legal, hns, hs]
  unfold placeSpares
  rw [hh, hns]
  simp [hr, hy, hl]

/-- The map of a whole sheet at start-up. -/
theorem mapOf_of_whole (hns : x.ns = []) (hh : x.health = 0) : mapOf x (some 0) (some 17) = (List.range 16).map fun c => some (c + 1) := by
  have hlive : ((List.range 18).filter fun c => x.free? c && decide (some 0 ≠ some c) && decide (some 17 ≠ some c)) = (List.range 16).map (· + 1) := by
    simp only [Sheet.free?, hns]
    decide
  unfold mapOf
  rw [hlive, if_neg (by simp [hh]), List.map_map]
  rfl

theorem windowEnd_of_whole (hns : x.ns = []) (hh : x.health = 0) : (windowEnd Sheet.startRoles x).rove = some 0 ∧
    (windowEnd Sheet.startRoles x).stand = some 17 ∧ (windowEnd Sheet.startRoles x).map = (List.range 16).map fun c => some (c + 1) := by
  have hp : placeSpares x.startRoles = { x with rove := some 0, stand := some 17, down := false } := by
    rw [Sheet.startRoles_of_whole hns hh]
    exact placeSpares_of_start hns hh rfl rfl
  unfold windowEnd install
  dsimp only
  rw [hp]
  exact ⟨rfl, rfl, mapOf_of_whole (x := { x with rove := some 0, stand := some 17, down := false }) hns hh⟩

theorem placeSpares_of_degraded (hh : x.health = 2) : placeSpares x = { x with rove := none, stand := none } := by
  unfold placeSpares
  rw [hh]
  rfl

theorem Sheet.startRoles_health : x.startRoles.health = x.health := by
  unfold Sheet.startRoles
  extract_lets y
  split <;> rfl

/-- A DEGRADED sheet has neither a spare nor a map (R82). -/
theorem windowEnd_of_degraded (hh : x.health = 2) : (windowEnd Sheet.startRoles x).rove = none ∧
    (windowEnd Sheet.startRoles x).map = List.replicate 16 none := by
  have hp : placeSpares x.startRoles = { x.startRoles with rove := none, stand := none } :=
    placeSpares_of_degraded (Sheet.startRoles_health.trans hh)
  have hm : mapOf { x.startRoles with rove := none, stand := none } none none = List.replicate 16 none :=
    if_pos (.inl (Sheet.startRoles_health.trans hh))
  unfold windowEnd install
  dsimp only
  rw [hp]
  exact ⟨rfl, hm⟩

theorem stageSheetMapsDone_answers (hs : Shaped s) (ha : s.start.aux = true) (hw : s.start.warmDue = false) (hst : s.start.stage = 8) :
    Answers .stageSheetMapsDone s fun t => t.start.stage = 9 ∧ (∀ n, n < 24 → (t.sheet n).gen = 1 ∧ (t.sheet n).dwell = none ∧
        ((s.sheet n).ns = [] → (s.sheet n).health = 0 → (t.sheet n).rove = some 0 ∧ (t.sheet n).stand = some 17 ∧
          (t.sheet n).map = (List.range 16).map fun c => some (c + 1)) ∧
        ((s.sheet n).health = 2 → (t.sheet n).rove = none ∧ (t.sheet n).map = List.replicate 16 none)) ∧
      t.ctxs = s.ctxs ∧ SameMemory s t ∧ t.mgmt = s.mgmt ∧ t.ident = s.ident := by
  have he : stageSheetMapsDone s = _ := if_neg (by simp [ha, hw, hst])
  refine answers_of (congrArg (nextOf s) he) ?_
  rw [settle_start, settle_ctxs, settle_mgmt, settle_ident]
  refine ⟨rfl, fun n hn => ?_, rfl, SameMemory.settle ⟨rfl, rfl, rfl, rfl⟩, rfl, rfl⟩
  have hl : n < s.sheets.length := hs.sheetsOnly hn
  have hsheet : (State.endStage { s with sheets := s.sheets.map fun x => { windowEnd Sheet.startRoles x with gen := 1, dwellDue := none } } 8 9).sheet n =
      { windowEnd Sheet.startRoles (s.sheet n) with gen := 1, dwellDue := none } := by
    simp [State.endStage, State.sheet, List.getD_eq_getElem?_getD, hl]
  rw [settle_sheet, hsheet]
  exact ⟨rfl, rfl, windowEnd_of_whole, windowEnd_of_degraded⟩
end

/-! ### Contexts alone change -/

/-- `t` is `s` but for its contexts. -/
def CtxsOnly (s t : State) : Prop := t = { s with ctxs := t.ctxs }

section
variable {c k p ix : Nat} {n : W32}

theorem CtxsOnly.refl : CtxsOnly s s := rfl

theorem CtxsOnly.foldl {α : Type} {l : List α} {f : State → α → State} (h : CtxsOnly s t)
    (hf : ∀ {a x}, CtxsOnly s a → CtxsOnly s (f a x)) : CtxsOnly s (l.foldl f t) :=
  List.foldlRecOn l f h fun _ ha _ _ => hf ha

theorem CtxsOnly.ite {q : Prop} [Decidable q] (ht : CtxsOnly s t) (hu : CtxsOnly s u) : CtxsOnly s (if q then t else u) := by
  split <;> assumption

theorem CtxsOnly.withCtxs {l : List Context} (h : CtxsOnly s t) : CtxsOnly s { t with ctxs := l } := by
  unfold CtxsOnly at h ⊢
  rw [h]

theorem CtxsOnly.modCtx {f : Context → Context} (h : CtxsOnly s t) : CtxsOnly s (t.modCtx c f) := h.withCtxs

theorem CtxsOnly.modEntry {f : Entry → Entry} (h : CtxsOnly s t) : CtxsOnly s (t.modEntry c k n f) := h.modCtx

theorem CtxsOnly.keepMet {sel : Nat → Bool} (h : CtxsOnly s t) : CtxsOnly s (t.keepMet c sel) := h.foldl fun ha => ha.modEntry

theorem CtxsOnly.orphanWaits {sel : Nat → Bool} (h : CtxsOnly s t) : CtxsOnly s (t.orphanWaits c sel) :=
  h.keepMet.foldl fun ha => ha.modEntry.modCtx

theorem CtxsOnly.orphanCounterWaits (h : CtxsOnly s t) : CtxsOnly s (t.orphanCounterWaits p ix) := h.foldl fun ha => ha.orphanWaits

theorem CtxsOnly.orphan {sel : SyncEnt → Bool} (h : CtxsOnly s t) : CtxsOnly s (t.orphan p ix sel) := h.withCtxs

/-- A queue that a reset stops is logged nowhere (R333). -/
theorem CtxsOnly.stopQueue_reset (h : CtxsOnly s t) : CtxsOnly s (t.stopQueue c k 1) := by
  unfold State.stopQueue
  extract_lets q f s1
  rw [if_neg (by decide)]
  exact h.modCtx
end

/-! ### What the power states of partitions change (R673, R696) -/

section
variable {p c : Nat}

theorem State.pt_modPt_or {q : Nat} {f : Partition → Partition} : (s.modPt p f).pt q = f (s.pt q) ∨ (s.modPt p f).pt q = s.pt q := by
  by_cases hq : p = q
  · subst hq
    by_cases hp : p < s.pts.length
    · exact .inl (State.pt_modPt_same s p f hp)
    · right
      simp [State.pt, State.modPt, List.getD_eq_getElem?_getD, Nat.not_lt.1 hp]
  · exact .inr (State.pt_modPt_other s p q f hq)

/-- `t` is `s` but for partitions, channels, sheets, what the dies hold, contexts and outputs; PERF is as it was, and so are the contexts where
no counter could be lost. -/
structure PowerWork (s t : State) : Prop where
  frame : t = { s with pts := t.pts, chans := t.chans, sheets := t.sheets, tiles := t.tiles, flights := t.flights, crossing := t.crossing
                       ctxs := t.ctxs, outbox := t.outbox }
  perf : ∀ q, (t.pt q).perf = (s.pt q).perf
  counters : (∀ q, (s.pt q).counters = []) → ∀ q, (t.pt q).counters = []
  ctxs : (∀ q, (s.pt q).counters = []) → t.ctxs = s.ctxs

theorem PowerWork.refl : PowerWork s s := ⟨rfl, fun _ => rfl, id, fun _ => rfl⟩

theorem PowerWork.trans (h : PowerWork s t) (h' : PowerWork t u) : PowerWork s u where
  frame := by rw [h'.frame, h.frame]
  perf q := (h'.perf q).trans (h.perf q)
  counters hc := h'.counters (h.counters hc)
  ctxs hc := (h'.ctxs (h.counters hc)).trans (h.ctxs hc)

theorem PowerWork.ite {q : Prop} [Decidable q] (ht : PowerWork s t) (hu : PowerWork s u) : PowerWork s (if q then t else u) := by
  split <;> assumption

theorem PowerWork.foldl {α : Type} {l : List α} {f : State → α → State} (h : PowerWork s t)
    (hf : ∀ {a x}, PowerWork s a → PowerWork s (f a x)) : PowerWork s (l.foldl f t) :=
  List.foldlRecOn l f h fun _ ha _ _ => hf ha

/-- A change that leaves partitions and contexts alone. -/
theorem PowerWork.of_frame (h : t = { s with chans := t.chans, sheets := t.sheets, tiles := t.tiles, flights := t.flights, crossing := t.crossing
                                             outbox := t.outbox }) : PowerWork s t where
  frame := by rw [h]
  perf _ := by rw [h]; rfl
  counters hc q := by rw [h]; exact hc q
  ctxs _ := by rw [h]

theorem PowerWork.modPt {f : Partition → Partition} (h : PowerWork s t) (hp : ∀ x, (f x).perf = x.perf := by intro; rfl)
    (hc : ∀ x, x.counters = [] → (f x).counters = [] := by intro _ h; exact h) : PowerWork s (t.modPt p f) :=
  h.trans {
    frame := rfl
    perf := fun q => State.pt_modPt_or.elim (fun e => by rw [e, hp]) fun e => by rw [e]
    counters := fun hn q => State.pt_modPt_or.elim (fun e => by rw [e]; exact hc _ (hn q)) fun e => by rw [e]; exact hn q
    ctxs := fun _ => rfl }

theorem PowerWork.modSheet {f : Sheet → Sheet} (h : PowerWork s t) : PowerWork s (t.modSheet c f) := h.trans (.of_frame rfl)

theorem PowerWork.modChan {f : Chan → Chan} (h : PowerWork s t) : PowerWork s (t.modChan c f) := h.trans (.of_frame rfl)

theorem PowerWork.emit {o : Output} (h : PowerWork s t) : PowerWork s (t.emit o) := h.trans (.of_frame rfl)

theorem PowerWork.abandonDwell (h : PowerWork s t) : PowerWork s (t.abandonDwell c) := h.modSheet

theorem PowerWork.selfRefresh {b : Bool} (h : PowerWork s t) : PowerWork s (t.selfRefresh p b) := h.foldl fun ha => ha.modChan

theorem PowerWork.dwellsDue (h : PowerWork s t) : PowerWork s (t.dwellsDue p) := h.foldl fun ha => ha.modSheet

theorem PowerWork.setRail {on : Bool} (h : PowerWork s t) : PowerWork s (t.setRail p on) := .ite h.modPt h.modPt.emit

theorem PowerWork.wakePt (h : PowerWork s t) : PowerWork s (t.wakePt p) := h.setRail.modPt.selfRefresh.dwellsDue

theorem PowerWork.sleepPt (h : PowerWork s t) : PowerWork s (t.sleepPt p) := (h.foldl fun ha => ha.abandonDwell).setRail.modPt

/-- The loss of the counters of a partition reaches contexts alone, and none where there is no counter (R413). -/
theorem PowerWork.loseCounters (h : PowerWork s t) : PowerWork s (t.loseCounters p) := by
  refine h.trans ?_
  unfold State.loseCounters
  extract_lets saved lost s1 s2
  have hs2 : CtxsOnly t s2 := (CtxsOnly.refl.foldl fun ha => ha.orphanCounterWaits).foldl fun ha => ha.orphan
  have hnone (hc : ∀ q, (t.pt q).counters = []) : s2 = t := by
    have hl : lost = [] := by simp [lost, hc p]
    simp [s2, s1, hl]
  have hw : PowerWork t s2 := {
    frame := by rw [hs2]
    perf := fun q => by rw [hs2]; rfl
    counters := fun hc q => by rw [hnone hc]; exact hc q
    ctxs := fun hc => by rw [hnone hc] }
  exact hw.modPt (hc := fun x hx => by simp [hx])

theorem PowerWork.darken (h : PowerWork s t) : PowerWork s (t.darken p) :=
  ((h.trans (.of_frame rfl)).loseCounters).foldl fun ha => ha.abandonDwell

theorem PowerWork.offPt {b : Bool} (h : PowerWork s t) : PowerWork s (t.offPt p b) := h.darken.selfRefresh.setRail.modPt

theorem PowerWork.powerDefault (h : PowerWork s t) : PowerWork s (t.powerDefault p) := .ite h.offPt (.ite h.sleepPt.selfRefresh h.wakePt)
end

/-! ### Firmware that accepts commands (R292, R631, R703) -/

section
variable {i : Nat} {r : Resp} {tag : Byte} {op : Option Nat} {st : Nat} {d : List Byte}

/-- `t` is `s` but for the mailbox, the sideband and operations; FW_READY is as it was, and a cause that was raised still is. -/
structure ReportWork (s t : State) : Prop where
  frame : t = { s with host := t.host, fresh := t.fresh, side := t.side, ops := t.ops, outbox := t.outbox }
  fwReady : t.host.fwReady = s.host.fwReady
  cause : ∀ j, s.host.cause.getLsbD j = true → t.host.cause.getLsbD j = true

theorem ReportWork.refl : ReportWork s s := ⟨rfl, rfl, fun _ h => h⟩

theorem ReportWork.trans (h : ReportWork s t) (h' : ReportWork t u) : ReportWork s u where
  frame := by rw [h'.frame, h.frame]
  fwReady := h'.fwReady.trans h.fwReady
  cause j hj := h'.cause j (h.cause j hj)

/-- A change that leaves causes and FW_READY alone. -/
theorem ReportWork.of_frame (h : t = { s with host := t.host, fresh := t.fresh, side := t.side, ops := t.ops, outbox := t.outbox })
    (hf : t.host.fwReady = s.host.fwReady) (hc : t.host.cause = s.host.cause) : ReportWork s t := ⟨h, hf, fun _ hj => by rwa [hc]⟩

theorem ReportWork.raise (h : ReportWork s t) : ReportWork s (t.raise i) :=
  h.trans {
    frame := by rw [(State.raise_eq t i).1]
    fwReady := State.raise_host_fwReady t i
    cause := fun j hj => by rw [(State.raise_eq t i).1]; simp [hj] }

theorem State.raise_cause_fwReady : (s.raise 4).host.cause.getLsbD 4 = true := by
  rw [(State.raise_eq s 4).1]
  simp

theorem ReportWork.complete (h : ReportWork s t) : ReportWork s (complete (t, r)) := ReportWork.raise (h.trans (.of_frame rfl rfl rfl))

theorem ReportWork.respond (h : ReportWork s t) : ReportWork s (State.respond (t, r) tag) := h.trans (.of_frame rfl rfl rfl)

theorem ReportWork.cutCommands (h : ReportWork s t) : ReportWork s t.cutCommands := by
  unfold State.cutCommands
  extract_lets s1
  have hs1 : ReportWork s s1 := by
    unfold s1
    split
    exacts [h.complete, h]
  split
  exacts [hs1.respond, hs1]

theorem ReportWork.finishOp? (h : ReportWork s t) : ReportWork s (t.finishOp? op st d) := by
  unfold State.finishOp?
  split
  · unfold State.finishOp
    split
    · exact h
    · split
      exacts [h, ReportWork.raise (h.trans (.of_frame rfl rfl rfl))]
  · exact h

theorem State.readyUp_eq : ReportWork { s with host := { s.host with fwReady := true } } s.readyUp ∧ s.readyUp.host.cause.getLsbD 4 = true :=
  ⟨ReportWork.refl.raise.cutCommands, ReportWork.refl.cutCommands.cause 4 State.raise_cause_fwReady⟩
end

/-! ### Mailbox ready (R703, R704) -/

/-- A reset of the function reaches the host's interface and the contexts alone (R283, R333). -/
theorem functionLevelReset_frame (s : State) : ∃ h cs, functionLevelReset s = { s with host := h, ctxs := cs } := by
  unfold functionLevelReset
  extract_lets h s1
  split
  · exact ⟨s.host, s.ctxs, rfl⟩
  · have hf : CtxsOnly s1 ((List.range 64).foldl (fun a c => (List.range 16).foldl (fun b k =>
        if (b.queue c k).enabled ∧ !(b.queue c k).stopped then b.stopQueue c k 1 else b) a) s1) :=
      CtxsOnly.refl.foldl fun ha => ha.foldl fun ha1 => .ite ha1.stopQueue_reset ha1
    exact ⟨_, _, hf⟩

theorem State.modPt_frame {p : Nat} {f : Partition → Partition} (h : t = { s with pts := t.pts }) :
    t.modPt p f = { s with pts := (t.modPt p f).pts } := by
  rw [h]
  rfl

/-- The partitions take their performance levels and classes from the settings. -/
def State.setLevels (s : State) : State := (List.range 8).foldl (fun a p => a.modPt p fun x => { x with
  perf := a.settingNat 0x12, classN := (a.settingNat 0x14).testBit p }) s

theorem State.settingNat_congr {id : Nat} (h : t.mgmt = s.mgmt) : t.settingNat id = s.settingNat id := by
  unfold State.settingNat State.setting
  rw [h]

theorem State.setLevels_eq : s.setLevels = { s with pts := s.setLevels.pts } :=
  List.foldlRecOn (motive := fun a : State => a = { s with pts := a.pts }) _ _ rfl fun _ ha _ _ => State.modPt_frame ha

theorem State.setLevels_counters (h : ∀ q, (s.pt q).counters = []) (q : Nat) : (s.setLevels.pt q).counters = [] :=
  List.foldlRecOn (motive := fun a : State => (a.pt q).counters = []) _ _ (h q) fun a ha p _ =>
    State.pt_modPt_or.elim (fun e => by rw [e]; exact ha) fun e => by rw [e]; exact ha

theorem State.setLevels_perf (h : s.pts.length = 8) {p : Nat} (hp : p < 8) : (s.setLevels.pt p).perf = s.settingNat 0x12 := by
  have hm : s.setLevels.mgmt = s.mgmt := by rw [State.setLevels_eq]
  refine foldl_each (I := fun a => a.pts.length = 8) (R := fun p a => a.mgmt = s.mgmt → (a.pt p).perf = s.settingNat 0x12)
    (fun a q hq hl => ⟨by simpa using hl, fun hg => ?_⟩) (fun a q r ha hg => ?_) h p (List.mem_range.2 hp) hm
  · rw [State.pt_modPt_same a q _ (by rw [hl]; exact List.mem_range.1 hq)]
    exact State.settingNat_congr hg
  · rcases State.pt_modPt_or (s := a) (p := q) (q := r) with e | e
    · rw [e]
      exact State.settingNat_congr hg
    · rw [e]
      exact ha hg

/-- The fuses of SVN that are blown when firmware accepts commands (R631). -/
def State.blownIdent (s : State) : Ident := if s.mgmt.forceSvn then { s.ident with svn := max s.ident.svn s.mgmt.runSvn } else s.ident

theorem State.blownIdent_of_unforced (h : s.mgmt.forceSvn = false) : s.blownIdent = s.ident := if_neg (by simp [h])

theorem State.le_blownIdent_svn : s.ident.svn ≤ s.blownIdent.svn := by
  unfold State.blownIdent
  split
  exacts [le_max_left .., le_rfl]

theorem State.fwUp_eq : ReportWork { s with ident := s.blownIdent, host := { s.host with fwReady := true } } s.fwUp ∧
    s.fwUp.host.cause.getLsbD 4 = true := by
  have he : s.fwUp = State.readyUp { s with ident := s.blownIdent } := by
    unfold State.fwUp State.blownIdent
    split <;> rfl
  rw [he]
  exact State.readyUp_eq (s := { s with ident := s.blownIdent })

/-- At mailbox ready the host's sessions and the cache are gone, but for a start-up after a reset of the function alone. -/
def State.freshSessions (s : State) : State := if s.start.kind = 2 then functionLevelReset s else { s with sessions := [], cache := [] }

/-- The pool takes its channels again. -/
def State.freshPool (s : State) : State := { s.freshSessions with poolChans := s.freshSessions.takePool }

theorem State.freshPool_frame (s : State) :
    ∃ h cs l m ps, s.freshPool = { s with host := h, ctxs := cs, sessions := l, cache := m, poolChans := ps } := by
  unfold State.freshPool State.freshSessions
  split
  · obtain ⟨h, cs, he⟩ := functionLevelReset_frame s
    exact ⟨h, cs, s.sessions, s.cache, _, by rw [he]⟩
  · exact ⟨s.host, s.ctxs, [], [], _, rfl⟩

theorem State.freshPool_of_reset (h : s.start.kind ≠ 2) : ∃ ps, s.freshPool = { s with sessions := [], cache := [], poolChans := ps } := by
  unfold State.freshPool State.freshSessions
  rw [if_neg h]
  exact ⟨_, rfl⟩

/-- The partitions take the power states that the settings give, but for those whose rail failed or that tripped (R703). -/
def State.startPower (s : State) : State :=
  (List.range 8).foldl (fun a p => if ((a.pt p).en ∧ !(a.pt p).pg) ∨ (a.pt p).tripAt.isSome then a else a.powerDefault p) s

theorem State.startPower_work : PowerWork s s.startPower := PowerWork.refl.foldl fun ha => .ite ha ha.powerDefault

/-- The state in which start-up ends, before firmware reports it. -/
def State.startedUp (s : State) : State :=
  let a := s.freshPool.setLevels.startPower
  State.endStage { a with start := { a.start with handles := true, pwrOp := none } } 9 0xA

theorem mailboxReady_eq (ha : s.start.aux = true) (hw : s.start.warmDue = false) (hst : s.start.stage = 9) :
    ∃ op, mailboxReady s = (s.startedUp.finishOp? op ok []).fwUp := by
  unfold mailboxReady
  rw [if_neg (by simp [ha, hw, hst])]
  extract_lets s1 s2 s3 s4 op _ s5
  have h3 : s.freshPool.setLevels = s3 := rfl
  have h4 : s3.startPower = s4 := rfl
  have h5 : s.startedUp = s5 := by
    unfold State.startedUp
    rw [h3, h4]
  exact ⟨op, by rw [h5]⟩

/-- What start-up has brought about at its end, before firmware reports it. -/
structure StartedUp (s t : State) : Prop where
  stage : t.start.stage = 0xA
  handles : t.start.handles = true
  pwrOp : t.start.pwrOp = none
  perf : ∀ p, p < 8 → (t.pt p).perf = s.settingNat 0x12
  sessions : s.start.kind ≠ 2 → t.sessions = []
  ctxs : s.start.kind ≠ 2 → (∀ p, p < 8 → (s.pt p).counters = []) → t.ctxs = s.ctxs
  dram : t.dram = s.dram
  pool : t.pool = s.pool
  mgmt : t.mgmt = s.mgmt

theorem Shaped.pts_length (h : Shaped s) : s.pts.length = 8 := h.1

theorem Shaped.counters_eq_nil (h : Shaped s) (hc : ∀ p, p < 8 → (s.pt p).counters = []) (p : Nat) : (s.pt p).counters = [] := by
  by_cases hp : p < 8
  · exact hc p hp
  · simp [State.pt, List.getD_eq_getElem?_getD, h.pts_length, Nat.not_lt.1 hp]

theorem Shaped.startedUp (hs : Shaped s) : StartedUp s s.startedUp ∧ s.startedUp.ident = s.ident := by
  obtain ⟨h, cs, l, m, ps, hb⟩ := s.freshPool_frame
  have hkind := State.freshPool_of_reset (s := s)
  unfold State.startedUp
  generalize s.freshPool = b at hb hkind
  have hl := State.setLevels_eq (s := b)
  have hp := State.startPower_work (s := b.setLevels)
  have hperf {p : Nat} (h : p < 8) := State.setLevels_perf (s := b) (by rw [hb]; exact hs.pts_length) h
  have hcount := State.setLevels_counters (s := b)
  generalize b.setLevels = c at hl hp hperf hcount
  generalize c.startPower = a at hp
  have hmgmt : b.mgmt = s.mgmt := by rw [hb]
  have hcounters (hc : ∀ p, p < 8 → (s.pt p).counters = []) (p : Nat) : (b.pt p).counters = [] := by
    rw [hb]
    exact hs.counters_eq_nil hc p
  have hctxs (hc : ∀ p, p < 8 → (s.pt p).counters = []) : a.ctxs = b.ctxs := by
    rw [hp.ctxs (hcount (hcounters hc)), hl]
  have hsess : a.sessions = b.sessions := by rw [hp.frame, hl]
  have hrest : a.ident = s.ident ∧ a.dram = s.dram ∧ a.pool = s.pool ∧ a.mgmt = s.mgmt := by
    rw [hp.frame, hl, hb]
    exact ⟨rfl, rfl, rfl, rfl⟩
  obtain ⟨hident, hdram, hpool, hm⟩ := hrest
  refine ⟨⟨rfl, rfl, rfl, fun p h => ?_, fun hk => ?_, fun hk hc => ?_, hdram, hpool, hm⟩, hident⟩
  · exact (hp.perf p).trans ((hperf h).trans (State.settingNat_congr hmgmt))
  · obtain ⟨ps, hf⟩ := hkind hk
    exact hsess.trans (by rw [hf])
  · obtain ⟨ps, hf⟩ := hkind hk
    exact (hctxs hc).trans (by rw [hf])

theorem mailboxReady_answers (hs : Shaped s) (ha : s.start.aux = true) (hw : s.start.warmDue = false) (hst : s.start.stage = 9) :
    Answers .mailboxReady s fun t => t.start.stage = 0xA ∧ t.start.handles = true ∧ t.host.fwReady = true ∧ t.host.cause.getLsbD 4 = true ∧
      t.start.pwrOp = none ∧ (∀ p, p < 8 → (t.pt p).perf = s.settingNat 0x12) ∧
      (s.start.kind ≠ 2 → t.sessions = [] ∧ ((∀ p, p < 8 → (s.pt p).counters = []) → t.ctxs = s.ctxs)) ∧
      (s.mgmt.forceSvn = false → t.ident = s.ident) ∧ s.ident.svn ≤ t.ident.svn ∧ t.dram = s.dram ∧ t.pool = s.pool ∧ t.mgmt = s.mgmt := by
  obtain ⟨op, he⟩ := mailboxReady_eq ha hw hst
  refine answers_of (congrArg (nextOf s) he) ?_
  obtain ⟨hu, hident⟩ := hs.startedUp
  generalize s.startedUp = a at hu hident
  have hr : ReportWork a (a.finishOp? op ok []) := ReportWork.refl.finishOp?
  generalize a.finishOp? op ok [] = b at hr
  obtain ⟨hf, hcause⟩ := State.fwUp_eq (s := b)
  generalize b.fwUp = c at hf hcause
  have hready : c.host.fwReady = true := hf.fwReady
  have hblown : b.blownIdent = s.blownIdent := by
    unfold State.blownIdent
    rw [hr.frame]
    dsimp only
    rw [hident, hu.mgmt]
  have hframe : c = { a with ident := s.blownIdent, host := c.host, fresh := c.fresh, side := c.side, ops := c.ops, outbox := c.outbox } := by
    rw [hf.frame, hblown, hr.frame]
  obtain ⟨-, -, hsettled, -⟩ := settled s c
  have hbit : (settle s c).host.cause.getLsbD 4 = true := by
    rcases hsettled with h | h <;> simp [h, hcause]
  simp only [settle_start, settle_pt, settle_sessions, settle_ctxs, settle_ident, settle_dram, settle_pool, settle_mgmt, settle_host_fwReady]
  refine ⟨?_, ?_, hready, hbit, ?_⟩ <;> rw [hframe]
  · exact hu.stage
  · exact hu.handles
  · exact ⟨hu.pwrOp, hu.perf, fun hk => ⟨hu.sessions hk, hu.ctxs hk⟩, State.blownIdent_of_unforced, State.le_blownIdent_svn, hu.dram, hu.pool, hu.mgmt⟩

/-! ### A start-up that halts, and stages that are not reached (R694, R706) -/

section
variable {c : Nat}

/-- A cause of STARTUP_HALT is there: a failure of stage 3, or a stage beyond its maximum. -/
def State.HaltDue (s : State) (c : Nat) : Prop := ((c = 1 ∨ c = 2) ∧ s.start.stage = 3) ∨
  (c = 3 ∧ ∃ n, stageMax s.start.stage = some n ∧ s.clk.stageZero + usCyc (1000 * n) < s.clk.life)

theorem startupHalt_of_due (ha : s.start.aux = true) (hw : s.start.warmDue = false) (h : s.HaltDue c) : startupHalt c s = s.haltStart c := by
  refine if_neg ?_
  rcases h with ⟨hc, hst⟩ | ⟨rfl, n, hn, hlate⟩
  · simp [ha, hw, hc, hst]
  · simp [ha, hw, hn, hlate]

theorem startupHalt_of_warmDue (hw : s.start.warmDue = true) : startupHalt c s = s := if_pos (.inr (.inl hw))

theorem startupHalt_of_not_due (h : ¬ s.HaltDue c) : startupHalt c s = s := by
  refine if_pos (.inr (.inr ?_))
  simp only [State.HaltDue, not_or] at h
  obtain ⟨hfail, hlate⟩ := h
  have hany : c = 3 → ((stageMax s.start.stage).any fun n => decide (s.clk.stageZero + usCyc (1000 * n) < s.clk.life)) = false := by
    intro hc
    rw [Option.any_eq_false]
    intro n hn
    simpa using fun ht => hlate ⟨hc, n, hn, ht⟩
  by_cases hc : c = 3
  · simp [hany hc, hc]
  · simp [hc, hfail]

theorem recoveryHostWindowExpired_due (hf : s.mgmt.fw = .recovery) (hr : s.mgmt.recovery = 3) (ht : s.mgmt.waitHostAt + 120 * cycPerSec ≤ s.clk.life) :
    recoveryHostWindowExpired s = { s with mgmt := { s.mgmt with recovery := 4 } } := if_pos ⟨hf, hr, ht⟩

theorem recoveryHostWindowExpired_not_due
    (h : s.mgmt.fw ≠ .recovery ∨ s.mgmt.recovery ≠ 3 ∨ s.clk.life < s.mgmt.waitHostAt + 120 * cycPerSec) : recoveryHostWindowExpired s = s := by
  refine if_neg ?_
  rintro ⟨hf, hr, ht⟩
  rcases h with h | h | h
  exacts [h hf, h hr, h.not_ge ht]
end

section
variable {bad : List W32} {sig : Verdict} {l : List Ch} {nf ef : List (Fin 6)} {out : Bool}

theorem stageRepairRecordDone_stays (h : s.start.warmDue = true ∨ s.start.stage ≠ 5) : stageRepairRecordDone bad sig s = s :=
  if_pos (.inr h.symm)

theorem stageSheetMapsDone_stays (h : s.start.warmDue = true ∨ s.start.stage ≠ 8) : stageSheetMapsDone s = s := if_pos (.inr h.symm)

theorem mailboxReady_stays (h : s.start.warmDue = true ∨ s.start.stage ≠ 9) : mailboxReady s = s := if_pos (.inr h.symm)

theorem stageLpddr5xDone_stays (h : s.start.warmDue = true ∨ (s.start.stage ≠ 6 ∧ s.start.stage ≠ 7) ∨ s.start.six = true) :
    stageLpddr5xDone l s = s := by
  rcases h with h | h | h
  exacts [if_pos (.inr (.inr (.inr h))), if_pos (.inr (.inl h)), if_pos (.inr (.inr (.inl h)))]

theorem stageLinksDone_stays (h : s.start.warmDue = true ∨ (s.start.stage ≠ 6 ∧ s.start.stage ≠ 7) ∨ s.start.seven = true) :
    stageLinksDone nf ef out s = s := by
  rcases h with h | h | h
  exacts [if_pos (.inr (.inr (.inr (.inl h)))), if_pos (.inr (.inl h)), if_pos (.inr (.inr (.inl h)))]
end
end
end Sys2Proof.Machine

open Sys2Proof.Machine in
/-- Settles O60: each clause is what the end of that stage makes of the state, or the stage that has not been reached and leaves it as it is. -/
theorem startupEnds : Obligations.StartupEnds := by
  intro s hs ha
  refine ⟨fun bad v broke nf ef b => ⟨fun h => makes_of (congrArg (nextOf s) (stageRepairRecordDone_stays h)),
      fun h => makes_of (congrArg (nextOf s) (stageLpddr5xDone_stays h)), fun h => makes_of (congrArg (nextOf s) (stageLinksDone_stays h)),
      fun h => makes_of (congrArg (nextOf s) (stageSheetMapsDone_stays h)), fun h => makes_of (congrArg (nextOf s) (mailboxReady_stays h)),
      fun c h => makes_of (congrArg (nextOf s) ?noHalt)⟩,
    fun hw => ⟨fun bad v hst => stageRepairRecordDone_answers hs ha hst hw, fun broke hst h6 => stageLpddr5xDone_answers hs ha hw hst h6,
      fun hst h7 => ⟨fun nf ef out he => stageLinksDone_answers ha hw hst h7 he,
        fun nf ef out hx ht => makes_of (congrArg (nextOf s) (stageLinksDone_waits hx ht))⟩,
      fun hst => stageSheetMapsDone_answers hs ha hw hst, fun hst => mailboxReady_answers hs ha hw hst,
      fun c h => makes_of (congrArg (nextOf s) (startupHalt_of_due ha hw ?halt))⟩,
    fun hf hr ht => makes_of (congrArg (nextOf s) (recoveryHostWindowExpired_due hf hr ht)),
    fun h => makes_of (congrArg (nextOf s) (recoveryHostWindowExpired_not_due h))⟩
  case noHalt =>
    rcases h with hw | h
    · exact startupHalt_of_warmDue hw
    · refine startupHalt_of_not_due ?_
      rintro (⟨hc, hst⟩ | ⟨hc, n, hn, hlate⟩)
      · rcases h with rfl | ⟨-, hne⟩ | ⟨rfl, -⟩
        · simp at hc
        · exact hne hst
        · simp at hc
      · rcases h with rfl | ⟨h12, -⟩ | ⟨-, hin⟩
        · simp at hc
        · rcases h12 with rfl | rfl <;> simp at hc
        · exact (hin n hn).not_gt hlate
  case halt =>
    rcases h with ⟨hst, h12⟩ | ⟨rfl, n, hn, hlate⟩
    · exact .inl ⟨h12.imp (congrArg Fin.val) (congrArg Fin.val), hst⟩
    · exact .inr ⟨rfl, n, hn, hlate⟩

namespace Sys2Proof.Machine

section
variable {s : State} {p : Payload} {m : Master} {code : Nat} {u : UnitRef}

/-! ### The responses of queries over units (R291, R299, R724) -/

theorem State.unitStatus_submit (f : Nat) (u : UnitRef) : (s.submit code p).unitStatus f u = s.unitStatus f u := by
  induction f generalizing u with
  | zero => cases u <;> rfl
  | succ f ih =>
    cases u with
    | group h => simp only [State.unitStatus, State.membersOf_submit, State.unitOf_submit, funext ih]
    | _ => rfl

/-- The DESCRIBE response of a unit under a handle (R299). -/
def State.description (s : State) (h : Nat) (u : UnitRef) : List RByte :=
  fld 4 h ++ fld 1 (Machine.levelOf u) ++ fld 1 (s.unitStatus 4 u) ++ rsvd 2 ++ fld 4 (s.parentOf u) ++ fld 4 (s.childrenOf u).length
    ++ (if (pathOf u).isEmpty then rsvd 48 else known (padTo 48 (pathOf u))) ++ s.bodyOf u

theorem State.parentOf_submit : (s.submit code p).parentOf u = s.parentOf u := by cases u <;> rfl

theorem State.childrenOf_submit : (s.submit code p).childrenOf u = s.childrenOf u := by cases u <;> rfl

theorem State.bodyOf_submit : (s.submit code p).bodyOf u = s.bodyOf u := by cases u <;> rfl

theorem State.description_submit (h : Nat) : (s.submit code p).description h u = s.description h u := by
  simp only [State.description, State.unitStatus_submit, State.parentOf_submit, State.childrenOf_submit, State.bodyOf_submit]

theorem mbIdentify_eq (hp : p = []) : mbIdentify m p s = (s, okResp (s.idResp ++ fld 4 (s.handleOf .module))) :=
  checked_of_form (by rw [hp]; rfl) rfl

theorem mbOpStatus_of_none (hl : p.length = 4) (h : s.op? (arg p 0 4) = none) : mbOpStatus m p s = (s, err notFound { arg := 0 }) := by
  rw [mbOpStatus, checked_of_form hl rfl, h]

theorem mbOpStatus_of_finished {o : OpRec} (hl : p.length = 4) (h : s.op? (arg p 0 4) = some o) (hf : o.finished = true) :
    mbOpStatus m p s = (s, okResp (fld 4 o.id ++ fld 2 o.code ++ fld 1 1 ++ fld 1 o.status ++ fld 4 o.handle ++ fld 2 1000 ++ rsvd 2
      ++ fld 8 o.start ++ fld 8 o.stop ++ known (padTo 16 o.detail))) := by
  rw [mbOpStatus, checked_of_form hl rfl, h]
  simp only [hf, if_true]

theorem mbOpStatus_of_running {o : OpRec} (hl : p.length = 4) (h : s.op? (arg p 0 4) = some o) (hf : o.finished = false) :
    mbOpStatus m p s = (s, okResp (fld 4 o.id ++ fld 2 o.code ++ fld 1 0 ++ rsvd 1 ++ fld 4 o.handle ++ rsvd 4 ++ fld 8 o.start ++ rsvd 24)) := by
  rw [mbOpStatus, checked_of_form hl rfl, h]
  simp [hf, rsvd]

theorem mbDescribe_of_unit (hl : p.length = 4) (hu : s.unitOf (arg p 0 4) = some u) :
    mbDescribe m p s = (s, okResp (s.description (arg p 0 4) u)) := by
  rw [mbDescribe, checked_of_form hl rfl]
  simp only [hu]
  rfl

theorem mbDescribe_of_none (hl : p.length = 4) (hu : s.unitOf (arg p 0 4) = none) : mbDescribe m p s = (s, noHandle 0 (arg p 0 4)) := by
  rw [mbDescribe, checked_of_form hl rfl]
  simp only [hu]

theorem mbResolve_of_unit (hl : p.length = 48) (hu : unitOfPath p = some u) (hh : s.start.handles = true) :
    mbResolve m p s = (s, okResp (fld 4 (s.handleOf u))) := by
  rw [mbResolve, checked_of_form hl rfl]
  simp only [hu, hh, if_true]

theorem mbChildren_of_unit (hl : p.length = 8) (hu : s.unitOf (arg p 0 4) = some u) :
    mbChildren m p s = (s, okResp (fld 4 (s.childrenOf u).length ++ fld 4 (((s.childrenOf u).drop (arg p 4 4)).take 1022).length
      ++ (((s.childrenOf u).drop (arg p 4 4)).take 1022).flatMap fun x => fld 4 x)) := by
  rw [mbChildren, checked_of_form hl rfl]
  simp only [hu]

theorem mbChildren_of_none (hl : p.length = 8) (hu : s.unitOf (arg p 0 4) = none) : mbChildren m p s = (s, noHandle 0 (arg p 0 4)) := by
  rw [mbChildren, checked_of_form hl rfl]
  simp only [hu]

/-- The STATUS response of a unit (R47, R298). -/
def State.statusResp (s : State) (u : UnitRef) : List RByte :=
  fld 1 (s.unitStatus 4 u) ++ fld 1 (Machine.levelOf u)
    ++ fld 1 (match u with | .pt k => s.bandOfPt k | _ => 0)
    ++ fld 1 (match u with | .job k => ((s.jobs.find? (·.serial = k)).map fun j => jobCode j.st).getD 0 | _ => 0) ++ fld 8 s.cyc

theorem State.statusResp_submit : (s.submit code p).statusResp u = s.statusResp u := by
  unfold State.statusResp
  rw [State.unitStatus_submit]
  rfl

theorem mbStatus_of_unit (hl : p.length = 4) (hu : s.unitOf (arg p 0 4) = some u) : mbStatus m p s = (s, okResp (s.statusResp u)) := by
  rw [mbStatus, checked_of_form hl rfl]
  simp only [hu]
  rfl

theorem mbStatus_of_none (hl : p.length = 4) (hu : s.unitOf (arg p 0 4) = none) : mbStatus m p s = (s, noHandle 0 (arg p 0 4)) := by
  rw [mbStatus, checked_of_form hl rfl]
  simp only [hu]

/-- The units that COUNTERS of a handle reports (R50). -/
def State.reported (s : State) (h : Nat) : List UnitRef := (s.expand h).filterMap s.unitOf

theorem State.reported_submit (h : Nat) : (s.submit code p).reported h = s.reported h := by
  rw [State.reported, State.expand_submit]
  rfl

theorem State.unitCtrs_submit : (s.submit code p).unitCtrs u = s.unitCtrs u := by cases u <;> rfl

theorem State.tileOfUnit_submit : (s.submit code p).tileOfUnit u = s.tileOfUnit u := by cases u <;> rfl

theorem State.countersResp_submit (h : Nat) (us : List UnitRef) : (s.submit code p).countersResp h us = s.countersResp h us := by
  have hc : (s.submit code p).unitCtrs = s.unitCtrs := funext fun _ => State.unitCtrs_submit
  have ht : (s.submit code p).tileOfUnit = s.tileOfUnit := funext fun _ => State.tileOfUnit_submit
  unfold State.countersResp
  rw [hc, ht]
  rfl

theorem State.restartQmax_submit (h : Nat) (l : List Nat) : (s.submit code p).restartQmax h l = (s.restartQmax h l).submit code p := by
  unfold State.restartQmax
  split <;> rfl

theorem State.restartQmax_host (h : Nat) (l : List Nat) : (s.restartQmax h l).host = s.host := by
  unfold State.restartQmax
  split <;> rfl

theorem mbCounters_of_unit (hl : p.length = 4) (hu : s.unitOf (arg p 0 4) = some u) : mbCounters m p s =
    (s.restartQmax (arg p 0 4) ((s.reported (arg p 0 4)).flatMap s.tileOfUnit), okResp (s.countersResp (arg p 0 4) (s.reported (arg p 0 4)))) := by
  rw [mbCounters, checked_of_form hl rfl]
  simp only [hu]
  rfl

theorem mbCounters_of_none (hl : p.length = 4) (hu : s.unitOf (arg p 0 4) = none) : mbCounters m p s = (s, noHandle 0 (arg p 0 4)) := by
  rw [mbCounters, checked_of_form hl rfl]
  simp only [hu]

/-- The START_STATUS response (R704). -/
def State.startResp (s : State) : List RByte :=
  fld 1 s.start.stage ++ fld 1 s.start.kind
    ++ fld 1 ((if s.mgmt.fwRecovery then 1 else 0) + (if s.mgmt.defaulted then 2 else 0) + (if s.start.repairLost then 4 else 0)
        + (if s.mgmt.testMode then 8 else 0))
    ++ fld 1 s.start.halt ++ fld 4 (msOf (s.clk.life - s.clk.zero)) ++ fld 4 (msOf (s.clk.life - s.clk.stageZero))
    ++ fld 1 (unbits ((List.range 8).filter fun k => (s.pt k).pg)) ++ rsvd 1
    ++ fld 2 (s.chans.filter fun c => c.trained && !c.broke).length ++ fld 2 (s.chans.filter (·.broke)).length
    ++ fld 4 (unbits ((List.range 18).filter fun k => decide ((s.port k).st = .up)))
    ++ fld 2 (s.sheets.foldl (fun a x => a + x.broke.length) 0) ++ rsvd 2
    ++ s.start.doneMs.flatMap (fun d => fld 4 d) ++ rsvd 2

theorem mbStartStatus_eq (hp : p = []) : mbStartStatus m p s = (s, okResp s.startResp) := checked_of_form (by rw [hp]; rfl) rfl

/-! ### User groups are made, edited and deleted (R36, R37, R43, R725, R726) -/

/-- A new group of these members. -/
def State.withGroup (s : State) (ms : List Nat) : State :=
  { s.tookSerial with groups := s.groups ++ [⟨s.hword 8 s.newSerial, ms⟩] }

theorem mbGroupCreate_of_good (hp : CreateForm p) (h1 : firstRepeat (createMembers p) = none) (h2 : s.firstUnknown p = none)
    (h3 : s.firstDeep p = none) (h4 : s.groups.length < 1024) :
    mbGroupCreate m p s = (s.withGroup (createMembers p), okResp (fld 4 (s.hword 8 s.newSerial))) := by
  unfold State.firstUnknown State.firstDeep State.withGroup createMembers at *
  simp only [mbGroupCreate, if_neg hp.bounds, checked_of_form hp.length hp.reserved, h1, h2, h3, if_neg h4.not_ge]

/-- Group `h` without `x` among its members (R37). -/
def State.withoutMember (s : State) (h x : Nat) : State :=
  { s with groups := s.groups.map fun g => if g.handle = h then { g with members := (s.membersOf h).filter (· ≠ x) } else g }

theorem mbGroupEdit_remove (hp : EditForm p) (hg : s.unitOf (arg p 0 4) = some (.group (arg p 0 4))) (hx : s.unitOf (arg p 8 4) ≠ none)
    (ho : arg p 4 1 = 1) (hc : arg p 8 4 ∈ s.membersOf (arg p 0 4)) :
    mbGroupEdit m p s = (s.withoutMember (arg p 0 4) (arg p 8 4), okResp []) := by
  simp [mbGroupEdit, checked_of_form hp.length hp.reserved, hg, hx, ho, hc, State.withoutMember]

/-- No group `h`, and no mention of it (R43, R726). -/
def State.withoutGroup (s : State) (h : Nat) : State :=
  { s with
    groups := (s.groups.filter (·.handle ≠ h)).map fun g => { g with members := g.members.filter (· ≠ h) }
    qmaxes := s.qmaxes.filter (·.handle ≠ h) }

theorem mbGroupDelete_of_group (hl : p.length = 4) (hg : s.unitOf (arg p 0 4) = some (.group (arg p 0 4))) :
    mbGroupDelete m p s = (s.withoutGroup (arg p 0 4), okResp []) := by
  rw [mbGroupDelete, checked_of_form hl rfl]
  simp only [hg, Option.isNone_some, Bool.false_eq_true, if_false, ne_eq, not_true_eq_false]
  rfl

/-- A query that answers and does nothing else. -/
theorem replies_of_query {c : Instr} {f : MbFun} {r : Resp} (h : HostReady s) (hx : exec c s = nextOf s (hostCmd .q code f p s))
    (hf : f .host p (s.submit code p) = (s.submit code p, r)) : Replies c s r.status r.bytes s :=
  replies_of_ready h (.inl rfl) hx hf rfl

end
end Sys2Proof.Machine

open Sys2Proof.Machine in
/-- Settles O12: a query answers from parts of the state that its submission leaves alone; a group command that passes its checks changes the
groups alone. -/
theorem unitsAndGroups : Obligations.UnitsAndGroups := by
  refine ⟨fun s p h => ?queries, fun s p h => ?unknown, fun s p ho => ?groups⟩
  case queries =>
    refine ⟨fun hp => replies_of_query h rfl (mbIdentify_eq hp),
      fun o hl hs hf => replies_of_query h rfl (mbOpStatus_of_finished (s := s.submit 2 p) hl hs hf),
      fun o hl hs hf => replies_of_query h rfl (mbOpStatus_of_running (s := s.submit 2 p) hl hs hf),
      fun u hl hu => ?describe, fun u hl hu hh => replies_of_query h rfl (mbResolve_of_unit (s := s.submit 4 p) hl hu hh), fun u hl hu => ?children,
      fun u hl hu => ?status, fun u hl hu => ?counters, fun hp => replies_of_query h rfl (mbStartStatus_eq (s := s.submit 0xB p) hp)⟩
    case describe =>
      have hf := mbDescribe_of_unit (m := .host) (s := s.submit 3 p) hl hu
      rw [State.description_submit] at hf
      exact replies_of_query h rfl hf
    case children =>
      have hf := mbChildren_of_unit (m := .host) (s := s.submit 5 p) hl hu
      rw [State.childrenOf_submit] at hf
      exact replies_of_query h rfl hf
    case status =>
      have hf := mbStatus_of_unit (m := .host) (s := s.submit 6 p) hl hu
      rw [State.statusResp_submit] at hf
      exact replies_of_query h rfl hf
    case counters =>
      have hf := mbCounters_of_unit (m := .host) (s := s.submit 7 p) hl hu
      have ht : (s.submit 7 p).tileOfUnit = s.tileOfUnit := funext fun _ => State.tileOfUnit_submit
      rw [State.reported_submit, State.countersResp_submit, State.restartQmax_submit, ht] at hf
      exact replies_of_ready h (.inl rfl) rfl hf (State.restartQmax_host ..)
  case unknown =>
    exact ⟨fun hl hs => replies_of_query h rfl (mbOpStatus_of_none (s := s.submit 2 p) hl hs),
      fun hl hu => ⟨replies_of_query h rfl (mbDescribe_of_none (s := s.submit 3 p) hl hu),
        replies_of_query h rfl (mbStatus_of_none (s := s.submit 6 p) hl hu), replies_of_query h rfl (mbCounters_of_none (s := s.submit 7 p) hl hu)⟩,
      fun hl hu => replies_of_query h rfl (mbChildren_of_none (s := s.submit 5 p) hl hu)⟩
  case groups =>
    obtain ⟨h, ho⟩ := ho
    refine ⟨fun ms hl h1 h64 hr hms hn hk hd hg => ?create, fun hl hr hg hx => ⟨fun hop hc => ?remove, fun u hop hu hrch hdep hc hlt => ?add⟩,
      fun hl hg => replies_of_ready (u := s.withoutGroup (arg p 0 4)) h (.inr ho) rfl (mbGroupDelete_of_group (s := s.submit 0xA p) hl hg) rfl⟩
    case create =>
      obtain rfl : createMembers p = ms := hms.symm
      exact replies_of_ready (u := s.withGroup (createMembers p)) h (.inr ho) rfl (mbGroupCreate_of_good (s := s.submit 8 p) ⟨hl, h1, h64, hr⟩ (firstRepeat_eq_none hn)
        (State.firstUnknown_eq_none (s := s) hk) (State.firstDeep_submit.trans (State.firstDeep_eq_none hd)) hg) rfl
    case remove =>
      exact replies_of_ready (u := s.withoutMember (arg p 0 4) (arg p 8 4)) h (.inr ho) rfl
        (mbGroupEdit_remove (s := s.submit 9 p) ⟨hl, hr, hop.le⟩ hg hx hop (List.contains_iff_mem.1 hc)) rfl
    case add =>
      obtain rfl : s.withMember (arg p 0 4) (arg p 8 4) = u := hu.symm
      have hnest : ¬ (s.submit 9 p).overNests (arg p 0 4) (arg p 8 4) = true := by
        rw [State.overNests_submit, State.overNests_iff, not_or, Bool.not_eq_true]
        exact ⟨hrch, fun ⟨g, hg, h4⟩ => absurd (hdep g hg) h4.not_ge⟩
      have hmem : ¬ arg p 8 4 ∈ (s.submit 9 p).membersOf (arg p 0 4) := fun hm => Bool.eq_false_iff.1 hc (List.contains_iff_mem.2 hm)
      have hf := mbGroupEdit_add (s := s.submit 9 p) (m := .host) ⟨hl, hr, by omega⟩ hg hx hop
      rw [if_neg hnest, if_neg hmem, if_neg (show ¬ 64 ≤ ((s.submit 9 p).membersOf (arg p 0 4)).length from hlt.not_ge)] at hf
      exact replies_of_ready (u := s.withMember (arg p 0 4) (arg p 8 4)) h (.inr ho) rfl hf rfl

namespace Sys2Proof.Machine

section
variable {s t u : State}

/-! ### Parts of the state and their updates -/

section
variable {c d i j : Nat}

@[simp] theorem settle_ctx (d : Nat) : (settle s t).ctx d = t.ctx d := by simp [State.ctx]

@[simp] theorem settle_queue (d k : Nat) : (settle s t).queue d k = t.queue d k := by simp [State.queue]

@[simp] theorem settle_tile (i : Nat) : (settle s t).tile i = t.tile i := by simp [State.tile]

theorem Shaped.ctx_lt (h : Shaped s) (c : Ctx) : c.val < s.ctxs.length := by
  rw [h.ctxs_length]
  exact c.isLt

theorem State.tile_modTile_same (i : Nat) (f : Tile → Tile) : (s.modTile i f).tile i = f (s.tile i) := KMap.getD_set_same ..

theorem State.tile_modTile_other (f : Tile → Tile) (h : j ≠ i) : (s.modTile i f).tile j = s.tile j := KMap.getD_set_other _ _ _ _ _ h

/-- A property that an update of context `c` keeps holds of context `d` after it. -/
theorem State.ctx_modCtx_of {P : Context → Prop} {f : Context → Context} (h : P (s.ctx d)) (hf : ∀ x, P x → P (f x)) :
    P ((s.modCtx c f).ctx d) := by
  by_cases hd : c = d
  · subst hd
    by_cases hc : c < s.ctxs.length
    · rw [State.ctx_modCtx_same s c f hc]
      exact hf _ h
    · have he : (s.modCtx c f).ctx c = s.ctx c := by simp [State.ctx, State.modCtx, List.getD_eq_getElem?_getD, hc]
      rwa [he]
  · rwa [State.ctx_modCtx_other s c d f hd]

/-- A field of contexts that an update leaves alone. -/
theorem State.ctx_modCtx_eq {α : Type} {g : Context → α} {f : Context → Context} (hf : ∀ x, g (f x) = g x) :
    g ((s.modCtx c f).ctx d) = g (s.ctx d) :=
  State.ctx_modCtx_of (P := fun x => g x = g (s.ctx d)) rfl fun x h => (hf x).trans h
end

/-! ### What a context keeps while it is at work (R315, R345, R413, R570) -/

/-- From `x` to `y` the context has kept its state, its RUN, its program and partitions, its place in the schedule, and the count of waits that
ended ORPHANED. -/
structure Context.Kept (x y : Context) : Prop where
  st : y.st = x.st
  run : y.run = x.run
  prog : y.prog = x.prog
  held : y.held = x.held
  hold : y.hold = x.hold
  sched : y.sched = x.sched
  runOn : y.runOn = x.runOn
  orphans : y.counters.getD 0x0A03 0 = x.counters.getD 0x0A03 0

/-- What decides whether the schedule goes on in a partition, and the cycles that are counted in it (R159, R422, R513, R641, R680). -/
def Partition.pace (x : Partition) : PtPwr × Nat × Bool × Nat × Nat × Option (Nat × Nat × Nat) × Nat × Nat :=
  (x.pwr, x.perf, x.faulted, x.lvlL, x.lvlT, x.lvlPend, x.runCyc, x.sinceRelease)

/-- Every context is kept, and so is the pace of every partition. -/
structure KeepsCtxs (s t : State) : Prop where
  ctxs : ∀ d, (s.ctx d).Kept (t.ctx d)
  pace : ∀ p, (t.pt p).pace = (s.pt p).pace

section
variable {c k : Nat}

theorem Context.Kept.refl (x : Context) : x.Kept x := ⟨rfl, rfl, rfl, rfl, rfl, rfl, rfl, rfl⟩

theorem Context.Kept.trans {x y z : Context} (h : x.Kept y) (h' : y.Kept z) : x.Kept z :=
  ⟨h'.st.trans h.st, h'.run.trans h.run, h'.prog.trans h.prog, h'.held.trans h.held, h'.hold.trans h.hold, h'.sched.trans h.sched,
    h'.runOn.trans h.runOn, h'.orphans.trans h.orphans⟩

theorem KeepsCtxs.refl : KeepsCtxs s s := ⟨fun _ => .refl _, fun _ => rfl⟩

theorem KeepsCtxs.trans (h : KeepsCtxs s t) (h' : KeepsCtxs t u) : KeepsCtxs s u :=
  ⟨fun d => (h.ctxs d).trans (h'.ctxs d), fun p => (h'.pace p).trans (h.pace p)⟩

theorem KeepsCtxs.of_ctxs (h : KeepsCtxs s t) (hc : u.ctxs = t.ctxs) (hp : u.pts = t.pts) : KeepsCtxs s u where
  ctxs d := by
    have hd : u.ctx d = t.ctx d := by rw [State.ctx, hc, State.ctx]
    rw [hd]
    exact h.ctxs d
  pace p := by
    have hd : u.pt p = t.pt p := by rw [State.pt, hp, State.pt]
    rw [hd]
    exact h.pace p

theorem KeepsCtxs.recorded (h : KeepsCtxs s t) (hr : Recorded t u) : KeepsCtxs s u := h.of_ctxs (by rw [hr]) (by rw [hr])

theorem KeepsCtxs.modPt {f : Partition → Partition} (h : KeepsCtxs s t) (hf : ∀ x, (f x).pace = x.pace := by intro; rfl) : KeepsCtxs s (t.modPt k f) where
  ctxs := h.ctxs
  pace p := State.pt_modPt_or.elim (fun e => by rw [e, hf, h.pace]) fun e => by rw [e, h.pace]

theorem KeepsCtxs.ite {q : Prop} [Decidable q] (ht : KeepsCtxs s t) (hu : KeepsCtxs s u) : KeepsCtxs s (if q then t else u) := by
  split <;> assumption

theorem KeepsCtxs.foldl {α : Type} {l : List α} {f : State → α → State} (h : KeepsCtxs s t)
    (hf : ∀ {a x}, KeepsCtxs s a → KeepsCtxs s (f a x)) : KeepsCtxs s (l.foldl f t) :=
  List.foldlRecOn l f h fun _ ha _ _ => hf ha

theorem KeepsCtxs.modCtx {f : Context → Context} (h : KeepsCtxs s t) (hf : ∀ x : Context, x.Kept (f x) := by intro; constructor <;> rfl) :
    KeepsCtxs s (t.modCtx c f) :=
  ⟨fun d => State.ctx_modCtx_of (P := (s.ctx d).Kept) (h.ctxs d) fun x hx => hx.trans (hf x), h.pace⟩

theorem KeepsCtxs.ctxCount {id n : Nat} (h : KeepsCtxs s t) (hid : 0x0A03 ≠ id) : KeepsCtxs s (t.ctxCount c id n) :=
  h.modCtx fun _ => ⟨rfl, rfl, rfl, rfl, rfl, rfl, rfl, KMap.getD_set_other _ _ _ _ _ hid⟩

theorem KeepsCtxs.modQueue {f : Queue → Queue} (h : KeepsCtxs s t) : KeepsCtxs s (t.modQueue c k f) := h.modCtx

theorem KeepsCtxs.modJob {id : Nat} {f : Job → Job} (h : KeepsCtxs s t) : KeepsCtxs s (t.modJob id f) := h.of_ctxs rfl rfl

theorem KeepsCtxs.transmit {b : List Byte} (h : KeepsCtxs s t) : KeepsCtxs s (t.transmit k b) := by
  unfold State.transmit
  exact .ite (h.of_ctxs rfl rfl) (.ite (h.of_ctxs rfl rfl) (h.of_ctxs rfl rfl))

theorem KeepsCtxs.stale {p : Packet} (h : KeepsCtxs s t) : KeepsCtxs s (t.stale p) := by
  unfold State.stale
  extract_lets s1 c
  have hs1 : KeepsCtxs s s1 := h.recorded Recorded.refl.logFabric
  clear_value c
  split
  exacts [hs1.ctxCount (by decide), hs1]

theorem KeepsCtxs.deliverPacket {p : Packet} (h : KeepsCtxs s t) : KeepsCtxs s (t.deliverPacket p) := by
  unfold State.deliverPacket
  extract_lets r heard s1
  have hs1 : KeepsCtxs s s1 := h.of_ctxs rfl rfl
  exact .ite (.ite hs1 hs1.stale) (hs1.of_ctxs rfl rfl)

theorem KeepsCtxs.fwdDrop {n : Nat} (h : KeepsCtxs s t) : KeepsCtxs s (t.fwdDrop k n) :=
  have hp : KeepsCtxs s (t.portCount k 6 1) := h.of_ctxs rfl rfl
  .ite (hp.recorded Recorded.refl.logFabric) h

theorem KeepsCtxs.sendPacket {p : Packet} (h : KeepsCtxs s t) : KeepsCtxs s (t.sendPacket p) :=
  .ite h (.ite h.deliverPacket (.ite h (.ite h.fwdDrop h.transmit)))

theorem KeepsCtxs.memberSend {id n : Nat} {b : List Byte} (h : KeepsCtxs s t) : KeepsCtxs s (t.memberSend id n k b) := by
  unfold State.memberSend State.memberSendAt
  split
  · exact h
  · split
    exacts [h, h.modJob.sendPacket]

theorem KeepsCtxs.leaveJob {id n : Nat} (h : KeepsCtxs s t) : KeepsCtxs s (t.leaveJob id n) := by
  unfold State.leaveJob
  split
  exacts [h, (KeepsCtxs.ite (h.foldl fun ha => ha.memberSend) h).modJob]

theorem KeepsCtxs.endEntries {sel : Entry → Bool} {d : Done} (h : KeepsCtxs s t) : KeepsCtxs s (t.endEntries c k sel d) :=
  h.foldl fun ha => ha.modQueue

theorem KeepsCtxs.endStops (h : KeepsCtxs s t) : KeepsCtxs s (t.endStops c) := (h.foldl fun ha => ha.modQueue).modCtx

theorem KeepsCtxs.orphanWork (h : KeepsCtxs s t) : KeepsCtxs s (t.orphanWork c) := h.endEntries.endEntries.endEntries.modCtx

theorem KeepsCtxs.markImports {n : Nat} (h : KeepsCtxs s t) : KeepsCtxs s (t.markImports c n k) := by
  refine ⟨fun d => ?_, h.pace⟩
  have hd : (t.markImports c n k).ctx d = { t.ctx d with sync := ((t.markImports c n k).ctx d).sync } := by
    by_cases hl : d < t.ctxs.length
    · simp [State.ctx, State.markImports, List.getD_eq_getElem?_getD, hl]
    · simp [State.ctx, State.markImports, List.getD_eq_getElem?_getD, hl]
  rw [hd]
  exact (h.ctxs d).trans ⟨rfl, rfl, rfl, rfl, rfl, rfl, rfl, rfl⟩

theorem KeepsCtxs.resumeObjects (h : KeepsCtxs s t) : KeepsCtxs s (t.resumeObjects c) :=
  ((h.foldl fun ha => ha.modPt.ctxCount (id := 0x0A01) (by decide)).modCtx).markImports

theorem Context.Kept.withoutRun {x y : Context} (h : x.Kept y) : ({ x with run := none } : Context).Kept { y with run := none } :=
  ⟨h.st, rfl, h.prog, h.held, h.hold, h.sched, h.runOn, h.orphans⟩

/-- The end of a RUN takes the RUN away. -/
theorem State.endRun_ctx {reason status : Nat} (h : c < s.ctxs.length) :
    ({ s.ctx c with run := none } : Context).Kept ((s.endRun c reason status).ctx c) := by
  unfold State.endRun
  split
  case h_1 hr =>
    rw [← hr]
    exact (KeepsCtxs.refl (s := s)).endStops.ctxs c
  case h_2 r hr =>
    refine Context.Kept.trans ?_ (KeepsCtxs.refl.endStops.ctxs c)
    rw [State.ctx_modCtx_same _ _ _ (by simpa [State.setOutcome, State.modEntry, State.modQueue] using h)]
    exact (KeepsCtxs.refl.modQueue.ctxs c).withoutRun

theorem State.endRun_other {d reason status : Nat} (hd : c ≠ d) : (s.ctx d).Kept ((s.endRun c reason status).ctx d) := by
  unfold State.endRun
  split
  · exact KeepsCtxs.refl.endStops.ctxs d
  · refine Context.Kept.trans ?_ (KeepsCtxs.refl.endStops.ctxs d)
    rw [State.ctx_modCtx_other _ _ _ _ hd]
    exact KeepsCtxs.refl.modQueue.ctxs d

/-- A context that faults after its RUN has ended: what else becomes of it (R345, R413, R581) touches no context's state or schedule. -/
def State.entersFault (s : State) (c reason status : Nat) : State :=
  (s.endRun c reason status).modCtx c fun y => { y with st := .faulted, hold := .stopped, op := none, load := none, suspendDue := false }

theorem State.faultCtx_keeps {reason status : Nat} (h : (s.ctx c).st ≠ .free ∧ (s.ctx c).st ≠ .created ∧ (s.ctx c).st ≠ .faulted) :
    KeepsCtxs (s.entersFault c reason status) (s.faultCtx c reason status) := by
  obtain ⟨h1, h2, h3⟩ := h
  unfold State.faultCtx
  extract_lets +onlyGivenNames x
  rw [if_neg (by simp [x, h1, h2, h3])]
  extract_lets s1 s2 s3 s4
  have hs2 : KeepsCtxs s1 s2 := by unfold s2; split; exacts [KeepsCtxs.refl.of_ctxs rfl rfl, .refl]
  have hs4 : KeepsCtxs s1 s4 := (KeepsCtxs.orphanWork hs2.endEntries).resumeObjects
  split
  exacts [hs4.leaveJob, hs4]

/-- A context that faults is FAULTED, stopped, without its RUN. -/
theorem State.faultCtx_same {reason status : Nat} (hs : Shaped s) (hc : c < 64)
    (h : (s.ctx c).st ≠ .free ∧ (s.ctx c).st ≠ .created ∧ (s.ctx c).st ≠ .faulted) :
    ({ s.ctx c with st := .faulted, hold := .stopped, run := none } : Context).Kept ((s.faultCtx c reason status).ctx c) := by
  refine Context.Kept.trans ?_ ((State.faultCtx_keeps h).ctxs c)
  have hl : c < (s.endRun c reason status).ctxs.length := by rwa [hs.endRun.ctxs_length]
  rw [State.entersFault, State.ctx_modCtx_same _ _ _ hl]
  obtain ⟨-, hr, hp, hh, -, hs, ho, hn⟩ := State.endRun_ctx (reason := reason) (status := status) (by rwa [hs.ctxs_length])
  exact ⟨rfl, hr, hp, hh, rfl, hs, ho, hn⟩

/-- Beside the context that faults every context is kept. -/
theorem State.faultCtx_other {d reason status : Nat} (hd : c ≠ d) : (s.ctx d).Kept ((s.faultCtx c reason status).ctx d) := by
  by_cases h : (s.ctx c).st ≠ .free ∧ (s.ctx c).st ≠ .created ∧ (s.ctx c).st ≠ .faulted
  · refine Context.Kept.trans ?_ ((State.faultCtx_keeps h).ctxs d)
    rw [State.entersFault, State.ctx_modCtx_other _ _ _ _ hd]
    exact State.endRun_other hd
  · have he : s.faultCtx c reason status = s := if_pos (by tauto)
    rw [he]
    exact .refl _
end

theorem CtxsOnly.sameMemory (h : CtxsOnly s t) : SameMemory s t := by
  rw [h]
  exact ⟨rfl, rfl, rfl, rfl⟩

theorem CtxsOnly.sameManagement (h : CtxsOnly s t) : SameManagement s t := by
  rw [h]
  exact ⟨rfl, rfl, rfl⟩

theorem CtxsOnly.pts (h : CtxsOnly s t) : t.pts = s.pts := by rw [h]

theorem FaultWork.sameMemory (h : FaultWork s t) : SameMemory s t := by
  rw [h]
  exact ⟨rfl, rfl, rfl, rfl⟩

theorem FaultWork.sameManagement (h : FaultWork s t) : SameManagement s t := by
  rw [h]
  exact ⟨rfl, rfl, rfl⟩

/-! ### Wait points (R160, R346, R413) -/

section
variable {c : Ctx} {g : Prog} {i k a : Nat} {cmd : Instr}

theorem State.queue_modQueue {q : Nat} {f : Queue → Queue} (hs : Shaped s) (hq : q < 16) :
    (s.modQueue c k f).queue c q = if k = q then f (s.queue c q) else s.queue c q := by
  have hl : q < (s.ctx c).queues.length := by
    have hx : (s.ctx c).Shaped := hs.of_mem_ctxs (by
      rw [State.ctx, ← List.getElem_eq_getD (h := hs.ctx_lt c)]
      exact List.getElem_mem _)
    rwa [hx]
  rw [State.queue, State.modQueue, State.ctx_modCtx_same _ _ _ (hs.ctx_lt c)]
  simp only [List.getD_eq_getElem?_getD, List.getElem?_modify, State.queue, List.getElem?_eq_getElem hl]
  split <;> rfl

/-- A declared wait has been passed: one for host data adds 1 to TAKEN of its queue (R346). -/
def State.passWait (s : State) (c : Nat) (w : ExtWait × Nat) : State :=
  if w.1.kind = 1 then s.modQueue c w.1.obj fun q => { q with taken := q.taken + 1 } else s

theorem CtxsOnly.passWaits {l : List (ExtWait × Nat)} : CtxsOnly s (l.foldl (fun a w => a.passWait c w) s) :=
  CtxsOnly.refl.foldl fun ha => .ite ha.modCtx ha

theorem State.passWaits_taken {l : List (ExtWait × Nat)} {q : Nat} (hs : Shaped s) (hq : q < 16) :
    ((l.foldl (fun a w => a.passWait c w) s).queue c q).taken =
      (s.queue c q).taken + (l.filter fun w => decide (w.1.kind = 1) && decide (w.1.obj = q)).length := by
  induction l generalizing s with
  | nil => rfl
  | cons w l ih =>
    rw [List.foldl_cons, ih (show Shaped (s.passWait c w) from .ite hs.modQueue hs), List.filter_cons]
    unfold State.passWait
    by_cases hk : w.1.kind = 1
    · rw [if_pos hk, State.queue_modQueue hs hq]
      by_cases ho : w.1.obj = q
      · simp [hk, ho]
        omega
      · simp [hk, ho]
    · simp [hk]

theorem State.passWaits_other {l : List (ExtWait × Nat)} {d : Nat} (hd : d ≠ c.val) : (l.foldl (fun a w => a.passWait c w) s).ctx d = s.ctx d :=
  foldl_same (g := fun a => a.ctx d) fun a w => by
    unfold State.passWait
    split
    exacts [State.ctx_modCtx_other _ _ _ _ hd.symm, rfl]

theorem State.endWait_of_met (hp : (s.ctx c).prog = some g) (hh : (s.ctx c).hold = .wait i k a)
    (hm : ∃ e ∈ (s.ctx c).sampled, e.1 = (s.ctx c).sched ∧ e.2 + 256 ≤ s.clk.life) :
    s.endWait c = (s.passWaits c g).modCtx c fun y => { y with hold := .none } := by
  unfold State.endWait
  simp only [hp, hh]
  exact if_pos (by simpa using hm)

theorem State.endWait_of_not_met (hp : (s.ctx c).prog = some g) (hh : (s.ctx c).hold = .wait i k a)
    (hm : ∀ e ∈ (s.ctx c).sampled, e.1 = (s.ctx c).sched → s.clk.life < e.2 + 256) : s.endWait c = if s.waitsOrphaned c g then
      { (s.ctxCount c 0x0A03 1).faultCtx c (Config.freeByte s.fresh).toNat orphaned with fresh := s.fresh + 1 } else s := by
  unfold State.endWait
  simp only [hp, hh]
  exact if_neg (by simpa [and_imp] using fun b hb => hm _ hb rfl)

/-- A schedule whose waits were found met in time goes on. -/
theorem endWait_met_answers (hs : Shaped s) (hx : exec cmd s = nextOf s (s.endWait c)) (hp : (s.ctx c).prog = some g)
    (hh : (s.ctx c).hold = .wait i k a) (hm : ∃ e ∈ (s.ctx c).sampled, e.1 = (s.ctx c).sched ∧ e.2 + 256 ≤ s.clk.life) :
    Answers cmd s fun t => (t.ctx c).hold = .none ∧ (t.ctx c).sched = (s.ctx c).sched ∧
      (∀ q, q < 16 → (t.queue c q).taken = (s.queue c q).taken +
        ((g.waitsAt (s.ctx c).sched).filter fun w => decide (w.1.kind = 1) && decide (w.1.obj = q)).length) ∧
      (∀ d, d ≠ c.val → t.ctx d = s.ctx d) ∧ t.pts = s.pts ∧ SameMemory s t ∧ SameManagement s t := by
  let l := g.waitsAt (s.ctx c).sched
  let u := l.foldl (fun a w => a.passWait c w) s
  let v := (s.passWaits c g).modCtx c fun y => { y with hold := .none }
  have hu : CtxsOnly s u := CtxsOnly.passWaits
  have hk : KeepsCtxs s u := KeepsCtxs.refl.foldl fun ha => .ite ha.modQueue ha
  have hus : Shaped u := hs.foldl fun ha => .ite ha.modQueue ha
  have hpw : s.passWaits c g = u.modCtx c fun x => { x with sampled := x.sampled.filter (·.1 ≠ (s.ctx c).sched) } := rfl
  have hv : CtxsOnly s v := hu.modCtx.modCtx
  have hc : v.ctx c = { u.ctx c with sampled := (u.ctx c).sampled.filter (·.1 ≠ (s.ctx c).sched), hold := .none } := by
    unfold v
    rw [hpw, State.ctx_modCtx_same _ _ _ (hus.modCtx.ctx_lt c), State.ctx_modCtx_same _ _ _ (hus.ctx_lt c)]
  have hq (q : Nat) : v.queue c q = u.queue c q := by rw [State.queue, hc, State.queue]
  rw [State.endWait_of_met hp hh hm] at hx
  refine answers_of hx ?_
  simp only [settle_ctx, settle_queue, settle_pts]
  refine ⟨by rw [hc], by rw [hc]; exact (hk.ctxs c).sched, fun q hq' => ?_, fun d hd => ?_, hv.pts, hv.sameMemory.settle, hv.sameManagement.settle⟩
  · rw [hq]
    exact State.passWaits_taken hs hq'
  · rw [State.ctx_modCtx_other _ _ _ _ hd.symm]
    exact (State.ctx_modCtx_other u _ _ _ hd.symm).trans (State.passWaits_other hd)

/-- A context at work is none of those that cannot fault. -/
theorem Context.active_faults {x : Context} (h : x.active = true) : x.st ≠ .free ∧ x.st ≠ .created ∧ x.st ≠ .faulted := by
  unfold Context.active at h
  refine ⟨?_, ?_, ?_⟩ <;> intro he <;> simp [he] at h

theorem State.waitsOrphaned_facts (h : s.waitsOrphaned c g = true) : (s.ctx c).active = true ∧ ∀ e ∈ (s.ctx c).sampled, e.1 ≠ (s.ctx c).sched := by
  unfold State.waitsOrphaned at h
  simp only [Bool.and_eq_true, Bool.not_eq_true', List.any_eq_false, decide_eq_true_eq] at h
  obtain ⟨⟨ha, hn⟩, -⟩ := h
  exact ⟨ha, hn⟩

/-- A program that waits on an ORPHANED object ends (R413). -/
theorem externalWaitPoint_orphaned_answers (hs : Shaped s) (hp : (s.ctx c).prog = some g) (hh : (s.ctx c).hold = .wait i k a)
    (ho : s.waitsOrphaned c g = true) :
    Answers (.externalWaitPoint c) s fun t => (t.ctx c).st = .faulted ∧ (t.ctx c).run = none ∧
      (t.ctx c).counters.getD 0x0A03 0 = ((s.ctx c).counters.getD 0x0A03 0 + 1) % 2 ^ 48 ∧ SameMemory s t ∧ SameManagement s t := by
  obtain ⟨ha, hn⟩ := State.waitsOrphaned_facts ho
  have hx := State.endWait_of_not_met hp hh fun e he heq => absurd heq (hn e he)
  rw [if_pos ho] at hx
  let v := s.ctxCount c 0x0A03 1
  have hv : v.ctx c = { s.ctx c with counters := (s.ctx c).counters.bump 0x0A03 1 } := State.ctx_modCtx_same _ _ _ (hs.ctx_lt c)
  have hf := State.faultCtx_same (s := v) (c := c) (reason := (Config.freeByte s.fresh).toNat) (status := orphaned) hs.modCtx c.isLt
    (Context.active_faults (by rw [hv]; exact ha))
  have hw : FaultWork s (v.faultCtx c (Config.freeByte s.fresh).toNat orphaned) := FaultWork.refl.modCtx.faultCtx
  refine answers_of (congrArg (nextOf s) hx) ?_
  simp only [settle_ctx]
  refine ⟨hf.st, hf.run, hf.orphans.trans ?_, SameMemory.settle ?_, SameManagement.settle ?_⟩
  · rw [hv]
    exact KMap.getD_set_same ..
  · exact hw.sameMemory
  · exact hw.sameManagement
end

/-! ### The end of a catch-up and of a prologue (R449, R511) -/

section
variable {n id p at' : Nat} {d e : Dwell} {c : Nat}

theorem ApartCtxs.mirror (h : ApartCtxs n id s t) : ApartCtxs n id s (t.mirror p d) := by
  unfold State.mirror
  split
  exacts [h.foldl fun ha => ha.modTile, h]

theorem ApartCtxs.countCouch {pc : Nat} {x : Sheet} (h : ApartCtxs n id s t) : ApartCtxs n id s (t.countCouch p d pc x) := h.foldl fun ha => ha.modTile

/-- The marks of wear of a mirrored pair begin anew with the spare in step. -/
theorem ApartCtxs.clearMarks {l : List Nat} (h : ApartCtxs n id s t) : ApartCtxs n id s (l.foldl (fun a q => (List.range 16).foldl (fun b r =>
    if tileType r = 3 then b.modTile (tileIx p q r) fun t => { t with wm1 := 0, wm2 := 0 } else b) a) t) :=
  h.foldl fun ha => ha.foldl fun hb => by
    split
    exacts [hb.modTile, hb]

theorem Apart.leavePoint (h : Apart n id s t) : Apart n id s (t.leavePoint c) := by
  unfold State.leavePoint
  extract_lets x
  split
  · exact h.modCtx
  · split
    · exact h.modCtx
    · split
      · exact h.modCtx
      · split
        · exact h.modCtx
        · split
          exacts [h.beginPrologue.modCtx, h.modCtx]

theorem Apart.afterCatchup (h : Apart n id s t) (hid : id ≠ 0x0B08) : Apart n id s (t.afterCatchup p at') := by
  unfold State.afterCatchup
  split
  · exact h
  · split
    · exact (h.modSheet fun y => KMap.getD_set_other y.counters _ id _ 0 hid).leavePoint
    · exact h

theorem State.sheet_leavePoint_of {P : Sheet → Prop} (hP : ∀ x l, P x → P { x with tstat := l }) (h : P (s.sheet n)) :
    P ((s.leavePoint c).sheet n) := by
  unfold State.leavePoint
  extract_lets x
  split
  · exact h
  · split
    · exact h
    · split
      · exact h
      · split
        · exact h
        · split
          exacts [State.sheet_beginPrologue_of hP h, h]

/-- How the hold goes on after a catch-up changes counters and the states of tests of a sheet alone. -/
theorem State.sheet_afterCatchup_of {P : Sheet → Prop} (hP : ∀ x l m, P x → P { x with tstat := l, counters := m }) (h : P (s.sheet n)) :
    P ((s.afterCatchup p at').sheet n) := by
  unfold State.afterCatchup
  split
  · exact h
  · split
    · exact State.sheet_leavePoint_of (fun x l => hP x l x.counters) (State.sheet_modSheet_of h fun x => hP x x.tstat _)
    · exact h

/-- The spare is in step: the marks of wear are cleared, and the count of catch-ups rises. -/
def State.inStep (s : State) (n : Nat) (d : Dwell) : State :=
  let pcs := (s.sheet n).rove.toList ++ ((s.sheet n).map.getD (d.target.getD 0) none).toList
  ((pcs.foldl (fun a p => (List.range 16).foldl (fun b r =>
    if tileType r = 3 then b.modTile (tileIx n p r) fun t => { t with wm1 := 0, wm2 := 0 } else b) a) s).modSheet n fun y =>
    { y with dirty := [], dwell := some { d with catching := none, inStep := true, phase := .inStep } }).sheetCount n 0x0B04 1

/-- The pair is mirrored when the couch words of the catch-up have been counted. -/
def State.caughtUp (s : State) (n : Nat) (d : Dwell) : State :=
  (((s.inStep n d).sheet n).rove.toList.foldl (fun a pc => a.countCouch n d pc (s.sheet n)) (s.inStep n d)).mirror n d

theorem ApartCtxs.inStep (hid : id ≠ 0x0B04) : ApartCtxs n id s (s.inStep p d) := by
  unfold State.inStep
  exact ApartCtxs.sheetCount (ApartCtxs.modSheet ApartCtxs.refl.clearMarks) hid

theorem ApartCtxs.caughtUp : ApartCtxs n id (s.inStep p d) (s.caughtUp p d) := (ApartCtxs.refl.foldl fun ha => ha.countCouch).mirror

theorem State.mirror_sheets : (s.mirror p d).sheets = s.sheets := by
  unfold State.mirror
  split
  exacts [foldl_same (g := State.sheets) fun _ _ => rfl, rfl]

theorem State.countCouch_sheets {pc : Nat} {x : Sheet} : (s.countCouch p d pc x).sheets = s.sheets := foldl_same (g := State.sheets) fun _ _ => rfl

theorem State.sheet_caughtUp : (s.caughtUp n d).sheet n = (s.inStep n d).sheet n := by
  have h : (s.caughtUp n d).sheets = (s.inStep n d).sheets :=
    State.mirror_sheets.trans (foldl_same (g := State.sheets) fun _ _ => State.countCouch_sheets)
  rw [State.sheet, h, State.sheet]

theorem State.sheet_inStep (hn : n < s.sheets.length) : ((s.inStep n d).sheet n).dirty = [] ∧
    ((s.inStep n d).sheet n).dwell = some { d with catching := none, inStep := true, phase := .inStep } ∧
    ((s.inStep n d).sheet n).counters.getD 0x0B04 0 = ((s.sheet n).counters.getD 0x0B04 0 + 1) % 2 ^ 48 := by
  unfold State.inStep
  extract_lets pcs
  have ht : (pcs.foldl (fun a p => (List.range 16).foldl (fun b r =>
      if tileType r = 3 then b.modTile (tileIx n p r) fun t => { t with wm1 := 0, wm2 := 0 } else b) a) s).sheets = s.sheets :=
    foldl_same (g := State.sheets) fun a x => foldl_same (g := State.sheets) fun b r => by split <;> rfl
  generalize pcs.foldl _ s = a at ht
  have hl : n < a.sheets.length := ht ▸ hn
  have hs : a.sheet n = s.sheet n := by rw [State.sheet, ht, State.sheet]
  have hc := State.sheetCount_count (id := 0x0B04) (k := 1) (n := n) (s := a.modSheet n fun y =>
    { y with dirty := [], dwell := some { d with catching := none, inStep := true, phase := .inStep } }) (by simpa [State.modSheet] using hl)
  rw [State.sheet_modSheet_same a n _ hl] at hc
  refine ⟨?_, ?_, hc.trans (by rw [hs])⟩
  all_goals
    rw [State.sheetCount, State.sheet_modSheet_same _ _ _ (by simpa [State.modSheet] using hl), State.sheet_modSheet_same a n _ hl]

theorem catchupDone_waits (hw : ∀ e, (s.sheet n).dwell = some e → ∀ a, e.catching = some a → s.clk.life < a) : catchupDone n s = s := by
  unfold catchupDone
  split
  · rfl
  · next e he =>
    split
    · rfl
    · next a ha => exact if_pos (hw e he a ha)

theorem catchupDone_ends (hd : (s.sheet n).dwell = some d) (hc : d.catching = some at') (ha : at' ≤ s.clk.life) :
    catchupDone n s = if d.abandoned then
        (s.modSheet n fun y => { y with dwell := none, dwellDue := some d.kind, dirty := [] }).afterCatchup n at'
      else (s.caughtUp n d).afterCatchup n at' := by
  unfold catchupDone
  simp only [hd, hc, if_neg (Nat.not_lt.2 ha)]
  rfl
end

theorem catchupDone_abandoned_answers {n : Sh} {d : Dwell} {a : Nat} (hs : Shaped s) (hd : (s.sheet n).dwell = some d)
    (hc : d.catching = some a) (ha : a ≤ s.clk.life) (hab : d.abandoned = true) :
    Answers (.catchupDone n) s fun t => (t.sheet n).dwell = none ∧ (t.sheet n).dwellDue = some d.kind ∧ (t.sheet n).dirty = [] ∧
      t.dram = s.dram ∧ t.pool = s.pool ∧ t.pts = s.pts ∧ SameManagement s t := by
  have hx := catchupDone_ends hd hc ha
  rw [if_pos hab] at hx
  have hu : Apart n 0 s ((s.modSheet n fun y => { y with dwell := none, dwellDue := some d.kind, dirty := [] }).afterCatchup n a) :=
    (ApartCtxs.refl.toApart.modSheet).afterCatchup (by decide)
  have hy := State.sheet_afterCatchup_of (s := s.modSheet n fun y => { y with dwell := none, dwellDue := some d.kind, dirty := [] }) (n := n)
    (p := n) (at' := a) (P := fun y => y.dwell = none ∧ y.dwellDue = some d.kind ∧ y.dirty = []) (fun _ _ _ h => h)
    (by rw [State.sheet_modSheet_same _ _ _ (hs.sheet_lt n)]; exact ⟨rfl, rfl, rfl⟩)
  refine answers_of (congrArg (nextOf s) hx) ?_
  simp only [settle_sheet, settle_dram, settle_pool, settle_pts]
  exact ⟨hy.1, hy.2.1, hy.2.2, hu.dram, hu.pool, hu.pts, hu.management.settle⟩

theorem catchupDone_inStep_answers {n : Sh} {d : Dwell} {a : Nat} (hs : Shaped s) (hd : (s.sheet n).dwell = some d)
    (hc : d.catching = some a) (ha : a ≤ s.clk.life) (hab : d.abandoned = false) :
    Answers (.catchupDone n) s fun t => (t.sheet n).dwell = some { d with catching := none, inStep := true, phase := .inStep } ∧
      (t.sheet n).dirty = [] ∧ (t.sheet n).counters.getD 0x0B04 0 = ((s.sheet n).counters.getD 0x0B04 0 + 1) % 2 ^ 48 ∧
      t.dram = s.dram ∧ t.pool = s.pool ∧ t.pts = s.pts ∧ SameManagement s t := by
  have hx := catchupDone_ends hd hc ha
  rw [if_neg (by simp [hab])] at hx
  have hin : ApartCtxs n 0 s (s.inStep n d) := ApartCtxs.inStep (by decide)
  have hu : Apart n 0 (s.inStep n d) ((s.caughtUp n d).afterCatchup n a) := ApartCtxs.caughtUp.toApart.afterCatchup (by decide)
  have hn : Apart n 0x0B04 (s.inStep n d) ((s.caughtUp n d).afterCatchup n a) := ApartCtxs.caughtUp.toApart.afterCatchup (by decide)
  obtain ⟨hdirty, hdwell, hcount⟩ := State.sheet_inStep (d := d) (hs.sheet_lt n)
  have hy := State.sheet_afterCatchup_of (s := s.caughtUp n d) (n := n) (p := n) (at' := a)
    (P := fun y => y.dwell = some { d with catching := none, inStep := true, phase := .inStep } ∧ y.dirty = []) (fun _ _ _ h => h)
    (by rw [State.sheet_caughtUp]; exact ⟨hdwell, hdirty⟩)
  refine answers_of (congrArg (nextOf s) hx) ?_
  simp only [settle_sheet, settle_dram, settle_pool, settle_pts]
  exact ⟨hy.1, hy.2, hn.count.trans hcount, hu.dram.trans hin.dram, hu.pool.trans hin.pool, hu.pts.trans hin.pts,
    SameManagement.settle ⟨hu.management.1.trans hin.management.1, hu.management.2.1.trans hin.management.2.1,
      hu.management.2.2.trans hin.management.2.2⟩⟩

/-- The hold of a schedule after its prologue. -/
def State.proHold (s : State) (c : Nat) : Hold :=
  if !(s.ctx c).active then .stopped else if (s.ctx c).snapWait then .decide s.clk.life else .until (max s.clk.life ((s.ctx c).calAt + 1280))

theorem prologueEnd_waits {c : Nat} {g : Prog} (hp : (s.ctx c).prog = some g) (h : s.proEnded c g = false) : prologueEnd c s = s := by
  unfold prologueEnd
  simp only [hp, h]
  rfl

/-- The end of a prologue: sheets and tiles are made ready, the tiles of the prologue run it no more, and the context's hold goes on. -/
theorem prologueEnd_ends {c : Nat} {g : Prog} (hp : (s.ctx c).prog = some g) (h : s.proEnded c g = true) :
    ∃ u, ApartCtxs 0 0 s u ∧ prologueEnd c s = ((s.proTiles c g).foldl (fun a i => a.modTile i fun t => { t with pro := {} }) u).modCtx c
      fun y => { y with reads := y.reads.filter fun r => !r.pro, hold := s.proHold c } := by
  unfold prologueEnd
  simp only [hp, h]
  rw [if_neg (by simp)]
  refine ⟨_, ?_, rfl⟩
  have h1 : ApartCtxs 0 0 s (if (s.ctx c).commitHold then ((s.ctx c).held.flatMap sheetsOfPt).foldl (fun a n => a.modSheet n fun y => { y with
      dwell := y.dwell.map fun (d : Dwell) => if d.couched.isSome ∧ !d.inStep then { d with inStep := true, phase := .inStep } else d }) s else s) := by
    split
    exacts [ApartCtxs.refl.foldl fun ha => ha.modSheet fun _ => rfl, .refl]
  have h2 := h1.foldl (l := (s.ctx c).held.flatMap sheetsOfPt) (f := fun a n => match (a.sheet n).shadowed with
    | none => a
    | some d => ((a.sheet n).rove.toList ++ ((a.sheet n).map.getD (d.target.getD 0) none).toList).foldl (fun b p => (List.range 16).foldl (fun e r =>
        if tileType r = 3 then e.modTile (tileIx n p r) fun t => { t with wm1 := 0, wm2 := 0 } else e) b) a) fun {a n} ha => by
    split
    exacts [ha, ha.clearMarks]
  split
  exacts [h2.foldl fun ha => ha.modTile, h2]

theorem prologueEnd_answers {c : Ctx} {g : Prog} (hs : Shaped s) (hp : (s.ctx c).prog = some g) (h : s.proEnded c g = true) :
    Answers (.prologueEnd c) s fun t => (t.ctx c).hold = s.proHold c ∧ (t.ctx c).sched = (s.ctx c).sched ∧
      (t.ctx c).reads = (s.ctx c).reads.filter (fun r => !r.pro) ∧ (∀ i ∈ s.proTiles c g, (t.tile i).pro = {}) ∧
      (∀ d, d ≠ c.val → t.ctx d = s.ctx d) ∧ t.dram = s.dram ∧ t.pool = s.pool ∧ t.pts = s.pts ∧ SameManagement s t := by
  obtain ⟨u, hu, hx⟩ := prologueEnd_ends hp h
  let v := (s.proTiles c g).foldl (fun a i => a.modTile i fun t => { t with pro := {} }) u
  have hv : ApartCtxs 0 0 s v := hu.foldl fun ha => ha.modTile
  have hctx (d : Nat) : v.ctx d = s.ctx d := by rw [State.ctx, hv.ctxs, State.ctx]
  have hpro : ∀ i ∈ s.proTiles c g, (v.tile i).pro = {} :=
    foldl_each (I := fun _ => True) (R := fun i a => (a.tile i).pro = {}) (fun a i _ _ => ⟨trivial, by rw [State.tile_modTile_same]⟩)
      (fun a i j hj => by
        by_cases hij : j = i
        · rw [hij, State.tile_modTile_same]
        · rwa [State.tile_modTile_other _ hij]) trivial
  have hc := State.ctx_modCtx_same v c (fun y => { y with reads := y.reads.filter fun r => !r.pro, hold := s.proHold c })
    (by rw [hv.ctxs]; exact hs.ctx_lt c)
  rw [hctx] at hc
  refine answers_of (congrArg (nextOf s) hx) ?_
  simp only [settle_ctx, settle_tile, settle_dram, settle_pool, settle_pts]
  refine ⟨by rw [hc], by rw [hc], by rw [hc], hpro, fun d hd => ?_, hv.dram, hv.pool, hv.pts, SameManagement.settle hv.management⟩
  rw [State.ctx_modCtx_other _ _ _ _ hd.symm, hctx]

end
end Sys2Proof.Machine

open Sys2Proof.Machine in
/-- Settles O33: each of the three commands is brought to a composition of updates, and the facts claimed are those of the last update that
touches the part of the state they speak of. -/
theorem waitsCatchupAndPrologue : Obligations.WaitsCatchupAndPrologue := by
  unfold Obligations.WaitsCatchupAndPrologue
  refine ⟨fun s c g i k a hs hp hh => ⟨?_, ?_, ?_, externalWaitPoint_orphaned_answers hs hp hh⟩, fun s hs => ⟨?_, ?_, ?_⟩⟩
  · rintro hm cmd (rfl | ⟨rfl, hf⟩)
    · exact endWait_met_answers hs rfl hp hh hm
    · exact endWait_met_answers hs (congrArg (nextOf s) (if_pos hf)) hp hh hm
  · intro hm ho
    have he : s.endWait c = s := (State.endWait_of_not_met hp hh hm).trans (if_neg (by simp [ho]))
    refine ⟨makes_of (congrArg (nextOf s) he), makes_of (congrArg (nextOf s) ?_)⟩
    unfold holdRelease
    rw [he, ite_self]
  · exact fun hf => makes_of (congrArg (nextOf s) (if_neg hf))
  · intro n d a hd hc
    refine ⟨fun ha => makes_of (congrArg (nextOf s) (catchupDone_waits fun e he b hb => ?_)), catchupDone_abandoned_answers hs hd hc,
      catchupDone_inStep_answers hs hd hc⟩
    obtain rfl : d = e := Option.some.inj (hd.symm.trans he)
    obtain rfl : a = b := Option.some.inj (hc.symm.trans hb)
    exact ha
  · exact fun n hn => makes_of (congrArg (nextOf s) (catchupDone_waits fun e he b hb => absurd (hn e he) (by simp [hb])))
  · exact fun c g hp => ⟨fun h => makes_of (congrArg (nextOf s) (prologueEnd_waits hp h)), prologueEnd_answers hs hp⟩


namespace Sys2Proof.Machine

section
variable {c : BitVec 31} {d : BitVec 512} {g : BitVec 4} {q : BitVec 3} {l : Bool} {w : Link}

/-! ### The fields of a link word (R138, R139) -/

/-- A word is its data, then 16 parity bits, CPAR and 31 control bits. -/
theorem mkWord_getLsbD (i : Nat) : (mkWord c d).getLsbD i = if i < 512 then d.getLsbD i else if i < 528 then (dataPar d).getLsbD (i - 512)
    else if i < 529 then oddBit 31 c.toNat else c.getLsbD (i - 529) := by
  unfold mkWord
  simp only [BitVec.getLsbD_append]
  by_cases h1 : i < 512
  · simp only [h1, if_true]
  · by_cases h2 : i < 528
    · have h3 : i - 512 < 16 := by omega
      simp only [h1, h2, h3, if_true, if_false]
    · have h3 : ¬i - 512 < 16 := by omega
      by_cases h4 : i < 529
      · have h5 : i - 512 - 16 = 0 := by omega
        simp only [h1, h2, h3, h4, h5, Nat.lt_one_iff, BitVec.getLsbD_ofBool, decide_true, Bool.true_and, if_true, if_false]
      · have h5 : i - 512 - 16 = i - 529 + 1 := by omega
        have h6 : ¬i - 529 + 1 < 1 := by omega
        simp only [h1, h2, h3, h4, h5, h6, Nat.add_sub_cancel, if_false]

@[simp] theorem mkWord_data : (mkWord c d).data = d := by
  refine BitVec.eq_of_getLsbD_eq fun i hi => ?_
  simp only [Link.data, BitVec.getLsbD_extractLsb', mkWord_getLsbD, hi, Nat.zero_add, if_true, decide_true, Bool.true_and]

theorem mkWord_lanes : (mkWord c d).extractLsb' 512 16 = dataPar d := by
  refine BitVec.eq_of_getLsbD_eq fun i hi => ?_
  have h1 : ¬512 + i < 512 := by omega
  have h2 : 512 + i < 528 := by omega
  simp only [BitVec.getLsbD_extractLsb', mkWord_getLsbD, hi, h1, h2, Nat.add_sub_cancel_left, if_true, if_false, decide_true, Bool.true_and]

theorem mkWord_cpar : (mkWord c d).getLsbD 528 = oddBit 31 c.toNat := mkWord_getLsbD 528

@[simp] theorem mkWord_ctl : (mkWord c d).ctl = c := by
  refine BitVec.eq_of_getLsbD_eq fun i hi => ?_
  have h1 : ¬529 + i < 512 := by omega
  have h2 : ¬529 + i < 528 := by omega
  have h3 : ¬529 + i < 529 := by omega
  simp only [Link.ctl, BitVec.getLsbD_extractLsb', mkWord_getLsbD, hi, h1, h2, h3, Nat.add_sub_cancel_left, if_false, decide_true, Bool.true_and]

@[simp] theorem mkWord_badLanes : (mkWord c d).badLanes = 0 := by
  rw [Link.badLanes, mkWord_lanes, mkWord_data, BitVec.xor_self, BitVec.toNat_zero]

@[simp] theorem mkWord_parOk : (mkWord c d).parOk = true := by
  rw [Link.parOk, mkWord_cpar, mkWord_ctl, mkWord_badLanes, beq_self_eq_true, decide_eq_true rfl, Bool.and_self]

/-! The control fields of a word are those of its control bits. -/

theorem Link.valid_eq : w.valid = w.ctl.getLsbD 30 := by
  rw [Link.valid, Link.ctl, BitVec.getLsbD_extractLsb', decide_eq_true (by decide), Bool.true_and]

theorem extractLsb'_ctl {a n : Nat} (h : a + n ≤ 31) : w.ctl.extractLsb' a n = w.extractLsb' (529 + a) n := by
  refine BitVec.eq_of_getLsbD_eq fun i hi => ?_
  have h1 : a + i < 31 := by omega
  simp only [Link.ctl, BitVec.getLsbD_extractLsb', hi, h1, decide_true, Bool.true_and, Nat.add_assoc]

theorem Link.kind_eq : w.kind = (w.ctl.extractLsb' 27 3).toNat := by rw [extractLsb'_ctl (by decide), Link.kind]

theorem Link.gen_eq : w.gen = w.ctl.extractLsb' 23 4 := by rw [extractLsb'_ctl (by decide), Link.gen]

theorem Link.last_eq : w.last = w.ctl.getLsbD 19 := by
  rw [Link.last, Link.ctl, BitVec.getLsbD_extractLsb', decide_eq_true (by decide), Bool.true_and]

/-! ### DATA words and words with bad parity (R138, R226) -/

/-- The control bits of a DATA word. -/
def dataCtl (g : BitVec 4) (q : BitVec 3) (l : Bool) : BitVec 31 := 1#1 ++ 0#3 ++ g ++ q ++ BitVec.ofBool l ++ 0#19

theorem dataWord_eq : dataWord g q l d = mkWord (dataCtl g q l) d := rfl

theorem dataCtl_fields : (dataCtl g q l).getLsbD 30 = true ∧ (dataCtl g q l).extractLsb' 27 3 = 0 ∧ (dataCtl g q l).extractLsb' 23 4 = g ∧
    (dataCtl g q l).getLsbD 19 = l := by
  revert g q l
  decide

@[simp] theorem dataWord_data : (dataWord g q l d).data = d := mkWord_data

@[simp] theorem dataWord_parOk : (dataWord g q l d).parOk = true := mkWord_parOk

@[simp] theorem dataWord_badLanes : (dataWord g q l d).badLanes = 0 := mkWord_badLanes

@[simp] theorem dataWord_valid : (dataWord g q l d).valid = true := by rw [Link.valid_eq, dataWord_eq, mkWord_ctl, dataCtl_fields.1]

@[simp] theorem dataWord_kind : (dataWord g q l d).kind = 0 := by
  rw [Link.kind_eq, dataWord_eq, mkWord_ctl, dataCtl_fields.2.1]
  rfl

@[simp] theorem dataWord_gen : (dataWord g q l d).gen = g := by rw [Link.gen_eq, dataWord_eq, mkWord_ctl, dataCtl_fields.2.2.1]

@[simp] theorem dataWord_last : (dataWord g q l d).last = l := by rw [Link.last_eq, dataWord_eq, mkWord_ctl, dataCtl_fields.2.2.2]

/-- Poisoning inverts the 16 parity bits of the data and no other bit. -/
theorem poisonWord_getLsbD (i : Nat) : (poisonWord w).getLsbD i = (w.getLsbD i ^^ (decide (512 ≤ i) && decide (i < 528))) := by
  rw [poisonWord, BitVec.getLsbD_xor, BitVec.getLsbD_shiftLeft, show (0xFFFF#560) = BitVec.ofNat 560 (2 ^ 16 - 1) from rfl, BitVec.getLsbD_ofNat,
    Nat.testBit_two_pow_sub_one]
  congr 1
  rw [Bool.eq_iff_iff]
  simp only [Bool.and_eq_true, Bool.not_eq_true', decide_eq_true_eq, decide_eq_false_iff_not]
  omega

@[simp] theorem poisonWord_data : (poisonWord w).data = w.data := by
  refine BitVec.eq_of_getLsbD_eq fun i hi => ?_
  have h : ¬512 ≤ i := by omega
  simp only [Link.data, BitVec.getLsbD_extractLsb', poisonWord_getLsbD, Nat.zero_add, h, decide_false, Bool.false_and, Bool.xor_false]

@[simp] theorem poisonWord_ctl : (poisonWord w).ctl = w.ctl := by
  refine BitVec.eq_of_getLsbD_eq fun i hi => ?_
  have h : ¬529 + i < 528 := by omega
  simp only [Link.ctl, BitVec.getLsbD_extractLsb', poisonWord_getLsbD, h, decide_false, Bool.and_false, Bool.xor_false]

@[simp] theorem poisonWord_valid : (poisonWord w).valid = w.valid := by rw [Link.valid_eq, Link.valid_eq, poisonWord_ctl]
@[simp] theorem poisonWord_kind : (poisonWord w).kind = w.kind := by rw [Link.kind_eq, Link.kind_eq, poisonWord_ctl]
@[simp] theorem poisonWord_gen : (poisonWord w).gen = w.gen := by rw [Link.gen_eq, Link.gen_eq, poisonWord_ctl]
@[simp] theorem poisonWord_last : (poisonWord w).last = w.last := by rw [Link.last_eq, Link.last_eq, poisonWord_ctl]

theorem poisonWord_lanes : (poisonWord w).extractLsb' 512 16 = w.extractLsb' 512 16 ^^^ BitVec.allOnes 16 := by
  refine BitVec.eq_of_getLsbD_eq fun i hi => ?_
  have h1 : 512 ≤ 512 + i := by omega
  have h2 : 512 + i < 528 := by omega
  simp only [BitVec.getLsbD_extractLsb', BitVec.getLsbD_xor, BitVec.getLsbD_allOnes, poisonWord_getLsbD, hi, h1, h2, decide_true, Bool.true_and,
    Bool.and_self]

/-- A poisoned word whose parity was good has every parity bit wrong (R226). -/
theorem poisonWord_badLanes (h : w.badLanes = 0) : (poisonWord w).badLanes = 0xFFFF := by
  have he : w.extractLsb' 512 16 ^^^ dataPar w.data = 0 := BitVec.eq_of_toNat_eq h
  rw [Link.badLanes, poisonWord_lanes, poisonWord_data, BitVec.xor_assoc, BitVec.xor_comm (BitVec.allOnes 16), ← BitVec.xor_assoc, he]
  decide

end
end Sys2Proof.Machine


namespace Sys2Proof.Machine

section
variable {s t u : State}

/-! ### What a log entry changes -/

/-- `t` is `s` but for contexts and what is recorded. -/
def Logged (s t : State) : Prop := t = { s with ctxs := t.ctxs, logs := t.logs, host := t.host, outbox := t.outbox }

theorem Logged.refl : Logged s s := rfl

theorem Logged.trans (h : Logged s t) (h' : Logged t u) : Logged s u := by
  unfold Logged at h h' ⊢
  rw [h', h]

theorem Logged.recorded (h : Logged s t) (hr : Recorded t u) : Logged s u := by
  unfold Recorded at hr
  unfold Logged at h ⊢
  rw [hr, h]

theorem Logged.modCtx {c : Nat} {f : Context → Context} (h : Logged s t) : Logged s (t.modCtx c f) := h.trans (u := t.modCtx c f) rfl

theorem Logged.ite {q : Prop} [Decidable q] (ht : Logged s t) (hu : Logged s u) : Logged s (if q then t else u) := by
  split <;> assumption

theorem Logged.logErr {cls : Nat} {a : ErrAt} {body : List Byte} (h : Logged s t) : Logged s (t.logErr cls a body) := by
  unfold State.logErr
  extract_lets +onlyGivenNames x isStep first flags r t1
  have ht1 : Logged s t1 := .ite h.modCtx (.ite h.modCtx h)
  clear_value t1
  split
  exacts [ht1.recorded Recorded.refl.withLogs, ht1.recorded Recorded.refl.withLogs.fsUpdate]

theorem Logged.tile (h : Logged s t) (i : Nat) : t.tile i = s.tile i := by
  rw [h]
  rfl

theorem Logged.management (h : Logged s t) : SameManagement s t := by
  rw [h]
  exact ⟨rfl, rfl, rfl⟩

/-! ### Updates of tiles -/

section
variable {i j : Nat}

theorem KMap.set_set {α : Type} (m : KMap α) (a : Nat) (b b' : α) : (KMap.set m a b).set a b' = KMap.set m a b' := by
  induction m with
  | nil => simp [KMap.set]
  | cons e r ih =>
    obtain ⟨k, v⟩ := e
    rw [KMap.set, KMap.set]
    split
    · simp [KMap.set]
    · split
      · simp [KMap.set]
      · rw [KMap.set, if_neg ‹_›, if_neg ‹_›, ih]

/-- Two updates of one tile are one. -/
theorem State.modTile_modTile {f g : Tile → Tile} : (s.modTile i f).modTile i g = s.modTile i fun t => g (f t) := by
  conv_lhs => rw [State.modTile, State.tile_modTile_same]
  simp only [State.modTile, KMap.set_set]

theorem State.modTile_congr {f g : Tile → Tile} (h : f (s.tile i) = g (s.tile i)) : s.modTile i f = s.modTile i g := by
  rw [State.modTile, State.modTile, h]

/-- A property that an update of a tile keeps holds of a tile after it. -/
theorem State.tile_modTile_of {P : Tile → Prop} {f : Tile → Tile} (h : P (s.tile j)) (hf : ∀ x, P x → P (f x)) : P ((s.modTile i f).tile j) := by
  by_cases hj : j = i
  · subst hj
    rw [State.tile_modTile_same]
    exact hf _ h
  · rwa [State.tile_modTile_other _ hj]

/-- A word counted by a tile changes its counts of words alone. -/
theorem State.tile_flit_of {P : Tile → Prop} {k : Nat} {w : Link} (h : P (s.tile j)) (hf : ∀ x l, P x → P { x with tlm := { x.tlm with flits := l } }) :
    P ((s.flit i k w).tile j) := by
  unfold State.flit
  split
  exacts [State.tile_modTile_of h fun x => hf x _, h]

theorem State.tile_flit_other {k : Nat} {w : Link} (h : j ≠ i) : (s.flit i k w).tile j = s.tile j := by
  unfold State.flit
  split
  exacts [State.tile_modTile_other _ h, rfl]
end

/-! ### Folds in which one element counts -/

/-- Of a list without repetitions one element alone contributes. -/
theorem flatMap_eq_of_single {α β : Type} {f : α → List β} {l : List α} {x : α} (hl : l.Nodup) (hx : x ∈ l) (h : ∀ y ∈ l, y ≠ x → f y = []) :
    l.flatMap f = f x := by
  induction l with
  | nil => simp at hx
  | cons a l ih =>
    obtain ⟨ha, hl⟩ := List.nodup_cons.1 hl
    rw [List.flatMap_cons]
    by_cases hax : a = x
    · subst hax
      rw [List.flatMap_eq_nil_iff.2 fun y hy => h y (List.mem_cons_of_mem _ hy) fun he => ha (he ▸ hy), List.append_nil]
    · rw [h a (by simp) hax, List.nil_append]
      exact ih hl ((List.mem_cons.1 hx).resolve_left (Ne.symm hax)) fun y hy => h y (List.mem_cons_of_mem _ hy)

/-- In a fold over a list without repetitions the step of one element finds `P`, which the others keep, and leaves `Q`, which they keep too. -/
theorem foldl_once {α : Type} {f : State → α → State} {l : List α} {x : α} {P Q : State → Prop} (hl : l.Nodup) (hx : x ∈ l) (h : P s)
    (hP : ∀ a, ∀ y ∈ l, y ≠ x → P a → P (f a y)) (hs : ∀ a, P a → Q (f a x)) (hQ : ∀ a, ∀ y ∈ l, y ≠ x → Q a → Q (f a y)) : Q (l.foldl f s) := by
  induction l generalizing s with
  | nil => simp at hx
  | cons y l ih =>
    obtain ⟨hy, hl⟩ := List.nodup_cons.1 hl
    rw [List.foldl_cons]
    by_cases hyx : y = x
    · subst hyx
      exact List.foldlRecOn l f (hs s h) fun a ha z hz => hQ a z (List.mem_cons_of_mem _ hz) (fun he => hy (he ▸ hz)) ha
    · exact ih hl ((List.mem_cons.1 hx).resolve_left (Ne.symm hyx)) (hP s y (by simp) hyx h)
        (fun a z hz => hP a z (List.mem_cons_of_mem _ hz)) fun a z hz => hQ a z (List.mem_cons_of_mem _ hz)

/-! ### The message plane (R162–R165) -/

/-- The moves of the slot, in the order that the outputs make them. -/
def State.planeMoves (s : State) : List CellMove :=
  ((List.range 8).filter s.awake).flatMap fun p =>
    (s.cellTiles p).flatMap fun x => (List.range 5).filterMap fun out => s.cellMove p (s.cyc / 64) x.1 x.2.1 x.2.2 out

theorem messagePlaneSlot_eq {evs : List WireEvent} {cells : List FwCell} (h : s.slot31 0 = true) :
    messagePlaneSlot evs cells s = (cells.foldl s.sendCell (s.planeMoves.foldl (fun a v => a.moveCell evs v) s)).slotDone := by
  unfold messagePlaneSlot
  rw [h]
  rfl

theorem State.planeMoves_nil (h : ∀ p, p < 8 → s.awake p = true → s.cellTiles p = []) : s.planeMoves = [] := by
  refine List.flatMap_eq_nil_iff.2 fun p hp => ?_
  obtain ⟨hp, ha⟩ := List.mem_filter.1 hp
  rw [h p (List.mem_range.1 hp) ha, List.flatMap_nil]

section
variable {p row col i k out : Nat} {w : Link}

theorem nextHop_lt : nextHop row col w < 5 := by
  unfold nextHop
  split_ifs <;> omega

theorem latch_single {n : Nat} (hk : k < 5) : ((List.replicate 5 (none : Option Link)).set k (some w)).getD n none = if n = k then some w else none := by
  rw [List.getD_eq_getElem?_getD, List.getElem?_set]
  by_cases hn : k = n
  · subst hn
    simp [hk]
  · rw [if_neg hn, if_neg (Ne.symm hn), List.getElem?_replicate]
    split <;> rfl

/-- Where one tile holds a cell in one latch, at most the output of its next hop moves it. -/
theorem State.planeMoves_single (hp : p < 8) (ha : s.awake p = true) (hc : s.cellTiles p = [(row, col, i)])
    (ho : ∀ q, q < 8 → q ≠ p → s.awake q = true → s.cellTiles q = []) (hk : k < 5)
    (hl : (s.tile i).latches = (List.replicate 5 none).set k (some w)) :
    s.planeMoves = (s.cellMove p (s.cyc / 64) row col i (nextHop row col w)).toList := by
  have hm : p ∈ (List.range 8).filter s.awake := List.mem_filter.2 ⟨List.mem_range.2 hp, ha⟩
  rw [State.planeMoves, flatMap_eq_of_single (List.nodup_range.filter _) hm, hc]
  · rw [List.flatMap_singleton, List.filterMap_eq_flatMap_toList]
    refine flatMap_eq_of_single List.nodup_range (List.mem_range.2 nextHop_lt) fun out _ hout => ?_
    unfold State.cellMove
    by_cases hs : served out (s.cyc / 64) = k
    · simp only [hl, latch_single hk, if_pos hs, if_pos (Ne.symm hout), Option.toList_none]
    · simp only [hl, latch_single hk, if_neg hs, Option.toList_none]
  · intro q hq hqp
    obtain ⟨hq, haq⟩ := List.mem_filter.1 hq
    rw [ho q (List.mem_range.1 hq) hqp haq, List.flatMap_nil]

theorem State.cellMove_waits (hk : k < 5) (hl : (s.tile i).latches = (List.replicate 5 none).set k (some w))
    (h : served out (s.cyc / 64) ≠ k) : s.cellMove p (s.cyc / 64) row col i out = none := by
  unfold State.cellMove
  simp only [hl, latch_single hk, if_neg h]

theorem State.cellMove_delivers (hk : k < 5) (hl : (s.tile i).latches = (List.replicate 5 none).set k (some w))
    (h : served (nextHop row col w) (s.cyc / 64) = k) (hn : nextHop row col w = 4) :
    s.cellMove p (s.cyc / 64) row col i (nextHop row col w) = some ⟨i, k, w, none⟩ := by
  unfold State.cellMove
  simp only [hl, latch_single hk, h, if_true]
  rw [if_neg (by simp), if_pos hn]

theorem planeNext_out {x : Nat × Nat × Nat} (h : planeNext row col out = some x) : out ≠ 4 := by
  rintro rfl
  simp [planeNext] at h

theorem State.cellMove_hops {r2 c2 k2 j : Nat} (hk : k < 5) (hl : (s.tile i).latches = (List.replicate 5 none).set k (some w))
    (h : served out (s.cyc / 64) = k) (hn : nextHop row col w = out) (hx : planeNext row col out = some (r2, c2, k2))
    (hj : s.localTile p r2 c2 = some j) (he : (s.tile j).latches = List.replicate 5 none) :
    s.cellMove p (s.cyc / 64) row col i out = some ⟨i, k, w, some (j, k2, portCode j i (k2 + 1))⟩ := by
  have hj2 : ((s.tile j).latches.getD k2 none).isSome = false := by rw [he, List.getD_eq_getElem?_getD, List.getElem?_replicate]; split <;> rfl
  unfold State.cellMove
  simp only [hl, latch_single hk, h, hn, hx, hj, if_true]
  rw [if_neg (by simp), if_neg (planeNext_out hx)]
  simp only [hj2]
  rfl

theorem latch_cleared : ((List.replicate 5 (none : Option Link)).set k (some w)).set k none = List.replicate 5 none := by
  rw [List.set_set, List.set_replicate_self]

/-- A cell that passes its checks is taken by its tile. -/
theorem State.moveCell_takes {evs : List WireEvent} (hl : (s.tile i).latches = (List.replicate 5 none).set k (some w))
    (hp : (w ^^^ flipOf evs i 6).parOk = true) (hv : (w ^^^ flipOf evs i 6).valid = true) (hm : (w ^^^ flipOf evs i 6).kind = 1) :
    s.moveCell evs ⟨i, k, w, none⟩ = s.modTile i fun t => { t with latches := List.replicate 5 none, rx := t.rx.take (w ^^^ flipOf evs i 6) } := by
  unfold State.moveCell
  dsimp only
  rw [if_pos ⟨hp, hv, hm⟩, State.modTile_modTile]
  exact State.modTile_congr (by rw [hl, latch_cleared])

/-- A cell that fails them leaves its latch too: it is counted and logged, and its message discarded. -/
theorem State.moveCell_faults {evs : List WireEvent} (hl : (s.tile i).latches = (List.replicate 5 none).set k (some w))
    (hp : (w ^^^ flipOf evs i 6).parOk = false) (hg : 3 < s.start.stage) :
    ∃ a, ApartCtxs 0 0 s a ∧ (a.tile i).latches = List.replicate 5 none ∧ (a.tile i).rx = (s.tile i).rx.drop (w ^^^ flipOf evs i 6) ∧
      (a.tile i).tlm.parErr = min 0xFFFF ((s.tile i).tlm.parErr + 1) ∧ Logged a (s.moveCell evs ⟨i, k, w, none⟩) ∧
      ∃ r ∈ (s.moveCell evs ⟨i, k, w, none⟩).logs.errs, r.cls = if (s.holderOfSheet (i / 288)).isSome then 0x010B else 0x0406 := by
  unfold State.moveCell State.cellFault State.parErr
  dsimp only
  rw [if_neg (by simp [hp])]
  refine ⟨_, ApartCtxs.refl.modTile.modTile.modTile, ?_, ?_, ?_, Logged.refl.logErr, State.logErr_recorded hg⟩
  all_goals rw [State.tile_modTile_same, State.tile_modTile_same, State.tile_modTile_same]
  rw [hl, latch_cleared]

/-- A cell that hops goes from its latch to the latch of its next tile. -/
theorem State.moveCell_hops {evs : List WireEvent} {j k2 n : Nat} (hl : (s.tile i).latches = (List.replicate 5 none).set k (some w))
    (hij : j ≠ i) (he : (s.tile j).latches = List.replicate 5 none) :
    ApartCtxs 0 0 s (s.moveCell evs ⟨i, k, w, some (j, k2, n)⟩) ∧
      ((s.moveCell evs ⟨i, k, w, some (j, k2, n)⟩).tile i).latches = List.replicate 5 none ∧
      ((s.moveCell evs ⟨i, k, w, some (j, k2, n)⟩).tile j).latches = (List.replicate 5 none).set k2 (some (w ^^^ flipOf evs j n)) ∧
      ∀ x, x ≠ i → x ≠ j → (s.moveCell evs ⟨i, k, w, some (j, k2, n)⟩).tile x = s.tile x := by
  unfold State.moveCell
  dsimp only
  refine ⟨?_, ?_, ?_, fun x hi hj => ?_⟩
  · unfold State.flit
    split
    exacts [ApartCtxs.refl.modTile.modTile.modTile, ApartCtxs.refl.modTile.modTile]
  · rw [State.tile_flit_other (Ne.symm hij), State.tile_modTile_other _ (Ne.symm hij), State.tile_modTile_same, hl, latch_cleared]
  · refine State.tile_flit_of (P := fun t => t.latches = _) ?_ fun _ _ h => h
    rw [State.tile_modTile_same, State.tile_modTile_other _ hij, he]
  · rw [State.tile_flit_other hj, State.tile_modTile_other _ hj, State.tile_modTile_other _ hi]
end

/-! ### Maintenance words (R158, R167) -/

theorem Link.xor_zero (w : Link) : w ^^^ 0 = w := BitVec.xor_zero

theorem maintWord_ok {k : BitVec 3} : maintOk k (maintWord k 0) = true := by
  have hk : (1#1 ++ k ++ 0#27 : BitVec 31).getLsbD 30 = true ∧ (1#1 ++ k ++ 0#27 : BitVec 31).extractLsb' 27 3 = k := by
    revert k
    decide
  unfold maintOk maintWord
  rw [Link.xor_zero, Link.valid_eq, Link.kind_eq, mkWord_parOk, mkWord_ctl, hk.1, hk.2, decide_eq_true rfl]
  rfl

theorem flipOf_nil (i port : Nat) : flipOf [] i port = 0 := rfl

theorem maintWord_nil {k : BitVec 3} {i port : Nat} : maintOk k (maintWord k (flipOf [] i port)) = true := maintWord_ok

section
variable {m n pc i r : Nat} {evs : List WireEvent} {P : Tile → Prop}

/-! ### Couch words (R167, R168, R448) -/

theorem ApartCtxs.flit {k p q j : Nat} {w : Link} (h : ApartCtxs p q s t) : ApartCtxs p q s (t.flit j k w) := by
  unfold State.flit
  split
  exacts [h.modTile, h]

theorem ApartCtxs.couchSlot {p q : Nat} (h : ApartCtxs p q s t) : ApartCtxs p q s (t.couchSlot evs n) := by
  unfold State.couchSlot
  extract_lets x
  split
  · split
    · exact h
    · extract_lets rows came s0
      have hs0 : ApartCtxs p q s s0 := h.foldl fun ha => ha.flit
      split
      · next j port w _ =>
        have hc : ApartCtxs p q s (s0.couchFault j port w) := hs0.modTile.logErr rfl
        exact hc.modSheet
      · split
        exacts [hs0.modSheet, hs0.modSheet]
  · exact h

theorem State.flit_sheets {k : Nat} {w : Link} : (s.flit i k w).sheets = s.sheets := by
  unfold State.flit
  split <;> rfl

theorem State.flit_snap {j k : Nat} {w : Link} : ((s.flit i k w).tile j).snap = (s.tile j).snap :=
  State.tile_flit_of (P := fun t => t.snap = (s.tile j).snap) rfl fun _ _ h => h

theorem State.tile_couchSlot_of (h : P (s.tile i)) (hf : ∀ x l, P x → P { x with tlm := l }) : P ((s.couchSlot evs n).tile i) := by
  unfold State.couchSlot
  extract_lets x
  split
  · split
    · exact h
    · extract_lets rows came s0
      have hs0 : P (s0.tile i) := List.foldlRecOn (motive := fun a : State => P (a.tile i)) _ _ h fun a ha y _ =>
        State.tile_flit_of ha fun x l => hf x _
      split
      · next j port w _ =>
        change P ((s0.couchFault j port w).tile i)
        unfold State.couchFault
        rw [(Logged.refl.logErr).tile]
        exact State.tile_modTile_of hs0 fun x => hf x _
      · split <;> exact hs0
  · exact h

/-- Where the wire has no fault, couching changes one sheet alone: one word of each row goes over, or the first dirty word of each row. -/
theorem State.couchSlot_nil {d : Dwell} (hd : (s.sheet n).dwell = some d) (hr : (s.sheet n).rove = some pc) (hp : d.phase = .couchIn)
    (ht : d.target ≠ none) : ∃ (a : State) (g : Sheet → Sheet), a.sheets = s.sheets ∧ s.couchSlot [] n = a.modSheet n g ∧ (d.couched = none → ∀ x,
      (g x).dwell = some { d with words := d.words + 1 } ∧ (g x).dirty = x.dirty) ∧ (d.couched ≠ none → ∀ x, (g x).dwell = x.dwell ∧
      (g x).dirty = (List.range 16).flatMap fun r => (x.dirty.filter fun w => w / 65536 = r).drop 1) := by
  unfold State.couchSlot
  simp only [hd, hr]
  rw [if_neg (by simpa [hp, Option.eq_none_iff_forall_ne_some] using Option.ne_none_iff_exists'.1 ht)]
  split
  · next hfind =>
    obtain ⟨r, -, hw⟩ := List.mem_map.1 (List.mem_of_find?_eq_some hfind)
    have hbad := List.find?_some hfind
    rw [← hw, maintWord_nil] at hbad
    cases hbad
  · have hs : ∀ (l : List (Nat × Nat × Link)), (l.foldl (fun a y => a.flit y.1 y.2.1 y.2.2) s).sheets = s.sheets := fun l =>
      foldl_same (g := State.sheets) fun _ _ => State.flit_sheets
    split
    · next hc =>
      exact ⟨_, _, hs _, rfl, fun _ x => ⟨rfl, rfl⟩, fun h => absurd (Option.isNone_iff_eq_none.1 hc) h⟩
    · next hc => exact ⟨_, _, hs _, rfl, fun h => absurd (Option.isNone_iff_eq_none.2 h) hc, fun _ x => ⟨rfl, rfl⟩⟩

theorem State.sheet_couchSlot_other (h : m ≠ n) : (s.couchSlot [] n).sheet m = s.sheet m := by
  by_cases hc : ∃ d pc, (s.sheet n).dwell = some d ∧ (s.sheet n).rove = some pc ∧ d.phase = .couchIn ∧ d.target ≠ none
  · obtain ⟨d, pc, hd, hr, hp, ht⟩ := hc
    obtain ⟨a, g, ha, he, -⟩ := State.couchSlot_nil hd hr hp ht
    rw [he, State.sheet_modSheet_other _ _ _ _ (Ne.symm h), State.sheet, ha, State.sheet]
  · have he : s.couchSlot [] n = s := by
      unfold State.couchSlot
      extract_lets x
      split
      · next d pc hd hr =>
        refine if_pos (by_contra fun hn => hc ⟨d, pc, hd, hr, ?_⟩)
        simpa [Option.isNone_iff_eq_none] using hn
      · rfl
    rw [he]

/-! ### Telemetry (R169, R171) and self-test control -/

theorem ApartCtxs.snapArrived {p q a : Nat} {x : Tlm} (h : ApartCtxs p q s t) : ApartCtxs p q s (t.snapArrived i x a) :=
  ⟨⟨h.clk, h.pts, h.dram, h.pool, h.management, h.count⟩, h.ctxs⟩

/-- A tile with its snapshot in. -/
def Tile.snapped (x : Tlm) (t : Tile) : Tile := { t with sending := none, snap := { x with qmax := List.zipWith max x.qmax t.snap.qmax } }

theorem State.tile_snapArrived {j a : Nat} {x : Tlm} : (s.snapArrived i x a).tile j = (s.modTile i (Tile.snapped x)).tile j := rfl

theorem ApartCtxs.tlmSlot {p q : Nat} (h : ApartCtxs p q s t) : ApartCtxs p q s (t.tlmSlot evs n pc) := by
  unfold State.tlmSlot
  split
  · exact h
  · next r _ =>
    extract_lets j mask s1
    have hs1 : ApartCtxs p q s s1 := h.foldl fun ha => ha.flit
    split
    · exact hs1.modTile.modTile
    · split
      · exact hs1
      · split
        exacts [hs1.modTile, hs1.snapArrived]

theorem State.tlmSlot_sheets : (s.tlmSlot evs n pc).sheets = s.sheets := by
  unfold State.tlmSlot
  split
  · rfl
  · next r _ =>
    extract_lets j mask s1
    have hs1 : s1.sheets = s.sheets := foldl_same (g := State.sheets) fun _ _ => State.flit_sheets
    split
    · exact hs1
    · split
      · exact hs1
      · split <;> exact hs1

/-- The telemetry cell of a column leaves the tiles of the others alone. -/
theorem State.tile_tlmSlot_other (h : ∀ r, r < 16 → i ≠ tileIx n pc r) : (s.tlmSlot evs n pc).tile i = s.tile i := by
  unfold State.tlmSlot
  split
  · rfl
  · next r hr =>
    have hr : r < 16 := List.mem_range.1 (List.mem_of_find?_eq_some hr)
    extract_lets j mask s1
    have hs1 : s1.tile i = s.tile i := List.foldlRecOn (motive := fun a : State => a.tile i = s.tile i) _ _ rfl fun a ha k hk =>
      (State.tile_flit_other (h k (by have := List.mem_range.1 hk; omega))).trans ha
    clear_value s1
    have hi : i ≠ j := h r hr
    split
    · unfold State.parErr
      rw [State.tile_modTile_other _ (h 0 (by decide)), State.tile_modTile_other _ hi, hs1]
    · split
      · exact hs1
      · split
        · rw [State.tile_modTile_other _ hi, hs1]
        · rw [State.tile_snapArrived, State.tile_modTile_other _ hi, hs1]

/-- Where the wire has no fault, the snapshot nearest T00 goes on by a cell, or stands in its tile for COUNTERS after its last. -/
theorem State.tlmSlot_nil {x : Tlm} {k a : Nat} (hr : r < 16) (hn : ∀ j, j < r → (s.tile (tileIx n pc j)).sending = none)
    (hx : (s.tile (tileIx n pc r)).sending = some (x, k, a)) :
    (1 < k → ((s.tlmSlot [] n pc).tile (tileIx n pc r)).sending = some (x, k - 1, a) ∧
      ((s.tlmSlot [] n pc).tile (tileIx n pc r)).snap = (s.tile (tileIx n pc r)).snap) ∧
    (k ≤ 1 → ((s.tlmSlot [] n pc).tile (tileIx n pc r)).sending = none ∧
      ((s.tlmSlot [] n pc).tile (tileIx n pc r)).snap = { x with qmax := List.zipWith max x.qmax (s.tile (tileIx n pc r)).snap.qmax }) := by
  have hf : (List.range 16).find? (fun r => (s.tile (tileIx n pc r)).sending.isSome) = some r :=
    List.find?_range_eq_some.2 ⟨by rw [hx]; rfl, List.mem_range.2 hr, fun j hj => by rw [hn j hj]; rfl⟩
  have hm (l : List Nat) : l.foldl (fun m y => m ^^^ flipOf [] (tileIx n pc y) 1) (0 : Link) = 0 :=
    List.foldlRecOn (motive := (· = 0)) l _ rfl fun b hb y _ => by rw [hb, flipOf_nil, Link.xor_zero]
  unfold State.tlmSlot
  simp only [hf, hm, maintWord_ok, hx, Bool.not_true, Bool.false_eq_true, if_false]
  generalize hs1 : (List.range r).foldl _ s = s1
  have hsnap : (s1.tile (tileIx n pc r)).snap = (s.tile (tileIx n pc r)).snap := by
    rw [← hs1]
    exact foldl_same (g := fun a : State => (a.tile (tileIx n pc r)).snap) fun _ _ => State.flit_snap
  refine ⟨fun hk => ?_, fun hk => ?_⟩
  · rw [if_pos hk, State.tile_modTile_same]
    exact ⟨rfl, hsnap⟩
  · rw [if_neg (by omega), State.tile_snapArrived, State.tile_modTile_same, ← hsnap]
    exact ⟨rfl, rfl⟩

theorem ApartCtxs.testSlot {p q : Nat} (h : ApartCtxs p q s t) : ApartCtxs p q s (t.testSlot evs n) := by
  unfold State.testSlot
  extract_lets x
  split
  · extract_lets phase1 came s1
    split
    · exact h
    · have hs1 : ApartCtxs p q s s1 := h.foldl fun ha => ha.flit
      split
      exacts [ApartCtxs.modSheet hs1.modTile, hs1]
  · exact h

theorem State.testSlot_sheets : (s.testSlot [] n).sheets = s.sheets := by
  unfold State.testSlot
  extract_lets x
  split
  · extract_lets phase1 came s1
    split
    · rfl
    · have hs1 : s1.sheets = s.sheets := foldl_same (g := State.sheets) fun _ _ => State.flit_sheets
      split
      · next y hfind =>
        obtain ⟨r, -, rfl⟩ := List.mem_map.1 (List.mem_of_find?_eq_some hfind)
        have hbad := List.find?_some hfind
        rw [maintWord_nil] at hbad
        cases hbad
      · exact hs1
  · rfl
end

/-! ### The slots -/

/-- The sheets whose maintenance traffic moves, each once. -/
def State.awakeSheets (s : State) : List Nat := ((List.range 8).filter s.awake).flatMap sheetsOfPt

theorem State.awakeSheets_nodup : s.awakeSheets.Nodup := by
  refine List.nodup_flatMap.2 ⟨fun p _ => List.nodup_range.filter _, (List.nodup_range.filter _).pairwise_of_forall_ne ?_⟩
  intro p _ q _ hpq n hp hq
  have hp := (List.mem_filter.1 hp).2
  have hq := (List.mem_filter.1 hq).2
  simp only [decide_eq_true_eq] at hp hq
  exact hpq (hp.symm.trans hq)

theorem State.mem_awakeSheets {n : Nat} (hn : n < 24) (ha : s.awake (ptOfSheet n) = true) : n ∈ s.awakeSheets :=
  List.mem_flatMap.2 ⟨ptOfSheet n, List.mem_filter.2 ⟨List.mem_range.2 (by unfold ptOfSheet; omega), ha⟩,
    List.mem_filter.2 ⟨List.mem_range.2 hn, by simp⟩⟩

/-- The couch words of the slot. -/
def State.couchAll (s : State) (evs : List WireEvent) : State := s.awakeSheets.foldl (fun a n => a.couchSlot evs n) s

/-- The vertical traffic of the slot, in the state `t` with its couch words moved. -/
def State.columnsAll (s t : State) (evs : List WireEvent) : State :=
  if s.cyc / 64 % 2 = 0 then s.awakeSheets.foldl (fun a n => (List.range 18).foldl (fun b pc => b.tlmSlot evs n pc) a) t
  else s.awakeSheets.foldl (fun a n => a.testSlot evs n) t

theorem maintenanceSlot_eq {evs : List WireEvent} (h : s.slot31 1 = true) :
    maintenanceSlot evs s = (s.columnsAll (s.couchAll evs) evs).slotDone := by
  unfold maintenanceSlot
  rw [h]
  rfl

section
variable {n pc : Nat} {evs : List WireEvent} {d : Dwell}

theorem State.couchSlot_idle (h : (s.sheet n).dwell = none) : s.couchSlot evs n = s := by
  unfold State.couchSlot
  simp only [h]

theorem State.testSlot_idle (h : (s.sheet n).dwell = none) : s.testSlot evs n = s := by
  unfold State.testSlot
  simp only [h]

theorem State.tlmSlot_idle (h : ∀ i, (s.tile i).sending = none) : s.tlmSlot evs n pc = s := by
  have hf : (List.range 16).find? (fun r => (s.tile (tileIx n pc r)).sending.isSome) = none := List.find?_eq_none.2 fun r _ => by rw [h]; decide
  unfold State.tlmSlot
  simp only [hf]

/-- With no dwell and no snapshot on its way nothing moves. -/
theorem State.columnsAll_idle (hd : ∀ n, (s.sheet n).dwell = none) (hx : ∀ i, (s.tile i).sending = none) :
    s.columnsAll (s.couchAll evs) evs = s := by
  have hc : s.couchAll evs = s := List.foldlRecOn (motive := (· = s)) _ _ rfl fun a ha n _ => by rw [ha, State.couchSlot_idle (hd n)]
  rw [hc]
  unfold State.columnsAll
  split
  · exact List.foldlRecOn (motive := (· = s)) _ _ rfl fun a ha n _ =>
      List.foldlRecOn (motive := (· = s)) _ _ ha fun b hb pc _ => by rw [hb, State.tlmSlot_idle hx]
  · exact List.foldlRecOn (motive := (· = s)) _ _ rfl fun a ha n _ => by rw [ha, State.testSlot_idle (hd n)]

theorem ApartCtxs.couchAll : ApartCtxs 0 0 s (s.couchAll evs) := ApartCtxs.refl.foldl fun ha => ha.couchSlot

theorem ApartCtxs.columnsAll {p q : Nat} (h : ApartCtxs p q t u) : ApartCtxs p q t (s.columnsAll u evs) := by
  unfold State.columnsAll
  split
  exacts [h.foldl fun ha => ha.foldl fun hb => hb.tlmSlot, h.foldl fun ha => ha.testSlot]

theorem State.columnsAll_sheet {m : Nat} : (s.columnsAll t []).sheet m = t.sheet m := by
  have h : (s.columnsAll t []).sheets = t.sheets := by
    unfold State.columnsAll
    split
    · exact foldl_same (g := State.sheets) fun _ _ => foldl_same (g := State.sheets) fun _ _ => State.tlmSlot_sheets
    · exact foldl_same (g := State.sheets) fun _ _ => State.testSlot_sheets
  rw [State.sheet, h, State.sheet]

/-- Each couch of the slot moves its words once. -/
theorem State.couchAll_sheet (hs : Shaped s) (hn : n < 24) (ha : s.awake (ptOfSheet n) = true) (hd : (s.sheet n).dwell = some d)
    (hr : (s.sheet n).rove = some pc) (hp : d.phase = .couchIn) (ht : d.target ≠ none) :
    (d.couched = none → ((s.couchAll []).sheet n).dwell = some { d with words := d.words + 1 } ∧
      ((s.couchAll []).sheet n).dirty = (s.sheet n).dirty) ∧
    (d.couched ≠ none → ((s.couchAll []).sheet n).dwell = some d ∧
      ((s.couchAll []).sheet n).dirty = (List.range 16).flatMap fun r => ((s.sheet n).dirty.filter fun w => w / 65536 = r).drop 1) := by
  refine foldl_once (P := fun a => Shaped a ∧ a.sheet n = s.sheet n) (Q := fun a => (d.couched = none →
    (a.sheet n).dwell = some { d with words := d.words + 1 } ∧ (a.sheet n).dirty = (s.sheet n).dirty) ∧ (d.couched ≠ none →
    (a.sheet n).dwell = some d ∧ (a.sheet n).dirty = (List.range 16).flatMap fun r => ((s.sheet n).dirty.filter fun w => w / 65536 = r).drop 1))
    State.awakeSheets_nodup (State.mem_awakeSheets hn ha) ⟨hs, rfl⟩ (fun a m _ hm h => ⟨h.1.couchSlot, ?_⟩) (fun a h => ?_) fun a m _ hm h => ?_
  · rw [State.sheet_couchSlot_other (Ne.symm hm), h.2]
  · obtain ⟨hsa, he⟩ := h
    obtain ⟨b, g, hb, hx, h1, h2⟩ := State.couchSlot_nil (by rw [he, hd]) (by rw [he, hr]) hp ht
    have hg : (a.couchSlot [] n).sheet n = g (s.sheet n) := by
      rw [hx, State.sheet_modSheet_same _ _ _ (by rwa [hb, hsa.sheets_length]), State.sheet, hb, ← State.sheet, he]
    rw [hg]
    refine ⟨fun hc => h1 hc _, fun hc => ?_⟩
    rw [(h2 hc _).1, hd]
    exact ⟨rfl, (h2 hc _).2⟩
  · rwa [State.sheet_couchSlot_other (Ne.symm hm)]

theorem State.couchAll_tlm (i : Nat) : ((s.couchAll evs).tile i).sending = (s.tile i).sending ∧ ((s.couchAll evs).tile i).snap = (s.tile i).snap :=
  List.foldlRecOn (motive := fun a : State => (a.tile i).sending = (s.tile i).sending ∧ (a.tile i).snap = (s.tile i).snap) _ _ ⟨rfl, rfl⟩
    fun _ ha _ _ => State.tile_couchSlot_of (P := fun t => t.sending = (s.tile i).sending ∧ t.snap = (s.tile i).snap) ha fun _ _ h => h

theorem tileIx_ne {n m pc q r k : Nat} (hp : pc < 18) (hq : q < 18) (hr : r < 16) (hk : k < 16) (h : n ≠ m ∨ pc ≠ q) :
    tileIx n pc r ≠ tileIx m q k := by
  unfold tileIx
  omega

/-- Each column moves one cell of telemetry in the slot. -/
theorem State.columnsAll_tlm {r k a : Nat} {x v : Tlm} (hn : n < 24) (hpc : pc < 18) (hr : r < 16) (ha : s.awake (ptOfSheet n) = true)
    (hm : s.cyc / 64 % 2 = 0) (hj : ∀ j, j < r → (t.tile (tileIx n pc j)).sending = none)
    (hx : (t.tile (tileIx n pc r)).sending = some (x, k, a)) (hv : (t.tile (tileIx n pc r)).snap = v) :
    (1 < k → ((s.columnsAll t []).tile (tileIx n pc r)).sending = some (x, k - 1, a) ∧ ((s.columnsAll t []).tile (tileIx n pc r)).snap = v) ∧
    (k ≤ 1 → ((s.columnsAll t []).tile (tileIx n pc r)).sending = none ∧
      ((s.columnsAll t []).tile (tileIx n pc r)).snap = { x with qmax := List.zipWith max x.qmax v.qmax }) := by
  let P (b : State) : Prop := (∀ j, j < r → (b.tile (tileIx n pc j)).sending = none) ∧ (b.tile (tileIx n pc r)).sending = some (x, k, a) ∧
    (b.tile (tileIx n pc r)).snap = v
  let Q (b : State) : Prop := (1 < k → (b.tile (tileIx n pc r)).sending = some (x, k - 1, a) ∧ (b.tile (tileIx n pc r)).snap = v) ∧
    (k ≤ 1 → (b.tile (tileIx n pc r)).sending = none ∧ (b.tile (tileIx n pc r)).snap = { x with qmax := List.zipWith max x.qmax v.qmax })
  have hother (b : State) (m q : Nat) (hq : q ∈ List.range 18) (hne : m ≠ n ∨ q ≠ pc) (j : Nat) (hj : j < 16) :
      (b.tlmSlot [] m q).tile (tileIx n pc j) = b.tile (tileIx n pc j) :=
    State.tile_tlmSlot_other fun r' hr' => tileIx_ne hpc (List.mem_range.1 hq) hj hr' (hne.imp Ne.symm Ne.symm)
  have hP (b : State) (m q : Nat) (hq : q ∈ List.range 18) (hne : m ≠ n ∨ q ≠ pc) (h : P b) : P (b.tlmSlot [] m q) := by
    refine ⟨fun j hj => ?_, ?_⟩
    · rw [hother b m q hq hne j (by omega)]
      exact h.1 j hj
    · rw [hother b m q hq hne r hr]
      exact h.2
  have hQ (b : State) (m q : Nat) (hq : q ∈ List.range 18) (hne : m ≠ n ∨ q ≠ pc) (h : Q b) : Q (b.tlmSlot [] m q) := by
    unfold Q
    rw [hother b m q hq hne r hr]
    exact h
  have hcol (b : State) (h : P b) : Q ((List.range 18).foldl (fun e q => e.tlmSlot [] n q) b) := by
    refine foldl_once (P := P) (Q := Q) List.nodup_range (List.mem_range.2 hpc) h (fun e q hq hne => hP e n q hq (.inr hne)) (fun e he => ?_)
      fun e q hq hne => hQ e n q hq (.inr hne)
    obtain ⟨h1, h2, h3⟩ := he
    have := State.tlmSlot_nil hr h1 h2
    rwa [h3] at this
  have he : s.columnsAll t [] = s.awakeSheets.foldl (fun a n => (List.range 18).foldl (fun b pc => b.tlmSlot [] n pc) a) t := if_pos hm
  rw [he]
  exact foldl_once (P := P) (Q := Q) State.awakeSheets_nodup (State.mem_awakeSheets hn ha) ⟨hj, hx, hv⟩
    (fun b m _ hne h => List.foldlRecOn _ _ h fun e he q hq => hP e m q hq (.inl hne) he) hcol
    fun b m _ hne h => List.foldlRecOn _ _ h fun e he q hq => hQ e m q hq (.inl hne) he
end

theorem ApartCtxs.slotDone_facts {p q : Nat} (h : ApartCtxs p q s t) : t.slotDone.clk = { s.clk with slotAt := s.clk.life + 1 } ∧
    t.slotDone.ctxs = s.ctxs ∧ t.slotDone.dram = s.dram ∧ t.slotDone.pool = s.pool ∧ t.slotDone.pts = s.pts ∧ SameManagement s t.slotDone := by
  refine ⟨?_, h.ctxs, h.dram, h.pool, h.pts, h.management⟩
  unfold State.slotDone
  rw [h.clk]

@[simp] theorem slotDone_tile (i : Nat) : s.slotDone.tile i = s.tile i := rfl

@[simp] theorem slotDone_sheet (n : Nat) : s.slotDone.sheet n = s.sheet n := rfl

section
variable {evs : List WireEvent}

theorem messagePlaneSlot_quiet {cells : List FwCell} (h : s.slot31 0 = true) (hc : ∀ p, p < 8 → s.awake p = true → s.cellTiles p = []) :
    messagePlaneSlot evs cells s = (cells.foldl s.sendCell s).slotDone := by
  rw [messagePlaneSlot_eq h, State.planeMoves_nil hc]
  rfl

/-- A cell that firmware sends stands in the L latch of its tile. -/
theorem State.sendCell_sends {x : FwCell} {i : Nat} (hi : i = tileIx x.t.sh x.t.pc x.t.row) (ha : s.awake (ptOfSheet x.t.sh) = true)
    (hr : s.mgmt.restart = none) (hl : (s.tile i).latches = List.replicate 5 none) :
    s.sendCell s x = s.modTile i fun t => { t with latches := (List.replicate 5 none).set 4 (some (cellWord x)) } := by
  subst hi
  have hl4 : (s.tile (tileIx x.t.sh x.t.pc x.t.row)).latches.getD 4 none = none := by rw [hl]; rfl
  unfold State.sendCell
  extract_lets i
  rw [if_neg (by simp only [i, ha, hr, hl4]; decide)]
  exact State.modTile_congr (by rw [hl])

section
variable {p row col i k : Nat} {w : Link}

theorem messagePlaneSlot_single {x : Option CellMove} (h : s.slot31 0 = true) (hp : p < 8) (ha : s.awake p = true)
    (hc : s.cellTiles p = [(row, col, i)]) (ho : ∀ q, q < 8 → q ≠ p → s.awake q = true → s.cellTiles q = []) (hk : k < 5)
    (hl : (s.tile i).latches = (List.replicate 5 none).set k (some w)) (hx : s.cellMove p (s.cyc / 64) row col i (nextHop row col w) = x) :
    messagePlaneSlot evs [] s = (x.toList.foldl (fun a v => a.moveCell evs v) s).slotDone := by
  rw [messagePlaneSlot_eq h, State.planeMoves_single hp ha hc ho hk hl, hx]
  rfl
end

theorem maintenanceSlot_answers (hs : Shaped s) (h : s.slot31 1 = true) :
    Answers (.maintenanceSlot []) s fun t => t.clk = { s.clk with slotAt := s.clk.life + 1 } ∧
      (∀ n d pc, n < 24 → s.awake (ptOfSheet n) = true → (s.sheet n).dwell = some d → (s.sheet n).rove = some pc → d.phase = .couchIn →
        d.target ≠ none →
        (d.couched = none → (t.sheet n).dwell = some { d with words := d.words + 1 } ∧ (t.sheet n).dirty = (s.sheet n).dirty) ∧
        (d.couched ≠ none → (t.sheet n).dwell = some d ∧
          (t.sheet n).dirty = (List.range 16).flatMap fun r => ((s.sheet n).dirty.filter fun w => w / 65536 = r).drop 1)) ∧
      (∀ n pc r x k a, n < 24 → pc < 18 → r < 16 → s.awake (ptOfSheet n) = true → s.cyc / 64 % 2 = 0 →
        (∀ j, j < r → (s.tile (tileIx n pc j)).sending = none) → (s.tile (tileIx n pc r)).sending = some (x, k, a) →
        (1 < k → (t.tile (tileIx n pc r)).sending = some (x, k - 1, a) ∧ (t.tile (tileIx n pc r)).snap = (s.tile (tileIx n pc r)).snap) ∧
        (k ≤ 1 → (t.tile (tileIx n pc r)).sending = none ∧
          (t.tile (tileIx n pc r)).snap = { x with qmax := List.zipWith max x.qmax (s.tile (tileIx n pc r)).snap.qmax })) ∧
      t.ctxs = s.ctxs ∧ t.dram = s.dram ∧ t.pool = s.pool ∧ t.pts = s.pts ∧ SameManagement s t := by
  obtain ⟨hclk, hctxs, hdram, hpool, hpts, hm⟩ := ((ApartCtxs.couchAll (s := s) (evs := [])).columnsAll (s := s) (evs := [])).slotDone_facts
  refine answers_of (congrArg (nextOf s) (maintenanceSlot_eq h)) ?_
  simp only [settle_clk, settle_sheet, settle_tile, settle_ctxs, settle_dram, settle_pool, settle_pts, slotDone_tile, slotDone_sheet,
    State.columnsAll_sheet]
  refine ⟨hclk, fun n d pc hn ha hd hr hp ht => State.couchAll_sheet hs hn ha hd hr hp ht, fun n pc r x k a hn hpc hr ha hc hj hx => ?_,
    hctxs, hdram, hpool, hpts, hm.settle⟩
  refine State.columnsAll_tlm hn hpc hr ha hc (fun j hjr => ?_) ?_ (State.couchAll_tlm _).2
  · rw [(State.couchAll_tlm _).1, hj j hjr]
  · rw [(State.couchAll_tlm _).1, hx]
end

end
end Sys2Proof.Machine

open Sys2Proof.Machine in
/-- Settles O38: the moves of an even slot are at most one where one tile holds one cell, and in an odd slot each sheet and each column moves
once. -/
theorem reservedTraffic : Obligations.ReservedTraffic := by
  unfold Obligations.ReservedTraffic
  refine ⟨fun s evs _ => ⟨?_, ?_, ?_, ?_⟩, fun s evs hs => ⟨?_, ?_, maintenanceSlot_answers hs⟩⟩
  · exact fun cells h => makes_of (congrArg (nextOf s) (if_pos (by simp [h])))
  · intro x i h hc hi ha hr hl
    refine makes_of (congrArg (nextOf s) ((messagePlaneSlot_quiet h hc).trans ?_))
    rw [List.foldl_cons, List.foldl_nil, State.sendCell_sends hi ha hr hl]
  · exact fun h hc => makes_of (congrArg (nextOf s) (messagePlaneSlot_quiet h hc))
  · intro p row col i k w out h hp ha hc ho hk hl hout
    subst hout
    have hsingle {x : Option CellMove} := messagePlaneSlot_single (evs := evs) (x := x) h hp ha hc ho hk hl
    refine ⟨fun hsv => ?_, fun hsv h4 hpar hv hkind => ?_, fun hsv h4 hpar hg => ?_, fun r2 c2 k2 j hsv hnx hj hij he => ?_⟩
    · exact makes_of (congrArg (nextOf s) (hsingle (State.cellMove_waits hk hl hsv)))
    · have hx := hsingle (State.cellMove_delivers hk hl hsv h4)
      refine makes_of (congrArg (nextOf s) (hx.trans ?_))
      exact congrArg State.slotDone (State.moveCell_takes hl hpar hv hkind)
    · have hx := hsingle (State.cellMove_delivers hk hl hsv h4)
      obtain ⟨a, hsa, hlat, hrx, herr, hlog, hrec⟩ := State.moveCell_faults (k := k) hl hpar hg
      refine answers_of (congrArg (nextOf s) hx) ?_
      simp only [settle_tile, settle_logs, settle_dram, settle_pool, settle_pts, slotDone_tile, Option.toList_some, List.foldl_cons, List.foldl_nil,
        hlog.tile]
      refine ⟨hlat, hrx, herr, hrec, ?_, ?_, ?_, SameManagement.settle ?_⟩
      · exact (congrArg State.dram hlog).trans hsa.dram
      · exact (congrArg State.pool hlog).trans hsa.pool
      · exact (congrArg State.pts hlog).trans hsa.pts
      · obtain ⟨hi1, hm1, hs1⟩ := hlog.management
        obtain ⟨hi2, hm2, hs2⟩ := hsa.management
        exact ⟨hi1.trans hi2, hm1.trans hm2, hs1.trans hs2⟩
    · have hx := hsingle (State.cellMove_hops hk hl hsv rfl hnx hj he)
      obtain ⟨hsa, hi, hjt, hother⟩ := State.moveCell_hops (evs := evs) (k := k) (k2 := k2) (n := portCode j i (k2 + 1)) hl hij he
      obtain ⟨-, hctxs, hdram, hpool, hpts, hm⟩ := hsa.slotDone_facts
      refine answers_of (congrArg (nextOf s) hx) ?_
      simp only [settle_tile, settle_ctxs, settle_dram, settle_pool, settle_pts, slotDone_tile, Option.toList_some, List.foldl_cons,
        List.foldl_nil]
      exact ⟨hi, hjt, hother, hctxs, hdram, hpool, hpts, hm.settle⟩
  · exact fun h => makes_of (congrArg (nextOf s) (if_pos (by simp [h])))
  · intro h hd hx
    exact makes_of (congrArg (nextOf s) ((maintenanceSlot_eq h).trans (congrArg State.slotDone (State.columnsAll_idle hd hx))))


namespace Sys2Proof.Machine

section
variable {s t u : State}

/-! ### What a cycle changes before its writes land (R134, R137) -/

/-- `t` is `s` but for the units, contexts, words on links, operations, jobs, what the fabric carries, and what is recorded. -/
def CycleWork (s t : State) : Prop := t = { s with
  ctxs := t.ctxs, pts := t.pts, chans := t.chans, sheets := t.sheets, tiles := t.tiles, flights := t.flights, scratch := t.scratch
  fresh := t.fresh, ops := t.ops, jobs := t.jobs, ports := t.ports, rxq := t.rxq, logs := t.logs, host := t.host, outbox := t.outbox }

section
variable {c k n : Nat}

theorem CycleWork.refl : CycleWork s s := rfl

theorem CycleWork.trans (h : CycleWork s t) (h' : CycleWork t u) : CycleWork s u := by
  unfold CycleWork at h h' ⊢
  rw [h', h]

theorem CycleWork.ite {q : Prop} [Decidable q] (ht : CycleWork s t) (hu : CycleWork s u) : CycleWork s (if q then t else u) := by
  split <;> assumption

theorem CycleWork.foldl {α : Type} {l : List α} {f : State → α → State} (h : CycleWork s t)
    (hf : ∀ {a x}, CycleWork s a → CycleWork s (f a x)) : CycleWork s (l.foldl f t) :=
  List.foldlRecOn l f h fun _ ha _ _ => hf ha

theorem CycleWork.of_faultWork (h : FaultWork s t) : CycleWork s t := by
  unfold FaultWork at h
  unfold CycleWork
  rw [h]

theorem CycleWork.of_logged (h : Logged s t) : CycleWork s t := by
  unfold Logged at h
  unfold CycleWork
  rw [h]

theorem CycleWork.of_recorded (h : Recorded s t) : CycleWork s t := by
  unfold Recorded at h
  unfold CycleWork
  rw [h]

theorem CycleWork.modCtx {f : Context → Context} (h : CycleWork s t) : CycleWork s (t.modCtx c f) := h.trans (u := t.modCtx c f) rfl
theorem CycleWork.modPt {f : Partition → Partition} (h : CycleWork s t) : CycleWork s (t.modPt c f) := h.trans (u := t.modPt c f) rfl
theorem CycleWork.modChan {f : Chan → Chan} (h : CycleWork s t) : CycleWork s (t.modChan c f) := h.trans (u := t.modChan c f) rfl
theorem CycleWork.modSheet {f : Sheet → Sheet} (h : CycleWork s t) : CycleWork s (t.modSheet c f) := h.trans (u := t.modSheet c f) rfl
theorem CycleWork.modTile {f : Tile → Tile} (h : CycleWork s t) : CycleWork s (t.modTile c f) := h.trans (u := t.modTile c f) rfl

theorem CycleWork.management (h : CycleWork s t) : SameManagement s t := by
  rw [h]
  exact ⟨rfl, rfl, rfl⟩

theorem CycleWork.clk (h : CycleWork s t) : t.clk = s.clk := by rw [h]
theorem CycleWork.dram (h : CycleWork s t) : t.dram = s.dram := by rw [h]
theorem CycleWork.pool (h : CycleWork s t) : t.pool = s.pool := by rw [h]
theorem CycleWork.reel (h : CycleWork s t) : t.reel = s.reel := by rw [h]
theorem CycleWork.groups (h : CycleWork s t) : t.groups = s.groups := by rw [h]
theorem CycleWork.crossing (h : CycleWork s t) : t.crossing = s.crossing := by rw [h]
end

/-! ### What keeps a running schedule steady -/

/-- From `s` to `t` a cycle's work goes on beside the schedule: if context `c` still runs it is kept, and so are SPROG of the sheets and the pace of
the partitions. -/
structure Steady (c : Nat) (s t : State) : Prop where
  work : CycleWork s t
  kept : (t.ctx c).st = .running → (s.ctx c).Kept (t.ctx c)
  sprog : ∀ n, (t.sheet n).sprog = (s.sheet n).sprog
  pace : ∀ p, (t.pt p).pace = (s.pt p).pace

theorem KeepsCtxs.logErr {cls : Nat} {a : ErrAt} {body : List Byte} (h : KeepsCtxs s t) : KeepsCtxs s (t.logErr cls a body) := by
  unfold State.logErr
  extract_lets +onlyGivenNames x isStep first flags r t1
  have ht1 : KeepsCtxs s t1 := .ite h.modCtx (.ite h.modCtx h)
  clear_value t1
  split
  exacts [ht1.recorded Recorded.refl.withLogs, ht1.recorded Recorded.refl.withLogs.fsUpdate]

section
variable {c d k n m pc cause id : Nat}

/-- A context that faults was none that could not, and it is among those of the module. -/
theorem State.faultCtx_lt {reason status : Nat} (h : (s.ctx d).st ≠ .free ∧ (s.ctx d).st ≠ .created ∧ (s.ctx d).st ≠ .faulted) :
    d < s.ctxs.length ∧ d < (s.endRun d reason status).ctxs.length := by
  have hlt (a : State) (ha : (a.ctx d).st ≠ .free) : d < a.ctxs.length := by
    by_contra hd
    exact ha (by simp [State.ctx, List.getD_eq_getElem?_getD, Nat.not_lt.1 hd])
  have hd := hlt s h.1
  exact ⟨hd, hlt _ (by rw [(State.endRun_ctx hd).st]; exact h.1)⟩

/-- A context that has faulted runs no more. -/
theorem State.faultCtx_stops {reason status : Nat} : ((s.faultCtx d reason status).ctx d).st ≠ .running := by
  intro hr
  by_cases h : (s.ctx d).st ≠ .free ∧ (s.ctx d).st ≠ .created ∧ (s.ctx d).st ≠ .faulted
  · rw [((State.faultCtx_keeps h).ctxs d).st, State.entersFault, State.ctx_modCtx_same _ _ _ (State.faultCtx_lt h).2] at hr
    cases hr
  · rw [State.faultCtx, if_pos (by tauto)] at hr
    simp [hr] at h

theorem State.endRun_pts {reason status : Nat} : (s.endRun d reason status).pts = s.pts := by
  have hstops (a : State) : (a.endStops d).pts = a.pts := foldl_same (g := State.pts) fun _ _ => rfl
  unfold State.endRun
  split
  exacts [hstops s, (hstops _).trans rfl]

theorem State.faultCtx_pace {p reason status : Nat} : ((s.faultCtx d reason status).pt p).pace = (s.pt p).pace := by
  by_cases h : (s.ctx d).st ≠ .free ∧ (s.ctx d).st ≠ .created ∧ (s.ctx d).st ≠ .faulted
  · rw [(State.faultCtx_keeps h).pace, State.pt, State.entersFault, State.modCtx_pts, State.endRun_pts, State.pt]
  · rw [State.faultCtx, if_pos (by tauto)]

theorem Steady.refl : Steady c s s := ⟨.refl, fun _ => .refl _, fun _ => rfl, fun _ => rfl⟩

theorem Steady.trans (h : Steady c s t) (h' : Steady c t u) : Steady c s u where
  work := h.work.trans h'.work
  kept hr := (h.kept (by rw [← (h'.kept hr).st]; exact hr)).trans (h'.kept hr)
  sprog n := (h'.sprog n).trans (h.sprog n)
  pace p := (h'.pace p).trans (h.pace p)

theorem Steady.ite {q : Prop} [Decidable q] (ht : Steady c s t) (hu : Steady c s u) : Steady c s (if q then t else u) := by
  split <;> assumption

theorem Steady.foldl {α : Type} {l : List α} {f : State → α → State} (h : Steady c s t) (hf : ∀ {a x}, Steady c s a → Steady c s (f a x)) :
    Steady c s (l.foldl f t) := List.foldlRecOn l f h fun _ ha _ _ => hf ha

/-- Work that keeps every context. -/
theorem Steady.keeps (h : Steady c s t) (hw : CycleWork t u) (hk : KeepsCtxs t u) (hs : u.sheets = t.sheets) : Steady c s u :=
  h.trans ⟨hw, fun _ => hk.ctxs c, fun n => by rw [State.sheet, hs, State.sheet], hk.pace⟩

theorem Steady.same (h : Steady c s t) (hw : CycleWork t u) (hc : u.ctxs = t.ctxs) (hs : u.sheets = t.sheets) (hp : u.pts = t.pts) : Steady c s u :=
  h.keeps hw (KeepsCtxs.refl.of_ctxs hc hp) hs

theorem Steady.recorded (h : Steady c s t) (hr : Recorded t u) : Steady c s u :=
  h.same (.of_recorded hr) (by rw [hr]) (by rw [hr]) (by rw [hr])

theorem Steady.modTile {f : Tile → Tile} (h : Steady c s t) : Steady c s (t.modTile k f) := h.same CycleWork.refl.modTile rfl rfl rfl

theorem Steady.modChan {f : Chan → Chan} (h : Steady c s t) : Steady c s (t.modChan k f) := h.same CycleWork.refl.modChan rfl rfl rfl

theorem Steady.modPt {f : Partition → Partition} (h : Steady c s t) (hf : ∀ x, (f x).pace = x.pace := by intro; rfl) : Steady c s (t.modPt k f) :=
  h.keeps CycleWork.refl.modPt (KeepsCtxs.refl.modPt hf) rfl

theorem Steady.modCtx {f : Context → Context} (h : Steady c s t) (hf : ∀ x : Context, x.Kept (f x) := by intro; constructor <;> rfl) :
    Steady c s (t.modCtx k f) := h.keeps CycleWork.refl.modCtx (KeepsCtxs.refl.modCtx hf) rfl

theorem Steady.modSheet {f : Sheet → Sheet} (h : Steady c s t) (hf : ∀ x, (f x).sprog = x.sprog := by intro; rfl) : Steady c s (t.modSheet k f) :=
  h.trans ⟨CycleWork.refl.modSheet, fun _ => .refl _, fun _ => State.sheet_modSheet_eq hf, fun _ => rfl⟩

theorem Steady.sheetCount (h : Steady c s t) : Steady c s (t.sheetCount k id n) := h.modSheet

theorem Steady.logErr {cls : Nat} {a : ErrAt} {body : List Byte} (h : Steady c s t) : Steady c s (t.logErr cls a body) :=
  have hl : Logged t (t.logErr cls a body) := Logged.refl.logErr
  h.keeps (.of_logged hl) KeepsCtxs.refl.logErr (by rw [hl])

theorem Steady.addRepair {kind loc detail : Nat} (h : Steady c s t) : Steady c s (t.addRepair kind cause loc detail) :=
  h.recorded Recorded.refl.addRepair

/-- A context that faults, and what is then changed of it beside its state. -/
theorem Steady.afterFault {reason status : Nat} {f : Context → Context} (h : Steady c s t) (hf : ∀ x, (f x).st = x.st := by intro; rfl) :
    Steady c s ((t.faultCtx d reason status).modCtx d f) := by
  have hw : FaultWork t (t.faultCtx d reason status) := FaultWork.refl.faultCtx
  refine h.trans ⟨CycleWork.modCtx (.of_faultWork hw), fun hr => ?_, fun n => ?_, fun _ => State.faultCtx_pace⟩
  · by_cases hd : d = c
    · subst hd
      rw [State.ctx_modCtx_eq (g := Context.st) hf] at hr
      exact absurd hr State.faultCtx_stops
    · rw [State.ctx_modCtx_other _ _ _ _ hd]
      exact State.faultCtx_other hd
  · change (State.sheet (t.faultCtx d reason status) n).sprog = _
    rw [hw]
    rfl

theorem Steady.faultCtx {reason status : Nat} (h : Steady c s t) : Steady c s (t.faultCtx d reason status) := by
  have hw : FaultWork t (t.faultCtx d reason status) := FaultWork.refl.faultCtx
  refine h.trans ⟨.of_faultWork hw, fun hr => ?_, fun n => ?_, fun _ => State.faultCtx_pace⟩
  · by_cases hd : d = c
    · subst hd
      exact absurd hr State.faultCtx_stops
    · exact State.faultCtx_other hd
  · rw [hw]
    rfl

/-! ### Columns that retire -/

theorem retireRoles_sprog (x : Sheet) : (retireRoles x pc).sprog = x.sprog := by
  unfold retireRoles
  extract_lets +onlyGivenNames y
  split
  · rfl
  · split
    · rfl
    · split <;> rfl

theorem install_sprog (x : Sheet) : (install x).sprog = x.sprog := by
  change (placeSpares x).sprog = _
  rw [placeSpares_eq]

theorem newDwell_sprog (x : Sheet) : (newDwell x).sprog = x.sprog := by rw [newDwell_eq]

theorem Steady.retireOne (h : Steady c s t) : Steady c s (t.retireOne m pc cause) := by
  unfold State.retireOne
  split
  exacts [h, (h.modSheet fun x => retireRoles_sprog x).addRepair.logErr]

theorem Steady.installMap {old : Sheet} (h : Steady c s t) : Steady c s (t.installMap m old) := by
  unfold State.installMap
  refine h.modSheet fun x => ?_
  dsimp only
  split
  exacts [(newDwell_sprog _).trans (install_sprog x), install_sprog x]

theorem Steady.applyRoles {old : Sheet} (h : Steady c s t) : Steady c s (t.applyRoles m old) := .ite h.modSheet h.installMap

theorem Steady.retire {l : List (Nat × Nat)} (h : Steady c s t) : Steady c s (t.retire m l) := (h.foldl fun ha => ha.retireOne).applyRoles

theorem Steady.condemn (h : Steady c s t) : Steady c s (t.condemn m pc cause) := by
  unfold State.condemn
  refine .ite (h.modSheet fun x => ?_) h.retire
  split <;> rfl

/-! ### Words that fail, and violations (R157, R202, R526) -/

theorem Steady.flit {w : Link} (h : Steady c s t) : Steady c s (t.flit n k w) := .ite h.modTile h

theorem Steady.parErr (h : Steady c s t) : Steady c s (t.parErr n) := h.modTile

theorem Steady.withPaths {l : List ((Nat × Nat × Nat) × Nat × List Nat)} (h : Steady c s t) : Steady c s { t with logs := { t.logs with paths := l } } :=
  h.recorded Recorded.refl.withLogs

theorem Steady.wordFault {cls checkpoint port : Nat} {w : Link} {path : List Nat} (h : Steady c s t) :
    Steady c s (t.wordFault d n cls checkpoint port w path) := by
  unfold State.wordFault
  extract_lets +onlyGivenNames sec s1 s2
  have hs2 : Steady c s s2 := h.modTile.logErr
  clear_value s2
  refine .ite hs2 ?_
  conv => arg 3; whnf -- what it does with the path
  split
  exacts [hs2.withPaths, hs2.withPaths.logErr.condemn]

theorem Steady.breach {v : Violation} (h : Steady c s t) : Steady c s (t.breach d v) := h.modCtx

/-- A violation faults its context: that it goes on in other partitions (R201) touches no running context. -/
theorem Steady.violate {l : List Violation} (h : Steady c s t) : Steady c s (t.violate d l) := by
  unfold State.violate
  extract_lets +onlyGivenNames t0
  have ht0 : Steady c s t0 := h.modCtx
  split
  · exact h
  · exact .ite ht0.logErr (Steady.afterFault (Steady.modCtx ht0.logErr))

/-! ### Reads that arrive (R249, R270, R274) -/

theorem Steady.breakChan (h : Steady c s t) : Steady c s (t.breakChan k cause n) := by
  unfold State.breakChan
  refine .ite h ((h.modChan.addRepair.logErr).foldl fun ha => ?_)
  split
  · exact .ite ha.faultCtx ha
  · exact ha

theorem Steady.memError {tag : Bool} (h : Steady c s t) : Steady c s (t.memError k n tag) := .ite h.modChan.breakChan h.modChan

theorem Steady.programUe {r : ReadRec} {tag : Bool} (h : Steady c s t) : Steady c s (t.programUe d r tag) :=
  .ite h.logErr.memError.modCtx.logErr.faultCtx h.logErr.memError.modCtx

theorem Steady.deliverRead {r : ReadRec} (h : Steady c s t) : Steady c s (t.deliverRead d r) := by
  unfold State.deliverRead
  split
  · extract_lets +onlyGivenNames o bad data s2 _ _ s3
    have hs2 : Steady c s s2 := .ite h.modChan h
    have hs3 : Steady c s s3 := by unfold s3; split; exacts [hs2, .ite hs2.breach hs2.modTile]
    exact .ite hs3.programUe hs3
  · exact h

theorem Steady.dueReads (h : Steady c s t) : Steady c s (t.dueReads d) := .ite (h.modCtx.foldl fun ha => ha.deliverRead) h

theorem Steady.fly {w : Link} (h : Steady c s t) : Steady c s (t.fly n k m w) := h.same (u := t.fly n k m w) rfl rfl rfl rfl

theorem Steady.emitRead (h : Steady c s t) : Steady c s (t.emitRead d n) := by
  unfold State.emitRead
  extract_lets +onlyGivenNames v x st
  split
  exacts [h, .ite h h.modTile.fly]

/-! ### The tiles of a context in a cycle -/

theorem Steady.countFlits {evs : List WireEvent} {outs : List TileCycle} (h : Steady c s t) : Steady c s (t.countFlits d evs outs) :=
  h.foldl fun ha => ha.flit

theorem Steady.deliver {x : TileCycle × Link × List Nat × Nat} (h : Steady c s t) : Steady c s (t.deliver d x).1 := by
  unfold State.deliver
  extract_lets +onlyGivenNames o w i
  split
  · exact h.wordFault
  · extract_lets +onlyGivenNames y q
    split
    · dsimp only
      exact h.modTile
    · split
      · exact h
      · dsimp only
        exact h.modTile

theorem Steady.markDirty (h : Steady c s t) : Steady c s (t.markDirty n k) := by
  unfold State.markDirty
  extract_lets x
  split
  exacts [h, .ite h h.modSheet]

theorem Steady.logSram {o : TileCycle} (h : Steady c s t) : Steady c s (t.logSram d o) := (Steady.ite h h.modTile).foldl fun ha => ha.logErr

theorem Steady.foldlFst {α β : Type} {l : List α} {f : State × β → α → State × β} {b : β} (h : Steady c s t)
    (hf : ∀ {a x}, Steady c s a.1 → Steady c s (f a x).1) : Steady c s (l.foldl f (t, b)).1 :=
  List.foldlRecOn (motive := fun a : State × β => Steady c s a.1) l f h fun _ ha _ _ => hf ha

theorem Steady.cycleCtx {evs : List WireEvent} (h : Steady c s t) : Steady c s (t.cycleCtx d evs) := by
  unfold State.cycleCtx
  extract_lets held outs r s1 s2 s3 s4 s5 x
  have hs1 : Steady c s s1 := h.foldl fun ha => ha.modTile
  have hs2 : Steady c s s2 := hs1.countFlits
  have hs3 : Steady c s s3 := hs2.same rfl rfl rfl rfl
  have hs4 : Steady c s s4 := hs3.foldl fun ha => (ha.foldl fun ha1 => ha1.markDirty).logSram
  have hs5 : Steady c s s5 := hs4.foldl fun ha => ha.modTile.logErr
  have hx : Steady c s x.1 := hs5.foldlFst fun ha => ha.deliver
  exact hx.foldl fun ha => ha.breach

/-! ### The comparators and the couch (R449, R469) -/

theorem Steady.mirror {e : Dwell} (h : Steady c s t) : Steady c s (t.mirror n e) := by
  unfold State.mirror
  split
  exacts [h.foldl fun ha => ha.modTile, h]

theorem Steady.recordMismatch {e : Dwell} {x : Mismatch} (h : Steady c s t) : Steady c s (t.recordMismatch n e x) := by
  unfold State.recordMismatch
  extract_lets x' lcol tpc spc y z bin now old tc sc watch flags r rec' kept _ s1 s2 s3 s4 s5
  have hs1 : Steady c s s1 := h.recorded Recorded.refl.withLogs
  have hs2 : Steady c s s2 := hs1.logErr
  have hs3 : Steady c s s3 := hs2.modSheet
  have hs4 : Steady c s s4 := .ite hs3.sheetCount hs3
  have hs5 : Steady c s s5 := .ite hs4.condemn hs4
  exact .ite hs5.condemn hs5

theorem Steady.shadowCycle {evs : List WireEvent} (h : Steady c s t) : Steady c s (t.shadowCycle evs n) := by
  unfold State.shadowCycle
  split
  · exact h
  · refine .ite h.mirror ?_
    extract_lets +onlyGivenNames s0 s1
    have hs1 : Steady c s s1 := h.mirror.sheetCount
    split
    exacts [hs1, .ite hs1.sheetCount hs1.sheetCount.recordMismatch]

theorem Steady.couchFault {w : Link} (h : Steady c s t) : Steady c s (t.couchFault n k w) := h.parErr.logErr

theorem Steady.catchupCycle {evs : List WireEvent} (h : Steady c s t) : Steady c s (t.catchupCycle evs n) := by
  unfold State.catchupCycle
  split
  · refine .ite h ?_
    split
    exacts [h, h.couchFault.modSheet]
  · exact h

/-! ### The start of a frame -/

theorem Steady.sampleWaits (h : Steady c s t) : Steady c s (t.sampleWaits d) := by
  unfold State.sampleWaits
  extract_lets +onlyGivenNames x
  split
  exacts [h, .ite h h.modCtx]

theorem Steady.stallTile {p : Nat × Nat × Nat} (h : Steady c s t) : Steady c s (t.stallTile d p) := by
  unfold State.stallTile
  exact h.modTile

theorem Steady.frameStart (h : Steady c s t) : Steady c s (t.frameStart d) := by
  unfold State.frameStart
  extract_lets x f s1 l y byL byT s2 proc
  have hs1 : Steady c s s1 := .ite h.sampleWaits h
  have hs2 : Steady c s s2 := .ite hs1 (hs1.foldl fun ha => ha.modPt)
  exact .ite (hs2.foldl fun ha => ha.stallTile) hs2
end

/-! ### Holds, and steps that are abandoned -/

section
variable {c m n : Nat} {g : Prog}

theorem CycleWork.steady (h : CycleWork s t) (hs : Steady 0 t u) : CycleWork s u := h.trans hs.work

theorem CycleWork.wrote (h : CycleWork s t) : CycleWork s (t.wrote n) := .ite h.modSheet h

theorem CycleWork.writePrologue {l : List TileRec} (h : CycleWork s t) : CycleWork s (t.writePrologue c l) := h.foldl fun ha => by
  split
  exacts [ha, ha.wrote.modTile]

theorem CycleWork.beginPrologue (h : CycleWork s t) : CycleWork s (t.beginPrologue c g) := .ite h.modCtx h.writePrologue.modCtx

theorem CycleWork.refed (h : CycleWork s t) : CycleWork s (t.refed c) := by
  unfold State.refed
  split
  exacts [.ite h h.beginPrologue, h]

theorem CycleWork.arriveWait (h : CycleWork s t) : CycleWork s (t.arriveWait c) := by
  unfold State.arriveWait
  extract_lets x
  split
  · exact h
  · split
    exacts [h, h.modCtx]

theorem CycleWork.arrive (h : CycleWork s t) : CycleWork s (t.arrive c) := by
  unfold State.arrive
  split
  exacts [h, .ite h.modCtx h.arriveWait]

theorem CycleWork.releaseDue (h : CycleWork s t) : CycleWork s (t.releaseDue c) := by
  unfold State.releaseDue
  split
  exacts [.ite (((h.foldl fun ha => ha.modPt).modCtx).arriveWait) h, h]

theorem CycleWork.endRunOn (h : CycleWork s t) : CycleWork s (t.endRunOn c) := .ite h h.modCtx

theorem CycleWork.voteHold (h : CycleWork s t) : CycleWork s (t.voteHold c) := .ite h.modCtx h

theorem CycleWork.fenceCol {row : Option Nat} (h : CycleWork s t) : CycleWork s (t.fenceCol m n row) :=
  h.trans (u := t.fenceCol m n row) rfl

theorem CycleWork.applyFences {commit : Bool} (h : CycleWork s t) : CycleWork s (t.applyFences m commit) :=
  .ite h ((h.foldl fun ha => .ite (.ite ha ha.fenceCol) ha.modSheet).modSheet)

theorem CycleWork.retirePending (h : CycleWork s t) : CycleWork s (t.retirePending m) := h.modSheet.foldl fun ha => ha.steady Steady.refl.retireOne

theorem CycleWork.readyOp {st : Nat} {b : List Byte} (h : CycleWork s t) : CycleWork s (t.readyOp n st b) := h.trans (u := t.readyOp n st b) rfl

theorem CycleWork.finishFences (h : CycleWork s t) : CycleWork s t.finishFences := h.foldl fun ha => .ite ha.readyOp ha

theorem CycleWork.installPoint {commit : Bool} (h : CycleWork s t) : CycleWork s (t.installPoint commit m) := by
  unfold State.installPoint
  extract_lets s1 due
  have hs1 : CycleWork s s1 := h.applyFences.retirePending
  exact ((CycleWork.ite (hs1.steady Steady.refl.installMap) hs1).modSheet).finishFences

theorem CycleWork.installPoints {commit : Bool} {pts : List Nat} (h : CycleWork s t) : CycleWork s (t.installPoints commit pts) :=
  h.foldl fun ha => ha.foldl fun ha1 => ha1.installPoint

theorem CycleWork.moveCols {old : State} {whole : Bool} (h : CycleWork s t) : CycleWork s (t.moveCols old whole m) :=
  State.moveCols_of h (fun _ _ _ ha => ha.modTile) fun _ _ _ _ _ ha => ha.wrote

theorem CycleWork.defined {a k : Nat} (h : CycleWork s t) : CycleWork s (t.defined c a k) := .ite h (h.trans rfl)

theorem CycleWork.undefScratch (h : CycleWork s t) : CycleWork s (t.undefScratch c g) := by
  unfold State.undefScratch
  split
  · exact h
  · next al _ =>
    extract_lets kept mine
    have hu : CycleWork s (t.undefine c (allocLen al)) := h.trans (u := t.undefine c (allocLen al)) rfl
    have hm : CycleWork s mine := hu.foldl fun ha => ha.defined
    exact hm.trans rfl

theorem CycleWork.restoreCommit (h : CycleWork s t) : CycleWork s (t.restoreCommit c g) := by
  unfold State.restoreCommit
  extract_lets x shs s1 s2 s3 s4 s5 empty s6
  have hs2 : CycleWork s s2 := h.modCtx.foldl fun ha => ha.modSheet
  have hs3 : CycleWork s s3 := hs2.trans rfl
  have hs4 : CycleWork s s4 := hs3.installPoints
  have hs5 : CycleWork s s5 := hs4.foldl fun ha => ha.modSheet.moveCols
  have hs6 : CycleWork s s6 := hs5.foldl fun ha => ha.modTile
  exact (hs6.foldl fun ha => by split; exacts [ha.modTile, ha]).undefScratch

theorem CycleWork.abandonStep {reason status : Nat} (h : CycleWork s t) : CycleWork s (t.abandonStep c g reason status) :=
  (CycleWork.restoreCommit (h.trans (.of_faultWork FaultWork.refl.endRun))).modCtx

theorem CycleWork.hotAbandon (h : CycleWork s t) : CycleWork s (t.hotAbandon c) := by
  unfold State.hotAbandon
  extract_lets +onlyGivenNames x
  split
  · extract_lets s1 s2
    have hs1 : CycleWork s s1 := h.abandonStep.modCtx
    have hs2 : CycleWork s s2 := hs1.foldl fun ha => ha.modPt
    exact .ite hs2 (hs2.foldl fun ha => ha.foldl fun hb => hb.modChan)
  · exact h

/-! ### A cycle up to its end -/

theorem CycleWork.ctxCycle {evs : List WireEvent} (h : CycleWork s t) : CycleWork s (t.ctxCycle evs c).1 := by
  unfold State.ctxCycle
  extract_lets +onlyGivenNames s1 s2 runs
  have hs1 : CycleWork s s1 := h.refed.releaseDue
  have hs2 : CycleWork s s2 := .ite (hs1.endRunOn.hotAbandon.voteHold.steady Steady.refl.frameStart) hs1
  clear_value s2
  split
  · exact hs2.steady ((Steady.refl.dueReads.foldl fun ha => ha.emitRead).cycleCtx)
  · exact hs2

theorem CycleWork.advance {ran : List Nat} (h : CycleWork s t) : CycleWork s (t.advance c ran) := by
  unfold State.advance
  extract_lets runs s1
  have hs1 : CycleWork s s1 := .ite (h.foldl fun ha => ha.modPt) h
  exact .ite hs1 (hs1.modCtx.foldl fun ha => ha.modSheet)

theorem CycleWork.arriveAfter {ran : List Nat} (h : CycleWork s t) : CycleWork s (t.arriveAfter c ran) := .ite h.arrive h

theorem CycleWork.keepBusy (h : CycleWork s t) : CycleWork s t.keepBusy := h.foldl fun ha => .ite ha.modPt ha

/-- The contexts of the module and their partitions' schedules that advance in the cycle, with the tiles' work done. -/
def State.ctxCycles (s : State) (evs : List WireEvent) : State × List (Nat × List Nat) :=
  s.boundCtxs.foldl (fun a c => ((a.1.ctxCycle evs c).1, a.2 ++ [(c, (a.1.ctxCycle evs c).2)])) (s, [])

/-- Comparators and couch words of a cycle. -/
def State.sheetCycles (s : State) (evs : List WireEvent) : State :=
  (List.range 24).foldl (fun a n => (a.shadowCycle evs n).catchupCycle evs n) s

/-- The clocks of the module and the wait counters of ports with packets waiting go on by a cycle. -/
def State.tick (s : State) : State := { s with
  clk := { s.clk with cycle := s.clk.cycle + 1, life := s.clk.life + 1 }
  ports := s.ports.map fun (x : FPort) => if x.txq.isEmpty then x else { x with ctr := x.ctr.modify 7 fun v => (v + 1) % 2 ^ 48 } }

/-- The state at the end of a cycle before its clocks go on. -/
def State.cycled (s : State) (evs : List WireEvent) : State :=
  (s.ctxCycles evs).2.foldl (fun a x => a.advance x.1 x.2)
    (s.boundCtxs.foldl (fun a c => a.violate c []) ((s.ctxCycles evs).1.sheetCycles evs))

theorem routeCycle_eq {evs : List WireEvent} : routeCycle evs s =
    ((s.ctxCycles evs).2.foldl (fun a x => a.arriveAfter x.1 x.2) (s.cycled evs).tick.landWrites).keepBusy := rfl

theorem Steady.sheetCycles {evs : List WireEvent} (h : Steady c s t) : Steady c s (t.sheetCycles evs) :=
  h.foldl fun ha => ha.shadowCycle.catchupCycle

theorem CycleWork.ctxCycles {evs : List WireEvent} : CycleWork s (s.ctxCycles evs).1 :=
  List.foldlRecOn (motive := fun a : State × List (Nat × List Nat) => CycleWork s a.1) _ _ CycleWork.refl fun _ ha _ _ => ha.ctxCycle

theorem CycleWork.cycled {evs : List WireEvent} : CycleWork s (s.cycled evs) :=
  ((CycleWork.ctxCycles.steady Steady.refl.sheetCycles).foldl fun ha => ha.steady Steady.refl.violate).foldl fun ha => ha.advance

theorem CycleWork.afterLanding {evs : List WireEvent} : CycleWork (s.cycled evs).tick.landWrites (routeCycle evs s) := by
  rw [routeCycle_eq]
  exact (CycleWork.refl.foldl fun ha => ha.arriveAfter).keepBusy

/-! ### Writes that land (R251) -/

theorem CycleWork.accumulate {r k : Nat} {x : BitVec 512} (h : CycleWork s t) : CycleWork s (t.accumulate c r k x) := .ite h h.modCtx

/-- LPDDR5X with a word landed. -/
def WriteRec.landed (w : WriteRec) (m : Mem) : Mem :=
  match w.data with
  | none => m
  | some d => m.write (mpa w.ch w.off) (dataBytes d)

theorem WriteRec.landed_some {w : WriteRec} {m : Mem} {d : BitVec 512} (h : w.data = some d) :
    w.landed m = m.write (mpa w.ch w.off) (dataBytes d) := by
  unfold WriteRec.landed
  rw [h]

/-- A word that lands writes its 64 bytes. -/
theorem State.landWrite_work {w : WriteRec} : CycleWork { s with dram := w.landed s.dram } (s.landWrite w) := by
  unfold State.landWrite WriteRec.landed
  cases w.data with
  | none => exact CycleWork.ite CycleWork.refl.modChan .refl
  | some d =>
    have hd := (CycleWork.refl (s := { s with dram := s.dram.write (mpa w.ch w.off) (dataBytes d) })).defined (c := w.ctx) (a := w.addr) (k := 64)
    refine CycleWork.ite (CycleWork.modChan ?_) ?_
    all_goals
      dsimp only
      split
      exacts [hd.modChan.accumulate, hd.modChan]

theorem State.landWrite_dram {w : WriteRec} : (s.landWrite w).dram = w.landed s.dram := State.landWrite_work.dram

theorem State.landWrite_crossing {w : WriteRec} : (s.landWrite w).crossing = s.crossing := State.landWrite_work.crossing

theorem State.landWrites_none (h : ∀ w ∈ s.crossing, s.clk.life < w.due) : s.landWrites = s := by
  unfold State.landWrites
  split
  · rfl
  · have hd : s.crossing.filter (fun w => decide (w.due ≤ s.clk.life)) = [] :=
      List.filter_eq_nil_iff.2 fun w hw => by simpa using h w hw
    have hk : s.crossing.filter (fun w => decide (s.clk.life < w.due)) = s.crossing :=
      List.filter_eq_self.2 fun w hw => by simpa using h w hw
    rw [hd, hk]
    rfl

theorem State.landWrites_one {w : WriteRec} (h : s.crossing = [w]) (hd : w.due ≤ s.clk.life) : s.landWrites = { s with crossing := [] }.landWrite w := by
  have hn : ¬s.clk.life < w.due := by omega
  unfold State.landWrites
  rw [h]
  simp [hd, hn]

/-- Landing writes leaves alone what `CycleWork` does, but for LPDDR5X and the words on their way. -/
theorem State.landWrites_work : CycleWork { s with dram := s.landWrites.dram, crossing := s.landWrites.crossing } s.landWrites := by
  unfold State.landWrites
  split
  · exact .refl
  · refine List.foldlRecOn (motive := fun a : State => CycleWork { s with dram := a.dram, crossing := a.crossing } a) _ _ rfl fun a ha w _ => ?_
    have hw := State.landWrite_work (s := a) (w := w)
    unfold CycleWork at ha hw ⊢
    rw [hw, ha]
end

end
end Sys2Proof.Machine


namespace Sys2Proof.Machine

section
variable {s t u : State}

/-! ### A word that reaches its controller (R251) -/

theorem dataBytes_length {d : BitVec 512} : (dataBytes d).length = 64 := by simp [dataBytes, le]

/-- One word on its way that is due lands when the clocks go on. -/
theorem State.tick_lands {w : WriteRec} {d : BitVec 512} (h : s.crossing = [w]) (hd : w.due ≤ s.clk.life + 1) (hw : w.data = some d) :
    s.tick.landWrites.crossing = [] ∧ s.tick.landWrites.dram = s.dram.write (mpa w.ch w.off) (dataBytes d) := by
  rw [State.landWrites_one (s := s.tick) h hd]
  exact ⟨State.landWrite_crossing, State.landWrite_dram.trans (WriteRec.landed_some hw)⟩

theorem routeCycle_lands {evs : List WireEvent} {w : WriteRec} {d : BitVec 512} (h : s.crossing = [w]) (hd : w.due ≤ s.clk.life + 1)
    (hw : w.data = some d) :
    (routeCycle evs s).crossing = [] ∧ (routeCycle evs s).dram = s.dram.write (mpa w.ch w.off) (dataBytes d) := by
  have hc : CycleWork s (s.cycled evs) := CycleWork.cycled
  have ha : CycleWork (s.cycled evs).tick.landWrites (routeCycle evs s) := CycleWork.afterLanding
  generalize s.cycled evs = a at hc ha
  obtain ⟨hx, hm⟩ := State.tick_lands (hc.crossing.trans h) (by rwa [hc.clk]) hw
  exact ⟨ha.crossing.trans hx, by rw [ha.dram, hm, hc.dram]⟩

theorem routeCycle_lands_answers {evs : List WireEvent} {w : WriteRec} {d : BitVec 512} (hm : s.dram.wf = true) (h : s.crossing = [w])
    (hd : w.due ≤ s.clk.life + 1) (hw : w.data = some d) :
    Answers (.routeCycle evs) s fun t => t.crossing = [] ∧ t.dram.read (mpa w.ch w.off) 64 = dataBytes d ∧
      ∀ a, a < mpa w.ch w.off ∨ mpa w.ch w.off + 64 ≤ a → t.dram.get a = s.dram.get a := by
  obtain ⟨hc, hdram⟩ := routeCycle_lands (evs := evs) h hd hw
  refine answers_of (u := routeCycle evs s) rfl ?_
  simp only [settle_crossing, settle_dram, hc, hdram]
  refine ⟨trivial, ?_, fun a ha => Mem.get_write_other _ _ _ hm (by rwa [dataBytes_length])⟩
  have hr := Mem.read_write (mpa w.ch w.off) (dataBytes d) hm
  rwa [dataBytes_length] at hr

/-! ### Channel slots (R246, R248, R510) -/

/-- A tile whose write buffer is now `r`. -/
def Tile.leaves (k : Nat) (r : List (Option (BitVec 512))) (t : Tile) : Tile := t.setState k { t.stateAt k with wrBuf := r }

/-- A slot of a channel issues once. -/
def State.slotTaken (s : State) (ch : Nat) : State := s.modChan ch fun y => { y with slotAt := s.clk.life + 1 }

section
variable {c ch l i j k n : Nat} {g : Prog} {al : Alloc} {cl : ChanList} {e : SlotEnt} {flip : Link} {side mesh pro : Bool}

/-- A read slot adds its word to those on their way to the context's P-tiles. -/
theorem State.slotRead_eq : ∃ r : ReadRec, s.slotRead c ch l j mesh pro g al cl e side i n = s.modCtx c (fun x => { x with reads := x.reads ++ [r] }) ∧
    r.due = 6 * j + (if mesh then 161 else 173) ∧ r.ch = ch ∧ r.cfg = e.ctx ∧
    r.off = 960 * al.baseG + 64 * slotWord g al (s.ctx c) cl e side n i ∧ r.pro = pro ∧
    (s.scratch = [] → r.data = s.usableWord ch ((960 * al.baseG + 64 * slotWord g al (s.ctx c) cl e side n i) / 64)) := by
  refine ⟨_, rfl, rfl, rfl, rfl, rfl, rfl, fun h => ?_⟩
  dsimp only
  rw [h]
  rfl

/-- The word at the head of a write buffer that a slot sends. -/
theorem State.slotWrite_sends {d : BitVec 512} {r : List (Option (BitVec 512))} (h : ((s.tile k).stateAt e.ctx).wrBuf = some d :: r) :
    ∃ w : WriteRec, s.slotWrite c ch l k 0 g al cl e i n =
        { s.modTile k (Tile.leaves e.ctx r) with crossing := s.crossing ++ [w] } ∧
      w.due = s.clk.life + 6 ∧ w.ch = ch ∧ w.off = 960 * al.baseG + 64 * slotWord g al (s.ctx c) cl e e.side n i ∧ w.data = some d := by
  have hg : checkWord (dataWord (s.tile k).ugen 0 false d) = none := by simp [checkWord]
  unfold State.slotWrite
  simp only [h, Link.xor_zero, hg, dataWord_data]
  exact ⟨_, rfl, rfl, rfl, rfl, rfl⟩

/-- A suppressed word leaves the write buffer too, and writes nothing. -/
theorem State.slotWrite_suppressed {r : List (Option (BitVec 512))} (h : ((s.tile k).stateAt e.ctx).wrBuf = none :: r) :
    ∃ w : WriteRec, s.slotWrite c ch l k flip g al cl e i n =
        { s.modTile k (Tile.leaves e.ctx r) with crossing := s.crossing ++ [w] } ∧ w.data = none := by
  unfold State.slotWrite
  simp only [h]
  exact ⟨_, rfl, rfl⟩

theorem State.slotWrite_empty (h : ((s.tile k).stateAt e.ctx).wrBuf = []) :
    ∃ x : Violation, s.slotWrite c ch l k flip g al cl e i n = s.breach c x ∧ x.cause = 2 ∧ x.queue = 9 ∧ x.tile = k := by
  unfold State.slotWrite
  simp only [h]
  exact ⟨_, rfl, rfl, rfl, rfl⟩

section
variable (hp : (s.ctx c).prog = some g) (ha : (s.ctx c).alloc = some al) (hl : l = al.chans.idxOf ch) (hlt : l < al.chans.length)
  (hcl : cl = g.lists.getD l ⟨0, 0, []⟩)
include hp ha hl hlt hcl

theorem channelSlotIssue_prologue {r : Nat} (hc : s.proCycle c = some j) (h6 : j % 6 = 0) (hs : (s.chan ch).slotAt ≠ s.clk.life + 1)
    (hb : slotBurst g cl (j / 6) = some (e, i, r)) (ho : e.op ≤ 1) (hr : e.region ≠ 127) :
    channelSlotIssue c ch flip s = (s.slotTaken ch).slotRead c ch l (j / 6) (s.portTile g al l).2 true g al cl e false i 0 := by
  subst hl hcl
  unfold channelSlotIssue
  simp only [hp, ha, hc, hb]
  rw [if_neg (by omega), if_neg (by omega), if_pos ⟨ho, hr⟩]
  rfl

variable (hc : s.proCycle c = none)
include hc

theorem channelSlotIssue_waits (h : (s.chan ch).slotAt = s.clk.life + 1 ∨ (s.ctx c).sched % 6 ≠ 0 ∨ s.schedRuns c = false) :
    channelSlotIssue c ch flip s = s := by
  subst hl hcl
  unfold channelSlotIssue
  simp only [hp, ha, hc]
  split
  · rfl
  · next hn => exact if_pos (h.elim (fun h => absurd (.inr h) hn) fun h => h.imp id fun h => by simp [h])

variable (hs : (s.chan ch).slotAt ≠ s.clk.life + 1) (h6 : (s.ctx c).sched % 6 = 0) (hr : s.schedRuns c = true)
include hs h6 hr

theorem channelSlotIssue_none (hb : slotBurst g cl ((s.ctx c).sched / 6) = none) : channelSlotIssue c ch flip s = s.slotTaken ch := by
  subst hl hcl
  unfold channelSlotIssue
  simp only [hp, ha, hc, hb]
  rw [if_neg (by omega), if_neg (by simp [h6, hr])]
  rfl

theorem channelSlotIssue_read (hb : slotBurst g cl ((s.ctx c).sched / 6) = some (e, i, n)) (ho : e.op ≤ 1) : channelSlotIssue c ch flip s =
    (s.slotTaken ch).slotRead c ch l ((s.ctx c).sched / 6) (s.portTile g al l).2 false g al cl e e.side i n := by
  subst hl hcl
  unfold channelSlotIssue
  simp only [hp, ha, hc, hb]
  rw [if_neg (by omega), if_neg (by simp [h6, hr]), if_pos ho]
  rfl

theorem channelSlotIssue_write (hb : slotBurst g cl ((s.ctx c).sched / 6) = some (e, i, n)) (ho : 1 < e.op) (hk : (s.portTile g al l).1 = some k) :
    channelSlotIssue c ch flip s = (s.slotTaken ch).slotWrite c ch l k flip g al cl e i n := by
  subst hl hcl
  unfold channelSlotIssue
  simp only [hp, ha, hc, hb, hk]
  rw [if_neg (by omega), if_neg (by simp [h6, hr]), if_neg (by omega)]
  rfl
end
end

/-! ### Words that arrive (R249, R250, R270) -/

theorem takeFirst_some {α : Type} {f : α → Bool} {l r : List α} {x : α} (h : takeFirst f l = some (x, r)) : f x = true := by
  induction l generalizing r with
  | nil => cases h
  | cons a l ih =>
    unfold takeFirst at h
    split at h
    · next ha =>
      cases h
      exact ha
    · obtain ⟨y, hy, he⟩ := Option.map_eq_some_iff.1 h
      cases he
      exact ih hy

theorem takeFirst_none {α : Type} {f : α → Bool} {l : List α} (h : ∀ x ∈ l, f x = false) : takeFirst f l = none := by
  induction l with
  | nil => rfl
  | cons a l ih =>
    rw [takeFirst, if_neg (by simp [h a]), ih fun x hx => h x (List.mem_cons_of_mem _ hx)]
    rfl

/-- Bits that change in an array change flaws of channels alone. -/
theorem State.decay_eq {l : List DramFlip} : s.decay l = { s with chans := (s.decay l).chans } :=
  List.foldlRecOn (motive := fun a : State => a = { s with chans := a.chans }) l _ rfl fun a ha x _ => by
    rw [ha]
    rfl

/-- A property that an update of a channel keeps holds of a channel after it. -/
theorem State.chan_modChan_of {P : Chan → Prop} {m k : Nat} {f : Chan → Chan} (h : P (s.chan k)) (hf : ∀ x, P x → P (f x)) :
    P ((s.modChan m f).chan k) := by
  by_cases hm : m = k
  · subst hm
    by_cases hl : m < s.chans.length
    · rw [State.chan_modChan_same _ _ _ hl]
      exact hf _ h
    · simpa [State.chan, State.modChan, List.getD_eq_getElem?_getD, hl] using h
  · rwa [State.chan_modChan_other _ _ _ _ hm]

theorem State.chan_decay {l : List DramFlip} {k : Nat} : ∃ fl, (s.decay l).chan k = { s.chan k with flaws := fl } :=
  List.foldlRecOn (motive := fun a : State => ∃ fl, a.chan k = { s.chan k with flaws := fl }) l _ ⟨_, rfl⟩ fun a ha x _ =>
    State.chan_modChan_of (P := fun y => ∃ fl, y = { s.chan k with flaws := fl }) ha fun y ⟨_, hy⟩ => by
      rw [hy]
      exact ⟨_, rfl⟩

theorem Shaped.chans_length (h : Shaped s) : s.chans.length = 192 := h.2.1

theorem Shaped.chan_lt (h : Shaped s) (ch : Ch) : ch.val < s.chans.length := by
  rw [h.chans_length]
  exact ch.isLt

/-- A log entry about a step of a context that runs joins its step's faults (R500). -/
theorem State.logErr_faults {cls c : Nat} {a : ErrAt} {body : List Byte} (hc : cls / 256 = 1) (ha : a.ctx = some c) (hr : (s.ctx c).run ≠ none)
    (hl : c < s.ctxs.length) : ((s.logErr cls a body).ctx c).faults = (s.ctx c).faults ++ [cls] := by
  have hrun : (s.ctx c).run.isSome = true := Option.isSome_iff_ne_none.2 hr
  unfold State.logErr
  extract_lets +onlyGivenNames x isStep first flags r s1
  have hs1 : (s1.ctx c).faults = (s.ctx c).faults ++ [cls] := by
    unfold s1 isStep x
    rw [if_pos (by simp [hc, ha, hrun]), ha]
    exact congrArg Context.faults (State.ctx_modCtx_same s c _ hl)
  clear_value s1
  have hrec {t : State} (ht : Recorded s1 t) : (t.ctx c).faults = (s.ctx c).faults ++ [cls] := by
    rw [ht]
    exact hs1
  split
  exacts [hrec Recorded.refl.withLogs, hrec Recorded.refl.withLogs.fsUpdate]

/-- Beside FAULTS and what a prologue does again, a log entry leaves contexts alone. -/
theorem State.logErr_ctx_eq {α : Type} {f : Context → α} {cls d : Nat} {a : ErrAt} {body : List Byte}
    (hf : ∀ x l, f { x with faults := l } = f x) (hp : ∀ x b, f { x with proAgain := b } = f x) :
    f ((s.logErr cls a body).ctx d) = f (s.ctx d) := by
  unfold State.logErr
  extract_lets +onlyGivenNames x isStep first flags r s1
  have hs1 : f (s1.ctx d) = f (s.ctx d) := by
    unfold s1
    split
    · exact State.ctx_modCtx_eq fun x => hf x _
    · split
      exacts [State.ctx_modCtx_eq fun x => hp x _, rfl]
  clear_value s1
  have hrec {t : State} (ht : Recorded s1 t) : f (t.ctx d) = f (s.ctx d) := by
    rw [ht]
    exact hs1
  split
  exacts [hrec Recorded.refl.withLogs, hrec Recorded.refl.withLogs.fsUpdate]

section
variable {c ch grp i k : Nat} {g : Prog} {al : Alloc} {r : ReadRec} {o : Ecc}

/-- One uncorrectable error of a channel that is broke, or that had none in the last day, is counted and breaks nothing more (R274). -/
theorem State.memError_counts (hl : ch < s.chans.length) (h : (s.chan ch).broke = true ∨ (s.chan ch).errs = []) :
    ∃ f : Chan → Chan, s.memError ch grp false = s.modChan ch f ∧ (f (s.chan ch)).lost grp = true ∧
      (f (s.chan ch)).ue = ((s.chan ch).ue + 1) % 2 ^ 48 := by
  unfold State.memError
  extract_lets x again day s1
  have hs1 : (if again = true ∨ 16 ≤ day.length then s1.breakChan ch 0x0A grp else s1) = s1 := by
    rcases h with h | h
    · have hb : (s1.chan ch).broke = true := by
        rw [State.chan_modChan_same _ _ _ hl]
        exact h
      rw [State.breakChan_of_broke hb, ite_self]
    · exact if_neg (by simp [again, day, x, h])
  refine ⟨_, hs1, ?_, rfl⟩
  unfold Chan.lost
  dsimp only
  split
  · next hg => exact hg.resolve_left (by decide)
  · simp

/-- The word enters the read buffer of its context. -/
def State.buffered (s : State) (i k : Nat) (w : BitVec 528) : State :=
  s.modTile i fun t => t.setState k { t.stateAt k with rdBuf := (t.stateAt k).rdBuf ++ [((t.stateAt k).time, w)] }

/-- A word that the controller corrected is counted. -/
def State.corrects (s : State) (ch : Nat) (o : Ecc) : State :=
  if o = .corrected then s.modChan ch fun y => { y with ce := (y.ce + 1) % 2 ^ 48 } else s

theorem State.corrects_frame : s.corrects ch o = { s with chans := (s.corrects ch o).chans } := by
  unfold State.corrects
  split <;> rfl

theorem State.corrects_ce (hl : ch < s.chans.length) :
    ((s.corrects ch o).chan ch).ce = if o = .corrected then ((s.chan ch).ce + 1) % 2 ^ 48 else (s.chan ch).ce := by
  unfold State.corrects
  split
  · rw [State.chan_modChan_same _ _ _ hl]
  · rfl

section
variable (hp : (s.ctx c).prog = some g) (ha : (s.ctx c).alloc = some al) (hi : (s.portTile g al r.list).1 = some i)
  (hk : k = if r.pro then 8 else r.cfg) (ho : o = eccOutcome r.ch (r.off / 960) (r.off % 960 / 64) r.dflaw r.cflaw)
include hp ha hi hk ho

/-- A good word, or one that the controller corrected, enters the read buffer as it is. -/
theorem State.deliverRead_good (hb : ((s.tile i).stateAt k).rdBuf.length < 64) (hg : o = .clean ∨ o = .corrected) (hl : r.lost = false) :
    s.deliverRead c r = (s.corrects r.ch o).buffered i k (dataPar r.data ++ r.data) := by
  have htile : (s.corrects r.ch o).tile i = s.tile i := by
    unfold State.corrects
    split <;> rfl
  have hbad : (decide (o = .uncorrectable ∨ o = .tagError) || r.lost) = false := by rcases hg with rfl | rfl <;> simp [hl]
  have hce : (if o = .corrected ∧ (!r.lost) = true then s.modChan r.ch fun y => { y with ce := (y.ce + 1) % 2 ^ 48 } else s) = s.corrects r.ch o := by
    simp [hl, State.corrects]
  unfold State.deliverRead
  simp only [hp, ha, ← ho, ← hk, hbad, hce, hi, Bool.false_eq_true, if_false]
  rw [if_neg (by rw [htile]; omega)]
  rfl

/-- A bad word enters it with every parity bit inverted, and is a fault of the step (R226, R270). -/
theorem State.deliverRead_bad (hb : ((s.tile i).stateAt k).rdBuf.length < 64)
    (hg : o = .uncorrectable ∨ (o ≠ .tagError ∧ r.lost = true)) :
    s.deliverRead c r = (s.buffered i k (~~~(dataPar (r.data ^^^ r.dflaw)) ++ (r.data ^^^ r.dflaw))).programUe c r false := by
  have hbad : (decide (o = .uncorrectable ∨ o = .tagError) || r.lost) = true := by
    rcases hg with h | ⟨-, h⟩
    · rw [h]
      rfl
    · simp [h]
  have htag : decide (o = .tagError) = false := by
    rcases hg with h | ⟨h, -⟩
    · rw [h]
      rfl
    · simp [h]
  have hce : ¬(o = .corrected ∧ (!r.lost) = true) := by
    rcases hg with h | ⟨-, h⟩
    · simp [h]
    · simp [h]
  unfold State.deliverRead
  simp only [hp, ha, ← ho, ← hk, hbad, htag, if_neg hce, hi, if_true]
  rw [if_neg (by omega)]
  rfl

/-- A word that finds its read buffer full violates the schedule. -/
theorem State.deliverRead_full (hb : 64 ≤ ((s.tile i).stateAt k).rdBuf.length) (hg : o = .clean) (hl : r.lost = false) :
    ∃ x : Violation, s.deliverRead c r = s.breach c x ∧ x.cause = 1 ∧ x.queue = 8 ∧ x.tile = i := by
  subst hg
  unfold State.deliverRead
  simp only [hp, ha, ← ho, ← hk, hl, hi]
  exact ⟨_, if_pos hb, rfl, rfl, rfl⟩
end

/-- An uncorrectable word of a step that is no re-execution is counted, logged, and a fault of the step. -/
theorem State.programUe_facts (hr : (s.ctx c).rollbacks = 0) (hrun : (s.ctx c).run ≠ none) (hs : Shaped s) (hc : c < 64) (hch : r.ch < 192)
    (hg : 3 < s.start.stage) (he : (s.chan r.ch).broke = true ∨ (s.chan r.ch).errs = []) :
    CycleWork s (s.programUe c r false) ∧ (s.programUe c r false).tiles = s.tiles ∧
      ((s.programUe c r false).ctx c).reads = (s.ctx c).reads ∧ ((s.programUe c r false).ctx c).faults = (s.ctx c).faults ++ [0x0106] ∧
      ((s.programUe c r false).ctx c).st = (s.ctx c).st ∧ ((s.programUe c r false).chan r.ch).lost (r.off / 960) = true ∧
      ((s.programUe c r false).chan r.ch).ue = ((s.chan r.ch).ue + 1) % 2 ^ 48 ∧ ∃ x ∈ (s.programUe c r false).logs.errs, x.cls = 0x0106 := by
  let body := memBody r.ch (r.off / 960) (min 2 ((((s.ctx c).memErrs.find? (·.1 = mpa r.ch r.off)).map (·.2)).getD 0 + 1)) r.slot
  let a := s.logErr 0x0106 { loc := r.ch, ctx := some c, pt := some (ptOfChan r.ch) } body
  have hk : KeepsCtxs s a := KeepsCtxs.refl.logErr
  have hl : Logged s a := Logged.refl.logErr
  have hf : (a.ctx c).faults = (s.ctx c).faults ++ [0x0106] := State.logErr_faults (by decide) rfl hrun (by rwa [hs.ctxs_length])
  have hlog : ∃ x ∈ a.logs.errs, x.cls = 0x0106 := State.logErr_recorded hg
  have hchan : a.chans = s.chans := by rw [hl]
  have hcx : a.chan r.ch = s.chan r.ch := by rw [State.chan, hchan, State.chan]
  have hcl : r.ch < a.chans.length := by rwa [hs.logErr.chans_length]
  obtain ⟨f, hm, hlost, hue⟩ := State.memError_counts (grp := r.off / 960) hcl (hcx ▸ he)
  obtain ⟨fx, hx, hfx⟩ : ∃ fx : Context → Context, s.programUe c r false = (a.memError r.ch (r.off / 960) false).modCtx c fx ∧
      ∀ y, (fx y).reads = y.reads ∧ (fx y).faults = y.faults ∧ (fx y).st = y.st := by
    unfold State.programUe
    exact ⟨_, if_neg (by rw [hr]; simp), fun _ => ⟨rfl, rfl, rfl⟩⟩
  have hca : c < a.ctxs.length := by rwa [hs.logErr.ctxs_length]
  have hctx : (((a.modChan r.ch f).modCtx c fx).ctx c) = fx (a.ctx c) := State.ctx_modCtx_same _ _ _ hca
  have hch' : ((a.modChan r.ch f).modCtx c fx).chan r.ch = f (a.chan r.ch) := State.chan_modChan_same a r.ch f hcl
  obtain ⟨hreads, hfaults, hst⟩ := hfx (a.ctx c)
  rw [hx, hm, hctx, hreads, hfaults, hst, hch']
  refine ⟨(CycleWork.of_logged hl).modChan.modCtx, (congrArg State.tiles hl).trans rfl, ?_, hf, (hk.ctxs c).st, hlost, ?_, hlog⟩
  · exact State.logErr_ctx_eq (f := Context.reads) (fun _ _ => rfl) fun _ _ => rfl
  · rw [hue, hcx]
end

/-- The bits of a burst of the group read that change as it is read. -/
def flipsOf (flips : List DramFlip) (ch off b : Nat) : BitVec 512 :=
  flips.foldl (fun m f => if f.ch.val = ch ∧ f.group.toNat = off / 960 ∧ f.burst.val = b then m ^^^ f.mask else m) 0

theorem flipsOf_eq {flips : List DramFlip} {ch : Ch} {off : Nat} : (fun b => flips.foldl (fun (m : BitVec 512) f =>
    if f.ch = ch ∧ f.group.toNat = off / 960 ∧ f.burst.val = b then m ^^^ f.mask else m) 0) = flipsOf flips ch off := by
  funext b
  unfold flipsOf
  congr 1
  funext m f
  simp only [Fin.ext_iff]

/-- A word that comes, with the bits that have changed. -/
def ReadRec.comes (r : ReadRec) (flips : List DramFlip) (ch : Nat) : ReadRec :=
  { r with dflaw := r.dflaw ^^^ flipsOf flips ch r.off (r.off % 960 / 64), cflaw := r.cflaw ^^^ flipsOf flips ch r.off 15 }

section
variable {r : ReadRec} {flips : List DramFlip} {ch : Nat}

@[simp] theorem ReadRec.comes_data : (r.comes flips ch).data = r.data := rfl
@[simp] theorem ReadRec.comes_off : (r.comes flips ch).off = r.off := rfl
@[simp] theorem ReadRec.comes_lost : (r.comes flips ch).lost = r.lost := rfl
end

/-- Whether a word is due now. -/
def State.isDue (s : State) (c ch : Nat) (r : ReadRec) : Bool :=
  decide (r.ch = ch ∧ r.due = (s.proCycle c).getD (s.ctx c).sched ∧ r.pro = (s.proCycle c).isSome)

section
variable {c ch : Nat} {flips : List DramFlip}

theorem State.isDue_iff {r : ReadRec} : s.isDue c ch r = true ↔
    r.ch = ch ∧ r.due = (s.proCycle c).getD (s.ctx c).sched ∧ r.pro = (s.proCycle c).isSome := decide_eq_true_iff

/-- The state in which a word due arrives: bits have changed, and the word is no longer on its way. -/
def State.readTaken (s : State) (c : Nat) (flips : List DramFlip) (rest : List ReadRec) : State :=
  (s.decay flips).modCtx c fun y => { y with reads := rest }

/-- What the arrival command does, in the state that the bits' changes leave. -/
theorem dramReadArrival_eq : dramReadArrival c ch flips s = if !(s.proCycle c).isSome && !s.schedRuns c then s.decay flips
    else match takeFirst (s.isDue c ch) (s.ctx c).reads with
      | some (r, rest) => (s.readTaken c flips rest).deliverRead c (r.comes flips ch)
      | none => s.decay flips := by
  have hd := State.decay_eq (s := s) (l := flips)
  unfold dramReadArrival State.readTaken
  generalize s.decay flips = v at hd
  have hpro : v.proCycle c = s.proCycle c := by
    rw [hd]
    rfl
  have hruns : v.schedRuns c = s.schedRuns c := by
    rw [hd]
    rfl
  have hctx : v.ctx c = s.ctx c := by
    rw [hd]
    rfl
  simp only [hpro, hruns, hctx]
  rfl

theorem dramReadArrival_none (h : (∀ r ∈ (s.ctx c).reads, r.ch = ch → r.pro = (s.proCycle c).isSome →
    r.due ≠ (s.proCycle c).getD (s.ctx c).sched) ∨ (s.proCycle c = none ∧ s.schedRuns c = false)) :
    dramReadArrival c ch flips s = s.decay flips := by
  rw [dramReadArrival_eq]
  split
  · rfl
  · next hn =>
    rcases h with h | ⟨h1, h2⟩
    · rw [takeFirst_none fun r hr => Bool.eq_false_iff.2 fun hd => ?_]
      obtain ⟨h1, h2, h3⟩ := State.isDue_iff.1 hd
      exact h r hr h1 h3 h2
    · simp [h1, h2] at hn

theorem dramReadArrival_some {r : ReadRec} {rest : List ReadRec} (hn : s.proCycle c ≠ none ∨ s.schedRuns c = true)
    (ht : takeFirst (s.isDue c ch) (s.ctx c).reads = some (r, rest)) :
    dramReadArrival c ch flips s = (s.readTaken c flips rest).deliverRead c (r.comes flips ch) := by
  have hb : (!(s.proCycle c).isSome && !s.schedRuns c) = false := by
    rcases hn with h | h
    · simp [Option.isSome_iff_ne_none.2 h]
    · simp [h]
  rw [dramReadArrival_eq, hb, ht]
  rfl
end

/-- In `a` a word of channel `ch` has come for context `c`, which waits for the words of `rest`: beside that only flaws of arrays have changed. -/
structure ReadComes (s a : State) (c ch : Nat) (rest : List ReadRec) : Prop where
  frame : a = { s with chans := a.chans, ctxs := a.ctxs }
  ctx : a.ctx c = { s.ctx c with reads := rest }
  chan : ∃ fl, a.chan ch = { s.chan ch with flaws := fl }
  shaped : Shaped a

section
variable {a : State} {c ch : Nat} {flips : List DramFlip} {r : ReadRec} {rest : List ReadRec}

theorem ReadComes.readTaken (hs : Shaped s) (hc : c < 64) : ReadComes s (s.readTaken c flips rest) c ch rest where
  frame := by
    unfold State.readTaken
    rw [State.decay_eq]
    rfl
  ctx := by
    unfold State.readTaken
    rw [State.ctx_modCtx_same _ _ _ (by rwa [hs.decay.ctxs_length]), State.decay_eq]
    rfl
  chan := State.chan_decay
  shaped := hs.decay.modCtx

theorem ReadComes.tile (h : ReadComes s a c ch rest) (i : Nat) : a.tile i = s.tile i := by
  rw [h.frame]
  rfl

theorem ReadComes.work (h : ReadComes s a c ch rest) : CycleWork s a := by
  have hf := h.frame
  unfold CycleWork
  rw [hf]

theorem ReadComes.pts (h : ReadComes s a c ch rest) : a.pts = s.pts := by rw [h.frame]

theorem ReadComes.sameMemory (h : ReadComes s a c ch rest) : SameMemory s a := by
  rw [h.frame]
  exact ⟨rfl, rfl, rfl, rfl⟩

theorem ReadComes.port {g : Prog} {al : Alloc} {l : Nat} (h : ReadComes s a c ch rest) : a.portTile g al l = s.portTile g al l := by
  rw [h.frame]
  rfl
end

/-! ### How the channels' commands answer -/

section
variable {cmd : Instr} {a : State} {c : Ctx} {ch : Ch} {g : Prog} {al : Alloc} {i k : Nat} {r : ReadRec} {rest : List ReadRec} {o : Ecc}
  (hx : exec cmd s = nextOf s (a.deliverRead c r)) (h : ReadComes s a c ch rest) (hch : r.ch = ch.val) (hp : (s.ctx c).prog = some g)
  (ha : (s.ctx c).alloc = some al) (hi : (s.portTile g al r.list).1 = some i) (hk : k = if r.pro then 8 else r.cfg)
  (ho : o = eccOutcome ch (r.off / 960) (r.off % 960 / 64) r.dflaw r.cflaw)
include hx h hch hp ha hi hk ho

theorem deliverRead_good_answers (hb : ((s.tile i).stateAt k).rdBuf.length < 64) (hg : o = .clean ∨ o = .corrected) (hl : r.lost = false) :
    Answers cmd s fun t => (t.ctx c).reads = rest ∧
      t.tile i = (s.tile i).setState k { (s.tile i).stateAt k with
        rdBuf := ((s.tile i).stateAt k).rdBuf ++ [(((s.tile i).stateAt k).time, dataPar r.data ++ r.data)] } ∧
      (∀ j, j ≠ i → t.tile j = s.tile j) ∧
      (t.chan ch).ce = (if o = .corrected then ((s.chan ch).ce + 1) % 2 ^ 48 else (s.chan ch).ce) ∧
      t.dram = s.dram ∧ t.pool = s.pool ∧ t.pts = s.pts ∧ SameManagement s t := by
  rw [State.deliverRead_good (by rw [h.ctx, ← hp]) (by rw [h.ctx, ← ha]) (by rw [h.port, hi]) hk (by rw [ho, hch]) (by rwa [h.tile]) hg hl, hch]
    at hx
  have hc := State.corrects_frame (s := a) (ch := ch) (o := o)
  have hce := State.corrects_ce (s := a) (o := o) (h.shaped.chan_lt ch)
  obtain ⟨fl, hfl⟩ := h.chan
  rw [hfl] at hce
  generalize a.corrects ch o = b at hx hc hce
  have hbc : b.ctx c = { s.ctx c with reads := rest } := by
    rw [hc]
    exact h.ctx
  have hbt (j : Nat) : b.tile j = s.tile j := by
    rw [hc]
    exact h.tile j
  have hw : CycleWork s b := h.work.trans (by unfold CycleWork; rw [hc])
  refine answers_of hx ?_
  simp only [settle_ctx, settle_tile, settle_chan, settle_dram, settle_pool, settle_pts]
  refine ⟨congrArg Context.reads hbc, ?_, fun j hj => ?_, hce, hw.dram, hw.pool, ?_, SameManagement.settle hw.management⟩
  · rw [State.buffered, State.tile_modTile_same, hbt]
  · rw [State.buffered, State.tile_modTile_other _ hj, hbt]
  · exact (congrArg State.pts hc).trans h.pts

theorem deliverRead_bad_answers (hb : ((s.tile i).stateAt k).rdBuf.length < 64) (hg : o = .uncorrectable ∨ (o ≠ .tagError ∧ r.lost = true))
    (hrb : (s.ctx c).rollbacks = 0) (hrun : (s.ctx c).run ≠ none) (hst : 3 < s.start.stage) (he : (s.chan ch).broke = true ∨ (s.chan ch).errs = []) :
    Answers cmd s fun t => (t.ctx c).reads = rest ∧
      t.tile i = (s.tile i).setState k { (s.tile i).stateAt k with
        rdBuf := ((s.tile i).stateAt k).rdBuf ++ [(((s.tile i).stateAt k).time, ~~~(dataPar (r.data ^^^ r.dflaw)) ++ (r.data ^^^ r.dflaw))] } ∧
      (t.ctx c).faults = (s.ctx c).faults ++ [0x0106] ∧ (t.ctx c).st = (s.ctx c).st ∧ (t.chan ch).lost (r.off / 960) = true ∧
      (t.chan ch).ue = ((s.chan ch).ue + 1) % 2 ^ 48 ∧ (∃ x ∈ t.logs.errs, x.cls = 0x0106) ∧ t.dram = s.dram ∧ t.pool = s.pool ∧
      SameManagement s t := by
  rw [State.deliverRead_bad (by rw [h.ctx, ← hp]) (by rw [h.ctx, ← ha]) (by rw [h.port, hi]) hk (by rw [ho, hch]) (by rwa [h.tile]) hg] at hx
  obtain ⟨fl, hfl⟩ := h.chan
  have hctx : (a.buffered i k (~~~(dataPar (r.data ^^^ r.dflaw)) ++ (r.data ^^^ r.dflaw))).ctx c = { s.ctx c with reads := rest } := h.ctx
  have hchan : (a.buffered i k (~~~(dataPar (r.data ^^^ r.dflaw)) ++ (r.data ^^^ r.dflaw))).chan r.ch = { s.chan ch with flaws := fl } := by
    rw [hch]
    exact hfl
  have htile : (a.buffered i k (~~~(dataPar (r.data ^^^ r.dflaw)) ++ (r.data ^^^ r.dflaw))).tile i = (s.tile i).setState k
      { (s.tile i).stateAt k with rdBuf := ((s.tile i).stateAt k).rdBuf ++
        [(((s.tile i).stateAt k).time, ~~~(dataPar (r.data ^^^ r.dflaw)) ++ (r.data ^^^ r.dflaw))] } := by
    rw [State.buffered, State.tile_modTile_same, h.tile]
  have hsh : Shaped (a.buffered i k (~~~(dataPar (r.data ^^^ r.dflaw)) ++ (r.data ^^^ r.dflaw))) := h.shaped.modTile
  have hw : CycleWork s (a.buffered i k (~~~(dataPar (r.data ^^^ r.dflaw)) ++ (r.data ^^^ r.dflaw))) := h.work.modTile
  generalize a.buffered i k _ = b at hx hctx hchan htile hsh hw
  have hstage : b.start = s.start := hw.management.2.2
  obtain ⟨hwork, htiles, hreads, hfaults, hst', hlost, hue, hlog⟩ := State.programUe_facts (s := b) (c := c) (r := r) (by rw [hctx]; exact hrb)
    (by rw [hctx]; exact hrun) hsh c.isLt (by rw [hch]; exact ch.isLt) (by rwa [hstage]) (by rw [hchan]; exact he)
  rw [hch] at hlost hue hchan
  rw [hctx] at hreads hfaults hst'
  rw [hchan] at hue
  have hall := hw.trans hwork
  have ht : (b.programUe c r false).tile i = b.tile i := by rw [State.tile, htiles, State.tile]
  refine answers_of hx ?_
  simp only [settle_ctx, settle_tile, settle_chan, settle_logs, settle_dram, settle_pool]
  exact ⟨hreads, ht.trans htile, hfaults, hst', hlost, hue, hlog, hall.dram, hall.pool, SameManagement.settle hall.management⟩

theorem deliverRead_full_answers (hb : 64 ≤ ((s.tile i).stateAt k).rdBuf.length) (hg : o = .clean) (hl : r.lost = false) :
    Answers cmd s fun t => (∃ x, (t.ctx c).viols = (s.ctx c).viols ++ [x] ∧ x.cause = 1 ∧ x.queue = 8 ∧ x.tile = i) ∧
      SameMemory s t ∧ t.pts = s.pts ∧ SameManagement s t := by
  obtain ⟨x, he, hcause, hq, hti⟩ := State.deliverRead_full (s := a) (c := c) (r := r) (by rw [h.ctx, ← hp]) (by rw [h.ctx, ← ha])
    (by rw [h.port, hi]) hk (by rw [ho, hch]) (by rwa [h.tile]) hg hl
  rw [he] at hx
  have hctx : (a.breach c x).ctx c = { a.ctx c with viols := (a.ctx c).viols ++ [x] } := State.ctx_modCtx_same _ _ _ (h.shaped.ctx_lt c)
  refine answers_of hx ?_
  simp only [settle_ctx, settle_pts]
  refine ⟨⟨x, ?_, hcause, hq, hti⟩, SameMemory.settle h.sameMemory, h.pts, SameManagement.settle h.work.management⟩
  rw [hctx, h.ctx]
end

section
variable {cmd : Instr} {c : Ctx} {ch : Ch} {l i j k n : Nat} {g : Prog} {al : Alloc} {cl : ChanList} {e : SlotEnt} {mesh pro side : Bool} {flip : Link}
  (hs : Shaped s)
include hs

theorem slotRead_answers (hx : exec cmd s = nextOf s ((s.slotTaken ch).slotRead c ch l j mesh pro g al cl e side i n)) :
    Answers cmd s fun t => (∃ r, (t.ctx c).reads = (s.ctx c).reads ++ [r] ∧ r.due = 6 * j + (if mesh then 161 else 173) ∧ r.ch = ch.val ∧
      r.cfg = e.ctx ∧ r.off = 960 * al.baseG + 64 * slotWord g al (s.ctx c) cl e side n i ∧ r.pro = pro ∧
      (s.scratch = [] → r.data = s.usableWord ch ((960 * al.baseG + 64 * slotWord g al (s.ctx c) cl e side n i) / 64))) ∧
      SameMemory s t ∧ (t.chan ch).slotAt = s.clk.life + 1 ∧ t.pts = s.pts ∧ SameManagement s t := by
  obtain ⟨r, he, hr⟩ := State.slotRead_eq (s := s.slotTaken ch) (c := c) (ch := ch) (l := l) (j := j) (mesh := mesh) (pro := pro) (g := g) (al := al)
    (cl := cl) (e := e) (side := side) (i := i) (n := n)
  have hctx : ((s.slotTaken ch).modCtx c fun x => { x with reads := x.reads ++ [r] }).ctx c =
      { s.ctx c with reads := (s.ctx c).reads ++ [r] } := State.ctx_modCtx_same (s.slotTaken ch) c _ (hs.ctx_lt c)
  have hchan : (s.slotTaken ch).chan ch = { s.chan ch with slotAt := s.clk.life + 1 } := State.chan_modChan_same s ch _ (hs.chan_lt ch)
  rw [he] at hx
  refine answers_of hx ?_
  simp only [settle_ctx, settle_chan, settle_pts]
  exact ⟨⟨r, congrArg Context.reads hctx, hr⟩, SameMemory.settle ⟨rfl, rfl, rfl, rfl⟩, congrArg Chan.slotAt hchan, rfl,
    SameManagement.settle ⟨rfl, rfl, rfl⟩⟩

omit hs in
/-- A slot that takes the head of a write buffer: the word record `w` joins the crossing. -/
theorem slotWrite_answers {w : WriteRec} {r : List (Option (BitVec 512))} {P : WriteRec → Prop} (hw : P w)
    (hx : exec cmd s = nextOf s { (s.slotTaken ch).modTile k (Tile.leaves e.ctx r) with
      crossing := s.crossing ++ [w] }) :
    Answers cmd s fun t => (∃ w, t.crossing = s.crossing ++ [w] ∧ P w) ∧
      t.tile k = (s.tile k).setState e.ctx { (s.tile k).stateAt e.ctx with wrBuf := r } ∧ (∀ j, j ≠ k → t.tile j = s.tile j) ∧
      t.dram = s.dram ∧ t.pool = s.pool ∧ t.pts = s.pts ∧ SameManagement s t := by
  refine answers_of hx ?_
  simp only [settle_crossing, settle_tile, settle_dram, settle_pool, settle_pts]
  exact ⟨⟨w, rfl, hw⟩, State.tile_modTile_same (s := s.slotTaken ch) k (Tile.leaves e.ctx r),
    fun j hj => State.tile_modTile_other (s := s.slotTaken ch) (Tile.leaves e.ctx r) hj, rfl, rfl, rfl, SameManagement.settle ⟨rfl, rfl, rfl⟩⟩

theorem slotWrite_empty_answers (h : ((s.tile k).stateAt e.ctx).wrBuf = [])
    (hx : exec cmd s = nextOf s ((s.slotTaken ch).slotWrite c ch l k flip g al cl e i n)) :
    Answers cmd s fun t => (∃ x, (t.ctx c).viols = (s.ctx c).viols ++ [x] ∧ x.cause = 2 ∧ x.queue = 9 ∧ x.tile = k) ∧
      t.crossing = s.crossing ∧ SameMemory s t ∧ t.pts = s.pts ∧ SameManagement s t := by
  obtain ⟨x, he, hf⟩ := State.slotWrite_empty (s := s.slotTaken ch) (c := c) (ch := ch) (l := l) (flip := flip) (g := g) (al := al) (cl := cl)
    (i := i) (n := n) h
  have hctx : ((s.slotTaken ch).breach c x).ctx c = { s.ctx c with viols := (s.ctx c).viols ++ [x] } :=
    State.ctx_modCtx_same (s.slotTaken ch) c _ (hs.ctx_lt c)
  rw [he] at hx
  refine answers_of hx ?_
  simp only [settle_ctx, settle_crossing, settle_pts]
  exact ⟨⟨x, congrArg Context.viols hctx, hf⟩, rfl, SameMemory.settle ⟨rfl, rfl, rfl, rfl⟩, rfl, SameManagement.settle ⟨rfl, rfl, rfl⟩⟩
end

end
end Sys2Proof.Machine

open Sys2Proof.Machine in
/-- Settles O36: a write lands as its 64 bytes; each slot command comes down to one update, and each arrival to the delivery of one word. -/
theorem channelReads : Obligations.ChannelReads := by
  unfold Obligations.ChannelReads
  refine ⟨fun s c ch flip g al cl e i n l off hs hm => ⟨fun w d evs h hd hw => routeCycle_lands_answers hm h hd hw, fun hp ha hl hlt hcl => ⟨?_, ?_⟩⟩,
    fun s c ch flips g al now k i hs hp ha hnow => ⟨fun h => ?_, fun r rest here d o hn ht hi hk hhere hd ho => ?_⟩⟩
  · intro j r hc h6 hsl hb hop hreg hr
    have hx := channelSlotIssue_prologue (flip := flip) hp ha hl hlt hcl hc h6 hsl hb hop hreg
    obtain ⟨t, ht, ⟨x, hx, hdue, hch, -, hoff, hpro, -⟩, hmem, -, hpts, hman⟩ :=
      slotRead_answers (cmd := .channelSlotIssue c ⟨ch, flip⟩) hs (congrArg (nextOf s) hx)
    exact ⟨t, ht, ⟨x, hx, hpro, hch, hoff.trans hr.symm, by rw [hdue]; omega⟩, hmem, hpts, hman⟩
  · intro hc hoff
    refine ⟨fun h => makes_of (congrArg (nextOf s) (channelSlotIssue_waits hp ha hl hlt hcl hc h)), fun hsl h6 hr =>
      ⟨fun hb => makes_of (congrArg (nextOf s) (channelSlotIssue_none hp ha hl hlt hcl hc hsl h6 hr hb)), fun hb => ⟨fun hop => ?_, ?_, ?_, ?_⟩⟩⟩
    · have hx := channelSlotIssue_read (flip := flip) hp ha hl hlt hcl hc hsl h6 hr hb hop
      obtain ⟨t, ht, ⟨x, hx, hdue, hch, hcfg, hxoff, hpro, hdata⟩, ⟨htiles, hdram, hpool, -⟩, hslot, hpts, hman⟩ :=
        slotRead_answers (cmd := .channelSlotIssue c ⟨ch, flip⟩) hs (congrArg (nextOf s) hx)
      exact ⟨t, ht, ⟨x, hx, by rw [hdue]; omega, hch, hcfg, hxoff.trans hoff.symm, hpro, by rw [hoff]; exact hdata⟩, hdram, htiles, hslot, hpool, hpts,
        hman⟩
    · intro k d r hop hk hbuf
      have hx := channelSlotIssue_write (flip := 0) hp ha hl hlt hcl hc hsl h6 hr hb hop hk
      obtain ⟨w, he, hw⟩ := State.slotWrite_sends (s := s.slotTaken ch) (c := c) (ch := ch) (l := l) (g := g) (al := al) (cl := cl) (i := i) (n := n) hbuf
      refine slotWrite_answers (P := fun w => w.due = s.clk.life + 6 ∧ w.ch = ch ∧ w.off = off ∧ w.data = some d) (ch := ch) ?_
        (congrArg (nextOf s) (hx.trans he))
      rw [hoff]
      exact hw
    · intro k r hop hk hbuf
      have hx := channelSlotIssue_write (flip := flip) hp ha hl hlt hcl hc hsl h6 hr hb hop hk
      obtain ⟨w, he, hw⟩ := State.slotWrite_suppressed (s := s.slotTaken ch) (c := c) (ch := ch) (l := l) (flip := flip) (g := g) (al := al) (cl := cl)
        (i := i) (n := n) hbuf
      exact slotWrite_answers (P := fun w => w.data = none) (ch := ch) hw (congrArg (nextOf s) (hx.trans he))
    · intro k hop hk hbuf
      exact slotWrite_empty_answers hs hbuf (congrArg (nextOf s) (channelSlotIssue_write hp ha hl hlt hcl hc hsl h6 hr hb hop hk))
  · subst hnow
    refine makes_of (congrArg (nextOf s) (dramReadArrival_none ?_))
    exact h
  · subst hnow
    have hx : exec (.dramReadArrival c ch flips) s = nextOf s ((s.readTaken c flips rest).deliverRead c (r.comes flips ch)) :=
      congrArg (nextOf s) (dramReadArrival_some hn ht)
    have hcomes : ReadComes s (s.readTaken c flips rest) c ch rest := .readTaken hs c.isLt
    have hch : (r.comes flips ch).ch = ch.val := (State.isDue_iff.1 (takeFirst_some ht)).1
    rw [flipsOf_eq] at hhere
    have hdflaw : (r.comes flips ch).dflaw = d := by rw [hd, hhere]; rfl
    have ho' : o = eccOutcome ch ((r.comes flips ch).off / 960) ((r.comes flips ch).off % 960 / 64) (r.comes flips ch).dflaw
        (r.comes flips ch).cflaw := by
      rw [hdflaw, ho, hhere]
      rfl
    have hgood := deliverRead_good_answers hx hcomes hch hp ha hi hk ho'
    have hbad := deliverRead_bad_answers hx hcomes hch hp ha hi hk ho'
    have hfull := deliverRead_full_answers hx hcomes hch hp ha hi hk ho'
    rw [hdflaw] at hbad
    simp only [ReadRec.comes_data, ReadRec.comes_off, ReadRec.comes_lost] at hgood hbad hfull
    exact ⟨hgood, hbad, hfull⟩


namespace Sys2Proof.Machine

section
variable {s t u : State}

/-! ### A cycle's clocks and memories (R134) -/

theorem CycleWork.landed (h : CycleWork { s with dram := t.dram, crossing := t.crossing } t) :
    t.clk = s.clk ∧ t.pool = s.pool ∧ t.reel = s.reel ∧ t.groups = s.groups ∧ SameManagement s t := ⟨h.clk, h.pool, h.reel, h.groups, h.management⟩

theorem routeCycle_answers {evs : List WireEvent} : Answers (.routeCycle evs) s fun t => t.clk.cycle = s.clk.cycle + 1 ∧
    t.clk.life = s.clk.life + 1 ∧ ((∀ w ∈ s.crossing, s.clk.life + 1 < w.due) → t.dram = s.dram) ∧ t.pool = s.pool ∧ t.reel = s.reel ∧
    t.groups = s.groups ∧ SameManagement s t := by
  have hc : CycleWork s (s.cycled evs) := CycleWork.cycled
  have ha : CycleWork (s.cycled evs).tick.landWrites (routeCycle evs s) := CycleWork.afterLanding
  refine answers_of (u := routeCycle evs s) rfl ?_
  generalize routeCycle evs s = t at ha
  generalize s.cycled evs = a at hc ha
  obtain ⟨hclk, hpool, hreel, hgroups, hid, hmg, hst⟩ := (State.landWrites_work (s := a.tick)).landed
  obtain ⟨hid', hmg', hst'⟩ := ha.management
  obtain ⟨hid0, hmg0, hst0⟩ := hc.management
  have hlife : t.clk = a.tick.clk := ha.clk.trans hclk
  simp only [settle_clk, settle_dram, settle_pool, settle_reel, settle_groups]
  refine ⟨?_, ?_, fun h => ?_, ha.pool.trans (hpool.trans hc.pool), ha.reel.trans (hreel.trans hc.reel), ha.groups.trans (hgroups.trans hc.groups),
    SameManagement.settle ⟨hid'.trans (hid.trans hid0), hmg'.trans (hmg.trans hmg0), hst'.trans (hst.trans hst0)⟩⟩
  · rw [hlife, State.tick, hc.clk]
  · rw [hlife, State.tick, hc.clk]
  · have hn : a.tick.landWrites = a.tick := State.landWrites_none fun w hw => by
      rw [State.tick, hc.clk]
      exact h w (hc.crossing ▸ hw)
    rw [ha.dram, hn]
    exact hc.dram

/-! ### A module with nothing at work -/

theorem State.sheetCycles_idle {evs : List WireEvent} (h : ∀ n, (s.sheet n).dwell = none) : s.sheetCycles evs = s := by
  refine List.foldlRecOn (motive := (· = s)) _ _ rfl fun a ha n _ => ?_
  subst ha
  have hs : (a.sheet n).shadowed = none := by
    unfold Sheet.shadowed
    simp only [h n]
  have hsh : a.shadowCycle evs n = a := by
    unfold State.shadowCycle
    simp only [hs]
  rw [hsh]
  unfold State.catchupCycle
  simp only [h n]

theorem State.holder_none (h : s.boundCtxs = []) (p : Nat) : s.holder p = none := by
  refine List.find?_eq_none.2 fun c hc => ?_
  have hb := List.filter_eq_nil_iff.1 h c hc
  have he : (s.ctx c).held = [] := by simpa using hb
  simp [he]

theorem State.keepBusy_idle (h : s.boundCtxs = []) (hd : ∀ n, (s.sheet n).dwell = none ∧ (s.sheet n).dwellDue = none) : s.keepBusy = s := by
  refine List.foldlRecOn (motive := (· = s)) _ _ rfl fun a ha p _ => ?_
  subst ha
  have hn : a.needed p = false := by
    unfold State.needed
    simp only [State.holder_none h]
    simp [hd]
  rw [if_neg (by simp [hn])]

theorem routeCycle_idle {evs : List WireEvent} (h : s.boundCtxs = []) (hd : ∀ n, (s.sheet n).dwell = none ∧ (s.sheet n).dwellDue = none)
    (hc : s.crossing = []) : routeCycle evs s = s.tick := by
  have hx : s.ctxCycles evs = (s, []) := by
    unfold State.ctxCycles
    rw [h]
    rfl
  have hy : s.cycled evs = s := by
    unfold State.cycled
    rw [hx, h, State.sheetCycles_idle fun n => (hd n).1]
    rfl
  have hl : s.tick.landWrites = s.tick := State.landWrites_none (s := s.tick) fun w hw => by
    rw [State.tick, hc] at hw
    cases hw
  rw [routeCycle_eq, hy, hx, hl]
  exact State.keepBusy_idle (s := s.tick) h hd

/-! ### The steps of a tile (R188, R191, R207, R250) -/

section
variable {i c : Nat} {v : View} {st : CState}

theorem tile_steps_unbound (h : s.ctxOfTile i = none) : issueEntryAdvance i s = s ∧ foldSlotSwitch i s = s ∧ readBufferEmit i s = s := by
  refine ⟨?_, ?_, ?_⟩
  · unfold issueEntryAdvance
    simp only [h]
  · unfold foldSlotSwitch
    simp only [h]
  · unfold readBufferEmit
    simp only [h]

section
variable (hc : s.ctxOfTile i = some c) (hv : v = s.view c i (s.ctx c).sched) (hst : st = (s.tile i).stateAt v.k)
include hc hv hst

section
variable {e : Issue} (hval : ctxValid (s.tile i).cfg ≠ 0) (hpos : st.pos ≤ (ctxCtl v.mem v.base).issueLast)
  (he : e = issueEnt v.mem v.base st.pos)
include hval hpos he

theorem issueEntryAdvance_stays (ho : e.op ≠ 3) (hr : st.rep < e.len) : issueEntryAdvance i s = s := by
  subst hv hst he
  unfold issueEntryAdvance
  simp only [hc]
  rw [if_neg (by omega)]
  exact if_pos ⟨ho, hr⟩

/-- An entry that is over gives way to the one that follows, through every LOOP. -/
theorem issueEntryAdvance_moves (ho : e.op = 3 ∨ e.len ≤ st.rep) :
    ∃ pos loops, followLoops v 1024 (if e.op = 3 then st.pos else st.pos + 1) st.loops = (pos, loops) ∧
      issueEntryAdvance i s = s.modTile i fun t => t.setState v.k { t.stateAt v.k with pos := pos, loops := loops, rep := 0 } := by
  subst hv hst he
  refine ⟨_, _, Prod.mk.eta.symm, ?_⟩
  unfold issueEntryAdvance
  simp only [hc]
  rw [if_neg (by omega)]
  exact if_neg (by omega)
end

section
variable {q : Nat} (hf : v.first = true) (hr : s.schedRuns c = true) (hval : ctxValid (s.tile i).cfg ≠ 0)
  (hpred : st.predAt ≠ (s.ctx c).sched + 1) (hq : q = (ctxCtl v.mem v.base).predQ)
include hf hr hval hpred hq

theorem foldSlotSwitch_plain (hb : (ctxCtl v.mem v.base).branch = 0) : foldSlotSwitch i s = s := by
  subst hv hst hq
  unfold foldSlotSwitch
  simp only [hc]
  rw [if_neg (by simp [hf, hr, hval, hpred]), if_pos hb]

/-- A predicated context takes its token. -/
theorem foldSlotSwitch_takes {w : Nat × Bool × BitVec 512} {y : Tile} (hb : (ctxCtl v.mem v.base).branch ≠ 0) (ht : v.take (s.tile i) q = some (w, y)) :
    foldSlotSwitch i s = s.modTile i fun _ => y.setState v.k { y.stateAt v.k with predAt := (s.ctx c).sched + 1, pred := w.2.2.getLsbD 0 } := by
  subst hv hst hq
  unfold foldSlotSwitch
  simp only [hc]
  rw [if_neg (by simp [hf, hr, hval, hpred]), if_neg hb]
  simp only [ht]

/-- Without a token its queue runs under. -/
theorem foldSlotSwitch_under (hb : (ctxCtl v.mem v.base).branch ≠ 0) (ht : v.take (s.tile i) q = none) :
    ∃ (f : Tile → Tile) (x : Violation), foldSlotSwitch i s = (s.modTile i f).breach c x ∧ x.cause = 2 ∧ x.queue = q ∧ x.tile = i := by
  subst hv hst hq
  unfold foldSlotSwitch
  simp only [hc]
  rw [if_neg (by simp [hf, hr, hval, hpred]), if_neg hb]
  simp only [ht]
  exact ⟨_, _, rfl, rfl, rfl, rfl⟩
end

section
variable {a : Nat} {w : BitVec 528} {r : List (Nat × BitVec 528)} (hb : st.rdBuf = (a, w) :: r)
include hb

theorem readBufferEmit_waits (h : st.time < a + 24) : readBufferEmit i s = s := by
  subst hv hst
  unfold readBufferEmit State.emitRead
  simp only [hc, hb]
  exact if_pos (.inl h)

/-- The word that has spent its time in the read buffer, as it goes to the router. -/
def readWord (gen : BitVec 4) (q : BitVec 3) (w : BitVec 528) : Link :=
  if w.extractLsb' 512 16 ≠ dataPar (w.extractLsb' 0 512) then poisonWord (dataWord gen q false (w.extractLsb' 0 512))
  else dataWord gen q false (w.extractLsb' 0 512)

theorem readBufferEmit_emits (h : a + 24 ≤ st.time) (hl : ∀ f ∈ s.flights, ¬(f.tile = i ∧ f.port = 6 ∧ f.left = 0)) :
    ∃ q, readBufferEmit i s = (s.modTile i fun t => t.setState v.k { t.stateAt v.k with rdBuf := r }).fly i 6 0 (readWord (s.tile i).ugen q w) := by
  have hn : ¬(s.flights.any fun f => decide (f.tile = i ∧ f.port = 6 ∧ f.left = 0)) = true := by
    simpa using hl
  subst hv hst
  unfold readBufferEmit State.emitRead readWord
  simp only [hc, hb]
  rw [if_neg (by rintro (h' | h'); exacts [absurd h' (by omega), hn h'])]
  simp only [decide_eq_true_eq]
  exact ⟨_, rfl⟩
end
end

theorem readWord_fields {g : BitVec 4} {q : BitVec 3} {w : BitVec 528} : (readWord g q w).data = w.extractLsb' 0 512 ∧ (readWord g q w).valid = true ∧
    (readWord g q w).kind = 0 ∧ (readWord g q w).gen = g ∧ (readWord g q w).last = false ∧
    (w.extractLsb' 512 16 = dataPar (w.extractLsb' 0 512) → (readWord g q w).badLanes = 0) ∧
    (w.extractLsb' 512 16 ≠ dataPar (w.extractLsb' 0 512) → (readWord g q w).badLanes = 0xFFFF) := by
  unfold readWord
  split
  · next h =>
    simp only [poisonWord_data, poisonWord_valid, poisonWord_kind, poisonWord_gen, poisonWord_last, dataWord_data, dataWord_valid, dataWord_kind,
      dataWord_gen, dataWord_last]
    exact ⟨trivial, trivial, trivial, trivial, trivial, fun he => absurd he h, fun _ => poisonWord_badLanes dataWord_badLanes⟩
  · next h =>
    simp only [dataWord_data, dataWord_valid, dataWord_kind, dataWord_gen, dataWord_last, dataWord_badLanes]
    exact ⟨trivial, trivial, trivial, trivial, trivial, fun _ => trivial, fun he => absurd he h⟩
end

/-! ### The telemetry snapshot (R171, R173) -/

/-- A tile that takes its counts. -/
def Tile.snapshots (cyc life : Nat) (t : Tile) : Tile := ({ t with sending := some ({ t.tlm with at' := cyc }, 3, life) } : Tile).restartQmax

/-- A partition's routers are in Run or Idle. -/
def State.routersOn (s : State) (p : Nat) : Bool := decide ((s.pt p).pwr = .run ∨ (s.pt p).pwr = .idle)

theorem telemetrySnapshot_eq (h : s.cyc % 2 ^ 21 = 0) (hn : s.clk.snapAt ≠ s.clk.life + 1) : telemetrySnapshot s =
    ((List.range 6912).filter fun i => s.routersOn (ptOfSheet (i / 288))).foldl (fun a i => a.modTile i (Tile.snapshots s.cyc s.clk.life))
      { s with clk := { s.clk with snapAt := s.clk.life + 1 } } := if_neg (by rintro (h' | h'); exacts [h' h, hn h'])

/-! ### How the steps of a tile answer -/

section
variable {i c : Nat} {cmd : Instr}

/-- A step that changes one tile. -/
theorem modTile_answers {f : Tile → Tile} (hx : exec cmd s = nextOf s (s.modTile i f)) :
    Answers cmd s fun t => t.tile i = f (s.tile i) ∧ (∀ j, j ≠ i → t.tile j = s.tile j) ∧ t.ctxs = s.ctxs ∧ t.dram = s.dram ∧ t.pool = s.pool ∧
      SameManagement s t := by
  refine answers_of hx ?_
  simp only [settle_tile, settle_ctxs, settle_dram, settle_pool]
  exact ⟨State.tile_modTile_same i f, fun j hj => State.tile_modTile_other f hj, rfl, rfl, rfl, SameManagement.settle ⟨rfl, rfl, rfl⟩⟩

/-- A step that meets a violation. -/
theorem breach_answers {f : Tile → Tile} {x : Violation} (hs : Shaped s) (hc : c < 64) (hx : exec cmd s = nextOf s ((s.modTile i f).breach c x)) :
    Answers cmd s fun t => (t.ctx c).viols = (s.ctx c).viols ++ [x] ∧ (∀ j, j ≠ i → t.tile j = s.tile j) ∧ t.dram = s.dram ∧ t.pool = s.pool ∧
      t.reel = s.reel ∧ SameManagement s t := by
  have hctx : ((s.modTile i f).breach c x).ctx c = { s.ctx c with viols := (s.ctx c).viols ++ [x] } :=
    State.ctx_modCtx_same (s.modTile i f) c _ (hs.ctx_lt ⟨c, hc⟩)
  refine answers_of hx ?_
  simp only [settle_ctx, settle_tile, settle_dram, settle_pool, settle_reel]
  exact ⟨congrArg Context.viols hctx, fun j hj => State.tile_modTile_other f hj, rfl, rfl, rfl, SameManagement.settle ⟨rfl, rfl, rfl⟩⟩

/-- A step that sends a word on from a tile. -/
theorem fly_answers {f : Tile → Tile} {x : Link} (hx : exec cmd s = nextOf s ((s.modTile i f).fly i 6 0 x)) :
    Answers cmd s fun t => t.flights = s.flights ++ [⟨i, 6, 0, x⟩] ∧ t.tile i = f (s.tile i) ∧ (∀ j, j ≠ i → t.tile j = s.tile j) ∧ t.ctxs = s.ctxs ∧
      t.dram = s.dram ∧ t.pool = s.pool ∧ SameManagement s t := by
  refine answers_of hx ?_
  simp only [settle_flights, settle_tile, settle_ctxs, settle_dram, settle_pool]
  exact ⟨rfl, State.tile_modTile_same i f, fun j hj => State.tile_modTile_other f hj, rfl, rfl, rfl, SameManagement.settle ⟨rfl, rfl, rfl⟩⟩
end

section
variable {l : List Nat} {f : Tile → Tile} {j : Nat}

theorem foldl_modTile_other (h : j ∉ l) : (l.foldl (fun a i => a.modTile i f) s).tile j = s.tile j :=
  List.foldlRecOn (motive := fun a : State => a.tile j = s.tile j) l _ rfl fun a ha i hi =>
    (State.tile_modTile_other (s := a) f fun he : j = i => h (he ▸ hi)).trans ha

theorem foldl_modTile_mem (hl : l.Nodup) (h : j ∈ l) : (l.foldl (fun a i => a.modTile i f) s).tile j = f (s.tile j) :=
  foldl_once (P := fun a => a.tile j = s.tile j) (Q := fun a => a.tile j = f (s.tile j)) hl h rfl
    (fun a _ _ hi ha => (State.tile_modTile_other (s := a) f hi.symm).trans ha)
    (fun _ ha => (State.tile_modTile_same j f).trans (congrArg f ha)) fun a _ _ hi ha => (State.tile_modTile_other (s := a) f hi.symm).trans ha

/-- Changes of tiles change tiles alone. -/
theorem foldl_modTile_eq : l.foldl (fun a i => a.modTile i f) s = { s with tiles := (l.foldl (fun a i => a.modTile i f) s).tiles } :=
  List.foldlRecOn (motive := fun a : State => a = { s with tiles := a.tiles }) l _ rfl fun a ha i _ => by
    rw [ha]
    rfl
end

theorem telemetrySnapshot_answers (h : s.cyc % 2 ^ 21 = 0) (hn : s.clk.snapAt ≠ s.clk.life + 1) :
    Answers .telemetrySnapshot s fun t => (∀ j, j < 6912 →
      ((s.pt (ptOfSheet (j / 288))).pwr = .run ∨ (s.pt (ptOfSheet (j / 288))).pwr = .idle →
        t.tile j = ({ s.tile j with sending := some ({ (s.tile j).tlm with at' := s.cyc }, 3, s.clk.life) } : Tile).restartQmax) ∧
      ((s.pt (ptOfSheet (j / 288))).pwr ≠ .run → (s.pt (ptOfSheet (j / 288))).pwr ≠ .idle → t.tile j = s.tile j)) ∧
    t.ctxs = s.ctxs ∧ t.flights = s.flights ∧ t.dram = s.dram ∧ t.pool = s.pool ∧ SameManagement s t := by
  have hm (j : Nat) : j ∈ (List.range 6912).filter (fun i => s.routersOn (ptOfSheet (i / 288))) ↔ j < 6912 ∧
      ((s.pt (ptOfSheet (j / 288))).pwr = .run ∨ (s.pt (ptOfSheet (j / 288))).pwr = .idle) := by
    simp [State.routersOn]
  have hl : ((List.range 6912).filter fun i => s.routersOn (ptOfSheet (i / 288))).Nodup := List.nodup_range.filter _
  have hx : exec .telemetrySnapshot s = nextOf s (telemetrySnapshot s) := rfl
  rw [telemetrySnapshot_eq h hn] at hx
  generalize (List.range 6912).filter (fun i => s.routersOn (ptOfSheet (i / 288))) = l at hx hm hl
  refine answers_of hx ?_
  simp only [settle_tile, settle_ctxs, settle_flights, settle_dram, settle_pool]
  have hall := foldl_modTile_eq (s := { s with clk := { s.clk with snapAt := s.clk.life + 1 } }) (l := l) (f := Tile.snapshots s.cyc s.clk.life)
  refine ⟨fun j hj => ⟨fun hp => foldl_modTile_mem hl ((hm j).2 ⟨hj, hp⟩), fun hr hi => foldl_modTile_other fun he => ?_⟩, ?_, ?_, ?_, ?_,
    SameManagement.settle ?_⟩
  · exact ((hm j).1 he).2.elim hr hi
  all_goals rw [hall]
  exact ⟨rfl, rfl, rfl⟩

/-! ### Whether the schedule goes on (R159, R641, R680) -/

section
variable {c p : Nat}

theorem Partition.levels_of_pace {x y : Partition} {life : Nat} (h : y.pace = x.pace) : y.levels life = x.levels life := by
  simp only [Partition.pace, Prod.mk.injEq] at h
  obtain ⟨-, -, -, hl, ht, hp, -⟩ := h
  unfold Partition.levels
  rw [hl, ht, hp]

theorem Partition.perf_of_pace {x y : Partition} (h : y.pace = x.pace) : y.perf = x.perf := congrArg (fun z => z.2.1) h

theorem Partition.pwr_of_pace {x y : Partition} (h : y.pace = x.pace) : y.pwr = x.pwr := congrArg (fun z => z.1) h

theorem Partition.faulted_of_pace {x y : Partition} (h : y.pace = x.pace) : y.faulted = x.faulted := congrArg (fun z => z.2.2.1) h

theorem Partition.counts_of_pace {x y : Partition} (h : y.pace = x.pace) : y.runCyc = x.runCyc ∧ y.sinceRelease = x.sinceRelease := by
  simp only [Partition.pace, Prod.mk.injEq] at h
  exact h.2.2.2.2.2.2

theorem Context.Kept.going {x y : Context} (h : x.Kept y) : y.going = x.going := by
  unfold Context.going
  rw [h.runOn, h.held]

theorem Steady.gated (h : Steady c s t) (hr : (t.ctx c).st = .running) (f : Nat) : t.gated c f = s.gated c f := by
  have hk := h.kept hr
  have hlevel (g : Nat × Nat → Nat) : t.levelOf c g = s.levelOf c g := by
    unfold State.levelOf
    simp only [hk.held, Partition.levels_of_pace (h.pace _), h.work.clk]
  have hun : (t.ctx c).ungated = (s.ctx c).ungated := by
    unfold Context.ungated
    rw [hk.hold]
  unfold State.gated
  rw [hlevel, hlevel, hun, hk.held]
  simp only [Partition.perf_of_pace (h.pace _)]

theorem Steady.cyc (h : Steady c s t) : t.cyc = s.cyc := by
  unfold State.cyc
  rw [h.work.clk]

theorem Steady.schedRuns (h : Steady c s t) (hr : (t.ctx c).st = .running) : t.schedRuns c = s.schedRuns c := by
  have hk := h.kept hr
  unfold State.schedRuns
  simp only [hk.run, hk.runOn, hk.hold, hk.sched, hk.going, h.cyc, h.gated hr, Partition.pwr_of_pace (h.pace _), Partition.faulted_of_pace (h.pace _)]

/-- What holds of a context whose schedule goes on. -/
theorem State.schedRuns_facts (h : s.schedRuns c = true) : (s.ctx c).hold = .none ∧ s.gated c (s.cyc / 32) = false ∧
    ∀ p ∈ (s.ctx c).going, (s.pt p).pwr = .run := by
  unfold State.schedRuns at h
  simp only [Bool.and_eq_true, decide_eq_true_eq, Bool.not_eq_true', List.all_eq_true] at h
  obtain ⟨⟨⟨⟨-, hh⟩, -⟩, hg⟩, ha⟩ := h
  exact ⟨hh, hg, fun p hp => (ha p hp).1⟩
end

/-! ### The frame boundary -/

section
variable {c : Nat}

theorem State.refed_none (h : (s.ctx c).hold = .none) : s.refed c = s := by
  unfold State.refed
  rw [h]

theorem State.releaseDue_none (h : (s.ctx c).hold = .none) : s.releaseDue c = s := by
  unfold State.releaseDue
  rw [h]

theorem State.endRunOn_nil (h : (s.ctx c).runOn = []) : s.endRunOn c = s := by
  unfold State.endRunOn
  rw [h]
  rfl

/-- An abandoned step leaves its context in no RUN. -/
theorem State.abandonStep_stops {g : Prog} {reason status : Nat} : ((s.abandonStep c g reason status).ctx c).st ≠ .running := by
  unfold State.abandonStep
  generalize (s.endRun c reason status).restoreCommit c g = a
  by_cases hc : c < a.ctxs.length
  · rw [State.ctx_modCtx_same _ _ _ hc]
    dsimp only
    split
    exacts [by decide, ‹_›]
  · simp [State.ctx, State.modCtx, List.getD_eq_getElem?_getD, hc]

/-- A context that runs on through the frame boundary had no step to abandon there. -/
theorem State.hotAbandon_running (h : ((s.hotAbandon c).ctx c).st = .running) : s.hotAbandon c = s := by
  have hpts (a : State) : (((s.ctx c).held.foldl (fun (a : State) p => a.modPt p fun y => { y with classN := false }) a).ctx c).st = (a.ctx c).st :=
    foldl_same (g := fun a => (a.ctx c).st) fun _ _ => rfl
  have href (a : State) : (((s.ctx c).held.foldl (fun a p => a.selfRefresh p true) a).ctx c).st = (a.ctx c).st :=
    foldl_same (g := fun a => (a.ctx c).st) fun a p => foldl_same (g := fun a => (a.ctx c).st) fun _ _ => rfl
  unfold State.hotAbandon at h ⊢
  extract_lets +onlyGivenNames x at h
  dsimp only
  split at h
  · next g _ _ =>
    extract_lets s1 s2 at h
    have hs1 : (s1.ctx c).st = _ := State.ctx_modCtx_eq (g := Context.st) fun _ => rfl
    have hs2 : (s2.ctx c).st ≠ .running := by
      rw [hpts, hs1]
      exact State.abandonStep_stops
    split at h
    · exact absurd h hs2
    · rw [href] at h
      exact absurd h hs2
  · rfl

/-- A context that does not hold after the frame boundary is in no vote. -/
theorem State.voteHold_none (h : ((s.voteHold c).ctx c).hold = .none) (hc : c < s.ctxs.length) : s.voteHold c = s := by
  unfold State.voteHold at h ⊢
  split
  · next hv =>
    rw [if_pos hv, State.ctx_modCtx_same _ _ _ hc] at h
    by_cases hn : (s.ctx c).hold = .none <;> simp [hn] at h
  · rfl


/-- A context at the start of a cycle, its holds that end before the frame boundary behind it. -/
def State.atBoundary (s : State) (c : Nat) : State :=
  if s.cyc % 32 = 0 then (((s.endRunOn c).hotAbandon c).voteHold c).frameStart c else s

theorem State.ctxCycle_eq {evs : List WireEvent} {b : State} (hh : (s.ctx c).hold = .none) (hb : b = s.atBoundary c) : s.ctxCycle evs c =
    if b.schedRuns c ∨ (b.proCycle c).isSome then
      ((((b.dueReads c).runTiles c).foldl (fun a p => a.emitRead c p.2.2) (b.dueReads c)).cycleCtx c evs,
        if b.schedRuns c then (b.ctx c).going else [])
    else (b, []) := by
  subst hb
  unfold State.ctxCycle
  rw [State.refed_none hh, State.releaseDue_none hh]
  rfl

/-- A context that runs on and holds nowhere after the frame boundary has passed it in its step. -/
theorem Steady.atBoundary (hc : c < s.ctxs.length) (ho : (s.ctx c).runOn = []) (hst : ((s.atBoundary c).ctx c).st = .running)
    (hh : ((s.atBoundary c).ctx c).hold = .none) : Steady c s (s.atBoundary c) := by
  unfold State.atBoundary at hst hh ⊢
  split at hst
  · next h =>
    rw [if_pos h] at hh ⊢
    rw [State.endRunOn_nil ho] at hst hh ⊢
    have hf : Steady c ((s.hotAbandon c).voteHold c) (((s.hotAbandon c).voteHold c).frameStart c) := Steady.refl.frameStart
    have hk := hf.kept hst
    rw [hk.hold] at hh
    rw [hk.st] at hst
    have hv : (((s.hotAbandon c).voteHold c).ctx c).st = ((s.hotAbandon c).ctx c).st := by
      unfold State.voteHold
      split
      exacts [State.ctx_modCtx_eq (g := Context.st) fun _ => rfl, rfl]
    rw [State.hotAbandon_running (hv.symm.trans hst)] at hh ⊢
    rw [State.voteHold_none hh hc]
    exact Steady.refl.frameStart
  · next h =>
    rw [if_neg h]
    exact .refl

/-- The cycle of a context whose schedule goes on in it, when the context still runs, and holds nowhere, after the steps up to `u`: its partitions
all advance. -/
theorem State.ctxCycle_runs {evs : List WireEvent} (hc : c < s.ctxs.length) (ho : (s.ctx c).runOn = []) (hr : s.schedRuns c = true)
    (hu : Steady c (s.ctxCycle evs c).1 u) (hst : (u.ctx c).st = .running) (hh : (u.ctx c).hold = .none) :
    Steady c s u ∧ (s.ctxCycle evs c).2 = (s.ctx c).held := by
  have he := State.ctxCycle_eq (evs := evs) (State.schedRuns_facts hr).1 (rfl : s.atBoundary c = _)
  have hb : Steady c (s.atBoundary c) (s.ctxCycle evs c).1 := by
    rw [he]
    split
    exacts [(Steady.refl.dueReads.foldl fun ha => ha.emitRead).cycleCtx, .refl]
  have hbu := hb.trans hu
  have hk := hbu.kept hst
  have hbst : ((s.atBoundary c).ctx c).st = .running := hk.st.symm.trans hst
  have hs : Steady c s (s.atBoundary c) := .atBoundary hc ho hbst (hk.hold.symm.trans hh)
  have hbr : (s.atBoundary c).schedRuns c = true := (hs.schedRuns hbst).trans hr
  refine ⟨hs.trans hbu, ?_⟩
  rw [he, if_pos (.inl hbr), if_pos hbr, (hs.kept hbst).going, Context.going, ho]
  rfl
end

/-! ### SCHED, SPROG and the counted cycles (R184, R418) -/

/-- A partition after a cycle of its context's step. -/
def Partition.stepped (x : Partition) : Partition :=
  { x with sinceRelease := x.sinceRelease + 1, runCyc := if x.pwr = .run then x.runCyc + 1 else x.runCyc }

/-- A context whose schedule has gone on. -/
def Context.stepped (x : Context) : Context := { x with sched := x.sched + 1 }

/-- A sheet whose SPROG has gone on. -/
def Sheet.stepped (x : Sheet) : Sheet := { x with sprog := x.sprog + 1 }

section
variable {c n p : Nat} {l : List Nat}

/-- A context that runs with partitions `l` goes on. -/
theorem State.advance_eq (hst : (s.ctx c).st = .running) (hh : (s.ctx c).hold = .none) (hg : s.gated c (s.cyc / 32) = false) (hl : l ≠ []) :
    s.advance c l = (l.flatMap sheetsOfPt).foldl (fun a n => a.modSheet n Sheet.stepped)
      (((s.ctx c).held.foldl (fun a p => a.modPt p Partition.stepped) s).modCtx c Context.stepped) := by
  have ha : (s.ctx c).active = true := by simp [Context.active, hst]
  unfold State.advance
  simp only [hh, hg, ha, decide_true, Bool.not_false, Bool.and_self, if_true, Bool.true_and, decide_eq_true_eq, List.isEmpty_iff, if_neg hl]
  rfl

theorem State.stepped_ctx {d : Nat} : (l.foldl (fun a n => a.modSheet n Sheet.stepped) s).ctx d = s.ctx d :=
  foldl_same (g := fun a => a.ctx d) fun _ _ => rfl

theorem State.stepped_pt : (l.foldl (fun a n => a.modSheet n Sheet.stepped) s).pt p = s.pt p := foldl_same (g := fun a => a.pt p) fun _ _ => rfl

theorem State.advance_ctx (hs : Shaped s) (hc : c < 64) (hst : (s.ctx c).st = .running) (hh : (s.ctx c).hold = .none)
    (hg : s.gated c (s.cyc / 32) = false) (hl : l ≠ []) : (s.advance c l).ctx c = (s.ctx c).stepped := by
  have hp : ((s.ctx c).held.foldl (fun a p => a.modPt p Partition.stepped) s).ctxs = s.ctxs := foldl_same (g := State.ctxs) fun _ _ => rfl
  rw [State.advance_eq hst hh hg hl, State.stepped_ctx, State.ctx_modCtx_same _ _ _ (by rw [hp]; exact hs.ctx_lt ⟨c, hc⟩), State.ctx, hp, State.ctx]

theorem State.advance_pt (hs : Shaped s) (hst : (s.ctx c).st = .running) (hh : (s.ctx c).hold = .none) (hg : s.gated c (s.cyc / 32) = false)
    (hl : l ≠ []) (hn : (s.ctx c).held.Nodup) (hp : p ∈ (s.ctx c).held) (h8 : p < 8) : (s.advance c l).pt p = (s.pt p).stepped := by
  rw [State.advance_eq hst hh hg hl, State.stepped_pt]
  exact (foldl_once (P := fun a => Shaped a ∧ a.pt p = s.pt p) (Q := fun a => a.pt p = (s.pt p).stepped) hn hp ⟨hs, rfl⟩
    (fun a q _ hq h => ⟨h.1.modPt, (State.pt_modPt_other (s := a) q p _ hq).trans h.2⟩)
    (fun a h => (State.pt_modPt_same (s := a) p _ (by rw [h.1.pts_length]; exact h8)).trans (congrArg Partition.stepped h.2))
    fun a q _ hq h => (State.pt_modPt_other (s := a) q p _ hq).trans h)

theorem sheets_nodup (h : l.Nodup) : (l.flatMap sheetsOfPt).Nodup := by
  refine List.nodup_flatMap.2 ⟨fun p _ => List.nodup_range.filter _, h.imp fun hpq n hp hq => hpq ?_⟩
  have hp' := (List.mem_filter.1 hp).2
  have hq' := (List.mem_filter.1 hq).2
  simp only [decide_eq_true_eq] at hp' hq'
  exact hp'.symm.trans hq'

theorem State.advance_sheet (hs : Shaped s) (hst : (s.ctx c).st = .running) (hh : (s.ctx c).hold = .none) (hg : s.gated c (s.cyc / 32) = false)
    (hl : l.Nodup) (hp : p ∈ l) (hn : n ∈ sheetsOfPt p) : (s.advance c l).sheet n = (s.sheet n).stepped := by
  have h24 : n < 24 := List.mem_range.1 (List.mem_filter.1 hn).1
  have hsh : ((s.ctx c).held.foldl (fun a p => a.modPt p Partition.stepped) s).sheets = s.sheets := foldl_same (g := State.sheets) fun _ _ => rfl
  rw [State.advance_eq hst hh hg (List.ne_nil_of_mem hp)]
  refine foldl_once (P := fun a => Shaped a ∧ a.sheet n = s.sheet n) (Q := fun a => a.sheet n = (s.sheet n).stepped) (sheets_nodup hl)
    (List.mem_flatMap.2 ⟨p, hp, hn⟩) ⟨(hs.foldl fun ha => ha.modPt).modCtx fun _ => rfl, by rw [State.sheet, State.modCtx_sheets, hsh, State.sheet]⟩
    (fun a q _ hq h => ⟨h.1.modSheet (fun _ => rfl) fun _ => rfl, (State.sheet_modSheet_other (s := a) q n _ hq).trans h.2⟩)
    (fun a h => (State.sheet_modSheet_same (s := a) n _ (by rw [h.1.sheets_length]; exact h24)).trans (congrArg Sheet.stepped h.2))
    fun a q _ hq h => (State.sheet_modSheet_other (s := a) q n _ hq).trans h
end

/-! ### Words that land leave contexts and partitions as they are -/

section
variable {c : Nat}

theorem KeepsCtxs.modChan {k : Nat} {f : Chan → Chan} (h : KeepsCtxs s t) : KeepsCtxs s (t.modChan k f) := h.of_ctxs rfl rfl

theorem KeepsCtxs.defined {a k : Nat} (h : KeepsCtxs s t) : KeepsCtxs s (t.defined c a k) := .ite h (h.of_ctxs rfl rfl)

theorem KeepsCtxs.accumulate {r k : Nat} {x : BitVec 512} (h : KeepsCtxs s t) : KeepsCtxs s (t.accumulate c r k x) := .ite h h.modCtx

theorem KeepsCtxs.landWrite {w : WriteRec} (h : KeepsCtxs s t) : KeepsCtxs s (t.landWrite w) := by
  unfold State.landWrite
  extract_lets +onlyGivenNames s1
  have hs1 : KeepsCtxs s s1 := by
    unfold s1
    split
    · exact h
    · next d _ =>
      have hd : KeepsCtxs s { t with dram := t.dram.write (mpa w.ch w.off) (dataBytes d) } := h.of_ctxs rfl rfl
      dsimp only
      split
      exacts [hd.defined.modChan.accumulate, hd.defined.modChan]
  exact .ite hs1.modChan hs1

theorem KeepsCtxs.landWrites (h : KeepsCtxs s t) : KeepsCtxs s t.landWrites :=
  .ite h ((h.of_ctxs (u := { t with crossing := t.crossing.filter fun w => decide (t.clk.life < w.due) }) rfl rfl).foldl fun ha => ha.landWrite)

theorem State.defined_sheets {a k : Nat} : (s.defined c a k).sheets = s.sheets := by
  unfold State.defined
  split <;> rfl

theorem State.accumulate_sheets {r k : Nat} {x : BitVec 512} : (s.accumulate c r k x).sheets = s.sheets := by
  unfold State.accumulate
  split <;> rfl

theorem State.landWrite_sheets {w : WriteRec} : (s.landWrite w).sheets = s.sheets := by
  unfold State.landWrite
  extract_lets +onlyGivenNames s1
  have hs1 : s1.sheets = s.sheets := by
    unfold s1
    split
    · rfl
    · dsimp only
      split
      · rw [State.accumulate_sheets, State.modChan_sheets, State.defined_sheets]
      · rw [State.modChan_sheets, State.defined_sheets]
  split
  exacts [hs1, hs1]

theorem State.landWrites_sheets : s.landWrites.sheets = s.sheets := by
  unfold State.landWrites
  split
  · rfl
  · exact foldl_same (g := State.sheets) fun _ _ => State.landWrite_sheets

theorem KeepsCtxs.keepBusy (h : KeepsCtxs s t) : KeepsCtxs s t.keepBusy := h.foldl fun ha => .ite ha.modPt ha

theorem State.keepBusy_sheets : s.keepBusy.sheets = s.sheets := foldl_same (g := State.sheets) fun a p => by
  split <;> rfl
end

/-! ### The point that the schedule reaches (R160, R419) -/

section
variable {c : Nat} {g : Prog}

theorem State.arrive_cal (hp : (s.ctx c).prog = some g) (h : g.calAt (s.ctx c).sched = true) :
    s.arrive c = s.modCtx c fun y => { y with hold := .calender s.clk.life, calAt := s.clk.life } := by
  unfold State.arrive
  simp only [hp]
  exact if_pos h

theorem State.arrive_plain (hp : (s.ctx c).prog = some g) (h : g.calAt (s.ctx c).sched = false)
    (hw : ∀ w ∈ g.waits, pointAt g.calPeriod (s.ctx c).sched w.off = false) :
    s.arrive c = s := by
  have hn : (List.range g.waits.length).find? (fun i => pointAt g.calPeriod (s.ctx c).sched (g.waits.getD i ⟨0, 0, 0⟩).off) = none := by
    refine List.find?_eq_none.2 fun i hi => ?_
    have hi' := List.mem_range.1 hi
    rw [← List.getElem_eq_getD (h := hi')]
    simp [hw _ (List.getElem_mem hi')]
  unfold State.arrive
  simp only [hp]
  rw [if_neg (by simp [h])]
  unfold State.arriveWait
  simp only [hp, hn]

theorem State.arrive_wait (hp : (s.ctx c).prog = some g) (h : g.calAt (s.ctx c).sched = false)
    (hw : ∃ w ∈ g.waits, pointAt g.calPeriod (s.ctx c).sched w.off = true) :
    ∃ i k, s.arrive c = s.modCtx c fun y => { y with hold := .wait i k s.clk.life } := by
  obtain ⟨w, hm, hw⟩ := hw
  obtain ⟨j, hj, rfl⟩ := List.getElem_of_mem hm
  have hsome : ((List.range g.waits.length).find? (fun i => pointAt g.calPeriod (s.ctx c).sched (g.waits.getD i ⟨0, 0, 0⟩).off)).isSome = true := by
    refine List.find?_isSome.2 ⟨j, List.mem_range.2 hj, ?_⟩
    rw [← List.getElem_eq_getD (h := hj)]
    exact hw
  obtain ⟨i, hi⟩ := Option.isSome_iff_exists.1 hsome
  unfold State.arrive
  simp only [hp]
  rw [if_neg (by simp [h])]
  unfold State.arriveWait
  simp only [hp, hi]
  exact ⟨_, _, rfl⟩
end

/-! ### A cycle of a context alone on the module -/

section
variable {c : Nat} {g : Prog} {evs : List WireEvent}

theorem State.boundCtxs_single (h : s.boundCtxs = [c]) : c < 64 ∧ (s.ctx c).held ≠ [] := by
  have hm : c ∈ s.boundCtxs := by rw [h]; exact List.mem_singleton.2 rfl
  obtain ⟨hr, hh⟩ := List.mem_filter.1 hm
  exact ⟨List.mem_range.1 hr, by simpa using hh⟩

/-- The state in which the cycle of a context alone on the module ends, before its schedule goes on. -/
def State.worked (s : State) (evs : List WireEvent) (c : Nat) : State := ((s.ctxCycle evs c).1.sheetCycles evs).violate c []

theorem routeCycle_single {l : List Nat} (h : s.boundCtxs = [c]) (hl : (s.ctxCycle evs c).2 = l) :
    routeCycle evs s = ((((s.worked evs c).advance c l).tick.landWrites).arriveAfter c l).keepBusy := by
  have hx : s.ctxCycles evs = ((s.ctxCycle evs c).1, [(c, l)]) := by
    unfold State.ctxCycles
    rw [h, ← hl]
    rfl
  have hy : s.cycled evs = (s.worked evs c).advance c l := by
    unfold State.cycled State.worked
    simp only [hx, h, List.foldl_cons, List.foldl_nil]
  rw [routeCycle_eq, hx, hy]
  rfl

/-- The point that a running schedule reaches changes its hold alone. -/
theorem State.arriveAfter_running {l : List Nat} (hl : l ≠ []) (hst : (s.ctx c).st = .running) (hh : (s.ctx c).hold = .none) :
    s.arriveAfter c l = s.arrive c := if_pos (by simp [hl, Context.active, hst, hh])

theorem State.arrive_keeps : (s.arrive c).sheets = s.sheets ∧ (s.arrive c).pts = s.pts ∧ ((s.arrive c).ctx c).st = (s.ctx c).st ∧
    ((s.arrive c).ctx c).sched = (s.ctx c).sched := by
  have hmod (f : Context → Context) (hst : ∀ x, (f x).st = x.st := by intro; rfl) (hsc : ∀ x, (f x).sched = x.sched := by intro; rfl) :
      (s.modCtx c f).sheets = s.sheets ∧ (s.modCtx c f).pts = s.pts ∧ ((s.modCtx c f).ctx c).st = (s.ctx c).st ∧
        ((s.modCtx c f).ctx c).sched = (s.ctx c).sched :=
    ⟨rfl, rfl, State.ctx_modCtx_eq (g := Context.st) hst, State.ctx_modCtx_eq (g := Context.sched) hsc⟩
  unfold State.arrive
  split
  · exact ⟨rfl, rfl, rfl, rfl⟩
  · split
    · exact hmod _
    · unfold State.arriveWait
      dsimp only
      split
      · exact ⟨rfl, rfl, rfl, rfl⟩
      · split
        exacts [⟨rfl, rfl, rfl, rfl⟩, hmod _]

/-- From `s` to `t` the schedule of context `c`, which runs, has gone on by a cycle. -/
structure GoesOn (c : Nat) (s t : State) : Prop where
  shaped : Shaped t
  life : t.clk.life = s.clk.life + 1
  st : (t.ctx c).st = .running
  hold : (t.ctx c).hold = .none
  prog : (t.ctx c).prog = (s.ctx c).prog
  sched : (t.ctx c).sched = (s.ctx c).sched + 1
  sprog : ∀ n p, p ∈ (s.ctx c).held → n ∈ sheetsOfPt p → (s.ctx c).held.Nodup → (t.sheet n).sprog = (s.sheet n).sprog + 1
  counts : ∀ p ∈ (s.ctx c).held, (s.ctx c).held.Nodup → p < 8 → (t.pt p).runCyc = (s.pt p).runCyc + 1 ∧
    (t.pt p).sinceRelease = (s.pt p).sinceRelease + 1

theorem KeepsCtxs.tick (h : KeepsCtxs s t) : KeepsCtxs s t.tick := h.of_ctxs rfl rfl

theorem Shaped.tick (h : Shaped s) : Shaped s.tick := h.of_lengths rfl rfl rfl rfl (by simp [State.tick]) rfl

theorem Steady.goesOn (h : Steady c s u) (hu : Shaped u) (hc : c < 64) (hne : (s.ctx c).held ≠ []) (ho : (s.ctx c).runOn = [])
    (hr : s.schedRuns c = true) (hst : (u.ctx c).st = .running) : GoesOn c s (u.advance c (s.ctx c).held).tick.landWrites := by
  have hk := h.kept hst
  obtain ⟨hh, hg, hpw⟩ := State.schedRuns_facts ((h.schedRuns hst).trans hr)
  have hgoing : (u.ctx c).going = (s.ctx c).held := by
    rw [hk.going, Context.going, ho]
    rfl
  have hctx : (u.advance c (s.ctx c).held).ctx c = (u.ctx c).stepped := State.advance_ctx hu hc hst hh hg hne
  have hw : CycleWork u (u.advance c (s.ctx c).held) := CycleWork.refl.advance
  have hl : KeepsCtxs (u.advance c (s.ctx c).held) (u.advance c (s.ctx c).held).tick.landWrites := KeepsCtxs.refl.tick.landWrites
  have hlk := hl.ctxs c
  rw [hctx] at hlk
  constructor
  case shaped => exact hu.advance.tick.landWrites
  case life =>
    rw [(State.landWrites_work (s := (u.advance c (s.ctx c).held).tick)).landed.1, State.tick, hw.clk, h.work.clk]
  case st => exact hlk.st.trans hst
  case hold => exact hlk.hold.trans hh
  case prog => exact hlk.prog.trans hk.prog
  case sched => exact hlk.sched.trans (congrArg (· + 1) hk.sched)
  case sprog =>
    intro n p hp hn hd
    rw [State.sheet, State.landWrites_sheets]
    exact (congrArg Sheet.sprog (State.advance_sheet hu hst hh hg hd hp hn)).trans (congrArg (· + 1) (h.sprog n))
  case counts =>
    intro p hp hd h8
    have ha := State.advance_pt (l := (s.ctx c).held) hu hst hh hg hne (hk.held ▸ hd) (hk.held ▸ hp) h8
    obtain ⟨hrun, hsince⟩ := Partition.counts_of_pace (hl.pace p)
    obtain ⟨hrun0, hsince0⟩ := Partition.counts_of_pace (h.pace p)
    rw [hrun, hsince, ha, Partition.stepped, if_pos (hpw p (hgoing ▸ hp)), hrun0, hsince0]
    exact ⟨rfl, rfl⟩

theorem routeCycle_runs_answers (hs : Shaped s) (hb : s.boundCtxs = [c]) (hp : (s.ctx c).prog = some g) (ho : (s.ctx c).runOn = [])
    (hr : s.schedRuns c = true) (hst : ((s.worked evs c).ctx c).st = .running) (hh : ((s.worked evs c).ctx c).hold = .none) :
    Answers (.routeCycle evs) s fun t => (t.ctx c).st = .running ∧ (t.ctx c).sched = (s.ctx c).sched + 1 ∧
      (∀ n p, p ∈ (s.ctx c).held → p < 8 → n ∈ sheetsOfPt p → (s.ctx c).held.Nodup → (t.sheet n).sprog = (s.sheet n).sprog + 1) ∧
      (∀ p ∈ (s.ctx c).held, (s.ctx c).held.Nodup → p < 8 → (t.pt p).runCyc = (s.pt p).runCyc + 1 ∧
        (t.pt p).sinceRelease = (s.pt p).sinceRelease + 1) ∧
      (g.calAt ((s.ctx c).sched + 1) = true → (t.ctx c).hold = .calender (s.clk.life + 1)) ∧
      (g.calAt ((s.ctx c).sched + 1) = false → (∀ w ∈ g.waits, pointAt g.calPeriod ((s.ctx c).sched + 1) w.off = false) →
        (t.ctx c).hold = .none) ∧
      (g.calAt ((s.ctx c).sched + 1) = false → (∃ w ∈ g.waits, pointAt g.calPeriod ((s.ctx c).sched + 1) w.off = true) →
        ∃ i k, (t.ctx c).hold = .wait i k (s.clk.life + 1)) := by
  obtain ⟨hc, hne⟩ := State.boundCtxs_single hb
  have hw : Steady c (s.ctxCycle evs c).1 (s.worked evs c) := Steady.refl.sheetCycles.violate
  obtain ⟨hsw, hran⟩ := State.ctxCycle_runs (hs.ctx_lt ⟨c, hc⟩) ho hr hw hst hh
  have hws : Shaped (s.worked evs c) := (hs.ctxCycle.foldl fun ha => ha.shadowCycle.catchupCycle).violate
  have hon := hsw.goesOn hws hc hne ho hr hst
  have hx : exec (.routeCycle evs) s = nextOf s (routeCycle evs s) := rfl
  rw [routeCycle_single hb hran] at hx
  generalize ((s.worked evs c).advance c (s.ctx c).held).tick.landWrites = b at hon hx
  rw [State.arriveAfter_running hne hon.st hon.hold] at hx
  have hkeep : KeepsCtxs (b.arrive c) (b.arrive c).keepBusy := KeepsCtxs.refl.keepBusy
  have hkc := hkeep.ctxs c
  obtain ⟨hsheets, hpts, hast, hasc⟩ := State.arrive_keeps (s := b) (c := c)
  have hbp : (b.ctx c).prog = some g := hon.prog.trans hp
  have hbl : c < b.ctxs.length := hon.shaped.ctx_lt ⟨c, hc⟩
  refine answers_of hx ?_
  simp only [settle_ctx, settle_sheet, settle_pt]
  rw [hkc.st, hkc.sched, hkc.hold, hast, hasc, ← hon.sched, ← hon.life]
  refine ⟨hon.st, rfl, fun n p hp _ hn hd => ?_, fun p hp hd h8 => ?_, fun hcal => ?_, fun hcal hwt => ?_, fun hcal hwt => ?_⟩
  · rw [State.sheet, State.keepBusy_sheets, hsheets]
    exact hon.sprog n p hp hn hd
  · obtain ⟨hrun, hsince⟩ := Partition.counts_of_pace (hkeep.pace p)
    rw [hrun, hsince, State.pt, hpts]
    exact hon.counts p hp hd h8
  · rw [State.arrive_cal hbp hcal, State.ctx_modCtx_same _ _ _ hbl]
  · rw [State.arrive_plain hbp hcal hwt, hon.hold]
  · obtain ⟨i, k, he⟩ := State.arrive_wait hbp hcal hwt
    rw [he, State.ctx_modCtx_same _ _ _ hbl]
    exact ⟨i, k, rfl⟩
end
end
end Sys2Proof.Machine

open Sys2Proof.Machine in
/-- Settles O32: the cycle of a context alone is followed through the frame boundary, its tiles and the advance; each step of a tile comes down to one
update. -/
theorem wireAndTiles : Obligations.WireAndTiles := by
  unfold Obligations.WireAndTiles
  refine ⟨fun s evs hs => ⟨routeCycle_answers, fun hb hd hx => makes_of (congrArg (nextOf s) (routeCycle_idle hb hd hx)), ?_⟩,
    fun s p i hi hs => ⟨fun hc => ?_, fun c v st e hc hv hst hval hpos he => ⟨fun ho => ?_, fun ho hr => ?_⟩, ?_, ?_, fun h => ?_, ?_⟩⟩
  · intro c g u hb hp _ ho hr hu hst hh
    have hw : s.worked evs c = u := by rw [hu, State.worked, State.sheetCycles]
    rw [← hw] at hst hh
    exact routeCycle_runs_answers hs hb hp ho hr hst hh
  · subst hi
    obtain ⟨hissue, hfold, hread⟩ := tile_steps_unbound hc
    exact ⟨makes_of (congrArg (nextOf s) hissue), makes_of (congrArg (nextOf s) hfold), makes_of (congrArg (nextOf s) hread)⟩
  · subst hi
    obtain ⟨pos, loops, hfl, hx⟩ := issueEntryAdvance_moves hc hv hst hval hpos he ho
    obtain ⟨t, ht, htile, hrest⟩ := modTile_answers (cmd := .issueEntryAdvance p) (congrArg (nextOf s) hx)
    exact ⟨t, ht, ⟨pos, loops, hfl, by rw [htile, hst]⟩, hrest⟩
  · subst hi
    exact makes_of (congrArg (nextOf s) (issueEntryAdvance_stays hc hv hst hval hpos he ho hr))
  · intro c v st q hc hv hst hf hr hval hpred hq
    subst hi
    refine ⟨fun hb => makes_of (congrArg (nextOf s) (foldSlotSwitch_plain hc hv hst hf hr hval hpred hq hb)), fun w y hb ht =>
      makes_of (congrArg (nextOf s) (foldSlotSwitch_takes hc hv hst hf hr hval hpred hq hb ht)), fun hb ht h64 => ?_⟩
    obtain ⟨f, x, hx, hcause, hxq, htile⟩ := foldSlotSwitch_under hc hv hst hf hr hval hpred hq hb ht
    obtain ⟨t, ht, hviols, hrest⟩ := breach_answers (cmd := .foldSlotSwitch p) hs h64 (congrArg (nextOf s) hx)
    exact ⟨t, ht, ⟨x, hviols, hcause, hxq, htile⟩, hrest⟩
  · intro c v st a w r hc hv hst hb hl
    subst hi
    refine ⟨fun h => makes_of (congrArg (nextOf s) (readBufferEmit_waits hc hv hst hb h)), fun h => ?_⟩
    obtain ⟨q, hx⟩ := readBufferEmit_emits hc hv hst hb h hl
    obtain ⟨t, ht, hfl, htile, hrest⟩ := fly_answers (cmd := .readBufferEmit p) (congrArg (nextOf s) hx)
    exact ⟨t, ht, ⟨_, hfl, readWord_fields⟩, by rw [htile, hst], hrest⟩
  · exact makes_of (congrArg (nextOf s) (if_pos (.inl h)))
  · exact telemetrySnapshot_answers

namespace Sys2Proof.Machine

section
set_option Elab.async false -- one thread: the proofs are many and short
variable {s t : State}

/-! ### The memories -/

/-- An update of `s` that leaves LPDDR5X, the pool, the payload area, the MSI-X table and the cartridge's data alone. -/
theorem Canonical.frame {clk : Clock} {ident : Ident} {host : HostIf} {pts : List Partition} {chans : List Chan} {sheets : List Sheet} {tiles : KMap
    Tile} {flights : List Flight} {qmaxes : List QmaxRec} {poolChans : List Nat} {ctxs : List Context} {rot : List Nat} {ends : List Endpoint} {copies
    : List Copy} {sessions : KMap Session} {cache : List CacheWay} {modCtr : KMap Nat} {groups : List Group} {ops : List OpRec} {lastOp : Nat} {logs :
    Logs} {dies : Dies} {mgmt : Mgmt} {side : Side} {ports : List FPort} {rxq : List Packet} {jobs : List Job} {reel : Reel} {dumps : List Dump}
    {dumping : Option Dumping} {nextDump : Nat} {start : Startup} {crossing : List WriteRec} {scratch : List Undef} {verdicts : List Judged} {fresh :
    Nat} {outbox : List Output} {pending : List Instr}
    (h : Canonical s) (hp : host.payload = s.host.payload := by rfl) (hm : host.msixTable = s.host.msixTable := by rfl)
    (hr : reel.data = s.reel.data := by rfl) :
    Canonical ⟨clk, ident, host, pts, chans, sheets, tiles, flights, qmaxes, s.dram, s.pool, poolChans, ctxs, rot, ends, copies, sessions, cache,
      modCtr, groups, ops, lastOp, logs, dies, mgmt, side, ports, rxq, jobs, reel, dumps, dumping, nextDump, start, crossing, scratch, verdicts,
      fresh, outbox, pending⟩ := by
  unfold Canonical at h ⊢
  rwa [hp, hm, hr]

theorem Canonical.payload_wf (h : Canonical s) : s.host.payload.wf = true := h.2.2.1
theorem Canonical.msixTable_wf (h : Canonical s) : s.host.msixTable.wf = true := h.2.2.2.1
theorem Canonical.reelData_wf (h : Canonical s) : s.reel.data.wf = true := h.2.2.2.2

theorem Canonical.withDram {m : Mem} (h : Canonical s) (hm : m.wf = true) : Canonical { s with dram := m } := by
  obtain ⟨-, hrest⟩ := h
  exact ⟨hm, hrest⟩

theorem Canonical.withPool {m : Mem} (h : Canonical s) (hm : m.wf = true) : Canonical { s with pool := m } := by
  obtain ⟨hd, -, hrest⟩ := h
  exact ⟨hd, hm, hrest⟩

theorem Canonical.withHost {x : HostIf} (h : Canonical s) (hp : x.payload.wf = true) (hm : x.msixTable.wf = true) :
    Canonical { s with host := x } := by
  obtain ⟨hd, hpool, -, -, hr⟩ := h
  exact ⟨hd, hpool, hp, hm, hr⟩

theorem msixReset_wf : msixReset.wf = true := by decide +kernel

theorem Canonical.withReel {r : Reel} (h : Canonical s) (hr : r.data.wf = true) : Canonical { s with reel := r } := by
  obtain ⟨hd, hpool, hp, hm, -⟩ := h
  exact ⟨hd, hpool, hp, hm, hr⟩

theorem Canonical.withReelOps {l : List (Nat × Nat × Nat × Nat)} (h : Canonical s) : Canonical { s with reel := { s.reel with ops := l } } :=
  h.withReel h.reelData_wf

/-! ### Control flow -/

theorem Canonical.ite {c : Prop} [Decidable c] (hs : Canonical s) (ht : Canonical t) : Canonical (if c then s else t) := by split <;> assumption

theorem Canonical.foldl {α : Type} {l : List α} {f : State → α → State} (h : Canonical s) (hf : ∀ {a x}, Canonical a → Canonical (f a x)) :
    Canonical (l.foldl f s) := List.foldlRecOn l f h fun _ ha _ _ => hf ha

theorem Canonical.iteFst {α : Type} {c : Prop} [Decidable c] {a b : State × α} (ha : Canonical a.1) (hb : Canonical b.1) :
    Canonical (if c then a else b).1 := by split <;> assumption

theorem Canonical.iteSnd {α : Type} {c : Prop} [Decidable c] {a b : α × State} (ha : Canonical a.2) (hb : Canonical b.2) :
    Canonical (if c then a else b).2 := by split <;> assumption

/-- A fold that carries something beside the state. -/
theorem Canonical.foldlFst {α β : Type} {l : List α} {f : State × β → α → State × β} {b : State × β} (h : Canonical b.1)
    (hf : ∀ {a x}, Canonical a.1 → Canonical (f a x).1) : Canonical (l.foldl f b).1 :=
  List.foldlRecOn (motive := fun a => Canonical a.1) l f h fun _ ha _ _ => hf ha

/-! ### The named updates of the parts -/

theorem Canonical.modPt {p : Nat} {f : Partition → Partition} (h : Canonical s) : Canonical (s.modPt p f) := h.frame
theorem Canonical.modChan {p : Nat} {f : Chan → Chan} (h : Canonical s) : Canonical (s.modChan p f) := h.frame
theorem Canonical.modPort {p : Nat} {f : FPort → FPort} (h : Canonical s) : Canonical (s.modPort p f) := h.frame
theorem Canonical.modTile {i : Nat} {f : Tile → Tile} (h : Canonical s) : Canonical (s.modTile i f) := h.frame
theorem Canonical.modCtx {c : Nat} {f : Context → Context} (h : Canonical s) : Canonical (s.modCtx c f) := h.frame
theorem Canonical.modSheet {n : Nat} {f : Sheet → Sheet} (h : Canonical s) : Canonical (s.modSheet n f) := h.frame
theorem Canonical.modQueue {c k : Nat} {f : Queue → Queue} (h : Canonical s) : Canonical (s.modQueue c k f) := h.modCtx

/-! ### Ops -/

theorem Canonical.modJob {id : Nat} {f : Job → Job} (h : Canonical s) : Canonical (s.modJob id f) := h.frame

theorem Canonical.emit {o : Output} (h : Canonical s) : Canonical (s.emit o) := h.frame

theorem Canonical.ctxCount {c id n : Nat} (h : Canonical s) : Canonical (s.ctxCount c id n) := h.modCtx

theorem Canonical.modCount {id n : Nat} (h : Canonical s) : Canonical (s.modCount id n) := h.frame

theorem Canonical.putSession {tag : Nat} {x : Session} (h : Canonical s) : Canonical (s.putSession tag x) := h.frame

theorem Canonical.flushSessions (h : Canonical s) : Canonical s.flushSessions := h.frame

theorem Canonical.closeSessions {sel : Session → Bool} (h : Canonical s) : Canonical (s.closeSessions sel) := h.frame.modCount

theorem Canonical.copyArrives {m : Copy} (h : Canonical s) : Canonical (s.copyArrives m) := h.frame

theorem Canonical.sheetCount {sh id n : Nat} (h : Canonical s) : Canonical (s.sheetCount sh id n) := h.modSheet

theorem Canonical.portCount {p k n : Nat} (h : Canonical s) : Canonical (s.portCount p k n) := h.modPort

theorem Canonical.msix {v : Nat} (h : Canonical s) : Canonical (s.msix v) := .ite h (.ite h.frame h.emit)

theorem Canonical.raise {i : Nat} (h : Canonical s) : Canonical (s.raise i) := .ite h.frame (.ite h.frame h.frame.msix)

theorem Canonical.fsUpdate (h : Canonical s) : Canonical s.fsUpdate := h.frame.raise

theorem Canonical.logErr {cls : Nat} {a : ErrAt} {body : List Byte} (h : Canonical s) : Canonical (s.logErr cls a body) := by
  unfold State.logErr
  extract_lets +onlyGivenNames x isStep first flags r s1
  have hs1 : Canonical s1 := .ite h.modCtx (.ite h.modCtx h)
  exact .ite hs1.frame hs1.frame.fsUpdate

theorem Canonical.tookSerial (h : Canonical s) : Canonical s.tookSerial := h.frame

theorem Canonical.dropHandle {h : Nat} (hs : Canonical s) : Canonical (s.dropHandle h) := hs.frame

theorem Canonical.modOp {id : Nat} {f : OpRec → OpRec} (h : Canonical s) : Canonical (s.modOp id f) := h.frame

theorem Canonical.finishOp {id st : Nat} {detail : List Byte} (h : Canonical s) : Canonical (s.finishOp id st detail) := by
  unfold State.finishOp
  split
  exacts [h, .ite h h.frame.raise]

theorem Canonical.readyOp {id st : Nat} {detail : List Byte} (h : Canonical s) : Canonical (s.readyOp id st detail) := h.modOp

theorem Canonical.finishOp? {id : Option Nat} {st : Nat} {detail : List Byte} (h : Canonical s) : Canonical (s.finishOp? id st detail) := by
  unfold State.finishOp?
  split
  exacts [h.finishOp, h]

theorem Canonical.decay {l : List DramFlip} (h : Canonical s) : Canonical (s.decay l) := h.foldl fun ha => ha.modChan

theorem Canonical.undefine {c n : Nat} (h : Canonical s) : Canonical (s.undefine c n) := h.frame

theorem Canonical.forget {c : Nat} (h : Canonical s) : Canonical (s.forget c) := h.frame

theorem Canonical.defined {c a n : Nat} (h : Canonical s) : Canonical (s.defined c a n) := .ite h h.frame

theorem Canonical.ctxWrite {c a : Nat} {b : List Byte} (h : Canonical s) : Canonical (s.ctxWrite c a b) := by
  unfold State.ctxWrite
  split
  · exact h
  · next al _ =>
    extract_lets s1
    have hs1 : Canonical s1 := (h.withDram (Mem.wf_writeCtx al a b h.1)).defined
    exact .ite hs1 (hs1.foldl fun ha => ha.modChan)

theorem Canonical.syncAdd {e : SyncEnt} {v : W32} (h : Canonical s) : Canonical (s.syncAdd e v) := h.modPt.ctxCount

theorem Canonical.orphan {pt index : Nat} {sel : SyncEnt → Bool} (h : Canonical s) : Canonical (s.orphan pt index sel) := h.frame

theorem Canonical.freeCounter {pt index : Nat} (h : Canonical s) : Canonical (s.freeCounter pt index) := h.modPt.orphan

/-! ### Flags -/

theorem Canonical.settle (h : Canonical t) : Canonical (settle s t) := .ite h h.fsUpdate

/-! ### Operands -/

theorem Canonical.checked {len : Nat} {rs : List (Nat × Nat)} {p : Payload} {k : Unit → State × Resp} (h : Canonical s)
    (hk : Canonical (k ()).1) : Canonical (checked len rs p s k).1 := by
  unfold Machine.checked
  refine .iteFst h ?_
  split
  · exact h
  · exact hk

theorem Canonical.preempt (h : Canonical s) : Canonical s.preempt := h.frame.raise

theorem Canonical.freeAfter {r : State × Resp} (h : Canonical r.1) : Canonical (freeAfter r).1 := h.frame

/-- A mailbox command that leaves the shape of the state as it is. -/
def MbFun.KeepsForm (f : MbFun) : Prop := ∀ {s : State} {m : Master} {p : Payload}, Canonical s → Canonical (f m p s).1

theorem Canonical.lockGate {kind : MbKind} {f : MbFun} {m : Master} {p : Payload} (h : Canonical s) (hf : f.KeepsForm) :
    Canonical (lockGate kind f m p s).1 := .iteFst (hf h) (.iteFst (hf h.preempt).freeAfter h)

theorem Canonical.gate {kind : MbKind} {code : Nat} {f : MbFun} {m : Master} {p : Payload} (h : Canonical s) (hf : f.KeepsForm) :
    Canonical (gate kind code f m p s).1 := .iteFst (.iteFst (hf h) h) (h.lockGate hf)

theorem Canonical.complete {r : State × Resp} (h : Canonical r.1) : Canonical (complete r) := by
  unfold Machine.complete
  extract_lets s b
  have hs : Canonical s := h
  have hw : Canonical { s with host := { s.host with payload := s.host.payload.write 0 b } } :=
    hs.withHost (Mem.wf_write 0 b hs.payload_wf) hs.msixTable_wf
  exact Canonical.raise hw.frame

theorem Canonical.submit {code : Nat} {p : Payload} (h : Canonical s) : Canonical (s.submit code p) :=
  h.withHost (Mem.wf_write 0 p h.payload_wf) h.msixTable_wf

theorem Canonical.hostCmd {kind : MbKind} {code : Nat} {f : MbFun} {p : Payload} (h : Canonical s) (hf : f.KeepsForm) :
    Canonical (hostCmd kind code f p s) := by
  unfold Machine.hostCmd
  exact .ite h (.ite (.ite (((Canonical.ite h.frame h).gate hf).complete) h) (.ite h (.ite h.submit.complete (h.submit.gate hf).complete)))

theorem Canonical.respond {r : State × Resp} {tag : Byte} (h : Canonical r.1) : Canonical (State.respond r tag) := h.emit.frame

theorem Canonical.cutCommands (h : Canonical s) : Canonical s.cutCommands := by
  unfold State.cutCommands
  extract_lets s1
  have hs1 : Canonical s1 := .ite h.complete h
  split
  exacts [hs1.respond, hs1]

theorem Canonical.background {m : Master} {code handle : Nat} {k : Nat → State → State} (h : Canonical s)
    (hk : ∀ {i t}, Canonical t → Canonical (k i t)) : Canonical (background s m code handle k).1 := .iteFst h (hk h.frame)

theorem Canonical.wakeChans {l : List Nat} (h : Canonical s) : Canonical (s.wakeChans l) := h.foldl fun ha => .ite ha.modChan ha

theorem Canonical.reclaim {lines : List Nat} (h : Canonical s) : Canonical (s.reclaim lines) := .ite h (h.frame.foldl fun ha => ha.emit)

theorem Canonical.poolWrite {a : Nat} {b : List Byte} (h : Canonical s) : Canonical (s.poolWrite a b) :=
    have hw := (h.withPool (Mem.wf_write a b h.2.1)).wakeChans.reclaim
    .ite hw (hw.foldl fun ha => ha.modChan)

theorem Canonical.cacheLine {a : Nat} (h : Canonical s) : Canonical (s.cacheLine a) := h.frame

theorem Canonical.hostPut {a : Nat} {b : List Byte} (h : Canonical s) : Canonical (s.hostPut a b) := (h.foldl fun ha => ha.cacheLine).emit

/-! ### Bist -/

theorem Canonical.ranBist {sh pc kind n : Nat} {fails : List BistFail} (h : Canonical s) : Canonical (s.ranBist sh pc kind n fails) := h.modSheet

/-! ### Sheets -/

theorem Canonical.markDirty {i w : Nat} (h : Canonical s) : Canonical (s.markDirty i w) := by
  unfold State.markDirty
  extract_lets +onlyGivenNames x
  split
  exacts [h, .ite h h.modSheet]

theorem Canonical.writeRepair {l : List (List Byte)} (h : Canonical s) : Canonical (s.writeRepair l) := h.frame

theorem Canonical.storeEntry {e : List Byte} (h : Canonical s) : Canonical (s.storeEntry e) :=
    .ite h.logErr (.ite (.ite h.logErr h.frame) (.ite h.logErr h.writeRepair))

theorem Canonical.addRepair {kind cause loc detail : Nat} (h : Canonical s) : Canonical (s.addRepair kind cause loc detail) := h.frame.storeEntry

theorem Canonical.retireOne {sh pc cause : Nat} (h : Canonical s) : Canonical (s.retireOne sh pc cause) := .ite h h.modSheet.addRepair.logErr

theorem Canonical.installMap {sh : Nat} {old : Sheet} (h : Canonical s) : Canonical (s.installMap sh old) := h.modSheet

theorem Canonical.applyRoles {sh : Nat} {old : Sheet} (h : Canonical s) : Canonical (s.applyRoles sh old) := .ite h.modSheet h.installMap

theorem Canonical.retire {sh : Nat} {l : List (Nat × Nat)} (h : Canonical s) : Canonical (s.retire sh l) :=
    (h.foldl fun ha => ha.retireOne).applyRoles

theorem Canonical.condemn {sh pc cause : Nat} (h : Canonical s) : Canonical (s.condemn sh pc cause) :=
    .ite h.modSheet h.retire

theorem Canonical.retirePending {sh : Nat} (h : Canonical s) : Canonical (s.retirePending sh) := h.modSheet.foldl fun ha => ha.retireOne

theorem Canonical.fenceCol {sh pc : Nat} {row : Option Nat} (h : Canonical s) : Canonical (s.fenceCol sh pc row) := h.modSheet.frame

theorem Canonical.unfenceCol {sh pc : Nat} {row : Option Nat} (h : Canonical s) : Canonical (s.unfenceCol sh pc row) := h.modSheet

/-! ### Units -/

theorem Canonical.restartQmax {h : Nat} {tiles : List Nat} (hs : Canonical s) : Canonical (s.restartQmax h tiles) := .ite hs hs.frame

theorem Canonical.mbIdentify {m : Master} {p : Payload} (h : Canonical s) : Canonical (mbIdentify m p s).1 := h.checked h

theorem Canonical.mbOpStatus {m : Master} {p : Payload} (h : Canonical s) : Canonical (mbOpStatus m p s).1 := by
  unfold Machine.mbOpStatus
  refine h.checked ?_
  split <;> exact h

theorem Canonical.mbDescribe {m : Master} {p : Payload} (h : Canonical s) : Canonical (mbDescribe m p s).1 := by
  unfold Machine.mbDescribe
  refine h.checked ?_
  extract_lets hd
  split <;> exact h

theorem Canonical.mbResolve {m : Master} {p : Payload} (h : Canonical s) : Canonical (mbResolve m p s).1 := by
  unfold Machine.mbResolve
  refine h.checked ?_
  split
  exacts [.iteFst h h, h]

theorem Canonical.mbChildren {m : Master} {p : Payload} (h : Canonical s) : Canonical (mbChildren m p s).1 := by
  unfold Machine.mbChildren
  refine h.checked ?_
  extract_lets +onlyGivenNames hd
  split <;> exact h

theorem Canonical.mbStatus {m : Master} {p : Payload} (h : Canonical s) : Canonical (mbStatus m p s).1 := by
  unfold Machine.mbStatus
  refine h.checked ?_
  extract_lets +onlyGivenNames hd
  split <;> exact h

theorem Canonical.mbCounters {m : Master} {p : Payload} (h : Canonical s) : Canonical (mbCounters m p s).1 := by
  unfold Machine.mbCounters
  refine h.checked ?_
  extract_lets +onlyGivenNames hd
  split
  exacts [h, h.restartQmax]

theorem Canonical.mbGroupCreate {m : Master} {p : Payload} (h : Canonical s) : Canonical (mbGroupCreate m p s).1 := by
  unfold Machine.mbGroupCreate
  extract_lets +onlyGivenNames n
  refine .iteFst h (h.checked ?_)
  extract_lets +onlyGivenNames ms
  split
  · exact h
  · split
    · exact h
    · split
      exacts [h, .iteFst h h.tookSerial.frame]

theorem Canonical.mbGroupEdit {m : Master} {p : Payload} (h : Canonical s) : Canonical (mbGroupEdit m p s).1 := by
  unfold Machine.mbGroupEdit
  refine h.checked ?_
  extract_lets +onlyGivenNames hd op m
  exact .iteFst h (.iteFst h (.iteFst h (.iteFst h (.iteFst (.iteFst h (.iteFst h (.iteFst h (.iteFst h h.frame)))) (.iteFst h h.frame)))))

theorem Canonical.mbGroupDelete {m : Master} {p : Payload} (h : Canonical s) : Canonical (mbGroupDelete m p s).1 :=
    h.checked (.iteFst h (.iteFst h h.frame.dropHandle))

theorem Canonical.mbStartStatus {m : Master} {p : Payload} (h : Canonical s) : Canonical (mbStartStatus m p s).1 := h.checked h

/-! ### Fabric -/

theorem Canonical.transmit {port : Nat} {b : List Byte} (h : Canonical s) : Canonical (s.transmit port b) :=
    .ite h.emit.portCount (.ite h.modPort.emit.portCount h.modPort)

theorem Canonical.drainPort {port : Nat} (h : Canonical s) : Canonical (s.drainPort port) := h.modPort.foldl fun ha => ha.transmit

theorem Canonical.logFabric {cls port : Nat} {body : List Byte} (h : Canonical s) : Canonical (s.logFabric cls port body) := by
  unfold State.logFabric
  extract_lets +onlyGivenNames k
  split
  exacts [.ite h h.frame.logErr, h.frame.logErr]

theorem Canonical.fwdDrop {port dst : Nat} (h : Canonical s) : Canonical (s.fwdDrop port dst) := .ite h.portCount.logFabric h

theorem Canonical.stale {k : Packet} (h : Canonical s) : Canonical (s.stale k) := by
  unfold State.stale
  extract_lets s1 c
  have hs1 : Canonical s1 := h.logFabric
  clear_value c
  split
  exacts [hs1.ctxCount, hs1]

theorem Canonical.deliverPacket {k : Packet} (h : Canonical s0) : Canonical (s0.deliverPacket k) := .ite (.ite h.frame h.frame.stale) h.frame.frame

theorem Canonical.sendPacket {p : Packet} (h : Canonical s) : Canonical (s.sendPacket p) :=
    .ite h (.ite h.deliverPacket (.ite h (.ite h.fwdDrop h.transmit)))

theorem Canonical.breakLane {p lane cause : Nat} (h : Canonical s) : Canonical (s.breakLane p lane cause) := .ite h h.modPort.addRepair.logFabric

theorem Canonical.trainLane {p lane : Nat} {good : Bool} (h : Canonical s) : Canonical (s.trainLane p lane good) :=
    .ite h.modPort (.ite h.modPort.breakLane h.modPort)

theorem Canonical.trainPort {p : Nat} {lanes : BitVec 4} {peer : W16} {peerPort : Byte} (h : Canonical s) : Canonical (s.trainPort p lanes peer peerPort) :=
    ((h.foldl fun ha => .ite ha ha.trainLane).modPort).drainPort

theorem Canonical.startTraining {p : Nat} (h : Canonical s) : Canonical (s.startTraining p) := h.modPort

theorem Canonical.memberSendAt {id sub rank step attempt : Nat} {body : List Byte} (h : Canonical s) : Canonical (s.memberSendAt id sub rank step attempt body) := by
  unfold State.memberSendAt
  split
  exacts [h, h.modJob.sendPacket]

theorem Canonical.memberSend {id sub rank : Nat} {body : List Byte} (h : Canonical s) : Canonical (s.memberSend id sub rank body) := by
  unfold State.memberSend
  split
  exacts [h, h.memberSendAt]

theorem Canonical.memberSendAll {id sub : Nat} {ranks : List Nat} {body : List Byte} (h : Canonical s) : Canonical (s.memberSendAll id sub ranks body) :=
    h.foldl fun ha => ha.memberSend

theorem Canonical.leaveJob {id cause : Nat} (h : Canonical s) : Canonical (s.leaveJob id cause) := by
  unfold State.leaveJob
  split
  exacts [h, (Canonical.ite h.memberSendAll h).modJob]

/-! ### CtxOps -/

theorem Canonical.modEntry {c k : Nat} {n : W32} {f : Entry → Entry} (h : Canonical s) : Canonical (s.modEntry c k n f) := h.modQueue

theorem Canonical.setOutcome {c k : Nat} {n : W32} {d : Done} (h : Canonical s) : Canonical (s.setOutcome c k n d) := h.modEntry

theorem Canonical.endEntries {c eng : Nat} {sel : Entry → Bool} {d : Done} (h : Canonical s) : Canonical (s.endEntries c eng sel d) := h.frame

theorem Canonical.stopQueue {c k cause : Nat} (h : Canonical s) : Canonical (s.stopQueue c k cause) := .ite h.modQueue.logErr h.modQueue

theorem Canonical.stopQueues {c cause : Nat} (h : Canonical s) : Canonical (s.stopQueues c cause) := h.foldl fun ha => ha.stopQueue

theorem Canonical.keepMet {c : Nat} {sel : Nat → Bool} (h : Canonical s) : Canonical (s.keepMet c sel) := h.foldl fun ha => ha.modEntry

theorem Canonical.orphanWaits {c : Nat} {sel : Nat → Bool} (h : Canonical s) : Canonical (s.orphanWaits c sel) :=
    h.keepMet.foldl fun ha => ha.setOutcome.ctxCount

theorem Canonical.orphanCounterWaits {pt index : Nat} (h : Canonical s) : Canonical (s.orphanCounterWaits pt index) :=
    h.foldl fun ha => ha.orphanWaits

theorem Canonical.releaseCounter {pt index : Nat} (h : Canonical s) : Canonical (s.releaseCounter pt index) := h.orphanCounterWaits.freeCounter

theorem Canonical.loseCounters {p : Nat} (h : Canonical s) : Canonical (s.loseCounters p) :=
    ((h.foldl fun ha => ha.orphanCounterWaits).foldl fun ha => ha.orphan).modPt

theorem Canonical.markImports {c frm dest : Nat} (h : Canonical s) : Canonical (s.markImports c frm dest) := h.frame

theorem Canonical.suspendObjects {c : Nat} (h : Canonical s) : Canonical (s.suspendObjects c) := (h.foldl fun ha => ha.keepMet).markImports

theorem Canonical.resumeObjects {c : Nat} (h : Canonical s) : Canonical (s.resumeObjects c) :=
    ((h.foldl fun ha => ha.modPt.ctxCount).modCtx).markImports

theorem Canonical.endStops {c : Nat} (h : Canonical s) : Canonical (s.endStops c) := (h.foldl fun ha => ha.setOutcome).modCtx

theorem Canonical.endRun {c reason status : Nat} (h : Canonical s) : Canonical (s.endRun c reason status) := by
  unfold State.endRun
  split
  exacts [h.endStops, h.setOutcome.modCtx.endStops]

theorem Canonical.orphanCovers {c : Nat} (h : Canonical s) : Canonical (s.orphanCovers c) := h.endEntries

theorem Canonical.applyFences {sh : Nat} {commit : Bool} (h : Canonical s) : Canonical (s.applyFences sh commit) :=
    .ite h ((h.foldl fun ha => .ite (.ite ha ha.fenceCol) ha.unfenceCol).modSheet)

theorem Canonical.finishFences (h : Canonical s) : Canonical s.finishFences := h.foldl fun ha => .ite ha.readyOp ha

theorem Canonical.installPoint {commit : Bool} {sh : Nat} (h : Canonical s) : Canonical (s.installPoint commit sh) := by
  unfold State.installPoint
  extract_lets s1 due
  have hs1 : Canonical s1 := h.applyFences.retirePending
  exact ((Canonical.ite hs1.installMap hs1).modSheet).finishFences

theorem Canonical.installPoints {commit : Bool} {pts : List Nat} (h : Canonical s) : Canonical (s.installPoints commit pts) :=
    h.foldl fun ha => ha.foldl fun ha1 => ha1.installPoint

theorem Canonical.recouch {pts : List Nat} (h : Canonical s) : Canonical (s.recouch pts) := h.foldl fun ha => ha.foldl fun ha1 => ha1.modSheet

theorem Canonical.release {c : Nat} (h : Canonical s) : Canonical (s.release c) := h.modCtx.installPoints.recouch

theorem Canonical.unconfigure {pts : List Nat} (h : Canonical s) : Canonical (s.unconfigure pts) := h.frame

theorem Canonical.orphanWork {c : Nat} (h : Canonical s) : Canonical (s.orphanWork c) := h.endEntries.endEntries.endEntries.modCtx

theorem Canonical.faultCtx {c reason status : Nat} (h : Canonical s) : Canonical (s.faultCtx c reason status) := by
  unfold State.faultCtx
  extract_lets +onlyGivenNames x
  refine .ite h ?_
  extract_lets s1 s2 s3 s4
  have hs1 : Canonical s1 := h.endRun.modCtx
  have hs2 : Canonical s2 := by unfold s2; split; exacts [hs1.readyOp, hs1]
  have hs3 : Canonical s3 := hs2.orphanCovers.orphanWork
  have hs4 : Canonical s4 := hs3.resumeObjects
  split
  exacts [hs4.leaveJob, hs4]

/-! ### Container -/

theorem Canonical.judge {key image : List Byte} {v : Verdict} (h : Canonical s) : Canonical (s.judge key image v) := .ite h h.frame

theorem Canonical.wrote {i : Nat} (h : Canonical s) : Canonical (s.wrote i) := .ite h.modSheet h

theorem Canonical.writeImages {c : Nat} {gen : BitVec 4} {l : List TileRec} (h : Canonical s) : Canonical (s.writeImages c gen l) := by
  unfold State.writeImages
  exact h.foldl fun ha => by split; exacts [ha, ha.wrote.modTile]

theorem Canonical.writePrologue {c : Nat} {l : List TileRec} (h : Canonical s) : Canonical (s.writePrologue c l) := by
  unfold State.writePrologue
  exact h.foldl fun ha => by split; exacts [ha, ha.wrote.modTile]

theorem Canonical.writeOperands {c : Nat} {l : List TileRec} (h : Canonical s) : Canonical (s.writeOperands c l) := by
  unfold State.writeOperands
  exact h.foldl fun ha => by split; exacts [ha, ha.wrote.modTile]

theorem Canonical.loadTiles {c : Nat} {p : Prog} (h : Canonical s) : Canonical (s.loadTiles c p) := h.unconfigure.writeImages.writePrologue.modCtx

theorem Canonical.alignSprog {c : Nat} (h : Canonical s) : Canonical (s.alignSprog c) := h.foldl fun ha => ha.modSheet

/-! ### Contexts -/

theorem Canonical.calRecord {c step outcome cause : Nat} {overdue : Bool} {left : List (Nat × Nat)} (h : Canonical s) : Canonical (s.calRecord c step outcome cause overdue left) := h.frame

theorem Canonical.withCtx {p : Payload} {k : Nat → State × Resp} (h : Canonical s) (hk : Canonical (k (arg p 0 1)).1) :
    Canonical (withCtx p s k).1 := .iteFst h hk

theorem Canonical.mbCtxCreate {m : Master} {p : Payload} (h : Canonical s) : Canonical (mbCtxCreate m p s).1 := by
  unfold Machine.mbCtxCreate
  refine h.checked ?_
  extract_lets +onlyGivenNames n
  refine .iteFst h (.iteFst h ?_)
  split
  exacts [h, h.tookSerial.modCtx]

theorem Canonical.destroyCtx {c : Nat} (h : Canonical s) : Canonical (s.destroyCtx c) := by
  unfold State.destroyCtx
  extract_lets +onlyGivenNames x hd s1 s2 s3
  have hs1 : Canonical s1 := h.stopQueues
  have hs2 : Canonical s2 := hs1.frame.closeSessions
  have hs3 : Canonical s3 := hs2.foldl fun ha => .ite ha.releaseCounter ha
  exact hs3.modCtx.dropHandle.forget

theorem Canonical.mbCtxDestroy {m : Master} {p : Payload} (h : Canonical s) : Canonical (mbCtxDestroy m p s).1 :=
    h.checked (h.withCtx (.iteFst h h.destroyCtx))

theorem Canonical.mbCtxAlloc {m : Master} {p : Payload} (h : Canonical s) : Canonical (mbCtxAlloc m p s).1 := by
  unfold Machine.mbCtxAlloc
  refine h.checked (h.withCtx ?_)
  extract_lets +onlyGivenNames gran nch pts len
  refine .iteFst h (.iteFst h (.iteFst h (.iteFst h (.iteFst h (.iteFst h ?_)))))
  extract_lets +onlyGivenNames chs
  split
  exacts [h, h.modCtx.undefine]

theorem Canonical.freeLeftovers {c : Nat} (h : Canonical s) : Canonical (s.freeLeftovers c) := by
  unfold State.freeLeftovers
  extract_lets x owned pairs left
  exact h.foldl fun ha => by split; exacts [.ite ha.releaseCounter.modCtx ha, ha]

theorem Canonical.mbCtxFree {m : Master} {p : Payload} (h : Canonical s) : Canonical (mbCtxFree m p s).1 :=
    h.checked (h.withCtx (.iteFst h h.freeLeftovers.unconfigure.modCtx.release.forget))

theorem Canonical.mbCtxBind {m : Master} {p : Payload} (h : Canonical s) : Canonical (mbCtxBind m p s).1 := by
  unfold Machine.mbCtxBind
  refine h.checked (h.withCtx ?_)
  extract_lets x pts
  refine .iteFst (.iteFst h h.modCtx.release) (.iteFst h (.iteFst h ?_))
  split
  exacts [h, h.modCtx.recouch]

theorem Canonical.mbCtxSuspend {m : Master} {p : Payload} (h : Canonical s) : Canonical (mbCtxSuspend m p s).1 :=
    h.checked (h.withCtx (.iteFst h (h.background fun ha => ha.modCtx.orphanCovers.suspendObjects)))

theorem Canonical.suspensionSaved {c : Nat} (h : Canonical s) : Canonical (suspensionSaved c s) := .ite h h.unconfigure.modCtx.release.finishOp?

theorem Canonical.mbCtxResume {m : Master} {p : Payload} (h : Canonical s) : Canonical (mbCtxResume m p s).1 := by
  unfold Machine.mbCtxResume
  refine h.checked (h.withCtx ?_)
  extract_lets +onlyGivenNames x pts
  refine .iteFst h ?_
  split
  · exact h
  · refine h.background fun ha => ?_
    extract_lets +onlyGivenNames t1
    have ht1 : Canonical t1 := ha.modCtx.recouch
    split
    · exact ht1
    · extract_lets t2 t3
      have ht2 : Canonical t2 := ht1.loadTiles
      have ht3 : Canonical t3 := ht2.foldl fun ha1 => by split; exacts [ha1.modTile, ha1]
      exact ht3.alignSprog.modCtx

theorem Canonical.resumptionFinished {c : Nat} (h : Canonical s) : Canonical (resumptionFinished c s) := .ite h h.modCtx.resumeObjects.finishOp?

theorem Canonical.mbQueueConfig {m : Master} {p : Payload} (h : Canonical s) : Canonical (mbQueueConfig m p s).1 := by
  unfold Machine.mbQueueConfig
  refine h.checked (h.withCtx ?_)
  extract_lets +onlyGivenNames e q loc base n v
  exact .iteFst h (.iteFst h (.iteFst h (.iteFst h (.iteFst h (.iteFst h (.iteFst h (.iteFst h h.modQueue)))))))

theorem Canonical.mbProgLoad {m : Master} {p : Payload} (h : Canonical s) : Canonical (mbProgLoad m p s).1 := by
  unfold Machine.mbProgLoad
  refine h.checked (h.withCtx ?_)
  extract_lets x src a n al
  refine .iteFst h (.iteFst h (.iteFst h (.iteFst h (.iteFst h (.iteFst h ?_)))))
  split
  exacts [h, h.background fun ha => ha.modCtx]

theorem Canonical.reelIoError {write : Bool} {nvme lba : Nat} (h : Canonical s) : Canonical (s.reelIoError write nvme lba) := h.logErr

theorem Canonical.reelIoOpen {write : Bool} {lba : Nat} (h : Canonical s) : Canonical (s.reelIoOpen write lba) := h.frame.reelIoError

theorem Canonical.progLoadFinished {c : Nat} {image : ReadResult} {v : Verdict} (h : Canonical s0) : Canonical (progLoadFinished c image v s0) := by
  unfold Machine.progLoadFinished
  extract_lets +onlyGivenNames x
  split
  · extract_lets +onlyGivenNames s fail
    have hs : Canonical s := by
      unfold s; split
      · extract_lets y
        cases s0.contKey y
        exacts [h, h.judge]
      · exact h
    split
    · split
      exacts [hs.modCtx.finishOp?, .ite h hs.modCtx.recouch.loadTiles.writeOperands.finishOp?]
    · exact .ite hs.modCtx.finishOp?.reelIoOpen hs.modCtx.finishOp?
  · exact h

theorem Canonical.mbProgUnload {m : Master} {p : Payload} (h : Canonical s) : Canonical (mbProgUnload m p s).1 := by
  unfold Machine.mbProgUnload
  refine h.checked (h.withCtx ?_)
  extract_lets +onlyGivenNames x
  refine .iteFst h (h.background fun ha => ?_)
  extract_lets sm pairs ids left t1 t2 t3 t4
  have ht1 : Canonical t1 := ha.orphanCovers.endEntries
  have ht2 : Canonical t2 := ht1.endEntries
  have ht3 : Canonical t3 := .ite ht2.calRecord ht2
  have ht4 : Canonical t4 := ht3.unconfigure.modCtx
  exact ht4.readyOp

theorem Canonical.mbProgInfo {m : Master} {p : Payload} (h : Canonical s) : Canonical (mbProgInfo m p s).1 := by
  unfold Machine.mbProgInfo
  refine h.checked (h.withCtx ?_)
  extract_lets +onlyGivenNames x
  split <;> exact h

/-! ### Resets -/

theorem Canonical.breakChan {ch cause group : Nat} (h : Canonical s) : Canonical (s.breakChan ch cause group) := by
  unfold State.breakChan
  refine .ite h ?_
  extract_lets s1 s2
  have hs1 : Canonical s1 := h.modChan.addRepair
  have hs2 : Canonical s2 := hs1.logErr
  refine hs2.foldl fun ha => ?_
  split
  exacts [.ite ha.faultCtx ha, ha]

theorem Canonical.abandonDwell {sh : Nat} (h : Canonical s) : Canonical (s.abandonDwell sh) := h.modSheet

theorem Canonical.darken {p : Nat} (h : Canonical s) : Canonical (s.darken p) := h.frame.loseCounters.foldl fun ha => ha.abandonDwell

theorem Canonical.selfRefresh {p : Nat} {b : Bool} (h : Canonical s) : Canonical (s.selfRefresh p b) := h.foldl fun ha => ha.modChan

theorem Canonical.dwellsDue {p : Nat} (h : Canonical s) : Canonical (s.dwellsDue p) := h.foldl fun ha => ha.modSheet

theorem Canonical.setRail {p : Nat} {on : Bool} (h : Canonical s) : Canonical (s.setRail p on) := .ite h.modPt h.modPt.emit

theorem Canonical.wakePt {p : Nat} (h : Canonical s) : Canonical (s.wakePt p) := h.setRail.modPt.selfRefresh.dwellsDue

theorem Canonical.unidle {p : Nat} (h : Canonical s) : Canonical (s.unidle p) := h.modPt

theorem Canonical.offPt {p : Nat} {byCmd : Bool} (h : Canonical s) : Canonical (s.offPt p byCmd) := h.darken.selfRefresh.setRail.modPt

theorem Canonical.sleepPt {p : Nat} (h : Canonical s) : Canonical (s.sleepPt p) := ((h.foldl fun ha => ha.abandonDwell).setRail).modPt

theorem Canonical.softRepair {sh pc : Nat} {f : BistFail} (h : Canonical s) : Canonical (s.softRepair sh pc f) := h.modTile.addRepair.sheetCount

theorem Canonical.bistFail {sh pc : Nat} {f : BistFail} {cond : BistCond} {origin : Nat} (h : Canonical s) : Canonical (s.bistFail sh pc f cond origin) :=
    h.sheetCount.logErr

theorem Canonical.foundBist {cols : List (Nat × Nat)} {n : Nat} {fails : List ColFail} (h : Canonical s) : Canonical (s.foundBist cols n fails) :=
    h.foldl fun ha => ha.ranBist

theorem Canonical.windowCols {shs : List Nat} {cols : List ColFail} {cond : BistCond} (h : Canonical s) : Canonical (s.windowCols shs cols cond) :=
    h.foundBist.foldl fun ha => .ite ha (.ite ha.softRepair ha.bistFail.retireOne)

theorem Canonical.windowLinks {shs : List Nat} {d2d : List D2dFail} (h : Canonical s) : Canonical (s.windowLinks shs d2d) :=
    (h.foldl fun ha => ha.modSheet).foldl fun ha => .ite ha.addRepair ha.modSheet

theorem Canonical.resetCtx {c p : Nat} (h : Canonical s) : Canonical (s.resetCtx c p) := .ite h.faultCtx.modCtx h.faultCtx

theorem Canonical.beginReset {p op requester : Nat} (h : Canonical s) : Canonical (s.beginReset p op requester) := by
  unfold State.beginReset
  extract_lets s1 s2 s3 s4
  have hs2 : Canonical s2 := h.modPt.logErr
  have hs3 : Canonical s3 := by unfold s3; split; exacts [hs2.resetCtx, hs2]
  have hs4 : Canonical s4 := hs3.foldl fun ha => ha.retirePending
  exact hs4.darken.selfRefresh

theorem Canonical.applyMode {mode u value : Nat} {lanes : BitVec 4} (h : Canonical s) : Canonical (s.applyMode mode u value lanes) :=
    .ite h.modPt (.ite h.modPt h.modPort.trainPort)

theorem Canonical.modeApplied {mode : Nat} {us : List Nat} {bad : Bool} (h : Canonical s) : Canonical (s.modeApplied mode us bad) := by
  unfold State.modeApplied
  extract_lets +onlyGivenNames upd _ s1
  split
  exacts [h.frame, h.frame.frame.finishOp.raise]

theorem Canonical.modesAfterReset {p : Nat} (h : Canonical s) : Canonical (s.modesAfterReset p) := h.foldl fun ha => .ite ha.applyMode.modeApplied ha

theorem Canonical.perfAtCommit {c : Nat} (h : Canonical s) : Canonical (s.perfAtCommit c) := by
  unfold State.perfAtCommit
  split
  · exact h
  · split
    exacts [h, .ite h ((h.foldl fun ha => ha.applyMode).modeApplied)]

theorem Canonical.endReset {p : Nat} {before : List Sheet} {broke : List Nat} (h : Canonical s) : Canonical (s.endReset p before broke) := by
  unfold State.endReset
  extract_lets s1 s2 s3 s4 x s5 s6
  have hs1 : Canonical s1 := h.foldl fun ha => ha.breakChan
  have hs2 : Canonical s2 := hs1.foldl fun ha => ha.modChan
  have hs3 : Canonical s3 := hs2.foldl fun ha => ha.modSheet
  have hs5 : Canonical s5 := .ite hs3.modPt hs3.modPt.wakePt
  have hs6 : Canonical s6 := hs5.modesAfterReset
  exact .ite hs6.flushSessions hs6

theorem Canonical.partitionResetEnd {op : Nat} {cols : List ColFail} {d2d : List D2dFail} {chans : List Ch} {cond : BistCond} (h : Canonical s) : Canonical (partitionResetEnd op cols d2d chans cond s) := by
  unfold Machine.partitionResetEnd
  extract_lets +onlyGivenNames ps
  refine .ite h ?_
  extract_lets before s1 s2 s3
  have hs1 : Canonical s1 := h.windowCols
  have hs2 : Canonical s2 := hs1.windowLinks
  have hs3 : Canonical s3 := hs2.foldl fun ha => ha.endReset
  exact .ite hs3 hs3.finishOp

theorem Canonical.verbChecks {h : Nat} {legal : UnitRef → Bool} {k : List UnitRef → State × Resp} (hs : Canonical s)
    (hk : Canonical (k (s.verbUnits h)).1) : Canonical (verbChecks s h legal k).1 :=
  .iteFst hs (.iteFst hs (.iteFst hs hk))

theorem Canonical.acceptWarm {by' : Nat} (h : Canonical s) : Canonical (s.acceptWarm by') := h.frame

theorem Canonical.mbReset {m : Master} {p : Payload} (h : Canonical s) : Canonical (mbReset m p s).1 := by
  unfold Machine.mbReset
  refine h.checked ?_
  extract_lets +onlyGivenNames hd who
  refine .iteFst (.iteFst h (h.background fun ha => ha.acceptWarm)) (h.verbChecks ?_)
  extract_lets +onlyGivenNames early
  split
  · exact h
  · refine h.background fun ha => ?_
    extract_lets t1
    have ht1 : Canonical t1 := ha.foldl fun ha1 => .ite ha1.modPt ha1.beginReset
    exact .ite ht1.finishOp ht1

theorem Canonical.judgeImage {b : List Byte} {v : Verdict} (h : Canonical s) : Canonical (s.judgeImage b v) := h.judge

theorem Canonical.runImage {b : List Byte} (h : Canonical s) : Canonical (s.runImage b) := h.frame

theorem Canonical.readyUp (h : Canonical s) : Canonical s.readyUp := h.frame.raise.cutCommands

theorem Canonical.fwUp (h : Canonical s) : Canonical s.fwUp := (Canonical.ite h.frame h).readyUp

theorem Canonical.coreOff {core cause : Nat} (h : Canonical s) : Canonical (s.coreOff core cause) := .ite h h.frame.addRepair.logErr

theorem Canonical.beginRestart {op : Option Nat} {cause : Nat} (h : Canonical s) : Canonical (s.beginRestart op cause) := h.frame.logErr

theorem Canonical.endRestart {b : List Byte} (h : Canonical s) : Canonical (s.endRestart b) := by
  unfold State.endRestart
  split
  exacts [h, h.runImage.frame.fwUp.finishOp?]

theorem Canonical.mbFwRestart {m : Master} {p : Payload} (h : Canonical s) : Canonical (mbFwRestart m p s).1 :=
    h.checked (.iteFst h (h.background fun ha => ha.beginRestart))

theorem Canonical.fwRestartEnd {fails : List (Fin 16)} {v : Verdict} (h : Canonical s) : Canonical (fwRestartEnd fails v s) := by
  unfold Machine.fwRestartEnd
  refine .ite h ?_
  extract_lets +onlyGivenNames s1
  have hs1 : Canonical s1 := h.judgeImage.foldl fun ha => ha.coreOff
  exact .ite hs1.endRestart hs1.frame.readyUp

theorem Canonical.mbModeSet {m : Master} {p : Payload} (h : Canonical s) : Canonical (mbModeSet m p s).1 := by
  unfold Machine.mbModeSet
  refine h.checked ?_
  extract_lets +onlyGivenNames mode scope value
  refine .iteFst h (.iteFst h ?_)
  split
  · exact h
  · extract_lets +onlyGivenNames us
    split
    · exact h
    · refine h.background fun ha => ?_
      extract_lets same c _ t1
      have ht1 : Canonical t1 := ha.frame.modeApplied
      split
      exacts [.ite ht1.startTraining ht1, ht1]

theorem Canonical.modeUnitApplied {mode : Nat} {lanes : BitVec 4} (h : Canonical s) : Canonical (modeUnitApplied mode lanes s) := by
  unfold Machine.modeUnitApplied
  split
  · exact h
  · split
    · exact h
    · extract_lets +onlyGivenNames waits
      refine .ite h ?_
      extract_lets s1 s2
      have hs1 : Canonical s1 := h.applyMode
      have hs2 : Canonical s2 := hs1.modeApplied
      split
      · refine .ite ?_ hs2
        split
        exacts [hs2.startTraining, hs2]
      · exact hs2

theorem Canonical.mbModeGet {m : Master} {p : Payload} (h : Canonical s) : Canonical (mbModeGet m p s).1 := by
  unfold Machine.mbModeGet
  refine h.checked ?_
  extract_lets +onlyGivenNames mode scope
  refine .iteFst h ?_
  split
  · exact h
  · extract_lets +onlyGivenNames us
    split <;> exact h

theorem Canonical.powerDefault {p : Nat} (h : Canonical s) : Canonical (s.powerDefault p) := .ite h.offPt (.ite h.sleepPt.selfRefresh h.wakePt)

theorem Canonical.leaveM3 {op : Option Nat} (h : Canonical s) : Canonical (s.leaveM3 op) := h.frame

theorem Canonical.mbPowerSet {m : Master} {p : Payload} (h : Canonical s) : Canonical (mbPowerSet m p s).1 := by
  unfold Machine.mbPowerSet
  refine h.checked ?_
  extract_lets +onlyGivenNames hd st
  refine .iteFst h ?_
  split
  · extract_lets +onlyGivenNames held
    refine .iteFst (h.background fun ha => ha.finishOp) ?_
    split
    exacts [h, h.background fun ha => .ite ha.leaveM3 ha.frame]
  · refine .iteFst h ?_
    extract_lets +onlyGivenNames us
    refine .iteFst h ?_
    extract_lets ps todo
    split
    exacts [h, .iteFst h (h.background fun ha => .ite ha.finishOp ha.modOp)]

theorem Canonical.portsDown (h : Canonical s) : Canonical s.portsDown := h.foldl fun ha => ha.modPort

theorem Canonical.takeModPwr {t : ModPwr} (h : Canonical s) : Canonical (s.takeModPwr t) := by
  unfold State.takeModPwr
  split
  · extract_lets s1 _ s2
    have hs1 : Canonical s1 := h.foldl fun ha => ha.offPt
    clear_value s1
    have hs2 : Canonical s2 := hs1.frame
    exact .ite hs2.portsDown hs2
  · extract_lets +onlyGivenNames s1
    have hs1 : Canonical s1 := (h.foldl fun ha => ha.selfRefresh).portsDown.emit
    exact hs1.frame (by simp)
  · exact (h.frame.foldl fun ha => ha.powerDefault).foldl fun ha => .ite ha.startTraining ha

theorem Canonical.takePtPwr {st p : Nat} (h : Canonical s) : Canonical (s.takePtPwr st p) :=
    .ite h (.ite h.wakePt (.ite (.ite h.sleepPt.selfRefresh h.sleepPt) (.ite h h.offPt)))

theorem Canonical.powerStateReached {op : Nat} (h : Canonical s) : Canonical (powerStateReached op s) := by
  unfold Machine.powerStateReached
  split
  · exact .ite (.ite h.frame.finishOp h.frame.takeModPwr.finishOp) h
  · split
    exacts [h, .ite h ((h.foldl fun ha => ha.takePtPwr).finishOp)]

theorem Canonical.fenceUnit {op : Nat} {u : UnitRef} (h : Canonical s) : Canonical (s.fenceUnit op u) := by
  unfold State.fenceUnit
  split
  · exact h.modPt.foldl fun ha => ha.modSheet.abandonDwell
  · exact h.modSheet.abandonDwell
  · exact .ite h.modSheet h.fenceCol.applyRoles
  · exact .ite h.modSheet h.fenceCol.applyRoles
  · exact h

theorem Canonical.mbFence {m : Master} {p : Payload} (h : Canonical s) : Canonical (mbFence m p s).1 := by
  unfold Machine.mbFence
  refine h.checked ?_
  extract_lets hd
  refine h.verbChecks ?_
  split
  · exact h
  · exact h.background fun ha => .ite ha.finishOp ((ha.foldl fun ha1 => ha1.fenceUnit).finishFences)

theorem Canonical.mbUnfence {m : Master} {p : Payload} (h : Canonical s) : Canonical (mbUnfence m p s).1 := by
  unfold Machine.mbUnfence
  refine h.checked ?_
  extract_lets hd
  refine h.verbChecks ?_
  split
  exacts [h, h.background fun ha => .ite ha.finishOp ha.modOp]

theorem Canonical.unfenceUnit {op : Nat} {u : UnitRef} (h : Canonical s) : Canonical (s.unfenceUnit op u) := by
  unfold State.unfenceUnit
  split
  exacts [h.modPt.foldl fun ha => ha.modSheet, h.modSheet, h.modSheet, h.modSheet, h]

theorem Canonical.beginTest {us : List UnitRef} {cols : List (Nat × Nat)} (h : Canonical s) : Canonical (s.beginTest us cols) :=
    (h.frame.foldl fun ha => ha.abandonDwell).foldl fun ha => ha.modSheet

theorem Canonical.mbTest {m : Master} {p : Payload} (h : Canonical s) : Canonical (mbTest m p s).1 := by
  unfold Machine.mbTest
  refine h.checked ?_
  extract_lets +onlyGivenNames hd kind
  refine .iteFst h (h.verbChecks (.iteFst h ?_))
  split
  exacts [h, h.background fun ha => .ite ha.finishOp ha.modOp.beginTest]

theorem Canonical.testFails {fails : List ColFail} {cond : BistCond} (h : Canonical s) : Canonical (s.testFails fails cond) :=
    h.foldl fun ha => .ite ha.softRepair ha.bistFail.condemn

theorem Canonical.testFinished {op : Nat} {fails : List ColFail} {cond : BistCond} (h : Canonical s) : Canonical (testFinished op fails cond s) := by
  unfold Machine.testFinished
  split
  · exact h
  · extract_lets +onlyGivenNames mine
    refine .ite h (.ite (((((Canonical.ite h.foundBist h).testFails).modOp).foldl fun ha => .ite ha.modSheet ha).finishOp) (.ite ?_ h))
    extract_lets us s1 s2 shs s3 s4
    have hs1 : Canonical s1 := (h.foundBist.foldl fun ha => ha.unfenceUnit).testFails
    have hs3 : Canonical s3 := hs1.modOp.foldl fun ha => .ite ha.installPoint ha
    have hs4 : Canonical s4 := hs3.foldl fun ha => ha.modSheet
    exact hs4.finishFences

theorem Canonical.mbTestResult {m : Master} {p : Payload} (h : Canonical s) : Canonical (mbTestResult m p s).1 := by
  unfold Machine.mbTestResult
  refine h.checked ?_
  split
  exacts [.iteFst h h, h]

/-! ### Logs -/

theorem Canonical.mbLedgerRead {m : Master} {p : Payload} (h : Canonical s) : Canonical (mbLedgerRead m p s).1 := h.checked (.iteFst h h)

theorem Canonical.mbErrlogRead {m : Master} {p : Payload} (h : Canonical s) : Canonical (mbErrlogRead m p s).1 := h.checked (.iteFst h h)

theorem Canonical.pumpStream (h : Canonical s) : Canonical s.pumpStream := by
  unfold State.pumpStream
  split
  exacts [(h.foldl fun ha => ha.emit).frame, h]

theorem Canonical.aimDump {d : Dumping} (h : Canonical s) : Canonical (s.aimDump d) := .ite h.frame.pumpStream h.frame

theorem Canonical.startDump {op : Option Nat} {trigger scope : Nat} {pts : List Nat} (h : Canonical s) : Canonical (s.startDump op trigger scope pts) := by
  unfold State.startDump
  refine .ite h.finishOp? ?_
  extract_lets id s1
  split
  exacts [h.frame.logErr.finishOp?, h.frame.aimDump]

theorem Canonical.dumpPartitionReadDone {p : Nat} (h : Canonical s) : Canonical (dumpPartitionReadDone p s) := by
  unfold Machine.dumpPartitionReadDone
  split
  · exact h
  · refine .ite h ?_
    extract_lets s1
    split
    exacts [.ite h.frame.beginReset h.frame, h.frame]

theorem Canonical.endReading (h : Canonical s) : Canonical s.endReading := by
  unfold State.endReading
  split
  exacts [h, h.foldl fun ha => ha.dumpPartitionReadDone]

theorem Canonical.dumpWritten (h : Canonical s) : Canonical (dumpWritten s) := by
  unfold Machine.dumpWritten
  split
  exacts [h, .ite h ((((Canonical.ite h.wakeChans h).frame).logErr).finishOp?)]

theorem Canonical.dumpTargetFailed (h : Canonical s) : Canonical (dumpTargetFailed s) := by
  unfold Machine.dumpTargetFailed
  split
  · exact h
  · refine .ite h ?_
    split
    exacts [h.aimDump, h.endReading.frame.frame.logErr.finishOp?]

theorem Canonical.dumpUnitTimeout {h off : Nat} (hs : Canonical s) : Canonical (dumpUnitTimeout h off s) := by
  unfold Machine.dumpUnitTimeout
  split
  exacts [hs, .ite hs hs.frame]

theorem Canonical.mbDumpTrigger {m : Master} {p : Payload} (h : Canonical s) : Canonical (mbDumpTrigger m p s).1 := by
  unfold Machine.mbDumpTrigger
  refine h.checked ?_
  extract_lets +onlyGivenNames hd
  split
  · exact h
  · exact .iteFst h (.iteFst h (.iteFst h (.iteFst h (h.background fun ha => ha.startDump))))

theorem Canonical.mbDumpInfo {m : Master} {p : Payload} (h : Canonical s) : Canonical (mbDumpInfo m p s).1 := h.checked h

theorem Canonical.mbDumpRead {m : Master} {p : Payload} (h : Canonical s) : Canonical (mbDumpRead m p s).1 := by
  unfold Machine.mbDumpRead
  refine h.checked ?_
  extract_lets off n
  refine .iteFst h ?_
  split
  exacts [h, .iteFst h (.ite h.wakeChans h)]

theorem Canonical.hostDumpRead {p : Payload} (h : Canonical s) : Canonical (hostDumpRead p s) :=
    .ite (.ite h h.submit.frame) (h.hostCmd Canonical.mbDumpRead)

theorem Canonical.mbDumpClear {m : Master} {p : Payload} (h : Canonical s) : Canonical (mbDumpClear m p s).1 := h.checked (.iteFst h.frame h)

theorem Canonical.putSetting {id : Nat} {v : List Byte} (h : Canonical s) : Canonical (s.putSetting id v) := h.frame

theorem Canonical.mbSettingsGet {m : Master} {p : Payload} (h : Canonical s) : Canonical (mbSettingsGet m p s).1 := h.checked (.iteFst h h)

theorem Canonical.mbSettingsSet {m : Master} {p : Payload} (h : Canonical s) : Canonical (mbSettingsSet m p s).1 := by
  unfold Machine.mbSettingsSet
  extract_lets id n v
  refine .iteFst h (.iteFst h (.iteFst h (.iteFst h (.iteFst ?_ (.iteFst h h.putSetting)))))
  split
  · exact h
  · dsimp only
    exact h.putSetting.foldl fun ha => .ite ha ha.startTraining

/-! ### Firmware -/

theorem Canonical.endStage {n next : Nat} (h : Canonical s) : Canonical (s.endStage n next) := h.frame (by simp)

theorem Canonical.bootDone {b : List Byte} {fromFlash : Bool} (h : Canonical s) : Canonical (s.bootDone b fromFlash) := h.frame

theorem Canonical.writeFlash {b : List Byte} (h : Canonical s) : Canonical (s.writeFlash b) := h.frame

theorem Canonical.mbFwInfo {m : Master} {p : Payload} (h : Canonical s) : Canonical (mbFwInfo m p s).1 := h.checked h

theorem Canonical.mbFwStageBegin {m : Master} {p : Payload} (h : Canonical s) : Canonical (mbFwStageBegin m p s).1 :=
    h.checked (.iteFst h (.iteFst h h.frame))

theorem Canonical.mbFwStageData {m : Master} {p : Payload} (h : Canonical s) : Canonical (mbFwStageData m p s).1 :=
    .iteFst h (.iteFst h (.iteFst h h.frame))

theorem Canonical.beginCommit {op : Nat} {restart reel : Bool} (h : Canonical s) : Canonical (s.beginCommit op restart reel) := h.frame

theorem Canonical.mbFwStageCommit {m : Master} {p : Payload} (h : Canonical s) : Canonical (mbFwStageCommit m p s).1 :=
    h.checked (.iteFst h (.iteFst h (h.background fun ha => ha.beginCommit)))

theorem Canonical.pldmReport {code result : Nat} (h : Canonical s) : Canonical (s.pldmReport code result) := .ite h.emit h

theorem Canonical.fwCommitFinished {v : Verdict} (h : Canonical t) : Canonical (fwCommitFinished v t) := by
  unfold Machine.fwCommitFinished
  split
  · exact h
  · extract_lets +onlyGivenNames b s _ idle
    have hs : Canonical s := h.judgeImage
    split
    · exact .ite hs.frame.pldmReport hs.frame.pldmReport.finishOp
    · exact .ite hs.frame.writeFlash.frame.beginRestart hs.frame.writeFlash.frame.pldmReport.finishOp
    · refine .ite hs.frame.pldmReport.finishOp ?_
      extract_lets s0 _ s1
      have hs0 : Canonical s0 := hs.pldmReport.pldmReport
      have hs1 : Canonical s1 := hs0.frame.writeFlash
      exact .ite hs1.finishOp.endRestart hs1.finishOp.bootDone
    · exact hs

theorem Canonical.mbFwRecoveryLoad {m : Master} {p : Payload} (h : Canonical s) : Canonical (mbFwRecoveryLoad m p s).1 := by
  unfold Machine.mbFwRecoveryLoad
  refine h.checked ?_
  extract_lets src
  refine .iteFst h ?_
  split
  · exact .iteFst h (.iteFst h (h.background fun ha => ha.beginCommit))
  · exact .iteFst h (.iteFst h (.iteFst h (.iteFst h (h.background fun ha => ha.beginCommit))))

theorem Canonical.mbFwSvnAdvance {m : Master} {p : Payload} (h : Canonical s) : Canonical (mbFwSvnAdvance m p s).1 :=
    h.checked (.iteFst h (h.background fun ha => ha.frame.readyOp))

theorem Canonical.mbKeyEnrol {m : Master} {p : Payload} (h : Canonical s) : Canonical (mbKeyEnrol m p s).1 :=
    .iteFst h (h.checked (.iteFst h (.iteFst h (.iteFst h h.frame))))

theorem Canonical.mbKeyClear {m : Master} {p : Payload} (h : Canonical s) : Canonical (mbKeyClear m p s).1 := by
  unfold Machine.mbKeyClear
  refine .iteFst h (h.checked ?_)
  extract_lets +onlyGivenNames k
  refine .iteFst h (.iteFst h ?_)
  split
  exacts [h, h.frame]

theorem Canonical.mbKeyList {m : Master} {p : Payload} (h : Canonical s) : Canonical (mbKeyList m p s).1 := h.checked h

/-! ### Queues -/

theorem Canonical.mbDoneClear (h : Canonical s) : Canonical (mbDoneClear s) := .ite h.frame h

theorem Canonical.lockAcquireHost (h : Canonical s) : Canonical (lockAcquireHost s) := .ite h.frame h

theorem Canonical.lockReleaseHost (h : Canonical s) : Canonical (lockReleaseHost s) := .ite h.frame h

theorem Canonical.preemptedClear (h : Canonical s) : Canonical (preemptedClear s) := .ite h.frame h

theorem Canonical.intCauseClear {v : W32} (h : Canonical s) : Canonical (intCauseClear v s) := .ite h.frame h

theorem Canonical.intMaskWrite {v : W32} (h : Canonical s) : Canonical (intMaskWrite v s) := .ite (h.frame.foldl fun ha => .ite ha.msix ha) h

theorem Canonical.msixUnmasked (h : Canonical t) : Canonical (s.msixUnmasked t) := h.foldl fun ha => .ite ha.frame.emit ha

theorem Canonical.queueGo {c k : Nat} (h : Canonical s) : Canonical (s.queueGo c k) := by
  unfold State.queueGo
  split
  exacts [h.stopQueue, h.modQueue]

theorem Canonical.dbTailWrite {c k : Nat} {v : W32} (h : Canonical s) : Canonical (dbTailWrite c k v s) :=
    .ite h (.ite h.modQueue.queueGo h.modQueue)

theorem Canonical.dbStop {c k : Nat} (h : Canonical s) : Canonical (dbStop c k s) := .ite h.stopQueue h

theorem Canonical.dbRestart {c k : Nat} (h : Canonical s) : Canonical (dbRestart c k s) := .ite h h.modQueue.queueGo

theorem Canonical.entryFetched {c k : Nat} {r : ReadResult} (h : Canonical s) : Canonical (entryFetched c k r s) := by
  unfold Machine.entryFetched
  extract_lets +onlyGivenNames q
  refine .ite h ?_
  split
  exacts [(Canonical.ite h h.cacheLine).modQueue, h.stopQueue]

theorem Canonical.entryStart {e : Nat} (h : Canonical s) : Canonical (entryStart e s) := by
  unfold Machine.entryStart
  refine .ite h ?_
  extract_lets +onlyGivenNames last
  split
  · exact h
  · extract_lets +onlyGivenNames s1
    split
    · exact .ite h.frame.setOutcome.ctxCount h.frame.setOutcome
    · refine .ite ((h.frame.foldl fun ha => ha.unidle).modEntry) ?_
      extract_lets +onlyGivenNames s2
      have hs2 : Canonical s2 := h.frame.modEntry
      refine .ite ?_ hs2
      split
      exacts [.ite hs2 hs2.frame, hs2]

theorem Canonical.waitDeadlineExpired {c k : Nat} (h : Canonical s) : Canonical (waitDeadlineExpired c k s) := by
  unfold Machine.waitDeadlineExpired
  split
  exacts [.ite h.setOutcome.ctxCount h, h]

theorem Canonical.engineAdd {c k : Nat} {t : SyncEnt} {v : W32} (h : Canonical s0) : Canonical (s0.engineAdd c k t v).2 := by
  unfold State.engineAdd
  extract_lets +onlyGivenNames pairs _ s s1
  have hs : Canonical s := .ite h h.frame
  have hs1 : Canonical s1 := hs.syncAdd
  split
  exacts [hs1, hs.logErr]

theorem Canonical.entryComplete {c k : Nat} {n : W32} {writeOk : Bool} (h : Canonical s) : Canonical (entryComplete c k n writeOk s) := by
  unfold Machine.entryComplete
  extract_lets +onlyGivenNames q
  split
  · exact h
  · split
    · exact h
    · refine .ite h ?_
      extract_lets +onlyGivenNames r s1 rec' slot done
      have hr : Canonical r.2 := .iteSnd (by split; exacts [.iteSnd h.ctxCount h.engineAdd, h]) h
      have hdone : Canonical done := hr.modEntry.modQueue
      exact .ite hdone.stopQueue (.ite ((Canonical.ite hdone.poolWrite hdone.hostPut).msix) (.ite hdone.poolWrite hdone.hostPut))

/-! ### Bar -/

theorem Canonical.pressGo (h : Canonical s) : Canonical (pressGo s) := .ite h (.ite (h.hostCmd fun h => h) h.frame)

theorem Canonical.mailboxWrite {r v m : Nat} (h : Canonical s) : Canonical (mailboxWrite r v m s) := by
  unfold Machine.mailboxWrite
  extract_lets +onlyGivenNames w
  refine .ite (.ite h.pressGo h) (.ite (.ite h.frame h.frame) (.ite (.ite h.mbDoneClear h) (.ite ?_ (.ite h.intCauseClear (.ite h.intMaskWrite h)))))
  extract_lets s1
  have hs1 : Canonical s1 := .ite h.lockAcquireHost (.ite h.lockReleaseHost h)
  exact .ite hs1.preemptedClear hs1

theorem Canonical.doorbellWrite {c k r v m : Nat} (h : Canonical s) : Canonical (doorbellWrite c k r v m s) :=
    .ite h.dbTailWrite (.ite (.ite h.dbStop (.ite h.dbRestart h)) h)

theorem Canonical.areaWrite {off : Nat} {b : List Byte} (h : Canonical s) : Canonical (areaWrite off b s) := by
  unfold Machine.areaWrite
  have hp : Canonical { s with host := { s.host with
      payload := s.host.payload.write (off - 0x2000) b, spoiled := s.host.spoiled || s.host.busy } } :=
    h.withHost (Mem.wf_write _ b h.payload_wf) h.msixTable_wf
  have hm : Canonical { s with host := { s.host with msixTable := s.host.msixTable.write (off - 0x100000) b } } :=
    h.withHost h.payload_wf (Mem.wf_write _ b h.msixTable_wf)
  exact .ite (h.foldl fun ha => ha.mailboxWrite) (.ite hp (.ite (h.foldl fun ha => ha.doorbellWrite) (.ite hm.msixUnmasked h.frame)))

theorem Canonical.registerWrite {off : Nat} {b : List Byte} (h : Canonical s) : Canonical (registerWrite off b s) :=
    .ite h (h.foldl fun ha => .ite ha.areaWrite ha)

/-! ### Ledger -/

theorem Canonical.recordMismatch {sh : Nat} {d : Dwell} {m : Mismatch} (h : Canonical s) : Canonical (s.recordMismatch sh d m) := by
  unfold State.recordMismatch
  extract_lets x lcol tpc spc c y bin now old tc sc watch flags r rec' kept _ s1 s2 s3 s4 s5
  have hs2 : Canonical s2 := h.frame.logErr
  have hs3 : Canonical s3 := hs2.modSheet
  have hs4 : Canonical s4 := .ite hs3.sheetCount hs3
  have hs5 : Canonical s5 := .ite hs4.condemn hs4
  exact .ite hs5.condemn hs5

/-! ### Moves -/

theorem Canonical.beginPrologue {c : Nat} {g : Prog} (h : Canonical s) : Canonical (s.beginPrologue c g) := .ite h.modCtx h.writePrologue.modCtx

theorem Canonical.startRun {c : Nat} {g : Prog} {r : RunRec} (h : Canonical s) : Canonical (s.startRun c g r) := by
  unfold State.startRun
  extract_lets +onlyGivenNames x s1 s2 s3
  have hs1 : Canonical s1 := h.foldl fun ha => .ite ha ha.wakePt
  have hs2 : Canonical s2 := hs1.foldl fun ha => ha.modPt
  have hs3 : Canonical s3 := hs2.modCtx
  exact .ite (.ite hs3.alignSprog.beginPrologue.modCtx hs3.alignSprog) hs3.modCtx.alignSprog.beginPrologue

theorem Canonical.run {c q : Nat} {n : W32} (h : Canonical s) : Canonical (run c q n s) := by
  unfold Machine.run
  split
  · exact h
  · extract_lets x lim
    refine .ite h ?_
    split
    · refine .ite h.setOutcome ?_
      split
      exacts [h.setOutcome, .ite h.setOutcome h.startRun]
    · exact h.setOutcome

theorem Canonical.stop {c q : Nat} {n : W32} (h : Canonical s) : Canonical (stop c q n s) := by
  unfold Machine.stop
  split
  exacts [h, .ite h.setOutcome (.ite h h.modCtx)]

theorem Canonical.reconfigure {c : Nat} {g : Prog} {l : List TileRec} (h : Canonical s) : Canonical (s.reconfigure c g l) := by
  unfold State.reconfigure
  extract_lets +onlyGivenNames gen s1 named s2
  have hs1 : Canonical s1 := h.foldl fun ha => by split; exacts [ha.modTile, ha]
  have hs2 : Canonical s2 := hs1.writeImages.writePrologue
  exact hs2.modCtx

theorem Canonical.reconfig {c q : Nat} {n : W32} (h : Canonical s) : Canonical (reconfig c q n s) := by
  unfold Machine.reconfig
  split
  · exact h
  · extract_lets x
    refine .ite h.setOutcome ?_
    split
    · exact h.setOutcome
    · split
      exacts [h.setOutcome, .ite h (.ite h.setOutcome h.reconfigure.setOutcome)]

theorem Canonical.wakeLoc {c kind a n : Nat} (h : Canonical s) : Canonical (s.wakeLoc c kind a n) := by
  unfold State.wakeLoc
  split
  · exact h.wakeChans
  · split
    exacts [h.unidle, h]
  · exact h

theorem Canonical.locWrite {c kind a : Nat} {b : List Byte} (h : Canonical s) : Canonical (s.locWrite c kind a b) := by
  unfold State.locWrite
  refine .ite h.hostPut (.ite h.ctxWrite (.ite ?_ (h.withReel (Mem.wf_write _ b h.reelData_wf))))
  split
  exacts [h.wrote.modTile.foldl fun ha => ha.markDirty, h]

theorem Canonical.memError {ch group : Nat} {tag : Bool} (h : Canonical s) : Canonical (s.memError ch group tag) :=
    .ite h.modChan.breakChan h.modChan

theorem Canonical.engineEcc {ch off : Nat} {ecc : Ecc} (h : Canonical s) : Canonical (s.engineEcc ch off ecc) := by
  unfold State.engineEcc
  split
  exacts [h, h.modChan, h.logErr.memError, h.logErr.memError]

theorem Canonical.readRange {c a n : Nat} (h : Canonical s) : Canonical (s.readRange c a n).1 := by
  unfold State.readRange
  extract_lets l s1
  have hs1 : Canonical s1 := h.foldl fun ha => ha.engineEcc
  split
  exacts [hs1.engineEcc, hs1]

theorem Canonical.moveData {c : Nat} {e : Entry} {host : List Byte} (h : Canonical s) : Canonical (s.moveData c e host).2 := by
  unfold State.moveData
  extract_lets sk dk src dst len s1 r
  have hs1 : Canonical s1 := h.wakeLoc.wakeLoc
  have hr : Canonical r.1 := .iteFst hs1.readRange hs1
  exact .iteSnd hr.locWrite hr

theorem Canonical.copy {c q : Nat} {n : W32} {src : ReadResult} {flips : List DramFlip} (h : Canonical s0) : Canonical (copy c q n src flips s0) := by
  unfold Machine.copy
  extract_lets +onlyGivenNames s k
  split
  · exact h.decay
  · extract_lets +onlyGivenNames sk dk a b len fail
    refine .ite h.decay.setOutcome (.ite h.decay.setOutcome (.ite h.decay.setOutcome (.ite h.decay.setOutcome ?_)))
    split
    · exact h.decay.setOutcome
    · refine .ite h.decay ?_
      extract_lets +onlyGivenNames host
      clear_value host
      cases host
      · exact h.decay.setOutcome
      · exact .ite h.decay (.ite h.decay.frame (.ite h.decay.moveData.frame h.decay.moveData.setOutcome))

theorem Canonical.feed {c q : Nat} {n : W32} {src : ReadResult} (h : Canonical s) : Canonical (feed c q n src s) := by
  unfold Machine.feed
  extract_lets +onlyGivenNames k
  split
  · exact h
  · extract_lets b len
    refine .ite h.setOutcome (.ite h.setOutcome (.ite h.setOutcome ?_))
    split
    · exact h.setOutcome
    · refine .ite h ?_
      split
      exacts [.ite h h.wakeLoc.locWrite.modEntry, h.setOutcome]

theorem Canonical.feedDataReached {c q : Nat} {n : W32} (h : Canonical s) : Canonical (feedDataReached c q n s) := by
  unfold Machine.feedDataReached
  extract_lets k
  split
  exacts [h, .ite h h.modEntry.modQueue]

theorem Canonical.fillMem {c q : Nat} {n : W32} (h : Canonical s) : Canonical (fillMem c q n s) := by
  unfold Machine.fillMem
  extract_lets +onlyGivenNames k
  split
  · exact h
  · extract_lets +onlyGivenNames dk b len
    refine .ite h.setOutcome (.ite h.setOutcome ?_)
    split
    · exact h.setOutcome
    · exact .ite h (.ite h.wakeLoc.locWrite.frame h.wakeLoc.locWrite.setOutcome)

/-! ### Links -/

theorem Canonical.fly {tile port left : Nat} {w : Link} (h : Canonical s) : Canonical (s.fly tile port left w) := h.frame

/-- A word that fails is logged; unless its sender was poisoned its path is kept, and a tile that two paths share is condemned. -/
theorem Canonical.wordFault {c i cls checkpoint port : Nat} {w : Link} {path : List Nat} (h : Canonical s) :
    Canonical (s.wordFault c i cls checkpoint port w path) := by
  unfold State.wordFault
  extract_lets +onlyGivenNames sec s1 s2
  have hs2 : Canonical s2 := h.modTile.logErr
  clear_value s2
  refine .ite hs2 ?_
  conv => arg 1; whnf -- what it does with the path
  split
  exacts [hs2.frame, hs2.frame.logErr.condemn]

theorem Canonical.breach {c : Nat} {v : Violation} (h : Canonical s) : Canonical (s.breach c v) := h.modCtx

theorem Canonical.violate {c : Nat} {l : List Violation} (h : Canonical s0) : Canonical (s0.violate c l) := by
  unfold State.violate
  extract_lets +onlyGivenNames s
  split
  exacts [h, .ite h.modCtx.logErr h.modCtx.logErr.modCtx.faultCtx.modCtx]

/-! ### Reads -/

theorem Canonical.accumulate {c r el : Nat} {d : BitVec 512} (h : Canonical s) : Canonical (s.accumulate c r el d) := .ite h h.modCtx

theorem Canonical.landWrite {w : WriteRec} (h : Canonical s) : Canonical (s.landWrite w) := by
  unfold State.landWrite
  extract_lets s1
  have hs1 : Canonical s1 := by
    unfold s1
    split
    · exact h
    · next d _ =>
      have hw := ((h.withDram (Mem.wf_write (mpa w.ch w.off) (dataBytes d) h.1)).defined (c := w.ctx) (a := w.addr) (n := 64)).modChan
        (p := w.ch) (f := fun x => x.rewrite w.off 64)
      split
      exacts [hw.accumulate, hw]
  exact .ite hs1.modChan hs1

theorem Canonical.landWrites (h : Canonical s) : Canonical s.landWrites := .ite h (h.frame.foldl fun ha => ha.landWrite)

theorem Canonical.programUe {c : Nat} {r : ReadRec} {tag : Bool} (h : Canonical s) : Canonical (s.programUe c r tag) :=
    .ite h.logErr.memError.modCtx.logErr.faultCtx h.logErr.memError.modCtx

theorem Canonical.deliverRead {c : Nat} {r : ReadRec} (h : Canonical s) : Canonical (s.deliverRead c r) := by
  unfold State.deliverRead
  split
  · extract_lets +onlyGivenNames o bad data s2 _ _ s3
    have hs2 : Canonical s2 := .ite h.modChan h
    have hs3 : Canonical s3 := by unfold s3; split; exacts [hs2, .ite hs2.breach hs2.modTile]
    exact .ite hs3.programUe hs3
  · exact h

theorem Canonical.dueReads {c : Nat} (h : Canonical s) : Canonical (s.dueReads c) := .ite (h.modCtx.foldl fun ha => ha.deliverRead) h

theorem Canonical.emitRead {c i : Nat} (h : Canonical s) : Canonical (s.emitRead c i) := by
  unfold State.emitRead
  extract_lets +onlyGivenNames v t st
  split
  exacts [h, .ite h h.modTile.fly]

/-! ### Restore -/

theorem Canonical.moveCols {old : State} {whole : Bool} {sh : Nat} (h : Canonical s) : Canonical (s.moveCols old whole sh) := by
  unfold State.moveCols
  extract_lets +onlyGivenNames m0 m1
  refine .ite h ?_
  extract_lets cells s1
  have hs1 : Canonical s1 := h.foldl fun ha => by split; exacts [.ite ha ha.modTile, ha]
  exact hs1.foldl fun ha => by split; exacts [.ite ha ha.wrote.modTile, ha]

theorem Canonical.undefScratch {c : Nat} {g : Prog} (h : Canonical s) : Canonical (s.undefScratch c g) := by
  unfold State.undefScratch
  split
  exacts [h, (h.undefine.foldl fun ha => ha.defined).frame]

theorem Canonical.restoreCommit {c : Nat} {g : Prog} (h : Canonical s) : Canonical (s.restoreCommit c g) := by
  unfold State.restoreCommit
  extract_lets x shs s1 s2 s3 s4 s5 empty s6
  have hs2 : Canonical s2 := h.modCtx.foldl fun ha => ha.modSheet
  have hs4 : Canonical s4 := hs2.frame.installPoints
  have hs5 : Canonical s5 := hs4.foldl fun ha => ha.modSheet.moveCols
  have hs6 : Canonical s6 := hs5.foldl fun ha => ha.modTile
  exact (hs6.foldl fun ha => by split; exacts [ha.modTile, ha]).undefScratch

theorem Canonical.abandonStep {c : Nat} {g : Prog} {reason status : Nat} (h : Canonical s) : Canonical (s.abandonStep c g reason status) :=
    h.endRun.restoreCommit.modCtx

theorem Canonical.hotAbandon {c : Nat} (h : Canonical s) : Canonical (s.hotAbandon c) := by
  unfold State.hotAbandon
  extract_lets +onlyGivenNames x
  split
  · extract_lets s1 s2
    have hs1 : Canonical s1 := h.abandonStep.modCtx
    have hs2 : Canonical s2 := hs1.foldl fun ha => ha.modPt
    exact .ite hs2 (hs2.foldl fun ha => ha.selfRefresh)
  · exact h

/-! ### Wire -/

theorem Canonical.sampleWaits {c : Nat} (h : Canonical s) : Canonical (s.sampleWaits c) := by
  unfold State.sampleWaits
  extract_lets +onlyGivenNames x
  split
  exacts [h, .ite h h.modCtx]

theorem Canonical.passWaits {c : Nat} {g : Prog} (h : Canonical s) : Canonical (s.passWaits c g) := (h.foldl fun ha => .ite ha.modQueue ha).modCtx

theorem Canonical.arriveWait {c : Nat} (h : Canonical s) : Canonical (s.arriveWait c) := by
  unfold State.arriveWait
  extract_lets x
  split
  · exact h
  · split
    exacts [h, h.modCtx]

theorem Canonical.arrive {c : Nat} (h : Canonical s) : Canonical (s.arrive c) := by
  unfold State.arrive
  split
  exacts [h, .ite h.modCtx h.arriveWait]

theorem Canonical.flit {i port : Nat} {w : Link} (h : Canonical s) : Canonical (s.flit i port w) := .ite h.modTile h

theorem Canonical.parErr {i : Nat} (h : Canonical s) : Canonical (s.parErr i) := h.modTile

theorem Canonical.countFlits {c : Nat} {evs : List WireEvent} {outs : List TileCycle} (h : Canonical s) : Canonical (s.countFlits c evs outs) :=
    h.foldl fun ha => ha.flit

theorem Canonical.deliver {c : Nat} {d : TileCycle × Link × List Nat × Nat} (h : Canonical s) : Canonical (s.deliver c d).1 := by
  unfold State.deliver
  extract_lets +onlyGivenNames o w i
  split
  · exact h.wordFault
  · extract_lets +onlyGivenNames t q
    refine .iteFst h.modTile ?_
    split
    exacts [h, h.modTile]

theorem Canonical.logSram {c : Nat} {o : TileCycle} (h : Canonical s) : Canonical (s.logSram c o) :=
    (Canonical.ite h h.modTile).foldl fun ha => ha.logErr

theorem Canonical.cycleCtx {c : Nat} {evs : List WireEvent} (h : Canonical s) : Canonical (s.cycleCtx c evs) := by
  unfold State.cycleCtx
  extract_lets held outs r s1 s2 s3 s4 s5 d
  have hs1 : Canonical s1 := h.foldl fun ha => ha.modTile
  have hs2 : Canonical s2 := hs1.countFlits
  have hs4 : Canonical s4 := hs2.frame.foldl fun ha => (ha.foldl fun ha1 => ha1.markDirty).logSram
  have hs5 : Canonical s5 := hs4.foldl fun ha => ha.modTile.logErr
  have hd : Canonical d.1 := hs5.foldlFst fun ha => ha.deliver
  exact hd.foldl fun ha => ha.breach

theorem Canonical.mirror {sh : Nat} {d : Dwell} (h : Canonical s) : Canonical (s.mirror sh d) := by
  unfold State.mirror
  split
  exacts [h.foldl fun ha => ha.modTile, h]

theorem Canonical.shadowCycle {evs : List WireEvent} {sh : Nat} (h : Canonical s) : Canonical (s.shadowCycle evs sh) := by
  unfold State.shadowCycle
  split
  · exact h
  · refine .ite h.mirror ?_
    extract_lets +onlyGivenNames s0 s1
    have hs1 : Canonical s1 := h.mirror.sheetCount
    split
    exacts [hs1, .ite hs1.sheetCount hs1.sheetCount.recordMismatch]

theorem Canonical.couchFault {i port : Nat} {w : Link} (h : Canonical s) : Canonical (s.couchFault i port w) := h.parErr.logErr

theorem Canonical.catchupCycle {evs : List WireEvent} {sh : Nat} (h : Canonical s) : Canonical (s.catchupCycle evs sh) := by
  unfold State.catchupCycle
  split
  · refine .ite h ?_
    split
    exacts [h, h.couchFault.modSheet]
  · exact h

theorem Canonical.stallTile {c : Nat} {p : Nat × Nat × Nat} (h : Canonical s) : Canonical (s.stallTile c p) := h.modTile

theorem Canonical.frameStart {c : Nat} (h : Canonical s) : Canonical (s.frameStart c) := by
  unfold State.frameStart
  extract_lets x f s1 l t byL byT s2 proc
  have hs1 : Canonical s1 := .ite h.sampleWaits h
  have hs2 : Canonical s2 := .ite hs1 (hs1.foldl fun ha => ha.modPt)
  exact .ite (hs2.foldl fun ha => ha.stallTile) hs2

theorem Canonical.refed {c : Nat} (h : Canonical s) : Canonical (s.refed c) := by
  unfold State.refed
  split
  exacts [.ite h h.beginPrologue, h]

theorem Canonical.releaseDue {c : Nat} (h : Canonical s) : Canonical (s.releaseDue c) := by
  unfold State.releaseDue
  split
  exacts [.ite (((h.foldl fun ha => ha.modPt).modCtx).arriveWait) h, h]

theorem Canonical.endRunOn {c : Nat} (h : Canonical s) : Canonical (s.endRunOn c) := .ite h h.modCtx

theorem Canonical.voteHold {c : Nat} (h : Canonical s) : Canonical (s.voteHold c) := .ite h.modCtx h

theorem Canonical.ctxCycle {evs : List WireEvent} {c : Nat} (h : Canonical s) : Canonical (s.ctxCycle evs c).1 := by
  unfold State.ctxCycle
  extract_lets +onlyGivenNames s1 s2 runs
  have hs1 : Canonical s1 := h.refed.releaseDue
  have hs2 : Canonical s2 := .ite hs1.endRunOn.hotAbandon.voteHold.frameStart hs1
  clear_value s2
  refine .iteFst ?_ hs2
  dsimp only
  exact (hs2.dueReads.foldl fun ha => ha.emitRead).cycleCtx

theorem Canonical.advance {c : Nat} {ran : List Nat} (h : Canonical s) : Canonical (s.advance c ran) := by
  unfold State.advance
  extract_lets runs s1
  have hs1 : Canonical s1 := .ite (h.foldl fun ha => ha.modPt) h
  exact .ite hs1 (hs1.modCtx.foldl fun ha => ha.modSheet)

theorem Canonical.arriveAfter {c : Nat} {ran : List Nat} (h : Canonical s) : Canonical (s.arriveAfter c ran) := .ite h.arrive h

theorem Canonical.keepBusy (h : Canonical s) : Canonical s.keepBusy := h.foldl fun ha => .ite ha.modPt ha

theorem Canonical.routeCycle {evs : List WireEvent} (h : Canonical s) : Canonical (routeCycle evs s) := by
  unfold Machine.routeCycle
  extract_lets cs r s2 s3 s4 _ s5
  have hr : Canonical r.1 := h.foldlFst fun ha => ha.ctxCycle
  have hs2 : Canonical s2 := hr.foldl fun ha => ha.shadowCycle.catchupCycle
  have hs3 : Canonical s3 := hs2.foldl fun ha => ha.violate
  have hs4 : Canonical s4 := hs3.foldl fun ha => ha.advance
  have hs5 : Canonical s5 := hs4.frame
  exact (hs5.landWrites.foldl fun ha => ha.arriveAfter).keepBusy

theorem Canonical.issueEntryAdvance {i : Nat} (h : Canonical s) : Canonical (issueEntryAdvance i s) := by
  unfold Machine.issueEntryAdvance
  split
  exacts [h, .ite h (.ite h h.modTile)]

theorem Canonical.foldSlotSwitch {i : Nat} (h : Canonical s) : Canonical (foldSlotSwitch i s) := by
  unfold Machine.foldSlotSwitch
  split
  · exact h
  · extract_lets +onlyGivenNames x v t st
    refine .ite h ?_
    extract_lets +onlyGivenNames ctl
    refine .ite h ?_
    extract_lets +onlyGivenNames mark
    split
    exacts [h.modTile, h.modTile.breach]

theorem Canonical.readBufferEmit {i : Nat} (h : Canonical s) : Canonical (readBufferEmit i s) := by
  unfold Machine.readBufferEmit
  split
  exacts [h, h.emitRead]

theorem Canonical.telemetrySnapshot (h : Canonical s) : Canonical (telemetrySnapshot s) := .ite h (h.frame.foldl fun ha => ha.modTile)

/-! ### Commit -/

theorem Canonical.hangDump {pts : List Nat} (h : Canonical s) : Canonical (s.hangDump pts) := .ite h.startDump h

theorem Canonical.hang {c kind : Nat} {pts : List Nat} (h : Canonical s) : Canonical (s.hang c kind pts) :=
    ((h.logErr.foldl fun ha => ha.modPt).faultCtx).hangDump

theorem Canonical.wmDiffers {sh : Nat} {m : Mismatch} (h : Canonical s) : Canonical (s.wmDiffers sh m) := by
  unfold State.wmDiffers
  split
  exacts [h, .ite h.sheetCount h.sheetCount.recordMismatch]

theorem Canonical.programAdds {c : Nat} {g : Prog} (h : Canonical s) : Canonical (s.programAdds c g) := by
  unfold State.programAdds
  extract_lets +onlyGivenNames x
  exact h.foldl fun ha => .ite ha (by split; exacts [.ite ha.ctxCount (.ite ha.modCtx ha.syncAdd.ctxCount), ha])

theorem Canonical.pairViolation {adds : State} {c cause d : Nat} {m : SyncMapEnt} (h : Canonical s) : Canonical (s.pairViolation adds c cause d m) :=
    h.logErr.modCtx.faultCtx

theorem Canonical.localDecision {c : Nat} {g : Prog} (h : Canonical s) : Canonical (s.localDecision c g).1 := by
  unfold State.localDecision
  extract_lets +onlyGivenNames x sheets _ s1 s2
  have hs1 : Canonical s1 := by unfold s1; split; exacts [h.logErr, h]
  have hs2 : Canonical s2 := hs1.violate
  refine .iteFst hs2 (.iteFst hs2 ?_)
  extract_lets adds
  have hadds : Canonical adds := hs2.programAdds
  split
  · exact hs2.pairViolation
  · exact .iteFst hs2.pairViolation hs2.logErr.modCtx
  · split
    exacts [hs2.logErr, hs2]

theorem Canonical.leavePoint {c : Nat} (h : Canonical s) : Canonical (s.leavePoint c) := by
  unfold State.leavePoint
  extract_lets x
  refine .ite h.modCtx (.ite h.modCtx (.ite h.modCtx (.ite h.modCtx ?_)))
  split
  exacts [h.beginPrologue.modCtx, h.modCtx]

theorem Canonical.beginCatchup {sh : Nat} (h : Canonical s) : Canonical (s.beginCatchup sh) := by
  unfold State.beginCatchup
  extract_lets +onlyGivenNames x
  split
  exacts [.ite h (.ite h.sheetCount h.modSheet), h]

theorem Canonical.refreshAtCommit {c : Nat} (h : Canonical s) : Canonical (s.refreshAtCommit c) := by
  unfold State.refreshAtCommit
  split
  · exact h
  · exact .ite ((Canonical.ite h.ctxCount h).modCtx) (.ite h (.ite h.ctxCount h.ctxWrite.frame.modJob))

theorem Canonical.recordFeeds {c k : Nat} (h : Canonical s) : Canonical (s.recordFeeds c k) := (h.foldl fun ha => ha.setOutcome).modQueue

theorem Canonical.endArmed {c : Nat} (h : Canonical s) : Canonical (s.endArmed c) := (h.foldl fun ha => ha.foldl fun ha1 => ha1.setOutcome).modCtx

theorem Canonical.clearStale {c : Nat} (h : Canonical s) : Canonical (s.clearStale c) := h.foldl fun ha => ha.modTile

theorem Canonical.commitRecords {c : Nat} {g : Prog} (h : Canonical s) : Canonical (s.commitRecords c g) :=
    ((h.foldl fun ha => ha.modTile).foldl fun ha => ha.recordFeeds).modCtx

theorem Canonical.commitStep {c : Nat} {g : Prog} (h : Canonical s) : Canonical (s.commitStep c g) := by
  unfold State.commitStep
  extract_lets +onlyGivenNames adds
  have hadds : Canonical adds := h.programAdds
  split
  · exact h.pairViolation
  · extract_lets s1 x s2 s3 s4 reload s5 s6 s7 s8 s9 s10
    have hs1 : Canonical s1 := hadds.commitRecords.endArmed
    have hs2 : Canonical s2 := .ite hs1.calRecord hs1
    have hs3 : Canonical s3 := hs2.clearStale
    have hs4 : Canonical s4 := hs3.modCtx.perfAtCommit
    have hs5 : Canonical s5 := hs4.installPoints
    have hs6 : Canonical s6 := hs5.foldl fun ha => ha.moveCols.modSheet
    have hs7 : Canonical s7 := hs6.modCtx
    have hs8 : Canonical s8 := .ite hs7 (hs7.foldl fun ha => ha.beginCatchup)
    have hs9 : Canonical s9 := hs8.refreshAtCommit
    have hs10 : Canonical s10 := by unfold s10; split; exacts [(Canonical.ite (hs9.endRun.foldl fun ha => ha.modPt) hs9.endRun).modCtx, hs9]
    exact hs10.modCtx.leavePoint

theorem Canonical.rollbackStep {c : Nat} {g : Prog} {replica : Bool} (h : Canonical s) : Canonical (s.rollbackStep c g replica) := by
  unfold State.rollbackStep
  extract_lets +onlyGivenNames x
  exact .ite h.logErr.faultCtx (.ite h.faultCtx (((h.ctxCount.modCtx.calRecord.restoreCommit.foldl fun ha => ha.modSheet).modCtx).beginPrologue))

/-! ### Votes -/

theorem Canonical.protect {id gen step : Nat} (h : Canonical s) : Canonical (s.protect id gen step) := by
  unfold State.protect
  split
  exacts [h, (h.modJob.foldl fun ha => ha.setOutcome).modCtx]

theorem Canonical.voteRollback {j : Job} {g : Prog} (h : Canonical s) : Canonical (s.voteRollback j g) := (Canonical.ite h.logErr h).rollbackStep

theorem Canonical.endSetup {id : Nat} (h : Canonical s) : Canonical (s.endSetup id) := by
  unfold State.endSetup
  split
  exacts [h, .ite h h.finishOp?.modJob]

theorem Canonical.waited {c since : Nat} (h : Canonical s) : Canonical (s.waited c since) := h.modCtx

theorem Canonical.perStep {id code gen step : Nat} (h : Canonical s) : Canonical (s.perStep id code gen step) := by
  unfold State.perStep
  split
  · exact h
  · split
    · extract_lets body s1 s2 s3
      have hs1 : Canonical s1 := h.memberSendAll
      have hs2 : Canonical s2 := hs1.modJob.protect
      have hs3 : Canonical s3 := hs2.ctxCount.ctxCount.waited.modCtx
      exact (Canonical.ite hs3.commitStep hs3.ctxCount.voteRollback).endSetup
    · exact .ite h h.memberSendAll.modJob.protect.endSetup
    · exact h

theorem Canonical.tryVote {id : Nat} (h : Canonical s) : Canonical (s.tryVote id) := by
  unfold State.tryVote
  split
  · exact h
  · split
    · exact h
    · refine .ite h ?_
      extract_lets v
      split
      exacts [h.memberSend.modJob, h.perStep]

theorem Canonical.rollOrCommit {c : Nat} {g : Prog} {good : Bool} (h : Canonical s) : Canonical (s.rollOrCommit c g good) :=
    .ite h.commitStep h.rollbackStep

theorem Canonical.afterReplica {c : Nat} {g : Prog} {good : Bool} (h : Canonical s) : Canonical (s.afterReplica c g good) := by
  unfold State.afterReplica
  split
  exacts [h.modCtx.modJob.tryVote, h.rollOrCommit]

theorem Canonical.afterLocal {c : Nat} {g : Prog} {good : Bool} (h : Canonical s) : Canonical (s.afterLocal c g good) :=
    .ite h.afterReplica h.emit.modCtx

/-! ### Calender -/

theorem Canonical.endWait {c : Nat} (h : Canonical s) : Canonical (s.endWait c) := by
  unfold State.endWait
  extract_lets +onlyGivenNames x
  split
  exacts [.ite h.passWaits.modCtx (.ite h.ctxCount.faultCtx.frame h), h]

theorem Canonical.externalWaitPoint {c : Nat} (h : Canonical s) : Canonical (externalWaitPoint c s) := h.endWait

theorem Canonical.holdRelease {c : Nat} (h : Canonical s) : Canonical (holdRelease c s) := .ite h.endWait h

theorem Canonical.programWaitDeadline {c : Nat} (h : Canonical s) : Canonical (programWaitDeadline c s) := by
  unfold Machine.programWaitDeadline
  extract_lets x
  split
  exacts [.ite h.ctxCount.hang h, h]

theorem Canonical.hung {p : Nat} (h : Canonical s) : Canonical (hung p s) := by
  unfold Machine.hung
  split
  · exact h
  · split
    exacts [h, .ite h.hang h]

theorem Canonical.calenderOverdue {c : Nat} (h : Canonical s) : Canonical (calenderOverdue c s) := .ite h.logErr.ctxCount.modCtx h

theorem Canonical.calEvents {c : Nat} {evs : List CalEvent} (h : Canonical s) : Canonical (s.calEvents c evs) := by
  unfold State.calEvents
  extract_lets held
  exact h.foldl fun ha => by split; exacts [.ite ha.modSheet ha, .ite ha.wmDiffers ha]

theorem Canonical.calenderPoint {c : Nat} {evs : List CalEvent} (h : Canonical s) : Canonical (calenderPoint c evs s) := by
  unfold Machine.calenderPoint
  extract_lets +onlyGivenNames x
  split
  · refine .ite h ?_
    extract_lets r
    have hr : Canonical r.1 := h.calEvents.localDecision
    split
    exacts [hr, hr.afterLocal]
  · exact h

theorem Canonical.countCouch {sh : Nat} {d : Dwell} {pc : Nat} {x : Sheet} (h : Canonical s) : Canonical (s.countCouch sh d pc x) :=
    h.foldl fun ha => ha.modTile

theorem Canonical.afterCatchup {sh at' : Nat} (h : Canonical s) : Canonical (s.afterCatchup sh at') := by
  unfold State.afterCatchup
  split
  · exact h
  · split
    exacts [h.sheetCount.leavePoint, h]

theorem Canonical.catchupDone {sh : Nat} (h : Canonical s) : Canonical (catchupDone sh s) := by
  unfold Machine.catchupDone
  split
  · exact h
  · split
    · exact h
    · refine .ite h (.ite h.modSheet.afterCatchup ?_)
      extract_lets pcs s1 s2
      have hs1 : Canonical s1 := h.foldl fun ha => ha.foldl fun ha1 => .ite ha1.modTile ha1
      have hs2 : Canonical s2 := hs1.modSheet.sheetCount
      exact ((hs2.foldl fun ha => ha.countCouch).mirror).afterCatchup

theorem Canonical.prologueEnd {c : Nat} (h : Canonical s) : Canonical (prologueEnd c s) := by
  unfold Machine.prologueEnd
  extract_lets +onlyGivenNames x
  split
  · exact h
  · refine .ite h ?_
    extract_lets shs s1 s2 s2' s3
    have hs1 : Canonical s1 := .ite (h.foldl fun ha => ha.modSheet) h
    have hs2 : Canonical s2 := hs1.foldl fun ha => by split; exacts [ha, ha.foldl fun ha1 => ha1.foldl fun ha2 => .ite ha2.modTile ha2]
    have hs2' : Canonical s2' := .ite hs2.clearStale hs2
    have hs3 : Canonical s3 := hs2'.foldl fun ha => ha.modTile
    exact hs3.modCtx

theorem Canonical.prologueOverrun {c : Nat} (h : Canonical s) : Canonical (prologueOverrun c s) := by
  unfold Machine.prologueOverrun
  split
  exacts [.ite h.logErr.faultCtx h, h]

/-! ### Plane -/

theorem Canonical.slotDone (h : Canonical s) : Canonical s.slotDone := h.frame

theorem Canonical.cellFault {i : Nat} {w : Link} (h : Canonical s) : Canonical (s.cellFault i w) := h.modTile.parErr.logErr

theorem Canonical.moveCell {evs : List WireEvent} {m : CellMove} (h : Canonical s) : Canonical (s.moveCell evs m) := by
  unfold State.moveCell
  extract_lets +onlyGivenNames s1
  split
  exacts [h.modTile.modTile.flit, .ite h.modTile.modTile h.modTile.cellFault]

theorem Canonical.sendCell {before : State} {x : FwCell} (h : Canonical s) : Canonical (before.sendCell s x) := .ite h h.modTile

theorem Canonical.messagePlaneSlot {evs : List WireEvent} {cells : List FwCell} (h : Canonical s) : Canonical (messagePlaneSlot evs cells s) :=
    .ite h (((h.foldl fun ha => ha.moveCell).foldl fun ha => ha.sendCell).slotDone)

theorem Canonical.couchSlot {evs : List WireEvent} {sh : Nat} (h : Canonical s) : Canonical (s.couchSlot evs sh) := by
  unfold State.couchSlot
  extract_lets +onlyGivenNames x
  split
  · refine .ite h ?_
    extract_lets rows came s0
    have hs0 : Canonical s0 := h.foldl fun ha => ha.flit
    split
    exacts [hs0.couchFault.modSheet, .ite hs0.modSheet hs0.modSheet]
  · exact h

theorem Canonical.snapArrived {i : Nat} {x : Tlm} {at' : Nat} (h : Canonical s) : Canonical (s.snapArrived i x at') := h.modTile.frame

theorem Canonical.tlmSlot {evs : List WireEvent} {sh pc : Nat} (h : Canonical s) : Canonical (s.tlmSlot evs sh pc) := by
  unfold State.tlmSlot
  split
  · exact h
  · extract_lets i mask s1
    have hs1 : Canonical s1 := h.foldl fun ha => ha.flit
    refine .ite hs1.modTile.parErr ?_
    split
    exacts [hs1, .ite hs1.modTile hs1.snapArrived]

theorem Canonical.testSlot {evs : List WireEvent} {sh : Nat} (h : Canonical s) : Canonical (s.testSlot evs sh) := by
  unfold State.testSlot
  extract_lets +onlyGivenNames x
  split
  · extract_lets +onlyGivenNames phase1
    refine .ite h ?_
    extract_lets came s1
    have hs1 : Canonical s1 := h.foldl fun ha => ha.flit
    split
    exacts [hs1.parErr.modSheet, hs1]
  · exact h

theorem Canonical.maintenanceSlot {evs : List WireEvent} (h : Canonical s) : Canonical (maintenanceSlot evs s) := by
  unfold Machine.maintenanceSlot
  refine .ite h ?_
  extract_lets shs s1 s2
  have hs1 : Canonical s1 := h.foldl fun ha => ha.couchSlot
  have hs2 : Canonical s2 := .ite (hs1.foldl fun ha => ha.foldl fun ha1 => ha1.tlmSlot) (hs1.foldl fun ha => ha.testSlot)
  exact hs2.slotDone

/-! ### Dwell -/

theorem Canonical.dwellStart {sh : Nat} {key1 key2 : W64} (h : Canonical s) : Canonical (dwellStart sh key1 key2 s) := by
  unfold Machine.dwellStart
  extract_lets +onlyGivenNames x
  split
  exacts [.ite h h.unidle.modSheet.sheetCount, h]

theorem Canonical.nextPhase {sh : Nat} {d : Dwell} {p : Phase} {scan : Bool} (h : Canonical s) : Canonical (s.nextPhase sh d p scan) := h.modSheet

theorem Canonical.zeroiseDone {sh : Nat} {refused : Bool} {cond : BistCond} (h : Canonical s) : Canonical (zeroiseDone sh refused cond s) := by
  unfold Machine.zeroiseDone
  split
  · exact h
  · refine .ite h ?_
    exact .ite (.ite h.modSheet.sheetCount.logErr.installPoint h.modSheet.sheetCount.logErr) (((h.foldl fun ha => ha.modTile).nextPhase).modSheet)

theorem Canonical.marchDone {sh : Nat} {fails : List BistFail} {p : BistCond} (h : Canonical s) : Canonical (marchDone sh fails p s) := by
  unfold Machine.marchDone
  split
  exacts [.ite h h.nextPhase, h]

theorem Canonical.condemnSpare {sh : Nat} {d : Dwell} {bad : List BistFail} {cond : BistCond} (h : Canonical s) : Canonical (s.condemnSpare sh d bad cond) :=
    (h.foldl fun ha => ha.bistFail).retire

theorem Canonical.bistDone {sh kind : Nat} {at' next : Phase} {scan : Bool} {fails : List BistFail} {cond : BistCond} (h : Canonical s) : Canonical (s.bistDone sh kind at' next scan fails cond) := by
  unfold State.bistDone
  split
  exacts [.ite h (.ite h.ranBist.nextPhase h.ranBist.condemnSpare), h]

theorem Canonical.logicBistDone {sh : Nat} {fails : List BistFail} {cond : BistCond} (h : Canonical s) : Canonical (logicBistDone sh fails cond s) :=
    h.bistDone

theorem Canonical.marginBistDone {sh : Nat} {fails : List BistFail} {cond : BistCond} (h : Canonical s) : Canonical (marginBistDone sh fails cond s) :=
    h.bistDone

theorem Canonical.repairOne {sh pc : Nat} {f : BistFail} (h : Canonical s) : Canonical (s.repairOne sh pc f).1 := .iteFst h.softRepair h

theorem Canonical.repairMarked {sh pc row : Nat} (h : Canonical s) : Canonical (s.repairMarked sh pc row) :=
    (h.foldl fun ha => .ite ha.modTile.addRepair.sheetCount ha.logErr).modTile

theorem Canonical.softRepairEvent {sh : Nat} {rerunFails : List BistFail} {cond : BistCond} (h : Canonical s) : Canonical (Machine.softRepair sh rerunFails cond s) := by
  unfold Machine.softRepair
  split
  · exact h
  · refine .ite h ?_
    extract_lets r s1 s2 bad
    have hr : Canonical r.1 := h.foldlFst fun ha => ha.repairOne
    have hs1 : Canonical s1 := hr.foldl fun ha => ha.repairMarked
    have hs2 : Canonical s2 := hs1.sheetCount
    exact .ite hs2.condemnSpare hs2.nextPhase

theorem Canonical.couchInDone {sh : Nat} (h : Canonical s) : Canonical (couchInDone sh s) := by
  unfold Machine.couchInDone
  split
  exacts [h, .ite h (.ite h.modSheet.beginCatchup h.modSheet)]

theorem Canonical.takePosition {sh pos : Nat} {down whole : Bool} {kind : DwellKind} (h : Canonical s) : Canonical (s.takePosition sh pos down whole kind) := by
  unfold State.takePosition
  extract_lets t
  have ht : Canonical t := h.modSheet
  exact ht.moveCols

theorem Canonical.reloadPrologue {sh : Nat} (h : Canonical s) : Canonical (s.reloadPrologue sh) := by
  unfold State.reloadPrologue
  split
  · exact h
  · extract_lets x s1
    have hs1 : Canonical s1 := h.foldl fun ha => ha.modSheet
    split
    exacts [hs1.modCtx, hs1.beginPrologue, hs1]

theorem Canonical.reloadTo {sh pos : Nat} {down : Bool} {kind : DwellKind} (h : Canonical s) : Canonical (s.reloadTo sh pos down kind) :=
    .ite h.modSheet h.takePosition.reloadPrologue

theorem Canonical.sweepMove {sh : Nat} {d : Dwell} (h : Canonical s) : Canonical (s.sweepMove sh d) := by
  unfold State.sweepMove
  extract_lets +onlyGivenNames x r
  split
  · exact .ite h.modSheet.reloadTo h
  · extract_lets +onlyGivenNames rollback n
    refine .ite h ?_
    split
    exacts [.ite h (.ite h.takePosition h.modSheet), h.modSheet, h.reloadTo]

theorem Canonical.inspectMove {sh : Nat} (h : Canonical s) : Canonical (s.inspectMove sh) := by
  unfold State.inspectMove
  extract_lets +onlyGivenNames x
  refine .ite h ?_
  split
  exacts [h.reloadTo, h.modSheet.reloadTo]

theorem Canonical.steeredMove {sh col done : Nat} {against : Bool} (h : Canonical s) : Canonical (s.steeredMove sh col done against) := by
  unfold State.steeredMove
  refine .ite h ?_
  extract_lets +onlyGivenNames s1 n
  have hs1 : Canonical s1 := h.sheetCount
  refine .ite hs1.modSheet ?_
  extract_lets s2 x
  have hs2 : Canonical s2 := hs1.modSheet
  split
  exacts [hs2.reloadTo, hs2.modSheet]

theorem Canonical.moveEvents {sh : Nat} {evs : List CalEvent} (h : Canonical s) : Canonical (s.moveEvents sh evs) := by
  unfold State.moveEvents
  split
  · exact h
  · exact .ite h (h.foldl fun ha => by split; exacts [ha, .ite ha.wmDiffers ha])

theorem Canonical.spareMove {sh : Nat} {evs : List CalEvent} (h : Canonical s0) : Canonical (spareMove sh evs s0) := by
  unfold Machine.spareMove
  extract_lets +onlyGivenNames s
  have hs : Canonical s := h.moveEvents
  split
  · exact hs
  · extract_lets due
    split
    exacts [.ite hs.inspectMove hs, .ite hs.sweepMove hs, .ite hs.steeredMove hs]

theorem Canonical.externalTestScanAccess {sh pc : Nat} {scan : Bool} (h : Canonical s) : Canonical (externalTestScanAccess sh pc scan s) :=
    .ite h (.ite h.modSheet.sheetCount.logErr h.modSheet)

/-! ### Messages -/

theorem Canonical.ringWrite {inPool : Bool} {a : Nat} {b : List Byte} (h : Canonical s) : Canonical (s.ringWrite inPool a b) :=
    .ite h.poolWrite h.hostPut

theorem Canonical.rxBind {c q : Nat} {n : W32} (h : Canonical s) : Canonical (rxBind c q n s) := by
  unfold Machine.rxBind
  extract_lets +onlyGivenNames k
  split
  · exact h
  · extract_lets +onlyGivenNames hd role
    split
    · exact h.setOutcome
    · split
      · exact h.setOutcome
      · extract_lets +onlyGivenNames isCtx
        exact .ite h.setOutcome (.ite h.setOutcome (.ite h h.frame.ringWrite.ringWrite.ringWrite.ringWrite.setOutcome))

theorem Canonical.rxUnbind {c q : Nat} {n : W32} (h : Canonical s) : Canonical (rxUnbind c q n s) := by
  unfold Machine.rxUnbind
  extract_lets +onlyGivenNames k
  split
  exacts [h, .ite h.setOutcome (.ite h.setOutcome (.ite h h.frame.setOutcome))]

theorem Canonical.modEnd {h role : Nat} {f : Endpoint → Endpoint} (hs : Canonical s) : Canonical (s.modEnd h role f) := hs.frame

theorem Canonical.sendFails {c k : Nat} {n : W32} {e : Entry} {d : Done} (h : Canonical s) : Canonical (s.sendFails c k n e d) := by
  unfold State.sendFails
  split
  exacts [(Canonical.ite h h.modEnd).setOutcome, h.setOutcome]

theorem Canonical.send {c q : Nat} {n : W32} {src : ReadResult} (h : Canonical s) : Canonical (send c q n src s) := by
  unfold Machine.send
  extract_lets +onlyGivenNames k
  split
  · exact h
  · extract_lets +onlyGivenNames plen dest from' t fail
    refine .ite h.sendFails ?_
    split
    · exact h.sendFails
    · split
      · exact h.sendFails
      · extract_lets +onlyGivenNames isJob isGroup
        refine .ite h.sendFails (.ite h ?_)
        extract_lets +onlyGivenNames body
        clear_value body
        split
        · exact h.sendFails
        · refine .ite h ?_
          extract_lets mk _ s1
          have hs1 : Canonical s1 := ((h.foldl fun ha => ha.copyArrives).frame).ctxCount
          exact .ite hs1.setOutcome hs1.modEntry

theorem Canonical.lookup {tag : Nat} (h : Canonical s) (ht : s.lookup tag = some t) : Canonical t := by
  unfold State.lookup at ht
  split at ht
  · obtain rfl := Option.some.inj ht
    exact h.frame.modCount
  · split at ht
    · contradiction
    · extract_lets s1 s2 s3 at ht
      have hs1 : Canonical s1 := by
        unfold s1; split
        exacts [h.frame, h]
      have hs2 : Canonical s2 := hs1.frame
      obtain rfl := Option.some.inj ht
      exact (Canonical.ite hs2.wakeChans hs2).modCount

theorem Canonical.requestOpen {c q : Nat} {n : W32} {src : ReadResult} (h : Canonical s) : Canonical (requestOpen c q n src s) := by
  unfold Machine.requestOpen
  extract_lets +onlyGivenNames k
  split
  · exact h
  · extract_lets +onlyGivenNames tag d g
    refine .ite h.setOutcome ?_
    split
    · exact h.setOutcome
    · refine .ite h ?_
      split
      · exact h
      · rename_i t ht
        replace ht := h.lookup ht
        refine .ite ht.setOutcome (.ite ht.setOutcome ?_)
        split
        exacts [.ite h ht.putSession.modCount.setOutcome, ht.setOutcome]

theorem Canonical.requestSubmit {c q : Nat} {n : W32} {src : ReadResult} (h : Canonical s) : Canonical (requestSubmit c q n src s) := by
  unfold Machine.requestSubmit
  extract_lets +onlyGivenNames k
  split
  · exact h
  · extract_lets +onlyGivenNames tag len same
    refine .ite h.setOutcome (.ite h ?_)
    split
    · exact h
    · rename_i t ht
      replace ht := h.lookup ht
      extract_lets +onlyGivenNames x
      refine .ite ht.setOutcome (.ite ht.setOutcome (.ite ht.setOutcome (.ite ht.setOutcome ?_)))
      extract_lets +onlyGivenNames body
      clear_value body
      split
      exacts [ht.setOutcome, .ite h ht.putSession.copyArrives.frame.modEntry]

theorem Canonical.requestClose {c q : Nat} {n : W32} (h : Canonical s) : Canonical (requestClose c q n s) := by
  unfold Machine.requestClose
  extract_lets +onlyGivenNames k
  split
  · exact h
  · extract_lets +onlyGivenNames tag
    split
    · exact h.setOutcome
    · split
      · exact h
      · rename_i t ht
        replace ht := h.lookup ht
        exact .ite ht.setOutcome (.ite ht.setOutcome (.ite h ht.putSession.modCount.setOutcome))

theorem Canonical.requestQuery {c q : Nat} {n : W32} (h : Canonical s) : Canonical (requestQuery c q n s) := by
  unfold Machine.requestQuery
  extract_lets +onlyGivenNames k
  split
  · exact h
  · extract_lets +onlyGivenNames tag
    refine .ite h.setOutcome ?_
    split
    · exact h.setOutcome
    · refine .ite h ?_
      split
      · exact h
      · rename_i t ht
        replace ht := h.lookup ht
        exact .ite ht.setOutcome ht.hostPut.setOutcome

theorem Canonical.syncBind {c q : Nat} {n : W32} (h : Canonical s) : Canonical (syncBind c q n s) := by
  unfold Machine.syncBind
  extract_lets +onlyGivenNames k
  split
  · exact h
  · extract_lets id mode p own set put
    refine .ite h.setOutcome ?_
    split
    · refine .ite h.setOutcome (.ite h.setOutcome ?_)
      split
      exacts [h.setOutcome, h.modPt.modCtx.setOutcome]
    · refine .ite h.setOutcome ?_
      split
      · exact .ite h.setOutcome (.ite h.setOutcome (.ite h.setOutcome h.modCtx.setOutcome))
      · exact h.setOutcome

theorem Canonical.syncUnbind {c q : Nat} {n : W32} (h : Canonical s) : Canonical (syncUnbind c q n s) := by
  unfold Machine.syncUnbind
  extract_lets +onlyGivenNames k
  split
  · exact h
  · extract_lets +onlyGivenNames id
    split
    · exact h.setOutcome
    · exact .ite h.setOutcome (((Canonical.ite (.ite h h.releaseCounter) h.orphanWaits).modCtx).setOutcome)

theorem Canonical.syncOpRead {c q : Nat} {n : W32} (h : Canonical s) : Canonical (syncOpRead c q n s) := by
  unfold Machine.syncOpRead
  extract_lets +onlyGivenNames k
  split
  · exact h
  · extract_lets op
    refine .ite h (.ite h.setOutcome ?_)
    split
    exacts [h.setOutcome, .ite h.setOutcome h.setOutcome]

theorem Canonical.syncOpAdd {c q : Nat} {n : W32} (h : Canonical s) : Canonical (syncOpAdd c q n s) := by
  unfold Machine.syncOpAdd
  extract_lets +onlyGivenNames k
  split
  · exact h
  · extract_lets +onlyGivenNames v
    refine .ite h (.ite h.setOutcome ?_)
    split
    exacts [h.setOutcome, .ite h.setOutcome.ctxCount (.ite h h.engineAdd.setOutcome)]

theorem Canonical.readCtl {e : Endpoint} {off : Nat} (h : Canonical s) : Canonical (s.readCtl e off) := .ite h h.cacheLine

theorem Canonical.ringRecord {e : Endpoint} (h : Canonical s) : Canonical (s.ringRecord e) := h.logErr

theorem Canonical.ringError {e : Endpoint} (h : Canonical s) : Canonical (s.ringError e) := h.modEnd.ringRecord

theorem Canonical.putCells {inPool : Bool} {base cells : Nat} {w : W32} {pad : Nat} {m : List (List Byte)} (h : Canonical s) : Canonical (s.putCells inPool base cells w pad m) :=
    (Canonical.ite h h.ringWrite.frame).foldl fun ha => ha.ringWrite

theorem Canonical.copyOutcome {m : Copy} {r : Option Bool} {cause : Nat} (h : Canonical s) : Canonical (s.copyOutcome m r cause) := by
  unfold State.copyOutcome
  split
  · split
    exacts [.ite h h.ctxCount, h]
  · split
    · exact .ite h.putSession.setOutcome h.putSession.setOutcome
    · extract_lets +onlyGivenNames s1
      have hs1 : Canonical s1 := h.modEntry
      split
      exacts [hs1, .ite hs1 hs1.setOutcome]

theorem Canonical.readBrd {e : Endpoint} {o : RingObs} (h : Canonical s) : Canonical (s.readBrd e o) :=
    .ite (.ite h.readCtl h.readCtl.ringError) h.readCtl.modEnd

theorem Canonical.bounceCopy {m : Copy} {p : Endpoint} {cause : Nat} {o : RingObs} (h : Canonical s) : Canonical (s.bounceCopy m p cause o).2 := by
  unfold State.bounceCopy
  extract_lets +onlyGivenNames s0
  refine .iteSnd h.modEnd.ringRecord ?_
  extract_lets +onlyGivenNames brd s1
  have hs1 : Canonical s1 := h.modEnd.readBrd
  refine .iteSnd (.ite hs1.ringRecord hs1) (.iteSnd hs1.ringRecord ?_)
  split
  exacts [hs1.ringRecord, hs1.putCells.ringWrite.modEnd]

theorem Canonical.lookBrd {o : RingObs} (h : Canonical s) : Canonical (s.lookBrd o) := by
  unfold State.lookBrd
  split
  exacts [h, h.readBrd.frame]

theorem Canonical.messageCopyDecided {o : RingObs} (h : Canonical s) : Canonical (messageCopyDecided o s) := by
  unfold Machine.messageCopyDecided
  refine .ite h ?_
  split
  · exact h.lookBrd
  · split
    · exact h
    · extract_lets +onlyGivenNames d ring s' s0
      clear_value d ring
      have hs0 : Canonical s0 := by
        unfold s0; split
        exacts [.ite h.frame.readCtl h.frame, h.frame]
      clear_value s0
      split
      · extract_lets irq l wr sent fire s1 s2 s3 s4 s5 s6
        have hs1 : Canonical s1 := hs0.putCells
        have hs2 : Canonical s2 := hs1.ringWrite
        have hs3 : Canonical s3 := hs2.modEnd
        have hs4 : Canonical s4 := .ite hs3.msix hs3
        have hs5 : Canonical s5 := hs4.ctxCount.ctxCount
        have hs6 : Canonical s6 := by unfold s6; split; exacts [hs5.modEnd, hs5]
        exact hs6.copyOutcome
      · extract_lets +onlyGivenNames s1 s2
        have hs1 : Canonical s1 := by unfold s1; split; exacts [.ite hs0.ringError hs0, hs0]
        have hs2 : Canonical s2 := by unfold s2; split; exacts [.ite hs1.modEnd hs1.modEnd.ringWrite, hs1]
        clear_value s2
        split
        exacts [(Canonical.ite hs2.bounceCopy.ctxCount hs2.bounceCopy).copyOutcome, hs2.copyOutcome]
      · exact h

theorem Canonical.busMasterSet (h : Canonical s) : Canonical (busMasterSet s) := .ite h.frame h

theorem Canonical.busMasterClear (h : Canonical s) : Canonical (busMasterClear s) := .ite h.frame h

theorem Canonical.hostHolds {line : Nat} (h : Canonical s) : Canonical (s.hostHolds line) := h.frame

theorem Canonical.cxlMemRead {a : Nat} {flips : List DramFlip} (h : Canonical s0) : Canonical (cxlMemRead a flips s0) := by
  unfold Machine.cxlMemRead
  extract_lets +onlyGivenNames s line ch off
  refine .ite h.decay ?_
  extract_lets +onlyGivenNames s1
  have hs1 : Canonical s1 := h.decay.wakeChans
  refine .ite hs1.emit ?_
  extract_lets s2
  have hs2 : Canonical s2 := hs1.engineEcc
  split
  exacts [hs2.emit, hs2.emit, hs2.emit.hostHolds]

theorem Canonical.cxlMemWrite {a : Nat} {data : BitVec 512} (h : Canonical s) : Canonical (cxlMemWrite a data s) := .ite h h.frame.poolWrite

theorem Canonical.functionLevelReset (h : Canonical s) : Canonical (functionLevelReset s) := by
  unfold Machine.functionLevelReset
  extract_lets x s1
  have hs1 : Canonical s1 := h.withHost h.payload_wf msixReset_wf
  exact .ite h (hs1.foldl fun ha => ha.foldl fun ha1 => .ite ha1.stopQueue ha1)

theorem Canonical.lockIdleExpired (h : Canonical s) : Canonical (lockIdleExpired s) := .ite h.frame h

theorem Canonical.backgroundOpFinished {op : Nat} (h : Canonical s) : Canonical (backgroundOpFinished op s) := by
  unfold Machine.backgroundOpFinished
  split
  · split
    exacts [.ite h h.finishOp, h]
  · exact h

theorem Canonical.cxlLinkTraining {up : Bool} {rate width : Nat} {flit68 : Bool} (h : Canonical s) : Canonical (cxlLinkTraining up rate width flit68 s) :=
    .ite h h.frame

/-! ### Reel -/

theorem Canonical.mbReelInfo {m : Master} {p : Payload} (h : Canonical s) : Canonical (mbReelInfo m p s).1 := h.checked h

theorem Canonical.setReel {st : ReelState} {cause : Nat} (h : Canonical s) : Canonical (s.setReel st cause) := .ite h.frame h.frame.logErr

theorem Canonical.beginReelOp {id code a b : Nat} (h : Canonical s) : Canonical (s.beginReelOp id code a b) := h.frame

theorem Canonical.mbReelEject {m : Master} {p : Payload} (h : Canonical s) : Canonical (mbReelEject m p s).1 :=
    h.checked (.iteFst h (h.background fun ha => ha.beginReelOp.setReel))

theorem Canonical.mbReelSeal {m : Master} {p : Payload} (h : Canonical s) : Canonical (mbReelSeal m p s).1 := by
  unfold Machine.mbReelSeal
  refine h.checked ?_
  extract_lets off len r
  exact .iteFst h (.iteFst h (.iteFst h (.iteFst h (.iteFst h (.iteFst h (h.background fun ha => ha.beginReelOp))))))

theorem Canonical.mbReelFormat {m : Master} {p : Payload} (h : Canonical s) : Canonical (mbReelFormat m p s).1 :=
    h.checked (.iteFst h (.iteFst h (.iteFst h (h.background fun ha => ha.beginReelOp))))

theorem Canonical.endAccesses {st : Nat} (h : Canonical s) : Canonical (s.endAccesses st) := h.frame.foldl fun ha => ha.setOutcome

theorem Canonical.endReelLoads {st : Nat} (h : Canonical s) : Canonical (s.endReelLoads st) := by
  unfold State.endReelLoads
  exact h.foldl fun ha => by split; exacts [ha.modCtx.finishOp?, ha]

theorem Canonical.reelOpFinished {op : Nat} {good : Bool} (h : Canonical s) : Canonical (reelOpFinished op good s) := by
  unfold Machine.reelOpFinished
  split
  · exact h
  · extract_lets +onlyGivenNames _ s1
    split
    · exact h.frame.endAccesses.endReelLoads.setReel.finishOp
    · next code a b _ _ _ =>
      have hs1 : Canonical s1 := h.withReelOps
      generalize s.sealBlock a b = block
      generalize labelBlock a s.reel.nlba s.cyc = label
      have hseal : Canonical { s1 with reel := { s1.reel with data := s1.reel.data.write ((reelArea s.reel 2).1 + a + b) block } } :=
        hs1.withReel (Mem.wf_write _ _ hs1.reelData_wf)
      have hlabel : Canonical { s1 with reel := { s1.reel with data := Mem.write [] 0 label, weightGib := a } } :=
        hs1.withReel (Mem.wf_write 0 label rfl)
      exact .ite hs1.reelIoOpen.finishOp (.ite hseal.finishOp (Canonical.setReel hlabel.frame).finishOp)

theorem Canonical.scrambleReads (h : Canonical s) : Canonical s.scrambleReads := by
  unfold State.scrambleReads
  exact h.foldl fun ha => by split; exacts [.ite ha.locWrite.frame ha, ha]

theorem Canonical.reelLost (h : Canonical s) : Canonical s.reelLost := by
  unfold State.reelLost
  extract_lets ops s1 _ s2
  have hs1 : Canonical s1 := h.scrambleReads.endAccesses.endReelLoads
  have hs2 : Canonical s2 := hs1.withReelOps.foldl fun ha => ha.finishOp
  exact .ite hs2.dumpTargetFailed hs2

theorem Canonical.reelOff (h : Canonical s) : Canonical s.reelOff := h.reelLost.frame

theorem Canonical.reelLatchOpen (h : Canonical s) : Canonical (reelLatchOpen s) := by
  unfold Machine.reelLatchOpen
  extract_lets r s1
  have hs1 : Canonical s1 := .ite h h.reelOff
  have hempty : Canonical { s1 with reel := { ({} : Reel) with st := s1.reel.st } } := hs1.withReel rfl
  exact Canonical.setReel hempty.frame

theorem Canonical.reelLatchClose (h : Canonical s) : Canonical (reelLatchClose s) := .ite h.frame.setReel h.frame

theorem Canonical.reelHealth {pu units : Nat} {readOnly : Bool} (h : Canonical s) : Canonical (s.reelHealth pu units readOnly) :=
    .ite ((Canonical.ite h.frame.logErr h.frame).logErr) (.ite h.frame.logErr h.frame)

/-- What a cartridge holds is laid down byte by byte. -/
theorem wf_foldl_put (l : List (Nat × Byte)) : (l.foldl (fun (m : Mem) e => m.put e.1 e.2) []).wf = true :=
  List.foldlRecOn (motive := fun m : Mem => m.wf = true) l _ rfl fun _ hm e _ => Mem.wf_put e.1 e.2 hm

theorem Canonical.reelStartingDone {f : ReelFound} (h : Canonical s) : Canonical (reelStartingDone f s) := by
  unfold Machine.reelStartingDone
  refine .ite h (.ite h.setReel (.ite h.setReel ?_))
  extract_lets +onlyGivenNames _ s1
  have hs1 : Canonical s1 := h.withReel (wf_foldl_put f.content)
  refine .ite hs1.setReel ?_
  extract_lets +onlyGivenNames s2
  have hs2 : Canonical s2 := hs1.reelHealth
  split
  exacts [.ite hs2.frame.setReel hs2.setReel, hs2.setReel]

theorem Canonical.reelFailed {cause st : Nat} (h : Canonical s) : Canonical (s.reelFailed cause st) := by
  unfold State.reelFailed
  extract_lets ops s1 _ s2 s3
  have hs1 : Canonical s1 := h.endAccesses.endReelLoads
  have hs2 : Canonical s2 := hs1.withReelOps.foldl fun ha => ha.finishOp
  have hs3 : Canonical s3 := hs2.setReel
  exact .ite hs3.dumpTargetFailed hs3

theorem Canonical.reelHealthPoll {pu units : Nat} {readOnly critical : Bool} (h : Canonical s) : Canonical (reelHealthPoll pu units readOnly critical s) :=
    .ite h (.ite h.reelHealth.reelFailed h.reelHealth)

theorem Canonical.endReelOp (h : Canonical s) : Canonical s.endReelOp := by
  unfold State.endReelOp
  split
  exacts [h.frame.finishOp, h]

theorem Canonical.reelCommandTimeout (h : Canonical s) : Canonical (reelCommandTimeout s) := by
  unfold Machine.reelCommandTimeout
  extract_lets +onlyGivenNames r
  refine .ite h ?_
  extract_lets +onlyGivenNames s0 _ s1
  have hs0 : Canonical s0 := h.frame
  have hs1 : Canonical s1 := by
    unfold s1; split
    · exact hs0.reelIoOpen.dumpTargetFailed
    · split
      exacts [hs0.endReelLoads.endReelOp.reelIoOpen, hs0.frame.setOutcome.reelIoOpen]
  exact .ite hs1.reelFailed hs1

theorem Canonical.reelAccessDone {good : Bool} {nvme : Nat} (h : Canonical s) : Canonical (reelAccessDone good nvme s) := by
  unfold Machine.reelAccessDone
  split
  · exact h
  · extract_lets +onlyGivenNames _ s1 a
    refine .ite h.frame.setOutcome.reelIoError ?_
    split
    exacts [h.frame, .ite h.frame.setOutcome h.frame.moveData.setOutcome]

/-! ### Checks -/

theorem Canonical.replicaFault {c : Nat} {g : Prog} {cls : Nat} {body : List Byte} {silent : Bool} (h : Canonical s) : Canonical (s.replicaFault c g cls body silent) :=
    ((((Canonical.ite h.logErr h).logErr).ctxCount).modCtx).afterReplica

theorem Canonical.replicaReportsGathered {c : Nat} {reports : List ReplicaReport} (h : Canonical s0) : Canonical (replicaReportsGathered c reports s0) := by
  unfold Machine.replicaReportsGathered
  split
  · exact h
  · extract_lets +onlyGivenNames x pos
    refine .ite h ?_
    extract_lets +onlyGivenNames s step l
    refine .ite h.waited.afterReplica ?_
    split
    · exact h.waited.replicaFault
    · extract_lets +onlyGivenNames apart
      clear_value apart
      split
      · exact h.waited.ctxCount.modCtx.afterReplica
      · exact .ite h.waited.modCtx h.waited.replicaFault

theorem Canonical.rebuildFault {c : Nat} {j : Nat × Nat × Nat} {g : Prog} (h : Canonical s) : Canonical (s.rebuildFault c j g) := h.replicaFault

theorem Canonical.replicaRebuildDone {c : Nat} {data : List Byte} {good : Bool} (h : Canonical s0) : Canonical (replicaRebuildDone c data good s0) := by
  unfold Machine.replicaRebuildDone
  split
  · exact h
  · extract_lets +onlyGivenNames s x
    refine .ite h (.ite h.waited.rebuildFault ?_)
    extract_lets +onlyGivenNames keys l r
    have hr : Canonical r.1 := h.waited.foldlFst fun ha => ha.ctxWrite
    exact .ite ((Canonical.ite hr.modCtx hr.modCtx.ctxCount).afterReplica) hr.rebuildFault

theorem Canonical.replicaRebuildTimeout {c : Nat} (h : Canonical s) : Canonical (replicaRebuildTimeout c s) := by
  unfold Machine.replicaRebuildTimeout
  split
  exacts [h, .ite h h.waited.rebuildFault]

theorem Canonical.phyWarn {a : ErrAt} {kind ix lane : Nat} (h : Canonical s) : Canonical (s.phyWarn a kind ix lane) := h.logErr

theorem Canonical.phyChannel {ch : Nat} {bad : Bool} (h : Canonical s) : Canonical (s.phyChannel ch bad) :=
    .ite h (.ite h.modPt h.modPt.phyWarn.modChan)

theorem Canonical.phyFabric {p lane : Nat} {bad : Bool} (h : Canonical s) : Canonical (s.phyFabric p lane bad) := by
  unfold State.phyFabric
  refine .ite h ?_
  extract_lets s1 s2 s3
  have hs2 : Canonical s2 := by unfold s2; split; exacts [.ite h.phyWarn.breakLane h.phyWarn, h.phyWarn]
  have hs3 : Canonical s3 := hs2.modPort
  exact .ite hs3.startTraining hs3

theorem Canonical.phyCheck {u : PhyUnit} {bad : Bool} (h : Canonical s) : Canonical (phyCheck u bad s) := by
  unfold Machine.phyCheck
  split
  exacts [h.phyChannel, h.phyFabric, .ite h.phyWarn h]

theorem Canonical.coreWatchdogExpired {core : Nat} (h : Canonical s) : Canonical (coreWatchdogExpired core s) := by
  unfold Machine.coreWatchdogExpired
  refine .ite h ?_
  extract_lets loc e l s1 s2 _ s3 s4
  have hs2 : Canonical s2 := .ite h.logErr.startDump h.logErr
  have hs4 : Canonical s4 := .ite hs2.frame.coreOff hs2.frame
  exact .ite hs4.beginRestart hs4

theorem Canonical.controlCoreRestartDone {core : Nat} (h : Canonical s) : Canonical (controlCoreRestartDone core s) := h.frame

theorem Canonical.controlDieHeartbeat (h : Canonical s) : Canonical (controlDieHeartbeat s) := .ite h h.frame

theorem Canonical.loseCt0 (h : Canonical s) : Canonical s.loseCt0 := h.frame

theorem Canonical.loseCt1 (h : Canonical s) : Canonical s.loseCt1 := by
  unfold State.loseCt1
  extract_lets +onlyGivenNames _ s1 _ t s2
  have hs1 : Canonical s1 := h.frame
  have ht : Canonical t := hs1.endReading.frame
  have hs2 : Canonical s2 := by
    unfold s2; split
    exacts [ht.logErr.finishOp?, hs1]
  exact (Canonical.ite hs2 hs2.reelLost.setReel).foldl fun ha => ha.modSheet

theorem Canonical.controlDieLost {die : Nat} (h : Canonical s) : Canonical (controlDieLost die s) := .ite h ((Canonical.ite h.loseCt0 h.loseCt1).logErr)

/-! ### CheckEngine -/

theorem Canonical.watermarkEntry {c q : Nat} {n : W32} {flips : List DramFlip} (h : Canonical s0) : Canonical (watermarkEntry c q n flips s0) := by
  unfold Machine.watermarkEntry
  extract_lets +onlyGivenNames s k
  split
  · exact h.decay
  · extract_lets +onlyGivenNames a len dk b fail
    refine .ite h.decay.setOutcome (.ite h.decay.setOutcome (.ite h.decay.setOutcome (.ite h.decay.setOutcome (.ite h.decay.setOutcome ?_))))
    split
    · exact h.decay.setOutcome
    · refine .ite h.decay ?_
      extract_lets +onlyGivenNames r
      have hr : Canonical r.1 := h.decay.wakeLoc.wakeLoc.readRange
      exact .ite hr.setOutcome hr.locWrite.setOutcome

theorem Canonical.replicaCheck {c q : Nat} {n : W32} (h : Canonical s) : Canonical (replicaCheck c q n s) := by
  unfold Machine.replicaCheck
  extract_lets +onlyGivenNames k
  split
  · exact h
  · extract_lets +onlyGivenNames x r m fail
    have hfail : Canonical fail := h.setOutcome
    refine .ite h (.ite hfail ?_)
    split
    exacts [.ite hfail (.ite h.modCtx h.modCtx), hfail]

/-! ### Ports -/

theorem Canonical.mbPortStatus {m : Master} {p : Payload} (h : Canonical s) : Canonical (mbPortStatus m p s).1 := h.checked (.iteFst h h)

theorem Canonical.mbVcBind {m : Master} {p : Payload} (h : Canonical s) : Canonical (mbVcBind m p s).1 := by
  unfold Machine.mbVcBind
  refine h.checked ?_
  extract_lets +onlyGivenNames n vc g
  refine .iteFst h (.iteFst h (.iteFst h ?_))
  extract_lets ps clash
  split
  exacts [h, .iteFst h (h.foldl fun ha => ha.modPort)]

theorem Canonical.mbRouteSet {m : Master} {p : Payload} (h : Canonical s) : Canonical (mbRouteSet m p s).1 := by
  unfold Machine.mbRouteSet
  extract_lets +onlyGivenNames f n es bad
  refine .iteFst h (.iteFst h (.iteFst h ?_))
  split
  · exact h
  · split
    exacts [h, .iteFst h h.frame]

theorem Canonical.mbRouteGet {m : Master} {p : Payload} (h : Canonical s) : Canonical (mbRouteGet m p s).1 := h.checked (.iteFst h (.iteFst h h))

theorem Canonical.discardRx {p : Nat} {b : List Byte} (h : Canonical s) : Canonical (s.discardRx p b) :=
    .ite h.portCount.modPort.logFabric h.portCount

theorem Canonical.forwardPacket {p : Nat} {b : List Byte} (h : Canonical s) : Canonical (s.forwardPacket p b) := .ite h.fwdDrop h.transmit.portCount

theorem Canonical.countFec {p : Nat} {f : FecCount} (h : Canonical s) : Canonical (s.countFec p f) := h.portCount.portCount

theorem Canonical.fabricPacketRx {p : Nat} {b : List Byte} {fec : FecCount} (h : Canonical s) : Canonical (fabricPacketRx p b fec s) := by
  unfold Machine.fabricPacketRx
  extract_lets +onlyGivenNames x
  refine .ite h ?_
  extract_lets +onlyGivenNames s1
  have hs1 : Canonical s1 := h.emit.countFec
  exact .ite hs1.discardRx (.ite hs1.discardRx (.ite hs1.portCount.deliverPacket hs1.portCount.forwardPacket))

theorem Canonical.creditReturn {p vc n : Nat} (h : Canonical s) : Canonical (creditReturn p vc n s) := .ite h h.modPort.drainPort

theorem Canonical.ethernetFrameRx {p : Nat} {dst : BitVec 48} {etherType : W16} {b : List Byte} {fec : FecCount} (h : Canonical s0) : Canonical (ethernetFrameRx p dst etherType b fec s0) := by
  unfold Machine.ethernetFrameRx
  extract_lets +onlyGivenNames s x
  have hs : Canonical s := h.countFec
  exact .ite h (.ite hs.discardRx (.ite hs.fwdDrop (.ite hs.discardRx (.ite hs (.ite hs.fwdDrop hs.portCount.deliverPacket)))))

theorem Canonical.portTrained {p : Nat} {lanes : BitVec 4} {peer : W16} {peerPort : Byte} (h : Canonical s) : Canonical (portTrained p lanes peer peerPort s) :=
    .ite h h.trainPort

/-! ### Erasure -/

theorem Canonical.sendChunk {j : Job} {n c : Nat} {q : Bool} (h : Canonical s) : Canonical (s.sendChunk j n c q) := by
  unfold State.sendChunk
  extract_lets i dst
  split
  exacts [h, h.foldl fun ha => ha.sendPacket]

theorem Canonical.sendChunks {j : Job} {n : Nat} (h : Canonical s) : Canonical (s.sendChunks j n) := h.foldl fun ha => ha.sendChunk.sendChunk

theorem Canonical.ackPacket {k : Packet} (h : Canonical s) : Canonical (s.ackPacket k) := h.sendPacket

theorem Canonical.ecReceive {k : Packet} (h : Canonical s) : Canonical (s.ecReceive k) := by
  unfold State.ecReceive
  split
  exacts [h.stale, .ite h.stale (.ite h.ackPacket h.ctxWrite.modJob.ackPacket)]

theorem Canonical.snapshotCopyComplete {job : Nat} (h : Canonical s) : Canonical (snapshotCopyComplete job s) := by
  unfold Machine.snapshotCopyComplete
  split
  · exact h
  · exact .ite h (.ite h.modJob.modCtx.sendChunks.leavePoint h.modJob.modCtx.sendChunks)

theorem Canonical.ecGenerationComplete {job : Nat} (h : Canonical s) : Canonical (ecGenerationComplete job s) := by
  unfold Machine.ecGenerationComplete
  split
  exacts [h, .ite h (.ite h.modJob.ctxCount.modJob.tryVote h.modJob.ctxCount)]

theorem Canonical.ecRefresh {c q : Nat} {n : W32} (h : Canonical s) : Canonical (ecRefresh c q n s) := by
  unfold Machine.ecRefresh
  extract_lets k
  split
  · exact h
  · split
    exacts [h.setOutcome, .ite h (.ite h.setOutcome h.modJob.modCtx)]

theorem Canonical.ecRebuild {c q : Nat} {n : W32} {shard : ReadResult} (h : Canonical s) : Canonical (ecRebuild c q n shard s) := by
  unfold Machine.ecRebuild
  extract_lets +onlyGivenNames k
  split
  · exact h
  · extract_lets +onlyGivenNames fail
    split
    · exact h.setOutcome
    · extract_lets r a len
      refine .ite h.setOutcome (.ite h.setOutcome (.ite h.setOutcome ?_))
      split
      · exact h.setOutcome
      · refine .ite h.setOutcome (.ite h.setOutcome ?_)
        split
        exacts [.ite h h.wakeLoc.locWrite.ctxCount.setOutcome, h.setOutcome]

/-! ### Colls -/

theorem Canonical.modColl {c id : Nat} {f : Coll → Coll} (h : Canonical s) : Canonical (s.modColl c id f) := h.modCtx

theorem Canonical.collFault {c id sub port peer pkt detail : Nat} (h : Canonical s) : Canonical (s.collFault c id sub port peer pkt detail) := by
  unfold State.collFault
  split
  · exact h
  · refine .ite h ?_
    extract_lets occ s1
    split
    exacts [h.logErr.setOutcome.modColl, h.logErr.modColl]

theorem Canonical.collSend {c : Nat} {d : Coll} {typ flags peer pkt : Nat} {pay : List Byte} (h : Canonical s) : Canonical (s.collSend c d typ flags peer pkt pay) := by
  unfold State.collSend
  split
  · exact h
  · extract_lets vc
    clear_value vc
    split
    exacts [h, h.sendPacket]

theorem Canonical.collData {c id typ peer pkt : Nat} {pay : List Byte} {again : Bool} (h : Canonical s) : Canonical (s.collData c id typ peer pkt pay again) := by
  unfold State.collData
  split
  exacts [h, .ite h.collSend h.collSend.modColl]

theorem Canonical.startTimer {c id peer pkt : Nat} (h : Canonical s) : Canonical (s.startTimer c id peer pkt) := h.modColl

theorem Canonical.stopTimer {c id peer pkt : Nat} (h : Canonical s) : Canonical (s.stopTimer c id peer pkt) := by
  unfold State.stopTimer
  split
  exacts [h, .ite h.modColl.ctxCount.modColl h.modColl]

theorem Canonical.accepted {c id peer pkt : Nat} {pay : List Byte} (h : Canonical s) : Canonical (s.accepted c id peer pkt pay) :=
    h.modColl.stopTimer

theorem Canonical.writeResult {c : Nat} {d : Coll} {pkt : Nat} {r : List Byte × List Byte × List Byte} (h : Canonical s) : Canonical (s.writeResult c d pkt r) :=
    ((Canonical.ite h.ctxWrite.ctxWrite h.ctxWrite).ctxWrite).modColl

theorem Canonical.sumDone {c id : Nat} {p : Partial} (h : Canonical s) : Canonical (s.sumDone c id p) := by
  unfold State.sumDone
  split
  · exact h
  · refine .ite h ?_
    split
    · exact h.collData.startTimer
    · exact .ite (h.writeResult.foldl fun ha => ha.collData) h.writeResult
    · exact h

theorem Canonical.addInput {c id : Nat} {p : Partial} {port peer : Nat} (h : Canonical s) : Canonical (s.addInput c id p port peer) := by
  unfold State.addInput
  split
  · exact h
  · extract_lets +onlyGivenNames held
    split
    · exact h.collFault
    · exact (Canonical.ite h.modColl (h.modColl.foldl fun ha => .ite ha.startTimer ha)).sumDone

theorem Canonical.pump {c id n : Nat} (h : Canonical s) : Canonical (s.pump c id n) := by
  induction n generalizing s with
  | zero => exact h
  | succ n ih =>
    unfold State.pump
    split
    exacts [h, .ite h (ih h.modColl.ctxCount.addInput)]

theorem Canonical.pumpEdge {c id peer n : Nat} (h : Canonical s) : Canonical (s.pumpEdge c id peer n) := by
  induction n generalizing s with
  | zero => exact h
  | succ n ih =>
    unfold State.pumpEdge
    split
    · exact h
    · split
      · exact h
      · extract_lets src
        split
        exacts [h, .ite h (ih h.collData.startTimer)]

theorem Canonical.pumpData {c id : Nat} (h : Canonical s) : Canonical (s.pumpData c id) := by
  unfold State.pumpData
  split
  exacts [h, h.foldl fun ha => ha.pumpEdge]

theorem Canonical.pumpAll {c id : Nat} (h : Canonical s) : Canonical (s.pumpAll c id) := by
  unfold State.pumpAll
  split
  exacts [h, .ite h.pump (.ite h h.pumpData)]

theorem Canonical.startOcc {c id occ : Nat} (h : Canonical s) : Canonical (s.startOcc c id occ) := by
  unfold State.startOcc
  split
  · exact h
  · extract_lets +onlyGivenNames x
    split
    · exact h
    · refine .ite h ?_
      extract_lets _ s1 s2 s3
      have hs1 : Canonical s1 := .ite h.frame.logErr h
      have hs2 : Canonical s2 := hs1.modColl
      have hs3 : Canonical s3 := .ite (hs2.foldl fun ha => ha.startTimer) hs2
      exact hs3.pumpAll

theorem Canonical.collectiveOccurrenceStart {c id : Nat} (h : Canonical s) : Canonical (collectiveOccurrenceStart c id s) := by
  unfold Machine.collectiveOccurrenceStart
  extract_lets +onlyGivenNames x
  split
  exacts [.ite h h.startOcc, h]

theorem Canonical.collectiveOccurrenceDone {c id : Nat} (h : Canonical s) : Canonical (collectiveOccurrenceDone c id s) := by
  unfold Machine.collectiveOccurrenceDone
  split
  · exact h
  · split
    · exact h
    · refine .ite h ?_
      extract_lets +onlyGivenNames s1
      have hs1 : Canonical s1 := h.foldl fun ha => .ite ha.collSend.modColl ha
      refine .ite hs1 ?_
      extract_lets s2
      have hs2 : Canonical s2 := hs1.modColl.ctxCount
      split
      exacts [hs2.setOutcome, hs2]

theorem Canonical.takePacket {sel : Packet → Bool} {k : Packet} (h : Canonical s) (ht : s.takePacket sel = some (k, t)) : Canonical t := by
  obtain ⟨k', -, hk⟩ := Option.map_eq_some_iff.1 ht
  obtain ⟨-, rfl⟩ := Prod.mk.inj hk
  exact h.frame

theorem Canonical.onPacket {typ : Nat} {f : Packet → Nat → Coll → Edge → State → State} (h : Canonical s)
    (hf : ∀ {k c d e a}, Canonical a → Canonical (f k c d e a)) : Canonical (s.onPacket typ f) := by
  unfold State.onPacket
  split
  · exact h
  · rename_i k s1 hs1
    replace hs1 := h.takePacket hs1
    split
    exacts [hs1.stale, .ite hs1 (hf hs1)]

theorem Canonical.contrib (h : Canonical s) : Canonical (contrib s) := by
  unfold Machine.contrib
  exact h.onPacket fun ha => (.ite ha.stale (.ite ha (((Canonical.ite ha.accepted.collSend ha.accepted).addInput).pumpAll)))

theorem Canonical.result (h : Canonical s) : Canonical (result s) := by
  unfold Machine.result
  exact h.onPacket fun ha => (.ite ha.stale (.ite ha ((ha.accepted.writeResult.foldl fun ha1 => ha1.collData).pumpAll)))

theorem Canonical.data (h : Canonical s) : Canonical (data s) := by
  unfold Machine.data
  split
  · exact h
  · rename_i k s1 hs1
    replace hs1 := h.takePacket hs1
    refine .ite hs1.ecReceive (h.onPacket fun ha => (.ite ha.stale (.ite ha.collSend ?_)))
    extract_lets t1 t2 t3
    have ht1 : Canonical t1 := ha.accepted.ctxWrite.modColl
    have ht2 : Canonical t2 := ht1.collSend
    have ht3 : Canonical t3 := .ite ht2.startTimer ht2
    exact ht3.pumpAll

theorem Canonical.ack (h : Canonical s) : Canonical (Machine.ack s) := by
  unfold Machine.ack
  split
  · exact h
  · rename_i k s1 hs1
    replace hs1 := h.takePacket hs1
    exact .ite (.ite hs1 hs1.stale) (h.onPacket fun ha => .ite ha.stale (.ite ha ha.modColl.stopTimer.pumpAll))

theorem Canonical.reissueReq (h : Canonical s) : Canonical (reissueReq s) := by
  unfold Machine.reissueReq
  refine h.onPacket fun ha => ?_
  extract_lets +onlyGivenNames t1
  have ht1 : Canonical t1 := ha.modColl
  split
  · exact ht1.collSend
  · exact .ite ha (.ite ht1.modColl.ctxCount.logFabric.collSend ht1.modColl.ctxCount.logFabric.collData)

theorem Canonical.pending (h : Canonical s) : Canonical (pending s) := h.onPacket fun ha => ha.modColl

theorem Canonical.digest (h : Canonical s) : Canonical (digest s) := h.onPacket fun ha => .ite ha.modColl ha.modColl.collFault

theorem Canonical.nipWaitExpired {c id peer pkt : Nat} (h : Canonical s) : Canonical (nipWaitExpired c id peer pkt s) := by
  unfold Machine.nipWaitExpired
  split
  · exact h
  · split
    exacts [h, .ite h (.ite h.modColl.collSend (.ite h.ctxCount.modColl.collFault h))]

theorem Canonical.collective {c q : Nat} {n : W32} (h : Canonical s) : Canonical (collective c q n s) := by
  unfold Machine.collective
  extract_lets +onlyGivenNames k
  split
  · exact h
  · extract_lets +onlyGivenNames x fail id a
    split
    · exact h.startOcc
    · refine .ite h.setOutcome (.ite h.setOutcome (.ite h.setOutcome ?_))
      extract_lets +onlyGivenNames d0 d ports
      split
      · exact h.setOutcome
      · split
        · exact h.setOutcome
        · refine .ite h.setOutcome (.ite h.setOutcome (.ite h.setOutcome ?_))
          split
          exacts [h.setOutcome, .ite h.setOutcome (.ite h.modCtx.startOcc h.modCtx.setOutcome)]

theorem Canonical.mbCollStatus {m : Master} {p : Payload} (h : Canonical s) : Canonical (mbCollStatus m p s).1 := by
  unfold Machine.mbCollStatus
  refine h.checked (h.withCtx ?_)
  split <;> exact h

/-! ### Jobs -/

theorem Canonical.greetAll {was : List Job} (h : Canonical s) : Canonical (s.greetAll was) := h.frame

theorem Canonical.forms {id : Nat} (h : Canonical s) : Canonical (s.forms id) := h.modJob

theorem Canonical.formFailed {id st : Nat} (h : Canonical s) : Canonical (s.formFailed id st) := by
  unfold State.formFailed
  split
  exacts [h, .ite h.finishOp?.modJob h.finishOp?.frame]

theorem Canonical.applyFormed {id gen step : Nat} {joiners : List Nat} (h : Canonical s) : Canonical (s.applyFormed id gen step joiners) := by
  unfold State.applyFormed
  split
  · exact h
  · refine .ite h ?_
    extract_lets s1 s2
    have hs1 : Canonical s1 := h.memberSendAll
    have hs2 : Canonical s2 := .ite hs1.tookSerial.modJob hs1
    refine .ite hs2.modJob.finishOp? ?_
    split
    exacts [hs2.logErr.formFailed, hs2.modJob]

theorem Canonical.tryForm {id : Nat} (h : Canonical s) : Canonical (s.tryForm id) := by
  unfold State.tryForm
  split
  exacts [h, .ite h h.applyFormed]

theorem Canonical.sayHello {id : Nat} (h : Canonical s) : Canonical (s.sayHello id) := by
  unfold State.sayHello
  split
  exacts [h, .ite h.modJob.tryForm h.memberSend]

theorem Canonical.abandonColls {c : Nat} (h : Canonical s) : Canonical (s.abandonColls c) := by
  unfold State.abandonColls
  exact (h.foldl fun ha => by split; exacts [ha.setOutcome, ha]).modCtx

theorem Canonical.abandonRefresh {id : Nat} (h : Canonical s) : Canonical (s.abandonRefresh id) := by
  unfold State.abandonRefresh
  split
  exacts [h, ((Canonical.ite h.finishOp? h).modJob).modCtx]

theorem Canonical.applyRestart {id : Nat} {lost : List Nat} (h : Canonical s) : Canonical (s.applyRestart id lost) := by
  unfold State.applyRestart
  split
  · exact h
  · refine .ite h ?_
    extract_lets c all s1 s2 s3 s4 s5
    have hs1 : Canonical s1 := h.modJob.greetAll.memberSendAll
    have hs2 : Canonical s2 := hs1.logErr.ctxCount
    have hs3 : Canonical s3 := (hs2.foldl fun ha => ha.setOutcome).modCtx
    have hs4 : Canonical s4 := hs3.orphanCovers.abandonColls.abandonRefresh
    have hs5 : Canonical s5 := by unfold s5; split; exacts [.ite hs4.abandonStep hs4, hs4]
    exact hs5.modJob

theorem Canonical.voteRestart {id : Nat} (h : Canonical s) : Canonical (s.voteRestart id) := by
  unfold State.voteRestart
  split
  · exact h
  · extract_lets +onlyGivenNames l
    refine .ite h ?_
    extract_lets +onlyGivenNames n lost
    split
    · exact h.memberSend
    · refine .ite h ?_
      extract_lets s1
      have hs1 : Canonical s1 := by unfold s1; split; exacts [h.foldl fun ha => ha.memberSendAt, h]
      exact hs1.applyRestart

theorem Canonical.holdJob {c : Nat} (h : Canonical s) : Canonical (s.holdJob c) := h.modCtx

theorem Canonical.takeLost {id rank cause : Nat} (h : Canonical s) : Canonical (s.takeLost id rank cause) := by
  unfold State.takeLost
  split
  · exact h
  · extract_lets +onlyGivenNames live
    refine .ite h ?_
    extract_lets +onlyGivenNames known dests s1 s2 s3
    have hs2 : Canonical s2 := h.logErr.memberSendAll
    have hs3 : Canonical s3 := hs2.modJob
    exact .ite hs3.abandonColls.holdJob.abandonRefresh.modJob.voteRestart (.ite hs3.finishOp?.modJob hs3)

theorem Canonical.declareLost {id rank cause : Nat} (h : Canonical s) : Canonical (s.declareLost id rank cause) := h.takeLost.greetAll

theorem Canonical.writeRegions {c : Nat} {b : List Byte} (h : Canonical s) : Canonical (s.writeRegions c b) :=
    h.foldlFst fun ha => .iteFst ha ha.ctxWrite

theorem Canonical.restoreSaved {c : Nat} {v : Saved} (h : Canonical s) : Canonical (s.restoreSaved c v) := by
  unfold State.restoreSaved
  split
  · exact h
  · extract_lets s1 s2 s3 s4 s5
    have hs2 : Canonical s2 := h.modCtx.foldl fun ha => ha.modPt
    have hs3 : Canonical s3 := hs2.foldl fun ha => by split; exacts [ha.ctxWrite, ha]
    have hs4 : Canonical s4 := hs3.loadTiles
    have hs5 : Canonical s5 := hs4.foldl fun ha => ha.foldl fun ha1 => ha1.modSheet
    exact hs5.foldl fun ha => by split; exacts [ha.modTile, ha]

theorem Canonical.applyRestarted {id : Nat} (h : Canonical s) : Canonical (s.applyRestarted id) := by
  unfold State.applyRestarted
  split
  exacts [h, .ite h h.memberSendAll.logErr.finishOp?.modJob]

theorem Canonical.restartFailed {id : Nat} (h : Canonical s) : Canonical (s.restartFailed id) := by
  unfold State.restartFailed
  split
  exacts [h, .ite h h.memberSendAll.finishOp?.modJob]

theorem Canonical.tryRestored {id : Nat} (h : Canonical s) : Canonical (s.tryRestored id) := by
  unfold State.tryRestored
  split
  · exact h
  · split
    · exact h
    · refine .ite h ?_
      extract_lets v
      split
      exacts [h.memberSend.modJob, .ite h.applyRestarted h.restartFailed]

theorem Canonical.restartStateRestored {job : Nat} {shard : ReadResult} (h : Canonical s) : Canonical (restartStateRestored job shard s) := by
  unfold Machine.restartStateRestored
  split
  · exact h
  · refine .ite h ?_
    extract_lets +onlyGivenNames c report
    split
    · split
      exacts [h.restoreSaved.writeRegions.modJob.tryRestored, h.modJob.tryRestored]
    · split
      · exact .ite h h.frame.restoreSaved.writeRegions.ctxWrite.ctxWrite.ctxCount.modJob.modJob.tryRestored
      · exact h.modJob.tryRestored

theorem Canonical.onMember {sub : Nat} {any : Job → List Byte → Bool} {f : Packet → Nat → Job → State → State} (h : Canonical s)
    (hf : ∀ {k r j a}, Canonical a → Canonical (f k r j a)) : Canonical (s.onMember sub any f) := by
  unfold State.onMember
  split
  · exact h
  · rename_i k s1 hs1
    replace hs1 := h.takePacket hs1
    extract_lets +onlyGivenNames r ep body
    split
    · exact hs1.stale
    · extract_lets +onlyGivenNames guest
      refine .ite hs1.stale (.ite hs1 ?_)
      extract_lets s2 s3
      have hs2 : Canonical s2 := .ite hs1.modJob hs1
      have hs3 : Canonical s3 := .ite hs2 hs2.memberSendAt
      split
      exacts [hf hs3, hs3]

theorem Canonical.hello (h : Canonical s) : Canonical (hello s) := by
  unfold Machine.hello
  split
  · exact h
  · rename_i k s1 hs1
    replace hs1 := h.takePacket hs1
    extract_lets +onlyGivenNames forming
    exact .ite hs1.stale (h.onMember fun ha => .ite (.ite ha.modJob.tryForm ha.modJob.memberSend) (.ite ha.formFailed ha))

theorem Canonical.vote (h : Canonical s) : Canonical (vote s) := by
  unfold Machine.vote
  refine h.onMember fun ha => ?_
  extract_lets b code lost put
  exact .ite (.ite ha (((ha.foldl fun ha1 => .ite ha1 ha1.declareLost).modJob).voteRestart)) (.ite ha.modJob.tryRestored (.ite ha ha.modJob.tryVote))

theorem Canonical.decision (h : Canonical s) : Canonical (decision s) := by
  unfold Machine.decision
  refine h.onMember fun ha => ?_
  extract_lets b code gen step lost
  exact .ite ha.applyFormed (.ite ha.applyRestarted (.ite ha.applyRestart (.ite (.ite ha.restartFailed ha) (.ite ha ha.perStep))))

theorem Canonical.alert (h : Canonical s) : Canonical (alert s) := h.onMember fun ha => ha.declareLost

theorem Canonical.leave (h : Canonical s) : Canonical (leave s) := h.onMember fun ha => ha.declareLost

theorem Canonical.memberAck (h : Canonical s) : Canonical (memberAck s) := h.onMember fun ha => ha.modJob

theorem Canonical.heartbeat {job : Nat} (h : Canonical s) : Canonical (heartbeat job s) := by
  unfold Machine.heartbeat
  split
  exacts [h, .ite h (.ite h.modJob.memberSendAll (.ite h.modJob.sayHello h))]

theorem Canonical.heartbeatLost {job rank : Nat} (h : Canonical s) : Canonical (heartbeatLost job rank s) := by
  unfold Machine.heartbeatLost
  split
  exacts [h, .ite h.declareLost h]

theorem Canonical.memberResend {job : Nat} (h : Canonical s) : Canonical (memberResend job s) := by
  unfold Machine.memberResend
  split
  exacts [h, h.modJob.foldl fun ha => ha.sendPacket]

theorem Canonical.restartGatherExpired {job : Nat} (h : Canonical s) : Canonical (restartGatherExpired job s) := by
  unfold Machine.restartGatherExpired
  split
  exacts [h, .ite h.modJob.voteRestart h]

theorem Canonical.jobFormTimeout {job : Nat} (h : Canonical s) : Canonical (jobFormTimeout job s) := by
  unfold Machine.jobFormTimeout
  split
  exacts [h, .ite h.formFailed h]

theorem Canonical.losePeer {addr cause : Nat} (h : Canonical s) : Canonical (s.losePeer addr cause) := h.foldl fun ha => .ite ha.declareLost ha

theorem Canonical.resetNotice {p : Nat} (h : Canonical s) : Canonical (resetNotice p s) := .ite h h.losePeer

theorem Canonical.portDown {p : Nat} (h : Canonical s) : Canonical (portDown p s) := .ite h (.ite h.modPort.logFabric h.modPort.logFabric.losePeer)

theorem Canonical.mbJobCreate {m : Master} {p : Payload} (h : Canonical s) : Canonical (mbJobCreate m p s).1 := by
  unfold Machine.mbJobCreate
  refine h.checked ?_
  extract_lets +onlyGivenNames id c n rank a
  refine .iteFst h (.iteFst h (.iteFst h ?_))
  extract_lets +onlyGivenNames x
  refine .iteFst h (.iteFst h ?_)
  split
  · exact h
  · split
    exacts [h, .iteFst h (h.background fun ha => ha.frame.forms.sayHello)]

theorem Canonical.mbJobStatus {m : Master} {p : Payload} (h : Canonical s) : Canonical (mbJobStatus m p s).1 := by
  unfold Machine.mbJobStatus
  refine h.checked ?_
  split <;> exact h

theorem Canonical.mbJobLeave {m : Master} {p : Payload} (h : Canonical s) : Canonical (mbJobLeave m p s).1 := by
  unfold Machine.mbJobLeave
  refine h.checked ?_
  extract_lets +onlyGivenNames id
  split
  · exact h
  · refine h.background fun ha => (.ite ha.frame.dropHandle.readyOp ?_)
    extract_lets c t1 t2 t3 t4
    have ht1 : Canonical t1 := ha.leaveJob.modJob
    have ht2 : Canonical t2 := by unfold t2; split; exacts [ht1.finishOp, ht1]
    have ht3 : Canonical t3 := (ht2.foldl fun ha1 => ha1.setOutcome).modCtx
    have ht4 : Canonical t4 := by unfold t4; split; exacts [.ite ht3.rollOrCommit (.ite ht3.abandonStep ht3), .ite ht3.abandonStep ht3, ht3]
    exact ht4.readyOp

theorem Canonical.mbEcSetup {m : Master} {p : Payload} (h : Canonical s) : Canonical (mbEcSetup m p s).1 := by
  unfold Machine.mbEcSetup
  refine h.checked ?_
  extract_lets +onlyGivenNames id k rn
  refine .iteFst h (.iteFst h ?_)
  split
  · exact h
  · extract_lets +onlyGivenNames c x ch ar y ports meets
    refine .iteFst h (.iteFst h (.iteFst h (.iteFst h (.iteFst h ?_))))
    split
    exacts [h, .iteFst h (h.background fun ha => ha.ctxWrite.frame.modJob)]

theorem Canonical.mbJobRestart {m : Master} {p : Payload} (h : Canonical s) : Canonical (mbJobRestart m p s).1 := by
  unfold Machine.mbJobRestart
  refine h.checked ?_
  extract_lets +onlyGivenNames id c n rank a k rn
  refine .iteFst h (.iteFst h (.iteFst h (.iteFst h (.iteFst h ?_))))
  extract_lets +onlyGivenNames x old member b
  refine .iteFst h ?_
  extract_lets +onlyGivenNames bar
  clear_value bar
  split
  · exact h
  · extract_lets +onlyGivenNames fits
    refine .iteFst h (.iteFst h (h.background fun ha => ?_))
    extract_lets t1 _ t2
    have ht1 : Canonical t1 := ha.foldl fun ha1 => .ite ha1.startTraining ha1
    have ht2 : Canonical t2 := .ite ht1.modJob ht1.frame
    exact ht2.forms.sayHello

/-! ### Memory -/

theorem Canonical.slotWrite {c ch l tile : Nat} {flip : Link} {g : Prog} {al : Alloc} {cl : ChanList} {e : SlotEnt} {i n : Nat} (h : Canonical s) : Canonical (s.slotWrite c ch l tile flip g al cl e i n) := by
  unfold State.slotWrite
  extract_lets +onlyGivenNames st
  split
  · exact h.breach
  · extract_lets +onlyGivenNames s1 word go send
    split
    · exact h.modTile.frame
    · extract_lets x
      split
      exacts [h.modTile.wordFault.frame, h.modTile.frame]

theorem Canonical.slotRead {c ch l j : Nat} {mesh pro : Bool} {g : Prog} {al : Alloc} {cl : ChanList} {e : SlotEnt} {side : Bool} {i n : Nat} (h : Canonical s) : Canonical (s.slotRead c ch l j mesh pro g al cl e side i n) := h.frame

theorem Canonical.channelSlotIssue {c ch : Nat} {flip : Link} (h : Canonical s) : Canonical (channelSlotIssue c ch flip s) := by
  unfold Machine.channelSlotIssue
  extract_lets +onlyGivenNames x
  split
  · extract_lets +onlyGivenNames l cl t
    refine .ite h ?_
    extract_lets s1
    split
    · refine .ite h ?_
      split
      exacts [.ite h.modChan.slotRead h.modChan, h.modChan]
    · refine .ite h ?_
      split
      · refine .ite h.modChan.slotRead ?_
        split
        exacts [h.modChan.slotWrite, h.modChan]
      · exact h.modChan
  · exact h

theorem Canonical.dramReadArrival {c ch : Nat} {flips : List DramFlip} (h : Canonical s0) : Canonical (dramReadArrival c ch flips s0) := by
  unfold Machine.dramReadArrival
  extract_lets +onlyGivenNames s pro now
  refine .ite h.decay ?_
  split
  exacts [h.decay.modCtx.deliverRead, h.decay]

theorem Canonical.sramScrub {i : Nat} {lanes : Byte} {ecc : Ecc} (h : Canonical s) : Canonical (sramScrub i lanes ecc s) :=
    .ite h (.ite h.modTile.modTile.logErr (.ite h.modTile.modTile h.modTile))

theorem Canonical.dramScrub {ch : Nat} {flips : List DramFlip} (h : Canonical s0) : Canonical (dramScrub ch flips s0) := by
  unfold Machine.dramScrub
  extract_lets +onlyGivenNames s x
  exact .ite h.decay (.ite h.decay.modChan.engineEcc (.ite h.decay.modChan.engineEcc h.decay.modChan.modChan))

theorem Canonical.logRefresh {c : Nat} {l : List (Nat × Nat)} (h : Canonical s) : Canonical (s.logRefresh c l) := h.logErr

theorem Canonical.refreshClass {c : Nat} (h : Canonical s) : Canonical (s.refreshClass c) := by
  unfold State.refreshClass
  extract_lets +onlyGivenNames x
  split
  exacts [h, .ite h (.ite h.logRefresh.modCtx (.ite h.logRefresh.modCtx h))]

theorem Canonical.dramTempSample {temps : List (Fin 48 × ℤ)} (h : Canonical s) : Canonical (dramTempSample temps s) :=
    h.frame.frame.foldl fun ha => ha.refreshClass

theorem Canonical.selfRefreshReentry {ch : Nat} (h : Canonical s) : Canonical (selfRefreshReentry ch s) := .ite h.modChan h

/-! ### Sideband -/

/-- Every mailbox command keeps the shape. -/
theorem MbFun.KeepsForm.of_mbOf {code : Nat} {k : MbKind × MbFun} (hk : mbOf code = some k) : k.2.KeepsForm := by
  unfold mbOf at hk
  split at hk <;> cases hk
  exacts [
    @Canonical.mbIdentify, @Canonical.mbOpStatus, @Canonical.mbDescribe, @Canonical.mbResolve, @Canonical.mbChildren, @Canonical.mbStatus,
    @Canonical.mbCounters, @Canonical.mbGroupCreate, @Canonical.mbGroupEdit, @Canonical.mbGroupDelete, @Canonical.mbStartStatus, @Canonical.mbCtxCreate,
    @Canonical.mbCtxDestroy, @Canonical.mbCtxAlloc, @Canonical.mbCtxFree, @Canonical.mbCtxBind, @Canonical.mbCtxSuspend, @Canonical.mbCtxResume,
    @Canonical.mbQueueConfig, @Canonical.mbProgLoad, @Canonical.mbProgUnload, @Canonical.mbProgInfo, @Canonical.mbReset, @Canonical.mbFwRestart,
    @Canonical.mbModeSet, @Canonical.mbModeGet, @Canonical.mbPowerSet, @Canonical.mbFence, @Canonical.mbUnfence, @Canonical.mbTest, @Canonical.mbTestResult,
    @Canonical.mbLedgerRead, @Canonical.mbDumpTrigger, @Canonical.mbDumpInfo, @Canonical.mbDumpRead, @Canonical.mbDumpClear, @Canonical.mbErrlogRead,
    @Canonical.mbSettingsGet, @Canonical.mbSettingsSet, @Canonical.mbFwInfo, @Canonical.mbFwStageBegin, @Canonical.mbFwStageData,
    @Canonical.mbFwStageCommit, @Canonical.mbFwRecoveryLoad, @Canonical.mbFwSvnAdvance, @Canonical.mbKeyEnrol, @Canonical.mbKeyClear,
    @Canonical.mbKeyList, @Canonical.mbReelInfo, @Canonical.mbReelEject, @Canonical.mbReelSeal, @Canonical.mbReelFormat, @Canonical.mbPortStatus,
    @Canonical.mbVcBind, @Canonical.mbJobCreate, @Canonical.mbJobStatus, @Canonical.mbJobLeave, @Canonical.mbEcSetup, @Canonical.mbRouteSet,
    @Canonical.mbRouteGet, @Canonical.mbCollStatus, @Canonical.mbJobRestart]

theorem Canonical.ct0Gate {code : Nat} {f : MbFun} (hf : f.KeepsForm) {m : Master} {p : Payload} (h : Canonical s) : Canonical (ct0Gate code f m p s).1 :=
  .iteFst (.iteFst h h) (hf h)

theorem Canonical.withHandles {f : MbFun} (hf : f.KeepsForm) {m : Master} {p : Payload} (h : Canonical s) : Canonical (withHandles f m p s).1 := by
  unfold Machine.withHandles
  extract_lets +onlyGivenNames _ r
  have hr : Canonical r.1 := hf h.frame
  exact hr.frame

theorem Canonical.tunnelled {code : Nat} {p : Payload} (h : Canonical s) : Canonical (tunnelled code p s).1 := by
  unfold Machine.tunnelled
  extract_lets unknown k
  have hk : k.2.KeepsForm := by
    unfold k
    cases hc : mbOf code
    exacts [fun h => h, MbFun.KeepsForm.of_mbOf hc]
  refine .iteFst (h.gate fun h => h) (.iteFst (.iteFst (h.lockGate (.withHandles hk)) h) (.iteFst (h.gate fun h => ?_) (.iteFst h (h.gate (.ct0Gate hk)))))
  exact .iteFst (hk h) h

theorem Canonical.hostFinish (h : Canonical s) : Canonical s.hostFinish := by
  unfold State.hostFinish
  split
  · rename_i k hk
    exact .ite h.hostDumpRead (h.hostCmd (MbFun.KeepsForm.of_mbOf hk))
  · exact h

theorem Canonical.runTunnelled {tag : Byte} {code : Nat} {p : Payload} (h : Canonical s) : Canonical (s.runTunnelled tag code p) :=
    .ite ((Canonical.ite h.hostFinish h).frame) (((Canonical.ite h.hostFinish h).tunnelled).respond)

theorem Canonical.mbRequest {tag : Byte} {code : Nat} {p : Payload} (h : Canonical s) : Canonical (mbRequest tag code p s) :=
    .ite h (.ite h.runTunnelled (.ite h.emit.frame h.frame.runTunnelled))

theorem Canonical.lockAcquire {eid : Byte} (h : Canonical s) : Canonical (lockAcquire eid s) := .ite h h.frame.emit

theorem Canonical.lockRelease (h : Canonical s) : Canonical (lockRelease s) := .ite h h.frame.emit

theorem Canonical.dumpStreamAck {id next : Nat} (h : Canonical s) : Canonical (dumpStreamAck id next s) := by
  unfold Machine.dumpStreamAck
  split
  exacts [h, .ite h h.frame.pumpStream]

theorem Canonical.dumpStreamResend (h : Canonical s) : Canonical (dumpStreamResend s) := by
  unfold Machine.dumpStreamResend
  split
  exacts [h, .ite h h.frame.pumpStream]

theorem Canonical.setEndpointId {eid : Byte} (h : Canonical s) : Canonical (setEndpointId eid s) := .ite h (.ite h.emit h.frame.emit)

theorem Canonical.smbusFallback (h : Canonical s) : Canonical (smbusFallback s) := .ite h h.frame

theorem Canonical.entdaa {a : BitVec 7} (h : Canonical s) : Canonical (entdaa a s) := .ite h h.frame

theorem Canonical.setEventReceiver {eid : Byte} (h : Canonical s) : Canonical (setEventReceiver eid s) := .ite h h.frame.emit

theorem Canonical.refreshSensor {id : Nat} {v : ℤ} (h : Canonical s) : Canonical (s.refreshSensor id v) := by
  unfold State.refreshSensor
  extract_lets old event _ s1
  split
  exacts [.ite h.frame.emit h.frame, h.frame]

theorem Canonical.sensorRefresh {l : List (Nat × ℤ)} (h : Canonical s0) : Canonical (sensorRefresh l s0) :=
    .ite h ((Canonical.ite h.frame h.frame.frame).foldl fun ha => ha.refreshSensor)

theorem Canonical.askPart (h : Canonical s) : Canonical s.askPart := h.emit

theorem Canonical.requestUpdate {len : Nat} (h : Canonical s) : Canonical (requestUpdate len s) := .ite h (.ite h.emit h.frame.emit.askPart)

theorem Canonical.firmwareDataPart {off : Nat} {b : List Byte} (h : Canonical s) : Canonical (firmwareDataPart off b s) :=
    .ite h (.ite h.frame.askPart h.frame.beginCommit)

theorem Canonical.endUpdate (h : Canonical s) : Canonical s.endUpdate := h.frame

theorem Canonical.activateFirmware (h : Canonical s) : Canonical (activateFirmware s) := .ite h (.ite h.emit h.endUpdate.emit.beginRestart)

theorem Canonical.cancelUpdate (h : Canonical s) : Canonical (cancelUpdate s) := .ite h (.ite h.emit h.frame.endUpdate.emit)

theorem Canonical.spdm {code : Nat} {b : List Byte} (h : Canonical s) : Canonical (s.spdm code b) := h.emit

theorem Canonical.spdmError {e : Nat} (h : Canonical s) : Canonical (s.spdmError e) := h.spdm

theorem Canonical.getVersion (h : Canonical s) : Canonical (getVersion s) := .ite h.spdm h

theorem Canonical.getCapabilities (h : Canonical s) : Canonical (getCapabilities s) := .ite h.spdm h

theorem Canonical.negotiateAlgorithms (h : Canonical s) : Canonical (negotiateAlgorithms s) := .ite h.spdm h

theorem Canonical.getDigests (h : Canonical s) : Canonical (getDigests s) := .ite h.spdm h

theorem Canonical.getCertificate {off len : Nat} (h : Canonical s) : Canonical (getCertificate off len s) := .ite h (.ite h.spdmError h.spdm)

theorem Canonical.signed {code : Nat} {nonce : BitVec 256} {b : List RByte} (h : Canonical s) : Canonical (s.signed code nonce b) := h.spdm.frame

theorem Canonical.challenge {nonce : BitVec 256} (h : Canonical s) : Canonical (challenge nonce s) := .ite h (.ite h.spdmError h.signed)

theorem Canonical.getMeasurements {index : Nat} {sign : Bool} {nonce : BitVec 256} (h : Canonical s) : Canonical (getMeasurements index sign nonce s) :=
    .ite h (.ite h.spdmError (.ite h.spdmError (.ite h.signed h.spdm.frame)))

/-! ### Power -/

theorem Canonical.sendLevels (h : Canonical s) : Canonical s.sendLevels := h.foldl fun ha => .ite ha ha.modPt

theorem Canonical.limitLevelApply {p : Nat} (h : Canonical s) : Canonical (limitLevelApply p s) := h.foldl fun ha => ha.modPt

theorem Canonical.powerLimiterSample {x : PowerSample} (h : Canonical s) : Canonical (powerLimiterSample x s) :=
    .ite h ((Canonical.ite h.frame.logErr h.frame).sendLevels)

theorem Canonical.dropPt {p : Nat} (h : Canonical s) : Canonical (s.dropPt p) := by
  unfold State.dropPt
  extract_lets s1 s2
  have hs1 : Canonical s1 := by unfold s1; split; exacts [h.faultCtx, h]
  have hs2 : Canonical s2 := hs1.foldl fun ha => ha.retirePending
  exact hs2.darken.selfRefresh.modPt

theorem Canonical.tripPt {p i : Nat} {deg : ℤ} (h : Canonical s) : Canonical (s.tripPt p i deg) := h.logErr.dropPt.setRail.modPt

theorem Canonical.resetNotices (h : Canonical s) : Canonical s.resetNotices := h.foldl fun ha => .ite ha.emit ha

theorem Canonical.shutDown (h : Canonical s) : Canonical s.shutDown := by
  unfold State.shutDown
  extract_lets s0 s1 s2 s3 s4 _ _ s5 s6 _ s7
  have hs0 : Canonical s0 := h.resetNotices
  clear_value s0
  have hs1 : Canonical s1 := hs0.frame
  have hs2 : Canonical s2 := hs1.foldl fun ha => ha.dropHandle
  have hs3 : Canonical s3 := hs2.foldl fun ha => .ite ha ha.faultCtx.destroyCtx
  have hs4 : Canonical s4 := hs3.foldl fun ha => ha.finishOp
  clear_value s4
  have hs5 : Canonical s5 := hs4.frame
  clear_value s5
  have hs6 : Canonical s6 := hs5.foldl fun ha => ha.offPt.modPt
  clear_value s6
  exact hs6.frame.takeModPwr

theorem Canonical.oneTemp {x : TempReading} (h : Canonical s) : Canonical (s.oneTemp x) := by
  unfold State.oneTemp
  split
  · exact .ite h (.ite h.modPt h.modPt.tripPt)
  · exact .ite h (.ite h.frame h.frame.logErr.shutDown)

theorem Canonical.thermLevel {p : Nat} (h : Canonical s) : Canonical (s.thermLevel p) := by
  unfold State.thermLevel
  extract_lets x life t hottest hot cool up down s1 _ s2
  have hs2 : Canonical s2 := h.modPt.frame
  split
  exacts [hs2.logErr, hs2]

theorem Canonical.thermalSample {xs : List TempReading} (h : Canonical s) : Canonical (thermalSample xs s) :=
    .ite h (((h.frame.foldl fun ha => ha.oneTemp).foldl fun ha => ha.thermLevel).sendLevels)

theorem Canonical.thermtrip (h : Canonical s) : Canonical (thermtrip s) := .ite h h.frame.emit

theorem Canonical.avsUpdate {p mv readMv readMa : Nat} (h : Canonical s) : Canonical (avsUpdate p mv readMv readMa s) :=
    .ite h (.ite (((Canonical.ite h h.modPt).modPt).emit) (.ite h h.modPt))

theorem Canonical.idleEntry {p : Nat} (h : Canonical s) : Canonical (idleEntry p s) := .ite h h.modPt

theorem Canonical.pllLockTimeout {p : Nat} (h : Canonical s) : Canonical (pllLockTimeout p s) := .ite h (h.modPt.foldl fun ha => ha.abandonDwell)

theorem Canonical.railFault {rail : Nat} {c p : Option Nat} (h : Canonical s) : Canonical (s.railFault rail c p) := h.logErr

theorem Canonical.vcorePgFall {p : Nat} (h : Canonical s) : Canonical (vcorePgFall p s) := .ite h h.railFault.dropPt.modPt

theorem Canonical.vcorePgReturn {p : Nat} (h : Canonical s) : Canonical (vcorePgReturn p s) := .ite h h.modPt

theorem Canonical.vsocPgFall (h : Canonical s) : Canonical (vsocPgFall s) := .ite h h.railFault.shutDown

/-! ### Startup -/

/-- What power leaves is a module as it was made, and what lies on the cartridge. -/
theorem Canonical.powerKept (h : Canonical s) : Canonical s.powerKept := ⟨rfl, rfl, rfl, msixReset_wf, h.reelData_wf⟩

theorem Canonical.warmKept (h : Canonical s) : Canonical s.warmKept := by
  obtain ⟨hd, hpool, -, -, hr⟩ := h
  exact ⟨hd, hpool, rfl, msixReset_wf, hr⟩

theorem Canonical.startReel (h : Canonical s) : Canonical s.startReel := .ite h.setReel h

theorem Canonical.auxRemoval (h : Canonical s) : Canonical (auxRemoval s) := .ite h.powerKept h

theorem Canonical.auxArrival (h : Canonical s) : Canonical (auxArrival s) := .ite h h.frame

theorem Canonical.platRstN (h : Canonical s) : Canonical (platRstN s) := .ite h.acceptWarm h

theorem Canonical.wakeReqN (h : Canonical s) : Canonical (wakeReqN s) := .ite h.leaveM3 h

theorem Canonical.testModeEntry (h : Canonical s) : Canonical (testModeEntry s) := .ite h.frame h

theorem Canonical.warmReset (h : Canonical s) : Canonical (warmReset s) := by
  unfold Machine.warmReset
  refine .ite h ?_
  extract_lets s1 s2 s3
  have hs1 : Canonical s1 := h.resetNotices
  have hs2 : Canonical s2 := hs1.foldl fun ha => .ite ha.emit ha
  have hs3 : Canonical s3 := .ite hs2.emit hs2
  exact hs3.warmKept.startReel

theorem Canonical.stageAuxDone {straps : BitVec 2} (h : Canonical s) : Canonical (stageAuxDone straps s) := .ite h h.frame.endStage.startReel

theorem Canonical.awaitHost (h : Canonical s) : Canonical s.awaitHost := h.frame.raise

theorem Canonical.stageBootRomDone {src : Nat} {v : Verdict} (h : Canonical s) : Canonical (stageBootRomDone src v s) := by
  unfold Machine.stageBootRomDone
  refine .ite h (.ite (.ite h (.ite h.judgeImage.bootDone (.ite h.judgeImage.frame h.judgeImage.frame.awaitHost))) (.ite h ?_))
  exact .ite (.ite h (.ite h.judgeImage.writeFlash.bootDone h.judgeImage.awaitHost)) (.ite h h.fwCommitFinished)

theorem Canonical.recoveryHostWindowExpired (h : Canonical s) : Canonical (recoveryHostWindowExpired s) := .ite h.frame h

theorem Canonical.markEntry {e : List Byte} (h : Canonical s) : Canonical (s.markEntry e) := by
  unfold State.markEntry
  extract_lets +onlyGivenNames k loc det die
  exact .ite h.modTile (.ite h.modSheet (.ite h.modChan (.ite h.frame (.ite h.frame (.ite h.frame (.ite h.modPort h))))))

theorem Canonical.applyEntry {e : List Byte} (h : Canonical s) : Canonical (s.applyEntry e) := .ite h h.frame.markEntry

theorem Canonical.foundEntry {e : List Byte} (h : Canonical s) : Canonical (s.foundEntry e) := h.frame.applyEntry

theorem Canonical.startLog (h : Canonical s) : Canonical s.startLog := by
  unfold State.startLog
  extract_lets +onlyGivenNames early s1 s2
  have hs1 : Canonical s1 := by unfold s1; split; exacts [h.logErr, h]
  have hs2 : Canonical s2 := hs1.foldl fun ha => ha.frame.fsUpdate
  exact hs2.frame

theorem Canonical.haltStart {cause : Nat} (h : Canonical s) : Canonical (s.haltStart cause) := h.frame

theorem Canonical.stageRailsDone {fails : List (Fin 16)} (h : Canonical s) : Canonical (stageRailsDone fails s) := by
  unfold Machine.stageRailsDone
  refine .ite h ?_
  extract_lets _ s1 s2 s3 s4
  have hs1 : Canonical s1 := h.frame.emit
  have hs2 : Canonical s2 := hs1.foldl fun ha => .ite ha ha.setRail.modPt
  have hs3 : Canonical s3 := hs2.foldl fun ha => ha.markEntry
  have hs4 : Canonical s4 := hs3.foldl fun ha => ha.foundEntry.logErr
  exact .ite hs4.haltStart hs4.endStage.startLog

theorem Canonical.railPgTimeout {rail : Nat} (h : Canonical s) : Canonical (railPgTimeout rail s) := .ite h (.ite h.haltStart h.emit.modPt.railFault)

theorem Canonical.startFail {x : ColFail} {cond : BistCond} (h : Canonical s) : Canonical (s.startFail x cond) :=
    .ite h (.ite h.foundEntry.sheetCount h.bistFail.foundEntry.logErr)

theorem Canonical.stageBistDone {cols : List ColFail} {d2d : List D2dFail} {cond : BistCond} (h : Canonical s) : Canonical (stageBistDone cols d2d cond s) := by
  unfold Machine.stageBistDone
  refine .ite h ?_
  extract_lets s0 on s1 s2
  have hs0 : Canonical s0 := h.frame
  have hs1 : Canonical s1 := hs0.foundBist.foldl fun ha => ha.startFail
  have hs2 : Canonical s2 := hs1.foldl fun ha => .ite ha.foundEntry ha.modSheet
  exact hs2.endStage

theorem Canonical.trainAll (h : Canonical s) : Canonical s.trainAll := h.foldl fun ha => ha.modPort.startTraining

theorem Canonical.stageRepairRecordDone {badLedger : List W32} {v : Verdict} (h : Canonical s) : Canonical (stageRepairRecordDone badLedger v s) := by
  unfold Machine.stageRepairRecordDone
  refine .ite h ?_
  refine Canonical.endStage (Canonical.trainAll (.ite ?_ ?_))
  · extract_lets _ a new _ b
    have ha : Canonical a := (h.frame.foldl fun hb => hb.applyEntry).foldl fun hb => hb.applyEntry
    have hb : Canonical b := .ite ha ha.frame
    exact hb.foldl fun hc => hc.storeEntry
  · extract_lets _ _ a b
    have ha : Canonical a := h.frame.logErr.foldl fun hb => hb.applyEntry
    have hb : Canonical b := ha.foldl fun hc => hc.applyEntry
    exact .ite hb hb.frame.writeRepair

theorem Canonical.joinStages {n : Nat} (h : Canonical s) : Canonical (s.joinStages n) := h.endStage.frame

theorem Canonical.stageLpddr5xDone {broke : List Ch} (h : Canonical s) : Canonical (stageLpddr5xDone broke s) := by
  unfold Machine.stageLpddr5xDone
  refine .ite h ?_
  extract_lets s1 _ s2
  have hs1 : Canonical s1 := h.foldl fun ha => ha.breakChan
  have hs2 : Canonical s2 := ((hs1.withDram (m := if s.start.kind = 0 then [] else s1.dram) (by split; exacts [rfl, hs1.1])).withPool
    (m := if s.start.kind = 0 then [] else s1.pool) (by split; exacts [rfl, hs1.2.1])).frame
  exact hs2.joinStages

theorem Canonical.engineOff {kind d : Nat} (h : Canonical s) : Canonical (s.engineOff kind d) := .ite h h.applyEntry.storeEntry.logErr

theorem Canonical.stageLinksDone {nipFail ecFail : List (Fin 6)} {timedOut : Bool} (h : Canonical s) : Canonical (stageLinksDone nipFail ecFail timedOut s) :=
    .ite h ((((h.foldl fun ha => ha.engineOff).foldl fun ha => ha.engineOff).frame).joinStages)

theorem Canonical.stageSheetMapsDone (h : Canonical s) : Canonical (stageSheetMapsDone s) := by
  unfold Machine.stageSheetMapsDone
  exact .ite h (Canonical.endStage h.frame)

theorem Canonical.mailboxReady (h : Canonical s) : Canonical (mailboxReady s) := by
  unfold Machine.mailboxReady
  refine .ite h ?_
  extract_lets s1 s2 s3 s4 op _ s5
  have hs1 : Canonical s1 := .ite h.functionLevelReset h.frame
  have hs3 : Canonical s3 := hs1.frame.foldl fun ha => ha.modPt
  have hs4 : Canonical s4 := hs3.foldl fun ha => .ite ha ha.powerDefault
  clear_value s4
  have hs5 : Canonical s5 := hs4.frame.endStage
  exact hs5.finishOp?.fwUp

theorem Canonical.startupHalt {cause : Nat} (h : Canonical s) : Canonical (startupHalt cause s) := .ite h h.haltStart

/-! ### Every command -/

/-- Whatever state the outcome goes on to is shaped. -/
def CanonicalNext (o : Host.Outcome State Fault Refusal) : Prop := ∀ {t : State}, o = .next t → Canonical t

theorem CanonicalNext.next (h : Canonical s) : CanonicalNext (.next s) := fun ht => by cases ht; exact h

theorem CanonicalNext.nextOf (h : Canonical t) : CanonicalNext (Machine.nextOf s t) := CanonicalNext.next h.settle

theorem CanonicalNext.stop {r : Fault} : CanonicalNext (.fault r) := nofun

theorem CanonicalNext.ite {c : Prop} [Decidable c] {o o' : Host.Outcome State Fault Refusal} (h : CanonicalNext o) (h' : CanonicalNext o') :
    CanonicalNext (if c then o else o') := by split <;> assumption

/-- Every command keeps the shape: its own event does, and so does what follows it. -/
theorem canonicalNext_exec {i : Instr} (h : Canonical s) : CanonicalNext (exec i s) := by
  cases i with
  | identify => exact CanonicalNext.nextOf (h.hostCmd @Canonical.mbIdentify)
  | opStatus => exact CanonicalNext.nextOf (h.hostCmd @Canonical.mbOpStatus)
  | describe => exact CanonicalNext.nextOf (h.hostCmd @Canonical.mbDescribe)
  | resolve => exact CanonicalNext.nextOf (h.hostCmd @Canonical.mbResolve)
  | children => exact CanonicalNext.nextOf (h.hostCmd @Canonical.mbChildren)
  | status => exact CanonicalNext.nextOf (h.hostCmd @Canonical.mbStatus)
  | counters => exact CanonicalNext.nextOf (h.hostCmd @Canonical.mbCounters)
  | groupCreate => exact CanonicalNext.nextOf (h.hostCmd @Canonical.mbGroupCreate)
  | groupEdit => exact CanonicalNext.nextOf (h.hostCmd @Canonical.mbGroupEdit)
  | groupDelete => exact CanonicalNext.nextOf (h.hostCmd @Canonical.mbGroupDelete)
  | startStatus => exact CanonicalNext.nextOf (h.hostCmd @Canonical.mbStartStatus)
  | ctxCreate => exact CanonicalNext.nextOf (h.hostCmd @Canonical.mbCtxCreate)
  | ctxDestroy => exact CanonicalNext.nextOf (h.hostCmd @Canonical.mbCtxDestroy)
  | ctxAlloc => exact CanonicalNext.nextOf (h.hostCmd @Canonical.mbCtxAlloc)
  | ctxFree => exact CanonicalNext.nextOf (h.hostCmd @Canonical.mbCtxFree)
  | ctxBind => exact CanonicalNext.nextOf (h.hostCmd @Canonical.mbCtxBind)
  | ctxSuspend => exact CanonicalNext.nextOf (h.hostCmd @Canonical.mbCtxSuspend)
  | suspensionSaved => exact CanonicalNext.nextOf h.suspensionSaved
  | ctxResume => exact CanonicalNext.nextOf (h.hostCmd @Canonical.mbCtxResume)
  | resumptionFinished => exact CanonicalNext.nextOf h.resumptionFinished
  | queueConfig => exact CanonicalNext.nextOf (h.hostCmd @Canonical.mbQueueConfig)
  | progLoad => exact CanonicalNext.nextOf (h.hostCmd @Canonical.mbProgLoad)
  | progLoadFinished => exact CanonicalNext.nextOf h.progLoadFinished
  | progUnload => exact CanonicalNext.nextOf (h.hostCmd @Canonical.mbProgUnload)
  | progInfo => exact CanonicalNext.nextOf (h.hostCmd @Canonical.mbProgInfo)
  | reset => exact CanonicalNext.nextOf (h.hostCmd @Canonical.mbReset)
  | partitionResetEnd => exact CanonicalNext.nextOf h.partitionResetEnd
  | fwRestart => exact CanonicalNext.nextOf (h.hostCmd @Canonical.mbFwRestart)
  | fwRestartEnd => exact CanonicalNext.nextOf h.fwRestartEnd
  | modeSet => exact CanonicalNext.nextOf (h.hostCmd @Canonical.mbModeSet)
  | modeUnitApplied => exact CanonicalNext.nextOf h.modeUnitApplied
  | modeGet => exact CanonicalNext.nextOf (h.hostCmd @Canonical.mbModeGet)
  | powerSet => exact CanonicalNext.nextOf (h.hostCmd @Canonical.mbPowerSet)
  | powerStateReached => exact CanonicalNext.nextOf h.powerStateReached
  | fence => exact CanonicalNext.nextOf (h.hostCmd @Canonical.mbFence)
  | unfence => exact CanonicalNext.nextOf (h.hostCmd @Canonical.mbUnfence)
  | test => exact CanonicalNext.nextOf (h.hostCmd @Canonical.mbTest)
  | testFinished => exact CanonicalNext.nextOf h.testFinished
  | testResult => exact CanonicalNext.nextOf (h.hostCmd @Canonical.mbTestResult)
  | ledgerRead => exact CanonicalNext.nextOf (h.hostCmd @Canonical.mbLedgerRead)
  | errlogRead => exact CanonicalNext.nextOf (h.hostCmd @Canonical.mbErrlogRead)
  | dumpTrigger => exact CanonicalNext.nextOf (h.hostCmd @Canonical.mbDumpTrigger)
  | dumpInfo => exact CanonicalNext.nextOf (h.hostCmd @Canonical.mbDumpInfo)
  | dumpRead => exact CanonicalNext.nextOf h.hostDumpRead
  | dumpClear => exact CanonicalNext.nextOf (h.hostCmd @Canonical.mbDumpClear)
  | settingsGet => exact CanonicalNext.nextOf (h.hostCmd @Canonical.mbSettingsGet)
  | settingsSet => exact CanonicalNext.nextOf (h.hostCmd @Canonical.mbSettingsSet)
  | fwInfo => exact CanonicalNext.nextOf (h.hostCmd @Canonical.mbFwInfo)
  | fwStageBegin => exact CanonicalNext.nextOf (h.hostCmd @Canonical.mbFwStageBegin)
  | fwStageData => exact CanonicalNext.nextOf (h.hostCmd @Canonical.mbFwStageData)
  | fwStageCommit => exact CanonicalNext.nextOf (h.hostCmd @Canonical.mbFwStageCommit)
  | fwCommitFinished => exact CanonicalNext.nextOf h.fwCommitFinished
  | fwRecoveryLoad => exact CanonicalNext.nextOf (h.hostCmd @Canonical.mbFwRecoveryLoad)
  | fwSvnAdvance => exact CanonicalNext.nextOf (h.hostCmd @Canonical.mbFwSvnAdvance)
  | keyEnrol => exact CanonicalNext.nextOf (h.hostCmd @Canonical.mbKeyEnrol)
  | keyClear => exact CanonicalNext.nextOf (h.hostCmd @Canonical.mbKeyClear)
  | keyList => exact CanonicalNext.nextOf (h.hostCmd @Canonical.mbKeyList)
  | reelInfo => exact CanonicalNext.nextOf (h.hostCmd @Canonical.mbReelInfo)
  | reelEject => exact CanonicalNext.nextOf (h.hostCmd @Canonical.mbReelEject)
  | reelSeal => exact CanonicalNext.nextOf (h.hostCmd @Canonical.mbReelSeal)
  | reelFormat => exact CanonicalNext.nextOf (h.hostCmd @Canonical.mbReelFormat)
  | reelOpFinished => exact CanonicalNext.nextOf h.reelOpFinished
  | portStatus => exact CanonicalNext.nextOf (h.hostCmd @Canonical.mbPortStatus)
  | vcBind => exact CanonicalNext.nextOf (h.hostCmd @Canonical.mbVcBind)
  | routeSet => exact CanonicalNext.nextOf (h.hostCmd @Canonical.mbRouteSet)
  | routeGet => exact CanonicalNext.nextOf (h.hostCmd @Canonical.mbRouteGet)
  | collStatus => exact CanonicalNext.nextOf (h.hostCmd @Canonical.mbCollStatus)
  | jobCreate => exact CanonicalNext.nextOf (h.hostCmd @Canonical.mbJobCreate)
  | jobStatus => exact CanonicalNext.nextOf (h.hostCmd @Canonical.mbJobStatus)
  | jobLeave => exact CanonicalNext.nextOf (h.hostCmd @Canonical.mbJobLeave)
  | ecSetup => exact CanonicalNext.nextOf (h.hostCmd @Canonical.mbEcSetup)
  | jobRestart => exact CanonicalNext.nextOf (h.hostCmd @Canonical.mbJobRestart)
  | mbDoneClear => exact CanonicalNext.nextOf h.mbDoneClear
  | lockAcquireHost => exact CanonicalNext.nextOf h.lockAcquireHost
  | lockReleaseHost => exact CanonicalNext.nextOf h.lockReleaseHost
  | preemptedClear => exact CanonicalNext.nextOf h.preemptedClear
  | intCauseClear => exact CanonicalNext.nextOf h.intCauseClear
  | intMaskWrite => exact CanonicalNext.nextOf h.intMaskWrite
  | registerWrite => exact CanonicalNext.ite CanonicalNext.stop (CanonicalNext.nextOf h.registerWrite)
  | dbTailWrite => exact CanonicalNext.nextOf h.dbTailWrite
  | dbStop => exact CanonicalNext.nextOf h.dbStop
  | dbRestart => exact CanonicalNext.nextOf h.dbRestart
  | entryFetched => exact CanonicalNext.nextOf h.entryFetched
  | entryStart => exact CanonicalNext.nextOf h.entryStart
  | waitDeadlineExpired => exact CanonicalNext.nextOf h.waitDeadlineExpired
  | entryComplete => exact CanonicalNext.nextOf h.entryComplete
  | run => exact CanonicalNext.nextOf h.run
  | stop => exact CanonicalNext.nextOf h.stop
  | reconfig => exact CanonicalNext.nextOf h.reconfig
  | copy => exact CanonicalNext.nextOf h.copy
  | feed => exact CanonicalNext.nextOf h.feed
  | fill => exact CanonicalNext.nextOf h.fillMem
  | rxBind => exact CanonicalNext.nextOf h.rxBind
  | rxUnbind => exact CanonicalNext.nextOf h.rxUnbind
  | send => exact CanonicalNext.nextOf h.send
  | requestOpen => exact CanonicalNext.nextOf h.requestOpen
  | requestSubmit => exact CanonicalNext.nextOf h.requestSubmit
  | requestClose => exact CanonicalNext.nextOf h.requestClose
  | requestQuery => exact CanonicalNext.nextOf h.requestQuery
  | syncBind => exact CanonicalNext.nextOf h.syncBind
  | syncUnbind => exact CanonicalNext.nextOf h.syncUnbind
  | syncOpRead => exact CanonicalNext.nextOf h.syncOpRead
  | syncOpAdd => exact CanonicalNext.nextOf h.syncOpAdd
  | collective => exact CanonicalNext.nextOf h.collective
  | ecRefresh => exact CanonicalNext.nextOf h.ecRefresh
  | ecRebuild => exact CanonicalNext.nextOf h.ecRebuild
  | watermark => exact CanonicalNext.nextOf h.watermarkEntry
  | replicaCheck => exact CanonicalNext.nextOf h.replicaCheck
  | messageCopyDecided => exact CanonicalNext.nextOf h.messageCopyDecided
  | busMasterEnableSet => exact CanonicalNext.nextOf h.busMasterSet
  | cxlMemRead => exact CanonicalNext.ite CanonicalNext.stop (CanonicalNext.nextOf h.cxlMemRead)
  | cxlMemWrite => exact CanonicalNext.ite CanonicalNext.stop (CanonicalNext.nextOf h.cxlMemWrite)
  | functionLevelReset => exact CanonicalNext.nextOf h.functionLevelReset
  | lockIdleExpired => exact CanonicalNext.nextOf h.lockIdleExpired
  | backgroundOpFinished => exact CanonicalNext.nextOf h.backgroundOpFinished
  | routeCycle => exact CanonicalNext.nextOf h.routeCycle
  | issueEntryAdvance => exact CanonicalNext.nextOf h.issueEntryAdvance
  | foldSlotSwitch => exact CanonicalNext.nextOf h.foldSlotSwitch
  | externalWaitPoint => exact CanonicalNext.nextOf h.externalWaitPoint
  | holdRelease => exact CanonicalNext.nextOf h.holdRelease
  | calenderPoint => exact CanonicalNext.nextOf h.calenderPoint
  | catchupDone => exact CanonicalNext.nextOf h.catchupDone
  | prologueEnd => exact CanonicalNext.nextOf h.prologueEnd
  | prologueOverrun => exact CanonicalNext.nextOf h.prologueOverrun
  | calenderOverdue => exact CanonicalNext.nextOf h.calenderOverdue
  | hung => exact CanonicalNext.nextOf h.hung
  | programWaitDeadline => exact CanonicalNext.nextOf h.programWaitDeadline
  | channelSlotIssue => exact CanonicalNext.nextOf h.channelSlotIssue
  | dramReadArrival => exact CanonicalNext.nextOf h.dramReadArrival
  | readBufferEmit => exact CanonicalNext.nextOf h.readBufferEmit
  | sramScrub => exact CanonicalNext.nextOf h.sramScrub
  | dramScrub => exact CanonicalNext.nextOf h.dramScrub
  | dramTempSample => exact CanonicalNext.nextOf h.dramTempSample
  | telemetrySnapshot => exact CanonicalNext.nextOf h.telemetrySnapshot
  | messagePlaneSlot => exact CanonicalNext.nextOf h.messagePlaneSlot
  | maintenanceSlot => exact CanonicalNext.nextOf h.maintenanceSlot
  | dwellStart => exact CanonicalNext.nextOf h.dwellStart
  | zeroiseDone => exact CanonicalNext.nextOf h.zeroiseDone
  | marchDone => exact CanonicalNext.nextOf h.marchDone
  | logicBistDone => exact CanonicalNext.nextOf h.logicBistDone
  | marginBistDone => exact CanonicalNext.nextOf h.marginBistDone
  | softRepair => exact CanonicalNext.nextOf h.softRepairEvent
  | couchInDone => exact CanonicalNext.nextOf h.couchInDone
  | spareMove => exact CanonicalNext.nextOf h.spareMove
  | replicaReportsGathered => exact CanonicalNext.nextOf h.replicaReportsGathered
  | replicaRebuildDone => exact CanonicalNext.nextOf h.replicaRebuildDone
  | phyCheck => exact CanonicalNext.nextOf h.phyCheck
  | coreWatchdogExpired => exact CanonicalNext.nextOf h.coreWatchdogExpired
  | controlDieHeartbeat => exact CanonicalNext.nextOf h.controlDieHeartbeat
  | controlDieLost => exact CanonicalNext.nextOf h.controlDieLost
  | dumpUnitTimeout => exact CanonicalNext.nextOf h.dumpUnitTimeout
  | dumpTargetFailed => exact CanonicalNext.nextOf h.dumpTargetFailed
  | dumpWritten => exact CanonicalNext.nextOf h.dumpWritten
  | mbRequest => exact CanonicalNext.nextOf h.mbRequest
  | lockAcquire => exact CanonicalNext.nextOf h.lockAcquire
  | lockRelease => exact CanonicalNext.nextOf h.lockRelease
  | dumpStreamAck => exact CanonicalNext.nextOf h.dumpStreamAck
  | dumpStreamResend => exact CanonicalNext.nextOf h.dumpStreamResend
  | setEndpointId => exact CanonicalNext.nextOf h.setEndpointId
  | smbusFallback => exact CanonicalNext.nextOf h.smbusFallback
  | setEventReceiver => exact CanonicalNext.nextOf h.setEventReceiver
  | sensorRefresh => exact CanonicalNext.nextOf h.sensorRefresh
  | requestUpdate => exact CanonicalNext.nextOf h.requestUpdate
  | activateFirmware => exact CanonicalNext.nextOf h.activateFirmware
  | cancelUpdate => exact CanonicalNext.nextOf h.cancelUpdate
  | getVersion => exact CanonicalNext.nextOf h.getVersion
  | getCapabilities => exact CanonicalNext.nextOf h.getCapabilities
  | negotiateAlgorithms => exact CanonicalNext.nextOf h.negotiateAlgorithms
  | getDigests => exact CanonicalNext.nextOf h.getDigests
  | getCertificate => exact CanonicalNext.nextOf h.getCertificate
  | challenge => exact CanonicalNext.nextOf h.challenge
  | getMeasurements => exact CanonicalNext.nextOf h.getMeasurements
  | fabricPacketRx => exact CanonicalNext.nextOf h.fabricPacketRx
  | creditReturn => exact CanonicalNext.nextOf h.creditReturn
  | ethernetFrameRx => exact CanonicalNext.nextOf h.ethernetFrameRx
  | contrib => exact CanonicalNext.nextOf h.contrib
  | result => exact CanonicalNext.nextOf h.result
  | data => exact CanonicalNext.nextOf h.data
  | ack => exact CanonicalNext.nextOf h.ack
  | reissueReq => exact CanonicalNext.nextOf h.reissueReq
  | pending => exact CanonicalNext.nextOf h.pending
  | digest => exact CanonicalNext.nextOf h.digest
  | collectiveOccurrenceStart => exact CanonicalNext.nextOf h.collectiveOccurrenceStart
  | collectiveOccurrenceDone => exact CanonicalNext.nextOf h.collectiveOccurrenceDone
  | nipWaitExpired => exact CanonicalNext.nextOf h.nipWaitExpired
  | portTrained => exact CanonicalNext.nextOf h.portTrained
  | portDown => exact CanonicalNext.nextOf h.portDown
  | heartbeat => exact CanonicalNext.nextOf h.heartbeat
  | heartbeatLost => exact CanonicalNext.nextOf h.heartbeatLost
  | hello => exact CanonicalNext.nextOf h.hello
  | vote => exact CanonicalNext.nextOf h.vote
  | decision => exact CanonicalNext.nextOf h.decision
  | alert => exact CanonicalNext.nextOf h.alert
  | leave => exact CanonicalNext.nextOf h.leave
  | memberAck => exact CanonicalNext.nextOf h.memberAck
  | resetNotice => exact CanonicalNext.nextOf h.resetNotice
  | memberResend => exact CanonicalNext.nextOf h.memberResend
  | restartGatherExpired => exact CanonicalNext.nextOf h.restartGatherExpired
  | jobFormTimeout => exact CanonicalNext.nextOf h.jobFormTimeout
  | ecGenerationComplete => exact CanonicalNext.nextOf h.ecGenerationComplete
  | powerLimiterSample => exact CanonicalNext.nextOf h.powerLimiterSample
  | thermalSample => exact CanonicalNext.nextOf h.thermalSample
  | thermtrip => exact CanonicalNext.nextOf h.thermtrip
  | avsUpdate => exact CanonicalNext.nextOf h.avsUpdate
  | idleEntry => exact CanonicalNext.nextOf h.idleEntry
  | limitLevelApply => exact CanonicalNext.nextOf h.limitLevelApply
  | pllLockTimeout => exact CanonicalNext.nextOf h.pllLockTimeout
  | vcorePgFall => exact CanonicalNext.nextOf h.vcorePgFall
  | vsocPgFall => exact CanonicalNext.nextOf h.vsocPgFall
  | auxArrival => exact CanonicalNext.nextOf h.auxArrival
  | auxRemoval => exact CanonicalNext.next h.auxRemoval
  | platRstN => exact CanonicalNext.nextOf h.platRstN
  | wakeReqN => exact CanonicalNext.nextOf h.wakeReqN
  | testModeEntry => exact CanonicalNext.nextOf h.testModeEntry
  | warmReset => exact CanonicalNext.next h.warmReset
  | stageAuxDone => exact CanonicalNext.nextOf h.stageAuxDone
  | stageBootRomDone => exact CanonicalNext.nextOf h.stageBootRomDone
  | stageRailsDone => exact CanonicalNext.nextOf h.stageRailsDone
  | railPgTimeout => exact CanonicalNext.nextOf h.railPgTimeout
  | stageBistDone => exact CanonicalNext.nextOf h.stageBistDone
  | stageRepairRecordDone => exact CanonicalNext.nextOf h.stageRepairRecordDone
  | stageLpddr5xDone => exact CanonicalNext.nextOf h.stageLpddr5xDone
  | stageLinksDone => exact CanonicalNext.nextOf h.stageLinksDone
  | stageSheetMapsDone => exact CanonicalNext.nextOf h.stageSheetMapsDone
  | mailboxReady => exact CanonicalNext.nextOf h.mailboxReady
  | startupHalt => exact CanonicalNext.nextOf h.startupHalt
  | reelLatchOpen => exact CanonicalNext.nextOf h.reelLatchOpen
  | reelLatchClose => exact CanonicalNext.nextOf h.reelLatchClose
  | reelStartingDone => exact CanonicalNext.nextOf h.reelStartingDone
  | reelHealthPoll => exact CanonicalNext.nextOf h.reelHealthPoll
  | reelCommandTimeout => exact CanonicalNext.nextOf h.reelCommandTimeout
  | reelAccessDone => exact CanonicalNext.nextOf h.reelAccessDone
  | busMasterEnableClear => exact CanonicalNext.nextOf h.busMasterClear
  | feedDataReachedLpddr5x => exact CanonicalNext.nextOf h.feedDataReached
  | selfRefreshReentry => exact CanonicalNext.nextOf h.selfRefreshReentry
  | vcorePgReturn => exact CanonicalNext.nextOf h.vcorePgReturn
  | entdaa => exact CanonicalNext.nextOf h.entdaa
  | firmwareDataPart => exact CanonicalNext.nextOf h.firmwareDataPart
  | externalTestScanAccess => exact CanonicalNext.nextOf h.externalTestScanAccess
  | cxlLinkTraining => exact CanonicalNext.nextOf h.cxlLinkTraining
  | replicaRebuildTimeout => exact CanonicalNext.nextOf h.replicaRebuildTimeout
  | snapshotCopyComplete => exact CanonicalNext.nextOf h.snapshotCopyComplete
  | dumpPartitionReadDone => exact CanonicalNext.nextOf h.dumpPartitionReadDone
  | recoveryHostWindowExpired => exact CanonicalNext.nextOf h.recoveryHostWindowExpired
  | controlCoreRestartDone => exact CanonicalNext.nextOf h.controlCoreRestartDone
  | restartStateRestored => exact CanonicalNext.nextOf h.restartStateRestored

end

end Sys2Proof.Machine

open Sys2Proof.Machine in
/-- Settles O5: a step is the command at the front of the queue, and every command keeps the memories' form. -/
theorem stepKeepsMemoryForm : Obligations.StepKeepsMemoryForm := by
  intro s t h ht
  unfold step at ht
  split at ht
  · cases ht
    exact h
  · exact canonicalNext_exec h.frame ht

namespace Sys2Proof.Machine

section
variable {s : State} {tag : Byte} {code : Nat} {p : Payload} {kind : MbKind} {f : MbFun}

/-! ### What a tunnelled command comes to (R294, R295, R613, R705) -/

/-- A request is outstanding (R613). -/
def State.asked (s : State) (tag : Byte) : State := { s with side := { s.side with outstanding := some tag } }

/-- With CT0 in service a tunnelled command runs as it stands. -/
theorem ct0Gate_of_up (h : s.dies.ct0Lost = false) {m : Master} : ct0Gate code f m p s = f m p s := by simp [ct0Gate, h]

/-- After mailbox ready, with firmware that accepts commands, a tunnelled command comes to the lock. -/
theorem tunnelled_ready (hst : s.start.stage = 0xA) (hm3 : s.start.pwr ≠ .m3) (hrdy : s.host.fwReady = true) (hfw : s.mgmt.fw ≠ .recovery)
    (hk : mbOf code = some (kind, f)) (hlen : p.length ≤ 4096) : tunnelled code p s = lockGate kind (ct0Gate code f) .sideband p s := by
  simp [tunnelled, gate, hst, hm3, hrdy, hfw, hk, Nat.not_lt.2 hlen]

/-- Before mailbox ready a command that is not served then answers BUSY (R705). -/
theorem tunnelled_early (hst : s.start.stage ≠ 0xA) (hlen : p.length ≤ 4096) (he : earlyServes code p s = false) :
    tunnelled code p s = (s, err busy) := by
  simp [tunnelled, hst, he, Nat.not_lt.2 hlen]

theorem lockGate_runs (h : kind = .q ∨ s.host.owner = .sideband) : lockGate kind f .sideband p s = f .sideband p s := by
  rcases h with h | h <;> simp [lockGate, ownerIs, h]

theorem lockGate_preempts (hk : kind = .bp) (ho : s.host.owner = .host) :
    lockGate kind f .sideband p s = freeAfter (f .sideband p s.preempt) := by
  simp [lockGate, ownerIs, hk, ho]

theorem lockGate_denied (hk : kind ≠ .q) (ho : s.host.owner = .free ∨ (s.host.owner = .host ∧ kind ≠ .bp)) :
    lockGate kind f .sideband p s = (s, err denied) := by
  rcases ho with ho | ⟨ho, hb⟩
  · simp [lockGate, ownerIs, hk, ho]
  · simp [lockGate, ownerIs, hk, ho, hb]

@[simp] theorem State.preempt_dies : s.preempt.dies = s.dies := State.raise_dies _ _

/-! ### A request that waits, and one that is carried out -/

/-- A request does not pre-empt a command of the host in progress: the mailbox is idle, the host has no lock, or the kind is none that may. -/
theorem preemptsBusy_false (hk : mbOf code = some (kind, f)) (h : s.host.busy = false ∨ s.host.owner ≠ .host ∨ kind ≠ .bp) :
    s.preemptsBusy code = false := by
  rcases h with h | h | h <;> simp [State.preemptsBusy, hk, h]

theorem preemptsBusy_of_idle (h : s.host.busy = false) : s.preemptsBusy code = false := by simp [State.preemptsBusy, h]

/-- A DUMP_READ waits only for a master that may run it (R277). -/
theorem dumpWaits_false_of_free (h : s.host.owner = .free) : s.dumpWaits .sideband p = false := by simp [State.dumpWaits, ownerIs, h]

theorem runTunnelled_answers (hb : s.preemptsBusy code = false)
    (hw : code = 0x72 → s.start.stage = 0xA → s.dumpWaits .sideband p = false) :
    s.runTunnelled tag code p = State.respond (tunnelled code p s) tag := by
  have hwait : ¬(code = 0x0072 ∧ s.start.stage = 0xA ∧ s.start.pwr ≠ .m3 ∧ s.dumpWaits .sideband p = true) :=
    fun ⟨hc, hst, _, hd⟩ => by simp [hw hc hst] at hd
  simp [State.runTunnelled, hb, hwait]

theorem runTunnelled_waits (hb : s.preemptsBusy 0x72 = false) (hst : s.start.stage = 0xA) (hm3 : s.start.pwr ≠ .m3)
    (hw : s.dumpWaits .sideband p = true) :
    s.runTunnelled tag 0x72 p = { s with side := { s.side with held := some (tag, 0x72, p) } } := by
  simp [State.runTunnelled, hb, hst, hm3, hw]

/-- A request that is the only one is looked at. -/
theorem mbRequest_runs (hup : s.sideUp = true) (hout : s.side.outstanding = none) (hheld : s.side.held = none) :
    mbRequest tag code p s = (s.asked tag).runTunnelled tag code p := by
  simp [mbRequest, State.asked, hup, hout, hheld]

theorem mbRequest_second (hup : s.sideUp = true) (hout : s.side.outstanding ≠ none) (hheld : s.side.held ≠ some (tag, code, p)) :
    mbRequest tag code p s = { s.emit (.mbResponse tag busy (fill s.fresh (err busy).bytes)) with
      fresh := s.fresh + (fill s.fresh (err busy).bytes).length } := by
  simp [mbRequest, hup, Option.isSome_iff_ne_none.2 hout, hheld]

/-- A request answered without effect leaves the sideband as it was. -/
theorem respond_asked {r : Resp} (hout : s.side.outstanding = none) (hheld : s.side.held = none) :
    State.respond (s.asked tag, r) tag = { s with
      outbox := s.outbox ++ [.mbResponse tag r.status (fill s.fresh r.bytes)], fresh := s.fresh + (fill s.fresh r.bytes).length } := by
  unfold State.respond State.asked State.emit
  conv_rhs => rw [show s = { s with side := { s.side with outstanding := none, held := none } } by rw [← hout, ← hheld]]

/-! ### The lock over the sideband (R293, R614) -/

theorem lockAcquire_gains (hup : s.sideUp = true) (ho : s.host.owner = .free ∨ s.host.owner = .sideband) {eid : Byte} :
    lockAcquire eid s = { s with
      host := { s.host with owner := .sideband }, side := { s.side with lockEid := some eid }
      outbox := s.outbox ++ [.lockState (if s.host.preempted then 160 else 128)] } := by
  rcases ho with ho | ho <;> cases hp : s.host.preempted <;> simp [lockAcquire, State.emit, State.ownerByte, hup, ho, hp]

theorem lockAcquire_fails (hup : s.sideUp = true) (ho : s.host.owner = .host) {eid : Byte} :
    lockAcquire eid s = { s with
      side := { s.side with lockEid := some eid }, outbox := s.outbox ++ [.lockState (if s.host.preempted then 96 else 64)] } := by
  conv_rhs => rw [show s = { s with host := { s.host with owner := .host } } by rw [← ho]]
  cases hp : s.host.preempted <;> simp [lockAcquire, State.emit, State.ownerByte, hup, ho, hp]

theorem lockRelease_frees (hup : s.sideUp = true) (ho : s.host.owner = .free ∨ s.host.owner = .sideband) :
    lockRelease s = { s with
      host := { s.host with owner := .free }, outbox := s.outbox ++ [.lockState (if s.host.preempted then 32 else 0)] } := by
  rcases ho with ho | ho <;> cases hp : s.host.preempted <;> simp [lockRelease, State.emit, State.ownerByte, hup, ho, hp]

theorem lockRelease_fails (hup : s.sideUp = true) (ho : s.host.owner = .host) :
    lockRelease s = { s with outbox := s.outbox ++ [.lockState (if s.host.preempted then 96 else 64)] } := by
  conv_rhs => rw [show s = { s with host := { s.host with owner := .host } } by rw [← ho]]
  cases hp : s.host.preempted <;> simp [lockRelease, State.emit, State.ownerByte, hup, ho, hp]

/-! ### How MB_REQUEST answers -/

section
variable {w : W16} (hup : s.sideUp = true) (hout : s.side.outstanding = none) (hheld : s.side.held = none)
include hup hout hheld

/-- A request that is carried out at once is answered with what the command makes of the state. -/
theorem mbRequest_carried {r : State × Resp} (hb : (s.asked tag).preemptsBusy w.toNat = false)
    (hw : w.toNat = 0x72 → s.start.stage = 0xA → s.dumpWaits .sideband p = false)
    (hr : tunnelled w.toNat p (s.asked tag) = r) : Makes (.mbRequest tag w p) s (State.respond r tag) := by
  refine makes_of (congrArg (nextOf s) ?_)
  rw [mbRequest_runs hup hout hheld, runTunnelled_answers hb hw, hr]

/-- A request answered without effect. -/
theorem mbRequest_refused {r : Resp} (hb : (s.asked tag).preemptsBusy w.toNat = false)
    (hw : w.toNat = 0x72 → s.start.stage = 0xA → s.dumpWaits .sideband p = false)
    (hr : tunnelled w.toNat p (s.asked tag) = (s.asked tag, r)) : ∃ b : List Byte, b.length = r.bytes.length ∧
      Makes (.mbRequest tag w p) s { s with outbox := s.outbox ++ [.mbResponse tag r.status b], fresh := s.fresh + b.length } := by
  refine ⟨_, length_fill s.fresh r.bytes, ?_⟩
  rw [← respond_asked hout hheld]
  exact mbRequest_carried hup hout hheld hb hw hr

end

end
end Sys2Proof.Machine

open Sys2Proof.Machine in
/-- Settles O55: each clause is the answer of the command with the port, the lock and the request outstanding as it names them. -/
theorem sidebandMailbox : Obligations.SidebandMailbox := by
  intro s
  refine ⟨fun tag code p hup => makes_of (congrArg (nextOf s) (if_pos (by simp [hup]))), fun tag code p hup hout hheld => ?_,
    fun tag code p kind f u r hup hout hheld hst hm3 hrdy hfw hct0 hk hlen hu => ?_, fun tag code p hup hout hheld hst hb hlen he => ?_,
    fun eid hup => ⟨fun ho => ?_, fun ho => ?_, fun ho => ?_, fun ho => ?_⟩, fun hup => ⟨?_, fun eid => ?_⟩⟩
  · exact ⟨_, length_fill s.fresh _, makes_of (congrArg (nextOf s) (mbRequest_second hup hout hheld))⟩
  · change u = s.asked tag at hu
    subst hu
    have htun : tunnelled code.toNat p (s.asked tag) = lockGate kind (ct0Gate code.toNat f) .sideband p (s.asked tag) :=
      tunnelled_ready hst hm3 hrdy hfw hk hlen
    refine ⟨fun hw hr => ?_, fun hq ho => ?_, fun hc hb hw => ?_⟩
    · have hbusy : (s.asked tag).preemptsBusy code.toNat = false := preemptsBusy_false hk (by
        rcases hr with ⟨rfl | ho, -⟩ | ⟨-, -, hb, -⟩
        exacts [.inr (.inr nofun), .inr (.inl (by rw [show (s.asked tag).host.owner = _ from ho]; nofun)), .inl hb])
      have htr : tunnelled code.toNat p (s.asked tag) = r := by
        rw [htun]
        rcases hr with ⟨hrun, rfl⟩ | ⟨rfl, ho, -, rfl⟩
        · exact (lockGate_runs (s := s.asked tag) hrun).trans (ct0Gate_of_up (s := s.asked tag) hct0)
        · exact (lockGate_preempts (s := s.asked tag) rfl ho).trans (congrArg freeAfter (ct0Gate_of_up (by rw [State.preempt_dies]; exact hct0)))
      refine ⟨fill r.1.fresh r.2.bytes, length_fill _ _, fun i x hx => ?_,
        mbRequest_carried hup hout hheld hbusy (fun hc _ => hw.resolve_left (not_not.2 hc)) htr⟩
      obtain ⟨hi, hval⟩ := fill_value (n := r.1.fresh) hx
      exact ⟨_, by rw [List.getElem?_eq_getElem hi, hval]⟩
    · have hbusy : (s.asked tag).preemptsBusy code.toNat = false :=
        preemptsBusy_false hk (.inr (ho.imp (fun h => by rw [show (s.asked tag).host.owner = _ from h]; nofun) And.right))
      refine mbRequest_refused hup hout hheld hbusy (fun hc _ => ?_) (htun.trans (lockGate_denied hq ho))
      rcases ho with ho | ⟨-, hb⟩
      · exact dumpWaits_false_of_free ho
      · rw [hc] at hk
        exact absurd (congrArg Prod.fst (Option.some.inj hk)).symm hb
    · refine makes_of (congrArg (nextOf s) ?_)
      rw [mbRequest_runs hup hout hheld, hc]
      exact runTunnelled_waits (preemptsBusy_of_idle hb) hst hm3 hw
  · exact mbRequest_refused hup hout hheld (preemptsBusy_of_idle hb) (fun _ h => absurd h hst) (tunnelled_early hst hlen he)
  · exact makes_of (congrArg (nextOf s) (lockAcquire_gains hup ho))
  · exact makes_of (congrArg (nextOf s) (lockAcquire_fails hup ho))
  · exact makes_of (congrArg (nextOf s) (lockRelease_frees hup ho))
  · exact makes_of (congrArg (nextOf s) (lockRelease_fails hup ho))
  · exact makes_of (congrArg (nextOf s) (if_pos (by simp [hup])))
  · exact makes_of (congrArg (nextOf s) (if_pos (by simp [hup])))

namespace Sys2Proof.Machine

section
variable {s t u : State}

/-! ### An entry at work while contexts fault (R275, R341, R345) -/

/-- Entry `e` stands first under its number in queue `k`, and no end of a RUN or of a fault's work reaches it: the STOPs and the RUN are of other
queues, its COVER_STEP is behind, and it is no FEED, no collective, no COLL_START and no REPLICA_CHECK. -/
structure Context.Waits (x : Context) (k : Nat) (n : W32) (e : Entry) : Prop where
  entry : (x.queues.getD k {}).entry? n = some e
  stops : ∀ z ∈ x.stops, z.1 ≠ k
  run : ∀ r, x.run = some r → r.q ≠ k
  cover : e.cover ≤ x.step
  opcode : e.opcode = 0x10 ∨ e.opcode = 0x30

/-- It stands so in context `c`. -/
def State.Waits (s : State) (c k : Nat) (n : W32) (e : Entry) : Prop := (s.ctx c).Waits k n e

section
variable {c d k j id cause m : Nat} {n : W32} {e : Entry} {a b : List Byte}

theorem State.Waits.of_ctxs (h : s.Waits c k n e) (hc : t.ctxs = s.ctxs) : t.Waits c k n e := by
  unfold State.Waits State.ctx at h ⊢
  rwa [hc]

theorem State.Waits.ite {p : Prop} [Decidable p] (hs : s.Waits c k n e) (ht : t.Waits c k n e) : (if p then s else t).Waits c k n e := by
  split <;> assumption

theorem State.Waits.foldl {α : Type} {l : List α} {f : State → α → State} (h : s.Waits c k n e)
    (hf : ∀ a, ∀ x ∈ l, a.Waits c k n e → (f a x).Waits c k n e) : (l.foldl f s).Waits c k n e :=
  List.foldlRecOn (motive := fun a : State => a.Waits c k n e) l f h fun a ha x hx => hf a x hx ha

theorem State.Waits.modCtx {f : Context → Context} (h : s.Waits c k n e) (hf : d = c → ∀ x, x.Waits k n e → (f x).Waits k n e) :
    (s.modCtx d f).Waits c k n e := by
  by_cases hd : d = c
  · exact State.ctx_modCtx_of (P := fun x => x.Waits k n e) h (hf hd)
  · unfold State.Waits
    rwa [State.ctx_modCtx_other _ _ _ _ hd]

/-- An update of a context beside what an entry at work rests on. -/
theorem State.Waits.modCtx_beside {f : Context → Context} (h : s.Waits c k n e) (hq : ∀ x, (f x).queues = x.queues := by intro; rfl)
    (hs : ∀ x, (f x).stops = x.stops := by intro; rfl) (hr : ∀ x, (f x).run = x.run := by intro; rfl)
    (ht : ∀ x, (f x).step = x.step := by intro; rfl) : (s.modCtx d f).Waits c k n e :=
  h.modCtx fun _ x hx => ⟨by rw [hq]; exact hx.entry, by rw [hs]; exact hx.stops, by rw [hr]; exact hx.run, by rw [ht]; exact hx.cover, hx.opcode⟩

theorem State.Waits.modQueue {f : Queue → Queue} (h : s.Waits c k n e)
    (hf : d = c → j = k → ∀ q : Queue, q.entry? n = some e → (f q).entry? n = some e) : (s.modQueue d j f).Waits c k n e :=
  h.modCtx fun hd x hx => by
    refine ⟨?_, hx.stops, hx.run, hx.cover, hx.opcode⟩
    have he := hx.entry
    dsimp only
    rw [List.getD_eq_getElem?_getD] at he ⊢
    by_cases hj : j = k
    · subst hj
      by_cases hl : j < x.queues.length
      · rw [List.getElem?_modify_eq, List.getElem?_eq_getElem hl] at *
        exact hf hd rfl _ he
      · rwa [List.modify_eq_self (Nat.not_lt.1 hl)]
    · rwa [List.getElem?_modify_ne _ _ hj]

/-- The first entry under a number stays the first when entries change but for their numbers. -/
theorem Queue.entry?_map {q : Queue} {f : Entry → Entry} (hn : ∀ z, (f z).n = z.n) :
    ({ q with ents := q.ents.map f } : Queue).entry? n = (q.entry? n).map f := by
  have hp : (fun z : Entry => decide (z.n = n)) ∘ f = fun z => decide (z.n = n) := by
    funext z
    simp [hn]
  unfold Queue.entry?
  rw [List.find?_map, hp]

theorem State.Waits.setOutcome {i : W32} {o : Done} (h : s.Waits c k n e) (hj : d = c → j ≠ k) : (s.setOutcome d j i o).Waits c k n e :=
  h.modQueue fun hd hk => absurd hk (hj hd)

theorem State.Waits.endEntries {sel : Entry → Bool} {o : Done} (h : s.Waits c k n e) (hsel : d = c → sel e = false) :
    (s.endEntries d m sel o).Waits c k n e :=
  h.foldl fun _ _ _ ha => ha.modQueue fun hd _ _ hq =>
    (Queue.entry?_map fun z => by split <;> rfl).trans (by simp [hq, hsel hd])

theorem State.Waits.ctxCount (h : s.Waits c k n e) : (s.ctxCount d id m).Waits c k n e := h.modCtx_beside

theorem State.Waits.recorded (h : s.Waits c k n e) (hr : Recorded s t) : t.Waits c k n e := h.of_ctxs (by rw [hr])

theorem State.Waits.transmit (h : s.Waits c k n e) : (s.transmit d b).Waits c k n e := by
  unfold State.transmit
  exact .ite (h.of_ctxs rfl) (.ite (h.of_ctxs rfl) (h.of_ctxs rfl))

theorem State.Waits.stale {p : Packet} (h : s.Waits c k n e) : (s.stale p).Waits c k n e := by
  unfold State.stale
  extract_lets s1 j
  have hs1 : s1.Waits c k n e := h.recorded Recorded.refl.logFabric
  clear_value j
  split
  exacts [hs1.ctxCount, hs1]

theorem State.Waits.deliverPacket {p : Packet} (h : s.Waits c k n e) : (s.deliverPacket p).Waits c k n e := by
  unfold State.deliverPacket
  extract_lets r heard s1
  have hs1 : s1.Waits c k n e := h.of_ctxs rfl
  exact .ite (.ite hs1 hs1.stale) (hs1.of_ctxs rfl)

theorem State.Waits.fwdDrop (h : s.Waits c k n e) : (s.fwdDrop d m).Waits c k n e :=
  have hp : (s.portCount d 6 1).Waits c k n e := h.of_ctxs rfl
  .ite (hp.recorded Recorded.refl.logFabric) h

theorem State.Waits.sendPacket {p : Packet} (h : s.Waits c k n e) : (s.sendPacket p).Waits c k n e :=
  .ite h (.ite h.deliverPacket (.ite h (.ite h.fwdDrop h.transmit)))

theorem State.Waits.memberSend {sub : Nat} (h : s.Waits c k n e) : (s.memberSend id sub m b).Waits c k n e := by
  unfold State.memberSend State.memberSendAt
  split
  · exact h
  · split
    · exact h
    · exact State.Waits.sendPacket (h.of_ctxs rfl)

theorem State.Waits.leaveJob (h : s.Waits c k n e) : (s.leaveJob id cause).Waits c k n e := by
  unfold State.leaveJob
  split
  · exact h
  · exact State.Waits.of_ctxs (State.Waits.ite (h.foldl fun _ _ _ ha => ha.memberSend) h) rfl

theorem State.Waits.endStops (h : s.Waits c k n e) : (s.endStops d).Waits c k n e := by
  unfold State.endStops
  refine (h.foldl fun a z hz ha => ha.setOutcome ?_).modCtx fun _ x hx => ⟨hx.entry, nofun, hx.run, hx.cover, hx.opcode⟩
  rintro rfl
  exact h.stops z hz

theorem State.Waits.endRun {reason status : Nat} (h : s.Waits c k n e) : (s.endRun d reason status).Waits c k n e := by
  unfold State.endRun
  split
  · exact h.endStops
  · next r hr =>
    refine State.Waits.endStops (State.Waits.modCtx (h.setOutcome ?_) fun _ x hx => ⟨hx.entry, hx.stops, ?_, hx.cover, hx.opcode⟩)
    · rintro rfl
      exact h.run r hr
    · exact fun _ h => nomatch h

theorem State.Waits.orphanCovers (h : s.Waits c k n e) : (s.orphanCovers d).Waits c k n e :=
  h.endEntries (by rintro rfl; simp [Nat.not_lt.2 h.cover])

theorem State.Waits.orphanWork (h : s.Waits c k n e) : (s.orphanWork d).Waits c k n e := by
  have hop := h.opcode
  refine (((h.endEntries ?_).endEntries ?_).endEntries ?_).modCtx fun _ x hx => ⟨?_, hx.stops, hx.run, hx.cover, hx.opcode⟩
  · intro _; rcases hop with hop | hop <;> simp [hop]
  · intro _; rcases hop with hop | hop <;> simp [hop]
  · intro _; rcases hop with hop | hop <;> simp [hop]
  · have he := hx.entry
    rw [List.getD_eq_getElem?_getD] at he ⊢
    rw [List.getElem?_map]
    cases hq : x.queues[k]? with
    | none => rwa [hq] at he
    | some q => rwa [hq] at he

theorem State.Waits.resumeObjects (h : s.Waits c k n e) : (s.resumeObjects d).Waits c k n e := by
  unfold State.resumeObjects
  extract_lets s1
  have hs1 : s1.Waits c k n e := h.foldl fun a x _ ha => by
    have hp : (a.modPt x.1 fun p => { p with counters := p.counters.set x.2.1 (p.counters.getD x.2.1 0 + x.2.2.1) }).Waits c k n e := ha.of_ctxs rfl
    exact hp.ctxCount
  have hs2 : (s1.modCtx d fun x => { x with heldAdds := [] }).Waits c k n e := hs1.modCtx_beside
  generalize s1.modCtx d _ = v at hs2
  have hd : (v.markImports d 3 1).ctx c = { v.ctx c with sync := ((v.markImports d 3 1).ctx c).sync } := by
    by_cases hl : c < v.ctxs.length
    · simp [State.ctx, State.markImports, List.getD_eq_getElem?_getD, hl]
    · simp [State.ctx, State.markImports, List.getD_eq_getElem?_getD, hl]
  unfold State.Waits at hs2 ⊢
  rw [hd]
  exact ⟨hs2.entry, hs2.stops, hs2.run, hs2.cover, hs2.opcode⟩

/-- An entry at work goes on through the fault of a context, its own too. -/
theorem State.Waits.faultCtx {reason status : Nat} (h : s.Waits c k n e) : (s.faultCtx d reason status).Waits c k n e := by
  unfold State.faultCtx
  extract_lets +onlyGivenNames x
  refine .ite h ?_
  extract_lets s1 s2 s3 s4
  have hs1 : s1.Waits c k n e := h.endRun.modCtx_beside
  have hs2 : s2.Waits c k n e := by unfold s2; split; exacts [hs1.of_ctxs rfl, hs1]
  have hs4 : s4.Waits c k n e := hs2.orphanCovers.orphanWork.resumeObjects
  split
  exacts [hs4.leaveJob, hs4]

theorem State.Waits.breakChan (h : s.Waits c k n e) : (s.breakChan d cause m).Waits c k n e := by
  unfold State.breakChan
  refine .ite h (State.Waits.foldl ?_ fun a x _ ha => ?_)
  · have hm : (s.modChan d fun x => { x with broke := true, trained := false }).Waits c k n e := h.of_ctxs rfl
    exact hm.recorded (Recorded.refl.addRepair.logErr rfl)
  · split
    exacts [.ite ha.faultCtx ha, ha]

/-- An entry at work goes on through an error of the memory that it, or another, has met. -/
theorem State.Waits.engineEcc {o : Ecc} (h : s.Waits c k n e) : (s.engineEcc d m o).Waits c k n e := by
  have hmem (a : State) (ha : a.Waits c k n e) (g : Nat) (tag : Bool) : (a.memError d g tag).Waits c k n e :=
    .ite (State.Waits.breakChan (ha.of_ctxs rfl)) (ha.of_ctxs rfl)
  cases o with
  | clean => exact h
  | corrected => exact h.of_ctxs rfl
  | uncorrectable => exact hmem _ (h.recorded (Recorded.refl.logErr rfl)) _ _
  | tagError => exact hmem _ (h.recorded (Recorded.refl.logErr rfl)) _ _

/-- What an update of a queue makes of it. -/
theorem State.queue_modQueue_same {f : Queue → Queue} (hc : c < s.ctxs.length) (hk : k < (s.ctx c).queues.length) :
    (s.modQueue c k f).queue c k = f (s.queue c k) := by
  unfold State.modQueue State.queue
  rw [State.ctx_modCtx_same _ _ _ hc]
  simp [List.getD_eq_getElem?_getD, hk]

/-- What an update of an entry makes of it. -/
theorem State.entry?_modEntry {f : Entry → Entry} (hc : c < s.ctxs.length) (hk : k < (s.ctx c).queues.length) (hf : ∀ z, (f z).n = z.n) :
    ((s.modEntry c k n f).queue c k).entry? n = ((s.queue c k).entry? n).map f := by
  unfold State.modEntry
  rw [State.queue_modQueue_same hc hk, Queue.entry?_map fun z => by split; exacts [hf z, rfl]]
  cases he : (s.queue c k).entry? n with
  | none => rfl
  | some e =>
    have hn : e.n = n := by simpa using List.find?_some he
    rw [Option.map_some, Option.map_some, if_pos hn]

/-- An entry that ends has its outcome. -/
theorem Ended.of_entry {o : Done} (hc : c < s.ctxs.length) (hk : k < (s.ctx c).queues.length) (h : (s.queue c k).entry? n = some e)
    (he : e.outcome = none) : Ended (s.setOutcome c k n o) c k n o := by
  refine ⟨{ e with outcome := some o }, ?_, rfl⟩
  unfold State.setOutcome
  rw [State.entry?_modEntry hc hk fun z => by split <;> rfl, h, Option.map_some, if_pos (by rw [he]; rfl)]

theorem Shaped.queues_length (hs : Shaped s) (hc : c < 64) : (s.ctx c).queues.length = 16 := by
  have hl : c < s.ctxs.length := by rwa [hs.ctxs_length]
  rw [State.ctx, List.getD_eq_getElem?_getD, List.getElem?_eq_getElem hl]
  exact hs.of_mem_ctxs (List.getElem_mem hl)

theorem Ended.settle {o : Done} (h : Ended t c k n o) : Ended (settle s t) c k n o := by
  unfold Ended
  rwa [settle_queue]

theorem mem_settle_outbox {o : Output} (h : o ∈ t.outbox) : o ∈ (settle s t).outbox := (settled s t).2.2.2.subset h
end

/-! ### Accesses of engines to LPDDR5X (R232, R233, R270, R277) -/

/-- `t` is `s` but for its channels. -/
def ChansOnly (s t : State) : Prop := t = { s with chans := t.chans }

section
variable {c d k a b len m kind : Nat} {n : W32} {e : Entry} {al : Alloc} {o : Ecc}

theorem ChansOnly.refl : ChansOnly s s := rfl

theorem ChansOnly.modChan {f : Chan → Chan} (h : ChansOnly s t) : ChansOnly s (t.modChan k f) := by
  unfold ChansOnly at h ⊢
  rw [h]
  rfl

theorem ChansOnly.trans (h : ChansOnly s t) (h' : ChansOnly t u) : ChansOnly s u := by
  unfold ChansOnly at h h' ⊢
  rw [h', h]

theorem ChansOnly.ite {p : Prop} [Decidable p] (ht : ChansOnly s t) (hu : ChansOnly s u) : ChansOnly s (if p then t else u) := by
  split <;> assumption

theorem ChansOnly.foldl {α : Type} {l : List α} {f : State → α → State} (h : ChansOnly s t) (hf : ∀ a x, ChansOnly s a → ChansOnly s (f a x)) :
    ChansOnly s (l.foldl f t) := List.foldlRecOn l f h fun a ha x _ => hf a x ha

theorem ChansOnly.decay {l : List DramFlip} : ChansOnly s (s.decay l) := State.decay_eq

theorem ChansOnly.wakeChans {l : List Nat} (h : ChansOnly s t) : ChansOnly s (t.wakeChans l) := h.foldl fun _ _ ha => .ite ha.modChan ha

/-- Beside the store of a tile an access wakes channels at most. -/
theorem ChansOnly.wakeLoc (h : ChansOnly s t) (hk : kind ≠ 2) : ChansOnly s (t.wakeLoc c kind a len) := by
  unfold State.wakeLoc
  split
  · exact h.wakeChans
  · exact absurd rfl hk
  · exact h

theorem ChansOnly.ctx (h : ChansOnly s t) : t.ctx d = s.ctx d := by rw [h]; rfl
theorem ChansOnly.queue (h : ChansOnly s t) : t.queue d k = s.queue d k := by rw [h]; rfl
theorem ChansOnly.ctxRead (h : ChansOnly s t) : t.ctxRead c a len = s.ctxRead c a len := by rw [h]; rfl
theorem ChansOnly.sameMemory (h : ChansOnly s t) : SameMemory s t := by rw [h]; exact ⟨rfl, rfl, rfl, rfl⟩
theorem ChansOnly.sameManagement (h : ChansOnly s t) : SameManagement s t := by rw [h]; exact ⟨rfl, rfl, rfl⟩

/-- What decides the outcome of a read of a channel. -/
def Chan.health (x : Chan) : List (Nat × Nat × BitVec 512) × List (Nat × Nat) × Bool := (x.flaws, x.bad, x.broke)

/-- An access that wakes channels leaves what they hold, and its flaws, as they are. -/
theorem State.wakeLoc_health : ((s.wakeLoc c kind a len).chan m).health = (s.chan m).health := by
  have hwake (l : List Nat) : ((s.wakeChans l).chan m).health = (s.chan m).health :=
    List.foldlRecOn (motive := fun t : State => (t.chan m).health = (s.chan m).health) l _ rfl fun t ht x _ => by
      split
      · exact State.chan_modChan_of (P := fun y => y.health = (s.chan m).health) ht fun _ hy => hy
      · exact ht
  unfold State.wakeLoc
  split
  · exact hwake _
  · split
    · rfl
    · rfl
  · rfl

/-- The errors that a range would meet rest on the health of the channels. -/
theorem State.rangeErrs_congr (h : ChansOnly s t) (hh : ∀ m, (t.chan m).health = (s.chan m).health) :
    t.rangeErrs c a len = s.rangeErrs c a len := by
  have hf (m : Nat) : (t.chan m).flaws = (s.chan m).flaws := congrArg Prod.fst (hh m)
  have hb (m : Nat) : (t.chan m).bad = (s.chan m).bad := congrArg (fun x => x.2.1) (hh m)
  have hk (m : Nat) : (t.chan m).broke = (s.chan m).broke := congrArg (fun x => x.2.2) (hh m)
  have he (m off : Nat) : t.wordEcc m off = s.wordEcc m off := by
    unfold State.wordEcc Chan.lost Chan.flaw
    rw [hf, hb]
  unfold State.rangeErrs
  simp only [h.ctx, hf, hb, hk, he]

/-- `t` is `s` but for channels and what a context's fault changes. -/
def EccWork (s t : State) : Prop := FaultWork { s with chans := t.chans } t

theorem EccWork.of_chansOnly (h : ChansOnly s t) : EccWork s t := by
  unfold ChansOnly at h
  unfold EccWork FaultWork
  rw [h]

theorem EccWork.modChan {f : Chan → Chan} (h : EccWork s t) : EccWork s (t.modChan k f) := by
  unfold EccWork FaultWork at h ⊢
  rw [h]
  rfl

theorem EccWork.recorded (h : EccWork s t) (hr : Recorded t u) : EccWork s u := by
  unfold EccWork at h ⊢
  rw [show u.chans = t.chans by rw [hr]]
  exact FaultWork.recorded h hr

theorem EccWork.engineEcc (h : EccWork s t) : EccWork s (t.engineEcc k m o) := by
  have hmem (v : State) (hv : EccWork s v) (g : Nat) (tag : Bool) : EccWork s (v.memError k g tag) := by
    unfold State.memError
    extract_lets x again day v1
    have hv1 : EccWork s v1 := hv.modChan
    split
    exacts [FaultWork.breakChan hv1, hv1]
  cases o with
  | clean => exact h
  | corrected => exact h.modChan
  | uncorrectable => exact hmem _ (h.recorded (Recorded.refl.logErr rfl)) _ _
  | tagError => exact hmem _ (h.recorded (Recorded.refl.logErr rfl)) _ _

theorem EccWork.sameMemory (h : EccWork s t) : SameMemory s t := by rw [h]; exact ⟨rfl, rfl, rfl, rfl⟩
theorem EccWork.sameManagement (h : EccWork s t) : SameManagement s t := by rw [h]; exact ⟨rfl, rfl, rfl⟩

/-- Corrected words are counted. -/
theorem ChansOnly.corrected {l : List (Nat × Nat × Ecc)} (h : ChansOnly s t) :
    ChansOnly s ((l.takeWhile fun e => decide (e.2.2 = .corrected)).foldl (fun t e => t.engineEcc e.1 e.2.1 e.2.2) t) :=
  List.foldlRecOn (motive := ChansOnly s) _ _ h fun v hv x hx => by
    rw [show x.2.2 = Ecc.corrected by simpa using List.mem_takeWhile_imp hx]
    exact hv.modChan

/-- A range without a bad word is read; its corrected words are counted. -/
theorem readRange_good (h : ∀ x ∈ s.rangeErrs c a len, x.2.2 = .corrected) : ∃ v, s.readRange c a len = (v, true) ∧ ChansOnly s v := by
  refine ⟨_, ?_, ChansOnly.corrected (l := s.rangeErrs c a len) .refl⟩
  unfold State.readRange
  dsimp only
  rw [List.find?_eq_none.2 fun x hx => by simp [h x hx]]

/-- The first bad word of a range ends the access (R270); an entry at work goes on until it ends with it. -/
theorem readRange_bad (h : ∃ x ∈ s.rangeErrs c a len, x.2.2 ≠ .corrected) (hw : s.Waits d k n e) :
    ∃ v, s.readRange c a len = (v, false) ∧ EccWork s v ∧ v.Waits d k n e := by
  obtain ⟨x, hx, hbad⟩ := h
  have hgood := ChansOnly.corrected (l := s.rangeErrs c a len) (s := s) .refl
  unfold State.readRange
  dsimp only
  split
  · exact ⟨_, rfl, (EccWork.of_chansOnly hgood).engineEcc, (hw.of_ctxs (by rw [hgood])).engineEcc⟩
  · next hnone => exact absurd (List.find?_eq_none.1 hnone x hx) (by simp [hbad])

/-- What a write at context addresses changes. -/
theorem State.ctxWrite_frame {l : List Byte} (ha : (s.ctx c).alloc = some al) : s.ctxWrite c b l = { s with
    dram := writeCtx al s.dram b l, scratch := (s.ctxWrite c b l).scratch, chans := (s.ctxWrite c b l).chans } := by
  have hd (v : State) : v.defined c b l.length = { v with scratch := (v.defined c b l.length).scratch } := by
    unfold State.defined
    split <;> rfl
  have hs1 := hd { s with dram := writeCtx al s.dram b l }
  unfold State.ctxWrite
  simp only [ha]
  generalize State.defined _ c b l.length = s1 at hs1
  split
  · rw [hs1]
  · have hfold := ChansOnly.foldl (l := ctxPieces al b l.length) (f := fun t p => t.modChan p.1 fun x => x.rewrite p.2.1 p.2.2) (s := s1) .refl
      fun _ _ hv => hv.modChan
    unfold ChansOnly at hfold
    rw [hfold, hs1]

/-- What a write to host memory changes. -/
theorem State.hostPut_frame {l : List Byte} : s.hostPut b l = { s with
    host := (s.hostPut b l).host, outbox := s.outbox ++ [.hostWrite b l] } := by
  have hfold (v : List Nat) : v.foldl (fun t l => t.cacheLine (64 * l)) s = { s with host := (v.foldl (fun t l => t.cacheLine (64 * l)) s).host } :=
    List.foldlRecOn (motive := fun t : State => t = { s with host := t.host }) v _ rfl fun t ht x _ => by
      rw [ht]
      rfl
  unfold State.hostPut State.emit
  extract_lets whole
  rw [hfold whole]

@[simp] theorem State.wakeLoc_host : s.wakeLoc c 0 a len = s := by
  simp [State.wakeLoc]

theorem State.entryAt_some {op : Nat} (h : s.entryAt c k n op = some e) :
    (s.queue c k).entry? n = some e ∧ e.outcome = none ∧ e.opcode = op := by
  unfold State.entryAt at h
  split at h
  · cases h
  · split at h
    · next x hx =>
      split at h
      · next hc =>
        cases h
        simp only [Bool.and_eq_true, decide_eq_true_eq, Option.isNone_iff_eq_none] at hc
        exact ⟨hx, hc.1.2, hc.2⟩
      · cases h
    · cases h

theorem ChansOnly.entryAt {op : Nat} (h : ChansOnly s t) : t.entryAt c k n op = s.entryAt c k n op := by rw [h]; rfl

end

/-! ### COPY (R270, R342–R345, R655–R657) -/

section
variable {c q : Nat} {n : W32} {e : Entry} {src : ReadResult} {flips : List DramFlip} {d : List Byte}

/-- The data that a COPY from host memory has read are of its length; another COPY takes none. -/
def CopyData (e : Entry) (src : ReadResult) (d : List Byte) : Prop :=
  (e.fld 0x18 1 = 0 → src = .data d ∧ d.length = e.fld 0x30 8) ∧ (e.fld 0x18 1 ≠ 0 → d = [])

/-- Nothing in the state holds a COPY back: it is no access of the Reel yet, its COVER_STEP is reached, its locations can be reached. -/
def State.copyFree (s : State) (c q : Nat) (n : W32) (e : Entry) : Prop :=
  (c, qix 1 q, n) ∉ s.reel.access ∧ e.cover ≤ (s.ctx c).step ∧ s.locWaits c (e.fld 0x18 1) (e.fld 0x20 8) (e.fld 0x30 8) = false ∧
    s.locWaits c (e.fld 0x19 1) (e.fld 0x28 8) (e.fld 0x30 8) = false

/-- The checks of a COPY pass (R342–R344, R655, R661). -/
def State.copyOk (s : State) (c q : Nat) (n : W32) (e : Entry) : Prop :=
  s.entryAt c (qix 1 q) n 0x10 = some e ∧ lenBad (e.fld 0x30 8) = false ∧ s.locInvalid c (e.fld 0x18 1) (e.fld 0x20 8) (e.fld 0x30 8) = false ∧
    s.locInvalid c (e.fld 0x19 1) (e.fld 0x28 8) (e.fld 0x30 8) = false ∧ s.needsCover c e = false ∧
    s.locConflict c (e.fld 0x18 1) (e.fld 0x20 8) (e.fld 0x30 8) false = none ∧
    s.locConflict c (e.fld 0x19 1) (e.fld 0x28 8) (e.fld 0x30 8) true = none

section
variable (hok : s.copyOk c q n e) (hfree : s.copyFree c q n e) (hd : CopyData e src d)
include hok hfree hd

/-- A COPY that passes its checks and waits for nothing starts an access from the Reel, or moves its data, which starts an access to the Reel. -/
theorem copy_goes : copy c q n src flips s =
    if e.fld 0x18 1 = 3 ∧ e.fld 0x19 1 ≠ 3 then
      { s.decay flips with reel := { (s.decay flips).reel with access := (s.decay flips).reel.access ++ [(c, qix 1 q, n)] } }
    else if e.fld 0x19 1 = 3 ∧ ((s.decay flips).moveData c e d).1.status = ok then
      { ((s.decay flips).moveData c e d).2 with
        reel := { ((s.decay flips).moveData c e d).2.reel with
          access := ((s.decay flips).moveData c e d).2.reel.access ++ [(c, qix 1 q, n)] } }
    else ((s.decay flips).moveData c e d).2.setOutcome c (qix 1 q) n ((s.decay flips).moveData c e d).1 := by
  obtain ⟨hent, hlen, ha, hb, hcov, hca, hcb⟩ := hok
  obtain ⟨hacc, hstep, hwa, hwb⟩ := hfree
  obtain ⟨hd0, hd1⟩ := hd
  have hu : ChansOnly s (s.decay flips) := .decay
  unfold copy
  dsimp only
  generalize s.decay flips = u at hu
  have hinv (k a m : Nat) : u.locInvalid c k a m = s.locInvalid c k a m := by rw [hu]; rfl
  have hcon (k a m : Nat) (w : Bool) : u.locConflict c k a m w = s.locConflict c k a m w := by rw [hu]; rfl
  have hwait (k a m : Nat) : u.locWaits c k a m = s.locWaits c k a m := by rw [hu]; rfl
  have hneed : u.needsCover c e = s.needsCover c e := by rw [hu]; rfl
  have hracc : u.reel.access = s.reel.access := by rw [hu]
  rw [hu.entryAt, hent]
  simp only [hinv, hcon, hwait, hneed, hracc, hu.ctx, hlen, ha, hb, hcov, hca, hcb, hwa, hwb, Option.orElse_none,
    List.contains_eq_mem, hacc, Nat.not_lt.2 hstep, decide_false, Bool.false_eq_true, or_self, if_false]
  by_cases h0 : e.fld 0x18 1 = 0
  · obtain ⟨rfl, hl⟩ := hd0 h0
    simp [h0, hl]
  · rw [hd1 h0]
    simp [h0]

end
end

theorem SameMemory.trans (h : SameMemory s t) (h' : SameMemory t u) : SameMemory s u := by
  obtain ⟨ht, hd, hp, hr⟩ := h
  obtain ⟨ht', hd', hp', hr'⟩ := h'
  exact ⟨ht'.trans ht, hd'.trans hd, hp'.trans hp, hr'.trans hr⟩

theorem SameManagement.trans (h : SameManagement s t) (h' : SameManagement t u) : SameManagement s u := by
  obtain ⟨hi, hm, hst⟩ := h
  obtain ⟨hi', hm', hst'⟩ := h'
  exact ⟨hi'.trans hi, hm'.trans hm, hst'.trans hst⟩

/-- An entry at work that ends in a state with the contexts of `s` has its outcome. -/
theorem Ended.of_entryAt {c k op : Nat} {n : W32} {e : Entry} {o : Done} (hs : Shaped s) (hc : c < 64) (hk : k < 16)
    (he : s.entryAt c k n op = some e) (ht : t.ctxs = s.ctxs) : Ended (t.setOutcome c k n o) c k n o := by
  obtain ⟨hent, ho, -⟩ := State.entryAt_some he
  have hctx : t.ctx c = s.ctx c := by rw [State.ctx, ht, State.ctx]
  exact .of_entry (by rwa [ht, hs.ctxs_length]) (by rwa [hctx, hs.queues_length hc]) (by rwa [State.queue, hctx]) ho

/-- An entry of the move or the check engine is at work while the STOPs and the RUN are of the graph engine's queues. -/
theorem State.Waits.of_entryAt {c k op : Nat} {n : W32} {e : Entry} (he : s.entryAt c k n op = some e) (hop : op = 0x10 ∨ op = 0x30) (hk : 4 ≤ k)
    (hst : ∀ z ∈ (s.ctx c).stops, z.1 < 4) (hrun : ∀ r, (s.ctx c).run = some r → r.q < 4) (hcov : e.cover ≤ (s.ctx c).step) : s.Waits c k n e := by
  obtain ⟨hent, -, rfl⟩ := State.entryAt_some he
  exact ⟨hent, fun z hz => by have := hst z hz; omega, fun r hr => by have := hrun r hr; omega, hcov, hop⟩

/-- An entry at work that a bad word of its range ends (R270): no memory changes. -/
theorem readRange_bad_ends {c k a len op : Nat} {n : W32} {e : Entry} {o : Done} (hs : Shaped t) (hc : c < 64) (hk : k < 16)
    (he : t.entryAt c k n op = some e) (hw : t.Waits c k n e) (h : ∃ x ∈ t.rangeErrs c a len, x.2.2 ≠ .corrected) :
    ∃ v, t.readRange c a len = (v, false) ∧ Ended (v.setOutcome c k n o) c k n o ∧ SameMemory t v ∧ SameManagement t v := by
  obtain ⟨v, hv, hecc, hwv⟩ := readRange_bad h hw
  have hsv : Shaped v := by
    have := hs.readRange (c := c) (a := a) (n := len)
    rwa [hv] at this
  obtain ⟨-, ho, -⟩ := State.entryAt_some he
  exact ⟨v, hv, .of_entry (by rwa [hsv.ctxs_length]) (by rwa [hsv.queues_length hc]) hwv.entry ho, hecc.sameMemory, hecc.sameManagement⟩

section
variable {c : Nat} {e : Entry} {d : List Byte}

/-- Data that need no reading of LPDDR5X move as they are. -/
theorem moveData_unread (hk : e.fld 0x18 1 ≠ 1) : s.moveData c e d = ({ status := ok, result := e.fld 0x30 8 },
    ((s.wakeLoc c (e.fld 0x18 1) (e.fld 0x20 8) (e.fld 0x30 8)).wakeLoc c (e.fld 0x19 1) (e.fld 0x28 8) (e.fld 0x30 8)).locWrite c (e.fld 0x19 1)
      (e.fld 0x28 8) (((s.wakeLoc c (e.fld 0x18 1) (e.fld 0x20 8) (e.fld 0x30 8)).wakeLoc c (e.fld 0x19 1) (e.fld 0x28 8) (e.fld 0x30 8)).locRead c
        (e.fld 0x18 1) (e.fld 0x20 8) (e.fld 0x30 8) d)) := by
  simp [State.moveData, hk]

/-- Data from host memory to LPDDR5X are written there. -/
theorem moveData_fromHost (h0 : e.fld 0x18 1 = 0) (h1 : e.fld 0x19 1 = 1) : s.moveData c e d = ({ status := ok, result := e.fld 0x30 8 },
    (s.wakeLoc c 1 (e.fld 0x28 8) (e.fld 0x30 8)).ctxWrite c (e.fld 0x28 8) d) := by
  rw [moveData_unread (by rw [h0]; decide), h0, h1, State.wakeLoc_host]
  rfl

/-- Data from LPDDR5X to host memory move when their range can be read (R270). -/
theorem moveData_toHost (h1 : e.fld 0x18 1 = 1) (h0 : e.fld 0x19 1 = 0) {v : State} {b : Bool}
    (hv : (s.wakeLoc c 1 (e.fld 0x20 8) (e.fld 0x30 8)).readRange c (e.fld 0x20 8) (e.fld 0x30 8) = (v, b)) :
    s.moveData c e d = if b then ({ status := ok, result := e.fld 0x30 8 }, v.hostPut (e.fld 0x28 8) (v.ctxRead c (e.fld 0x20 8) (e.fld 0x30 8)))
      else (failed integrity, v) := by
  simp [State.moveData, h1, h0, hv, State.locWrite, State.locRead]
end

section
variable {c : Ctx} {q : Qn} {n : W32} {e : Entry} {src : ReadResult} {flips : List DramFlip} {d : List Byte} {al : Alloc}
  (hs : Shaped s) (hok : s.copyOk c q n e) (hfree : s.copyFree c q n e) (hd : CopyData e src d)
include hok hfree hd

theorem copy_makes (h3 : e.fld 0x18 1 ≠ 3) (hd3 : e.fld 0x19 1 ≠ 3) : Makes (.copy c q n src flips) s
    (((s.decay flips).moveData c e d).2.setOutcome c (qix 1 q) n ((s.decay flips).moveData c e d).1) :=
  makes_of (congrArg (nextOf s) (by rw [copy_goes hok hfree hd, if_neg (by simp [h3]), if_neg (by simp [hd3])]))

theorem copy_toReel_makes (h3 : e.fld 0x19 1 = 3) (hst : ((s.decay flips).moveData c e d).1.status = ok) : Makes (.copy c q n src flips) s
    { ((s.decay flips).moveData c e d).2 with
      reel := { ((s.decay flips).moveData c e d).2.reel with access := ((s.decay flips).moveData c e d).2.reel.access ++ [(c.val, qix 1 q, n)] } } :=
  makes_of (congrArg (nextOf s) (by rw [copy_goes hok hfree hd, if_neg (by simp [h3]), if_pos ⟨h3, hst⟩]))

theorem copy_fromReel_makes (h3 : e.fld 0x18 1 = 3) (hd3 : e.fld 0x19 1 ≠ 3) : Makes (.copy c q n src flips) s
    { s.decay flips with reel := { s.reel with access := s.reel.access ++ [(c.val, qix 1 q, n)] } } := by
  have hreel : (s.decay flips).reel = s.reel := by rw [State.decay_eq]
  refine makes_of (congrArg (nextOf s) ?_)
  rw [copy_goes hok hfree hd, if_pos ⟨h3, hd3⟩, hreel]

include hs

/-- A COPY from host memory to LPDDR5X writes the bytes of its range. -/
theorem copy_fromHost_answers (h0 : e.fld 0x18 1 = 0) (h1 : e.fld 0x19 1 = 1) (ha : (s.ctx c).alloc = some al) (hwf : s.dram.wf = true) :
    Answers (.copy c q n src flips) s fun t => Ended t c (qix 1 q) n { status := ok, result := e.fld 0x30 8 } ∧
      t.dram = writeCtx al s.dram (e.fld 0x28 8) d ∧
      (∀ a, (∀ i, i < d.length → a ≠ ctxMpa al (e.fld 0x28 8 + i)) → t.dram.get a = s.dram.get a) ∧
      t.tiles = s.tiles ∧ t.pool = s.pool ∧ t.reel = s.reel ∧ t.pts = s.pts ∧ SameManagement s t := by
  have hx : exec (.copy c q n src flips) s = nextOf s _ :=
    congrArg (nextOf s) (copy_goes hok hfree hd |>.trans (by rw [if_neg (by simp [h0]), if_neg (by simp [h1]), moveData_fromHost h0 h1]))
  have hw : ChansOnly s ((s.decay flips).wakeLoc c 1 (e.fld 0x28 8) (e.fld 0x30 8)) := ChansOnly.decay.wakeLoc (by decide)
  generalize (s.decay flips).wakeLoc c 1 (e.fld 0x28 8) (e.fld 0x30 8) = v at hx hw
  have hf := State.ctxWrite_frame (b := e.fld 0x28 8) (l := d) (hw.ctx.symm ▸ ha : (v.ctx c).alloc = some al)
  generalize v.ctxWrite c (e.fld 0x28 8) d = w at hx hf
  rw [hw] at hf
  have hdram : w.dram = writeCtx al s.dram (e.fld 0x28 8) d := by rw [hf]
  refine answers_of hx ⟨Ended.settle (.of_entryAt hs c.isLt (by unfold qix; omega) hok.1 (by rw [hf])), ?_⟩
  simp only [settle_dram, settle_tiles, settle_pool, settle_reel, settle_pts]
  refine ⟨hdram, fun a hne => ?_, by rw [hf]; rfl, by rw [hf]; rfl, by rw [hf]; rfl, by rw [hf]; rfl, SameManagement.settle (by rw [hf]; exact ⟨rfl, rfl, rfl⟩)⟩
  exact (congrArg (Mem.get · a) hdram).trans (Mem.get_writeCtx_other al _ _ _ hwf hne)

/-- A COPY from LPDDR5X to host memory sends the bytes of its range when each can be read. -/
theorem copy_toHost_answers (h1 : e.fld 0x18 1 = 1) (h0 : e.fld 0x19 1 = 0)
    (hgood : ∀ x ∈ (s.decay flips).rangeErrs c (e.fld 0x20 8) (e.fld 0x30 8), x.2.2 = .corrected) :
    Answers (.copy c q n src flips) s fun t => Ended t c (qix 1 q) n { status := ok, result := e.fld 0x30 8 } ∧
      .hostWrite (e.fld 0x28 8) (s.ctxRead c (e.fld 0x20 8) (e.fld 0x30 8)) ∈ t.outbox ∧ SameMemory s t ∧ t.pts = s.pts ∧ SameManagement s t := by
  have hw : ChansOnly (s.decay flips) ((s.decay flips).wakeLoc c 1 (e.fld 0x20 8) (e.fld 0x30 8)) := ChansOnly.refl.wakeLoc (by decide)
  rw [← State.rangeErrs_congr hw fun _ => State.wakeLoc_health] at hgood
  obtain ⟨v, hv, hvc⟩ := readRange_good hgood
  have hsv : ChansOnly s v := (ChansOnly.decay.trans hw).trans hvc
  have hx : exec (.copy c q n src flips) s = nextOf s _ := congrArg (nextOf s) (copy_goes hok hfree hd |>.trans (by
    rw [if_neg (by simp [h1]), if_neg (by simp [h0]), moveData_toHost h1 h0 hv, if_pos rfl, hsv.ctxRead]))
  have hf := State.hostPut_frame (s := v) (b := e.fld 0x28 8) (l := s.ctxRead c (e.fld 0x20 8) (e.fld 0x30 8))
  generalize v.hostPut _ _ = w at hx hf
  rw [hsv] at hf
  refine answers_of hx ⟨Ended.settle (.of_entryAt hs c.isLt (by unfold qix; omega) hok.1 (by rw [hf])), mem_settle_outbox (t := w.setOutcome _ _ _ _) ?_,
    SameMemory.settle (by rw [hf]; exact ⟨rfl, rfl, rfl, rfl⟩), ?_, SameManagement.settle (by rw [hf]; exact ⟨rfl, rfl, rfl⟩)⟩
  · change _ ∈ w.outbox
    rw [hf]
    simp
  · rw [settle_pts, hf]
    rfl

/-- A word of its range that cannot be corrected ends it (R270). -/
theorem copy_bad_answers (h1 : e.fld 0x18 1 = 1) (h0 : e.fld 0x19 1 = 0)
    (hbad : ∃ x ∈ (s.decay flips).rangeErrs c (e.fld 0x20 8) (e.fld 0x30 8), x.2.2 ≠ .corrected)
    (hst : ∀ z ∈ (s.ctx c).stops, z.1 < 4) (hrun : ∀ r, (s.ctx c).run = some r → r.q < 4) :
    Answers (.copy c q n src flips) s fun t => Ended t c (qix 1 q) n (failed integrity) ∧ SameMemory s t ∧ SameManagement s t := by
  have hw : ChansOnly (s.decay flips) ((s.decay flips).wakeLoc c 1 (e.fld 0x20 8) (e.fld 0x30 8)) := ChansOnly.refl.wakeLoc (by decide)
  rw [← State.rangeErrs_congr hw fun _ => State.wakeLoc_health] at hbad
  have hsw := ChansOnly.decay.trans hw
  have hwait : s.Waits c (qix 1 q) n e := .of_entryAt hok.1 (.inl rfl) (by unfold qix; omega) hst hrun hfree.2.1
  obtain ⟨v, hv, hend, hmem, hman⟩ := readRange_bad_ends (o := failed integrity) hs.decay.wakeLoc c.isLt (by unfold qix; omega)
    (hsw.entryAt.trans hok.1) (hwait.of_ctxs (by rw [hsw])) hbad
  have hx : exec (.copy c q n src flips) s = nextOf s _ := congrArg (nextOf s) (copy_goes hok hfree hd |>.trans (by
    rw [if_neg (by simp [h1]), if_neg (by simp [h0]), moveData_toHost h1 h0 hv, if_neg nofun]))
  exact answers_of hx ⟨hend.settle, SameMemory.settle (SameMemory.trans hsw.sameMemory hmem), SameManagement.settle (SameManagement.trans hsw.sameManagement hman)⟩
end

/-! ### FEED and FILL (R342, R343, R346, R347) -/

section
variable {c : Ctx} {q : Qn} {n : W32} {e : Entry} {d : List Byte} {al : Alloc}

/-- The bytes of a FILL: its pattern repeated over its range. -/
def Entry.pattern (e : Entry) : List Byte := (List.replicate (e.fld 0x30 8 / 8) ((e.bytes.drop 0x18).take 8)).flatten

/-- A FEED that passes its checks, and comes in queue order, writes its data; they have yet to reach LPDDR5X. -/
theorem feed_goes (hent : s.entryAt c (qix 1 q) n 0x11 = some e) (hlen : lenBad (e.fld 0x30 8) = false)
    (ha : s.locInvalid c 0 (e.fld 0x20 8) (e.fld 0x30 8) = false) (hb : s.locInvalid c 1 (e.fld 0x28 8) (e.fld 0x30 8) = false)
    (hcb : s.locConflict c 1 (e.fld 0x28 8) (e.fld 0x30 8) true = none) (hm : e.marks = []) (hbm : s.host.busMaster = true)
    (hwb : s.locWaits c 1 (e.fld 0x28 8) (e.fld 0x30 8) = false)
    (hord : (s.queue c (qix 1 q)).feedsBefore n (fun z => !z.marks.isEmpty) = true) (hd : d.length = e.fld 0x30 8) :
    feed c q n (.data d) s = ((s.wakeLoc c 1 (e.fld 0x28 8) (e.fld 0x30 8)).ctxWrite c (e.fld 0x28 8) d).modEntry c (qix 1 q) n
      fun z => { z with marks := [(0, false)] } := by
  have hw0 : s.locWaits c 0 0 0 = false := by simp [State.locWaits, hbm]
  simp [feed, hent, hlen, ha, hb, hcb, hm, hw0, hwb, hord, hd, State.locWrite]

theorem feedDataReached_goes (hent : s.entryAt c (qix 1 q) n 0x11 = some e) (hm : e.marks = [(0, false)])
    (hord : (s.queue c (qix 1 q)).feedsBefore n (fun z => z.marks.any (·.2)) = true) :
    feedDataReached c q n s = (s.modEntry c (qix 1 q) n fun z => { z with marks := [(0, true)] }).modQueue c (qix 1 q) fun z =>
      { z with fed := z.fed + 1, feeds := z.feeds ++ [n] } := by
  simp [feedDataReached, hent, hm, hord]

/-- A FILL that passes its checks writes its pattern, beside a Reel at once. -/
theorem fillMem_goes (hent : s.entryAt c (qix 1 q) n 0x12 = some e) (hlen : lenBad (e.fld 0x30 8) = false) (h8 : e.fld 0x30 8 % 8 = 0)
    (h3 : e.fld 0x20 1 ≠ 3) (hb : s.locInvalid c (e.fld 0x20 1) (e.fld 0x28 8) (e.fld 0x30 8) = false)
    (hcb : s.locConflict c (e.fld 0x20 1) (e.fld 0x28 8) (e.fld 0x30 8) true = none) (hacc : (c.val, qix 1 q, n) ∉ s.reel.access)
    (hwb : s.locWaits c (e.fld 0x20 1) (e.fld 0x28 8) (e.fld 0x30 8) = false) :
    fillMem c q n s = ((s.wakeLoc c (e.fld 0x20 1) (e.fld 0x28 8) (e.fld 0x30 8)).locWrite c (e.fld 0x20 1) (e.fld 0x28 8) e.pattern).setOutcome
      c (qix 1 q) n { status := ok, result := e.fld 0x30 8 } := by
  simp [fillMem, hent, hlen, h8, h3, hb, hcb, hacc, hwb, Entry.pattern]

/-- A write at context addresses that has woken its channels. -/
theorem ctxWrite_woken_frame {a len b : Nat} {l : List Byte} (ha : (s.ctx c).alloc = some al) :
    ∃ x f, (s.wakeLoc c 1 a len).ctxWrite c b l = { s with dram := writeCtx al s.dram b l, chans := x, scratch := f } := by
  have hw : ChansOnly s (s.wakeLoc c 1 a len) := ChansOnly.refl.wakeLoc (by decide)
  have hf := State.ctxWrite_frame (b := b) (l := l) (hw.ctx.symm ▸ ha : ((s.wakeLoc c 1 a len).ctx c).alloc = some al)
  exact ⟨_, _, hf.trans (by rw [hw])⟩

theorem feed_answers (hs : Shaped s) (ha : (s.ctx c).alloc = some al) (hwf : s.dram.wf = true)
    (he : s.entryAt c (qix 1 q) n 0x11 = some e) {len : Nat}
    (hx : feed c q n (.data d) s = ((s.wakeLoc c 1 (e.fld 0x28 8) len).ctxWrite c (e.fld 0x28 8) d).modEntry c (qix 1 q) n
      fun z => { z with marks := [(0, false)] }) :
    Answers (.feed c q n (.data d)) s fun t => t.dram = writeCtx al s.dram (e.fld 0x28 8) d ∧
      (∀ a, (∀ i, i < d.length → a ≠ ctxMpa al (e.fld 0x28 8 + i)) → t.dram.get a = s.dram.get a) ∧
      (∃ y, (t.queue c (qix 1 q)).entry? n = some y ∧ y.marks = [(0, false)]) ∧ (t.queue c (qix 1 q)).fed = (s.queue c (qix 1 q)).fed ∧
      t.tiles = s.tiles ∧ t.pool = s.pool ∧ t.reel = s.reel ∧ t.pts = s.pts ∧ SameManagement s t := by
  obtain ⟨x, f, hf⟩ := ctxWrite_woken_frame (a := e.fld 0x28 8) (len := len) (b := e.fld 0x28 8) (l := d) ha
  have hk : qix 1 q < (s.ctx c).queues.length := by
    rw [hs.queues_length c.isLt]
    unfold qix
    omega
  have hc := hs.ctx_lt c
  generalize (s.wakeLoc c 1 (e.fld 0x28 8) len).ctxWrite c (e.fld 0x28 8) d = v at hx hf
  have hctx : v.ctx c = s.ctx c := by rw [hf]; rfl
  have hctxs : v.ctxs = s.ctxs := by rw [hf]
  have hkv : qix 1 q < (v.ctx c).queues.length := hctx ▸ hk
  have hcv : c < v.ctxs.length := hctxs ▸ hc
  have hqv : v.queue c (qix 1 q) = s.queue c (qix 1 q) := congrArg (fun z => z.queues.getD (qix 1 q) {}) hctx
  refine answers_of (congrArg (nextOf s) hx) ?_
  simp only [settle_dram, settle_tiles, settle_pool, settle_reel, settle_pts, settle_queue]
  refine ⟨?_, ?_, ?_, ?_, ?_⟩
  · exact congrArg State.dram hf
  · intro a hne
    exact (congrArg (fun z => z.dram.get a) hf).trans (Mem.get_writeCtx_other al _ _ _ hwf hne)
  · have hq : (v.queue c (qix 1 q)).entry? n = some e := hqv ▸ (State.entryAt_some he).1
    have hmod := State.entry?_modEntry (n := n) (f := fun z : Entry => { z with marks := [(0, false)] }) hcv hkv fun _ => rfl
    rw [hq] at hmod
    exact ⟨_, hmod, rfl⟩
  · unfold State.modEntry
    rw [State.queue_modQueue_same hcv hkv, ← hqv]
  · subst hf
    exact ⟨rfl, rfl, rfl, rfl, SameManagement.settle ⟨rfl, rfl, rfl⟩⟩

theorem fill_answers (hs : Shaped s) (ha : (s.ctx c).alloc = some al) (he : s.entryAt c (qix 1 q) n 0x12 = some e) {len : Nat} {o : Done}
    (hx : fillMem c q n s = ((s.wakeLoc c 1 (e.fld 0x28 8) len).locWrite c 1 (e.fld 0x28 8) e.pattern).setOutcome c (qix 1 q) n o) :
    Answers (.fill c q n) s fun t => Ended t c (qix 1 q) n o ∧ t.dram = writeCtx al s.dram (e.fld 0x28 8) e.pattern ∧
      t.tiles = s.tiles ∧ t.pool = s.pool ∧ t.reel = s.reel ∧ t.pts = s.pts ∧ SameManagement s t := by
  obtain ⟨x, f, hf⟩ := ctxWrite_woken_frame (a := e.fld 0x28 8) (len := len) (b := e.fld 0x28 8) (l := e.pattern) ha
  change fillMem c q n s = ((s.wakeLoc c 1 (e.fld 0x28 8) len).ctxWrite c (e.fld 0x28 8) e.pattern).setOutcome c (qix 1 q) n o at hx
  rw [hf] at hx
  refine answers_of (congrArg (nextOf s) hx) ⟨Ended.settle (.of_entryAt hs c.isLt (by unfold qix; omega) he rfl), ?_⟩
  simp only [settle_dram, settle_tiles, settle_pool, settle_reel, settle_pts]
  exact ⟨rfl, rfl, rfl, rfl, rfl, SameManagement.settle ⟨rfl, rfl, rfl⟩⟩
end

end
end Sys2Proof.Machine

open Sys2Proof.Machine in
/-- Settles O25: each clause is the answer of the command whose checks pass, by the locations of its source and of its destination. -/
theorem moves : Obligations.Moves := by
  refine ⟨fun s c q n e src flips d u hs hu hent hlen ha hb hcov hca hcb hacc hstep hwa hwb hd0 hd1 => ?_,
    fun s c q n e al hs hal hwf => ⟨fun d hent hlen ha hb hcb hm hbm hwb hord hd => ?_, fun hent hm hord => ?_,
      fun hent hlen h8 h1 hb hcb hacc hwb => ?_, fun hent hlen h8 h3 hb hcb hacc hwb => ?_⟩⟩
  · subst hu
    have hok : s.copyOk c q n e := ⟨hent, hlen, ha, hb, hcov, hca, hcb⟩
    have hfree : s.copyFree c q n e := ⟨hacc, hstep, hwa, hwb⟩
    have hd : CopyData e src d := ⟨hd0, hd1⟩
    exact ⟨copy_makes hok hfree hd, copy_toReel_makes hok hfree hd, fun al h0 h1 hal hwf => copy_fromHost_answers hs hok hfree hd h0 h1 hal hwf,
      fun h1 h0 => copy_bad_answers hs hok hfree hd h1 h0, fun h1 h0 => copy_toHost_answers hs hok hfree hd h1 h0, copy_fromReel_makes hok hfree hd⟩
  · exact feed_answers hs hal hwf hent (feed_goes hent hlen ha hb hcb hm hbm hwb hord hd)
  · exact makes_of (congrArg (nextOf s) (feedDataReached_goes hent hm hord))
  · refine fill_answers hs hal hent (len := e.fld 0x30 8) ((fillMem_goes hent hlen h8 (by rw [h1]; decide) ?_ ?_ hacc ?_).trans (by rw [h1]))
    all_goals rwa [h1]
  · exact makes_of (congrArg (nextOf s) (fillMem_goes hent hlen h8 h3 hb hcb hacc hwb))

namespace Sys2Proof.Machine

/-! ### Check-engine entries (R232, R270, R350, R477–R481, R489) -/

section
variable {s : State} {c : Ctx} {q : Qn} {n : W32} {e : Entry} {flips : List DramFlip} {al : Alloc}

/-- The digest of a WATERMARK's range under the job's keys, as its 16 bytes (R477–R480). -/
def State.digest (s : State) (c : Nat) (e : Entry) : List Byte :=
  le 16 (watermark (jobKeys (s.jobIdOf c) (e.fld 0x28 4)).1 (jobKeys (s.jobIdOf c) (e.fld 0x28 4)).2
    (wmElems (e.fld 0x18 8 / 8) (s.ctxRead c (e.fld 0x18 8) (e.fld 0x20 8)))).toNat

theorem State.digest_length (s : State) (c : Nat) (e : Entry) : (s.digest c e).length = 16 := by
  simp [State.digest, le]

/-- The checks of a WATERMARK pass, and its range and its destination can be reached. -/
structure State.WatermarkFree (s : State) (c : Nat) (e : Entry) : Prop where
  dst : e.fld 0x30 1 ≤ 1
  aligned : e.fld 0x18 8 % 8 = 0
  words : e.fld 0x20 8 % 8 = 0
  srcValid : s.locInvalid c 1 (e.fld 0x18 8) (e.fld 0x20 8) = false
  dstValid : s.locInvalid c (e.fld 0x30 1) (e.fld 0x38 8) 16 = false
  dstFree : s.locConflict c (e.fld 0x30 1) (e.fld 0x38 8) 16 true = none
  srcReached : s.locWaits c 1 (e.fld 0x18 8) (e.fld 0x20 8) = false
  dstReached : s.locWaits c (e.fld 0x30 1) (e.fld 0x38 8) 16 = false

/-- The state of a WATERMARK's read: its channels, and those of its destination, are awake (R277). -/
def State.watermarkWoken (s : State) (c : Nat) (e : Entry) : State :=
  (s.wakeLoc c 1 (e.fld 0x18 8) (e.fld 0x20 8)).wakeLoc c (e.fld 0x30 1) (e.fld 0x38 8) 16

theorem State.WatermarkFree.woken (h : s.WatermarkFree c e) {u : State} : ChansOnly u (u.watermarkWoken c e) :=
  (ChansOnly.refl.wakeLoc (by decide)).wakeLoc (by have := h.dst; omega)

theorem State.watermarkWoken_rangeErrs (h : s.WatermarkFree c e) {u : State} {a len : Nat} :
    (u.watermarkWoken c e).rangeErrs c a len = u.rangeErrs c a len :=
  State.rangeErrs_congr h.woken fun _ => State.wakeLoc_health.trans State.wakeLoc_health

/-- A WATERMARK reads its range; a bad word ends it in error, else its digest goes to its destination. -/
theorem watermarkEntry_goes (he : s.entryAt c (qix 3 q) n 0x30 = some e) (h : s.WatermarkFree c e) {v : State} {good : Bool}
    (hv : ((s.decay flips).watermarkWoken c e).readRange c (e.fld 0x18 8) (e.fld 0x20 8) = (v, good)) :
    watermarkEntry c q n flips s = if good then (v.locWrite c (e.fld 0x30 1) (e.fld 0x38 8) (s.digest c e)).setOutcome c (qix 3 q) n
        { status := ok, detail := s.digest c e }
      else v.setOutcome c (qix 3 q) n (failed integrity) := by
  obtain ⟨hdk, ha, hlen, hsi, hdi, hdc, hsw, hdw⟩ := h
  have hu : ChansOnly s (s.decay flips) := .decay
  have hread := hu.ctxRead (c := c) (a := e.fld 0x18 8) (len := e.fld 0x20 8)
  unfold State.watermarkWoken at hv
  unfold watermarkEntry
  dsimp only
  generalize s.decay flips = u at hu hv hread
  have hinv (k a m : Nat) : u.locInvalid c k a m = s.locInvalid c k a m := by rw [hu]; rfl
  have hcon (k a m : Nat) (w : Bool) : u.locConflict c k a m w = s.locConflict c k a m w := by rw [hu]; rfl
  have hwait (k a m : Nat) : u.locWaits c k a m = s.locWaits c k a m := by rw [hu]; rfl
  have hjob : u.jobIdOf c = s.jobIdOf c := by rw [hu]; rfl
  have hk : 12 + q.val = qix 3 q := by unfold qix; omega
  rw [hk, hu.entryAt, he]
  simp only [hinv, hcon, hwait, ha, hlen, hsi, hdi, hdc, hsw, hdw, Nat.not_lt.2 hdk, hread, hjob, hv, ne_eq, not_true_eq_false, Bool.false_eq_true,
    or_self, if_false]
  cases good with
  | true => rfl
  | false => rfl

section
variable (hs : Shaped s) (he : s.entryAt c (qix 3 q) n 0x30 = some e) (h : s.WatermarkFree c e)
include hs he h

/-- A WATERMARK whose range is good and whose digest goes to LPDDR5X. -/
theorem watermark_toDram_answers (hgood : ∀ x ∈ (s.decay flips).rangeErrs c (e.fld 0x18 8) (e.fld 0x20 8), x.2.2 = .corrected)
    (hdk : e.fld 0x30 1 = 1) (hwf : s.dram.wf = true) (ha : (s.ctx c).alloc = some al) :
    Answers (.watermark c q n flips) s fun t => Ended t c (qix 3 q) n { status := ok, detail := s.digest c e } ∧
      t.dram = writeCtx al s.dram (e.fld 0x38 8) (s.digest c e) ∧
      (∀ x, (∀ i, i < 16 → x ≠ ctxMpa al (e.fld 0x38 8 + i)) → t.dram.get x = s.dram.get x) ∧
      t.tiles = s.tiles ∧ t.pool = s.pool ∧ t.pts = s.pts ∧ SameManagement s t := by
  rw [← State.watermarkWoken_rangeErrs h] at hgood
  obtain ⟨v, hv, hvc⟩ := readRange_good hgood
  have hsv : ChansOnly s v := (ChansOnly.decay.trans h.woken).trans hvc
  have hx : exec (.watermark c q n flips) s = nextOf s ((v.ctxWrite c (e.fld 0x38 8) (s.digest c e)).setOutcome c (qix 3 q) n _) :=
    congrArg (nextOf s) ((watermarkEntry_goes he h hv).trans (by rw [if_pos rfl, hdk]; rfl))
  have hf := State.ctxWrite_frame (b := e.fld 0x38 8) (l := s.digest c e) (hsv.ctx.symm ▸ ha : (v.ctx c).alloc = some al)
  generalize v.ctxWrite c (e.fld 0x38 8) (s.digest c e) = w at hx hf
  rw [hsv] at hf
  have hdram : w.dram = writeCtx al s.dram (e.fld 0x38 8) (s.digest c e) := by rw [hf]
  refine answers_of hx ⟨Ended.settle (.of_entryAt hs c.isLt (by unfold qix; omega) he (by rw [hf])), ?_⟩
  simp only [settle_dram, settle_tiles, settle_pool, settle_pts]
  refine ⟨hdram, fun a hne => ?_, by rw [hf]; rfl, by rw [hf]; rfl, by rw [hf]; rfl, SameManagement.settle (by rw [hf]; exact ⟨rfl, rfl, rfl⟩)⟩
  rw [← State.digest_length s c e] at hne
  exact (congrArg (Mem.get · a) hdram).trans (Mem.get_writeCtx_other al _ _ _ hwf hne)

/-- One whose digest goes to host memory. -/
theorem watermark_toHost_answers (hgood : ∀ x ∈ (s.decay flips).rangeErrs c (e.fld 0x18 8) (e.fld 0x20 8), x.2.2 = .corrected)
    (hdk : e.fld 0x30 1 = 0) :
    Answers (.watermark c q n flips) s fun t => Ended t c (qix 3 q) n { status := ok, detail := s.digest c e } ∧
      .hostWrite (e.fld 0x38 8) (s.digest c e) ∈ t.outbox ∧ SameMemory s t ∧ t.pts = s.pts ∧ SameManagement s t := by
  rw [← State.watermarkWoken_rangeErrs h] at hgood
  obtain ⟨v, hv, hvc⟩ := readRange_good hgood
  have hsv : ChansOnly s v := (ChansOnly.decay.trans h.woken).trans hvc
  have hx : exec (.watermark c q n flips) s = nextOf s ((v.hostPut (e.fld 0x38 8) (s.digest c e)).setOutcome c (qix 3 q) n _) :=
    congrArg (nextOf s) ((watermarkEntry_goes he h hv).trans (by rw [if_pos rfl, hdk]; rfl))
  have hf := State.hostPut_frame (s := v) (b := e.fld 0x38 8) (l := s.digest c e)
  generalize v.hostPut _ _ = w at hx hf
  rw [hsv] at hf
  refine answers_of hx ⟨Ended.settle (.of_entryAt hs c.isLt (by unfold qix; omega) he (by rw [hf])), mem_settle_outbox (t := w.setOutcome _ _ _ _) ?_,
    SameMemory.settle (by rw [hf]; exact ⟨rfl, rfl, rfl, rfl⟩), ?_, SameManagement.settle (by rw [hf]; exact ⟨rfl, rfl, rfl⟩)⟩
  · change _ ∈ w.outbox
    rw [hf]
    simp
  · rw [settle_pts, hf]
    rfl

/-- A bad word of its range ends it (R270). -/
theorem watermark_bad_answers (hbad : ∃ x ∈ (s.decay flips).rangeErrs c (e.fld 0x18 8) (e.fld 0x20 8), x.2.2 ≠ .corrected)
    (hst : ∀ z ∈ (s.ctx c).stops, z.1 < 4) (hrun : ∀ r, (s.ctx c).run = some r → r.q < 4) :
    Answers (.watermark c q n flips) s fun t => Ended t c (qix 3 q) n (failed integrity) ∧ SameMemory s t ∧ SameManagement s t := by
  have hcover : e.cover ≤ (s.ctx c).step := by
    simp [Entry.cover, (State.entryAt_some he).2.2]
  rw [← State.watermarkWoken_rangeErrs h] at hbad
  have hsw := ChansOnly.decay.trans (h.woken (u := s.decay flips))
  have hsh : Shaped ((s.decay flips).watermarkWoken c e) := hs.decay.wakeLoc.wakeLoc
  have hwait : s.Waits c (qix 3 q) n e := .of_entryAt he (.inr rfl) (by unfold qix; omega) hst hrun hcover
  obtain ⟨v, hv, hend, hmem, hman⟩ := readRange_bad_ends (o := failed integrity) hsh c.isLt (by unfold qix; omega)
    (hsw.entryAt.trans he) (hwait.of_ctxs (by rw [hsw])) hbad
  have hx : exec (.watermark c q n flips) s = nextOf s _ := congrArg (nextOf s) ((watermarkEntry_goes he h hv).trans (if_neg nofun))
  exact answers_of hx ⟨hend.settle, SameMemory.settle (SameMemory.trans hsw.sameMemory hmem),
    SameManagement.settle (SameManagement.trans hsw.sameManagement hman)⟩
end

/-- REPLICA_CHECK with COPIES out of range, without a program or outside a job, ends in error (R481). -/
theorem replicaCheck_fails (he : s.entryAt c (qix 3 q) n 0x31 = some e) (hnew : ∀ a ∈ (s.ctx c).armed, (qix 3 q, n) ∉ a.entries)
    (h : e.fld 0x19 1 < 2 ∨ 8 < e.fld 0x19 1 ∨ (s.ctx c).prog = none ∨ s.jobOfCtx c = none) :
    replicaCheck c q n s = s.setOutcome c (qix 3 q) n (failed invalid { extra := e.fld 0x18 1 }) := by
  have hk : 12 + q.val = qix 3 q := by unfold qix; omega
  unfold replicaCheck
  dsimp only
  rw [hk, he]
  dsimp only
  rw [if_neg (by simpa using hnew)]
  split
  · rfl
  · next hm =>
    split
    · next hg hj => simp [hg, hj] at h; omega
    · rfl

/-- A REPLICA_CHECK that its program and its job allow arms its region, or gives the armed region its COPIES (R481, R489). -/
theorem replicaCheck_arms {g : Prog} {j : Job} (he : s.entryAt c (qix 3 q) n 0x31 = some e)
    (hnew : ∀ a ∈ (s.ctx c).armed, (qix 3 q, n) ∉ a.entries) (hg : (s.ctx c).prog = some g) (hj : s.jobOfCtx c = some j)
    (ha : (s.ctx c).alloc = some al) (h2 : 2 ≤ e.fld 0x19 1) (h8 : e.fld 0x19 1 ≤ 8) (hst : (s.ctx c).st = .placed ∨ (s.ctx c).st = .running)
    (hu : s.unitOf (e.fld 0x20 4) = some (.job j.serial)) (hm : j.nmod % e.fld 0x19 1 = 0) (hr : e.fld 0x18 1 < g.regions.length)
    (hd : (g.regions.getD (e.fld 0x18 1) ⟨0, 0, 0, false⟩).double = true) (hw : regionWrittenOnce g al (e.fld 0x18 1) = true) :
    replicaCheck c q n s = if (s.ctx c).armed.any (·.region = e.fld 0x18 1) then s.modCtx c fun y => { y with
        armed := y.armed.map fun a => if a.region = e.fld 0x18 1 then
          { a with copies := e.fld 0x19 1, group := e.fld 0x20 4, entries := a.entries ++ [(qix 3 q, n)] } else a }
      else s.modCtx c fun y => { y with
        armed := y.armed ++ [⟨e.fld 0x18 1, e.fld 0x19 1, e.fld 0x20 4, [(qix 3 q, n)], false, 0, 0, none⟩] } := by
  have hk : 12 + q.val = qix 3 q := by unfold qix; omega
  unfold replicaCheck
  dsimp only
  rw [hk, he]
  dsimp only
  rw [if_neg (by simpa using hnew), if_neg (by omega), hg, hj, ha]
  simp only [Option.getD_some, hst, hu, hm, hr, hd, hw, decide_true, and_self, Bool.and_self, Bool.not_true, Bool.false_eq_true, if_false]
end
end Sys2Proof.Machine

open Sys2Proof.Machine in
/-- Settles O48: a WATERMARK by its destination and by what its range holds; a REPLICA_CHECK by whether its region is armed. -/
theorem checkEngine : Obligations.CheckEngine := by
  rintro s c q n e k hs rfl
  refine ⟨?_, fun he hnew => ⟨fun g j al r m hg hj hal hr hm h2 h8 hst hu hmod hlen hd hw => ?_, fun h => ?_⟩⟩
  · rintro flips u al a len b d dk rfl he rfl rfl rfl rfl hdk ha hlen hsi hdi hdc hsw hdw hal rfl
    have hfree : s.WatermarkFree c e := ⟨hdk, ha, hlen, hsi, hdi, hdc, hsw, hdw⟩
    exact ⟨fun hgood h1 hwf => watermark_toDram_answers hs he hfree hgood h1 hwf hal,
      fun hgood h0 => watermark_toHost_answers hs he hfree hgood h0, watermark_bad_answers hs he hfree⟩
  · subst hr hm
    have hx := replicaCheck_arms he hnew hg hj hal h2 h8 hst hu hmod hlen hd hw
    exact ⟨fun hno => makes_of (congrArg (nextOf s) (hx.trans (if_neg (by simpa using hno)))),
      fun hyes => makes_of (congrArg (nextOf s) (hx.trans (if_pos (by simpa using hyes))))⟩
  · exact makes_of (congrArg (nextOf s) (replicaCheck_fails he hnew h))

namespace Sys2Proof.Machine

/-! ### Scrubbing (R225, R226, R272, R273) -/

section
variable {s t : State} {c : Nat}

section
variable {i : Nat} {lanes : Byte} {ecc : Ecc}

/-- The store of tile `i` is scrubbed: it has words, and the dies of its partition run. -/
def State.scrubs (s : State) (i : Nat) : Prop :=
  storeWords (i % 16) ≠ 0 ∧ ((s.pt (ptOfSheet (i / 288))).pwr = .run ∨ (s.pt (ptOfSheet (i / 288))).pwr = .idle)

/-- The tile with its scrub pointer on the next word. -/
def Tile.scrubbed (x : Tile) (n : Nat) : Tile := { x with scrub := (x.scrub % n + 1) % n }

/-- The tile with the word that scrubbing has found bad marked so. -/
def Tile.scrubBad (x : Tile) (w : Nat) : Tile :=
  { x.gaveUe w with badWords := if x.badWords.contains w then x.badWords else x.badWords ++ [w] }

theorem Tile.gaveUe_frame (x : Tile) (w : Nat) : x.gaveUe w = { x with marked := (x.gaveUe w).marked } := by
  unfold Tile.gaveUe
  split <;> rfl

theorem Tile.scrubBad_frame (x : Tile) (w : Nat) :
    (x.scrubBad w).scrub = x.scrub ∧ (x.scrubBad w).store = x.store ∧ w ∈ (x.scrubBad w).badWords := by
  unfold Tile.scrubBad
  rw [Tile.gaveUe_frame]
  refine ⟨rfl, rfl, ?_⟩
  dsimp only
  split
  · next h => simpa using h
  · simp

theorem sramScrub_rests (h : ¬s.scrubs i) : sramScrub i lanes ecc s = s := by
  unfold State.scrubs at h
  exact if_pos (by tauto)

theorem sramScrub_bad (h : s.scrubs i) {n w : Nat} (hn : n = storeWords (i % 16)) (hw : w = (s.tile i).scrub % n)
    (hb : ecc = .uncorrectable ∨ ecc = .tagError ∨ w ∈ (s.tile i).badWords) : ∃ a body, a.ctx = none ∧
      sramScrub i lanes ecc s = ((s.modTile i fun y => y.scrubbed n).modTile i fun y => y.scrubBad w).logErr 0x0402 a body := by
  subst hn hw
  unfold State.scrubs at h
  unfold sramScrub
  dsimp only
  rw [if_neg (by tauto), if_pos (by simpa [or_assoc] using hb)]
  exact ⟨_, _, rfl, rfl⟩

theorem sramScrub_good (h : s.scrubs i) {n w : Nat} (hn : n = storeWords (i % 16)) (hw : w = (s.tile i).scrub % n)
    (hb : ecc ≠ .uncorrectable ∧ ecc ≠ .tagError) (hg : w ∉ (s.tile i).badWords) : sramScrub i lanes ecc s =
      if ecc = .corrected then (s.modTile i fun y => y.scrubbed n).modTile i fun y => (y.count 5 1).gaveCe w s.clk.life
      else s.modTile i fun y => y.scrubbed n := by
  subst hn hw
  unfold State.scrubs at h
  unfold sramScrub
  dsimp only
  rw [if_neg (by tauto), if_neg (by simp [hb, hg])]
  rfl

theorem Recorded.tile_eq (h : Recorded s t) : t.tile i = s.tile i := by
  rw [h]
  rfl

/-- What scrubbing a word of tile `i` does: its pointer goes on, its words stay, and beside the tile only records change. -/
structure ScrubWork (i n : Nat) (s t : State) : Prop where
  pointer : (t.tile i).scrub = ((s.tile i).scrub % n + 1) % n
  store : (t.tile i).store = (s.tile i).store
  others : ∀ j, j ≠ i → t.tile j = s.tile j
  beside : Recorded { s with tiles := t.tiles } t

theorem ScrubWork.first {n : Nat} : ScrubWork i n s (s.modTile i fun y => y.scrubbed n) where
  pointer := by rw [State.tile_modTile_same, Tile.scrubbed]
  store := by rw [State.tile_modTile_same, Tile.scrubbed]
  others _ hj := State.tile_modTile_other _ hj
  beside := rfl

theorem ScrubWork.modTile {n : Nat} {f : Tile → Tile} (h : ScrubWork i n s t) (hp : ∀ x, (f x).scrub = x.scrub) (hf : ∀ x, (f x).store = x.store) :
    ScrubWork i n s (t.modTile i f) where
  pointer := by rw [State.tile_modTile_same, hp, h.pointer]
  store := by rw [State.tile_modTile_same, hf, h.store]
  others j hj := (State.tile_modTile_other _ hj).trans (h.others j hj)
  beside := by
    have hb := h.beside
    unfold Recorded at hb ⊢
    rw [State.modTile, hb]

theorem ScrubWork.recorded {n : Nat} (h : ScrubWork i n s t) {u : State} (hr : Recorded t u) : ScrubWork i n s u := by
  have htile (j : Nat) : u.tile j = t.tile j := by rw [hr]; rfl
  refine ⟨by rw [htile, h.pointer], by rw [htile, h.store], fun j hj => (htile j).trans (h.others j hj), ?_⟩
  have hb := h.beside
  unfold Recorded at hb hr ⊢
  rw [hr, hb]

theorem sramScrub_work (h : s.scrubs i) {n : Nat} (hn : n = storeWords (i % 16)) : ScrubWork i n s (sramScrub i lanes ecc s) := by
  by_cases hb : ecc = .uncorrectable ∨ ecc = .tagError ∨ (s.tile i).scrub % n ∈ (s.tile i).badWords
  · obtain ⟨a, body, ha, he⟩ := sramScrub_bad (lanes := lanes) h hn rfl hb
    rw [he]
    exact (ScrubWork.first.modTile (fun x => (x.scrubBad_frame _).1) fun x => (x.scrubBad_frame _).2.1).recorded (Recorded.refl.logErr ha)
  · simp only [not_or] at hb
    obtain ⟨hu, ht, hw⟩ := hb
    rw [sramScrub_good h hn rfl ⟨hu, ht⟩ hw]
    split
    exacts [ScrubWork.first.modTile (fun _ => rfl) fun _ => rfl, .first]

/-- A word read without error changes nothing more. -/
theorem sramScrub_clean (h : s.scrubs i) {n : Nat} (hn : n = storeWords (i % 16)) (he : ecc = .clean)
    (hw : (s.tile i).scrub % n ∉ (s.tile i).badWords) : (sramScrub i lanes ecc s).logs = s.logs ∧
      ((sramScrub i lanes ecc s).tile i).badWords = (s.tile i).badWords := by
  subst he
  rw [sramScrub_good (ecc := .clean) h hn rfl ⟨by decide, by decide⟩ hw, if_neg (by decide)]
  exact ⟨rfl, by rw [State.tile_modTile_same, Tile.scrubbed]⟩

/-- A corrected word is counted. -/
theorem sramScrub_corrected (h : s.scrubs i) {n : Nat} (hn : n = storeWords (i % 16)) (he : ecc = .corrected)
    (hw : (s.tile i).scrub % n ∉ (s.tile i).badWords) (hl : (s.tile i).ctr.length = 6) :
    ((sramScrub i lanes ecc s).tile i).ctr.getD 5 0 = ((s.tile i).ctr.getD 5 0 + 1) % 2 ^ 48 := by
  subst he
  rw [sramScrub_good (ecc := .corrected) h hn rfl ⟨by decide, by decide⟩ hw, if_pos rfl, State.tile_modTile_same, State.tile_modTile_same]
  have hc (x : Tile) (hx : x.ctr.length = 6) : ((x.count 5 1).gaveCe ((s.tile i).scrub % n) s.clk.life).ctr.getD 5 0 = (x.ctr.getD 5 0 + 1) % 2 ^ 48 := by
    simp [Tile.gaveCe, Tile.count, List.getD_eq_getElem?_getD, hx]
  exact hc ((s.tile i).scrubbed n) hl

/-- An uncorrectable word is logged and stays bad. -/
theorem sramScrub_uncorrectable (hs : 3 < s.start.stage) (h : s.scrubs i) {n : Nat} (hn : n = storeWords (i % 16)) (he : ecc = .uncorrectable) :
    (s.tile i).scrub % n ∈ ((sramScrub i lanes ecc s).tile i).badWords ∧ ∃ r ∈ (sramScrub i lanes ecc s).logs.errs, r.cls = 0x0402 := by
  obtain ⟨a, body, ha, hx⟩ := sramScrub_bad (lanes := lanes) h hn rfl (.inl he)
  rw [hx]
  refine ⟨?_, State.logErr_recorded hs⟩
  have hr := (Recorded.refl (s := (s.modTile i fun y => y.scrubbed n).modTile i fun y => y.scrubBad ((s.tile i).scrub % n))).logErr (cls := 0x0402)
    (body := body) ha
  rw [hr.tile_eq, State.tile_modTile_same]
  exact (Tile.scrubBad_frame _ _).2.2

theorem sramScrub_answers (hs : 3 < s.start.stage) {p : PTile} (hi : i = ptileIx p) (h : s.scrubs i) {n : Nat} (hn : n = storeWords (i % 16)) :
    Answers (.sramScrub p lanes ecc) s fun t => (t.tile i).scrub = ((s.tile i).scrub % n + 1) % n ∧ (t.tile i).store = (s.tile i).store ∧
      (∀ j, j ≠ i → t.tile j = s.tile j) ∧
      (ecc = .clean → (s.tile i).scrub % n ∉ (s.tile i).badWords → t.logs = s.logs ∧ (t.tile i).badWords = (s.tile i).badWords) ∧
      (ecc = .corrected → (s.tile i).scrub % n ∉ (s.tile i).badWords → (s.tile i).ctr.length = 6 →
        (t.tile i).ctr.getD 5 0 = ((s.tile i).ctr.getD 5 0 + 1) % 2 ^ 48) ∧
      (ecc = .uncorrectable → (s.tile i).scrub % n ∈ (t.tile i).badWords ∧ ∃ r ∈ t.logs.errs, r.cls = 0x0402) ∧
      t.ctxs = s.ctxs ∧ t.dram = s.dram ∧ t.pool = s.pool ∧ t.pts = s.pts ∧ SameManagement s t := by
  refine answers_of (u := sramScrub i lanes ecc s) (by rw [hi]; rfl) ?_
  simp only [settle_tile, settle_logs, settle_ctxs, settle_dram, settle_pool, settle_pts]
  obtain ⟨hp, hst, ho, hb⟩ := sramScrub_work (lanes := lanes) (ecc := ecc) h hn
  refine ⟨hp, hst, ho, sramScrub_clean h hn, sramScrub_corrected h hn, sramScrub_uncorrectable hs h hn, ?_⟩
  generalize sramScrub i lanes ecc s = v at hb
  exact ⟨by rw [hb], by rw [hb], by rw [hb], by rw [hb], SameManagement.settle (by rw [hb]; exact ⟨rfl, rfl, rfl⟩)⟩
end

section
variable {ch : Ch} {flips : List DramFlip} {g : Nat}

theorem State.decay_groupsPerChan : (s.decay flips).groupsPerChan = s.groupsPerChan := by
  rw [State.decay_eq]
  rfl

theorem dramScrub_rests (h : (s.chan ch).broke = true ∨ (s.chan ch).selfRefresh = true) : dramScrub ch flips s = s.decay flips := by
  obtain ⟨fl, hf⟩ := State.chan_decay (s := s) (l := flips) (k := ch)
  unfold dramScrub
  dsimp only
  rw [hf]
  exact if_pos h

/-- The channel with its scrub pointer on group `m`, and a group more counted. -/
def Chan.scrubTo (x : Chan) (m : Nat) : Chan := { x with scrub := m, scrubbed := (x.scrubbed + 1) % 2 ^ 48 }

/-- The outcomes of the words of a group. -/
def State.groupEcc (s : State) (ch g : Nat) : List Ecc := (List.range 15).map fun i => s.wordEcc ch (960 * g + 64 * i)

theorem State.mem_groupEcc {k : Nat} {o : Ecc} : o ∈ s.groupEcc k g ↔ ∃ i, i < 15 ∧ s.wordEcc k (960 * g + 64 * i) = o := by
  simp [State.groupEcc]

theorem State.modChan_modChan {k : Nat} {f f' : Chan → Chan} : (s.modChan k f).modChan k f' = s.modChan k fun y => f' (f y) := by
  simp [State.modChan, List.modify_modify_eq, Function.comp_def]

theorem dramScrub_goes (hb : (s.chan ch).broke = false) (hr : (s.chan ch).selfRefresh = false) (hg : g = (s.chan ch).scrub % s.groupsPerChan)
    {v : State} (hv : v = (s.decay flips).modChan ch fun y => y.scrubTo ((g + 1) % s.groupsPerChan)) : dramScrub ch flips s =
      if .tagError ∈ (s.decay flips).groupEcc ch g then v.engineEcc ch (960 * g) .tagError
      else if .uncorrectable ∈ (s.decay flips).groupEcc ch g then v.engineEcc ch (960 * g) .uncorrectable
      else v.modChan ch fun y => { y with flaws := y.flaws.filter fun f => decide (f.1 ≠ g) } := by
  subst hg hv
  obtain ⟨fl, hf⟩ := State.chan_decay (s := s) (l := flips) (k := ch)
  unfold dramScrub
  dsimp only
  rw [State.decay_groupsPerChan, hf, if_neg (by simp [hb, hr])]
  simp only [List.contains_iff_mem]
  rfl

/-- A group without a bad word is written back (R272). -/
theorem dramScrub_good (hb : (s.chan ch).broke = false) (hr : (s.chan ch).selfRefresh = false) (hg : g = (s.chan ch).scrub % s.groupsPerChan)
    (h : ∀ i, i < 15 → (s.decay flips).wordEcc ch (960 * g + 64 * i) = .clean ∨ (s.decay flips).wordEcc ch (960 * g + 64 * i) = .corrected) :
    dramScrub ch flips s = (s.decay flips).modChan ch fun y => { y with
      scrub := (g + 1) % s.groupsPerChan, scrubbed := (y.scrubbed + 1) % 2 ^ 48, flaws := y.flaws.filter fun f => decide (f.1 ≠ g) } := by
  have hno (o : Ecc) (ho : o ≠ .clean) (hc : o ≠ .corrected) : o ∉ (s.decay flips).groupEcc ch g := by
    rw [State.mem_groupEcc]
    rintro ⟨i, hi, rfl⟩
    have := h i hi
    tauto
  rw [dramScrub_goes hb hr hg rfl, if_neg (hno .tagError (by decide) (by decide)), if_neg (hno .uncorrectable (by decide) (by decide)), State.modChan_modChan]
  rfl

/-- What scrubbing and the errors of a channel have counted, and its bad groups. -/
def Chan.tally (x : Chan) : Nat × Nat × Nat × List (Nat × Nat) := (x.scrub, x.scrubbed, x.ue, x.bad)

theorem State.breakChan_tally {k m cause : Nat} : ((s.breakChan k cause g).chan m).tally = (s.chan m).tally := by
  by_cases hb : (s.chan k).broke = true
  · rw [State.breakChan_of_broke hb]
  · have h := State.breakChan_of_good (cause := cause) (g := g) (Bool.eq_false_iff.2 hb)
    have hc : (s.breakChan k cause g).chan m = (s.modChan k fun x => { x with broke := true, trained := false }).chan m := by
      rw [h]
      rfl
    rw [hc]
    exact State.chan_modChan_of (P := fun y => y.tally = (s.chan m).tally) rfl fun _ hy => hy

/-- An uncorrectable word is counted and its group is bad, whether or not its channel breaks. -/
theorem State.memError_tally {k : Nat} (hk : k < s.chans.length) : ∃ b, ((s.memError k g false).chan k).tally =
    ((s.chan k).scrub, (s.chan k).scrubbed, ((s.chan k).ue + 1) % 2 ^ 48, b) ∧ b.any (·.1 = g) = true := by
  unfold State.memError
  extract_lets x again day v
  have hv : ∃ b, (v.chan k).tally = ((s.chan k).scrub, (s.chan k).scrubbed, ((s.chan k).ue + 1) % 2 ^ 48, b) ∧ b.any (·.1 = g) = true := by
    unfold v
    rw [State.chan_modChan_same _ _ _ hk]
    refine ⟨_, rfl, ?_⟩
    dsimp only
    split
    · next h => exact h.resolve_left (by decide)
    · simp
  split
  · rwa [State.breakChan_tally]
  · exact hv

/-- A group with an uncorrectable word (R272, R273). -/
theorem dramScrub_bad_answers (hs : Shaped s) (hst : 3 < s.start.stage) (hb : (s.chan ch).broke = false) (hr : (s.chan ch).selfRefresh = false)
    (hg : g = (s.chan ch).scrub % s.groupsPerChan) (h : ∃ i, i < 15 ∧ (s.decay flips).wordEcc ch (960 * g + 64 * i) = .uncorrectable)
    (hn : ∀ i, i < 15 → (s.decay flips).wordEcc ch (960 * g + 64 * i) ≠ .tagError) :
    Answers (.dramScrub ch flips) s fun t => (t.chan ch).scrub = (g + 1) % s.groupsPerChan ∧
      (t.chan ch).scrubbed = ((s.chan ch).scrubbed + 1) % 2 ^ 48 ∧ (t.chan ch).ue = ((s.chan ch).ue + 1) % 2 ^ 48 ∧
      (t.chan ch).lost g = true ∧ ((s.chan ch).errs = [] → ∃ r ∈ t.logs.errs, r.cls = 0x0106) ∧ t.dram = s.dram ∧ t.pool = s.pool ∧
      SameManagement s t := by
  obtain ⟨fl, hf⟩ := State.chan_decay (s := s) (l := flips) (k := ch)
  have hl : ch.val < (s.decay flips).chans.length := hs.decay.chan_lt ch
  have hno : Ecc.tagError ∉ (s.decay flips).groupEcc ch g := by
    rw [State.mem_groupEcc]
    rintro ⟨i, hi, he⟩
    exact hn i hi he
  have hx : exec (.dramScrub ch flips) s = nextOf s _ :=
    congrArg (nextOf s) ((dramScrub_goes hb hr hg rfl).trans ((if_neg hno).trans (if_pos (State.mem_groupEcc.2 h))))
  have hu : ChansOnly s ((s.decay flips).modChan ch fun y => y.scrubTo ((g + 1) % s.groupsPerChan)) := ChansOnly.decay.modChan
  have hc := State.chan_modChan_same (s := s.decay flips) ch (fun y => y.scrubTo ((g + 1) % s.groupsPerChan)) hl
  rw [hf] at hc
  have hvl : ch.val < ((s.decay flips).modChan ch fun y => y.scrubTo ((g + 1) % s.groupsPerChan)).chans.length := by
    rwa [State.modChan_chans_length]
  generalize (s.decay flips).modChan ch _ = v at hx hu hc hvl
  have hv3 : 3 < v.start.stage := by rwa [hu]
  have hw : EccWork s (v.engineEcc ch (960 * g) .uncorrectable) := (EccWork.of_chansOnly hu).engineEcc
  obtain ⟨w, hvw, hlog, he⟩ : ∃ w, Recorded v w ∧ (∃ r ∈ w.logs.errs, r.cls = 0x0106) ∧
      v.engineEcc ch (960 * g) .uncorrectable = w.memError ch g false :=
    ⟨_, Recorded.refl.logErr rfl, State.logErr_recorded hv3, congrArg (State.memError _ ch · false) (Nat.mul_div_cancel_left g (by decide))⟩
  rw [he] at hx hw
  have hwc : w.chan ch = v.chan ch := by rw [hvw]; rfl
  have hwl : ch.val < w.chans.length := by rwa [hvw]
  rw [← hwc] at hc
  obtain ⟨b, htally, hbad⟩ := State.memError_tally (g := g) hwl
  simp only [Chan.tally, Prod.mk.injEq, hc] at htally
  obtain ⟨hscrub, hscrubbed, hue, hb'⟩ := htally
  refine answers_of hx ?_
  simp only [settle_chan, settle_logs, settle_dram, settle_pool]
  obtain ⟨-, hdram, hpool, -⟩ := hw.sameMemory
  refine ⟨hscrub, hscrubbed, hue, by rw [Chan.lost, hb', hbad], fun hnone => ?_, hdram, hpool, hw.sameManagement.settle⟩
  obtain ⟨f, hf', -⟩ := State.memError_counts (grp := g) hwl (.inr (by rw [hc]; exact hnone))
  rw [hf']
  exact hlog
end

/-! ### Self-refresh (R277) -/

theorem selfRefreshReentry_enters {k : Nat} (ho : (s.pt (ptOfChan k)).pwr = .off) (hr : (s.chan k).selfRefresh = false)
    (hw : (s.chan k).wokenAt + 2 ^ 20 ≤ s.clk.life) : selfRefreshReentry k s = s.modChan k fun y => { y with selfRefresh := true } :=
  if_pos ⟨ho, by simp [hr], hw⟩

theorem selfRefreshReentry_rests {k : Nat}
    (h : (s.pt (ptOfChan k)).pwr ≠ .off ∨ (s.chan k).selfRefresh = true ∨ s.clk.life < (s.chan k).wokenAt + 2 ^ 20) : selfRefreshReentry k s = s := by
  refine if_neg fun ⟨ho, hr, hw⟩ => ?_
  rcases h with h | h | h
  · exact h ho
  · simp [h] at hr
  · omega

/-! ### Package temperatures (R265, R268, R269) -/

section
variable {g : Prog}

/-- A context without a RUN, or one that is to hold already, is left alone. -/
theorem State.refreshClass_noRun (h : (s.ctx c).run = none) : s.refreshClass c = s := by
  unfold State.refreshClass
  dsimp only
  split
  · rfl
  · exact if_pos (by simp [h])

theorem State.refreshClass_hot (hp : (s.ctx c).prog = some g) (hr : (s.ctx c).run ≠ none) (hh : (s.ctx c).hotHold = false)
    (h : ∃ e ∈ s.bands (s.ctx c).held, if g.refreshN then 2 ≤ e.2 else e.2 = 3) :
    ∃ l, s.refreshClass c = (s.logRefresh c l).modCtx c fun y => { y with hotHold := true } := by
  obtain ⟨e, he, hb⟩ := h
  have hne : (s.bands (s.ctx c).held).filter (fun e => if g.refreshN then decide (2 ≤ e.2) else decide (e.2 = 3)) ≠ [] := by
    refine List.ne_nil_of_mem (a := e) (List.mem_filter.2 ⟨he, ?_⟩)
    split at hb <;> simp_all
  unfold State.refreshClass
  simp only [hp]
  rw [if_neg (by simp [hr, hh]), if_pos (by simpa using hne)]
  exact ⟨_, rfl⟩

/-- A context with no package that is hot for its program's class. -/
theorem State.refreshClass_cool (hp : (s.ctx c).prog = some g) (hr : (s.ctx c).run ≠ none) (hh : (s.ctx c).hotHold = false)
    (h : ∀ e ∈ s.bands (s.ctx c).held, if g.refreshN then e.2 < 2 else e.2 ≠ 3) : ∃ l, s.refreshClass c =
      if g.refreshN ∧ (∃ e ∈ s.bands (s.ctx c).held, e.2 = 1) ∧ (s.ctx c).refreshEnd = false then
        (s.logRefresh c l).modCtx c fun y => { y with refreshEnd := true }
      else s := by
  have hnil : (s.bands (s.ctx c).held).filter (fun e => if g.refreshN then decide (2 ≤ e.2) else decide (e.2 = 3)) = [] := by
    refine List.filter_eq_nil_iff.2 fun e he => ?_
    have := h e he
    split at this <;> simp_all
  unfold State.refreshClass
  simp only [hp]
  rw [if_neg (by simp [hr, hh]), hnil, if_neg (by simp)]
  refine ⟨_, if_congr ?_ rfl rfl⟩
  simp [List.filter_eq_nil_iff]

/-- Contexts without a RUN do not respond to a sample. -/
theorem State.foldl_refreshClass_noRun {l : List Nat} (h : ∀ d ∈ l, (s.ctx d).run = none) : l.foldl State.refreshClass s = s := by
  refine List.foldlRecOn (motive := (· = s)) l _ rfl fun a ha d hd => ?_
  subst ha
  exact State.refreshClass_noRun (h d hd)

/-- Only context `c` responds to a sample: the others run nothing. -/
theorem State.foldl_refreshClass (hc : c < 64) (h : ∀ d, d < 64 → d ≠ c → (s.ctx d).run = none)
    (hk : ∀ d, d ≠ c → ((s.refreshClass c).ctx d).run = (s.ctx d).run) : (List.range 64).foldl State.refreshClass s = s.refreshClass c := by
  have hsplit : List.range 64 = List.range c ++ c :: List.range' (c + 1) (63 - c) := by
    have happ := List.range'_append_1 (s := 0) (m := c) (n := 63 - c + 1)
    rw [Nat.zero_add] at happ
    rw [List.range_eq_range', List.range_eq_range', ← List.range'_succ, happ]
    congr 1
    omega
  rw [hsplit, List.foldl_append, State.foldl_refreshClass_noRun fun d hd => h d (by have := List.mem_range.1 hd; omega) (by have := List.mem_range.1 hd; omega),
    List.foldl_cons]
  refine State.foldl_refreshClass_noRun fun d hd => ?_
  have := List.mem_range'_1.1 hd
  rw [hk d (by omega)]
  exact h d (by omega) (by omega)

theorem State.logRefresh_logged {l : List (Nat × Nat)} : Logged s (s.logRefresh c l) := Logged.refl.logErr

theorem State.logRefresh_ctx_eq {α : Type} {d : Nat} {f : Context → α} {l : List (Nat × Nat)} (hf : ∀ x l, f { x with faults := l } = f x)
    (hp : ∀ x b, f { x with proAgain := b } = f x) : f ((s.logRefresh c l).ctx d) = f (s.ctx d) := State.logErr_ctx_eq hf hp

/-- What a mark of a context's response to its packages changes. -/
theorem State.refreshClass_marks {l : List (Nat × Nat)} {f : Context → Context} (he : s.refreshClass c = (s.logRefresh c l).modCtx c f)
    (hf : ∀ x, (f x).st = x.st ∧ (f x).run = x.run) :
    (∀ d, ((s.refreshClass c).ctx d).run = (s.ctx d).run) ∧ ((s.refreshClass c).ctx c).st = (s.ctx c).st ∧
      (s.refreshClass c).dies = s.dies ∧ SameMemory s (s.refreshClass c) ∧ SameManagement s (s.refreshClass c) := by
  have hl : Logged s (s.refreshClass c) := he ▸ State.logRefresh_logged.modCtx
  refine ⟨fun d => ?_, ?_, by rw [hl], by rw [hl]; exact ⟨rfl, rfl, rfl, rfl⟩, hl.management⟩
  · rw [he, State.ctx_modCtx_eq (g := Context.run) fun x => (hf x).2]
    exact State.logRefresh_ctx_eq (fun _ _ => rfl) fun _ _ => rfl
  · rw [he, State.ctx_modCtx_eq (g := Context.st) fun x => (hf x).1]
    exact State.logRefresh_ctx_eq (fun _ _ => rfl) fun _ _ => rfl

theorem State.modCtx_logRefresh_same (hs : Shaped s) (hc : c < 64) {l : List (Nat × Nat)} {f : Context → Context} :
    ((s.logRefresh c l).modCtx c f).ctx c = f ((s.logRefresh c l).ctx c) :=
  State.ctx_modCtx_same _ _ _ (hs.logRefresh.ctx_lt ⟨c, hc⟩)

/-- The state with a sample of temperatures taken. -/
def State.sampled (s : State) (m : KMap Int) (h : List Nat) : State := { s with dies := { s.dies with pkgTemp := m, hotPts := h } }

theorem dramTempSample_eq {temps : List (Fin 48 × Int)} {m : KMap Int} {h : List Nat}
    (hm : m = temps.foldl (fun (m : KMap Int) e => m.set e.1.val e.2) s.dies.pkgTemp)
    (hh : h = (List.range 8).filter (fun p => (packagesOf p).any (fun k => decide (105 < m.getD k 0)) ||
      (s.dies.hotPts.contains p && (packagesOf p).any fun k => decide (100 < m.getD k 0)))) :
    dramTempSample temps s = (List.range 64).foldl State.refreshClass (s.sampled m h) := by
  subst hm hh
  rfl

theorem Shaped.sampled {m : KMap Int} {h : List Nat} (hs : Shaped s) : Shaped (s.sampled m h) := hs.frame

section
variable {u : State} {temps : List (Fin 48 × Int)} (hu : Shaped u) (hsu : SameMemory s u ∧ SameManagement s u)
  (hx : exec (.dramTempSample temps) s = nextOf s ((List.range 64).foldl State.refreshClass u)) (hc : c < 64)
  (ho : ∀ d, d < 64 → d ≠ c → (u.ctx d).run = none) (hp : (u.ctx c).prog = some g) (hst : (u.ctx c).st = .running)
  (hr : (u.ctx c).run ≠ none) (hh : (u.ctx c).hotHold = false)
include hx hc ho hp hr hh

/-- No package is hot or warm for the program's class. -/
theorem dramTempSample_cool (h : ∀ e ∈ u.bands (u.ctx c).held, e.2 = 0 ∨ (g.refreshN = false ∧ e.2 ≠ 3)) : Makes (.dramTempSample temps) s u := by
  obtain ⟨l, he⟩ := State.refreshClass_cool hp hr hh fun e hm => by
    rcases h e hm with h0 | ⟨hn, h3⟩
    · split <;> omega
    · rwa [hn]
  have hu : u.refreshClass c = u := by
    rw [he, if_neg]
    rintro ⟨hn, ⟨e, hm, h1⟩, -⟩
    rcases h e hm with h0 | ⟨hn', -⟩
    · omega
    · simp [hn] at hn'
  refine makes_of (hx.trans (congrArg (nextOf s) ?_))
  rw [State.foldl_refreshClass hc ho fun d _ => by rw [hu], hu]

include hu hsu hst

/-- A package is warm for a program of class N: the program ends at the next commit. -/
theorem dramTempSample_warm_answers (hn : g.refreshN = true) (h : ∀ e ∈ u.bands (u.ctx c).held, e.2 ≤ 1)
    (h1 : ∃ e ∈ u.bands (u.ctx c).held, e.2 = 1) (hre : (u.ctx c).refreshEnd = false) : Answers (.dramTempSample temps) s fun t =>
      (t.ctx c).refreshEnd = true ∧ (t.ctx c).st = .running ∧ t.dies = u.dies ∧ SameMemory s t ∧ SameManagement s t := by
  obtain ⟨l, he⟩ := State.refreshClass_cool hp hr hh fun e hm => by
    have := h e hm
    rw [if_pos hn]
    omega
  rw [if_pos ⟨hn, h1, hre⟩] at he
  obtain ⟨hrun, hst', hdies, hmem, hman⟩ := State.refreshClass_marks he fun _ => ⟨rfl, rfl⟩
  rw [State.foldl_refreshClass hc ho fun d _ => hrun d] at hx
  refine answers_of hx ?_
  simp only [settle_ctx, settle_dies]
  refine ⟨?_, hst'.trans hst, hdies, (SameMemory.trans hsu.1 hmem).settle, (SameManagement.trans hsu.2 hman).settle⟩
  rw [he, State.modCtx_logRefresh_same hu hc]

/-- A package is hot for the program's class: the program is to hold at the next frame boundary. -/
theorem dramTempSample_hot_answers {b : Nat} (hb : b = if g.refreshN then 2 else 3) (h : ∃ e ∈ u.bands (u.ctx c).held, b ≤ e.2)
    (h3 : ∀ e ∈ u.bands (u.ctx c).held, e.2 ≤ 3) : Answers (.dramTempSample temps) s fun t =>
      (t.ctx c).hotHold = true ∧ (t.ctx c).st = .running ∧ t.dies = u.dies ∧ SameMemory s t ∧ SameManagement s t := by
  obtain ⟨e, hm, hbe⟩ := h
  obtain ⟨l, he⟩ := State.refreshClass_hot hp hr hh ⟨e, hm, by
    have := h3 e hm
    rw [hb] at hbe
    split at hbe
    · next hn => rwa [if_pos hn]
    · next hn =>
      rw [if_neg hn]
      omega⟩
  obtain ⟨hrun, hst', hdies, hmem, hman⟩ := State.refreshClass_marks he fun _ => ⟨rfl, rfl⟩
  rw [State.foldl_refreshClass hc ho fun d _ => hrun d] at hx
  refine answers_of hx ?_
  simp only [settle_ctx, settle_dies]
  refine ⟨?_, hst'.trans hst, hdies, (SameMemory.trans hsu.1 hmem).settle, (SameManagement.trans hsu.2 hman).settle⟩
  rw [he, State.modCtx_logRefresh_same hu hc]
end
end
end
end Sys2Proof.Machine

namespace Sys2Proof.Machine

/-! ### What an installation point changes (R71, R78, R464, R522) -/

section
variable {s t u : State} {c k m n : Nat} {g : Prog}

/-- `t` is `s` but for its sheets, tiles and operations, and what is recorded; SPROG of every sheet is as it was. -/
structure SheetWork (s t : State) : Prop where
  same : t = { s with sheets := t.sheets, tiles := t.tiles, ops := t.ops, logs := t.logs, host := t.host, outbox := t.outbox }
  sprog : ∀ n, (t.sheet n).sprog = (s.sheet n).sprog

theorem SheetWork.refl : SheetWork s s := ⟨rfl, fun _ => rfl⟩

theorem SheetWork.trans (h : SheetWork s t) (h' : SheetWork t u) : SheetWork s u := by
  refine ⟨?_, fun n => (h'.sprog n).trans (h.sprog n)⟩
  rw [h'.same, h.same]

theorem SheetWork.ite {q : Prop} [Decidable q] (ht : SheetWork s t) (hu : SheetWork s u) : SheetWork s (if q then t else u) := by
  split <;> assumption

theorem SheetWork.foldl {α : Type} {l : List α} {f : State → α → State} (h : SheetWork s t) (hf : ∀ {a x}, SheetWork s a → SheetWork s (f a x)) :
    SheetWork s (l.foldl f t) := List.foldlRecOn l f h fun _ ha _ _ => hf ha

theorem SheetWork.recorded (h : SheetWork s t) (hr : Recorded t u) : SheetWork s u := by
  refine h.trans ⟨?_, fun n => by rw [hr.sheet_eq]⟩
  rw [hr]

theorem SheetWork.modSheet {f : Sheet → Sheet} (h : SheetWork s t) (hf : ∀ x, (f x).sprog = x.sprog := by intro; rfl) :
    SheetWork s (t.modSheet n f) := h.trans ⟨rfl, fun _ => State.sheet_modSheet_eq hf⟩

theorem SheetWork.modTile {f : Tile → Tile} (h : SheetWork s t) : SheetWork s (t.modTile n f) := h.trans ⟨rfl, fun _ => rfl⟩

theorem SheetWork.retireOne {pc cause : Nat} (h : SheetWork s t) : SheetWork s (t.retireOne m pc cause) :=
  .ite h (((h.modSheet fun x => retireRoles_sprog x).recorded Recorded.refl.addRepair).recorded (Recorded.refl.logErr rfl))

theorem SheetWork.installMap {old : Sheet} (h : SheetWork s t) : SheetWork s (t.installMap m old) := by
  refine h.modSheet fun x => ?_
  dsimp only
  split
  exacts [(newDwell_sprog _).trans (install_sprog x), install_sprog x]

theorem SheetWork.applyRoles {old : Sheet} (h : SheetWork s t) : SheetWork s (t.applyRoles m old) := .ite h.modSheet h.installMap

theorem SheetWork.retire {l : List (Nat × Nat)} (h : SheetWork s t) : SheetWork s (t.retire m l) := (h.foldl fun ha => ha.retireOne).applyRoles

theorem SheetWork.condemn {pc cause : Nat} (h : SheetWork s t) : SheetWork s (t.condemn m pc cause) :=
  .ite (h.modSheet fun x => by split <;> rfl) h.retire

theorem fenceRoles_sprog (x : Sheet) (pc : Nat) (row : Option Nat) : (fenceRoles x pc row).sprog = x.sprog := by
  unfold fenceRoles
  split <;> rfl

theorem unfenceRoles_sprog (x : Sheet) (pc : Nat) (row : Option Nat) : (unfenceRoles x pc row).sprog = x.sprog := by
  unfold unfenceRoles
  split <;> rfl

theorem SheetWork.fenceCol {row : Option Nat} (h : SheetWork s t) : SheetWork s (t.fenceCol m n row) :=
  h.trans ⟨rfl, fun _ => State.sheet_modSheet_eq (s := t) fun x => fenceRoles_sprog x n row⟩

theorem SheetWork.applyFences {commit : Bool} (h : SheetWork s t) : SheetWork s (t.applyFences m commit) :=
  .ite h ((h.foldl fun ha => .ite (.ite ha ha.fenceCol) (ha.modSheet fun x => unfenceRoles_sprog x _ _)).modSheet)

theorem SheetWork.retirePending (h : SheetWork s t) : SheetWork s (t.retirePending m) := h.modSheet.foldl fun ha => ha.retireOne

theorem SheetWork.finishFences (h : SheetWork s t) : SheetWork s t.finishFences :=
  h.foldl fun {a o} ha => .ite (ha.trans (u := a.readyOp o.id ok []) ⟨rfl, fun _ => rfl⟩) ha

theorem SheetWork.installPoint {commit : Bool} (h : SheetWork s t) : SheetWork s (t.installPoint commit m) := by
  unfold State.installPoint
  extract_lets s1 due
  have hs1 : SheetWork s s1 := h.applyFences.retirePending
  have hrenew (x : Sheet) : x.renew.sprog = x.sprog := by
    unfold Sheet.renew
    split
    · split <;> rfl
    · rfl
  exact ((SheetWork.ite hs1.installMap hs1).modSheet hrenew).finishFences

theorem SheetWork.installPoints {commit : Bool} {pts : List Nat} (h : SheetWork s t) : SheetWork s (t.installPoints commit pts) :=
  h.foldl fun ha => ha.foldl fun hb => hb.installPoint

theorem SheetWork.wrote (h : SheetWork s t) : SheetWork s (t.wrote n) := .ite h.modSheet h

theorem SheetWork.moveCols {old : State} {whole : Bool} (h : SheetWork s t) : SheetWork s (t.moveCols old whole m) :=
  State.moveCols_of h (fun _ _ _ ha => ha.modTile) fun _ _ _ _ _ ha => ha.wrote

theorem placeInspect_sprog (x : Sheet) : (placeInspect x).sprog = x.sprog := by
  unfold placeInspect
  split
  · rfl
  · extract_lets y
    split
    · exact install_sprog _
    · rfl

theorem SheetWork.writePrologue {l : List TileRec} (h : SheetWork s t) : SheetWork s (t.writePrologue c l) := h.foldl fun ha => by
  split
  exacts [ha, ha.wrote.modTile]

theorem SheetWork.mirror {e : Dwell} (h : SheetWork s t) : SheetWork s (t.mirror n e) := by
  unfold State.mirror
  split
  exacts [h.foldl fun ha => ha.modTile, h]
end

/-! ### What goes on beside a context that stands (R268, R512) -/

section
variable {s t u : State} {c k m n : Nat} {g : Prog}

/-- Where a context stands: its state, RUN, program, partitions and hold, its place in the schedule, its step, what it has broken, its last commit,
and whether it is to hold for its packages. -/
def Context.footing (x : Context) : CtxState × Option RunRec × Option Prog × List Nat × Hold × Nat × Nat × List Violation × Commit × Bool :=
  (x.st, x.run, x.prog, x.held, x.hold, x.sched, x.step, x.viols, x.commit, x.hotHold)

/-- From `s` to `t` context `c` stands as it did, and no partition's mode and no channel's self-refresh has changed. -/
structure Stands (c : Nat) (s t : State) : Prop where
  footing : (t.ctx c).footing = (s.ctx c).footing
  classN : ∀ p, (t.pt p).classN = (s.pt p).classN
  selfRefresh : ∀ k, (t.chan k).selfRefresh = (s.chan k).selfRefresh

theorem Stands.refl : Stands c s s := ⟨rfl, fun _ => rfl, fun _ => rfl⟩

theorem Stands.trans (h : Stands c s t) (h' : Stands c t u) : Stands c s u :=
  ⟨h'.footing.trans h.footing, fun p => (h'.classN p).trans (h.classN p), fun k => (h'.selfRefresh k).trans (h.selfRefresh k)⟩

theorem Stands.ite {q : Prop} [Decidable q] (ht : Stands c s t) (hu : Stands c s u) : Stands c s (if q then t else u) := by
  split <;> assumption

theorem Stands.foldl {α : Type} {l : List α} {f : State → α → State} (h : Stands c s t) (hf : ∀ {a x}, Stands c s a → Stands c s (f a x)) :
    Stands c s (l.foldl f t) := List.foldlRecOn l f h fun _ ha _ _ => hf ha

theorem Stands.of_same (h : Stands c s t) (hc : u.ctxs = t.ctxs) (hp : u.pts = t.pts) (hk : u.chans = t.chans) : Stands c s u := by
  refine h.trans ⟨?_, fun p => ?_, fun k => ?_⟩
  · rw [State.ctx, hc, State.ctx]
  · rw [State.pt, hp, State.pt]
  · rw [State.chan, hk, State.chan]

theorem Stands.recorded (h : Stands c s t) (hr : Recorded t u) : Stands c s u := h.of_same (by rw [hr]) (by rw [hr]) (by rw [hr])

theorem Stands.modCtx {f : Context → Context} (h : Stands c s t) (hf : ∀ x, (f x).footing = x.footing := by intro; rfl) :
    Stands c s (t.modCtx n f) := ⟨(State.ctx_modCtx_eq (g := Context.footing) hf).trans h.footing, h.classN, h.selfRefresh⟩

theorem Stands.modPt {f : Partition → Partition} (h : Stands c s t) (hf : ∀ x, (f x).classN = x.classN := by intro; rfl) :
    Stands c s (t.modPt n f) where
  footing := h.footing
  classN p := State.pt_modPt_or.elim (fun e => by rw [e, hf, h.classN]) fun e => by rw [e, h.classN]
  selfRefresh := h.selfRefresh

theorem Stands.modChan {f : Chan → Chan} (h : Stands c s t) (hf : ∀ x, (f x).selfRefresh = x.selfRefresh := by intro; rfl) :
    Stands c s (t.modChan n f) where
  footing := h.footing
  classN := h.classN
  selfRefresh k := State.chan_modChan_of (P := fun y => y.selfRefresh = (s.chan k).selfRefresh) (h.selfRefresh k) fun x hx => (hf x).trans hx

theorem Stands.sheetWork (h : Stands c s t) (hw : SheetWork t u) : Stands c s u := by
  refine h.of_same ?_ ?_ ?_
  all_goals rw [hw.same]

theorem Stands.modSheet {f : Sheet → Sheet} (h : Stands c s t) : Stands c s (t.modSheet n f) := h.of_same rfl rfl rfl
theorem Stands.modTile {f : Tile → Tile} (h : Stands c s t) : Stands c s (t.modTile n f) := h.of_same rfl rfl rfl

theorem Stands.logErr {cls : Nat} {a : ErrAt} {body : List Byte} (h : Stands c s t) : Stands c s (t.logErr cls a body) := by
  have hl := Logged.refl (s := t).logErr (cls := cls) (a := a) (body := body)
  refine h.trans ⟨State.logErr_ctx_eq (fun _ _ => rfl) fun _ _ => rfl, fun p => ?_, fun k => ?_⟩
  · rw [hl]; rfl
  · rw [hl]; rfl

/-! Scratch -/

theorem Stands.defined {d a l : Nat} (h : Stands c s t) : Stands c s (t.defined d a l) := .ite h (h.of_same rfl rfl rfl)

/-! Comparators and couch words -/

theorem Stands.recordMismatch {e : Dwell} {x : Mismatch} (h : Stands c s t) : Stands c s (t.recordMismatch n e x) := by
  unfold State.recordMismatch
  extract_lets x' lcol tpc spc y z bin now old tc sc watch flags r rec' kept _ s1 s2 s3 s4 s5
  have hs1 : Stands c s s1 := h.recorded Recorded.refl.withLogs
  have hs3 : Stands c s s3 := hs1.logErr.modSheet
  have hs4 : Stands c s s4 := .ite hs3.modSheet hs3
  have hs5 : Stands c s s5 := .ite (hs4.sheetWork SheetWork.refl.condemn) hs4
  exact .ite (hs5.sheetWork SheetWork.refl.condemn) hs5

theorem Stands.shadowCycle {evs : List WireEvent} (h : Stands c s t) : Stands c s (t.shadowCycle evs n) := by
  unfold State.shadowCycle
  split
  · exact h
  · next d _ =>
    have hm : Stands c s (t.mirror n d) := h.sheetWork SheetWork.refl.mirror
    refine .ite hm ?_
    extract_lets +onlyGivenNames s0 s1
    have hs1 : Stands c s s1 := hm.modSheet
    split
    exacts [hs1, .ite hs1.modSheet hs1.modSheet.recordMismatch]

theorem Stands.catchupCycle {evs : List WireEvent} (h : Stands c s t) : Stands c s (t.catchupCycle evs n) := by
  unfold State.catchupCycle
  split
  · refine .ite h ?_
    split
    exacts [h, h.modTile.logErr.modSheet]
  · exact h

theorem Stands.sheetCycles {evs : List WireEvent} (h : Stands c s t) : Stands c s (t.sheetCycles evs) :=
  h.foldl fun ha => ha.shadowCycle.catchupCycle

/-! The start of a frame, and the end of a cycle -/

theorem Stands.sampleWaits {d : Nat} (h : Stands c s t) : Stands c s (t.sampleWaits d) := by
  unfold State.sampleWaits
  extract_lets +onlyGivenNames x
  split
  exacts [h, .ite h h.modCtx]

theorem Stands.stallTile {d : Nat} {p : Nat × Nat × Nat} (h : Stands c s t) : Stands c s (t.stallTile d p) := by
  unfold State.stallTile
  exact h.modTile

theorem Stands.frameStart {d : Nat} (h : Stands c s t) : Stands c s (t.frameStart d) := by
  unfold State.frameStart
  extract_lets x f s1 l y byL byT s2 proc
  have hs1 : Stands c s s1 := .ite h.sampleWaits h
  have hs2 : Stands c s s2 := .ite hs1 (hs1.foldl fun ha => ha.modPt)
  exact .ite (hs2.foldl fun ha => ha.stallTile) hs2

theorem Stands.accumulate {d r e : Nat} {x : BitVec 512} (h : Stands c s t) : Stands c s (t.accumulate d r e x) := .ite h h.modCtx

theorem Chan.rewrite_selfRefresh (x : Chan) (off l : Nat) : (x.rewrite off l).selfRefresh = x.selfRefresh := by
  unfold Chan.rewrite
  split <;> rfl

theorem Stands.landWrite {w : WriteRec} (h : Stands c s t) : Stands c s (t.landWrite w) := by
  unfold State.landWrite
  extract_lets +onlyGivenNames s1
  have hs1 : Stands c s s1 := by
    unfold s1
    split
    · exact h
    · next d _ =>
      have hd : Stands c s { t with dram := t.dram.write (mpa w.ch w.off) (dataBytes d) } := h.of_same rfl rfl rfl
      have hr := (hd.defined (d := w.ctx) (a := w.addr) (l := 64)).modChan (n := w.ch) fun x => x.rewrite_selfRefresh w.off 64
      dsimp only
      split
      exacts [hr.accumulate, hr]
  exact .ite hs1.modChan hs1

theorem Stands.landWrites (h : Stands c s t) : Stands c s t.landWrites :=
  .ite h ((h.of_same (u := { t with crossing := t.crossing.filter fun w => decide (t.clk.life < w.due) }) rfl rfl rfl).foldl fun ha => ha.landWrite)

theorem Stands.keepBusy (h : Stands c s t) : Stands c s t.keepBusy := h.foldl fun ha => .ite ha.modPt ha

/-! ### A step that is abandoned at a frame boundary (R268) -/

/-- What of a context the way to a frame boundary leaves: its state, program and partitions, its step, what it has broken, its last commit, and
whether it is to hold for its packages. -/
def Context.task (x : Context) : CtxState × Option Prog × List Nat × Nat × List Violation × Commit × Bool :=
  (x.st, x.prog, x.held, x.step, x.viols, x.commit, x.hotHold)

section
variable {d : Nat}

theorem State.modCtx_task {f : Context → Context} (h : (t.ctx d).task = (s.ctx d).task) (hf : ∀ x, (f x).task = x.task := by intro; rfl) :
    ((t.modCtx c f).ctx d).task = (s.ctx d).task := (State.ctx_modCtx_eq (g := Context.task) hf).trans h

theorem State.task_of_ctxs (h : t.ctxs = s.ctxs) : (t.ctx d).task = (s.ctx d).task := by rw [State.ctx, h, State.ctx]

theorem State.writePrologue_ctxs {l : List TileRec} : (s.writePrologue c l).ctxs = s.ctxs := foldl_same (g := State.ctxs) fun a p => by
  split
  · rfl
  · unfold State.wrote
    split <;> rfl

theorem State.refed_task : ((s.refed c).ctx d).task = (s.ctx d).task := by
  unfold State.refed
  split
  · split
    · rfl
    · unfold State.beginPrologue
      split
      exacts [State.modCtx_task rfl, State.modCtx_task (State.task_of_ctxs State.writePrologue_ctxs)]
  · rfl

theorem State.arriveWait_task : ((s.arriveWait c).ctx d).task = (s.ctx d).task := by
  unfold State.arriveWait
  dsimp only
  split
  · rfl
  · split
    exacts [rfl, State.modCtx_task rfl]

theorem State.releaseDue_task : ((s.releaseDue c).ctx d).task = (s.ctx d).task := by
  unfold State.releaseDue
  split
  · split
    · exact State.arriveWait_task.trans (State.modCtx_task (State.task_of_ctxs (foldl_same (g := State.ctxs) fun _ _ => rfl)))
    · rfl
  · rfl

theorem State.endRunOn_task : ((s.endRunOn c).ctx d).task = (s.ctx d).task := by
  unfold State.endRunOn
  split
  exacts [rfl, State.modCtx_task rfl]

/-- Beside its RUN, its STOPs and its queues, the end of a RUN leaves contexts alone. -/
theorem State.endRun_ctx_eq {α : Type} {f : Context → α} {reason status : Nat} (hq : ∀ x l, f { x with queues := l } = f x)
    (hr : ∀ x r, f { x with run := r } = f x) (hst : ∀ x l, f { x with stops := l } = f x) :
    f ((s.endRun c reason status).ctx d) = f (s.ctx d) := by
  have hout (a : State) (e : Nat) (i : W32) (o : Done) : f ((a.setOutcome c e i o).ctx d) = f (a.ctx d) := State.ctx_modCtx_eq fun x => hq x _
  have hstops (a : State) : f ((a.endStops c).ctx d) = f (a.ctx d) :=
    (State.ctx_modCtx_eq fun x => hst x _).trans (foldl_same (g := fun a => f (a.ctx d)) fun _ _ => hout _ _ _ _)
  unfold State.endRun
  split
  exacts [hstops s, (hstops _).trans ((State.ctx_modCtx_eq fun x => hr x _).trans (hout _ _ _ _))]

theorem State.endRun_task {reason status : Nat} : ((s.endRun c reason status).ctx d).task = (s.ctx d).task :=
  State.endRun_ctx_eq (fun _ _ => rfl) (fun _ _ => rfl) fun _ _ => rfl
end

/-- A context back at its last commit (R420). -/
def Context.restored (x : Context) (g : Prog) : Context := { x with
  sched := x.commit.sched, sampled := [], reads := [], queues := x.queues.map Queue.rewind
  colls := x.colls.map fun d => d.back g.calPeriod x.commit.sched }

theorem State.undefScratch_same {d : Nat} : (s.undefScratch d g).ctxs = s.ctxs ∧ (s.undefScratch d g).sheets = s.sheets := by
  unfold State.undefScratch
  split
  · exact ⟨rfl, rfl⟩
  · next al _ =>
    have hdef {α : Type} (f : State → α) (hf : ∀ (a : State) l, f { a with scratch := l } = f a) (a : State) (l : List (Nat × Nat)) :
        f (l.foldl (fun a r => a.defined d r.1 r.2) a) = f a := foldl_same (g := f) fun a r => by
      unfold State.defined
      split
      exacts [rfl, hf a _]
    exact ⟨hdef State.ctxs (fun _ _ => rfl) (s.undefine d (allocLen al)) _, hdef State.sheets (fun _ _ => rfl) (s.undefine d (allocLen al)) _⟩

/-- A context put back to its last commit, and SPROG of its sheets with it (R420). -/
def State.setBack (s : State) (c : Nat) (g : Prog) : State :=
  ((s.ctx c).held.flatMap sheetsOfPt).foldl (fun a n => a.modSheet n fun y => { y with sprog := (s.ctx c).commit.sched })
    (s.modCtx c fun y => y.restored g)

/-- What the restoration of a commit does beside is an installation point's work, and on words under way and scratch. -/
theorem State.restoreCommit_work : ∃ l v, SheetWork { s.setBack c g with flights := l } v ∧
    (s.restoreCommit c g).ctxs = v.ctxs ∧ (s.restoreCommit c g).sheets = v.sheets := by
  unfold State.restoreCommit
  extract_lets b x shs s1 s2 s3 s4 s5 empty s6
  have hs4 : SheetWork s3 s4 := SheetWork.refl.installPoints
  have hs5 : SheetWork s3 s5 := hs4.foldl fun ha => (ha.modSheet fun y => placeInspect_sprog y).moveCols
  have hs6 : SheetWork s3 s6 := hs5.foldl fun ha => ha.modTile
  exact ⟨_, _, hs6.foldl fun ha => by split; exacts [ha.modTile, ha], State.undefScratch_same⟩

theorem State.restoreCommit_ctx (hc : c < s.ctxs.length) : (s.restoreCommit c g).ctx c = (s.ctx c).restored g := by
  obtain ⟨l, v, hv, hctx, -⟩ := State.restoreCommit_work (s := s) (c := c) (g := g)
  have hb : (s.setBack c g).ctxs = (s.modCtx c fun y => y.restored g).ctxs := foldl_same (g := State.ctxs) fun _ _ => rfl
  have hvc : v.ctxs = (s.setBack c g).ctxs := by rw [hv.same]
  rw [State.ctx, hctx, hvc, hb]
  exact State.ctx_modCtx_same s c _ hc

theorem State.restoreCommit_sprog (hs : Shaped s) (hn : n < 24) (hp : ptOfSheet n ∈ (s.ctx c).held) :
    ((s.restoreCommit c g).sheet n).sprog = (s.ctx c).commit.sched := by
  obtain ⟨l, v, hv, -, hsh⟩ := State.restoreCommit_work (s := s) (c := c) (g := g)
  have hm : n ∈ (s.ctx c).held.flatMap sheetsOfPt := List.mem_flatMap.2 ⟨_, hp, List.mem_filter.2 ⟨List.mem_range.2 hn, by simp⟩⟩
  have hb : ((s.setBack c g).sheet n).sprog = (s.ctx c).commit.sched := by
    have hs1 : Shaped (s.modCtx c fun y => y.restored g) := hs.modCtx fun x => by simp [Context.restored]
    refine foldl_each (I := Shaped) (R := fun n a => (a.sheet n).sprog = (s.ctx c).commit.sched) (fun a k hk ha => ⟨ha.modSheet, ?_⟩)
      (fun a k j h => ?_) hs1 n hm
    · obtain ⟨p, -, hkp⟩ := List.mem_flatMap.1 hk
      rw [State.sheet_modSheet_same _ _ _ (by rw [ha.sheets_length]; exact List.mem_range.1 (List.mem_filter.1 hkp).1)]
    · by_cases hkj : k = j
      · subst hkj
        by_cases hl : k < a.sheets.length
        · rw [State.sheet_modSheet_same _ _ _ hl]
        · rwa [State.modSheet, State.sheet, List.modify_eq_self (Nat.not_lt.1 hl)]
      · rwa [State.sheet_modSheet_other _ _ _ _ hkj]
  rw [State.sheet, hsh]
  exact (hv.sprog n).trans hb

theorem State.restoreCommit_footing (hc : c < s.ctxs.length) :
    ((s.restoreCommit c g).ctx c).footing = ({ s.ctx c with sched := (s.ctx c).commit.sched } : Context).footing := by
  rw [State.restoreCommit_ctx hc]
  rfl

/-- Context `x` after the step of a program that ran is abandoned: placed, stopped, at its last commit. -/
def Context.abandoned (x : Context) : Context :=
  { x with st := .placed, run := none, hold := .stopped, sched := x.commit.sched }

theorem State.abandonStep_footing (hs : Shaped s) (hc : c < 64) (hst : (s.ctx c).st = .running) {reason status : Nat} :
    ((s.abandonStep c g reason status).ctx c).footing = (s.ctx c).abandoned.footing := by
  have hlt (a : State) (ha : Shaped a) : c < a.ctxs.length := ha.ctx_lt ⟨c, hc⟩
  have hrun := (State.endRun_ctx (reason := reason) (status := status) (hlt s hs)).run
  have htask := State.endRun_task (s := s) (c := c) (d := c) (reason := reason) (status := status)
  have hr := State.restoreCommit_footing (g := g) (hlt _ (hs.endRun (c := c) (reason := reason) (status := status)))
  simp only [Context.task, Prod.mk.injEq] at htask
  simp only [Context.footing, Prod.mk.injEq] at hr
  obtain ⟨h1, h2, h3, h4, h5, h6, h7⟩ := htask
  obtain ⟨r1, r2, r3, r4, r5, r6, r7, r8, r9, r10⟩ := hr
  unfold State.abandonStep
  rw [State.ctx_modCtx_same _ _ _ (hlt _ hs.endRun.restoreCommit)]
  simp only [Context.footing, Context.abandoned, Prod.mk.injEq]
  rw [r1, r2, r3, r4, r6, r7, r8, r9, r10, h1, h2, h3, h4, h5, h6, h7, hrun, hst]
  simp

/-- From `s` to `t` the program of context `c`, compiled as `g` says, has ended at the frame boundary for its packages. -/
structure HotEnded (c : Nat) (g : Prog) (s t : State) : Prop where
  st : (t.ctx c).st = .placed
  run : (t.ctx c).run = none
  hold : (t.ctx c).hold = .stopped
  sched : (t.ctx c).sched = (s.ctx c).commit.sched
  step : (t.ctx c).step = (s.ctx c).step
  viols : (t.ctx c).viols = []
  classN : ∀ p ∈ (s.ctx c).held, (t.pt p).classN = false
  selfRefresh : g.refreshN = false → ∀ p ∈ (s.ctx c).held, ∀ k ∈ chansOfPt p, (t.chan k).selfRefresh = true

theorem HotEnded.stands (h : HotEnded c g s t) (hs : Stands c t u) : HotEnded c g s u := by
  have hf := hs.footing
  simp only [Context.footing, Prod.mk.injEq] at hf
  obtain ⟨h1, h2, -, -, h5, h6, h7, h8, -, -⟩ := hf
  exact ⟨h1.trans h.st, h2.trans h.run, h5.trans h.hold, h6.trans h.sched, h7.trans h.step, h8.trans h.viols,
    fun p hp => (hs.classN p).trans (h.classN p hp), fun hn p hp k hk => (hs.selfRefresh k).trans (h.selfRefresh hn p hp k hk)⟩

theorem chansOfPt_lt : ∀ p < 8, ∀ k ∈ chansOfPt p, k < 192 := by decide

/-- Partitions `l` in mode H. -/
def State.modeH (s : State) (l : List Nat) : State := l.foldl (fun (a : State) p => a.modPt p fun y => { y with classN := false }) s

/-- The channels of partitions `l` in self-refresh. -/
def State.restChans (s : State) (l : List Nat) : State := l.foldl (fun a p => a.selfRefresh p true) s

theorem Shaped.modeH {l : List Nat} (h : Shaped s) : Shaped (s.modeH l) := h.foldl fun ha => ha.modPt

theorem State.modeH_classN {l : List Nat} (hs : Shaped s) (hl : ∀ p ∈ l, p < 8) : ∀ p ∈ l, ((s.modeH l).pt p).classN = false :=
  foldl_each (I := Shaped) (R := fun p a => (a.pt p).classN = false)
    (fun a p hp ha => ⟨ha.modPt, congrArg Partition.classN (State.pt_modPt_same a p _ (by rw [ha.pts_length]; exact hl p hp))⟩)
    (fun a q p h => by
      rcases State.pt_modPt_or (s := a) (p := q) (q := p) (f := fun y => { y with classN := false }) with e | e
      · rw [e]
      · rwa [e]) hs

theorem State.selfRefresh_chan {p : Nat} (hs : Shaped s) (hp : p < 8) : ∀ m ∈ chansOfPt p, ((s.selfRefresh p true).chan m).selfRefresh = true :=
  foldl_each (I := Shaped) (R := fun m a => (a.chan m).selfRefresh = true)
    (fun a m hm ha => ⟨ha.modChan, congrArg Chan.selfRefresh (State.chan_modChan_same a m _ (by rw [ha.chans_length]; exact chansOfPt_lt p hp m hm))⟩)
    (fun _ _ _ h => State.chan_modChan_of (P := fun y => y.selfRefresh = true) h fun _ _ => rfl) hs

theorem State.restChans_chan {l : List Nat} (hs : Shaped s) (hl : ∀ p ∈ l, p < 8) :
    ∀ p ∈ l, ∀ m ∈ chansOfPt p, ((s.restChans l).chan m).selfRefresh = true :=
  foldl_each (I := Shaped) (R := fun p a => ∀ m ∈ chansOfPt p, (a.chan m).selfRefresh = true)
    (fun _ p hp ha => ⟨ha.selfRefresh, State.selfRefresh_chan ha (hl p hp)⟩)
    (fun _ q _ h m hm => List.foldlRecOn (motive := fun a : State => (a.chan m).selfRefresh = true) (chansOfPt q) _ (h m hm) fun _ ha _ _ =>
      State.chan_modChan_of (P := fun y => y.selfRefresh = true) ha fun _ _ => rfl) hs

theorem State.restChans_same {l : List Nat} : (s.restChans l).ctxs = s.ctxs ∧ (s.restChans l).pts = s.pts :=
  ⟨foldl_same (g := State.ctxs) fun _ _ => foldl_same (g := State.ctxs) fun _ _ => rfl,
    foldl_same (g := State.pts) fun _ _ => foldl_same (g := State.pts) fun _ _ => rfl⟩

theorem State.hotAbandon_eq (hp : (s.ctx c).prog = some g) (hh : (s.ctx c).hotHold = true) {v : State}
    (hv : v = ((s.abandonStep c g rRefresh degraded).modCtx c fun y => { y with hotHold := false }).modeH (s.ctx c).held) :
    s.hotAbandon c = if g.refreshN then v else v.restChans (s.ctx c).held := by
  subst hv
  unfold State.hotAbandon
  simp only [hh, hp]
  rfl

/-- The step is abandoned, its partitions are in mode H, and the channels of a class H program rest. -/
theorem State.hotAbandon_ends (hs : Shaped s) (hc : c < 64) (hp : (s.ctx c).prog = some g) (hst : (s.ctx c).st = .running)
    (hh : (s.ctx c).hotHold = true) (hv : (s.ctx c).viols = []) (hheld : (s.ctx c).held ⊆ List.range 8) : HotEnded c g s (s.hotAbandon c) := by
  have h8 : ∀ p ∈ (s.ctx c).held, p < 8 := fun p hm => List.mem_range.1 (hheld hm)
  have hsa : Shaped ((s.abandonStep c g rRefresh degraded).modCtx c fun y => { y with hotHold := false }) := hs.abandonStep.modCtx fun _ => rfl
  have hctx := State.ctx_modCtx_same (s := s.abandonStep c g rRefresh degraded) c (fun y => { y with hotHold := false })
    (hs.abandonStep.ctx_lt ⟨c, hc⟩)
  have hf := State.abandonStep_footing (g := g) hs hc hst (reason := rRefresh) (status := degraded)
  rw [State.hotAbandon_eq hp hh rfl]
  generalize hw : (s.abandonStep c g rRefresh degraded).modCtx c _ = w at hctx hsa
  simp only [Context.footing, Context.abandoned, Prod.mk.injEq] at hf
  obtain ⟨f1, f2, -, -, f5, f6, f7, f8, -, -⟩ := hf
  have hwc (t : State) (ht : t.ctxs = w.ctxs) : t.ctx c = w.ctx c := by rw [State.ctx, ht, State.ctx]
  have hm : (w.modeH (s.ctx c).held).ctxs = w.ctxs := foldl_same (g := State.ctxs) fun _ _ => rfl
  obtain ⟨hrc, hrp⟩ := State.restChans_same (s := w.modeH (s.ctx c).held) (l := (s.ctx c).held)
  have hends (t : State) (ht : t.ctxs = w.ctxs) (htp : t.pts = (w.modeH (s.ctx c).held).pts)
      (hk : g.refreshN = false → ∀ p ∈ (s.ctx c).held, ∀ k ∈ chansOfPt p, (t.chan k).selfRefresh = true) : HotEnded c g s t := by
    have he := hwc t ht
    rw [hctx] at he
    refine ⟨by rw [he, f1], by rw [he, f2], by rw [he, f5], by rw [he, f6], by rw [he, f7], by rw [he, f8, hv], fun p hp => ?_, hk⟩
    rw [State.pt, htp]
    exact State.modeH_classN hsa h8 p hp
  split
  · next hn => exact hends _ hm rfl fun hf => by simp [hn] at hf
  · exact hends _ (hrc.trans hm) hrp fun _ => State.restChans_chan hsa.modeH h8

/-! ### The cycle in which it ends -/

theorem Stands.voteHold (h : (s.ctx c).hold = .stopped) : Stands c s (s.voteHold c) := by
  unfold State.voteHold
  split
  · refine ⟨?_, fun _ => rfl, fun _ => rfl⟩
    exact State.ctx_modCtx_of (P := fun x => x.footing = (s.ctx c).footing) rfl fun x hx => by
      have hx5 : x.hold = .stopped := (congrArg (fun y => y.2.2.2.2.1) hx).trans h
      rw [← hx, hx5]
      simp [Context.footing, hx5]
  · exact .refl

theorem State.schedRuns_stopped (h : (s.ctx c).hold = .stopped) : s.schedRuns c = false := by
  simp [State.schedRuns, h]

theorem State.proCycle_stopped (h : (s.ctx c).hold = .stopped) : s.proCycle c = none := by
  simp [State.proCycle, h]

theorem HotEnded.of_task {v : State} (h : HotEnded c g v t) (ht : (v.ctx c).task = (s.ctx c).task) : HotEnded c g s t := by
  simp only [Context.task, Prod.mk.injEq] at ht
  obtain ⟨-, -, hheld, hstep, -, hcommit, -⟩ := ht
  exact ⟨h.st, h.run, h.hold, hcommit ▸ h.sched, hstep ▸ h.step, h.viols, hheld ▸ h.classN, hheld ▸ h.selfRefresh⟩

/-- The tiles of a context whose program ends for its packages do no work in the cycle. -/
theorem State.ctxCycle_hot {evs : List WireEvent} (hs : Shaped s) (hc : c < 64) (hp : (s.ctx c).prog = some g) (hst : (s.ctx c).st = .running)
    (hh : (s.ctx c).hotHold = true) (hv : (s.ctx c).viols = []) (hheld : (s.ctx c).held ⊆ List.range 8) (hcyc : s.cyc % 32 = 0) :
    (s.ctxCycle evs c).2 = [] ∧ HotEnded c g s (s.ctxCycle evs c).1 := by
  have hw : CycleWork s ((s.refed c).releaseDue c) := CycleWork.refl.refed.releaseDue
  have hcyc' : ((s.refed c).releaseDue c).cyc % 32 = 0 := by
    rw [State.cyc, hw.clk]
    exact hcyc
  have hsv : Shaped (((s.refed c).releaseDue c).endRunOn c) := hs.refed.releaseDue.endRunOn
  have ht : ((((s.refed c).releaseDue c).endRunOn c).ctx c).task = (s.ctx c).task :=
    State.endRunOn_task.trans (State.releaseDue_task.trans State.refed_task)
  unfold State.ctxCycle
  dsimp only
  rw [if_pos hcyc']
  generalize ((s.refed c).releaseDue c).endRunOn c = v at ht hsv
  have ht' := ht
  simp only [Context.task, Prod.mk.injEq] at ht'
  obtain ⟨h1, h2, h3, -, h5, -, h7⟩ := ht'
  have he : HotEnded c g s (v.hotAbandon c) :=
    (State.hotAbandon_ends hsv hc (h2.trans hp) (h1.trans hst) (h7.trans hh) (h5.trans hv) (by rwa [h3])).of_task ht
  have hb : HotEnded c g s (((v.hotAbandon c).voteHold c).frameStart c) := he.stands ((Stands.voteHold he.hold).trans Stands.refl.frameStart)
  rw [State.schedRuns_stopped hb.hold, State.proCycle_stopped hb.hold]
  exact ⟨rfl, hb⟩

theorem State.violate_nil (h : (s.ctx c).viols = []) : s.violate c [] = s := by
  unfold State.violate
  dsimp only
  rw [h]
  rfl

theorem routeCycle_hot {evs : List WireEvent} (hs : Shaped s) (hb : s.boundCtxs = [c]) (hp : (s.ctx c).prog = some g)
    (hst : (s.ctx c).st = .running) (hh : (s.ctx c).hotHold = true) (hv : (s.ctx c).viols = []) (hheld : (s.ctx c).held ⊆ List.range 8)
    (hcyc : s.cyc % 32 = 0) : HotEnded c g s (routeCycle evs s) := by
  obtain ⟨hc, -⟩ := State.boundCtxs_single hb
  obtain ⟨hran, he⟩ := State.ctxCycle_hot (evs := evs) hs hc hp hst hh hv hheld hcyc
  rw [routeCycle_single hb hran]
  unfold State.worked
  have hw : HotEnded c g s ((s.ctxCycle evs c).1.sheetCycles evs) := he.stands Stands.refl.sheetCycles
  generalize (s.ctxCycle evs c).1.sheetCycles evs = w at hw
  have hact : (w.ctx c).active = false := by simp [Context.active, hw.st]
  have hadv : w.advance c [] = w := by simp [State.advance, hact]
  rw [State.violate_nil hw.viols, hadv]
  have ht0 : Stands c w w.tick := Stands.refl.of_same rfl rfl rfl
  have ht : Stands c w w.tick.landWrites := ht0.landWrites
  have harr (v : State) : v.arriveAfter c [] = v := if_neg (by simp)
  rw [harr]
  exact hw.stands ht.keepBusy

/-- The cycle of a frame boundary at which the program of the context alone on the module is to hold for its packages (R268). -/
theorem routeCycle_hot_answers {evs : List WireEvent} (hs : Shaped s) (hb : s.boundCtxs = [c]) (hp : (s.ctx c).prog = some g)
    (hst : (s.ctx c).st = .running) (hh : (s.ctx c).hotHold = true) (hv : (s.ctx c).viols = []) (hheld : (s.ctx c).held ⊆ List.range 8)
    (hcyc : s.cyc % 32 = 0) : Answers (.routeCycle evs) s fun t => (t.ctx c).st = .placed ∧ (t.ctx c).run = none ∧ (t.ctx c).hold = .stopped ∧
      (t.ctx c).sched = (s.ctx c).commit.sched ∧ (t.ctx c).step = (s.ctx c).step ∧ (∀ p ∈ (s.ctx c).held, (t.pt p).classN = false) ∧
      (g.refreshN = false → ∀ p ∈ (s.ctx c).held, ∀ k ∈ chansOfPt p, (t.chan k).selfRefresh = true) ∧ t.pool = s.pool ∧ SameManagement s t := by
  obtain ⟨t, ht, -, -, -, hpool, -, -, hman⟩ := routeCycle_answers (s := s) (evs := evs)
  refine ⟨t, ht, ?_⟩
  have he := routeCycle_hot (evs := evs) hs hb hp hst hh hv hheld hcyc
  obtain rfl : settle s (routeCycle evs s) = t := by
    have hx : exec (.routeCycle evs) s = nextOf s (routeCycle evs s) := rfl
    rw [hx] at ht
    exact Host.Outcome.next.inj ht
  simp only [settle_ctx, settle_pt, settle_chan]
  exact ⟨he.st, he.run, he.hold, he.sched, he.step, he.classN, he.selfRefresh, hpool, hman⟩
end
end Sys2Proof.Machine

open Sys2Proof.Machine in
/-- Settles O37: a scrub by what it meets, a sample by the bands of the one program that runs, and the frame boundary by what an abandoned step leaves
its context. -/
theorem scrubbingAndTemperature : Obligations.ScrubbingAndTemperature := by
  refine ⟨fun s hs hst => ⟨?_, fun ch flips h => makes_of (congrArg (nextOf s) (dramScrub_rests h)), ?_,
      fun ch ho hr hw => makes_of (congrArg (nextOf s) (selfRefreshReentry_enters ho hr hw)),
      fun ch h => makes_of (congrArg (nextOf s) (selfRefreshReentry_rests h))⟩, fun s temps m h u hs hm hh hu => ⟨?_, ?_, ?_⟩⟩
  · rintro p lanes ecc i n rfl rfl
    exact ⟨fun h => makes_of (congrArg (nextOf s) (sramScrub_rests fun ⟨hn, hp⟩ => by tauto)),
      fun hn hp => sramScrub_answers hst rfl ⟨hn, hp⟩ rfl⟩
  · rintro ch flips u g hb hr rfl hg
    exact ⟨fun h => makes_of (congrArg (nextOf s) (dramScrub_good hb hr hg h)), fun h hn => dramScrub_bad_answers hs hst hb hr hg h hn⟩
  · intro hno
    rw [hu]
    refine makes_of (congrArg (nextOf s) ((dramTempSample_eq hm hh).trans ?_))
    exact State.foldl_refreshClass_noRun fun d hd => hno d (List.mem_range.1 hd)
  · intro c g hc ho hp hst hr hnh
    have hx : exec (.dramTempSample temps) s = nextOf s ((List.range 64).foldl State.refreshClass u) := by
      rw [hu]
      exact congrArg (nextOf s) (dramTempSample_eq hm hh)
    have hctx : u.ctxs = s.ctxs := by rw [hu]
    have hsu : SameMemory s u ∧ SameManagement s u := by
      rw [hu]
      exact ⟨⟨rfl, rfl, rfl, rfl⟩, rfl, rfl, rfl⟩
    have hus : Shaped u := by
      rw [hu]
      exact hs.sampled
    have hctxd (d : Nat) : s.ctx d = u.ctx d := by rw [State.ctx, ← hctx, State.ctx]
    simp only [hctxd] at ho hp hst hr hnh ⊢
    exact ⟨dramTempSample_cool hx hc ho hp hr hnh, fun hn h h1 hre => dramTempSample_warm_answers hus hsu hx hc ho hp hst hr hnh hn h h1 hre,
      fun b hb h h3 => dramTempSample_hot_answers hus hsu hx hc ho hp hst hr hnh hb h h3⟩
  · exact fun c g evs hb hp hst hh hv hheld hcyc => routeCycle_hot_answers hs hb hp hst hh hv hheld hcyc

namespace Sys2Proof.Machine

section
variable {s t u : State} {c k m n : Nat} {g : Prog}

/-! ### What the sheets report and what is logged at a calender point (R418, R475, R504) -/

/-- A context but for the step's faults, what it has broken in the cycle, and what its last imbalance was. -/
def Context.core (x : Context) : Context := { x with faults := [], proAgain := false, viols := [], balanceRb := none }

/-- `t` is `s` but for its sheets, and what is recorded; context `c` has kept its core. -/
structure Reports (c : Nat) (s t : State) : Prop where
  core : (t.ctx c).core = (s.ctx c).core
  same : t = { s with ctxs := t.ctxs, sheets := t.sheets, ops := t.ops, logs := t.logs, host := t.host, outbox := t.outbox }

theorem Reports.refl : Reports c s s := ⟨rfl, rfl⟩

/-- What rests on the core of the context alone is kept. -/
theorem Reports.keeps {α : Type} {f : Context → α} (h : Reports c s t) (hf : ∀ x, f x.core = f x := by intro; rfl) : f (t.ctx c) = f (s.ctx c) := by
  rw [← hf, h.core, hf]

theorem Reports.trans (h : Reports c s t) (h' : Reports c t u) : Reports c s u := by
  refine ⟨h'.core.trans h.core, ?_⟩
  rw [h'.same, h.same]

theorem Reports.ite {q : Prop} [Decidable q] (ht : Reports c s t) (hu : Reports c s u) : Reports c s (if q then t else u) := by
  split <;> assumption

theorem Reports.recorded (h : Reports c s t) (hr : Recorded t u) : Reports c s u := by
  refine h.trans ⟨?_, ?_⟩
  · rw [hr]
    rfl
  · rw [hr]

theorem Reports.modSheet {f : Sheet → Sheet} (h : Reports c s t) : Reports c s (t.modSheet n f) := h.trans ⟨rfl, rfl⟩

theorem Reports.modCtx {f : Context → Context} (h : Reports c s t) (hf : ∀ x, (f x).core = x.core := by intro; rfl) : Reports c s (t.modCtx n f) :=
  h.trans ⟨State.ctx_modCtx_eq (g := Context.core) hf, rfl⟩

theorem Reports.logErr {cls : Nat} {a : ErrAt} {body : List Byte} (h : Reports c s t) : Reports c s (t.logErr cls a body) := by
  have hl := Logged.refl (s := t).logErr (cls := cls) (a := a) (body := body)
  refine h.trans ⟨State.logErr_ctx_eq (fun _ _ => rfl) fun _ _ => rfl, ?_⟩
  rw [hl]

/-- The retirement of columns moves no tile. -/
theorem State.condemn_tiles {pc cause : Nat} : (s.condemn m pc cause).tiles = s.tiles := by
  have hone (a : State) (p : Nat × Nat) : (a.retireOne m p.1 p.2).tiles = a.tiles := by
    have hrec : Recorded (a.modSheet m fun x => retireRoles x p.1) ((a.modSheet m fun x => retireRoles x p.1).addRepair 0x10 p.2
      (m * 2 ^ 24 + p.1 * 2 ^ 16 + 0xFF00) 0) := Recorded.refl.addRepair
    unfold State.retireOne
    split
    · rfl
    · dsimp only
      rw [hrec.logErr rfl]
      rfl
  have happ (a : State) (old : Sheet) : (a.applyRoles m old).tiles = a.tiles := by
    unfold State.applyRoles State.installMap
    split <;> rfl
  unfold State.condemn State.retire
  split
  exacts [rfl, (happ _ _).trans (foldl_same (g := State.tiles) hone)]

theorem Reports.condemn {pc cause : Nat} (h : Reports c s t) : Reports c s (t.condemn m pc cause) := by
  have hw : SheetWork t (t.condemn m pc cause) := SheetWork.refl.condemn
  have ht := State.condemn_tiles (s := t) (m := m) (pc := pc) (cause := cause)
  refine h.trans ⟨?_, ?_⟩
  · rw [hw.same]
    rfl
  · rw [hw.same, ht]

theorem Reports.recordMismatch {e : Dwell} {x : Mismatch} (h : Reports c s t) : Reports c s (t.recordMismatch n e x) := by
  unfold State.recordMismatch
  extract_lets x' lcol tpc spc y z bin now old tc sc watch flags r rec' kept _ s1 s2 s3 s4 s5
  have hs1 : Reports c s s1 := h.recorded Recorded.refl.withLogs
  have hs3 : Reports c s s3 := hs1.logErr.modSheet
  have hs4 : Reports c s s4 := .ite hs3.modSheet hs3
  have hs5 : Reports c s s5 := .ite hs4.condemn hs4
  exact .ite hs5.condemn hs5

theorem Reports.wmDiffers {x : Mismatch} (h : Reports c s t) : Reports c s (t.wmDiffers n x) := by
  unfold State.wmDiffers
  split
  exacts [h, .ite h.modSheet h.modSheet.recordMismatch]

theorem Reports.calEvents {evs : List CalEvent} (h : Reports c s t) : Reports c s (t.calEvents k evs) :=
  List.foldlRecOn evs _ h fun _ ha e _ => by
    cases e with
    | progress sh v => exact .ite ha.modSheet ha
    | shadowWm sh row diff temp mv act => exact .ite ha.wmDiffers ha

/-! ### The local decision (R204, R505) -/

/-- The program of the context goes on, or is to be suspended. -/
theorem Context.active_st {x : Context} (h : x.active = true) : x.st = .running ∨ x.st = .suspending := by
  unfold Context.active at h
  simp only [Bool.or_eq_true, Bool.and_eq_true, decide_eq_true_eq] at h
  tauto

theorem State.faultCtx_st (hs : Shaped s) (hc : c < 64) (h : (s.ctx c).st = .running ∨ (s.ctx c).st = .suspending) {reason status : Nat} :
    ((s.faultCtx c reason status).ctx c).st = .faulted :=
  (State.faultCtx_same hs hc (by rcases h with h | h <;> simp [h])).st

/-- A context at a calender point faults by what it has broken, or the violation is recorded beside the step's faults. -/
theorem State.violate_reports {l : List Violation} (hs : Shaped s) (hc : c < 64) (h : (s.ctx c).st = .running ∨ (s.ctx c).st = .suspending) :
    ((s.violate c l).ctx c).st = .faulted ∨ Reports c s (s.violate c l) := by
  have hv : Reports c s (s.modCtx c fun x => { x with viols := [] }) := Reports.refl.modCtx
  have hsv : Shaped (s.modCtx c fun x => { x with viols := [] }) := hs.modCtx
  unfold State.violate
  extract_lets v
  split
  · exact .inr .refl
  · next w r _ =>
    extract_lets body sec s1 on
    have hs1 : Reports c s s1 := hv.logErr
    split
    · exact .inr hs1
    · left
      have hst : ((s1.modCtx c fun x => { x with violated := true }).ctx c).st = (s.ctx c).st :=
        State.ctx_modCtx_of (P := fun x => x.st = (s.ctx c).st) (hs1.keeps (f := Context.st)) fun _ hx => hx
      have hf := State.faultCtx_st hsv.logErr.modCtx hc (hst ▸ h) (reason := rViolation) (status := invalid)
      exact State.ctx_modCtx_of (P := fun x => x.st = .faulted) hf fun _ hx => hx

/-- An SPROG that differs from SCHED is recorded (R418). -/
def State.sprogChecked (s : State) (c : Nat) : State :=
  match ((s.ctx c).held.flatMap sheetsOfPt).find? fun n => decide ((s.sheet n).sprog ≠ (s.ctx c).sched) with
  | some n => s.logErr 0x010A { s.ctxAt c with handle := s.handleOf (.sheet n), pt := some (ptOfSheet n) } (s.progressBody c 0)
  | none => s

/-- What the local decision looks at first: SPROG, and what the schedule has left (R204). -/
def State.pointChecked (s : State) (c : Nat) : State := (s.sprogChecked c).violate c ((s.sprogChecked c).calenderViolations c)

theorem State.sprogChecked_reports (hs : Shaped s) : Shaped (s.sprogChecked c) ∧ Reports c s (s.sprogChecked c) := by
  unfold State.sprogChecked
  split
  exacts [⟨hs.logErr, Reports.refl.logErr⟩, ⟨hs, .refl⟩]

theorem State.pointChecked_reports (hs : Shaped s) (hc : c < 64) (h : (s.ctx c).st = .running ∨ (s.ctx c).st = .suspending) :
    ((s.pointChecked c).ctx c).st = .faulted ∨ Reports c s (s.pointChecked c) := by
  obtain ⟨hs1, h1⟩ := State.sprogChecked_reports (c := c) hs
  have hst : ((s.sprogChecked c).ctx c).st = (s.ctx c).st := h1.keeps (f := Context.st)
  exact (State.violate_reports hs1 hc (hst ▸ h)).imp_right h1.trans

theorem State.localDecision_eq : s.localDecision c g =
    if ((s.pointChecked c).ctx c).st = .faulted then (s.pointChecked c, none)
    else if !((s.pointChecked c).ctx c).faults.isEmpty then (s.pointChecked c, some false)
    else match ((s.pointChecked c).programAdds c g).pairCheck c g with
      | .breach d m => ((s.pointChecked c).pairViolation ((s.pointChecked c).programAdds c g) c 5 d m, none)
      | .unbalanced m =>
        if ((s.pointChecked c).ctx c).balanceRb = some (m.id, m.stepVal % 65536) then
          ((s.pointChecked c).pairViolation ((s.pointChecked c).programAdds c g) c 6 c m, none)
        else (((s.pointChecked c).logErr 0x010F ((s.pointChecked c).ctxAt c)
            (pairBody 6 m ((((s.pointChecked c).programAdds c g).pairVals c m).getD (0, 0)))).modCtx c fun y =>
          { y with balanceRb := some (m.id, m.stepVal % 65536) }, some false)
      | .good => match ((s.pointChecked c).ctx c).colls.find? ((s.pointChecked c).collIncomplete c g) with
        | some d => ((s.pointChecked c).logErr 0x010C ((s.pointChecked c).ctxAt c) (collBody d.id (d.occ + 1) 1 0 0 0 0), some false)
        | none => (s.pointChecked c, some true) := rfl

/-- A local decision that stands has faulted no context; when it is to commit, the pairs are good. -/
theorem State.localDecision_reports (hs : Shaped s) (hc : c < 64) (h : (s.ctx c).st = .running ∨ (s.ctx c).st = .suspending) {good : Bool}
    (hd : (s.localDecision c g).2 = some good) : Reports c s (s.localDecision c g).1 ∧
      (good = true → ((s.localDecision c g).1.programAdds c g).pairCheck c g = .good) := by
  obtain hf | hp := State.pointChecked_reports hs hc h
  · rw [State.localDecision_eq, if_pos hf] at hd
    cases hd
  · rw [State.localDecision_eq] at hd ⊢
    generalize s.pointChecked c = v at hd hp ⊢
    split at hd
    · cases hd
    · next hnf =>
      rw [if_neg hnf]
      split at hd
      · next hfaults =>
        rw [if_pos hfaults]
        cases hd
        exact ⟨hp, nofun⟩
      · next hfaults =>
        rw [if_neg hfaults]
        cases hpc : (v.programAdds c g).pairCheck c g with
        | breach d m =>
          rw [hpc] at hd
          cases hd
        | unbalanced m =>
          rw [hpc] at hd
          dsimp only at hd ⊢
          split at hd
          · cases hd
          · next hb =>
            rw [if_neg hb]
            cases hd
            exact ⟨hp.logErr.modCtx, nofun⟩
        | good =>
          rw [hpc] at hd
          dsimp only at hd ⊢
          split at hd
          · cases hd
            exact ⟨hp.logErr, nofun⟩
          · exact ⟨hp, fun _ => hpc⟩
end
end Sys2Proof.Machine

namespace Sys2Proof.Machine

section
variable {s t u : State} {c d k m n : Nat} {g : Prog}

/-! ### What a commit leaves as it is (R261, R417, R419) -/

/-- What the commit of a step puts on record for a context, with its state and its RUN: the step count, SCHED of the last commit and SCHED, the
rollbacks, the step's faults and FLIP. -/
def Context.books (x : Context) : (Nat × Nat × Nat × Nat × List Nat × List Bool) × CtxState × Option RunRec :=
  ((x.step, x.commit.sched, x.sched, x.rollbacks, x.faults, x.flips), x.st, x.run)

/-- The contexts' number, jobs, memories and the identity. -/
def State.stores (s : State) : Nat × List Job × Mem × Mem × Reel × Ident := (s.ctxs.length, s.jobs, s.dram, s.pool, s.reel, s.ident)

/-- The books of context `c` and the stores are as they were. -/
structure Books (c : Nat) (s t : State) : Prop where
  books : (t.ctx c).books = (s.ctx c).books
  stores : t.stores = s.stores

theorem Books.refl : Books c s s := ⟨rfl, rfl⟩

theorem Books.trans (h : Books c s t) (h' : Books c t u) : Books c s u := ⟨h'.books.trans h.books, h'.stores.trans h.stores⟩

theorem Books.ite {q : Prop} [Decidable q] (ht : Books c s t) (hu : Books c s u) : Books c s (if q then t else u) := by
  split <;> assumption

theorem Books.foldl {α : Type} {l : List α} {f : State → α → State} (h : Books c s t) (hf : ∀ {a x}, Books c s a → Books c s (f a x)) :
    Books c s (l.foldl f t) := List.foldlRecOn l f h fun _ ha _ _ => hf ha

theorem Books.of_same (h : Books c s t) (hc : u.ctxs = t.ctxs) (hs : u.stores = t.stores) : Books c s u :=
  h.trans ⟨by rw [State.ctx, hc, State.ctx], hs⟩

theorem State.modCtx_stores {f : Context → Context} : (s.modCtx n f).stores = s.stores := by simp [State.stores, State.modCtx]

theorem Books.modCtx {f : Context → Context} (h : Books c s t) (hf : ∀ x, (f x).books = x.books := by intro; rfl) : Books c s (t.modCtx n f) :=
  h.trans ⟨State.ctx_modCtx_eq (g := Context.books) hf, State.modCtx_stores⟩

theorem Books.modPt {f : Partition → Partition} (h : Books c s t) : Books c s (t.modPt n f) := h.of_same rfl rfl
theorem Books.modSheet {f : Sheet → Sheet} (h : Books c s t) : Books c s (t.modSheet n f) := h.of_same rfl rfl
theorem Books.modTile {f : Tile → Tile} (h : Books c s t) : Books c s (t.modTile n f) := h.of_same rfl rfl
theorem Books.ctxCount {id : Nat} (h : Books c s t) : Books c s (t.ctxCount d id n) := h.modCtx
theorem Books.setOutcome {i : W32} {o : Done} (h : Books c s t) : Books c s (t.setOutcome d k i o) := h.modCtx

theorem Books.sheetWork (h : Books c s t) (hw : SheetWork t u) : Books c s u := by
  refine h.of_same ?_ ?_
  all_goals rw [hw.same]
  rfl

theorem Books.recorded (h : Books c s t) (hr : Recorded t u) : Books c s u := by
  refine h.of_same ?_ ?_
  all_goals rw [hr]
  rfl

theorem Books.programAdds (h : Books c s t) : Books c s (t.programAdds d g) := h.foldl fun ha => by
  refine .ite ha ?_
  split
  · exact .ite ha.ctxCount (.ite ha.modCtx (Books.ctxCount (Books.ctxCount ha.modPt)))
  · exact ha

theorem Books.recordFeeds (h : Books c s t) : Books c s (t.recordFeeds d k) := (h.foldl fun ha => ha.setOutcome).modCtx

theorem Books.endArmed (h : Books c s t) : Books c s (t.endArmed d) := (h.foldl fun ha => ha.foldl fun hb => hb.setOutcome).modCtx

theorem Books.calRecord {step outcome cause : Nat} {overdue : Bool} {left : List (Nat × Nat)} (h : Books c s t) :
    Books c s (t.calRecord d step outcome cause overdue left) := h.of_same rfl rfl

theorem Books.clearStale (h : Books c s t) : Books c s (t.clearStale d) := h.foldl fun ha => ha.modTile

theorem Books.raise {b : Nat} (h : Books c s t) : Books c s (t.raise b) := by
  have hr := (State.raise_eq t b).1
  refine h.of_same ?_ ?_
  all_goals rw [hr]
  rfl

theorem Books.finishOp {st : Nat} {b : List Byte} (h : Books c s t) : Books c s (t.finishOp n st b) := by
  unfold State.finishOp
  split
  · exact h
  · next o _ =>
    extract_lets o'
    have ho : Books c s { t with ops := pruneOps ((t.ops.filter (·.id ≠ n)) ++ [o']) } := h.of_same rfl rfl
    exact .ite h ho.raise

theorem Books.modeApplied {us : List Nat} {bad : Bool} (h : Books c s t) : Books c s (t.modeApplied m us bad) := by
  unfold State.modeApplied
  extract_lets upd src s1
  have hs1 : Books c s s1 := h.of_same rfl rfl
  split
  · exact hs1
  · next x _ =>
    have hm : Books c s { s1 with mgmt := { s1.mgmt with modes := s1.mgmt.modes.filter (·.mode ≠ m) } } := hs1.of_same rfl rfl
    exact hm.finishOp.raise

theorem Books.perfAtCommit (h : Books c s t) : Books c s (t.perfAtCommit d) := by
  unfold State.perfAtCommit
  split
  · exact h
  · split
    · exact h
    · extract_lets us
      exact .ite h ((h.foldl fun ha => ha.modPt).modeApplied)

theorem Books.beginCatchup (h : Books c s t) : Books c s (t.beginCatchup n) := by
  unfold State.beginCatchup
  extract_lets x
  split
  · refine .ite h ?_
    exact .ite h.modSheet h.modSheet
  · exact h

theorem Books.beginPrologue (h : Books c s t) : Books c s (t.beginPrologue d g) := .ite h.modCtx (h.sheetWork SheetWork.refl.writePrologue).modCtx

theorem Books.leavePoint (h : Books c s t) : Books c s (t.leavePoint d) := by
  unfold State.leavePoint
  extract_lets x
  refine .ite h.modCtx (.ite h.modCtx (.ite h.modCtx (.ite h.modCtx ?_)))
  split
  exacts [h.beginPrologue.modCtx, h.modCtx]

/-! ### The commit (R261, R338, R348, R417, R419) -/

/-- A context whose step has committed: what `books` speaks of. -/
def Context.committed (x : Context) (g : Prog) : Context := { x with
  flips := x.flips.mapIdx fun i f => if (g.regions.getD i ⟨0, 0, 0, false⟩).double then !f else f
  step := x.step + 1, commit := { x.commit with sched := x.sched }, rollbacks := 0, faults := [] }

theorem Context.committed_books {x y : Context} (h : y.books = x.books) : (y.committed g).books = (x.committed g).books := by
  simp only [Context.books, Prod.mk.injEq] at h
  obtain ⟨⟨h1, -, h3, -, -, h6⟩, h7, h8⟩ := h
  simp only [Context.books, Context.committed, h1, h3, h6, h7, h8]

theorem Books.length (h : Books c s t) : t.ctxs.length = s.ctxs.length := congrArg Prod.fst h.stores

theorem Books.jobs (h : Books c s t) : t.jobs = s.jobs := congrArg (fun y => y.2.1) h.stores

theorem State.commitRecords_books (hc : c < s.ctxs.length) :
    ((s.commitRecords c g).ctx c).books = ((s.ctx c).committed g).books ∧ (s.commitRecords c g).stores = s.stores := by
  unfold State.commitRecords
  extract_lets s1 s2 tiles
  have hs1 : Books c s s1 := Books.refl.foldl fun ha => ha.modTile
  have hs2 : Books c s s2 := hs1.foldl fun ha => ha.recordFeeds
  refine ⟨?_, State.modCtx_stores.trans hs2.stores⟩
  rw [State.ctx_modCtx_same _ _ _ (by rwa [hs2.length])]
  exact Context.committed_books hs2.books

/-- The runs that end at a commit: the context is placed, its RUN over. -/
def State.endRunAt (s : State) (c : Nat) (x : Context) : State :=
  match x.runEnd with
  | some e =>
    let y := s.endRun c e.1 e.2
    let z : State := if e.1 = rRefresh ∨ x.refreshEnd then x.held.foldl (fun (a : State) p => a.modPt p fun w => { w with classN := false }) y else y
    z.modCtx c fun (w : Context) => { w with st := if w.st = CtxState.running then CtxState.placed else w.st, back := CtxState.placed, refreshEnd := false }
  | none => s

theorem State.commitStep_eq (h : (s.programAdds c g).pairCheck c g = .good) {v : State} (hv : v = ((s.programAdds c g).commitRecords c g).endArmed c) :
    ∃ w, (v.activeJob c = none → Books c v w) ∧ s.commitStep c g = ((w.endRunAt c (v.ctx c)).modCtx c fun y => { y with suspendDue := false }).leavePoint c := by
  subst hv
  unfold State.commitStep
  extract_lets adds
  split
  · next hb => rw [h] at hb; cases hb
  · next s1 x s2 s3 s4 reload s5 s6 s7 s8 s9 s10 _ _ =>
    refine ⟨s9, fun hj => ?_, rfl⟩
    have hs2 : Books c s1 s2 := .ite Books.refl.calRecord .refl
    have hs4 : Books c s1 s4 := hs2.clearStale.modCtx.perfAtCommit
    have hs5 : Books c s1 s5 := hs4.sheetWork SheetWork.refl.installPoints
    have hs6 : Books c s1 s6 := hs5.foldl fun ha => (ha.sheetWork SheetWork.refl.moveCols).modSheet
    have hs7 : Books c s1 s7 := hs6.modCtx
    have hs8 : Books c s1 s8 := .ite hs7 (hs7.foldl fun ha => ha.beginCatchup)
    have hj8 : s8.activeJob c = none := by
      rw [State.activeJob, hs8.jobs]
      exact hj
    have hs9 : s9 = s8 := by
      unfold s9 State.refreshAtCommit
      rw [hj8]
    rw [hs9]
    exact hs8

theorem State.endRun_stores {reason status : Nat} : (s.endRun c reason status).stores = s.stores := by
  have hout (a : State) (e : Nat) (i : W32) (o : Done) : (a.setOutcome c e i o).stores = a.stores := State.modCtx_stores
  have hstops (a : State) : (a.endStops c).stores = a.stores := State.modCtx_stores.trans (foldl_same (g := State.stores) fun _ _ => hout _ _ _ _)
  unfold State.endRun
  split
  exacts [hstops s, (hstops _).trans (State.modCtx_stores.trans (hout _ _ _ _))]

/-- The end of a RUN at a commit leaves the books; a program that ran stands placed, its RUN over. -/
theorem State.endRunAt_books {x : Context} (hc : c < s.ctxs.length) : ((s.endRunAt c x).ctx c).books.1 = (s.ctx c).books.1 ∧
    (s.endRunAt c x).stores = s.stores ∧
    (x.runEnd ≠ none → (s.ctx c).st = .running → ((s.endRunAt c x).ctx c).st = .placed ∧ ((s.endRunAt c x).ctx c).run = none) := by
  unfold State.endRunAt
  split
  · next e _ =>
    extract_lets y z
    have hy : (y.ctx c).books.1 = (s.ctx c).books.1 := State.endRun_ctx_eq (f := fun x => x.books.1) (fun _ _ => rfl) (fun _ _ => rfl) fun _ _ => rfl
    have hyst : (y.ctx c).st = (s.ctx c).st := State.endRun_ctx_eq (fun _ _ => rfl) (fun _ _ => rfl) fun _ _ => rfl
    have hyrun : (y.ctx c).run = none := (State.endRun_ctx hc).run
    have hys : y.stores = s.stores := State.endRun_stores
    have hz : Books c y z := .ite (Books.refl.foldl fun ha => ha.modPt) .refl
    have hzb := hz.books
    have hl : c < z.ctxs.length := by
      have hlen : y.ctxs.length = s.ctxs.length := congrArg Prod.fst hys
      rwa [hz.length, hlen]
    have hst : (z.ctx c).st = (y.ctx c).st := congrArg (fun b => b.2.1) hzb
    have hrun : (z.ctx c).run = (y.ctx c).run := congrArg (fun b => b.2.2) hzb
    rw [State.ctx_modCtx_same _ _ _ hl]
    refine ⟨(congrArg Prod.fst hzb).trans hy, State.modCtx_stores.trans (hz.stores.trans hys), fun _ hr => ⟨?_, hrun.trans hyrun⟩⟩
    exact if_pos (hst.trans (hyst.trans hr))
  · next hn => exact ⟨rfl, rfl, fun h => absurd hn h⟩

/-- A step commits: its context is committed, and no memory changes. -/
theorem State.commitStep_commits (hs : Shaped s) (hc : c < 64) (hj : s.activeJob c = none) (h : (s.programAdds c g).pairCheck c g = .good) :
    ((s.commitStep c g).ctx c).books.1 = ((s.ctx c).committed g).books.1 ∧ (s.commitStep c g).stores = s.stores ∧
      (∀ x, (s.ctx c).st = .running → (s.ctx c).run = some x → x.limit ≠ 0 → x.limit ≤ (s.ctx c).step + 1 →
        ((s.commitStep c g).ctx c).st = .placed ∧ ((s.commitStep c g).ctx c).run = none) := by
  obtain ⟨w, hw, he⟩ := State.commitStep_eq h rfl
  have hadds : Books c s (s.programAdds c g) := Books.refl.programAdds
  obtain ⟨hrec, hrecs⟩ := State.commitRecords_books (s := s.programAdds c g) (c := c) (g := g) (by rw [hadds.length]; exact hs.ctx_lt ⟨c, hc⟩)
  have hv : Books c ((s.programAdds c g).commitRecords c g) (((s.programAdds c g).commitRecords c g).endArmed c) := Books.refl.endArmed
  generalize ((s.programAdds c g).commitRecords c g).endArmed c = v at hw he hv
  have hvb : (v.ctx c).books = ((s.ctx c).committed g).books := hv.books.trans (hrec.trans (Context.committed_books hadds.books))
  have hvs : v.stores = s.stores := hv.stores.trans (hrecs.trans hadds.stores)
  have hwv := hw (by rw [State.activeJob, show v.jobs = s.jobs from congrArg (fun y => y.2.1) hvs]; exact hj)
  have hwb := hwv.books.trans hvb
  have hl : c < w.ctxs.length := by
    have : w.ctxs.length = s.ctxs.length := congrArg Prod.fst (hwv.stores.trans hvs)
    rw [this]
    exact hs.ctx_lt ⟨c, hc⟩
  obtain ⟨hb, hst, hend⟩ := State.endRunAt_books (x := v.ctx c) hl
  have ht : Books c (w.endRunAt c (v.ctx c)) (s.commitStep c g) := he ▸ Books.refl.modCtx.leavePoint
  refine ⟨(congrArg Prod.fst ht.books).trans (hb.trans (congrArg Prod.fst hwb)), ht.stores.trans (hst.trans (hwv.stores.trans hvs)),
    fun x hrun hx h0 hlim => ?_⟩
  have hvrun : (v.ctx c).run = some x := (congrArg (fun b => b.2.2) hvb).trans hx
  have hvstep : (v.ctx c).step = (s.ctx c).step + 1 := congrArg (fun b => b.1.1) hvb
  have hre : (v.ctx c).runEnd ≠ none := by
    unfold Context.runEnd
    simp [hvrun, hvstep, h0, hlim]
  obtain ⟨h1, h2⟩ := hend hre ((congrArg (fun b => b.2.1) hwb).trans hrun)
  exact ⟨(congrArg (fun b => b.2.1) ht.books).trans h1, (congrArg (fun b => b.2.2) ht.books).trans h2⟩
end
end Sys2Proof.Machine

namespace Sys2Proof.Machine

section
variable {s t u : State} {c d k m n : Nat} {g : Prog}

/-! ### The rollback (R348, R420, R507, R508) -/

theorem State.beginPrologue_ctx (hc : c < s.ctxs.length) : (s.beginPrologue c g).ctx c = { s.ctx c with
    hold := if s.refeeds c then .refeed s.clk.life else .prologue s.clk.life, reads := (s.ctx c).reads.filter fun r => !r.pro } := by
  have hw : (s.writePrologue c g.prologue).ctxs = s.ctxs := State.writePrologue_ctxs
  unfold State.beginPrologue
  split
  · exact State.ctx_modCtx_same _ _ _ hc
  · rw [State.ctx_modCtx_same _ _ _ (by rwa [hw]), State.ctx, hw]
    rfl

theorem State.beginPrologue_sprog : ((s.beginPrologue c g).sheet n).sprog = (s.sheet n).sprog := by
  unfold State.beginPrologue
  split
  · rfl
  · exact (SheetWork.refl.writePrologue (s := s) (c := c) (l := g.prologue)).sprog n

/-- A context whose step rolls back, before its prologue (R420, R508). -/
def Context.rollsBack (x : Context) (replica : Bool) : Context := { x with
  rollbacks := x.rollbacks + 1, attempt := (x.attempt + 1) % 256, replicaRb := if replica then x.replicaRb + 1 else 0
  balanceRb := if x.faults.headD 0 = 0x010F then x.balanceRb else none }

/-- A context whose step begins anew after faults `l` (R420, R488). -/
def Context.anew (x : Context) (l : List Nat) : Context := { x with
  faults := [], memErrs := [], violated := false, overdue := false, commitHold := false, proAgain := false
  armed := x.armed.map fun m => { m with h1 := 0, h2 := 0, disagreed := m.disagreed || l.contains 0x010E } }

/-- From `s` to `t` the step of context `c` has rolled back. -/
structure RolledBack (c : Nat) (s t : State) : Prop where
  step : (t.ctx c).step = (s.ctx c).step
  sched : (t.ctx c).sched = (s.ctx c).commit.sched
  rollbacks : (t.ctx c).rollbacks = (s.ctx c).rollbacks + 1
  faults : (t.ctx c).faults = []
  hold : (t.ctx c).hold = if t.refeeds c then .refeed s.clk.life else .prologue s.clk.life
  sprog : ∀ n, n < 24 → ptOfSheet n ∈ (s.ctx c).held → (t.sheet n).sprog = (s.ctx c).commit.sched
  flips : (t.ctx c).flips = (s.ctx c).flips
  dram : t.dram = s.dram
  pool : t.pool = s.pool
  reel : t.reel = s.reel
  ident : t.ident = s.ident

theorem State.rollbackStep_rolls {replica : Bool} (hs : Shaped s) (hc : c < 64) (h1 : (s.ctx c).rollbacks < (s.ctx c).rbLimit)
    (h2 : (s.ctx c).replicaRb < 2) : RolledBack c s (s.rollbackStep c g replica) := by
  unfold State.rollbackStep
  extract_lets x s1 s2 s3 s4
  rw [if_neg (Nat.not_le.2 h1), if_neg fun h => absurd h.2 (Nat.not_le.2 h2)]
  change RolledBack c s ((s4.modCtx c fun y => y.anew x.faults).beginPrologue c g)
  have hs1 : Shaped s1 := hs.ctxCount.modCtx
  have hs2 : Shaped s2 := hs1.calRecord
  have hl1 : c < s.ctxs.length := hs.ctx_lt ⟨c, hc⟩
  have hx1 : s1.ctx c = Context.rollsBack { s.ctx c with counters := (s.ctx c).counters.bump 0x0A06 1 } replica := by
    unfold s1 State.ctxCount
    rw [State.ctx_modCtx_same _ _ _ (by simpa [State.modCtx] using hl1), State.ctx_modCtx_same _ _ _ hl1]
    rfl
  have hx2 : s2.ctx c = s1.ctx c := rfl
  have hx3 : s3.ctx c = (s1.ctx c).restored g := State.restoreCommit_ctx (hs2.ctx_lt ⟨c, hc⟩)
  have hs4s : SheetWork s3 s4 := SheetWork.refl.foldl fun ha => ha.modSheet
  have hx4 : s4.ctx c = s3.ctx c := by
    rw [hs4s.same]
    rfl
  have hs4 : Shaped s4 := hs2.restoreCommit.foldl fun ha => ha.modSheet
  have hl4 : c < s4.ctxs.length := hs4.ctx_lt ⟨c, hc⟩
  have hw4 : CycleWork s2 s4 := CycleWork.refl.restoreCommit.foldl fun ha => ha.modSheet
  have hx5 := State.ctx_modCtx_same (s := s4) c (fun y => y.anew x.faults) hl4
  have hw5 : CycleWork s2 (s4.modCtx c fun y => y.anew x.faults) := hw4.modCtx
  have hl5 : c < (s4.modCtx c fun y => y.anew x.faults).ctxs.length := by
    simpa [State.modCtx] using hl4
  rw [hx4, hx3, hx1] at hx5
  have hsh5 (n : Nat) : (s4.modCtx c fun y => y.anew x.faults).sheet n = s4.sheet n := rfl
  generalize s4.modCtx c _ = v at hx5 hw5 hl5 hsh5
  have hp := State.beginPrologue_ctx (g := g) hl5
  have hw : CycleWork s2 (v.beginPrologue c g) := hw5.beginPrologue
  have hre : (v.beginPrologue c g).refeeds c = v.refeeds c := by
    unfold State.refeeds
    rw [hp]
  rw [hx5] at hp
  constructor
  case step => rw [hp]; rfl
  case sched => rw [hp]; rfl
  case rollbacks => rw [hp]; rfl
  case faults => rw [hp]; rfl
  case hold =>
    rw [hre, hp, hw5.clk]
    rfl
  case sprog =>
    intro n hn hheld
    rw [State.beginPrologue_sprog, hsh5, hs4s.sprog]
    have := State.restoreCommit_sprog (g := g) hs2 hn (c := c) (by rw [hx2, hx1]; exact hheld)
    rw [this, hx2, hx1]
    rfl
  case flips => rw [hp]; rfl
  case dram => exact hw.dram
  case pool => exact hw.pool
  case reel => exact hw.reel
  case ident => exact hw.management.1

/-! ### A fault leaves the step count (R417) -/

/-- The step count of every context is as it was. -/
def StepsKept (s t : State) : Prop := ∀ d, (t.ctx d).step = (s.ctx d).step

section
variable {id p j : Nat} {b : List Byte}

theorem StepsKept.refl : StepsKept s s := fun _ => rfl

theorem StepsKept.ite {q : Prop} [Decidable q] (ht : StepsKept s t) (hu : StepsKept s u) : StepsKept s (if q then t else u) := by
  split <;> assumption

theorem StepsKept.foldl {α : Type} {l : List α} {f : State → α → State} (h : StepsKept s t) (hf : ∀ {a x}, StepsKept s a → StepsKept s (f a x)) :
    StepsKept s (l.foldl f t) := List.foldlRecOn l f h fun _ ha _ _ => hf ha

theorem StepsKept.of_ctxs (h : StepsKept s t) (hc : u.ctxs = t.ctxs) : StepsKept s u := fun d => by
  rw [State.ctx, hc]
  exact h d

theorem StepsKept.recorded (h : StepsKept s t) (hr : Recorded t u) : StepsKept s u := h.of_ctxs (by rw [hr])

theorem StepsKept.modCtx {f : Context → Context} (h : StepsKept s t) (hf : ∀ x, (f x).step = x.step := by intro; rfl) : StepsKept s (t.modCtx k f) :=
  fun d => (State.ctx_modCtx_eq (g := Context.step) hf).trans (h d)

theorem StepsKept.transmit (h : StepsKept s t) : StepsKept s (t.transmit k b) := by
  unfold State.transmit
  exact .ite (h.of_ctxs rfl) (.ite (h.of_ctxs rfl) (h.of_ctxs rfl))

theorem StepsKept.stale {x : Packet} (h : StepsKept s t) : StepsKept s (t.stale x) := by
  unfold State.stale
  extract_lets s1 c
  have hs1 : StepsKept s s1 := h.recorded Recorded.refl.logFabric
  clear_value c
  split
  exacts [hs1.modCtx, hs1]

theorem StepsKept.deliverPacket {x : Packet} (h : StepsKept s t) : StepsKept s (t.deliverPacket x) := by
  unfold State.deliverPacket
  extract_lets r heard s1
  have hs1 : StepsKept s s1 := h.of_ctxs rfl
  exact .ite (.ite hs1 hs1.stale) (hs1.of_ctxs rfl)

theorem StepsKept.fwdDrop (h : StepsKept s t) : StepsKept s (t.fwdDrop k n) :=
  have hp : StepsKept s (t.portCount k 6 1) := h.of_ctxs rfl
  .ite (hp.recorded Recorded.refl.logFabric) h

theorem StepsKept.sendPacket {x : Packet} (h : StepsKept s t) : StepsKept s (t.sendPacket x) :=
  .ite h (.ite h.deliverPacket (.ite h (.ite h.fwdDrop h.transmit)))

theorem StepsKept.memberSend (h : StepsKept s t) : StepsKept s (t.memberSend id n k b) := by
  unfold State.memberSend State.memberSendAt
  split
  · exact h
  · split
    · exact h
    · exact StepsKept.sendPacket (h.of_ctxs rfl)

theorem StepsKept.leaveJob (h : StepsKept s t) : StepsKept s (t.leaveJob id n) := by
  unfold State.leaveJob
  split
  · exact h
  · exact StepsKept.of_ctxs (StepsKept.ite (h.foldl fun ha => ha.memberSend) h) rfl

theorem StepsKept.endEntries {sel : Entry → Bool} {o : Done} (h : StepsKept s t) : StepsKept s (t.endEntries c k sel o) := h.foldl fun ha => ha.modCtx

theorem StepsKept.orphanWork (h : StepsKept s t) : StepsKept s (t.orphanWork c) := h.endEntries.endEntries.endEntries.modCtx

theorem StepsKept.markImports (h : StepsKept s t) : StepsKept s (t.markImports c n k) := fun d => by
  refine Eq.trans ?_ (h d)
  by_cases hl : d < t.ctxs.length
  · simp [State.ctx, State.markImports, List.getD_eq_getElem?_getD, hl]
  · simp [State.ctx, State.markImports, List.getD_eq_getElem?_getD, hl]

theorem StepsKept.resumeObjects (h : StepsKept s t) : StepsKept s (t.resumeObjects c) :=
  ((h.foldl fun {a} {x : Nat × Nat × W32 × Nat} ha =>
    have hp : StepsKept s (a.modPt x.1 fun p => { p with counters := p.counters.set x.2.1 (p.counters.getD x.2.1 0 + x.2.2.1) }) := ha.of_ctxs rfl
    hp.modCtx).modCtx).markImports

theorem StepsKept.faultCtx {reason status : Nat} (h : StepsKept s t) : StepsKept s (t.faultCtx c reason status) := by
  unfold State.faultCtx
  extract_lets +onlyGivenNames x
  refine .ite h ?_
  extract_lets s1 s2 s3 s4
  have hrun : StepsKept s (t.endRun c reason status) := fun d => (State.endRun_ctx_eq (fun _ _ => rfl) (fun _ _ => rfl) fun _ _ => rfl).trans (h d)
  have hs1 : StepsKept s s1 := hrun.modCtx
  have hs2 : StepsKept s s2 := by unfold s2; split; exacts [hs1.of_ctxs rfl, hs1]
  have hs4 : StepsKept s s4 := (hs2.endEntries (c := c)).orphanWork.resumeObjects
  split
  exacts [hs4.leaveJob, hs4]
end

/-- At ROLLBACK_LIMIT the program ends FAULTED (R508). -/
theorem State.rollbackStep_faults {replica : Bool} (hs : Shaped s) (hc : c < 64) (h : (s.ctx c).st = .running ∨ (s.ctx c).st = .suspending)
    (hl : (s.ctx c).rbLimit ≤ (s.ctx c).rollbacks) : ((s.rollbackStep c g replica).ctx c).st = .faulted ∧
      ((s.rollbackStep c g replica).ctx c).run = none ∧ ((s.rollbackStep c g replica).ctx c).step = (s.ctx c).step ∧
      (s.rollbackStep c g replica).dram = s.dram ∧ (s.rollbackStep c g replica).pool = s.pool ∧ (s.rollbackStep c g replica).reel = s.reel ∧
      (s.rollbackStep c g replica).ident = s.ident := by
  unfold State.rollbackStep
  dsimp only
  rw [if_pos hl]
  have hlog : Reports c s (s.logErr 0x0204 (s.ctxAt c) (s.progressBody c 2)) := Reports.refl.logErr
  have hst := hlog.keeps (f := Context.st)
  have hsl : Shaped (s.logErr 0x0204 (s.ctxAt c) (s.progressBody c 2)) := hs.logErr
  generalize s.logErr 0x0204 (s.ctxAt c) (s.progressBody c 2) = v at hlog hst hsl
  have hk := State.faultCtx_same (reason := rRollback) (status := integrity) hsl hc (by rw [hst]; rcases h with h | h <;> simp [h])
  have hw : FaultWork v (v.faultCtx c rRollback integrity) := FaultWork.refl.faultCtx
  have hv := hlog.same
  refine ⟨hk.st, hk.run, (StepsKept.refl.faultCtx (s := v) c).trans (hlog.keeps (f := Context.step)), ?_, ?_, ?_, ?_⟩
  all_goals rw [hw, hv]

/-! ### The decision at a calender point (R419, R484, R505) -/

section
variable {evs : List CalEvent} {a : Nat} {c : Ctx}

theorem calenderPoint_waits (h : s.clk.life < a + 768 ∨ s.awaitsFirmware c = true) (hp : (s.ctx c).prog = some g) (hh : (s.ctx c).hold = .calender a) :
    calenderPoint c evs s = s := by
  unfold calenderPoint
  simp only [hh, hp]
  exact if_pos (by tauto)

variable (hs : Shaped s) (hp : (s.ctx c).prog = some g) (hh : (s.ctx c).hold = .calender a) (hact : (s.ctx c).active = true)
  (hlate : a + 768 ≤ s.clk.life) (hfw : s.awaitsFirmware c = false) {good : Bool}
  (hd : ((s.calEvents c evs).localDecision c g).2 = some good)
include hs hp hh hact hlate hfw hd

/-- From cycle 768 of its hold a context whose local decision stands goes on with it. -/
theorem calenderPoint_decides : ∃ v, exec (.calenderPoint c evs) s = nextOf s (v.afterLocal c g good) ∧ Reports c s v ∧ Shaped v ∧
    (good = true → (v.programAdds c g).pairCheck c g = .good) := by
  have hev : Reports c s (s.calEvents c evs) := Reports.refl.calEvents
  have hst : ((s.calEvents c evs).ctx c).st = (s.ctx c).st := hev.keeps (f := Context.st)
  obtain ⟨hrep, hgood⟩ := State.localDecision_reports hs.calEvents c.isLt (hst ▸ Context.active_st hact) hd
  refine ⟨_, congrArg (nextOf s) ?_, hev.trans hrep, hs.calEvents.localDecision, hgood⟩
  unfold calenderPoint
  simp only [hh, hp]
  rw [if_neg (by simp [hact, hfw, hlate]), hd]

/-- An armed region makes it report to the replica set, and wait (R484). -/
theorem calenderPoint_reports_answers (harm : (s.ctx c).armed ≠ []) :
    Answers (.calenderPoint c evs) s fun t => (t.ctx c).hold = .decide s.clk.life ∧ (t.ctx c).step = (s.ctx c).step ∧
      .replicaReport c ((s.ctx c).step + 1) good ((s.ctx c).armed.map fun m => (m.region, m.h2 ++ m.h1)) ∈ t.outbox ∧ SameMemory s t ∧
      SameManagement s t := by
  obtain ⟨v, hx, hrep, hv, -⟩ := calenderPoint_decides hs hp hh hact hlate hfw hd
  have harmed : (v.ctx c).armed = (s.ctx c).armed := hrep.keeps (f := Context.armed)
  have hstep : (v.ctx c).step = (s.ctx c).step := hrep.keeps (f := Context.step)
  have hsame := hrep.same
  have hclk : v.clk = s.clk := by rw [hsame]
  have hl : c.val < v.ctxs.length := hv.ctx_lt c
  unfold State.afterLocal at hx
  dsimp only at hx
  rw [if_neg (by simpa [harmed] using harm), harmed, hstep] at hx
  have hctx := State.ctx_modCtx_same (s := v.emit (.replicaReport c ((s.ctx c).step + 1) good ((s.ctx c).armed.map fun m => (m.region, m.h2 ++ m.h1))))
    c (fun y => { y with hold := .decide v.clk.life, replicaOk := none }) hl
  refine answers_of hx ⟨?_, ?_, mem_settle_outbox (List.mem_append_right _ (List.mem_singleton.2 rfl)), SameMemory.settle ?_, SameManagement.settle ?_⟩
  · rw [settle_ctx]
    exact (congrArg Context.hold hctx).trans (by rw [hclk])
  · rw [settle_ctx]
    exact (congrArg Context.step hctx).trans hstep
  · rw [hsame]
    exact ⟨rfl, rfl, rfl, rfl⟩
  · rw [hsame]
    exact ⟨rfl, rfl, rfl⟩

/-- With no region armed, a context in no job carries its decision out. -/
theorem calenderPoint_carries (hj : s.activeJob c = none) (harm : (s.ctx c).armed = []) :
    ∃ v, exec (.calenderPoint c evs) s = nextOf s (v.rollOrCommit c g good) ∧ Reports c s v ∧ Shaped v ∧ v.activeJob c = none ∧
      (good = true → (v.programAdds c g).pairCheck c g = .good) := by
  obtain ⟨v, hx, hrep, hv, hgood⟩ := calenderPoint_decides hs hp hh hact hlate hfw hd
  have harmed : (v.ctx c).armed = (s.ctx c).armed := hrep.keeps (f := Context.armed)
  have hvj : v.activeJob c = none := by
    rw [State.activeJob, show v.jobs = s.jobs by rw [hrep.same]]
    exact hj
  refine ⟨v, ?_, hrep, hv, hvj, hgood⟩
  unfold State.afterLocal State.afterReplica at hx
  dsimp only at hx
  rwa [if_pos (by rw [harmed, harm]; rfl), hvj] at hx

theorem calenderPoint_commits_answers (hg : good = true) (hj : s.activeJob c = none) (harm : (s.ctx c).armed = []) :
    Answers (.calenderPoint c evs) s fun t => (t.ctx c).step = (s.ctx c).step + 1 ∧ (t.ctx c).commit.sched = (s.ctx c).sched ∧
      (t.ctx c).sched = (s.ctx c).sched ∧ (t.ctx c).rollbacks = 0 ∧ (t.ctx c).faults = [] ∧
      (t.ctx c).flips = ((s.ctx c).flips.mapIdx fun i f => if (g.regions.getD i ⟨0, 0, 0, false⟩).double then !f else f) ∧
      (∀ x, (s.ctx c).st = .running → (s.ctx c).run = some x → x.limit ≠ 0 → x.limit ≤ (s.ctx c).step + 1 →
        (t.ctx c).st = .placed ∧ (t.ctx c).run = none) ∧
      t.dram = s.dram ∧ t.pool = s.pool ∧ t.reel = s.reel ∧ t.ident = s.ident := by
  obtain ⟨v, hx, hrep, hv, hvj, hgood⟩ := calenderPoint_carries hs hp hh hact hlate hfw hd hj harm
  rw [State.rollOrCommit, if_pos hg] at hx
  obtain ⟨hb, hst, hend⟩ := State.commitStep_commits hv c.isLt hvj (hgood hg)
  refine answers_of hx ?_
  simp only [settle_ctx, settle_dram, settle_pool, settle_reel, settle_ident]
  generalize v.commitStep c g = t at hb hst hend
  rw [hrep.keeps (f := Context.st), hrep.keeps (f := Context.run), hrep.keeps (f := Context.step)] at hend
  have hbooks : ((v.ctx c).committed g).books.1 = ((s.ctx c).committed g).books.1 := hrep.keeps (f := fun x => (x.committed g).books.1)
  rw [hbooks] at hb
  simp only [Context.books, Context.committed, Prod.mk.injEq] at hb
  simp only [State.stores, Prod.mk.injEq] at hst
  obtain ⟨h1, h2, h3, h4, h5, h6⟩ := hb
  obtain ⟨-, -, hdram, hpool, hreel, hident⟩ := hst
  have hsame := hrep.same
  exact ⟨h1, h2, h3, h4, h5, h6, hend, hdram.trans (by rw [hsame]), hpool.trans (by rw [hsame]), hreel.trans (by rw [hsame]),
    hident.trans (by rw [hsame])⟩

theorem calenderPoint_rolls_answers (hg : good = false) (hj : s.activeJob c = none) (harm : (s.ctx c).armed = [])
    (hl : (s.ctx c).rollbacks < (s.ctx c).rbLimit) (hrb : (s.ctx c).replicaRb < 2) :
    Answers (.calenderPoint c evs) s fun t => (t.ctx c).step = (s.ctx c).step ∧ (t.ctx c).sched = (s.ctx c).commit.sched ∧
      (t.ctx c).rollbacks = (s.ctx c).rollbacks + 1 ∧ (t.ctx c).faults = [] ∧
      (t.ctx c).hold = (if t.refeeds c then .refeed s.clk.life else .prologue s.clk.life) ∧
      (∀ n, n < 24 → ptOfSheet n ∈ (s.ctx c).held → (t.sheet n).sprog = (s.ctx c).commit.sched) ∧
      (t.ctx c).flips = (s.ctx c).flips ∧ t.dram = s.dram ∧ t.pool = s.pool ∧ t.reel = s.reel ∧ t.ident = s.ident := by
  obtain ⟨v, hx, hrep, hv, -, -⟩ := calenderPoint_carries hs hp hh hact hlate hfw hd hj harm
  rw [State.rollOrCommit, if_neg (by simp [hg])] at hx
  have hr := State.rollbackStep_rolls (g := g) (replica := (v.ctx c).faults.any fun f => decide (f = 0x010D ∨ f = 0x010E)) hv c.isLt
    (by rwa [hrep.keeps (f := Context.rollbacks), hrep.keeps (f := Context.rbLimit)]) (by rwa [hrep.keeps (f := Context.replicaRb)])
  generalize v.rollbackStep c g _ = t at hx hr
  have hre : (settle s t).refeeds c = t.refeeds c := by rw [State.refeeds, settle_ctx, State.refeeds]
  have hcommit := hrep.keeps (f := fun x => x.commit.sched)
  have hsame := hrep.same
  refine answers_of hx ?_
  simp only [settle_ctx, settle_sheet, settle_dram, settle_pool, settle_reel, settle_ident, hre]
  refine ⟨hr.step.trans (hrep.keeps (f := Context.step)), hr.sched.trans hcommit,
    hr.rollbacks.trans (congrArg (· + 1) (hrep.keeps (f := Context.rollbacks))), hr.faults,
    hr.hold.trans (by rw [show v.clk = s.clk by rw [hsame]]), fun n hn hm => (hr.sprog n hn ?_).trans hcommit,
    hr.flips.trans (hrep.keeps (f := Context.flips)), hr.dram.trans (by rw [hsame]), hr.pool.trans (by rw [hsame]),
    hr.reel.trans (by rw [hsame]), hr.ident.trans (by rw [hsame])⟩
  rwa [hrep.keeps (f := Context.held)]

theorem calenderPoint_faults_answers (hg : good = false) (hj : s.activeJob c = none) (harm : (s.ctx c).armed = [])
    (hl : (s.ctx c).rbLimit ≤ (s.ctx c).rollbacks) :
    Answers (.calenderPoint c evs) s fun t => (t.ctx c).st = .faulted ∧ (t.ctx c).run = none ∧ (t.ctx c).step = (s.ctx c).step ∧
      t.dram = s.dram ∧ t.pool = s.pool ∧ t.reel = s.reel ∧ t.ident = s.ident := by
  obtain ⟨v, hx, hrep, hv, -, -⟩ := calenderPoint_carries hs hp hh hact hlate hfw hd hj harm
  rw [State.rollOrCommit, if_neg (by simp [hg])] at hx
  have hr := State.rollbackStep_faults (g := g) (replica := (v.ctx c).faults.any fun f => decide (f = 0x010D ∨ f = 0x010E)) hv c.isLt
    (by rw [hrep.keeps (f := Context.st)]; exact Context.active_st hact)
    (by rwa [hrep.keeps (f := Context.rollbacks), hrep.keeps (f := Context.rbLimit)])
  generalize v.rollbackStep c g _ = t at hx hr
  obtain ⟨hst, hrun, hstep, hdram, hpool, hreel, hident⟩ := hr
  have hsame := hrep.same
  refine answers_of hx ?_
  simp only [settle_ctx, settle_dram, settle_pool, settle_reel, settle_ident]
  exact ⟨hst, hrun, hstep.trans (hrep.keeps (f := Context.step)), hdram.trans (by rw [hsame]), hpool.trans (by rw [hsame]),
    hreel.trans (by rw [hsame]), hident.trans (by rw [hsame])⟩
end
end
end Sys2Proof.Machine

open Sys2Proof.Machine in
/-- Settles O34: the local decision changes no more than what is recorded; then a report, a commit, a rollback and a program's end, by what each leaves
its context. -/
theorem calenderPoint : Obligations.CalenderPoint := by
  rintro s c evs g a r hs hp hh hact rfl
  refine ⟨fun h => makes_of (congrArg (nextOf s) (calenderPoint_waits h hp hh)),
    fun good hlate hfw harm hd => calenderPoint_reports_answers hs hp hh hact hlate hfw hd harm, fun hlate hfw hj harm => ⟨fun hd => ?_, fun hd hl hrb => ?_,
      fun hd hl => ?_⟩⟩
  · exact calenderPoint_commits_answers hs hp hh hact hlate hfw hd rfl hj harm
  · exact calenderPoint_rolls_answers hs hp hh hact hlate hfw hd rfl hj harm hl hrb
  · exact calenderPoint_faults_answers hs hp hh hact hlate hfw hd rfl hj harm hl
